-- ==== Sys2Proof/Word.lean ====
section
/-! DEFINITION. The word types of the model and the finite table type every array of the machine is held in. -/

namespace Sys2Proof

/-- One byte. -/
abbrev Byte := BitVec 8

/-- One register dword, and the bits of one FP32 value. -/
abbrev Word32 := BitVec 32

/-- One 64-bit word: a scalar register of a core, an address, an RTB count. -/
abbrev Word64 := BitVec 64

/-- A sparse array: (index, value) pairs with indexes strictly rising and no entry equal to the array's default value.
The operations that read and write one are in Machine/Table.lean. -/
abbrev Tbl (α : Type) := List (Nat × α)

end Sys2Proof
end

