-- ==== Sys2Proof/Syntax.lean ====
section
/-! DEFINITION. The commands of the block: one constructor per row of spec/opcode_table.json, and their operand types. -/

namespace Sys2Proof

/-- Who accesses a register, and through which window (R31, R33, R35, R36, R472): PF0 of a port (false A, true B) through BAR0, or through
the doorbell pages of its BAR2; a virtual function through its BAR0; management, or management reading a virtual function's page, which
has no BAR0 offset of PF0 (log entry 61). -/
inductive Accessor where
  | pf0 (port : Bool)
  | bar2 (port : Bool)
  | vf (port : Bool) (fn : BitVec 5)
  | mgmt
  | mgmtFn (port : Bool) (fn : BitVec 5)
deriving DecidableEq, Repr

/-- The queue pair a host command came from and its identifier (R453, R457); `origin` is the ring position whose host port fetched it
when another member forwarded it, 0xFF for this device's own ports. -/
structure Issuer where
  port : Bool
  fn : BitVec 5
  pair : BitVec 8
  cid : BitVec 16
  origin : BitVec 8 := 0xFF
deriving DecidableEq, Repr

/-- The pair's number among this device's own pairs, 0-255, and those of forwarded commands, from 256 on. -/
def Issuer.pairKey (i : Issuer) : Nat := if i.origin = 0xFF then i.pair.toNat else 256 * (i.origin.toNat + 1) + i.pair.toNat


/-- One input of a repair round (R150-R152): a vector of the probe set by its number, or, where `probe` is none, vector `vector` of the
retained arrival `entry` with the FP32 values `x` that the plan's code forms from it; the scales s_a and r_a that the code supplies; and the
LX48 value and halving count that each output column's entry read out. -/
structure RepairInput where
  probe : Option (BitVec 32)
  entry : BitVec 16
  vector : BitVec 8
  x : List (BitVec 32)
  sA : BitVec 32
  rA : BitVec 32
  reads : List (BitVec 48 × BitVec 4)
deriving DecidableEq, Repr

/-- A read of words that stand in a scratchpad or in the stacks, for what a row is about: the position or stream, and the words of the read
that meet a bit error, each with whether it is uncorrectable (R201, R386). -/
structure ErrRead where
  subject : BitVec 16
  ecc : List (Nat × Bool)
deriving DecidableEq, Repr

/-- What a read of a pause image gave (R372): the sealed pages of this device by their index, and the ring position and page of another
device's page that failed its tag. -/
structure ImageRead where
  pages : List (BitVec 56 × List Byte)
  tagFailure : Option (BitVec 6 × BitVec 56)
deriving DecidableEq, Repr

/-- What the headframe's firmware has told a member before a boundary (R359-R365, R433), in the model's own form (log entry 21): kind 0 a
stream's owner and settings block, 1 pages to allocate, 2 pages to release, 3 a page to attach and the stream and page that hold its
frame, 4 a page to copy, 5 a stream gone, 6 a run assigned: position, run slot, first position, vectors, PREFILL flag, k, last flag, with the input
tokens of a PREFILL run. -/
structure Order where
  kind : BitVec 8
  stream : BitVec 16
  owner : BitVec 8
  args : List (BitVec 32)
  block : List (BitVec 8)
deriving DecidableEq, Repr

/-- The transport of an SPDM request (R470, R520): the management endpoint, or the DOE mailbox of a function. -/
inductive Via where
  | mgmt
  | doe (port : Bool) (fn : BitVec 5)
deriving DecidableEq, Repr

/-- The commands of the block, one per row of spec/opcode_table.json. -/
inductive Instr where
  /-- REGISTER_WRITE (R14): A write to a register that has no row of its own takes effect according to its access code, or is discarded. -/
  | registerWrite (a : Accessor) (offset : BitVec 25) (size : BitVec 8) (value : BitVec 32)
  /-- RC_READ (R14): A read of an RC register or field returns the value and clears it, with a coincident increment kept. -/
  | rcRead (a : Accessor) (offset : BitVec 25) (size : BitVec 8)
  /-- SQ_BEAT_COUNT_READ (R310): A read of SQ_BEAT_COUNT returns bits [31:0] and latches bits [63:32] into SQ_BEAT_COUNT_HI. -/
  | sqBeatCountRead (a : Accessor) (wide : Bool)
  /-- DEV_RTB_READ (R635): A read of DEV_RTB_LO returns RTB bits [31:0] and latches bits [63:32] into DEV_RTB_HI. -/
  | devRtbRead (a : Accessor) (wide : Bool)
  /-- PAGE_ENABLE_WRITE (R22): A write that changes PAGE_CTRL.EN takes effect only while no plan is admitted, and is otherwise discarded. -/
  | pageEnableWrite (port : Bool) (page : BitVec 9) (value : BitVec 32)
  /-- THAW (R49): A write of PAGE_CTRL.THAW thaws the frozen masters of the page that the writer is entitled to thaw and returns them to idle. -/
  | thaw (a : Accessor) (page : BitVec 9) (value : BitVec 32)
  /-- SRST (R24): A write of PAGE_CTRL.SRST starts a page soft reset if the page and its state accept it. -/
  | srst (port : Bool) (page : BitVec 9) (value : BitVec 32)
  /-- SRST_DONE (R24): Completion of a page soft reset clears BUSY and raises event 0x03. -/
  | srstDone (page : BitVec 9)
  /-- EVT_FORCE (R42): A write of EVT_FORCE raises forced events that set EVT_STATUS and are reported, and nothing else. -/
  | evtForce (a : Accessor) (page : BitVec 9) (value : BitVec 32)
  /-- PAGE_LOCK (R27): A W1S write of PAGE_LOCK.LOCK makes the page's RWL registers read-only until a reset of the block. -/
  | pageLock (a : Accessor) (page : BitVec 9) (value : BitVec 32)
  /-- SHOT (R67): A plan shot on a tile drives, integrates and converts over ticks 0–10 and transfers its codes and flags to the lanes at tick 11. -/
  | shot (entry : BitVec 32)
  /-- RESHOT (R73): In a reserved slot the group sequencer re-drives a saturated plain shot half-split and converts up to 4 saturated pairs per converter. -/
  | reshot (group : BitVec 6) (op : BitVec 16) (logical : BitVec 10) (k : BitVec 2)
  /-- SEAM_RESHOT (R76): In a reserved slot both tiles of a saturated seam shot convert separately over their own rows. -/
  | seamReshot (group : BitVec 6) (op : BitVec 16) (logical : BitVec 10) (k : BitVec 2)
  /-- CALIBRATION_SHOT (R84): The group sequencer places a calibration shot in a free slot of a tile and sends its codes to the health block. -/
  | calibrationShot (group : BitVec 6) (tile : BitVec 11)
  /-- DRIVE_FETCH (R271): The group sequencer fetches the codes and mask of a drive source in the 16 ticks before its first shot of the beat. -/
  | driveFetch (group : BitVec 6) (source : BitVec 16) (row : BitVec 8) (ecc : List (Nat × Bool))
  /-- ENTRY_BLOCK_CLOSE (R192): Six ticks after the last transfer, every entry of the block on the delivering cores becomes FINAL with the overflow repeat applied. -/
  | entryBlockClose (entry : BitVec 32)
  /-- BEAT_START (R310): At tick 0 of a beat SQ_BEAT_COUNT increments and the beat's template begins. -/
  | beatStart (pos : BitVec 16)
  /-- BEAT_END (R144): At the end of a beat the device decides replay or acceptance and applies every beat-boundary update of the groups and cores. -/
  | beatEnd
  /-- TG_FSR_DEFAULT (R94): A write of the range envelope is checked, discarded whole if invalid, and applied at the next beat boundary. -/
  | tgFsrDefault (a : Accessor) (group : BitVec 6) (value : BitVec 32)
  /-- TG_CHECK_TOL (R96): A write of the checksum tolerance outside 1–63 is discarded, otherwise applied from the next beat boundary. -/
  | tgCheckTol (a : Accessor) (group : BitVec 6) (value : BitVec 32)
  /-- CAL_WINDOW_WRITE (R557): A write of a tile's baselines in the calibration window is accepted only while no plan set is admitted and unlocked. -/
  | calWindowWrite (a : Accessor) (tile : BitVec 17) (word : BitVec 4) (value : BitVec 32)
  /-- ADAPTER_COMMIT (R154): At the first step boundary with no replay pending, a staged adapter replaces the served copy and event 0x32 is raised. -/
  | adapterCommit (op : BitVec 16)
  /-- REPAIR_ROUND (R152): In a repair beat the cores shoot training inputs, form gradients and stage the adapter if the held-out loss does not rise. -/
  | repairRound (op : BitVec 16) (probes live heldOut : List RepairInput)
  /-- LOAD_WEIGHTS (R162): The command reads and checks the whole load list, blocks and scales and then holds its tiles for programming. -/
  | loadWeights (w : Issuer) (owner : BitVec 8) (list : BitVec 64) (ecc : List (Nat × Bool))
  /-- LOAD_WEIGHTS_START (R163): A waiting LOAD_WEIGHTS command starts when fewer than 4 are in progress, in order of arrival. -/
  | loadWeightsStart
  /-- TILE_PROGRAM_DONE (R169): Program-verify of a tile ends, its failed cells are compensated and it is retired if it meets a retirement condition. -/
  | tileProgramDone (tile : BitVec 17) (failed partners : List (Nat × Nat × Nat)) (iterations : BitVec 16) (touched : Bool)
  /-- TILE_SETTLE_END (R175): One second after its last program pulse a tile's settle time ends and its calibration may proceed. -/
  | tileSettleEnd (tile : BitVec 17)
  /-- TILE_CAL_COMPLETE (R137): A single tile's calibration completes, setting its baselines; a freshly programmed tile becomes ready. -/
  | tileCalComplete (tile : BitVec 17) (dead : List (BitVec 7))
  /-- LOAD_WEIGHTS_COMPLETE (R162): The command completes with OK, OK_RELIEVED or UNAVAILABLE and its three counts. -/
  | loadWeightsComplete (load : BitVec 32)
  /-- TILE_RETIRE (R170): A firmware retirement request holds a free relief tile and programs it from the master copy. -/
  | tileRetire (group : BitVec 6) (tile : BitVec 11) (ecc : List (Nat × Bool))
  /-- LIVE_SWAP (R176): At the first beat boundary after every target of a LIVE command is ready, all its swaps take effect together. -/
  | liveSwap (load : BitVec 32)
  /-- TILE_UNBIND (R179): At the next beat boundary after an owner's key is destroyed every tile of the owner becomes unbound. -/
  | tileUnbind
  /-- REMOTE_WRITE_ARRIVAL (R210): A posted remote write commits at the destination bank and counts arrivals in valid slots. -/
  | remoteWriteArrival (core target : BitVec 8)
  /-- REMOTE_READ_RETURN (R210): The data of a remote read returns to the issuing core at least 12 + 4h cycles after issue. -/
  | remoteReadReturn (core target : BitVec 8) (ecc : List (Nat × Bool))
  /-- SLOT_WAIT_RELEASE (R207): A checked load or counter wait stalled on a slot returns once the slot is FULL or its count is reached. -/
  | slotWaitRelease (core : BitVec 8) (ecc : List (Nat × Bool))
  /-- ACC_WAIT_RELEASE (R193): A checked read-out stalled on an entry proceeds once the entry is FINAL. -/
  | accWaitRelease (core : BitVec 8)
  /-- WAITT_RELEASE (R233): A stalled WAITT issues its successor in the first cycle of its target tick. -/
  | waittRelease (core : BitVec 8)
  /-- FENCE_COMPLETE (R228): A FENCE or POST completes once every earlier store and remote write of the core has committed. -/
  | fenceComplete (core : BitVec 8)
  /-- CORE_CLEAR_DONE (R213): The 768-cycle scratchpad zeroing after a thaw or admission ends and the core enters IDLE. -/
  | coreClearDone (core : BitVec 8)
  /-- CC_LAUNCH_START (R218): A write of CC_LAUNCH.START starts diagnostic execution at ENTRY if no plan is admitted and the core is idle. -/
  | ccLaunchStart (a : Accessor) (core : BitVec 8) (value : BitVec 32)
  /-- LAUNCH_START (R273): At its START tick a launch defines its slot descriptors, sets PC to ENTRY and clears fs. -/
  | launchStart (launch : BitVec 16)
  /-- NOP (R231): The instruction has no effect. -/
  | ccNop (core : BitVec 8)
  /-- END (R231): The instruction waits for earlier instructions and ends the launch, reporting a non-finite result if watched. -/
  | ccEnd (core : BitVec 8)
  /-- BR (R231): The instruction sets PC to IMM. -/
  | ccBr (core : BitVec 8) (imm : BitVec 32)
  /-- BEQ (R231): The instruction branches if sA equals sB. -/
  | ccBeq (core : BitVec 8) (a b : BitVec 5) (imm : BitVec 32)
  /-- BNE (R231): The instruction branches if sA differs from sB. -/
  | ccBne (core : BitVec 8) (a b : BitVec 5) (imm : BitVec 32)
  /-- BLT (R231): The instruction branches if sA is less than sB, signed. -/
  | ccBlt (core : BitVec 8) (a b : BitVec 5) (imm : BitVec 32)
  /-- BGE (R231): The instruction branches if sA is at least sB, signed. -/
  | ccBge (core : BitVec 8) (a b : BitVec 5) (imm : BitVec 32)
  /-- BLTU (R231): The instruction branches if sA is less than sB, unsigned. -/
  | ccBltu (core : BitVec 8) (a b : BitVec 5) (imm : BitVec 32)
  /-- BGEU (R231): The instruction branches if sA is at least sB, unsigned. -/
  | ccBgeu (core : BitVec 8) (a b : BitVec 5) (imm : BitVec 32)
  /-- FENCE (R228): The instruction waits until every earlier store and remote write has committed. -/
  | ccFence (core : BitVec 8)
  /-- WAITT (R233): The instruction stalls until the beat's tick count reaches sA + IMM. -/
  | ccWaitt (core : BitVec 8) (a : BitVec 5) (imm : BitVec 32)
  /-- WAITC (R233): The instruction stalls on a slot until its count or FULL is reached, or faults 0x13 on an invalid slot. -/
  | ccWaitc (core : BitVec 8) (imm : BitVec 32)
  /-- POST (R234): The instruction marks a post-table entry posted for the current execution. -/
  | ccPost (core : BitVec 8) (imm : BitVec 32)
  /-- SGET (R232): The instruction loads a special value selected by IMM into sD. -/
  | ccSget (core : BitVec 8) (d : BitVec 5) (imm : BitVec 32)
  /-- FSCLR (R223): The instruction clears fs. -/
  | ccFsclr (core : BitVec 8)
  /-- RSC (R235): The instruction returns the activation scale pair rescaled for a replay, or unchanged. -/
  | ccRsc (core : BitVec 8) (d a : BitVec 5) (imm : BitVec 32)
  /-- NWCHK (R236): The instruction makes the norm-watch comparison for a layer and vector and delivers it to the replay decision. -/
  | ccNwchk (core : BitVec 8) (d a : BitVec 5) (imm : BitVec 32)
  /-- RAND (R237): The instruction loads the next 64 draw words of a stream and advances its draw position. -/
  | ccRand (core : BitVec 8) (d a : BitVec 5)
  /-- ADD (R238): The instruction adds two scalars modulo 2^64. -/
  | ccAdd (core : BitVec 8) (d a b : BitVec 5)
  /-- SUB (R238): The instruction subtracts two scalars modulo 2^64. -/
  | ccSub (core : BitVec 8) (d a b : BitVec 5)
  /-- AND (R238): The instruction forms the bitwise AND of two scalars. -/
  | ccAnd (core : BitVec 8) (d a b : BitVec 5)
  /-- OR (R238): The instruction forms the bitwise OR of two scalars. -/
  | ccOr (core : BitVec 8) (d a b : BitVec 5)
  /-- XOR (R238): The instruction forms the bitwise XOR of two scalars. -/
  | ccXor (core : BitVec 8) (d a b : BitVec 5)
  /-- SHL (R238): The instruction shifts sA left by sB[5:0]. -/
  | ccShl (core : BitVec 8) (d a b : BitVec 5)
  /-- SHR (R238): The instruction shifts sA right logically by sB[5:0]. -/
  | ccShr (core : BitVec 8) (d a b : BitVec 5)
  /-- SRA (R238): The instruction shifts sA right arithmetically by sB[5:0]. -/
  | ccSra (core : BitVec 8) (d a b : BitVec 5)
  /-- MUL (R238): The instruction returns the low 64 bits of a product. -/
  | ccMul (core : BitVec 8) (d a b : BitVec 5)
  /-- MIN (R238): The instruction returns the signed minimum of two scalars. -/
  | ccMin (core : BitVec 8) (d a b : BitVec 5)
  /-- MAX (R238): The instruction returns the signed maximum of two scalars. -/
  | ccMax (core : BitVec 8) (d a b : BitVec 5)
  /-- SLT (R238): The instruction sets sD to 1 if sA is less than sB, signed. -/
  | ccSlt (core : BitVec 8) (d a b : BitVec 5)
  /-- SLTU (R238): The instruction sets sD to 1 if sA is less than sB, unsigned. -/
  | ccSltu (core : BitVec 8) (d a b : BitVec 5)
  /-- SEQ (R238): The instruction sets sD to 1 if sA equals sB. -/
  | ccSeq (core : BitVec 8) (d a b : BitVec 5)
  /-- ADDI (R238): The instruction adds a sign-extended immediate to sA. -/
  | ccAddi (core : BitVec 8) (d a : BitVec 5) (imm : BitVec 32)
  /-- LI (R238): The instruction loads a sign-extended immediate. -/
  | ccLi (core : BitVec 8) (d : BitVec 5) (imm : BitVec 32)
  /-- LIH (R238): The instruction loads IMM into sD[63:32], keeping the low half. -/
  | ccLih (core : BitVec 8) (d : BitVec 5) (imm : BitVec 32)
  /-- SHLI (R238): The instruction shifts left by an immediate count. -/
  | ccShli (core : BitVec 8) (d a : BitVec 5) (imm : BitVec 32)
  /-- SHRI (R238): The instruction shifts right logically by an immediate count. -/
  | ccShri (core : BitVec 8) (d a : BitVec 5) (imm : BitVec 32)
  /-- SRAI (R238): The instruction shifts right arithmetically by an immediate count. -/
  | ccSrai (core : BitVec 8) (d a : BitVec 5) (imm : BitVec 32)
  /-- VEXT (R238): The instruction copies one vector lane into a scalar, zero-extended. -/
  | ccVext (core : BitVec 8) (d a : BitVec 5) (imm : BitVec 32)
  /-- VINS (R238): The instruction writes sA[31:0] into one lane of vD. -/
  | ccVins (core : BitVec 8) (d a : BitVec 5) (imm : BitVec 32)
  /-- LD (R239): The instruction loads 1–8 bytes from scratchpad into a scalar, checked or unchecked. -/
  | ccLd (core : BitVec 8) (d a : BitVec 5) (m : BitVec 4) (imm : BitVec 32) (ecc : List (Nat × Bool))
  /-- ST (R239): The instruction stores the low bytes of a scalar to scratchpad. -/
  | ccSt (core : BitVec 8) (a b : BitVec 5) (m : BitVec 4) (imm : BitVec 32)
  /-- RSTV (R241): The instruction posts a remote write of a vector image to another core's scratchpad. -/
  | ccRstv (core : BitVec 8) (a b c : BitVec 5) (m : BitVec 4) (imm : BitVec 32)
  /-- RLDV (R241): The instruction issues a remote read of another core's scratchpad into a vector register. -/
  | ccRldv (core : BitVec 8) (d a c : BitVec 5) (m : BitVec 4) (imm : BitVec 32)
  /-- SLOT_DEF (R240): The instruction defines a slot descriptor with empty tag and zero count. -/
  | ccSlotDef (core : BitVec 8) (a : BitVec 5) (imm : BitVec 32)
  /-- SLOT_DRAIN (R206): The instruction sets a slot's TAG EMPTY and COUNT 0. -/
  | ccSlotDrain (core : BitVec 8) (imm : BitVec 32)
  /-- SLOT_FILL (R239): The instruction sets a slot's TAG FULL at the end of the cycle. -/
  | ccSlotFill (core : BitVec 8) (imm : BitVec 32)
  /-- SLOT_FREE (R239): The instruction invalidates a slot descriptor. -/
  | ccSlotFree (core : BitVec 8) (imm : BitVec 32)
  /-- SLOT_STAT (R239): The instruction returns a slot's COUNT, TAG and VALID. -/
  | ccSlotStat (core : BitVec 8) (d : BitVec 5) (imm : BitVec 32)
  /-- VADD (R242): The instruction adds vectors lane by lane. -/
  | ccVadd (core : BitVec 8) (d a b : BitVec 5) (m : BitVec 4)
  /-- VSUB (R242): The instruction subtracts vectors lane by lane. -/
  | ccVsub (core : BitVec 8) (d a b : BitVec 5) (m : BitVec 4)
  /-- VMUL (R242): The instruction multiplies vectors lane by lane. -/
  | ccVmul (core : BitVec 8) (d a b : BitVec 5) (m : BitVec 4)
  /-- VFMA (R242): The instruction performs a fused multiply-add lane by lane. -/
  | ccVfma (core : BitVec 8) (d a b c : BitVec 5) (m : BitVec 4)
  /-- VMIN (R242): The instruction takes the IEEE minimum lane by lane. -/
  | ccVmin (core : BitVec 8) (d a b : BitVec 5) (m : BitVec 4)
  /-- VMAX (R242): The instruction takes the IEEE maximum lane by lane. -/
  | ccVmax (core : BitVec 8) (d a b : BitVec 5) (m : BitVec 4)
  /-- VABS (R242): The instruction clears sign bits. -/
  | ccVabs (core : BitVec 8) (d a : BitVec 5)
  /-- VNEG (R242): The instruction inverts sign bits. -/
  | ccVneg (core : BitVec 8) (d a : BitVec 5)
  /-- VCMP (R243): The instruction compares lanes in the selected mode into a scalar bit mask. -/
  | ccVcmp (core : BitVec 8) (d a b : BitVec 5) (m : BitVec 4)
  /-- VSEL (R242): The instruction selects lanes from two sources by a scalar mask. -/
  | ccVsel (core : BitVec 8) (d a b c : BitVec 5) (m : BitVec 4)
  /-- VEXP (R242): The instruction computes e^x lane by lane. -/
  | ccVexp (core : BitVec 8) (d a : BitVec 5)
  /-- VRCP (R242): The instruction computes reciprocals lane by lane. -/
  | ccVrcp (core : BitVec 8) (d a : BitVec 5)
  /-- VRSQ (R242): The instruction computes reciprocal square roots lane by lane. -/
  | ccVrsq (core : BitVec 8) (d a : BitVec 5)
  /-- VDIV (R242): The instruction divides lane by lane, correctly rounded. -/
  | ccVdiv (core : BitVec 8) (d a b : BitVec 5) (m : BitVec 4)
  /-- VSQRT (R242): The instruction computes square roots lane by lane. -/
  | ccVsqrt (core : BitVec 8) (d a : BitVec 5)
  /-- VRND (R242): The instruction rounds each lane to a narrower format and widens it back. -/
  | ccVrnd (core : BitVec 8) (d a : BitVec 5) (m : BitVec 4)
  /-- VQ (R244): The instruction quantises lanes to I4 or I8 codes under R112. -/
  | ccVq (core : BitVec 8) (d a b : BitVec 5) (m : BitVec 4)
  /-- VPERM (R242): The instruction permutes lanes by an index vector. -/
  | ccVperm (core : BitVec 8) (d a b : BitVec 5)
  /-- VMOV (R242): The instruction copies a vector register. -/
  | ccVmov (core : BitVec 8) (d a : BitVec 5)
  /-- VBC (R242): The instruction broadcasts a scalar to every lane. -/
  | ccVbc (core : BitVec 8) (d a : BitVec 5)
  /-- VRED (R245): The instruction reduces across lanes by MAX, MIN, ARGMAX or ARGMIN. -/
  | ccVred (core : BitVec 8) (d a : BitVec 5) (m : BitVec 4)
  /-- KSUM (R246): The instruction applies a compensated accumulation over n lanes to a scalar pair. -/
  | ccKsum (core : BitVec 8) (d a b : BitVec 5) (imm : BitVec 32)
  /-- VKADD (R246): The instruction applies one compensated step in every lane. -/
  | ccVkadd (core : BitVec 8) (d a c : BitVec 5)
  /-- KCOMB (R246): The instruction combines two compensated pairs under R125. -/
  | ccKcomb (core : BitVec 8) (d a b : BitVec 5)
  /-- KFIN (R246): The instruction finishes a compensated pair to s + c. -/
  | ccKfin (core : BitVec 8) (d a : BitVec 5)
  /-- VLD (R247): The instruction loads 64 contiguous elements into a vector. -/
  | ccVld (core : BitVec 8) (d a : BitVec 5) (m : BitVec 4) (imm : BitVec 32) (ecc : List (Nat × Bool))
  /-- VST (R247): The instruction stores 64 lanes to contiguous elements. -/
  | ccVst (core : BitVec 8) (a b : BitVec 5) (m : BitVec 4) (imm : BitVec 32)
  /-- VLDS (R248): The instruction performs a strided read into a vector. -/
  | ccVlds (core : BitVec 8) (d a b : BitVec 5) (m : BitVec 4) (imm : BitVec 32) (ecc : List (Nat × Bool))
  /-- VSTS (R248): The instruction performs a strided write of a vector. -/
  | ccVsts (core : BitVec 8) (a b c : BitVec 5) (m : BitVec 4) (imm : BitVec 32)
  /-- VLDT (R248): The instruction performs a transposing read into 16 vector registers. -/
  | ccVldt (core : BitVec 8) (d a b : BitVec 5) (m : BitVec 4) (imm : BitVec 32) (ecc : List (Nat × Bool))
  /-- VGATH (R247): The instruction gathers elements from per-lane offsets. -/
  | ccVgath (core : BitVec 8) (d a b : BitVec 5) (m : BitVec 4) (imm : BitVec 32) (ecc : List (Nat × Bool))
  /-- MZ (R249): The instruction zeroes a matrix accumulator. -/
  | ccMz (core : BitVec 8) (d : BitVec 5)
  /-- MMA (R250): The instruction performs sC outer-product steps into a matrix accumulator. -/
  | ccMma (core : BitVec 8) (d a b c : BitVec 5) (m : BitVec 4) (ecc : List (Nat × Bool)) (residue : List (BitVec 10))
  /-- MRD (R249): The instruction reads two accumulator rows into a vector. -/
  | ccMrd (core : BitVec 8) (d a : BitVec 5) (imm : BitVec 32)
  /-- MWR (R249): The instruction writes two accumulator rows from a vector. -/
  | ccMwr (core : BitVec 8) (d a : BitVec 5) (imm : BitVec 32)
  /-- MST (R249): The instruction stores an accumulator to scratchpad in a chosen format. -/
  | ccMst (core : BitVec 8) (a b : BitVec 5) (m : BitVec 4) (imm : BitVec 32)
  /-- ACC_RD (R251): The instruction reads out 32 accumulator entries as raw words. -/
  | ccAccRd (core : BitVec 8) (d a : BitVec 5) (m : BitVec 4)
  /-- ACC_RDF (R252): The instruction reads out 64 entries converted to FP32 with their clip flags. -/
  | ccAccRdf (core : BitVec 8) (d a c : BitVec 5) (m : BitVec 4) (imm : BitVec 32)
  /-- ACC_DROP (R251): The instruction reads out n entries and discards them. -/
  | ccAccDrop (core : BitVec 8) (a : BitVec 5) (m : BitVec 4) (imm : BitVec 32)
  /-- ILLEGAL (R225): An undefined opcode or reserved field freezes the core with fault 0x20. -/
  | ccIllegal (core : BitVec 8) (word : BitVec 64)
  /-- PLAN_ADMIT (R283): The headframe command distributes a plan set image and every device checks its own record. -/
  | planAdmit (w : Issuer) (addr : BitVec 64) (membersOk : Bool)
  /-- PLAN_ADMITTED (R284): At one round boundary every device loads code, clears cores, initialises μ, range codes and shadows and raises event 0x04. -/
  | planAdmitted (retention : List (BitVec 32 × BitVec 32))
  /-- PLAN_RETIRE (R299): The headframe command requests retirement of the plan set at the next round boundary. -/
  | planRetire (w : Issuer)
  /-- PLAN_RETIRED (R299): At a round boundary the set is retired, cores cleared, retention released and event 0x0C raised. -/
  | planRetired
  /-- RING_RESUME (R296): The headframe command clears the FAULT halt cause once the frozen masters are thawed. -/
  | ringResume (w : Issuer)
  /-- ROUND_BOUNDARY (R291): At the end of a round the headframe sets the next verdict, stretch and layout from the status flits and sends the round-start flit. -/
  | roundBoundary (othersThawed : Bool) (lacking : List (BitVec 16 × BitVec 6 × BitVec 32 × BitVec 32))
  /-- ROUND_START_FLIT (R360): On receipt of the round-start flit a device performs the boundary steps of retire, reference, release, reclaim and assign. -/
  | roundStartFlit (verdict : BitVec 3) (layout stretch bucket : BitVec 8) (round rtbStart retired epoch : BitVec 64) (crcOk : Bool) (causes : BitVec 5) (orders : List Order)
  /-- IDLE_BOUNDARY_PASS (R360): While no set is admitted, each device runs boundary steps 2 to 4 every millisecond of RTB. -/
  | idleBoundaryPass
  /-- STATUS_FLIT_SEND (R288): At the end tick of its last position a device sends its status flit with worst status, replaying positions and stretch request. -/
  | statusFlitSend
  /-- STATUS_FLIT (R420): The headframe receives a status flit and records its status for the round's verdict. -/
  | statusFlit (pos : BitVec 6) (status replaying stretch level : BitVec 8) (round : BitVec 64) (positions : List (BitVec 16)) (crcOk : Bool)
  /-- SWITCH_GAP_END (R298): After the 32,768-tick switch gap the new plan's first round begins and event 0x06 is raised. -/
  | switchGapEnd (lacking : List (BitVec 16 × BitVec 6 × BitVec 32 × BitVec 32))
  /-- EMPTY_ROUND_END (R296): An 8,192-tick empty round ends at its boundary. -/
  | emptyRoundEnd (othersThawed : Bool) (lacking : List (BitVec 16 × BitVec 6 × BitVec 32 × BitVec 32))
  /-- TIMED_SEND (R416): At SEND the ring interface packs a posted payload into TIMED flits with the step header. -/
  | timedSend (slot : BitVec 16) (ecc : List (Nat × Bool))
  /-- TIMED_RELEASE (R416): After the published hop delay a device releases re-timed payload to the next link or its destination. -/
  | timedRelease (src : BitVec 6) (pos slot : BitVec 16)
  /-- TIMED_ARRIVAL (R416): Released payload rows are written to the destination slot, counted and retained if RETAIN is set. -/
  | timedArrival (src : BitVec 6) (pos slot : BitVec 16)
  /-- TOKEN_RECORD_ARRIVAL (R329): The first device checks each token record entry and provisionally advances the stream's length. -/
  | tokenRecordArrival (read : ErrRead)
  /-- DMA_SLOT_START (R278): At its START tick a plan DMA slot begins its transfer on the core's plan queue. -/
  | dmaSlotStart (slot : BitVec 16) (ecc : List (Nat × Bool))
  /-- DMA_TRANSFER_COMPLETE (R383): A plan transfer completes; one completing after END increments MS_DMA_STATUS.LATE. -/
  | dmaTransferComplete (pos slot : BitVec 16) (ecc : List (Nat × Bool))
  /-- COPY_COMPLETE (R362): A copy-on-write copy finishes and its remap waits for the next boundary. -/
  | copyComplete (stream : BitVec 16) (page : BitVec 14) (othersDone : Bool) (ecc : List (Nat × Bool))
  /-- SQ_STRETCH (R308): A write of the stretch FLOOR above 60 is discarded, otherwise stored. -/
  | sqStretch (a : Accessor) (value : BitVec 32)
  /-- SUBMISSION_FETCH (R460): The device fetches a submission entry when a completion entry is free for it. -/
  | submissionFetch (port : Bool) (pair : BitVec 8) (entry : Option (List Byte))
  /-- NOP_COMMAND (R461): The host command does nothing and completes. -/
  | nopCommand (w : Issuer)
  /-- OWNER_CREATE (R338): The command creates an owner with the lowest free ID and its key slots and returns the owner token. -/
  | ownerCreate (w : Issuer) (membersOk : Bool)
  /-- OWNER_RELEASE (R340): The command closes the owner's streams and destroys its key. -/
  | ownerRelease (w : Issuer) (owner : BitVec 8)
  /-- OWNER_LIMITS (R354): The command sets tally modes, rates, caps and weight and returns balances. -/
  | ownerLimits (w : Issuer) (owner : BitVec 8) (genMode promptMode weight fill : BitVec 8) (genRate genCap promptRate promptCap : BitVec 32) (report : BitVec 64)
  /-- OWNER_BIND (R450): The command binds an owner to another function of the same port. -/
  | ownerBind (w : Issuer) (owner : BitVec 8) (target : BitVec 8)
  /-- OWNER_UNBIND (R450): The command unbinds an owner from a function. -/
  | ownerUnbind (w : Issuer) (owner : BitVec 8) (target : BitVec 8)
  /-- OWNER_REATTACH (R499): The command rebinds an orphaned or restored owner on presentation of its token. -/
  | ownerReattach (w : Issuer) (owner : BitVec 8) (token : BitVec 128)
  /-- STREAM_OPEN (R341): The command opens a stream with the lowest free ID bound to the model, a channel and a queue pair. -/
  | streamOpen (w : Issuer) (owner : BitVec 8) (settings : Option (List Byte)) (pair : BitVec 16)
  /-- STREAM_SUBMIT (R346): The command copies input tokens into the prompt pool, attaching shared prefix pages. -/
  | streamSubmit (w : Issuer) (owner : BitVec 8) (stream : BitVec 16) (count : BitVec 32) (tokens : Option (List Byte))
  /-- STREAM_SET (R342): The command changes stream settings from the next accepting boundary. -/
  | streamSet (w : Issuer) (owner : BitVec 8) (stream : BitVec 16) (mask : BitVec 32) (settings : Option (List Byte))
  /-- STREAM_QUERY (R346): The command returns a stream's state, length, counts and settings. -/
  | streamQuery (w : Issuer) (owner : BitVec 8) (stream : BitVec 16) (report : BitVec 64)
  /-- STREAM_FORK (R366): The command opens a new FINISHED stream sharing the original's page tables. -/
  | streamFork (w : Issuer) (owner : BitVec 8) (stream : BitVec 16)
  /-- STREAM_REWIND (R346): The command shortens a FINISHED stream's length and releases pages beyond it. -/
  | streamRewind (w : Issuer) (owner : BitVec 8) (stream : BitVec 16) (length : BitVec 32)
  /-- STREAM_PAUSE (R369): The command stops new assignment of the stream pending its placement in a tier. -/
  | streamPause (w : Issuer) (owner : BitVec 8) (stream : BitVec 16) (ttl : BitVec 32)
  /-- PAUSE_PLACEMENT (R369): When no step of a pausing stream is in flight, its pages go to the host tier or the cold pool. -/
  | pausePlacement (stream : BitVec 16) (imageBytes : Nat)
  /-- PAUSE_IMAGE_DONE (R369): When every device has written its sealed pages, references are released and the stream is PAUSED_HOST. -/
  | pauseImageDone (read : ErrRead)
  /-- PAUSE_EXPIRY (R371): At TTL expiry the pause key is destroyed or the cold frames released and the stream closes. -/
  | pauseExpiry (stream : BitVec 16)
  /-- STREAM_RESUME (R372): The command returns a paused stream to its held state, restoring host-tier pages if needed. -/
  | streamResume (w : Issuer) (owner : BitVec 8) (stream : BitVec 16) (othersHaveFrames : Bool)
  /-- RESUME_IMAGE_DONE (R372): When every device has restored and checked its pages, the stream returns to its held state. -/
  | resumeImageDone (stream : BitVec 16) (image : ImageRead)
  /-- STREAM_CLOSE (R349): The command stops assignment and closes the stream once no step remains in flight. -/
  | streamClose (w : Issuer) (owner : BitVec 8) (stream : BitVec 16)
  /-- STREAM_TOKENS (R461): The command copies the token IDs of named recent positions to host memory. -/
  | streamTokens (w : Issuer) (owner : BitVec 8) (stream : BitVec 16) (buffer : BitVec 64) (first count : BitVec 32)
  /-- TIER_REGISTER (R368): The command registers or releases the function's host tier. -/
  | tierRegister (w : Issuer) (addr : BitVec 64) (size : BitVec 32)
  /-- SCHED_SET (R351): The headframe command sets backfill and the prefill share. -/
  | schedSet (w : Issuer) (backfill prefillShare : BitVec 8)
  /-- MEM_GRANT (R378): The command grants free reserved-region extents to an owner, all or none. -/
  | memGrant (w : Issuer) (owner : BitVec 8) (addr size : BitVec 64)
  /-- MEM_RELEASE (R378): The command returns an owner's extents to free unless referenced. -/
  | memRelease (w : Issuer) (owner : BitVec 8) (addr size : BitVec 64)
  /-- MEM_WRITE (R461): The command moves data from host memory into a device's stack memory. -/
  | memWrite (w : Issuer) (owner : BitVec 8) (addr host : BitVec 64) (length : BitVec 32)
  /-- MEM_READ (R461): The command moves data from a device's stack memory to host memory. -/
  | memRead (w : Issuer) (owner : BitVec 8) (addr host : BitVec 64) (length : BitVec 32)
  /-- REPAIR_CTRL (R150): The command enables or disables repair for an owner from the next round boundary. -/
  | repairCtrl (w : Issuer) (owner : BitVec 8) (enabled live : Bool)
  /-- MEMBERSHIP (R461): The command writes the membership report to a host buffer. -/
  | membership (w : Issuer) (buffer : BitVec 64) (size : BitVec 32)
  /-- REG_ACCESS (R461): The headframe command performs a relayed BAR0 access at a ring member. -/
  | regAccess (w : Issuer) (offset value : BitVec 32) (write : Bool)
  /-- FN_QUEUES (R453): The PF0 command maps or unmaps a queue pair into a VF doorbell page. -/
  | fnQueues (w : Issuer) (vf mapEntry : BitVec 8) (map : Bool) (pair : BitVec 16)
  /-- QP_CONFIG (R454): The DOE request configures, reconfigures or deletes a queue pair. -/
  | qpConfig (port : Bool) (fn : BitVec 5) (dwords : List (BitVec 32))
  /-- DB_SUBMIT_TAIL (R455): A doorbell write sets the submission tail, or puts the pair in ERROR if out of range. -/
  | dbSubmitTail (port : Bool) (fn : BitVec 5) (page : BitVec 8) (value : BitVec 32)
  /-- DB_COMPL_HEAD (R455): A doorbell write frees consumed completion entries, or puts the pair in ERROR if out of range. -/
  | dbComplHead (port : Bool) (fn : BitVec 5) (page : BitVec 8) (value : BitVec 32)
  /-- MSIX_SIGNAL (R459): After coalescing time or half-full queue the device signals the pair's MSI-X vector. -/
  | msixSignal (port : Bool) (pair : BitVec 8)
  /-- APERTURE_ACCESS (R451): A BAR4 or VF BAR2 access reaches stack memory under the aperture owner, or is refused. -/
  | apertureAccess (port : Bool) (fn : BitVec 5) (offset : BitVec 64) (write : Bool) (count : Nat) (data : List Byte) (ecc : List (Nat × Bool))
  /-- HP_APT_BASE (R474): A write of the aperture base not aligned to its size is discarded. -/
  | hpAptBase (a : Accessor) (page : Bool) (fn : BitVec 5) (value : BitVec 32)
  /-- HP_APT_OWNER (R475): A write naming an owner not bound to the function is discarded. -/
  | hpAptOwner (a : Accessor) (page : Bool) (fn : BitVec 5) (value : BitVec 32)
  /-- HP_HEARTBEAT (R476): A heartbeat write restarts the function's heartbeat timer. -/
  | hpHeartbeat (a : Accessor) (page : Bool) (fn : BitVec 5) (value : BitVec 32)
  /-- HP_HEARTBEAT_TIMEOUT (R477): A write of the timeout or grace period outside its range is discarded. -/
  | hpHeartbeatTimeout (a : Accessor) (page : Bool) (grace : Bool) (value : BitVec 32)
  /-- HEARTBEAT_LOST (R496): A function's heartbeat timer expires and event 0x07 is raised. -/
  | heartbeatLost (port : Bool) (fn : BitVec 5)
  /-- ORPHANED (R497): An owner whose functions all lost heartbeat is unbound, held by the port and its streams orphaned. -/
  | orphaned (owner : BitVec 8)
  /-- GRACE_EXPIRED (R498): At the grace deadline an orphaned or restored owner's key is destroyed. -/
  | graceExpired (owner : BitVec 8)
  /-- FLR (R467): A function-level reset discards its doorbells and unfetched commands and unbinds its owners. -/
  | flr (port : Bool) (fn : BitVec 5)
  /-- FLR_BOUNDARY (R467): At the next beat boundary after an FLR, host DMA is aborted and unbound owners' keys are destroyed. -/
  | flrBoundary (port : Bool) (fn : BitVec 5)
  /-- FUNCTION_RESET (R467): The function becomes ready with its pairs unconfigured and event 0x09 is raised. -/
  | functionReset (port : Bool) (fn : BitVec 5)
  /-- VF_ENABLE_CLEAR (R468): Clearing VF Enable acts as an FLR of every VF of the port. -/
  | vfEnableClear (port : Bool)
  /-- PERST_ASSERT (R468): PERST of a port acts as an FLR of every function of the port. -/
  | perstAssert (port : Bool)
  /-- PERST_DEASSERT (R599): Deassertion of PERST starts the port, once PWR_GOOD is high. -/
  | perstDeassert (port : Bool)
  /-- HOST_LINK_CHANGE (R471): A host link comes up, goes down or trains as diagnostic. -/
  | hostLinkChange (port : Bool) (speed : BitVec 3) (width : BitVec 4)
  /-- LINK_LOSS_TIMEOUT (R468): A host link down for 100 ms acts as PERST of its port. -/
  | linkLossTimeout (port : Bool)
  /-- BUS_MASTER_ENABLE (R468): Clearing or setting Bus Master Enable stops or resumes fetch and DMA for the function. -/
  | busMasterEnable (port : Bool) (fn : BitVec 5) (on : Bool)
  /-- DOE_DISCOVERY (R470): A DOE Discovery request returns the protocols the mailbox serves. -/
  | doeDiscovery (port : Bool) (fn : BitVec 5) (index : BitVec 8)
  /-- IDE_KM (R522): An IDE_KM request in a secured PF0 session sets up IDE keys, and is refused elsewhere. -/
  | ideKm (port : Bool) (fn : BitVec 5) (secured : Bool) (link : Bool) (go : Bool)
  /-- BOOT (R487): A BOOT doorbell in ROM starts verification of the staged image. -/
  | boot (a : Accessor) (value : BitVec 32)
  /-- FW_VERIFY_DONE (R487): Image verification ends, loading the kernel into FW_LOADED or recording the failure. -/
  | fwVerifyDone
  /-- STAGE (R490): A STAGE doorbell on the headframe copies, checks and distributes a new image ring-wide. -/
  | stage (a : Accessor) (value : BitVec 32)
  /-- FW_IMAGE_PACKET (R489): A C0 image packet writes its data into the staging region. -/
  | fwImagePacket (offset : BitVec 32) (data : List Byte) (last : Bool)
  /-- FW_STAGED (R490): When every member has passed, staging completes as STAGED or FAILED. -/
  | fwStaged (results : List (BitVec 6 × BitVec 8))
  /-- ACTIVATE (R491): A CX_HANDOFF.ACTIVATE write moves a staged image to WAITING. -/
  | cxActivate (a : Accessor) (value : BitVec 32)
  /-- DISCARD (R491): A CX_HANDOFF.DISCARD write discards the staged image on every member. -/
  | cxDiscard (a : Accessor) (value : BitVec 32)
  /-- QUIET_TIME_REACHED (R491): A member's quiet time reaches 1 s and it reports to the headframe. -/
  | quietTimeReached (position : BitVec 6) (reached : Bool)
  /-- HANDOFF_START (R493): At the first HALT round flit a member writes its handoff block and starts the staged image. -/
  | handoffStart
  /-- HANDOFF_DONE (R493): When every member has reported completion the handoff cause clears and the counter may advance. -/
  | handoffDone (position : BitVec 6) (all : Bool)
  /-- HANDOFF_REVERT (R495): A new image that does not report within 30 ms or rejects the block is reverted on every member. -/
  | handoffRevert (why : BitVec 2)
  /-- WATCHDOG_SIGNAL (R483): A control core signals the deputy's watchdog. -/
  | watchdogSignal (core : BitVec 3)
  /-- WATCHDOG (R483): A control core silent for 50 ms stops the device in state WATCHDOG and raises fault 0x0D. -/
  | watchdog (core : BitVec 3)
  /-- SET_ENDPOINT_ID (R500): The MCTP control request sets the endpoint ID. -/
  | setEndpointId (eid : BitVec 8)
  /-- GET_ENDPOINT_ID (R500): The MCTP control request returns the endpoint ID. -/
  | getEndpointId
  /-- GET_MCTP_VERSION_SUPPORT (R500): The MCTP control request returns the supported versions. -/
  | getMctpVersionSupport (type : BitVec 8)
  /-- GET_MESSAGE_TYPE_SUPPORT (R500): The MCTP control request returns the supported message types. -/
  | getMessageTypeSupport
  /-- GET_VENDOR_MESSAGE_SUPPORT (R500): The MCTP control request returns vendor-defined message support. -/
  | getVendorMessageSupport
  /-- PLDM_SENSOR_READ (R501): A PLDM platform request reads a sensor, Unavailable if it needs absent main power. -/
  | pldmSensorRead (id : BitVec 16)
  /-- PLDM_BASE_REQUEST (R500): A PLDM type 0 base request is answered. -/
  | pldmBaseRequest (command : BitVec 8)
  /-- PLDM_FRU_REQUEST (R500): A PLDM type 4 FRU request returns FRU data. -/
  | pldmFruRequest (command : BitVec 8)
  /-- SET_EVENT_RECEIVER (R502): The PLDM request sets the receiver of platform event messages. -/
  | setEventReceiver (eid : BitVec 8)
  /-- POLL_FOR_PLATFORM_EVENT (R502): The PLDM request returns a queued undelivered event. -/
  | pollForPlatformEvent
  /-- PLATFORM_EVENT_SEND (R502): The endpoint sends the oldest queued event to the receiver as a PlatformEventMessage. -/
  | platformEventSend (answered : Bool)
  /-- PLATFORM_EVENT_TIMEOUT (R502): An unanswered event is retried after 100 ms, up to 3 times, then left for polling. -/
  | platformEventTimeout
  /-- GET_VERSION (R520): The SPDM request returns supported versions. -/
  | spdmGetVersion (via : Via)
  /-- GET_CAPABILITIES (R520): The SPDM request returns responder capabilities. -/
  | spdmGetCapabilities (via : Via)
  /-- NEGOTIATE_ALGORITHMS (R520): The SPDM request fixes the algorithms of R520. -/
  | spdmNegotiateAlgorithms (via : Via)
  /-- GET_DIGESTS (R520): The SPDM request returns the slot 0 chain digest. -/
  | spdmGetDigests (via : Via)
  /-- GET_CERTIFICATE (R520): The SPDM request returns the certificate chain of R512. -/
  | spdmGetCertificate (via : Via) (slot : BitVec 8) (offset length : BitVec 16)
  /-- CHALLENGE (R520): The SPDM request returns a signed challenge response. -/
  | spdmChallenge (via : Via) (slot : BitVec 8) (nonce : List Byte)
  /-- GET_MEASUREMENTS (R521): The SPDM request returns the measurement blocks. -/
  | spdmGetMeasurements (via : Via) (index : BitVec 8)
  /-- KEY_EXCHANGE (R520): The SPDM request opens a secured session, refused beyond four. -/
  | spdmKeyExchange (via : Via)
  /-- FINISH (R520): The SPDM request completes session establishment. -/
  | spdmFinish (via : Via) (sid : BitVec 32)
  /-- HEARTBEAT (R520): The SPDM request keeps a secured session alive. -/
  | spdmHeartbeat (via : Via) (sid : BitVec 32)
  /-- KEY_UPDATE (R520): The SPDM request updates session keys. -/
  | spdmKeyUpdate (via : Via) (sid : BitVec 32)
  /-- END_SESSION (R520): The SPDM request closes a secured session. -/
  | spdmEndSession (via : Via) (sid : BitVec 32)
  /-- KEY_DESTROY (R523): The vendor-defined request in a management session destroys an owner's key. -/
  | keyDestroy (sid : BitVec 32) (secured : Bool) (owner : BitVec 8)
  /-- REG_READ (R503): The vendor management command returns register dwords. -/
  | regRead (offset : BitVec 32) (count : BitVec 8)
  /-- REG_WRITE (R503): The vendor management command writes a register where R35 permits. -/
  | regWrite (offset value : BitVec 32)
  /-- RING_JOIN (R503): The vendor management command acts as a write of RI_TRAIN.JOIN. -/
  | ringJoin
  /-- SUMP_READ (R503): The vendor management command returns plaintext sump records. -/
  | sumpRead (index : BitVec 32) (count : BitVec 8)
  /-- STATUS (R503): The vendor management command returns power state, CX state, level, position and firmware version. -/
  | mgmtStatus
  /-- KE_DESTROY (R537): A confirmed write from the owning port's PF0 destroys an owner's key. -/
  | keDestroy (a : Accessor) (value : BitVec 32)
  /-- OWNER_KEY_DESTROY (R530): Each member overwrites the owner's keys and pause keys, removes its records and frees the slot. -/
  | ownerKeyDestroy (owner : BitVec 8) (cause : BitVec 8)
  /-- CLEAR (R538): A KE_SEAL.CLEAR write removes the selected owner's seal records on this device. -/
  | keClear (a : Accessor) (value : BitVec 32)
  /-- ENTROPY_FAIL (R524): A failed health test puts the key engine in FAILED and raises fault 0x09. -/
  | entropyFail (test : Bool)
  /-- DRBG_RESEED (R524): After 65,536 generate requests the DRBG is reseeded. -/
  | drbgReseed
  /-- LINK_BRINGUP (R403): Ring link bring-up trains the lanes of a port and keeps whole fibres within the envelope. -/
  | linkBringup (port : BitVec 2) (lanes : BitVec 32) (kept : BitVec 4) (auth : BitVec 2) (serial : BitVec 64) (wants : Bool)
  /-- LINK_LIGHT_LOSS (R444): A ring port loses light or FEC lock and raises LINK_DOWN. -/
  | linkLightLoss (port : BitVec 2) (fec : Bool)
  /-- LINK_SILENCE (R411): A link silent for 10 µs goes down and halts the ring. -/
  | linkSilence (port : BitVec 2)
  /-- IDLE_FLIT (R408): An IDLE flit delivers its ACK, NAK and credit fields for the opposite link. -/
  | idleFlit (port : BitVec 2) (ack : BitVec 12) (nak : Bool) (credits : BitVec 10) (cclass : Bool)
  /-- TIMED_FLIT (R410): A TIMED flit is CRC-checked and forwarded cut-through into the re-timing buffer. -/
  | timedFlit (src : BitVec 6) (pos slot index : BitVec 16) (payload : List (BitVec 8)) (crcOk poison : Bool)
  /-- CREDIT_FLIT (R410): A CREDIT flit is checked, acknowledged or NAKed, and forwarded or consumed against credit. -/
  | creditFlit (port : BitVec 2) (cls : Bool) (seq : BitVec 12) (dst : BitVec 6) (first last : Bool) (body : List (BitVec 8)) (crcOk : Bool)
  /-- TAG_WINDOW_CLOSE (R414): A tag window closes after 2,048 flits or at idle and its tag flit is sent. -/
  | tagWindowClose (port : BitVec 2)
  /-- TAG_FLIT (R415): A received tag flit is checked against the window's payload. -/
  | tagFlit (port : BitVec 2) (window : BitVec 64) (ok crcOk : Bool)
  /-- TIME_FLIT (R430): A time flit probes hop delay or sets the device's RTB. -/
  | timeFlit (port : BitVec 2) (mode : BitVec 2) (count stamp : BitVec 64) (delay : BitVec 16) (crcOk : Bool)
  /-- CLAIM_FLIT (R427): A claim flit circulates candidates so the lowest serial becomes headframe. -/
  | claimFlit (hfSel candidate : Bool) (serial maxRtb : BitVec 64) (hops : BitVec 8) (crcOk : Bool)
  /-- CREDIT_WRITE (R424): A credit write packet writes stack memory, a BAR0 offset or the firmware mailbox. -/
  | creditWrite
  /-- CREDIT_READ_REQUEST (R424): A credit read request packet returns read data. -/
  | creditReadRequest (ecc : List (Nat × Bool))
  /-- CREDIT_READ_DATA (R424): A credit read data packet completes a relayed read. -/
  | creditReadData
  /-- CREDIT_MESSAGE (R424): A credit message packet delivers a firmware message between members. -/
  | creditMessage
  /-- CREDIT_IMAGE (R489): A C0 image packet carries firmware image data to a member. -/
  | creditImage
  /-- JOIN (R406): An RI_TRAIN.JOIN write opens a closed crosscut and starts a membership change. -/
  | riJoin (a : Accessor) (value : BitVec 32)
  /-- LEAVE (R405): An RI_TRAIN.LEAVE write closes an open crosscut. -/
  | riLeave (a : Accessor) (value : BitVec 32)
  /-- RETRAIN (R432): An RI_TRAIN.RETRAIN write on the headframe retrains the ring. -/
  | riRetrain (a : Accessor) (value : BitVec 32)
  /-- RI_LINK_RATE (R443): A write of the lane envelope is discarded if invalid, otherwise applied at the next bring-up. -/
  | riLinkRate (a : Accessor) (value : BitVec 32)
  /-- CROSSCUT_CLOSE (R405): Power loss, module reset, trip or LEAVE starts closing the crosscut. -/
  | crosscutClose
  /-- CROSSCUT_SETTLED (R614): The crosscut actuator completes its change of state within 1.8 ms. -/
  | crosscutSettled (light : Bool)
  /-- RETIME_WANDER (R429): A hop wandering beyond ±2 ticks raises LINK_DOWN, halts and retrains the ring. -/
  | retimeWander (port : BitVec 2)
  /-- MEMBERSHIP_CHANGE (R432): A membership change halts the ring, retires the plan set and starts training. -/
  | membershipChange (cause : BitVec 8) (trip : Bool)
  /-- TRAINING_PHASE_TIMEOUT (R426): A training phase exceeding its limit fails training with its result code. -/
  | trainingPhaseTimeout
  /-- TRAINING_RETRY (R625): A device whose training failed repeats training every second. -/
  | trainingRetry
  /-- MEMBERSHIP_PUBLISH (R431): Phase 6 publishes the membership report, raising MEMBERSHIP and resolving restored owners. -/
  | membershipPublish (report : List (BitVec 64 × BitVec 256 × List (BitVec 6) × BitVec 16)) (generation cause : BitVec 8) (owners : List (BitVec 8 × BitVec 6 × BitVec 128 × Bool))
  /-- SCRUB_PASS_START (R388): Patrol scrub starts a pass reading every word once per PERIOD hours. -/
  | scrubPassStart
  /-- SCRUB_PASS (R394): A completed scrub pass raises event 0x06 with its counts. -/
  | scrubPass (ecc : List (Nat × Bool))
  /-- MS_SCRUB_CTRL (R392): A write of a PERIOD outside 1–168 is discarded whole. -/
  | msScrubCtrl (a : Accessor) (value : BitVec 32)
  /-- CE_RATE_UPDATE (R396): Each hour CE_RATE is updated from the corrected words of the last hour. -/
  | ceRateUpdate
  /-- TEMP_SAMPLE (R541): A temperature sensor is sampled and compared with the thresholds of its source. -/
  | tempSample (sensor : BitVec 9) (reading : Int)
  /-- POWER_SAMPLE (R544): The deputy's comparators sample input voltage and current against the POWER thresholds. -/
  | powerSample (vin vin1ms iin iin10us iin100ms iin1s pin1s : Nat)
  /-- LEVEL_FALL (R545): After 100 ms below threshold by the hysteresis a source falls by one level. -/
  | levelFall (source : BitVec 3)
  /-- BROWN_OUT (R550): Input below 37.5 V for 20 µs removes the rails, writes a brown-out record and raises fault 0x06. -/
  | brownOut (vin : Nat)
  /-- CAL_INTERVAL_EXPIRY (R552): The maximum interval since a group's calibration elapses and it calibrates. -/
  | calIntervalExpiry (group : BitVec 6)
  /-- CAL_DONE (R555): A group calibration completes, counts, records time and temperature and raises event 0x05. -/
  | calDone (group : BitVec 6) (dead : List (BitVec 11 × BitVec 7)) (moved : Bool)
  /-- CAL_LATE (R90): A calibration not complete 1 s after it became due raises event 0x06. -/
  | calLate (group : BitVec 6)
  /-- CAL (R581): An HB_CAL_CMD.CAL write starts a calibration of a named or all enabled groups. -/
  | hbCal (a : Accessor) (value : BitVec 32)
  /-- SELFCAL (R556): An HB_CAL_CMD.SELFCAL write starts converter self-calibration while no plan is admitted. -/
  | hbSelfcal (a : Accessor) (value : BitVec 32)
  /-- SELFCAL_DONE (R556): Converter self-calibration completes, marking failed converters dead, and raises event 0x08. -/
  | selfcalDone (dead : List (BitVec 17 × BitVec 7))
  /-- HB_CAL_DTCAL (R578): A write of the ΔT_cal envelope outside range is discarded whole. -/
  | hbCalDtcal (a : Accessor) (value : BitVec 32)
  /-- HB_CAL_MAX_INTERVAL (R579): A write of the interval envelope outside range is discarded whole. -/
  | hbCalMaxInterval (a : Accessor) (value : BitVec 32)
  /-- HB_MARGIN_ENV (R583): A write of a margin envelope is checked and clips the plan in force at once. -/
  | hbMarginEnv (a : Accessor) (which : Bool) (value : BitVec 32)
  /-- AGEING_UPDATE (R558): The health block updates its hourly ageing measures. -/
  | ageingUpdate (stressed unstressed : List (BitVec 32)) (stressedTime unstressedTime : BitVec 32)
  /-- MARGIN_REPLAN (R559): Every 168 powered hours a new margin plan is formed, clipped and stored. -/
  | marginReplan
  /-- REPLAN (R582): An HB_MARGIN_PLAN.REPLAN write forms a new margin plan now. -/
  | replan (a : Accessor) (value : BitVec 32)
  /-- ASSAY_PATTERN (R566): An assay command of kind PATTERN programs, calibrates and shoots a relief tile with known patterns. -/
  | assayPattern (a : Accessor) (value : BitVec 32)
  /-- ASSAY_REPLAY (R566): An assay command of kind REPLAY records and replays plan inputs of a tile against exact references. -/
  | assayReplay (a : Accessor) (value : BitVec 32)
  /-- ASSAY_CORE (R566): An assay command of kind CORE runs the ASSAY kernels on a core and compares results bit for bit. -/
  | assayCore (a : Accessor) (value : BitVec 32)
  /-- ABORT (R584): An HB_ASSAY_CMD.ABORT write ends the running assay, freeing any relief tile. -/
  | hbAbort (a : Accessor) (value : BitVec 32)
  /-- ASSAY_NO_INPUT (R566): A REPLAY assay with no plan shot on the tile within 10 s ends with NO_INPUT. -/
  | assayNoInput
  /-- ASSAY_COMPLETE (R568): An assay completes, sets its status, writes a record and retires the tile on failure if asked. -/
  | assayComplete (scalar memory vector matrix : List Bool)
  /-- DP_THROTTLE_POINT (R572): A write of the throttle point or stretch cap out of range is discarded whole. -/
  | dpThrottlePoint (a : Accessor) (value : BitVec 32)
  /-- DP_TRIP_ACK (R574): A write of the displayed record's SEQ acknowledges the trip record and may release CONFIGURED. -/
  | dpTripAck (a : Accessor) (value : BitVec 32)
  /-- DP_RESTART (R575): A confirmed write requests a module reset through the deputy, also from TRIP. -/
  | dpRestart (a : Accessor) (value : BitVec 32)
  /-- MC_PASS_START (R562): A trigger starts a pass of the monitor converter's sequence table. -/
  | mcPassStart
  /-- MC_ENTRY_DONE (R564): An entry's conversions finish and their mean is written to MC_RESULT. -/
  | mcEntryDone (codes : List Int)
  /-- MC_SELFCAL (R565): An MC_CTRL.SELFCAL write pauses the sequence and self-calibrates against ground and bandgap. -/
  | mcSelfcal (a : Accessor) (value : BitVec 32)
  /-- MC_SELFCAL_COMPLETE (R565): Monitor self-calibration ends, the sequence resumes and event 0x04 is raised. -/
  | mcSelfcalComplete (offset gain : BitVec 16)
  /-- MC_SEQ_TABLE (R587): A write of a sequence entry with an invalid input is discarded, otherwise applied at the next pass. -/
  | mcSeqTable (a : Accessor) (n : BitVec 5) (value : BitVec 32)
  /-- MC_TRIGGER (R588): A write of the trigger with invalid delay or period is discarded, otherwise applied at the next pass. -/
  | mcTrigger (a : Accessor) (value : BitVec 32)
  /-- AUX_APPLY (R623): AUX power appears within range and the device enters power state AUX. -/
  | auxApply
  /-- AUX_LOSS (R609): Loss of AUX removes the main rails and closes the crosscut. -/
  | auxLoss
  /-- VIN_APPLY (R606): Applied input starts constant-current charging of the hold-up bank. -/
  | vinApply (vin : BitVec 16)
  /-- PWR_EN_RISE (R600): Filtered PWR_EN high starts the main rails once the start conditions hold. -/
  | pwrEnRise
  /-- PWR_EN_FALL (R601): Filtered PWR_EN low removes the main rails in sequence as an orderly power-down. -/
  | pwrEnFall
  /-- THERM_TRIP_RELEASE (R602): THERM_TRIP# is released after PWR_EN has been low for 100 ms. -/
  | thermTripRelease
  /-- MAIN_ON (R623): PWR_GOOD rises, HF_SEL is latched, RTB starts and PLL lock and link and stack training begin. -/
  | mainOn (light : Bool) (failed : List (BitVec 3 × BitVec 5 × BitVec 8))
  /-- ZERO_FILL_DONE (R389): The stacks finish their zero-fill and the device enters ROM. -/
  | zeroFillDone
  /-- FW_LOADED_WORK_DONE (R624): The work of FW_LOADED completes and the device enters CONFIGURED, restoring sealed owners. -/
  | fwLoadedWorkDone (identity : BitVec 2)
  /-- CONFIGURED_WORK_DONE (R634): With no unacknowledged trip record the device leaves CONFIGURED for CALIBRATING. -/
  | configuredWorkDone
  /-- STARTUP_CAL_DONE (R625): Start-up calibration completes and the device enters RING_TRAINING, or READY with no ring or a ring of one. -/
  | startupCalDone (peerLight : Bool)
  /-- SOFT (R630): A confirmed DEV_RESET.SOFT write starts a device soft reset if accepted. -/
  | devSoft (a : Accessor) (value : BitVec 32)
  /-- SOFT_RESET_DONE (R630): A device soft reset completes and the device enters ROM. -/
  | softResetDone
  /-- MODULE (R631): A confirmed DEV_RESET.MODULE write removes the main rails and closes the crosscut. -/
  | devModule (a : Accessor) (value : BitVec 32)
  /-- MODULE_RESTART (R631): 20 ms after a module reset the deputy restarts the main rails. -/
  | moduleRestart
  /-- REF_LOST (R620): Loss of the PLL's reference starts holdover and raises event 0x06. -/
  | refLost (ref : BitVec 3)
  /-- REF_HOLDOVER_EXPIRY (R620): After 10 ms of holdover the PLL selects the next reference. -/
  | refHoldoverExpiry
  /-- REFERENCE_APPEAR (R619): A reference of higher rank appears and the PLL re-evaluates its reference. -/
  | referenceAppear (ref : BitVec 3)
  /-- REF_LOCKED (R620): The PLL locks to a new reference and event 0x07 is raised. -/
  | refLocked (us : BitVec 16)
  /-- MAIN_RAILS_START (R600): With PWR_EN already high, the module starts its main rails at the moment the last start condition is met: AUX 20 ms in range, VIN 10 ms in range, hold-up bank charged, 100 ms since PWR_EN fell. -/
  | mainRailsStart (bank : Bool)
  /-- HOLD_UP_BANK_DEPLETED (R607): With input and AUX both lost, the hold-up bank runs down after at least 5 ms and the deputy, record store and management queue lose power. -/
  | holdUpBankDepleted
  /-- PLAN_CHECK_COMPLETE (R284): The devices finish checking their records, within 2 s, and the command completes with a rejection code or proceeds to admission at the next round boundary. -/
  | planCheckComplete (others : List (BitVec 6 × BitVec 8 × BitVec 8 × BitVec 8 × BitVec 32)) (ecc : List (Nat × Bool))
  /-- COMMAND_TRANSFER_COMPLETE (R461): A MEM_WRITE or MEM_READ transfer on background queue 258 finishes and the command completes. -/
  | commandTransferComplete (w : Issuer) (data : Option (List Byte)) (ecc : List (Nat × Bool))
  /-- VF_ENABLE_SET (R445): Setting VF Enable in the SR-IOV capability enables the port's virtual functions, so that their function pages leave DISABLED and NUM_VF counts them. -/
  | vfEnableSet (port : Bool) (count : BitVec 5)
  /-- RESIZABLE_BAR (R37): A write of the Resizable BAR capability changes the BAR4 aperture size to a power of two from 1 GiB to 64 GiB. -/
  | resizableBar (port : Bool) (log2Size : BitVec 6)
  /-- DYNAMIC_ADDRESS_ASSIGN (R500): The I3C bus controller assigns the management endpoint its dynamic address, for example by SETDASA from static address 0x2C. -/
  | dynamicAddressAssign (addr : BitVec 7)
deriving DecidableEq, Repr

end Sys2Proof
end

