-- ==== Sys2Proof/Decode.lean ====
section
/-! DEFINITION. Reading a command from a word: no row of the table gives bits, so no word spells a command. -/

namespace Sys2Proof

/-- The command a word of `nbits` bits spells by the table's bits. spec/opcode_table.json gives no row any bits: none. -/
def decodeTableWord (_nbits _w : Nat) : Option Instr := none

end Sys2Proof
end

