-- ==== Sys2Proof/Machine/Bytes.lean ====
section
/-! DEFINITION. Byte order (little-endian, R101), bit fields and event information bytes. -/

namespace Sys2Proof.Machine

/-- The `n` low bytes of a number, least significant first (R101). -/
def leBytes : Nat → Nat → List Byte
  | 0, _ => []
  | n + 1, v => BitVec.ofNat 8 v :: leBytes n (v / 256)

/-- The number a little-endian byte list spells (R101). -/
def ofLe : List Byte → Nat
  | [] => 0
  | b :: bs => b.toNat + 256 * ofLe bs

/-- Bits `[lo, lo + n)` of a number. -/
def bits (v lo n : Nat) : Nat := v / 2 ^ lo % 2 ^ n

/-- Bit `i` of a number. -/
def bit (v i : Nat) : Bool := v / 2 ^ i % 2 == 1

/-- A flag as a number. -/
def ofBool (b : Bool) : Nat := if b then 1 else 0

/-- A field value placed at bit `lo`, cut to `n` bits. -/
def field (lo n v : Nat) : Nat := v % 2 ^ n * 2 ^ lo

/-- The signed number of `n` bits that a number spells. -/
def signed (n v : Nat) : Int := if v % 2 ^ n < 2 ^ (n - 1) then (v % 2 ^ n : Nat) else (v % 2 ^ n : Nat) - (2 ^ n : Nat)

/-- The two's complement of `n` bits of an integer. -/
def twos (n : Nat) (i : Int) : Nat := (i % (2 ^ n : Nat)).toNat

/-- Pad a byte list with zeros, or cut it, to `n` bytes. -/
def padTo : Nat → List Byte → List Byte
  | 0, _ => []
  | n + 1, [] => 0 :: padTo n []
  | n + 1, b :: bs => b :: padTo n bs

/-- The 16 information bytes of an event (R43) from (byte count, value) pairs in order, zero beyond them. -/
def info (fs : List (Nat × Nat)) : List Byte := padTo 16 (fs.flatMap (fun f => leBytes f.1 f.2))

/-- Byte `i` of a list, 0 beyond its end. -/
def byteAt (l : List Byte) (i : Nat) : Nat := (l.getD i 0).toNat

/-- The little-endian field of `n` bytes at offset `o` of a byte list. -/
def leAt (l : List Byte) (o n : Nat) : Nat := ofLe (padTo n (l.drop o))

/-- The numbers below `n` in ascending order, for walking over units. -/
def upTo (n : Nat) : List Nat := List.range n

end Sys2Proof.Machine
end

