-- ==== Sys2Proof/Machine/Fp.lean ====
section
/-! DEFINITION. The floating formats and their exact arithmetic with one rounding (R100-R105): every finite value of every format
is an integer number of units of 2^-149. -/

namespace Sys2Proof.Machine

/-- A floating format of R102. -/
structure Format where
  /-- Exponent bits. -/
  expBits : Nat
  /-- Fraction bits. -/
  fracBits : Nat
  /-- Bias. -/
  bias : Nat
  /-- Infinity and NaN are encoded as IEEE 754 does; false for E4M3 (R103). -/
  ieee : Bool
  /-- A finite value that overflows becomes infinity; false for the 8-bit formats (R104). -/
  overflowInf : Bool
  /-- The canonical NaN (R103). -/
  canonNan : Nat
deriving DecidableEq, Repr

/-- E4M3 (R102). -/
def fmtE4M3 : Format := { expBits := 4, fracBits := 3, bias := 7, ieee := false, overflowInf := false, canonNan := 0x7F }
/-- E5M2 (R102). -/
def fmtE5M2 : Format := { expBits := 5, fracBits := 2, bias := 15, ieee := true, overflowInf := false, canonNan := 0x7F }
/-- BF16 (R102). -/
def fmtBF16 : Format := { expBits := 8, fracBits := 7, bias := 127, ieee := true, overflowInf := true, canonNan := 0x7FC0 }
/-- FP16 (R102). -/
def fmtFP16 : Format := { expBits := 5, fracBits := 10, bias := 15, ieee := true, overflowInf := true, canonNan := 0x7E00 }
/-- FP32 (R102). -/
def fmtFP32 : Format := { expBits := 8, fracBits := 23, bias := 127, ieee := true, overflowInf := true, canonNan := 0x7FC00000 }

/-- A decoded value: NaN, an infinity, or a sign and a magnitude in units of 2^-149. -/
inductive Fp where
  | nan
  | inf (neg : Bool)
  | fin (neg : Bool) (mag : Nat)
deriving DecidableEq, Repr

/-- The largest exponent field of a format. -/
def Format.topExp (f : Format) : Nat := 2 ^ f.expBits - 1

/-- Decode a code of a format (R102, R103). -/
def Format.decode (f : Format) (c : Nat) : Fp :=
  let frac := bits c 0 f.fracBits
  let e := bits c f.fracBits f.expBits
  let neg := bit c (f.expBits + f.fracBits)
  -- the unit of the format's subnormals is 2^(1 - bias - fracBits)
  let shift := 150 - f.bias - f.fracBits
  if e = f.topExp ∧ f.ieee then (if frac = 0 then .inf neg else .nan)
  else if e = f.topExp ∧ frac = 2 ^ f.fracBits - 1 then .nan
  else if e = 0 then .fin neg (frac * 2 ^ shift)
  else .fin neg ((2 ^ f.fracBits + frac) * 2 ^ (shift + e - 1))

/-- Round half to even of `num / den`. -/
def roundEven (num den : Nat) : Nat :=
  let q := num / den
  let r := num % den
  if 2 * r < den then q else if den < 2 * r then q + 1 else if q % 2 = 0 then q else q + 1

/-- Round half away from zero of `num / den`. -/
def roundAway (num den : Nat) : Nat := (2 * num + den) / (2 * den)

/-- Round half to even of an integer quotient. -/
def roundEvenInt (num : Int) (den : Nat) : Int :=
  if num < 0 then -(roundEven num.natAbs den : Int) else (roundEven num.natAbs den : Int)

/-- The code of the sign bit of a format. -/
def Format.sign (f : Format) (neg : Bool) : Nat := ofBool neg * 2 ^ (f.expBits + f.fracBits)

/-- The code of an infinity: E4M3 has none and uses its largest finite magnitude (R104). -/
def Format.infCode (f : Format) (neg : Bool) : Nat :=
  f.sign neg + (if f.ieee then f.topExp * 2 ^ f.fracBits else f.topExp * 2 ^ f.fracBits + 2 ^ f.fracBits - 2)

/-- The code of the largest finite magnitude. -/
def Format.maxCode (f : Format) (neg : Bool) : Nat :=
  f.sign neg + (if f.ieee then f.topExp * 2 ^ f.fracBits - 1 else f.topExp * 2 ^ f.fracBits + 2 ^ f.fracBits - 2)

/-- Encode the magnitude `num / den` with one rounding to nearest, ties to even, overflow decided on the rounded value (R104). -/
def Format.encodeRat (f : Format) (neg : Bool) (num den : Nat) : Nat :=
  if num = 0 then f.sign neg
  else
    -- scaled so that the unit of the format's subnormals is 1
    let n := num * 2 ^ (f.bias + f.fracBits - 1)
    let k := Nat.log2 (n / den)
    -- quantum 2^e in units of the smallest subnormal
    let e := if n < den then 0 else k - f.fracBits
    let q := roundEven n (den * 2 ^ e)
    let code := if q < 2 ^ f.fracBits then q else e * 2 ^ f.fracBits + q
    if f.maxCode false < code then (if f.overflowInf then f.infCode neg else f.maxCode neg)
    else f.sign neg + code

/-- One unit is 2^-149. -/
def fpOne : Nat := 2 ^ 149

/-- Encode a decoded value in a format (R104). -/
def Format.encode (f : Format) : Fp → Nat
  | .nan => f.canonNan
  | .inf neg => f.infCode neg
  | .fin neg m => f.encodeRat neg m fpOne

/-- The FP32 value of a word. -/
def ofF32 (w : Word32) : Fp := fmtFP32.decode w.toNat

/-- The FP32 word of a decoded value. -/
def toF32 (v : Fp) : Word32 := BitVec.ofNat 32 (fmtFP32.encode v)

/-- Canonical FP32 NaN (R103). -/
def nan32 : Word32 := 0x7FC00000
/-- FP32 +0. -/
def zero32 : Word32 := 0
/-- FP32 1. -/
def one32 : Word32 := 0x3F800000

/-- The FP32 nearest to the signed rational `num / den`; 0 is +0. -/
def ratF32 (num : Int) (den : Nat) : Word32 := BitVec.ofNat 32 (fmtFP32.encodeRat (decide (num < 0)) num.natAbs den)

/-- A finite value as a signed number of units of 2^-149; 0 for the others. -/
def Fp.units : Fp → Int
  | .fin neg m => if neg then -(m : Int) else (m : Int)
  | _ => 0

/-- The value is finite. -/
def Fp.isFin : Fp → Bool
  | .fin _ _ => true
  | _ => false

/-- The value is NaN. -/
def Fp.isNan : Fp → Bool
  | .nan => true
  | _ => false

/-- The value is an infinity. -/
def Fp.isInf : Fp → Bool
  | .inf _ => true
  | _ => false

/-- Sign of a value; NaN counts as positive. -/
def Fp.neg : Fp → Bool
  | .nan => false
  | .inf n => n
  | .fin n _ => n

/-- Negate. -/
def Fp.negate : Fp → Fp
  | .nan => .nan
  | .inf n => .inf (!n)
  | .fin n m => .fin (!n) m

/-- FP32 word of a signed sum of units `2^-149 / scale`; a zero takes the sign given (IEEE 754 signed zero). -/
def sumF32 (v : Int) (scale : Nat) (zeroNeg : Bool) : Word32 :=
  if v = 0 then BitVec.ofNat 32 (fmtFP32.sign zeroNeg) else ratF32 v (fpOne * scale)

/-- a + b with one rounding (IEEE 754 binary32, round to nearest even). -/
def fAdd (a b : Word32) : Word32 :=
  match ofF32 a, ofF32 b with
  | .nan, _ => nan32
  | _, .nan => nan32
  | .inf x, .inf y => if x = y then toF32 (.inf x) else nan32
  | .inf x, _ => toF32 (.inf x)
  | _, .inf y => toF32 (.inf y)
  | .fin x m, .fin y n => sumF32 ((Fp.fin x m).units + (Fp.fin y n).units) 1 (x && y)

/-- Invert the sign bit of a word; a NaN becomes canonical. -/
def fNeg (a : Word32) : Word32 := toF32 (ofF32 a).negate

/-- a - b with one rounding. -/
def fSub (a b : Word32) : Word32 := fAdd a (fNeg b)

/-- a * b with one rounding. -/
def fMul (a b : Word32) : Word32 :=
  match ofF32 a, ofF32 b with
  | .nan, _ => nan32
  | _, .nan => nan32
  | .inf x, .inf y => toF32 (.inf (x != y))
  | .inf x, .fin y n => if n = 0 then nan32 else toF32 (.inf (x != y))
  | .fin x m, .inf y => if m = 0 then nan32 else toF32 (.inf (x != y))
  | .fin x m, .fin y n => BitVec.ofNat 32 (fmtFP32.encodeRat (x != y) (m * n) (fpOne * fpOne))

/-- a * b + c with one rounding. -/
def fFma (a b c : Word32) : Word32 :=
  let p : Fp := match ofF32 a, ofF32 b with
    | .nan, _ => .nan
    | _, .nan => .nan
    | .inf x, .inf y => .inf (x != y)
    | .inf x, .fin y n => if n = 0 then .nan else .inf (x != y)
    | .fin x m, .inf y => if m = 0 then .nan else .inf (x != y)
    | .fin x m, .fin y n => .fin (x != y) (m * n)
  match p, ofF32 c with
  | .nan, _ => nan32
  | _, .nan => nan32
  | .inf x, .inf y => if x = y then toF32 (.inf x) else nan32
  | .inf x, _ => toF32 (.inf x)
  | _, .inf y => toF32 (.inf y)
  | .fin x m, .fin y n => sumF32 ((Fp.fin x m).units + (Fp.fin y n).units * (fpOne : Int)) fpOne (x && y)

/-- a / b with one rounding. -/
def fDiv (a b : Word32) : Word32 :=
  match ofF32 a, ofF32 b with
  | .nan, _ => nan32
  | _, .nan => nan32
  | .inf _, .inf _ => nan32
  | .inf x, .fin y _ => toF32 (.inf (x != y))
  | .fin x _, .inf y => BitVec.ofNat 32 (fmtFP32.sign (x != y))
  | .fin x m, .fin y n =>
    if n = 0 then (if m = 0 then nan32 else toF32 (.inf (x != y)))
    else BitVec.ofNat 32 (fmtFP32.encodeRat (x != y) m n)

/-- Integer square root by bits: the largest `r` with `r * r ≤ n`, searched below `2^k`. -/
def isqrt (n : Nat) : Nat → Nat → Nat
  | 0, r => r
  | k + 1, r => if (r + 2 ^ k) * (r + 2 ^ k) ≤ n then isqrt n k (r + 2 ^ k) else isqrt n k r

/-- Square root with one rounding. -/
def fSqrt (a : Word32) : Word32 :=
  match ofF32 a with
  | .nan => nan32
  | .inf x => if x then nan32 else toF32 (.inf false)
  | .fin x m =>
    if m = 0 then a
    else if x then nan32
    else
      -- sqrt(m / 2^149) = sqrt(m * 2^249) / 2^199
      let n := m * 2 ^ 249
      let r := isqrt n 264 0
      BitVec.ofNat 32 (fmtFP32.encodeRat false (if r * r = n then 2 * r else 2 * r + 1) (2 * 2 ^ 199))

/-- a < b on non-NaN values (-0 equals +0). -/
def Fp.lt : Fp → Fp → Bool
  | .nan, _ => false
  | _, .nan => false
  | .inf x, .inf y => x && !y
  | .inf x, _ => x
  | _, .inf y => !y
  | .fin x m, .fin y n => decide ((Fp.fin x m).units < (Fp.fin y n).units)

/-- a = b on non-NaN values (-0 equals +0). -/
def Fp.eq : Fp → Fp → Bool
  | .nan, _ => false
  | _, .nan => false
  | .inf x, .inf y => x == y
  | .inf _, _ => false
  | _, .inf _ => false
  | .fin x m, .fin y n => decide ((Fp.fin x m).units = (Fp.fin y n).units)

/-- Convert a code of one format to another (R104). -/
def convert (src dst : Format) (c : Nat) : Nat := dst.encode (src.decode c)

/-- Convert a floating value to an integer range, round half even, clamped; NaN becomes 0 (R105). -/
def toIntClamp (v : Fp) (lo hi : Int) : Int :=
  match v with
  | .nan => 0
  | .inf neg => if neg then lo else hi
  | .fin neg m => max lo (min hi (roundEvenInt (Fp.fin neg m).units fpOne))

/-- The FP32 word of an integer, correctly rounded. -/
def intF32 (i : Int) : Word32 := ratF32 i 1

end Sys2Proof.Machine
end

