-- ==== Sys2Proof/Config.lean ====
section
/-! DEFINITION. What the spec leaves open: free values, each an opaque constant with no body, so that no proof can see one.
Those of type `Nat → …` are applied to the state's counter `State.free`, which every draw advances. -/

namespace Sys2Proof.Config

/-- A number the spec does not fix, one per draw (log entry 11). -/
opaque freeNat : Nat → Nat

/-- A choice the spec does not fix, one per draw (log entry 11). -/
opaque freeBool : Nat → Bool

/-- RSASSA-PSS verification of a message under a signature and a modulus (R514; log entry 13). -/
opaque rsaPssVerify : List Byte → List Byte → List Byte → Bool

/-- The root-key hash in mask ROM (R512; log entry 13). -/
opaque rootKeyHash : BitVec 512

/-- The modulus of the vendor root key (R516; log entry 13). -/
opaque rootKey : List Byte

/-- SHA-512 of the mask ROM, measurement 1 (R521; log entry 13). -/
opaque bootRomDigest : BitVec 512

/-- Where firmware places the sump within the reserved region (R45, R377; log entry 5). -/
opaque sumpPlace : Nat

/-- Bodies of management and attestation answers whose bytes the manual leaves to DMTF specifications (log entry 23). -/
opaque dmtfBody : Nat → Nat → List Byte

/-- What 64 bytes last written at word `word` under key `written` decrypt to under another key `reading` (R379, R380; log entry 14). -/
opaque noise : (reading written word : Nat) → List Byte → List Byte

/-- Which of the results that R197's error bound admits a core's exp, reciprocal or reciprocal square root gives, a function of the
operand (R197, R198; log entry 15). -/
opaque ulps : (op : Nat) → BitVec 32 → Nat

/-- The error in code steps of one conversion against the nominal transfer of R61: of a shot, per column pair and part (R127; log
entry 17). -/
opaque convError : (shot : Nat) → (index : Nat) → Int

/-- The 256 bits of a key that the key engine drew, known to the state by its serial number (R524, R525; log entry 7). -/
opaque keyBits : (serial : Nat) → BitVec 256

/-- The 48 random bytes that each end of a link sends in the bring-up known by its serial number, one after the other (R413; log entry 7). -/
opaque linkShares : (serial : Nat) → List Byte

/-- The transcript of a link's bring-up, which both ends sign (R413; log entry 7). -/
opaque linkTranscript : (serial : Nat) → List Byte

/-- What the firmware is given for a poisoned word that it reads (R386; log entry 112). -/
opaque poisonRead : (word : Nat) → List Byte

/-- Where in a pause image a page of a ring position lies; page 2^56 - 1 of ring position 0xFF is the header (R370; log entry 82). -/
opaque imagePlace : (position page : Nat) → Nat

/-- The fixed paths of a hop, in ticks, that its published delay adds to half the measured round trip (R428; log entry 39). -/
opaque fixedPath : Nat

/-- The extents, as places after the resident copy and counts, in which firmware keeps page tables, adapter shadows, the prompt pool and the
extent table (R377; log entry 85). -/
opaque firmwareExtents : List (Nat × Nat)

/-- Where a member's firmware keeps the plan image of an admission, within the reserved region (R284, R377; log entry 39). -/
opaque planPlace : Nat

/-- The weight of a row and pair in the pattern that the ASSAY section of image version `version` gives a tile (R566; log entry 94). -/
opaque assayWeight : (version row pair : Nat) → Int

/-- The drive value of a row in a pattern vector of that section (R566; log entry 94). -/
opaque assayDrive : (version vector row : Nat) → Int

end Sys2Proof.Config
end

