-- ==== Sys2Proof/Machine/Crypto.lean ====
section
/-! DEFINITION. The algorithms the spec names by their standards: SHA-512 (FIPS 180-4; R180, R284, R363, R512, R525), Hash_DRBG (SP 800-90A;
R327), AES-256 in counter mode (R177) and AES-256-GCM (R370). Key bits stay opaque: a key is known by its serial number (log entry 7). -/

namespace Sys2Proof.Machine

/-- The `n` low bytes of a number, most significant first. -/
def beBytes (n v : Nat) : List Byte := (leBytes n v).reverse

/-- The number a list of bytes spells, most significant first. -/
def ofBe (bs : List Byte) : Nat := ofLe bs.reverse

/-! ### SHA-512 -/

/-- Largest `x` with `x ^ k ≤ v`, among those below `2 ^ bits` more than `x`. -/
def rootFrom (k v : Nat) : Nat → Nat → Nat
  | 0, x => x
  | b + 1, x => rootFrom k v b (if (x + 2 ^ b) ^ k ≤ v then x + 2 ^ b else x)

/-- A number below `n` and at least 2 divides `m`. -/
def hasDivisor (m : Nat) : Nat → Bool
  | 0 => false
  | n + 1 => (decide (2 ≤ n) && m % n == 0) || hasDivisor m n

/-- The first primes below 410: there are 80 of them. -/
def primes : List Nat := ((upTo 410).drop 2).filter (fun p => !hasDivisor p p)

/-- Initial hash value: the first 64 bits of the fractional parts of the square roots of the first eight primes. -/
def shaInit : List Nat := (primes.take 8).map (fun p => rootFrom 2 (p * 2 ^ 128) 70 0 % 2 ^ 64)

/-- Round constants: the first 64 bits of the fractional parts of the cube roots of the first eighty primes. -/
def shaConsts : List Nat := primes.map (fun p => rootFrom 3 (p * 2 ^ 192) 70 0 % 2 ^ 64)

/-- Rotate a 64-bit word right. -/
def rotr (n x : Nat) : Nat := x / 2 ^ n + x % 2 ^ n * 2 ^ (64 - n)

/-- One more word of the message schedule; the newest word stands first. -/
def shaNext (w : List Nat) : Nat :=
  let a := w.getD 14 0
  let b := w.getD 1 0
  let s0 := rotr 1 a ^^^ rotr 8 a ^^^ (a / 2 ^ 7)
  let s1 := rotr 19 b ^^^ rotr 61 b ^^^ (b / 2 ^ 6)
  (w.getD 15 0 + s0 + w.getD 6 0 + s1) % 2 ^ 64

/-- The message schedule, newest word first. -/
def shaSchedule : Nat → List Nat → List Nat
  | 0, w => w
  | n + 1, w => shaSchedule n (shaNext w :: w)

/-- One round on the eight working variables. -/
def shaRound (v : List Nat) (kw : Nat) : List Nat :=
  let g := fun i => v.getD i 0
  let s1 := rotr 14 (g 4) ^^^ rotr 18 (g 4) ^^^ rotr 41 (g 4)
  let ch := (g 4 &&& g 5) ^^^ ((2 ^ 64 - 1 - g 4) &&& g 6)
  let t1 := g 7 + s1 + ch + kw
  let s0 := rotr 28 (g 0) ^^^ rotr 34 (g 0) ^^^ rotr 39 (g 0)
  let maj := (g 0 &&& g 1) ^^^ (g 0 &&& g 2) ^^^ (g 1 &&& g 2)
  [(t1 + s0 + maj) % 2 ^ 64, g 0, g 1, g 2, (g 3 + t1) % 2 ^ 64, g 4, g 5, g 6]

/-- One 128-byte block. -/
def shaBlock (h : List Nat) (b : List Byte) : List Nat :=
  let w := (shaSchedule 64 ((upTo 16).map (fun i => ofBe ((b.drop (8 * i)).take 8))).reverse).reverse
  let v := (w.zip shaConsts).foldl (fun v x => shaRound v (x.1 + x.2)) h
  (h.zip v).map (fun x => (x.1 + x.2) % 2 ^ 64)

/-- Blocks of a padded message. -/
def shaBlocks : Nat → List Byte → List Nat → List Nat
  | 0, _, h => h
  | n + 1, m, h => shaBlocks n (m.drop 128) (shaBlock h (m.take 128))

/-- The padding of a message of `n` bytes. -/
def shaPad (n : Nat) : List Byte := 0x80 :: List.replicate ((239 - n % 128) % 128) 0 ++ beBytes 16 (8 * n)

/-- SHA-512 of a message as 64 bytes. -/
def sha512Bytes (m : List Byte) : List Byte :=
  let p := m ++ shaPad m.length
  (shaBlocks (p.length / 128) p shaInit).flatMap (beBytes 8)

/-- SHA-512 of a message; its first byte is the most significant. -/
def sha512 (m : List Byte) : BitVec 512 := BitVec.ofNat 512 (ofBe (sha512Bytes m))

/-- HMAC-SHA-512 of a message under a key (R413). -/
def hmac512 (key m : List Byte) : List Byte :=
  let k := padTo 128 (if 128 < key.length then sha512Bytes key else key)
  sha512Bytes (k.map (· ^^^ 0x5C) ++ sha512Bytes (k.map (· ^^^ 0x36) ++ m))

/-! ### Hash_DRBG with SHA-512 (SP 800-90A; R327) -/

/-- Bytes of the seed of Hash_DRBG with SHA-512. -/
def drbgSeed : Nat := 111

/-- Hash_df to the seed length. -/
def hashDf (m : List Byte) : List Byte :=
  ([1, 2].flatMap (fun c => sha512Bytes (BitVec.ofNat 8 c :: beBytes 4 (8 * drbgSeed) ++ m))).take drbgSeed

/-- Hashgen: `n` blocks of output from the value `v`. -/
def hashGen : Nat → Nat → List Byte
  | 0, _ => []
  | n + 1, v => sha512Bytes (beBytes drbgSeed v) ++ hashGen n (v + 1)

/-- The first `size` bytes of the first output of a Hash_DRBG instance. -/
def hashDrbg (entropy nonce personalisation : List Byte) (size : Nat) : List Byte :=
  (hashGen ((size + 63) / 64) (ofBe (hashDf (entropy ++ nonce ++ personalisation)))).take size

/-! ### AES-256 -/

/-- Multiplication by x in the field of AES. -/
def gfDouble (b : Nat) : Nat := if 128 ≤ b then (2 * b) ^^^ 0x11B else 2 * b

/-- Product in the field of AES over `n` bits of the second factor. -/
def gfMul : Nat → Nat → Nat → Nat
  | 0, _, _ => 0
  | n + 1, a, b => (if b % 2 = 1 then a else 0) ^^^ gfMul n (gfDouble a) (b / 2)

/-- Product of two bytes in the field of AES. -/
def gfTimes (a b : Nat) : Nat := gfMul 8 a b

/-- The power 2 + 4 + … + 2 ^ n of a byte. -/
def gfPowers : Nat → Nat → Nat
  | 0, _ => 1
  | n + 1, a => gfTimes (gfTimes a a) (gfPowers n (gfTimes a a))

/-- Rotate a byte left. -/
def rotl8 (n x : Nat) : Nat := x * 2 ^ n % 256 + x / 2 ^ (8 - n)

/-- The S-box of AES: the inverse, x ^ 254, and an affine map. -/
def sbox (b : Nat) : Nat :=
  let i := gfPowers 7 b
  i ^^^ rotl8 1 i ^^^ rotl8 2 i ^^^ rotl8 3 i ^^^ rotl8 4 i ^^^ 0x63

/-- Exclusive or of two byte lists. -/
def xorBytes (a b : List Nat) : List Nat := (a.zip b).map (fun x => x.1 ^^^ x.2)

/-- The next word of the key schedule of AES-256; the newest word stands first and `i` is its index. -/
def keyNext (i : Nat) (ws : List (List Nat)) : List Nat :=
  let t := ws.headD []
  let t := if i % 8 = 0 then
      xorBytes ((t.drop 1 ++ t.take 1).map sbox) [(upTo (i / 8 - 1)).foldl (fun r _ => gfDouble r) 1, 0, 0, 0]
    else if i % 8 = 4 then t.map sbox else t
  xorBytes (ws.getD 7 []) t

/-- The key schedule: `n` more words from index `i`. -/
def keyWords : Nat → Nat → List (List Nat) → List (List Nat)
  | 0, _, ws => ws
  | n + 1, i, ws => keyWords n (i + 1) (keyNext i ws :: ws)

/-- The fifteen round keys of a 32-byte key. -/
def roundKeys (key : List Nat) : List (List Nat) :=
  let ws := (keyWords 52 8 ((upTo 8).map (fun i => (key.drop (4 * i)).take 4)).reverse).reverse
  (upTo 15).map (fun r => ((ws.drop (4 * r)).take 4).flatMap id)

/-- ShiftRows on sixteen bytes in column order. -/
def shiftRows (b : List Nat) : List Nat := (upTo 16).map (fun i => b.getD ((i + 4 * (i % 4)) % 16) 0)

/-- MixColumns on sixteen bytes in column order. -/
def mixColumns (b : List Nat) : List Nat := (upTo 16).map (fun i =>
  let g := fun k => b.getD (4 * (i / 4) + (i + k) % 4) 0
  gfDouble (g 0) ^^^ gfDouble (g 1) ^^^ g 1 ^^^ g 2 ^^^ g 3)

/-- Rounds of AES; the last one does not mix columns. -/
def aesRounds : List (List Nat) → List Nat → List Nat
  | [], b => b
  | [k], b => xorBytes (shiftRows (b.map sbox)) k
  | k :: ks, b => aesRounds ks (xorBytes (mixColumns (shiftRows (b.map sbox))) k)

/-- AES-256 of one 16-byte block under round keys. -/
def aesBlock (ks : List (List Nat)) (b : List Nat) : List Nat := aesRounds (ks.drop 1) (xorBytes b (ks.headD []))

/-- A number as sixteen byte values, most significant first. -/
def block16 (v : Nat) : List Nat := (beBytes 16 v).map (·.toNat)

/-- The round keys of a key. -/
def keysOf (key : BitVec 256) : List (List Nat) := roundKeys ((beBytes 32 key.toNat).map (·.toNat))

/-- Byte `n` of the AES-256-CTR keystream of a mapping key, known by its serial number (log entry 7), for a tile of global index `g` (R177). -/
def keystream (key g n : Nat) : Byte := BitVec.ofNat 8 ((aesBlock (keysOf (Config.keyBits key)) (block16 (g * 2 ^ 96 + n / 16))).getD (n % 16) 0)

/-! ### AES-256-GCM (SP 800-38D; R370) -/

/-- Product in the field of GHASH over `n` bits of the first factor, its most significant bit first. -/
def ghashMul : Nat → Nat → Nat → Nat
  | 0, _, _ => 0
  | n + 1, x, y => (if x / 2 ^ n % 2 = 1 then y else 0) ^^^ ghashMul n x (if y % 2 = 1 then (y / 2) ^^^ (0xE1 * 2 ^ 120) else y / 2)

/-- GHASH of blocks under a hash key. -/
def ghash (h : Nat) (bs : List Nat) : Nat := bs.foldl (fun y b => ghashMul 128 (y ^^^ b) h) 0

/-- The 16-byte blocks of a byte string, the last padded with zeros. -/
def gcmBlocks (bs : List Byte) : List Nat := (upTo ((bs.length + 15) / 16)).map (fun i => ofBe (padTo 16 (bs.drop (16 * i))))

/-- Counter mode of GCM from a block on: the text under the 96-bit IV, in either direction. -/
def gcmCrypt (ks : List (List Nat)) (iv first : Nat) (bs : List Byte) : List Byte :=
  ((upTo ((bs.length + 15) / 16)).flatMap (fun i =>
    let k := aesBlock ks (block16 (iv * 2 ^ 32 + first + i + 2))
    (((bs.drop (16 * i)).take 16).zip k).map (fun x => x.1 ^^^ BitVec.ofNat 8 x.2)))

/-- A part of a text that begins at byte `off` of it, in counter mode of GCM. -/
def gcmCryptAt (ks : List (List Nat)) (iv off : Nat) (bs : List Byte) : List Byte :=
  (gcmCrypt ks iv (off / 16) (List.replicate (off % 16) 0 ++ bs)).drop (off % 16)

/-- The tag of additional data and a ciphertext under an IV. -/
def gcmTag (ks : List (List Nat)) (iv : Nat) (aad c : List Byte) : List Byte :=
  let h := ofBe ((aesBlock ks (block16 0)).map (BitVec.ofNat 8))
  let e := ofBe ((aesBlock ks (block16 (iv * 2 ^ 32 + 1))).map (BitVec.ofNat 8))
  beBytes 16 (ghash h (gcmBlocks aad ++ gcmBlocks c ++ [8 * aad.length * 2 ^ 64 + 8 * c.length]) ^^^ e)

/-- A text sealed under a key and an IV: the ciphertext, then its 16-byte tag. -/
def gcmSeal (key : BitVec 256) (iv : Nat) (p : List Byte) : List Byte :=
  let ks := keysOf key
  let c := gcmCrypt ks iv 0 p
  c ++ gcmTag ks iv [] c

/-- A sealed text opened: none where its tag does not match. -/
def gcmOpen (key : BitVec 256) (iv : Nat) (x : List Byte) : Option (List Byte) :=
  let ks := keysOf key
  let c := x.take (x.length - 16)
  if x.length < 16 ∨ gcmTag ks iv [] c ≠ x.drop (x.length - 16) then none else some (gcmCrypt ks iv 0 c)

/-! ### CRC-32 (IEEE 802.3; R408) -/

/-- One byte of the frame check sequence of IEEE 802.3, least significant bit first. -/
def crcByte (c : Nat) (b : Byte) : Nat :=
  (upTo 8).foldl (fun c _ => if c % 2 = 1 then (c / 2) ^^^ 0xEDB88320 else c / 2) (c ^^^ b.toNat)

/-- The CRC-32 of a byte string, with the preset and the complement of IEEE 802.3 (R408, R549; log entry 87). -/
def crc32 (bs : List Byte) : Nat := bs.foldl crcByte 0xFFFFFFFF ^^^ 0xFFFFFFFF

end Sys2Proof.Machine
end

