-- ==== Sys2Proof/Machine/PlanTypes.lean ====
section
/-! DEFINITION. The plan set image as the device holds it once parsed (chapter 08, R261-R282): plain data. -/

namespace Sys2Proof.Machine

/-- One shot entry of a template (R269). -/
structure Shot where
  /-- 08 R269 SLOT. -/
  slot : Nat := 0
  /-- 08 R269 GROUP. -/
  group : Nat := 0
  /-- 08 R269 NIBBLE 0 I4 1 high 2 low. -/
  nibble : Nat := 0
  /-- 08 R269 LOGICAL. -/
  logical : Nat := 0
  /-- 08 R269 OP. -/
  op : Nat := 0
  /-- 08 R269 VECTOR. -/
  vector : Nat := 0
  /-- 08 R269 BLOCK. -/
  block : Nat := 0
  /-- 08 R269 SOURCE. -/
  source : Nat := 0
deriving DecidableEq, Repr

/-- One drive source (R270). -/
structure Drive where
  /-- 08 R270 core that holds the codes. -/
  core : Nat := 0
  /-- 08 R270 post-table entry. -/
  post : Nat := 0
  /-- 08 R270 CODES. -/
  codes : Nat := 0
  /-- 08 R270 MASK. -/
  mask : Nat := 0xFFFFFFFF
deriving DecidableEq, Repr

/-- One bank use (R272). -/
structure Bank where
  /-- 08 R272 core. -/
  core : Nat := 0
  /-- 08 R272 block. -/
  block : Nat := 0
  /-- 08 R272 READ_BY. -/
  readBy : Nat := 0
deriving DecidableEq, Repr

/-- One entry of a launch's descriptor list (R273). -/
structure Desc where
  /-- 08 R273 index. -/
  index : Nat := 0
  /-- 08 R273 size exponent. -/
  n : Nat := 0
  /-- 08 R273 TARGET. -/
  target : Nat := 0
  /-- 08 R273 BASE. -/
  base : Nat := 0
deriving DecidableEq, Repr

/-- One launch (R273). -/
structure Launch where
  /-- 08 R273 CORE. -/
  core : Nat := 0
  /-- 08 R273 WATCHED. -/
  watched : Bool := false
  /-- 08 R273 ENTRY. -/
  entry : Nat := 0
  /-- 08 R273 START. -/
  start : Nat := 0
  /-- 08 R273 descriptor list. -/
  descs : List Desc := []
  /-- 08 R275 post table. -/
  posts : List (Nat × Nat) := []
deriving DecidableEq, Repr

/-- One ring slot (R276). -/
structure Ring where
  /-- 08 R276 DIR. -/
  dir : Nat := 0
  /-- 08 R276 STEP_OUT. -/
  stepOut : Bool := false
  /-- 08 R276 RETAIN. -/
  retain : Bool := false
  /-- 08 R276 STANDING. -/
  standing : Bool := false
  /-- 08 R276 POST. -/
  post : Nat := 0
  /-- 08 R276 SEND. -/
  send : Nat := 0
  /-- 08 R276 BYTES. -/
  bytes : Nat := 64
  /-- 08 R276 SRC_CORE. -/
  srcCore : Nat := 0
  /-- 08 R276 DST_CORE. -/
  dstCore : Nat := 0
  /-- 08 R276 DST_DEVICE. -/
  dstDevice : Nat := 0
  /-- 08 R276 DST_SLOT. -/
  dstSlot : Nat := 0
  /-- 08 R276 SRC_OFF. -/
  srcOff : Nat := 0
  /-- 08 R276 DST_OFF. -/
  dstOff : Nat := 0
  /-- 08 R276 DST_POS. -/
  dstPos : Nat := 0
deriving DecidableEq, Repr

/-- One DMA slot (R278). -/
structure Dma where
  /-- 08 R278 DIR. -/
  dir : Nat := 0
  /-- 08 R278 MODE. -/
  mode : Nat := 0
  /-- 08 R278 POST. -/
  post : Nat := 0
  /-- 08 R278 START. -/
  start : Nat := 0
  /-- 08 R278 END. -/
  stop : Nat := 0
  /-- 08 R278 BYTES. -/
  bytes : Nat := 64
  /-- 08 R278 CORE. -/
  core : Nat := 0
  /-- 08 R278 SLOT. -/
  slot : Nat := 0
  /-- 08 R278 OWNER. -/
  owner : Nat := 0
  /-- 08 R278 OFFSET. -/
  offset : Nat := 0
  /-- 08 R278 ADDRESS or KV selector. -/
  addr : Nat := 0
deriving DecidableEq, Repr

/-- One norm-watch entry (R280). -/
structure Watch where
  /-- 08 R280 layer. -/
  layer : Nat := 0
  /-- 08 R280 watch core. -/
  core : Nat := 0
  /-- 08 R280 kappa. -/
  kappa : BitVec 32 := 0
  /-- 08 R280 mu_init. -/
  muInit : BitVec 32 := 0
  /-- 08 R280 DECIDE_BY. -/
  decideBy : Nat := 0
deriving DecidableEq, Repr

/-- One residency entry (R267). -/
structure Resid where
  /-- 08 R267 finalising core. -/
  core : Nat := 0
  /-- 08 R267 DMA slot. -/
  dma : Nat := 0
  /-- 08 R267 scratchpad offset. -/
  off : Nat := 0
deriving DecidableEq, Repr

/-- An outlier set (R267). -/
structure OutlierSet where
  /-- 08 R267 theta. -/
  theta : BitVec 32 := 0
  /-- 08 R267 outlier rows. -/
  addr : Nat := 0
  /-- 08 R267 candidates. -/
  cand : List Nat := []
  /-- 08 R267 residency. -/
  resident : List Resid := []
  /-- 08 R267 COUNT. -/
  count : Nat := 0
deriving DecidableEq, Repr

/-- An adapter descriptor (R268). -/
structure AdapterDesc where
  /-- 08 R268 rank. -/
  rank : Nat := 1
  /-- 08 R268 TRAIN. -/
  train : Bool := false
  /-- 08 R268 initial version. -/
  version : BitVec 32 := 0
  /-- 08 R268 log2 m. -/
  logM : Nat := 4
  /-- 08 R268 eta. -/
  eta : BitVec 32 := 0
  /-- 08 R268 A. -/
  a : Nat := 0
  /-- 08 R268 B. -/
  b : Nat := 0
  /-- 08 R268 probe set. -/
  probe : Nat := 0
  /-- 08 R268 vector count. -/
  count : Nat := 0
  /-- 08 R268 residency. -/
  resident : List Resid := []
deriving DecidableEq, Repr

/-- An operation descriptor (R266). -/
structure OpDesc where
  /-- 08 R266 TAG. -/
  tag : Nat := 0
  /-- 02 R78 earlier descriptors of the record with the same TAG (log entry 68). -/
  rank : Nat := 0
  /-- 08 R266 I8. -/
  i8 : Bool := false
  /-- 08 R266 SEAM. -/
  seam : Bool := false
  /-- 08 R266 ADAPTIVE. -/
  adaptive : Bool := false
  /-- 08 R266 CHAINED. -/
  chained : Bool := false
  /-- 08 R266 RESCALE. -/
  rescale : Bool := false
  /-- 08 R266 range code. -/
  range : Nat := 0
  /-- 08 R266 partial shift. -/
  e : Nat := 0
  /-- 08 R266 A. -/
  allowance : Nat := 0
  /-- 08 R266 TEMPLATE. -/
  template : Nat := 0
  /-- 08 R266 OWNER. -/
  owner : Nat := 0
  /-- 08 R266 K. -/
  k : Nat := 1
  /-- 08 R266 N. -/
  n : Nat := 1
  /-- 08 R267. -/
  outlier : Option OutlierSet := none
  /-- 08 R268. -/
  adapter : Option AdapterDesc := none
deriving DecidableEq, Repr

/-- A beat template (R265). -/
structure Template where
  /-- 08 R257 R265 L. -/
  len : Nat := 512
  /-- 08 R265 KIND REPAIR. -/
  repair : Bool := false
  /-- 08 R265 VECTORS. -/
  vectors : Nat := 0
  /-- 08 R265 RUN_CAP. -/
  runCap : Nat := 0
  /-- 08 R265 ENERGY. -/
  energy : Nat := 0
  /-- 08 R269. -/
  shots : List Shot := []
  /-- 08 R270. -/
  drives : List Drive := []
  /-- 08 R272. -/
  banks : List Bank := []
  /-- 08 R273. -/
  launches : List Launch := []
  /-- 08 R276. -/
  rings : List Ring := []
  /-- 08 R278. -/
  dmas : List Dma := []
  /-- 08 R280. -/
  watches : List Watch := []
deriving DecidableEq, Repr

/-- A position-table entry (R282). -/
structure Pos where
  /-- 08 R282 layout. -/
  layout : Nat := 0
  /-- 08 R282 template. -/
  template : Nat := 0
  /-- 08 R282 role. -/
  role : Nat := 0
  /-- 08 R282 channel. -/
  channel : Nat := 0
  /-- 08 R282 P. -/
  p : Nat := 0
deriving DecidableEq, Repr

/-- A standing-slot entry (R274). -/
structure Standing where
  /-- 08 R274 core. -/
  core : Nat := 0
  /-- 08 R274 index. -/
  index : Nat := 0
  /-- 08 R274 size exponent. -/
  n : Nat := 0
  /-- 08 R274 CARRY. -/
  carry : Bool := false
  /-- 08 R274 FEED. -/
  feed : Bool := false
  /-- 08 R274 TARGET. -/
  target : Nat := 0
  /-- 08 R274 FEED_POS. -/
  feedPos : Nat := 0
  /-- 08 R274 BASE. -/
  base : Nat := 0
deriving DecidableEq, Repr

/-- A device record (R264). -/
structure DevRec where
  /-- 08 R264 POSITION. -/
  position : Nat := 0
  /-- 08 R264. -/
  templates : List Template := []
  /-- 08 R264. -/
  ops : List OpDesc := []
  /-- 08 R264. -/
  positions : List Pos := []
  /-- 08 R264. -/
  standing : List Standing := []
  /-- 08 R264 BINARY_TABLE. -/
  binaries : Tbl (List (BitVec 64)) := []
  /-- 08 R264 RETENTION. -/
  retention : Nat := 0
deriving DecidableEq, Repr

/-- A layout entry (R263). -/
structure Layout where
  /-- 08 R263 KIND. -/
  kind : Nat := 0
  /-- 08 R263 BASE. -/
  base : Nat := 0
  /-- 08 R263 F. -/
  f : Nat := 8
deriving DecidableEq, Repr

/-- A plan of one context bucket (R262). -/
structure Plan where
  /-- 08 R262 BUCKET. -/
  bucket : Nat := 0
  /-- 08 R263. -/
  layouts : List Layout := []
  /-- 08 R262 R264 device records in ring-position order (this device's own is at its position; the checks of R277, R290, R301 read the others). -/
  recs : List DevRec := []
deriving DecidableEq, Repr

/-- An admitted plan set (R261). -/
structure PlanSet where
  /-- 08 R261 MODEL_ID. -/
  modelId : BitVec 64 := 0
  /-- 08 R261 SIZE. -/
  size : Nat := 0
  /-- 08 R261 DEVICES. -/
  devices : Nat := 1
  /-- 08 R261 CHANNELS. -/
  channels : Nat := 1
  /-- 08 R261 REPLAY_MAX. -/
  replayMax : Nat := 0
  /-- 08 R262. -/
  plans : List Plan := []
  /-- 08 R283 device physical address of the image. -/
  addr : Nat := 0
deriving DecidableEq, Repr

end Sys2Proof.Machine
end

