-- ==== Sys2Proof/Machine/State.lean ====
section
/-! DEFINITION. The state of one Keath K640 module as plain data, its reset, and the reasons a step can stop. -/

namespace Sys2Proof.Machine

/-- The power states of R623. -/
inductive PowerState where
  /-- 0x0: AUX absent. -/
  | off
  /-- 0x1: AUX present, main rails off. -/
  | aux
  /-- 0x2: PWR_GOOD is high; stacks train and are zero-filled. -/
  | mainOn
  /-- 0x3: waiting for a BOOT doorbell. -/
  | rom
  /-- 0x4: image accepted. -/
  | fwLoaded
  /-- 0x5: manifest applied, records restored. -/
  | configured
  /-- 0x6: start-up calibration. -/
  | calibrating
  /-- 0x7: ring training. -/
  | ringTraining
  /-- 0x8: ready. -/
  | ready
deriving DecidableEq, Repr

/-- What a stalled correction core waits for (R217 STALL bits, R207, R193, R233, R228, R210). The instruction it stalls at is the
one at its PC, which completes when the wait ends. -/
inductive Wait where
  /-- A checked load or a counter wait on the slot of this index. -/
  | slot (index : Nat)
  /-- A checked read-out waits for entries to be FINAL. -/
  | acc
  /-- WAITT waits for this tick of the beat. -/
  | tick (t : Nat)
  /-- FENCE, POST or END waits for earlier stores and remote writes. -/
  | fence
  /-- The core waits for the data of a remote read. -/
  | net
deriving DecidableEq, Repr

/-- What the block sends to the outside; appended to `State.out` in the order of sending. -/
inductive Output where
  /-- Data of a register or configuration read, to the reader that asked. -/
  | readData (value : Nat)
  /-- An access completed with Unsupported Request. -/
  | unsupported
  /-- A completion entry written at an index of a queue pair's completion queue (R458). -/
  | completion (port : Bool) (pair index : Nat) (entry : List (BitVec 8))
  /-- Bytes written into host memory by DMA. -/
  | hostWrite (port : Bool) (fn : Nat) (addr : Nat) (bytes : List (BitVec 8))
  /-- An MSI-X message of a function (R459). -/
  | msix (port : Bool) (fn vector : Nat)
  /-- A management response (R500-R503, R520): MCTP message type, completion or error code, body. -/
  | mgmt (type code : Nat) (body : List (BitVec 8))
  /-- A PlatformEventMessage sent to the event receiver (R502). -/
  | platformEvent (receiver cls : Nat) (body : List (BitVec 8))
  /-- A DOE response on the mailbox of a function (R470). -/
  | doe (port : Bool) (fn code : Nat) (body : List (BitVec 8))
  /-- A flit sent on a ring port (R408-R424): ring port, header word, payload before encryption, and its 256 bytes on the fibre. -/
  | flit (ringPort header : Nat) (payload wire : List (BitVec 8))
  /-- Completion of an aperture read: marked poisoned if it met an uncorrectable word (R386), and the bytes. -/
  | apertureData (poisoned : Bool) (bytes : List (BitVec 8))
  /-- Payload of a timed transfer delivered to the ring (R416): ring port, ring slot, bytes. -/
  | timed (ringPort slot : Nat) (bytes : List (BitVec 8))
deriving DecidableEq, Repr

/-- Why a step stops with a fault: for no reason at all. Nothing the spec describes stops this block: every violation freezes a master,
raises an event or refuses an access, all of which are next states. The type has no constructor, so no step can fault. -/
inductive Fault where
deriving DecidableEq, Repr

/-- Why a step is refused. -/
inductive Refusal where
  /-- For an arm of exec whose command has no meaning, named by its mnemonic; every arm has one, so no step raises it. Safe: the
  model would stop. -/
  | notModelled (mnemonic : String)
deriving DecidableEq, Repr

/-- The 64-byte header of one register page (R16), keyed by Page.key in State.hdrs. -/
structure Hdr where
  /-- 01 R21 PAGE_CTRL.EN, R22. -/
  en : Bool := true
  /-- 01 R23 PAGE_STATUS.BUSY. -/
  busy : Bool := false
  /-- 01 R16 R40 EVT_STATUS (W1C). -/
  evtStatus : BitVec 32 := 0
  /-- 01 R15 EVT_STATUS bits set in the SCLK cycle `evtCycle`. -/
  evtNew : BitVec 32 := 0
  /-- 01 R15 the SCLK cycle of the latest event, numbered from 1. -/
  evtCycle : Nat := 0
  /-- 01 R16 EVT_ENABLE. -/
  evtEnable : BitVec 32 := 0xFFFFFFFF
  /-- 01 R25 EVT_ROUTE.MGMT. -/
  routeMgmt : Bool := true
  /-- 01 R25 EVT_ROUTE.HOST. -/
  routeHost : Bool := true
  /-- 01 R48 FAULT_CODE.VALID. -/
  faultValid : Bool := false
  /-- 01 R48 FAULT_CODE.CODE. -/
  faultCode : BitVec 16 := 0
  /-- 01 R48 FAULT_INFO.EXTRA. -/
  faultExtra : Nat := 0
  /-- 01 R48 FAULT_INFO.KIND. -/
  faultKind : Nat := 0
  /-- 01 R48 FAULT_INFO.MASTER. -/
  faultMaster : BitVec 16 := 0
  /-- 01 R16 FAULT_ADDR_LO/HI. -/
  faultAddr : BitVec 64 := 0
  /-- 01 R26 R640 PAGE_OWNER.VALID. -/
  ownerValid : Bool := false
  /-- 01 R26 PAGE_OWNER.PORT (false A, true B). -/
  ownerPort : Bool := false
  /-- 01 R26 PAGE_OWNER.OWNER. -/
  ownerId : Nat := 0
  /-- 01 R27 PAGE_LOCK.LOCK (W1S). -/
  lock : Bool := false
  /-- 01 R16 SCRATCH. -/
  scratch : BitVec 32 := 0
deriving DecidableEq, Repr

/-- A counter that a read clears (RC), with what the current SCLK cycle adds, which such a read leaves standing (R15). -/
structure Counter where
  /-- 01 R15 the count. -/
  val : Nat := 0
  /-- 01 R15 the SCLK cycle of the latest increments, numbered from 1. -/
  cycle : Nat := 0
  /-- 01 R15 the value before that cycle's increments. -/
  before : Nat := 0
  /-- 01 R15 the increments of that cycle. -/
  added : Nat := 0
deriving DecidableEq, Repr

/-- One frozen master (R47, R49). -/
structure Frozen where
  /-- 01 R47 the page it is reported on. -/
  page : Nat := 0
  /-- 01 R47 FAULT_INFO.KIND encoding 1 FUNCTION 2 DMA_QUEUE 3 CORE 4 RING_SOURCE. -/
  kind : Nat := 0
  /-- 01 R47 MASTER identity. -/
  master : Nat := 0
  /-- 01 R49 owning port; none when PAGE_OWNER.VALID was 0 (either port). -/
  port : Option Bool := none
  /-- 01 R48 FAULT_CODE.CODE of the violation. -/
  code : BitVec 16 := 0
  /-- 01 R16 FAULT address of the violation. -/
  addr : BitVec 64 := 0
  /-- 01 R51 the SCLK cycle of the violation, numbered from 1. -/
  cycle : Nat := 0
deriving DecidableEq, Repr

/-- The pins and supplies of the module (J1, J2). -/
structure Pins where
  /-- 17 R600 filtered PWR_EN. -/
  pwrEn : Bool := true
  /-- 17 R599 PERST_A# asserted (pull-down, R595). -/
  perstA : Bool := true
  /-- 17 R599 PERST_B# asserted. -/
  perstB : Bool := true
  /-- 17 R595 R597 HF_SEL strap. -/
  hfSel : Bool := false
  /-- 17 R609 AUX_3V3 within range. -/
  aux : Bool := true
  /-- 17 R606 VIN_42V applied. -/
  vinPresent : Bool := true
  /-- 17 R598 REFCLK_A present. -/
  refA : Bool := false
  /-- 17 R598 REFCLK_B present. -/
  refB : Bool := false
  /-- 17 R601 PWR_GOOD output. -/
  powerGood : Bool := true
  /-- 17 R602 THERM_TRIP# output. -/
  thermTrip : Bool := false
  /-- 14 R502 17 R604 ALERT# output. -/
  alert : Bool := false
deriving DecidableEq, Repr

/-- Power state, resets, clocks (DEV page). -/
structure Power where
  /-- 18 R623 R636 DEV_POWER_STATE.STATE. -/
  state : PowerState := .mainOn
  /-- 18 R636 WAIT. -/
  wait : Nat := 0
  /-- 18 R636 TIME counts from here. -/
  mainOnAt : Nat := 0
  /-- 18 R622 R635 DEV_RTB. -/
  rtb : BitVec 64 := 0
  /-- 12 R430 DCLK cycles by which RTB's increments were shifted when a time flit set it. -/
  rtbPhase : Nat := 0
  /-- 18 R635 latch DEV_RTB_HI. -/
  rtbHi : BitVec 32 := 0
  /-- 18 R638 COUNT. -/
  causeCount : Nat := 1
  /-- 18 R638 TRIP_BEFORE. -/
  tripBefore : Bool := false
  /-- 18 R638 REQUESTER. -/
  requester : Nat := 0
  /-- 18 R638 CAUSE. -/
  cause : Nat := 1
  /-- 18 R638 cause the deputy captures when the next start begins. -/
  nextCause : Nat := 1
  /-- 18 R638 requester captured with it. -/
  nextRequester : Nat := 0
  /-- 18 R638 the main rails were last removed by a trip. -/
  railsByTrip : Bool := false
  /-- 01 R45 DEV_SUMP_BASE. -/
  sumpBase : BitVec 64 := 0
  /-- 01 R45 DEV_SUMP_SIZE. -/
  sumpLog : Nat := 16
  /-- 01 R45 DEV_SUMP_HEAD. -/
  sumpHead : BitVec 32 := 0
  /-- 01 R641 the sump exists. -/
  sumpExists : Bool := false
  /-- 01 R46 records of the SCLK cycle in progress, in PAGE_ID order. -/
  sumpBatch : List (Nat × Nat × Nat × Bool × List (BitVec 8)) := []
  /-- 01 R46 cycle of those records. -/
  sumpCycle : Nat := 0
  /-- 18 R630 a device soft reset is running. -/
  softReset : Bool := false
  /-- 18 R633 when the soft reset in progress was accepted. -/
  softAt : Nat := 0
  /-- 17 R601 main rails. -/
  railsOn : Bool := true
  /-- 17 R606 hold-up bank. -/
  bankCharged : Bool := true
  /-- 17 R600 AUX in range since. -/
  auxSince : Nat := 0
  /-- 17 R600 VIN in range since. -/
  vinSince : Nat := 0
  /-- 17 R600 R602 last fall of PWR_EN. -/
  pwrEnFellAt : Option Nat := none
  /-- 18 R631 module reset in its off time since. -/
  moduleResetAt : Option Nat := none
  /-- 17 R600 the rails are starting (conditions met, PWR_GOOD not yet high). -/
  starting : Bool := false
  /-- 18 R619 reference in use. -/
  pllRef : Nat := 4
  /-- 18 R620 holdover since. -/
  pllHold : Option Nat := none
  /-- 18 R620 headframe lost REFCLK_A: later rounds are FAULT. -/
  refLostHf : Bool := false
  /-- 18 R622 the PLL has locked since MAIN_ON, so RTB counts. -/
  pllLocked : Bool := false
  /-- 18 R620 lock on the selected reference is outstanding. -/
  pllPending : Bool := true
  /-- 18 R620 time of the last lock. -/
  pllLockAt : Nat := 0
  /-- 17 R601 R603 last removal of the main rails. -/
  railsOffAt : Nat := 0
  /-- 13 R468 Port A link down since. -/
  linkLossA : Option Nat := none
  /-- 13 R468 Port B link down since. -/
  linkLossB : Option Nat := none
deriving DecidableEq, Repr

/-- The configuration manifest in force (R516). -/
structure Manifest where
  /-- 15 R516 TG_ENABLE. -/
  tgEnable : BitVec 64 := BitVec.allOnes 64
  /-- 15 R516 CC_ENABLE. -/
  ccEnable : BitVec 256 := BitVec.allOnes 256
  /-- 15 R516 HP_ENABLE. -/
  hpEnable : BitVec 2 := 3
  /-- 15 R516 MAX_VF. -/
  maxVf : Nat := 31
  /-- 15 R516 FIBRES_MAX. -/
  fibresMax : Nat := 4
  /-- 15 R516 POWER_LIMIT. -/
  powerLimit : Nat := 1500
  /-- 15 R516 VERIFY_TOL_MIN. -/
  tolMin : Nat := 8
  /-- 15 R516 VERIFY_TOL_MAX. -/
  tolMax : Nat := 25
  /-- 15 R516 DTCAL_MIN. -/
  dtcalMin : Nat := 5
  /-- 15 R516 DTCAL_MAX. -/
  dtcalMax : Nat := 100
  /-- 15 R516 CAL_INTERVAL_MAX. -/
  intervalMax : Nat := 600
  /-- 15 R516 GUARD_MIN. -/
  guardMin : Nat := 0
  /-- 15 R516 GUARD_MAX. -/
  guardMax : Nat := 100
  /-- 15 R516 DERATE_MAX. -/
  derateMax : Nat := 2
  /-- 15 R516 RELIEF_RESERVE_MIN. -/
  reserveMin : Nat := 0
  /-- 15 R516 THROTTLE_MIN. -/
  throttleMin : Nat := 70
  /-- 15 R516 THROTTLE_MAX. -/
  throttleMax : Nat := 95
  /-- 15 R516 SERIAL. -/
  serial : BitVec 64 := 0
  /-- 15 R516 SKU. -/
  sku : BitVec 64 := 0
deriving DecidableEq, Repr

/-- The header of a firmware image (R485) and the verdict facts the checks of R487 need. -/
structure ImageInfo where
  /-- 14 R485 VERSION. -/
  version : BitVec 32 := 0
  /-- 14 R485 SVN. -/
  svn : Nat := 0
  /-- 14 R485 SIZE. -/
  size : Nat := 0
  /-- 14 R485 SUMP_LOG. -/
  sumpLog : Nat := 0
  /-- 14 R485 HANDOFF_OUT. -/
  handoffOut : Nat := 1
  /-- 15 R517 the selected manifest. -/
  manifest : Manifest := {}
  /-- 15 R521 measurement 2. -/
  headerDigest : BitVec 512 := 0
  /-- 15 R521 measurement 3. -/
  kernelDigest : BitVec 512 := 0
  /-- 15 R521 measurement 4. -/
  manifestDigest : BitVec 512 := 0
deriving DecidableEq, Repr

/-- Control complex. -/
structure Cx where
  /-- 14 R504 PAGE_STATUS.STATE. -/
  state : Nat := 0
  /-- 14 R507 VALID. -/
  fwValid : Bool := false
  /-- 14 R507 RESULT. -/
  fwResult : Nat := 0
  /-- 14 R507 PHASE. -/
  fwPhase : Nat := 0
  /-- 14 R508 CX_FW_VERSION. -/
  version : BitVec 32 := 0
  /-- 14 R509 CX_HANDOFF.STATE. -/
  hoState : Nat := 0
  /-- 14 R509 RESULT. -/
  hoResult : Nat := 0
  /-- 14 R509 MEMBERS. -/
  hoMembers : Nat := 0
  /-- 14 R509 DEFERRALS. -/
  hoDeferrals : Counter := {}
  /-- 14 R487 running image. -/
  running : Option ImageInfo := none
  /-- 14 R490 staged image. -/
  staged : Option ImageInfo := none
  /-- 14 R495 image to revert to. -/
  previous : Option ImageInfo := none
  /-- 14 R510 port that rang. -/
  bootPort : Nat := 0
  /-- 15 R515 the running image was loaded by BOOT. -/
  byBoot : Bool := false
  /-- 14 R491 members that report 1 s of quiet time. -/
  quietMembers : List Nat := []
  /-- 14 R491 the handoff is pending. -/
  hoPending : Bool := false
  /-- 14 R481 R486 SRAM of the control complex from offset 0: the code of the running kernel; what follows it is the kernel's data, whose
  layout no rule gives. -/
  sram : List (BitVec 8) := []
  /-- 14 R493 members that reported completion. -/
  hoDone : List Nat := []
  /-- 14 R495 start of the new image. -/
  hoStart : BitVec 64 := 0
  /-- 14 R494 start of the first HALT round of the handoff. -/
  hoHalt : Option (BitVec 64) := none
  /-- 14 R490 this member's own staging check has passed. -/
  stageOk : Bool := false
  /-- 14 R483 last watchdog signal. -/
  signals : Tbl Nat := []
  /-- 15 R515 READY already reached under this image. -/
  resetSince : Bool := false
deriving DecidableEq, Repr

/-- A trip or brown-out record (R549). -/
structure TripRec where
  /-- 16 R549 TIME. -/
  time : BitVec 64 := 0
  /-- 16 R549 SEQ. -/
  seq : Nat := 0
  /-- 16 R549 KIND. -/
  kind : Nat := 0
  /-- 16 R549 SOURCE. -/
  source : Nat := 0
  /-- 16 R549 SENSOR. -/
  sensor : Nat := 0xFFFF
  /-- 16 R549 VALUE. -/
  value : Int := 0
  /-- 16 R549 BEAT. -/
  beat : BitVec 64 := 0
  /-- 16 R549 POWER_STATE. -/
  power : Nat := 0
  /-- 16 R549 POSITION. -/
  position : Nat := 0
  /-- 16 R549 N. -/
  n : Nat := 0
  /-- 16 R549 VIN. -/
  vin : Int := 0
  /-- 16 R549 IIN. -/
  iin : Int := 0
  /-- 16 R549 PEAKS. -/
  peaks : List Int := []
  /-- 16 R549 HOURS. -/
  hours : Nat := 0
  /-- 16 R549 FW. -/
  fw : BitVec 32 := 0
  /-- 16 R551 acknowledged. -/
  acked : Bool := false
  /-- 16 R551 reported at FW_LOADED. -/
  reported : Bool := false
deriving DecidableEq, Repr

/-- Deputy. -/
structure Dp where
  /-- 16 R543 R571 ARRAY. -/
  lArray : Nat := 0
  /-- 16 R571 STACK. -/
  lStack : Nat := 0
  /-- 16 R571 OPTICS. -/
  lOptics : Nat := 0
  /-- 16 R571 POWER. -/
  lPower : Nat := 0
  /-- 16 R571 HOTTEST. -/
  hottest : Int := 0
  /-- 16 R547 largest stack reading. -/
  hotStack : Int := 0
  /-- 16 R549 largest optical reading. -/
  hotOptics : Int := 0
  /-- 16 R572 ARRAY. -/
  throttle : Nat := 90
  /-- 16 R572 STRETCH_MAX. -/
  stretchMax : Nat := 60
  /-- 16 R573 THROTTLE (RC). -/
  ovThrottle : Counter := {}
  /-- 16 R573 CAL (RC). -/
  ovCal : Counter := {}
  /-- 16 R573 HALT (RC). -/
  ovHalt : Counter := {}
  /-- 16 R591 OVERRIDE once a second. -/
  ovEventAt : List (Nat × Nat) := []
  /-- 14 R491 quiet time runs since. -/
  quietSince : Option Nat := none
  /-- 16 R545 ARRAY below its threshold less hysteresis since. -/
  belowArray : Option Nat := none
  /-- 16 R545 STACK likewise. -/
  belowStack : Option Nat := none
  /-- 16 R545 OPTICS likewise. -/
  belowOptics : Option Nat := none
  /-- 16 R545 POWER likewise. -/
  belowPower : Option Nat := none
  /-- 16 R544 input voltage. -/
  vin : Int := 4200
  /-- 16 R544 1 ms mean voltage. -/
  vinMean1ms : Int := 4200
  /-- 16 R544 input current. -/
  iin : Int := 0
  /-- 16 R544 1 s mean current. -/
  iin1s : Int := 0
  /-- 16 R544 100 ms mean current. -/
  iin100ms : Int := 0
  /-- 16 R544 10 us mean current. -/
  iin10us : Int := 0
  /-- 16 R544 R547 1 s mean input power. -/
  pin1s : Int := 0
  /-- 16 R547 largest hottest die reading sampled since the round began. -/
  roundHot : Option Int := none
  /-- 16 R547 largest stack reading sampled since the round began. -/
  roundStk : Option Int := none
  /-- 16 R549 readings of the last 100 ms, for PEAKS. -/
  recent : List (Nat × Nat × Int) := []
deriving DecidableEq, Repr

/-- One temperature sensor (R540). -/
structure Sensor where
  /-- 16 R577 TEMP. -/
  temp : Int := 0
  /-- 16 R577 VALID (a reading is present). -/
  valid : Bool := false
  /-- 16 R542 failed. -/
  failed : Bool := false
  /-- 16 R577 PERIOD. -/
  period : Nat := 0
  /-- 16 R542 consecutive deviating samples. -/
  deviant : Nat := 0
deriving DecidableEq, Repr

/-- The margin plan in force (R559). -/
structure Margin where
  /-- 16 R582 GUARD. -/
  guard : Nat := 0
  /-- 16 R578 CURRENT. -/
  dtcal : Nat := 30
  /-- 16 R579 CURRENT. -/
  interval : Nat := 600
  /-- 16 R582 DERATE. -/
  derate : Nat := 0
  /-- 16 R582 VERIFY_TOL. -/
  tol : Nat := 15
  /-- 16 R582 RESERVE. -/
  reserve : Nat := 2
deriving DecidableEq, Repr

/-- One plan shot recorded by a REPLAY assay (R566). -/
structure AssayShot where
  /-- 16 R566 logical tile, the lower of a seam pair. -/
  base : Nat := 0
  /-- 16 R566 02 R70 a seam shot. -/
  seam : Bool := false
  /-- 16 R567 range code of the shot. -/
  fsr : Nat := 0
  /-- 16 R566 drive values by logical row. -/
  xs : List Int := []
  /-- 16 R567 04 R130 logical rows routed to the outlier path. -/
  routed : List Nat := []
  /-- 16 R566 the codes of its weight pairs. -/
  codes : List Int := []
deriving DecidableEq, Repr

/-- The running or last assay (R566, R584). -/
structure Assay where
  /-- 16 R584 KIND. -/
  kind : Nat := 0
  /-- 16 R584 UNIT. -/
  unit : Nat := 0
  /-- 16 R584 TILE. -/
  tile : Nat := 0
  /-- 16 R584 RETIRE. -/
  retire : Bool := false
  /-- 16 R566 relief tile held by the assay. -/
  heldTile : Option Nat := none
  /-- 16 R566 recorded shots of REPLAY. -/
  recorded : List AssayShot := []
  /-- 16 R566 plan shots recorded. -/
  shotSeen : Nat := 0
  /-- 16 R566 NO_INPUT after 10 s. -/
  startedAt : Nat := 0
  /-- 16 R566 the ASSAY pattern is programmed. -/
  programmed : Bool := false
deriving DecidableEq, Repr

/-- Health block. -/
structure Hb where
  /-- 16 R576 PAGE_STATUS.STATE. -/
  state : Nat := 0
  /-- 16 R577 HB_TEMP_SEL.SENSOR. -/
  tempSel : Nat := 0
  /-- 01 R24 a page soft reset has returned HB_TEMP_DATA to 0 and the selected sensor has not been sampled since. -/
  dataCleared : Bool := false
  /-- 16 R540 readings. -/
  sensors : Tbl Sensor := []
  /-- 16 R578 LO. -/
  dtcalLo : Nat := 5
  /-- 16 R578 HI. -/
  dtcalHi : Nat := 100
  /-- 16 R579 LO. -/
  intLo : Nat := 60
  /-- 16 R579 HI. -/
  intHi : Nat := 600
  /-- 16 R559 margin plan. -/
  margin : Margin := {}
  /-- 16 R582 HOURS. -/
  hours : Nat := 0
  /-- 16 R549 HOURS. -/
  poweredHours : Nat := 0
  /-- 16 R580 HB_CAL_COUNT. -/
  calCount : Nat := 0
  /-- 16 R580 HB_CAL_LAST. -/
  calLast : BitVec 64 := 0
  /-- 16 R585 STATE. -/
  assayState : Nat := 0
  /-- 16 R585 CODE. -/
  assayCode : Nat := 0
  /-- 16 R585 EXCEED. -/
  assayExceed : Nat := 0
  /-- 16 R585 CHECKED. -/
  assayChecked : Nat := 0
  /-- 16 R566 running assay. -/
  assay : Option Assay := none
  /-- 16 R583 GUARD_HI. -/
  guardHi : Nat := 100
  /-- 16 R583 GUARD_LO. -/
  guardLo : Nat := 0
  /-- 16 R583 TOL_HI. -/
  tolHi : Nat := 25
  /-- 16 R583 TOL_LO. -/
  tolLo : Nat := 8
  /-- 16 R583 DERATE_HI. -/
  derateHi : Nat := 2
  /-- 16 R583 DERATE_LO. -/
  derateLo : Nat := 0
  /-- 16 R583 RESERVE_HI. -/
  reserveHi : Nat := 16
  /-- 16 R583 RESERVE_LO. -/
  reserveLo : Nat := 0
  /-- 16 R556 converter self-calibration running. -/
  selfcal : Bool := false
  /-- 16 R558 D_ro. -/
  dRo : Nat := 0
  /-- 16 R558 trim drift. -/
  trimDrift : Nat := 0
  /-- 16 R558 canary drift. -/
  canaryDrift : Nat := 0
  /-- 16 R558 PV mean. -/
  pvMean : Nat := 0
  /-- 16 R558 CE peak. -/
  cePeak : Nat := 0
  /-- 16 R558 window of the CE peak. -/
  cePeaks : List Nat := []
  /-- 16 R558 retirements in 168 powered hours. -/
  retirements : List Nat := []
  /-- 16 R542 fault 0x07 raised once. -/
  failReported : List Nat := []
  /-- 16 R559 a commanded re-plan waits for the level to fall. -/
  replanPending : Bool := false
deriving DecidableEq, Repr

/-- One MC_RESULT register (R590). -/
structure McResult where
  /-- 16 R590 VALID. -/
  valid : Bool := false
  /-- 16 R590 FRESH (RC). -/
  fresh : Bool := false
  /-- 16 R590 COUNT. -/
  count : Nat := 0
  /-- 16 R590 VALUE. -/
  value : BitVec 16 := 0
  /-- 16 R564 the SCLK cycle of the latest result, numbered from 1. -/
  cycle : Nat := 0
  /-- 16 R564 the register before that result. -/
  before : Nat := 0
deriving DecidableEq, Repr

/-- Monitor converter. -/
structure Mc where
  /-- 16 R586 PAGE_STATUS.STATE. -/
  state : Nat := 0
  /-- 16 R589 EN. -/
  en : Bool := false
  /-- 16 R589 LOWPOWER. -/
  lowPower : Bool := false
  /-- 16 R589 LEFT. -/
  left : Bool := false
  /-- 16 R589 RUNNING. -/
  running : Bool := false
  /-- 16 R589 CAL_BUSY. -/
  calBusy : Bool := false
  /-- 16 R589 OVERRUN (RC). -/
  overrun : Counter := {}
  /-- 16 R588 MC_TRIGGER as written. -/
  trigger : BitVec 32 := 1000
  /-- 16 R562 value in effect since the last pass start. -/
  triggerLive : BitVec 32 := 1000
  /-- 16 R587 MC_SEQ_TABLE as written. -/
  seq : Tbl (BitVec 32) := []
  /-- 16 R562 table in effect in this pass. -/
  seqLive : Tbl (BitVec 32) := []
  /-- 16 R562 entry of the pass in progress. -/
  entry : Nat := 0
  /-- 16 R590 MC_RESULT. -/
  results : Tbl McResult := []
  /-- 16 R593 ignored triggers since EN was set. -/
  ignored : Nat := 0
  /-- 16 R562 last second in which OVERRUN was raised. -/
  overrunSec : Option Nat := none
deriving DecidableEq, Repr

/-- One owner slot of the key engine (R525, R536). -/
structure Slot where
  /-- 15 R536 STATE 0 FREE 1 BOUND 2 HELD 3 DESTROYING. -/
  state : Nat := 0
  /-- 15 R536 PORT. -/
  port : Bool := false
  /-- 15 R536 MAP. -/
  map : Bool := false
  /-- 15 R536 SEALED. -/
  sealed : Bool := false
  /-- 15 R536 RESTORED. -/
  restored : Bool := false
  /-- 15 R536 GENERATION. -/
  generation : Nat := 0
  /-- 15 R525 K_stack (two AES-256 keys; the model names a key by a serial number). -/
  kStack : Nat := 0
  /-- 15 R525 K_map. -/
  kMap : Nat := 0
  /-- 15 R525 K_wrap. -/
  kWrap : Nat := 0
  /-- 15 R525 token (its digest is what the slot compares). -/
  token : BitVec 128 := 0
  /-- 15 R525 seal handle. -/
  sealHandle : Option Nat := none
  /-- 15 R530 R539 cause of the ordered destruction. -/
  destroyCause : Nat := 0
deriving DecidableEq, Repr

/-- One entry of the pause-key table (R527). -/
structure PauseKey where
  /-- 15 R527 owner. -/
  owner : Nat := 0
  /-- 15 R527 pause number. -/
  pauseNo : Nat := 0
  /-- 15 R527 pause key. -/
  key : BitVec 256 := 0
  /-- 15 R527 K_wrap that wraps it. -/
  wrap : Nat := 0
  /-- 10 R369 R370 pause image. -/
  image : Option (Bool × Nat × Nat) := none
  /-- 10 R368 R369 room of the image in the tier. -/
  room : Nat := 0
deriving DecidableEq, Repr

/-- A sealed owner record (R528). -/
structure SealRec where
  /-- 15 R528 port that held the owner. -/
  port : Bool := false
  /-- 15 R528 token digest. -/
  token : BitVec 128 := 0
  /-- 15 R528 K_map wrapped. -/
  kMap : Nat := 0
  /-- 15 R528 RTB of sealing. -/
  rtb : BitVec 64 := 0
deriving DecidableEq, Repr

/-- A load record (R180). -/
structure LoadRec where
  /-- 05 R180 owner's seal handle. -/
  owner : Nat := 0
  /-- 05 R180 first 64 bits of SHA-512 of the block. -/
  blockDigest : BitVec 64 := 0
  /-- 05 R180 digest of the scale slice. -/
  scaleDigest : BitVec 64 := 0
  /-- 05 R180 matrix tag. -/
  tag : Nat := 0
  /-- 05 R180 row tile. -/
  rowTile : Nat := 0
  /-- 05 R180 column tile. -/
  colTile : Nat := 0
deriving DecidableEq, Repr

/-- Key engine. -/
structure Ke where
  /-- 15 R533 PAGE_STATUS.STATE. -/
  state : Nat := 0
  /-- 15 R535 SLOT. -/
  slotSel : Nat := 0
  /-- 15 R525. -/
  slots : Tbl Slot := []
  /-- 15 R527. -/
  pauseKeys : Tbl PauseKey := []
  /-- 15 R527 pause number. -/
  pauseNo : Nat := 0
  /-- 15 R524 the next key identity the DRBG yields (model's own naming of keys). -/
  nextKey : Nat := 1
  /-- 15 R524 generate requests since reseeding. -/
  drbgCount : Nat := 0
deriving DecidableEq, Repr

/-- One copy of the minimum-version counter (R515). -/
structure MvcCopy where
  /-- 15 R515 the counter. -/
  value : Nat := 0
  /-- 15 R515 sequence number of the copy. -/
  seq : Nat := 0
  /-- 15 R515 its CRC-32 passes. -/
  good : Bool := true
deriving DecidableEq, Repr

/-- The record store: survives power-off (R632). -/
structure RecStore where
  /-- 15 R528 sealed owner records. -/
  seals : Tbl SealRec := []
  /-- 15 R528 05 R180 load records. -/
  loads : Tbl LoadRec := []
  /-- 15 R515 one copy of the minimum-version counter. -/
  mvcA : MvcCopy := {}
  /-- 15 R515 its other copy. -/
  mvcB : MvcCopy := { seq := 1 }
  /-- 16 R549 trip and brown-out records. -/
  trips : List TripRec := []
  /-- 16 R549 SEQ counted over both kinds. -/
  nextSeq : Nat := 0
  /-- 16 R568 assay records. -/
  assays : List (Nat × Nat) := []
  /-- 02 R81 relief map of the health map. -/
  reliefs : Tbl (Nat × Bool × Nat) := []
  /-- 16 R560 stored margin plan. -/
  margin : Margin := {}
  /-- 15 R513 identity key can be decrypted. -/
  idOk : Bool := true
  /-- 15 R512 identity serial. -/
  serial : BitVec 64 := 0
  /-- 15 R512 identity-key digest. -/
  idDigest : BitVec 256 := 0
  /-- 15 R512 certificate chain, DER. -/
  chain : List (BitVec 8) := []
deriving DecidableEq, Repr

/-- One position of the round in progress. -/
structure Live where
  /-- 08 R282 position-table index. -/
  pos : Nat := 0
  /-- 08 R265. -/
  template : Nat := 0
  /-- 06 R186 SGET CYCLE, TICK. -/
  cycle : Nat := 0
  /-- 04 R145 replay index of this execution. -/
  rho : Nat := 0
  /-- 08 R257 R273 R276 R278 what this execution of the beat has begun: 1 launch, 2 shot entry, 3 drive source and row tile, 4 ring slot, 5 DMA slot. -/
  done : List (Nat × Nat) := []
  /-- 07 R234 post entries posted in this execution, with the cycle in which POST acted. -/
  posted : List (Nat × Nat × Nat) := []
  /-- 04 R142 R143 decisions and q retained. -/
  nwQ : List (Nat × Nat × Bool × BitVec 32) := []
  /-- 04 R144 a shot failed the checksum check. -/
  checkFail : Bool := false
  /-- 04 R144 a watched launch reported a non-finite result. -/
  nonFinite : Bool := false
  /-- 08 R295 R311 the position reports FAULT: cause 1 freeze, 2 unposted consumer. -/
  fault : Nat := 0
  /-- 09 R322 first bad ID of the beat already reported. -/
  rowRange : Bool := false
  /-- 04 R142 mu at the start of the beat. -/
  muStart : Tbl (BitVec 32) := []
deriving DecidableEq, Repr

/-- Run-time state of one operation descriptor. -/
structure OpState where
  /-- 02 R78 current range code of an adaptive operation. -/
  code : Nat := 0
  /-- 02 R78 R80 its code at admission. -/
  admitted : Nat := 0
  /-- 02 R79 consecutive beats without saturation and with codes below 128. -/
  quiet : Nat := 0
  /-- 02 R79 a shot saturated during the beat. -/
  satBeat : Bool := false
  /-- 02 R79 a code of the beat had magnitude 128 or more. -/
  bigBeat : Bool := false
  /-- 02 R79 the operation shot in the beat. -/
  shotBeat : Bool := false
deriving DecidableEq, Repr

/-- Run-time state of one adapter (R148). -/
structure AdapterState where
  /-- 04 R152 words read out of the banks in repair beats since the last round: column, L and h. -/
  reads : List (Nat × BitVec 48 × BitVec 4) := []
  /-- 04 R148 version. -/
  version : BitVec 32 := 0
  /-- 04 R152 a candidate is staged. -/
  staged : Bool := false
  /-- 04 R154 08 R291 a round has been accepted since it was staged. -/
  eligible : Bool := false
  /-- 04 R156 loss_new. -/
  lossNew : BitVec 32 := 0
  /-- 04 R156 loss_cur. -/
  lossCur : BitVec 32 := 0
  /-- 04 R154 consecutive unstaged rounds. -/
  unstaged : Nat := 0
  /-- 04 R152 A*. -/
  shadowA : List (BitVec 32) := []
  /-- 04 R152 B*. -/
  shadowB : List (BitVec 32) := []
  /-- 04 R152 candidate A. -/
  stagedA : List (BitVec 16) := []
  /-- 04 R152 candidate B. -/
  stagedB : List (BitVec 16) := []
deriving DecidableEq, Repr

/-- One retained arrival (R281). -/
structure Retained where
  /-- 08 R281 sender of the transfer; this device for a token record the sequencer copied (R645). -/
  src : Nat := 0
  /-- 08 R276 the sender's position. -/
  srcPos : Nat := 0
  /-- 08 R276 the sender's ring slot. -/
  srcSlot : Nat := 0
  /-- 08 R281 position that consumes it. -/
  pos : Nat := 0
  /-- 08 R276 DST_CORE. -/
  dstCore : Nat := 0
  /-- 08 R276 DST_OFF. -/
  dstOff : Nat := 0
  /-- 08 R276 DST_SLOT. -/
  slot : Nat := 0
  /-- 08 R281 the copy. -/
  data : List (BitVec 8) := []
  /-- 12 R417 copy valid. -/
  valid : Bool := true
  /-- 08 R293 round of arrival. -/
  arrived : Nat := 0
  /-- 08 R281 round of the position that consumes it. -/
  consumed : Nat := 0
deriving DecidableEq, Repr

/-- A run of a run slot of a position of this device (R312). -/
structure RunAssign where
  /-- 09 R312. -/
  pos : Nat := 0
  /-- 09 R312. -/
  slot : Nat := 0
  /-- 09 R312 stream ID. -/
  stream : Nat := 0xFFFF
  /-- 10 R341 the stream's owner. -/
  owner : Nat := 0
  /-- 12 R422 FIRST_POS. -/
  firstPos : Nat := 0
  /-- 12 R422 VECTORS. -/
  vectors : Nat := 0
  /-- 12 R422 PREFILL flag. -/
  prefill : Bool := false
  /-- 13 R467 the owner's key is destroyed: runs as padding. -/
  padded : Bool := false
  /-- 09 R326 draft length in force for the pass, 0 outside a verify pass. -/
  k : Nat := 0
  /-- 09 R312 round in which this device runs it. -/
  round : Nat := 0
deriving DecidableEq, Repr

/-- One step in flight, as the first device of its channel and the headframe hold it (R349, R350). -/
structure InFlight where
  /-- 10 R341 stream ID. -/
  stream : Nat := 0xFFFF
  /-- 10 R341 owner. -/
  owner : Nat := 0
  /-- 09 R314 first device of its channel. -/
  dev : Nat := 0
  /-- 09 R312 position of that device. -/
  pos : Nat := 0
  /-- 09 R312. -/
  slot : Nat := 0
  /-- 09 R313 L when it was assigned. -/
  firstPos : Nat := 0
  /-- 09 R312. -/
  vectors : Nat := 0
  /-- 10 R352 PREFILL run. -/
  prefill : Bool := false
  /-- 10 R353 it carries the last pending input token. -/
  last : Bool := false
  /-- 09 R333 k of the pass. -/
  k : Nat := 0
  /-- 10 R352 round of its assignment. -/
  round : Nat := 0
  /-- 10 R361 epoch of the boundary that assigned it. -/
  epoch : Nat := 0
  /-- 09 R329 the token record of its position has arrived in the round. -/
  back : Bool := false
  /-- 09 R328 EMITTED tokens of an entry that passed its checks. -/
  tokens : List (BitVec 32) := []
  /-- 09 R328 ACCEPTED. -/
  accepted : Nat := 0
deriving DecidableEq, Repr

/-- One plan transfer in progress (R278, R382). -/
structure DmaRun where
  /-- 08 R282 position whose beat began it. -/
  pos : Nat := 0
  /-- 08 R265. -/
  template : Nat := 0
  /-- 08 R278. -/
  slot : Nat := 0
  /-- 11 R381 owner the access carries. -/
  owner : Nat := 0
  /-- 09 R319 run whose stream a KV selector names; none for padding. -/
  run : Option RunAssign := none
  /-- 08 R278 END of the reservation. -/
  endAt : Nat := 0
  /-- 09 R322 IDs read at START. -/
  ids : List Nat := []
  /-- 08 R278 payload of a DIR 1 transfer. -/
  data : List (BitVec 8) := []
deriving DecidableEq, Repr

/-- A host command that waits for the boundary at which it takes effect (R348). -/
structure Deferred where
  /-- 10 R348 the fetched command. -/
  issuer : Issuer := { port := false, fn := 0, pair := 0, cid := 0 }
  /-- 10 R346 the command and its parameters. -/
  cmd : Instr := .nopCommand { port := false, fn := 0, pair := 0, cid := 0 }
  /-- 10 R346 tokens already copied into the prompt pool. -/
  held : Nat := 0
deriving DecidableEq, Repr

/-- A status flit as the headframe recorded it (R288, R420). -/
structure RxStatus where
  /-- 12 R420 a copy has arrived. -/
  got : Bool := false
  /-- 12 R420 STATUS. -/
  status : Nat := 0
  /-- 12 R420 replaying positions listed. -/
  replaying : Nat := 0
  /-- 12 R420 stretch request. -/
  stretch : Nat := 0
  /-- 12 R420 deputy level. -/
  level : Nat := 0
deriving DecidableEq, Repr

/-- Master shift sequencer. -/
structure Sq where
  /-- 08 R304 PAGE_STATUS.STATE. -/
  state : Nat := 0
  /-- 08 R261 admitted set (its own device record per plan). -/
  planSet : Option PlanSet := none
  /-- 08 R283 R284 image being checked and the key it is read under. -/
  checking : Option (Nat × Nat) := none
  /-- 08 R284 set that every device has passed, waiting for its round boundary. -/
  checked : Option PlanSet := none
  /-- 08 R283 plan-admit command being checked. -/
  admitCmd : Option Issuer := none
  /-- 08 R306 VERDICT. -/
  verdict : Nat := 0
  /-- 08 R306 LAYOUT. -/
  layout : Nat := 0
  /-- 08 R306 HALT_FAULT. -/
  haltFault : Bool := false
  /-- 08 R306 HALT_CRITICAL. -/
  haltCritical : Bool := false
  /-- 08 R306 HALT_HANDOFF. -/
  haltHandoff : Bool := false
  /-- 08 R306 HALT_RETIRE. -/
  haltRetire : Bool := false
  /-- 08 R306 BUCKETS. -/
  buckets : BitVec 10 := 0
  /-- 08 R306 ACTIVE. -/
  active : Nat := 15
  /-- 08 R307 TEMPLATE. -/
  beatTemplate : Nat := 0xFF
  /-- 08 R307 LEN. -/
  beatLen : Nat := 0
  /-- 08 R308 FLOOR. -/
  floor : Nat := 0
  /-- 08 R308 REQUEST. -/
  request : Nat := 0
  /-- 08 R308 CURRENT. -/
  current : Nat := 0
  /-- 08 R309 SQ_REJECT_CODE. -/
  rejectCode : BitVec 32 := 0
  /-- 08 R310 SQ_BEAT_COUNT. -/
  beatCount : BitVec 64 := 0
  /-- 08 R310 latch. -/
  beatCountHi : BitVec 32 := 0
  /-- 08 R257 beat in execution. -/
  live : Option Live := none
  /-- 12 R420 ROUND. -/
  round : Nat := 0
  /-- 12 R420 RTB at tick 0 of the round. -/
  roundRtb : BitVec 64 := 0
  /-- 08 R311 start of the repeated round. -/
  prevRoundRtb : BitVec 64 := 0
  /-- 10 R360 E. -/
  epoch : Nat := 0
  /-- 10 R361 retired epoch carried by the flit. -/
  retiredEpoch : Nat := 0
  /-- 08 R296 the round in progress has no positions. -/
  emptyRound : Bool := true
  /-- 08 R259 positions whose beat has ended in this round. -/
  ended : List Nat := []
  /-- 04 R156 SQ_BEAT_COUNT of the original execution of each position of the round. -/
  origBeat : Tbl Nat := []
  /-- 04 R143 q of the beats of the round that may be accepted. -/
  roundQ : List (Nat × Nat × Nat × Bool × BitVec 32) := []
  /-- 05 R175 a beat that waits for a tile to become ready. -/
  beatHeld : Option Nat := none
  /-- 08 R292 rho of each position. -/
  rho : Tbl Nat := []
  /-- 08 R288 positions that reported REPLAY in this round. -/
  replaying : List Nat := []
  /-- 08 R292 positions EXHAUSTED in this round. -/
  exhausted : List Nat := []
  /-- 08 R295 the device reports FAULT for this round. -/
  faulted : Bool := false
  /-- 08 R311 positions of the round that report FAULT. -/
  faultPos : List (Nat × Nat × Nat) := []
  /-- 08 R288 12 R420 last round whose status flit was sent. -/
  statusFor : Option Nat := none
  /-- 09 R329 token records that have arrived whole and are not yet taken. -/
  recordsIn : List Nat := []
  /-- 09 R329 token records taken in the round. -/
  recordsTaken : List Nat := []
  /-- 12 R417 REPLAY reported for a lost timed flit. -/
  lossReplay : Bool := false
  /-- 12 R420 R291 status flits received for the round. -/
  rxStatus : Tbl RxStatus := []
  /-- 08 R311 causes that have stood since the halt began. -/
  haltSeen : Nat := 0
  /-- 08 R296 RING_RESUME issued since the halt began. -/
  resumeIssued : Bool := false
  /-- 08 R296 the first round after the halt is a slip round. -/
  resumeSlip : Bool := false
  /-- 08 R292 the last round that ran positions. -/
  ranRound : Nat := 0
  /-- 08 R291 the round ran positions. -/
  roundRan : Bool := false
  /-- 08 R298 requested switch. -/
  switchTo : Option Nat := none
  /-- 08 R299 pending retire. -/
  retireWanted : Nat := 0
  /-- 04 R143 running mean squares. -/
  mu : Tbl (BitVec 32) := []
  /-- 02 R78 adaptive range codes. -/
  ops : Tbl OpState := []
  /-- 04 R148. -/
  adapters : Tbl AdapterState := []
  /-- 08 R281 R646 retained arrivals. -/
  retention : List Retained := []
  /-- 08 R646 firmware-held extents of the retention region. -/
  retentionExt : List (Nat × Nat) := []
  /-- 08 R271 activation codes fetched by the group sequencers for the beat, as signed bytes. -/
  drive : Tbl (BitVec 8) := []
  /-- 08 R271 R295 sources driven at code 0 in this beat. -/
  driveZero : List (Nat × Nat) := []
  /-- 04 R130 08 R271 routing masks fetched. -/
  driveMask : Tbl (BitVec 64) := []
  /-- 08 R271 drive fetches of the beat, with the source core and the tick that ends the 16 ticks of each. -/
  driveFetch : List (Nat × Nat × Nat × Nat) := []
  /-- 02 R74 saturated pairs not yet rescued, in the order of their shots. -/
  satQueue : List (Nat × Nat × Int) := []
  /-- 09 R312 assignment of the round, and of the next where its step header has arrived. -/
  runs : List RunAssign := []
  /-- 12 R421 R423 position, round, FLAGS and run entries of the step header that fed a position. -/
  inputFlags : List (Nat × Nat × Nat × List (List (BitVec 8))) := []
  /-- 09 R325 draw buffer: parameter block and draw blocks. -/
  draws : Tbl (List (BitVec 32)) := []
  /-- 09 R325 draw position. -/
  drawPos : Tbl Nat := []
  /-- 10 R349 R361. -/
  steps : List InFlight := []
  /-- 10 R351 rounds since the last PREFILL round. -/
  roundsSincePrefill : Nat := 0
  /-- 12 R432 the ring runs empty rounds though no set is admitted. -/
  idleRounds : Bool := false
  /-- 10 R352 the owner whose turn it is, and the runs left of it. -/
  turn : Nat × Nat := (0, 0)
  /-- 10 R346 SCHED_SET.BACKFILL. -/
  backfill : Bool := false
  /-- 10 R346 SCHED_SET.PREFILL_SHARE. -/
  prefillShare : Nat := 1
  /-- 08 R297 backfill dropped at CRITICAL. -/
  backfillDropped : Bool := false
  /-- 10 R348 host commands that wait for their boundary. -/
  deferred : List Deferred := []
  /-- 08 R291 10 R360 the instant of the last round boundary or pass of steps 2 to 4. -/
  edgeAt : Option Nat := none
  /-- 10 R360 what that boundary was. -/
  edgeKind : Nat := 0
  /-- 10 R360 last pass of steps 2 to 4 while no set is admitted. -/
  lastIdleMs : Nat := 0
  /-- 10 R355 last refill. -/
  lastRefillMs : Nat := 0
  /-- 04 R150. -/
  repair : Tbl (Bool × Bool) := []
  /-- 13 R461 REPAIR_CTRL waiting for the round boundary. -/
  repairNext : List (Nat × Bool × Bool) := []
  /-- 08 R278 11 R382 plan transfers in progress. -/
  dmaRunning : List DmaRun := []
  /-- 10 R367 KV geometry of the last admitted set. -/
  kvGeom : List Nat := []
  /-- 15 R521 measurement 6, computed at admission. -/
  planDigest : BitVec 512 := 0
deriving DecidableEq, Repr

/-- One CREDIT flit of a queue or a replay buffer (R408, R411). -/
structure CreditFlit where
  /-- 12 R408 class: 0 C0, 1 C1. -/
  cls : Nat := 0
  /-- 12 R408 DST. -/
  dst : Nat := 0
  /-- 12 R408 FIRST. -/
  first : Bool := false
  /-- 12 R408 LAST. -/
  last : Bool := false
  /-- 12 R408 payload. -/
  body : List (BitVec 8) := []
  /-- 12 R412 the port in whose buffer a forwarded flit still lies. -/
  came : Option Nat := none
deriving DecidableEq, Repr

/-- One ring port (R402-R415). -/
structure Link where
  /-- 12 R441 port trained. -/
  up : Bool := false
  /-- 12 R403 R426 phase 1 has chosen the port's lanes; its session key is still to come. -/
  trained : Bool := false
  /-- 12 R413 start of the phase 2 that gave the session key, plus 1. -/
  bornAt : Nat := 0
  /-- 12 R443 trained width. -/
  width : Nat := 0
  /-- 12 R408 next SEQ of CREDIT flits sent. -/
  txSeq : Nat := 0
  /-- 12 R408 last CREDIT flit received in order (ACK). -/
  rxSeq : Nat := 4095
  /-- 12 R411 replay buffer. -/
  replay : List (Nat × Nat × CreditFlit) := []
  /-- 12 R409 R412 CREDIT flits that wait for a credit. -/
  queue : List CreditFlit := []
  /-- 12 R409 C0 flits sent since the last C1 flit. -/
  c0Run : Nat := 0
  /-- 12 R424 packet of class C0 under reassembly. -/
  asmC0 : Option (List (BitVec 8)) := none
  /-- 12 R424 packet of class C1 under reassembly. -/
  asmC1 : Option (List (BitVec 8)) := none
  /-- 12 R412 credits C0. -/
  creditsC0 : Nat := 512
  /-- 12 R412 credits C1. -/
  creditsC1 : Nat := 512
  /-- 12 R414 window number. -/
  window : Nat := 0
  /-- 12 R414 flits in the open window. -/
  windowFlits : Nat := 0
  /-- 12 R414 flits of the open window. -/
  windowData : List (Nat × List (BitVec 8)) := []
  /-- 12 R414 tag flits due. -/
  tagReady : List (Nat × List (BitVec 8)) := []
  /-- 12 R413 session key. -/
  key : Nat := 0
  /-- 12 R444 CREDIT flits resent in this second. -/
  resent1s : Nat := 0
  /-- 12 R444. -/
  resentSec : Nat := 0
deriving DecidableEq, Repr

/-- One record of the membership report (R431). -/
structure Member where
  /-- 12 R431 identity serial. -/
  serial : BitVec 64 := 0
  /-- 12 R431 identity-key digest. -/
  digest : BitVec 256 := 0
  /-- 13 R461 lanes kept. -/
  lanes : List Nat := []
  /-- 12 R431 INBYE hop. -/
  inbyeHop : Nat := 0
  /-- 12 R431 OUTBYE hop. -/
  outbyeHop : Nat := 0
deriving DecidableEq, Repr

/-- One timed transfer in the re-timing buffers (R416). -/
structure Transfer where
  /-- 12 R416 sender. -/
  src : Nat := 0
  /-- 08 R276 the sender's position. -/
  pos : Nat := 0
  /-- 08 R276 the sender's ring slot. -/
  slot : Nat := 0
  /-- 08 R277 round in which it was sent. -/
  round : Nat := 0
  /-- 12 R416 payload received so far, in order. -/
  data : List (BitVec 8) := []
  /-- 12 R417 flits whose payload was lost. -/
  lost : List (Nat × Nat) := []
  /-- 12 R416 ticks' worth of 480 bytes released. -/
  released : Nat := 0
  /-- 01 R50 its frozen source has been thawed: what is left of it in this round is not acted on. -/
  dropped : Bool := false
  /-- 12 R416 64-byte rows written at the destination. -/
  arrived : Nat := 0
  /-- 12 R418 delivered from the retained copy, the live arrival discarded. -/
  fromCopy : Bool := false
  /-- 12 R421 payload whose step header is taken once its last rows have committed. -/
  header : List (BitVec 8) := []
deriving DecidableEq, Repr

/-- One timed transfer that its sender is still reading (R416). -/
structure Sending where
  /-- 12 R416 position and ring slot of the sender. -/
  pos : Nat := 0
  /-- 08 R276. -/
  slot : Nat := 0
  /-- 08 R295 its launch had posted it. -/
  posted : Bool := true
  /-- 12 R201 errors met in its scratchpad. -/
  ecc : List (Nat × Bool) := []
  /-- 12 R423 the step header that the ring interface writes. -/
  header : List (BitVec 8) := []
  /-- 12 R423 the run table that it writes. -/
  table : List (BitVec 8) := []
  /-- 12 R416 ticks' worth of 480 bytes read. -/
  ticks : Nat := 0
  /-- 12 R416 payload so far. -/
  data : List (BitVec 8) := []
deriving DecidableEq, Repr

/-- Ring interface. -/
structure Ri where
  /-- 12 R437 PAGE_STATUS.STATE from MAIN_ON on (the page reads OFF without main power). -/
  state : Nat := 1
  /-- 12 R439 VALID. -/
  valid : Bool := false
  /-- 12 R439 HF. -/
  hf : Bool := false
  /-- 12 R439 HF_SEL latched. -/
  hfSel : Bool := false
  /-- 12 R439 GENERATION. -/
  generation : Nat := 0
  /-- 12 R439 COUNT. -/
  count : Nat := 0
  /-- 12 R439 POSITION. -/
  position : Nat := 0
  /-- 01 R24 a page soft reset has returned the status registers to their reset values and no membership or link event has come since. -/
  statusCleared : Bool := false
  /-- 12 R440 INBYE_OUT. -/
  inbyeHop : Nat := 0
  /-- 12 R440 OUTBYE_OUT. -/
  outbyeHop : Nat := 0
  /-- 12 R441. -/
  ports : Tbl Link := []
  /-- 12 R441 CROSSCUT. -/
  crosscut : Bool := true
  /-- 17 R614 actuator in motion. -/
  crosscutMoving : Option (Bool × Nat) := none
  /-- 12 R441 LIGHT. -/
  light : Bool := false
  /-- 18 R625 peer light found by phase 1. -/
  peerLight : Bool := false
  /-- 12 R441 REPLAYS (RC). -/
  replays : Counter := {}
  /-- 12 R441 TIMED_LOSS (RC). -/
  timedLoss : Counter := {}
  /-- 12 R442 PHASE. -/
  phase : Nat := 0
  /-- 12 R442 RESULT. -/
  result : Nat := 0
  /-- 12 R443 LANES_MIN. -/
  lanesMin : Nat := 4
  /-- 12 R443 LANES_MAX. -/
  lanesMax : Nat := 4
  /-- 12 R443 envelope as the bring-up in progress took it at its start: LANES_MIN, LANES_MAX. -/
  envelope : Nat × Nat := (4, 4)
  /-- 12 R444 what began the membership change in progress: the cause that MEMBERSHIP will report. -/
  changeCause : Nat := 1
  /-- 12 R431 membership report. -/
  members : List Member := []
  /-- 12 R444 cause of the last membership. -/
  cause : Nat := 0
  /-- 12 R427. -/
  best : Option (BitVec 64 × Nat) := none
  /-- 12 R427. -/
  elected : Option (Nat × Nat) := none
  /-- 12 R426 start of the phase in progress. -/
  phaseAt : Nat := 0
  /-- 12 R428 published delay measured of the INBYE-out hop. -/
  measured : Option Nat := none
  /-- 12 R432 a membership change is under way. -/
  changing : Bool := false
  /-- 12 R426 the INBYE-out neighbour waits for a firmware image. -/
  imageWanted : Bool := false
  /-- 12 R430 largest RTB claimed. -/
  maxRtb : BitVec 64 := 0
  /-- 12 R428 probe in flight. -/
  probeSent : Option (BitVec 64) := none
  /-- 12 R420 round-start flit already used. -/
  roundSeen : Option Nat := none
  /-- 12 R416 transfers that this device is sending. -/
  sending : List Sending := []
  /-- 12 R416 re-timing buffers. -/
  retime : List Transfer := []
  /-- 12 R424 credit packets received whole and not yet acted on. -/
  packets : List (List (BitVec 8)) := []
  /-- 12 R424 messages of which packets are still to come. -/
  partialMsg : List (Nat × List (BitVec 8)) := []
  /-- 12 R424 relayed reads outstanding. -/
  creditReads : List (Nat × Issuer) := []
  /-- 12 R424 request tag of the next read request. -/
  readTag : Nat := 0
  /-- 12 R424 firmware mailbox. -/
  mailbox : List (Nat × List (BitVec 8)) := []
  /-- 18 R625 training failed; retried every second. -/
  retrainAt : Option Nat := none
deriving DecidableEq, Repr

/-- One queue pair (R453-R460). -/
structure Qp where
  /-- 13 R456 STATE. -/
  state : Nat := 0
  /-- 13 R456 FUNCTION. -/
  fn : Nat := 0
  /-- 13 R456 CAUSE. -/
  cause : Nat := 0
  /-- 13 R456 SQ_HEAD. -/
  sqHead : Nat := 0
  /-- 13 R455 submission tail. -/
  sqTail : Nat := 0
  /-- 13 R454 SQ_LOG. -/
  sqLog : Nat := 4
  /-- 13 R454 CQ_LOG. -/
  cqLog : Nat := 4
  /-- 13 R454 VECTOR. -/
  vector : Nat := 0
  /-- 13 R454 submission queue address. -/
  sqAddr : BitVec 64 := 0
  /-- 13 R454 completion queue address. -/
  cqAddr : BitVec 64 := 0
  /-- 13 R454 COALESCE. -/
  coalesce : Nat := 0
  /-- 13 R454 R458 completion entries written since configuration. -/
  cqTail : Nat := 0
  /-- 13 R455 completion entries consumed since configuration. -/
  cqHead : Nat := 0
  /-- 13 R460 completion entries reserved. -/
  reserved : Nat := 0
  /-- 13 R459 end of the coalescing delay of a pending signal. -/
  signalAt : Option Nat := none
  /-- 13 R459 signalled since the last DB_COMPL_HEAD. -/
  signalled : Bool := false
  /-- 13 R454 configurations of the pair (a command in progress belongs to one). -/
  cfg : Nat := 0
deriving DecidableEq, Repr

/-- One PCI Express function of a port (R445, R472). -/
structure Fn where
  /-- 13 R471 enabled. -/
  enabled : Bool := false
  /-- 13 R467 in FLR. -/
  inReset : Bool := false
  /-- 13 R468 Bus Master Enable. -/
  busMaster : Bool := false
  /-- 13 R467 the beat boundary after the reset has passed. -/
  resetDone : Bool := false
  /-- 13 R476 HP_HEARTBEAT. -/
  hbValue : BitVec 32 := 0
  /-- 13 R476 timer armed. -/
  hbArmed : Bool := false
  /-- 13 R476 R477 expiry. -/
  hbDeadline : Nat := 0
  /-- 14 R496 timer expired. -/
  hbExpired : Bool := false
  /-- 13 R474 BASE. -/
  aptBase : Nat := 0
  /-- 13 R475 OWNER. -/
  aptOwner : Nat := 0
  /-- 13 R479 HP_FN_QUEUE_MAP. -/
  queueMap : Tbl Nat := []
  /-- 10 R368 host tier address. -/
  tierAddr : BitVec 64 := 0
  /-- 10 R368 host tier size. -/
  tierSize : Nat := 0
  /-- 13 R473 selective IDE streams. -/
  selIde : Nat := 0
  /-- 13 R480 receipt of the reset. -/
  resetAt : Nat := 0
  /-- 13 R480 kind of the reset. -/
  resetKind : Nat := 0
  /-- 13 R480 owner keys destroyed by the reset. -/
  keysDestroyed : Nat := 0
  /-- 13 R473 link IDE stream secure (PF0). -/
  linkIde : Bool := false
deriving DecidableEq, Repr

/-- A command fetched and not yet completed (R460, R464). -/
structure Fetched where
  /-- 13 R457. -/
  port : Bool := false
  /-- 13 R453. -/
  fn : Nat := 0
  /-- 13 R453. -/
  pair : Nat := 0
  /-- 13 R457 CID. -/
  cid : Nat := 0
  /-- 13 R454. -/
  cfg : Nat := 0
  /-- 13 R457 OPCODE. -/
  opcode : Nat := 0
  /-- 13 R457 OWNER. -/
  owner : Nat := 0
  /-- 13 R457 DEVICE. -/
  device : Nat := 0xFF
  /-- 13 R457 FLAGS.FENCE. -/
  fence : Bool := false
  /-- 13 R461. -/
  params : List (BitVec 8) := []
  /-- 13 R467 the command has taken effect and runs on. -/
  inEffect : Bool := false
  /-- 13 R449 read data outstanding towards the host for this command. -/
  issued : Nat := 0
  /-- 12 R433 13 R457 sent on to the device that executes it. -/
  sent : Bool := false
  /-- 13 R467 a reset of its function has aborted its host DMA. -/
  dropped : Bool := false
  /-- 10 R348 R372 SCLK cycle of the fetch, counted in ring time (sclkRtb). -/
  fetchedAt : Nat := 0
deriving DecidableEq, Repr

/-- One host port. -/
structure Hp where
  /-- 13 R471 PAGE_STATUS.STATE. -/
  state : Nat := 0
  /-- 13 R473 UP. -/
  up : Bool := false
  /-- 13 R473 SPEED. -/
  speed : Nat := 0
  /-- 13 R473 WIDTH. -/
  width : Nat := 0
  /-- 13 R473 DIAG. -/
  diag : Bool := false
  /-- 13 R473 UR_COUNT (RC). -/
  urCount : Counter := {}
  /-- 01 R24 a page soft reset has returned HP_LINK_STATUS to its reset value and no link event has come since. -/
  statusCleared : Bool := false
  /-- 13 R473 NUM_VF. -/
  numVf : Nat := 0
  /-- 13 R468 DMA delayed while the link is down. -/
  delayed : List Output := []
  /-- 01 R37 BAR4 size. -/
  bar4Log : Nat := 30
  /-- 13 R477 MS. -/
  hbTimeout : Nat := 1000
  /-- 13 R477 SECONDS. -/
  grace : Nat := 60
  /-- 13 R445. -/
  fns : Tbl Fn := []
  /-- 13 R453. -/
  qps : Tbl Qp := []
  /-- 13 R460 commands fetched, not yet completed. -/
  fetched : List Fetched := []
deriving DecidableEq, Repr

/-- One stack controller. -/
structure Sc where
  /-- 11 R395 PAGE_STATUS.STATE from MAIN_ON on (the page reads OFF without main power). -/
  state : Nat := 1
  /-- 11 R396 CE (RC). -/
  ce : Counter := {}
  /-- 11 R396 UE (RC). -/
  ue : Counter := {}
  /-- 11 R396 CE_RATE. -/
  ceRate : Nat := 0
  /-- 11 R396 corrected words in the hour in progress. -/
  ceHour : Nat := 0
  /-- 11 R395 SC_PCH_ERR (RC). -/
  pchErr : BitVec 32 := 0
  /-- 11 R397 VALID. -/
  tempValid : Bool := false
  /-- 11 R397 TEMP. -/
  temp : Int := 0
deriving DecidableEq, Repr

/-- One frame of the frame pool (R358). -/
structure Frame where
  /-- 10 R358 owner. -/
  owner : Nat := 0
  /-- 10 R358 reference count. -/
  count : Nat := 0
  /-- 10 R358 release epoch. -/
  epoch : Nat := 0
  /-- 11 R387 withdrawn for poison. -/
  withdrawn : Bool := false
  /-- 10 R360 count 0 and not yet reclaimed. -/
  released : Bool := false
deriving DecidableEq, Repr

/-- Memory subsystem. -/
structure Ms where
  /-- 11 R390 PAGE_STATUS.STATE from MAIN_ON on (the page reads OFF without main power). -/
  state : Nat := 1
  /-- 11 R392 EN. -/
  scrubEn : Bool := true
  /-- 11 R392 ACTIVE. -/
  scrubActive : Bool := false
  /-- 11 R388 end of the pass in progress: PERIOD hours after its start. -/
  scrubUntil : Nat := 0
  /-- 11 R396 the hour whose CE_RATE is counted. -/
  rateHour : Nat := 0
  /-- 11 R392 PASSES. -/
  passes : Nat := 0
  /-- 11 R392 PERIOD. -/
  period : Nat := 24
  /-- 11 R391 MS_ECC_CE_COUNT (RC). -/
  ceCount : Counter := {}
  /-- 11 R391 MS_ECC_UE_COUNT (RC). -/
  ueCount : Counter := {}
  /-- 11 R393 LATE (RC). -/
  late : Counter := {}
  /-- 11 R386 R387 poisoned words. -/
  poisoned : List Nat := []
  /-- 11 R386 R387 words whose stored bits hold an error that no access has met yet, with whether it is uncorrectable. -/
  latent : List (Nat × Bool) := []
  /-- 11 R387 poisoned words into which a sump record's partial write fell in this cycle; event 0x04 follows in the next. -/
  lost : List Nat := []
  /-- 11 R377 holder of each extent, as ranges (first, end, holder), the newest first: 0 free, 1 + owner granted, 257 firmware. -/
  extents : List (Nat × Nat × Nat) := []
  /-- 10 R358 frame size. -/
  pageSize : Nat := 0
  /-- 10 R358. -/
  frames : Tbl Frame := []
deriving DecidableEq, Repr

/-- One TG_RELIEF_MAP register (R98). -/
structure ReliefReg where
  /-- 02 R98 STATE. -/
  state : Nat := 0
  /-- 02 R98 SEAM. -/
  seam : Bool := false
  /-- 02 R98 LOGICAL. -/
  logical : Nat := 0
deriving DecidableEq, Repr

/-- One tile group. -/
structure Tg where
  /-- 02 R94 PIN. -/
  pin : Bool := false
  /-- 02 R94 FSR_HI. -/
  fsrHi : Nat := 3
  /-- 02 R94 FSR_LO. -/
  fsrLo : Nat := 0
  /-- 02 R80 PIN in force since the last beat boundary. -/
  livePin : Bool := false
  /-- 02 R80 FSR_HI in force. -/
  liveHi : Nat := 3
  /-- 02 R80 FSR_LO in force. -/
  liveLo : Nat := 0
  /-- 02 R94 DERATE. -/
  derate : Nat := 0
  /-- 02 R95 TG_CLIP_COUNT (RC). -/
  clipCount : Counter := {}
  /-- 02 R96 TOL. -/
  tol : Nat := 6
  /-- 02 R96 TOL in force since the last beat boundary. -/
  liveTol : Nat := 6
  /-- 02 R97 TG_CAL_COUNT. -/
  calCount : Nat := 0
  /-- 02 R97 TG_CAL_LAST. -/
  calLast : BitVec 64 := 0
  /-- 02 R93 RESHOT_BEAT. -/
  reshotBeat : Nat := 0
  /-- 02 R93 reserved slots used in this beat. -/
  reshotNow : Nat := 0
  /-- 02 R93 CAL_DUE. -/
  calDue : Bool := false
  /-- 02 R93 CAL_ACTIVE. -/
  calActive : Bool := false
  /-- 02 R90 cause of the calibration in progress. -/
  calCause : Nat := 0
  /-- 02 R90 due since (CAL_LATE). -/
  calDueAt : Nat := 0
  /-- 16 R556 R557 RTB of the group's last self-calibration (SELFCAL of its tiles). -/
  selfcal : BitVec 32 := 0
  /-- 18 R624 group calibrations of the start-up so far (at most 64). -/
  startCals : Nat := 0
  /-- 02 R90 CAL_LATE already raised. -/
  calLate : Bool := false
  /-- 16 R555 group temperature at the start. -/
  calStartTemp : Int := 0
  /-- 16 R552 R555 temperature at the last group calibration. -/
  lastCalTemp : Int := 0
  /-- 02 R93 PROG. -/
  prog : Bool := false
  /-- 02 R93 PLAN. -/
  plan : Bool := false
  /-- 02 R98. -/
  relief : Tbl ReliefReg := []
  /-- 02 R90 clips in the beat. -/
  clipsBeat : Nat := 0
  /-- 02 R90 first clip of the beat. -/
  firstClip : Option (Nat × Nat × Nat) := none
  /-- 02 R84 calibration shots in this 64-slot window. -/
  windowShots : Nat := 0
  /-- 02 R84 tiles calibrated in this window. -/
  windowTiles : List Nat := []
  /-- 02 R84 window in progress. -/
  windowNo : Nat := 0
  /-- 02 R82 unavailable logical tiles. -/
  unavailable : List Nat := []
deriving DecidableEq, Repr

/-- A logical tile's binding (R161, R179). -/
structure Binding where
  /-- 05 R179 owner. -/
  owner : Nat := 0
  /-- 05 R160 matrix tag. -/
  tag : Nat := 0
  /-- 05 R161 ROW_TILE. -/
  rowTile : Nat := 0
  /-- 05 R161 COL_TILE. -/
  colTile : Nat := 0
  /-- 05 R160 K. -/
  k : Nat := 0
  /-- 05 R160 N. -/
  n : Nat := 0
  /-- 05 R160 SEAM. -/
  seam : Bool := false
  /-- 05 R176 master-copy address. -/
  block : Nat := 0
  /-- 05 R173 scale slice. -/
  scales : List (BitVec 16) := []
  /-- 05 R179 bound (false: the last binding of an unbound tile, R644). -/
  bound : Bool := true
  /-- 05 R180 loaded with SEAL. -/
  sealedLoad : Bool := false
deriving DecidableEq, Repr

/-- One physical tile, keyed by its global index (R52). -/
structure Tile where
  /-- 02 R99 STATE of the tile state table. -/
  state : Nat := 0
  /-- 02 R99 SEAM. -/
  seam : Bool := false
  /-- 02 R99 CAL_PEND. -/
  calPend : Bool := false
  /-- 16 R557 DEAD, 02 R99 DEAD_CONV. -/
  dead : BitVec 65 := 0
  /-- 02 R54 R55 level of each cell less its erase-pattern level (05 R172), keyed row*1034+column. -/
  cells : Tbl Int := []
  /-- 02 R99 GAIN. -/
  gain : BitVec 16 := 0x4000
  /-- 02 R99 OFFSET. -/
  offset : BitVec 16 := 0
  /-- 02 R99 word 1. -/
  estRtb : BitVec 32 := 0
  /-- 04 R134 filter state gamma. -/
  gBar : BitVec 32 := 0x3F800000
  /-- 04 R134 filter state omega. -/
  oBar : BitVec 32 := 0
  /-- 16 R557 G_CAL. -/
  gCal : BitVec 32 := 0x3F800000
  /-- 16 R557 O_CAL. -/
  oCal : BitVec 32 := 0
  /-- 16 R557 GAMMA_CAL. -/
  gammaCal : BitVec 32 := 0x3F800000
  /-- 16 R557 OMEGA_CAL. -/
  omegaCal : BitVec 32 := 0
  /-- 04 R133 Z. -/
  accZ : Int := 0
  /-- 04 R133 nZ. -/
  nZ : Nat := 0
  /-- 04 R133 U. -/
  accU : Int := 0
  /-- 04 R133 V (exact: held times 15). -/
  accV : Nat := 0
  /-- 04 R133 nG. -/
  nG : Nat := 0
  /-- 04 R140 checked-shot history, true = fail, newest first. -/
  history : List Bool := []
  /-- 04 R136 consecutive withheld gain updates. -/
  holdG : Nat := 0
  /-- 04 R136 consecutive withheld offset updates. -/
  holdO : Nat := 0
  /-- 04 R140 CHECK_PERSIST in this calibration interval. -/
  persist : Nat := 0
  /-- 02 R67 integrator bank last used (true = bank 1). -/
  bank : Bool := true
  /-- 16 R557 LAST. -/
  last : BitVec 64 := 0
  /-- 16 R557 TEMP. -/
  calTemp : Int := 0
  /-- 16 R557 COUNT. -/
  calCount : Nat := 0
  /-- 16 R557 TRIM_LO. -/
  trimLo : Nat := 32
  /-- 16 R557 TRIM_HI. -/
  trimHi : Nat := 32
  /-- 16 R557 TAPS. -/
  taps : BitVec 8 := 0
  /-- 16 R557 INL_MAX. -/
  inlMax : BitVec 16 := 0
  /-- 16 R557 GAIN_SPREAD. -/
  gainSpread : BitVec 16 := 0
  /-- 16 R557 TRIM_STEPS. -/
  trimSteps : Nat := 0
  /-- 16 R557 GAMMA_DRIFT. -/
  gammaDrift : BitVec 32 := 0
  /-- 16 R567 when the tile was last programmed. -/
  progAt : Nat := 0
  /-- 16 R558 powered hours when the tile was last programmed. -/
  progHours : Nat := 0
  /-- 05 R182 16 R557 CYCLES. -/
  cycles : Nat := 0
  /-- 16 R557 PV_ITER. -/
  pvIter : Nat := 0
  /-- 05 R177 K_map under which the tile was programmed (0: identity mapping). -/
  keyMap : Nat := 0
  /-- 05 R177 index whose sigma the tile carries. -/
  sigmaG : Nat := 0
  /-- 05 R175 end of the settle time. -/
  settleEnd : Option Nat := none
  /-- 05 R175 ready. -/
  ready : Bool := true
  /-- 05 R166 program-verify in progress. -/
  programming : Bool := false
  /-- 16 R553 calibration shots taken. -/
  calShots : Nat := 0
  /-- 16 R553 a calibration is in progress. -/
  calibrating : Bool := false
  /-- 16 R553 sum of c_Z over ZERO and DRIVE shots. -/
  calZsum : Int := 0
  /-- 16 R553 sum of each converter's ZERO-shot codes. -/
  calZero : Tbl Int := []
  /-- 16 R553 ZERO shots taken. -/
  calZeroN : Nat := 0
  /-- 16 R553 U over the DRIVE shots. -/
  calU : Int := 0
  /-- 16 R553 V over the DRIVE shots. -/
  calV : Nat := 0
  /-- 04 R137 baselines of a completed calibration, applied at the boundary. -/
  calNew : Option (List (BitVec 32)) := none
  /-- 02 R85 16 R554 trims, taps and summaries of that calibration, applied with its baselines. -/
  trimNew : Option (List Nat) := none
  /-- 02 R65 converters whose bias is on. -/
  bias : BitVec 65 := 0
  /-- 05 R174 vacated by a live rewrite (not retired). -/
  vacated : Bool := false
  /-- 05 R169 a trigger of R169 asks for the tile's retirement. -/
  retireAsked : Bool := false
deriving DecidableEq, Repr

/-- One LOAD_WEIGHTS command in progress or waiting (R162, R163). -/
structure Load where
  /-- 05 R163 order of arrival. -/
  no : Nat := 0
  /-- 05 R163. -/
  port : Bool := false
  /-- 13 R453. -/
  fn : Nat := 0
  /-- 13 R453. -/
  pair : Nat := 0
  /-- 13 R457. -/
  cid : Nat := 0
  /-- 05 R157 owner. -/
  owner : Nat := 0
  /-- 05 R159 MODE. -/
  mode : Nat := 0
  /-- 05 R158 FLAGS.SEAL. -/
  isSeal : Bool := false
  /-- 05 R163 SCLK cycle of its arrival. -/
  came : Nat := 0
  /-- 05 R163 in progress. -/
  started : Bool := false
  /-- 05 R161 R163 the logical tiles it names and holds. -/
  entries : List (Nat × Nat) := []
  /-- 05 R160 R161. -/
  binds : List Binding := []
  /-- 05 R174 targets of a LIVE command. -/
  targets : List Nat := []
  /-- 05 R162 tiles programmed. -/
  programmed : Nat := 0
  /-- 05 R162 logical tiles relieved. -/
  relieved : Nat := 0
  /-- 05 R162 logical tiles made unavailable. -/
  unavailable : Nat := 0
  /-- 05 R179 owner's key destroyed while it ran. -/
  keyGone : Bool := false
deriving DecidableEq, Repr

/-- One tile being programmed, or waiting to be, for a logical tile (R164, R170, R173, R181). -/
structure Job where
  /-- 05 R163 its command; none for a retirement. -/
  no : Nat := 0
  /-- 05 R159 R170. -/
  kind : Nat := 0
  /-- 05 R161. -/
  group : Nat := 0
  /-- 05 R161. -/
  logical : Nat := 0
  /-- 05 R164 R170 R174 tile it programs. -/
  tile : Nat := 0
  /-- 05 R160 R161 what the logical tile is bound to. -/
  bind : Binding := {}
  /-- 05 R166 R175. -/
  phase : Nat := 0
  /-- 05 R643 it relieves an unavailable logical tile. -/
  again : Bool := false
deriving DecidableEq, Repr

/-- One accumulator entry (R113, R191). -/
structure Acc where
  /-- 06 R191. -/
  st : Nat := 0
  /-- 03 R113 T, and its LX48 once FINAL. -/
  val : Int := 0
  /-- 03 R113 clip flag. -/
  clip : Bool := false
  /-- 03 R113 halving count. -/
  h : Nat := 0
deriving DecidableEq, Repr

/-- One slot descriptor (R204). -/
structure SlotDesc where
  /-- 06 R204 VALID. -/
  valid : Bool := false
  /-- 06 R204 BASE. -/
  base : Nat := 0
  /-- 06 R204 SIZE. -/
  size : Nat := 64
  /-- 06 R204 TARGET. -/
  target : Nat := 1
  /-- 06 R204 COUNT. -/
  count : Nat := 0
  /-- 06 R204 TAG. -/
  full : Bool := false
  /-- 07 R239 SLOT.FILL acted in this cycle: TAG becomes FULL at its end. -/
  filling : Bool := false
deriving DecidableEq, Repr

/-- One write on its way into a scratchpad, committed at the end of the DCLK cycle (R209). -/
structure Arrival where
  /-- 06 R209 a remote write: it commits after DMA and ring writes. -/
  remote : Bool := false
  /-- 06 R208 the writing master. -/
  kind : Nat := 0
  /-- 06 R208 the writing master. -/
  who : Nat := 0
  /-- 08 R295 the position that reports FAULT if the writer freezes. -/
  pos : Nat := 0
  /-- 06 R205 where it writes. -/
  off : Nat := 0
  /-- 06 R205 what it writes. -/
  data : List (BitVec 8) := []
deriving DecidableEq, Repr

/-- One correction core. -/
structure Core where
  /-- 07 R221 s0-s31. -/
  sregs : Tbl (BitVec 64) := []
  /-- 07 R221 v0-v31, keyed v*64+lane. -/
  vregs : Tbl (BitVec 32) := []
  /-- 06 R195 m0-m3, keyed m*1024+row*32+col. -/
  macc : Tbl (BitVec 32) := []
  /-- 07 R223 fs.NV. -/
  nv : Bool := false
  /-- 07 R223 fs.INF. -/
  inf : Bool := false
  /-- 07 R223 fs.NCV. -/
  ncv : Bool := false
  /-- 07 R221 06 R219 PC. -/
  pc : Nat := 0
  /-- 06 R199 instruction memory. -/
  imem : Tbl (BitVec 64) := []
  /-- 08 R264 length of the code. -/
  imemLen : Nat := 0
  /-- 06 R200 scratchpad. -/
  scratch : Tbl (BitVec 8) := []
  /-- 06 R204 slot table. -/
  slots : Tbl SlotDesc := []
  /-- 06 R188 accumulator bank. -/
  acc : Tbl Acc := []
  /-- 06 R217 ACTIVE. -/
  active : Bool := false
  /-- 06 R218 ENTRY. -/
  entry : Nat := 0
  /-- 06 R218 CURRENT. -/
  current : Nat := 0xFFFF
  /-- 07 R254 the launch is watched. -/
  watched : Bool := false
  /-- 08 R273 launches waiting for the previous END, first in first out. -/
  launchWait : List Nat := []
  /-- 06 R213 cleared inside the beat in execution: no launch of that beat begins on it. -/
  sitOut : Bool := false
  /-- 06 R217 ACC_OVF (RC). -/
  accOvf : Counter := {}
  /-- 06 R214 read-outs with h > 0 in this beat. -/
  accOvfBeat : Nat := 0
  /-- 06 R217 ECC_CE (RC). -/
  eccCe : Counter := {}
  /-- 06 R217 STALL_NET/ACC/SLOT: what the core waits for. -/
  wait : Option Wait := none
  /-- 06 R210 posted remote writes not yet committed. -/
  posted : List (Nat × Nat × List (BitVec 8)) := []
  /-- 06 R210 remote reads outstanding: register, target, offset, bytes, and the posted writes to that target sent before (R187). -/
  remoteReads : List (Nat × Nat × Nat × Nat × Nat) := []
  /-- 06 R192 R193 entries read out in this cycle, first and end: they become EMPTY at its end. -/
  emptied : List (Nat × Nat) := []
  /-- 06 R220 CC_SLOT_FAULT. -/
  slotFault : BitVec 32 := 0
  /-- 06 R209 arrivals that commit at the end of the DCLK cycle in progress. -/
  arriving : List Arrival := []
  /-- 06 R205 arrivals that count in the next cycle. -/
  pendingArr : List Nat := []
  /-- 06 R209 the core's own stores of the cycle in progress. -/
  stores : List (Nat × List (BitVec 8)) := []
  /-- 06 R209 the scratchpad as it stood at the start of the cycle, once the core has stored in it. -/
  scratchWas : Option (Tbl (BitVec 8)) := none
  /-- 06 R192 entry blocks that close at the end of the tick in progress. -/
  closing : List Nat := []
  /-- 06 R213 clearing (BUSY). -/
  inReset : Bool := false
  /-- 06 R213 end of the 768-cycle zeroing. -/
  clearEnd : Nat := 0
deriving DecidableEq, Repr

/-- One tally of an owner (R354). -/
structure Tally where
  /-- 10 R354 balance. -/
  balance : Int := 0
  /-- 10 R354 MODE. -/
  limited : Bool := false
  /-- 10 R354 RATE. -/
  rate : Nat := 0
  /-- 10 R354 CAP. -/
  cap : Nat := 1
  /-- 10 R354 cumulative count. -/
  count : Nat := 0
  /-- 10 R356 event 0x10 already raised. -/
  empty : Bool := false
deriving DecidableEq, Repr

/-- One owner as the headframe keeps it (R338). -/
structure Owner where
  /-- 10 R338 owner token. -/
  token : BitVec 128 := 0
  /-- 13 R450 bindings. -/
  bound : List (Bool × Nat) := []
  /-- 14 R497 held by a port (orphaned or restored). -/
  held : Option Bool := none
  /-- 14 R496 grace deadline. -/
  grace : Option (BitVec 64) := none
  /-- 10 R354 GEN. -/
  gen : Tally := {}
  /-- 10 R354 PROMPT. -/
  prompt : Tally := {}
  /-- 10 R338 scheduling weight. -/
  weight : Nat := 16
  /-- 10 R352 deficit round robin. -/
  credits : Nat := 0
  /-- 14 R510 denials since orphaning. -/
  denials : Nat := 0
  /-- 01 R640 on a member, the port whose functions hold the owner, as the headframe told. -/
  home : Option Bool := none
  /-- 10 R340 key destruction ordered or done; frames being reclaimed. -/
  releasing : Bool := false
  /-- 10 R340 key destroyed. -/
  keyGone : Bool := false
  /-- 10 R346 OWNER_RELEASE to complete when the key is destroyed. -/
  releaseCmd : Option Issuer := none
  /-- 10 R374 streams closed together by the destruction. -/
  closedCount : Nat := 0
deriving DecidableEq, Repr

/-- Stream settings (R342, R462). -/
structure Settings where
  /-- 10 R342 CHANNEL. -/
  channel : Nat := 0
  /-- 10 R342 MODE. -/
  solo : Bool := false
  /-- 10 R342 TEMPERATURE. -/
  temperature : BitVec 32 := 0x3F800000
  /-- 10 R342 TOP_P. -/
  topP : BitVec 32 := 0x3F800000
  /-- 10 R342 TOP_K. -/
  topK : Nat := 256
  /-- 10 R342 K_MIN. -/
  kMin : Nat := 0
  /-- 10 R342 K_MAX. -/
  kMax : Nat := 0
  /-- 10 R342 MAX_TOKENS. -/
  maxTokens : Nat := 2048
  /-- 10 R342 STOP. -/
  stop : List (BitVec 32) := []
  /-- 10 R342 SEED. -/
  seed : Option (BitVec 256) := none
  /-- 10 R342 SHARE. -/
  share : Bool := true
  /-- 10 R342 TTL. -/
  ttl : Nat := 600
deriving DecidableEq, Repr

/-- One stream (R341-R345). -/
structure Stream where
  /-- 10 R343. -/
  state : Nat := 1
  /-- 10 R343 state held at a pause or at orphaning. -/
  heldState : Nat := 1
  /-- 10 R341 owner. -/
  owner : Nat := 0
  /-- 10 R341 delivery queue pair's port. -/
  port : Bool := false
  /-- 10 R341 delivery queue pair. -/
  pair : Nat := 0
  /-- 13 R453 function of that pair. -/
  fn : Nat := 0
  /-- 10 R341 MODEL_ID. -/
  modelId : BitVec 64 := 0
  /-- 10 R342 settings. -/
  set : Settings := {}
  /-- 10 R342 change waiting for the boundary. -/
  setNext : Option Settings := none
  /-- 09 R313 L. -/
  length : Nat := 0
  /-- 10 R346 generated count. -/
  genCount : Nat := 0
  /-- 10 R346 pending input. -/
  input : List (BitVec 32) := []
  /-- 13 R461 tokens of the positions (last 4,096 kept). -/
  history : List (BitVec 32) := []
  /-- 13 R461 position of the first kept token. -/
  histBase : Nat := 0
  /-- 10 R363 R365 tokens of all positions, from which the prefix keys are formed. -/
  toks : List (BitVec 32) := []
  /-- 10 R349 a step is in flight. -/
  inFlight : Bool := false
  /-- 10 R350 waiting since. -/
  waitingSince : Option Nat := none
  /-- 10 R359 page table. -/
  pages : Tbl Nat := []
  /-- 10 R362 copies pending. -/
  copies : List (Nat × Nat × Bool) := []
  /-- 10 R365 references to add at step 2. -/
  attach : List (Nat × Nat) := []
  /-- 10 R360 references to drop at step 3. -/
  releases : List Nat := []
  /-- 10 R363. -/
  keys : List (BitVec 128) := []
  /-- 10 R341 frames a CLOSED stream referenced and that are not yet reclaimed. -/
  awaiting : List Nat := []
  /-- 10 R349 13 R465 close wanted. -/
  closing : Nat := 0
  /-- 10 R369 pause wanted. -/
  pausing : Bool := false
  /-- 10 R371 start of the pause. -/
  pauseStart : BitVec 64 := 0
  /-- 10 R371 TTL of the pause. -/
  pauseTtl : Nat := 0
  /-- 10 R369 issuing function. -/
  pauseFn : Nat := 0
  /-- 10 R346 commands that complete when the stream has changed state. -/
  waits : List (Nat × Issuer) := []
  /-- 10 R369 every device has finished the pause image. -/
  imageDone : Bool := false
  /-- 10 R370 geometry in the image. -/
  imageGeom : List Nat := []
  /-- 10 R372 restored pages await step 2. -/
  restoring : Bool := false
  /-- 10 R370 MODEL_ID in the image. -/
  imageModel : BitVec 64 := 0
  /-- 10 R369 room of the image in the tier. -/
  imageSize : Nat := 0
  /-- 10 R368 place of the image in the tier. -/
  imageAt : Nat := 0
  /-- 13 R449 read data outstanding towards the host for a resume. -/
  issued : Nat := 0
  /-- 10 R371 closed at the expiry of its pause. -/
  expired : Bool := false
  /-- 09 R334 held to the reference layout until a switch. -/
  specHeld : Bool := false
  /-- 09 R326 k of the verify pass in flight, 0 outside one. -/
  passK : Nat := 0
  /-- 09 R333 tracker's k. -/
  k : Nat := 0
  /-- 09 R333 the tracker has started. -/
  tracked : Bool := false
  /-- 09 R335 tokens emitted while k = 0. -/
  sinceK0 : Nat := 0
  /-- 10 R374 last second of PAGE_SHORT. -/
  shortSec : Option Nat := none
deriving DecidableEq, Repr

/-- An SPDM secured session. -/
structure Session where
  /-- 15 R520. -/
  transport : Nat := 0
  /-- 15 R520 session. -/
  sid : Nat := 0
  /-- 15 R520 FINISH done. -/
  finished : Bool := false
deriving DecidableEq, Repr

/-- Management endpoint (AUX domain). -/
structure Mgmt where
  /-- 14 R500 endpoint ID. -/
  eid : Nat := 0
  /-- 14 R500 dynamic address. -/
  dyn : Option Nat := none
  /-- 14 R502 event receiver. -/
  receiver : Option Nat := none
  /-- 14 R502. -/
  queue : List (Nat × List (BitVec 8) × Bool × Bool) := []
  /-- 14 R502 events dropped. -/
  dropped : Nat := 0
  /-- 14 R502 event awaiting its response since. -/
  sentAt : Option Nat := none
  /-- 14 R502. -/
  retries : Nat := 0
  /-- 15 R520. -/
  sessions : List Session := []
  /-- 15 R520. -/
  nextSid : Nat := 1
  /-- 15 R520 algorithms negotiated. -/
  negotiated : List Nat := []
deriving DecidableEq, Repr

/-- 14 R493 the handoff block: what the running image hands over, in its HANDOFF_OUT format (14 R485). -/
structure HandoffBlock where
  /-- 14 R485 HANDOFF_OUT of the image that wrote it. -/
  format : Nat := 1
  /-- 14 R493 queue pairs of Port A and Port B. -/
  pairs : Tbl Qp × Tbl Qp := ([], [])
  /-- 14 R493 commands fetched but not yet in effect, of Port A and Port B. -/
  fetched : List Fetched × List Fetched := ([], [])
  /-- 14 R493 owners: bindings, tokens, orphan holdings and deadlines, tallies; an owner ID is its key-slot handle. -/
  owners : Tbl (Option Owner) := []
  /-- 14 R493 streams, page tables among them. -/
  streams : Tbl (Option Stream) := []
  /-- 14 R493 frame counts. -/
  frames : Tbl Frame := []
  /-- 14 R493 E and the retired epoch. -/
  epochs : Nat × Nat := (0, 0)
  /-- 14 R493 prefix indices. -/
  prefixes : List (Nat × BitVec 128 × Nat × Nat) := []
  /-- 14 R493 prompt pool in use. -/
  promptUsed : Nat := 0
  /-- 14 R493 extent table. -/
  extents : List (Nat × Nat × Nat) := []
  /-- 14 R493 pause records. -/
  pauses : Tbl PauseKey := []
  /-- 14 R493 sump cursor. -/
  sumpHead : BitVec 32 := 0
deriving DecidableEq, Repr

/-- The state of the machine. -/
structure State where
  /-- time passed since MAIN_ON in DCLK cycles of 0.625 ns (18 R621); unbounded counter; model's clock, SPEC starts at MAIN_ON; -/
  clock : Nat := 0
  /-- the model's own counter from which free values are drawn (log entry 11, DESIGN CHOICE 11); no statement rests on it; -/
  free : Nat := 0
  /-- the model's own log of what left the block, oldest first (log entry 12, DESIGN CHOICE 12); -/
  out : List Output := []
  /-- commands waiting, first in first out (the block's queue; empty at reset); -/
  pending : List Instr := []
  /-- pins and supplies (17 R595-R609); record; -/
  pins : Pins := {}
  /-- power state, resets, clocks, sump (18 R619-R641, 01 R45); record; -/
  power : Power := {}
  /-- the manifest in force (15 R516); record; -/
  manifest : Manifest := {}
  /-- page headers keyed by page key: 0 DEV, 1 CX, 2 DP, 3 HB, 4 MC, 5 KE, 6 SQ, 7 RI, 8 HP_A, 9 HP_B, 10 MS, 11-18 SC, 19-82 TG, 83-338 CC, 339-369 FN_A, 370-400 FN_B (01 R16, R11); 401 records; -/
  hdrs : Tbl Hdr := []
  /-- frozen masters, in order of freezing (01 R47); list; -/
  frozen : List Frozen := []
  /-- control complex (14); record; -/
  cx : Cx := {}
  /-- handoff block, from the start of a handoff to its end (14 R493, R495); record or none; -/
  handoff : Option HandoffBlock := none
  /-- deputy (16); record; -/
  dp : Dp := {}
  /-- health block (16); record; -/
  hb : Hb := {}
  /-- monitor converter (16); record; -/
  mc : Mc := {}
  /-- key engine (15); record; -/
  ke : Ke := {}
  /-- record store, which survives power-off (18 R632); record; -/
  store : RecStore := {}
  /-- master shift sequencer and the round engine of the headframe (08, 09, 10); record; -/
  sq : Sq := {}
  /-- ring interface (12); record; -/
  ri : Ri := {}
  /-- host port A (13); record; -/
  hpA : Hp := {}
  /-- host port B (13); record; -/
  hpB : Hp := {}
  /-- memory subsystem (11); record; -/
  ms : Ms := {}
  /-- stack controllers 0-7 (11 R395); 8 records; -/
  scs : Tbl Sc := []
  /-- tile groups 0-63 (02 R91-R98); 64 records; -/
  tgs : Tbl Tg := []
  /-- physical tiles keyed group*1088+tile (02 R52); 69,632 records; -/
  tiles : Tbl Tile := []
  /-- tile records as the beat in execution began with them, which the tables of R99 show while it runs (02 R99); 69,632 records; -/
  beatTiles : Tbl Tile := []
  /-- group records as the beat in execution began with them, which TG_RELIEF_MAP shows while it runs (02 R81); 64 records; -/
  beatTgs : Tbl Tg := []
  /-- bindings of logical tiles keyed group*1024+logical (05 R161, R179); 65,536 records; -/
  bindings : Tbl (Option Binding) := []
  /-- LOAD_WEIGHTS commands in progress or waiting, in order of arrival (05 R163); list; -/
  loads : List Load := []
  /-- number of the next LOAD_WEIGHTS command (05 R163, the model's own naming, log entry 7); count; -/
  loadNo : Nat := 1
  /-- tiles being programmed or waiting to be (05 R164-R176); list; -/
  jobs : List Job := []
  /-- owners whose tiles become unbound at the next beat boundary (05 R179); list; -/
  unbinding : List Nat := []
  /-- correction cores 0-255 (06, 07); 256 records; -/
  cores : Tbl Core := []
  /-- owners by owner ID (10 R338); 256 records; none = no such owner; -/
  owners : Tbl (Option Owner) := []
  /-- streams by stream ID (10 R341); 65,535 records; none = no such stream; -/
  streams : Tbl (Option Stream) := []
  /-- prefix index: (owner, key, frame), in order of entry (10 R363-R364); list; -/
  prefixes : List (Nat × BitVec 128 × Nat × Nat) := []
  /-- tokens held in the prompt pool (10 R346); count; -/
  promptUsed : Nat := 0
  /-- management endpoint (14 R500-R503); record; -/
  mgmt : Mgmt := {}
  /-- stack memory, plaintext as last written; an address not listed reads 0 after the zero-fill (11 R375, R389); canonical list; -/
  mem : List Host.Cell := []
  /-- key under which each 64-byte word was last written, 0 for owner 0 and for the zero-fill (11 R380); key identities; -/
  memKey : Tbl Nat := []
deriving DecidableEq, Repr

/-- The machine right after reset: MAIN_ON of a module reset (log entry 1). -/
def State.reset : State := {}

end Sys2Proof.Machine
end

