-- ==== Sys2Proof/Machine/Table.lean ====
section
/-! DEFINITION. Reading and writing the sparse arrays of the state (Tbl): one canonical form, so equal arrays are equal data. -/

namespace Sys2Proof.Machine

/-- The value at index `i`: the first entry for it, or the array's default `d`. -/
def tblGet {α : Type} (d : α) : Tbl α → Nat → α
  | [], _ => d
  | (k, v) :: t, i => if i = k then v else tblGet d t i

/-- Write `v` at index `i`, keeping the canonical form: writing the default removes the entry. -/
def tblSet {α : Type} [DecidableEq α] (d : α) : Tbl α → Nat → α → Tbl α
  | [], i, v => if v = d then [] else [(i, v)]
  | (k, w) :: t, i, v =>
    if i < k then (if v = d then (k, w) :: t else (i, v) :: (k, w) :: t)
    else if i = k then (if v = d then t else (i, v) :: t)
    else (k, w) :: tblSet d t i v

/-- The canonical form: indexes strictly rising above `lo` and no entry equal to the default. -/
def tblWfFrom {α : Type} [DecidableEq α] (d : α) : Nat → Tbl α → Bool
  | _, [] => true
  | lo, (k, v) :: t => decide (lo ≤ k) && !decide (v = d) && tblWfFrom d (k + 1) t

/-- The canonical form of a whole array. -/
def tblWf {α : Type} [DecidableEq α] (d : α) (t : Tbl α) : Bool := tblWfFrom d 0 t

/-- Write a list of values at consecutive indexes from `i`. -/
def tblSetList {α : Type} [DecidableEq α] (d : α) (t : Tbl α) (i : Nat) : List α → Tbl α
  | [] => t
  | v :: vs => tblSetList d (tblSet d t i v) (i + 1) vs

/-- Read `n` consecutive values from index `i`. -/
def tblGetList {α : Type} (d : α) (t : Tbl α) (i : Nat) : Nat → List α
  | 0 => []
  | n + 1 => tblGet d t i :: tblGetList d t (i + 1) n

/-- Change the value at index `i` by a function. -/
def tblMod {α : Type} [DecidableEq α] (d : α) (t : Tbl α) (i : Nat) (f : α → α) : Tbl α :=
  tblSet d t i (f (tblGet d t i))

/-- Drop every entry whose index lies in `[lo, hi)`. -/
def tblClear {α : Type} (t : Tbl α) (lo hi : Nat) : Tbl α :=
  t.filter (fun e => decide (e.1 < lo) || decide (hi ≤ e.1))

/-- Apply a function to every entry, dropping those that become the default. -/
def tblMap {α : Type} [DecidableEq α] (d : α) (f : Nat → α → α) : Tbl α → Tbl α
  | [] => []
  | (k, v) :: t => if f k v = d then tblMap d f t else (k, f k v) :: tblMap d f t

end Sys2Proof.Machine
end

