-- ==== Sys2Proof/Machine/Ops.lean ====
section
/-! DEFINITION. The operations every family shares: reading and changing one unit's record, stack-memory bytes, free values,
events and the sump (R39-R46, R641), freeze and thaw (R47-R51), and the completion of host commands (R456-R463). -/

namespace Sys2Proof.Machine

/-! ### One unit's record -/

/-- Page keys (directory order of R28, then the function pages of R18). -/
def pgDev : Nat := 0
/-- CX page key. -/
def pgCx : Nat := 1
/-- DP page key. -/
def pgDp : Nat := 2
/-- HB page key. -/
def pgHb : Nat := 3
/-- MC page key. -/
def pgMc : Nat := 4
/-- KE page key. -/
def pgKe : Nat := 5
/-- SQ page key. -/
def pgSq : Nat := 6
/-- RI page key. -/
def pgRi : Nat := 7
/-- HP_A or HP_B page key. -/
def pgHp (port : Bool) : Nat := if port then 9 else 8
/-- MS page key. -/
def pgMs : Nat := 10
/-- SC page key. -/
def pgSc (n : Nat) : Nat := 11 + n
/-- TG page key. -/
def pgTg (g : Nat) : Nat := 19 + g
/-- CC page key. -/
def pgCc (c : Nat) : Nat := 83 + c
/-- Function page key of VF `f` (1-31) of a port. -/
def pgFn (port : Bool) (f : Nat) : Nat := (if port then 369 else 338) + f

/-- Block class of a page (R19). -/
def pageClass (p : Nat) : Nat :=
  if p < 10 then (if p = 9 then 9 else p + 1)
  else if p = 10 then 0x0A
  else if p < 19 then 0x0B
  else if p < 83 then 0x0C
  else if p < 339 then 0x0D
  else 0x09

/-- Instance of a page (R18). -/
def pageInstance (p : Nat) : Nat :=
  if p = 9 then 1
  else if p < 11 then 0
  else if p < 19 then p - 11
  else if p < 83 then p - 19
  else if p < 339 then p - 83
  else if p < 370 then 0x80 + (p - 338)
  else 0xA0 + (p - 369)

/-- PAGE_ID of a page (R17): class, instance, layout 1. -/
def pageId (p : Nat) : Nat := field 24 8 (pageClass p) + field 16 8 (pageInstance p) + 1

/-- Header of a page. -/
def getHdr (s : State) (p : Nat) : Hdr := tblGet {} s.hdrs p
/-- Change the header of a page. -/
def modHdr (s : State) (p : Nat) (f : Hdr → Hdr) : State := { s with hdrs := tblMod {} s.hdrs p f }
/-- A host port: false Port A, true Port B. -/
def getHp (s : State) (port : Bool) : Hp := if port then s.hpB else s.hpA
/-- Change a host port. -/
def modHp (s : State) (port : Bool) (f : Hp → Hp) : State :=
  if port then { s with hpB := f s.hpB } else { s with hpA := f s.hpA }
/-- A function of a port. -/
def getFn (s : State) (port : Bool) (n : Nat) : Fn := tblGet {} (getHp s port).fns n
/-- Change a function of a port. -/
def modFn (s : State) (port : Bool) (n : Nat) (f : Fn → Fn) : State :=
  modHp s port (fun h => { h with fns := tblMod {} h.fns n f })
/-- A queue pair of a port. -/
def getQp (s : State) (port : Bool) (n : Nat) : Qp := tblGet {} (getHp s port).qps n
/-- Change a queue pair of a port. -/
def modQp (s : State) (port : Bool) (n : Nat) (f : Qp → Qp) : State :=
  modHp s port (fun h => { h with qps := tblMod {} h.qps n f })
/-- A stack controller. -/
def getSc (s : State) (n : Nat) : Sc := tblGet {} s.scs n
/-- Change a stack controller. -/
def modSc (s : State) (n : Nat) (f : Sc → Sc) : State := { s with scs := tblMod {} s.scs n f }
/-- A tile group. -/
def getTg (s : State) (g : Nat) : Tg := tblGet {} s.tgs g
/-- Change a tile group. -/
def modTg (s : State) (g : Nat) (f : Tg → Tg) : State := { s with tgs := tblMod {} s.tgs g f }
/-- Global index of physical tile `t` of group `g` (R30, R52). -/
def tileIx (g t : Nat) : Nat := g * 1088 + t
/-- A physical tile by global index. -/
def getTile (s : State) (i : Nat) : Tile := tblGet {} s.tiles i
/-- Change a physical tile. -/
def modTile (s : State) (i : Nat) (f : Tile → Tile) : State := { s with tiles := tblMod {} s.tiles i f }
/-- A correction core. -/
def getCore (s : State) (c : Nat) : Core := tblGet {} s.cores c
/-- Change a correction core. -/
def modCore (s : State) (c : Nat) (f : Core → Core) : State := { s with cores := tblMod {} s.cores c f }
/-- An owner, if it exists. -/
def getOwner (s : State) (o : Nat) : Option Owner := tblGet none s.owners o
/-- Set or remove an owner. -/
def setOwner (s : State) (o : Nat) (v : Option Owner) : State := { s with owners := tblSet none s.owners o v }
/-- Change an owner that exists. -/
def modOwner (s : State) (o : Nat) (f : Owner → Owner) : State := setOwner s o ((getOwner s o).map f)
/-- A stream, if it exists. -/
def getStream (s : State) (i : Nat) : Option Stream := tblGet none s.streams i
/-- Set or remove a stream. -/
def setStream (s : State) (i : Nat) (v : Option Stream) : State := { s with streams := tblSet none s.streams i v }
/-- Change a stream that exists. -/
def modStream (s : State) (i : Nat) (f : Stream → Stream) : State := setStream s i ((getStream s i).map f)
/-- Binding of logical tile `l` of group `g`. -/
def getBinding (s : State) (g l : Nat) : Option Binding := tblGet none s.bindings (g * 1024 + l)
/-- Set or remove a binding. -/
def setBinding (s : State) (g l : Nat) (b : Option Binding) : State :=
  { s with bindings := tblSet none s.bindings (g * 1024 + l) b }
/-- A key-engine slot. -/
def getSlot (s : State) (o : Nat) : Slot := tblGet {} s.ke.slots o
/-- Change a key-engine slot. -/
def modSlot (s : State) (o : Nat) (f : Slot → Slot) : State :=
  { s with ke := { s.ke with slots := tblMod {} s.ke.slots o f } }
/-- A ring port: 0 INBYE-in, 1 INBYE-out, 2 OUTBYE-in, 3 OUTBYE-out. -/
def getLink (s : State) (p : Nat) : Link := tblGet {} s.ri.ports p
/-- Change a ring port. -/
def modLink (s : State) (p : Nat) (f : Link → Link) : State :=
  { s with ri := { s.ri with ports := tblMod {} s.ri.ports p f } }

/-- Indexed elements of a list. -/
def indexed {α : Type} (l : List α) : List (Nat × α) := (upTo l.length).zip l

/-- Apply a state change for every element of a list, in order. -/
def forEach {α : Type} (l : List α) (f : State → α → State) (s : State) : State := l.foldl f s

/-! ### Power and time -/

/-- Encoding of a power state (R623). -/
def PowerState.code : PowerState → Nat
  | .off => 0 | .aux => 1 | .mainOn => 2 | .rom => 3 | .fwLoaded => 4 | .configured => 5
  | .calibrating => 6 | .ringTraining => 7 | .ready => 8

/-- Main power is present (R623: from MAIN_ON upward). -/
def mainPower (s : State) : Bool := decide (2 ≤ s.power.state.code)

/-- DCLK cycles of one nanosecond-rational: cycles in one microsecond (R618: 0.625 ns). -/
def usCycles : Nat := 1600
/-- DCLK cycles in one millisecond. -/
def msCycles : Nat := 1600000
/-- DCLK cycles in one second. -/
def secCycles : Nat := 1600000000

/-- RTB count as a number. -/
def rtb (s : State) : Nat := s.power.rtb.toNat

/-- Milliseconds since PWR_GOOD rose, saturating at 65,535 (R636). -/
def upMs (s : State) : Nat := min 65535 ((s.clock - s.power.mainOnAt) / msCycles)

/-! ### The minimum-version counter (R515) -/

/-- The minimum-version counter as the key engine reads it (R515): the copy of the higher sequence number whose CRC passes. -/
def RecStore.mvc (t : RecStore) : Nat :=
  if t.mvcA.good && (!t.mvcB.good || decide (t.mvcB.seq ≤ t.mvcA.seq)) then t.mvcA.value else t.mvcB.value

/-- Both copies take a value, the older one first (R515). -/
def RecStore.setMvc (t : RecStore) (v : Nat) : RecStore :=
  let n := max t.mvcA.seq t.mvcB.seq
  if t.mvcA.seq ≤ t.mvcB.seq then { t with mvcA := { value := v, seq := n + 1 }, mvcB := { value := v, seq := n + 2 } }
  else { t with mvcB := { value := v, seq := n + 1 }, mvcA := { value := v, seq := n + 2 } }

/-! ### Free values -/

/-- The next free number, and the state with the counter advanced (log entry 11). -/
def draw (s : State) : Nat × State := (Config.freeNat s.free, { s with free := s.free + 1 })

/-- The next free choice, and the state with the counter advanced (log entry 11). -/
def drawBool (s : State) : Bool × State := (Config.freeBool s.free, { s with free := s.free + 1 })

/-! ### Stack memory -/

/-- The canonical form of a memory: addresses strictly rising, no entry equal to the 0 an unlisted address reads as. -/
def Memory.wf (m : List Host.Cell) : Bool := tblWf 0 m

/-- One byte of stack memory: an address nothing has written reads 0 (the zero-fill of R389). -/
def memByte (s : State) (a : Nat) : Byte := tblGet 0 s.mem a

/-- `n` bytes of stack memory from address `a`. -/
def memBytes (s : State) (a n : Nat) : List Byte := tblGetList 0 s.mem a n

/-- Write bytes at address `a`, under the key of identity `k` for every 64-byte word they touch (R380). -/
def memWrite (s : State) (k a : Nat) (bs : List Byte) : State :=
  { s with
    mem := tblSetList 0 s.mem a bs
    memKey := if bs.isEmpty then s.memKey
      else (upTo ((a + bs.length - 1) / 64 - a / 64 + 1)).foldl (fun t i => tblSet 0 t (a / 64 + i) k) s.memKey }

/-- Words of a byte range. -/
def wordsOf (a n : Nat) : List Nat := if n = 0 then [] else (upTo ((a + n - 1) / 64 - a / 64 + 1)).map (· + a / 64)

/-- The 64 bytes a word decrypts to under a key (R379, R380, R386): noise unless it was written under that key and is not poisoned (log entry
14). -/
def wordUnder (s : State) (k w : Nat) : List Byte :=
  let plain := memBytes s (64 * w) 64
  if tblGet 0 s.memKey w = k ∧ !s.ms.poisoned.contains w then plain else padTo 64 (Config.noise k (tblGet 0 s.memKey w) w plain)

/-- The part of a write of `bs` at `a` that falls in word `w`: offset in the word and bytes. -/
def pieceOf (a : Nat) (bs : List Byte) (w : Nat) : Nat × List Byte :=
  if 64 * w < a then (a - 64 * w, bs.take (64 - (a - 64 * w))) else (0, (bs.drop (64 * w - a)).take 64)

/-- Write one word's part under a key (R376, R387): a full word clears poison; a partial write merges with what the word decrypts to,
and is discarded where the word is poisoned. A word written anew holds no error. -/
def mergeWord (s : State) (k w : Nat) (p : Nat × List Byte) : State :=
  if p.2.length = 64 then
    let s := memWrite s k (64 * w) p.2
    { s with ms := { s.ms with poisoned := s.ms.poisoned.filter (· != w), latent := s.ms.latent.filter (·.1 != w) } }
  else if s.ms.poisoned.contains w then s
  else
    let old := wordUnder s k w
    let s := memWrite s k (64 * w) (old.take p.1 ++ p.2 ++ old.drop (p.1 + p.2.length))
    { s with ms := { s.ms with latent := s.ms.latent.filter (·.1 != w) } }

/-! ### What an SCLK cycle adds (R15) -/

/-- Number of the SCLK cycle in progress, from 1. -/
def sclk (s : State) : Nat := s.clock / 4 + 1

/-- SCLK cycles that the ring's time base has seen (R348, R415): four to a count of RTB, in which the fetches of all members compare. -/
def sclkRtb (s : State) : Nat := 4 * rtb s + (s.clock + s.power.rtbPhase) % 16 / 4

/-- Count `n` events, saturating at `cap`. -/
def Counter.bump (c : Counter) (now cap n : Nat) : Counter :=
  if n = 0 then c
  else if c.cycle = now then { c with val := min cap (c.val + n), added := c.added + n }
  else { val := min cap (c.val + n), cycle := now, before := c.val, added := n }

/-- The value a read returns: that before the increments of the same SCLK cycle (R15). -/
def Counter.shown (c : Counter) (now : Nat) : Nat := if c.cycle = now then c.before else c.val

/-- What a read leaves: 0, or the increments of the same SCLK cycle (R15). -/
def Counter.taken (c : Counter) (now : Nat) : Counter :=
  if c.cycle = now then { c with val := c.added, before := 0 } else {}

/-- EVT_STATUS bits that hardware has set in an SCLK cycle; a write of that cycle does not clear them (R15). -/
def Hdr.newBits (h : Hdr) (now : Nat) : BitVec 32 := if h.evtCycle = now then h.evtNew else 0

/-- Set an EVT_STATUS bit; one that hardware sets is noted for its SCLK cycle (R15). -/
def Hdr.noteEvent (h : Hdr) (now : Nat) (hardware : Bool) (bits : BitVec 32) : Hdr :=
  { h with evtStatus := h.evtStatus ||| bits, evtNew := if hardware then h.newBits now ||| bits else h.newBits now, evtCycle := now }

/-- An MC_RESULT register (R590). -/
def McResult.word (r : McResult) : Nat := field 31 1 (ofBool r.valid) + field 30 1 (ofBool r.fresh) + field 16 14 r.count + r.value.toNat

/-- What a read of MC_RESULT returns: the value before a result of the same SCLK cycle (R564). -/
def McResult.shown (r : McResult) (now : Nat) : Nat := if r.cycle = now then r.before else r.word

/-- What a read of MC_RESULT leaves: FRESH stays set if the result is of the same SCLK cycle (R564). -/
def McResult.taken (r : McResult) (now : Nat) : McResult :=
  if r.cycle = now then { r with before := r.before - field 30 1 (r.before / 2 ^ 30) } else { r with fresh := false }

/-- Source of a credit packet (R424). -/
def packetSource (b : List Byte) : Nat := leAt b 2 2

/-! ### Outputs -/

/-- Send something out of the block. -/
def emit (s : State) (o : Output) : State := { s with out := s.out ++ [o] }

/-- DMA of a port (R468): while its link is down it is delayed. -/
def hostSend (s : State) (port : Bool) (o : Output) : State :=
  if (getHp s port).up then emit s o else modHp s port (fun h => { h with delayed := h.delayed ++ [o] })

/-! ### The ring's links (R401, R408-R414, R424) -/

/-- The receiving port of the opposite link of a sending port, and the reverse: 1 INBYE-out and 2 OUTBYE-in, 3 and 0 (R401). -/
def oppositePort (p : Nat) : Nat := 3 - p

/-- Payload bytes of a flit (R408). -/
def flitPayload : Nat := 246

/-- The header of a flit (R408). -/
structure FlitHeader where
  kind : Nat := 0
  seq : Nat := 0
  ack : Nat := 0
  nak : Nat := 0
  credits : Nat := 0
  cclass : Nat := 0
  dst : Nat := 0
  first : Bool := false
  last : Bool := false
  poison : Bool := false

/-- The header as its 48-bit word (R408). -/
def FlitHeader.word (h : FlitHeader) : Nat :=
  field 45 3 h.kind + field 33 12 h.seq + field 21 12 h.ack + field 20 1 h.nak + field 10 10 h.credits + field 9 1 h.cclass
    + field 3 6 h.dst + field 2 1 (ofBool h.first) + field 1 1 (ofBool h.last) + field 0 1 (ofBool h.poison)

/-- The 256 bytes of a flit on the fibre (R408): header, payload as encrypted, CRC. -/
def flitWire (word : Nat) (text : List Byte) : List Byte :=
  let body := leBytes 6 word ++ padTo flitPayload text
  body ++ leBytes 4 (crc32 body)

/-- The secret of a sending port's direction (R413): HMAC-SHA-512 under both shares over the transcript and the direction byte. -/
def linkSecret (l : Link) (p : Nat) : List Byte :=
  hmac512 (padTo 96 (Config.linkShares l.key)) (Config.linkTranscript l.key ++ leBytes 1 (if p < 2 then 0 else 1))

/-- The round keys of a direction: those of its first 32 bytes (R413). -/
def linkKeys (l : Link) (p : Nat) : List (List Nat) := roundKeys (((linkSecret l p).take 32).map (·.toNat))

/-- The IV of the open tag window (R414): the salt, which is the next 4 bytes of the secret, and the window number. -/
def windowIv (l : Link) (p : Nat) : Nat := ofBe (((linkSecret l p).drop 32).take 4) * 2 ^ 64 + l.window % 2 ^ 64

/-- The tag of the open window (R414): over the headers of its flits as additional data and their payloads. -/
def windowTag (l : Link) (p : Nat) : List Byte :=
  gcmTag (linkKeys l p) (windowIv l p) (l.windowData.flatMap (fun f => leBytes 6 f.1)) (l.windowData.flatMap (·.2))

/-- The window closes and its tag is due (R414). -/
def closeWindow (p : Nat) (l : Link) : Link :=
  { l with windowFlits := 0, windowData := [], window := l.window + 1, tagReady := l.tagReady ++ [(l.window, windowTag l p)] }

/-- Count one flit into the open tag window of a sending port, which closes at 2,048 (R414). -/
def countWindow (s : State) (p word : Nat) (text : List Byte) : State :=
  modLink s p (fun l =>
    let l := { l with windowFlits := l.windowFlits + 1, windowData := l.windowData ++ [(word, text)] }
    if l.windowFlits = 2048 then closeWindow p l else l)

/-- Send a flit on a trained port (R408, R414): every flit acknowledges for the opposite link; IDLE and tag flits (`plain`) stay outside the
tag windows (log entry 38). -/
def sendFlit (s : State) (p : Nat) (h : FlitHeader) (payload : List Byte) (plain : Bool := false) : State :=
  let l := getLink s p
  if !l.up then s
  else
    let word := { h with ack := (getLink s (oppositePort p)).rxSeq }.word
    let payload := padTo flitPayload payload
    if plain then emit s (.flit p word payload (flitWire word payload))
    else
      let text := gcmCryptAt (linkKeys l p) (windowIv l p) (flitPayload * l.windowFlits) payload
      emit (countWindow s p word text) (.flit p word payload (flitWire word text))

/-- Send a control flit (R420): TYPE and fields as (bytes, value). -/
def sendControl (s : State) (p : Nat) (fields : List (Nat × Nat)) (plain : Bool := false) : State :=
  sendFlit s p { kind := 4 } (fields.flatMap (fun f => leBytes f.1 f.2)) plain

/-- Fields of a round-start flit (R420). -/
def roundStartFields (verdict layout stretch bucket round rtbStart retired epoch : Nat) : List (Nat × Nat) :=
  [(1, 0x01), (1, verdict), (1, layout), (1, stretch), (1, bucket), (3, 0), (8, round), (8, rtbStart), (8, retired), (8, epoch)]

/-- Fields of a status flit (R420). -/
def statusFields (status position stretch level listed round : Nat) (positions : List Nat) : List (Nat × Nat) :=
  [(1, 0x02), (1, status), (1, position), (1, stretch), (1, level), (1, listed), (2, 0), (8, round)] ++ positions.map (fun p => (2, p))

/-- Fields of a time flit (R420): mode 0 set, 1 probe, 2 echo. -/
def timeFields (mode count stamp : Nat) : List (Nat × Nat) := [(1, 0x03), (1, mode), (6, 0), (8, count), (8, stamp)]

/-- Fields of a tag flit (R414). -/
def tagFields (window : Nat) (tag : List Byte) : List (Nat × Nat) := [(1, 0x04), (8, window)] ++ tag.map (fun b => (1, b.toNat))

/-- Fields of a claim flit (R420). -/
def claimFields (hfSel candidate : Bool) (serial maxRtb hops : Nat) : List (Nat × Nat) :=
  [(1, 0x05), (1, ofBool hfSel), (1, ofBool candidate), (5, 0), (8, serial), (8, maxRtb), (1, hops)]

/-- Credits of a class at a sending port (R412). -/
def Link.credits (l : Link) (cls : Nat) : Nat := if cls = 0 then l.creditsC0 else l.creditsC1

/-- Change the credits of a class. -/
def Link.withCredits (l : Link) (cls n : Nat) : Link := if cls = 0 then { l with creditsC0 := n } else { l with creditsC1 := n }

/-- The CREDIT flit a port sends next (R409, R411, R412): against a credit and a place in the replay buffer; C0 first, but one flit in
four is C1 while C1 is ready. -/
def nextCredit (l : Link) : Option CreditFlit :=
  let ready := fun c => if l.credits c = 0 then none else l.queue.find? (·.cls == c)
  if 512 ≤ l.replay.length then none
  else match ready 0, ready 1 with
    | some a, some b => if l.c0Run < 3 then some a else some b
    | some a, none => some a
    | none, b => b

/-- The ACK, NAK, CREDITS and CCLASS fields that the next flit of the opposite link carries for a receiving port, sent as an IDLE
flit (R408, R410, R412; log entry 38). -/
def sendReturn (s : State) (rx nak credits cls : Nat) : State :=
  sendFlit s (oppositePort rx) { nak := nak, credits := credits, cclass := cls } [] true

/-- Send a CREDIT flit (R408). -/
def sendCredit (s : State) (p seq : Nat) (f : CreditFlit) : State :=
  sendFlit s p { kind := 2 + f.cls, seq := seq, dst := f.dst, first := f.first, last := f.last } f.body

/-- Send one waiting CREDIT flit of a port, if one may go (R411, R412); a forwarded one frees its buffer. -/
def sendNextCredit (s : State) (p : Nat) : State :=
  match nextCredit (getLink s p) with
  | none => s
  | some f =>
    let seq := (getLink s p).txSeq
    let s := modLink s p (fun l =>
      { l.withCredits f.cls (l.credits f.cls - 1) with
        queue := l.queue.erase f, txSeq := (seq + 1) % 4096, replay := l.replay ++ [(seq, 0, f)]
        c0Run := if f.cls = 0 then min 3 (l.c0Run + 1) else 0 })
    let s := sendCredit s p seq f
    match f.came with
    | some q => sendReturn s q 0 1 f.cls
    | none => s

/-- Send every waiting CREDIT flit of a port that may go. -/
def drainCredits (s : State) (p : Nat) : State := forEach (getLink s p).queue (fun s _ => sendNextCredit s p) s

/-- Queue a CREDIT flit at a port. -/
def queueCredit (s : State) (p : Nat) (f : CreditFlit) : State :=
  if (getLink s p).up then drainCredits (modLink s p (fun l => { l with queue := l.queue ++ [f] })) p else s

/-- Send a credit packet to a ring position, in flits of 246 bytes: INBYE to a higher position, OUTBYE to a lower one (R401, R424). -/
def sendPacket (s : State) (cls dst : Nat) (bytes : List Byte) : State :=
  let n := (bytes.length + flitPayload - 1) / flitPayload
  if dst = s.ri.position then s
  else forEach (upTo n) (fun s i =>
    queueCredit s (if s.ri.position < dst then 1 else 3)
      { cls := cls, dst := dst, first := i == 0, last := i + 1 == n, body := (bytes.drop (flitPayload * i)).take flitPayload }) s

/-- Source ID of this device's credit traffic (R424): bit 15, ring position, agent. -/
def creditSource (s : State) (agent : Nat) : Nat := 32768 + 256 * s.ri.position + agent

/-- The 32-byte header of a credit packet (R424). -/
def packetHeader (type src owner len addr tag space : Nat) : List Byte :=
  leBytes 1 type ++ [0] ++ leBytes 2 src ++ [0] ++ leBytes 1 owner ++ leBytes 2 len ++ leBytes 8 addr ++ leBytes 2 tag ++
    padTo 14 (leBytes 1 space)

/-- A list cut into pieces of at most `n` elements, at most `fuel` of them. -/
def pieces {α : Type} (n : Nat) : Nat → List α → List (List α)
  | 0, _ => []
  | fuel + 1, l => if l.length ≤ n then [l] else l.take n :: pieces n fuel (l.drop n)

/-- A C1 message between members' firmware (R424, R434): its kind, words and bytes in the model's own form (log entry 21), in message
packets of 4,096 bytes whose request tag counts the packets still to come. -/
def sendMessage (s : State) (dst kind : Nat) (words : List Nat) (data : List Byte := []) : State :=
  let body := leBytes 8 kind ++ leBytes 8 words.length ++ words.flatMap (leBytes 8) ++ data
  let ps := pieces 4096 body.length body
  forEach (upTo ps.length) (fun s i =>
    let b := ps.getD i []
    sendPacket s 1 dst (packetHeader 4 (creditSource s 0) 0 b.length 0 (ps.length - 1 - i) 2 ++ b)) s

/-- A message to every other member. -/
def broadcast (s : State) (kind : Nat) (words : List Nat) (data : List Byte := []) : State :=
  if s.ri.valid then
    forEach (upTo s.ri.count) (fun s p => if p = s.ri.position then s else sendMessage s p kind words data) s
  else s

/-- Send `n` bytes of an image to a ring position as C0 image packets of 4,096 bytes, addressed by offset (R489, R490). -/
def sendImage (s : State) (dst base n : Nat) : State :=
  forEach (upTo ((n + 4095) / 4096)) (fun s i =>
    let b := memBytes s (base + 4096 * i) (min 4096 (n - 4096 * i))
    sendPacket s 0 dst (packetHeader 5 (creditSource s 0) 0 b.length (4096 * i) 0 0 ++ b)) s

/-- Training fails with a result and is repeated after 1 s (R426, R437, R625). -/
def trainFail (s : State) (result : Nat) : State :=
  { s with ri := { s.ri with state := 5, phase := 0, result := result, retrainAt := some (s.clock + secCycles) } }

/-! ### Events (R39-R46, R641, R502) -/

/-- Fault events of each class (R41): 0x01 everywhere, and those the chapters mark "Fault". -/
def isFaultEvent (cls code : Nat) : Bool :=
  code == 0x01 ||
  [(0x02, 0x0C), (0x02, 0x0D), (0x03, 0x05), (0x03, 0x06), (0x03, 0x07), (0x04, 0x06), (0x04, 0x07),
   (0x06, 0x09), (0x06, 0x0B), (0x07, 0x0B), (0x07, 0x0E), (0x07, 0x14), (0x08, 0x04), (0x08, 0x08),
   (0x0A, 0x04), (0x0B, 0x05), (0x09, 0x04), (0x09, 0x05), (0x0C, 0x07), (0x0C, 0x0A), (0x0C, 0x0E), (0x0C, 0x0F), (0x0D, 0x11),
   (0x0D, 0x12), (0x0D, 0x13), (0x0D, 0x14), (0x0D, 0x15), (0x0D, 0x16), (0x0D, 0x17), (0x0D, 0x18), (0x0D, 0x19), (0x0D, 0x1A),
   (0x0D, 0x20), (0x0D, 0x31)].contains (cls, code)

/-- EVT_STATUS bit of a block code (R40). -/
def evtBit (code : Nat) : Nat := if 1 ≤ code ∧ code ≤ 0x1F then code - 1 else 31

/-- The 32 bytes of a sump record (R43). -/
def sumpRecord (time : Nat) (page code seq : Nat) (inf : List Byte) : List Byte :=
  leBytes 8 time ++ leBytes 4 (pageId page) ++ leBytes 2 (pageClass page * 256 + code) ++ leBytes 2 seq ++ padTo 16 inf

/-- ALERT# is asserted while the queue holds an undelivered fault event (R502, R604). -/
def updateAlert (s : State) : State :=
  { s with pins := { s.pins with alert := s.mgmt.queue.any (fun e => e.2.2.1) } }

/-- Queue one event for management (R502): dropped and counted when 128 entries are held. -/
def mgmtEnqueue (s : State) (cls : Nat) (data : List Byte) (isFault : Bool) : State :=
  if s.mgmt.queue.length < 128 then
    updateAlert { s with mgmt := { s.mgmt with queue := s.mgmt.queue ++ [(cls, data, isFault, false)] } }
  else { s with mgmt := { s.mgmt with dropped := s.mgmt.dropped + 1 } }

/-- After an entry of the queue became free: one event of class 0xF1 delivers the count of dropped events (R502). -/
def mgmtFreed (s : State) : State :=
  if s.mgmt.dropped = 0 ∨ 128 ≤ s.mgmt.queue.length then updateAlert s
  else updateAlert
    { s with mgmt := { s.mgmt with
        queue := s.mgmt.queue ++ [(0xF1, leBytes 4 s.mgmt.dropped, false, false)], dropped := 0 } }

/-- Capacity of the sump in records (R45). -/
def sumpCapacity (s : State) : Nat := 2 ^ s.power.sumpLog

/-- A port's link is down for less than 100 ms, which only delays DMA (R468). -/
def linkWaits (s : State) (p : Bool) : Bool := (if p then s.power.linkLossB else s.power.linkLossA).isSome

/-- The event vector of a port's PF0 is signalled (R25, R459): its link is operational or only delays DMA, PF0 may issue DMA and is not
frozen. -/
def notifyPf0 (s : State) (p : Bool) : State :=
  let f := getFn s p 0
  if ((getHp s p).up && !(getHp s p).diag || !(getHp s p).up && linkWaits s p) && f.busMaster && !f.inReset
      && !s.frozen.any (fun z => z.kind == 1 && z.master == (if p then 32 else 0)) then
    hostSend s p (.msix p 0 0)
  else s

/-- Notify a host of an event (R25): MSI-X vector 0 of PF0 of the owning port, or of both ports (R459). A frozen PF0, one in reset
or without bus mastering issues no DMA (R452, R467, R468). The event of a member without a host link goes to the headframe as a message
(R434). -/
def notifyHost (s : State) (page : Nat) : State :=
  let h := getHdr s page
  if s.ri.valid ∧ s.ri.position ≠ 0 ∧ !s.hpA.up ∧ !s.hpB.up then sendMessage s 0 0x4A [page]
  else if h.ownerValid then notifyPf0 s h.ownerPort else notifyPf0 (notifyPf0 s false) true

/-- Pages whose blocks live in the AUX domain: the deputy's (R35, R632). -/
def pagePowered (s : State) (page : Nat) : Bool := mainPower s || page == pgDp

/-- A record of the sump still in the SCLK cycle that wrote it: page key, code, TIME, FORCED, INFO (R43, R46). -/
abbrev SumpEntry := Nat × Nat × Nat × Bool × List Byte

/-- The records of the SCLK cycle in progress (R46): those of an earlier cycle stand as they are. -/
def sumpBatch (s : State) : List SumpEntry := if s.power.sumpCycle = s.clock / 4 then s.power.sumpBatch else []

/-- The records of a cycle with one more, in ascending PAGE_ID order and with the TIME of the first (R46). -/
def sumpInsert (batch : List SumpEntry) (e : SumpEntry) : List SumpEntry :=
  let e := match batch with
    | [] => e
    | f :: _ => (e.1, e.2.1, f.2.2.1, e.2.2.2)
  batch.filter (fun x => decide (pageId x.1 ≤ pageId e.1)) ++ [e] ++ batch.filter (fun x => decide (pageId e.1 < pageId x.1))

/-- Number of the first record of the SCLK cycle in progress: the 32-bit head may have wrapped since (R45, R46). -/
def sumpFirst (s : State) : Nat := (s.power.sumpHead - BitVec.ofNat 32 (sumpBatch s).length).toNat

/-- Sequence number that an entry takes in a cycle's records (R46). -/
def sumpSeq (s : State) (page : Nat) : Nat :=
  sumpFirst s + ((sumpBatch s).filter (fun x => decide (pageId x.1 ≤ pageId page))).length

/-- Write one record (R43, R46): the records of the SCLK cycle in progress stand in ascending PAGE_ID order, then the head advances. A record that
falls in a poisoned word is lost, and event 0x04 follows in the next cycle (R387; log entry 84). -/
def sumpWrite (s : State) (page code : Nat) (forced : Bool) (inf : List Byte) : State :=
  let batch := sumpInsert (sumpBatch s) (page, code, rtb s, forced, inf)
  let first := sumpFirst s
  let s := forEach (indexed batch) (fun s e =>
    let a := s.power.sumpBase.toNat + 32 * ((first + e.1) % sumpCapacity s)
    let s := if s.ms.poisoned.contains (a / 64) ∧ !s.ms.lost.contains (a / 64) then { s with ms := { s.ms with lost := s.ms.lost ++ [a / 64] } } else s
    mergeWord s 0 (a / 64) (a % 64, sumpRecord e.2.2.2.1 e.2.1 e.2.2.1 (ofBool e.2.2.2.2.1 * 32768 + (first + e.1) % 32768) e.2.2.2.2.2)) s
  { s with power := { s.power with sumpHead := s.power.sumpHead + 1, sumpBatch := batch, sumpCycle := s.clock / 4 } }

/-- Raise an event (R39-R46, R641): set EVT_STATUS where the page is powered; while the sump exists, an enabled or fault event
writes one record at the head, which then advances, and an enabled one is notified along EVT_ROUTE; management gets it if routed
there or if it is a fault event. Where no record is written the SEQ that management is given is a free value (log entry 60). -/
def raiseEvent (s : State) (page code : Nat) (inf : List Byte) (forced : Bool := false) : State :=
  let h := getHdr s page
  let enabled := h.evtEnable.getLsbD (evtBit code)
  let fault := isFaultEvent (pageClass page) code
  let s := if pagePowered s page then
      modHdr s page (fun h => h.noteEvent (sclk s) (!forced) (BitVec.ofNat 32 (2 ^ evtBit code))) else s
  let recorded := s.power.sumpExists && (enabled || fault)
  let seqLow := if recorded then sumpSeq s page % 32768 else Config.freeNat s.free % 32768
  let s := if recorded then s else { s with free := s.free + 1 }
  let data := sumpRecord (rtb s) page code (ofBool forced * 32768 + seqLow) inf
  let s := if recorded then sumpWrite s page code forced inf else s
  let s := if recorded && enabled && h.routeHost then notifyHost s page else s
  if fault || (enabled && h.routeMgmt) then mgmtEnqueue s 0xF0 data fault else s

/-! ### Freeze (R47) -/

/-- A master is frozen. -/
def isFrozen (s : State) (kind master : Nat) : Bool := s.frozen.any (fun z => z.kind == kind && z.master == master)
/-- A correction core is frozen. -/
def coreFrozen (s : State) (c : Nat) : Bool := isFrozen s 3 c
/-- MASTER of a function (R47): [5] port, [4:0] function. -/
def fnMaster (port : Bool) (fn : Nat) : Nat := (if port then 32 else 0) + fn
/-- A function is frozen. -/
def fnFrozen (s : State) (port : Bool) (fn : Nat) : Bool := isFrozen s 1 (fnMaster port fn)
/-- PAGE_STATUS.FROZEN of a page: at least one of its masters is frozen (R23). -/
def pageFrozen (s : State) (page : Nat) : Bool := s.frozen.any (fun z => z.page == page)

/-- Freeze a master (R47): mark it frozen, record the violation or count it in EXTRA, raise event 0x01. -/
def freeze (s : State) (page kind master code addr : Nat) : State :=
  let h := getHdr s page
  let entry : Frozen :=
    { page := page, kind := kind, master := master, code := BitVec.ofNat 16 code, addr := BitVec.ofNat 64 addr, cycle := sclk s
      port := if kind = 1 then some (32 ≤ master : Bool) else if h.ownerValid then some h.ownerPort else none }
  let s := if isFrozen s kind master then s else { s with frozen := s.frozen ++ [entry] }
  let s := modHdr s page (fun h =>
    if h.faultValid then { h with faultExtra := min 255 (h.faultExtra + 1) }
    else { h with faultValid := true, faultCode := BitVec.ofNat 16 code, faultExtra := 0, faultKind := kind,
                  faultMaster := BitVec.ofNat 16 master, faultAddr := BitVec.ofNat 64 addr })
  let h := getHdr s page
  raiseEvent s page 0x01
    (info [(4, ofBool h.faultValid * 2 ^ 31 + h.faultCode.toNat),
           (4, field 24 8 h.faultExtra + field 20 4 h.faultKind + h.faultMaster.toNat), (8, h.faultAddr.toNat)])

/-- The device reports FAULT for the round, and the position in execution does for a cause: 1 freeze, 2 unposted consumer (R295, R311).
With no beat in execution no rule gives the position index of the event: it is a free value (log entry 37). -/
def posFault (s : State) (cause : Nat) : State :=
  if s.sq.live.isNone ∧ s.sq.planSet.isSome then
    let d := draw s
    { d.2 with sq := { d.2.sq with faulted := true, faultPos := d.2.sq.faultPos ++ [(d.1, cause, d.2.sq.beatCount.toNat % 2 ^ 32)] } }
  else
  { s with sq := { s.sq with
      faulted := true, live := s.sq.live.map (fun l => { l with fault := if l.fault = 2 then 2 else cause }) } }

/-- A core that freezes while a drive fetch from it is under way (R271): the source drives code 0 in every shot of the beat. -/
def zeroFetches (s : State) (c : Nat) : State :=
  match s.sq.live with
  | none => s
  | some b =>
    let hit := (s.sq.driveFetch.filter (fun f => f.1 == c && decide (b.cycle / 2 < f.2.2.2))).map (fun f => (f.2.1, f.2.2.1))
    { s with sq := { s.sq with driveZero := hit ++ s.sq.driveZero } }

/-- Freeze a correction core with a code of class 0x0D (R47). -/
def freezeCore (s : State) (c code addr : Nat) : State := posFault (zeroFetches (freeze s (pgCc c) 3 c (0x0D00 + code) addr) c) 1

/-! ### Host commands: completion entries (R456-R463) -/

/-- Depth of a pair's completion queue. -/
def cqDepth (q : Qp) : Nat := 2 ^ q.cqLog
/-- Depth of a pair's submission queue. -/
def sqDepth (q : Qp) : Nat := 2 ^ q.sqLog
/-- Completion entries that are neither unread nor reserved (R460). -/
def cqFree (q : Qp) : Nat := cqDepth q - (q.cqTail - q.cqHead) - q.reserved

/-- A function may issue DMA: it is not frozen, not in reset and masters the bus (R452, R467, R468). -/
def fnDma (s : State) (port : Bool) (fn : Nat) : Bool :=
  !fnFrozen s port fn && !(getFn s port fn).inReset && (getFn s port fn).busMaster

/-- Put a pair in ERROR and raise QP_ERROR (R456, R480). -/
def qpError (s : State) (port : Bool) (pair cause : Nat) : State :=
  let s := modQp s port pair (fun q => { q with state := 2, cause := cause })
  raiseEvent s (pgHp port) 0x08 (info [(1, pair), (1, (getQp s port pair).fn), (1, cause)])

/-- Signal a pair's vector unless it has already signalled since the last DB_COMPL_HEAD write (R459). -/
def qpSignal (s : State) (port : Bool) (pair : Nat) : State :=
  let q := getQp s port pair
  if q.signalled then s
  else hostSend (modQp s port pair (fun q => { q with signalled := true, signalAt := none })) port (.msix port q.fn q.vector)

/-- Write one completion entry (R458): `head` is bytes 0-1, `status` bytes 4-5, `kind` byte 6, `result` bytes 8-31. It is then
signalled at once, or after the coalescing delay, or at half the queue (R459). -/
def writeEntry (s : State) (port : Bool) (pair head status kind : Nat) (result : List Byte) : State :=
  let q := getQp s port pair
  let phase := if q.cqTail / cqDepth q % 2 = 0 then 1 else 0
  let e := leBytes 2 head ++ leBytes 2 q.sqHead ++ leBytes 2 status ++ leBytes 1 kind ++ leBytes 1 phase ++ padTo 24 result
  let s := hostSend s port (.completion port pair (q.cqTail % cqDepth q) e)
  let s := modQp s port pair (fun q => { q with cqTail := q.cqTail + 1 })
  let q := getQp s port pair
  if q.signalled then s
  else if q.coalesce = 0 ∨ cqDepth q ≤ 2 * (q.cqTail - q.cqHead) then qpSignal s port pair
  else if q.signalAt.isSome then s
  else modQp s port pair (fun q => { q with signalAt := some (s.clock + q.coalesce * usCycles) })

/-- TOKEN_DROP (R460, R480): stream, entries dropped, cause. -/
def tokenDrop (s : State) (port : Bool) (stream cause : Nat) : State :=
  raiseEvent s (pgHp port) 0x0A (info [(2, stream), (4, 1), (1, cause)])

/-- A function as the headframe numbers it: its own by their number, those of ring position p from 32 (p + 1) on (R339, R433). -/
def fnKey (i : Issuer) : Nat := if i.origin = 0xFF then i.fn.toNat else 32 * (i.origin.toNat + 1) + i.fn.toNat

/-- The fetched record of a command, if its pair still holds it (R460). -/
def findFetched (s : State) (i : Issuer) : Option Fetched :=
  (getHp s i.port).fetched.find? (fun f => f.pair == i.pairKey && f.cid == i.cid.toNat && f.fn == i.fn.toNat)

/-- SCLK cycle in which a command was fetched (R348). -/
def fetchTime (s : State) (i : Issuer) : Nat := ((findFetched s i).map (·.fetchedAt)).getD (sclkRtb s)

/-- The issuer of a fetched command. -/
def issuerOf (port : Bool) (f : Fetched) : Issuer :=
  { port := port, fn := BitVec.ofNat 5 f.fn, pair := BitVec.ofNat 8 f.pair, cid := BitVec.ofNat 16 f.cid
    origin := if f.pair < 256 then 0xFF else BitVec.ofNat 8 (f.pair / 256 - 1) }

/-! ### Host read requests (R449) -/

/-- The completion buffer of a port (R449). -/
def readBuffer : Nat := 262144

/-- Read data outstanding towards the host of a port, of commands and of resumes of its streams (R449). -/
def hostReadsOut (s : State) (port : Bool) : Nat :=
  ((getHp s port).fetched.map (·.issued)).foldl (· + ·) 0 +
    (s.streams.map (fun e => match e.2 with | some t => if t.port = port then t.issued else 0 | none => 0)).foldl (· + ·) 0

/-- The command reads host memory through this port and has asked for nothing yet (R449, R461). -/
def waitsToRead (s : State) (port : Bool) (f : Fetched) : Bool :=
  f.inEffect && !f.dropped && f.opcode == 0x22 && decide (f.pair < 256) && f.issued == 0 && fnDma s port f.fn

/-- Read requests go out as far as their data fits the completion buffer, commands in order of fetch, then resumes (R449). -/
def issueReads (s : State) (port : Bool) : State :=
  let s := forEach (getHp s port).fetched (fun s f =>
    if waitsToRead s port f then
      modHp s port (fun h => { h with fetched := h.fetched.map (fun g =>
        if g = f then { g with issued := min (leAt f.params 16 4) (readBuffer - hostReadsOut s port) } else g) })
    else s) s
  forEach (s.streams.map (·.1)) (fun s sid => modStream s sid (fun t =>
    if t.port = port ∧ t.state = 8 ∧ t.pauseFn < 32 ∧ t.issued = 0 ∧ fnDma s port t.pauseFn then
      { t with issued := min t.imageSize (readBuffer - hostReadsOut s port) } else t)) s

/-- Complete a host command (R458, R463): it leaves the fetched commands and its reserved entry is used. Nothing is written for a
command that is not held as fetched (its function was reset, R467). A forwarded command is answered by a C1 message (log entry 21). The completion is dropped when the pair was deleted or
reconfigured since (R454) or the function is in reset or not bus mastering (R467, R468), and dropped and counted under event 0x0A
when the function is frozen (R452). -/
def complete (s : State) (i : Issuer) (status : Nat) (result : List Byte := []) : State :=
  let p := i.pairKey
  match findFetched s i with
  | none => s
  | some f =>
    let s := modHp s i.port (fun h => { h with
      fetched := h.fetched.eraseP (fun f => f.pair == p && f.cid == i.cid.toNat && f.fn == i.fn.toNat) })
    if 256 ≤ p then
      sendMessage s i.origin.toNat 0x44 [ofBool i.port, i.fn.toNat, i.pair.toNat, i.cid.toNat, status] result
    else if f.cfg ≠ (getQp s i.port p).cfg then s
    else
      let s := modQp s i.port p (fun q => { q with reserved := q.reserved - 1 })
      if fnFrozen s i.port i.fn.toNat then tokenDrop s i.port 0xFFFF 2
      else if (getFn s i.port i.fn.toNat).inReset || !(getFn s i.port i.fn.toNat).busMaster then s
      else writeEntry s i.port p i.cid.toNat status 0 result

/-- The firmware runs: in state RUNNING, and in VERIFY while a staged image is checked (R487, R490, R504). -/
def firmwareRuns (s : State) : Bool := s.cx.state == 3 || (s.cx.state == 2 && decide (4 ≤ s.power.state.code))

/-- A command may take effect: the firmware runs (R481, R483, R493), its pair holds it as fetched with this opcode, and no earlier command of the pair is outstanding if
it carries FENCE (R457, R464). -/
def mayStart (s : State) (i : Issuer) (op : Nat) : Bool :=
  match findFetched s i with
  | none => false
  | some f => firmwareRuns s && f.opcode == op && (!f.fence ||
    !((getHp s i.port).fetched.takeWhile (fun g => g != f)).any
        (fun g => g.pair == f.pair && g.cfg == f.cfg))

/-- A token or notice entry for a pair (R460, R465): dropped and counted if the function is frozen, in reset or not bus mastering;
ERROR with CAUSE 5 if no entry is free. An entry for a pair of another member travels as a C1 message (log entry 21). -/
def deliver (s : State) (port : Bool) (pair stream status kind : Nat) (result : List Byte) : State :=
  let q := getQp s port pair
  if 256 ≤ pair then sendMessage s (pair / 256 - 1) 0x45 [ofBool port, pair % 256, stream, status, kind] result
  else if fnFrozen s port q.fn then tokenDrop s port stream 2
  else if (getFn s port q.fn).inReset || !(getFn s port q.fn).busMaster || q.state == 0 then tokenDrop s port stream 3
  else if q.state ≠ 1 then tokenDrop s port stream 1
  else if cqFree q = 0 then tokenDrop (qpError s port pair 5) port stream 1
  else writeEntry s port pair stream status kind result

end Sys2Proof.Machine
end

