-- ==== Sys2Proof/Machine/Owners.lean ====
section
/-! DEFINITION. Owners, their keys and their streams: what the commands and the resets share (R338-R345, R349, R360-R374, R450,
R467, R497, R525-R530, R640). -/

namespace Sys2Proof.Machine

/-! ### Completion codes of R347 and the transport codes of R463 -/

/-- OK. -/
def stOk : Nat := 0x00
/-- DENIED. -/
def stDenied : Nat := 0x01
/-- BAD_PARAM. -/
def stBadParam : Nat := 0x02
/-- STATE. -/
def stState : Nat := 0x03
/-- NO_OWNER. -/
def stNoOwner : Nat := 0x04
/-- NO_STREAM. -/
def stNoStream : Nat := 0x05
/-- BUSY. -/
def stBusy : Nat := 0x06
/-- POOL_FULL. -/
def stPoolFull : Nat := 0x07
/-- NO_SET. -/
def stNoSet : Nat := 0x08
/-- NO_SPACE. -/
def stNoSpace : Nat := 0x09
/-- EXPIRED. -/
def stExpired : Nat := 0x0A
/-- TAG. -/
def stTag : Nat := 0x0B
/-- MODEL_MISMATCH. -/
def stModelMismatch : Nat := 0x0C
/-- UNKNOWN. -/
def stUnknown : Nat := 0x0D
/-- Transport code BAD_OPCODE. -/
def stBadOpcode : Nat := 0x0101
/-- Transport code NOT_ALLOWED. -/
def stNotAllowed : Nat := 0x0102
/-- Transport code MEM_ACCESS. -/
def stMemAccess : Nat := 0x0103
/-- Transport code MEM_ERROR. -/
def stMemError : Nat := 0x0104
/-- Transport code HOST_DMA. -/
def stHostDma : Nat := 0x0105
/-- Transport code NO_DEVICE. -/
def stNoDevice : Nat := 0x0106
/-- Transport code ABORTED. -/
def stAborted : Nat := 0x0107

/-! ### Who holds an owner -/

/-- The device is the headframe of its ring, or stands alone (R427, R433). -/
def isHeadframe (s : State) : Bool := !s.ri.valid || s.ri.hf

/-- Members of the ring (R439); 1 for a device that stands alone. -/
def ringCount (s : State) : Nat := if s.ri.valid then s.ri.count else 1

/-- This device's ring position; 0 for a device that stands alone (R400, R439). -/
def ownPosition (s : State) : Nat := if s.ri.valid then s.ri.position else 0

/-- A plan set is admitted. -/
def planAdmitted (s : State) : Bool := s.sq.planSet.isSome

/-- Function numbers of a port with their enabled ones: PF0 and the enabled VFs. -/
def fnEnabled (s : State) (port : Bool) (fn : Nat) : Bool :=
  if fn = 0 then s.manifest.hpEnable.getLsbD (if port then 1 else 0) else (getFn s port fn).enabled

/-- A live function is enabled and not in reset (R467); of another member's function the headframe knows what that member has told. -/
def fnLive (s : State) (port : Bool) (fn : Nat) : Bool := (if 32 ≤ fn then fn % 32 == 0 || (getFn s port fn).enabled else fnEnabled s port fn) && !(getFn s port fn).inReset

/-- An owner is bound to a function (R450). Owner 0 is bound to PF0 of each port. -/
def boundTo (s : State) (o : Nat) (port : Bool) (fn : Nat) : Bool :=
  if o = 0 then decide (fn = 0)
  else match getOwner s o with
    | none => false
    | some w => w.bound.contains (port, fn)

/-- The functions bound to an owner, told to every member as C1 messages tell them (R450, R478, R640, log entry 21). -/
def shareOwner (s : State) (o : Nat) : State := match getOwner s o with
  | none => s
  | some w =>
    let home := match w.bound with
      | b :: _ => some b.1
      | [] => w.held
    broadcast s 0x52 ([o, (home.map (fun p => 1 + ofBool p)).getD 0] ++ w.bound.flatMap (fun b => [ofBool b.1, b.2]))

/-- A write into host memory by a function's DMA (R368, R461): one of this device's, or, by a C1 message, another member's. -/
def fnWrite (s : State) (port : Bool) (key addr : Nat) (bytes : List Byte) : State :=
  let p := if key < 32 then 0 else key / 32 - 1
  if p = ownPosition s ∨ (key < 32 ∧ isHeadframe s) then
    (if fnDma s port (key % 32) then hostSend s port (.hostWrite port (key % 32) addr bytes) else s)
  else sendMessage s p 0x48 [ofBool port, key % 32, addr] bytes

/-- A write into host memory for a command, by the DMA of the function that issued it (R461): of this device's own host, or, of a forwarded
command, as that member makes it. -/
def issuerWrite (s : State) (i : Issuer) (addr : Nat) (bytes : List Byte) : State :=
  if i.origin = 0xFF then
    if fnDma s i.port i.fn.toNat then hostSend s i.port (.hostWrite i.port i.fn.toNat addr bytes) else s
  else fnWrite s i.port (fnKey i) addr bytes

/-- Owner IDs in use, ascending. -/
def ownerIds (s : State) : List Nat := (s.owners.filter (fun e => e.2.isSome)).map (·.1)

/-- Stream IDs in use, ascending. -/
def streamIds (s : State) : List Nat := (s.streams.filter (fun e => e.2.isSome)).map (·.1)

/-- The code that refuses a command naming owner `o` from a function (R339, R347, R497), or none; the headframe has already checked a
command that it forwards to a member. -/
def ownerRefusal (s : State) (i : Issuer) (o : Nat) : Option Nat :=
  if i.origin ≠ 0xFF ∧ !isHeadframe s then none
  else if o = 0 then (if i.fn = 0 then none else some stDenied)
  else match getOwner s o with
    | none => some stUnknown
    | some w =>
      if w.keyGone then some stUnknown
      else if w.bound.contains (i.port, fnKey i) then none
      else some stDenied

/-- The stream a command names, or the code that refuses it (R339, R345, R347): a stream of another owner than the one named is DENIED to
a function not bound to its owner, and UNKNOWN under this owner to one that is. -/
def streamOf (s : State) (i : Issuer) (o sid : Nat) : Except Nat Stream :=
  match ownerRefusal s i o with
  | some c => .error c
  | none =>
    match getStream s sid with
    | none => .error stUnknown
    | some t => if t.owner = o then .ok t else .error ((ownerRefusal s i t.owner).getD stUnknown)

/-- Aperture owners naming `o` on a function return to 0 (R475). -/
def dropAperture (s : State) (o : Nat) (port : Bool) (fn : Nat) : State :=
  modFn s port fn (fun f => if f.aptOwner = o then { f with aptOwner := 0 } else f)

/-- Aperture owners naming `o` return to 0 on every function of both ports (R475). -/
def dropApertures (s : State) (o : Nat) : State :=
  forEach [false, true] (fun s p => forEach (upTo 32) (fun s f => dropAperture s o p f) s) s

/-- Every function bound to the owner has an expired heartbeat: it becomes orphaned at the next boundary (R496). -/
def orphanDue (s : State) (o : Nat) : Bool := match getOwner s o with
  | none => false
  | some w => o != 0 && !w.releasing && !w.bound.isEmpty && w.bound.all (fun x => (getFn s x.1 x.2).hbExpired)

/-- This instant is a round boundary or a pass of steps 2 to 4, of at least kind `k` (R291, R360): 0 any, 1 steps 2 to 4 run, 2 accepting
or with no set admitted (log entry 81). -/
def atEdge (s : State) (k : Nat) : Bool := s.sq.edgeAt == some s.clock && decide (k ≤ s.sq.edgeKind)

/-! ### Closing streams (R344, R349, R465) -/

/-- Mark a stream for closing (R349): no new assignment; it becomes CLOSED at step 3 of the next boundary pass once no step of it
is in flight. `how` is Stream.closing. -/
def wantClose (s : State) (sid how : Nat) : State :=
  modStream s sid (fun t => if t.state = 10 ∨ t.closing ≠ 0 then t else { t with closing := how, pausing := false })

/-- Streams of an owner that are not CLOSED. -/
def liveStreamsOf (s : State) (o : Nat) : List Nat :=
  (streamIds s).filter (fun i => match getStream s i with
    | some t => t.owner == o && t.state != 10
    | none => false)

/-- A token the host pool no longer holds (R352). -/
def freePool (s : State) (n : Nat) : State := { s with promptUsed := s.promptUsed - n }

/-- Complete the commands that wait on a stream with kind `k`. -/
def completeWaits (s : State) (sid k status : Nat) (result : List Byte) : State :=
  match getStream s sid with
  | none => s
  | some t =>
    let s := forEach (t.waits.filter (fun w => w.1 == k)) (fun s w => complete s w.2 status result) s
    modStream s sid (fun t => { t with waits := t.waits.filter (fun w => w.1 != k) })

/-- Destroy the pause key of a stream: its table entry is overwritten, on every member (R527). -/
def dropPauseKey (s : State) (sid : Nat) : State :=
  let s' := { s with ke := { s.ke with pauseKeys := tblSet {} s.ke.pauseKeys sid {} } }
  if isHeadframe s ∧ tblGet {} s.ke.pauseKeys sid ≠ {} then broadcast s' 0x55 [sid] else s'

/-- A stream becomes CLOSED at step 3 (R344, R349, R360): its references are queued for release, its pending input leaves the
prompt pool, its pause key and image go, waiting commands complete, and a KIND 2 entry reports a close that its own pair did not
command (R465; the cause byte of a close that R374 does not name is a free value, log entry 20). -/
def finishClose (s : State) (sid : Nat) : State :=
  match getStream s sid with
  | none => s
  | some t =>
    let s := freePool s t.input.length
    let s := dropPauseKey s sid
    let s := modStream s sid (fun t => { t with
      state := 10, input := [], closing := 0, pausing := false, imageSize := 0, issued := 0,
      releases := t.releases ++ t.pages.map (fun e => e.2 - 1) ++ t.copies.map (fun c => c.2.1), pages := [], copies := [],
      attach := [], restoring := false })
    let s := completeWaits s sid 3 stOk []
    let s := completeWaits s sid 1 stState []
    let s := completeWaits s sid 2 stState []
    if t.closing = 1 then s
    else
      let (cause, s) := if t.closing = 2 then draw s else (t.closing - 2, s)
      deliver s t.port t.pair sid (10 + 256 * (cause % 256)) 2 []

/-! ### Destroying an owner's key (R340, R530) -/

/-- Order the destruction of an owner's key (R340, R530): its streams are marked for closing (a key destruction and a release
report their causes, R374), its slot enters DESTROYING, and a C1 message carries the order to every member. `cause` is byte 1 of
event 0x05 of R539. -/
def orderDestroy (s : State) (o cause : Nat) (ownPair : Option (Bool × Nat)) : State :=
  if o = 0 then s
  else
    let live := liveStreamsOf s o
    let reason := if cause = 1 then 3 else 1
    let s := forEach live (fun s sid =>
      match getStream s sid with
      | none => s
      | some t => wantClose s sid
          (if cause = 3 then 1 else if ownPair = some (t.port, t.pair) then 1 else 2 + reason)) s
    let s := modOwner s o (fun w => { w with releasing := true, closedCount := live.length })
    let s := modSlot s o (fun k => { k with state := 3, destroyCause := cause })
    broadcast s 0x41 [o, cause]

/-- Unbind PAGE_OWNER of every page assigned to an owner (R640: at once when its key is destroyed). -/
def dropPageOwner (s : State) (o : Nat) : State :=
  { s with hdrs := tblMap {} (fun _ h => if h.ownerValid && h.ownerId == o
      then { h with ownerValid := false, ownerPort := false, ownerId := 0 } else h) s.hdrs }

/-- Sealed load records of an owner on this device. -/
def loadRecordsOf (s : State) (o : Nat) : Nat := (s.store.loads.filter (fun e => e.2.owner == o)).length

/-- Remove an owner's sealed owner record and load records (R528). -/
def removeSeals (s : State) (o : Nat) : State :=
  { s with store := { s.store with
      seals := tblSet {} s.store.seals o {}
      loads := s.store.loads.filter (fun e => e.2.owner != o) } }

/-- A sealed owner record of the owner exists on this device. -/
def hasSeal (s : State) (o : Nat) : Bool := (s.store.seals.any (fun e => e.1 == o))

/-- Holder of extent `e` (R377): the newest range that covers it. -/
def extentHolder : List (Nat × Nat × Nat) → Nat → Nat
  | [], _ => 0
  | (a, b, h) :: rs, e => if a ≤ e ∧ e < b then h else extentHolder rs e

/-- Extents of `[lo, hi)` held by `h` that hold a poisoned word become poisoned as they are released (R387): holder 258, event 0x08. -/
def fenceExtents (s : State) (lo hi h : Nat) : State :=
  let es := ((s.ms.poisoned.map (· / 64)).filter (fun e => lo ≤ e && e < hi && extentHolder s.ms.extents e == h)).eraseDups
  forEach es (fun s e =>
    raiseEvent { s with ms := { s.ms with extents := (e, e + 1, 258) :: s.ms.extents } } pgMs 0x08
      (info [(8, e * 4096), (1, 2)])) s

/-- Every tile of an owner becomes unbound, its last binding kept (R179, R644). -/
def unbindOwner (s : State) (o : Nat) : State :=
  { s with bindings := tblMap none (fun _ b => b.map (fun b => if b.owner = o then { b with bound := false } else b)) s.bindings }

/-- One member destroys an owner's key (R530): the slot's items and the owner's pause keys are overwritten, its records removed,
the slot freed, its extents freed (R379), PAGE_OWNER and apertures cleared, and event 0x05 raised; the headframe then raises STREAMS_CLOSED and completes
OWNER_RELEASE. -/
def destroyKey (s : State) (o cause : Nat) : State :=
  let pk := (s.ke.pauseKeys.filter (fun e => e.2.owner == o)).length
  let s := { s with ke := { s.ke with pauseKeys := s.ke.pauseKeys.filter (fun e => e.2.owner != o) } }
  let s := modSlot s o (fun k => { generation := k.generation })
  let s := fenceExtents (removeSeals s o) 0 9765625 (1 + o)
  let s := { s with
    ms := { s.ms with extents := s.ms.extents.map (fun e => if e.2.2 = 1 + o then (e.1, e.2.1, 0) else e) }
    loads := s.loads.map (fun l => if l.owner = o then { l with keyGone := true } else l)
    unbinding := o :: s.unbinding.filter (· != o) }
  let s := if s.sq.live.isNone then unbindOwner s o else s
  let s := dropApertures (dropPageOwner s o) o
  let s := raiseEvent s pgKe 0x05 (info [(1, o), (1, cause), (2, pk)])
  match getOwner s o with
  | none => s
  | some w =>
    let s := if w.closedCount = 0 then s
      else raiseEvent s pgSq 0x15 (info [(1, o), (1, if cause = 1 then 3 else 1), (2, w.closedCount)])
    let s := setOwner s o (some { w with keyGone := true, releasing := true, bound := [], held := none, grace := none,
                                         releaseCmd := none })
    match w.releaseCmd with
    | some i => complete s i stOk
    | none => s

/-! ### The boundary steps that keep references (R360 steps 2-4, R361-R366) -/

/-- A frame of this device. -/
def getFrame (s : State) (f : Nat) : Frame := tblGet {} s.ms.frames f
/-- Change a frame of this device. -/
def modFrame (s : State) (f : Nat) (g : Frame → Frame) : State :=
  { s with ms := { s.ms with frames := tblMod {} s.ms.frames f g } }

/-- One more reference to a frame. -/
def addRef (s : State) (f : Nat) : State := modFrame s f (fun r => { r with count := r.count + 1 })

/-- One reference fewer; at 0 the frame takes release epoch E and its prefix entries go (R360 step 3, R364). -/
def dropRef (s : State) (f : Nat) : State :=
  let s := modFrame s f (fun r =>
    if r.count = 1 then { r with count := 0, epoch := s.sq.epoch, released := true } else { r with count := r.count - 1 })
  if (getFrame s f).count = 0 then { s with prefixes := s.prefixes.filter (fun e => e.2.2.1 != f) } else s

/-- Step 2 of one stream: attachments and forks take their references, completed copies are remapped, a restored or resumed
stream returns to the state it held (R360, R362, R365, R366, R372). -/
def stepReferStream (s : State) (sid : Nat) : State :=
  match getStream s sid with
  | none => s
  | some t =>
    let s := forEach t.attach (fun s a => modStream (addRef s a.2) sid
      (fun t => { t with pages := tblSet 0 t.pages a.1 (a.2 + 1) })) s
    let s := forEach (t.copies.filter (fun c => c.2.2)) (fun s c => modStream s sid
      (fun t => { t with releases := t.releases ++ [tblGet 0 t.pages c.1 - 1], pages := tblSet 0 t.pages c.1 (c.2.1 + 1) })) s
    let back := t.restoring
    let s := modStream s sid (fun t => { t with
      attach := [], copies := t.copies.filter (fun c => !c.2.2), restoring := false,
      state := if back then t.heldState else t.state })
    if back then completeWaits s sid 2 stOk [] else s

/-- Step 2: add references, streams in ascending order. -/
def stepRefer (s : State) : State := forEach (streamIds s) stepReferStream s

/-- Step 3 of one stream: a stream wanted closed with no step in flight closes; a completed pause releases its pages and enters
PAUSED_HOST; every queued reference is dropped, and its frame is awaited until it is reclaimed (R341, R349, R360, R369). -/
def stepReleaseStream (s : State) (sid : Nat) : State :=
  match getStream s sid with
  | none => s
  | some t =>
    let s := if t.closing ≠ 0 ∧ !t.inFlight ∧ t.state ≠ 10 then finishClose s sid
      else if t.state = 5 ∧ t.imageDone then
        let s := modStream s sid (fun t => { t with
          state := 6, imageDone := false, pauseStart := s.power.rtb,
          releases := t.releases ++ t.pages.map (fun e => e.2 - 1), pages := [] })
        completeWaits s sid 1 stOk [6]
      else s
    match getStream s sid with
    | none => s
    | some t => modStream (forEach t.releases dropRef s) sid (fun t => { t with releases := [], awaiting := (t.awaiting ++ t.releases).eraseDups })

/-- Step 3: releases, streams in ascending order. -/
def stepRelease (s : State) : State := forEach (streamIds s) stepReleaseStream s

/-- First 64-byte word number of an address. -/
def wordOf (a : Nat) : Nat := a / 64

/-- A range of memory holds a poisoned word. -/
def poisonedIn (s : State) (a n : Nat) : Bool := s.ms.poisoned.any (fun w => wordOf a ≤ w && w < wordOf (a + n + 63))

/-- Free a stream ID whose stream is CLOSED and holds nothing any more, and an owner ID whose key is gone and which holds no
frame (R340, R341). -/
def freeIds (s : State) : State :=
  let s := forEach (streamIds s) (fun s sid => match getStream s sid with
    | some t => if t.state = 10 ∧ t.releases = [] ∧ t.awaiting = [] ∧ !t.inFlight then setStream s sid none else s
    | none => s) s
  forEach (ownerIds s) (fun s o => match getOwner s o with
    | some w => if w.keyGone ∧ !(s.ms.frames.any (fun e => e.2.owner == o && (e.2.count != 0 || e.2.released)))
        ∧ liveStreamsOf s o = [] then setOwner s o none else s
    | none => s) s

end Sys2Proof.Machine
end

