-- ==== Sys2Proof/Machine/Calib.lean ====
section
/-! DEFINITION. Temperatures of groups, the calibration of tiles, and the margin plan: what several families share (R542, R552-R560,
R85, R137). -/

namespace Sys2Proof.Machine

/-! ### Groups and their tiles -/

/-- A group is enabled by its page and by the manifest (R22, R518). -/
def tgEnabled (s : State) (g : Nat) : Bool := (getHdr s (pgTg g)).en && s.manifest.tgEnable.getLsbD g

/-- A core is enabled by its page and by the manifest. -/
def ccEnabled (s : State) (c : Nat) : Bool := (getHdr s (pgCc c)).en && s.manifest.ccEnable.getLsbD c

/-- A tile state that means retired or unavailable: such a tile is not calibrated (R99, R552). -/
def retiredState (st : Nat) : Bool := st == 1 || st == 4 || st == 6

/-- The entries of the tiles of a group that differ from a fresh tile. -/
def tilesOf (s : State) (g : Nat) : List (Nat × Tile) :=
  s.tiles.filter (fun e => decide (g * 1088 ≤ e.1) && decide (e.1 < (g + 1) * 1088))

/-- Tiles of a group that a group calibration covers and that have not yet taken their 24 shots (R552, R553). -/
def uncalibrated (s : State) (g : Nat) : Nat :=
  1088 - ((tilesOf s g).filter (fun e => retiredState e.2.state || e.2.calShots == 24)).length

/-- Relief register `j` of a group (R98). -/
def getRelief (s : State) (g j : Nat) : ReliefReg := tblGet {} (getTg s g).relief j

/-- Physical tile that serves a logical tile, by global index (R53, R81). -/
def physicalOf (s : State) (g l : Nat) : Nat :=
  match (upTo 64).find? (fun j => (getRelief s g j).state == 1 && (getRelief s g j).logical == l) with
  | some j => tileIx g (1024 + j)
  | none => tileIx g l

/-- Free relief tiles of a group (R93). -/
def reliefFree (s : State) (g : Nat) : Nat := 64 - ((getTg s g).relief.filter (fun e => e.2.state != 0)).length

/-- Raise RELIEF_LOW if the free relief tiles of a group have fallen to the reserve (R82). `was` is the number before. -/
def checkReserve (s : State) (g was : Nat) : State :=
  let n := reliefFree s g
  if n < was ∧ n ≤ s.hb.margin.reserve ∧ s.hb.margin.reserve < was then raiseEvent s (pgTg g) 0x09 (info [(1, n)]) else s

/-! ### Temperatures (R540-R542) -/

/-- A sensor. -/
def getSensor (s : State) (k : Nat) : Sensor := tblGet {} s.hb.sensors k

/-- Readings of the valid sensors with indexes in `[lo, lo + n)`. -/
def readings (s : State) (lo n : Nat) : List Int :=
  ((upTo n).map (fun k => getSensor s (lo + k))).filterMap (fun x => if x.valid && !x.failed then some x.temp else none)

/-- Largest element of a list of readings, 0 if there is none. -/
def maxOf : List Int → Int
  | [] => 0
  | x :: xs => xs.foldl max x

/-- Mean of readings rounded to nearest, ties up (log entry 24). -/
def meanOf (l : List Int) : Int := if l.isEmpty then 0 else (2 * l.sum + l.length) / (2 * (l.length : Int))

/-- Temperature of a group in 1/16 °C (R542): the mean of its valid sensors, or with fewer than three the hottest reading of the
adjacent groups plus 5 °C. -/
def groupTemp (s : State) (g : Nat) : Int :=
  let own := readings s (6 * g) 6
  if 3 ≤ own.length then meanOf own
  else
    let near := [g + 1, g + 4] ++ (if 1 ≤ g then [g - 1] else []) ++ (if 4 ≤ g then [g - 4] else [])
    maxOf ((near.filter (· < 64)).flatMap (fun x => readings s (6 * x) 6)) + 80

/-! ### Margins (R559, R560, R583) -/

/-- Clip a value into bounds. -/
def clip (v lo hi : Nat) : Nat := max lo (min hi v)

/-- A margin plan clipped first into the host envelope and then into the manifest's limits (R560). -/
def clipMargin (s : State) (m : Margin) : Margin :=
  let h := s.hb
  let f := s.manifest
  { guard := clip (clip m.guard h.guardLo h.guardHi) f.guardMin f.guardMax
    dtcal := clip (clip m.dtcal h.dtcalLo h.dtcalHi) f.dtcalMin f.dtcalMax
    interval := min (clip m.interval h.intLo h.intHi) f.intervalMax
    derate := min (clip m.derate h.derateLo h.derateHi) f.derateMax
    tol := clip (clip m.tol h.tolLo h.tolHi) f.tolMin f.tolMax
    reserve := max (clip m.reserve h.reserveLo h.reserveHi) f.reserveMin }

/-- HB_MARGIN_PLAN as it reads (R582). -/
def marginWord (s : State) : Nat :=
  field 24 7 s.hb.margin.guard + field 22 2 s.hb.margin.derate + field 17 5 s.hb.margin.tol + field 12 5 s.hb.margin.reserve
    + field 0 12 (min 4095 s.hb.hours)

/-- A margin plan comes into force and is stored (R560), and every group shows its DERATE (R94); a higher reserve may raise RELIEF_LOW. -/
def putMargin (s : State) (m : Margin) : State :=
  let old := s.hb.margin.reserve
  let s := { s with hb := { s.hb with margin := m }, store := { s.store with margin := m } }
  let s := forEach (upTo 64) (fun s g => modTg s g (fun t => { t with derate := m.derate })) s
  forEach (upTo 64) (fun s g =>
    let n := reliefFree s g
    if old < n ∧ n ≤ m.reserve then raiseEvent s (pgTg g) 0x09 (info [(1, n)]) else s) s

/-- Event 0x04 of the health block (R592). -/
def marginEvent (s : State) (cause : Nat) : State :=
  raiseEvent s pgHb 0x04 (info [(4, marginWord s), (2, s.hb.margin.dtcal), (2, s.hb.margin.interval), (1, cause)])

/-! ### Calibration (R552-R556, R137) -/

/-- A power emergency stands: the POWER source is at CRITICAL or TRIP (R545). -/
def powerEmergency (s : State) : Bool := decide (3 ≤ s.dp.lPower)

/-- The device level: the highest of the four sources (R543). -/
def level (s : State) : Nat := max (max s.dp.lArray s.dp.lStack) (max s.dp.lOptics s.dp.lPower)

/-- Clear what a tile gathered for a calibration. -/
def Tile.clearCal (t : Tile) : Tile :=
  { t with calShots := 0, calZsum := 0, calZero := [], calZeroN := 0, calU := 0, calV := 0 }

/-- A group calibration starts (R552): a group that is disabled or already calibrating starts none (R555). -/
def startCal (s : State) (g cause : Nat) : State :=
  if !tgEnabled s g || (getTg s g).calActive then s
  else
    let temp := groupTemp s g
    let s := { s with tiles := tblMap {} (fun i t => if g * 1088 ≤ i ∧ i < (g + 1) * 1088 then
                { t.clearCal with calPend := !retiredState t.state } else t) s.tiles }
    modTg s g (fun t => { t with calActive := true, calDue := true, calCause := cause, calDueAt := s.clock, calLate := false
                                 calStartTemp := temp })

/-- One tile's calibration becomes due (R136, R140, R175). -/
def startTileCal (s : State) (i : Nat) : State :=
  let s := modTile s i (fun t => { t.clearCal with calibrating := true, calPend := true })
  modTg s (i / 1088) (fun t => if t.calDue then t else { t with calDue := true, calDueAt := s.clock, calLate := false })

/-- The GAIN field for a factor (R135, R137). -/
def gainWord (x : Word32) : BitVec 16 := BitVec.ofInt 16 (toIntClamp (ofF32 (fMul 0x46800000 x)) 1 65535)
/-- The OFFSET field for an FP32 offset. -/
def offsetWord (x : Word32) : BitVec 16 := BitVec.ofInt 16 (toIntClamp (ofF32 x) (-32768) 32767)

/-- The trims, taps and summaries of a completed calibration take effect (R85, R554, R557). -/
def applyTrimSet (t : Tile) : Tile :=
  match t.trimNew with
  | none => t
  | some v =>
    let f := fun k => v.getD k 0
    { t with
      trimLo := f 0, trimHi := f 1, taps := BitVec.ofNat 8 (f 2), inlMax := BitVec.ofNat 16 (f 3), gainSpread := BitVec.ofNat 16 (f 4)
      trimSteps := min 0xFFFFFFFF (t.trimSteps + f 5), gammaDrift := BitVec.ofNat 32 (f 6), trimNew := none }

/-- New baselines take effect for a tile at a boundary (R137): the filters restart from them, the estimate word is written, and the
trims of the same calibration are applied with them (R85). A calibration that came due since stays pending (R99). Any completed calibration ends the tile's calibration interval for R140 (log
entry 70). -/
def applyBaselines (s : State) (i : Nat) (b : List Word32) : State :=
  let g := b.getD 0 0
  let o := b.getD 1 0
  let y := b.getD 2 0
  let w := b.getD 3 0
  let s := modTile s i (fun t => { t with
    gCal := g, oCal := o, gammaCal := y, omegaCal := w, gBar := y, oBar := w
    gain := gainWord g, offset := offsetWord o, estRtb := s.power.rtb.setWidth 32
    accZ := 0, nZ := 0, accU := 0, accV := 0, nG := 0, holdG := 0, holdO := 0, persist := 0, calNew := none })
  modTile s i applyTrimSet

/-- Apply the calibrations of a group that wait for the boundary, all its tiles together (R85). -/
def applyTrims (s : State) (g : Nat) : State :=
  forEach (tilesOf s g) (fun s e => match e.2.calNew with
    | some b => applyBaselines s e.1 b
    | none => s) s

/-- Mark a converter dead (R554, R556, R139) and raise CONV_DEAD. -/
def convDead (s : State) (i conv detection : Nat) : State :=
  if (getTile s i).dead.getLsbD conv then s
  else
    let s := modTile s i (fun t => { t with dead := t.dead ||| BitVec.ofNat 65 (2 ^ conv) })
    raiseEvent (modTile s i (fun t => { t with retireAsked := true })) (pgTg (i / 1088)) 0x07
      (info [(2, i % 1088), (1, conv), (1, detection)])

/-- The mean ZERO-shot code of the converters that are not dead, times 16, as FP32 (R553): each of the four shots gives 8 codes a
converter; 0 if no converter remains. -/
def zeroMean (t : Tile) : Word32 :=
  let live := (upTo 64).filter (fun c => !t.dead.getLsbD c)
  let n := 8 * t.calZeroN * live.length
  if n = 0 then zero32 else ratF32 (16 * (live.map (fun c => tblGet 0 t.calZero c)).sum) n

/-- A tile's calibration is complete (R553, R557): the baselines are formed from its shots; the converters' factors and the
summaries of trims and taps are analogue results and so free values (log entry 25). They take effect at the boundary, or at once
while no plan set is admitted (R85, R554). -/
def finishTileCal (s : State) (i : Nat) : State :=
  let t := getTile s i
  let f := fun k => Config.freeNat (s.free + k)
  let gamma := if t.calV = 0 then one32 else ratF32 (15 * t.calU) t.calV
  let o := zeroMean t
  let w := ratF32 t.calZsum 16
  let g := fDiv (BitVec.ofNat 32 (f 0)) gamma
  let temp := groupTemp s (i / 1088)
  let s := modTile s i (fun t => { t with
    calNew := some [g, o, gamma, w], trimNew := some [f 1 % 64, f 2 % 64, f 3, f 4, f 5, f 6, f 7]
    calibrating := false, calShots := 0, calPend := false
    last := s.power.rtb, calTemp := temp, calCount := min 65535 (t.calCount + 1) })
  let s := { s with free := s.free + 8 }
  if planAdmitted s then s
  else match (getTile s i).calNew with
    | some b => applyBaselines s i b
    | none => s

/-- Shots may be taken at all: calibration has been reached, and no plan-independent stop stands (R551, R623). -/
def calAllowed (s : State) : Bool := decide (6 ≤ s.power.state.code) && s.cx.state != 5

/-- Calibration shots are being taken in a group (R93): a group calibration or a tile's own is in progress in an enabled group (R21), shots
are allowed, and no power emergency stands, under which none is taken (R555). -/
def calShooting (s : State) (g : Nat) : Bool :=
  calAllowed s && tgEnabled s g && !powerEmergency s && ((getTg s g).calActive || (tilesOf s g).any (fun e => e.2.calibrating))

/-- CAL_DUE after a tile's calibration ended or was given up (R93): a calibration is due in the group while one is not complete. -/
def recheckDue (s : State) (g : Nat) : State :=
  modTg s g (fun t => { t with calDue := t.calActive || (tilesOf s g).any (fun e => e.2.calibrating) })

/-- Physical tiles of a group in ascending order. -/
def groupTiles (g : Nat) : List Nat := (upTo 1088).map (fun t => g * 1088 + t)

/-- Insert into a rising list. -/
def insertInt (x : Int) : List Int → List Int
  | [] => [x]
  | y :: ys => if x ≤ y then x :: y :: ys else y :: insertInt x ys

/-- The listed tiles of enabled groups in one of the given states (R99). -/
def tilesIn (s : State) (states : List Nat) : List Tile :=
  (s.tiles.filter (fun e => tgEnabled s (e.1 / 1088) && states.contains e.2.state)).map (·.2)

/-- Tiles of enabled groups that no change has listed: working tiles in service, with nothing measured. -/
def untouchedTiles (s : State) : Nat :=
  1024 * ((upTo 64).filter (tgEnabled s)).length -
    (s.tiles.filter (fun e => tgEnabled s (e.1 / 1088) && decide (e.1 % 1088 < 1024))).length

/-- Trim drift (R558): the mean of TRIM_STEPS over working tiles in service, per 1,000 of the mean powered hours since their programming (log
entry 92). -/
def trimDriftNow (s : State) : Nat :=
  let ts := tilesIn s [0]
  let hours := untouchedTiles s * s.hb.poweredHours + (ts.map (fun t => s.hb.poweredHours - t.progHours)).sum
  1000 * (ts.map (·.trimSteps)).sum / max 1 hours

/-- Magnitude of an FP32 value in units of 2^-149; infinities and NaN lie above every finite value. -/
def magnitude149 (x : Word32) : Nat :=
  let e := bits x.toNat 23 8
  if e = 0 then bits x.toNat 0 23 else (bits x.toNat 0 23 + 2 ^ 23) * 2 ^ (e - 1)

/-- Canary drift (R558) in hundredths of a per cent: the median of |GAMMA_DRIFT| over tiles in service. -/
def canaryDriftNow (s : State) : Nat :=
  let l := ((tilesIn s [0, 3]).map (fun t => (magnitude149 t.gammaDrift : Int))).foldr insertInt []
  let z := untouchedTiles s
  let n := z + l.length
  let nth := fun k => if k < z then 0 else (l.getD (k - z) 0).toNat
  let m2 := if n % 2 = 1 then 2 * nth (n / 2) else nth (n / 2 - 1) + nth (n / 2)
  m2 * 10000 / 2 ^ 150

/-- The ageing measures that each group calibration updates (R558). -/
def noteDrift (s : State) : State := { s with hb := { s.hb with trimDrift := trimDriftNow s, canaryDrift := canaryDriftNow s } }

/-- A group calibration completes (R555): counts, time and temperature are recorded and CAL_DONE raised; if the temperature moved
beyond ΔT_cal meanwhile, another one begins at once. -/
def finishGroupCal (s : State) (g : Nat) : State :=
  let cause := (getTg s g).calCause
  let temp := groupTemp s g
  let s := forEach ((groupTiles g).filter (fun i => !retiredState (getTile s i).state)) finishTileCal s
  let s := modTg s g (fun t => { t with
    calActive := false, calDue := false, calCount := min 0xFFFFFFFF (t.calCount + 1), calLast := s.power.rtb, lastCalTemp := temp })
  let s := noteDrift { s with hb := { s.hb with calCount := min 0xFFFFFFFF (s.hb.calCount + 1), calLast := s.power.rtb } }
  let s := raiseEvent s (pgTg g) 0x05 (info [(4, (getTg s g).calCount), (1, cause)])
  let t := getTg s g
  if 10 * (temp - t.calStartTemp).natAbs > 16 * s.hb.margin.dtcal then startCal s g 1 else s

/-- Converter self-calibration starts on every enabled group (R556). -/
def startSelfcal (s : State) : State := { s with hb := { s.hb with selfcal := true } }

/-! ### Program cycles and the erase pattern (R171, R172, R182) -/

/-- One program cycle of a tile is counted; at 90,000 its group raises event 0x10 (R182, R184). -/
def countCycle (s : State) (i : Nat) : State :=
  let s := modTile s i (fun t => { t with cycles := t.cycles + 1, trimSteps := 0 })
  let n := (getTile s i).cycles
  if n = 90000 then raiseEvent s (pgTg (i / 1088)) 0x10 (info [(2, i % 1088), (4, n)]) else s

/-- The erase pattern is written into a tile (R172): one program cycle. -/
def eraseTile (s : State) (i : Nat) : State :=
  countCycle (modTile s i (fun t => { t with cells := [], keyMap := 0, sigmaG := 0, ready := false, programming := false
                                             settleEnd := none })) i

/-- Set a relief register and the state of its tile (R98, R99). -/
def setRelief (s : State) (g j : Nat) (r : ReliefReg) (tileState : Nat) : State :=
  let r := { r with seam := r.seam && r.state == 1 }
  let s := modTg s g (fun t => { t with relief := tblSet {} t.relief j r })
  let kept := if r.state = 3 then (0, false, 0) else (r.state, r.seam, r.logical)
  let s := { s with store := { s.store with reliefs := tblSet (0, false, 0) s.store.reliefs (g * 64 + j) kept } }
  modTile s (tileIx g (1024 + j)) (fun t => { t with state := tileState })

/-! ### Assays end (R566-R568, R584, R585) -/

/-- PROG is shown while a tile of the group is programming (R93). -/
def showProg (s : State) (g : Nat) : State := modTg s g (fun t => { t with prog := s.jobs.any (fun j => j.phase == 1 && j.tile / 1088 == g) })

/-- A relief tile that an assay held is to be erased and then freed: a job of kind 7 waits to write the erase pattern under the limits of
R166 (R172, R566). -/
def freeHeld (s : State) (i : Nat) : State :=
  let s := modTile s i (fun t => { t.clearCal with
    ready := false, programming := false, calibrating := false, calPend := false, settleEnd := none })
  let s := recheckDue s (i / 1088)
  showProg { s with jobs := s.jobs.filter (fun j => j.tile != i) ++ [{ kind := 7, group := i / 1088, logical := 0xFFFF, tile := i }] } (i / 1088)

/-- The assay ends with a code (R585). -/
def setAssayResult (s : State) (code exceed checked : Nat) : State :=
  { s with hb := { s.hb with assayState := 2, assayCode := code, assayExceed := min 255 exceed
                             assayChecked := min 65535 checked, assay := none } }

/-- The running assay ends with a code; a relief tile it took is erased and freed. -/
def endAssay (s : State) (code exceed checked : Nat) : State :=
  match s.hb.assay with
  | none => s
  | some a =>
    let s := match a.heldTile with
      | some i => freeHeld s i
      | none => s
    setAssayResult s code exceed checked

/-- HB_ASSAY_STATUS (R585). -/
def assayStatus (s : State) : Nat :=
  field 28 4 s.hb.assayState + field 24 4 s.hb.assayCode + field 16 8 s.hb.assayExceed + field 0 16 s.hb.assayChecked

/-- The record and the event of an assay that has completed (R568): the 64 latest records stay. -/
def reportAssay (s : State) (a : Assay) (fail : Bool) : State :=
  let s := { s with store := { s.store with
    assays := (s.store.assays ++ [(rtb s, assayStatus s)]).drop (s.store.assays.length + 1 - 64) } }
  let body := [(1, a.kind), (1, a.unit), (2, a.tile), (4, assayStatus s)]
  if fail then raiseEvent s pgHb 0x06 (info (body ++ [(1, ofBool a.retire)])) else raiseEvent s pgHb 0x05 (info body)

end Sys2Proof.Machine
end

