-- ==== Sys2Proof/Machine/Operands.lean ====
section
/-! DEFINITION. The instruction word of a correction core, its operands and element formats (R221, R224-R226, R101-R108). -/

namespace Sys2Proof.Machine

/-! ### The word (R224) -/

/-- OP. -/
def wOp (w : BitVec 64) : Nat := bits w.toNat 56 8
/-- D. -/
def wD (w : BitVec 64) : Nat := bits w.toNat 51 5
/-- A. -/
def wA (w : BitVec 64) : Nat := bits w.toNat 46 5
/-- B. -/
def wB (w : BitVec 64) : Nat := bits w.toNat 41 5
/-- C. -/
def wC (w : BitVec 64) : Nat := bits w.toNat 36 5
/-- M. -/
def wM (w : BitVec 64) : Nat := bits w.toNat 32 4
/-- IMM as 32 bits. -/
def wImm (w : BitVec 64) : Nat := bits w.toNat 0 32
/-- IMM sign-extended to 64 bits. -/
def wSimm (w : BitVec 64) : BitVec 64 := BitVec.ofInt 64 (signed 32 (wImm w))

/-- The instruction word of an opcode and its fields. -/
def mkWord (op : Nat) (d a b c : BitVec 5) (m : BitVec 4) (imm : BitVec 32) : BitVec 64 :=
  BitVec.ofNat 64 (field 56 8 op + field 51 5 d.toNat + field 46 5 a.toNat + field 41 5 b.toNat + field 36 5 c.toNat
    + field 32 4 m.toNat + imm.toNat)

/-- Fields an opcode uses: D, A, B, C, M, IMM (R225, R231-R251); none for an undefined opcode. -/
def fieldsUsed (op : Nat) : Option (Bool × Bool × Bool × Bool × Bool × Bool) :=
  match op with
  | 0x00 | 0x01 | 0x09 | 0x0E => some (false, false, false, false, false, false)
  | 0x02 | 0x0B | 0x0C | 0x49 | 0x4A | 0x4B => some (false, false, false, false, false, true)
  | 0x03 | 0x04 | 0x05 | 0x06 | 0x07 | 0x08 => some (false, true, true, false, false, true)
  | 0x0A | 0x48 => some (false, true, false, false, false, true)
  | 0x0D | 0x31 | 0x32 | 0x4C => some (true, false, false, false, false, true)
  | 0x10 | 0x11 | 0x30 | 0x33 | 0x34 | 0x35 | 0x38 | 0x39 | 0xA2 | 0xA3 => some (true, true, false, false, false, true)
  | 0x12 | 0x66 | 0x67 | 0x6A | 0x6B | 0x6C | 0x6E | 0x72 | 0x73 | 0x79 => some (true, true, false, false, false, false)
  | 0x20 | 0x21 | 0x22 | 0x23 | 0x24 | 0x25 | 0x26 | 0x27 | 0x28 | 0x29 | 0x2A | 0x2B | 0x2C | 0x2D | 0x71 | 0x78 =>
    some (true, true, true, false, false, false)
  | 0x40 | 0x80 => some (true, true, false, false, true, true)
  | 0x41 | 0x81 | 0xA4 => some (false, true, true, false, true, true)
  | 0x44 | 0x83 => some (false, true, true, true, true, true)
  | 0x45 | 0xC1 => some (true, true, false, true, true, true)
  | 0x60 | 0x61 | 0x62 | 0x64 | 0x65 | 0x68 | 0x6D | 0x70 => some (true, true, true, false, true, false)
  | 0x63 | 0x69 | 0xA1 => some (true, true, true, true, true, false)
  | 0x6F | 0x75 | 0xC0 => some (true, true, false, false, true, false)
  | 0x76 => some (true, true, true, false, false, true)
  | 0x77 => some (true, true, false, true, false, false)
  | 0x82 | 0x84 | 0x85 => some (true, true, true, false, true, true)
  | 0xA0 => some (true, false, false, false, false, false)
  | 0xC2 => some (false, true, false, false, true, true)
  | _ => none

/-- Reserved M and IMM values, matrix register numbers above 3 and the other words an instruction calls illegal (R225, R231-R251;
log entry 16). -/
def reservedForm (w : BitVec 64) : Bool :=
  let m := wM w
  let i := wImm w
  match wOp w with
  | 0x0B => bits i 7 9 != 0
  | 0x0C => bits i 10 22 != 0
  | 0x0D => decide (9 < i)
  | 0x10 => bits i 16 16 != 0
  | 0x11 => bits i 24 8 != 0 || bits i 12 4 != 0
  | 0x33 | 0x34 | 0x35 => bits i 6 26 != 0
  | 0x41 => decide (3 < m)
  | 0x44 | 0x45 => decide (2 < m)
  | 0x48 => bits i 12 4 != 0
  | 0x68 => decide (4 < m / 2)
  | 0x6F => m % 8 == 0 || decide (4 < m % 8)
  | 0x70 => decide (1 < m)
  | 0x76 => bits i 7 25 != 0
  | 0x77 => wD w == wC w
  | 0x81 => decide (7 < m)
  | 0x82 | 0x85 => decide (5 < m % 8)
  | 0x83 => decide (5 < m)
  | 0x84 => decide (5 < m % 8) || (wD w != 0 && wD w != 16)
  | 0xA0 => decide (3 < wD w)
  | 0xA1 => decide (3 < wD w) || !(decide (m % 4 < 2) && decide (m / 4 < 2) || m % 4 == m / 4)
  | 0xA2 => decide (3 < wA w) || bits i 4 28 != 0
  | 0xA3 => decide (3 < wD w) || bits i 4 28 != 0
  | 0xA4 => decide (3 < wA w) || decide (4 < m % 8)
  | 0xC0 => m % 8 != 0
  | 0xC1 => m % 8 != 0 || bits i 3 29 != 0 || decide (4 < i % 8)
  | 0xC2 => m % 8 != 0 || bits i 12 20 != 0
  | _ => false

/-- A word that freezes the core with fault 0x20 (R225). -/
def wordIllegal (w : BitVec 64) : Bool :=
  match fieldsUsed (wOp w) with
  | none => true
  | some (d, a, b, c, m, i) =>
    (!d && wD w != 0) || (!a && wA w != 0) || (!b && wB w != 0) || (!c && wC w != 0) || (!m && wM w != 0) || (!i && wImm w != 0)
      || reservedForm w

/-! ### Registers (R221) -/

/-- A scalar register; s0 reads as 0. -/
def Core.s (k : Core) (n : Nat) : BitVec 64 := if n = 0 then 0 else tblGet 0 k.sregs n
/-- Write a scalar register; a write to s0 is discarded. -/
def Core.setS (k : Core) (n : Nat) (v : BitVec 64) : Core := if n = 0 then k else { k with sregs := tblSet 0 k.sregs n v }
/-- Lane `i` of a vector register. -/
def Core.v (k : Core) (n i : Nat) : Word32 := tblGet 0 k.vregs (n * 64 + i)
/-- The 64 lanes of a vector register. -/
def Core.vec (k : Core) (n : Nat) : List Word32 := tblGetList 0 k.vregs (n * 64) 64
/-- Write lanes of a vector register from lane 0. -/
def Core.setV (k : Core) (n : Nat) (l : List Word32) : Core := { k with vregs := tblSetList 0 k.vregs (n * 64) l }
/-- Low 32 bits of a scalar register: an FP32 value. -/
def Core.f (k : Core) (n : Nat) : Word32 := (k.s n).setWidth 32
/-- A pair in a scalar register: s in [31:0], c in [63:32] (R246). -/
def Core.pair (k : Core) (n : Nat) : Word32 × Word32 := (k.f n, ((k.s n) >>> 32).setWidth 32)
/-- The 64-bit word of a pair. -/
def pairWord (s c : Word32) : BitVec 64 := BitVec.ofNat 64 (s.toNat + c.toNat * 2 ^ 32)
/-- The register image of lanes (R221). -/
def imageOf (l : List Word32) : List Byte := l.flatMap (fun x => leBytes 4 x.toNat)
/-- Lanes of a register image of bytes. -/
def lanesOf (bs : List Byte) (n : Nat) : List Word32 := (upTo n).map (fun i => BitVec.ofNat 32 (leAt bs (4 * i) 4))
/-- Element (row, col) of a matrix accumulator (R195). -/
def Core.m (k : Core) (a r c : Nat) : Word32 := tblGet 0 k.macc (a * 1024 + r * 32 + c)
/-- The vector operand B, or sB[31:0] in every lane when M[0] = 1 (R242). -/
def Core.operandB (k : Core) (w : BitVec 64) : List Word32 :=
  if bit (wM w) 0 then List.replicate 64 (k.f (wB w)) else k.vec (wB w)

/-! ### Element formats (R226) -/

/-- Bytes of one element of a format 0-5. -/
def elemSize (f : Nat) : Nat := match f with
  | 0 => 4
  | 1 | 2 => 2
  | _ => 1

/-- Bytes of 64 contiguous elements. -/
def vecBytes (f : Nat) : Nat := match f with
  | 6 => 32
  | 7 => 36
  | _ => 64 * elemSize f

/-- A floating format by its code. -/
def floatFmt (f : Nat) : Format := match f with
  | 1 => fmtFP16
  | 2 => fmtBF16
  | 3 => fmtE4M3
  | _ => fmtE5M2

/-- Widen one stored element to a lane (R226). -/
def widen (f v : Nat) : Word32 := match f with
  | 0 => BitVec.ofNat 32 v
  | 5 => intF32 (signed 8 v)
  | 6 => intF32 (signed 4 v)
  | _ => BitVec.ofNat 32 (convert (floatFmt f) fmtFP32 v)

/-- Narrow one lane to an element, and whether a NaN became integer 0 (R104, R105). -/
def narrow (f : Nat) (x : Word32) : Nat × Bool := match f with
  | 0 => (x.toNat, false)
  | 5 => (twos 8 (toIntClamp (ofF32 x) (-128) 127), (ofF32 x).isNan)
  | 6 => (twos 4 (toIntClamp (ofF32 x) (-8) 7), (ofF32 x).isNan)
  | _ => (convert fmtFP32 (floatFmt f) x.toNat, false)

/-- The FP32 value n × 2^e, exact in the range BE4 needs (R107) except beyond FP32's, where it is the infinity of its
sign (log entry 101). -/
def scaled (n : Int) (e : Int) : Word32 := if 0 ≤ e then ratF32 (n * 2 ^ e.toNat) 1 else ratF32 n (2 ^ (-e).toNat)

/-- Element `i` of a BE4 block of 9 bytes (R106, R107). -/
def be4Elem (b : List Byte) (i : Nat) : Word32 :=
  if byteAt b 0 = 255 then nan32
  else scaled (signed 4 (byteAt b (1 + i / 2) / (if i % 2 = 0 then 1 else 16))) ((byteAt b 0 : Int) - 127)

/-- floor(log2 n) of a positive number. -/
def log2 (n : Nat) : Nat := Nat.log2 n

/-- Encode 16 FP32 values as one BE4 block (R108). -/
def be4Encode (l : List Word32) : List Byte :=
  if l.any (fun x => !(ofF32 x).isFin) then 255 :: List.replicate 8 0
  else
    let u := l.map (fun x => (ofF32 x).units)
    let amax := u.foldl (fun m x => max m x.natAbs) 0
    if amax = 0 then List.replicate 9 0
    else
      let k : Int := (log2 amax : Int) - 149
      let e : Int := max 0 (min 254 (k + 125))
      -- x × 2^(127 − E) with x in units of 2^-149 is units × 2^(-22 − E).
      let el := fun (x : Int) => max (-8) (min 7 (roundEvenInt x (2 ^ (22 + e.toNat))))
      let es := u.map (fun x => twos 4 (el x))
      BitVec.ofInt 8 e :: (upTo 8).map (fun i => BitVec.ofNat 8 (es.getD (2 * i) 0 + 16 * es.getD (2 * i + 1) 0))

/-- Widen 64 contiguous elements (R101, R226). -/
def widenVec (f : Nat) (bs : List Byte) : List Word32 :=
  (upTo 64).map (fun i => match f with
    | 6 => widen 6 (byteAt bs (i / 2) / (if i % 2 = 0 then 1 else 16) % 16)
    | 7 => be4Elem (bs.drop (9 * (i / 16))) (i % 16)
    | _ => widen f (leAt bs (i * elemSize f) (elemSize f)))

/-- Narrow 64 lanes to contiguous elements, and whether a NaN became an integer 0. -/
def narrowVec (f : Nat) (l : List Word32) : List Byte × Bool :=
  match f with
  | 6 =>
    let e := l.map (narrow 6)
    ((upTo 32).map (fun i => BitVec.ofNat 8 ((e.getD (2 * i) (0, false)).1 + 16 * (e.getD (2 * i + 1) (0, false)).1)), e.any (·.2))
  | 7 => ((upTo 4).flatMap (fun b => be4Encode ((l.drop (16 * b)).take 16)), false)
  | _ =>
    let e := l.map (narrow f)
    (e.flatMap (fun x => leBytes (elemSize f) x.1), e.any (·.2))

end Sys2Proof.Machine
end

