-- ==== Sys2Proof/Machine/Flags.lean ====
section
/-! DEFINITION. The flag register fs of a correction core (R223, R253) and the comparisons and reductions that core code makes
(R124, R125, R243, R245). -/

namespace Sys2Proof.Machine

/-- fs as `SGET` returns it (R223). -/
def Core.fs (k : Core) : Nat := ofBool k.nv + 2 * ofBool k.inf + 4 * ofBool k.ncv

/-- Set fs.NV and fs.INF for the FP32 elements an instruction of OP 0x60-0x7F or MMA produced (R253). -/
def Core.flagsFor (k : Core) (l : List Word32) : Core :=
  { k with nv := k.nv || l.any (fun x => (ofF32 x).isNan), inf := k.inf || l.any (fun x => (ofF32 x).isInf) }

/-- Set fs.NCV (R105, R253). -/
def Core.flagNcv (k : Core) (b : Bool) : Core := { k with ncv := k.ncv || b }

/-- Clear fs (R222, R223). -/
def Core.clearFs (k : Core) : Core := { k with nv := false, inf := false, ncv := false }

/-- Ordering of non-NaN values in which +0 ranks above -0 (R245). -/
def fpBelow (a b : Fp) : Bool := Fp.lt a b || (Fp.eq a b && a.neg && !b.neg)

/-- IEEE minimum; a NaN gives the canonical NaN (R242). -/
def fMin (a b : Word32) : Word32 :=
  if (ofF32 a).isNan || (ofF32 b).isNan then nan32 else if fpBelow (ofF32 b) (ofF32 a) then b else a

/-- IEEE maximum. -/
def fMax (a b : Word32) : Word32 :=
  if (ofF32 a).isNan || (ofF32 b).isNan then nan32 else if fpBelow (ofF32 a) (ofF32 b) then b else a

/-- Clear the sign bit. -/
def fAbs (a : Word32) : Word32 := a &&& 0x7FFFFFFF
/-- Invert the sign bit. -/
def fFlip (a : Word32) : Word32 := a ^^^ 0x80000000

/-- A `VCMP` mode of one lane (R243). -/
def compareLane (mode : Nat) (a b : Word32) : Bool :=
  let x := ofF32 a
  let y := ofF32 b
  let nan := x.isNan || y.isNan
  match mode with
  | 0 => !nan && Fp.eq x y
  | 1 => !nan && Fp.lt x y
  | 2 => !nan && (Fp.lt x y || Fp.eq x y)
  | 3 => nan
  | _ => !x.isFin || (!y.isNan && Fp.lt y (ofF32 (fAbs a)))

/-- One step of a compensated reduction (R124). -/
def kStep (p : Word32 × Word32) (x : Word32) : Word32 × Word32 :=
  let t := fAdd p.1 x
  let big := !(ofF32 p.1).isNan && !(ofF32 x).isNan && !Fp.lt (ofF32 (fAbs p.1)) (ofF32 (fAbs x))
  let c := if big then fAdd p.2 (fAdd (fSub p.1 t) x) else fAdd p.2 (fAdd (fSub x t) p.1)
  (t, c)

/-- A compensated reduction over terms (R124): the pair before the final addition. -/
def kReduce (p : Word32 × Word32) (l : List Word32) : Word32 × Word32 := l.foldl kStep p

/-- The pair (s1, c1) absorbs (s2, c2) (R125). -/
def kCombine (p q : Word32 × Word32) : Word32 × Word32 :=
  let t := fAdd p.1 q.1
  let z := fSub t p.1
  let err := fAdd (fSub p.1 (fSub t z)) (fSub q.1 z)
  (t, fAdd (fAdd p.2 q.2) err)

/-- s + c of a pair. -/
def kFinish (p : Word32 × Word32) : Word32 := fAdd p.1 p.2

/-- Largest or smallest non-NaN lane and its index, the lowest on ties (R245). -/
def argBest (smallest : Bool) (l : List Word32) : Option (Word32 × Nat) :=
  (indexedLanes l 0).foldl (fun best x =>
    if (ofF32 x.1).isNan then best
    else match best with
      | none => some x
      | some y => if (if smallest then fpBelow (ofF32 x.1) (ofF32 y.1) else fpBelow (ofF32 y.1) (ofF32 x.1)) then some x else best) none
where
  /-- Lanes with their indexes. -/
  indexedLanes : List Word32 → Nat → List (Word32 × Nat)
    | [], _ => []
    | x :: xs, i => (x, i) :: indexedLanes xs (i + 1)

/-- `VRED` (R245): value and index. -/
def reduceLanes (mode : Nat) (l : List Word32) : Word32 × Nat :=
  let best := argBest (mode == 1 || mode == 3) l
  if mode < 2 then
    if l.any (fun x => (ofF32 x).isNan) then (nan32, 0) else ((best.map (·.1)).getD nan32, 0)
  else match best with
    | some b => b
    | none => (nan32, 0xFFFFFFFF)

/-! ### Special functions (R197, R198) -/

/-- One unit in the last place of FP32 at a magnitude of so many units of 2^-149 (R197). -/
def ulpAt (units : Nat) : Nat := 2 ^ (Nat.log2 units - 23)

/-- One of the finite positive FP32 codes about a base code whose magnitude, in units of 2^-149, is close enough to the exact result; which
one, no rule states (log entry 15). An infinite base is an overflow and stays. -/
def pickNear (op n : Nat) (x base : Word32) (near : Nat → Bool) : Word32 :=
  let cs := ((upTo (2 * n + 3)).map (fun i => base.toNat + i - (n + 1))).filter (fun c =>
    decide (c < 0x7F800000) && near (fmtFP32.decode c).units.natAbs)
  if base = 0x7F800000 then base else BitVec.ofNat 32 (cs.getD (Config.ulps op x % cs.length) base.toNat)

/-- A magnitude lies within `n` units in the last place of the rational `num / den` (R197). -/
def nearRat (n num den m : Nat) : Bool :=
  let slack := n * ulpAt (num / den) * den
  decide (m * den ≤ num + slack) && decide (num ≤ m * den + slack)

/-- A magnitude lies within `n` units in the last place of the square root of `num / den` (R197). -/
def nearRoot (n num den m : Nat) : Bool :=
  let slack := n * ulpAt (Nat.sqrt (num / den))
  decide ((m - slack) * (m - slack) * den ≤ num) && decide (num ≤ (m + slack) * (m + slack) * den)

/-- Put a sign on a magnitude. -/
def withSign (neg : Bool) (w : Word32) : Word32 := if neg then w ||| 0x80000000 else w

/-- Reciprocal, within 1 unit in the last place (R197). -/
def vRcp (x : Word32) : Word32 :=
  let v := ofF32 x
  if v.isNan then nan32
  else
    let r := fDiv one32 (fAbs x)
    withSign v.neg (if v.isInf || v.units == 0 then r else pickNear 1 1 x r (nearRat 1 (2 ^ 298) v.units.natAbs))

/-- Reciprocal square root of an FP32 magnitude, correctly rounded to within the division's rounding of an exact square root. -/
def rsqrtBase (x : Word32) : Word32 :=
  -- 1/sqrt(u × 2^-149) from an integer square root with 200 further bits.
  let u := (ofF32 x).units.natAbs
  let r := Nat.sqrt (u * 2 ^ 401)
  if r = 0 then 0x7F800000 else ratF32 (2 ^ 275) r

/-- Reciprocal square root, within 1 unit in the last place (R197). -/
def vRsq (x : Word32) : Word32 :=
  let v := ofF32 x
  if v.isNan then nan32
  else if v.units == 0 && v.isFin then withSign v.neg 0x7F800000
  else if v.neg then nan32
  else if v.isInf then zero32
  else pickNear 2 1 x (rsqrtBase x) (nearRoot 1 (2 ^ 447) v.units.natAbs)

/-- exp of y = num / 2^300 by its series, as a number of units of 2^-300, for 0 ≤ y < 1/4. -/
def expSeries (y : Nat) : Nat → Nat → Nat → Nat
  | 0, _, _ => 0
  | fuel + 1, k, term => term + expSeries y fuel (k + 1) (term * y / 2 ^ 300 / (k + 1))

/-- Square a number of units of 2^-300 `n` times. -/
def squareTimes : Nat → Nat → Nat
  | 0, v => v
  | n + 1, v => squareTimes n (v * v / 2 ^ 300)

/-- e^|x| as units of 2^-300 for |x| below 128: the argument halved 10 times, the series, and 10 squarings. -/
def expUnits (x : Word32) : Nat :=
  let y := (ofF32 x).units.natAbs * 2 ^ 151 / 2 ^ 10
  squareTimes 10 (expSeries y 60 0 (2 ^ 300))

/-- e^x, within 2 units in the last place for finite results (R197). -/
def vExp (x : Word32) : Word32 :=
  let v := ofF32 x
  if v.isNan then nan32
  else if v.isInf then (if v.neg then zero32 else x)
  else if Fp.lt (ofF32 0x42FE0000) (ofF32 (fAbs x)) then (if v.neg then pickNear 0 2 x zero32 (nearRat 2 1 (2 ^ 30)) else 0x7F800000)
  else
    let e := expUnits x
    if v.neg then pickNear 0 2 x (ratF32 (2 ^ 300) e) (nearRat 2 (2 ^ 449) e)
    else pickNear 0 2 x (ratF32 e (2 ^ 300)) (nearRat 2 (e * 2 ^ 149) (2 ^ 300))

end Sys2Proof.Machine
end

