-- ==== Sys2Proof/Machine/StackMemory.lean ====
section
/-! DEFINITION. Stack memory: the interleave, checked reads and writes under a key, the place of a frame (R375, R376, R379, R380, R386,
R387). -/

namespace Sys2Proof.Machine

/-! ### Addresses -/

/-- Bytes of the device physical address space (R375). -/
def memSize : Nat := 640000000000
/-- First byte of the frame pool (R377). -/
def poolBase : Nat := 40000000000
/-- Channel 0-255 of an address: the XOR of the three low bytes of its granule (R375). -/
def channelOf (a : Nat) : Nat := (a / 256 % 256) ^^^ (a / 65536 % 256) ^^^ (a / 16777216 % 256)
/-- Stack of an address (R375). -/
def stackOf (a : Nat) : Nat := channelOf a % 8
/-- Pseudo-channel of an address within its stack (R375). -/
def pchOf (a : Nat) : Nat := channelOf a / 8
/-- Byte address within the pseudo-channel (R375). -/
def localOf (a : Nat) : Nat := a / 65536 * 256 + a % 256

/-! ### Errors (R386, R387) -/

/-- Reader codes of event 0x04 (R394). -/
def rdPlan : Nat := 1
/-- Aperture. -/
def rdAperture : Nat := 2
/-- Command read. -/
def rdCommand : Nat := 3
/-- Scrub. -/
def rdScrub : Nat := 4
/-- Partial write. -/
def rdPartial : Nat := 5
/-- Copy-on-write copy. -/
def rdCopy : Nat := 6
/-- Pause or resume image. -/
def rdImage : Nat := 7
/-- Firmware. -/
def rdFirmware : Nat := 8

/-- Set the error bit of the pseudo-channel of an address (R395). -/
def markPch (s : State) (a : Nat) : State :=
  modSc s (stackOf a) (fun c => { c with pchErr := c.pchErr ||| BitVec.ofNat 32 (2 ^ pchOf a) })

/-- A word is corrected (R386): the counts of its stack and of the device. -/
def eccCorrected (s : State) (w : Nat) : State :=
  let s := markPch s (64 * w)
  let s := modSc s (stackOf (64 * w)) (fun c => { c with ce := c.ce.bump (sclk s) 65535 1, ceHour := c.ceHour + 1 })
  { s with ms := { s.ms with ceCount := s.ms.ceCount.bump (sclk s) 0xFFFFFFFF 1 } }

/-- Event 0x04 for a word (R394). -/
def eccEvent (s : State) (w reader queue : Nat) : State :=
  let a := 64 * w
  raiseEvent s pgMs 0x04 (info [(8, a), (1, stackOf a), (1, pchOf a), (1, reader), (1, 0), (2, queue)])

/-- An uncorrectable read of a word (R386): poisoned, counted, reported. -/
def eccPoisoned (s : State) (w reader queue : Nat) : State :=
  let a := 64 * w
  let s := markPch s a
  let s := modSc s (stackOf a) (fun c => { c with ue := c.ue.bump (sclk s) 255 1 })
  eccEvent { s with ms := { s.ms with
    ueCount := s.ms.ueCount.bump (sclk s) 0xFFFFFFFF 1
    poisoned := if s.ms.poisoned.contains w then s.ms.poisoned else w :: s.ms.poisoned } } w reader queue

/-- Errors have come into stored words (R386): they stand there until an access meets them or the word is written anew. -/
def noteErrors (s : State) (ecc : List (Nat × Bool)) : State :=
  { s with ms := { s.ms with latent := s.ms.latent ++ ecc.filter (fun e => decide (e.1 < memSize / 64) && !s.ms.latent.contains e) } }

/-- The errors that a row brings and those that stand in memory. -/
def errorsNow (s : State) (ecc : List (Nat × Bool)) : List (Nat × Bool) := ecc ++ s.ms.latent.filter (fun e => !ecc.contains e)

/-- A read of a byte range meets the errors `ecc` (word, uncorrectable) of its words, those that stand in them, and the words already poisoned
(R386, R387); an error that `ecc` gives another word stands there. -/
def eccRead (s : State) (a n : Nat) (ecc : List (Nat × Bool)) (reader queue : Nat) : State :=
  let ws := wordsOf a n
  let mine := (errorsNow s ecc).filter (fun e => ws.contains e.1)
  let s := noteErrors s (ecc.filter (fun e => !ws.contains e.1))
  let s := forEach (mine.filter (fun e => !e.2 && !s.ms.poisoned.contains e.1)) (fun s e => eccCorrected s e.1) s
  forEach (ws.filter (fun w => s.ms.poisoned.contains w || mine.contains (w, true))) (fun s w => eccPoisoned s w reader queue) s

/-! ### Reads and writes under a key (R376, R380) -/

/-- `n` bytes at address `a`, read under a key. -/
def readUnder (s : State) (k a n : Nat) : List Byte :=
  ((((wordsOf a n).flatMap (wordUnder s k)).drop (a % 64)).take n)

/-- `n` bytes at address `a` as firmware reads them: what a poisoned word gives it is not stated, a free value (R386; log entry 112). -/
def readForFirmware (s : State) (k a n : Nat) : List Byte :=
  ((((wordsOf a n).flatMap (fun w => if s.ms.poisoned.contains w then padTo 64 (Config.poisonRead w) else wordUnder s k w)).drop (a % 64)).take n)

/-- The canonical FP32 NaN in every 32-bit word of a word: what a plan DMA read delivers for a poisoned word (R386). -/
def nanWord : List Byte := (upTo 16).flatMap (fun _ => leBytes 4 0x7FC00000)

/-- `n` bytes at address `a` as a plan DMA read delivers them (R386). -/
def readForPlan (s : State) (k a n : Nat) : List Byte :=
  ((((wordsOf a n).flatMap (fun w => if s.ms.poisoned.contains w then nanWord else wordUnder s k w)).drop (a % 64)).take n)

/-- Write one word's part (R376, R386, R387): a partial write first reads the word, and meets the error that stands in it; to a poisoned word
it is discarded and raises event 0x04 again. -/
def writeWord (s : State) (k w : Nat) (p : Nat × List Byte) (queue : Nat) : State :=
  if p.2.length = 64 then mergeWord s k w p
  else if s.ms.poisoned.contains w then eccEvent s w rdPartial queue
  else if s.ms.latent.contains (w, true) then eccPoisoned s w rdPartial queue
  else mergeWord (if s.ms.latent.contains (w, false) then eccCorrected s w else s) k w p

/-- Write bytes at an address under a key. -/
def writeUnder (s : State) (k a : Nat) (bs : List Byte) (queue : Nat) : State :=
  forEach (wordsOf a bs.length) (fun s w => writeWord s k w (pieceOf a bs w) queue) s

/-- The stack key of an owner (R380, R525). -/
def stackKey (s : State) (o : Nat) : Nat := (getSlot s o).kStack

/-- Two byte ranges meet. -/
def overlap (a n b m : Nat) : Bool := decide (a < b + m) && decide (b < a + n)

/-- Address of a frame (R358, R377). -/
def frameAddr (s : State) (f : Nat) : Nat := poolBase + f * s.ms.pageSize

end Sys2Proof.Machine
end

