-- ==== Sys2Proof/Machine/Image.lean ====
section
/-! DEFINITION. The firmware image in the staging region and its checks (R484-R487, R514-R519). -/

namespace Sys2Proof.Machine

/-- Little-endian field of `n` bytes at offset `o` of an image at stack address `base`. -/
def imgLe (s : State) (base o n : Nat) : Nat := ofLe (memBytes s (base + o) n)

/-- Every byte of a range of an image is 0. -/
def imgZero (s : State) (base o n : Nat) : Bool := (memBytes s (base + o) n).all (· == 0)

/-- One section entry (R486): TYPE, OFFSET, LENGTH, offset of its digest. -/
structure Section where
  type : Nat
  offset : Nat
  length : Nat
  digest : BitVec 512
deriving DecidableEq, Repr

/-- Section entry `k` of an image (R485, R486). -/
def imgSection (s : State) (base k : Nat) : Section :=
  let o := 128 + 96 * k
  { type := imgLe s base o 4, offset := imgLe s base (o + 8) 8, length := imgLe s base (o + 16) 8
    digest := BitVec.ofNat 512 (ofBe (memBytes s (base + o + 32) 64)) }

/-- The sections an image declares. -/
def imgSections (s : State) (base : Nat) : List Section := (upTo (imgLe s base 6 2)).map (imgSection s base)

/-- Check 0x01 (R485-R487): MAGIC, FORMAT, SECTIONS, SIZE, SUMP_LOG, the handoff fields, section types and counts, reserved bytes. -/
def imgHeaderOk (s : State) (base : Nat) : Bool :=
  let n := imgLe s base 6 2
  let size := imgLe s base 16 8
  let sump := imgLe s base 24 1
  let out := imgLe s base 25 1
  let lo := imgLe s base 26 1
  let hi := imgLe s base 27 1
  let secs := imgSections s base
  let count := fun t => (secs.filter (fun x => x.type == t)).length
  imgLe s base 0 4 == 0x4B465749 &&
  imgLe s base 4 2 == 1 && decide (1 ≤ n) && decide (n ≤ 16) && decide (8192 ≤ size) && decide (size ≤ 67108864) &&
  (sump == 0 || (decide (12 ≤ sump) && decide (sump ≤ 20))) && decide (1 ≤ out) && decide (1 ≤ lo) && decide (lo ≤ hi) &&
  secs.all (fun x => decide (1 ≤ x.type) && decide (x.type ≤ 4)) &&
  count 1 == 1 && decide (count 2 ≤ 1) && decide (1 ≤ count 3) && decide (count 4 ≤ 1) &&
  imgZero s base 28 100 && imgZero s base 2688 1408 && imgZero s base (128 + 96 * n) (96 * (16 - n)) &&
  (upTo n).all (fun k => imgZero s base (128 + 96 * k + 4) 4 && imgZero s base (128 + 96 * k + 24) 8)

/-- Two sections do not overlap. -/
def sectionsApart (a b : Section) : Bool := decide (a.offset + a.length ≤ b.offset) || decide (b.offset + b.length ≤ a.offset)

/-- Every pair of distinct list positions is apart. -/
def allApart : List Section → Bool
  | [] => true
  | x :: xs => xs.all (sectionsApart x) && allApart xs

/-- Check 0x02 (R486, R487): alignment, bounds, overlap, KERNEL at most 1,536 KiB. -/
def imgLayoutOk (s : State) (base : Nat) : Bool :=
  let size := imgLe s base 16 8
  let secs := imgSections s base
  secs.all (fun x => x.offset % 4096 == 0 && decide (4096 ≤ x.offset) && decide (x.offset + x.length ≤ size)
    && (x.type != 1 || decide (x.length ≤ 1536 * 1024))) && allApart secs

/-- One manifest at an offset of an image (R516). -/
def imgManifest (s : State) (base o : Nat) : Manifest :=
  let f := fun k n => imgLe s base (o + k) n
  { tgEnable := BitVec.ofNat 64 (f 64 8), ccEnable := BitVec.ofNat 256 (f 72 32), hpEnable := BitVec.ofNat 2 (f 104 1)
    maxVf := f 105 1, fibresMax := f 106 1, powerLimit := f 108 2, tolMin := f 112 1, tolMax := f 113 1
    dtcalMin := f 114 2, dtcalMax := f 116 2, intervalMax := f 118 2, guardMin := f 120 2, guardMax := f 122 2
    derateMax := f 124 1, reserveMin := f 125 1, throttleMin := f 126 1, throttleMax := f 127 1
    serial := BitVec.ofNat 64 (f 8 8), sku := BitVec.ofNat 64 (f 48 8) }

/-- Cores 4g to 4g+3 are enabled if and only if group g is (R516). -/
def coresMatch (m : Manifest) : Bool :=
  (upTo 256).all (fun c => m.ccEnable.getLsbD c == m.tgEnable.getLsbD (c / 4))

/-- The fields and ranges of a manifest (R516). -/
def manifestOk (s : State) (base o : Nat) : Bool :=
  let m := imgManifest s base o
  imgLe s base o 4 == 0x4B4D4E46 && imgLe s base (o + 4) 2 == 1 && coresMatch m &&
  decide (imgLe s base (o + 104) 1 ≤ 3) && m.hpEnable != 0 && decide (m.maxVf ≤ 31) && decide (1 ≤ m.fibresMax) &&
  decide (m.fibresMax ≤ 4) && decide (600 ≤ m.powerLimit) && decide (m.powerLimit ≤ 1500) &&
  decide (8 ≤ m.tolMin) && decide (m.tolMin ≤ m.tolMax) && decide (m.tolMax ≤ 25) &&
  decide (5 ≤ m.dtcalMin) && decide (m.dtcalMin ≤ m.dtcalMax) && decide (m.dtcalMax ≤ 100) &&
  decide (60 ≤ m.intervalMax) && decide (m.intervalMax ≤ 600) && decide (m.guardMin ≤ m.guardMax) &&
  decide (m.guardMax ≤ 100) && decide (m.derateMax ≤ 2) && decide (m.reserveMin ≤ 16) &&
  decide (70 ≤ m.throttleMin) && decide (m.throttleMin ≤ m.throttleMax) && decide (m.throttleMax ≤ 95) &&
  imgZero s base (o + 6) 2 && imgZero s base (o + 56) 8 && imgZero s base (o + 107) 1 && imgZero s base (o + 110) 2 &&
  imgZero s base (o + 128) 1408

/-- Offsets of the manifests of an image, sections in table order, manifests in section order (R516, R517). -/
def manifestOffsets (s : State) (base : Nat) : List Nat :=
  ((imgSections s base).filter (fun x => x.type == 3)).flatMap (fun x => (upTo (x.length / 2048)).map (fun k => x.offset + 2048 * k))

/-- The first manifest whose SERIAL and ID_DIGEST are the device's own (R517). -/
def selectedManifest (s : State) (base : Nat) : Option Nat :=
  (manifestOffsets s base).find? (fun o => imgLe s base (o + 8) 8 == s.store.serial.toNat
    && imgLe s base (o + 16) 32 == s.store.idDigest.toNat)

/-- Check 0x07 (R517): a manifest names this device, passes its signature and ranges, and, for BOOT, enables the port that rang. -/
def imgManifestOk (s : State) (base : Nat) (port : Option Bool) : Bool :=
  ((imgSections s base).filter (fun x => x.type == 3)).all (fun x => x.length % 2048 == 0) &&
  match selectedManifest s base with
  | none => false
  | some o =>
    Config.rsaPssVerify (memBytes s (base + o) 1536) (memBytes s (base + o + 1536) 512) Config.rootKey && manifestOk s base o &&
    match port with
    | none => true
    | some p => (imgManifest s base o).hpEnable.getLsbD (if p then 1 else 0)

/-- Result code of the image checks 0x01 to 0x08 in order (R487). `stage` adds the checks of staging (R519, HANDOFF). -/
def imgCheck (s : State) (base : Nat) (port : Option Bool) (stage : Bool) : Nat :=
  if !imgHeaderOk s base then 0x01
  else if !imgLayoutOk s base then 0x02
  else if sha512 (memBytes s (base + 1664) 512) ≠ Config.rootKeyHash then 0x03
  else if !Config.rsaPssVerify (memBytes s base 2176) (memBytes s (base + 2176) 512) (memBytes s (base + 1664) 512) then 0x04
  else if (imgSections s base).any (fun x => sha512 (memBytes s (base + x.offset) x.length) != x.digest) then 0x05
  else if imgLe s base 12 4 < s.store.mvc then 0x06
  else if !imgManifestOk s base port then 0x07
  else if stage then
    match s.cx.running, selectedManifest s base with
    | some r, some o =>
      let m := imgManifest s base o
      if m.tgEnable ≠ r.manifest.tgEnable ∨ m.ccEnable ≠ r.manifest.ccEnable ∨ m.hpEnable ≠ r.manifest.hpEnable
          ∨ m.maxVf ≠ r.manifest.maxVf ∨ m.fibresMax ≠ r.manifest.fibresMax then 0x07
      else if r.handoffOut < imgLe s base 26 1 ∨ imgLe s base 27 1 < r.handoffOut then 0x08
      else 0x00
    | _, _ => 0x07
  else 0x00

/-- What the device keeps of an accepted image. -/
def imgInfo (s : State) (base : Nat) : ImageInfo :=
  let kernel := ((imgSections s base).find? (fun x => x.type == 1)).map (·.digest)
  let o := (selectedManifest s base).getD 0
  { version := BitVec.ofNat 32 (imgLe s base 8 4), svn := imgLe s base 12 4, size := imgLe s base 16 8
    sumpLog := imgLe s base 24 1, handoffOut := imgLe s base 25 1, manifest := imgManifest s base o
    headerDigest := sha512 (memBytes s base 2176), kernelDigest := kernel.getD 0
    manifestDigest := sha512 (memBytes s (base + o) 2048) }

/-- Base of the staging region (R484). -/
def stagingBase : Nat := 0
/-- Bytes of the staging region. -/
def stagingSize : Nat := 0x04000000
/-- Base of the resident copy (R484). -/
def residentBase : Nat := 0x04000000

/-- Copy `n` bytes of stack memory held under owner 0. -/
def copyBytes (s : State) (key src dst n : Nat) : State := writeUnder s 0 dst (readUnder s key src n) 258

end Sys2Proof.Machine
end

