-- ==== Sys2Proof/Machine/HostCommands.lean ====
section
/-! DEFINITION. Host commands on owners, bindings, queues and scheduling (R338-R340, R346, R354-R357, R450, R461, R499, R525-R526). -/

namespace Sys2Proof.Machine

/-- The outcome type of every meaning. -/
abbrev Out := Host.Outcome State Fault Refusal

/-- Where the operands of each opcode stand in its submission entry (R457, R461), as byte and length, in the order in which the rows name them;
4 is the header's OWNER. -/
def opFields (op : Nat) : List (Nat × Nat) :=
  match op with
  | 0x02 => [(4, 1)]
  | 0x03 => [(4, 1), (8, 1), (9, 1), (10, 1), (11, 1), (12, 4), (16, 4), (20, 4), (24, 4), (32, 8)]
  | 0x04 => [(4, 1), (8, 1)]
  | 0x05 => [(4, 1), (8, 1)]
  | 0x06 => [(8, 1), (16, 8), (24, 8)]
  | 0x10 => [(4, 1), (16, 2)]
  | 0x11 => [(4, 1), (16, 2), (20, 4)]
  | 0x12 => [(4, 1), (16, 2), (20, 4)]
  | 0x13 => [(4, 1), (16, 2), (8, 8)]
  | 0x14 => [(4, 1), (16, 2)]
  | 0x15 => [(4, 1), (16, 2), (20, 4)]
  | 0x16 => [(4, 1), (16, 2), (20, 4)]
  | 0x17 => [(4, 1), (16, 2)]
  | 0x18 => [(4, 1), (16, 2)]
  | 0x19 => [(4, 1), (16, 2), (8, 8), (20, 4), (24, 4)]
  | 0x1A => [(8, 8), (20, 4)]
  | 0x20 => [(4, 1), (8, 8), (16, 8)]
  | 0x21 => [(4, 1), (8, 8), (16, 8)]
  | 0x22 => [(4, 1), (8, 8), (16, 8), (24, 4)]
  | 0x23 => [(4, 1), (8, 8), (16, 8), (24, 4)]
  | 0x24 => [(4, 1), (8, 8)]
  | 0x25 => [(4, 1), (8, 1)]
  | 0x30 => [(8, 8)]
  | 0x33 => [(8, 1), (9, 1)]
  | 0x34 => [(8, 8), (16, 4)]
  | 0x35 => [(8, 4), (12, 4), (16, 1)]
  | 0x38 => [(8, 1), (9, 1), (10, 1), (12, 2)]
  | _ => []

/-- Operand `k` of a fetched command (R461): a field of its entry, or, of a forwarded one, a word of the message. -/
def Fetched.operand (f : Fetched) (k : Nat) (x : Nat × Nat) : Nat :=
  if 256 ≤ f.pair then leAt f.params (8 * k) 8 else if x.1 = 4 then f.owner else leAt f.params (x.1 - 8) x.2

/-- The fetched command spells these operands (R457, R461). -/
def spells (s : State) (i : Issuer) (op : Nat) (params : List Nat) : Bool :=
  match findFetched s i with
  | none => false
  | some f => (indexed (opFields op)).map (fun x => f.operand x.1 x.2) == params

/-- A command with these operands may take effect (R457, R461, R464). -/
def starts (s : State) (i : Issuer) (op : Nat) (params : List Nat) : Bool := mayStart s i op && spells s i op params

/-- Run a host command's effect when its pair holds it as fetched, with these operands, and it may start (R457, R460, R461, R464); else nothing
happens (log entry 3). -/
def command (i : Issuer) (op : Nat) (params : List Nat) (s : State) (body : State → State) : Out :=
  .next (if starts s i op params then body s else s)

/-- Change the fetched record of a command. -/
def modFetched (s : State) (i : Issuer) (g : Fetched → Fetched) : State :=
  modHp s i.port (fun h => { h with
    fetched := h.fetched.map (fun f => if f.pair == i.pairKey && f.cid == i.cid.toNat && f.fn == i.fn.toNat then g f else f) })

/-- A command goes on to the device that executes it, once, as a C1 message; it stays in progress until that device's answer
(CREDIT_MESSAGE, log entry 21). -/
def sendOn (s : State) (i : Issuer) (dst kind op : Nat) (params : List Nat) : State :=
  if ((findFetched s i).map (·.sent)).getD true then s
  else sendMessage (modFetched s i (fun f => { f with sent := true })) dst kind
    ([op, ofBool i.port, i.fn.toNat, i.pair.toNat, i.cid.toNat, fetchTime s i] ++ params)

/-- A command that R433 assigns to the headframe: there it takes effect; another member forwards it, unless it refuses it itself. -/
def headCommand (i : Issuer) (op : Nat) (params : List Nat) (s : State) (body : State → State) (refused : State → Option Nat := fun _ => none) : Out :=
  command i op params s (fun s => if isHeadframe s then body s
    else match refused s with
    | some c => complete s i c
    | none => sendOn s i 0 0x42 op params)

/-- The fetched command names this device: DEVICE 0xFF or its own ring position (R457). -/
def forHere (s : State) (i : Issuer) : Bool :=
  match findFetched s i with
  | none => false
  | some f => f.device == 0xFF || (s.ri.valid && f.device == s.ri.position) || (!s.ri.valid && f.device == 0)

/-- A command executed by the device that DEVICE names (R457): another member gets it as a message. -/
def deviceCommand (i : Issuer) (op : Nat) (params : List Nat) (s : State) (body : State → State) (refused : State → Option Nat := fun _ => none)
    (onSend : State → State := id) : Out :=
  command i op params s (fun s => if forHere s i then body s
    else match refused s with
    | some c => complete s i c
    | none => sendOn (onSend s) i (((findFetched s i).map (·.device)).getD 0xFF) 0x43 op params)

/-- A command's `n` bytes may be read from its host (R449, R452, R467, R468): the function may issue DMA, and the completion fits. For a forwarded
command the member that holds it reads. -/
def hostReadable (s : State) (i : Issuer) (n : Nat) : Bool :=
  i.origin != 0xFF || (fnDma s i.port i.fn.toNat && decide (hostReadsOut s i.port + n ≤ readBuffer))

/-- A command waits for its boundary (R348), with `held` tokens of it already in the prompt pool; it waits once. -/
def stage (s : State) (i : Issuer) (cmd : Instr) (held : Nat := 0) : State :=
  if s.sq.deferred.any (fun d => d.issuer == i) then s
  else { s with promptUsed := s.promptUsed + held, sq := { s.sq with
    deferred := s.sq.deferred ++ [{ issuer := i, cmd := cmd, held := held }] } }

/-- A command that takes effect at a boundary (R348): the headframe keeps it until then, another member forwards it. -/
def boundaryCommand (i : Issuer) (op : Nat) (cmd : Instr) (params : List Nat) (s : State) : Out :=
  headCommand i op params s (fun s => stage s i cmd)

/-- Complete with a refusal code if there is one, else run the effect. -/
def orRefuse (i : Issuer) (s : State) (c : Option Nat) (body : State → State) : State :=
  match c with
  | some code => complete s i code
  | none => body s

/-- NOP (R461). -/
def execNopCommand (i : Issuer) (s : State) : Out := deviceCommand i 0x00 [] s (fun s => complete s i stOk)

/-- The lowest owner ID from 1 to 255 that is free (R338, R340). -/
def freeOwner (s : State) : Option Nat := ((upTo 256).drop 1).find? (fun o => (getOwner s o).isNone)

/-- Count one generate request of the DRBG (R524). -/
def drbgRequest (s : State) : State := { s with ke := { s.ke with drbgCount := s.ke.drbgCount + 1 } }

/-- Fill an owner slot (R525): fresh K_stack, K_map and K_wrap, named by serial numbers; the token's digest. -/
def fillSlot (s : State) (o : Nat) (port : Bool) (digest : BitVec 128) : State :=
  let k := s.ke.nextKey
  let s := { s with ke := { s.ke with nextKey := k + 3, drbgCount := s.ke.drbgCount + 3 } }
  modSlot s o (fun z => { z with
    state := 1, port := port, map := true, sealed := false, restored := false, generation := (z.generation + 1) % 256,
    kStack := k, kMap := k + 1, kWrap := k + 2, token := digest, sealHandle := none, destroyCause := 0 })

/-- First 128 bits of SHA-512 of an owner token (R525). -/
def tokenDigest (t : BitVec 128) : BitVec 128 :=
  BitVec.ofNat 128 ((sha512 (leBytes 16 t.toNat)).toNat / 2 ^ 384)

/-- OWNER_CREATE (R338, R525, R526, R539): the lowest free ID, its slot on every member, the owner bound to the issuing function;
NO_OWNER when no ID is free or a member cannot fill its slot (R524). -/
def actOwnerCreate (i : Issuer) (membersOk : Bool) (s : State) : State :=
  match freeOwner s with
  | none => complete s i stNoOwner
  | some o =>
    if s.ke.state = 2 ∨ !membersOk then complete s i stNoOwner
    else
      let (n, s) := draw (drbgRequest s)
      let token : BitVec 128 := BitVec.ofNat 128 n
      let s := fillSlot s o i.port (tokenDigest token)
      let s := setOwner s o (some { token := token, bound := [(i.port, fnKey i)] })
      let s := raiseEvent s pgKe 0x04 (info [(1, o), (1, ofBool i.port), (1, (getSlot s o).generation)])
      let s := shareOwner (broadcast s 0x40 [o, ofBool i.port] (leBytes 16 (tokenDigest token).toNat)) o
      complete s i stOk (leBytes 8 o ++ leBytes 16 token.toNat)

/-- OWNER_CREATE is fetched: it waits for its boundary (R348). -/
def execOwnerCreate (i : Issuer) (membersOk : Bool) (s : State) : Out :=
  boundaryCommand i 0x01 (.ownerCreate i membersOk) [] s

/-- OWNER_RELEASE (R340, R346): the owner's streams are closed and its key destruction ordered; the command completes when the key
is destroyed. Owner 0 is never released. -/
def actOwnerRelease (i : Issuer) (owner : BitVec 8) (s : State) : State :=
  let o := owner.toNat
  orRefuse i s (if o = 0 then some stBadParam else ownerRefusal s i o) fun s =>
    match getOwner s o with
    | none => complete s i stUnknown
    | some w =>
      if w.releaseCmd.isSome ∨ w.releasing then complete s i stUnknown
      else modOwner (orderDestroy s o 1 (some (i.port, i.pairKey))) o (fun w => { w with releaseCmd := some i })

/-- OWNER_RELEASE is fetched: it waits for its boundary (R348). -/
def execOwnerRelease (i : Issuer) (owner : BitVec 8) (s : State) : Out :=
  boundaryCommand i 0x02 (.ownerRelease i owner) [owner.toNat] s

/-- The new value of one tally under OWNER_LIMITS (R346, R354, R355): MODE 0 keeps it, FILL sets the balance to CAP x 1,000. -/
def limitTally (t : Tally) (mode rate cap : Nat) (fill : Bool) : Tally :=
  let t := if mode = 0 then t else { t with limited := mode == 2, rate := rate, cap := cap }
  if fill then { t with balance := (t.cap * 1000 : Nat), empty := false } else t

/-- OWNER_LIMITS (R346, R354-R356): modes, rates, caps and weight; balances returned, and a report of both balances and counts
written when an address is given. -/
def actOwnerLimits (i : Issuer) (owner genMode promptMode weight fill : BitVec 8)
    (genRate genCap promptRate promptCap : BitVec 32) (report : BitVec 64) (s : State) : State :=
  let o := owner.toNat
  orRefuse i s (ownerRefusal s i o) fun s =>
    if 2 < genMode.toNat ∨ 2 < promptMode.toNat ∨ (genMode ≠ 0 ∧ genCap = 0) ∨ (promptMode ≠ 0 ∧ promptCap = 0)
        ∨ 1 < fill.toNat then complete s i stBadParam
    else
      let w := (getOwner s o).getD {}
      let w := { w with
        gen := limitTally w.gen genMode.toNat genRate.toNat genCap.toNat (fill.getLsbD 0)
        prompt := limitTally w.prompt promptMode.toNat promptRate.toNat promptCap.toNat (fill.getLsbD 0)
        weight := if weight = 0 then w.weight else weight.toNat }
      let s := setOwner s o (some w)
      let bal := leBytes 8 (twos 64 w.gen.balance) ++ leBytes 8 (twos 64 w.prompt.balance)
      let s := if report = 0 then s else
        issuerWrite s i report.toNat ((bal ++ leBytes 8 w.gen.count ++ leBytes 8 w.prompt.count))
      complete s i stOk bal

/-- OWNER_LIMITS is fetched: it waits for its boundary (R348). -/
def execOwnerLimits (i : Issuer) (owner genMode promptMode weight fill : BitVec 8)
    (genRate genCap promptRate promptCap : BitVec 32) (report : BitVec 64) (s : State) : Out :=
  boundaryCommand i 0x03 (.ownerLimits i owner genMode promptMode weight fill genRate genCap promptRate promptCap report)
    [owner.toNat, genMode.toNat, promptMode.toNat, weight.toNat, fill.toNat, genRate.toNat, genCap.toNat, promptRate.toNat, promptCap.toNat,
     report.toNat] s

/-- The function a binding command names: one of the device that issued it (R450), as the headframe numbers it. -/
def targetKey (i : Issuer) (target : BitVec 8) : Nat :=
  if i.origin = 0xFF then target.toNat else 32 * (i.origin.toNat + 1) + target.toNat

/-- OWNER_BIND (R450, R461, R469): the owner is bound to another function of the same port; BAD_PARAM for owner 0, whose binding
never changes, and for a function that is disabled or in reset. -/
def actOwnerBind (i : Issuer) (owner target : BitVec 8) (s : State) : State :=
  let o := owner.toNat
  orRefuse i s (ownerRefusal s i o) fun s =>
    if o = 0 ∨ 31 < target.toNat ∨ !fnLive s i.port (targetKey i target) then complete s i stBadParam
    else
      let s := modOwner s o (fun w =>
        if w.bound.contains (i.port, targetKey i target) then w else { w with bound := w.bound ++ [(i.port, targetKey i target)] })
      complete (shareOwner s o) i stOk

/-- OWNER_BIND is fetched: it waits for the next round boundary, or acts at once while no set is admitted (R461). -/
def execOwnerBind (i : Issuer) (owner target : BitVec 8) (s : State) : Out :=
  headCommand i 0x04 [owner.toNat, target.toNat] s fun s =>
    if planAdmitted s then stage s i (.ownerBind i owner target) else actOwnerBind i owner target s

/-- OWNER_UNBIND (R450, R461, R475): BAD_PARAM for owner 0, for a function the owner is not bound to and for its only function. -/
def actOwnerUnbind (i : Issuer) (owner target : BitVec 8) (s : State) : State :=
  let o := owner.toNat
  orRefuse i s (ownerRefusal s i o) fun s =>
    let w := (getOwner s o).getD {}
    if o = 0 ∨ !w.bound.contains (i.port, targetKey i target) ∨ w.bound.length ≤ 1 then complete s i stBadParam
    else
      let s := modOwner s o (fun w => { w with bound := w.bound.filter (· != (i.port, targetKey i target)) })
      complete (shareOwner (dropAperture s o i.port (targetKey i target)) o) i stOk

/-- OWNER_UNBIND is fetched: it waits for the next round boundary, or acts at once while no set is admitted (R461). -/
def execOwnerUnbind (i : Issuer) (owner target : BitVec 8) (s : State) : Out :=
  headCommand i 0x05 [owner.toNat, target.toNat] s fun s =>
    if planAdmitted s then stage s i (.ownerUnbind i owner target) else actOwnerUnbind i owner target s

/-- OWNER_REATTACH (R499): STATE without a live heartbeat, UNKNOWN unless the issuing port holds the owner, DENIED with fault event
0x0C on a wrong token; otherwise the owner is bound to the issuing function and its streams return to the states they held. -/
def actOwnerReattach (i : Issuer) (owner : BitVec 8) (token : BitVec 128) (s : State) : State :=
  let o := owner.toNat
  let f := getFn s i.port (fnKey i)
  if !f.hbArmed || f.hbExpired then complete s i stState
  else match getOwner s o with
    | none => complete s i stUnknown
    | some w =>
      if w.held ≠ some i.port ∨ w.releasing then complete s i stUnknown
      else if tokenDigest token ≠ (getSlot s o).token then
        let n := min 255 (w.denials + 1)
        let s := modOwner s o (fun w => { w with denials := n })
        let s := raiseEvent s pgCx 0x0C (info [(1, o), (1, ofBool i.port), (1, i.fn.toNat), (1, n)])
        complete s i stDenied
      else
        let s := modOwner s o (fun w => { w with bound := [(i.port, fnKey i)], held := none, grace := none, denials := 0,
                                                 token := token })
        let s := modSlot s o (fun k => { k with state := 1, port := i.port })
        let s := forEach (streamIds s) (fun s sid => modStream s sid (fun t =>
          if t.owner = o then { t with
            state := if t.state = 9 then t.heldState else t.state, port := i.port, pair := i.pairKey, fn := fnKey i }
          else t)) s
        let s := raiseEvent s pgCx 0x0A (info [(1, o), (1, ofBool i.port), (1, i.fn.toNat)])
        complete (shareOwner s o) i stOk

/-- OWNER_REATTACH is fetched: it waits for its boundary (R348). -/
def execOwnerReattach (i : Issuer) (owner : BitVec 8) (token : BitVec 128) (s : State) : Out :=
  boundaryCommand i 0x06 (.ownerReattach i owner token) [owner.toNat, token.toNat % 2 ^ 64, token.toNat / 2 ^ 64] s

/-- Only PF0 of Port A of the headframe may issue the command (R461, R466). -/
def fromHeadPf0 (s : State) (i : Issuer) : Bool := !i.port && i.fn == 0 && isHeadframe s

/-- SCHED_SET (R346, R347, R351): DENIED from any function but PF0 of Port A of the headframe. -/
def actSchedSet (i : Issuer) (backfill prefillShare : BitVec 8) (s : State) : State :=
  if 1 < backfill.toNat ∨ prefillShare = 0 ∨ 64 < prefillShare.toNat then complete s i stBadParam
  else complete { s with sq := { s.sq with
    backfill := backfill == 1, prefillShare := prefillShare.toNat, backfillDropped := false } } i stOk

/-- SCHED_SET is fetched: it waits for its boundary (R348). -/
def execSchedSet (i : Issuer) (backfill prefillShare : BitVec 8) (s : State) : Out :=
  command i 0x33 [backfill.toNat, prefillShare.toNat] s fun s =>
    if fromHeadPf0 s i then stage s i (.schedSet i backfill prefillShare) else complete s i stDenied

/-- REPAIR_CTRL (R150, R461): stored, and in effect from the next round boundary. -/
def execRepairCtrl (i : Issuer) (owner : BitVec 8) (enabled live : Bool) (s : State) : Out :=
  headCommand i 0x25 [owner.toNat, ofBool enabled + 2 * ofBool live] s fun s =>
    orRefuse i s (ownerRefusal s i owner.toNat) fun s =>
      complete { broadcast s 0x53 [owner.toNat, ofBool enabled, ofBool live] with sq := { s.sq with
        repairNext := s.sq.repairNext.filter (·.1 != owner.toNat) ++ [(owner.toNat, (enabled, live))] } } i stOk

/-- The membership report (R461): a 64-byte header and one 64-byte record per position. -/
def membershipReport (s : State) : List Byte :=
  padTo 64 (leBytes 1 s.ri.count ++ leBytes 1 s.ri.generation ++ leBytes 1 s.ri.cause) ++
  s.ri.members.flatMap (fun m => padTo 64 (leBytes 8 m.serial.toNat ++ leBytes 32 m.digest.toNat ++
    padTo 4 (m.lanes.map (BitVec.ofNat 8)) ++ leBytes 2 m.inbyeHop ++ leBytes 2 m.outbyeHop))

/-- MEMBERSHIP (R461): BAD_PARAM when the buffer is smaller than 64 + 64 N bytes. -/
def execMembership (i : Issuer) (buffer : BitVec 64) (size : BitVec 32) (s : State) : Out :=
  deviceCommand i 0x34 [buffer.toNat, size.toNat] s fun s =>
    if size.toNat < 64 + 64 * s.ri.members.length then complete s i stBadParam
    else
      complete (issuerWrite s i buffer.toNat (membershipReport s)) i stOk (leBytes 1 s.ri.members.length ++ leBytes 1 s.ri.generation)

/-- FN_QUEUES (R453, R461): PF0 maps an UNCONFIGURED pair into a VF's doorbell page, or unmaps it. -/
def execFnQueues (i : Issuer) (vf mapEntry : BitVec 8) (map : Bool) (pair : BitVec 16) (s : State) : Out :=
  deviceCommand i 0x38 [vf.toNat, mapEntry.toNat, ofBool map, pair.toNat] s fun s =>
    if i.fn ≠ 0 then complete s i stNotAllowed
    else if vf = 0 ∨ 31 < vf.toNat ∨ 14 < mapEntry.toNat ∨ 255 < pair.toNat then complete s i stBadParam
    else
      let q := getQp s i.port pair.toNat
      let cur := tblGet 0 (getFn s i.port vf.toNat).queueMap mapEntry.toNat
      if map then
        if q.state ≠ 0 then complete s i stState
        else if cur ≠ 0 ∨ q.fn ≠ 0 then complete s i stBadParam
        else
          let s := modQp s i.port pair.toNat (fun q => { q with fn := vf.toNat })
          let s := modFn s i.port vf.toNat (fun f => { f with queueMap := tblSet 0 f.queueMap mapEntry.toNat (pair.toNat + 1) })
          complete s i stOk
      else
        if cur ≠ pair.toNat + 1 then complete s i stBadParam
        else if q.state ≠ 0 then complete s i stState
        else
          let s := modQp s i.port pair.toNat (fun q => { q with fn := 0 })
          let s := modFn s i.port vf.toNat (fun f => { f with queueMap := tblSet 0 f.queueMap mapEntry.toNat 0 })
          complete s i stOk

end Sys2Proof.Machine
end

