-- ==== Sys2Proof/Machine/StreamCommands.lean ====
section
/-! DEFINITION. Host commands on streams, and what happens to a pause (R341-R349, R362-R373, R461-R462, R527). -/

namespace Sys2Proof.Machine

/-! ### The settings block (R342, R462) -/

/-- TEMPERATURE is 0, or FP32 positive and normal (R342). -/
def temperatureOk (t : Nat) : Bool := t == 0 || (decide (0x00800000 ≤ t) && decide (t < 0x7F800000))

/-- TOP_P lies in (0, 1] (R342). -/
def topPOk (p : Nat) : Bool := decide (0 < p) && decide (p ≤ 0x3F800000)

/-- The settings a block gives under a field mask (R342, R462), over the settings before; none is BAD_PARAM. Mask bits in order:
CHANNEL, MODE, TEMPERATURE, TOP_P, TOP_K, K bounds, MAX_TOKENS, STOP, SEED, SHARE, TTL. -/
def parseSettings (old : Settings) (b : List Byte) (mask channels : Nat) : Option Settings :=
  if 2048 ≤ mask ∨ (padTo 23 (b.drop 41)).any (· != 0) ∨ (padTo 32 (b.drop 96)).any (· != 0) ∨ 1 < byteAt b 40 then none
  else
    let new : Settings :=
      { channel := if bit mask 0 then byteAt b 0 else old.channel
        solo := if bit mask 1 then byteAt b 1 == 1 else old.solo
        temperature := if bit mask 2 then BitVec.ofNat 32 (leAt b 4 4) else old.temperature
        topP := if bit mask 3 then BitVec.ofNat 32 (leAt b 8 4) else old.topP
        topK := if bit mask 4 then leAt b 12 2 else old.topK
        kMin := if bit mask 5 then byteAt b 2 else old.kMin
        kMax := if bit mask 5 then byteAt b 3 else old.kMax
        maxTokens := if bit mask 6 then leAt b 16 4 else old.maxTokens
        stop := if bit mask 7 then (upTo (byteAt b 15)).map (fun j => BitVec.ofNat 32 (leAt b (24 + 4 * j) 4)) else old.stop
        seed := if bit mask 8 then
            (if byteAt b 40 = 1 then some (BitVec.ofNat 256 (leAt b 64 32)) else none) else old.seed
        share := if bit mask 9 then byteAt b 14 == 1 else old.share
        ttl := if bit mask 10 then leAt b 20 4 else old.ttl }
    if new.channel < channels && (!bit mask 1 || decide (byteAt b 1 ≤ 1)) && temperatureOk new.temperature.toNat
        && topPOk new.topP.toNat && decide (1 ≤ new.topK) && decide (new.topK ≤ 256) && decide (new.kMin ≤ new.kMax)
        && decide (new.kMax ≤ 63) && decide (1 ≤ new.maxTokens) && decide (new.maxTokens ≤ 2 ^ 20)
        && (!bit mask 7 || decide (byteAt b 15 ≤ 4)) && (!bit mask 9 || decide (byteAt b 14 ≤ 1))
        && decide (1 ≤ new.ttl) && decide (new.ttl ≤ 86400) then some new else none

/-- The settings block of a stream as STREAM_QUERY reports it (R462), with the seed in use. -/
def settingsBlock (c : Settings) : List Byte :=
  padTo 64 (leBytes 1 c.channel ++ leBytes 1 (ofBool c.solo) ++ leBytes 1 c.kMin ++ leBytes 1 c.kMax ++
    leBytes 4 c.temperature.toNat ++ leBytes 4 c.topP.toNat ++ leBytes 2 c.topK ++ leBytes 1 (ofBool c.share) ++
    leBytes 1 c.stop.length ++ leBytes 4 c.maxTokens ++ leBytes 4 c.ttl ++
    padTo 16 (c.stop.flatMap (fun t => leBytes 4 t.toNat)) ++ leBytes 1 (ofBool c.seed.isSome)) ++
  padTo 64 (leBytes 32 ((c.seed.getD 0).toNat))

/-- A seed for settings that give none, drawn by the key engine's DRBG (R342, R524). -/
def withSeed (s : State) (c : Settings) : Settings × State :=
  match c.seed with
  | some _ => (c, s)
  | none => let (n, s) := draw (drbgRequest s); ({ c with seed := some (BitVec.ofNat 256 n) }, s)

/-- Channels of the admitted set (R261); 4 while none is admitted. -/
def channels (s : State) : Nat := match s.sq.planSet with
  | some p => p.channels
  | none => 4

/-- The settings a stream will have when the commands of this boundary have acted: a change that waits takes effect with them (R342). -/
def Stream.setDue (t : Stream) : Settings := t.setNext.getD t.set

/-- A stream holds its channel's one SOLO place (R342, R346), as the commands that acted before leave it; while it is paused, when the
change waits for its return (R345), it holds the place both as it is and as it is to be. -/
def Stream.holdsSolo (t : Stream) : Bool :=
  t.state != 10 && (t.setDue.solo || (decide (5 ≤ t.state) && decide (t.state ≤ 8) && t.set.solo))

/-- The channel of `c` already has a SOLO stream other than `self` (R342, R346). -/
def soloBusy (s : State) (self : Option Nat) (c : Settings) : Bool :=
  c.solo && (streamIds s).any (fun j => some j != self && match getStream s j with
    | some t => t.holdsSolo && t.set.channel == c.channel
    | none => false)

/-- The lowest free stream ID from 0 to 0xFFFE (R341). -/
def freeStream (s : State) : Option Nat :=
  let used := streamIds s
  (upTo (used.length + 1)).find? (fun j => decide (j < 0xFFFF) && !used.contains j)

/-- The pair on which a stream is to deliver is one of the issuing function's, and configured (R341, R453). -/
def pairOk (s : State) (i : Issuer) (pair : Nat) : Bool :=
  let q := getQp s i.port pair
  decide (pair ≤ 255) && q.fn == i.fn.toNat && q.state != 0

/-- That pair as the headframe numbers it. -/
def deliveryPair (i : Issuer) (pair : Nat) : Nat := if i.origin = 0xFF then pair else 256 * (i.origin.toNat + 1) + pair

/-- STREAM_OPEN (R341, R342, R346, R461, R524): host reads that fail complete with HOST_DMA. -/
def actStreamOpen (i : Issuer) (owner : BitVec 8) (settings : Option (List Byte)) (pair : BitVec 16) (s : State) : State :=
  orRefuse i s (ownerRefusal s i owner.toNat) fun s =>
    match s.sq.planSet, settings with
    | none, _ => complete s i stNoSet
    | some _, none => complete s i stHostDma
    | some ps, some b =>
      match parseSettings {} b 0x7FF ps.channels with
      | none => complete s i stBadParam
      | some c =>
        if (i.origin = 0xFF ∧ !pairOk s i pair.toNat) ∨ (s.ke.state = 2 ∧ c.seed = none) then
          complete s i stBadParam
        else if soloBusy s none c then complete s i stBusy
        else match freeStream s with
          | none => complete s i stNoStream
          | some sid =>
            let (c, s) := withSeed s c
            let s := setStream s sid (some { owner := owner.toNat, port := i.port, pair := deliveryPair i pair.toNat, fn := fnKey i,
                                             modelId := ps.modelId, set := c })
            complete s i stOk (leBytes 2 sid)

/-- STREAM_OPEN is fetched, and its settings are read (R449, R468): it waits for its boundary (R348). -/
def execStreamOpen (i : Issuer) (owner : BitVec 8) (settings : Option (List Byte)) (pair : BitVec 16) (s : State) : Out :=
  if !hostReadable s i 128 then .next s else headCommand i 0x10 [owner.toNat, pair.toNat] s (fun s => stage s i (.streamOpen i owner settings pair))
    (fun s => if pairOk s i pair.toNat then none else some stBadParam)

/-- The tokens of the positions from `p` on become known: STREAM_TOKENS keeps those of the last 4,096 positions (R461), the prefix keys are
formed over all (R363). -/
def putHistory (t : Stream) (p : Nat) (toks : List (BitVec 32)) : Stream :=
  let h := t.history.take (p - t.histBase) ++ toks
  { t with history := h.drop (h.length - 4096), histBase := min t.histBase p + (h.length - 4096), toks := t.toks.take p ++ toks }

/-- Tokens the prompt pool holds at most (R352). -/
def promptPool : Nat := 16777216

/-- Prefix key of a full page from the key before it (R363). -/
def prefixKey (before : BitVec 128) (tokens : List (BitVec 32)) (modelId : BitVec 64) (owner : Nat) : BitVec 128 :=
  BitVec.ofNat 128 ((sha512 (beBytes 16 before.toNat ++ tokens.flatMap (fun t => leBytes 4 t.toNat) ++
    leBytes 8 modelId.toNat ++ leBytes 1 owner)).toNat / 2 ^ 384)

/-- The frames of the indexed pages that match the first `n` full pages of an input, stopping at the first key that is absent, and
their keys (R365). -/
def matchPages (s : State) (owner : Nat) (modelId : BitVec 64) (channel : Nat) :
    Nat → List (BitVec 32) → BitVec 128 → List (Nat × BitVec 128)
  | 0, _, _ => []
  | n + 1, toks, before =>
    let k := prefixKey before (toks.take 64) modelId owner
    match s.prefixes.find? (fun e => e.1 == owner && e.2.1 == k && e.2.2.2 == channel) with
    | none => []
    | some e => (e.2.2.1, k) :: matchPages s owner modelId channel n (toks.drop 64) k

/-- STREAM_SUBMIT (R344, R346, R352, R365): the tokens become pending input; a stream in OPEN first attaches the shared pages whose
keys match. The prompt pool has held the tokens since the command was fetched. -/
def actStreamSubmit (i : Issuer) (owner : BitVec 8) (stream : BitVec 16) (count : BitVec 32)
    (tokens : Option (List Byte)) (s : State) : State :=
  match streamOf s i owner.toNat stream.toNat with
  | .error c => complete s i c
  | .ok t =>
    if count = 0 ∨ 65536 < count.toNat then complete s i stBadParam
    else if (t.state ≠ 1 ∧ t.state ≠ 4) ∨ t.closing ≠ 0 ∨ t.pausing then complete s i stState
    else match tokens with
      | none => complete s i stHostDma
      | some b =>
        let ids := (upTo count.toNat).map (fun j => BitVec.ofNat 32 (leAt b (4 * j) 4))
        let m := if t.state = 1 then matchPages s t.owner t.modelId t.set.channel ((count.toNat - 1) / 64) ids 0 else []
        let skip := 64 * m.length
        let s := { s with promptUsed := s.promptUsed + (count.toNat - skip) }
        let s := modStream s stream.toNat (fun t => {
          (if skip = 0 then t else putHistory t t.length (ids.take skip)) with
          state := 2, input := t.input ++ ids.drop skip, length := t.length + skip
          attach := t.attach ++ (m.zip (upTo m.length)).map (fun e => (e.2, e.1.1))
          keys := t.keys ++ m.map (·.2) })
        complete s i stOk

/-- STREAM_SUBMIT is fetched: its tokens are copied into the prompt pool at once, or refused with POOL_FULL, and the command waits for its
boundary (R346, R348, R352). -/
def execStreamSubmit (i : Issuer) (owner : BitVec 8) (stream : BitVec 16) (count : BitVec 32)
    (tokens : Option (List Byte)) (s : State) : Out :=
  if !hostReadable s i (4 * count.toNat) then .next s else headCommand i 0x11 [owner.toNat, stream.toNat, count.toNat] s fun s =>
    let held := if tokens.isSome ∧ count.toNat ≤ 65536 then count.toNat else 0
    if promptPool < s.promptUsed + held ∧ !s.sq.deferred.any (fun d => d.issuer == i) then complete s i stPoolFull
    else stage s i (.streamSubmit i owner stream count tokens) held

/-- STREAM_SET (R342, R345, R346, R462): the new settings wait for the next accepting boundary. -/
def actStreamSet (i : Issuer) (owner : BitVec 8) (stream : BitVec 16) (mask : BitVec 32)
    (settings : Option (List Byte)) (s : State) : State :=
  match streamOf s i owner.toNat stream.toNat with
  | .error c => complete s i c
  | .ok t =>
    if t.state = 10 then complete s i stState
    else if mask.getLsbD 0 then complete s i stBadParam
    else match settings with
      | none => complete s i stHostDma
      | some b =>
        match parseSettings t.setDue b mask.toNat (channels s) with
        | none => complete s i stBadParam
        | some c =>
          if s.ke.state = 2 ∧ c.seed = none then complete s i stBadParam
          else if soloBusy s (some stream.toNat) c then complete s i stBusy
          else
            let (c, s) := withSeed s c
            complete (modStream s stream.toNat (fun t => { t with setNext := some c })) i stOk

/-- STREAM_SET is fetched, and its settings are read (R449, R468): it waits for its boundary (R348). -/
def execStreamSet (i : Issuer) (owner : BitVec 8) (stream : BitVec 16) (mask : BitVec 32)
    (settings : Option (List Byte)) (s : State) : Out :=
  if !hostReadable s i 128 then .next s else boundaryCommand i 0x12 (.streamSet i owner stream mask settings) [owner.toNat, stream.toNat, mask.toNat] s

/-- STREAM_QUERY (R345, R346, R462): a 192-byte report and the state and length. -/
def execStreamQuery (i : Issuer) (owner : BitVec 8) (stream : BitVec 16) (report : BitVec 64) (s : State) : Out :=
  headCommand i 0x13 [owner.toNat, stream.toNat, report.toNat] s fun s =>
    match streamOf s i owner.toNat stream.toNat with
    | .error c => complete s i c
    | .ok t =>
      let held := if t.state = 5 ∨ t.state = 6 ∨ t.state = 7 ∨ t.state = 8 then t.heldState else 0
      let r := padTo 64 (leBytes 4 (t.state + 256 * held) ++ leBytes 4 t.length ++ leBytes 4 t.input.length ++
        leBytes 4 t.genCount ++ leBytes 1 t.k) ++ settingsBlock t.set
      complete (issuerWrite s i report.toNat r) i stOk (leBytes 4 t.state ++ leBytes 4 t.length)

/-- STREAM_FORK (R345, R346, R366): a new FINISHED stream with the same owner, settings, length and pages; every frame named gains a
reference at step 2. It has been assigned nothing yet, so its tracker starts afresh (R333), and it awaits no frame of its original's
(R341). -/
def actStreamFork (i : Issuer) (owner : BitVec 8) (stream : BitVec 16) (s : State) : State :=
  match streamOf s i owner.toNat stream.toNat with
  | .error c => complete s i c
  | .ok t =>
    if t.state ≠ 4 ∨ t.closing ≠ 0 ∨ t.pausing then complete s i stState
    else if t.setDue.solo then complete s i stBusy
    else match freeStream s with
      | none => complete s i stNoStream
      | some sid =>
        let s := setStream s sid (some { t with
          attach := t.pages.map (fun e => (e.1, e.2 - 1)) ++ t.attach, pages := [], copies := [], releases := [], awaiting := [], waits := []
          set := t.setDue, setNext := none, k := 0, tracked := false, sinceK0 := 0, passK := 0, specHeld := false
          inFlight := false, waitingSince := none, shortSec := none })
        complete s i stOk (leBytes 2 sid)

/-- STREAM_FORK is fetched: it waits for its boundary (R348). -/
def execStreamFork (i : Issuer) (owner : BitVec 8) (stream : BitVec 16) (s : State) : Out :=
  boundaryCommand i 0x14 (.streamFork i owner stream) [owner.toNat, stream.toNat] s

/-- STREAM_REWIND (R345, R346, R366): 1 ≤ L' ≤ L; pages wholly beyond L' are released at step 3. -/
def actStreamRewind (i : Issuer) (owner : BitVec 8) (stream : BitVec 16) (length : BitVec 32) (s : State) : State :=
  match streamOf s i owner.toNat stream.toNat with
  | .error c => complete s i c
  | .ok t =>
    if t.state ≠ 4 ∨ t.closing ≠ 0 ∨ t.pausing then complete s i stState
    else if length = 0 ∨ t.length < length.toNat then complete s i stBadParam
    else
      let l := length.toNat
      let s := modStream s stream.toNat (fun t => { t with
        length := l
        history := t.history.take (l - t.histBase)
        toks := t.toks.take l
        releases := t.releases ++ (t.pages.filter (fun e => l ≤ 64 * e.1)).map (fun e => e.2 - 1)
        pages := t.pages.filter (fun e => 64 * e.1 < l)
        attach := t.attach.filter (fun e => 64 * e.1 < l)
        keys := t.keys.take (l / 64) })
      complete s i stOk

/-- STREAM_REWIND is fetched: it waits for its boundary (R348). -/
def execStreamRewind (i : Issuer) (owner : BitVec 8) (stream : BitVec 16) (length : BitVec 32) (s : State) : Out :=
  boundaryCommand i 0x15 (.streamRewind i owner stream length) [owner.toNat, stream.toNat, length.toNat] s

/-- STREAM_PAUSE (R344, R346, R369): no new assignment; completes when the stream is paused. -/
def actStreamPause (i : Issuer) (owner : BitVec 8) (stream : BitVec 16) (ttl : BitVec 32) (s : State) : State :=
  match streamOf s i owner.toNat stream.toNat with
  | .error c => complete s i c
  | .ok t =>
    if 86400 < ttl.toNat then complete s i stBadParam
    else if (t.state ≠ 2 ∧ t.state ≠ 3 ∧ t.state ≠ 4) ∨ t.closing ≠ 0 ∨ t.pausing then complete s i stState
    else modStream s stream.toNat (fun t => { t with
      pausing := true, pauseTtl := if ttl = 0 then t.set.ttl else ttl.toNat, pauseFn := fnKey i
      waits := t.waits ++ [(1, i)] })

/-- STREAM_PAUSE is fetched: it waits for its boundary (R348). -/
def execStreamPause (i : Issuer) (owner : BitVec 8) (stream : BitVec 16) (ttl : BitVec 32) (s : State) : Out :=
  boundaryCommand i 0x16 (.streamPause i owner stream ttl) [owner.toNat, stream.toNat, ttl.toNat] s

/-! ### Frames (R358, R359) -/

/-- Frames of the frame pool that are free: count 0, not withdrawn, release epoch retired (R358). -/
def frameFree (s : State) (f : Nat) : Bool :=
  let r := getFrame s f
  r.count == 0 && !r.released && !r.withdrawn

/-- Bytes of stack memory outside the reserved region (R376, R358). -/
def poolBytes : Nat := 600000000000

/-- Frames this device has (R358). -/
def frameCount (s : State) : Nat := if s.ms.pageSize = 0 then 0 else poolBytes / s.ms.pageSize

/-- Frames in use or withdrawn. -/
def framesUsed (s : State) : Nat :=
  (s.ms.frames.filter (fun e => decide (e.1 < frameCount s) && (e.2.count != 0 || e.2.released || e.2.withdrawn))).length

/-- Free frames of this device. -/
def framesFree (s : State) : Nat := frameCount s - framesUsed s

/-- The device at a ring position holds a part of a channel in some plan of the admitted set (R263, R435). -/
def channelAt (s : State) (dev c : Nat) : Bool := match s.sq.planSet with
  | none => true
  | some p => p.plans.any (fun q => (q.recs.getD dev {}).positions.any (fun x => x.role != 2 && x.channel == c))

/-- This device holds a part of a channel. -/
def ownChannel (s : State) (c : Nat) : Bool := channelAt s (ownPosition s) c

/-- First of the frame numbers under which the headframe keeps the reference counts of a channel that it holds no part of: they stand for
the frames on that channel's devices and lie outside its own pool (log entry 35). -/
def farFrames : Nat := 2 ^ 40

/-- Where the frame numbers of a stream's pages begin on this device. -/
def frameBase (s : State) (sid : Nat) : Nat := match getStream s sid with
  | some t => if ownChannel s t.set.channel then 0 else farFrames
  | none => 0

/-- The lowest free frame from `base` on, if there is one. -/
def findFrame (s : State) (base : Nat) : Option Nat :=
  ((upTo (s.ms.frames.length + 1)).map (base + ·)).find? (fun f => (decide (base ≠ 0) || decide (f < frameCount s)) && frameFree s f)

/-- Allocate a free frame to an owner with count 1 (R359). -/
def allocFrame (s : State) (base o : Nat) : Option (Nat × State) :=
  match findFrame s base with
  | none => none
  | some f => some (f, modFrame s f (fun _ => { owner := o, count := 1 }))

/-- Allocate frames for the listed pages of a stream, private to it. -/
def allocPages (s : State) (sid o : Nat) : List Nat → State
  | [] => s
  | q :: qs => match allocFrame s (frameBase s sid) o with
    | none => s
    | some (f, s) => allocPages (modStream s sid (fun t => { t with pages := tblSet 0 t.pages q (f + 1) })) sid o qs

/-! ### Pause images (R368-R370, R527) -/

/-- Bytes of an entry e (R316). -/
def kvEntry (be4 : Bool) (d : Nat) : Nat := if be4 then 9 * d / 16 else d

/-- Page size of a geometry (R316). -/
def pageBytes (g : List Nat) : Nat := 2 * g.getD 3 0 * g.getD 0 0 * (64 * kvEntry (g.getD 2 0 == 1) (g.getD 1 0))

/-- The least place in a function's host tier that holds `n` bytes beside the images already in it (R368, log entry 82). -/
def tierFit (s : State) (port : Bool) (key n : Nat) : Option Nat :=
  let held := (streamIds s).filterMap (fun j => match getStream s j with
    | some t => if decide (t.port = port) && t.pauseFn == key && t.imageSize != 0 then some (t.imageAt, t.imageSize) else none
    | none => none)
  let fits := fun o => (getFn s port key).tierSize != 0 && decide (o + n ≤ (getFn s port key).tierSize * 2 ^ 30) && !held.any (fun h => overlap o n h.1 h.2)
  ((0 :: held.map (fun h => h.1 + h.2)).filter fits).foldl (fun m o => match m with
    | some b => some (min b o)
    | none => some o) none

/-- The IV of a page of a pause image (R370): pause number, ring position, page index, as one 96-bit number. -/
def imageIv (pauseNo position page : Nat) : Nat := pauseNo * 2 ^ 64 + position * 2 ^ 56 + page

/-- Ring position and page index of an image's header (R527). -/
def headerPage : Nat × Nat := (0xFF, 2 ^ 56 - 1)

/-- The header of a pause image (R370, in the model's own form, log entry 82): stream ID, owner, state held, MODEL_ID, KV geometry of each
ring position, L, settings, pending input. -/
def imageHeader (s : State) (sid : Nat) (t : Stream) : List Byte :=
  leBytes 2 sid ++ leBytes 1 t.owner ++ leBytes 1 t.state ++ leBytes 8 t.modelId.toNat ++ leBytes 4 t.length ++ leBytes 4 t.input.length ++
  leBytes 4 s.sq.kvGeom.length ++ s.sq.kvGeom.flatMap (leBytes 4) ++ settingsBlock t.set ++ t.input.flatMap (fun w => leBytes 4 w.toNat)

/-- Bytes of a stream's pause image (R369, R370): the header, and every page of every device of its channel, each with its tag. -/
def imageNeed (s : State) (sid : Nat) (t : Stream) : Nat :=
  (imageHeader s sid t).length + 16 + ((upTo (s.sq.kvGeom.length / 4)).map (fun p =>
    if channelAt s p t.set.channel then t.pages.length * (pageBytes (s.sq.kvGeom.drop (4 * p)) + 16) else 0)).sum

/-- A sealed page of this device, or the header, goes to its place in the image by the issuing function's DMA (R368-R370), within the room
that the image has there (log entry 82). -/
def imageWrite (s : State) (k : PauseKey) (position page : Nat) (bs : List Byte) : State := match k.image with
  | none => s
  | some (port, key, addr) =>
    let sealed := gcmSeal k.key (imageIv k.pauseNo position page) bs
    fnWrite s port key (addr + Config.imagePlace position page % max 1 (k.room + 1 - sealed.length)) sealed

/-- The pause of a stream is placed at the boundary at which no step of it is in flight any more (R344, R369, R527): in the issuing
function's host tier when that has room for the image, under a new pause key that every member learns, or else in the cold pool with event
0x12. `imageBytes` is the room firmware allots it, at least the image's own size over all devices. -/
def execPausePlacement (stream : BitVec 16) (imageBytes : Nat) (s : State) : Out :=
  .next <| match getStream s stream.toNat with
  | none => s
  | some t =>
    if !atEdge s 2 || !t.pausing || t.inFlight then s
    else match tierFit s t.port t.pauseFn (max imageBytes (imageNeed s stream.toNat t)) with
      | none =>
        let none' := decide ((getFn s t.port t.pauseFn).tierSize = 0)
        let s := modStream s stream.toNat (fun t => { t with
          state := 7, heldState := t.state, pausing := false, pauseStart := s.power.rtb })
        let s := raiseEvent s pgSq 0x12 (info [(2, stream.toNat), (1, if none' then 1 else 2)])
        completeWaits s stream.toNat 1 stOk [7]
      | some at' =>
        let room := max imageBytes (imageNeed s stream.toNat t)
        let n := (s.ke.pauseNo + 1) % 2 ^ 32
        let addr := (getFn s t.port t.pauseFn).tierAddr.toNat + at'
        let k : PauseKey := { owner := t.owner, pauseNo := n, key := Config.keyBits s.ke.nextKey, wrap := (getSlot s t.owner).kWrap
                              image := some (t.port, t.pauseFn, addr), room := room }
        let s := { s with ke := { s.ke with
          pauseNo := n, nextKey := s.ke.nextKey + 1, drbgCount := s.ke.drbgCount + 1
          pauseKeys := tblSet {} s.ke.pauseKeys stream.toNat k } }
        let s := broadcast s 0x54 [stream.toNat, t.owner, n, ofBool t.port, t.pauseFn, addr, room] (leBytes 32 k.key.toNat)
        let s := imageWrite s k headerPage.1 headerPage.2 (imageHeader s stream.toNat t)
        modStream s stream.toNat (fun t => { t with
          state := 5, heldState := t.state, pausing := false, imageModel := t.modelId, imageGeom := s.sq.kvGeom
          imageSize := room, imageAt := at' })

/-- Pages of a stream whose frames are this device's, ascending. -/
def ownPages (t : Stream) : List (Nat × Nat) := (t.pages.filter (fun e => decide (e.2 ≤ farFrames))).map (fun e => (e.1, e.2 - 1))

/-- This device seals one page of a stream and writes it to the image (R369, R370, R382). -/
def sealPage (sid : Nat) (ecc : List (Nat × Bool)) (s : State) (e : Nat × Nat) : State :=
  let k := tblGet {} s.ke.pauseKeys sid
  let a := frameAddr s e.2
  let s := eccRead s a s.ms.pageSize ecc rdImage 257
  imageWrite s k (ownPosition s) e.1 (readUnder s (stackKey s k.owner) a s.ms.pageSize)

/-- This device seals every page that it holds of the stream (R369); `read` names the stream and the errors its reads meet. On the headframe the row says
that every device has finished: at the next step 3 the pages are released and the stream is PAUSED_HOST. -/
def execPauseImageDone (read : ErrRead) (s : State) : Out :=
  .next <| match getStream s read.subject.toNat with
  | none => s
  | some t =>
    if (tblGet {} s.ke.pauseKeys read.subject.toNat).image.isNone then s
    else if !isHeadframe s then forEach (ownPages t) (sealPage read.subject.toNat read.ecc) s
    else if t.state ≠ 5 ∨ t.imageDone then s
    else modStream (forEach (ownPages t) (sealPage read.subject.toNat read.ecc) s) read.subject.toNat (fun t => { t with imageDone := true })

/-- RTB count at which a stream's pause expires: its start plus TTL (R371). -/
def expiryOf (t : Stream) : Nat := t.pauseStart.toNat + t.pauseTtl * 100000000

/-- A pause has reached its start plus TTL (R371). -/
def pauseExpired (s : State) (t : Stream) : Bool := decide (expiryOf t ≤ rtb s)

/-- A STREAM_RESUME of the stream was fetched before its pause expired and has not completed (R372). -/
def resumePending (s : State) (sid : Nat) (t : Stream) : Bool :=
  (s.hpA.fetched ++ s.hpB.fetched).any (fun f => f.opcode == 0x17 && leAt f.params 8 2 == sid
    && decide (f.fetchedAt < 4 * expiryOf t))

/-- A stream's pause expires now (R371, R372): paused, past its time, with no resume that was fetched before, and nothing else that ends the
pause under way. -/
def expiresNow (s : State) (sid : Nat) (t : Stream) : Bool :=
  (t.state == 6 || t.state == 7) && pauseExpired s t && !resumePending s sid t && t.closing == 0 && !t.restoring

/-- TTL expiry of one stream (R371): event 0x13, the pause key destroyed, and the stream to be CLOSED, with its references, at the step 3 that
follows. -/
def expireStream (s : State) (sid : Nat) : State :=
  match getStream s sid with
  | none => s
  | some t =>
    if expiresNow s sid t then
      let s := if t.state = 6 then dropPauseKey s sid else s
      let s := raiseEvent s pgSq 0x13 (info [(2, sid), (1, t.owner), (1, if t.state = 6 then 1 else 2)])
      wantClose (modStream s sid (fun t => { t with expired := true })) sid 2
    else s

/-- Pauses expire at an accepting boundary, or at a pass of steps 2 to 4, before its step 2 (R360, R371). -/
def expireDue (s : State) : State := forEach (streamIds s) expireStream s

/-- STREAM_RESUME (R344, R346, R372): EXPIRED when fetched at or after the expiry; a cold pause returns at step 2; a host-tier
pause needs the same model and geometry and frames on every device, then enters RESUMING. -/
def actStreamResume (i : Issuer) (owner : BitVec 8) (stream : BitVec 16) (othersHaveFrames : Bool) (s : State) : State :=
  match streamOf s i owner.toNat stream.toNat with
  | .error c => complete s i c
  | .ok t =>
    if t.expired then complete s i stExpired
    else if (t.state ≠ 6 ∧ t.state ≠ 7) ∨ t.restoring then complete s i stState
    else if 4 * expiryOf t ≤ fetchTime s i then complete s i stExpired
    else if t.closing ≠ 0 then complete s i stState
    else if t.state = 7 then
      modStream s stream.toNat (fun t => { t with restoring := true, waits := t.waits ++ [(2, i)] })
    else
      let need := (t.length + 63) / 64
      if s.sq.planSet.map (·.modelId) ≠ some t.imageModel ∨ s.sq.kvGeom ≠ t.imageGeom then
        complete s i stModelMismatch
      else if (ownChannel s t.set.channel ∧ framesFree s < need) ∨ !othersHaveFrames then complete s i stNoSpace
      else
        let s := allocPages s stream.toNat t.owner (upTo need)
        issueReads (modStream s stream.toNat (fun t => { t with state := 8, waits := t.waits ++ [(2, i)] })) t.port

/-- STREAM_RESUME is fetched: it waits for its boundary (R348). -/
def execStreamResume (i : Issuer) (owner : BitVec 8) (stream : BitVec 16) (othersHaveFrames : Bool) (s : State) : Out :=
  boundaryCommand i 0x17 (.streamResume i owner stream othersHaveFrames) [owner.toNat, stream.toNat] s

/-- A page of this device as its sealed bytes in the image open (R370, R372); none where the tag fails. -/
def openPage (s : State) (sid : Nat) (image : List (BitVec 56 × List Byte)) (page : Nat) : Option (List Byte) :=
  let k := tblGet {} s.ke.pauseKeys sid
  gcmOpen k.key (imageIv k.pauseNo (ownPosition s) page) (((image.find? (fun e => e.1.toNat == page)).map (·.2)).getD [])

/-- This device writes its restored pages into their frames (R372, R382). -/
def restorePages (s : State) (sid : Nat) (image : List (BitVec 56 × List Byte)) (t : Stream) : State :=
  forEach (ownPages t) (fun s e =>
    writeUnder s (stackKey s t.owner) (frameAddr s e.2) (padTo s.ms.pageSize ((openPage s sid image e.1).getD [])) 257) s

/-- This device reads its pages of the image, which host memory gave, and checks their tags (R372). On the headframe the row
says that every device has finished: the stream returns to its held state at step 2 and its pause key goes; a page that fails its tag (the
first of this device's, else that of another) closes the stream with TAG and fault event 0x14. Another member
tells the headframe of its failure. -/
def execResumeImageDone (stream : BitVec 16) (image : ImageRead) (s : State) : Out :=
  .next <| match getStream s stream.toNat with
  | none => s
  | some t =>
    if isHeadframe s && (t.state != 8 || decide (t.pauseFn < 32) && t.issued == 0 && t.imageSize != 0)
        || (tblGet {} s.ke.pauseKeys stream.toNat).image.isNone then s
    else
      let own := ((ownPages t).find? (fun e => (openPage s stream.toNat image.pages e.1).isNone)).map (fun e => (ownPosition s, e.1))
      match own.orElse (fun _ => image.tagFailure.map (fun f => (f.1.toNat, f.2.toNat))) with
      | some (p, page) =>
        if !isHeadframe s then sendMessage s 0 0x4B [stream.toNat, page]
        else
          let s := raiseEvent s pgSq 0x14 (info [(2, stream.toNat), (1, p), (7, page)])
          let s := completeWaits s stream.toNat 2 stTag []
          wantClose s stream.toNat 2
      | none =>
        let s := restorePages s stream.toNat image.pages t
        if !isHeadframe s then s
        else modStream (dropPauseKey s stream.toNat) stream.toNat (fun t => { t with restoring := true, imageSize := 0, issued := 0 })

/-- STREAM_CLOSE (R344, R346, R349): completes when the stream is CLOSED. -/
def actStreamClose (i : Issuer) (owner : BitVec 8) (stream : BitVec 16) (s : State) : State :=
  match streamOf s i owner.toNat stream.toNat with
  | .error c => complete s i c
  | .ok t =>
    if t.state = 10 then complete s i stState
    else
      let own := decide (t.port = i.port) && decide (t.pair = i.pairKey)
      let s := modStream s stream.toNat (fun t => { t with waits := t.waits ++ [(3, i)] })
      wantClose s stream.toNat (if own then 1 else 2)

/-- STREAM_CLOSE is fetched: it waits for its boundary (R348). -/
def execStreamClose (i : Issuer) (owner : BitVec 8) (stream : BitVec 16) (s : State) : Out :=
  boundaryCommand i 0x18 (.streamClose i owner stream) [owner.toNat, stream.toNat] s

/-- STREAM_TOKENS (R345, R461): the last 4,096 positions are kept; a request outside them is BAD_PARAM. -/
def execStreamTokens (i : Issuer) (owner : BitVec 8) (stream : BitVec 16) (buffer : BitVec 64) (first count : BitVec 32)
    (s : State) : Out :=
  headCommand i 0x19 [owner.toNat, stream.toNat, buffer.toNat, first.toNat, count.toNat] s fun s =>
    match streamOf s i owner.toNat stream.toNat with
    | .error c => complete s i c
    | .ok t =>
      if count = 0 ∨ 4096 < count.toNat ∨ first.toNat < t.histBase
          ∨ t.histBase + t.history.length < first.toNat + count.toNat then complete s i stBadParam
      else
        let ids := (t.history.drop (first.toNat - t.histBase)).take count.toNat
        complete (issuerWrite s i buffer.toNat (ids.flatMap (fun w => leBytes 4 w.toNat))) i stOk

/-- Release a function's host tier: every stream paused in it, or on its way in or out, closes (R368). `own` is the pair of the command that
releases it: a close by a stream's own pair is not reported (R465). -/
def releaseTier (s : State) (port : Bool) (fn : Nat) (own : Option (Bool × Nat)) : State :=
  let hit := (streamIds s).filter (fun j => match getStream s j with
    | some t => decide (t.port = port) && t.pauseFn == fn && (t.state == 6 || t.state == 5 || t.state == 8)
    | none => false)
  let s := forEach hit (fun s j => wantClose s j (if own = (getStream s j).map (fun t => (t.port, t.pair)) then 1 else 6)) s
  let s := if hit = [] then s else raiseEvent s pgSq 0x15 (info [(1, 0), (1, 4), (2, hit.length)])
  modFn s port fn (fun f => { f with tierAddr := 0, tierSize := 0 })

/-- TIER_REGISTER (R346, R368): a 4 KiB-aligned range of 1 to 1,024 GiB, or size 0 to release the function's tier. -/
def actTierRegister (i : Issuer) (addr : BitVec 64) (size : BitVec 32) (s : State) : State :=
  if 1024 < size.toNat ∨ (size ≠ 0 ∧ addr.toNat % 4096 ≠ 0) then complete s i stBadParam
  else
    let s := if (getFn s i.port (fnKey i)).tierSize = 0 then s else releaseTier s i.port (fnKey i) (some (i.port, i.pairKey))
    complete (modFn s i.port (fnKey i) (fun f => { f with
      tierAddr := if size = 0 then 0 else addr, tierSize := size.toNat })) i stOk

/-- TIER_REGISTER is fetched: it waits for its boundary (R348). -/
def execTierRegister (i : Issuer) (addr : BitVec 64) (size : BitVec 32) (s : State) : Out :=
  boundaryCommand i 0x1A (.tierRegister i addr size) [addr.toNat, size.toNat] s

/-! ### The boundary at which commands take effect (R348) -/

/-- A waiting command takes effect; the tokens held for it leave the pool first, and those it keeps are counted again. -/
def act (d : Deferred) (s : State) : State :=
  let i := d.issuer
  let s := freePool s d.held
  match d.cmd with
  | .ownerCreate _ membersOk => actOwnerCreate i membersOk s
  | .ownerRelease _ o => actOwnerRelease i o s
  | .ownerLimits _ o gm pm w f gr gc pr pc report => actOwnerLimits i o gm pm w f gr gc pr pc report s
  | .ownerBind _ o target => actOwnerBind i o target s
  | .ownerUnbind _ o target => actOwnerUnbind i o target s
  | .ownerReattach _ o token => actOwnerReattach i o token s
  | .streamOpen _ o settings pair => actStreamOpen i o settings pair s
  | .streamSubmit _ o stream count tokens => actStreamSubmit i o stream count tokens s
  | .streamSet _ o stream mask settings => actStreamSet i o stream mask settings s
  | .streamFork _ o stream => actStreamFork i o stream s
  | .streamRewind _ o stream length => actStreamRewind i o stream length s
  | .streamPause _ o stream ttl => actStreamPause i o stream ttl s
  | .streamResume _ o stream othersHaveFrames => actStreamResume i o stream othersHaveFrames s
  | .streamClose _ o stream => actStreamClose i o stream s
  | .tierRegister _ addr size => actTierRegister i addr size s
  | .schedSet _ backfill prefillShare => actSchedSet i backfill prefillShare s
  | _ => s

/-- Insert a fetched command behind those fetched no later. -/
def insertFetched (f : Fetched) : List Fetched → List Fetched
  | [] => [f]
  | g :: gs => if f.fetchedAt < g.fetchedAt then f :: g :: gs else g :: insertFetched f gs

/-- Opcodes of the commands that take effect at a boundary (R346, R348, R461). -/
def boundaryOps : List Nat := [0x01, 0x02, 0x03, 0x04, 0x05, 0x06, 0x10, 0x11, 0x12, 0x14, 0x15, 0x16, 0x17, 0x18, 0x1A, 0x33]

/-- The waiting record of a fetched command. -/
def stagedOf (s : State) (f : Fetched) : Option Deferred := s.sq.deferred.find? (fun d => d.issuer == issuerOf f.port f)

/-- A fetched command of this device that waits for a boundary and that its row has not handed on yet (log entry 111). -/
def unstaged (s : State) (f : Fetched) : Bool :=
  boundaryOps.contains f.opcode && (stagedOf s f).isNone && mayStart s (issuerOf f.port f) f.opcode

/-- Commands that take effect at a boundary of this instant (R348, R464): fetched in an earlier SCLK cycle, in order of fetch, Port A first
among those fetched in one cycle, none before a command fetched earlier has been handed on. -/
def dueCommands (s : State) : List Deferred :=
  let fs := ((s.hpA.fetched ++ s.hpB.fetched).filter (fun f => decide (f.fetchedAt < sclkRtb s))).foldl (fun m f => insertFetched f m) []
  (fs.takeWhile (fun f => !unstaged s f)).filterMap (stagedOf s)

/-- One command leaves the waiting ones and takes effect. -/
def actOne (s : State) (d : Deferred) : State :=
  act d { s with sq := { s.sq with deferred := s.sq.deferred.filter (fun e => e.issuer != d.issuer) } }

/-- Waiting commands whose fetched record is gone with a reset of their function are dropped (R467). -/
def dropGone (s : State) : State :=
  forEach (s.sq.deferred.filter (fun d => (findFetched s d.issuer).isNone)) (fun s d =>
    { freePool s d.held with sq := { s.sq with deferred := s.sq.deferred.filter (fun e => e.issuer != d.issuer) } }) s

/-- The waiting commands take effect, at an accepting boundary or at a pass while no set is admitted (R348, log entry 81). -/
def actCommands (s : State) : State := forEach (dueCommands s) actOne (dropGone s)

/-- The bindings among the waiting commands take effect at any round boundary (R461). -/
def actBindings (s : State) : State :=
  forEach ((dueCommands s).filter (fun d => match d.cmd with
    | .ownerBind _ _ _ => true
    | .ownerUnbind _ _ _ => true
    | _ => false)) actOne s

end Sys2Proof.Machine
end

