-- ==== Sys2Proof/Machine/HostPort.lean ====
section
/-! DEFINITION. Host ports: functions, aperture and heartbeat registers, resets, links, orphaning and grace (R445-R447, R467-R480,
R496-R498, R522, R599). -/

namespace Sys2Proof.Machine

/-! ### Identity in configuration space (R448) -/

/-- Vendor ID of every function (R448). -/
def vendorId : Nat := 0x1F9C
/-- Device ID of a function: PF0 or a VF (R448). -/
def deviceId (fn : Nat) : Nat := if fn = 0 then 0x0640 else 0x0641
/-- Class code of every function (R448). -/
def classCode : Nat := 0x120000
/-- Revision ID of every function: stepping B0 (R448). -/
def revisionId : Nat := 0xB0

/-- What a function reports of its identity (R448): Vendor ID, Device ID, class code, Revision ID. -/
def configIdentity (fn : Nat) : Nat × Nat × Nat × Nat := (vendorId, deviceId fn, classCode, revisionId)

/-! ### Who may write a page (R31, R33, R35, R626) -/

/-- A page answers: DEV, DP and HP with main power, the others from ROM upward (R626); only DP while main power is absent (R35). -/
def pageOpen (s : State) (page : Nat) : Bool :=
  if mainPower s then decide (3 ≤ s.power.state.code) || page == pgDev || page == pgDp || page == 8 || page == 9 else page == pgDp

/-- R31 lets PF0 of a port write a page: HP_A and HP_B only their own PF0; an assigned page PF0 of its port; any other page PF0 of
either port. A PF0 reaches no function page. -/
def pf0Writes (s : State) (port : Bool) (page : Nat) : Bool :=
  decide (page < 339) &&
  (if page = 8 then !port else if page = 9 then port
   else let h := getHdr s page; !h.ownerValid || h.ownerPort == port)

/-- PAGE_CTRL.EN lets the page's block accept work (R21); what is at work goes on (log entry 67). -/
def takesWork (s : State) (page : Nat) : Bool := (getHdr s page).en

/-- PF0 of a port reaches BAR0: its link is up, the port is enabled and PF0 is not in reset (R447, R467). -/
def pf0Live (s : State) (port : Bool) : Bool := (getHp s port).up && fnEnabled s port 0 && !(getFn s port 0).inReset

/-- A virtual function reaches its BAR0 (R33, R447, R467): its link is operational and it is live. -/
def vfLive (s : State) (port : Bool) (f : Nat) : Bool :=
  decide (1 ≤ f) && fnLive s port f && (getHp s port).up && !(getHp s port).diag

/-- A writer may write block registers of a page (R31, R33, R35); the registers management may write are fewer (R35). -/
def mayWrite (s : State) (a : Accessor) (page : Nat) : Bool :=
  pageOpen s page && match a with
  | .mgmt => true
  | .vf port f => page == pgFn port f.toNat && vfLive s port f.toNat
  | .pf0 port => pf0Live s port && pf0Writes s port page
  | .bar2 _ => false
  | .mgmtFn _ _ => false

/-! ### Aperture and heartbeat registers (R474-R477) -/

/-- The function whose aperture or heartbeat register lies on a page: PF0 on an HP page, a VF on its function page. -/
def pageOfFn (port : Bool) (fn : Nat) : Nat := if fn = 0 then pgHp port else pgFn port fn

/-- Aperture size of a function in GiB: BAR4 of PF0, 1 GiB for a VF (R37, R474). -/
def apertureGib (s : State) (port : Bool) (fn : Nat) : Nat := if fn = 0 then 2 ^ ((getHp s port).bar4Log - 30) else 1

/-- Write of HP_APT_BASE or HP_FN_APT_BASE (R474): discarded when the base is not a multiple of the aperture size. -/
def writeAptBase (s : State) (port : Bool) (fn v : Nat) : State :=
  let b := v % 1024
  if b % apertureGib s port fn ≠ 0 then s else modFn s port fn (fun f => { f with aptBase := b })

/-- Write of HP_APT_OWNER or HP_FN_APT_OWNER (R475): discarded when the owner is not bound to the function; 0 on a VF removes the
aperture (R451). -/
def writeAptOwner (s : State) (port : Bool) (fn v : Nat) : State :=
  let o := v % 256
  if o = 0 ∨ boundTo s o port fn then modFn s port fn (fun f => { f with aptOwner := o }) else s

/-- A member tells the headframe what has happened to one of its functions (functionTold). -/
def tellHead (s : State) (port : Bool) (fn what : Nat) : State :=
  if isHeadframe s then s else sendMessage s 0 0x46 [ofBool port, fn, what]

/-- Write of HP_HEARTBEAT (R476, R477): the value is stored and the function's timer starts afresh. -/
def writeHeartbeat (s : State) (port : Bool) (fn v : Nat) : State :=
  let f := getFn s port fn
  let s := if f.hbArmed ∧ !f.hbExpired then s else tellHead s port fn 1
  modFn s port fn (fun f => { f with hbValue := BitVec.ofNat 32 v, hbArmed := true, hbExpired := false
                                     hbDeadline := s.clock + (getHp s port).hbTimeout * msCycles })

/-- Write of HP_HEARTBEAT_TIMEOUT or HP_GRACE (R477): out-of-range values are discarded. -/
def writeTimeout (s : State) (port grace : Bool) (v : Nat) : State :=
  let n := v % 65536
  if grace then (if 10 ≤ n ∧ n ≤ 3600 then modHp s port (fun h => { h with grace := n }) else s)
  else if 250 ≤ n ∧ n ≤ 10000 then modHp s port (fun h => { h with hbTimeout := n }) else s

/-- HP_APT_BASE: a write of the aperture base of function `fn` of the port of page `page` (R474). -/
def execHpAptBase (a : Accessor) (page : Bool) (fn : BitVec 5) (value : BitVec 32) (s : State) : Out :=
  .next (if mayWrite s a (pageOfFn page fn.toNat) && a != .mgmt then writeAptBase s page fn.toNat value.toNat else s)

/-- HP_APT_OWNER (R475). -/
def execHpAptOwner (a : Accessor) (page : Bool) (fn : BitVec 5) (value : BitVec 32) (s : State) : Out :=
  .next (if mayWrite s a (pageOfFn page fn.toNat) && a != .mgmt then writeAptOwner s page fn.toNat value.toNat else s)

/-- HP_HEARTBEAT (R476). -/
def execHpHeartbeat (a : Accessor) (page : Bool) (fn : BitVec 5) (value : BitVec 32) (s : State) : Out :=
  .next (if mayWrite s a (pageOfFn page fn.toNat) && a != .mgmt then writeHeartbeat s page fn.toNat value.toNat else s)

/-- HP_HEARTBEAT_TIMEOUT and HP_GRACE (R477). -/
def execHpHeartbeatTimeout (a : Accessor) (page : Bool) (grace : Bool) (value : BitVec 32) (s : State) : Out :=
  .next (if mayWrite s a (pgHp page) && a != .mgmt then writeTimeout s page grace value.toNat else s)

/-- A heartbeat timer that has run out expires (R476, R477, R480). -/
def execHeartbeatLost (port : Bool) (fn : BitVec 5) (s : State) : Out :=
  .next <|
    let f := getFn s port fn.toNat
    if f.hbArmed ∧ !f.hbExpired ∧ f.hbDeadline ≤ s.clock then
      raiseEvent (modFn (tellHead s port fn.toNat 0) port fn.toNat (fun f => { f with hbExpired := true })) (pgHp port) 0x07 (info [(1, fn.toNat)])
    else s

/-! ### Orphaning (R496-R498) -/

/-- Streams of an owner that orphaning moves to ORPHANED: those in OPEN, PREFILL, DECODE or FINISHED (R497). -/
def orphanStreams (s : State) (o : Nat) : List Nat :=
  (streamIds s).filter (fun j => match getStream s j with
    | some t => t.owner == o && decide (1 ≤ t.state) && decide (t.state ≤ 4)
    | none => false)

/-- An owner all of whose functions have an expired heartbeat becomes orphaned, at a round boundary, or at once while no set is admitted
(R496, R497). -/
def execOrphaned (owner : BitVec 8) (s : State) : Out :=
  .next <|
    let o := owner.toNat
    match getOwner s o with
    | none => s
    | some w =>
      match w.bound with
      | [] => s
      | b :: _ =>
        if !orphanDue s o || (planAdmitted s && !atEdge s 0) then s
        else
          let port := b.1
          let grace := (getHp s port).grace
          let hit := orphanStreams s o
          let s := forEach w.bound (fun s x => dropAperture s o x.1 x.2) s
          let s := forEach hit (fun s j => modStream s j (fun t => { t with state := 9, heldState := t.state })) s
          let s := modOwner s o (fun w => { w with
            bound := [], held := some port, grace := some (BitVec.ofNat 64 (rtb s + grace * 100000000)), denials := 0 })
          let s := modSlot s o (fun k => { k with state := 2, port := port })
          raiseEvent (shareOwner s o) pgCx 0x09 (info [(1, o), (1, ofBool port), (2, hit.length), (4, grace)])

/-- A reattachment of the owner was fetched before its grace deadline and has not completed (R499). -/
def reattachPending (s : State) (o : Nat) (deadline : Nat) : Bool :=
  (s.hpA.fetched ++ s.hpB.fetched).any (fun f => f.opcode == 0x06 && byteAt f.params 0 == o && decide (f.fetchedAt < 4 * deadline))

/-- At the first boundary or pass at the grace deadline the owner's key is destroyed (R498). -/
def execGraceExpired (owner : BitVec 8) (s : State) : Out :=
  .next <|
    let o := owner.toNat
    match getOwner s o with
    | none => s
    | some w =>
      match w.held, w.grace with
      | some port, some d =>
        if rtb s < d.toNat ∨ !atEdge s 0 ∨ w.releasing ∨ reattachPending s o d.toNat then s
        else
          let n := (liveStreamsOf s o).length
          let s := orderDestroy s o 3 none
          raiseEvent s pgCx 0x0B (info [(1, o), (1, ofBool port), (2, n)])
      | _, _ => s

/-! ### Function resets (R467, R468, R632) -/

/-- Owners bound to a function. -/
def ownersOf (s : State) (port : Bool) (fn : Nat) : List Nat :=
  (ownerIds s).filter (fun o => o != 0 && boundTo s o port fn)

/-- Transport of the DOE mailbox of a function (R470); 0 is the management endpoint. -/
def mailbox (port : Bool) (fn : Nat) : Nat := 1 + fnMaster port fn

/-- A function loses its owners (R467, R475); the headframe tells the members. -/
def unbindFrom (s : State) (port : Bool) (fn : Nat) : State :=
  forEach (ownersOf s port fn) (fun s o =>
    let s := dropAperture (modOwner s o (fun w => { w with bound := w.bound.filter (· != (port, fn)) })) o port fn
    if isHeadframe s then shareOwner s o else s) s

/-- A function reset is received (R467): its owners are unbound from it, its commands not yet in effect are discarded, doorbells and
fetch stop, its configuration space is reset, Bus Master Enable with it, and its heartbeat timer is disarmed (R476). `since` is when it
began (R468, R480). -/
def startReset (s : State) (port : Bool) (fn kind since : Nat) : State :=
  let s := tellHead (unbindFrom s port fn) port fn 2
  let s := modHp s port (fun h => { h with fetched := h.fetched.filter (fun f => f.fn != fn || decide (256 ≤ f.pair) || f.inEffect) })
  let w := mailbox port fn
  let s := { s with mgmt := { s.mgmt with sessions := s.mgmt.sessions.filter (fun z => z.transport != w)
                                          negotiated := s.mgmt.negotiated.filter (· != w) } }
  modFn s port fn (fun f => { f with
    inReset := true, resetDone := false, busMaster := false, resetAt := since, resetKind := kind, keysDestroyed := 0, hbArmed := false, hbExpired := false
    hbValue := 0, aptBase := 0, selIde := 0, linkIde := false })

/-- Owners that no function holds any more and that no port holds: their keys go at the boundary (R467). -/
def deserted (s : State) : List Nat :=
  (ownerIds s).filter (fun o => o != 0 && match getOwner s o with
    | some w => w.held.isNone && !w.releasing && !w.bound.any (fun b => fnLive s b.1 b.2)
    | none => false)

/-- What is delayed on a port for a function (R467, R468). -/
def dmaOf (s : State) (port : Bool) (fn : Nat) : Output → Bool
  | .completion _ pair _ _ => (getQp s port pair).fn == fn
  | .hostWrite _ f _ _ => f == fn
  | .msix _ f _ => f == fn
  | _ => false

/-- The beat boundary after a function reset (R467, R368), in an idle tick: the host DMA for the function is aborted and its outstanding reads are
discarded, while its commands in effect run on; its host tier is released, and the key of each owner left bound to no live function
destroyed. -/
def resetBoundary (s : State) (port : Bool) (fn : Nat) : State :=
  if !(getFn s port fn).inReset || (getFn s port fn).resetDone || s.sq.live.isSome then s
  else
    let s := modHp s port (fun h => { h with
      fetched := h.fetched.map (fun f => if f.fn = fn ∧ f.pair < 256 then { f with dropped := true, issued := 0 } else f)
      delayed := h.delayed.filter (fun o => !dmaOf s port fn o) })
    let s := modFn s port fn (fun f => { f with resetDone := true })
    let s := tellHead (if (getFn s port fn).tierSize = 0 then s else releaseTier s port fn none) port fn 3
    let gone := if isHeadframe s then deserted s else []
    let s := forEach gone (fun s o => orderDestroy s o 2 none) s
    modFn s port fn (fun f => { f with keysDestroyed := f.keysDestroyed + gone.length })

/-- Pairs of a port that belong to a function. -/
def pairsOf (s : State) (port : Bool) (fn : Nat) : List Nat :=
  (upTo 256).filter (fun p => (getQp s port p).fn == fn)

/-- A function comes out of reset (R467, R632): its pairs are UNCONFIGURED and its aperture owner is 0. A pair that its map no longer names is
PF0's again (R453). -/
def leaveReset (s : State) (port : Bool) (fn : Nat) : State :=
  let mapped := (getFn s port fn).queueMap
  let s := forEach (pairsOf s port fn) (fun s p => modQp s port p (fun q =>
    { fn := if mapped.any (fun e => e.2 == p + 1) then q.fn else 0, cfg := q.cfg + 1 })) s
  let s := tellHead (if fn = 0 then s else modHdr s (pgFn port fn) (fun _ => {})) port fn 4
  modFn s port fn (fun f => { enabled := f.enabled, queueMap := f.queueMap, busMaster := f.busMaster })

/-- VF Enable is cleared (R445, R468): an FLR of every VF of the port, which is disabled. -/
def clearVfs (s : State) (port : Bool) : State :=
  let vfs := (upTo 32).filter (fun k => k != 0 && (getFn s port k).enabled)
  let s := forEach vfs (fun s k =>
    tellHead (modFn (startReset s port k 2 s.clock) port k (fun f => { f with enabled := false })) port k 6) s
  modHp s port (fun h => { h with numVf := 0, statusCleared := false })

/-- FLR of a function (R467); that of PF0 resets VF Enable with its configuration space. -/
def execFlr (port : Bool) (fn : BitVec 5) (s : State) : Out :=
  .next (if fnEnabled s port fn.toNat then startReset (if fn = 0 then clearVfs s port else s) port fn.toNat 1 s.clock else s)

/-- The next beat boundary after an FLR (R467). -/
def execFlrBoundary (port : Bool) (fn : BitVec 5) (s : State) : Out := .next (resetBoundary s port fn.toNat)

/-- A function, or after PERST or link loss the whole port, becomes ready again and event 0x09 is raised (R467, R480). -/
def execFunctionReset (port : Bool) (fn : BitVec 5) (s : State) : Out :=
  .next <|
    let f := getFn s port fn.toNat
    if !f.inReset || !f.resetDone then s
    else
      let whole := decide (3 ≤ f.resetKind) && fn == 0
      let fns := if whole then (upTo 32).filter (fun k => (getFn s port k).inReset && (getFn s port k).resetDone) else [fn.toNat]
      let keys := (fns.map (fun k => (getFn s port k).keysDestroyed)).sum
      let s := forEach fns (fun s k => leaveReset s port k) s
      raiseEvent s (pgHp port) 0x09 (info [(1, if whole then 0xFF else fn.toNat), (1, f.resetKind), (2, keys),
                                           (2, (s.clock - f.resetAt) / msCycles)])

/-- Clearing VF Enable (R445, R468). -/
def execVfEnableClear (port : Bool) (s : State) : Out := .next (clearVfs s port)

/-- Setting VF Enable enables the first `count` virtual functions, at most MAX_VF of the manifest (R445, R516). -/
def execVfEnableSet (port : Bool) (count : BitVec 5) (s : State) : Out :=
  .next <|
    if !fnEnabled s port 0 || (getFn s port 0).inReset || s.manifest.maxVf < count.toNat then s
    else
      let s := forEach ((upTo (count.toNat + 1)).drop 1) (fun s k => tellHead (modFn s port k (fun f => { f with enabled := true })) port k 5) s
      modHp s port (fun h => { h with numVf := count.toNat, statusCleared := false })

/-- PERST of a port acts as an FLR of every function of the port (R468); the HP page with its PAGE_LOCK is cleared (R632). -/
def portReset (s : State) (port : Bool) (kind since : Nat) : State :=
  let fns := (upTo 32).filter (fun k => fnEnabled s port k)
  let s := forEach fns (fun s k => startReset s port k kind since) s
  let s := forEach (fns.filter (· != 0)) (fun s k => tellHead (modFn s port k (fun f => { f with enabled := false, queueMap := [] })) port k 6) s
  let s := { s with frozen := s.frozen.filter (fun z => z.page != pgHp port) }
  let s := modHdr s (pgHp port) (fun h => { en := h.en })
  modHp s port (fun h => { h with state := 0, delayed := [], up := false, speed := 0, width := 0, diag := false, urCount := {}, numVf := 0
                                  hbTimeout := 1000, grace := 60, bar4Log := 30 })

/-- The manifest enables a port (R516, R518, R599). -/
def portEnabled (s : State) (port : Bool) : Bool := s.manifest.hpEnable.getLsbD (if port then 1 else 0)

/-- PERST_A# or PERST_B# is asserted (R468, R599); the PERST of a port the manifest disables has no effect. -/
def execPerstAssert (port : Bool) (s : State) : Out :=
  .next <|
    let s' := { s with pins := if port then { s.pins with perstB := true } else { s.pins with perstA := true } }
    if !portEnabled s port then s'
    else if (if port then s.pins.perstB else s.pins.perstA) then s'
    else if mainPower s then portReset s' port 3 s.clock else s'

/-- PERST is deasserted: the port starts (state DOWN until its link trains), once PWR_GOOD is high (R471, R599). -/
def execPerstDeassert (port : Bool) (s : State) : Out :=
  .next <|
    let s := { s with pins := if port then { s.pins with perstB := false } else { s.pins with perstA := false } }
    if portEnabled s port && s.pins.powerGood && (getHp s port).state == 0 then modHp s port (fun h => { h with state := 1 }) else s

/-- The rates and widths at which a host link trains (R445, R446, R473): 32 or 64 GT/s; 1, 2, 4 or 8 lanes. -/
def linkTrains (speed width : Nat) : Bool := (speed == 5 || speed == 6) && [1, 2, 4, 8].contains width

/-- A link that trains at 32 GT/s or below x4 is a diagnostic link (R447); speed codes of R473. -/
def linkDiag (speed width : Nat) : Bool := speed != 6 || decide (width < 4)

/-- The host link trains (width above 0) or goes down (width 0) (R471, R473, R480). A port in reset, disabled, or without its
REFCLK does not train (R598). DMA that a link lost for less than 100 ms has delayed goes out (R468). -/
def execHostLinkChange (port : Bool) (speed : BitVec 3) (width : BitVec 4) (s : State) : Out :=
  .next <|
    if width = 0 then
      if !(getHp s port).up then s
      else
        let s := modHp s port (fun h => { h with statusCleared := false, up := false, speed := 0, width := 0, diag := false, state := 1 })
        let s := { s with power := if port then { s.power with linkLossB := some s.clock }
                                   else { s.power with linkLossA := some s.clock } }
        raiseEvent s (pgHp port) 0x06 (info [(1, 2), (1, 0), (1, 0)])
    else if !linkTrains speed.toNat width.toNat ∨ (getHp s port).state = 0 ∨ !portEnabled s port ∨ !(if port then s.pins.refB else s.pins.refA) then s
    else
      let d := linkDiag speed.toNat width.toNat
      let s := modHp s port (fun h => { h with
        statusCleared := false, up := true, speed := speed.toNat, width := width.toNat, diag := d, state := if d then 2 else 3 })
      let s := { s with power := if port then { s.power with linkLossB := none } else { s.power with linkLossA := none } }
      let waiting := (getHp s port).delayed
      let s := forEach waiting emit (modHp s port (fun h => { h with delayed := [] }))
      raiseEvent s (pgHp port) 0x06 (info [(1, if d then 3 else 1), (1, speed.toNat), (1, width.toNat)])

/-- A link down for 100 ms acts as PERST of its port (R468). -/
def execLinkLossTimeout (port : Bool) (s : State) : Out :=
  .next <|
    match (if port then s.power.linkLossB else s.power.linkLossA) with
    | none => s
    | some t =>
      if s.clock < t + 100 * msCycles ∨ (getHp s port).up then s
      else
        let s := { s with power := if port then { s.power with linkLossB := none } else { s.power with linkLossA := none } }
        modHp (portReset s port 4 t) port (fun h => { h with state := 1 })

/-- Bus Master Enable of a function (R468): cleared, it stops fetch and DMA and drops completions; set, fetch resumes. -/
def execBusMasterEnable (port : Bool) (fn : BitVec 5) (on : Bool) (s : State) : Out :=
  .next (modFn s port fn.toNat (fun f => { f with busMaster := on }))

/-- A write of the Resizable BAR capability: any power of two from 1 GiB to 64 GiB (R37); the base is cut to a multiple of the
size (R474, log entry 22). -/
def execResizableBar (port : Bool) (log2Size : BitVec 6) (s : State) : Out :=
  .next (if 30 ≤ log2Size.toNat ∧ log2Size.toNat ≤ 36 ∧ (getHp s port).up then
    let s := modHp s port (fun h => { h with bar4Log := log2Size.toNat })
    modFn s port 0 (fun f => { f with aptBase := f.aptBase - f.aptBase % apertureGib s port 0 })
  else s)

/-- DOE Discovery (R470): vendor ID, protocol and next index of each protocol the mailbox serves. -/
def doeProtocols : List (Nat × Nat) := [(0x0001, 0x00), (0x0001, 0x01), (0x0001, 0x02), (vendorId, 0x01)]

/-- DOE_DISCOVERY on a function's mailbox (R470): an index past the last protocol answers vendor 0xFFFF and next index 0. -/
def execDoeDiscovery (port : Bool) (fn : BitVec 5) (index : BitVec 8) (s : State) : Out :=
  .next <|
    if (getFn s port fn.toNat).inReset || !(getHp s port).up || !fnEnabled s port fn.toNat then s
    else
      let k := index.toNat
      let p := doeProtocols.getD k (0xFFFF, 0xFF)
      emit s (.doe port fn.toNat 0 (leBytes 2 p.1 ++ leBytes 1 p.2 ++ leBytes 1 (if k < 3 then k + 1 else 0)))

/-- IDE_KM (R470, R473, R522): in a secured session through PF0's mailbox it sets up, or stops, the link IDE stream or one of up to
four selective streams; refused elsewhere with ERROR, code UnexpectedRequest (0x04). -/
def execIdeKm (port : Bool) (fn : BitVec 5) (secured : Bool) (link : Bool) (go : Bool) (s : State) : Out :=
  .next <|
    if (getFn s port fn.toNat).inReset || !(getHp s port).up || !fnEnabled s port fn.toNat then s
    else if fn ≠ 0 ∨ !secured ∨ !s.mgmt.sessions.any (fun z => z.transport == mailbox port 0 && z.finished) then emit s (.doe port fn.toNat 0x7F (leBytes 1 0x04))
    else
      let s := modHp s port (fun h => { h with statusCleared := false })
      let s := modFn s port 0 (fun f =>
        if link then { f with linkIde := go }
        else { f with selIde := if go then min 4 (f.selIde + 1) else f.selIde - 1 })
      emit s (.doe port fn.toNat 0 [])

end Sys2Proof.Machine
end

