-- ==== Sys2Proof/Machine/Deputy.lean ====
section
/-! DEFINITION. The deputy and the power of the module: power states, rails, crosscut, levels, trip and brown-out (R405, R540-R551,
R570-R575, R591, R600-R609, R623-R638). -/

namespace Sys2Proof.Machine

/-! ### Power states and the main-power domain -/

/-- Raise POWER_STATE for the power state entered from state code `old` (R639). -/
def powerEvent (s : State) (old : Nat) : State := raiseEvent s pgDev 0x04 (info [(1, old), (1, s.power.state.code), (2, upMs s)])

/-- Enter a power state and raise POWER_STATE (R639). -/
def setPower (s : State) (p : PowerState) : State :=
  powerEvent { s with power := { s.power with state := p } } s.power.state.code

/-- The crosscut starts closing (R405). A cause of 0 has no code in event 0x06 (loss of power) and raises none. -/
def closeCrosscut (s : State) (cause : Nat) : State :=
  let closing := match s.ri.crosscutMoving with
    | some (c, _) => c
    | none => s.ri.crosscut
  if closing then s
  else
    let s := { s with ri := { s.ri with crosscutMoving := some (true, s.clock) } }
    if cause = 0 then s else raiseEvent s pgRi 0x06 (info [(1, 1), (1, cause)])

/-- The crosscut starts opening (R406). -/
def openCrosscut (s : State) (cause : Nat) : State :=
  let opening := match s.ri.crosscutMoving with
    | some (c, _) => !c
    | none => !s.ri.crosscut
  if opening then s
  else raiseEvent { s with ri := { s.ri with crosscutMoving := some (false, s.clock) } } pgRi 0x06 (info [(1, 2), (1, cause)])

/-- What a tile keeps through a loss of main power: its cells and the health map's record of it, a live rewrite's vacating of it included
(R174, R558, R632). -/
def Tile.afterReset (t : Tile) : Tile :=
  { t.clearCal with
    state := if t.state = 5 then 2 else t.state
    seam := false, calPend := false, accZ := 0, nZ := 0, accU := 0, accV := 0, nG := 0, history := [], holdG := 0, holdO := 0
    persist := 0, bank := true, bias := 0, settleEnd := none, ready := false, programming := false, calibrating := false
    calNew := none, trimNew := none, retireAsked := false }

/-- A sealed load record of a logical tile (keyed as its binding) stands in the record store. -/
def hasLoadRec (s : State) (i : Nat) : Bool := s.store.loads.any (fun e => e.1 == i)

/-- Bindings that outlast a reset: those of sealed loads whose record stands (R181, R632). -/
def sealedBindings (s : State) : Tbl (Option Binding) :=
  s.bindings.filter (fun e => match e.2 with
    | some b => b.sealedLoad && hasLoadRec s e.1
    | none => false)

/-- The blocks of the main-power domain that every reset above FLR clears (R630, R632). -/
def clearBlocks (s : State) : State :=
  { s with
    manifest := {}, handoff := none, cx := {}, mc := {}, scs := [], cores := [], owners := [], streams := [], prefixes := []
    promptUsed := 0, loads := [], jobs := [], unbinding := [], mem := [], memKey := []
    bindings := sealedBindings s, beatTiles := [], beatTgs := []
    tiles := tblMap {} (fun _ t => t.afterReset) s.tiles
    mgmt := { s.mgmt with sessions := [], negotiated := [] } }

/-- The main rails are removed (R601, R632): the main-power domain is lost; the AUX domain, the pins and the record store stay. -/
def mainOff (s : State) (byTrip : Bool) : State :=
  let r := s.ri
  let h := s.hb
  let s := setPower { s with power := { s.power with sumpExists := false } } (if s.pins.aux then .aux else .off)
  let s := clearBlocks s
  { s with
    pins := { s.pins with powerGood := false }
    power := { s.power with
      wait := 0, sumpBase := 0, sumpLog := 16, sumpHead := 0, rtbHi := 0, softReset := false, railsOn := false, starting := false
      moduleResetAt := none, pllHold := none, refLostHf := false, linkLossA := none, linkLossB := none, railsByTrip := byTrip
      pllLocked := false, pllPending := true, railsOffAt := s.clock }
    hdrs := s.hdrs.filter (fun e => e.1 == pgDp)
    frozen := []
    hb := { margin := s.store.margin, hours := h.hours, poweredHours := h.poweredHours, dRo := h.dRo, trimDrift := h.trimDrift
            canaryDrift := h.canaryDrift, pvMean := h.pvMean, cePeak := h.cePeak, cePeaks := h.cePeaks, retirements := h.retirements }
    ke := { nextKey := s.ke.nextKey }
    sq := {}, hpA := {}, hpB := {}, ms := {}, tgs := []
    ri := { crosscut := r.crosscut, crosscutMoving := r.crosscutMoving } }

/-- A device soft reset clears everything but the rails, the PLL, the host links and the AUX domain (R630, R632). -/
def softClear (s : State) : State :=
  let old := s.scs
  let s := clearBlocks { s with power := { s.power with sumpExists := false, softReset := true, softAt := s.clock, wait := 0 } }
  { s with
    hdrs := s.hdrs.filter (fun e => e.1 == pgDp || e.1 == 8 || e.1 == 9 || decide (339 ≤ e.1))
    frozen := s.frozen.filter (fun z => z.page == 8 || z.page == 9 || decide (339 ≤ z.page))
    hb := { s.hb with state := 0, assay := none, assayState := 0, assayCode := 0, assayExceed := 0, assayChecked := 0, selfcal := false
                      dtcalLo := 5, dtcalHi := 100, intLo := 60, intHi := 600, guardHi := 100, guardLo := 0, tolHi := 25, tolLo := 8
                      derateHi := 2, derateLo := 0, reserveHi := 16, reserveLo := 0, tempSel := 0, dataCleared := false }
    ke := { nextKey := s.ke.nextKey, pauseNo := s.ke.pauseNo, drbgCount := s.ke.drbgCount, state := if s.ke.state = 2 then 2 else 0
            slots := tblMap {} (fun _ k => { generation := k.generation }) s.ke.slots }
    sq := { beatCount := s.sq.beatCount }
    ms := { state := if s.ms.state = 3 then 3 else 1 }
    scs := tblMap {} (fun _ c => { state := if c.state = 3 then 3 else 1 }) old
    tgs := tblMap {} (fun _ t => { calCount := t.calCount, calLast := t.calLast, lastCalTemp := t.lastCalTemp }) s.tgs }

/-! ### Levels (R543-R546) -/

/-- Quiet time (R491): it runs while the level is NORMAL or WARM and no power emergency stands. A loss during WAITING on the headframe
counts as a deferral; another member reports it by C1 message. -/
def updateQuiet (s : State) : State :=
  if level s ≤ 1 ∧ !powerEmergency s then
    (if s.dp.quietSince.isNone then { s with dp := { s.dp with quietSince := some s.clock } } else s)
  else if s.dp.quietSince.isNone then s
  else
    let s := { s with dp := { s.dp with quietSince := none } }
    if s.cx.hoState ≠ 3 then s
    else if isHeadframe s then
      { s with cx := { s.cx with hoDeferrals := s.cx.hoDeferrals.bump (sclk s) 255 1
                                 quietMembers := s.cx.quietMembers.filter (· != s.ri.position) } }
    else sendMessage s 0 0x91 [s.ri.position, 0]

/-- Quiet time has reached 1 s (R491, R571). -/
def quiet (s : State) : Bool := match s.dp.quietSince with
  | some t => decide (t + secCycles ≤ s.clock)
  | none => false

/-- What CRITICAL does at once: backfill is dropped and an assay ends (R546, R568). -/
def enterCritical (s : State) : State :=
  let s := if s.sq.backfill then { s with sq := { s.sq with backfill := false, backfillDropped := true } } else s
  endAssay s 7 0 0

/-- A source takes a level; a change of the device level raises LEVEL (R543, R591). `src` 1 ARRAY, 2 STACK, 3 OPTICS, 4 POWER. -/
def setLevel (s : State) (src lv : Nat) (reading : Int) : State :=
  let old := level s
  let d := s.dp
  let d := if src = 1 then { d with lArray := lv, belowArray := none } else if src = 2 then { d with lStack := lv, belowStack := none }
    else if src = 3 then { d with lOptics := lv, belowOptics := none } else { d with lPower := lv, belowPower := none }
  let s := { s with dp := d }
  let new := level s
  let s := if new = old then s else raiseEvent s pgDp 0x04 (info [(1, old), (1, new), (1, src), (2, twos 16 reading)])
  let s := if old < 3 ∧ 3 ≤ new then enterCritical s else s
  updateQuiet s

/-- Threshold of level `lv` (1-4) of a temperature source in 1/16 °C (R544). -/
def tempThreshold (s : State) (src lv : Nat) : Int :=
  let t := s.dp.throttle
  16 * ((if src = 1 then [t, min (t + 10) 103, 106, 110] else if src = 2 then [95, 99, 102, 105] else [80, 85, 90, 95]).getD (lv - 1) 0 : Nat)

/-- Level a reading reaches (R544). -/
def tempLevel (s : State) (src : Nat) (r : Int) : Nat :=
  ([1, 2, 3, 4].filter (fun lv => decide (tempThreshold s src lv ≤ r))).length

/-- Level the POWER source reaches; with `back` the thresholds moved by the hysteresis of R545 (R544). -/
def powerLevel (s : State) (back : Bool) : Nat :=
  let d := s.dp
  let h := fun (x : Int) => if back then x else 0
  let lim : Int := s.manifest.powerLimit
  if 5500 - h 100 < d.iin10us then 4
  else if d.vinMean1ms < 3900 + h 20 ∨ 4000 - h 100 < d.iin100ms then 3
  else if d.vin < 3990 + h 20 ∨ 3800 - h 100 < d.iin1s then 2
  else if (if back then 98 * lim < 100 * d.pin1s else lim < d.pin1s) then 1 else 0

/-- The reading that accompanies a level of the POWER source, in the unit of VALUE (R549, R591): of input power, which has none, the
current stands for it (log entry 91). -/
def powerReading (s : State) (lv : Nat) : Int :=
  let d := s.dp
  if lv = 4 then d.iin10us
  else if lv = 3 then (if d.vinMean1ms < 3900 then d.vinMean1ms else d.iin100ms)
  else if lv = 2 then (if d.vin < 3990 then d.vin else d.iin1s)
  else d.iin

/-- The module is tripped: a source stands at TRIP until a module reset or a power cycle (R551). -/
def tripped (s : State) : Bool := level s == 4

/-- Every source returns to NORMAL, when a trip is left or the rails start (R551). -/
def clearLevels (s : State) : State :=
  { s with dp := { s.dp with lArray := 0, lStack := 0, lOptics := 0, lPower := 0
                             belowArray := none, belowStack := none, belowOptics := none, belowPower := none } }

/-! ### Trip and brown-out (R548-R550) -/

/-- Readings kept for PEAKS: what the last 100 ms brought (R549). -/
def keepRecent (s : State) (kind : Nat) (v : Int) : State :=
  { s with dp := { s.dp with recent := (s.dp.recent.filter (fun e => decide (s.clock ≤ e.1 + 100 * msCycles))) ++ [(s.clock, kind, v)] } }

/-- The extreme of one kind of reading over the last 100 ms: the lowest VIN, the largest of the others. -/
def peak (s : State) (kind : Nat) : Int :=
  match (s.dp.recent.filter (fun e => e.2.1 == kind)).map (·.2.2) with
  | [] => 0
  | x :: xs => if kind = 3 then xs.foldl min x else xs.foldl max x

/-- Write a trip or brown-out record (R549): the 32 latest of each kind stay. -/
def writeTrip (s : State) (kind source sensor : Nat) (v : Int) : State × TripRec :=
  let r : TripRec :=
    { time := s.power.rtb, seq := s.store.nextSeq, kind := kind, source := source, sensor := sensor, value := v
      beat := s.sq.beatCount, power := s.power.state.code, position := s.ri.position, n := s.ri.count
      vin := s.dp.vin, iin := s.dp.iin, peaks := [peak s 0, peak s 1, peak s 2, peak s 3, peak s 4]
      hours := s.hb.poweredHours, fw := s.cx.version }
  let same := s.store.trips.filter (fun t => t.kind == kind)
  let kept := if 32 ≤ same.length then s.store.trips.erase (same.headD r) else s.store.trips
  ({ s with store := { s.store with trips := kept ++ [r], nextSeq := (s.store.nextSeq + 1) % 65536 } }, r)

/-- Bytes 0-15 of a record (R549). -/
def TripRec.head (r : TripRec) : List Byte :=
  leBytes 8 r.time.toNat ++ leBytes 2 r.seq ++ leBytes 1 r.kind ++ leBytes 1 r.source ++ leBytes 2 r.sensor ++ leBytes 2 (twos 16 r.value)

/-- The 64 bytes of a record (R549). -/
def TripRec.bytes (r : TripRec) : List Byte :=
  let b := r.head ++ leBytes 8 r.beat.toNat ++ [BitVec.ofNat 8 r.power, 0, BitVec.ofNat 8 r.position, BitVec.ofNat 8 r.n]
    ++ leBytes 2 (twos 16 r.vin) ++ leBytes 2 (twos 16 r.iin) ++ r.peaks.flatMap (fun p => leBytes 2 (twos 16 p))
  let b := padTo 48 b ++ leBytes 8 r.hours ++ leBytes 4 r.fw.toNat
  b ++ leBytes 4 (crc32 b)

/-- PWR_EN fell in this deputy cycle of 40 ns and took the main rails with it (R603). -/
def fellNow (s : State) : Bool := match s.power.pwrEnFellAt with
  | some t => decide (t / 64 = s.clock / 64) && decide (s.power.railsOffAt = t)
  | none => false

/-- A deputy trip (R548): THERM_TRIP# asserted, crosscut closing, record written, rails removed, event 0x05 queued. During the off time
of a module reset it asserts THERM_TRIP# and cancels the restart (R633); a threshold reached in the deputy cycle of the
filtered fall of PWR_EN trips, a later one is ignored (R603). -/
def trip (s : State) (source sensor : Nat) (v : Int) : State :=
  if !mainPower s ∧ s.power.moduleResetAt.isNone ∧ !fellNow s then s
  else
    let s := { s with pins := { s.pins with thermTrip := true } }
    let s := closeCrosscut s 1
    let (s, r) := writeTrip s 1 source sensor v
    let s := if mainPower s then mainOff s true
      else { s with power := { s.power with moduleResetAt := none, railsByTrip := true } }
    raiseEvent s pgDp 0x05 r.head

/-- A source rises at the sample that reaches a threshold (R545). -/
def rise (s : State) (src lv : Nat) (reading : Int) (source sensor : Nat) : State :=
  let s := setLevel s src lv reading
  if lv = 4 then trip s source sensor reading else s

/-- Level of a source. -/
def srcLevel (s : State) (src : Nat) : Nat :=
  if src = 1 then s.dp.lArray else if src = 2 then s.dp.lStack else if src = 3 then s.dp.lOptics else s.dp.lPower

/-- Since when every sample of a source has lain below its level's threshold by the hysteresis (R545). -/
def belowSince (s : State) (src : Nat) : Option Nat :=
  if src = 1 then s.dp.belowArray else if src = 2 then s.dp.belowStack else if src = 3 then s.dp.belowOptics else s.dp.belowPower

/-- Record whether a sample lay below by the hysteresis. -/
def setBelow (s : State) (src : Nat) (safe : Bool) : State :=
  let v := if !safe then none else match belowSince s src with
    | some t => some t
    | none => some s.clock
  let d := s.dp
  let d := if src = 1 then { d with belowArray := v } else if src = 2 then { d with belowStack := v }
    else if src = 3 then { d with belowOptics := v } else { d with belowPower := v }
  { s with dp := d }

/-- Source of a sensor index (R540): 1 ARRAY, 2 STACK, 3 OPTICS. -/
def sensorSource (k : Nat) : Nat := if k < 384 then 1 else if k < 400 then 3 else 2

/-- First index and count of the sensors of the same group, engine or stack set. -/
def sensorGroup (k : Nat) : Nat × Nat :=
  if k < 384 then (k / 6 * 6, 6) else if k < 400 then (384 + (k - 384) / 8 * 8, 8) else (k, 1)

/-- Twice the median of readings: the mean of the two middle ones for an even number (log entry 24). -/
def median2 (l : List Int) : Int :=
  let l := l.foldr insertInt []
  let n := l.length
  if n = 0 then 0 else if n % 2 = 1 then 2 * l.getD (n / 2) 0 else l.getD (n / 2 - 1) 0 + l.getD (n / 2) 0

/-- Sampling period code of a reading (R541): 2 within 2 °C below a threshold, 1 within 8 °C, else 0. -/
def samplePeriod (s : State) (src : Nat) (r : Int) : Nat :=
  let near := fun (d : Int) => [1, 2, 3, 4].any (fun lv => decide (tempThreshold s src lv - d ≤ r) && decide (r < tempThreshold s src lv))
  if near 32 then 2 else if near 128 then 1 else 0

/-- Hottest valid reading of a source. -/
def hottestOf (s : State) (src : Nat) : Int :=
  maxOf (if src = 1 then readings s 0 384 else if src = 2 then readings s 400 8 else readings s 384 16)

/-- A sensor of the array or the optics deviates from the median of its group's others by more than 15 °C (R542). -/
def sensorOff (s : State) (k : Nat) (reading : Int) : Bool :=
  let g := sensorGroup k
  let others := ((upTo g.2).map (fun j => g.1 + j)).filter (fun j => j != k && (getSensor s j).valid && !(getSensor s j).failed)
  let m := median2 (others.map (fun j => (getSensor s j).temp))
  decide (sensorSource k ≠ 2) && !others.isEmpty && decide (480 < (2 * reading - m).natAbs)

/-- A reading makes its sensor fail: out of range, or the tenth deviating one in a row (R542). -/
def sensorBad (s : State) (k : Nat) (reading : Int) : Bool :=
  decide (sensorSource k ≠ 2) && (decide (reading < -640) || decide (2400 < reading) ||
    (sensorOff s k reading && decide (10 ≤ (getSensor s k).deviant + 1)))

/-- The sensor takes its reading; one that fails is excluded and reported once (R542). -/
def takeReading (s : State) (k : Nat) (reading : Int) : State :=
  let old := getSensor s k
  let bad := sensorBad s k reading
  let now : Sensor :=
    { temp := reading, valid := true, failed := old.failed || bad, period := samplePeriod s (sensorSource k) reading
      deviant := if sensorOff s k reading then old.deviant + 1 else 0 }
  let s := { s with hb := { s.hb with sensors := tblSet {} s.hb.sensors k now, dataCleared := s.hb.dataCleared && s.hb.tempSel != k } }
  if bad && !old.failed then
    raiseEvent { s with hb := { s.hb with failReported := s.hb.failReported ++ [k] } } pgHb 0x07 (info [(2, k), (2, twos 16 reading)])
  else s

/-- The hottest reading of a source is kept for levels, rounds and records (R542, R549). -/
def keepHottest (s : State) (k : Nat) (reading : Int) : State :=
  let src := sensorSource k
  let s := if src = 2 then modSc s (k - 400) (fun c => { c with tempValid := true, temp := reading }) else s
  let hot := hottestOf s src
  let s := { s with dp :=
    if src = 1 then { s.dp with hottest := hot, roundHot := some (max hot (s.dp.roundHot.getD hot)) }
    else if src = 2 then { s.dp with hotStack := hot, roundStk := some (max hot (s.dp.roundStk.getD hot)) }
    else { s.dp with hotOptics := hot } }
  keepRecent s (src - 1) hot

/-- The sensor whose reading a source's level rests on: `k` itself where it is the hottest, else the first that is. -/
def hottestSensor (s : State) (src k : Nat) (hot : Int) : Nat :=
  let r := if src = 1 then (0, 384) else if src = 2 then (400, 8) else (384, 16)
  let at' := fun j => (getSensor s j).valid && !(getSensor s j).failed && (getSensor s j).temp == hot
  if at' k then k else (((upTo r.2).map (r.1 + ·)).find? at').getD k

/-- The level a source's hottest reading asks for is taken at once, and the hysteresis watched (R543-R545). Without main power the
sensors are read only for the trip of a module reset's off time (R575, R633). -/
def judgeSource (s : State) (src k : Nat) (hot : Int) : State :=
  let up := tempLevel s src hot
  let lv := srcLevel s src
  if !mainPower s then (if up = 4 ∧ (s.power.moduleResetAt.isSome ∨ fellNow s) then rise s src 4 hot src (hottestSensor s src k hot) else s)
  else if lv = 4 then s
  else if lv < up then rise s src up hot src (hottestSensor s src k hot)
  else if lv = 0 then s
  else setBelow s src (decide (hot < tempThreshold s src lv - 32))

/-- A group that moved beyond ΔT_cal since its last calibration calibrates (R552). -/
def judgeGroup (s : State) (k : Nat) : State :=
  let grp := k / 6
  if sensorSource k = 1 ∧ mainPower s ∧ 6 ≤ s.power.state.code ∧
      10 * (groupTemp s grp - (getTg s grp).lastCalTemp).natAbs > 16 * s.hb.margin.dtcal ∧ (getTg s grp).calCount ≠ 0 then
    startCal s grp 1
  else s

/-- TEMP_SAMPLE (R541-R545, R552): a sensor's reading in 1/16 °C arrives. -/
def execTempSample (sensor : BitVec 9) (reading : Int) (s : State) : Out :=
  .next <|
    let k := sensor.toNat
    if 408 ≤ k ∨ !s.pins.aux then s
    else
      let s := keepHottest (takeReading s k reading) k reading
      judgeGroup (judgeSource s (sensorSource k) k (hottestOf s (sensorSource k))) k

/-- POWER_SAMPLE (R544, R545): the deputy's comparators measure input voltage and current (0.01 V, 0.01 A) with their means over 1 ms
(voltage), 10 µs, 100 ms and 1 s (current), and the 1 s mean input power in W. -/
def execPowerSample (vin vin1ms iin iin10us iin100ms iin1s pin1s : Nat) (s : State) : Out :=
  .next <|
    if !s.pins.aux ∧ !mainPower s then s
    else
      let inRange := decide (3990 ≤ vin) && decide (vin ≤ 4410)
      let was := decide (3990 ≤ s.dp.vin) && decide (s.dp.vin ≤ 4410)
      let s := { s with
        dp := { s.dp with vin := vin, vinMean1ms := vin1ms, iin := iin, iin10us := iin10us, iin100ms := iin100ms, iin1s := iin1s
                          pin1s := pin1s }
        pins := { s.pins with vinPresent := decide (vin ≠ 0) }
        power := if inRange && !was then { s.power with vinSince := s.clock } else s.power }
      let s := keepRecent (keepRecent s 3 vin) 4 iin
      if !mainPower s then
        (if vin = 0 then clearLevels s else if powerLevel s false = 4 ∧ fellNow s then rise s 4 4 (powerReading s 4) 5 0xFFFF else s)
      else
        let up := powerLevel s false
        let lv := s.dp.lPower
        if lv < up then rise s 4 up (powerReading s up) 5 0xFFFF
        else if lv = 0 then s
        else setBelow s 4 (decide (powerLevel s true < lv))

/-- LEVEL_FALL (R545): after 100 ms below the threshold by the hysteresis a source falls by one level; TRIP does not fall. -/
def execLevelFall (source : BitVec 3) (s : State) : Out :=
  .next <|
    let src := source.toNat
    if src = 0 ∨ 4 < src ∨ !mainPower s then s
    else match belowSince s src with
      | none => s
      | some t =>
        let lv := srcLevel s src
        if lv = 0 ∨ lv = 4 ∨ s.clock < t + 100 * msCycles then s
        else setLevel s src (lv - 1)
          (if src = 1 then s.dp.hottest else if src = 2 then s.dp.hotStack else if src = 3 then s.dp.hotOptics
           else powerReading s (lv - 1))

/-- BROWN_OUT (R550, R603): the input has stayed below 37.5 V for 20 µs while PWR_EN is asserted. A trip in the same deputy cycle
(40 ns) does not suppress the record. -/
def execBrownOut (vin : Nat) (s : State) : Out :=
  .next <|
    let same := s.power.railsByTrip && !mainPower s && decide (s.clock < s.power.railsOffAt + 64)
    if !s.pins.pwrEn ∨ 3750 ≤ vin ∨ (!mainPower s ∧ !same) then s
    else
      let s := { s with dp := { s.dp with vin := vin } }
      let s := closeCrosscut s 0
      let (s, r) := writeTrip s 2 4 0xFFFF vin
      let s := if mainPower s then mainOff s false else s
      let s := { s with power := { s.power with nextCause := 4, nextRequester := 0 } }
      raiseEvent s pgDp 0x06 r.head

/-! ### Starting the rails (R600, R601, R631, R638) -/

/-- The conditions of R600. -/
def startReady (s : State) : Bool :=
  s.pins.pwrEn && s.pins.aux && decide (s.power.auxSince + 20 * msCycles ≤ s.clock) &&
  decide (3990 ≤ s.dp.vin) && decide (s.dp.vin ≤ 4410) && decide (s.power.vinSince + 10 * msCycles ≤ s.clock) &&
  s.power.bankCharged && !s.power.railsOn && !s.power.starting && !tripped s && s.power.moduleResetAt.isNone &&
  match s.power.pwrEnFellAt with
  | some t => decide (t + 100 * msCycles ≤ s.clock)
  | none => true

/-- The rails start, and the deputy captures the cause of the start (R638). -/
def startRails (s : State) : State :=
  let p := s.power
  { clearLevels s with power := { p with
      starting := true, cause := p.nextCause, requester := if p.nextCause = 2 ∨ p.nextCause = 3 then p.nextRequester else 0
      tripBefore := p.railsByTrip, causeCount := min 65535 (p.causeCount + 1) } }

/-- Start the rails if nothing is missing. -/
def tryStart (s : State) : State := if startReady s then startRails s else s

/-- A module reset (R631): the rails go as in a trip, without record and without THERM_TRIP#; the deputy restarts them after 20 ms. -/
def moduleReset (s : State) (who : Nat) : State :=
  let byTrip := s.power.railsByTrip
  let on := mainPower s
  let s := closeCrosscut s 2
  let s := if on then mainOff s false else s
  { s with
    pins := { s.pins with thermTrip := false }
    power := { s.power with moduleResetAt := some s.clock, nextCause := 2, nextRequester := who
                            railsByTrip := if on then false else byTrip, starting := false } }

/-- Requester code of an accessor (R638). -/
def requesterOf : Accessor → Nat
  | .pf0 p => ofBool p
  | .bar2 p => ofBool p
  | .vf p _ => ofBool p
  | .mgmt => 2
  | .mgmtFn _ _ => 2

/-- Conditions of R630 for a device soft reset; only a module reset leaves WATCHDOG (R483; log entry 90). -/
def softAllowed (s : State) : Bool :=
  !planAdmitted s && s.cx.state != 5 && (s.cx.hoState == 0 || s.cx.hoState == 5) && (decide (s.ri.count ≤ 1) || s.ri.crosscut)

/-- Every command fetched and not completed completes with ABORTED, in order of fetch (R630). -/
def abortAll (s : State) : State :=
  let all := (s.hpA.fetched.map (fun f => (false, f))) ++ (s.hpB.fetched.map (fun f => (true, f)))
  let ordered := all.foldr (fun e l =>
    (l.takeWhile (fun x => decide (x.2.fetchedAt < e.2.fetchedAt))) ++ e :: (l.dropWhile (fun x => decide (x.2.fetchedAt < e.2.fetchedAt)))) []
  forEach ordered (fun s e => complete s
    (issuerOf e.1 e.2) stAborted) s

/-- Every queue pair of both ports becomes UNCONFIGURED (R630). -/
def dropPairs (s : State) : State :=
  let drop := fun (h : Hp) => { h with qps := tblMap {} (fun _ q => { fn := q.fn, cfg := q.cfg + 1 }) h.qps, fetched := [] }
  { s with hpA := drop s.hpA, hpB := drop s.hpB }

/-- An accepted device soft reset (R630); until it completes the device stands in MAIN_ON with the zero-fill (R389, log entry 26). -/
def softReset (s : State) (who : Nat) : State :=
  let s := setPower (dropPairs (abortAll { s with power := { s.power with sumpExists := false } })) .mainOn
  let s := softClear s
  { s with power := { s.power with nextCause := 3, nextRequester := who } }

/-- A DEV_RESET write of this SCLK cycle has been accepted (R633). -/
def resetTaken (s : State) : Bool := s.power.softReset && decide (s.clock / 4 = s.power.softAt / 4)

/-- A write of DEV_RESET (R637): MODULE prevails over SOFT (R633); a SOFT that R630 does not accept raises event 0x05. -/
def writeDevReset (s : State) (a : Accessor) (v : Nat) : State :=
  if bits v 16 16 ≠ 0xA5C3 ∨ resetTaken s then s
  else if bit v 1 then moduleReset s (requesterOf a)
  else if !bit v 0 then s
  else if softAllowed s then softReset s (requesterOf a)
  else raiseEvent s pgDev 0x05 (info [(1, s.power.cause), (1, 0xFF), (1, ofBool s.power.tripBefore)])

/-- SOFT: a write of DEV_RESET with SOFT set (R630, R637). -/
def execDevSoft (a : Accessor) (value : BitVec 32) (s : State) : Out :=
  .next (if mayWrite s a pgDev && bit value.toNat 0 then writeDevReset s a value.toNat else s)

/-- MODULE: a write of DEV_RESET with MODULE set (R631, R637). -/
def execDevModule (a : Accessor) (value : BitVec 32) (s : State) : Out :=
  .next (if mayWrite s a pgDev && bit value.toNat 1 then writeDevReset s a value.toNat else s)

/-! ### Deputy registers (R572-R575) -/

/-- A value of DP_THROTTLE_POINT that R572 accepts. -/
def throttleOk (s : State) (v : Nat) : Bool :=
  decide (s.manifest.throttleMin ≤ bits v 0 8) && decide (bits v 0 8 ≤ s.manifest.throttleMax) && decide (bits v 16 7 ≤ 60)

/-- A write of DP_THROTTLE_POINT (R572). -/
def writeThrottle (s : State) (v : Nat) : State :=
  if throttleOk s v then { s with dp := { s.dp with throttle := bits v 0 8, stretchMax := bits v 16 7 } } else s

/-- DP_THROTTLE_POINT (R572). -/
def execDpThrottlePoint (a : Accessor) (value : BitVec 32) (s : State) : Out :=
  .next (if mayWrite s a pgDp then writeThrottle s value.toNat else s)

/-- The trip record DP_TRIP_RECORD shows: the oldest not acknowledged, from FW_LOADED onward (R551). -/
def shownTrip (s : State) : Option TripRec :=
  if s.power.state.code < 4 then none else s.store.trips.find? (fun t => t.kind == 1 && !t.acked)

/-- DP_LEVEL.TRIP_PENDING (R571). -/
def tripPending (s : State) : Bool := s.store.trips.any (fun t => t.kind == 1 && !t.acked)

/-- CALIBRATING is entered (R623, R624): self-calibration of the converters and of the monitor converter starts. -/
def enterCalibrating (s : State) : State :=
  let s := setPower s .calibrating
  { startSelfcal s with power := { s.power with wait := 4 }, mc := { s.mc with calBusy := true } }

/-- A write of DP_TRIP_ACK (R574): the SEQ of the displayed record acknowledges it and raises event 0x08; a device that holds in
CONFIGURED for it goes on (R634). -/
def writeTripAck (s : State) (a : Accessor) (v : Nat) : State :=
  match shownTrip s with
  | none => s
  | some r =>
    if bits v 0 16 ≠ r.seq then s
    else
      let s := { s with store := { s.store with trips := s.store.trips.map (fun t =>
        if t.kind = 1 ∧ t.seq = r.seq then { t with acked := true } else t) } }
      let s := raiseEvent s pgDp 0x08 (info [(2, r.seq), (1, requesterOf a)])
      if s.power.state = .configured ∧ s.power.wait = 2 ∧ !tripPending s then enterCalibrating s else s

/-- DP_TRIP_ACK (R574). -/
def execDpTripAck (a : Accessor) (value : BitVec 32) (s : State) : Out :=
  .next (if mayWrite s a pgDp then writeTripAck s a value.toNat else s)

/-- A write of DP_RESTART (R575): discarded while PWR_EN is low. -/
def writeRestart (s : State) (a : Accessor) (v : Nat) : State :=
  if bits v 16 16 = 0xA5C3 ∧ bit v 0 ∧ s.pins.pwrEn ∧ s.pins.aux then moduleReset s (requesterOf a) else s

/-- DP_RESTART (R575). -/
def execDpRestart (a : Accessor) (value : BitVec 32) (s : State) : Out :=
  .next (if mayWrite s a pgDp then writeRestart s a value.toNat else s)

/-- The first override in a second of RTB raises event 0x09 (R591). -/
def overrideEvent (s : State) (kind request : Nat) : State :=
  let sec := rtb s / 100000000
  if s.dp.ovEventAt.any (fun e => e.1 == 0 && e.2 == sec) then s
  else raiseEvent { s with dp := { s.dp with ovEventAt := [(0, sec)] } } pgDp 0x09 (info [(1, kind), (1, request)])

/-- A 64-slot window lost for calibration during a power emergency (R555). -/
def countCalOverride (s : State) : State :=
  overrideEvent { s with dp := { s.dp with ovCal := s.dp.ovCal.bump (sclk s) 4095 1 } } 2 0

end Sys2Proof.Machine
end

