-- ==== Sys2Proof/Machine/Startup.lean ====
section
/-! DEFINITION. Supplies, power pins, start-up, resets and the PLL's reference (R529, R595-R609, R618-R634). -/

namespace Sys2Proof.Machine

/-! ### The PLL's reference (R619, R620) -/

/-- The reference of highest rank that is present (R619): 1 REFCLK_A, 2 REFCLK_B, 3 INBYE-in, 4 the deputy's oscillator. -/
def pllSelect (s : State) : Nat :=
  let member := match s.ri.elected with
    | some (p, _) => p != 0
    | none => s.ri.valid && !s.ri.hf
  if member && (getLink s 0).up then 3
  else if s.pins.refA then 1 else if s.pins.refB then 2 else 4

/-- The PLL takes the reference of highest rank; its lock is then outstanding. -/
def pllRetarget (s : State) : State :=
  { s with power := { s.power with pllRef := pllSelect s, pllHold := none, pllPending := true } }

/-- A reference leaves or arrives at its pin. -/
def setRef (s : State) (ref : Nat) (on : Bool) : State :=
  if ref = 1 then { s with pins := { s.pins with refA := on } }
  else if ref = 2 then { s with pins := { s.pins with refB := on } }
  else s

/-! ### The phases of ring training (R426-R428) -/

/-- Phase 3 begins (R426, R427): the device sends its claim INBYE: HF_SEL, candidate, serial, largest RTB held, hops travelled. A strapped
device without REFCLK_A is no candidate and raises LINK_DOWN with cause 6 (its port byte is free, log entry 37). -/
def startElect (s : State) : State :=
  let cand := s.ri.hfSel && s.pins.refA
  let s := if s.ri.hfSel && !s.pins.refA then
      let (n, s) := draw s
      raiseEvent s pgRi 0x04 (info [(1, n % 4), (1, 6)]) else s
  let s := { s with ri := { s.ri with
    state := 3, phase := 3, phaseAt := s.clock, maxRtb := s.power.rtb, elected := none, probeSent := none, measured := none
    retrainAt := none, best := if cand then some (s.store.serial, 0) else none } }
  sendControl s 1 (claimFields s.ri.hfSel cand s.store.serial.toNat (rtb s) 0)

/-- Phase 5 begins (R426, R428): a time probe with the local tick stamp goes out INBYE. -/
def startMeasure (s : State) : State :=
  let stamp := s.clock / 2
  let s := { s with ri := { s.ri with
    state := 3, phase := 5, phaseAt := s.clock, probeSent := some (BitVec.ofNat 64 stamp), measured := none } }
  sendControl s 1 (timeFields 1 (rtb s) stamp)

/-- Every ring port is trained (R426: phases 1 and 2 are complete). -/
def portsUp (s : State) : Bool := (upTo 4).all (fun p => (getLink s p).up)

/-- A port without a link: what stays is its count of resent flits in the second (R444). -/
def Link.dropped (l : Link) : Link := { resent1s := l.resent1s, resentSec := l.resentSec }

/-- Phases 1 and 2 begin or go on in hardware from power state ROM onward with the crosscut open (R426, R437): every port that is not up
trains anew, within the envelope as it stands now (R443). -/
def startBringup (s : State) : State :=
  if s.ri.crosscut ∨ s.power.state.code < 3 then s
  else { s with ri := { s.ri with
    state := 2, phase := 1, phaseAt := s.clock, retrainAt := none, envelope := (s.ri.lanesMin, s.ri.lanesMax)
    ports := tblMap {} (fun _ l => if l.up then l else l.dropped) s.ri.ports } }

/-- Phase 4 repeats with phase 5 once the headframe's lost REFCLK_A has been back in lock for 1 ms (R620); the members are told (log
entry 21). -/
def repeatClock (s : State) : State :=
  let s := { s with power := { s.power with refLostHf := false } }
  if s.ri.valid ∧ 1 < s.ri.count then startMeasure (broadcast s 0x72 []) else s

/-- REF_LOST (R620): a reference disappears; if the PLL used it, holdover starts and event 0x06 names it and the next one. -/
def execRefLost (ref : BitVec 3) (s : State) : Out :=
  .next <|
    let r := ref.toNat
    let s := setRef s r false
    if !mainPower s ∨ s.power.pllRef ≠ r ∨ s.power.pllHold.isSome then s
    else
      let next := if r = 3 then (if s.pins.refA then 1 else if s.pins.refB then 2 else 4) else pllSelect s
      let s := { s with power := { s.power with pllHold := some s.clock, refLostHf := s.power.refLostHf || (s.ri.hf && r == 1) } }
      raiseEvent s pgDev 0x06 (info [(1, r), (1, next)])

/-- REF_HOLDOVER_EXPIRY (R620): after at least 10 ms the PLL selects the next reference. -/
def execRefHoldoverExpiry (s : State) : Out :=
  .next (match s.power.pllHold with
    | none => s
    | some t => if s.clock < t + 10 * msCycles then s else pllRetarget s)

/-- REFERENCE_APPEAR (R619): a reference of higher rank than the one in use re-evaluates the order. -/
def execReferenceAppear (ref : BitVec 3) (s : State) : Out :=
  .next <|
    let s := setRef s ref.toNat true
    if mainPower s ∧ (pllSelect s ≠ s.power.pllRef ∨ s.power.pllHold.isSome) then pllRetarget s else s

/-- REF_LOCKED (R426, R620, R622): the PLL locks to the selected reference after `us` µs, at most 200; RTB counts from the first lock. It
ends phase 4 of training on this device. -/
def execRefLocked (us : BitVec 16) (s : State) : Out :=
  .next <|
    if !mainPower s ∨ !s.power.pllPending ∨ s.power.pllHold.isSome ∨ 200 < us.toNat then s
    else
      let s := { s with power := { s.power with pllPending := false, pllLocked := true, pllLockAt := s.clock } }
      let s := raiseEvent s pgDev 0x07 (info [(1, s.power.pllRef), (2, us.toNat)])
      if s.ri.phase = 4 then startMeasure s else s

/-- Every later round of the headframe is FAULT while REFCLK_A is lost and until it has been locked for 1 ms (R620). -/
def refFault (s : State) : Bool :=
  s.power.refLostHf && !(s.power.pllRef == 1 && !s.power.pllPending && decide (s.power.pllLockAt + msCycles ≤ s.clock))

/-! ### Supplies and pins (R600-R609) -/

/-- The AUX domain loses power: deputy, DP page, management endpoint and queue (R607, R632). -/
def auxOff (s : State) : State :=
  { s with dp := {}, mgmt := {}, hdrs := s.hdrs.filter (fun e => e.1 != pgDp), pins := { s.pins with alert := false } }

/-- AUX_APPLY (R623): AUX appears within range and the device enters power state AUX. -/
def execAuxApply (s : State) : Out :=
  .next <|
    if s.pins.aux then s
    else
      let s := { s with
        pins := { s.pins with aux := true }
        power := { s.power with auxSince := s.clock, causeCount := 0, railsByTrip := false
                                nextCause := if s.pins.pwrEn then 0 else s.power.nextCause } }
      setPower s .aux

/-- AUX_LOSS (R602, R609): the main rails go, the crosscut closes on its stored energy, THERM_TRIP# is released; the AUX domain loses
power at once unless the hold-up bank alone still carries it (R607). -/
def execAuxLoss (s : State) : Out :=
  .next <|
    if !s.pins.aux then s
    else
      let s := closeCrosscut s 0
      let s := { s with pins := { s.pins with aux := false, thermTrip := false } }
      let s := if mainPower s then mainOff s false else setPower s .off
      let s := clearLevels { s with power := { s.power with moduleResetAt := none, starting := false } }
      if s.pins.vinPresent || !s.power.bankCharged then auxOff s else s

/-- HOLD_UP_BANK_DEPLETED (R607): with input and AUX both lost the deputy, the record store and the management queue lose power. -/
def execHoldUpBankDepleted (s : State) : Out :=
  .next (if s.pins.aux ∨ s.pins.vinPresent then s
    else auxOff { s with power := { s.power with bankCharged := false } })

/-- VIN_APPLY (R606): the applied input (0.01 V) charges the hold-up bank at a constant current. -/
def execVinApply (vin : BitVec 16) (s : State) : Out :=
  .next <|
    if s.pins.vinPresent ∨ vin = 0 then s
    else { s with
      pins := { s.pins with vinPresent := true }
      dp := { s.dp with vin := vin.toNat }
      power := { s.power with vinSince := s.clock, bankCharged := false
                              nextCause := if s.pins.pwrEn ∧ s.power.nextCause ≠ 4 then 5 else s.power.nextCause } }

/-- PWR_EN_RISE (R600): filtered PWR_EN goes high; the rails start once every condition holds. PWR_EN low for 100 ms was a power cycle,
which leaves a trip (R551, R629). -/
def execPwrEnRise (s : State) : Out :=
  .next <|
    if s.pins.pwrEn then s
    else
      let cycled := match s.power.pwrEnFellAt with
        | some t => decide (t + 100 * msCycles ≤ s.clock)
        | none => true
      let s := if cycled then clearLevels s else s
      tryStart { s with pins := { s.pins with pwrEn := true }, power := { s.power with nextCause := 1, nextRequester := 0 } }

/-- PWR_EN_FALL (R601, R633): the main rails are removed in sequence, an orderly power-down; a start or a restart is aborted. -/
def execPwrEnFall (s : State) : Out :=
  .next <|
    if !s.pins.pwrEn then s
    else
      let byTrip := s.power.railsByTrip
      let on := mainPower s
      let s := closeCrosscut s 0
      let s := if on then mainOff s false else s
      { s with
        pins := { s.pins with pwrEn := false }
        power := { s.power with pwrEnFellAt := some s.clock, starting := false, moduleResetAt := none
                                railsByTrip := if on then false else byTrip } }

/-- THERM_TRIP_RELEASE (R602): PWR_EN has been low for 100 ms. -/
def execThermTripRelease (s : State) : Out :=
  .next (match s.power.pwrEnFellAt with
    | none => s
    | some t =>
      if s.pins.pwrEn ∨ !s.pins.thermTrip ∨ s.clock < t + 100 * msCycles then s
      else { s with pins := { s.pins with thermTrip := false } })

/-- MAIN_RAILS_START (R600): with PWR_EN high, the last start condition is met; `bank` tells whether the hold-up bank is charged. -/
def execMainRailsStart (bank : Bool) (s : State) : Out :=
  .next (tryStart { s with power := { s.power with bankCharged := s.power.bankCharged || bank } })

/-- MODULE_RESTART (R575, R631): 20 ms after a module reset, and once no source's reading stands at or above its TRIP threshold, the
rails restart as though PWR_EN had just risen. -/
def execModuleRestart (s : State) : Out :=
  .next (match s.power.moduleResetAt with
    | none => s
    | some t =>
      if s.clock < t + 20 * msCycles ∨ !s.pins.pwrEn ∨ tempThreshold s 1 4 ≤ s.dp.hottest ∨ tempThreshold s 2 4 ≤ s.dp.hotStack
          ∨ tempThreshold s 3 4 ≤ s.dp.hotOptics ∨ 5500 < s.dp.iin10us then s
      else tryStart (clearLevels { s with power := { s.power with moduleResetAt := none } }))

/-! ### The start (R389, R398, R406, R599, R622-R624) -/

/-- A port whose PERST is deasserted starts once PWR_GOOD is high (R599). -/
def startPort (s : State) (port : Bool) : State :=
  if portEnabled s port && !(if port then s.pins.perstB else s.pins.perstA) then modHp s port (fun h => { h with state := 1 }) else s

/-- MAIN_ON (R601, R622, R623): PWR_GOOD rises, HF_SEL is latched, the PLL takes a reference, ports start, and the stacks train. `light`
tells whether ring light is sensed on the closed path (R406); `failed` lists pseudo-channels that fail training, as (stack,
pseudo-channel, training step), each of which raises PCH_FAIL (R398). -/
def execMainOn (light : Bool) (failed : List (BitVec 3 × BitVec 5 × BitVec 8)) (s : State) : Out :=
  .next <|
    if !s.power.starting ∨ !s.pins.pwrEn then s
    else
      let s := { s with
        pins := { s.pins with powerGood := true }
        power := { s.power with starting := false, railsOn := true, mainOnAt := s.clock, rtb := 0, nextCause := 1, railsByTrip := false }
        ri := { s.ri with hfSel := s.pins.hfSel, light := light, state := if s.ri.crosscut then 1 else 2 }
        ms := { s.ms with state := if failed.isEmpty then 1 else 3 } }
      let s := pllRetarget s
      let s := setPower s .mainOn
      let s := startPort (startPort s false) true
      let s := forEach (upTo 8) (fun s n =>
        modSc s n (fun c => { c with state := if failed.any (fun e => e.1.toNat == n) then 3 else 1 })) s
      let s := forEach failed (fun s e => raiseEvent s (pgSc e.1.toNat) 0x05 (info [(1, e.2.1.toNat), (1, e.2.2.toNat)])) s
      let s := if light then s else openCrosscut s 5
      updateQuiet s

/-- The stacks are zero-filled and the device enters ROM (R389, R623). -/
def enterRom (s : State) : State :=
  let s := { s with
    mem := [], memKey := []
    ms := { s.ms with state := if s.ms.state = 3 then 3 else 2 }
    scs := (forEach (upTo 8) (fun s n => modSc s n (fun c => { c with state := if c.state = 3 then 3 else 2 })) s).scs
    handoff := none
    cx := { state := 1 }
    power := { s.power with softReset := false, wait := 1 } }
  startBringup (setPower s .rom)

/-- ZERO_FILL_DONE (R389, R624): not where a pseudo-channel failed training, which takes the stacks out of service. -/
def execZeroFillDone (s : State) : Out :=
  .next (if s.power.state = .mainOn ∧ !s.power.softReset ∧ s.ms.state ≠ 3 then enterRom s else s)

/-- SOFT_RESET_DONE (R630, R638): the soft reset completes and the device enters ROM; the start's cause is the soft reset. -/
def execSoftResetDone (s : State) : Out :=
  .next (if s.power.state = .mainOn ∧ s.power.softReset then
    enterRom { s with power := { s.power with cause := 3, requester := s.power.nextRequester
                                              causeCount := min 65535 (s.power.causeCount + 1) } } else s)

/-- The logical tiles that the health map shows unavailable (R82): their working tiles carry state 6 (R99). -/
def loadUnavailable (s : State) : State :=
  forEach (s.tiles.filter (fun e => decide (e.1 % 1088 < 1024) && e.2.state == 6))
    (fun s e => modTg s (e.1 / 1088) (fun t => { t with unavailable := (e.1 % 1088) :: t.unavailable })) s

/-- The relief map is loaded from the health map, with event 0x08 for every relief tile in service (R81); a logical tile that was
unavailable stays so (R82). -/
def loadReliefs (s : State) : State :=
  let s := loadUnavailable s
  forEach s.store.reliefs (fun s e =>
    let g := e.1 / 64
    let j := e.1 % 64
    let s := modTg s g (fun t => { t with relief := tblSet {} t.relief j { state := e.2.1, seam := e.2.2.1, logical := e.2.2.2 } })
    if e.2.1 = 1 then raiseEvent s (pgTg g) 0x08 (info [(2, e.2.2.2), (2, 1024 + j), (1, 3)]) else s) s

/-- A new key identity from the DRBG (R524). -/
def newKey (s : State) : Nat × State :=
  (s.ke.nextKey, { s with ke := { s.ke with nextKey := s.ke.nextKey + 1, drbgCount := s.ke.drbgCount + 1 } })

/-- Restore one sealed owner record into its slot (R529): HELD with RESTORED; fresh K_stack and K_wrap. -/
def restoreSlot (s : State) (o : Nat) (r : SealRec) : State :=
  let (ks, s) := newKey s
  let (kw, s) := newKey s
  let s := modSlot s o (fun k => { k with
    state := 2, port := r.port, map := true, sealed := true, restored := true, kStack := ks, kWrap := kw, kMap := r.kMap
    token := r.token, sealHandle := some o })
  raiseEvent s pgKe 0x07 (info [(1, o), (1, ofBool r.port), (2, loadRecordsOf s o)])

/-- Report the trip and brown-out records (R551): each unacknowledged trip, and each brown-out record not yet reported. -/
def reportTrips (s : State) : State :=
  let due := s.store.trips.filter (fun t => (t.kind == 1 && !t.acked) || (t.kind == 2 && !t.reported))
  let s := forEach due (fun s t => raiseEvent s pgDp 0x07 t.head) s
  { s with store := { s.store with trips := s.store.trips.map (fun t => { t with reported := true }) } }

/-- FW_LOADED_WORK_DONE (R513, R518, R524, R529, R551, R624): manifest, health map, margin plan and identity take effect, trip records
are reported, and the device enters CONFIGURED, restoring sealed owners. `identity` is 0, or the reason of IDENTITY_FAIL. -/
def execFwLoadedWorkDone (identity : BitVec 2) (s : State) : Out :=
  .next <|
    match s.power.state, s.cx.running with
    | .fwLoaded, some img =>
      let s := { s with manifest := img.manifest }
      let s := { s with
        hb := { s.hb with margin := clipMargin s s.store.margin, state := 1 }
        mc := { s.mc with state := 1 }
        dp := { s.dp with throttle := clip s.dp.throttle img.manifest.throttleMin img.manifest.throttleMax } }
      let s := forEach (upTo 64) (fun s g => modTg s g (fun t => { t with derate := s.hb.margin.derate })) s
      let s := loadReliefs s
      let s := reportTrips s
      let ok := identity = 0 ∧ s.store.idOk
      let s := { s with ke := { s.ke with state := if s.ke.state = 2 then 2 else if ok then 1 else 3 } }
      let s := if ok then s else raiseEvent s pgKe 0x0B (info [(1, max 1 identity.toNat)])
      let s := setPower s .configured
      let (ks, s) := newKey s
      let (kw, s) := newKey s
      let s := modSlot s 0 (fun k => { k with state := 1, kStack := ks, kWrap := kw, generation := (k.generation + 1) % 256 })
      let s := forEach s.store.seals (fun s e => restoreSlot s e.1 e.2) s
      { s with power := { s.power with wait := if tripPending s then 2 else 0 } }
    | _, _ => s

/-- CONFIGURED_WORK_DONE (R634): with no unacknowledged trip record the device goes on to CALIBRATING, else it holds with WAIT 2. -/
def execConfiguredWorkDone (s : State) : Out :=
  .next (if s.power.state ≠ .configured then s
    else if tripPending s then { s with power := { s.power with wait := 2 } }
    else enterCalibrating s)

/-- The minimum-version counter advances to a higher SVN of the running image (R515): cause 1 handoff, 2 boot. -/
def advanceMvc (s : State) (cause : Nat) : State :=
  match s.cx.running with
  | none => s
  | some r =>
    if r.svn ≤ s.store.mvc then s
    else
      let old := s.store.mvc
      raiseEvent { s with store := s.store.setMvc r.svn } pgKe 0x0A (info [(4, old), (4, r.svn), (1, cause)])

/-- The headframe marks its restored owners in use and held by the recorded port (R529). -/
def adoptRestored (s : State) : State :=
  forEach (s.ke.slots.filter (fun e => e.2.restored && e.2.state == 2 && e.1 != 0)) (fun s e =>
    match getOwner s e.1 with
    | some _ => s
    | none => setOwner s e.1 (some { token := e.2.token, held := some e.2.port })) s

/-- The grace deadlines of restored owners run from READY on the headframe (R529). -/
def startGrace (s : State) : State :=
  forEach (ownerIds s) (fun s o => modOwner s o (fun w => match w.held, w.grace with
    | some p, none => { w with grace := some (BitVec.ofNat 64 (rtb s + (getHp s p).grace * 100000000)) }
    | _, _ => w)) s

/-- READY is entered (R515, R529, R623). -/
def enterReady (s : State) : State :=
  let s := setPower s .ready
  let s := { s with power := { s.power with wait := 0 }, sq := { s.sq with state := 1 } }
  let s := if s.cx.byBoot ∧ !s.cx.resetSince then
      advanceMvc { s with cx := { s.cx with resetSince := true } } 2 else s
  if isHeadframe s then startGrace (adoptRestored s) else s

/-- A ring of one forms and publishes its membership (R400, R431, R625). -/
def formSolo (s : State) : State :=
  let m : Member := { serial := s.store.serial, digest := s.store.idDigest }
  let s := { s with ri := { s.ri with
    state := 6, statusCleared := false, valid := true, hf := true, count := 1, position := 0, members := [m], cause := 1, phase := 0, result := 0
    changeCause := 5, retrainAt := none } }
  raiseEvent s pgRi 0x05 (info [(1, 1), (1, 0), (1, s.ri.generation), (1, 1)])

/-- STARTUP_CAL_DONE (R624, R625): start-up calibration is complete; the device trains its ring, or goes to READY with no ring or as a
ring of one. `peerLight` tells whether phase 1 found peer light on a ring port. -/
def execStartupCalDone (peerLight : Bool) (s : State) : Out :=
  .next <|
    if s.power.state ≠ .calibrating ∨ s.hb.selfcal ∨ s.mc.calBusy ∨ s.tgs.any (fun e => e.2.calActive) then s
    else
      let s := { s with ri := { s.ri with peerLight := s.ri.peerLight || peerLight } }
      if s.ri.peerLight ∨ (s.ri.crosscut ∧ s.ri.light) then
        let s := setPower s .ringTraining
        let s := { s with power := { s.power with wait := 3 } }
        if portsUp s then startElect s else startBringup s
      else if s.ri.hfSel then enterReady (formSolo s)
      else enterReady { s with ri := { s.ri with state := 7, phase := 0, result := 0, retrainAt := none } }

end Sys2Proof.Machine
end

