-- ==== Sys2Proof/Machine/Firmware.lean ====
section
/-! DEFINITION. Firmware: boot, staging, handoff and the watchdog (R481-R495, R504-R510). -/

namespace Sys2Proof.Machine

/-- First extent beyond the reserved region (R375, R377). -/
def extentCount : Nat := 9765625

/-- Every extent of `[lo, hi)` has holder `h` (R377): 0 free, 1 + owner granted, 257 firmware. The newest range prevails. -/
def allHeld : List (Nat × Nat × Nat) → Nat → Nat → Nat → Bool
  | [], lo, hi, h => decide (hi ≤ lo) || h == 0
  | (a, b, k) :: rs, lo, hi, h =>
    if hi ≤ lo then true
    else if b ≤ lo ∨ hi ≤ a then allHeld rs lo hi h
    else k == h && allHeld rs lo (max lo a) h && allHeld rs (min hi b) hi h

/-- Bytes `[a, a + n)` lie wholly in extents granted to owner `o` (R377). -/
def extentsGranted (s : State) (o a n : Nat) : Bool :=
  decide ((a + n + 4095) / 4096 ≤ extentCount) && allHeld s.ms.extents (a / 4096) ((a + n + 4095) / 4096) (1 + o)

/-- Extents `[lo, hi)` take a holder. -/
def setExtents (s : State) (lo hi h : Nat) : State := { s with ms := { s.ms with extents := (lo, hi, h) :: s.ms.extents } }

/-- A check ends with a code: CX_FW_STATUS shows it (R507). -/
def fwResult (s : State) (code : Nat) : State := { s with cx := { s.cx with fwValid := true, fwResult := code, fwPhase := 0 } }

/-- A rejected image raises FW_REJECTED (R510). -/
def fwReject (s : State) (code action : Nat) : State :=
  raiseEvent (fwResult s code) pgCx 0x05 (info [(1, code), (1, action), (1, s.ri.position)])

/-- Staging fails on this device (R490): the state is FAILED with the failing code. -/
def stageFail (s : State) (code : Nat) : State :=
  fwReject { s with cx := { s.cx with hoState := 5, hoResult := code, staged := none, stageOk := false, state := 3 } } code 1

/-- A STAGE doorbell (R490): checks 0x0A and 0x09, then the copy into the staging region. -/
def stageDoorbell (s : State) (a : Accessor) (addr : Nat) : State :=
  if s.cx.state ≠ 3 ∨ (s.cx.hoState ≠ 0 ∧ s.cx.hoState ≠ 5) then s
  else if !isHeadframe s ∨ a ≠ .pf0 false then stageFail s 0x0A
  else
    let size := ofLe (readUnder s (stackKey s 0) (addr + 16) 8)
    if !extentsGranted s 0 addr (max 8192 (min size stagingSize)) then stageFail s 0x09
    else
      let s := copyBytes s (stackKey s 0) addr stagingBase (max 8192 (min size stagingSize))
      { s with cx := { s.cx with hoState := 1, state := 2, fwPhase := 1, fwValid := false, stageOk := false
                                 hoMembers := 0, staged := none } }

/-- A write of CX_FW_DOORBELL (R488, R506). -/
def writeDoorbell (s : State) (a : Accessor) (v : Nat) : State :=
  if s.cx.state = 2 ∨ s.cx.state = 4 then s
  else if bits v 30 2 = 0 then
    match a with
    | .pf0 p =>
      if s.power.state = .rom ∧ s.cx.state = 1 ∧ bits v 0 28 = 0 then
        { s with cx := { s.cx with state := 2, fwPhase := 2, fwValid := false, bootPort := ofBool p }, power := { s.power with wait := 0 } }
      else s
    | _ => s
  else if bits v 30 2 = 1 then stageDoorbell s a (bits v 0 28 * 4096)
  else s

/-- BOOT: a doorbell write with ACTION BOOT (R487, R488). -/
def execBoot (a : Accessor) (value : BitVec 32) (s : State) : Out :=
  .next (if mayWrite s a pgCx && a != .mgmt && bits value.toNat 30 2 == 0 then writeDoorbell s a value.toNat else s)

/-- STAGE: a doorbell write with ACTION STAGE (R488, R490). -/
def execStage (a : Accessor) (value : BitVec 32) (s : State) : Out :=
  .next (if mayWrite s a pgCx && a != .mgmt && bits value.toNat 30 2 == 1 then writeDoorbell s a value.toNat else s)

/-- The firmware sets up the sump (R45, R641): its base is a free place of the reserved region (log entry 5), held by firmware. -/
def setSump (s : State) (log : Nat) : State :=
  let log := if log = 0 then 16 else log
  let base := 0x08000000 + 4096 * (Config.sumpPlace % 9700000)
  let s := setExtents s (base / 4096) (base / 4096 + 2 ^ log * 32 / 4096) 257
  { s with power := { s.power with sumpBase := BitVec.ofNat 64 base, sumpLog := log, sumpExists := true } }

/-- Extents that firmware holds from the start (R377, R484): the staging region and the resident copy, and those of its page tables, adapter
shadows, prompt pool and extent table, whose places the spec leaves to it (log entry 85). -/
def holdFirmware (s : State) : State :=
  Config.firmwareExtents.foldl (fun s r => setExtents s (32768 + r.1 % 9732857) (32768 + r.1 % 9732857 + r.2) 257) (setExtents s 0 32768 257)

/-- The KERNEL section of an image is loaded into SRAM at offset 0 (R486, R487). -/
def loadKernel (s : State) (base : Nat) : State :=
  match (imgSections s base).find? (fun x => x.type == 1) with
  | some x => { s with cx := { s.cx with sram := memBytes s (base + x.offset) x.length } }
  | none => s

/-- An accepted image loads (R487): resident copy, RUNNING, FW_LOADED, sump, then its events (log entry 97). -/
def bootAccept (s : State) : State :=
  let img := imgInfo s stagingBase
  let port := s.cx.bootPort
  let s := loadKernel (copyBytes s 0 stagingBase residentBase img.size) stagingBase
  let s := { fwResult s 0 with cx := { (fwResult s 0).cx with
    state := 3, running := some img, version := img.version, byBoot := true, resetSince := false
    signals := (upTo 8).map (fun c => (c, s.clock)) } }
  let s := powerEvent (setSump (holdFirmware { s with power := { s.power with state := .fwLoaded } }) img.sumpLog) s.power.state.code
  let s := raiseEvent s pgDev 0x05 (info [(1, s.power.cause), (1, s.power.requester), (1, ofBool s.power.tripBefore)])
  let s := raiseEvent s pgCx 0x04 (info [(4, img.version.toNat), (4, img.svn), (1, port)])
  if s.ri.imageWanted then sendImage { s with ri := { s.ri with imageWanted := false } } (s.ri.position + 1) residentBase img.size else s

/-- FW_VERIFY_DONE (R487, R489, R490): the checks of an image end. In ROM it boots or is rejected (a member that received its image
over the ring fails training with RESULT 2); at staging this member has passed or failed. -/
def execFwVerifyDone (s : State) : Out :=
  .next <|
    if s.cx.state ≠ 2 then s
    else if s.power.state = .rom then
      let overRing := s.cx.bootPort == 2
      let code := imgCheck s stagingBase (if overRing then none else some (s.cx.bootPort == 1)) false
      if code = 0 then bootAccept s
      else
        let s := fwReject { s with cx := { s.cx with state := 1 }, power := { s.power with wait := 1 } } code 0
        if overRing then trainFail s 2 else s
    else if s.cx.hoState ≠ 1 then s
    else
      let code := imgCheck s stagingBase none true
      if code ≠ 0 then
        let s := stageFail s code
        if isHeadframe s then s else sendMessage s 0 0x90 [s.ri.position, code]
      else
        let s := fwResult s 0
        let s := { s with cx := { s.cx with state := 3, staged := some (imgInfo s stagingBase), stageOk := true
                                            hoMembers := 1 } }
        if isHeadframe s then
          (forEach (upTo (ringCount s)) (fun s p => sendImage s p stagingBase (imgLe s stagingBase 16 8)) s)
        else sendMessage s 0 0x90 [s.ri.position, 0]

/-- Image data that arrives in a C0 packet goes into the staging region at its offset in the image (R489, R490); the last packet
starts the checks. -/
def imagePacket (s : State) (offset : Nat) (data : List Byte) (last : Bool) : State :=
  let rom := s.power.state == .rom && s.cx.state == 1
  let run := s.cx.state == 3 && !isHeadframe s && (s.cx.hoState == 0 || s.cx.hoState == 1 || s.cx.hoState == 5)
  if (!rom && !run) ∨ stagingSize < offset + data.length then s
  else
    let s := writeUnder s 0 (stagingBase + offset) data 0xFFFF
    let s := { s with cx := { s.cx with fwPhase := 1, hoState := if run then 1 else s.cx.hoState } }
    if last then { s with cx := { s.cx with state := 2, fwPhase := 2, fwValid := false, bootPort := 2 } } else s

/-- FW_IMAGE_PACKET (R489). -/
def execFwImagePacket (offset : BitVec 32) (data : List Byte) (last : Bool) (s : State) : Out :=
  .next (imagePacket s offset.toNat data last)

/-- FW_STAGED (R490): the headframe has every member's result, as (position, code): STAGED, or FAILED and discarded everywhere. -/
def execFwStaged (results : List (BitVec 6 × BitVec 8)) (s : State) : Out :=
  .next <|
    if s.cx.hoState ≠ 1 ∨ !s.cx.stageOk ∨ !isHeadframe s then s
    else
      let positions := (results.filter (fun r => r.1.toNat != s.ri.position)).map (fun r => r.1.toNat)
      match results.find? (fun r => r.2 != 0) with
      | some r =>
        let s := { s with cx := { s.cx with hoState := 5, hoResult := r.2.toNat, staged := none, stageOk := false } }
        broadcast s 0x93 [3, r.2.toNat]
      | none =>
        if positions.eraseDups.length + 1 < ringCount s then
          { s with cx := { s.cx with hoMembers := positions.eraseDups.length + 1 } }
        else
          let s := broadcast { s with cx := { s.cx with hoState := 2, hoResult := 0, hoMembers := ringCount s } } 0x93 [5, ringCount s]
          match s.cx.staged with
          | some img => raiseEvent s pgCx 0x06 (info [(4, img.version.toNat), (1, ringCount s)])
          | none => s

/-- The staged image is discarded on this member (R491, R492); a check of it in progress ends with no result. -/
def discardStaged (s : State) (cause : Nat) : State :=
  let s := { s with cx := { s.cx with hoState := 0, hoResult := 0x0B, staged := none, stageOk := false, hoMembers := 0
                                      quietMembers := [], hoPending := false, hoDone := []
                                      state := if s.cx.state = 2 then 3 else s.cx.state
                                      fwPhase := if s.cx.state = 2 then 0 else s.cx.fwPhase } }
  raiseEvent s pgCx 0x08 (info [(1, cause)])

/-- A membership change discards the staged image unless the handoff is pending (R492). -/
def changeDiscards (s : State) (cause : Nat) : State :=
  if (s.cx.hoState = 1 ∨ s.cx.hoState = 2 ∨ s.cx.hoState = 3) ∧ !s.cx.hoPending ∧ !s.sq.haltHandoff then discardStaged s cause else s

/-- Every member of the ring reports 1 s of quiet time. -/
def allQuiet (s : State) : Bool := (upTo (ringCount s)).all (fun p => s.cx.quietMembers.contains p)

/-- The headframe makes the handoff pending and tells every member (R491, R494). -/
def pendHandoff (s : State) : State := broadcast { s with cx := { s.cx with hoPending := true, hoDone := [] } } 0x93 [4]

/-- A write of CX_HANDOFF (R491, R509): accepted only from PF0 of Port A of the headframe. -/
def writeHandoff (s : State) (a : Accessor) (v : Nat) : State :=
  if a ≠ .pf0 false ∨ !isHeadframe s then s
  else
    let s :=
      if bit v 31 ∧ s.cx.hoState = 2 then
        let s := { s with cx := { s.cx with hoState := 3, quietMembers := if quiet s then [s.ri.position] else [] } }
        let s := broadcast s 0x93 [1]
        if !planAdmitted s ∧ allQuiet s then pendHandoff s else s
      else s
    if bit v 30 ∧ (s.cx.hoState = 2 ∨ s.cx.hoState = 3) then
      let s := discardStaged s 1
      broadcast s 0x93 [2]
    else s

/-- ACTIVATE: a write of CX_HANDOFF with ACTIVATE set. -/
def execCxActivate (a : Accessor) (value : BitVec 32) (s : State) : Out :=
  .next (if mayWrite s a pgCx && bit value.toNat 31 then writeHandoff s a value.toNat else s)

/-- DISCARD: a write of CX_HANDOFF with DISCARD set. -/
def execCxDiscard (a : Accessor) (value : BitVec 32) (s : State) : Out :=
  .next (if mayWrite s a pgCx && bit value.toNat 30 then writeHandoff s a value.toNat else s)

/-- QUIET_TIME_REACHED (R491): a member's quiet time reaches 1 s, or is lost. The headframe records it and counts every loss that another
member reports (its own it counts as it happens, `updateQuiet`); while no plan set is admitted the handoff is pending as soon as every
member reports (R494). -/
def execQuietTimeReached (position : BitVec 6) (reached : Bool) (s : State) : Out :=
  .next <|
    let p := position.toNat
    let own := p == s.ri.position
    if s.cx.hoState ≠ 3 ∨ (own && reached && !quiet s) then s
    else if !isHeadframe s then (if own then sendMessage s 0 0x91 [p, ofBool reached] else s)
    else if reached then
      let s := { s with cx := { s.cx with quietMembers := if s.cx.quietMembers.contains p then s.cx.quietMembers
                                                          else s.cx.quietMembers ++ [p] } }
      if !planAdmitted s ∧ !s.cx.hoPending ∧ allQuiet s then pendHandoff s else s
    else if !own then
      { s with cx := { s.cx with hoDeferrals := s.cx.hoDeferrals.bump (sclk s) 255 1, quietMembers := s.cx.quietMembers.filter (· != p) } }
    else s

/-- The handoff block of the running image (R493). -/
def handoffBlock (s : State) : HandoffBlock :=
  { format := (s.cx.running.map (·.handoffOut)).getD 1
    pairs := (s.hpA.qps, s.hpB.qps)
    fetched := (s.hpA.fetched.filter (fun f => !f.inEffect), s.hpB.fetched.filter (fun f => !f.inEffect))
    owners := s.owners, streams := s.streams, frames := s.ms.frames, epochs := (s.sq.epoch, s.sq.retiredEpoch), prefixes := s.prefixes
    promptUsed := s.promptUsed, extents := s.ms.extents, pauses := s.ke.pauseKeys, sumpHead := s.power.sumpHead }

/-- HANDOFF_START (R493, R494): when the round-start flit of the first HALT round reaches it, at a later boundary of the halt, or, while no
plan set is admitted, as soon as the pending handoff reaches it, a member that stands below HOT and in no power emergency writes its
handoff block and starts the staged image. -/
def execHandoffStart (s : State) : Out :=
  .next <|
    let reachedHere := s.cx.hoPending || s.sq.haltHandoff
    if !reachedHere ∨ s.cx.state ≠ 3 ∨ s.cx.staged.isNone ∨ 2 ≤ level s ∨ powerEmergency s
        ∨ (planAdmitted s ∧ !(s.sq.verdict == 3 && s.sq.haltHandoff && s.sq.edgeAt == some s.clock)) then s
    else
      let s := { s with handoff := some (handoffBlock s) }
      loadKernel { s with cx := { s.cx with state := 4, hoState := 4, hoPending := true, hoStart := s.power.rtb
                                            previous := s.cx.running } } stagingBase

/-- Milliseconds of RTB since the first HALT round of the handoff started, or, with no set admitted, since the new image did (R494). -/
def haltMs (s : State) : Nat := (rtb s - (s.cx.hoHalt.getD s.cx.hoStart).toNat) / 100000

/-- The handoff completes on this member (R493, R515, R519). -/
def handoffFinish (s : State) : State :=
  match s.cx.staged, s.cx.running with
  | some img, some old =>
    let ms := haltMs s
    let s := if isHeadframe s then broadcast s 0x95 [] else s
    let s := { s with
      manifest := img.manifest
      handoff := none
      cx := { s.cx with state := 3, hoState := 0, hoResult := 0, running := some img, version := img.version, staged := none
                        previous := none, hoPending := false, hoDone := [], hoHalt := none, byBoot := false, stageOk := false
                        signals := (upTo 8).map (fun c => (c, s.clock)) }
      sq := { s.sq with haltHandoff := false } }
    let s := putMargin s (clipMargin s s.store.margin)
    let s := raiseEvent s pgCx 0x07 (info [(4, old.version.toNat), (4, img.version.toNat), (2, ms), (1, 1)])
    advanceMvc s 1
  | _, _ => s

/-- HANDOFF_DONE (R493): a member reports completion; its own new image has then restored from the block (what the block carries stands in
its fields of State, which nothing but firmware changes) and copied itself into the resident copy. A report that comes before the headframe
itself has started its new image is kept. When every member
has reported (`all`, on a member that is not the headframe the headframe's notice) the handoff is over. -/
def execHandoffDone (position : BitVec 6) (all : Bool) (s : State) : Out :=
  .next <|
    let p := position.toNat
    let own := p == s.ri.position
    if (if own then s.cx.state != 4 || s.handoff.isNone || (decide (3000000 < rtb s - s.cx.hoStart.toNat) && !s.cx.hoDone.contains p)
        else s.cx.state != 4 && !(isHeadframe s && s.cx.hoPending)) then s
    else
      let s := if p = s.ri.position then
          let s := copyBytes s 0 stagingBase residentBase (imgLe s stagingBase 16 8)
          if isHeadframe s then s else sendMessage s 0 0x92 [p]
        else s
      let s := { s with cx := { s.cx with hoDone := if s.cx.hoDone.contains p then s.cx.hoDone else s.cx.hoDone ++ [p] } }
      if isHeadframe s then
        (if s.cx.state = 4 ∧ (upTo (ringCount s)).all (fun q => s.cx.hoDone.contains q) then handoffFinish s else s)
      else if all ∧ s.cx.hoDone.contains s.ri.position then handoffFinish s else s

/-- The previous image runs again from the resident copy, with the unchanged block (R495). The headframe orders it on every member, and a
member tells the headframe of its own; `ordered`: on the headframe's order. -/
def revertHandoff (s : State) (ordered : Bool) : State :=
  match s.cx.staged, s.cx.previous with
  | some img, some old =>
    let ms := haltMs s
    let s := loadKernel { s with
      handoff := none
      cx := { s.cx with state := 3, hoState := 5, hoResult := 0x0C, running := some old, version := old.version, staged := none
                        previous := none, hoPending := false, hoDone := [], hoHalt := none, stageOk := false
                        signals := (upTo 8).map (fun c => (c, s.clock)) }
      sq := { s.sq with haltHandoff := false } } residentBase
    let s := if isHeadframe s then broadcast s 0x94 [] else if ordered then s else sendMessage s 0 0x96 [s.ri.position]
    raiseEvent s pgCx 0x07 (info [(4, old.version.toNat), (4, img.version.toNat), (2, ms), (1, 2)])
  | _, _ => s

/-- HANDOFF_REVERT (R495): the new image has not reported within 30 ms (`why` 0), rejects the block (1), or the headframe orders the
reversion (2). -/
def execHandoffRevert (why : BitVec 2) (s : State) : Out :=
  .next <|
    if s.cx.state ≠ 4 ∨ 3 ≤ why.toNat ∨ (why = 0 ∧ (rtb s ≤ s.cx.hoStart.toNat + 3000000 ∨ s.cx.hoDone.contains s.ri.position)) then s
    else revertHandoff s (why == 2)

/-- WATCHDOG_SIGNAL (R483): a control core signals. -/
def execWatchdogSignal (core : BitVec 3) (s : State) : Out :=
  .next { s with cx := { s.cx with signals := tblSet 0 s.cx.signals core.toNat s.clock } }

/-- WATCHDOG (R483): a control core has been silent for 50 ms above ROM: the device stops in state WATCHDOG with fault event 0x0D. -/
def execWatchdog (core : BitVec 3) (s : State) : Out :=
  .next <|
    if s.power.state.code < 4 ∨ s.cx.state = 5 ∨ s.clock < tblGet 0 s.cx.signals core.toNat + 50 * msCycles then s
    else raiseEvent { s with cx := { s.cx with state := 5 } } pgCx 0x0D (info [(1, core.toNat)])

end Sys2Proof.Machine
end

