-- ==== Sys2Proof/Machine/Memory.lean ====
section
/-! DEFINITION. Stack memory: poison, scrub, extents, reclaiming frames (R375-R398, R358-R361). -/

namespace Sys2Proof.Machine

/-! ### Reclaiming (R358, R360 step 4, R361, R387) -/

/-- Reclaim one frame: it is free, or withdrawn with event 0x08 when it holds a poisoned word. -/
def reclaimFrame (s : State) (f : Nat) : State :=
  let a := frameAddr s f
  let bad := poisonedIn s a s.ms.pageSize
  let s := modFrame s f (fun r => { epoch := r.epoch, withdrawn := bad })
  let s := forEach (streamIds s) (fun s sid => modStream s sid (fun t => { t with awaiting := t.awaiting.filter (· != f) })) s
  if bad then raiseEvent s pgMs 0x08 (info [(8, a), (1, 1)]) else s

/-- Step 4: reclaim every frame whose count is 0 and whose release epoch has retired; IDs that nothing holds become free (R340,
R341). -/
def stepReclaim (s : State) (retired : Nat) : State :=
  let fs := (s.ms.frames.filter (fun e => e.2.released && e.2.count == 0 && decide (e.2.epoch ≤ retired))).map (·.1)
  freeIds (forEach fs reclaimFrame s)

/-- Steps 2 to 4 of a boundary (R360). -/
def stepsTwoToFour (s : State) (retired : Nat) : State := stepReclaim (stepRelease (stepRefer s)) retired

/-! ### Grants (R378) -/

/-- Code of MEM_GRANT. -/
def stInUse : Nat := 0x10
/-- Code of MEM_RELEASE. -/
def stReferenced : Nat := 0x11

/-- This device's record of a plan (R262, R264). -/
def Plan.own (q : Plan) (s : State) : DevRec := q.recs.getD (ownPosition s) {}

/-- Bytes of the outlier rows (R267), of A, of B and of the probe set (R268) of a descriptor, and of the ABSOLUTE and OWNED ranges
of DMA slots (R278): the ranges an admitted set names on this device, with the owner each is read under. -/
def namedRanges (d : DevRec) : List (Nat × Nat) :=
  d.ops.flatMap (fun o =>
    (match o.outlier with
      | some x => [(x.addr, 2 * o.n * x.count)]
      | none => []) ++
    (match o.adapter with
      | some x => [(x.a, 2 * x.rank * o.k), (x.b, 2 * x.rank * o.n), (x.probe, 4 * o.k * x.count)]
      | none => [])) ++
  d.templates.flatMap (fun t => (t.dmas.filter (fun x => x.mode == 0 || x.mode == 2)).map (fun x => (x.addr, x.bytes)))

/-- An extent range holds a master-copy block of a bound tile (R176) or meets a range the admitted set names (R378). -/
def referenced (s : State) (a n : Nat) : Bool :=
  s.bindings.any (fun e => match e.2 with
    | some b => b.bound && overlap a n b.block 131072
    | none => false) ||
  (match s.sq.planSet with
    | some p => p.plans.any (fun q => (namedRanges (q.own s)).any (fun r => overlap a n r.1 r.2))
    | none => false)

/-- The address and size of a grant or release are aligned, not zero and inside the reserved region (R378). -/
def grantShape (a n : Nat) : Bool :=
  a % 4096 == 0 && n % 4096 == 0 && n != 0 && decide (a + n ≤ poolBase)

/-- MEM_GRANT on this device (R378): its code, and the state. -/
def grantEffect (s : State) (o a n : Nat) : Nat × State :=
  if !grantShape a n then (stBadParam, s)
  else if !allHeld s.ms.extents (a / 4096) ((a + n) / 4096) 0 then (stInUse, s)
  else (stOk, setExtents s (a / 4096) ((a + n) / 4096) (1 + o))

/-- MEM_RELEASE on this device (R378, R387): its code, and the state. -/
def releaseEffect (s : State) (o a n : Nat) : Nat × State :=
  if !grantShape a n then (stBadParam, s)
  else if !allHeld s.ms.extents (a / 4096) ((a + n) / 4096) (1 + o) then (stInUse, s)
  else if referenced s a n then (stReferenced, s)
  else
    let es := ((s.ms.poisoned.map (· / 64)).filter (fun e => a / 4096 ≤ e && e < (a + n) / 4096)).eraseDups
    let s := setExtents s (a / 4096) ((a + n) / 4096) 0
    (stOk, forEach es (fun s e => raiseEvent (setExtents s e (e + 1) 258) pgMs 0x08 (info [(8, e * 4096), (1, 2)])) s)

/-! ### Scrub and error rates (R388, R392, R394, R396, R398) -/

/-- DCLK cycles of an hour. -/
def hourCycles : Nat := 3600 * secCycles

/-- Patrol scrub starts a pass (R388), when it is enabled, memory is in service and no pass runs. A pass reads the device once in PERIOD
hours. -/
def execScrubPassStart (s : State) : Out :=
  .next (if s.ms.scrubEn && !s.ms.scrubActive && s.ms.state == 2 then
    { s with ms := { s.ms with scrubActive := true, scrubUntil := s.clock + s.ms.period * hourCycles } } else s)

/-- A scrub pass ends, PERIOD hours after it began (R386, R388, R394; log entry 88): every word of the stacks that take work (R21, log entry 96) has been read; `ecc` lists the words it found in error (word, uncorrectable).
Corrected words are written back; poisoned words are reported; event 0x06 gives the counts. -/
def execScrubPass (ecc : List (Nat × Bool)) (s : State) : Out :=
  .next <|
    if !s.ms.scrubActive ∨ s.clock < s.ms.scrubUntil then s
    else
      let found := (errorsNow s ecc).filter (fun e => decide (e.1 < memSize / 64) && takesWork s (pgSc (stackOf (64 * e.1))))
      let fixed := found.filter (fun e => !e.2 && !s.ms.poisoned.contains e.1)
      let fresh := found.filter (fun e => e.2 && !s.ms.poisoned.contains e.1)
      let old := s.ms.poisoned.filter (fun w => takesWork s (pgSc (stackOf (64 * w))))
      let s := forEach fixed (fun s e => eccCorrected s e.1) s
      let s := forEach (fresh.map (·.1) ++ old) (fun s w => eccPoisoned s w rdScrub 259) s
      let s := { s with ms := { s.ms with latent := s.ms.latent.filter (fun e => !found.contains e) } }
      let s := { s with ms := { s.ms with scrubActive := false, passes := min 65535 (s.ms.passes + 1) } }
      raiseEvent s pgMs 0x06 (info [(4, fixed.length), (4, fresh.length)])

/-- A write of MS_SCRUB_CTRL (R392): a PERIOD outside 1-168 discards it whole. -/
def writeScrubCtrl (s : State) (v : Nat) : State :=
  if 1 ≤ v % 256 ∧ v % 256 ≤ 168 then { s with ms := { s.ms with scrubEn := bit v 31, period := v % 256 } } else s

/-- MS_SCRUB_CTRL (R392). -/
def execMsScrubCtrl (a : Accessor) (value : BitVec 32) (s : State) : Out :=
  .next (if mayWrite s a pgMs && a != .mgmt then writeScrubCtrl s value.toNat else s)

/-- An hour of RTB ends (R396): CE_RATE of each stack is the hour's corrected words; reaching 64 raises event 0x04 (R398). -/
def execCeRateUpdate (s : State) : Out :=
  .next (if rtb s / 360000000000 ≤ s.ms.rateHour then s else
    forEach (upTo 8) (fun s n =>
    let c := getSc s n
    let rate := min 255 c.ceHour
    let s := modSc s n (fun c => { c with ceRate := rate, ceHour := 0 })
    if 64 ≤ rate then raiseEvent s (pgSc n) 0x04 (info [(1, rate), (4, c.pchErr.toNat)]) else s)
      { s with ms := { s.ms with rateHour := rtb s / 360000000000 } })

end Sys2Proof.Machine
end

