-- ==== Sys2Proof/Machine/CoreOps.lean ====
section
/-! DEFINITION. What the instructions of a correction core share: issue and faults (R225, R227-R231), the scratchpad and its slots
(R200-R209), the beat a core sees (R186, R232), and clearing a core (R213). -/

namespace Sys2Proof.Machine

/-! ### Faults and issue -/

/-- The instruction word at the program counter (R199, R221). -/
def Core.word (k : Core) : BitVec 64 := tblGet 0 k.imem k.pc

/-- A detail word for CC_SLOT_FAULT (R220). -/
def slotDetail (core slot tag access : Nat) : BitVec 32 :=
  BitVec.ofNat 32 (2 ^ 31 + field 16 8 core + field 8 8 slot + field 4 4 tag + field 0 4 access)

/-- A fault of an instruction (R229, R256): the core freezes, PC stays at the instruction. -/
def coreFault (s : State) (c code addr : Nat) : State := freezeCore s c code addr

/-- A slot fault 0x11-0x14 (R220, R256): CC_SLOT_FAULT takes its detail and the core freezes. -/
def slotFault (s : State) (c code addr : Nat) (detail : BitVec 32) : State :=
  freezeCore (modCore s c (fun k => { k with slotFault := detail })) c code addr

/-- The core can issue the word `w` next (R227): it runs a launch, is not frozen, clearing or stalled, and `w` stands at PC. -/
def canIssue (s : State) (c : Nat) (w : BitVec 64) : Bool :=
  let k := getCore s c
  k.active && !coreFrozen s c && !k.inReset && !(s.cx.state == 5 && s.sq.live.isNone) && k.wait.isNone && k.word == w

/-- The core stalls at the instruction at PC (R217). -/
def stall (s : State) (c : Nat) (w : Wait) : State := modCore s c (fun k => { k with wait := some w })

/-- The vector registers an instruction names (R231-R251). -/
def vecRegs (w : BitVec 64) : List Nat :=
  let d := wD w
  let a := wA w
  let b := wB w
  let c := wC w
  let vb := if bit (wM w) 0 then [] else [b]
  match wOp w with
  | 0x12 | 0x39 | 0x45 | 0x73 | 0x80 | 0x82 | 0xA2 | 0xC0 | 0xC1 => [d]
  | 0x38 | 0x75 | 0xA3 => [a]
  | 0x44 | 0x76 | 0x81 | 0x83 => [b]
  | 0x60 | 0x61 | 0x62 | 0x64 | 0x65 | 0x69 | 0x6D => [d, a] ++ vb
  | 0x63 => [d, a, c] ++ vb
  | 0x66 | 0x67 | 0x6A | 0x6B | 0x6C | 0x6E | 0x6F | 0x70 | 0x72 => [d, a]
  | 0x68 => [a] ++ vb
  | 0x71 => [d, a, b]
  | 0x77 => [d, a, c]
  | 0x84 => (upTo 16).map (· + d)
  | 0x85 => [d, b]
  | _ => []

/-- The instruction reads or clears fs, which a remote read's data may still set (R223, R253). -/
def usesFs (w : BitVec 64) : Bool := wOp w == 0x0E || (wOp w == 0x0D && wImm w == 6)

/-- The instruction waits for a remote read (R227, R231): it names a register whose data has not returned, reads or clears fs, or is
END. -/
def netHazard (k : Core) (w : BitVec 64) : Bool :=
  k.remoteReads.any (fun r => wOp w == 0x01 || usesFs w || (vecRegs w).contains r.1)

/-- Issue of an instruction (R225, R227): nothing unless it is the core's next one; an illegal word freezes the core with fault 0x20;
a register a remote read has still to write stalls it. -/
def issue (s : State) (c : Nat) (w : BitVec 64) (body : State → State) : State :=
  if canIssue s c w then
    if wordIllegal w then coreFault s c 0x20 w.toNat
    else if netHazard (getCore s c) w then stall s c .net
    else body s
  else s

/-- The instruction has taken effect: PC moves to the next one, and falling through past 8,191 freezes the core (R231). -/
def advance (s : State) (c : Nat) : State :=
  if (getCore s c).pc = 8191 then coreFault s c 0x21 8192 else modCore s c (fun k => { k with pc := k.pc + 1 })

/-- An instruction that changes only its core. -/
def retire (s : State) (c : Nat) (f : Core → Core) : State := advance (modCore s c f) c

/-- sA + IMM, modulo 2^64 (R239, R247). -/
def address (k : Core) (w : BitVec 64) (base : Nat) : Nat := (k.s base + wSimm w).toNat

/-! ### Scratchpad and slots (R200-R209) -/

/-- Bytes of a scratchpad (R200). -/
def scratchSize : Nat := 0x60000

/-- TAG as the core's own next instruction finds it (R239): a fill of this cycle has ended by then. -/
def SlotDesc.tagFull (d : SlotDesc) : Bool := d.full || d.filling

/-- A slot descriptor of a core. -/
def Core.slot (k : Core) (i : Nat) : SlotDesc := tblGet {} k.slots i
/-- Change a slot descriptor. -/
def Core.modSlot (k : Core) (i : Nat) (f : SlotDesc → SlotDesc) : Core := { k with slots := tblMod {} k.slots i f }

/-- The valid slot that covers a row, with its index (R204: valid slots never overlap). -/
def Core.slotAt (k : Core) (row : Nat) : Option (Nat × SlotDesc) :=
  k.slots.find? (fun e => e.2.valid && decide (e.2.base ≤ 64 * row) && decide (64 * row < e.2.base + e.2.size))

/-- The (offset, bytes) spans of an access, as the rows they touch: (first touched offset, row). -/
def spanRows (sp : List (Nat × Nat)) : List (Nat × Nat) :=
  sp.flatMap (fun x => if x.2 = 0 then [] else
    (upTo ((x.1 + x.2 - 1) / 64 - x.1 / 64 + 1)).map (fun i => (max x.1 (64 * (x.1 / 64 + i)), x.1 / 64 + i)))

/-- What an access may do, in the order of R230: fault (code, address, detail), stall on a slot, or go on. -/
inductive Access where
  /-- The core freezes with this code, FAULT address and CC_SLOT_FAULT detail. -/
  | bad (code addr : Nat) (detail : BitVec 32)
  /-- The core stalls on this slot. -/
  | hold (index : Nat)
  /-- The access goes on. -/
  | go
deriving DecidableEq, Repr

/-- First of a list of options. -/
def firstSome {α : Type} : List (Option α) → Option α
  | [] => none
  | some x :: _ => some x
  | none :: t => firstSome t

/-- Range check of spans against a scratchpad (R200, fault 0x14). -/
def rangeCheck (sp : List (Nat × Nat)) (target access : Nat) : Option Access :=
  (sp.find? (fun x => decide (scratchSize < x.1 + x.2))).map (fun x => .bad 0x14 x.1 (slotDetail target 0xFF 0xF access))

/-- A load of spans by core `c` itself (R207, R230). -/
def loadAccess (k : Core) (c : Nat) (sp : List (Nat × Nat)) (checked : Bool) : Access :=
  let how := if checked then 2 else 1
  let rows := spanRows sp
  ((rangeCheck sp c how).orElse (fun _ =>
    (if checked then
      ((rows.find? (fun r => (k.slotAt r.2).isNone)).map (fun r => Access.bad 0x13 r.1 (slotDetail c 0xFF 0xF how))).orElse (fun _ =>
        firstSome (rows.map (fun r => match k.slotAt r.2 with
          | some e => if e.2.tagFull then none else some (.hold e.1)
          | none => none)))
    else
      firstSome (rows.map (fun r => match k.slotAt r.2 with
        | some e => if e.2.tagFull then none else some (.bad 0x12 r.1 (slotDetail c e.1 0 how))
        | none => none))))).getD .go

/-- A store of spans by core `c` itself (R208, R230). -/
def storeAccess (k : Core) (c : Nat) (sp : List (Nat × Nat)) : Access :=
  ((rangeCheck sp c 3).orElse (fun _ =>
    firstSome ((spanRows sp).map (fun r => match k.slotAt r.2 with
      | some e => if e.2.tagFull then some (.bad 0x11 r.1 (slotDetail c e.1 1 3)) else none
      | none => none)))).getD .go

/-- Carry out what an access decides: fault, stall, or the body. -/
def Access.run (x : Access) (s : State) (c : Nat) (body : State → State) : State :=
  match x with
  | .bad code addr detail => slotFault s c code addr detail
  | .hold i => stall s c (.slot i)
  | .go => body s

/-- Bytes of a scratchpad as they stand. -/
def Core.bytes (k : Core) (a n : Nat) : List Byte := tblGetList 0 k.scratch a n

/-- Write bytes into a scratchpad. -/
def Core.put (k : Core) (a : Nat) (bs : List Byte) : Core := { k with scratch := tblSetList 0 k.scratch a bs }

/-- A store of the owning core (R205, R209): the core sees it at once, every other reader from the next cycle on. -/
def Core.store (k : Core) (a : Nat) (bs : List Byte) : Core :=
  { k.put a bs with scratchWas := some (k.scratchWas.getD k.scratch), stores := k.stores ++ [(a, bs)] }

/-- The canonical NaN over every 32-bit word of `[a, a + n)` that an uncorrectable 8-byte unit of `ecc` affects (R201). -/
def nanWords (a : Nat) (bs : List Byte) (ecc : List (Nat × Bool)) : List Byte :=
  (upTo bs.length).map (fun i =>
    if ecc.contains ((a + i) / 8, true) then [0x00, 0x00, 0xC0, 0x7F].getD ((a + i) % 4) 0 else bs.getD i 0)

/-- Bytes that a read of a scratchpad returns when it meets the errors `ecc`: (8-byte unit, uncorrectable) (R201). -/
def Core.read (k : Core) (a n : Nat) (ecc : List (Nat × Bool)) : List Byte := nanWords a (k.bytes a n) ecc

/-- Bytes that a scratchpad serves to another master (R209): as they stood at the start of the cycle. -/
def Core.serve (k : Core) (a n : Nat) (ecc : List (Nat × Bool)) : List Byte :=
  nanWords a (tblGetList 0 (k.scratchWas.getD k.scratch) a n) ecc

/-- The errors `ecc` that a read of spans of core `c`'s scratchpad meets: corrected ones are counted, an uncorrectable one freezes
the core (R201). -/
def scratchEcc (s : State) (c : Nat) (sp : List (Nat × Nat)) (ecc : List (Nat × Bool)) : State :=
  let mine := ecc.filter (fun e => sp.any (fun x => decide (x.1 < 8 * e.1 + 8) && decide (8 * e.1 < x.1 + x.2)))
  if mine.isEmpty then s
  else
    let s := modCore s c (fun k => { k with eccCe := k.eccCe.bump (sclk s) 4095 (mine.filter (fun e => !e.2)).length })
    match mine.find? (·.2) with
    | some e => freezeCore s c 0x1A (8 * e.1)
    | none => s

/-- An arrival at a core's scratchpad, which commits at the end of the cycle (R205, R209). -/
def arrive (s : State) (c : Nat) (x : Arrival) : State := modCore s c (fun k => { k with arriving := k.arriving ++ [x] })

/-- An arrival is written (R205): each row of a valid slot that it writes counts one arrival in the next cycle. -/
def Core.commit (k : Core) (x : Arrival) : Core :=
  { k.put x.off x.data with
    pendingArr := k.pendingArr ++ (spanRows [(x.off, x.data.length)]).filterMap (fun r => (k.slotAt r.2).map (·.1)) }

/-- The FULL slot an arrival at `[a, a + n)` would write, with the first offset in it (R208). -/
def fullSlot (k : Core) (a n : Nat) : Option (Nat × Nat) :=
  firstSome ((spanRows [(a, n)]).map (fun r => match k.slotAt r.2 with
    | some e => if e.2.full then some (e.1, r.1) else none
    | none => none))

/-- A slot whose COUNT has reached TARGET becomes FULL at the end of the cycle (R205). -/
def Core.fillSlots (k : Core) : Core :=
  { k with slots := tblMap {} (fun _ (d : SlotDesc) =>
      if d.valid && !d.full && (d.filling || decide (d.target ≤ d.count)) then { d with full := true, filling := false } else d) k.slots }

/-- The arrivals that committed at the end of a cycle increment COUNT in the next (R205); the core's own stores of the cycle stand over
them and are now seen by every reader (R209). -/
def Core.nextCycle (k : Core) : Core :=
  let k := k.stores.foldl (fun k x => k.put x.1 x.2) k
  let k := k.pendingArr.foldl (fun k i => k.modSlot i (fun d => if d.valid then { d with count := (d.count + 1) % 65536 } else d)) k
  { k with pendingArr := [], stores := [], scratchWas := none, emptied := []
           acc := k.emptied.foldl (fun m e => tblClear m e.1 e.2) k.acc }

/-- SLOT.DEF refuses a definition for its shape (R204, R240): size exponent, TARGET, alignment, range. -/
def slotShapeBad (n target base : Nat) : Bool :=
  decide (n < 6) || decide (16 < n) || target == 0 || base % min (2 ^ n) 4096 != 0 || decide (scratchSize < base + 2 ^ n)

/-- The slot would overlap another valid descriptor of the core. -/
def Core.slotClash (k : Core) (i n base : Nat) : Bool :=
  k.slots.any (fun e => e.1 != i && e.2.valid && overlap e.2.base e.2.size base (2 ^ n))

/-- Define a descriptor: COUNT 0, EMPTY, VALID (R239); arrivals still uncounted for its index are dropped. -/
def Core.defSlot (k : Core) (i n target base : Nat) : Core :=
  { k.modSlot i (fun _ => { valid := true, base := base, size := 2 ^ n, target := target, count := 0, full := false }) with
    pendingArr := k.pendingArr.filter (· != i) }

/-- FAULT address of fault 0x25 (R256). -/
def slotDefAddr (i base : Nat) : Nat := i * 2 ^ 32 + base % 2 ^ 32

/-! ### The beat and the plan a core sees -/

/-- The plan of the active bucket (R306). -/
def activePlan (s : State) : Option Plan :=
  match s.sq.planSet with
  | none => none
  | some p => p.plans.find? (fun q => q.bucket == s.sq.active)

/-- This device's record of the active plan. -/
def ownRec (s : State) : DevRec := ((activePlan s).map (fun q => q.own s)).getD {}

/-- The template of the beat in execution (R257). -/
def liveTemplate (s : State) : Template :=
  match s.sq.live with
  | some l => (ownRec s).templates.getD l.template {}
  | none => {}

/-- DCLK cycle of the beat; a free value when no beat runs (log entry 27). -/
def beatCycle (s : State) : Nat × State :=
  match s.sq.live with
  | some l => (l.cycle, s)
  | none => draw s

/-- Replay index of the execution; a free value when no beat runs. -/
def beatRho (s : State) : Nat × State :=
  match s.sq.live with
  | some l => (l.rho, s)
  | none => ((draw s).1 % 4, (draw s).2)

/-- Change the beat in execution. -/
def modLive (s : State) (f : Live → Live) : State := { s with sq := { s.sq with live := s.sq.live.map f } }

/-- PAGE_OWNER.OWNER of a page, or 0 if VALID is 0 (R232). -/
def pageOwnerId (s : State) (p : Nat) : Nat := if (getHdr s p).ownerValid then (getHdr s p).ownerId else 0

/-! ### Clearing and launching a core (R213, R218, R222, R273) -/

/-- A core clears after a thaw or at plan admission (R213): registers, matrix accumulators, slot table, bank and scratchpad go to 0 and
the zeroing takes 768 cycles; of a beat in execution it begins no further launch. CC_SLOT_FAULT, instruction memory and the counters stay (R220, R199). -/
def clearCore (s : State) (c : Nat) : State :=
  modCore s c (fun k =>
    { imem := k.imem, imemLen := k.imemLen, entry := k.entry, accOvf := k.accOvf, accOvfBeat := k.accOvfBeat, eccCe := k.eccCe,
      posted := k.posted, slotFault := k.slotFault, inReset := true, clearEnd := s.clock + 768, sitOut := k.sitOut || s.sq.live.isSome })

/-- Execution starts at an index (R218, R222, R273): PC is set, fs cleared. -/
def startCore (s : State) (c pc current : Nat) (watched : Bool) : State :=
  modCore s c (fun k => { k.clearFs with active := true, pc := pc, current := current, watched := watched, wait := none })

/-- The first descriptor of a launch that overlaps a valid descriptor, or the core with all of them defined (R273). -/
def defineAll (k : Core) : List Desc → Except (Nat × Nat) Core
  | [] => .ok k
  | d :: ds => if slotShapeBad d.n d.target d.base || k.slotClash d.index d.n d.base then .error (d.index, d.base)
    else defineAll (k.defSlot d.index d.n d.target d.base) ds

/-- A launch begins on its core (R273): its descriptors are defined, PC set, fs cleared; a descriptor that overlaps freezes the core
with fault 0x25 and PC at ENTRY. -/
def beginLaunch (s : State) (i : Nat) (l : Launch) : State :=
  match defineAll (getCore s l.core) l.descs with
  | .ok k => startCore (modCore s l.core (fun _ => k)) l.core l.entry i l.watched
  | .error (d, b) => coreFault (startCore s l.core l.entry i l.watched) l.core 0x25 (slotDefAddr d b)

end Sys2Proof.Machine
end

