-- ==== Sys2Proof/Machine/CoreControl.lean ====
section
/-! DEFINITION. Control and sequencer instructions of a correction core (R231-R237). -/

namespace Sys2Proof.Machine

/-! ### Shared bodies -/

/-- The launch a core executes (R273). -/
def launchOf (s : State) (c : Nat) : Launch := (liveTemplate s).launches.getD (getCore s c).current {}

/-- The launch of a core ends (R231, R254, R273): a watched one reports a non-finite result; a launch that waits for it begins. -/
def endLaunch (s : State) (c : Nat) : State :=
  let k := getCore s c
  let s := if k.watched && (k.nv || k.inf) then modLive s (fun l => { l with nonFinite := true }) else s
  let s := modCore s c (fun k =>
    { k with active := false, current := 0xFFFF, watched := false, wait := none, launchWait := k.launchWait.tail })
  match k.launchWait with
  | [] => s
  | i :: _ => match (liveTemplate s).launches[i]? with
    | some l => beginLaunch s i l
    | none => s

/-- A branch (R231): a target above 8,191 is a field fault, taken or not. -/
def branchBody (s : State) (c : Nat) (w : BitVec 64) (taken : Bool) : State :=
  if 8191 < wImm w then coreFault s c 0x21 (wImm w)
  else if taken then modCore s c (fun k => { k with pc := wImm w })
  else advance s c

/-- A conditional branch on sA and sB (R231). -/
def condBranch (op : Nat) (test : BitVec 64 → BitVec 64 → Bool) (core : BitVec 8) (a b : BitVec 5) (imm : BitVec 32) (s : State) :
    State :=
  let w := mkWord op 0 a b 0 0 imm
  let c := core.toNat
  issue s c w (fun s => branchBody s c w (test ((getCore s c).s a.toNat) ((getCore s c).s b.toNat)))

/-- FENCE (R228): it completes once every earlier remote write of the core has committed; its own stores have. -/
def fenceBody (s : State) (c : Nat) : State := if (getCore s c).posted.isEmpty then advance s c else stall s c .fence

/-- WAITT (R233): no stall once the target tick has begun. -/
def waittBody (s : State) (c : Nat) (w : BitVec 64) : State :=
  let target := address (getCore s c) w (wA w)
  let (cycle, s) := beatCycle s
  if target ≤ cycle / 2 then advance s c else stall s c (.tick target)

/-- WAITC (R206, R233): it waits until the slot is FULL, or until COUNT reaches a count that is not 0; a descriptor that is not valid
gives fault 0x13, whose FAULT address no rule states (a free value, log entry 28). -/
def waitcBody (s : State) (c : Nat) (w : BitVec 64) : State :=
  let i := wImm w % 128
  let n := wImm w / 65536
  let d := (getCore s c).slot i
  if !d.valid then slotFault (draw s).2 c 0x13 (draw s).1 (slotDetail c i 0xF 5)
  else if d.tagFull || (n != 0 && decide (n ≤ d.count)) then advance s c
  else stall s c (.slot i)

/-- POST (R234): an index that the post table lacks or that is already posted is fault 0x27; it waits as FENCE does and then marks its
entry posted at the end of the cycle. -/
def postBody (s : State) (c : Nat) (w : BitVec 64) : State :=
  let k := getCore s c
  let i := wImm w % 1024
  let done := match s.sq.live with
    | some l => l.posted.any (fun e => e.1 == k.current && e.2.1 == i)
    | none => true
  if done || decide ((launchOf s c).posts.length ≤ i) then coreFault s c 0x27 i
  else if !k.posted.isEmpty then stall s c .fence
  else advance (modLive s (fun l => { l with posted := (k.current, i, l.cycle) :: l.posted })) c

/-- The special value that SGET reads (R232). -/
def specialValue (s : State) (c sel : Nat) : Nat × State :=
  match sel with
  | 0 => (c, s)
  | 1 => (c / 4, s)
  | 2 => ((beatCycle s).1 / 2, (beatCycle s).2)
  | 3 => beatCycle s
  | 4 => (s.sq.beatCount.toNat, s)
  | 5 => beatRho s
  | 6 => ((getCore s c).fs, s)
  | 7 => ((getCore s c).current, s)
  | 8 => (pageOwnerId s (pgCc c), s)
  | _ => (rtb s, s)

/-- An FP32 value is normal and finite. -/
def isNormal (x : Word32) : Bool := decide (0 < bits x.toNat 23 8) && decide (bits x.toNat 23 8 < 255)

/-- 2^n as FP32, for |n| ≤ 3. -/
def pow2F (n : Int) : Word32 := BitVec.ofInt 32 ((127 + n) * 8388608)

/-- The pair (s_a, r_a) rescaled by the largest replay index up to `n` that keeps both normal and finite (R145). -/
def rescalePair (p : Word32 × Word32) : Nat → Option (Word32 × Word32)
  | 0 => if isNormal p.1 && isNormal p.2 then some p else none
  | n + 1 =>
    let q := (fMul p.1 (pow2F (n + 1 : Nat)), fMul p.2 (pow2F (-(n + 1 : Nat))))
    if isNormal q.1 && isNormal q.2 then some q else rescalePair p n

/-- RSC (R145, R235): the operation of the beat's template that has the tag decides, else one that the plan
declares in another. A pair that no replay index keeps normal has no stated result: a free value (log entry 29). -/
def rscBody (s : State) (c : Nat) (w : BitVec 64) : State :=
  let k := getCore s c
  let named := (ownRec s).ops.filter (fun o => o.tag == wImm w % 65536)
  match (named.find? (fun o => some o.template == s.sq.live.map (·.template))).orElse (fun _ => named.head?) with
  | none => coreFault s c 0x2B (wImm w % 65536)
  | some o =>
    if !o.rescale then retire s c (fun k => k.setS (wD w) (k.s (wA w)))
    else
      let (rho, s) := beatRho s
      if rho = 0 then retire s c (fun k => k.setS (wD w) (k.s (wA w)))
      else match rescalePair (k.pair (wA w)) rho with
        | some p => retire s c (fun k => k.setS (wD w) (pairWord p.1 p.2))
        | none => retire (draw s).2 c (fun k => k.setS (wD w) (BitVec.ofNat 64 (draw s).1))

/-- An output is a jump (R142): q is NaN or infinite or above κ × μ. -/
def isJump (q kappa mu : Word32) : Bool := !(ofF32 q).isFin || Fp.lt (ofF32 (fMul kappa mu)) (ofF32 q)

/-- NWCHK (R142, R236). -/
def nwchkBody (s : State) (c : Nat) (w : BitVec 64) : State :=
  let layer := wImm w % 4096
  let vec := bits (wImm w) 16 8
  match s.sq.live, (liveTemplate s).watches.find? (fun x => x.layer == layer && x.core == c) with
  | some l, some x =>
    if l.nwQ.any (fun e => e.1 == layer && e.2.1 == vec) then coreFault s c 0x2A (vec * 65536 + layer)
    else
      let q := (getCore s c).f (wA w)
      let jump := isJump q x.kappa (tblGet 0 l.muStart layer)
      retire (modLive s (fun l => { l with nwQ := l.nwQ ++ [(layer, vec, jump, q)] })) c
        (fun k => k.setS (wD w) (BitVec.ofNat 64 (ofBool jump)))
  | _, _ => coreFault s c 0x2A (vec * 65536 + layer)

/-- RAND (R237, R325): the next 64 words of the stream's draw buffer. -/
def randBody (s : State) (c : Nat) (w : BitVec 64) : State :=
  let stream := ((getCore s c).s (wA w)).toNat % 65536
  let pos := tblGet 0 s.sq.drawPos stream
  let words := (tblGet [] s.sq.draws stream).drop pos
  if s.sq.live.isNone || decide (words.length < 64) then coreFault s c 0x29 stream
  else retire { s with sq := { s.sq with drawPos := tblSet 0 s.sq.drawPos stream (pos + 64) } } c
    (fun k => k.setV (wD w) (words.take 64))

/-! ### The instructions -/

/-- NOP (R231). -/
def execCcNop (core : BitVec 8) (s : State) : Out :=
  .next (issue s core.toNat (mkWord 0x00 0 0 0 0 0 0) (fun s => advance s core.toNat))

/-- END (R231, R254). -/
def execCcEnd (core : BitVec 8) (s : State) : Out :=
  .next (issue s core.toNat (mkWord 0x01 0 0 0 0 0 0) (fun s => endLaunch s core.toNat))

/-- BR (R231). -/
def execCcBr (core : BitVec 8) (imm : BitVec 32) (s : State) : Out :=
  .next (issue s core.toNat (mkWord 0x02 0 0 0 0 0 imm) (fun s => branchBody s core.toNat (mkWord 0x02 0 0 0 0 0 imm) true))

/-- BEQ (R231). -/
def execCcBeq (core : BitVec 8) (a b : BitVec 5) (imm : BitVec 32) (s : State) : Out :=
  .next (condBranch 0x03 (· == ·) core a b imm s)

/-- BNE (R231). -/
def execCcBne (core : BitVec 8) (a b : BitVec 5) (imm : BitVec 32) (s : State) : Out :=
  .next (condBranch 0x04 (· != ·) core a b imm s)

/-- BLT (R231). -/
def execCcBlt (core : BitVec 8) (a b : BitVec 5) (imm : BitVec 32) (s : State) : Out :=
  .next (condBranch 0x05 BitVec.slt core a b imm s)

/-- BGE (R231). -/
def execCcBge (core : BitVec 8) (a b : BitVec 5) (imm : BitVec 32) (s : State) : Out :=
  .next (condBranch 0x06 (fun x y => !x.slt y) core a b imm s)

/-- BLTU (R231). -/
def execCcBltu (core : BitVec 8) (a b : BitVec 5) (imm : BitVec 32) (s : State) : Out :=
  .next (condBranch 0x07 BitVec.ult core a b imm s)

/-- BGEU (R231). -/
def execCcBgeu (core : BitVec 8) (a b : BitVec 5) (imm : BitVec 32) (s : State) : Out :=
  .next (condBranch 0x08 (fun x y => !x.ult y) core a b imm s)

/-- FENCE (R228, R231). -/
def execCcFence (core : BitVec 8) (s : State) : Out :=
  .next (issue s core.toNat (mkWord 0x09 0 0 0 0 0 0) (fun s => fenceBody s core.toNat))

/-- WAITT (R231, R233). -/
def execCcWaitt (core : BitVec 8) (a : BitVec 5) (imm : BitVec 32) (s : State) : Out :=
  .next (issue s core.toNat (mkWord 0x0A 0 a 0 0 0 imm) (fun s => waittBody s core.toNat (mkWord 0x0A 0 a 0 0 0 imm)))

/-- WAITC (R206, R231, R233). -/
def execCcWaitc (core : BitVec 8) (imm : BitVec 32) (s : State) : Out :=
  .next (issue s core.toNat (mkWord 0x0B 0 0 0 0 0 imm) (fun s => waitcBody s core.toNat (mkWord 0x0B 0 0 0 0 0 imm)))

/-- POST (R231, R234). -/
def execCcPost (core : BitVec 8) (imm : BitVec 32) (s : State) : Out :=
  .next (issue s core.toNat (mkWord 0x0C 0 0 0 0 0 imm) (fun s => postBody s core.toNat (mkWord 0x0C 0 0 0 0 0 imm)))

/-- SGET (R231, R232). -/
def execCcSget (core : BitVec 8) (d : BitVec 5) (imm : BitVec 32) (s : State) : Out :=
  .next (issue s core.toNat (mkWord 0x0D d 0 0 0 0 imm) (fun s =>
    let v := specialValue s core.toNat imm.toNat
    retire v.2 core.toNat (fun k => k.setS d.toNat (BitVec.ofNat 64 v.1))))

/-- FSCLR (R223, R231). -/
def execCcFsclr (core : BitVec 8) (s : State) : Out :=
  .next (issue s core.toNat (mkWord 0x0E 0 0 0 0 0 0) (fun s => retire s core.toNat Core.clearFs))

/-- RSC (R235). -/
def execCcRsc (core : BitVec 8) (d a : BitVec 5) (imm : BitVec 32) (s : State) : Out :=
  .next (issue s core.toNat (mkWord 0x10 d a 0 0 0 imm) (fun s => rscBody s core.toNat (mkWord 0x10 d a 0 0 0 imm)))

/-- NWCHK (R236). -/
def execCcNwchk (core : BitVec 8) (d a : BitVec 5) (imm : BitVec 32) (s : State) : Out :=
  .next (issue s core.toNat (mkWord 0x11 d a 0 0 0 imm) (fun s => nwchkBody s core.toNat (mkWord 0x11 d a 0 0 0 imm)))

/-- RAND (R237). -/
def execCcRand (core : BitVec 8) (d a : BitVec 5) (s : State) : Out :=
  .next (issue s core.toNat (mkWord 0x12 d a 0 0 0 0) (fun s => randBody s core.toNat (mkWord 0x12 d a 0 0 0 0)))

/-- A word that is not an instruction, or breaks its form, freezes the core with fault 0x20 (R225). -/
def execCcIllegal (core : BitVec 8) (word : BitVec 64) (s : State) : Out :=
  .next (if wordIllegal word then issue s core.toNat word (fun s => s) else s)

/-- CC_LAUNCH (R218): ENTRY is stored; START begins execution there with an empty slot table while no plan is admitted, the core's
STATE is IDLE (R215) and it is not frozen. -/
def writeCcLaunch (s : State) (c v : Nat) : State :=
  let s := modCore s c (fun k => { k with entry := bits v 16 13 })
  if bit v 31 && decide (4 ≤ s.power.state.code) && s.cx.state != 5 && !planAdmitted s && !coreFrozen s c && !(getCore s c).inReset && !(getCore s c).active && ccEnabled s c then
    startCore (modCore s c (fun k => { k with slots := [] })) c (bits v 16 13) 0xFFFF false
  else s

/-- A write of CC_LAUNCH (R218). -/
def execCcLaunchStart (a : Accessor) (core : BitVec 8) (value : BitVec 32) (s : State) : Out :=
  .next (if mayWrite s a (pgCc core.toNat) && a != .mgmt then writeCcLaunch s core.toNat value.toNat else s)

/-- A launch of the beat in execution starts at its START tick (R273): it waits for the END of the core's previous launches; a frozen,
disabled or clearing core, and one cleared inside this beat, starts none (R47, R213). -/
def execLaunchStart (launch : BitVec 16) (s : State) : Out :=
  .next <|
    let i := launch.toNat
    match s.sq.live, (liveTemplate s).launches[i]? with
    | some b, some l =>
      if b.cycle / 2 ≠ l.start ∨ b.done.contains (1, i) then s
      else
        let s := modLive s (fun b => { b with done := (1, i) :: b.done })
        if coreFrozen s l.core || (getCore s l.core).inReset || (getCore s l.core).sitOut || !ccEnabled s l.core then s
        else if (getCore s l.core).active then modCore s l.core (fun k => { k with launchWait := k.launchWait ++ [i] })
        else beginLaunch s i l
    | _, _ => s

/-- The zeroing of a core ends (R213, R215): it enters IDLE. -/
def execCoreClearDone (core : BitVec 8) (s : State) : Out :=
  .next (if (getCore s core.toNat).inReset && decide ((getCore s core.toNat).clearEnd ≤ s.clock) then
    modCore s core.toNat (fun k => { k with inReset := false, clearEnd := 0 }) else s)

/-- A stalled WAITT ends in the first cycle of its target tick (R233). -/
def execWaittRelease (core : BitVec 8) (s : State) : Out :=
  .next <|
    let c := core.toNat
    match (getCore s c).wait with
    | some (.tick t) =>
      if coreFrozen s c then s
      else
        let (cycle, s) := beatCycle s
        if t ≤ cycle / 2 then advance (modCore s c (fun k => { k with wait := none })) c else s
    | _ => s

/-- A FENCE or POST that waited for the core's remote writes completes (R228, R234). -/
def execFenceComplete (core : BitVec 8) (s : State) : Out :=
  .next <|
    let c := core.toNat
    let k := getCore s c
    if k.wait = some .fence ∧ k.posted = [] ∧ !coreFrozen s c then
      let s := modCore s c (fun k => { k with wait := none })
      if wOp k.word = 0x0C then postBody s c k.word else fenceBody s c
    else s

end Sys2Proof.Machine
end

