-- ==== Sys2Proof/Machine/Health.lean ====
section
/-! DEFINITION. The health block: calibration commands, ageing, the margin plan (R552-R560, R569, R576-R583, R592). -/

namespace Sys2Proof.Machine

/-! ### Calibration (R552-R556, R581) -/

/-- CAL_INTERVAL_EXPIRY (R552): the RTB time since a group's calibration has reached the maximum interval. -/
def execCalIntervalExpiry (group : BitVec 6) (s : State) : Out :=
  .next <|
    let g := group.toNat
    let t := getTg s g
    if calAllowed s ∧ t.calCount ≠ 0 ∧ t.calLast.toNat + s.hb.margin.interval * 100000000 ≤ rtb s then startCal s g 2 else s

/-- CAL_DONE (R554, R555): every covered tile has taken its 24 shots. `dead` lists converters of the group found out of trim range or too
nonlinear, as (tile, converter); at start-up the calibration is repeated while a trim or tap moved, at most 64 times (R624). -/
def execCalDone (group : BitVec 6) (dead : List (BitVec 11 × BitVec 7)) (moved : Bool) (s : State) : Out :=
  .next <|
    let g := group.toNat
    if !(getTg s g).calActive ∨ uncalibrated s g ≠ 0 then s
    else
      let hit := dead.filter (fun e => decide (e.1.toNat < 1088) && decide (e.2.toNat ≤ 64))
      let s := forEach hit (fun s e => convDead s (tileIx g e.1.toNat) e.2.toNat 2) s
      let s := finishGroupCal s g
      if s.power.state = .calibrating ∧ moved ∧ (getTg s g).startCals < 63 then
        modTg (startCal s g 4) g (fun t => { t with startCals := t.startCals + 1 })
      else s

/-- CAL_LATE (R90): a calibration is not complete 1 s after it became due. -/
def execCalLate (group : BitVec 6) (s : State) : Out :=
  .next <|
    let g := group.toNat
    let t := getTg s g
    if !t.calDue ∨ t.calLate ∨ s.clock < t.calDueAt + secCycles then s
    else
      let n := if t.calActive then uncalibrated s g else ((tilesOf s g).filter (fun e => e.2.calPend)).length
      raiseEvent (modTg s g (fun t => { t with calLate := true })) (pgTg g) 0x06 (info [(2, n)])

/-- A write of HB_CAL_CMD (R581): CAL starts the named group or all enabled groups; SELFCAL is accepted only while no plan is admitted. -/
def writeCalCmd (s : State) (v : Nat) : State :=
  let s := if bit v 31 ∧ calAllowed s ∧ takesWork s pgHb then
      forEach (if bit v 6 then upTo 64 else [bits v 0 6]) (fun s g => startCal s g 3) s
    else s
  if bit v 30 ∧ !planAdmitted s ∧ calAllowed s ∧ takesWork s pgHb then startSelfcal s else s

/-- CAL: a write of HB_CAL_CMD with CAL set. -/
def execHbCal (a : Accessor) (value : BitVec 32) (s : State) : Out :=
  .next (if mayWrite s a pgHb && bit value.toNat 31 then writeCalCmd s value.toNat else s)

/-- SELFCAL: a write of HB_CAL_CMD with SELFCAL set. -/
def execHbSelfcal (a : Accessor) (value : BitVec 32) (s : State) : Out :=
  .next (if mayWrite s a pgHb && bit value.toNat 30 then writeCalCmd s value.toNat else s)

/-- Groups that self-calibration covers: the enabled ones. -/
def enabledGroups (s : State) : List Nat := (upTo 64).filter (fun g => tgEnabled s g)

/-- SELFCAL_DONE (R556): trims are set, converters that failed (tile, converter) are dead with detection 1, and event 0x08 is raised. At
start-up the group calibrations follow (R624). -/
def execSelfcalDone (dead : List (BitVec 17 × BitVec 7)) (s : State) : Out :=
  .next <|
    if !s.hb.selfcal then s
    else
      let hit := dead.filter (fun e => decide (e.1.toNat < 69632) && decide (e.2.toNat ≤ 64))
      let s := { s with hb := { s.hb with selfcal := false } }
      let s := forEach (enabledGroups s) (fun s g => modTg s g (fun t => { t with selfcal := s.power.rtb.setWidth 32 })) s
      let s := forEach hit (fun s e => convDead s e.1.toNat e.2.toNat 1) s
      let s := raiseEvent s pgHb 0x08 (info [(1, (enabledGroups s).length), (2, hit.length)])
      if s.power.state = .calibrating then forEach (enabledGroups s) (fun s g => startCal s g 4) s else s

/-! ### Envelopes and the margin plan (R558-R560, R578-R583) -/

/-- The margin plan in force is clipped by a new envelope; if a part changed it is stored, and with `event` reported. -/
def reclip (s : State) (event : Bool) : State :=
  let m := clipMargin s s.hb.margin
  if m = s.hb.margin then s
  else
    let s := putMargin s m
    if event then marginEvent s 2 else s

/-- Bounds that lie in order within a range. -/
def boundsOk (lo hi least most : Nat) : Bool := decide (least ≤ lo) && decide (lo ≤ hi) && decide (hi ≤ most)

/-- A value of HB_CAL_DTCAL that R578 accepts. -/
def dtcalOk (v : Nat) : Bool := boundsOk (bits v 0 7) (bits v 8 7) 5 100

/-- A write of HB_CAL_DTCAL (R578). -/
def writeDtcal (s : State) (v : Nat) : State :=
  if dtcalOk v then reclip { s with hb := { s.hb with dtcalLo := bits v 0 7, dtcalHi := bits v 8 7 } } false else s

/-- HB_CAL_DTCAL (R578). -/
def execHbCalDtcal (a : Accessor) (value : BitVec 32) (s : State) : Out :=
  .next (if mayWrite s a pgHb then writeDtcal s value.toNat else s)

/-- A value of HB_CAL_MAX_INTERVAL that R579 accepts. -/
def intervalOk (v : Nat) : Bool := boundsOk (bits v 0 10) (bits v 10 10) 60 600

/-- A write of HB_CAL_MAX_INTERVAL (R579). -/
def writeInterval (s : State) (v : Nat) : State :=
  if intervalOk v then reclip { s with hb := { s.hb with intLo := bits v 0 10, intHi := bits v 10 10 } } false else s

/-- HB_CAL_MAX_INTERVAL (R579). -/
def execHbCalMaxInterval (a : Accessor) (value : BitVec 32) (s : State) : Out :=
  .next (if mayWrite s a pgHb then writeInterval s value.toNat else s)

/-- A value of HB_MARGIN_ENV0 (false) or HB_MARGIN_ENV1 (true) that R583 accepts. -/
def envOk (which : Bool) (v : Nat) : Bool :=
  if which then boundsOk (bits v 16 2) (bits v 24 2) 0 2 && boundsOk (bits v 0 5) (bits v 8 5) 0 16
  else boundsOk (bits v 16 7) (bits v 24 7) 0 100 && boundsOk (bits v 0 5) (bits v 8 5) 8 25

/-- A write of HB_MARGIN_ENV0 (false) or HB_MARGIN_ENV1 (true) (R583). -/
def writeEnv (s : State) (which : Bool) (v : Nat) : State :=
  if !envOk which v then s
  else if which then reclip { s with hb := { s.hb with
    derateHi := bits v 24 2, derateLo := bits v 16 2, reserveHi := bits v 8 5, reserveLo := bits v 0 5 } } true
  else reclip { s with hb := { s.hb with
    guardHi := bits v 24 7, guardLo := bits v 16 7, tolHi := bits v 8 5, tolLo := bits v 0 5 } } true

/-- HB_MARGIN_ENV0, HB_MARGIN_ENV1 (R583). -/
def execHbMarginEnv (a : Accessor) (which : Bool) (value : BitVec 32) (s : State) : Out :=
  .next (if mayWrite s a pgHb then writeEnv s which value.toNat else s)

/-- D_ro (R558): the largest 1 - f_s/f_u of the pairs, in hundredths of a per cent, where a frequency is an oscillator's count over the time in
which it was counted; a pair whose stressed oscillator is the faster counts 0 (log entry 95). -/
def oscillatorDrift (stressed unstressed : List (BitVec 32)) (ts tu : Nat) : Nat :=
  ((stressed.zip unstressed).map (fun x => 10000 * (ts * x.2.toNat - x.1.toNat * tu) / (ts * x.2.toNat))).foldl max 0

/-- AGEING_UPDATE (R558): one powered hour has passed. The 64 oscillator pairs have been counted, the stressed ones for one time and the
unstressed ones for another; the CE peak is the largest CE_RATE of the last 168 hours. -/
def execAgeingUpdate (stressed unstressed : List (BitVec 32)) (stressedTime unstressedTime : BitVec 32) (s : State) : Out :=
  .next <|
    if !mainPower s ∨ stressed.length ≠ 64 ∨ unstressed.length ≠ 64 ∨ 0 ∈ unstressed ∨ stressedTime = 0 ∨ unstressedTime = 0 then s
    else
      let now := ((upTo 8).map (fun n => (getSc s n).ceRate)).foldl max 0
      let peaks := (s.hb.cePeaks ++ [now]).drop (s.hb.cePeaks.length + 1 - 168)
      let h := s.hb
      { s with hb := { h with
          dRo := oscillatorDrift stressed unstressed stressedTime.toNat unstressedTime.toNat, cePeaks := peaks, cePeak := peaks.foldl max 0
          hours := h.hours + 1, poweredHours := h.poweredHours + 1
          retirements := h.retirements.filter (fun t => decide (h.poweredHours + 1 < t + 168)) } }

/-- The plan the rules of R559 form from the ageing measures. -/
def planMargin (s : State) : Margin :=
  let h := s.hb
  { guard := s.manifest.guardMin + 10 * (h.dRo / 50) + (if 16 ≤ h.cePeak then 10 else 0)
    dtcal := if h.canaryDrift < 5 then 30 else if h.canaryDrift < 15 then 20 else 10
    interval := if h.canaryDrift < 5 then 600 else if h.canaryDrift < 15 then 300 else 120
    derate := if h.trimDrift < 8 then 0 else if h.trimDrift < 24 then 1 else 2
    tol := if h.pvMean < 512 then 15 else if h.pvMean < 768 then 12 else 10
    reserve := min 16 (2 + (h.retirements.length + 15) / 16) }

/-- A new margin plan is formed, clipped, stored and reported (R559, R560). -/
def replan (s : State) (cause : Nat) : State :=
  let s := putMargin s (clipMargin s (planMargin s))
  marginEvent { s with hb := { s.hb with hours := 0, replanPending := false } } cause

/-- MARGIN_REPLAN (R559): after 168 powered hours, or once the level has fallen below CRITICAL after a command. -/
def execMarginReplan (s : State) : Out :=
  .next (if s.hb.state = 0 ∨ 3 ≤ level s then s
    else if s.hb.replanPending then replan s 2
    else if 168 ≤ s.hb.hours then replan s 1
    else s)

/-- A write of HB_MARGIN_PLAN (R582): REPLAN forms a plan now, or once the level has fallen below CRITICAL. -/
def writeMarginPlan (s : State) (v : Nat) : State :=
  if !bit v 31 ∨ !takesWork s pgHb then s
  else if 3 ≤ level s then { s with hb := { s.hb with replanPending := true } }
  else replan s 2

/-- REPLAN: a write of HB_MARGIN_PLAN with REPLAN set. -/
def execReplan (a : Accessor) (value : BitVec 32) (s : State) : Out :=
  .next (if mayWrite s a pgHb && a != .mgmt then writeMarginPlan s value.toNat else s)

end Sys2Proof.Machine
end

