-- ==== Sys2Proof/Machine/PlanImage.lean ====
section
/-! DEFINITION. Reading a plan set image (R261-R282): every record of every plan, with the failures found on the way. -/

namespace Sys2Proof.Machine

/-- A failed check (R286, R309): code, plan index, list, entry. -/
abbrev PErr := Nat × Nat × Nat × Nat

/-- Reader of an image: the little-endian number of `n` bytes at an offset. -/
abbrev Img := Nat → Nat → Nat

/-- Lists of R309. -/
def lsHeader : Nat := 0
/-- Layouts. -/
def lsLayouts : Nat := 1
/-- Templates. -/
def lsTemplates : Nat := 2
/-- Operations. -/
def lsOps : Nat := 3
/-- Shots. -/
def lsShots : Nat := 4
/-- Drive sources. -/
def lsDrives : Nat := 5
/-- Bank uses. -/
def lsBanks : Nat := 6
/-- Launches. -/
def lsLaunches : Nat := 7
/-- Ring slots. -/
def lsRings : Nat := 8
/-- DMA slots. -/
def lsDmas : Nat := 9
/-- Watches. -/
def lsWatches : Nat := 10
/-- Positions. -/
def lsPositions : Nat := 11
/-- Standing slots. -/
def lsStanding : Nat := 12

/-- A failure when a condition does not hold. -/
def need (ok : Bool) (code plan list entry : Nat) : List PErr := if ok then [] else [(code, plan, list, entry)]

/-- Bytes `[a, b]` of an entry are 0. -/
def zeroAt (u : Img) (base : Nat) (spans : List (Nat × Nat)) : Bool := spans.all (fun x => u (base + x.1) (x.2 + 1 - x.1) == 0)

/-- `n` entries of a width at an offset lie in the image, the offset a multiple of 64 (R261). -/
def inImage (size o n width : Nat) : Bool := o % 64 == 0 && decide (o + n * width ≤ size)

/-- Offsets of the entries of a list; none when the list is empty or does not lie in the image (R286 code 0x02). -/
def itemsAt (size pl ls en n o width : Nat) : List Nat × List PErr :=
  if n = 0 then ([], [])
  else if inImage size o n width then ((upTo n).map (fun k => o + k * width), []) else ([], [(0x02, pl, ls, en)])

/-- Read every entry of a list, with its index. -/
def readAll {α : Type} (l : List Nat) (f : Nat → Nat → α × List PErr) : List α × List PErr :=
  let rs := (l.zip (upTo l.length)).map (fun x => f x.2 x.1)
  (rs.map (·.1), rs.flatMap (·.2))

/-- A list reference of R265: count, offset, width, reader of an entry. -/
def readRef {α : Type} (u : Img) (size pl ls ref width : Nat) (f : Nat → Nat → α × List PErr) : List α × List PErr :=
  let it := itemsAt size pl ls 0 (u ref 4) (u (ref + 8) 8) width
  let rs := readAll it.1 f
  (rs.1, need (zeroAt u ref [(4, 7)]) 0x01 pl ls 0 ++ it.2 ++ rs.2)

/-- Residency entries (R267). -/
def readResident (u : Img) (size pl en n o : Nat) : List Resid × List PErr :=
  let it := itemsAt size pl lsOps en n o 8
  let rs := readAll it.1 (fun _ b =>
    (({ core := u b 1, dma := u (b + 2) 2, off := u (b + 4) 4 } : Resid), need (zeroAt u b [(1, 1)]) 0x07 pl lsOps en))
  (rs.1, it.2 ++ rs.2)

/-- An outlier set (R267). -/
def readOutlier (u : Img) (size pl en o : Nat) : Option OutlierSet × List PErr :=
  if o = 0 then (none, [])
  else if !inImage size o 1 32 || !inImage size o 1 (32 + 4 * u o 2) then (none, [(0x02, pl, lsOps, en)])
  else
    let r := readResident u size pl en (u (o + 16) 2) (u (o + 24) 8)
    (some { count := u o 2, theta := BitVec.ofNat 32 (u (o + 4) 4), addr := u (o + 8) 8, resident := r.1
            cand := (upTo (u o 2)).map (fun k => u (o + 32 + 4 * k) 4) },
     need (zeroAt u o [(2, 3), (18, 23)] && decide (1 ≤ u o 2) && decide (u o 2 ≤ 64)) 0x07 pl lsOps en ++ r.2)

/-- An adapter descriptor (R268). -/
def readAdapter (u : Img) (size pl en o : Nat) : Option AdapterDesc × List PErr :=
  if o = 0 then (none, [])
  else if !inImage size o 1 64 then (none, [(0x02, pl, lsOps, en)])
  else
    let r := readResident u size pl en (u (o + 44) 2) (u (o + 48) 8)
    (some { rank := u o 1, train := bit (u (o + 1) 1) 0, version := BitVec.ofNat 32 (u (o + 2) 4), logM := u (o + 6) 1
            eta := BitVec.ofNat 32 (u (o + 8) 4), a := u (o + 16) 8, b := u (o + 24) 8, probe := u (o + 32) 8
            count := u (o + 40) 4, resident := r.1 },
     need (zeroAt u o [(7, 7), (12, 15), (46, 47), (56, 63)] && decide (u (o + 1) 1 < 2)) 0x07 pl lsOps en ++ r.2)

/-- An operation descriptor (R266). -/
def readOp (u : Img) (size pl en b : Nat) : OpDesc × List PErr :=
  let fl := u (b + 2) 1
  let rg := u (b + 3) 1
  let o := readOutlier u size pl en (u (b + 16) 8)
  let a := readAdapter u size pl en (u (b + 24) 8)
  ({ tag := u b 2, i8 := bit fl 0, seam := bit fl 1, adaptive := bit fl 2, chained := bit fl 3, rescale := bit fl 4
     range := bits rg 0 3, e := bits rg 4 3, allowance := bits (u (b + 4) 1) 0 2, template := u (b + 5) 1
     owner := u (b + 6) 1, k := u (b + 8) 4, n := u (b + 12) 4, outlier := o.1, adapter := a.1 },
   need (zeroAt u b [(7, 7), (32, 63)]) 0x01 pl lsOps en ++
   need (bits fl 5 3 == 0 && !bit rg 3 && !bit rg 7 && bits (u (b + 4) 1) 2 6 == 0) 0x07 pl lsOps en ++ o.2 ++ a.2)

/-- A shot entry (R269); byte 5 whole, for the check of NIBBLE. -/
def readShot (u : Img) (pl en b : Nat) : Shot × List PErr :=
  ({ slot := u b 4, group := u (b + 4) 1, nibble := u (b + 5) 1, logical := u (b + 6) 2, op := u (b + 8) 2
     vector := u (b + 10) 1, block := u (b + 11) 1, source := u (b + 12) 2 },
   need (zeroAt u b [(14, 15)]) 0x01 pl lsShots en)

/-- A drive source (R270). -/
def readDrive (u : Img) (pl en b : Nat) : Drive × List PErr :=
  ({ core := u b 1, post := u (b + 2) 2, codes := u (b + 4) 4, mask := u (b + 8) 4 },
   need (zeroAt u b [(1, 1), (12, 15)]) 0x01 pl lsDrives en)

/-- A bank use (R272). -/
def readBank (u : Img) (pl en b : Nat) : Bank × List PErr :=
  ({ core := u b 1, block := u (b + 1) 1, readBy := u (b + 4) 4 }, need (zeroAt u b [(2, 3)]) 0x01 pl lsBanks en)

/-- A launch (R273) with its descriptor list and post table (R275). A post entry whose bits [29:16] are not 0 reads as kind 0. -/
def readLaunch (u : Img) (size pl en b : Nat) : Launch × List PErr :=
  let d := itemsAt size pl lsLaunches en (u (b + 8) 2) (u (b + 16) 8) 8
  let p := itemsAt size pl lsLaunches en (u (b + 10) 2) (u (b + 24) 8) 4
  ({ core := u b 1, watched := bit (u (b + 1) 1) 0, entry := u (b + 2) 2, start := u (b + 4) 4
     descs := d.1.map (fun x => { index := u x 1, n := u (x + 1) 1, target := u (x + 2) 2, base := u (x + 4) 4 })
     posts := p.1.map (fun x => (if bits (u x 4) 16 14 = 0 then bits (u x 4) 30 2 else 0, bits (u x 4) 0 16)) },
   need (zeroAt u b [(12, 15)] && decide (u (b + 1) 1 < 2)) 0x01 pl lsLaunches en ++ d.2 ++ p.2)

/-- A ring slot (R276). -/
def readRing (u : Img) (pl en b : Nat) : Ring × List PErr :=
  let fl := u (b + 1) 1
  ({ dir := u b 1, stepOut := bit fl 0, retain := bit fl 1, standing := bit fl 2, post := u (b + 2) 2, send := u (b + 4) 4
     bytes := u (b + 8) 4, srcCore := u (b + 12) 1, dstCore := u (b + 13) 1, dstDevice := u (b + 14) 1, dstSlot := u (b + 15) 1
     srcOff := u (b + 16) 4, dstOff := u (b + 20) 4, dstPos := u (b + 24) 2 },
   need (zeroAt u b [(26, 31)] && decide (fl < 8)) 0x01 pl lsRings en)

/-- A DMA slot (R278). -/
def readDma (u : Img) (pl en b : Nat) : Dma × List PErr :=
  ({ dir := u b 1, mode := u (b + 1) 1, post := u (b + 2) 2, start := u (b + 4) 4, stop := u (b + 8) 4, bytes := u (b + 12) 4
     core := u (b + 16) 1, slot := u (b + 17) 1, owner := u (b + 18) 1, offset := u (b + 20) 4, addr := u (b + 24) 8 },
   need (zeroAt u b [(19, 19)]) 0x01 pl lsDmas en)

/-- A watch (R280). -/
def readWatch (u : Img) (pl en b : Nat) : Watch × List PErr :=
  ({ layer := u b 2, core := u (b + 2) 1, kappa := BitVec.ofNat 32 (u (b + 4) 4), muInit := BitVec.ofNat 32 (u (b + 8) 4)
     decideBy := u (b + 12) 4 }, need (zeroAt u b [(3, 3)]) 0x01 pl lsWatches en)

/-- A template (R265). -/
def readTemplate (u : Img) (size pl en b : Nat) : Template × List PErr :=
  let sh := readRef u size pl lsShots (b + 16) 16 (readShot u pl)
  let dr := readRef u size pl lsDrives (b + 32) 16 (readDrive u pl)
  let bk := readRef u size pl lsBanks (b + 48) 8 (readBank u pl)
  let la := readRef u size pl lsLaunches (b + 64) 32 (readLaunch u size pl)
  let rg := readRef u size pl lsRings (b + 80) 32 (readRing u pl)
  let dm := readRef u size pl lsDmas (b + 96) 32 (readDma u pl)
  let wt := readRef u size pl lsWatches (b + 112) 16 (readWatch u pl)
  ({ len := u b 4, repair := u (b + 4) 1 == 1, vectors := u (b + 5) 1, runCap := u (b + 6) 1, energy := u (b + 8) 8
     shots := sh.1, drives := dr.1, banks := bk.1, launches := la.1, rings := rg.1, dmas := dm.1, watches := wt.1 },
   need (zeroAt u b [(7, 7)] && decide (u (b + 4) 1 < 2)) 0x01 pl lsTemplates en
     ++ sh.2 ++ dr.2 ++ bk.2 ++ la.2 ++ rg.2 ++ dm.2 ++ wt.2)

/-- A position entry (R282). -/
def readPos (u : Img) (pl en b : Nat) : Pos × List PErr :=
  ({ layout := u b 1, template := u (b + 1) 1, role := u (b + 2) 1, channel := u (b + 3) 1, p := u (b + 4) 4 },
   need (zeroAt u b [(8, 15)]) 0x01 pl lsPositions en)

/-- A standing-slot entry (R274). -/
def readStanding (u : Img) (pl en b : Nat) : Standing × List PErr :=
  let fl := u (b + 3) 1
  ({ core := u b 1, index := u (b + 1) 1, n := u (b + 2) 1, carry := bit fl 0, feed := bit fl 1, target := u (b + 4) 2
     feedPos := u (b + 6) 2, base := u (b + 8) 4 },
   need (zeroAt u b [(12, 15)] && decide (fl < 4)) 0x01 pl lsStanding en)

/-- The code of one core (R264): a length above 8,192 words is left to check 0x0D. -/
def readCode (u : Img) (size pl b c : Nat) : (Nat × List (BitVec 64)) × List PErr :=
  let e := b + 16 * c
  let it := itemsAt size pl lsHeader c (u (e + 8) 2) (u e 8) 8
  ((c, it.1.map (fun x => BitVec.ofNat 64 (u x 8))), need (zeroAt u e [(10, 15)]) 0x01 pl lsHeader c ++ it.2)

/-- Each descriptor with its place among those of its TAG (R78; log entry 68). -/
def rankOps (ops : List OpDesc) : List OpDesc :=
  (ops.zip (upTo ops.length)).map (fun x => { x.1 with rank := ((ops.take x.2).filter (fun o => o.tag == x.1.tag)).length })

/-- A device record (R264). -/
def readRec (u : Img) (size pl pos o : Nat) : DevRec × List PErr :=
  if !inImage size o 1 128 then ({}, [(0x02, pl, lsHeader, pos)])
  else
    let nt := u (o + 2) 2
    let no := u (o + 4) 2
    let np := u (o + 6) 2
    let ns := u (o + 48) 2
    let bt := u (o + 24) 8
    let ti := itemsAt size pl lsTemplates 0 nt (u (o + 8) 8) 128
    let oi := itemsAt size pl lsOps 0 no (u (o + 16) 8) 64
    let pi := itemsAt size pl lsPositions 0 np (u (o + 32) 8) 16
    let si := itemsAt size pl lsStanding 0 ns (u (o + 40) 8) 16
    let t := readAll ti.1 (readTemplate u size pl)
    let d := readAll oi.1 (readOp u size pl)
    let p := readAll pi.1 (readPos u pl)
    let st := readAll si.1 (readStanding u pl)
    let bn := if inImage size bt 256 16 then readAll (upTo 256) (fun _ c => readCode u size pl bt c)
      else ([], [(0x02, pl, lsHeader, pos)])
    ({ position := u o 2, templates := t.1, ops := rankOps d.1, positions := p.1, standing := st.1
       binaries := bn.1.filter (fun x => !x.2.isEmpty), retention := u (o + 56) 8 },
     need (u o 2 == pos && decide (1 ≤ nt) && decide (nt ≤ 64) && decide (1 ≤ no) && decide (no ≤ 4096) && decide (1 ≤ np)
       && decide (np ≤ 2048) && decide (ns ≤ 1024) && zeroAt u o [(50, 55), (64, 127)]) 0x01 pl lsHeader pos
     ++ ti.2 ++ oi.2 ++ pi.2 ++ si.2 ++ t.2 ++ d.2 ++ p.2 ++ st.2 ++ bn.2)

/-- A layout entry (R263). -/
def readLayout (u : Img) (pl en b : Nat) : Layout × List PErr :=
  ({ kind := u b 1, base := u (b + 1) 1, f := u (b + 4) 4 },
   need (zeroAt u b [(2, 3), (8, 15)]) 0x01 pl lsLayouts en)

/-- A plan (R262). `bucket` is the BUCKET of its PLAN_DIR entry; a device answers for the record of its own ring position `me` (R284). -/
def readPlan (u : Img) (size devices me pl bucket o : Nat) : Plan × List PErr :=
  if !inImage size o 1 (64 + 512) then ({}, [(0x02, pl, lsHeader, 0)])
  else
    let nl := u (o + 5) 1
    let li := itemsAt size pl lsLayouts 0 nl (u (o + 8) 8) 16
    let l := readAll li.1 (readLayout u pl)
    let r := readAll ((upTo devices).map (fun p => u (o + 64 + 8 * p) 8)) (fun p x => ((readRec u size pl p x).1, if p = me then (readRec u size pl p x).2 else []))
    ({ bucket := bucket, layouts := l.1, recs := r.1 },
     need (u o 4 == 0x4B504C4E && decide (1 ≤ nl) && decide (nl ≤ 8) && zeroAt u o [(6, 7), (16, 63)]
       && ((upTo 64).drop devices).all (fun p => u (o + 64 + 8 * p) 8 == 0)) 0x01 pl lsHeader 0
     ++ need (decide (bucket ≤ 9) && u (o + 4) 1 == bucket) 0x04 pl lsHeader 0 ++ li.2 ++ l.2 ++ r.2)

/-- The plan set image at a device physical address (R261), as the device at ring position `me` reads it. -/
def readSet (u : Img) (addr me : Nat) : PlanSet × List PErr :=
  let np := u 6 1
  let nd := u 7 1
  let size := u 16 8
  let okHead := u 0 4 == 0x4B505354 && u 4 2 == 1 && decide (1 ≤ np) && decide (np ≤ 10) && decide (1 ≤ nd)
    && decide (nd ≤ 64) && decide (size ≤ 2 ^ 31) && decide (256 ≤ size) && decide (1 ≤ u 24 1) && decide (u 24 1 ≤ 4) && decide (u 25 1 ≤ 3)
    && zeroAt u 0 [(26, 31), (192, 255)] && (upTo np).all (fun k => zeroAt u (32 + 16 * k) [(1, 7)])
    && ((upTo 10).drop np).all (fun k => zeroAt u (32 + 16 * k) [(0, 15)])
  if !okHead then ({}, [(0x01, 0, lsHeader, 0)])
  else
    let bucketOf := fun k => u (32 + 16 * k) 1
    let ps := readAll ((upTo np).map (fun k => u (32 + 16 * k + 8) 8)) (fun k o => readPlan u size nd me k (bucketOf k) o)
    ({ modelId := BitVec.ofNat 64 (u 8 8), size := size, devices := nd, channels := u 24 1, replayMax := u 25 1
       plans := ps.1, addr := addr },
     ps.2 ++ (upTo np).flatMap (fun k => need (((upTo np).take k).all (fun j => bucketOf j != bucketOf k)) 0x04 k lsHeader 0))

end Sys2Proof.Machine
end

