-- ==== Sys2Proof/Machine/PlanCheck.lean ====
section
/-! DEFINITION. The firmware plan checker (R284-R286): every declaration of this device's record, against the device's own state. -/

namespace Sys2Proof.Machine

/-! ### Shapes shared by the checks -/

/-- Row tiles of a descriptor, a seam row tile counted as 2 (R116, R118). -/
def OpDesc.rowTiles (o : OpDesc) : Nat := if o.seam then 2 * ((o.k + 1023) / 1024) else (o.k + 511) / 512

/-- Column tiles of a descriptor. -/
def OpDesc.colTiles (o : OpDesc) : Nat := (o.n + 511) / 512

/-- First descriptor of the chain that descriptor `i` belongs to (R116). -/
def chainHead (ops : List OpDesc) : Nat → Nat
  | 0 => 0
  | i + 1 => if (ops.getD (i + 1) {}).chained then chainHead ops i else i + 1

/-- Logical tiles a shot occupies (R70). -/
def shotTiles (o : OpDesc) (x : Shot) : List Nat := if o.seam then [x.logical, x.logical + 1] else [x.logical]

/-- Descriptor a shot names. -/
def shotOp (d : DevRec) (x : Shot) : OpDesc := d.ops.getD x.op {}

/-- The last slot in which an operation shoots on a tile of a group (R72). -/
def lastSlot (d : DevRec) (t : Template) (op g tile : Nat) : Nat :=
  (t.shots.filter (fun y => y.op == op && y.group == g && (shotTiles (shotOp d y) y).contains tile)).foldl (fun m y => max m y.slot) 0

/-- Distinct (operation, group, tile) a template shoots (R72). -/
def tileUses (d : DevRec) (t : Template) : List (Nat × Nat × Nat) :=
  (t.shots.flatMap (fun x => (shotTiles (shotOp d x) x).map (fun l => (x.op, x.group, l)))).eraseDups

/-- Reserved slots of an operation on a tile (R72). -/
def reservedSlots (d : DevRec) (t : Template) (u : Nat × Nat × Nat) : List Nat :=
  (upTo ((d.ops.getD u.1 {}).allowance)).map (fun i => lastSlot d t u.1 u.2.1 u.2.2 + 2 * (i + 1))

/-- Guard slots of an operation on a tile: those of a plain operation (R72). -/
def guardSlots (d : DevRec) (t : Template) (u : Nat × Nat × Nat) : List Nat :=
  if (d.ops.getD u.1 {}).seam then [] else (reservedSlots d t u).map (· - 1)

/-- Everything one tile of a group does in a template: (slot, kind), kind 0 shot, 1 reserved, 2 guard. -/
def tileSlots (d : DevRec) (t : Template) (g tile : Nat) : List (Nat × Nat) :=
  (t.shots.filter (fun x => x.group == g && (shotTiles (shotOp d x) x).contains tile)).map (fun x => (x.slot, 0)) ++
  ((tileUses d t).filter (fun u => u.2.1 == g && u.2.2 == tile)).flatMap
    (fun u => (reservedSlots d t u).map (fun k => (k, 1)) ++ (guardSlots d t u).map (fun k => (k, 2)))

/-- Two uses of one slot of a tile collide, unless both only guard it (R72, R269; log entry 99). -/
def slotsCollide : List (Nat × Nat) → Bool
  | [] => false
  | x :: xs => xs.any (fun y => y.1 == x.1 && !(x.2 == 2 && y.2 == 2)) || slotsCollide xs

/-- Distinct (group, tile) a template shoots. -/
def tilesUsed (d : DevRec) (t : Template) : List (Nat × Nat) := ((tileUses d t).map (·.2)).eraseDups

/-- An FP32 value is finite, positive and normal. -/
def posNormal (w : BitVec 32) : Bool := decide (0x00800000 ≤ w.toNat) && decide (w.toNat < 0x7F800000)

/-! ### Codes 0x03, 0x05, 0x06 -/

/-- Code 0x03 (R286, R435). -/
def checkMembership (s : State) (ps : PlanSet) : List PErr :=
  need (ps.devices == ringCount s && decide (ps.channels ≤ ringCount s)) 0x03 0 lsHeader 0

/-- Code 0x05: a template breaks R257, or its VECTORS or RUN_CAP break R265. -/
def templateOk (t : Template) : Bool :=
  t.len % 8 == 0 && decide (512 ≤ t.len) && decide (t.len ≤ 12800000) &&
  (if t.repair then t.vectors == 0 && t.runCap == 0
   else decide (1 ≤ t.vectors) && decide (t.vectors ≤ 64) && decide (1 ≤ t.runCap) && decide (t.runCap ≤ 64)
     && t.vectors % t.runCap == 0)

/-- Template of a position. -/
def DevRec.tmpl (d : DevRec) (x : Pos) : Template := d.templates.getD x.template {}

/-- Positions of a record in a layout, with their indexes. -/
def DevRec.inLayout (d : DevRec) (li : Nat) : List (Nat × Pos) := (indexed d.positions).filter (fun x => x.2.layout == li)

/-- STEP positions of a record in a layout. -/
def DevRec.steps (d : DevRec) (li : Nat) : List (Nat × Pos) := (d.inLayout li).filter (fun x => x.2.role == 0)

/-- Ring positions with a STEP position of a channel in a layout. -/
def channelDevices (q : Plan) (li c : Nat) : List Nat :=
  ((indexed q.recs).filter (fun x => (x.2.steps li).any (fun y => y.2.channel == c))).map (·.1)

/-- Consecutive numbers. -/
def consecutive : List Nat → Bool
  | a :: b :: t => b == a + 1 && consecutive (b :: t)
  | _ => true

/-- Published delay of the hop out of a ring position (R277, R428). -/
def hopOut (s : State) (dir p : Nat) : Nat :=
  let m := s.ri.members.getD p {}
  if dir = 0 then m.inbyeHop else m.outbyeHop

/-- Next ring position in a direction. -/
def nextPos (n dir p : Nat) : Nat := if dir = 0 then (p + 1) % n else (p + n - 1) % n

/-- Links a transfer crosses: (device whose output it is, delay from the sender to that output), from `p` to `q`. -/
def hops (s : State) (n dir q : Nat) : Nat → Nat → Nat → List (Nat × Nat)
  | 0, _, _ => []
  | fuel + 1, p, t => if p = q then [] else (p, t) :: hops s n dir q fuel (nextPos n dir p) (t + hopOut s dir p)

/-- D of R277 from `p` to `q`. -/
def hopSum (s : State) (n dir p q : Nat) : Nat := ((hops s n dir q n p 0).map (fun h => hopOut s dir h.1)).sum

/-- A STEP position sends its step output to the next device of its channel, INBYE (R10), the last to the first device's feed slot (R301); a
channel of one device sends none. The record of a channel that does not span the ring may return either way (log entry 80). In a CREW layout
the output goes into a standing slot and arrives once the receiving beat of the round has ended, so that the next round's consumes it. -/
def chained (s : State) (ps : PlanSet) (q : Plan) (me li : Nat) (x : Pos) : Bool :=
  let ds := channelDevices q li x.channel
  let next := if ds.getLast? = some me then ds.headD 0 else me + 1
  let target := (q.recs.getD next {}).steps li
  decide (ds.length < 2) ||
  (((q.recs.getD me {}).tmpl x).rings).any (fun r => r.stepOut && r.dstDevice == next &&
    (r.dir == 0 || (ds.getLast? == some me && decide (ds.length < ps.devices))) &&
    target.any (fun y => y.1 == r.dstPos && y.2.channel == x.channel &&
      ((q.layouts.getD li {}).kind != 2 ||
        (r.standing && decide (y.2.p + ((q.recs.getD next {}).tmpl y.2).len ≤ x.p + r.send + hopSum s ps.devices r.dir me next)))))

/-- The STEP positions of a device stand in the chains of their channels; with one channel every device has some, so that the chain spans
the ring from position 0 (R10, R301). -/
def chainOk (s : State) (ps : PlanSet) (q : Plan) (me li : Nat) : Bool :=
  let mine := (q.recs.getD me {}).steps li
  !mine.isEmpty && mine.all (fun x => chained s ps q me li x.2)

/-- A layout of kind SOLO or CREW: one STEP position on each device (R263, R301), in the chains of channels that each hold a device. -/
def ringLayoutOk (s : State) (ps : PlanSet) (q : Plan) (me li : Nat) : Bool :=
  ((q.recs.getD me {}).steps li).length == 1 && chainOk s ps q me li && (upTo ps.channels).all (fun c => !(channelDevices q li c).isEmpty)

/-- What R435 asks of every layout: the devices of a channel are consecutive, and with several channels each has a position. -/
def channelsOk (ps : PlanSet) (q : Plan) (li : Nat) : Bool :=
  (upTo ps.channels).all (fun c => consecutive (channelDevices q li c) &&
    (decide (ps.channels < 2) || q.recs.any (fun d => (d.inLayout li).any (fun x => x.2.channel == c))))

/-- Templates of the STEP positions of a layout, on every device. -/
def stepTemplates (q : Plan) (li : Nat) : List Template := q.recs.flatMap (fun d => (d.steps li).map (fun x => d.tmpl x.2))

/-- A SPECULATIVE layout (R10, R330): its STEP positions chain round the ring, its STEP templates on every device share VECTORS and RUN_CAP,
its width is no other such layout's. -/
def specOk (s : State) (ps : PlanSet) (q : Plan) (me li : Nat) : Bool :=
  let ts := stepTemplates q li
  let w := (ts.headD {}).vectors
  let solo := q.layouts.find? (fun l => l.kind == 0)
  ps.channels == 1 && chainOk s ps q me li && decide (2 ≤ w) && decide (w ≤ 64) && !ts.isEmpty && ts.all (fun t => t.vectors == w && t.runCap == w) &&
  (match solo with
    | some l => decide (10 * (q.layouts.getD li {}).f ≤ 19 * l.f)
    | none => false) &&
  ((indexed q.layouts).filter (fun l => l.2.kind == 4 && decide (l.1 < li))).all
    (fun l => ((stepTemplates q l.1).headD {}).vectors != w)

/-- One layout (R258, R263, R301, R330, R435). -/
def layoutOk (s : State) (ps : PlanSet) (q : Plan) (me li : Nat) (l : Layout) : Bool :=
  decide (l.kind ≤ 4) && l.f % 8 == 0 && decide (0 < l.f) && decide (l.f ≤ 2 ^ 27) && channelsOk ps q li &&
  (match l.kind with
    | 0 | 2 => ringLayoutOk s ps q me li
    | 1 => decide (l.base < q.layouts.length) && (q.layouts.getD l.base {}).kind == 0
    | 4 => specOk s ps q me li
    | _ => true)

/-- One position entry (R259, R282, R286), given the entries before it. -/
def posOk (ps : PlanSet) (q : Plan) (d : DevRec) (before : List Pos) (x : Pos) : Bool :=
  let t := d.tmpl x
  let l := q.layouts.getD x.layout {}
  decide (x.layout < q.layouts.length) && decide (x.template < d.templates.length) && decide (x.role ≤ 2)
    && decide (x.channel < ps.channels) && x.p % 8 == 0 && (t.repair == (x.role == 2)) && decide (x.p + t.len ≤ l.f)
    && (x.role != 1 || l.kind == 1)
    && before.all (fun y => (decide (y.layout < x.layout) ||
        (y.layout == x.layout && decide (y.p ≤ x.p) && decide (y.p + (d.tmpl y).len ≤ x.p))))

/-- Code 0x06. -/
def checkLayouts (s : State) (ps : PlanSet) (q : Plan) (me pl : Nat) : List PErr :=
  let d := q.recs.getD me {}
  (indexed q.layouts).flatMap (fun x => need (layoutOk s ps q me x.1 x.2) 0x06 pl lsLayouts x.1) ++
  (indexed d.positions).flatMap (fun x => need (posOk ps q d (d.positions.take x.1) x.2) 0x06 pl lsPositions x.1)

/-! ### Code 0x07 -/

/-- An outlier set (R129, R267). -/
def outlierOk (o : OpDesc) (x : OutlierSet) : Bool :=
  (posNormal x.theta || x.theta == 0x7F800000) && x.cand.all (fun c => decide (c < o.k)) &&
  ((x.cand.zip (x.cand.drop 1)).all (fun p => decide (p.1 < p.2)))

/-- An adapter descriptor (R148, R268), other than in residency or ownership. -/
def adapterOk (x : AdapterDesc) : Bool :=
  decide (1 ≤ x.rank) && decide (x.rank ≤ 64) && decide (4 ≤ x.logM) && decide (x.logM ≤ 8) && posNormal x.eta
    && decide (2 ^ x.logM + 16 ≤ x.count)

/-- One descriptor (R62, R70, R116, R118, R266): a chained one repeats the chain's I8 flag and OWNER and lies in its template; that K, N agree
is not asked (log entry 77). -/
def opOk (d : DevRec) (i : Nat) (o : OpDesc) : Bool :=
  let h := chainHead d.ops i
  let hd := d.ops.getD h {}
  decide (1 ≤ o.n) && decide (o.n ≤ 1048576) && decide (1 ≤ o.k) && decide (o.k ≤ 131072) && decide (o.range ≤ 4) && decide (o.e ≤ 4)
    && (o.range != 4 || o.seam) && (!o.seam || decide (3 ≤ o.range)) && decide (o.template < d.templates.length)
    && (i != 0 || !o.chained)
    && (!o.chained || (o.i8 == hd.i8 && o.owner == hd.owner && o.template == hd.template && o.outlier.isNone && o.adapter.isNone))
    && decide ((((d.ops.take (i + 1)).drop h).map OpDesc.rowTiles).sum ≤ 256)
    && (match o.outlier with
        | some x => outlierOk o x
        | none => true)
    && (match o.adapter with
        | some x => adapterOk x
        | none => true)

/-- A shot entry names what exists (R269). -/
def shotNamesOk (d : DevRec) (ti : Nat) (t : Template) (x : Shot) : Bool :=
  decide (x.op < d.ops.length) && (shotOp d x).template == ti && decide (x.source < t.drives.length) && decide (x.vector ≤ 63)
    && decide (x.group ≤ 63) && decide (x.logical ≤ 1023) && (!(shotOp d x).seam || x.logical % 2 == 0)
    && decide (x.block ≤ 15) && decide (x.nibble ≤ 2) && ((x.nibble != 0) == (shotOp d x).i8)

/-- Code 0x07. -/
def checkOps (d : DevRec) (pl : Nat) : List PErr :=
  (indexed d.ops).flatMap (fun x => need (opOk d x.1 x.2) 0x07 pl lsOps x.1) ++
  (indexed d.templates).flatMap (fun t =>
    (indexed t.2.shots).flatMap (fun x => need (shotNamesOk d t.1 t.2 x.2) 0x07 pl lsShots x.1))

/-! ### Codes 0x08 to 0x0C: one template's shots -/

/-- A shot's tiles are bound as the operation needs (R82, R179, R286); a plain shot may use one tile of a seam-bound pair (R71, R178). -/
def shotBound (s : State) (d : DevRec) (x : Shot) : Bool :=
  let o := shotOp d x
  let one := fun l => match getBinding s x.group l with
    | some b => b.bound && b.owner == o.owner && b.tag == o.tag && (!o.seam || b.seam) && decide (b.rowTile < o.rowTiles)
        && decide (b.colTile < o.colTiles) && !(getTg s x.group).unavailable.contains l
    | none => false
  let rt := fun l => ((getBinding s x.group l).map (·.rowTile)).getD 0
  let ct := fun l => ((getBinding s x.group l).map (·.colTile)).getD 0
  tgEnabled s x.group && (shotTiles o x).all one &&
  (!o.seam || (x.logical % 2 == 0 && rt x.logical % 2 == 0 && rt (x.logical + 1) == rt x.logical + 1
    && ct (x.logical + 1) == ct x.logical))

/-- Column tile of a shot's logical tile. -/
def shotCol (s : State) (x : Shot) : Nat := ((getBinding s x.group x.logical).map (·.colTile)).getD 0

/-- The row tiles of the shot's column tile, over its chain, lie in one group (R189). -/
def oneGroup (s : State) (d : DevRec) (t : Template) (x : Shot) : Bool :=
  t.shots.all (fun y => y.group == x.group || chainHead d.ops y.op != chainHead d.ops x.op || shotCol s y != shotCol s x)

/-- Code 0x09 of one shot: within the beat, no collision on its tiles, and the list ascending (R69, R72, R269). -/
def shotPlaced (d : DevRec) (t : Template) (x : Shot) : Bool :=
  decide (x.slot ≤ t.len / 8 - 2) &&
  (shotTiles (shotOp d x) x).all (fun l =>
    !slotsCollide (tileSlots d t x.group l) &&
    (tileSlots d t x.group l).all (fun k => decide (k.1 ≤ t.len / 8 - 2)))

/-- Code 0x0A: every window of 64 slots of a tile has a free slot (R83). -/
def hasFreeSlots (d : DevRec) (t : Template) (g l : Nat) : Bool :=
  let used := ((tileSlots d t g l).map (·.1)).eraseDups
  (upTo ((t.len / 8 + 63) / 64)).all (fun w =>
    decide ((used.filter (fun k => k / 64 == w)).length < min 64 (t.len / 8 - 64 * w)))

/-- Transfers of a group's lanes: (group, slot), a seam shot and a rescue counting once (R190). -/
def transfers (d : DevRec) (t : Template) : List (Nat × Nat) :=
  t.shots.map (fun x => (x.group, x.slot)) ++
  ((tileUses d t).filter (fun u => !(d.ops.getD u.1 {}).seam || u.2.2 % 2 == 0)).flatMap
    (fun u => (reservedSlots d t u).map (fun k => (u.2.1, k)))

/-- One use of an entry block by a column tile and input vector: (group, block, chain head, vector, column tile). -/
def blockKey (s : State) (d : DevRec) (x : Shot) : Nat × Nat × Nat × Nat × Nat :=
  (x.group, x.block, chainHead d.ops x.op, x.vector, shotCol s x)

/-- Cores to which a column tile of `n` columns delivers (R188, R192). -/
def coresOf (g n ct : Nat) : List Nat := ((upTo 4).filter (fun q => decide (128 * q + 512 * ct < n))).map (fun q => 4 * g + q)

/-- Tick at whose end a block use closes (R192): the sixth tick after tick 11 of its last transfer. -/
def closeTick (s : State) (d : DevRec) (t : Template) (k : Nat × Nat × Nat × Nat × Nat) : Nat :=
  (t.shots.filter (fun x => blockKey s d x == k)).foldl (fun m x =>
    (shotTiles (shotOp d x) x).foldl (fun m l =>
      max m (8 * (lastSlot d t x.op x.group l + 2 * (shotOp d x).allowance) + 17)) m) 0

/-- First transfer of a block use (tick 11 of its first shot). -/
def firstTick (s : State) (d : DevRec) (t : Template) (k : Nat × Nat × Nat × Nat × Nat) : Nat :=
  (t.shots.filter (fun x => blockKey s d x == k)).foldl (fun m x => min m (8 * x.slot + 11)) t.len

/-- Insert into a list sorted by first component. -/
def insertSorted (x : Nat × Nat) : List (Nat × Nat) → List (Nat × Nat)
  | [] => [x]
  | y :: ys => if x.1 ≤ y.1 then x :: y :: ys else y :: insertSorted x ys

/-- Uses (first, close) in order are each covered by its own READ_BY, and each begins after the READ_BY before it (R272). -/
def usesCovered : List (Nat × Nat) → List Nat → Option Nat → Bool
  | [], _, _ => true
  | u :: us, rb, prior =>
    match rb.find? (fun r => decide (u.2 ≤ r)) with
    | none => false
    | some r => (match prior with
        | some p => decide (p < u.1)
        | none => true) && usesCovered us (rb.filter (fun x => decide (r < x))) (some r)

/-- Code 0x0B of a template's bank uses (R272). -/
def banksOk (s : State) (d : DevRec) (t : Template) : Bool :=
  let keys := (t.shots.map (blockKey s d)).eraseDups
  let uses := keys.flatMap (fun k => (coresOf k.1 (d.ops.getD k.2.2.1 {}).n k.2.2.2.2).map (fun c => (c, k)))
  (uses.map (fun u => (u.1, u.2.2.1))).eraseDups.all (fun cb =>
    let mine := (uses.filter (fun u => u.1 == cb.1 && u.2.2.1 == cb.2)).map (fun u => (firstTick s d t u.2, closeTick s d t u.2))
    let rbs := (t.banks.filter (fun b => b.core == cb.1 && b.block == cb.2)).map (·.readBy)
    usesCovered (mine.foldr insertSorted []) ((rbs.map (fun r => (r, 0))).foldr insertSorted [] |>.map (·.1)) none)

/-- Charges of a template (tick, picojoules) under R87. -/
def charges (d : DevRec) (t : Template) : List (Nat × Nat) :=
  t.shots.map (fun x => (8 * x.slot, if (shotOp d x).seam then 365 else 250)) ++
  ((tileUses d t).filter (fun u => !(d.ops.getD u.1 {}).seam || u.2.2 % 2 == 0)).flatMap
    (fun u => (reservedSlots d t u).map (fun k => (8 * k, if (d.ops.getD u.1 {}).seam then 500 else 250)))

/-- Enabled groups (R22, R88). -/
def enabledCount (s : State) : Nat := ((upTo 64).filter (tgEnabled s)).length

/-- Code 0x0C: the sum and every budget window (R88, R265). -/
def energyOk (s : State) (d : DevRec) (t : Template) : Bool :=
  let cs := charges d t
  t.energy == (cs.map (·.2)).sum &&
  (upTo ((t.len + 65535) / 65536)).all (fun k =>
    let w := min 65536 (t.len - 65536 * k)
    let spent := ((cs.filter (fun c => c.1 / 65536 == k)).map (·.2)).sum
    decide (512 * spent + 4000 * enabledCount s * max w 512 ≤ 512 * 625000 * w))

/-- Codes 0x08 to 0x0C of one template. -/
def checkShots (s : State) (d : DevRec) (pl ti : Nat) (t : Template) : List PErr :=
  (indexed t.shots).flatMap (fun x =>
    need (shotBound s d x.2 && oneGroup s d t x.2) 0x08 pl lsShots x.1 ++
    need (shotPlaced d t x.2 && (t.shots.take x.1).all (fun y => decide (y.slot ≤ x.2.slot))) 0x09 pl lsShots x.1 ++
    need ((shotTiles (shotOp d x.2) x.2).all (hasFreeSlots d t x.2.group)) 0x0A pl lsShots x.1 ++
    need (decide ((transfers d t).count (x.2.group, x.2.slot) ≤ 256)) 0x0B pl lsShots x.1) ++
  need ((transfers d t).eraseDups.all (fun k => decide ((transfers d t).count k ≤ 256))) 0x0B pl lsShots 0 ++
  (indexed t.banks).flatMap (fun b => need (decide (b.2.block ≤ 15) && decide (b.2.readBy ≤ t.len)) 0x0B pl lsBanks b.1) ++
  need (banksOk s d t) 0x0B pl lsBanks 0 ++
  need (energyOk s d t) 0x0C pl lsTemplates ti

/-! ### Code 0x0D -/

/-- A descriptor that SLOT.DEF would accept (R204, R240). -/
def slotShape (n target base : Nat) : Bool :=
  decide (6 ≤ n) && decide (n ≤ 16) && decide (1 ≤ target) && decide (target ≤ 65535) && base % min (2 ^ n) 4096 == 0
    && decide (base + 2 ^ n ≤ 0x60000)

/-- A standing slot is well formed and apart from those before it (R274). -/
def standingOk (before : List Standing) (x : Standing) : Bool :=
  slotShape x.n x.target x.base && decide (x.index ≤ 127) &&
  before.all (fun y => y.core != x.core || (y.index != x.index && !overlap x.base (2 ^ x.n) y.base (2 ^ y.n)))

/-- This device holds the first position of a channel in some layout (R645). -/
def firstOfChannel (q : Plan) (me c : Nat) : Bool :=
  (upTo q.layouts.length).any (fun li => (channelDevices q li c).head? == some me)

/-- Positions of the device that need a feed slot (R645). -/
def fedPositions (q : Plan) (me : Nat) : List Nat :=
  ((indexed (q.recs.getD me {}).positions).filter (fun x => x.2.role != 2 && firstOfChannel q me x.2.channel)).map (·.1)

/-- The feed slot of a position, if there is one (R645). -/
def feedSlot (d : DevRec) (k : Nat) : Option Standing := d.standing.find? (fun x => x.feed && x.feedPos == k)

/-- Feed slots (R645): one, with CARRY, for each such position, no other, and every STEP_OUT slot to it delivers there. -/
def feedsOk (q : Plan) (me : Nat) : Bool :=
  let d := q.recs.getD me {}
  let want := fedPositions q me
  d.standing.all (fun x => if x.feed then x.carry && want.contains x.feedPos else x.feedPos == 0) &&
  want.all (fun k => (d.standing.filter (fun x => x.feed && x.feedPos == k)).length == 1) &&
  q.recs.all (fun r => r.templates.all (fun t => t.rings.all (fun g =>
    !(g.stepOut && g.dstDevice == me && want.contains g.dstPos) ||
    (match feedSlot d g.dstPos with
      | some f => g.dstCore == f.core && g.dstSlot == f.index && g.standing && decide (f.base ≤ g.dstOff)
          && decide (g.dstOff + g.bytes ≤ f.base + 2 ^ f.n)
      | none => false))))

/-- The descriptor list of a launch (R273, R274). -/
def descsOk (d : DevRec) (c : Nat) (l : List Desc) : Bool :=
  l.all (fun x => slotShape x.n x.target x.base && decide (x.index ≤ 127) &&
    d.standing.all (fun y => y.core != c || (y.index != x.index && !overlap x.base (2 ^ x.n) y.base (2 ^ y.n)))) &&
  (indexed l).all (fun x => (l.take x.1).all (fun y => !overlap x.2.base (2 ^ x.2.n) y.base (2 ^ y.n)))

/-- The post table of a launch names consumers of its own core (R275). -/
def postsOk (t : Template) (l : Launch) : Bool :=
  (indexed l.posts).all (fun p => match p.2.1 with
    | 1 => match t.drives[p.2.2]? with
      | some x => x.core == l.core && x.post == p.1
      | none => false
    | 2 => match t.rings[p.2.2]? with
      | some x => x.srcCore == l.core && x.post == p.1
      | none => false
    | 3 => match t.dmas[p.2.2]? with
      | some x => x.core == l.core && x.post == p.1 && x.dir == 1
      | none => false
    | _ => false)

/-- Each consumer is named by exactly one post entry of the template (R275). -/
def consumersOk (t : Template) : Bool :=
  let named := t.launches.flatMap (·.posts)
  (upTo t.drives.length).all (fun k => named.count (1, k) == 1) &&
  (upTo t.rings.length).all (fun k => named.count (2, k) == 1) &&
  (indexed t.dmas).all (fun x => x.2.dir != 1 || named.count (3, x.1) == 1)

/-- Code 0x0D. -/
def checkCores (s : State) (q : Plan) (me pl : Nat) : List PErr :=
  let d := q.recs.getD me {}
  d.binaries.flatMap (fun b => need (decide (b.2.length ≤ 8192)) 0x0D pl lsHeader b.1) ++
  (indexed d.standing).flatMap (fun x => need (standingOk (d.standing.take x.1) x.2) 0x0D pl lsStanding x.1) ++
  need (feedsOk q me) 0x0D pl lsStanding 0 ++
  d.templates.flatMap (fun t =>
    (indexed t.launches).flatMap (fun x => need (ccEnabled s x.2.core && decide (x.2.entry < (tblGet [] d.binaries x.2.core).length)
      && descsOk d x.2.core x.2.descs && postsOk t x.2) 0x0D pl lsLaunches x.1) ++
    need (consumersOk t) 0x0D pl lsLaunches 0)

/-! ### Code 0x0E -/

/-- Link time of a payload in ticks (R277). -/
def linkTicks (bytes : Nat) : Nat := (bytes + 479) / 480

/-- Links kept narrower than 32 lanes carry no timed transfer (R404); ports 0 and 1 are INBYE, 2 and 3 OUTBYE. -/
def fullWidth (s : State) (n dir p : Nat) : Bool :=
  (s.ri.members.getD p {}).lanes.getD (if dir = 0 then 1 else 3) 0 == 32 &&
  (s.ri.members.getD (nextPos n dir p) {}).lanes.getD (if dir = 0 then 0 else 2) 0 == 32

/-- Timed transfers of a layout as link occupancies (direction, link, start, ticks) (R277). -/
def timedOccupancy (s : State) (ps : PlanSet) (q : Plan) (li : Nat) : List (Nat × Nat × Nat × Nat) :=
  (indexed q.recs).flatMap (fun r => (r.2.inLayout li).flatMap (fun x => (r.2.tmpl x.2).rings.flatMap (fun g =>
    (hops s ps.devices g.dir g.dstDevice ps.devices r.1 0).map (fun h => (g.dir, h.1, x.2.p + g.send + h.2, linkTicks g.bytes)))))

/-- Ends of the last positions of a record in a layout; 0 with no position (R288). -/
def lastEnd (d : DevRec) (li : Nat) : Nat := (d.inLayout li).foldl (fun m x => max m (x.2.p + (d.tmpl x.2).len)) 0

/-- Round-start and status flits as occupancies of one tick (R419). -/
def controlOccupancy (s : State) (ps : PlanSet) (q : Plan) (li : Nat) : List (Nat × Nat × Nat × Nat) :=
  (hops s ps.devices 0 (ps.devices - 1) ps.devices 0 0).map (fun h => (0, h.1, h.2, 1)) ++
  (indexed q.recs).flatMap (fun r => if r.1 = 0 then [] else
    (hops s ps.devices 0 0 ps.devices r.1 0).map (fun h => (0, h.1, lastEnd r.2 li + h.2, 1)))

/-- Ticks of an occupancy inside a window of 1,024 ticks. -/
def inWindow (w : Nat) (o : Nat × Nat × Nat × Nat) : Nat := min (w + 1024) (o.2.2.1 + o.2.2.2) - max w o.2.2.1

/-- Occupancies so many ticks later. -/
def later (t : Nat) (l : List (Nat × Nat × Nat × Nat)) : List (Nat × Nat × Nat × Nat) := l.map (fun x => (x.1, x.2.1, x.2.2.1 + t, x.2.2.2))

/-- Everything that occupies the links in a round of a layout: timed transfers and control flits. -/
def linkUse (s : State) (ps : PlanSet) (q : Plan) (li : Nat) : List (Nat × Nat × Nat × Nat) :=
  timedOccupancy s ps q li ++ controlOccupancy s ps q li

/-- No window of 1,024 ticks that begins or ends with occupancy `o` of a round of layout `li` holds more than 896 (R277), whatever layout the
rounds before and after it have. -/
def windowsFree (s : State) (ps : PlanSet) (q : Plan) (li : Nat) (o : Nat × Nat × Nat × Nat) : Bool :=
  (indexed q.layouts).all (fun m =>
    let base := m.2.f + 1024
    let here := (linkUse s ps q li)
    let there := (linkUse s ps q m.1)
    let all := (later 1024 there ++ later base here ++ later (base + (q.layouts.getD li {}).f) there).filter
      (fun x => x.1 == o.1 && x.2.1 == o.2.1)
    [o.2.2.1 + base, o.2.2.1 + o.2.2.2 + base - 1024].all (fun w => decide ((all.map (inWindow w)).sum ≤ 896)))

/-- The link limits of R277 for one transfer's occupancy `o` in a round of layout `li`. -/
def linkFree (s : State) (ps : PlanSet) (q : Plan) (li : Nat) (o : Nat × Nat × Nat × Nat) : Bool :=
  let meets := fun (x : Nat × Nat × Nat × Nat) => x.1 == o.1 && x.2.1 == o.2.1 && overlap x.2.2.1 x.2.2.2 o.2.2.1 o.2.2.2
  decide (((timedOccupancy s ps q li).filter meets).length ≤ 1) && !(controlOccupancy s ps q li).any meets && windowsFree s ps q li o

/-- One ring slot as sent from one position (R276, R277, R404, R421). -/
def ringAt (s : State) (ps : PlanSet) (q : Plan) (me : Nat) (x : Pos) (g : Ring) : Bool :=
  let n := ps.devices
  let l := q.layouts.getD x.layout {}
  let dd := q.recs.getD g.dstDevice {}
  let arrive := x.p + g.send + hopSum s n g.dir me g.dstDevice
  let dp := dd.positions.getD g.dstPos {}
  let t := (q.recs.getD me {}).tmpl x
  decide (arrive + linkTicks g.bytes ≤ l.f) && decide (g.dstPos < dd.positions.length) &&
  (hops s n g.dir g.dstDevice n me 0).all (fun h => fullWidth s n g.dir h.1) &&
  (if g.standing then dd.standing.any (fun y => y.core == g.dstCore && y.index == g.dstSlot)
   else (dd.tmpl dp).launches.any (fun y => y.core == g.dstCore && y.descs.any (fun z => z.index == g.dstSlot)
     && decide (dp.p + y.start ≤ arrive))) &&
  (!g.stepOut || decide (64 + 64 * ((t.vectors / max 1 t.runCap - 6 + 7) / 8) ≤ g.bytes)) &&
  (hops s n g.dir g.dstDevice n me 0).all (fun h => linkFree s ps q x.layout (g.dir, h.1, x.p + g.send + h.2, linkTicks g.bytes))

/-- Code 0x0E. -/
def checkRings (s : State) (ps : PlanSet) (q : Plan) (me pl : Nat) : List PErr :=
  let d := q.recs.getD me {}
  (indexed d.templates).flatMap (fun t => (indexed t.2.rings).flatMap (fun g =>
    need (decide (g.2.dir ≤ 1) && g.2.bytes % 64 == 0 && decide (64 ≤ g.2.bytes) && decide (g.2.bytes ≤ 2 ^ 22)
      && decide (g.2.dstDevice < ps.devices) && g.2.dstDevice != me && decide (g.2.send < t.2.len) && decide (g.2.dstSlot ≤ 127)
      && decide (g.2.srcOff + g.2.bytes ≤ 0x60000) && decide (g.2.dstOff + g.2.bytes ≤ 0x60000)
      && d.positions.all (fun x => x.template != t.1 || ringAt s ps q me x g.2)) 0x0E pl lsRings g.1))

/-! ### Code 0x0F -/

/-- Fields of a KV selector (R319). -/
def kvVector (a : Nat) : Nat := bits a 58 6
/-- SPAN. -/
def kvSpan (a : Nat) : Nat := bits a 56 2
/-- LAYER. -/
def kvLayer (a : Nat) : Nat := bits a 48 8
/-- PART. -/
def kvPart (a : Nat) : Nat := bits a 47 1
/-- FORMAT: BE4. -/
def kvBe4 (a : Nat) : Bool := bit a 46
/-- H. -/
def kvHeads (a : Nat) : Nat := bits a 39 7 + 1
/-- d. -/
def kvDim (a : Nat) : Nat := 16 * (bits a 35 4 + 1)
/-- HEAD_FIRST. -/
def kvFirst (a : Nat) : Nat := bits a 28 7
/-- Heads moved. -/
def kvCount (a : Nat) : Nat := bits a 21 7 + 1
/-- BASE of ROWS, an address. -/
def kvBase (a : Nat) : Nat := bits a 37 19 * 2 ^ 21
/-- Rows of ROWS. -/
def kvRows (a : Nat) : Nat := bits a 31 6 + 1
/-- A KV selector of a DMA slot (R319-R322); the capacity that a NEW slot's BYTES give is that of the template's runs (R312, R321). -/
def kvOk (q : Plan) (t : Template) (x : Dma) : Bool :=
  let a := x.addr
  let e := kvEntry (kvBe4 a) (kvDim a)
  decide (kvVector a < t.vectors) && kvVector a % max 1 t.runCap == 0 &&
  match kvSpan a with
  | 0 => x.dir == 0 && bits a 0 21 == 0 && decide (kvFirst a + kvCount a ≤ kvHeads a) && x.bytes % (kvCount a * (64 * e)) == 0
      && decide (2 ^ (11 + q.bucket) ≤ x.bytes / (kvCount a * (64 * e)) * 64)
  | 1 => x.dir == 1 && bits a 0 21 == 0 && decide (kvFirst a + kvCount a ≤ kvHeads a)
      && x.bytes == t.runCap * (kvCount a * (64 * ((e + 63) / 64)))
  | 2 => x.dir == 0 && bits a 0 31 == 0 && decide (256 ≤ x.offset) && x.bytes % kvRows a == 0 && (x.bytes / kvRows a) % 64 == 0
  | _ => false

/-- One DMA slot (R278, R279). -/
def dmaOk (s : State) (q : Plan) (t : Template) (x : Dma) : Bool :=
  decide (x.dir ≤ 1) && decide (x.mode ≤ 2) && decide (x.start < x.stop) && decide (x.stop ≤ t.len) && x.bytes % 64 == 0
    && decide (0 < x.bytes) && decide (x.offset + x.bytes ≤ 0x60000) && (x.dir != 0 || decide (x.slot ≤ 127)) &&
  (match x.mode with
    | 0 => extentsGranted s 0 x.addr x.bytes
    | 1 => kvOk q t x
    | _ => extentsGranted s x.owner x.addr x.bytes)

/-- Reserved bytes per tick at a tick, as a fraction (R279). -/
def dmaRate (t : Template) (tick : Nat) : Nat × Nat :=
  (t.dmas.filter (fun x => decide (x.start ≤ tick) && decide (tick < x.stop))).foldl
    (fun r x => (r.1 * (x.stop - x.start) + x.bytes * r.2, r.2 * (x.stop - x.start))) (0, 1)

/-- KV geometry (H, d, format) of the selectors of a record (R316, R319). -/
def kvGeoms (d : DevRec) : List (Nat × Nat × Bool) :=
  (d.templates.flatMap (fun t => (t.dmas.filter (fun x => x.mode == 1 && decide (kvSpan x.addr < 2))).map
    (fun x => (kvHeads x.addr, kvDim x.addr, kvBe4 x.addr)))).eraseDups

/-- Code 0x0F. -/
def checkDmas (s : State) (ps : PlanSet) (q : Plan) (me pl : Nat) : List PErr :=
  let d := q.recs.getD me {}
  d.templates.flatMap (fun t =>
    (indexed t.dmas).flatMap (fun x => need (dmaOk s q t x.2) 0x0F pl lsDmas x.1 ++
      need (decide ((dmaRate t x.2.start).1 ≤ 36864 * (dmaRate t x.2.start).2)) 0x0F pl lsDmas x.1)) ++
  need (decide ((ps.plans.flatMap (fun q => kvGeoms (q.recs.getD me {}))).eraseDups.length ≤ 1)) 0x0F pl lsDmas 0

/-! ### Codes 0x10 and 0x11 -/

/-- Cores that finalise a column of an operation or chain (R132, R188). -/
def finalCores (s : State) (d : DevRec) (t : Template) (i : Nat) : List Nat :=
  ((t.shots.filter (fun x => chainHead d.ops x.op == i)).flatMap
    (fun x => coresOf x.group (d.ops.getD i {}).n (shotCol s x))).eraseDups

/-- First shot tick of an operation or chain; the beat's length when it shoots nowhere. -/
def firstShotTick (d : DevRec) (t : Template) (i : Nat) : Nat :=
  (t.shots.filter (fun x => chainHead d.ops x.op == i)).foldl (fun m x => min m (8 * x.slot)) t.len

/-- Last tick in which a result of an operation or chain is formed: the last close of its entry blocks (R132, R192). -/
def lastClose (s : State) (d : DevRec) (t : Template) (i : Nat) : Nat :=
  (t.shots.filter (fun x => chainHead d.ops x.op == i)).foldl (fun m x => max m (closeTick s d t (blockKey s d x))) 0

/-- The device memory range that lies at a residency entry's offset once its DMA slot has filled it (R267): the slot ends before the first
shot, and no other read of the template overwrites the range before the last result (log entry 78). -/
def residentRange (s : State) (d : DevRec) (t : Template) (i : Nat) (r : Resid) : Option (Nat × Nat) :=
  match t.dmas[r.dma]? with
  | none => none
  | some x =>
    let kept := (indexed t.dmas).all (fun y => y.1 == r.dma || y.2.dir != 0 || y.2.core != x.core ||
      !overlap y.2.offset y.2.bytes x.offset x.bytes || decide (y.2.stop ≤ x.start) || decide (lastClose s d t i ≤ y.2.start))
    if x.dir == 0 && x.mode != 1 && x.core == r.core && decide (x.offset ≤ r.off) && decide (r.off < x.offset + x.bytes)
        && decide (x.stop ≤ firstShotTick d t i) && kept then
      some (x.addr + (r.off - x.offset), x.addr + x.bytes)
    else none

/-- Every byte of `[lo, hi)` lies in one of the ranges. -/
def covered (rs : List (Nat × Nat)) : Nat → Nat → Nat → Bool
  | 0, lo, hi => decide (hi ≤ lo)
  | fuel + 1, lo, hi =>
    let m := (rs.filter (fun r => decide (r.1 ≤ lo) && decide (lo < r.2))).foldl (fun m r => max m r.2) lo
    decide (hi ≤ lo) || (decide (lo < m) && covered rs fuel m hi)

/-- Columns that each core finalises for an operation or chain: (core, first column, end) (R132, R188). -/
def finalColumns (s : State) (d : DevRec) (t : Template) (i : Nat) : List (Nat × Nat × Nat) :=
  let n := (d.ops.getD i {}).n
  ((t.shots.filter (fun x => chainHead d.ops x.op == i)).flatMap (fun x =>
    let ct := shotCol s x
    (coresOf x.group n ct).map (fun c => (c, 512 * ct + 128 * (c % 4), min n (512 * ct + 128 * (c % 4) + 128))))).eraseDups

/-- Residency entries of rows (R132, R267, R268, R286): each names a DMA slot that fills it in time, every finalising core has one, and the
ranges of a core cover its own columns' bytes: of `count` rows from `addr`, `row` bytes apart, `col` bytes a column (log entry 78). -/
def residentOk (s : State) (d : DevRec) (t : Template) (i : Nat) (rs : List Resid) (addr count row col : Nat) : Bool :=
  let ranges := rs.map (fun r => (r.core, residentRange s d t i r))
  !rs.isEmpty && (finalCores s d t i).all (fun c => rs.any (fun r => r.core == c)) && ranges.all (fun r => r.2.isSome) &&
  (finalColumns s d t i).all (fun c =>
    let mine := ranges.filterMap (fun r => if r.1 = c.1 then r.2 else none)
    (upTo count).all (fun j => covered mine (mine.length + 1) (addr + row * j + col * c.2.1) (addr + row * j + col * c.2.2)))

/-- The served copies of an adapter are resident (R148): the rows of B for each core's columns, and A in the ranges of all of them. -/
def adapterResident (s : State) (d : DevRec) (t : Template) (i : Nat) (x : AdapterDesc) : Bool :=
  let all := x.resident.filterMap (residentRange s d t i)
  residentOk s d t i x.resident x.b 1 0 (2 * x.rank) &&
  covered all (all.length + 1) x.a (x.a + 2 * x.rank * (d.ops.getD i {}).k)

/-- Codes 0x10 and 0x11. -/
def checkResidency (s : State) (d : DevRec) (pl : Nat) : List PErr :=
  (indexed d.ops).flatMap (fun o =>
    let t := d.templates.getD o.2.template {}
    (match o.2.outlier with
      | some x => need (residentOk s d t o.1 x.resident x.addr x.count (2 * o.2.n) 2) 0x10 pl lsOps o.1
      | none => []) ++
    (match o.2.adapter with
      | some x => need (adapterResident s d t o.1 x) 0x10 pl lsOps o.1 ++
          need (extentsGranted s o.2.owner x.a (2 * x.rank * o.2.k) && extentsGranted s o.2.owner x.b (2 * o.2.n * x.rank)
            && extentsGranted s o.2.owner x.probe (4 * o.2.k * x.count)) 0x11 pl lsOps o.1
      | none => []))

/-! ### Codes 0x12 to 0x14 -/

/-- One watch (R141, R280): 1.0 < kappa ≤ 65,536. -/
def watchOk (t : Template) (w : Watch) : Bool :=
  decide (0x3F800000 < w.kappa.toNat) && decide (w.kappa.toNat ≤ 0x47800000) && posNormal w.muInit && decide (w.decideBy ≤ t.len) &&
  t.launches.any (fun l => l.core == w.core && decide (l.start ≤ w.decideBy)) &&
  t.rings.all (fun r => !r.stepOut || decide (w.decideBy ≤ r.send))

/-- Code 0x13 of a layout (R290). -/
def roundTimingOk (s : State) (ps : PlanSet) (q : Plan) (me li : Nat) : Bool :=
  let d := q.recs.getD me {}
  (d.inLayout li).all (fun x => decide (hopSum s ps.devices 0 0 me ≤ x.2.p)) &&
  decide (lastEnd d li + hopSum s ps.devices 0 me 0 ≤ (q.layouts.getD li {}).f)

/-- Code 0x14 of a SOLO_BACKFILL layout (R301). -/
def backfillOk (q : Plan) (d : DevRec) (li : Nat) (l : Layout) : Bool :=
  l.kind != 1 || (decide (100 * l.f ≤ 108 * (q.layouts.getD l.base {}).f) &&
    (d.steps l.base).all (fun x => (d.steps li).any (fun y => y.2.p == x.2.p && y.2.template == x.2.template)) &&
    (d.steps li).length == (d.steps l.base).length)

/-! ### Codes 0x15 and 0x16 -/

/-- What the plans of a set must share on a device (R286 SET, R298): tags, tiles, standing slots. -/
def setSignature (d : DevRec) : List Nat × List (Nat × Nat) × List Standing :=
  ((d.ops.map (·.tag)).eraseDups, (d.templates.flatMap (fun t => tilesUsed d t)).eraseDups, d.standing.map (fun x => { x with feedPos := 0 }))

/-- Two lists have the same elements. -/
def sameElems {α : Type} [BEq α] (a b : List α) : Bool := a.all (fun x => b.contains x) && b.all (fun x => a.contains x)

/-- Code 0x15. -/
def checkSet (ps : PlanSet) (me pl : Nat) (q : Plan) : List PErr :=
  let a := setSignature ((ps.plans.getD 0 {}).recs.getD me {})
  let b := setSignature (q.recs.getD me {})
  need (sameElems a.1 b.1 && sameElems a.2.1 b.2.1 && sameElems a.2.2 b.2.2) 0x15 pl lsHeader 0

/-- Bytes of the token record a position receives (R646). -/
def recordBytes (ps : PlanSet) (q : Plan) (me k : Nat) : Nat :=
  if ps.devices = 1 then
    match feedSlot (q.recs.getD me {}) k with
    | some f => 2 ^ f.n
    | none => 0
  else (q.recs.flatMap (fun r => r.templates.flatMap (fun t => (t.rings.filter
    (fun g => g.stepOut && g.dstDevice == me && g.dstPos == k)).map (·.bytes)))).foldl max 0

/-- Retained bytes of one layout (R646). -/
def retainedBytes (ps : PlanSet) (q : Plan) (me li : Nat) : Nat :=
  (q.recs.flatMap (fun r => (r.inLayout li).flatMap (fun x => (((r.tmpl x.2).rings).filter
    (fun g => g.retain && g.dstDevice == me)).map (·.bytes)))).sum +
  (((fedPositions q me).filter (fun k => (((q.recs.getD me {}).positions.getD k {}).layout) == li)).map
    (fun k => recordBytes ps q me k)).sum

/-- Bytes the retention region must hold (R646). -/
def retentionNeed (ps : PlanSet) (me : Nat) : Nat :=
  let m := (ps.plans.flatMap (fun q => (upTo q.layouts.length).map (retainedBytes ps q me))).foldl max 0
  2 * ((m + 4095) / 4096 * 4096)

/-- Extents of `[lo, hi)` held by `h` (R377). -/
def countHeld : List (Nat × Nat × Nat) → Nat → Nat → Nat → Nat
  | [], lo, hi, h => if h = 0 then hi - lo else 0
  | (a, b, k) :: rs, lo, hi, h =>
    if hi ≤ lo then 0
    else if b ≤ lo ∨ hi ≤ a then countHeld rs lo hi h
    else (if k = h then min hi b - max lo a else 0) + countHeld rs lo (max lo a) h + countHeld rs (min hi b) hi h

/-- Code 0x16. -/
def checkRetention (s : State) (ps : PlanSet) (me pl : Nat) (q : Plan) : List PErr :=
  let r := (q.recs.getD me {}).retention
  need (decide (retentionNeed ps me ≤ r) && decide ((r + 4095) / 4096 ≤ countHeld s.ms.extents 0 extentCount 0)) 0x16 pl lsHeader me

/-! ### The whole check -/

/-- Every failure of this device's record in one plan. -/
def checkPlan (s : State) (ps : PlanSet) (pl : Nat) (q : Plan) : List PErr :=
  let me := ownPosition s
  let d := q.recs.getD me {}
  (indexed d.templates).flatMap (fun t => need (templateOk t.2) 0x05 pl lsTemplates t.1) ++
  checkLayouts s ps q me pl ++ checkOps d pl ++
  (indexed d.templates).flatMap (fun t => checkShots s d pl t.1 t.2) ++
  checkCores s q me pl ++ checkRings s ps q me pl ++ checkDmas s ps q me pl ++ checkResidency s d pl ++
  d.templates.flatMap (fun t => (indexed t.watches).flatMap (fun w => need (watchOk t w.2) 0x12 pl lsWatches w.1)) ++
  (indexed q.layouts).flatMap (fun l => need (roundTimingOk s ps q me l.1) 0x13 pl lsLayouts l.1) ++
  (indexed q.layouts).flatMap (fun l => need (backfillOk q d l.1 l.2) 0x14 pl lsLayouts l.1) ++
  checkSet ps me pl q ++ checkRetention s ps me pl q

/-- The failure with the lowest code, the first found among equals (R286). -/
def firstErr : List PErr → Option PErr
  | [] => none
  | e :: es => match firstErr es with
    | none => some e
    | some f => if f.1 < e.1 then some f else some e

/-- The image at an address, read under a key, and its first failing check on this device (R284, R286). -/
def checkImage (s : State) (addr key : Nat) : PlanSet × Option PErr :=
  let u : Img := fun o n => ofLe (readUnder s key (addr + o) n)
  let r := readSet u addr (ownPosition s)
  (r.1, firstErr (r.2 ++ if r.2.any (fun e => decide (e.1 ≤ 2)) then [] else
    checkMembership s r.1 ++ (indexed r.1.plans).flatMap (fun q => checkPlan s r.1 q.1 q.2)))

end Sys2Proof.Machine
end

