-- ==== Sys2Proof/Machine/Array.lean ====
section
/-! DEFINITION. The array plane: drive, conversion, the lanes, saturation and rescue, tile estimates and the checksum checker, and
calibration shots (R52-R86, R113-R120, R133-R140, R177, R178, R188-R193, R271, R553, R644). -/

namespace Sys2Proof.Machine

/-! ### Owner mapping (R177) -/

/-- The next usable 16-bit word of a keystream from word `n` on, and the word after it (R177); rejection stops after 65,536 words. -/
def nextWord (key tile bound : Nat) : Nat → Nat → Nat × Nat
  | 0, n => (0, n)
  | fuel + 1, n =>
    let v := (keystream key tile (64 + 2 * n)).toNat + 256 * (keystream key tile (65 + 2 * n)).toNat
    if v < 65536 - 65536 % bound then (v, n + 1) else nextWord key tile bound fuel (n + 1)

/-- Swap two elements of a list. -/
def swapAt (l : List Nat) (i j : Nat) : List Nat := (l.set i (l.getD j 0)).set j (l.getD i 0)

/-- The shuffle of R177 from index `i` down to 1. -/
def shuffle (key tile : Nat) : Nat → Nat → List Nat → List Nat
  | 0, _, l => l
  | i + 1, n, l =>
    let w := nextWord key tile (i + 2) 65536 n
    shuffle key tile i w.2 (swapAt l (i + 1) (w.1 % (i + 2)))

/-- Row permutation pi of a tile: logical row to physical row; the identity under no key (R177). -/
def rowPerm (key tile : Nat) : List Nat := if key = 0 then upTo 512 else shuffle key tile 511 0 (upTo 512)

/-- sigma[p] derived from a tile's index (R177). -/
def sigmaBit (key tile p : Nat) : Bool := key != 0 && (keystream key tile (p / 8)).getLsbD (p % 8)

/-- Drive values by physical row from those by logical row (R178). -/
def physicalDrive (t : Tile) (i : Nat) (xs : List Int) : List Int :=
  let pi := rowPerm t.keyMap i
  (upTo 512).map (fun r => xs.getD (pi.idxOf r) 0)

/-! ### Cells and conversion (R54-R64) -/

/-- L+ - L- of a pair under the erase pattern (R56, R57, R172). -/
def eraseDiff (p : Nat) : Int := if p = 513 then 16 else if p = 514 then -16 else if p = 515 then 8 else 0

/-- Twice the product-unit sum of pair `p` over physical rows `[lo, hi)` driven at `xs` (R55, R61). -/
def pairSum2 (t : Tile) (xs : List Int) (p lo hi : Nat) : Int :=
  eraseDiff p * ((xs.drop lo).take (hi - lo)).sum +
  t.cells.foldl (fun a e =>
    if e.1 % 1034 / 2 = p ∧ lo ≤ e.1 / 1034 ∧ e.1 / 1034 < hi then
      a + (if e.1 % 2 = 0 then e.2 else -e.2) * xs.getD (e.1 / 1034) 0
    else a) 0

/-- Step of a range code in product units (R62). -/
def stepOf (fsr : Nat) : Nat := 15 * 2 ^ fsr

/-- Round half away from zero of an integer quotient. -/
def roundAwayInt (n : Int) (d : Nat) : Int := if n < 0 then -(roundAway n.natAbs d : Int) else (roundAway n.natAbs d : Int)

/-- Clamp to 10-bit two's complement. -/
def clampCode (c : Int) : Int := max (-512) (min 511 c)

/-- One conversion (R61, R127): the nominal code of a doubled sum moved by the conversion's own error. -/
def convertCode (shot index : Nat) (sum2 : Int) (fsr : Nat) : Int :=
  clampCode (roundAwayInt sum2 (2 * stepOf fsr) + Config.convError shot index)

/-- A saturated code (R63). -/
def saturated (c : Int) : Bool := c == -512 || c == 511

/-- The integer that a code enters the lane as, in units of 2^-16 product units (R114). -/
def laneValue (t : Tile) (fsr e : Nat) (c : Int) : Int :=
  roundEvenInt ((stepOf fsr : Int) * t.gain.toNat * (16 * c - t.offset.toInt) * 2 ^ e) 4

/-- The sign that the owner mapping gives pair `p` of a tile (R178). -/
def pairSign (t : Tile) (p : Nat) : Int := if sigmaBit t.keyMap t.sigmaG p then -1 else 1

/-! ### A shot's surroundings -/

/-- The binding of a logical tile, kept after it is unbound (R644). -/
def lastBinding (s : State) (g l : Nat) : Binding := (getBinding s g l).getD {}

/-- A logical tile is bound and available, so shots on it are taken (R644). -/
def tileServes (s : State) (g l : Nat) : Bool :=
  (match getBinding s g l with
    | some b => b.bound
    | none => false) && !(getTg s g).unavailable.contains l

/-- Row tile of a shot: a seam row tile is named by its lower half (R161, R269). -/
def shotRow (s : State) (o : OpDesc) (x : Shot) : Nat :=
  if o.seam then (lastBinding s x.group x.logical).rowTile / 2 else (lastBinding s x.group x.logical).rowTile

/-- Key of a fetched source and row tile. -/
def driveKey (g source row : Nat) : Nat := (g * 65536 + source) * 256 + row

/-- Drive value of an activation code under a NIBBLE field (R59, R269). -/
def nibbleValue (nibble : Nat) (a : Int) : Int := if nibble = 0 then a else if nibble = 1 then a / 16 else a % 16

/-- Logical rows of a shot's vector that are routed to the outlier path (R130). -/
def routedRow (s : State) (d : DevRec) (x : Shot) (r : Nat) : Bool :=
  let mask := tblGet 0 s.sq.driveMask (driveKey x.group x.source (shotRow s (shotOp d x) x))
  let cand := ((d.ops.getD (chainHead d.ops x.op) {}).outlier.map (·.cand)).getD []
  (indexed cand).any (fun j => j.2 == r && mask.getLsbD j.1)

/-- Rows of a shot: 512, or 1,024 of a seam pair (R70). -/
def shotRows (o : OpDesc) : Nat := if o.seam then 1024 else 512

/-- Drive values of a shot by logical row (R59, R111, R130, R271). -/
def driveValues (s : State) (d : DevRec) (x : Shot) : List Int :=
  let o := shotOp d x
  let n := shotRows o
  let row := shotRow s o x
  let zero := s.sq.driveZero.contains (x.group, x.source)
  (upTo n).map (fun r =>
    if zero || decide (o.k ≤ n * row + r) || routedRow s d x (n * row + r) then 0
    else nibbleValue x.nibble (tblGet 0 s.sq.drive (driveKey x.group x.source row * 1024 + r)).toInt)

/-- Key of an operation's adaptive state in a group (R78): the plans of a set share the codes (R261), an operation of one standing for the
operation of another with its TAG and its place among those of that TAG (log entry 68). -/
def opKey (g : Nat) (o : OpDesc) : Nat := (g * 65536 + o.tag) * 4096 + o.rank

/-- Range code in force for an operation in a group (R78). -/
def rangeOf (s : State) (g : Nat) (o : OpDesc) : Nat := if o.adaptive && !o.seam then (tblGet {} s.sq.ops (opKey g o)).code else o.range

/-! ### The lanes (R113, R115, R188, R191, R193) -/

/-- A partial reaches an entry of core `c` (R191, R193, R213): discarded at a frozen core; at a FINAL entry it is discarded and freezes
the core with fault 0x16. -/
def deliverPartial (s : State) (c entry : Nat) (v : Int) (clip : Bool) : State :=
  if coreFrozen s c then s
  else if (tblGet {} (getCore s c).acc entry).st = 2 then freezeCore s c 0x16 entry
  else modCore s c (fun k =>
    let acc := tblMod {} k.acc entry (fun a => { a with st := 1, val := a.val + v, clip := a.clip || clip })
    { k with acc := acc })

/-- The partial of pair `p` of a shot goes to its core and entry (R117, R188): a high nibble counts 16 times; pairs beyond N have no
entry (R192). -/
def toLane (s : State) (d : DevRec) (x : Shot) (p : Nat) (v : Int) (clip : Bool) : State :=
  if (shotOp d x).n ≤ p + 512 * shotCol s x then s
  else deliverPartial s (4 * x.group + p / 128) (128 * x.block + p % 128) (if x.nibble = 1 then 16 * v else v) clip

/-- A clip (R75): counted and remembered for the CLIP event. -/
def countClip (s : State) (d : DevRec) (x : Shot) (p : Nat) : State :=
  modTg s x.group (fun t =>
    let first := if t.firstClip.isSome then t.firstClip else some ((shotOp d x).tag, x.logical, p)
    { t with clipCount := t.clipCount.bump (sclk s) 0xFFFFFFFF 1, clipsBeat := t.clipsBeat + 1, firstClip := first })

/-- A saturated pair that no reserved slot reaches keeps its code as a clamped value (R75, R115). -/
def clipPair (s : State) (d : DevRec) (x : Shot) (p : Nat) (c : Int) : State :=
  let o := shotOp d x
  let t := getTile s (physicalOf s x.group (if o.seam then x.logical + 1 else x.logical))
  toLane (countClip s d x p) d x p (pairSign t p * laneValue t (rangeOf s x.group o) o.e c) true

/-! ### Use of a tile by a shot (R66, R67) -/

/-- Physical tiles that a plan shot uses. -/
def shotPhysical (s : State) (d : DevRec) (x : Shot) : List Nat :=
  (shotTiles (shotOp d x) x).map (physicalOf s x.group)

/-- A shot uses the integrator bank its predecessor did not (R67). -/
def useTile (s : State) (i : Nat) : State := modTile s i (fun t => { t with bank := !t.bank })

/-! ### Canaries and the checksum (R133, R138-R140) -/

/-- The canary codes of a contributing shot enter the tile's accumulators (R133); `wide` is a seam shot. -/
def canaries (t : Tile) (codes : List Int) (x : Int) (wide : Bool) : Tile :=
  let z := codes.getD 512 0
  let p := codes.getD 513 0
  let m := codes.getD 514 0
  let t := if saturated z then t else { t with accZ := t.accZ + z, nZ := t.nZ + 1 }
  if saturated p || saturated m || decide (x.natAbs < 480) then t
  else { t with accU := t.accU + (if x < 0 then m - p else p - m), accV := t.accV + x.natAbs * (if wide then 1 else 2), nG := t.nG + 1 }

/-- D of R139 in units of 1/2048 step. -/
def checksumDiff (t : Tile) (codes : List Int) (fsr : Nat) (wide : Bool) : Int :=
  (codes.getD 516 0 - codes.getD 512 0) * 2048 - ((codes.take 512).sum - 32 * t.offset.toInt) * 2 ^ (fsr - ofBool wide)

/-- The shot is one the checker examines (R138). -/
def checkable (codes : List Int) : Bool := !(codes.take 512).any saturated && !saturated (codes.getD 516 0) && !saturated (codes.getD 512 0)

/-- Record one checked shot in a tile's history (R140); at 8 failures of the last 64 CHECK_PERSIST is raised, the history cleared and
the tile's calibration made due; the second one of a calibration interval asks for the tile's retirement. For a seam
shot the event names the even logical tile (log entry 102). -/
def recordCheck (s : State) (i logical : Nat) (fails : Bool) : State :=
  let s := modTile s i (fun t => { t with history := (fails :: t.history).take 64 })
  let bad := ((getTile s i).history.filter (· == true)).length
  if bad < 8 then s
  else
    let again := decide (1 ≤ (getTile s i).persist)
    let s := modTile s i (fun t => { t with history := [], persist := t.persist + 1, retireAsked := t.retireAsked || again })
    startTileCal (raiseEvent s (pgTg (i / 1088)) 0x0E
      (info [(2, logical), (2, i % 1088), (1, bad), (1, if again then 2 else 1)])) i

/-- The checker's work on a shot converted by tile `i` (R138-R140). -/
def checkShot (s : State) (i : Nat) (d : DevRec) (x : Shot) (codes : List Int) : State :=
  let o := shotOp d x
  if !checkable codes then s
  else
    let diff := checksumDiff (getTile s i) codes (rangeOf s x.group o) o.seam
    let fails := decide ((getTg s x.group).liveTol * 2048 < diff.natAbs)
    let s := if fails then
        modLive (raiseEvent s (pgTg x.group) 0x0B
          (info [(2, x.logical), (2, o.tag), (2, twos 16 (max (-32768) (min 32767 (roundEvenInt diff 2048))))]))
          (fun l => { l with checkFail := true })
      else s
    recordCheck s i x.logical fails

/-- What a shot tells the adaptive range (R79). -/
def noteRange (s : State) (g : Nat) (o : OpDesc) (codes : List Int) : State :=
  let sat := codes.any saturated
  let big := codes.any (fun c => decide (128 ≤ c.natAbs))
  let ops := tblMod {} s.sq.ops (opKey g o) (fun a =>
    { a with shotBeat := true, satBeat := a.satBeat || sat, bigBeat := a.bigBeat || big })
  { s with sq := { s.sq with ops := ops } }

/-- A REPLAY assay records a plan shot on its logical tile's physical tile (R566). -/
def noteAssay (s : State) (d : DevRec) (x : Shot) (xs codes : List Int) : State :=
  let o := shotOp d x
  match s.hb.assay with
  | some a =>
    if a.kind = 1 ∧ a.unit = x.group ∧ (shotTiles o x).contains a.tile ∧ a.shotSeen < 64 then
      let row := shotRow s o x
      let e : AssayShot := { base := x.logical, seam := o.seam, fsr := rangeOf s x.group o, xs := xs, codes := codes
                             routed := (upTo (shotRows o)).filter (fun r => routedRow s d x (shotRows o * row + r)) }
      { s with hb := { s.hb with assay := some { a with shotSeen := a.shotSeen + 1, recorded := a.recorded ++ [e] } } }
    else s
  | none => s

/-! ### Plan shots -/

/-- The codes of shot number `n` on tile `lo`, or on the seam pair `lo` and `hi`, driven at `xs` by logical row (R60-R64, R70): 512 weight
pairs at the shot's range, 4 canaries and the checksum at FSR3, or FSR4 in a seam shot. -/
def codesOf (s : State) (n lo hi : Nat) (seam : Bool) (fsr : Nat) (xs : List Int) : List Int :=
  let dl := physicalDrive (getTile s lo) lo (xs.take 512)
  let dh := physicalDrive (getTile s hi) hi (xs.drop 512)
  (upTo 517).map (fun p =>
    convertCode n p (pairSum2 (getTile s lo) dl p 0 512 + (if seam then pairSum2 (getTile s hi) dh p 0 512 else 0))
      (if p < 512 then fsr else if seam then 4 else 3))

/-- The codes of a plan shot. -/
def shotCodes (s : State) (n : Nat) (d : DevRec) (x : Shot) (xs : List Int) : List Int :=
  codesOf s n (physicalOf s x.group x.logical) (physicalOf s x.group (x.logical + 1)) (shotOp d x).seam (rangeOf s x.group (shotOp d x)) xs

/-- The transfer of one weight pair (R115): its partial, or its place in the queue of saturated pairs while reserved slots remain, or
a clip. -/
def transferPair (s : State) (d : DevRec) (i : Nat) (x : Shot) (t : Tile) (p : Nat) (c : Int) : State :=
  let o := shotOp d x
  if !saturated c then toLane s d x p (pairSign t p * laneValue t (rangeOf s x.group o) o.e c) false
  else if o.allowance = 0 then clipPair s d x p c
  else { s with sq := { s.sq with satQueue := s.sq.satQueue ++ [(i, p, c)] } }

/-- A plan shot on served tiles (R67, R133, R138, R115). -/
def takeShot (s : State) (d : DevRec) (i : Nat) (x : Shot) : State :=
  let o := shotOp d x
  let xs := driveValues s d x
  let codes := shotCodes s s.free d x xs
  let s := { s with free := s.free + 1 }
  let up := physicalOf s x.group (if o.seam then x.logical + 1 else x.logical)
  let s := useTile s up
  let s := if o.seam then useTile s (physicalOf s x.group x.logical) else s
  let t := getTile s up
  let s := modTile s up (fun t => canaries t codes xs.sum o.seam)
  let s := noteAssay (noteRange (checkShot s up d x codes) x.group o (codes.take 512)) d x xs (codes.take 512)
  forEach (upTo 512) (fun s p => transferPair s d i x t p (codes.getD p 0)) s

/-- SHOT: entry `entry` of the shot list of the beat in execution, up to its transfer at tick 11 (R67). A shot on a logical tile that
has become unbound or unavailable is taken on no tile and delivers partials of 0 (R644). -/
def execShot (entry : BitVec 32) (s : State) : Out :=
  .next <|
    let i := entry.toNat
    let d := ownRec s
    match s.sq.live, (liveTemplate s).shots[i]? with
    | some b, some x =>
      if b.cycle / 2 ≠ 8 * x.slot + 11 ∨ b.done.contains (2, i) ∨
          !b.done.contains (3, driveKey x.group x.source (shotRow s (shotOp d x) x)) then s
      else
        let s := modLive s (fun b => { b with done := (2, i) :: b.done })
        if (shotTiles (shotOp d x) x).all (tileServes s x.group) then takeShot s d i x
        else forEach (upTo 512) (fun s p => toLane s d x p 0 false) s
    | _, _ => s

/-! ### Rescue in reserved slots (R72-R76) -/

/-- The reserved slot in progress at this tick is number `k` of an operation on a logical tile of a group (R72). -/
def inReserved (s : State) (g op l k : Nat) : Bool :=
  match s.sq.live with
  | none => false
  | some b =>
    decide (1 ≤ k) && decide (k ≤ ((ownRec s).ops.getD op {}).allowance) &&
    b.cycle / 2 == 8 * (lastSlot (ownRec s) (liveTemplate s) op g l + 2 * k) + 11 &&
    !b.done.contains (6, ((g * 65536 + op) * 1024 + l) * 4 + k)

/-- Note a reserved slot as spent. -/
def spendReserved (s : State) (g op l k : Nat) : State :=
  modLive s (fun b => { b with done := (6, ((g * 65536 + op) * 1024 + l) * 4 + k) :: b.done })

/-- The earliest saturated shot of an operation on a tile that still has unrescued pairs (R74), with those pairs ascending. -/
def earliestSaturated (s : State) (g op l : Nat) : Option (Nat × Shot × List Nat) :=
  let t := liveTemplate s
  match s.sq.satQueue.find? (fun e =>
      let x := t.shots.getD e.1 {}
      x.group == g && x.op == op && x.logical == l) with
  | none => none
  | some e => some (e.1, t.shots.getD e.1 {}, (s.sq.satQueue.filter (fun f => f.1 == e.1)).map (·.2.1))

/-! ### Converter bias (R65) -/

/-- Converters whose bias is on at a tick of the beat for conversions in a slot (R60, R65): tick 0 wakes them; converters 0-63 convert last
at tick 10 and converter 64 at tick 7, after which they power down unless another shot's tick 0 has come. A rescue does not use
converter 64 (R73). -/
def slotBias (tick slot : Nat) (rescue : Bool) : BitVec 65 :=
  if tick < 8 * slot ∨ 8 * slot + 10 < tick then 0
  else if tick ≤ 8 * slot + 7 ∧ !rescue then BitVec.allOnes 65
  else BitVec.ofNat 65 (2 ^ 64 - 1)

/-- A slot in which a physical tile's converters convert: the tile, the slot and whether it is a rescue. Of a seam shot only the upper tile
of the pair converts (R70); in its rescue both do (R76). -/
def shotSpans (s : State) (d : DevRec) (x : Shot) : List (Nat × Nat × Bool) :=
  let o := shotOp d x
  [(physicalOf s x.group (if o.seam then x.logical + 1 else x.logical), x.slot, false)]

/-- The reserved slots of an operation's shots that still have unrescued pairs (R74). -/
def rescueSpans (s : State) (d : DevRec) : List (Nat × Nat × Bool) :=
  (s.sq.satQueue.map (fun e => (liveTemplate s).shots.getD e.1 {})).flatMap (fun x =>
    ((upTo ((shotOp d x).allowance)).map (fun k => lastSlot d (liveTemplate s) x.op x.group x.logical + 2 * (k + 1))).flatMap (fun n =>
      (shotPhysical s d x).map (fun i => (i, n, true))))

/-- The biases at the first cycle of a tick of a beat (R65): every tile with a conversion or its wake about this tick has on those
converters that one of its shots keeps on. A calibration shot is placed when it ends, with its bias already down (log entry 69). -/
def biasTick (s : State) (tick : Nat) : State :=
  let d := ownRec s
  let spans := (liveTemplate s).shots.flatMap (shotSpans s d) ++ rescueSpans s d
  let near := spans.filter (fun e => decide (8 * e.2.1 ≤ tick) && decide (tick ≤ 8 * e.2.1 + 11))
  let s := forEach near (fun s e => modTile s e.1 (fun t => { t with bias := 0 })) s
  forEach near (fun s e => modTile s e.1 (fun t => { t with bias := t.bias ||| slotBias tick e.2.1 e.2.2 })) s

/-- A rescued pair leaves the queue and its two halves enter the lane (R75, R115); each saturated half is a clip. -/
def rescuePair (s : State) (d : DevRec) (i : Nat) (x : Shot) (p : Nat) (lo hi : Tile) (cl ch : Int) : State :=
  let o := shotOp d x
  let f := rangeOf s x.group o
  let s := { s with sq := { s.sq with satQueue := s.sq.satQueue.filter (fun e => !(e.1 == i && e.2.1 == p)) } }
  let s := if saturated cl then countClip s d x p else s
  let s := if saturated ch then countClip s d x p else s
  toLane s d x p (pairSign hi p * (laneValue lo f o.e cl + laneValue hi f o.e ch)) (saturated cl || saturated ch)

/-- RESHOT: reserved slot `k` of a plain operation on a logical tile (R73-R75): up to 4 saturated pairs per converter of one shot, each
half by half. -/
def execReshot (group : BitVec 6) (op : BitVec 16) (logical : BitVec 10) (k : BitVec 2) (s : State) : Out :=
  .next <|
    let g := group.toNat
    let l := logical.toNat
    let d := ownRec s
    if (d.ops.getD op.toNat {}).seam || !inReserved s g op.toNat l k.toNat then s
    else
      let s := spendReserved s g op.toNat l k.toNat
      match earliestSaturated s g op.toNat l with
      | none => s
      | some (i, x, ps) =>
        let ph := physicalOf s g l
        let t := getTile s ph
        let f := rangeOf s g (shotOp d x)
        let xs := physicalDrive t ph (driveValues s d x)
        let n := s.free
        let picked := ps.filter (fun p => decide ((ps.filter (fun q => q / 8 == p / 8 && decide (q < p))).length < 4))
        let s := { s with free := s.free + 1 }
        let s := modTg s g (fun t => { t with reshotNow := t.reshotNow + 1 })
        let s := modTile s ph (fun t => { t with bank := true })
        forEach picked (fun s p => rescuePair s d i x p t t
          (convertCode n p (pairSum2 t xs p 0 256) f) (convertCode n (1024 + p) (pairSum2 t xs p 256 512) f)) s

/-- SEAM_RESHOT: reserved slot `k` of a seam operation on a tile pair (R76): every saturated pair of one shot, each tile by itself. -/
def execSeamReshot (group : BitVec 6) (op : BitVec 16) (logical : BitVec 10) (k : BitVec 2) (s : State) : Out :=
  .next <|
    let g := group.toNat
    let l := logical.toNat
    let d := ownRec s
    if !(d.ops.getD op.toNat {}).seam || !inReserved s g op.toNat l k.toNat then s
    else
      let s := spendReserved s g op.toNat l k.toNat
      match earliestSaturated s g op.toNat l with
      | none => s
      | some (i, x, ps) =>
        let pl := physicalOf s g l
        let pu := physicalOf s g (l + 1)
        let lo := getTile s pl
        let hi := getTile s pu
        let f := rangeOf s g (shotOp d x)
        let xs := driveValues s d x
        let xl := physicalDrive lo pl (xs.take 512)
        let xh := physicalDrive hi pu (xs.drop 512)
        let n := s.free
        let s := useTile (useTile { s with free := s.free + 1 } pl) pu
        let s := modTg s g (fun t => { t with reshotNow := t.reshotNow + 1 })
        forEach ps (fun s p => rescuePair s d i x p lo hi
          (convertCode n p (pairSum2 lo xl p 0 512) f) (convertCode n (1024 + p) (pairSum2 hi xh p 0 512) f)) s

/-! ### Entry blocks close (R119, R120, R192) -/

/-- The halving count of the overflow repeat and the value it gives (R120). -/
def overflowRepeat (v : Int) : Int × Nat :=
  match (upTo 9).find? (fun h =>
      let r := roundEvenInt v (2 ^ h)
      decide (-(2 ^ 47) ≤ r) && decide (r < 2 ^ 47)) with
  | some h => (roundEvenInt v (2 ^ h), h)
  | none => (roundEvenInt v 256, 8)

/-- Every entry of a block of a core becomes FINAL (R191, R192); a frozen core keeps its bank (R213). -/
def closeBlock (c : Nat) (s : State) (block : Nat) : State :=
  if coreFrozen s c then s
  else modCore s c (fun k =>
    let acc := (upTo 128).foldl (fun m i => tblMod {} m (128 * block + i) (fun a =>
      if a.st = 2 then a
      else { st := 2, val := (overflowRepeat a.val).1, clip := a.clip, h := (overflowRepeat a.val).2 })) k.acc
    { k with acc := acc })

/-- ENTRY_BLOCK_CLOSE: the block use of shot entry `entry` closes at the end of the sixth tick after its last transfer (R192):
until then its entries read OPEN (R209, `idleCycle`). Pairs of
it that no reserved slot reached enter as clips first (R75). -/
def execEntryBlockClose (entry : BitVec 32) (s : State) : Out :=
  .next <|
    let d := ownRec s
    let t := liveTemplate s
    match s.sq.live, t.shots[entry.toNat]? with
    | some b, some x =>
      let key := blockKey s d x
      if b.cycle / 2 ≠ closeTick s d t key ∨ b.done.contains (7, entry.toNat) then s
      else
        let mine := s.sq.satQueue.filter (fun e => blockKey s d (t.shots.getD e.1 {}) == key)
        let s := modLive s (fun b => { b with done :=
          ((indexed t.shots).filter (fun y => blockKey s d y.2 == key)).map (fun y => (7, y.1)) ++ b.done })
        let s := forEach mine (fun s e => clipPair s d (t.shots.getD e.1 {}) e.2.1 e.2.2) s
        let s := { s with sq := { s.sq with satQueue := s.sq.satQueue.filter (fun e => !mine.contains e) } }
        forEach (coresOf x.group (shotOp d x).n (shotCol s x)) (fun s c => modCore s c (fun k => { k with closing := k.closing ++ [x.block] })) s
    | _, _ => s

/-! ### Drive sources (R130, R234, R270, R271, R295) -/

/-- The launch and post-table index that release a consumer (R275): kind 1 drive source, 2 ring slot, 3 DMA slot. -/
def posterOf (t : Template) (kind index : Nat) : Option (Nat × Nat) :=
  firstSome ((indexed t.launches).map (fun l =>
    ((indexed l.2.posts).find? (fun p => p.2.1 == kind && p.2.2 == index)).map (fun p => (l.1, p.1))))

/-- A consumer finds its entry posted: in an earlier cycle of this execution (R234). -/
def isPosted (s : State) (kind index : Nat) : Bool :=
  match s.sq.live, posterOf (liveTemplate s) kind index with
  | some b, some p => b.posted.any (fun e => e.1 == p.1 && e.2.1 == p.2 && decide (e.2.2 < b.cycle))
  | _, _ => false

/-- A consumer starts unposted (R234, R256, R295): the poster freezes with fault 0x26 and the position reports FAULT. -/
def unposted (s : State) (kind index : Nat) : State :=
  match posterOf (liveTemplate s) kind index with
  | some p => posFault (freezeCore s ((liveTemplate s).launches.getD p.1 {}).core 0x26 p.2) 2
  | none => posFault s 2

/-- The source drives code 0 for the rest of the beat (R271, R295). -/
def zeroSource (s : State) (g source : Nat) : State :=
  { s with sq := { s.sq with driveZero := (g, source) :: s.sq.driveZero } }

/-- Activation codes of a row tile from its bytes (R101, R270). -/
def unpackCodes (i8 : Bool) (n : Nat) (bs : List Byte) : List (BitVec 8) :=
  (upTo n).map (fun r => if i8 then bs.getD r 0
    else BitVec.ofInt 8 (signed 4 (byteAt bs (r / 2) / (if r % 2 = 0 then 1 else 16))))

/-- First slot of the beat in which a group shoots a source for a row tile. -/
def firstSlotOf (s : State) (d : DevRec) (t : Template) (g source row : Nat) : Option Nat :=
  (t.shots.find? (fun x => x.group == g && x.source == source && shotRow s (shotOp d x) x == row)).map (·.slot)

/-- DRIVE_FETCH: a group sequencer fetches the codes and the mask of a drive source for a row tile, 16 ticks before the first shot that
uses them (R271). A frozen source core, or one that freezes during those 16 ticks (`freezeCore`), makes the source drive 0 and the position
report FAULT. -/
def execDriveFetch (group : BitVec 6) (source : BitVec 16) (row : BitVec 8) (ecc : List (Nat × Bool)) (s : State) : Out :=
  .next <|
    let g := group.toNat
    let k := source.toNat
    let d := ownRec s
    let t := liveTemplate s
    match s.sq.live, t.drives[k]?, t.shots.find? (fun x => x.group == g && x.source == k && shotRow s (shotOp d x) x == row.toNat) with
    | some b, some v, some x =>
      let key := driveKey g k row.toNat
      if b.cycle / 2 ≠ 8 * x.slot - 16 ∨ b.done.contains (3, key) then s
      else
        let s := modLive s (fun b => { b with done := (3, key) :: b.done })
        let o := shotOp d x
        let n := if o.seam then 1024 else 512
        let size := if o.i8 then n else n / 2
        let sp := [(v.codes + size * row.toNat, size)] ++ (if v.mask = 0xFFFFFFFF then [] else [(v.mask, 8)])
        if coreFrozen s v.core then posFault (zeroSource s g k) 1
        else if !isPosted s 1 k then unposted (zeroSource s g k) 1 k
        else
          let c := getCore s v.core
          let codes := unpackCodes o.i8 n (c.serve (v.codes + size * row.toNat) size ecc)
          let mask := if v.mask = 0xFFFFFFFF then 0 else ofLe (c.serve v.mask 8 ecc)
          let drive := tblSetList 0 s.sq.drive (key * 1024) codes
          let masks := tblSet 0 s.sq.driveMask key (BitVec.ofNat 64 mask)
          let s := { s with sq := { s.sq with drive := drive, driveMask := masks, driveFetch := (v.core, g, k, b.cycle / 2 + 16) :: s.sq.driveFetch } }
          let s := scratchEcc s v.core sp ecc
          if coreFrozen s v.core then zeroSource s g k else s
    | _, _, _ => s

/-! ### Calibration shots (R83-R86, R553-R555) -/

/-- Tick of the slot grid in progress: of the beat in execution, or of the time between beats (log entry 30). -/
def gridTick (s : State) : Nat :=
  match s.sq.live with
  | some b => b.cycle / 2
  | none => s.clock / 2

/-- Slot of the grid whose shot transfers in this tick, its tick 11 (R66, R67), if any. -/
def slotNow (s : State) : Option Nat := if 11 ≤ gridTick s ∧ gridTick s % 8 = 3 then some ((gridTick s - 11) / 8) else none

/-- The window of 64 slots of the grid that this tick's transfers belong to (R83, log entry 30). -/
def windowNow (s : State) : Nat :=
  let w := (gridTick s - 11) / 512
  match s.sq.live with
  | some _ => 2 * (s.sq.beatCount.toNat * 2 ^ 16 + w) + 1
  | none => 2 * w

/-- Logical tile that a physical tile serves: a working tile with no relief entry its own, a relief tile in service its LOGICAL. -/
def servedBy (s : State) (i : Nat) : Option Nat :=
  let g := i / 1088
  let p := i % 1088
  if p < 1024 then (if physicalOf s g p = i then some p else none)
  else if (getRelief s g (p - 1024)).state = 1 then some (getRelief s g (p - 1024)).logical
  else none

/-- The slot of a physical tile that transfers in this tick is free (R83): no slot of a group's relief or unused tile is taken. -/
def slotFree (s : State) (i : Nat) : Bool :=
  match slotNow s, s.sq.live, servedBy s i with
  | none, _, _ => false
  | some k, some _, some l => !(tileSlots (ownRec s) (liveTemplate s) (i / 1088) l).any (fun e => e.1 == k)
  | _, _, _ => true

/-- A tile waits for calibration shots (R552, R553). -/
def calWaiting (s : State) (i : Nat) : Bool :=
  let t := getTile s i
  decide (t.calShots < 24) && (t.calibrating || ((getTg s (i / 1088)).calActive && !retiredState t.state))

/-- A calibration shot may be placed on a tile now (R84, R555). -/
def calPlace (s : State) (i : Nat) : Bool :=
  let g := getTg s (i / 1088)
  let here := g.windowNo == windowNow s
  calAllowed s && tgEnabled s (i / 1088) && !powerEmergency s && calWaiting s i && slotFree s i
    && !(here && (decide (16 ≤ g.windowShots) || g.windowTiles.contains i)) && !(getTile s i).programming

/-- The codes of calibration shot number `k` of a tile under a drive of `x` on every row (R553). -/
def calCodes (s : State) (i : Nat) (x : Int) : List Int :=
  let t := getTile s i
  (upTo 517).map (fun p => convertCode s.free p (pairSum2 t (List.replicate 512 x) p 0 512) 3)

/-- What a calibration shot adds to a tile's measurements (R553): 4 ZERO, 8 REFERENCE and 12 DRIVE shots, in that order (log entry 31). -/
def calMeasure (t : Tile) (codes : List Int) (x : Int) : Tile :=
  let z := codes.getD 512 0
  let k := t.calShots
  let t := { t with calShots := k + 1 }
  if k < 4 then
    let sums := (upTo 64).foldl (fun m c => tblMod 0 m c (· + ((codes.drop (8 * c)).take 8).sum)) t.calZero
    { t with calZsum := t.calZsum + z, calZero := sums, calZeroN := t.calZeroN + 1 }
  else if k < 12 then t
  else
    let p := codes.getD 513 0
    let m := codes.getD 514 0
    let t := { t with calZsum := t.calZsum + z }
    if saturated p || saturated m then t
    else { t with calU := t.calU + (if x < 0 then m - p else p - m), calV := t.calV + 2 * x.natAbs }

/-- CALIBRATION_SHOT (R67, R84, R553): at tick 11 of a free slot, at most one a tile and 16 a group in a window; no other due tile with a
free slot and an older calibration waits. -/
def execCalibrationShot (group : BitVec 6) (tile : BitVec 11) (s : State) : Out :=
  .next <|
    let g := group.toNat
    let i := tileIx g tile.toNat
    if 1088 ≤ tile.toNat ∨ !calPlace s i ∨
        (groupTiles g).any (fun j => decide ((getTile s j).last.toNat < (getTile s i).last.toNat) && calPlace s j) then s
    else
      let k := (getTile s i).calShots
      let x : Int := if k < 12 then 0 else if k % 2 = 0 then 12 else -12
      let codes := calCodes s i x
      let w := windowNow s
      let s := useTile { s with free := s.free + 1 } i
      let s := modTile s i (fun t => calMeasure t codes (512 * x))
      modTg s g (fun t =>
        if t.windowNo = w then { t with windowShots := t.windowShots + 1, windowTiles := i :: t.windowTiles }
        else { t with windowNo := w, windowShots := 1, windowTiles := [i] })

end Sys2Proof.Machine
end

