-- ==== Sys2Proof/Machine/HostQueues.lean ====
section
/-! DEFINITION. Queue pairs, doorbells, submission entries and their signals (R447, R452-R464). -/

namespace Sys2Proof.Machine

/-- The queue pair a doorbell page of a function names: a PF0 page is its pair; a VF page names the pair of its map entry (R33,
R453). -/
def pairOf (s : State) (port : Bool) (fn page : Nat) : Option Nat :=
  if fn = 0 then some page
  else match tblGet 0 (getFn s port fn).queueMap page with
    | 0 => none
    | p + 1 => some p

/-- DB_QP_STATUS of a pair (R456); on a diagnostic link a pair shows DIAG (R447). -/
def qpStatus (h : Hp) (q : Qp) : Nat :=
  field 28 4 (if h.diag then 3 else q.state) + field 23 5 q.fn + field 12 4 (if q.state = 2 then q.cause else 0) + field 0 12 q.sqHead

/-- The port's BAR2, BAR4 and VF BARs answer: the link is operational and the device is at ROM or above (R447, R626). -/
def barsOpen (s : State) (port : Bool) : Bool :=
  (getHp s port).up && !(getHp s port).diag && decide (3 ≤ s.power.state.code)

/-- Count one Unsupported Request of a port, saturating at 255 (R451, R473). -/
def countUr (s : State) (port : Bool) : State :=
  emit (modHp s port (fun h => { h with urCount := h.urCount.bump (sclk s) 255 1 })) .unsupported

/-- A doorbell write reaches a pair that its function owns and that is READY (R452, R453, R455, R467); else it is discarded, and on
a port whose BARs do not answer it completes with Unsupported Request. -/
def doorbell (s : State) (port : Bool) (fn page : Nat) (act : Nat → Qp → State) : State :=
  if !barsOpen s port then countUr s port
  else if fnFrozen s port fn || (getFn s port fn).inReset || !fnEnabled s port fn then s
  else match pairOf s port fn page with
    | none => s
    | some p =>
      let q := getQp s port p
      if q.fn = fn ∧ q.state = 1 then act p q else s

/-- A write of DB_SUBMIT_TAIL (R455): the tail is set, or the pair enters ERROR with CAUSE 1 when it is at or above the queue's depth. -/
def submitTail (s : State) (port : Bool) (fn page value : Nat) : State :=
  doorbell s port fn page fun p q =>
    let v := value % 4096
    if sqDepth q ≤ v then qpError s port p 1
    else modQp s port p (fun q => { q with sqTail := v })

/-- DB_SUBMIT_TAIL (R455). -/
def execDbSubmitTail (port : Bool) (fn : BitVec 5) (page : BitVec 8) (value : BitVec 32) (s : State) : Out :=
  .next (submitTail s port fn.toNat page.toNat value.toNat)

/-- A write of DB_COMPL_HEAD (R455, R459): the entries before the new head are consumed and the next entry signals again; a head at or
above the depth, or past the device's completion index, puts the pair in ERROR with CAUSE 2. -/
def complHead (s : State) (port : Bool) (fn page value : Nat) : State :=
  doorbell s port fn page fun p q =>
    let v := value % 4096
    let adv := (v + cqDepth q - q.cqHead % cqDepth q) % cqDepth q
    if cqDepth q ≤ v ∨ q.cqTail < q.cqHead + adv then qpError s port p 2
    else modQp s port p (fun q => { q with cqHead := q.cqHead + adv, signalled := false })

/-- DB_COMPL_HEAD (R455, R459). -/
def execDbComplHead (port : Bool) (fn : BitVec 5) (page : BitVec 8) (value : BitVec 32) (s : State) : Out :=
  .next (complHead s port fn.toNat page.toNat value.toNat)

/-- A signal whose coalescing time has passed, or whose queue is half full, is sent (R459). -/
def execMsixSignal (port : Bool) (pair : BitVec 8) (s : State) : Out :=
  .next <|
    let q := getQp s port pair.toNat
    match q.signalAt with
    | none => s
    | some t =>
      if (t ≤ s.clock ∨ cqDepth q ≤ 2 * (q.cqTail - q.cqHead)) ∧ fnDma s port q.fn then qpSignal s port pair.toNat else s

/-- QP_CONFIG (R454): the response's STATUS is 0 OK, 1 BAD_PARAM, 2 NOT_OWNED or 3 NOT_READY. A request that
deletes the pair has no queues to describe (log entry 89). -/
def qpConfigStatus (s : State) (port : Bool) (fn : Nat) (d : List (BitVec 32)) : Nat :=
  let dw := fun k => (d.getD k 0).toNat
  let sq := bits (dw 0) 8 8
  let cq := bits (dw 0) 16 8
  if s.power.state.code < 5 then 3
  else if (fn ≠ 0 ∧ 14 < bits (dw 0) 0 8) ∨ (sq ≠ 0 ∧ (sq < 4 ∨ 12 < sq ∨ cq < 4 ∨ 12 < cq ∨ (if fn = 0 then 64 else 16) ≤ bits (dw 0) 24 8
      ∨ dw 1 % 4096 ≠ 0 ∨ dw 3 % 4096 ≠ 0 ∨ 256 ≤ dw 5)) then 1
  else match pairOf s port fn (bits (dw 0) 0 8) with
    | none => 2
    | some p => if (getQp s port p).fn = fn then 0 else 2

/-- Configure, reconfigure or delete a pair: completions of commands still in progress on it are dropped (R454). -/
def configure (s : State) (port : Bool) (fn : Nat) (d : List (BitVec 32)) : State :=
  let dw := fun k => (d.getD k 0).toNat
  match pairOf s port fn (bits (dw 0) 0 8) with
  | none => s
  | some p =>
    modQp s port p (fun q =>
      if bits (dw 0) 8 8 = 0 then { fn := q.fn, cfg := q.cfg + 1 }
      else { state := 1, fn := q.fn, cfg := q.cfg + 1, sqLog := bits (dw 0) 8 8, cqLog := bits (dw 0) 16 8
             vector := bits (dw 0) 24 8, sqAddr := BitVec.ofNat 64 (dw 1 + 2 ^ 32 * dw 2)
             cqAddr := BitVec.ofNat 64 (dw 3 + 2 ^ 32 * dw 4), coalesce := dw 5 })

/-- QP_CONFIG on a function's DOE mailbox (R454, R470). -/
def execQpConfig (port : Bool) (fn : BitVec 5) (dwords : List (BitVec 32)) (s : State) : Out :=
  .next <|
    if (getFn s port fn.toNat).inReset || !(getHp s port).up || !fnEnabled s port fn.toNat then s
    else
      let st := qpConfigStatus s port fn.toNat dwords
      let s := if st = 0 then configure s port fn.toNat dwords else s
      emit s (.doe port fn.toNat st (leBytes 4 st))

/-! ### Submission entries (R457, R461, R463) -/

/-- Parameter bytes each opcode uses (R461), as (first byte, count) ranges; none for an undefined opcode. -/
def opcodeBytes (op : Nat) : Option (List (Nat × Nat)) :=
  match op with
  | 0x00 => some [] | 0x01 => some [] | 0x02 => some []
  | 0x03 => some [(8, 20), (32, 8)]
  | 0x04 => some [(8, 1)] | 0x05 => some [(8, 1)]
  | 0x06 => some [(8, 1), (16, 16)]
  | 0x10 => some [(8, 10)]
  | 0x11 => some [(8, 10), (20, 4)] | 0x12 => some [(8, 10), (20, 4)]
  | 0x13 => some [(8, 10)]
  | 0x14 => some [(16, 2)]
  | 0x15 => some [(16, 2), (20, 4)] | 0x16 => some [(16, 2), (20, 4)]
  | 0x17 => some [(16, 2)] | 0x18 => some [(16, 2)]
  | 0x19 => some [(8, 10), (20, 8)]
  | 0x1A => some [(8, 8), (20, 4)]
  | 0x20 => some [(8, 16)] | 0x21 => some [(8, 16)]
  | 0x22 => some [(8, 20)] | 0x23 => some [(8, 20)]
  | 0x24 => some [(8, 8)]
  | 0x25 => some [(8, 1)]
  | 0x30 => some [(8, 8)] | 0x31 => some [] | 0x32 => some []
  | 0x33 => some [(8, 2)]
  | 0x34 => some [(8, 12)]
  | 0x35 => some [(8, 9)]
  | 0x38 => some [(8, 3), (12, 2)]
  | _ => none

/-- Opcodes whose DEVICE field may name the executing device (R457): all but those that R433 assigns to the headframe, which carry 0xFF. -/
def deviceOpcode (op : Nat) : Bool := [0x00, 0x20, 0x21, 0x22, 0x23, 0x24, 0x34, 0x35, 0x38].contains op

/-- Reserved bits beside a parameter's bits are 0 (R457, R461). -/
def reservedBitsOk (e : List Byte) : Bool :=
  match byteAt e 0 with
  | 0x25 => decide (byteAt e 8 < 4)
  | 0x35 => decide (byteAt e 16 < 2)
  | 0x38 => decide (byteAt e 10 < 2)
  | _ => true

/-- The code an entry completes with at once (R457, R461, R463, R466), or none when it is fetched for execution. -/
def entryRefusal (s : State) (port : Bool) (fn : Nat) (e : List Byte) : Option Nat :=
  let op := byteAt e 0
  match opcodeBytes op with
  | none => some 0x0101
  | some used =>
    if !reservedBitsOk e ∨ 1 < byteAt e 1 ∨ byteAt e 6 ≠ 0 ∨ byteAt e 7 ≠ 0
        ∨ ((upTo 56).map (· + 8)).any (fun j => byteAt e j != 0 && !used.any (fun r => decide (r.1 ≤ j) && decide (j < r.1 + r.2)))
    then some 0x0101
    else if [0x30, 0x31, 0x32, 0x35].contains op && !(!port && fn == 0 && isHeadframe s) then some 0x0102
    else if op = 0x38 ∧ fn ≠ 0 then some 0x0102
    else if byteAt e 5 ≠ 0xFF ∧ (!deviceOpcode op ∨ ringCount s ≤ byteAt e 5) then some 0x0106
    else none

/-- Fetch one submission entry (R460, R464): from a READY pair whose tail is ahead, when a completion entry is free for it, while
the firmware fetches, the function may issue DMA and the 64 bytes fit the completion buffer (R449); a failed host read puts the pair in ERROR with CAUSE 3. An entry with an
undefined opcode, a reserved byte that is not 0, a forbidden issuer or a missing device completes at once (R463). -/
def execSubmissionFetch (port : Bool) (pair : BitVec 8) (entry : Option (List Byte)) (s : State) : Out :=
  .next <|
    let p := pair.toNat
    let q := getQp s port p
    if q.state ≠ 1 ∨ q.sqHead = q.sqTail ∨ cqFree q = 0 ∨ !fnDma s port q.fn ∨ !barsOpen s port ∨ !firmwareRuns s
        ∨ s.power.state.code < 5 ∨ !(getHdr s (pgHp port)).en ∨ readBuffer < hostReadsOut s port + 64 then s
    else match entry with
      | none => qpError s port p 3
      | some e =>
        let i : Issuer := { port := port, fn := BitVec.ofNat 5 q.fn, pair := pair, cid := BitVec.ofNat 16 (leAt e 2 2) }
        let f : Fetched := { port := port, fn := q.fn, pair := p, cid := leAt e 2 2, cfg := q.cfg, opcode := byteAt e 0
                             owner := byteAt e 4, device := byteAt e 5, fence := bit (byteAt e 1) 0
                             params := (padTo 64 e).drop 8, fetchedAt := sclkRtb s }
        let s := modQp s port p (fun q => { q with sqHead := (q.sqHead + 1) % sqDepth q, reserved := q.reserved + 1 })
        let s := modHp s port (fun h => { h with fetched := h.fetched ++ [f] })
        match entryRefusal s port q.fn e with
        | some c => complete s i c
        | none => s

end Sys2Proof.Machine
end

