-- ==== Sys2Proof/Machine/MemoryCommands.lean ====
section
/-! DEFINITION. Host commands and aperture accesses that move data to and from stack memory (R34, R37, R38, R378, R381, R451, R461). -/

namespace Sys2Proof.Machine

/-- The code that refuses a command naming an owner before another device is asked (R339). -/
def ownerDenied (i : Issuer) (owner : Nat) (s : State) : Option Nat := if isHeadframe s then ownerRefusal s i owner else none

/-- MEM_GRANT (R378): DENIED for an owner not bound to the function, and for owner 0 except from PF0. -/
def execMemGrant (i : Issuer) (owner : BitVec 8) (addr size : BitVec 64) (s : State) : Out :=
  deviceCommand i 0x20 [owner.toNat, addr.toNat, size.toNat] s
      (refused := ownerDenied i owner.toNat) fun s =>
    if (ownerRefusal s i owner.toNat).isSome then complete s i stDenied
    else
      let r := grantEffect s owner.toNat addr.toNat size.toNat
      complete r.2 i r.1

/-- MEM_RELEASE (R378). -/
def execMemRelease (i : Issuer) (owner : BitVec 8) (addr size : BitVec 64) (s : State) : Out :=
  deviceCommand i 0x21 [owner.toNat, addr.toNat, size.toNat] s
      (refused := ownerDenied i owner.toNat) fun s =>
    if (ownerRefusal s i owner.toNat).isSome then complete s i stDenied
    else
      let r := releaseEffect s owner.toNat addr.toNat size.toNat
      complete r.2 i r.1

/-- A MEM_WRITE or MEM_READ starts on queue 258 (R381, R382, R461): alignment, then the owner's extents. A MEM_WRITE for another device reads this
host, so it waits until the function may issue DMA and the completion buffer has room (R449, R468). -/
def startTransfer (i : Issuer) (op owner addr host len : Nat) (s : State) : Out :=
  if op = 0x22 ∧ !forHere s i ∧ !hostReadable s i 1 then .next s
  else deviceCommand i op [owner, addr, host, len] s (refused := ownerDenied i owner)
    (onSend := fun s => if op = 0x22 then modFetched s i (fun f => { f with issued := min len (readBuffer - hostReadsOut s i.port) }) else s)
    fun s =>
      orRefuse i s (ownerRefusal s i owner) fun s =>
        if addr % 64 ≠ 0 ∨ host % 64 ≠ 0 ∨ len % 64 ≠ 0 then complete s i stBadParam
        else if !extentsGranted s owner addr len then complete s i stMemAccess
        else issueReads (modFetched s i (fun f => { f with
          inEffect := true, owner := owner, params := leBytes 8 addr ++ leBytes 8 host ++ leBytes 4 len })) i.port

/-- MEM_WRITE (R461). -/
def execMemWrite (i : Issuer) (owner : BitVec 8) (addr host : BitVec 64) (length : BitVec 32) (s : State) : Out :=
  startTransfer i 0x22 owner.toNat addr.toNat host.toNat length.toNat s

/-- MEM_READ (R461). -/
def execMemRead (i : Issuer) (owner : BitVec 8) (addr host : BitVec 64) (length : BitVec 32) (s : State) : Out :=
  startTransfer i 0x23 owner.toNat addr.toNat host.toNat length.toNat s

/-- A MEM_WRITE or MEM_READ ends (R386, R461, R463): `data` is what the host read gave, `some` of anything when a host write
succeeded, `none` when host memory answered with an error; `ecc` are the errors met in stack memory. A MEM_WRITE whose read requests
still wait for the completion buffer has nothing to end with (R449). -/
def execCommandTransferComplete (i : Issuer) (data : Option (List Byte)) (ecc : List (Nat × Bool)) (s : State) : Out :=
  .next <|
    match findFetched s i with
    | none => s
    | some f =>
      if !f.inEffect ∨ (f.opcode ≠ 0x22 ∧ f.opcode ≠ 0x23) then s
      else
        let addr := leAt f.params 0 8
        let host := leAt f.params 8 8
        let len := leAt f.params 16 4
        if f.opcode = 0x22 ∧ f.pair < 256 ∧ f.issued = 0 ∧ 0 < len then s
        else if !extentsGranted s f.owner addr len then complete s i stMemAccess
        else if f.opcode = 0x22 then
          match (if f.dropped then none else data) with
          | none => complete s i stHostDma
          | some bs => complete (writeUnder s (stackKey s f.owner) addr (padTo len bs) 258) i stOk
        else
          let s := eccRead s addr len ecc rdCommand 258
          if poisonedIn s addr len then complete s i stMemError
          else match data with
            | none => complete s i stHostDma
            | some _ =>
              let bs := readUnder s (stackKey s f.owner) addr len
              complete (if f.dropped then s else issuerWrite s i host bs) i stOk

/-! ### Apertures -/

/-- A refused aperture access (R451): a read completes with Unsupported Request, a write is discarded, and the function is frozen with
code 0x0904, or 0x0905 for a write into the sump region (R38, R480). -/
def refuseAperture (s : State) (port : Bool) (fn addr : Nat) (write : Bool) (code : Nat := 0x0904) : State :=
  freeze (if write then s else countUr s port) (pgHp port) 1 (fnMaster port fn) code addr

/-- A byte range lies in the sump region (R45, R641). -/
def inSump (s : State) (a n : Nat) : Bool :=
  s.power.sumpExists && decide (s.power.sumpBase.toNat ≤ a) && decide (a + n ≤ s.power.sumpBase.toNat + 32 * sumpCapacity s)

/-- A byte range meets the sump region. -/
def meetsSump (s : State) (a n : Nat) : Bool :=
  s.power.sumpExists && overlap a n s.power.sumpBase.toNat (32 * sumpCapacity s)

/-- Bytes of the aperture of a function: BAR4 of PF0 (R37), BAR2 of a VF (R34). -/
def apertureSize (s : State) (port : Bool) (fn : Nat) : Nat := if fn = 0 then 2 ^ (getHp s port).bar4Log else 2 ^ 30

/-- An aperture access in power state ROM (R38): the staging region, at offset 0; beyond it reads give 0 and writes are discarded. -/
def romAperture (s : State) (offset : Nat) (write : Bool) (count : Nat) (data : List Byte) (ecc : List (Nat × Bool)) : State :=
  let a := stagingBase + offset
  let n := min count (stagingSize - offset)
  if write then writeUnder s 0 a (data.take (stagingSize - offset)) 258
  else
    let s := eccRead s a n ecc rdAperture 258
    emit s (.apertureData (poisonedIn s a n) (padTo count (readUnder s 0 a n)))

/-- BAR4 or VF BAR2 access of `count` bytes at an offset (R34, R37, R38, R381, R451, R452, R467). A PF0 read that lies only partly in the
sump region is refused (log entry 66). -/
def execApertureAccess (port : Bool) (fn : BitVec 5) (offset : BitVec 64) (write : Bool) (count : Nat) (data : List Byte)
    (ecc : List (Nat × Bool)) (s : State) : Out :=
  .next <|
    let f := fn.toNat
    let n := if write then data.length else count
    if !barsOpen s port || !fnEnabled s port f || fnFrozen s port f || (getFn s port f).inReset
        || decide (apertureSize s port f < offset.toNat + n) then
      countUr s port
    else if f ≠ 0 ∧ (getFn s port f).aptOwner = 0 then countUr s port
    else if s.power.state = .rom ∧ f = 0 then romAperture s offset.toNat write n data ecc
    else
      let o := (getFn s port f).aptOwner
      let a := (getFn s port f).aptBase * 2 ^ 30 + offset.toNat
      if meetsSump s a n ∧ (f = 0 ∨ write) then
        if write then refuseAperture s port f a true 0x0905
        else if inSump s a n then
          let s := eccRead s a n ecc rdAperture 258
          emit s (.apertureData (poisonedIn s a n) (memBytes s a n))
        else refuseAperture s port f a false
      else if !extentsGranted s o a n then refuseAperture s port f a write
      else if write then writeUnder s (stackKey s o) a data 258
      else
        let s := eccRead s a n ecc rdAperture 258
        emit s (.apertureData (poisonedIn s a n) (readUnder s (stackKey s o) a n))

end Sys2Proof.Machine
end

