-- ==== Sys2Proof/Machine/Weights.lean ====
section
/-! DEFINITION. Weights: the load list and its checks, program-verify and compensation, relief, live rewrite, sealed loads and unbinding
(R55-R57, R71, R81, R82, R157-R184, R642, R643). -/

namespace Sys2Proof.Machine

/-! ### The load list (R157-R162) -/

/-- One matrix entry (R160). -/
structure MatrixEntry where
  /-- Rows. -/
  k : Nat
  /-- Columns. -/
  n : Nat
  /-- Address of the column scales. -/
  scales : Nat
  /-- Operation tag. -/
  tag : Nat
  /-- SEAM as written. -/
  seam : Nat
  /-- The reserved bytes are 0. -/
  clean : Bool
deriving DecidableEq, Repr

/-- One tile entry (R161). -/
structure TileEntry where
  /-- BLOCK_ADDR. -/
  block : Nat
  /-- GROUP. -/
  group : Nat
  /-- LOGICAL. -/
  logical : Nat
  /-- MATRIX. -/
  matrix : Nat
  /-- ROW_TILE. -/
  row : Nat
  /-- COL_TILE. -/
  col : Nat
  /-- The reserved bytes are 0. -/
  clean : Bool
deriving DecidableEq, Repr

/-- Bytes `[lo, hi)` of a list are 0. -/
def zeroBytes (b : List Byte) (lo hi : Nat) : Bool := ((b.drop lo).take (hi - lo)).all (· == 0)

/-- A matrix entry from its 32 bytes. -/
def matrixOf (b : List Byte) : MatrixEntry :=
  { k := leAt b 0 4, n := leAt b 4 4, scales := leAt b 8 8, tag := leAt b 16 2, seam := byteAt b 18, clean := zeroBytes b 19 32 }

/-- A tile entry from its 32 bytes. -/
def tileEntryOf (b : List Byte) : TileEntry :=
  { block := leAt b 0 8, group := byteAt b 8, logical := leAt b 10 2, matrix := leAt b 12 2, row := leAt b 14 2, col := leAt b 16 2
    clean := byteAt b 9 == 0 && zeroBytes b 18 32 }

/-- Entries of 32 bytes at an address, read under an owner's key. -/
def entries32 (s : State) (o a n : Nat) : List (List Byte) := (upTo n).map (fun i => readUnder s (stackKey s o) (a + 32 * i) 32)

/-- The header of a load list is well formed (R158, R159). -/
def loadHeaderOk (h : List Byte) : Bool :=
  let mode := byteAt h 6
  let m := leAt h 8 4
  let t := leAt h 12 4
  leAt h 0 4 == 0x4B574C44 && leAt h 4 2 == 1 && decide (mode ≤ 3) && decide (byteAt h 7 ≤ 1)
    && ((decide (1 ≤ m) && decide (m ≤ 4096)) || (mode == 3 && m == 0))
    && decide (1 ≤ t) && decide (t ≤ 65536)
    && (leAt h 16 8 % 32 == 0 || (mode == 3 && m == 0)) && leAt h 24 8 % 32 == 0 && zeroBytes h 32 64

/-- A range of memory that an owner may access (R157, R381). -/
def mayRead (s : State) (o : Nat) (r : Nat × Nat) : Bool := extentsGranted s o r.1 r.2

/-- The 512-column slice of scales of a column tile (R173). -/
def scaleSlice (s : State) (o : Nat) (m : MatrixEntry) (col : Nat) : List (BitVec 16) :=
  let n := min 512 (m.n - 512 * col)
  let b := readUnder s (stackKey s o) (m.scales + 1024 * col) (2 * n)
  (upTo n).map (fun j => BitVec.ofNat 16 (leAt b (2 * j) 2))

/-- Row tiles of a matrix, in 512-row halves for a seam matrix (R118, R161). -/
def MatrixEntry.rowTiles (m : MatrixEntry) : Nat := if m.seam = 1 then 2 * ((m.k + 1023) / 1024) else (m.k + 511) / 512

/-- The binding that a tile entry gives its logical tile. -/
def bindingOf (s : State) (o : Nat) (isSeal : Bool) (m : MatrixEntry) (e : TileEntry) : Binding :=
  { owner := o, tag := m.tag, rowTile := e.row, colTile := e.col, k := m.k, n := m.n, seam := m.seam == 1, block := e.block
    scales := scaleSlice s o m e.col, bound := true, sealedLoad := isSeal }

/-- The 131,072 bytes of a binding's master copy (R110, R176). -/
def masterBlock (s : State) (b : Binding) : List Byte := readForFirmware s (stackKey s b.owner) b.block 131072

/-- A code beyond K or N is not 0 (R111). -/
def badPadding (s : State) (b : Binding) : Bool :=
  let d := masterBlock s b
  (upTo 512).any (fun r =>
    (indexed (unpackCodes false 512 ((d.drop (256 * r)).take 256))).any (fun x =>
      x.2 != 0 && (decide (b.k ≤ 512 * b.rowTile + r) || decide (b.n ≤ 512 * b.colTile + x.1))))

/-- The records of this device, the lowest bucket's first. -/
def ownRecs (s : State) (ps : PlanSet) : List DevRec := ps.plans.map (fun q => q.own s)

/-- Logical tiles that seam operations of the records join (R99). -/
def seamTiles (ds : List DevRec) : List (Nat × Nat) :=
  ds.flatMap (fun d => d.templates.flatMap (fun t => (t.shots.filter (fun x => (shotOp d x).seam)).flatMap
    (fun x => [(x.group, x.logical), (x.group, x.logical + 1)])))

/-- SEAM of the physical tiles that serve them now, and of no other (R99). -/
def markSeams (s : State) (ds : List DevRec) : State :=
  let s := { s with tiles := tblMap {} (fun _ t => { t with seam := false }) s.tiles }
  forEach (seamTiles ds) (fun s x => modTile s (physicalOf s x.1 x.2) (fun t => { t with seam := true })) s

/-- SEAM after a change of the relief maps (R99). -/
def showSeams (s : State) : State :=
  match s.sq.planSet with
  | none => s
  | some ps => markSeams s (ownRecs s ps)

/-- The admitted set shoots a logical tile. -/
def planShoots (s : State) (g l : Nat) : Bool :=
  match s.sq.planSet with
  | none => false
  | some p => p.plans.any (fun q => (q.own s).templates.any (fun t => t.shots.any (fun x =>
      x.group == g && (shotTiles (shotOp (q.own s) x) x).contains l)))

/-- A logical tile is held by a command in progress or waiting (R163). -/
def tileHeld (s : State) (g l : Nat) : Bool := s.loads.any (fun x => x.entries.contains (g, l))

/-- Load record of a logical tile (R180). -/
def loadRec (s : State) (g l : Nat) : Option LoadRec := (s.store.loads.find? (fun e => e.1 == g * 1024 + l)).map (·.2)

/-- Digest of a block (R180): the first 64 bits of its SHA-512. -/
def blockDigest (d : List Byte) : BitVec 64 := (sha512 d).extractLsb' 448 64

/-- Digest of a scale slice (R180). -/
def scaleDigest (l : List (BitVec 16)) : BitVec 64 := blockDigest (l.flatMap (fun x => leBytes 2 x.toNat))

/-- A seam entry has its partner entry and stands on its side of the pair (R161, R162). -/
def seamPlaced (ts : List TileEntry) (e : TileEntry) : Bool :=
  e.logical % 2 == e.row % 2 && ts.any (fun f => f.group == e.group && f.matrix == e.matrix && f.col == e.col &&
    (if e.row % 2 = 0 then f.row == e.row + 1 && f.logical == e.logical + 1 else f.row + 1 == e.row && f.logical + 1 == e.logical))

/-- BAD_TARGET of one entry (R162). -/
def badTarget (s : State) (mode : Nat) (ms : List MatrixEntry) (ts : List TileEntry) (e : TileEntry) : Bool :=
  decide (63 < e.group) || decide (1023 < e.logical) || !tgEnabled s e.group ||
  (mode != 3 && match ms[e.matrix]? with
    | none => true
    | some m => decide (m.rowTiles ≤ e.row) || decide ((m.n + 511) / 512 ≤ e.col) || (m.seam == 1 && !seamPlaced ts e))

/-- SCALE_MISMATCH of a LIVE entry (R173). -/
def scaleMismatch (s : State) (o : Nat) (g l : Nat) (b : Binding) : Bool :=
  match getBinding s g l with
  | none => true
  | some c => !c.bound || c.owner != o || c.k != b.k || c.n != b.n || c.seam != b.seam || c.scales != b.scales

/-- A number occurs twice in a list. -/
def hasDup : List Nat → Bool
  | [] => false
  | x :: xs => xs.contains x || hasDup xs

/-! ### Relief tiles (R82, R170, R174) -/

/-- Mark a relief tile held; falling to the reserve raises RELIEF_LOW (R82). -/
def holdRelief (s : State) (g j : Nat) (seam : Bool) (l : Nat) : State :=
  let was := reliefFree s g
  checkReserve (setRelief s g j { state := 3, seam := seam, logical := l } 5) g was

/-- Free relief tiles of a group, or the first tiles of its free pairs (R71). -/
def freeReliefs (s : State) (g : Nat) (pair : Bool) : List Nat :=
  (upTo 64).filter (fun j => (getRelief s g j).state == 0 && (!pair || (j % 2 == 0 && (getRelief s g (j + 1)).state == 0)))

/-- Take a free relief tile or pair for logical tiles of a group; which of the free ones is taken is free (log entry 32). -/
def takeRelief (s : State) (g : Nat) (seam : Bool) (ls : List Nat) : Option (State × List Nat) :=
  let free := freeReliefs s g (decide (1 < ls.length))
  if free.isEmpty then none
  else
    let j := free.getD ((draw s).1 % free.length) 0
    some (forEach (indexed ls) (fun s x => holdRelief s g (j + x.1) seam x.2) (draw s).2,
      (indexed ls).map (fun x => tileIx g (1024 + j + x.1)))

/-- A held relief tile returns to free (R642, R176). -/
def freeRelief (s : State) (i : Nat) : State :=
  if i % 1088 < 1024 then s else setRelief s (i / 1088) (i % 1088 - 1024) {} 2

/-- RELIEF_SWAP (R81, R90): the map of a logical tile changed at a relief tile. -/
def reliefEvent (s : State) (g l t reason : Nat) : State := raiseEvent s (pgTg g) 0x08 (info [(2, l), (2, t), (1, reason)])

/-- A relief tile is retired in the map (R81, R82): if it was in service the map of its logical tile changes; if it was free, the free
tiles may fall to the reserve. The event of the tile that replaces it is another (log entry 100). -/
def retireRelief (s : State) (g j : Nat) : State :=
  let r := getRelief s g j
  let was := reliefFree s g
  let s := checkReserve (setRelief s g j { state := 2 } 4) g was
  if r.state = 1 then reliefEvent s g r.logical (1024 + j) 1 else s

/-- A tile is retired (R171): a job of kind 5 waits to rewrite it once with the erase pattern, under the limits of R166 (log entry 73); a
working tile is shown relieved or unavailable. -/
def retireTile (s : State) (i shown : Nat) : State :=
  let s := modTile s i (fun t => { t.clearCal with
    ready := false, programming := false, calibrating := false, calPend := false, settleEnd := none, retireAsked := false, vacated := false })
  let s := recheckDue s (i / 1088)
  let s := { s with hb := { s.hb with retirements := s.hb.retirements ++ [s.hb.poweredHours] } }
  let s := { s with jobs := s.jobs ++ [{ kind := 5, group := i / 1088, logical := 2048, tile := i }] }
  if i % 1088 < 1024 then modTile s i (fun t => { t with state := shown }) else retireRelief s (i / 1088) (i % 1088 - 1024)

/-- A logical tile becomes unavailable and its tile is retired (R82, R642); one that already is stays so (R643). -/
def loseTile (s : State) (g l cause : Nat) : State :=
  if (getTg s g).unavailable.contains l then s
  else
    let s := retireTile s (physicalOf s g l) 6
    let s := modTile s (tileIx g l) (fun t => { t with state := 6 })
    raiseEvent (modTg s g (fun t => { t with unavailable := l :: t.unavailable })) (pgTg g) 0x0A (info [(2, l), (1, cause)])

/-! ### Sealed records (R172, R180, R528, R539) -/

/-- Event SEAL_CHANGED (R539). -/
def sealEvent (s : State) (o what : Nat) : State := raiseEvent s pgKe 0x06 (info [(1, o), (1, what), (2, loadRecordsOf s o)])

/-- Remove the load record of a logical tile; the owner's record goes with its last one (R528). -/
def dropLoadRec (s : State) (g l : Nat) : State :=
  match loadRec s g l with
  | none => s
  | some r =>
    let s := { s with store := { s.store with loads := s.store.loads.filter (fun e => e.1 != g * 1024 + l) } }
    let s := if loadRecordsOf s r.owner = 0 then modSlot (removeSeals s r.owner) r.owner (fun k => { k with sealed := false, sealHandle := none }) else s
    sealEvent s r.owner 2

/-- Write the load record of a ready tile, with the owner's record if it is the first (R180, R528); a record that stands (R181) stays. -/
def writeLoadRec (s : State) (g l : Nat) (b : Binding) : State :=
  let k := getSlot s b.owner
  let s := if b.owner = 0 ∨ hasSeal s b.owner then s
    else
      let s := { s with store := { s.store with
        seals := tblSet {} s.store.seals b.owner { port := k.port, token := k.token, kMap := k.kMap, rtb := s.power.rtb } } }
      modSlot s b.owner (fun k => { k with sealed := true, sealHandle := some b.owner })
  let r : LoadRec := { owner := b.owner, blockDigest := blockDigest (masterBlock s b), scaleDigest := scaleDigest b.scales, tag := b.tag
                       rowTile := b.rowTile, colTile := b.colTile }
  if loadRec s g l = some r then s
  else sealEvent { s with store := { s.store with loads := tblSet {} s.store.loads (g * 1024 + l) r } } b.owner 1

/-! ### Jobs and commands -/

/-- Change a command in progress. -/
def modLoad (s : State) (no : Nat) (f : Load → Load) : State :=
  { s with loads := s.loads.map (fun x => if x.no = no then f x else x) }

/-- The owner of a job has lost its key (R179). -/
def jobStopped (s : State) (j : Job) : Bool :=
  s.unbinding.contains j.bind.owner || s.loads.any (fun x => x.no == j.no && x.keyGone)

/-- A job is one of the two of a seam pair (R71). -/
def Job.partnerOf (j k : Job) : Bool := k.bind.seam && k.group == j.group && k.logical / 2 == j.logical / 2 && k.logical != j.logical
  && k.kind == j.kind

/-- Change a job, found by its tile. -/
def modJob (s : State) (tile : Nat) (f : Job → Job) : State :=
  { s with jobs := s.jobs.map (fun j => if j.tile = tile then f j else j) }

/-- Remove a job. -/
def dropJob (s : State) (tile : Nat) : State :=
  showProg (modTile { s with jobs := s.jobs.filter (fun j => j.tile != tile) } tile
    (fun t => { t with programming := false, settleEnd := none })) (tile / 1088)

/-- A tile may begin programming (R166): not at CRITICAL or above; one at a time in a stack site; 4 a group while a plan is admitted, else
1,024 in all. -/
def mayProgram (s : State) (tile : Nat) : Bool :=
  let busy := s.jobs.filter (fun j => j.phase == 1)
  decide (level s < 3) && !busy.any (fun j => j.tile / 1088 == tile / 1088 && j.tile % 1088 / 4 == tile % 1088 / 4) &&
  (if planAdmitted s then decide ((busy.filter (fun j => j.tile / 1088 == tile / 1088)).length < 4) else decide (busy.length < 1024))

/-- Once a plan is admitted at most 4 tiles of a group program (R166): the later ones pause, to be programmed from the start when a place is
free (log entry 108). -/
def pauseJobs (s : State) : State :=
  let extra := fun g => ((s.jobs.filter (fun j => j.phase == 1 && j.tile / 1088 == g)).drop 4).map (·.tile)
  forEach (upTo 64) (fun s g => showProg (forEach (extra g) (fun s i =>
    modTile (modJob s i (fun j => { j with phase := 0 })) i (fun t => { t with programming := false })) s) g) s

/-- A master-copy block can be read (R642): its words are not poisoned, and it lies in memory that the owner may access. An unbound logical
tile has none (log entry 103). -/
def blockReadable (s : State) (b : Binding) : Bool := b.bound && extentsGranted s b.owner b.block 131072 && !poisonedIn s b.block 131072

/-- A logical tile cannot be relieved: it is lost at the beat boundary, at once while no beat runs (R82, R642, R644). -/
def loseLater (s : State) (no g : Nat) (ls : List (Nat × Binding)) (cause : Nat) : State :=
  let s := modLoad s no (fun x => { x with unavailable := x.unavailable + ls.length })
  if s.sq.live.isNone then forEach ls (fun s x => loseTile s g x.1 cause) s
  else { s with jobs := s.jobs ++ ls.map (fun x =>
      { no := no, kind := 4, group := g, logical := x.1, tile := 69632 + g * 1024 + x.1, bind := x.2, phase := 4 + cause }) }

/-- Relieve logical tiles (one, or a seam pair) onto free relief tiles (R170, R642, R643); `kind` 4, or 1 for another target of a LIVE
command. The jobs wait to be programmed. With no relief tile left the serving tile goes out of service too (log entry 104). -/
def relieve (s : State) (kind no : Nat) (again : Bool) (g : Nat) (ls : List (Nat × Binding)) : State :=
  match takeRelief s g (ls.any (fun x => x.2.seam)) (ls.map (·.1)) with
  | none => loseLater s no g ls 1
  | some (t, tiles) =>
    if ls.all (fun x => blockReadable t x.2) then
      { t with jobs := t.jobs ++ (ls.zip tiles).map (fun x =>
          { no := no, kind := kind, group := g, logical := x.1.1, tile := x.2, bind := x.1.2, again := again }) }
    else loseLater (forEach tiles freeRelief t) no g ls 2

/-- The logical tiles that are relieved with one: its seam pair, or itself (R71); `b` is what it is to hold. -/
def pairWith (s : State) (g l : Nat) (b : Binding) : List (Nat × Binding) :=
  if !b.seam then [(l, b)]
  else
    let other := if l % 2 = 0 then l + 1 else l - 1
    let ob := ((s.jobs.find? (fun j => j.group == g && j.logical == other && decide (j.kind ≤ 2))).map (·.bind)).getD (lastBinding s g other)
    if l % 2 = 0 then [(l, b), (other, ob)] else [(other, ob), (l, b)]

/-- A tile serving or being programmed for a logical tile meets a condition of R169: it is relieved, its own job and its partner's being
dropped. -/
def failInPlace (s : State) (no g l : Nat) (b : Binding) : State :=
  let ls := pairWith s g l b
  let s := forEach (s.jobs.filter (fun j => j.group == g && (ls.map (·.1)).contains j.logical && j.kind != 1 && j.kind != 4)) (fun s j => dropJob s j.tile) s
  relieve s 4 no false g ls

/-- A tile being used for relief, or as a live target, meets a condition of R169 (R170): it is retired, the other tile of a pair is
freed, and the next free relief tile is tried. -/
def failTarget (s : State) (j : Job) : State :=
  let ps := s.jobs.filter (fun k => j.partnerOf k)
  let ls := (ps.filter (fun k => decide (k.logical < j.logical))).map (fun k => (k.logical, k.bind)) ++ [(j.logical, j.bind)]
    ++ (ps.filter (fun k => decide (j.logical < k.logical))).map (fun k => (k.logical, k.bind))
  let s := retireTile (dropJob s j.tile) j.tile 1
  let s := forEach ps (fun s k => freeRelief (dropJob s k.tile) k.tile) s
  relieve s j.kind j.no j.again j.group ls

/-- An ERASE ends for a logical tile: it is unbound and its load record removed (R172, R643). -/
def unbindErased (s : State) (g l : Nat) : State :=
  setBinding (dropLoadRec s g l) g l (some { lastBinding s g l with bound := false })

/-- The relief tile of a PATTERN assay meets a condition of R169: it is retired and the assay fails (log entry 94). -/
def failAssayTile (s : State) (j : Job) : State :=
  let s := retireTile (dropJob s j.tile) j.tile 1
  match s.hb.assay with
  | some a => reportAssay (setAssayResult s 1 0 0) a true
  | none => s

/-- A tile that a job programs meets a condition of R169. An erased tile has no block to be relieved from; the relief tile of an ended assay
serves no logical tile. -/
def failJob (s : State) (j : Job) : State :=
  if j.kind = 6 then failAssayTile s j
  else if j.kind = 7 then retireTile (dropJob s j.tile) j.tile 1
  else if j.kind = 1 ∨ j.kind = 4 then failTarget s j
  else if j.kind = 3 then failInPlace (unbindErased s j.group j.logical) j.no j.group j.logical { j.bind with bound := false }
  else failInPlace s j.no j.group j.logical j.bind

/-- A relief tile, or a pair, whose master-copy block can no longer be read (R642): every held tile of it returns to free and the logical
tiles become unavailable with cause 2. -/
def unreadable (s : State) (j : Job) : State :=
  let all := (s.jobs.filter (fun k => k.tile == j.tile || j.partnerOf k))
  let ls := all.map (fun k => (k.logical, k.bind))
  loseLater (forEach all (fun s k => freeRelief (dropJob s k.tile) k.tile) s) j.no j.group ls 2

/-- A waiting job begins to be programmed (R166); a tile at its cycle limit is relieved without a further cycle, and a retired one is not
rewritten (R169, log entry 73); a relief tile whose block has become unreadable programs nothing (R642). -/
def startJob (s : State) (j : Job) : State :=
  if jobStopped s j || !mayProgram s j.tile then s
  else if j.kind = 4 ∧ !(s.jobs.filter (fun k => k.tile == j.tile || j.partnerOf k)).all (fun k => blockReadable s k.bind) then unreadable s j
  else if j.kind = 5 ∧ 100000 ≤ (getTile s j.tile).cycles then dropJob s j.tile
  else if j.kind ≠ 2 ∧ 100000 ≤ (getTile s j.tile).cycles then failJob s j
  else
    let s := modJob s j.tile (fun j => { j with phase := 1 })
    let s := modTile s j.tile (fun t => { t with programming := true, ready := false })
    let s := if j.kind = 0 then setBinding s j.group j.logical ((getBinding s j.group j.logical).map (fun b => { b with bound := false })) else s
    showProg s (j.tile / 1088)

/-- Waiting jobs begin, in order, as places become free (R166). Jobs that come up meanwhile are tried in the second pass. -/
def startJobs (s : State) : State :=
  let pass := fun s => forEach (s.jobs.filter (fun j => j.phase == 0)) startJob s
  pass (pass s)

/-! ### Program-verify (R55-R57, R164, R167-R169, R172, R177) -/

/-- Levels of the four canary pairs (R56). -/
def canaryLevels : List (Int × Int) := [(15, 15), (23, 7), (7, 23), (19, 11)]

/-- Levels of the checksum pair of a row with weight sum `n` (R57). -/
def checksumLevels (n : Int) : Int × Int :=
  let d := max (-31) (min 31 (roundAwayInt n 128))
  (16 + d / 2, 16 + d / 2 - d)

/-- Target levels of the pairs of a physical row from its physical weights (R55-R57). -/
def rowTargets (ws : List Int) : List (Int × Int) := ws.map (fun w => (15 + w, 15 - w)) ++ canaryLevels ++ [checksumLevels ws.sum]

/-- Physical weights of a tile, row by row (R110, R177). -/
def physicalWeights (key i sg : Nat) (block : List Byte) : List (List Int) :=
  let pi := rowPerm key i
  (upTo 512).map (fun r =>
    let cs := unpackCodes false 512 ((block.drop (256 * pi.idxOf r)).take 256)
    (indexed cs).map (fun x => if sigmaBit key sg x.1 then -x.2.toInt else x.2.toInt))

/-- The level a failure list gives a cell. -/
def failedLevel (fs : List (Nat × Nat × Nat)) (r c : Nat) : Option Int :=
  (fs.find? (fun f => f.1 == r && f.2.1 == c)).map (fun f => (min 31 f.2.2 : Nat))

/-- Achieved levels of a pair (R167): a failed cell is matched by its neighbour, unless that fails too. `fs` are the cells that failed
with their levels, `ps` the compensating cells that failed. -/
def achieved (fs ps : List (Nat × Nat × Nat)) (r p : Nat) (t : Int × Int) : Int × Int :=
  let d := t.1 - t.2
  match failedLevel fs r (2 * p), failedLevel fs r (2 * p + 1) with
  | none, none => t
  | some a, some b => (a, b)
  | some a, none => (a, (failedLevel ps r (2 * p + 1)).getD (max 0 (min 31 (a - d))))
  | none, some b => ((failedLevel ps r (2 * p)).getD (max 0 (min 31 (b + d))), b)

/-- Both cells of a pair failed, or the cell that was to compensate did: a residual pair whatever its difference (R167). -/
def uncompensated (fs ps : List (Nat × Nat × Nat)) (r p : Nat) : Bool :=
  let f := fun c => (failedLevel fs r c).isSome
  (f (2 * p) && (f (2 * p + 1) || (failedLevel ps r (2 * p + 1)).isSome)) || (f (2 * p + 1) && (failedLevel ps r (2 * p)).isSome)

/-- Erase-pattern levels of a pair: what the array of cells counts from (R172). -/
def eraseLevels (p : Nat) : Int × Int :=
  if p < 512 then (15, 15) else if p < 516 then canaryLevels.getD (p - 512) (15, 15) else (16, 16)

/-- The cells of a programmed tile, and its residual pairs by row and pair (R167). -/
def programmedCells (ws : List (List Int)) (fs ps : List (Nat × Nat × Nat)) : Tbl Int × List (Nat × Nat) :=
  let rows := (indexed ws).map (fun x => (x.1, indexed (rowTargets x.2)))
  (rows.flatMap (fun x => x.2.flatMap (fun y =>
      let a := achieved fs ps x.1 y.1 y.2
      let e := eraseLevels y.1
      [(x.1 * 1034 + 2 * y.1, a.1 - e.1), (x.1 * 1034 + 2 * y.1 + 1, a.2 - e.2)].filter (fun z => z.2 != 0))),
   rows.flatMap (fun x => (x.2.filter (fun y =>
      let a := achieved fs ps x.1 y.1 y.2
      a.1 - a.2 != y.2.1 - y.2.2 || uncompensated fs ps x.1 y.1)).map (fun y => (x.1, y.1))))

/-- The first condition of R169 that a programmed tile meets, 1-4, or 0. -/
def retireCondition (res : List (Nat × Nat)) (failed : Nat) : Nat :=
  let w := res.filter (fun x => decide (x.2 < 512))
  if res.any (fun x => decide (512 ≤ x.2)) then 1
  else if 64 < w.length then 2
  else if w.any (fun x => decide (4 < (w.filter (fun y => y.1 == x.1)).length)) then 3
  else if 256 < failed then 4
  else 0

/-- Device-wide mean of the tiles' program-verify iterations (R558). -/
def updatePvMean (s : State) : State :=
  let l := (s.tiles.map (fun e => e.2.pvIter)).filter (· != 0)
  { s with hb := { s.hb with pvMean := if l.isEmpty then 0 else l.sum / l.length } }

/-- A swap of one relieved logical tile (R81, R170, R171, R643): its relief tile enters service and the old tile is retired. -/
def swapRelief (s : State) (j : Job) : State :=
  let old := physicalOf s j.group j.logical
  let s := { s with jobs := s.jobs.filter (fun k => k.tile != j.tile) }
  let s := if j.again then modTile s (tileIx j.group j.logical) (fun t => { t with state := 1 }) else retireTile s old 1
  let s := setRelief s j.group (j.tile % 1088 - 1024) { state := 1, seam := j.bind.seam, logical := j.logical } 3
  let s := modTg s j.group (fun t => { t with unavailable := t.unavailable.filter (· != j.logical) })
  let s := if j.no = 0 then s else setBinding (modLoad s j.no (fun x => { x with relieved := x.relieved + 1 })) j.group j.logical (some j.bind)
  raiseEvent s (pgTg j.group) 0x08 (info [(2, j.logical), (2, j.tile % 1088), (1, 1)])

/-- Relief changes that have become due take effect: at a beat boundary (R81, R170), or at once while no beat runs. The tiles of a seam
pair go together (R71). -/
def boundaryJobs (s : State) : State :=
  showSeams <|
  let due := fun (j : Job) => j.kind == 4 && decide (4 ≤ j.phase) && (j.phase != 4 || !s.jobs.any (fun k => j.partnerOf k && k.phase != 4))
  forEach (s.jobs.filter due) (fun s j =>
    if j.phase = 4 then swapRelief s j
    else loseTile { s with jobs := s.jobs.filter (fun k => k.tile != j.tile) } j.group j.logical (j.phase - 4)) s

/-- Relief changes take effect now if no beat runs. -/
def boundaryNow (s : State) : State := if s.sq.live.isNone then boundaryJobs s else s

/-- The weights of the ASSAY pattern, row by row (R566, log entry 94). -/
def patternWeights (s : State) : List (List Int) :=
  (upTo 512).map (fun r => (upTo 512).map (fun p => Config.assayWeight s.cx.version.toNat r p % 16 - 8))

/-- Program-verify of a job's tile ended without a retirement condition. -/
def programmed (s : State) (j : Job) (touched : Bool) : State :=
  let s := modLoad s j.no (fun x => { x with programmed := x.programmed + ofBool (j.kind ≠ 2 ∨ touched) })
  if j.kind = 5 then dropJob s j.tile
  else if j.kind = 7 then freeRelief (dropJob s j.tile) j.tile
  else
    let s := if j.kind = 3 then unbindErased s j.group j.logical
      else if j.kind = 0 ∨ j.kind = 2 then setBinding s j.group j.logical (some j.bind) else s
    if j.kind = 2 ∧ !touched then startTileCal (modJob s j.tile (fun j => { j with phase := 3 })) j.tile
    else modTile (modJob s j.tile (fun j => { j with phase := 2 })) j.tile (fun t => { t with settleEnd := some (s.clock + secCycles) })

/-- TILE_PROGRAM_DONE (R164-R169, R177, R181, R182, R184): program-verify of tile `tile` (global index) ends. `failed` are the cells that
did not reach their levels (row, column, achieved level), `partners` the compensating cells that did not, `iterations` the mean per row
in 1/16; `touched` tells, for a RESUME, that cells needed touch-up. At CRITICAL no iteration starts (R166). -/
def execTileProgramDone (tile : BitVec 17) (failed partners : List (Nat × Nat × Nat)) (iterations : BitVec 16) (touched : Bool)
    (s : State) : Out :=
  .next <|
    let i := tile.toNat
    match s.jobs.find? (fun j => j.tile == i && j.phase == 1) with
    | none => s
    | some j =>
      if jobStopped s j ∨ 3 ≤ level s then s
      else
        let real := fun (f : Nat × Nat × Nat) => decide (f.1 < 512) && decide (f.2.1 < 1034)
        let fs := failed.filter real
        let ps := partners.filter (fun p => real p && !fs.any (fun f => f.1 == p.1 && f.2.1 == p.2.1)
          && fs.any (fun f => f.1 == p.1 && f.2.1 / 2 == p.2.1 / 2))
        let blank := j.kind = 3 ∨ j.kind = 5 ∨ j.kind = 7
        let key := if blank ∨ j.kind = 6 then 0 else (getSlot s j.bind.owner).kMap
        let sg := if j.bind.seam then (if i % 2 = 0 then i + 1 else i) else i
        let s := if blank ∨ j.kind = 6 then s
          else eccRead s j.bind.block 131072 [] (if j.no = 0 then rdFirmware else rdCommand) (if j.no = 0 then 0xFFFF else 258)
        let ws := if blank then List.replicate 512 (List.replicate 512 0) else if j.kind = 6 then patternWeights s
          else physicalWeights key i sg (masterBlock s j.bind)
        let r := programmedCells ws fs ps
        let idle := j.kind = 2 ∧ !touched
        let s := modTile s i (fun t => { t with programming := false, pvIter := if idle then t.pvIter else iterations.toNat })
        let s := if idle then s else modTile s i (fun t => { t with
          cells := r.1, keyMap := key, sigmaG := sg, progAt := s.clock, progHours := s.hb.poweredHours })
        let s := updatePvMean (if j.kind = 2 then s else countCycle s i)
        let cond := if idle ∨ j.kind = 5 then 0 else retireCondition r.2 (fs.length + ps.length)
        let s := if cond = 0 then programmed s j touched
          else
            let n := (r.2.filter (fun x => decide (x.2 < 512))).length
            let s := raiseEvent s (pgTg (i / 1088)) 0x0F
              (info [(2, j.logical), (2, i % 1088), (1, cond), (2, n), (2, fs.length + ps.length)])
            failJob s j
        showProg (boundaryNow (startJobs s)) (i / 1088)

/-- TILE_SETTLE_END (R175): 1 s after the last program pulse the tile's calibration begins. -/
def execTileSettleEnd (tile : BitVec 17) (s : State) : Out :=
  .next <|
    let i := tile.toNat
    match (getTile s i).settleEnd with
    | some t =>
      if s.clock < t then s
      else startTileCal (modTile (modJob s i (fun j => { j with phase := 3 })) i (fun t => { t with settleEnd := none })) i
    | none => s

/-- A freshly programmed tile has been calibrated (R175): it is ready, and its load record is written if the load was sealed (R180); a
relief or live target then waits for its boundary. -/
def jobCalibrated (s : State) (i : Nat) : State :=
  match s.jobs.find? (fun j => j.tile == i && j.phase == 3) with
  | none => s
  | some j =>
    let s := modTile s i (fun t => { t with ready := true, history := [], holdG := 0, holdO := 0 })
    let s := if j.bind.sealedLoad && !jobStopped s j && (j.no != 0 || decide (j.kind ≤ 2)) then writeLoadRec s j.group j.logical j.bind else s
    if j.kind = 0 ∨ j.kind = 2 ∨ j.kind = 3 then dropJob s i else boundaryNow (modJob s i (fun j => { j with phase := 4 }))

/-- TILE_CAL_COMPLETE (R137, R175, R180, R554): a tile's own calibration has its 24 shots; `dead` are its converters found out of trim
range or too nonlinear. A freshly programmed tile becomes ready, also where a group calibration that ended meanwhile covered it (R555). -/
def execTileCalComplete (tile : BitVec 17) (dead : List (BitVec 7)) (s : State) : Out :=
  .next <|
    let i := tile.toNat
    if !(getTile s i).calibrating then jobCalibrated s i
    else if (getTile s i).calShots ≠ 24 then s
    else
      let s := forEach (dead.filter (fun c => decide (c.toNat ≤ 64))) (fun s c => convDead s i c.toNat 2) s
      let s := finishTileCal s i
      jobCalibrated (recheckDue s (i / 1088)) i

/-! ### The command (R157-R163, R173, R174, R181) -/

/-- Targets of a LIVE command, taken group by group: its own working tile for a swap back, else a free relief tile or pair above the
reserve (R174). The answer pairs each (group, logical) with its target. -/
def liveTargets (s : State) : List (Nat × Nat × Bool) → Option (State × List ((Nat × Nat) × Nat))
  | [] => some (s, [])
  | (g, l, seam) :: rest =>
    let ls := if seam then [l, l + 1] else [l]
    if ls.all (fun x => physicalOf s g x != tileIx g x && (getTile s (tileIx g x)).vacated) then
      (liveTargets s rest).map (fun r => (r.1, ls.map (fun x => ((g, x), tileIx g x)) ++ r.2))
    else if reliefFree s g < s.hb.margin.reserve + ls.length then none
    else match takeRelief s g seam ls with
      | none => none
      | some (t, tiles) => (liveTargets t rest).map (fun r => (r.1, (ls.map (fun x => (g, x))).zip tiles ++ r.2))

/-- The first failing code of the checks that need the parsed list (R162), 0 when none fails; NO_RELIEF is `liveTargets`. `whole`: both
tables lie in the owner's memory; of one that does not, no entry is read. K, N or SEAM out of range is BAD_LIST (log entry 74). -/
def loadCode (s : State) (o mode : Nat) (ms : List MatrixEntry) (ts : List TileEntry) (bs : List Binding) (whole : Bool) : Nat :=
  let tb := ts.zip bs
  let firstBad : List (Nat × Bool) := [
    (0x10, ms.any (fun m => !m.clean || decide (1 < m.seam) || m.k == 0 || decide (131072 < m.k) || m.n == 0 || decide (1048576 < m.n))
      || ts.any (fun t => !t.clean)),
    (0x11, !whole || ms.any (fun m => m.scales % 2 != 0 || !mayRead s o (m.scales, 2 * m.n))
      || (mode != 3 && ts.any (fun t => t.block % 4096 != 0 || !mayRead s o (t.block, 131072)))),
    (0x12, ms.any (fun m => (upTo m.n).any (fun j => leAt (readUnder s (stackKey s o) (m.scales + 2 * j) 2) 0 2 / 128 % 256 == 255))),
    (0x13, mode != 3 && tb.any (fun x => decide (x.1.matrix < ms.length) && badPadding s x.2)),
    (0x14, ts.any (badTarget s mode ms ts)),
    (0x15, hasDup (ts.map (fun t => t.group * 1024 + t.logical))),
    (0x16, ts.any (fun t => tileHeld s t.group t.logical || ((mode == 0 || mode == 3) && planShoots s t.group t.logical))),
    (0x17, ts.any (fun t => match getBinding s t.group t.logical with
      | some b => b.bound && b.owner != o
      | none => false)),
    (0x18, mode == 1 && tb.any (fun x => scaleMismatch s o x.1.group x.1.logical x.2))]
  ((firstBad.find? (·.2)).map (·.1)).getD 0

/-- The codes of a RESUME (R162, R181): MASTER_CHANGED where the block or the scale slice differs from the record, NO_SEAL where there is
none of this owner for that matrix, row tile and column tile (log entry 74). -/
def resumeCode (s : State) (o : Nat) (ts : List TileEntry) (bs : List Binding) : Nat :=
  let tb := ts.zip bs
  if tb.any (fun x => match loadRec s x.1.group x.1.logical with
      | some r => r.owner == o && (r.blockDigest != blockDigest (masterBlock s x.2) || r.scaleDigest != scaleDigest x.2.scales)
      | none => false) then 0x1A
  else if tb.any (fun x => match loadRec s x.1.group x.1.logical with
      | some r => r.owner != o || r.tag != x.2.tag || r.rowTile != x.2.rowTile || r.colTile != x.2.colTile
      | none => true) || (o != 0 && (getSlot s o).kMap == 0) then 0x1B
  else 0

/-- Memory ranges a load list names. -/
def loadRanges (mode : Nat) (ms : List MatrixEntry) (ts : List TileEntry) : List (Nat × Nat) :=
  ms.map (fun m => (m.scales, 2 * m.n)) ++ (if mode = 3 then [] else ts.map (fun t => (t.block, 131072)))

/-- LOAD_WEIGHTS passes its checks: it holds its tiles and waits its turn (R163). -/
def acceptLoad (s : State) (i : Issuer) (o mode : Nat) (isSeal : Bool) (es : List (Nat × Nat)) (bs : List Binding) (tg : List Nat) : State :=
  { s with
    loads := s.loads ++ [{ no := s.loadNo, port := i.port, fn := i.fn.toNat, pair := i.pairKey, cid := i.cid.toNat, owner := o, mode := mode
                           isSeal := isSeal, entries := es, binds := bs, targets := tg, came := s.clock / 4 }]
    loadNo := s.loadNo + 1 }

/-- A LIVE load takes a relief tile, or its vacated own tile, for every unit, seam units first (R176); with none free it is refused. -/
def acceptLive (s : State) (i : Issuer) (o : Nat) (keep : Bool) (es : List (Nat × Nat)) (bs : List Binding)
    (us : List (Nat × Nat × Bool)) : State :=
  match liveTargets s (us.filter (·.2.2) ++ us.filter (fun u => !u.2.2)) with
  | none => complete s i 0x19
  | some (t, ps) => acceptLoad t i o 1 keep es bs (es.map (fun e => ((ps.find? (fun p => p.1 == e)).map (·.2)).getD 0))

/-- LOAD_WEIGHTS (R157-R163): the whole list is read and checked; the first failing code completes the command, else its tiles are held.
`ecc` are the errors met in stack memory: an uncorrectable word completes it with MEM_ERROR (R463). A RESUME keeps its tiles sealed,
whatever its flag: only a DIRECT or LIVE load or an ERASE removes a record (R180, R181). -/
def execLoadWeights (i : Issuer) (owner : BitVec 8) (list : BitVec 64) (ecc : List (Nat × Bool)) (s : State) : Out :=
  deviceCommand i 0x24 [owner.toNat, list.toNat] s (refused := ownerDenied i owner.toNat) fun s =>
    orRefuse i s (ownerRefusal s i owner.toNat) fun s =>
      let o := owner.toNat
      let a := list.toNat
      if !mayRead s o (a, 64) then complete s i 0x11
      else
        let s := eccRead s a 64 ecc rdCommand 258
        let h := readUnder s (stackKey s o) a 64
        if poisonedIn s a 64 then complete s i stMemError
        else if !loadHeaderOk h then complete s i 0x10
        else
          let mode := byteAt h 6
          let mc := leAt h 8 4
          let tc := leAt h 12 4
          let tables := (if mc = 0 then [] else [(leAt h 16 8, 32 * mc)]) ++ [(leAt h 24 8, 32 * tc)]
          let open1 := tables.filter (mayRead s o)
          let s := forEach open1 (fun s r => eccRead s r.1 r.2 ecc rdCommand 258) s
          let entries := fun a n => if mayRead s o (a, 32 * n) then entries32 s o a n else []
          let ms := (entries (leAt h 16 8) mc).map matrixOf
          let ts := (entries (leAt h 24 8) tc).map tileEntryOf
          let rs := (loadRanges mode ms ts).filter (mayRead s o)
          let s := forEach rs (fun s r => eccRead s r.1 r.2 ecc rdCommand 258) s
          let none1 : MatrixEntry := { k := 0, n := 0, scales := 0, tag := 0, seam := 0, clean := true }
          let keep := bit (byteAt h 7) 0
          let bs := ts.map (fun e => if mode = 3 then { owner := o }
            else bindingOf s o (keep || mode == 2) (ms.getD e.matrix none1) e)
          let es := ts.map (fun t => (t.group, t.logical))
          if (open1 ++ rs).any (fun r => poisonedIn s r.1 r.2) then complete s i stMemError
          else
            let code := loadCode s o mode ms ts bs (open1.length == tables.length)
            if code ≠ 0 then complete s i code
            else if mode = 1 then
              let heads := (ts.zip bs).filter (fun x => !(x.2.seam && x.1.logical % 2 == 1))
              acceptLive s i o keep es bs (heads.map (fun x => (x.1.group, x.1.logical, x.2.seam)))
            else
              let rc := if mode = 2 then resumeCode s o ts bs else 0
              if rc ≠ 0 then complete s i rc else acceptLoad s i o mode keep es bs []

/-- The job or jobs that an entry of a command begins as (R161, R170, R174, R180, R181, R643). A RESUME entry whose physical tile is retired
programs nothing (R171): the logical tile is bound again and counts as unavailable (log entry 75). -/
def enterJob (x : Load) (s : State) (e : Nat × (Nat × Nat) × Binding) : State :=
  let g := e.2.1.1
  let l := e.2.1.2
  let b := e.2.2
  let lost := fun k => (getTg s g).unavailable.contains k
  let s := if x.mode = 0 ∧ !x.isSeal then dropLoadRec s g l else s
  if x.mode = 3 ∧ lost l then
    unbindErased s g l
  else if x.mode = 2 ∧ retiredState (getTile s (physicalOf s g l)).state then
    setBinding (modLoad s x.no (fun x => { x with unavailable := x.unavailable + 1 })) g l (some b)
  else if x.mode = 0 ∧ (lost l ∨ (b.seam ∧ lost (if l % 2 = 0 then l + 1 else l - 1))) then
    if b.seam ∧ l % 2 = 1 then s
    else
      let up := (x.entries.zip x.binds).filter (fun y => b.seam && y.1 == (g, l + 1))
      relieve s 4 x.no true g ((l, b) :: up.map (fun y => (y.1.2, y.2)))
  else
    let tile := if x.mode = 1 then x.targets.getD e.1 0 else physicalOf s g l
    { s with jobs := s.jobs ++ [{ no := x.no, kind := x.mode, group := g, logical := l, tile := tile, bind := b }] }

/-- The waiting command that starts next (R163): the first to arrive, one of Port A first among those of its SCLK cycle. -/
def nextLoad (s : State) : Option Load :=
  let waiting := s.loads.filter (fun x => !x.started)
  match waiting with
  | [] => none
  | x :: _ => (waiting.find? (fun y => y.came == x.came && !y.port)).orElse (fun _ => some x)

/-- LOAD_WEIGHTS_START (R163): the first waiting command starts when fewer than 4 are in progress. -/
def execLoadWeightsStart (s : State) : Out :=
  .next <|
    if 4 ≤ (s.loads.filter (·.started)).length then s
    else match nextLoad s with
      | none => s
      | some x =>
        let s := modLoad s x.no (fun x => { x with started := true })
        startJobs (forEach (indexed (x.entries.zip x.binds)) (enterJob x) s)

/-- The jobs of a command whose owner's key is gone, or of that owner's retirements, are given up (R179). -/
def giveUp (s : State) (p : Job → Bool) : State :=
  forEach (s.jobs.filter p) (fun s j =>
    let s := dropJob s j.tile
    if (j.kind = 1 ∨ j.kind = 4) ∧ j.tile < 69632 then freeRelief s j.tile else s) s

/-- A command has nothing left to do (R162, R170, R176). -/
def loadDone (s : State) (x : Load) : Bool :=
  x.keyGone || !s.jobs.any (fun j => j.no == x.no && (j.kind == 1 || j.kind == 4 || decide (j.phase < 2)))

/-- LOAD_WEIGHTS_COMPLETE (R162, R170, R179): command `load` completes with OK, OK_RELIEVED, UNAVAILABLE or KEY_DESTROYED and its
counts, and lets go of its tiles. -/
def execLoadWeightsComplete (load : BitVec 32) (s : State) : Out :=
  .next <|
    match s.loads.find? (fun x => x.no == load.toNat && x.started) with
    | none => s
    | some x =>
      if !loadDone s x then s
      else
        let s := if x.keyGone then giveUp s (fun j => j.no == x.no) else s
        let s := startJobs { s with loads := s.loads.filter (fun y => y.no != x.no), jobs := s.jobs }
        complete s (issuerOf x.port { fn := x.fn, pair := x.pair, cid := x.cid })
          (if x.keyGone then 0x20 else if x.unavailable ≠ 0 then 2 else if x.relieved ≠ 0 then 1 else 0)
          (leBytes 4 x.programmed ++ leBytes 4 x.relieved ++ leBytes 4 x.unavailable)

/-! ### Retirement, live swap, unbinding -/

/-- A trigger of R169 stands for a tile: a dead converter, a second CHECK_PERSIST, or a failed assay that asked for it. -/
def retireDue (s : State) (i : Nat) : Bool :=
  let t := getTile s i
  t.dead != 0 || t.retireAsked || decide (2 ≤ t.persist)

/-- TILE_RETIRE (R169-R171, R642): firmware has a tile retired. One that serves a logical tile is relieved from its master copy, read with
the errors `ecc`; a live or relief target gives way to the next; a tile of an ERASE is erased by its retirement, and its logical tile unbound; a
relief tile or vacated tile not in service is retired at once. -/
def execTileRetire (group : BitVec 6) (tile : BitVec 11) (ecc : List (Nat × Bool)) (s : State) : Out :=
  .next <|
    let g := group.toNat
    let i := tileIx g tile.toNat
    if 1088 ≤ tile.toNat ∨ !retireDue s i ∨ (retiredState (getTile s i).state ∧ !(getTile s i).vacated) then s
    else match s.jobs.find? (fun j => j.tile == i && (j.kind == 1 || j.kind == 4)) with
      | some j => boundaryNow (startJobs (failTarget s j))
      | none =>
        match servedBy s i with
        | some l =>
          if s.jobs.any (fun j => j.group == g && j.logical == l && j.kind == 4) then s
          else
            let own := s.jobs.find? (fun j => j.tile == i && decide (j.kind ≤ 3))
            let b := (own.map (·.bind)).getD (lastBinding s g l)
            let s := forEach (pairWith s g l b) (fun s x => if x.2.bound && extentsGranted s x.2.owner x.2.block 131072 then
                eccRead s x.2.block 131072 ecc rdFirmware 0xFFFF else s) s
            boundaryNow (startJobs (match own with
              | some j => failJob s j
              | none => failInPlace s 0 g l b))
        | none => match s.jobs.find? (fun j => j.tile == i && decide (6 ≤ j.kind)) with
          | some j => startJobs (failJob s j)
          | none => if (getTile s i).state = 5 then s else retireTile s i 1

/-- One logical tile of a LIVE command moves to its target (R176); the retired tile of an unavailable logical tile is not vacated (R171). A
vacated relief tile becomes free (log entry 105). -/
def swapLive (x : Load) (s : State) (j : Job) : State :=
  let g := j.group
  let old := physicalOf s g j.logical
  let s := { s with jobs := s.jobs.filter (fun k => k.tile != j.tile) }
  let s := if retiredState (getTile s old).state then s
    else if old % 1088 < 1024 then modTile s old (fun t => { t with state := 1, vacated := true }) else freeRelief s old
  let s := if j.tile % 1088 < 1024 then modTile s j.tile (fun t => { t with state := 0, vacated := false })
    else setRelief s g (j.tile % 1088 - 1024) { state := 1, seam := j.bind.seam, logical := j.logical } 3
  let s := setBinding s g j.logical (some j.bind)
  let s := if x.isSeal then s else dropLoadRec s g j.logical
  raiseEvent s (pgTg g) 0x08 (info [(2, j.logical), (2, (if j.tile % 1088 < 1024 then old else j.tile) % 1088), (1, 2)])

/-- A LIVE command has every target ready, so that its swaps take effect at this boundary (R176). -/
def liveReady (s : State) (x : Load) : Bool :=
  let js := s.jobs.filter (fun j => j.no == x.no && j.kind == 1)
  x.started && x.mode == 1 && !x.keyGone && !js.isEmpty && js.all (fun j => j.phase == 4)

/-- LIVE_SWAP (R176): at a beat boundary with every target of the command ready, all its swaps take effect together. -/
def execLiveSwap (load : BitVec 32) (s : State) : Out :=
  .next <|
    match s.loads.find? (fun x => x.no == load.toNat && x.started && x.mode == 1 && !x.keyGone) with
    | none => s
    | some x =>
      if s.sq.live.isSome || !liveReady s x then s
      else showSeams (forEach (s.jobs.filter (fun j => j.no == x.no && j.kind == 1)) (swapLive x) s)

/-- TILE_UNBIND (R179): at a beat boundary the tiles of every owner whose key was destroyed become unbound, and programming for such an
owner is given up. -/
def execTileUnbind (s : State) : Out :=
  .next <|
    if s.sq.live.isSome then s
    else
      let s := giveUp (forEach s.unbinding unbindOwner s) (fun j => s.unbinding.contains j.bind.owner && !s.loads.any (fun x => x.no == j.no))
      { s with unbinding := [] }

end Sys2Proof.Machine
end

