-- ==== Sys2Proof/Machine/Beats.lean ====
section
/-! DEFINITION. Beats: their start and the draw buffers, everything a device does at their end, the group registers that take effect there,
and repair training (R77-R81, R85, R94, R96, R133-R137, R143-R156, R175, R194, R212, R257-R260, R310, R325-R327, R557). -/

namespace Sys2Proof.Machine

/-! ### The round's clock and its positions -/

/-- Tick of the round in progress (R258, R622). -/
def roundTick (s : State) : Nat := 8 * (rtb s - s.sq.roundRtb.toNat) + (s.clock + s.power.rtbPhase) % 16 / 2

/-- A position of this device's record. -/
def posAt (s : State) (p : Nat) : Option Pos := (ownRec s).positions[p]?

/-- Ring positions of a channel in a layout of the active plan. -/
def channelOf2 (s : State) (li c : Nat) : List Nat := ((activePlan s).map (fun q => channelDevices q li c)).getD []

/-- This device is the last of a channel in a layout (R325). -/
def lastOfChannel (s : State) (li c : Nat) : Bool := (channelOf2 s li c).getLast? == some (ownPosition s)

/-- This device is the first of a channel in a layout (R645). -/
def firstHere (s : State) (li c : Nat) : Bool := (channelOf2 s li c).head? == some (ownPosition s)

/-- Kind of a layout of the active plan (R263). -/
def layoutKind (s : State) (li : Nat) : Nat := ((activePlan s).map (fun q => (q.layouts.getD li {}).kind)).getD 0

/-! ### Draw buffers (R325-R327) -/

/-- The parameter block (R326). -/
def paramBlock (r : RunAssign) (t : Stream) : List Word32 :=
  let c := t.set
  let w := fun (n : Nat) => BitVec.ofNat 32 n
  [w (r.stream + 65536 * ofBool (c.temperature == 0)), w r.firstPos, c.temperature, c.topP, w c.topK, w r.k,
    w r.vectors] ++ List.replicate 57 0

/-- Draw block of a position of a stream (R327): 64 words of the DRBG's output. -/
def drawBlock (t : Stream) (sid p : Nat) : List Word32 :=
  let b := hashDrbg (leBytes 32 ((t.set.seed.getD 0).toNat)) (leBytes 8 p) (leBytes 1 t.owner ++ leBytes 2 sid) 256
  (upTo 64).map (fun j => BitVec.ofNat 32 (leAt b (4 * j) 4))

/-- Runs of a position in the round in progress (R312). -/
def runsAt (s : State) (p : Nat) : List RunAssign := s.sq.runs.filter (fun r => r.pos == p && r.round == s.sq.round && r.stream != 0xFFFF)

/-- Fill the draw buffers of a position's streams (R325): one parameter block and a draw block for each vector of a run slot. -/
def fillDraws (s : State) (p : Nat) (x : Pos) : State :=
  let w := ((ownRec s).templates.getD x.template {}).runCap
  let rs := (runsAt s p).filter (fun r => !r.padded)
  let bufs := rs.filterMap (fun r => (getStream s r.stream).map (fun t =>
    (r.stream, paramBlock r t ++ (upTo w).flatMap (fun i => drawBlock t r.stream (r.firstPos + 1 + i)))))
  { s with sq := { s.sq with draws := bufs.foldl (fun d b => tblSet [] d b.1 b.2) [], drawPos := [] } }

/-! ### BEAT_START (R175, R257, R259, R310) -/

/-- Every tile the template shoots, and that serves, is ready (R175). -/
def tilesReady (s : State) (t : Template) : Bool :=
  (tilesUsed (ownRec s) t).all (fun g => !tileServes s g.1 g.2 || (getTile s (physicalOf s g.1 g.2)).ready)

/-- An IDLE_FILL position has a repair template to run: one for whose owner repair is enabled (R150, R260). -/
def repairWanted (s : State) (x : Pos) : Bool :=
  x.role != 2 || (ownRec s).ops.any (fun o => o.template == x.template &&
    (o.adapter.map (·.train)).getD false && (tblGet (false, false) s.sq.repair o.owner).1)

/-- Boundary work that comes before the next beat: tiles to unbind, and LIVE commands whose targets are all ready (R176, R179). -/
def boundaryDue (s : State) : Bool := !s.unbinding.isEmpty || s.loads.any (liveReady s)

/-- A beat of the round may start at a position now: in its layout, once, at its tick or later if it waited for a tile, while no other
beat runs and no halt stands. -/
def beatDue (s : State) (p : Nat) (x : Pos) : Bool :=
  s.sq.live.isNone && s.sq.state == 4 && !s.sq.emptyRound && s.cx.state != 5 && x.layout == s.sq.layout && !s.sq.ended.contains p
    && (s.clock + s.power.rtbPhase) % 2 == 0
    && (roundTick s == x.p || (s.sq.beatHeld == some p && roundTick s % 8 == 0)) && repairWanted s x && !boundaryDue s

/-- The beat at a position begins (R310): the count increments, the replay index of the position applies, and what an earlier beat left
of posts, drives, saturated pairs and windows is gone. -/
def openBeat (s : State) (p : Nat) (x : Pos) : State :=
  let t := (ownRec s).templates.getD x.template {}
  let rho := tblGet 0 s.sq.rho p
  let n := s.sq.beatCount + 1
  let live : Live := { pos := p, template := x.template, rho := rho, muStart := s.sq.mu }
  let runs := s.sq.runs.map (fun r => if r.pos = p ∧ (getSlot s r.owner).kStack = 0 ∧ r.owner ≠ 0 then { r with padded := true } else r)
  let orig := if rho = 0 ∧ s.sq.verdict ≠ 2 then tblSet 0 s.sq.origBeat p n.toNat else s.sq.origBeat
  { s with beatTiles := s.tiles, beatTgs := s.tgs, sq := { s.sq with
    live := some live, runs := runs, beatCount := n, origBeat := orig, beatHeld := none, beatTemplate := x.template, beatLen := t.len
    drive := [], driveMask := [], driveZero := [], driveFetch := [], satQueue := [] } }

/-- A beat that waited for a tile starts now, and the rest of the device's round keeps its ticks to it (R175, R303; log entry 109). -/
def shiftRound (s : State) (x : Pos) : State :=
  if roundTick s = x.p then s
  else { s with sq := { s.sq with roundRtb := s.sq.roundRtb + BitVec.ofNat 64 ((roundTick s - x.p) / 8) } }

/-- BEAT_START: tick 0 of the beat at position-table index `pos` (R257, R310). A beat that would shoot a tile that is not ready waits
(R175). -/
def execBeatStart (pos : BitVec 16) (s : State) : Out :=
  .next <|
    let p := pos.toNat
    match posAt s p with
    | none => s
    | some x =>
      if !beatDue s p x then s
      else if !tilesReady s ((ownRec s).templates.getD x.template {}) then
        if x.role = 2 then s else { s with sq := { s.sq with beatHeld := some p } }
      else
        let s := biasTick (openBeat (shiftRound s x) p x) 0
        if x.role ≠ 2 ∧ lastOfChannel s x.layout x.channel then fillDraws s p x
        else { s with sq := { s.sq with draws := [], drawPos := [] } }

/-! ### Adaptive ranges at the boundary (R79, R80) -/

/-- A range code changes, with event 0x0C (R79, R90). -/
def rangeTo (s : State) (g : Nat) (o : OpDesc) (c cause : Nat) : State :=
  let a := tblGet {} s.sq.ops (opKey g o)
  if a.code = c then s
  else
    let ops := tblSet {} s.sq.ops (opKey g o) { a with code := c }
    raiseEvent { s with sq := { s.sq with ops := ops } } (pgTg g) 0x0C (info [(2, o.tag), (1, a.code), (1, c), (1, cause)])

/-- Change the adaptive state of an operation in a group. -/
def modRange (s : State) (g : Nat) (o : OpDesc) (f : OpState → OpState) : State :=
  { s with sq := { s.sq with ops := tblMod {} s.sq.ops (opKey g o) f } }

/-- Adaptive operations of several records, one for each that they share (R78). -/
def adaptiveOps (ds : List DevRec) : List OpDesc :=
  ((ds.flatMap (·.ops)).filter (fun o => o.adaptive && !o.seam)).foldl
    (fun l o => if l.any (fun p => p.tag == o.tag && p.rank == o.rank) then l else l ++ [o]) []

/-- Adaptive operations of every plan of the admitted set (R78, R261). -/
def setAdaptive (s : State) : List OpDesc :=
  match s.sq.planSet with
  | none => []
  | some p => adaptiveOps (p.plans.map (fun q => q.own s))

/-- The run of quiet beats after a beat (R79): one in which the operation did not shoot leaves it, one that saturated or returned a code of
magnitude 128 or more ends it. -/
def OpState.quietNow (a : OpState) : Nat := if !a.shotBeat then a.quiet else if a.satBeat || a.bigBeat then 0 else min 256 (a.quiet + 1)

/-- One adaptive operation of one group at the boundary (R79, R80): a new envelope clips the code, PIN returns it to its admission value,
and else saturation raises it and 256 consecutive quiet beats lower it. The run counts while PIN stands too. After a lowering the 256
beats count anew (log entry 71). -/
def rangeBoundary (g : Nat) (s : State) (o : OpDesc) : State :=
  let t := getTg s g
  let a := tblGet {} s.sq.ops (opKey g o)
  let s := rangeTo s g o (if t.livePin then a.admitted else clip a.code t.liveLo t.liveHi) 3
  let c := (tblGet {} s.sq.ops (opKey g o)).code
  let lower := !t.livePin && a.shotBeat && a.quietNow == 256 && decide (t.liveLo < c)
  let s :=
    if !t.livePin && a.shotBeat && a.satBeat then rangeTo s g o (max c (min (c + 1) t.liveHi)) 1
    else if lower then rangeTo s g o (c - 1) 2
    else s
  modRange s g o (fun b => { b with
    quiet := if lower then 0 else a.quietNow, satBeat := false, bigBeat := false, shotBeat := false })

/-! ### Estimates at the boundary (R134-R137) -/

/-- EST_HOLD (R136, R155). -/
def estHold (s : State) (i kind n : Nat) (v : Word32) : State :=
  let s := raiseEvent s (pgTg (i / 1088)) 0x0D
    (info [(2, i % 1088), (1, kind), (1, min 255 n), (4, v.toNat), (4, s.sq.beatCount.toNat % 2 ^ 32)])
  if n = 4 then startTileCal s i else s

/-- The tile's estimate holds until its calibration completes: a count has reached four (R136). -/
def Tile.held (t : Tile) : Bool := decide (4 ≤ t.holdG) || decide (4 ≤ t.holdO)

/-- Weight of an update from `n` qualifying shots (R134). -/
def estWeight (n : Nat) : Word32 := ratF32 (min n 512 : Nat) 4096

/-- A filter moves towards a value by a weight (R134). -/
def filterStep (x v w : Word32) : Word32 := fAdd x (fMul (fSub v x) w)

/-- |v| is above `num / den` (R136); an infinity is. -/
def magAbove (v : Word32) (num den : Nat) : Bool := (ofF32 v).isInf || decide (num * fpOne < den * (ofF32 v).units.natAbs)

/-- The gain update of a tile (R134, R136); `hold`: the estimate holds, so an update that is not withheld is not applied either. -/
def updateGain (s : State) (i : Nat) (hold : Bool) : State :=
  let t := getTile s i
  if t.nG < 16 then s
  else
    let y := ratF32 (15 * t.accU) t.accV
    let q := fDiv y t.gBar
    if 256 ≤ t.nG ∧ magAbove (fSub q one32) 1 50 then
      estHold (modTile s i (fun t => { t with holdG := t.holdG + 1 })) i 1 (t.holdG + 1) q
    else if hold then s
    else modTile s i (fun t => { t with gBar := filterStep t.gBar y (estWeight t.nG), holdG := if 256 ≤ t.nG then 0 else t.holdG })

/-- The offset update of a tile (R134, R136); `hold` as for the gain. -/
def updateOffset (s : State) (i : Nat) (hold : Bool) : State :=
  let t := getTile s i
  if t.nZ < 16 then s
  else
    let w := ratF32 t.accZ t.nZ
    let d := fSub w t.oBar
    if 256 ≤ t.nZ ∧ magAbove d 2 1 then
      estHold (modTile s i (fun t => { t with holdO := t.holdO + 1 })) i 2 (t.holdO + 1) d
    else if hold then s
    else modTile s i (fun t => { t with oBar := filterStep t.oBar w (estWeight t.nZ), holdO := if 256 ≤ t.nZ then 0 else t.holdO })

/-- The accumulators of a tile are cleared (R134, R137). -/
def clearAccumulators (s : State) (i : Nat) : State := modTile s i (fun t => { t with accZ := 0, nZ := 0, accU := 0, accV := 0, nG := 0 })

/-- The estimate of a tile at a beat boundary (R134-R137): a completed calibration replaces the update; after four withheld updates in
succession the estimate holds until the calibration, while every further update withheld is still counted and reported; the word is
rewritten where a filter changed. -/
def updateEstimate (s : State) (i : Nat) : State :=
  let t := getTile s i
  match t.calNew with
  | some b => applyBaselines s i b
  | none =>
    let s := updateOffset (updateGain s i t.held) i t.held
    let u := getTile s i
    let s := if u.gBar = t.gBar ∧ u.oBar = t.oBar then s
      else modTile s i (fun t => { t with
        gain := gainWord (fDiv (fMul t.gCal t.gammaCal) t.gBar)
        offset := offsetWord (fAdd t.oCal (fMul 0x41800000 (fSub t.oBar t.omegaCal))), estRtb := s.power.rtb.setWidth 32 })
    clearAccumulators s i

/-- Tiles that leave service at this boundary: their estimates stay (R137). -/
def leavingTiles (s : State) : List Nat :=
  (s.jobs.filter (fun j => (j.kind == 4 && j.phase == 4 && !s.jobs.any (fun k => j.partnerOf k && k.phase != 4)) ||
    (j.kind == 1 && s.loads.any (fun x => x.no == j.no && liveReady s x)))).map (fun j => physicalOf s j.group j.logical)

/-! ### The replay decision (R144-R146) -/

/-- The jump that events 0x30 and 0x31 report: the lowest layer that jumped, its q for the lowest vector, its watch core (R156). -/
def reportedJump (s : State) (l : Live) : Option (Nat × Word32 × Nat) :=
  let js := l.nwQ.filter (·.2.2.1)
  match js with
  | [] => none
  | j :: _ =>
    let layer := js.foldl (fun m e => min m e.1) j.1
    let vec := (js.filter (fun e => e.1 == layer)).foldl (fun m e => min m e.2.1) 255
    let q := ((js.find? (fun e => e.1 == layer && e.2.1 == vec)).map (·.2.2.2)).getD 0
    some (layer, q, (((liveTemplate s).watches.find? (fun w => w.layer == layer)).map (·.core)).getD 0)

/-- Causes of a required replay (R144, R156): bit 0 jump, 1 check failure, 2 non-finite result. -/
def replayCause (l : Live) : Nat := ofBool (l.nwQ.any (·.2.2.1)) + 2 * ofBool l.checkFail + 4 * ofBool l.nonFinite

/-- Event 0x30 or 0x31 (R156). With no layer that jumped, its q and its mean are not stated: free values (log entry 34). -/
def replayEvent (s : State) (l : Live) (code rho : Nat) : State :=
  let n := tblGet 0 s.sq.origBeat l.pos % 2 ^ 32
  match reportedJump s l with
  | some (layer, q, core) => raiseEvent s (pgCc core) code
      (info [(4, n), (1, rho), (1, replayCause l), (2, layer), (4, q.toNat), (4, (tblGet 0 l.muStart layer).toNat)])
  | none =>
    let f := draw s
    let g := draw f.2
    raiseEvent g.2 (pgCc 0) code (info [(4, n), (1, rho), (1, replayCause l), (2, 0xFFFF), (4, f.1), (4, g.1)])

/-- The replay limit of the admitted set (R141, R261). -/
def replayMax (s : State) : Nat := (s.sq.planSet.map (·.replayMax)).getD 0

/-- The decision at the end of a beat (R144-R146): replay, exhausted, or results that may be accepted, whose q are kept (R143). -/
def decideReplay (s : State) (l : Live) : State :=
  if replayCause l = 0 then
    { s with sq := { s.sq with roundQ := s.sq.roundQ ++ l.nwQ.map (fun e => (l.pos, e.1, e.2.1, e.2.2.1, e.2.2.2)) } }
  else if l.rho < replayMax s then
    replayEvent { s with sq := { s.sq with replaying := s.sq.replaying ++ [l.pos] } } l 0x30 (l.rho + 1)
  else replayEvent { s with sq := { s.sq with exhausted := s.sq.exhausted ++ [l.pos] } } l 0x31 (replayMax s)

/-! ### BEAT_END -/

/-- A core still executing at the end of the beat freezes with fault 0x18 (R212). -/
def overrunCore (s : State) (c : Nat) : State :=
  let k := getCore s c
  if k.active && !coreFrozen s c then freezeCore s c 0x18 k.pc else s

/-- A core at the end of a beat: its ACC_OVF report (R194, R214), and no launch left waiting. -/
def coreBoundary (s : State) (c : Nat) : State :=
  let k := getCore s c
  let s := if k.accOvfBeat = 0 then s
    else raiseEvent s (pgCc c) 0x04 (info [(4, k.accOvfBeat), (4, s.sq.beatCount.toNat % 2 ^ 32)])
  modCore s c (fun k => { k with accOvfBeat := 0, launchWait := [], sitOut := false })

/-- A group at the end of a beat: CLIP (R77), the count of reserved slots used (R93), its registers taking effect (R80, R96; a write
between two beats takes effect at the end of the next, log entry 72). -/
def groupBoundary (s : State) (g : Nat) : State :=
  let t := getTg s g
  let s := match t.firstClip with
    | some (tag, l, p) => raiseEvent s (pgTg g) 0x04
        (info [(4, t.clipsBeat), (2, tag), (2, l), (2, p), (2, 0), (4, s.sq.beatCount.toNat % 2 ^ 32)])
    | none => s
  let s := modTg s g (fun t => { t with
    clipsBeat := 0, firstClip := none, reshotBeat := min 255 t.reshotNow, reshotNow := 0
    livePin := t.pin, liveHi := t.fsrHi, liveLo := t.fsrLo, liveTol := t.tol })
  forEach (setAdaptive s) (rangeBoundary g) s

/-- Everything the device does at the end of a beat (R77-R81, R85, R134-R137, R143-R146, R194, R212). -/
def closeBeat (s : State) (l : Live) : State :=
  let s := forEach (upTo 256) overrunCore s
  let s := forEach (upTo 256) coreBoundary s
  let s := forEach (upTo 64) groupBoundary s
  let leaving := leavingTiles s
  let s := forEach (s.tiles.map (·.1)) (fun s i => if leaving.contains i then clearAccumulators s i else updateEstimate s i) s
  let l := (s.sq.live).getD l
  let s := decideReplay s l
  let s := boundaryJobs { s with tiles := tblMap {} (fun _ t => { t with bias := 0 }) s.tiles }
  let faults := if l.fault = 0 then s.sq.faultPos else s.sq.faultPos ++ [(l.pos, l.fault, s.sq.beatCount.toNat % 2 ^ 32)]
  { s with sq := { s.sq with
    live := none, ended := s.sq.ended ++ [l.pos], faultPos := faults, beatTemplate := 0xFF, beatLen := 0, draws := [], drawPos := [] } }

/-- BEAT_END: the end of the beat in execution, L ticks after its start (R144, R212, R257). -/
def execBeatEnd (s : State) : Out :=
  .next (match s.sq.live with
    | some l => if l.cycle < 2 * (liveTemplate s).len then s else closeBeat s l
    | none => s)

/-! ### Group registers (R94, R96, R557) -/

/-- A write of TG_FSR_DEFAULT (R94): FSR_LO above FSR_HI, or either above 3, discards it whole. It acts from the next beat boundary
(R80). -/
def writeFsr (s : State) (g v : Nat) : State :=
  let hi := bits v 4 4
  let lo := bits v 0 4
  if hi < lo ∨ 3 < hi then s else modTg s g (fun t => { t with pin := bit v 31, fsrHi := hi, fsrLo := lo })

/-- TG_FSR_DEFAULT (R80, R94). -/
def execTgFsrDefault (a : Accessor) (group : BitVec 6) (value : BitVec 32) (s : State) : Out :=
  .next (if mayWrite s a (pgTg group.toNat) && a != .mgmt then writeFsr s group.toNat value.toNat else s)

/-- A write of TG_CHECK_TOL (R96): a TOL outside 1-63 is discarded. -/
def writeTol (s : State) (g v : Nat) : State :=
  let t := bits v 0 8
  if t = 0 ∨ 63 < t then s else modTg s g (fun x => { x with tol := t })

/-- TG_CHECK_TOL (R96). -/
def execTgCheckTol (a : Accessor) (group : BitVec 6) (value : BitVec 32) (s : State) : Out :=
  .next (if mayWrite s a (pgTg group.toNat) && a != .mgmt then writeTol s group.toNat value.toNat else s)

/-- A write of word `w` (0-15) of a tile's record in the calibration window (R30, R557): only the four baselines, only while no plan set
is admitted and the TG page is not locked. They serve from the next estimate update. -/
def writeCalWindow (s : State) (i w : Nat) (v : BitVec 32) : State :=
  if planAdmitted s ∨ (getHdr s (pgTg (i / 1088))).lock ∨ 69632 ≤ i then s
  else modTile s i (fun t => match w with
    | 0 => { t with gCal := v }
    | 1 => { t with oCal := v }
    | 2 => { t with gammaCal := v }
    | 3 => { t with omegaCal := v }
    | _ => t)

/-- CAL_WINDOW_WRITE (R30, R557): `tile` is the global index, `word` the 4-byte word of its record. -/
def execCalWindowWrite (a : Accessor) (tile : BitVec 17) (word : BitVec 4) (value : BitVec 32) (s : State) : Out :=
  .next (if mayWrite s a (pgTg (tile.toNat / 1088)) && a != .mgmt then writeCalWindow s tile.toNat word.toNat value else s)

/-! ### Adapters and repair (R148-R156) -/

/-- Split a list into rows of `n`. -/
def chunks {α : Type} (n : Nat) : Nat → List α → List (List α)
  | 0, _ => []
  | k + 1, l => l.take n :: chunks n k (l.drop n)

/-- BF16 widened to FP32. -/
def bf16To32 (x : BitVec 16) : Word32 := BitVec.ofNat 32 (x.toNat * 65536)

/-- FP32 rounded to BF16 (R104). -/
def to16 (x : Word32) : BitVec 16 := BitVec.ofNat 16 (convert fmtFP32 fmtBF16 x.toNat)

/-- `n` BF16 values in memory under an owner's key. -/
def bf16At (s : State) (o a n : Nat) : List (BitVec 16) :=
  let b := readUnder s (stackKey s o) a (2 * n)
  (upTo n).map (fun j => BitVec.ofNat 16 (leAt b (2 * j) 2))

/-- A compensated sum of terms (R124). -/
def kSumOf (l : List Word32) : Word32 := kFinish (kReduce (zero32, zero32) l)

/-- Compensated inner product (R149). -/
def kDot (a b : List Word32) : Word32 := kSumOf (List.zipWith fMul a b)

/-- A matrix of rows applied to a vector (R149). -/
def applyRows (m : List (List Word32)) (x : List Word32) : List Word32 := m.map (fun r => kDot r x)

/-- Transpose of a matrix with rows of length `n`. -/
def transpose (n : Nat) (m : List (List Word32)) : List (List Word32) := (upTo n).map (fun j => m.map (fun r => r.getD j 0))

/-- Sum over inputs of outer products, element by element in ascending input order (R152). -/
def outerSum (gs zs : List (List Word32)) (rows cols : Nat) : List (List Word32) :=
  (upTo rows).map (fun n => (upTo cols).map (fun j => kSumOf (List.zipWith (fun g z => fMul (g.getD n 0) (z.getD j 0)) gs zs)))

/-- floor(log2) of a positive finite magnitude in units of 2^-149, as an exponent (R153). -/
def log2Units (u : Nat) : Int := (Nat.log2 u : Int) - 149

/-- A word scaled by a power of two and encoded in E5M2, and decoded back (R153). -/
def viaE5M2 (k : Int) (x : Word32) : Word32 :=
  let v := ofF32 x
  let scaled : Nat := match v with
    | .fin neg m => if k < 0 then fmtE5M2.encodeRat neg (m * 2 ^ k.natAbs) fpOne else fmtE5M2.encodeRat neg m (fpOne * 2 ^ k.natAbs)
    | w => fmtE5M2.encode w
  match fmtE5M2.decode scaled with
  | .fin neg m => BitVec.ofNat 32
      (if k < 0 then fmtFP32.encodeRat neg m (fpOne * 2 ^ k.natAbs) else fmtFP32.encodeRat neg (m * 2 ^ k.natAbs) fpOne)
  | w => toF32 w

/-- A gradient matrix through its E5M2 encoding with one shared exponent (R153); amax is taken over the finite elements (log entry 79). -/
def gradient (g : List (List Word32)) : List (List Word32) :=
  let amax := (g.flatMap id).foldl (fun m x => max m (ofF32 x).units.natAbs) 0
  if amax = 0 then g.map (fun r => r.map (fun x => if (ofF32 x).isFin then zero32 else x))
  else g.map (fun r => r.map (viaE5M2 (log2Units amax - 14)))

/-- Subtract a scaled gradient from a shadow, element by element (R152). -/
def descend (c : Word32) (m g : List (List Word32)) : List (List Word32) :=
  List.zipWith (fun a b => List.zipWith (fun x y => fSub x (fMul c y)) a b) m g

/-- Sum over held-out inputs of |e - B(A h)|^2 (R152). -/
def repairLoss (a b : List (List Word32)) (hs es : List (List Word32)) : Word32 :=
  kSumOf (List.zipWith (fun h e =>
    kSumOf ((List.zipWith fSub e (applyRows b (applyRows a h))).map (fun x => fMul x x))) hs es)

/-- A vector of the probe set (R268). -/
def probeVector (s : State) (o : OpDesc) (x : AdapterDesc) (i : Nat) : List Word32 :=
  let b := readUnder s (stackKey s o.owner) (x.probe + 4 * o.k * i) (4 * o.k)
  (upTo o.k).map (fun j => BitVec.ofNat 32 (leAt b (4 * j) 4))

/-- Served A and B of an adapter (R148, R268). -/
def servedPair (s : State) (o : OpDesc) (x : AdapterDesc) : List (BitVec 16) × List (BitVec 16) :=
  (bf16At s o.owner x.a (x.rank * o.k), bf16At s o.owner x.b (o.n * x.rank))

/-- The core that holds column 0 of an operation (R154, R188). -/
def columnZeroCore (s : State) (i : Nat) : Nat :=
  let d := ownRec s
  let xs := d.templates.flatMap (fun t => t.shots.filter (fun x => x.op == i && shotCol s x == 0))
  4 * ((xs.head?.map (·.group)).getD 0)

/-- Change an adapter's state. -/
def modAdapter (s : State) (tag : Nat) (f : AdapterState → AdapterState) : State :=
  { s with sq := { s.sq with adapters := tblMod {} s.sq.adapters tag f } }

/-- One repair round (R152-R154) from its training inputs, its held-out inputs and their residuals. -/
def repairRound (s : State) (i : Nat) (o : OpDesc) (x : AdapterDesc) (xs es hs eh : List (List Word32)) : State :=
  let st := tblGet {} s.sq.adapters o.tag
  let sv := servedPair s o x
  let a := chunks o.k x.rank (sv.1.map bf16To32)
  let b := chunks x.rank o.n (sv.2.map bf16To32)
  let zs := xs.map (applyRows a)
  let gs := List.zipWith (fun z e => List.zipWith fSub (applyRows b z) e) zs es
  let gb := gradient (outerSum gs zs o.n x.rank)
  let ga := gradient (outerSum (gs.map (applyRows (transpose x.rank b))) xs x.rank o.k)
  let c := fDiv x.eta (intF32 (2 ^ x.logM : Nat))
  let b2 := descend c (chunks x.rank o.n st.shadowB) gb
  let a2 := descend c (chunks o.k x.rank st.shadowA) ga
  let ca := a2.map (fun r => r.map to16)
  let cb := b2.map (fun r => r.map to16)
  let cur := repairLoss a b hs eh
  let new := repairLoss (ca.map (fun r => r.map bf16To32)) (cb.map (fun r => r.map bf16To32)) hs eh
  if !(ofF32 cur).isNan && !(ofF32 new).isNan && !Fp.lt (ofF32 cur) (ofF32 new) then
    modAdapter s o.tag (fun t => { t with
      staged := true, eligible := false, lossNew := new, lossCur := cur, unstaged := 0, shadowA := a2.flatMap id, shadowB := b2.flatMap id
      stagedA := ca.flatMap id, stagedB := cb.flatMap id })
  else if st.unstaged + 1 < 16 then modAdapter s o.tag (fun t => { t with unstaged := t.unstaged + 1 })
  else
    let s := modAdapter s o.tag (fun t => { t with unstaged := 0, shadowA := sv.1.map bf16To32, shadowB := sv.2.map bf16To32 })
    raiseEvent s (pgCc (columnZeroCore s i)) 0x33 (info [(2, o.tag), (4, st.version.toNat)])

end Sys2Proof.Machine
end

