-- ==== Sys2Proof/Machine/Plans.lean ====
section
/-! DEFINITION. Plan sets: admission, the checker's verdict, what admission does to the device, retirement, and the passes of the
boundary steps while no set is admitted (R78, R143, R152, R213, R264, R283-R286, R296, R299, R358, R360, R367, R521, R640, R646). -/

namespace Sys2Proof.Machine

/-! ### Refusal and rejection (R283, R284, R309, R311) -/

/-- Rejection code STATE. -/
def rejState : Nat := 0x17

/-- The device records a rejection and raises event 0x05 (R284, R309, R311). -/
def reject (s : State) (e : PErr) (model : Nat) : State :=
  let p := ownPosition s
  let v := 2 ^ 31 + field 24 4 e.2.1 + field 16 6 p + field 8 8 e.2.2.1 + e.1
  raiseEvent { s with sq := { s.sq with rejectCode := BitVec.ofNat 32 v } } pgSq 0x05
    (info [(1, e.1), (1, e.2.1), (1, p), (1, e.2.2.1), (4, e.2.2.2), (8, model)])

/-- RESULT of a PLAN_ADMIT that was rejected (R461): rejecting position, plan, list, entry. -/
def rejectResult (p : Nat) (e : PErr) : List Byte :=
  leBytes 1 p ++ leBytes 1 e.2.1 ++ leBytes 1 e.2.2.1 ++ leBytes 1 0 ++ leBytes 4 e.2.2.2

/-- MODEL_ID field of an image in memory (R261). -/
def modelAt (s : State) (addr : Nat) : Nat × State :=
  if extentsGranted s 0 (addr + 8) 8 then
    let s := eccRead s (addr + 8) 8 [] rdCommand 258
    (ofLe (readForFirmware s (stackKey s 0) (addr + 8) 8), s)
  else draw s

/-- Bytes of the image at an address, by its SIZE field (R261). -/
def imageSize (s : State) (key addr : Nat) : Nat := max 256 (min (2 ^ 31) (ofLe (readUnder s key (addr + 16) 8)))

/-- This device may not take a plan set now (R283). -/
def admitBarred (s : State) : Bool :=
  planAdmitted s || s.sq.checking.isSome || s.sq.checked.isSome || s.power.state != .ready || !(s.ri.state == 4 || s.ri.state == 6)
    || decide (3 ≤ level s) || s.cx.hoPending || s.cx.state == 4

/-- PLAN_ADMIT (R283, R284, R461): `membersOk` says that every other device is READY, below CRITICAL and in no handoff. Refused with
code STATE, or else the records go to the devices and the check begins. -/
def execPlanAdmit (i : Issuer) (addr : BitVec 64) (membersOk : Bool) (s : State) : Out :=
  command i 0x30 [addr.toNat] s fun s =>
    let a := addr.toNat
    if !fromHeadPf0 s i then complete s i stNotAllowed
    else if admitBarred s ∨ !membersOk then
      let e : PErr := (rejState, 0, lsHeader, 0)
      let m := modelAt s a
      complete (reject m.2 e m.1) i rejState (rejectResult (ownPosition s) e)
    else
      let key := stackKey s 0
      let n := imageSize s key a
      if !extentsGranted s 0 a 256 || !extentsGranted s 0 a n then complete s i stMemAccess
      else if poisonedIn s a n then complete (eccRead s a n [] rdCommand 258) i stMemError
      else
        let s := { s with sq := { s.sq with checking := some (a, key), admitCmd := some i, state := 2 } }
        broadcast s 0x30 [a] (readUnder s key a n)

/-- The check is over without an admission. -/
def checkOver (s : State) : State := { s with sq := { s.sq with checking := none, admitCmd := none, state := 1 } }

/-- Complete the plan-admit command that waits, if one does. -/
def completeAdmit (s : State) (status : Nat) (result : List Byte) : State :=
  match s.sq.admitCmd with
  | some i => complete s i status result
  | none => s

/-- The rejection of the lowest ring position (R284). -/
def lowestReject : List (Nat × PErr) → Option (Nat × PErr)
  | [] => none
  | e :: es => match lowestReject es with
    | none => some e
    | some f => if f.1 < e.1 then some f else some e

/-- PLAN_CHECK_COMPLETE (R284, R286): this device has checked its record; `others` are the rejections of other positions (position, code,
plan, list, entry), `ecc` the errors met in reading the image (R386). The command completes with the lowest rejecting position's
code, or the set waits for its admission. -/
def execPlanCheckComplete (others : List (BitVec 6 × BitVec 8 × BitVec 8 × BitVec 8 × BitVec 32)) (ecc : List (Nat × Bool)) (s : State) :
    Out :=
  .next <|
    match s.sq.checking with
    | none => s
    | some (a, key) =>
      let size := imageSize s key a
      let s := eccRead s a size ecc rdCommand 258
      if poisonedIn s a size then checkOver (completeAdmit s stMemError [])
      else if isHeadframe s ∧ !extentsGranted s 0 a size then checkOver (completeAdmit s stMemAccess [])
      else
        let r := checkImage s a key
        let p := ownPosition s
        let s := match r.2 with
          | some e => reject s e r.1.modelId.toNat
          | none => s
        let told := others.map (fun o => (o.1.toNat, (o.2.1.toNat, o.2.2.1.toNat, o.2.2.2.1.toNat, o.2.2.2.2.toNat)))
        let own := match r.2 with
          | some e => [(p, e)]
          | none => []
        let s := if isHeadframe s then s else
          sendMessage s 0 0x31 ([p] ++ (match r.2 with
            | some e => [e.1, e.2.1, e.2.2.1, e.2.2.2]
            | none => [0, 0, 0, 0]))
        match lowestReject (own ++ told) with
        | some (q, e) => checkOver (completeAdmit s e.1 (rejectResult q e))
        | none => { s with sq := { s.sq with checking := none, checked := some { r.1 with addr := a } } }

/-! ### What a plan brings (R78, R143, R152, R199, R264, R284) -/

/-- The plan of the lowest bucket (R284). -/
def lowestPlan (ps : PlanSet) : Plan :=
  ps.plans.foldl (fun m q => if q.bucket < m.bucket then q else m) (ps.plans.getD 0 {})

/-- The code of a record is in the cores' instruction memories (R199, R264). -/
def loadCores (s : State) (d : DevRec) : State :=
  forEach (upTo 256) (fun s c =>
    let code := tblGet [] d.binaries c
    modCore s c (fun k => { k with imem := tblSetList 0 [] 0 code, imemLen := code.length })) s

/-- mu of every watched layer at admission (R143): of several watch entries of a layer the first listed gives it (log entry 83). -/
def initialMu (ds : List DevRec) : Tbl Word32 :=
  (ds.flatMap (fun d => d.templates.flatMap (·.watches))).foldr (fun w m => tblSet 0 m w.layer w.muInit) []

/-- Range code of an adaptive operation at admission (R78). -/
def admissionCode (t : Tg) (o : OpDesc) : Nat := clip (o.range + t.derate) t.fsrLo t.fsrHi

/-- Range codes of every adaptive operation in every group at admission (R78). -/
def initialRanges (s : State) (ds : List DevRec) : Tbl OpState :=
  (adaptiveOps ds).foldl (fun m o => (upTo 64).foldl (fun m g =>
    tblSet {} m (opKey g o) { code := admissionCode (getTg s g) o, admitted := admissionCode (getTg s g) o }) m) []

/-- State of every adapter at admission (R148, R152): its initial version, shadows equal to the served copies. -/
def initialAdapters (s : State) (ds : List DevRec) : Tbl AdapterState :=
  (ds.flatMap (·.ops)).foldl (fun m o => match o.adapter with
    | some x =>
      let sv := servedPair s o x
      tblSet {} m o.tag { version := x.version, shadowA := sv.1.map bf16To32, shadowB := sv.2.map bf16To32 }
    | none => m) []

/-- Layer slots of a device: one more than the largest LAYER its selectors name (R316). -/
def layerSlots (ds : List DevRec) : Nat :=
  (ds.flatMap (fun d => d.templates.flatMap (fun t => (t.dmas.filter (fun x => x.mode == 1 && decide (kvSpan x.addr < 2))).map
    (fun x => kvLayer x.addr + 1)))).foldl max 0

/-- KV geometry of one ring position of a set: H, d, format, layer slots (R316, R367). -/
def geometryAt (ps : PlanSet) (p : Nat) : List Nat :=
  let ds := ps.plans.map (fun q => q.recs.getD p {})
  match ds.flatMap kvGeoms with
  | [] => [0, 0, 0, 0]
  | g :: _ => [g.1, g.2.1, ofBool g.2.2, layerSlots ds]

/-- Streams that an incompatible admission closes (R367): all but those paused in the host tier. -/
def incompatible (s : State) (ps : PlanSet) (geom : List Nat) : List Nat :=
  (streamIds s).filter (fun i => match getStream s i with
    | some t => t.state != 10 && t.state != 6 && (t.modelId != ps.modelId || s.sq.kvGeom != geom)
    | none => false)

/-- The frame pool is divided anew (R358); with another page size no frame and no prefix entry of the old division stays. -/
def divideFrames (s : State) (size : Nat) (same : Bool) : State :=
  if same then s
  else
    let s := { s with ms := { s.ms with pageSize := size, frames := [] }, prefixes := [] }
    forEach (streamIds s) (fun s i => modStream s i (fun t => { t with
      pages := [], copies := [], attach := [], releases := [], awaiting := [] })) s

/-- Streams at an admission (R367, R374): on the headframe the incompatible ones close, with event 0x15; the pool is divided. -/
def admitStreams (s : State) (ps : PlanSet) (geom : List Nat) : State :=
  let hit := if isHeadframe s then incompatible s ps geom else []
  let same := s.sq.kvGeom == geom
  let own := s.sq.admitCmd.map (fun i => (i.port, i.pairKey))
  let s := forEach hit (fun s i => finishClose (wantClose s i (if own = (getStream s i).map (fun t => (t.port, t.pair)) then 1 else 4)) i) s
  let s := if hit = [] then s else raiseEvent s pgSq 0x15 (info [(1, 0), (1, 2), (2, hit.length)])
  divideFrames s (pageBytes (geometryAt ps (ownPosition s))) same

/-! ### PAGE_OWNER, tables and retention at admission (R93, R99, R640, R646) -/

/-- The one owner other than 0 of a list of owners that is not empty. -/
def soleOwner (os : List Nat) : Option Nat :=
  match os with
  | [] => none
  | o :: rest => if o ≠ 0 ∧ rest.all (· == o) then some o else none

/-- Owners of the operations that shoot a tile of a group (R640). -/
def groupOwners (ds : List DevRec) (g : Nat) : List Nat :=
  ds.flatMap (fun d => d.templates.flatMap (fun t => (t.shots.filter (fun x => x.group == g)).map (fun x => (shotOp d x).owner)))

/-- Owners of the operations whose partials reach a core, and of every operation of the templates that launch on it (R640). -/
def coreOwners (s : State) (ds : List DevRec) (c : Nat) : List Nat :=
  ds.flatMap (fun d => (indexed d.templates).flatMap (fun t =>
    (t.2.shots.filter (fun x => (coresOf x.group (shotOp d x).n (shotCol s x)).contains c)).map (fun x => (shotOp d x).owner) ++
    (if t.2.launches.any (fun l => l.core == c) then (d.ops.filter (fun o => o.template == t.1)).map (·.owner) else [])))

/-- PAGE_OWNER of one page: assigned to an owner on the port whose functions hold it, or not valid (R640). -/
def setPageOwner (s : State) (page : Nat) (o : Option Nat) : State :=
  let port := match o.bind (getOwner s) with
    | some w => match w.bound with
      | b :: _ => some b.1
      | [] => w.held.orElse (fun _ => w.home)
    | none => none
  modHdr s page (fun h => match o, port with
    | some o, some p => { h with ownerValid := true, ownerPort := p, ownerId := o }
    | _, _ => { h with ownerValid := false, ownerPort := false, ownerId := 0 })

/-- PAGE_OWNER of every TG and CC page (R640). -/
def setPageOwners (s : State) (ds : List DevRec) : State :=
  let s := forEach (upTo 64) (fun s g => setPageOwner s (pgTg g) (soleOwner (groupOwners ds g))) s
  forEach (upTo 256) (fun s c => setPageOwner s (pgCc c) (soleOwner (coreOwners s ds c))) s

/-- TG_SEQ_STATUS.PLAN of the groups that hold shot lists, SEAM of the tiles joined, group registers in effect (R80, R93, R96, R99). -/
def setTables (s : State) (ds : List DevRec) : State :=
  let s := forEach (upTo 64) (fun s g => modTg s g (fun t => { t with
    plan := !(groupOwners ds g).isEmpty, livePin := t.pin, liveHi := t.fsrHi, liveLo := t.fsrLo, liveTol := t.tol })) s
  markSeams s ds

/-- No plan holds the groups or joins tiles (R93, R99). -/
def clearTables (s : State) : State :=
  let s := forEach (upTo 64) (fun s g => modTg s g (fun t => { t with plan := false })) s
  { s with tiles := tblMap {} (fun _ t => { t with seam := false }) s.tiles }

/-- Extents in a list of ranges. -/
def rangeSize (r : List (Nat × Nat)) : Nat := (r.map (fun x => x.2 - x.1)).sum

/-- Ranges that firmware may take for retention (R377, R646): free, in order and apart, of the size the records ask for. -/
def retentionOk (s : State) (ds : List DevRec) (r : List (Nat × Nat)) : Bool :=
  rangeSize r == ((ds.map (·.retention)).foldl max 0 + 4095) / 4096
    && r.all (fun x => decide (x.1 < x.2) && decide (x.2 ≤ extentCount) && allHeld s.ms.extents x.1 x.2 0)
    && (List.zip r (r.drop 1)).all (fun p => decide (p.1.2 ≤ p.2.1))

/-- Retention is released (R299, R387, R646): its extents become free, a poisoned one poisoned with event 0x08. -/
def releaseRetention (s : State) : State :=
  let s := forEach s.sq.retentionExt (fun s r =>
    let es := ((s.ms.poisoned.map (· / 64)).filter (fun e => r.1 ≤ e && e < r.2)).eraseDups
    forEach es (fun s e => raiseEvent (setExtents s e (e + 1) 258) pgMs 0x08 (info [(8, e * 4096), (1, 2)])) (setExtents s r.1 r.2 0)) s
  { s with sq := { s.sq with retentionExt := [], retention := [] } }

/-! ### PLAN_ADMITTED -/

/-- BUCKETS of SQ_PLAN_STATUS (R306). -/
def bucketMask (ps : PlanSet) : Nat := (ps.plans.map (fun q => 2 ^ q.bucket)).eraseDups.sum

/-- A standing slot at tick 0 (R274): defined where it is not valid, taking the place of what earlier code left in its way. -/
def defineStanding (s : State) (x : Standing) : State :=
  if coreFrozen s x.core then s
  else modCore s x.core (fun k =>
    if (k.slot x.index).valid then k
    else
      let slots := tblMap {} (fun _ d => if d.valid && overlap d.base d.size x.base (2 ^ x.n) then { d with valid := false } else d) k.slots
      { k with slots := slots }.defSlot x.index x.n x.target x.base)

/-- Standing slots of every core. -/
def defineStandings (s : State) : State := forEach (ownRec s).standing defineStanding s

/-- The set is in force (R284): code, cores, means, ranges, adapters, retention, tables, page owners, streams. -/
def admitSet (s : State) (ps : PlanSet) (ret : List (Nat × Nat)) : State :=
  let s := stepsTwoToFour s s.sq.epoch
  let ds := ownRecs s ps
  let q := lowestPlan ps
  let s := forEach (upTo 256) clearCore (loadCores s (q.own s))
  let s := setTables (setPageOwners s ds) ds
  let geom := (upTo ps.devices).flatMap (geometryAt ps)
  let s := admitStreams s ps geom
  let digest := sha512 (readUnder s (if isHeadframe s then stackKey s 0 else 0) ps.addr ps.size)
  let s := forEach ret (fun s r => setExtents s r.1 r.2 257) s
  let mu := initialMu (q.own s :: ds)
  let ranges := initialRanges s ds
  let adapters := initialAdapters s ds
  let p := pauseJobs (forEach (upTo 64) applyTrims s)
  defineStandings { p with sq := { p.sq with
    planSet := some ps, checked := none, admitCmd := none, state := 3, active := q.bucket, buckets := BitVec.ofNat 10 (bucketMask ps)
    mu := mu, ops := ranges, adapters := adapters, retentionExt := ret, kvGeom := geom, planDigest := digest
    roundsSincePrefill := 64, layout := 0, verdict := 1, round := 0, roundRtb := p.power.rtb, prevRoundRtb := p.power.rtb, epoch := 0
    retiredEpoch := 0, emptyRound := true, roundRan := false, ended := [], rho := [], replaying := []
    exhausted := [], faulted := false, faultPos := [], lossReplay := false, rxStatus := [], statusFor := none, resumeIssued := false
    resumeSlip := false, switchTo := none, retireWanted := 0, steps := [], runs := [], roundQ := [], origBeat := [] } }

/-- A round-start flit leaves INBYE twice, in consecutive flit periods (R288, R420). -/
def sendRoundStart (s : State) : State :=
  if ringCount s ≤ 1 then s
  else
    let q := s.sq
    let f := roundStartFields q.verdict (if q.emptyRound then 0xFF else q.layout) q.current
      (if q.verdict = 4 then q.switchTo.getD 0xFF else 0xFF) q.round q.roundRtb.toNat q.retiredEpoch q.epoch
    sendControl (sendControl s 1 f) 1 f

/-! ### Stretch (R300) -/

/-- A member's status flit of the round. -/
def rx (s : State) (p : Nat) : RxStatus := tblGet {} s.sq.rxStatus p

/-- Ring positions. -/
def members (s : State) : List Nat := upTo (ringCount s)

/-- Largest request of the status flits, with the lowest position that made it. -/
def largestRequest (s : State) : Nat × Nat :=
  (members s).foldl (fun m p => if (rx s p).got && decide (m.1 < (rx s p).stretch) then ((rx s p).stretch, p) else m) (0, 0)

/-- The stretch of the next round (R300), with event 0x0A where it changes (R311). -/
def setStretch (s : State) : State :=
  let r := largestRequest s
  let st := min 60 (max r.1 s.sq.floor)
  let who := if s.sq.floor ≤ r.1 ∧ 0 < r.1 then r.2 else 0xFF
  if st = s.sq.current then s
  else raiseEvent { s with sq := { s.sq with current := st } } pgSq 0x0A
    (info [(1, s.sq.current), (1, st), (1, who)])

/-- PLAN_ADMITTED (R284): no device rejected, so the set comes into force; `retention` are the free extents firmware takes for R646.
The budget was judged with the groups enabled when the check completed (log entry 98). -/
def execPlanAdmitted (retention : List (BitVec 32 × BitVec 32)) (s : State) : Out :=
  .next <|
    match s.sq.checked with
    | none => s
    | some ps =>
      let ret := retention.map (fun r => (r.1.toNat, r.2.toNat))
      if s.sq.live.isSome ∨ !retentionOk s (ownRecs s ps) ret then s
      else
        let cmd := s.sq.admitCmd
        let s := admitSet s ps ret
        let s := raiseEvent s pgSq 0x04 (info [(8, ps.modelId.toNat), (2, bucketMask ps), (1, s.sq.active)])
        let s := match cmd with
          | some i => complete s i stOk (padTo 8 [])
          | none => s
        if isHeadframe s then sendRoundStart (setStretch s) else s

/-! ### Retirement (R299) -/

/-- Steps in flight are discarded (R291, R299): their streams keep the length they had, with no token and no charge. -/
def discardSteps (s : State) : State :=
  let s := forEach s.sq.steps (fun s x => modStream s x.stream (fun t =>
    { t with inFlight := false, length := if x.back && !x.prefill then x.firstPos else t.length })) s
  { s with sq := { s.sq with steps := [], runs := [], recordsIn := [] } }

/-- The set is retired (R299, R640): cores cleared, retention released, no page owner; tiles and bindings stay. -/
def retireSet (s : State) : State :=
  let s := releaseRetention (discardSteps s)
  let s := clearTables (forEach (upTo 256) clearCore s)
  let s := forEach (upTo 64) (fun s g => setPageOwner s (pgTg g) none) s
  let s := forEach (upTo 256) (fun s c => setPageOwner s (pgCc c) none) s
  { s with sq := { s.sq with
    planSet := none, state := 1, active := 15, buckets := 0, verdict := 0, layout := 0, live := none, beatTemplate := 0xFF, beatLen := 0
    haltFault := false, haltCritical := false, haltRetire := false, current := 0, mu := [], ops := [], adapters := [], rho := []
    replaying := [], exhausted := [], faulted := false, faultPos := [], lossReplay := false, rxStatus := [], statusFor := none
    resumeIssued := false, resumeSlip := false, roundRan := false, switchTo := none, retireWanted := 0
    drive := [], driveZero := [], driveMask := [], satQueue := [], roundQ := [], origBeat := [], beatHeld := none, ended := []
    draws := [], drawPos := [], dmaRunning := [], emptyRound := true, planDigest := 0 } }

/-- PLAN_RETIRE (R299, R461): the set is retired at the next round boundary. -/
def execPlanRetire (i : Issuer) (s : State) : Out :=
  command i 0x31 [] s fun s =>
    if !fromHeadPf0 s i then complete s i stNotAllowed
    else if !planAdmitted s then complete s i stNoSet
    else complete { s with sq := { s.sq with retireWanted := if s.sq.retireWanted = 0 then 1 else s.sq.retireWanted } } i stOk

/-- RING_RESUME (R296, R461): it counts from the moment a halt for a fault has begun. -/
def execRingResume (i : Issuer) (s : State) : Out :=
  command i 0x32 [] s fun s =>
    if !fromHeadPf0 s i then complete s i stNotAllowed
    else complete (if s.sq.state = 5 then { s with sq := { s.sq with resumeIssued := true } } else s) i stOk

/-- IDLE_BOUNDARY_PASS (R360): while no set is admitted, steps 2 to 4 run every millisecond of RTB; the commands that wait for a boundary
take effect there (log entry 81), and pauses expire (R371). -/
def execIdleBoundaryPass (s : State) : Out :=
  .next <|
    let ms := rtb s / 100000
    if planAdmitted s ∨ ms = s.sq.lastIdleMs then s
    else
      let s := { s with sq := { s.sq with lastIdleMs := ms, edgeAt := some s.clock, edgeKind := 2 } }
      stepsTwoToFour (if isHeadframe s then expireDue (actCommands s) else s) s.sq.epoch

end Sys2Proof.Machine
end

