-- ==== Sys2Proof/Machine/Assign.lean ====
section
/-! DEFINITION. Which streams may run, the layout of a round and the assignment of its positions, on the headframe (R285, R298, R312, R315,
R330-R336, R350-R352, R356, R359, R362, R436). -/

namespace Sys2Proof.Machine

/-! ### The active plan as the headframe sees it -/

/-- The active plan, or an empty one. -/
def planNow (s : State) : Plan := (activePlan s).getD {}

/-- Positions of the active bucket (R262, R315). -/
def bucketLimit (s : State) : Nat := 2 ^ (11 + s.sq.active)

/-- First layout of a kind (R263). -/
def layoutOf (q : Plan) (kind : Nat) : Option Nat := ((indexed q.layouts).find? (fun l => l.2.kind == kind)).map (·.1)

/-- The first device of a channel (R301, R435). -/
def firstDevice (q : Plan) (c : Nat) : Nat := ((upTo q.recs.length).find? (fun p => firstOfChannel q p c)).getD 0

/-- STEP and BACKFILL positions of a channel on its first device, with their templates. -/
def headPositions (q : Plan) (c : Nat) : List (Nat × Pos × Template) :=
  let d := q.recs.getD (firstDevice q c) {}
  ((indexed d.positions).filter (fun x => x.2.role != 2 && x.2.channel == c)).map (fun x => (x.1, x.2, d.templates.getD x.2.template {}))

/-- Owners that a position of a device serves (R285); none where its template has no operation. -/
def servesOwners (q : Plan) (dev : Nat) (x : Pos) : List Nat :=
  (((q.recs.getD dev {}).ops.filter (fun o => o.template == x.template)).map (·.owner)).eraseDups

/-- The positions through which a run goes on from one position, by the step outputs, at most as many as there are devices (R301). -/
def pathFrom (q : Plan) : Nat → Nat → Nat → List (Nat × Pos)
  | 0, _, _ => []
  | n + 1, dev, p =>
    let d := q.recs.getD dev {}
    let x := d.positions.getD p {}
    (dev, x) :: match (d.templates.getD x.template {}).rings.find? (·.stepOut) with
      | some g => pathFrom q n g.dstDevice g.dstPos
      | none => []

/-- A position and those its runs go on to serve a stream's owner (R285): each has operations of that owner, or none. -/
def serves (q : Plan) (dev p : Nat) (o : Nat) : Bool :=
  (pathFrom q q.recs.length dev p).all (fun e => (servesOwners q e.1 e.2).isEmpty || (servesOwners q e.1 e.2).contains o)

/-- Run capacity of a template. -/
def runCapOf (t : Template) : Nat := max 1 t.runCap

/-! ### The acceptance tracker (R330, R333-R335) -/

/-- SPECULATIVE layouts of a plan with their widths (R330). -/
def specWidths (q : Plan) : List (Nat × Nat) :=
  ((indexed q.layouts).filter (fun l => l.2.kind == 4)).filterMap (fun l =>
    (((headPositions q 0).find? (fun x => x.2.1.layout == l.1)).map (fun x => (l.1, x.2.2.vectors - 1))))

/-- The tracker's upper bound for a stream (R333). -/
def kBound (q : Plan) (t : Stream) : Nat := min t.set.kMax (((specWidths q).map (·.2)).foldl max 0)

/-- K_MIN as it acts (R333). -/
def kFloor (q : Plan) (t : Stream) : Nat := min t.set.kMin (kBound q t)

/-- k of a stream, which starts at the upper bound (R333). -/
def kOf (q : Plan) (t : Stream) : Nat := if t.tracked then t.k else kBound q t

/-- The next round of the stream is a probe (R335). -/
def probeDue (q : Plan) (t : Stream) : Bool :=
  kOf q t == 0 && decide (1 ≤ t.set.kMax) && decide (1 ≤ kBound q t) && decide (256 ≤ t.sinceK0)

/-- k in force for the stream's next pass (R334, R335). -/
def passK (q : Plan) (t : Stream) : Nat := if probeDue q t then 1 else kOf q t

/-- The layout of the smallest width at or above k (R334). -/
def specLayout (q : Plan) (k : Nat) : Option (Nat × Nat) :=
  ((specWidths q).filter (fun e => k ≤ e.2)).foldl (fun m e => match m with
    | some b => if e.2 < b.2 then some e else some b
    | none => some e) none

/-- A change of k, with event 0x0D (R333, R337). -/
def setK (s : State) (sid k cause : Nat) : State :=
  match getStream s sid with
  | none => s
  | some t =>
    let s := modStream s sid (fun t => { t with k := k, tracked := true })
    if t.k = k then s else raiseEvent s pgSq 0x0D (info [(2, sid), (1, t.k), (1, k), (1, cause)])

/-! ### Eligibility (R315, R350, R356, R359) -/

/-- Pages a stream needs to cover positions up to `last` and that have no frame on this device (R315, R359). -/
def pagesMissing (t : Stream) (last : Nat) : List Nat := (upTo (last / 64 + 1)).filter (fun q => tblGet 0 t.pages q == 0)

/-- The balance that a run of the stream would charge is above 0 (R350, R356). -/
def balanceOk (s : State) (t : Stream) : Bool :=
  match getOwner s t.owner with
  | none => t.owner == 0
  | some w =>
    let y := if t.state = 2 then w.prompt else w.gen
    !y.limited || decide (0 < y.balance)

/-- Positions that may carry the stream's next run, in any layout, and where R315 holds (R285, R315, R351, R352). -/
def mayCarry (s : State) (q : Plan) (t : Stream) : List (Nat × Pos × Template) :=
  let dev := firstDevice q t.set.channel
  let hasSolo := (layoutOf q 0).isSome
  (headPositions q t.set.channel).filter (fun x =>
    let kind := (q.layouts.getD x.2.1.layout {}).kind
    serves q dev x.1 t.owner && decide (t.length + runCapOf x.2.2 ≤ bucketLimit s) &&
    (if t.state = 2 then kind == 3
     else if t.set.solo && hasSolo then x.2.1.role == 0 && (kind == 0 || kind == 1)
     else (x.2.1.role == 0 && kind == 2) || x.2.1.role == 1))

/-- The smallest run capacity among positions. -/
def leastCap (l : List (Nat × Pos × Template)) : Nat := (l.map (fun x => runCapOf x.2.2)).foldl min (runCapOf (l.headD (0, {}, {})).2.2)

/-- The stream could run but for frames (R350): PREFILL or DECODE, no step in flight, a balance, a position, no copy pending. -/
def wouldRun (s : State) (q : Plan) (t : Stream) : Bool :=
  (t.state == 2 || t.state == 3) && !t.inFlight && t.closing == 0 && !t.pausing && t.copies.isEmpty && t.attach.isEmpty && balanceOk s t && !orphanDue s t.owner
    && !(mayCarry s q t).isEmpty

/-- Frames a stream's next run needs on this device beyond those it has. -/
def framesNeeded (s : State) (q : Plan) (t : Stream) : Nat :=
  (pagesMissing t (t.length + leastCap (mayCarry s q t) - 1)).length

/-- Frames of other devices that may not suffice: stream, ring position, frames its next run in the reference layout needs there, frames
free there (R315, R350, R374). -/
abbrev Lacking := List (BitVec 16 × BitVec 6 × BitVec 32 × BitVec 32)

/-- The device of an entry lacks frames for a run of the stream that needs `extra` more than the one in the reference layout. -/
def shortBy (sid extra : Nat) (e : BitVec 16 × BitVec 6 × BitVec 32 × BitVec 32) : Bool :=
  e.1.toNat == sid && decide (e.2.2.2.toNat < e.2.2.1.toNat + extra)

/-- A stream is eligible (R350). -/
def eligible (s : State) (lack : Lacking) (sid : Nat) : Bool :=
  match getStream s sid with
  | none => false
  | some t => wouldRun s (planNow s) t && (!ownChannel s t.set.channel || decide (framesNeeded s (planNow s) t ≤ framesFree s)) && !lack.any (shortBy sid 0)

/-- PAGE_SHORT (R374): an otherwise eligible stream lacks frames; at most once a second of RTB for a stream. -/
def pageShort (lack : Lacking) (s : State) (sid : Nat) : State :=
  match getStream s sid with
  | none => s
  | some t =>
    let q := planNow s
    let sec := rtb s / 100000000
    if !wouldRun s q t || t.shortSec == some sec then s
    else
      let own : Lacking := if ownChannel s t.set.channel ∧ framesFree s < framesNeeded s q t then
          [(BitVec.ofNat 16 sid, BitVec.ofNat 6 (ownPosition s), BitVec.ofNat 32 (framesNeeded s q t), BitVec.ofNat 32 (framesFree s))]
        else []
      match (own ++ lack).find? (shortBy sid 0) with
      | none => s
      | some e =>
        let s := modStream s sid (fun t => { t with shortSec := some sec })
        raiseEvent s pgSq 0x11 (info [(2, sid), (1, e.2.1.toNat), (1, 0), (4, e.2.2.1.toNat), (4, e.2.2.2.toNat)])

/-- At an accepting boundary streams become or stay waiting while they are eligible (R350). -/
def markWaiting (lack : Lacking) (s : State) (sid : Nat) : State :=
  let e := eligible s lack sid
  modStream s sid (fun t => { t with waitingSince := if e then some (t.waitingSince.getD s.sq.round) else none })

/-! ### The bucket (R298) -/

/-- The bucket that firmware wants (R298): the smallest of the set that fits every stream to be served, the largest where none does. -/
def wantedBucket (s : State) : Nat :=
  match s.sq.planSet with
  | none => s.sq.active
  | some ps =>
    let q := planNow s
    let caps := fun (kinds : List Nat) => (((upTo ps.channels).flatMap (headPositions q)).filter
      (fun x => kinds.contains (q.layouts.getD x.2.1.layout {}).kind)).map (fun x => runCapOf x.2.2) |>.foldl max 1
    let need := ((streamIds s).map (fun i => match getStream s i with
      | some t => if t.state = 2 then t.length + caps [3] else if t.state = 3 then t.length + caps [0, 1, 2] else 0
      | none => 0)).foldl max 0
    let bs := ps.plans.map (·.bucket)
    let fit := bs.filter (fun b => need ≤ 2 ^ (11 + b))
    if fit.isEmpty then bs.foldl max 0 else fit.foldl min 9

/-! ### The layout of the round (R334, R351, R436) -/

/-- Eligible streams of a channel that pass a test. -/
def eligibleIn (s : State) (lack : Lacking) (c : Nat) (p : Stream → Bool) : List Nat :=
  (streamIds s).filter (fun i => eligible s lack i && match getStream s i with
    | some t => t.set.channel == c && p t
    | none => false)

/-- The SPECULATIVE layout that a stream's k calls for, with its width (R334). -/
def specFor (q : Plan) (channels : Nat) (t : Stream) : Option (Nat × Nat) :=
  if channels = 1 ∧ 0 < passK q t then specLayout q (passK q t) else none

/-- L + k_L + 1 passes R315 on every device of the channel (R334): the pages that the verify pass needs beyond those of a run in the
reference layout are the same ones on each. -/
def specFits (s : State) (lack : Lacking) (sid : Nat) (t : Stream) (w : Nat) : Bool :=
  let need := (pagesMissing t (t.length + w)).length
  decide (t.length + w + 1 ≤ bucketLimit s) && (!ownChannel s t.set.channel || decide (need ≤ framesFree s))
    && !lack.any (shortBy sid (need - framesNeeded s (planNow s) t))

/-- A SOLO stream whose verify pass fails the check is held to the reference layout until a switch (R334). -/
def holdSpec (lack : Lacking) (s : State) (sid : Nat) : State := match getStream s sid with
  | none => s
  | some t =>
    if !(t.state == 3 && t.set.solo && eligible s lack sid) then s
    else match specFor (planNow s) (max 1 (channels s)) t with
      | some e => if specFits s lack sid t e.2 then s else modStream s sid (fun t => { t with specHeld := true })
      | none => s

/-- The SOLO stream's layout (R334, R335, R351): SPECULATIVE while k is above 0 and the pass fits, else SOLO or its extension. -/
def soloLayout (s : State) (lack : Lacking) (q : Plan) (channels sid : Nat) (t : Stream) (base : Nat) : Nat :=
  match specFor q channels t with
  | some (li, w) => if !t.specHeld && specFits s lack sid t w then li else base
  | none =>
    if s.sq.backfill && !s.sq.backfillDropped then
      (((indexed q.layouts).find? (fun l => l.2.kind == 1 && l.2.base == base)).map (·.1)).getD base
    else base

/-- The layout that one channel's eligible work calls for (R351), if it has any. -/
def layoutFor (s : State) (lack : Lacking) (q : Plan) (channels c : Nat) : Option Nat :=
  let solo := eligibleIn s lack c (fun t => t.state == 3 && t.set.solo)
  let pre := eligibleIn s lack c (fun t => t.state == 2)
  let dec := eligibleIn s lack c (fun t => t.state == 3)
  let row1 := match solo.head?.bind (fun i => (getStream s i).map (fun t => (i, t))), layoutOf q 0 with
    | some e, some base => some (soloLayout s lack q channels e.1 e.2 base)
    | _, _ => none
  let row2 := if pre.isEmpty || !(dec.isEmpty || decide (s.sq.prefillShare ≤ s.sq.roundsSincePrefill + 1)) then none else layoutOf q 3
  let row3 := if dec.isEmpty then none else layoutOf q 2
  match row1, row2, row3 with
  | some l, _, _ => some l
  | none, some l, _ => some l
  | none, none, r => r

/-- The layout of the next round (R351, R436): the channels are tried in turn from channel (round mod CHANNELS). -/
def chooseLayout (s : State) (lack : Lacking) : Option Nat :=
  let q := planNow s
  let n := max 1 (channels s)
  firstSome ((upTo n).map (fun j => layoutFor s lack q n ((s.sq.round + j) % n)))

/-! ### Filling the positions (R312, R352) -/

/-- One run to be assigned. -/
structure Pick where
  sid : Nat
  dev : Nat
  pos : Nat
  slot : Nat
  cap : Nat
  verify : Bool
deriving DecidableEq, Repr

/-- Run slots of a template (R312). -/
def runSlots (t : Template) : Nat := t.vectors / runCapOf t

/-- Runs picked so far, the owners' credits, and whose turn it is with the runs left of it (R352). -/
structure Fill where
  credits : Tbl Nat
  turn : Nat × Nat
  picks : List Pick
deriving DecidableEq, Repr

/-- The next of some owners in round robin after one of them. -/
def nextOwner (os : List Nat) (o : Nat) : Option Nat :=
  let least := fun (l : List Nat) => l.foldl (fun m x => match m with
    | some y => some (min x y)
    | none => some x) (none : Option Nat)
  (least (os.filter (fun x => o < x))).orElse (fun _ => least os)

/-- The owner served next, with the turn as it then stands (R352): the one whose turn it is, while it has a waiting stream, credit and runs
left of a turn of WEIGHT runs, else the next in round robin (log entry 110). -/
def servedOwner (s : State) (turn : Nat × Nat) (os : List Nat) : Option (Nat × Nat) :=
  if os.contains turn.1 ∧ 0 < turn.2 then some (turn.1, turn.2 - 1)
  else (nextOwner os turn.1).map (fun o => (o, ((getOwner s o).map (·.weight)).getD 16 - 1))

/-- The stream that a run slot of a filled position takes, and the turn after it (R352): of the owner served, the one that has waited
longest, the lower ID among equals. -/
def nextStream (s : State) (f : Fill) (cands : List Nat) : Option (Nat × Nat × Nat) :=
  let info := cands.filterMap (fun i => (getStream s i).map (fun t => (i, t)))
  let open' := info.filter (fun e => 1 ≤ tblGet 0 f.credits e.2.owner)
  match servedOwner s f.turn (open'.map (·.2.owner)) with
  | none => none
  | some turn =>
    ((open'.filter (fun e => e.2.owner == turn.1)).foldl (fun (m : Option (Nat × Nat)) e =>
      let w := e.2.waitingSince.getD 0
      match m with
      | some b => if w < b.1 then some (w, e.1) else some b
      | none => some (w, e.1)) none).map (fun b => (b.2, turn))

/-- Frames of this device that a run of capacity `cap` of a stream takes (R315, R359). -/
def runFrames (s : State) (sid cap : Nat) : Nat := match getStream s sid with
  | some t => if ownChannel s t.set.channel then (pagesMissing t (t.length + cap - 1)).length else 0
  | none => 0

/-- The run fits the bucket and the position's owners, and frames are free for it beside the runs already picked (R285, R315, R350, R359). -/
def mayPick (s : State) (q : Plan) (dev p cap : Nat) (picks : List Pick) (sid : Nat) : Bool := match getStream s sid with
  | some t => serves q dev p t.owner && decide (t.length + cap ≤ bucketLimit s) &&
      decide ((picks.map (fun k => runFrames s k.sid k.cap)).sum + runFrames s sid cap ≤ framesFree s)
  | none => false

/-- One credit of an owner is spent (R352). -/
def spend (s : State) (credits : Tbl Nat) (sid : Nat) : Tbl Nat :=
  let o := ((getStream s sid).map (·.owner)).getD 0
  tblSet 0 credits o (tblGet 0 credits o - 1)

/-- Fill the run slots of one position, in order. -/
def fillSlots (s : State) (q : Plan) (dev p : Nat) (t : Template) (cands : List Nat) : List Nat → Fill → Fill
  | [], f => f
  | j :: js, f =>
    let open' := cands.filter (fun i => !f.picks.any (fun k => k.sid == i) && mayPick s q dev p (runCapOf t) f.picks i)
    match nextStream s f open' with
    | none => f
    | some (i, turn) =>
      fillSlots s q dev p t cands js { credits := spend s f.credits i, turn := turn
                                       picks := f.picks ++ [{ sid := i, dev := dev, pos := p, slot := j, cap := runCapOf t, verify := false }] }

/-- Runs of the positions of one channel in a layout (R352). -/
def fillChannel (s : State) (lack : Lacking) (q : Plan) (li c : Nat) (acc : Fill) : Fill :=
  let kind := (q.layouts.getD li {}).kind
  let dev := firstDevice q c
  let solo := (eligibleIn s lack c (fun t => t.state == 3 && t.set.solo)).head?
  let prefills := eligibleIn s lack c (fun t => t.state == 2)
  let decodes := eligibleIn s lack c (fun t => t.state == 3)
  ((headPositions q c).filter (fun x => x.2.1.layout == li)).foldl (fun acc x =>
    if x.2.1.role = 0 ∧ (kind = 0 ∨ kind = 1 ∨ kind = 4) then
      match solo with
      | some i => if acc.picks.any (fun k => k.sid == i) || !mayPick s q dev x.1 (runCapOf x.2.2) acc.picks i then acc
        else { acc with credits := spend s acc.credits i, picks := acc.picks ++ [{ sid := i, dev := dev, pos := x.1, slot := 0, cap := runCapOf x.2.2, verify := kind == 4 }] }
      | none => acc
    else fillSlots s q dev x.1 x.2.2 (if kind = 3 then prefills else decodes.filter (fun i => some i != solo || kind == 2))
      (upTo (runSlots x.2.2)) acc) acc

/-- Credits of the owners at this boundary (R352): WEIGHT more for an owner with a waiting stream, none for the others. -/
def gainCredits (s : State) (lack : Lacking) : Tbl Nat :=
  let waiting := ((streamIds s).filter (eligible s lack)).filterMap (fun i => (getStream s i).map (·.owner))
  waiting.eraseDups.foldl (fun m o =>
    let w := getOwner s o
    tblSet 0 m o ((w.map (·.credits)).getD 0 + (w.map (·.weight)).getD 16)) []

/-- Every run of the next round (R352), and the credits left. -/
def pickRuns (s : State) (lack : Lacking) (li : Nat) : Fill :=
  (upTo (max 1 (channels s))).foldl (fun acc c => fillChannel s lack (planNow s) li c acc)
    { credits := gainCredits s lack, turn := s.sq.turn, picks := [] }

/-! ### Copy-on-write and allocation (R359, R362) -/

/-- Pages that a run of up to `cap` vectors writes and whose frame is shared, at counts reduced by earlier copies (R362). -/
def sharedPages (s : State) (less : Tbl Nat) (t : Stream) (cap : Nat) : List Nat :=
  ((upTo ((t.length + cap - 1) / 64 + 1)).filter (fun q => decide (t.length / 64 ≤ q))).filter (fun q =>
    let f := tblGet 0 t.pages q
    f != 0 && decide (1 + tblGet 0 less (f - 1) < (getFrame s (f - 1)).count))

/-- Schedule the copies of one stream's shared pages (R362): each goes to a newly allocated frame. -/
def scheduleCopies (s : State) (c : Nat × List Nat) : State := match getStream s c.1 with
  | none => s
  | some t => forEach c.2 (fun s q => match allocFrame s (frameBase s c.1) t.owner with
    | some (f, s) => modStream s c.1 (fun t => { t with copies := t.copies ++ [(q, f, false)] })
    | none => s) s

/-- Counts as the copies of some pages reduce them. -/
def lessFrames (t : Stream) (less : Tbl Nat) (qs : List Nat) : Tbl Nat :=
  qs.foldl (fun m q => let f := tblGet 0 t.pages q - 1; tblSet 0 m f (tblGet 0 m f + 1)) less

/-- The picks that may run, and the streams that must copy first with their pages (R362): streams are examined in ascending order, a count
that earlier copies reduce at its reduced value. -/
def examineShared (s : State) (ps : List Pick) : List Pick × List (Nat × List Nat) :=
  let r := (streamIds s).foldl (fun (acc : Tbl Nat × List Pick × List (Nat × List Nat)) sid =>
    match ps.find? (fun k => k.sid == sid), getStream s sid with
    | some k, some t => match sharedPages s acc.1 t k.cap with
      | [] => (acc.1, acc.2.1 ++ [k], acc.2.2)
      | qs => (lessFrames t acc.1 qs, acc.2.1, acc.2.2 ++ [(sid, qs)])
    | _, _ => acc) ([], [], [])
  r.2

/-- Assign one run (R312, R314, R333, R350, R352, R359): frames for its pages, the step in flight, and the run on this device or a
message to the channel's first device. -/
def assignRun (s : State) (k : Pick) : State :=
  match getStream s k.sid with
  | none => s
  | some t =>
    let q := planNow s
    let kk := if k.verify then passK q t else 0
    let probe := k.verify && probeDue q t
    let n := if t.state = 2 then min t.input.length k.cap else if k.verify then k.cap else 1
    let s := allocPages s k.sid t.owner (pagesMissing t (t.length + k.cap - 1))
    let s := broadcast s 0x51 [k.sid, kk]
    let s := modStream s k.sid (fun t => { t with
      inFlight := true, waitingSince := none, passK := kk, k := kOf q t, tracked := true, sinceK0 := if probe then 0 else t.sinceK0 })
    let s := if probe then setK s k.sid 1 3 else s
    let x : InFlight :=
      { stream := k.sid, owner := t.owner, dev := k.dev, pos := k.pos, slot := k.slot, firstPos := t.length, vectors := n
        prefill := t.state == 2, last := t.state == 2 && n == t.input.length, k := kk, round := s.sq.round, epoch := s.sq.epoch }
    let r : RunAssign :=
      { pos := k.pos, slot := k.slot, stream := k.sid, owner := t.owner, firstPos := t.length, vectors := n, prefill := x.prefill
        k := kk, round := s.sq.round }
    let s := { s with sq := { s.sq with steps := s.sq.steps ++ [x] } }
    if k.dev = ownPosition s then { s with sq := { s.sq with runs := s.sq.runs ++ [r] } }
    else sendMessage s k.dev 0x50 [k.pos, k.slot, k.sid, t.owner, t.length, n, ofBool x.prefill, kk, ofBool x.last] (t.input.take n |>.flatMap (fun w => leBytes 4 w.toNat))

/-- The layout that the steps in flight still run in: where no stream is eligible they go on through their positions (R301, R349; log
entry 36); a dropped backfill runs as its BASE (R297). -/
def flightLayout (s : State) : Option Nat :=
  match s.sq.steps with
  | [] => none
  | x :: _ => ((((planNow s).recs.getD x.dev {}).positions)[x.pos]?).map (fun y =>
      let l := (planNow s).layouts.getD y.layout {}
      if l.kind = 1 ∧ s.sq.backfillDropped then l.base else y.layout)

/-- Every tile that a layout's beats shoot on this device is ready (R175): until then the first such beat waits, and with it the round, so
that once a round has started nothing moves its ticks (R303). -/
def layoutReady (s : State) (li : Nat) : Bool :=
  (ownRec s).positions.all (fun x => x.layout != li || x.role == 2 || tilesReady s ((ownRec s).templates.getD x.template {}))

/-- What credits the owners keep (R352). -/
def keepCredits (s : State) (c : Tbl Nat) : State :=
  forEach (ownerIds s) (fun s o => modOwner s o (fun w => { w with credits := tblGet 0 c o })) s

/-- Step 5 (R350-R352, R359, R360, R362): the layout of the next round, if there is eligible work, with its runs assigned; the runs
that must copy first are not, and their copies are scheduled. -/
def assignRound (s : State) (lack : Lacking) : State × Option Nat :=
  let s := forEach (streamIds s) (pageShort lack) s
  let s := forEach (streamIds s) (holdSpec lack) s
  match ((chooseLayout s lack).orElse (fun _ => flightLayout s)).filter (layoutReady s) with
  | none => (keepCredits s (gainCredits s lack), none)
  | some li =>
    let r := pickRuns s lack li
    let e := examineShared s r.picks
    let s := forEach e.2 scheduleCopies (forEach e.1 assignRun (keepCredits { s with sq := { s.sq with turn := r.turn } } r.credits))
    (s, some li)

end Sys2Proof.Machine
end

