-- ==== Sys2Proof/Machine/Accept.lean ====
section
/-! DEFINITION. Acceptance of a round: tokens, lengths, tallies, delivery, the acceptance tracker, published pages, and what each device
does for itself (R143, R154, R281, R291, R333-R335, R353-R356, R360, R363-R365, R461, R465). -/

namespace Sys2Proof.Machine

/-! ### Tokens of a run (R353) -/

/-- Why a generated token finishes its stream (R353, R458): 1 STOP, 2 MAX_TOKENS, 3 position limit; 0 where it does not. -/
def finishReason (c : Settings) (count pos : Nat) (tok : BitVec 32) : Nat :=
  if c.stop.contains tok then 1 else if c.maxTokens ≤ count then 2 else if pos = 2 ^ 20 - 1 then 3 else 0

/-- The tokens of a run that count (R353), from the one at position `p` on, `n` generated before them, and why the stream finishes. -/
def takeTokens (c : Settings) : Nat → Nat → List (BitVec 32) → List (BitVec 32) × Nat
  | _, _, [] => ([], 0)
  | n, p, t :: ts =>
    let r := finishReason c (n + 1) p t
    if r ≠ 0 then ([t], r)
    else
      let q := takeTokens c (n + 1) (p + 1) ts
      (t :: q.1, q.2)

/-- KIND 1 entries (R458, R465): at most four tokens to an entry, in position order, the last with FINISHED and the reason. -/
def deliverTokens (s : State) (t : Stream) (sid p reason : Nat) (toks : List (BitVec 32)) : State :=
  let n := (toks.length + 3) / 4
  forEach (upTo n) (fun s j =>
    let part := (toks.drop (4 * j)).take 4
    let fin := if j + 1 = n ∧ reason ≠ 0 then 8 + 16 * reason else 0
    deliver s t.port t.pair sid (part.length + fin) 1
      (padTo 16 (part.flatMap (fun w => leBytes 4 w.toNat)) ++ leBytes 4 (p + 4 * j))) s

/-! ### Tallies (R354-R356) -/

/-- A tally charged for `n` tokens (R355). -/
def Tally.charged (t : Tally) (n : Nat) : Tally := { t with balance := t.balance - 1000 * (n : Int), count := (t.count + n) % 2 ^ 64 }

/-- A tally that has fallen to 0 or below for the first time (R356). -/
def Tally.fell (t : Tally) : Bool := t.limited && !t.empty && decide (t.balance ≤ 0)

/-- TALLY_EMPTY (R374). -/
def tallyEvent (s : State) (o kind : Nat) (t : Tally) : State :=
  if t.fell then raiseEvent s pgSq 0x10 (info [(1, o), (1, kind), (6, 0), (8, twos 64 t.balance)]) else s

/-- Charge `n` generated tokens to an owner (R354-R356). -/
def chargeGen (s : State) (o n : Nat) : State :=
  match getOwner s o with
  | none => s
  | some w =>
    let t := w.gen.charged n
    tallyEvent (setOwner s o (some { w with gen := { t with empty := t.empty || t.fell } })) o 1 t

/-- Charge `n` input tokens to an owner (R354-R356). -/
def chargePrompt (s : State) (o n : Nat) : State :=
  match getOwner s o with
  | none => s
  | some w =>
    let t := w.prompt.charged n
    tallyEvent (setOwner s o (some { w with prompt := { t with empty := t.empty || t.fell } })) o 2 t

/-- A tally after `ms` milliseconds of refill (R355). -/
def Tally.refilled (t : Tally) (ms : Nat) : Tally :=
  let b := max t.balance (min (t.balance + (t.rate * ms : Nat)) (t.cap * 1000 : Nat))
  { t with balance := b, empty := t.empty && decide (b ≤ 0) }

/-- The refill of every tally (R355): one RATE for each whole millisecond of RTB since the last. -/
def refill (s : State) : State :=
  let now := rtb s / 100000
  let ms := now - s.sq.lastRefillMs
  let s := forEach (ownerIds s) (fun s o => modOwner s o (fun w => { w with gen := w.gen.refilled ms, prompt := w.prompt.refilled ms })) s
  { s with sq := { s.sq with lastRefillMs := now } }

/-! ### The tracker after a pass (R333, R335) -/

/-- k after a pass of draft length `k` of which `n` drafts were accepted (R333). -/
def nextK (k n bound floor : Nat) : Nat := if n = k then min (k + 1) bound else max floor (k - (k - n + 1) / 2)

/-- The tracker after an accepted pass (R333), and its count of emitted tokens while k is 0, the one of a last PREFILL run among them
(R335). -/
def trackPass (s : State) (x : InFlight) (emitted : Nat) : State :=
  match getStream s x.stream with
  | none => s
  | some t =>
    let q := planNow s
    if x.k = 0 then
      modStream s x.stream (fun t => { t with sinceK0 := if t.k = 0 ∧ 1 ≤ t.set.kMax then t.sinceK0 + emitted else 0 })
    else if x.tokens = [] then s
    else setK s x.stream (nextK x.k x.accepted (kBound q t) (kFloor q t)) (if x.accepted = x.k then 1 else 2)

/-! ### Full pages (R363-R365) -/

/-- An entry of the prefix index, unless there is one for that owner, key and channel (R364). -/
def indexPage (s : State) (o : Nat) (key : BitVec 128) (frame channel : Nat) : State :=
  if s.prefixes.any (fun e => e.1 == o && e.2.1 == key && e.2.2.2 == channel) then s
  else { s with prefixes := s.prefixes ++ [(o, key, frame, channel)] }

/-- Publish one page of a stream that has just become full (R363, R365); each member notes its own frame of the page (R364). -/
def publishPage (sid : Nat) (s : State) (page : Nat) : State :=
  match getStream s sid with
  | none => s
  | some t =>
    if t.keys.length ≠ page ∨ t.length < 64 * page + 64 then s
    else
      let key := prefixKey (t.keys.getLast?.getD 0) ((t.toks.drop (64 * page)).take 64) t.modelId t.owner
      let s := modStream s sid (fun t => { t with keys := t.keys ++ [key] })
      let f := tblGet 0 t.pages page
      if !t.set.share ∨ f = 0 then s
      else
        let s := broadcast s 0x56 [sid, page, t.owner, key.toNat / 2 ^ 64, key.toNat % 2 ^ 64, t.set.channel]
        indexPage s t.owner key (f - 1) t.set.channel

/-- Publish every page of a stream that has just become full. -/
def publish (s : State) (sid : Nat) : State :=
  match getStream s sid with
  | none => s
  | some t => forEach ((upTo (t.length / 64)).drop t.keys.length) (publishPage sid) s

/-! ### Acceptance of a step (R353, R355, R360 step 1) -/

/-- A stream goes to a state, or will when it leaves the state that holds it (R344, R497). -/
def Stream.goesTo (t : Stream) (n : Nat) : Stream := if t.state = 9 then { t with heldState := n } else { t with state := n }

/-- Generated tokens of a step take effect, the first at position `p` (R353, R355, R461, R465); `length` is the length they leave. Those of
a stream that is to be closed are delivered too, whatever closes it (R340, R349). -/
def acceptTokens (s : State) (x : InFlight) (p : Nat) (length : Nat → Nat) : State :=
  match getStream s x.stream with
  | none => s
  | some t =>
    let r := takeTokens t.set t.genCount p x.tokens
    let n := r.1.length
    let s := modStream s x.stream (fun t =>
      let t := { putHistory t p r.1 with length := length n, genCount := t.genCount + n }
      if r.2 = 0 then t else t.goesTo 4)
    deliverTokens (chargeGen s t.owner n) t x.stream p r.2 r.1

/-- An accepted PREFILL run (R353): its input tokens leave the pending input and the prompt pool and are charged; with the last of them
the stream decodes, and the record's token is its first. -/
def acceptPrefill (s : State) (x : InFlight) (t : Stream) : State :=
  let l := x.firstPos + x.vectors
  let s := freePool s (min x.vectors t.input.length)
  let s := modStream s x.stream (fun t =>
    { putHistory t x.firstPos (t.input.take x.vectors) with length := l, input := t.input.drop x.vectors })
  let s := chargePrompt s t.owner x.vectors
  if !x.last then s else acceptTokens (modStream s x.stream (·.goesTo 3)) x l (fun _ => l)

/-- One step of an accepted round (R353, R360 step 1). -/
def acceptStep (s : State) (x : InFlight) : State :=
  let s := modStream s x.stream (fun t => { t with inFlight := false })
  match getStream s x.stream with
  | none => s
  | some t =>
    if t.state = 10 then s
    else if x.prefill then
      let s := acceptPrefill s x t
      publish (if x.last then trackPass s x x.tokens.length else s) x.stream
    else
      let s := acceptTokens s x (x.firstPos + 1) (fun n => x.firstPos + n)
      publish (trackPass s x x.tokens.length) x.stream

/-! ### What each device does for an accepted round (R143, R154, R281, R291) -/

/-- One q updates its layer's mean (R143). -/
def updateMu (mu : Tbl Word32) (e : Nat × Nat × Nat × Bool × Word32) : Tbl Word32 :=
  if e.2.2.2.1 then mu
  else
    let m := tblGet 0 mu e.2.1
    tblSet 0 mu e.2.1 (fAdd m (fMul (fSub e.2.2.2.2 m) 0x3C800000))

/-- Sort by vector number, keeping the order of equals. -/
def byVector : List (Nat × Nat × Nat × Bool × Word32) → List (Nat × Nat × Nat × Bool × Word32)
  | [] => []
  | e :: es =>
    let r := byVector es
    r.takeWhile (fun f => f.2.2.1 < e.2.2.1) ++ [e] ++ r.dropWhile (fun f => f.2.2.1 < e.2.2.1)

/-- q of the round in the order in which they update: beats in the order they ran, in each by vector. -/
def muOrder (s : State) : List (Nat × Nat × Nat × Bool × Word32) :=
  s.sq.ended.flatMap (fun p => byVector (s.sq.roundQ.filter (fun e => e.1 == p)))

/-- What acceptance of its round means on one device (R143, R154, R281, R291). -/
def acceptLocal (s : State) : State :=
  let q := s.sq
  { s with sq := { q with
    mu := (muOrder s).foldl updateMu q.mu
    adapters := tblMap {} (fun _ a => if a.staged then { a with eligible := true } else a) q.adapters
    retention := q.retention.filter (fun r => q.ranRound < r.consumed)
    rho := [], replaying := [], exhausted := [], origBeat := [], roundQ := [], lossReplay := false
    runs := q.runs.filter (fun r => q.ranRound < r.round) } }

/-- Step 1 on a device (R360): the steps that have come back are retired; on the headframe they take their effect on the streams. -/
def acceptRound (s : State) : State :=
  let back := s.sq.steps.filter (·.back)
  let s := if isHeadframe s then forEach back acceptStep s else s
  let s := acceptLocal s
  { s with sq := { s.sq with steps := s.sq.steps.filter (fun x => !x.back) } }

/-! ### Settings and k at a boundary (R333, R342, R345) -/

/-- k clipped into the envelope in force (R333). -/
def clipK (s : State) (sid cause : Nat) : State :=
  match getStream s sid with
  | none => s
  | some t =>
    let q := planNow s
    if t.tracked then setK s sid (max (kFloor q t) (min t.k (kBound q t))) cause else s

/-- A settings change takes effect (R342, R345): not while the stream is paused, on its way there or back. -/
def applySettings (s : State) (sid : Nat) : State :=
  match getStream s sid with
  | none => s
  | some t =>
    match t.setNext with
    | none => s
    | some c =>
      if 5 ≤ t.state ∧ t.state ≤ 8 then s
      else clipK (modStream s sid (fun t => { t with set := c, setNext := none })) sid 4

/-- Repair enablement takes effect (R150, R461). -/
def applyRepair (s : State) : State :=
  { s with sq := { s.sq with repair := s.sq.repairNext.foldl (fun m e => tblSet (false, false) m e.1 e.2) s.sq.repair, repairNext := [] } }

/-- Retired epoch that the flit carries (R361). -/
def retiredNow (s : State) : Nat :=
  match s.sq.steps with
  | [] => s.sq.epoch
  | x :: xs => (xs.foldl (fun m y => min m y.epoch) x.epoch) - 1

end Sys2Proof.Machine
end

