-- ==== Sys2Proof/Machine/RoundStart.lean ====
section
/-! DEFINITION. What a device does at tick 0 of a round: standing slots, redelivery in a slip round, feed slots and their step headers
(R274, R281, R288, R292, R293, R296, R314, R421, R422, R645). -/

namespace Sys2Proof.Machine

/-! ### Step headers (R421-R423) -/

/-- A run entry (R422): `w` is the run capacity, `j` the run slot; the position of an empty run's first vector is not stated. -/
def runEntry (free w : Nat) (j : Nat) (r : Option RunAssign) : List Byte :=
  match r with
  | some r => leBytes 2 r.stream ++ leBytes 3 r.firstPos ++ leBytes 1 r.vectors ++ leBytes 1 (j * w) ++ leBytes 1 (ofBool r.prefill)
  | none => leBytes 2 0xFFFF ++ leBytes 3 (Config.freeNat (free + j)) ++ leBytes 1 0 ++ leBytes 1 (j * w) ++ leBytes 1 0

/-- Run entries of a position, in slot order. -/
def runEntries (free : Nat) (t : Template) (rs : List RunAssign) : List (List Byte) :=
  (upTo (runSlots t)).map (fun j => runEntry free (runCapOf t) j (rs.find? (fun r => r.slot == j)))

/-- The first 64 bytes of a step header (R421). -/
def stepHeader (status flags rho channel pos round : Nat) (runs : List (List Byte)) : List Byte :=
  padTo 64 (leBytes 1 1 ++ leBytes 1 status ++ leBytes 1 flags ++ leBytes 1 rho ++ leBytes 1 channel ++ leBytes 1 runs.length ++
    leBytes 2 pos ++ leBytes 4 round ++ leBytes 4 0 ++ (runs.take 6).flatMap id)

/-- The run table: entries 6 onward, eight to a 64-byte row (R421). -/
def runTable (runs : List (List Byte)) : List Byte := padTo (64 * ((runs.length - 6 + 7) / 8)) ((runs.drop 6).flatMap id)

/-- The run entries of a header and its run table, as they stand (R421). -/
def headerEntries (header table : List Byte) : List (List Byte) :=
  (upTo (byteAt header 5)).map (fun j => (if j < 6 then header.drop (16 + 8 * j) else table.drop (8 * (j - 6))).take 8)

/-- The run entries of a header and its run table, as runs of a position for a round (R422). -/
def parseRuns (s : State) (pos round : Nat) (header table : List Byte) : List RunAssign :=
  (indexed (headerEntries header table)).filterMap (fun x =>
    let j := x.1
    let e := x.2
    let sid := leAt e 0 2
    if sid = 0xFFFF then none
    else some { pos := pos, slot := j, stream := sid, owner := ((getStream s sid).map (·.owner)).getD 0, firstPos := leAt e 2 3
                vectors := byteAt e 5, prefill := bit (byteAt e 7) 0, k := ((getStream s sid).map (·.passK)).getD 0, round := round })

/-! ### Standing slots drained (R293) -/

/-- A standing slot is drained (R239, R293): EMPTY with COUNT 0. -/
def drainStanding (s : State) (x : Standing) : State :=
  if coreFrozen s x.core then s
  else modCore s x.core (fun k => k.modSlot x.index (fun d => if d.valid then { d with full := false, filling := false, count := 0 } else d))

/-! ### Round numbers across empty and slip rounds -/

/-- Retained arrivals and runs stamped with a round at or after `from'` move `by'` rounds on: the round that would have followed comes that
much later. -/
def restamp (s : State) (from' by' : Nat) : State :=
  let mv := fun (x : Nat) => if x < from' then x else x + by'
  { s with sq := { s.sq with
    retention := s.sq.retention.map (fun r => { r with arrived := mv r.arrived, consumed := mv r.consumed })
    runs := s.sq.runs.map (fun r => { r with round := mv r.round })
    inputFlags := s.sq.inputFlags.map (fun e => (e.1, mv e.2.1, e.2.2)) } }

/-! ### Slip rounds (R292, R293, R329) -/

/-- A retained arrival of an earlier round is delivered again at tick 0 (R293), before the feed slots are written (R314); what the sequencer itself copied goes back as the plan's
code wrote it. -/
def redeliver (s : State) (r : Retained) : State :=
  if coreFrozen s r.dstCore ∨ !r.valid then s
  else if r.src = ownPosition s then modCore s r.dstCore (fun k => k.put r.dstOff r.data)
  else modCore s r.dstCore (fun k => k.commit { off := r.dstOff, data := r.data })

/-- Replaying positions run with their replay index raised by one (R292, R296). -/
def raiseRho (s : State) : State :=
  { s with sq := { s.sq with
    rho := s.sq.replaying.foldl (fun m p => tblSet 0 m p (min (replayMax s) (tblGet 0 m p + 1))) s.sq.rho } }

/-- Lengths return to their values at the start of the repeated round (R329). -/
def restoreLengths (s : State) : State :=
  let s := forEach (s.sq.steps.filter (fun x => x.back && !x.prefill)) (fun s x =>
    modStream s x.stream (fun t => { t with length := x.firstPos })) s
  { s with sq := { s.sq with steps := s.sq.steps.map (fun x => { x with back := false, tokens := [], accepted := 0 }) } }

/-- The slip round numbered `n` repeats the round `s.sq.ranRound` (R292, R293, R311): event 0x07, replay indexes, lengths, and the
assignments and retained arrivals of the repeated round under its new number. -/
def beginSlip (s : State) (n : Nat) : State :=
  let q := s.sq
  let s := raiseEvent s pgSq 0x07 (info [(8, q.prevRoundRtb.toNat), (1, q.replaying.length), (1, q.exhausted.length)])
  let old := q.ranRound
  let s := restoreLengths (raiseRho s)
  let s := { s with sq := { s.sq with
    runs := s.sq.runs.filter (fun r => r.round ≤ old), inputFlags := s.sq.inputFlags.filter (fun e => e.2.1 ≤ old), recordsIn := []
    roundQ := [] } }
  let s := restamp s old (n - old)
  { s with sq := { s.sq with replaying := [], exhausted := [] } }

/-- Tick 0 of slip round `n` (R293): the standing slots are drained, and what the repeated round had from the round before it is
delivered again. -/
def slipDeliver (s : State) (n : Nat) : State :=
  let s := forEach (ownRec s).standing drainStanding s
  forEach (s.sq.retention.filter (fun r => r.arrived < n && r.consumed == n)) redeliver s

/-! ### Feed slots (R314, R645) -/

/-- Bytes of a PREFILL run's input tokens in its token-record entry (R314, R328, R352). -/
def putTokens (s : State) (k : Core) (base : Nat) (r : RunAssign) : Core :=
  match getStream s r.stream with
  | some t => if r.prefill then k.put (base + 64 + 320 * r.slot + 64) ((t.input.take r.vectors).flatMap (fun w => leBytes 4 w.toNat)) else k
  | none => k

/-- Write one feed slot at tick 0 (R314): header, run table, input tokens; TAG becomes FULL and COUNT stays. On a frozen core nothing is
written and the position reports FAULT (R213, R295). -/
def writeFeed (s : State) (p : Nat) : State :=
  match feedSlot (ownRec s) p, posAt s p with
  | some f, some x =>
    if x.layout ≠ s.sq.layout then s
    else if coreFrozen s f.core then
      { s with sq := { s.sq with faulted := true, faultPos := s.sq.faultPos ++ [(p, 1, s.sq.beatCount.toNat % 2 ^ 32)] } }
    else
      let t := (ownRec s).templates.getD x.template {}
      let rs := runsAt s p
      let es := runEntries s.free t rs
      let table := runTable es
      let s := modCore s f.core (fun k =>
        let k := k.put f.base (stepHeader 0 0 0 x.channel p s.sq.round es)
        let k := k.put (f.base + 2 ^ f.n - table.length) table
        let k := rs.foldl (fun k r => putTokens s k f.base r) k
        k.modSlot f.index (fun d => if d.valid then { d with full := true } else d))
      { s with free := s.free + runSlots t
               sq := { s.sq with inputFlags := s.sq.inputFlags.filter (fun e => e.1 != p || e.2.1 != s.sq.round) ++ [(p, s.sq.round, 0, es)] } }
  | _, _ => s

/-- The positions that this device feeds itself (R314). -/
def writeFeeds (s : State) : State :=
  match activePlan s with
  | some q => forEach (fedPositions q (ownPosition s)) writeFeed s
  | none => s

/-! ### Tick 0 (R274, R288, R292-R296, R314) -/

/-- A device starts round `n` at RTB count `at'` with a verdict; `li` is its layout, none for a round without positions. -/
def startRound (s : State) (verdict n at' : Nat) (li : Option Nat) : State :=
  let slip := verdict == 2
  let q := s.sq
  let s := { s with
    dp := { s.dp with roundHot := none, roundStk := none }
    ri := { s.ri with retime := [] }
    cx := if verdict = 3 ∧ s.sq.haltHandoff ∧ s.cx.hoHalt.isNone then { s.cx with hoHalt := some (BitVec.ofNat 64 at') } else s.cx
    sq := { q with
      verdict := verdict, round := n, roundRtb := BitVec.ofNat 64 at', layout := li.getD q.layout
      emptyRound := li.isNone, roundRan := li.isSome, state := if q.planSet.isNone then q.state else if verdict = 3 then 5 else if verdict = 4 then 6 else if li.isNone then 3 else 4
      ended := [], recordsTaken := [], inputFlags := q.inputFlags.filter (fun e => q.ranRound ≤ e.2.1), lossReplay := false, rxStatus := [], beatHeld := none
      prevRoundRtb := if li.isSome && !slip then BitVec.ofNat 64 at' else q.prevRoundRtb
      roundsSincePrefill := if verdict = 4 then q.roundsSincePrefill
        else if li.any (fun l => ((planNow s).layouts.getD l {}).kind == 3) then 0 else q.roundsSincePrefill + 1
      ranRound := if li.isSome then n else q.ranRound } }
  if li.isNone then defineStandings s
  else if slip then writeFeeds (slipDeliver (defineStandings s) n)
  else writeFeeds (defineStandings (restamp s (q.ranRound + 1) (n - q.ranRound - 1)))

end Sys2Proof.Machine
end

