-- ==== Sys2Proof/Machine/Rounds.lean ====
section
/-! DEFINITION. Round boundaries: verdicts, halts, slip rounds, switches and stretch on the headframe, the round-start flit on the other
members, and status flits (R288, R290-R300, R308, R311, R333, R350-R361, R420, R491, R547). -/

namespace Sys2Proof.Machine

/-! ### The end of a round (R258, R296, R300) -/

/-- The idle tail of a round of `f` ticks under a stretch of `st` per cent (R300). -/
def tailTicks (f st : Nat) : Nat := 8 * ((f * st + 799) / 800)

/-- Ticks of an empty round (R296). -/
def emptyTicks : Nat := 8192

/-- Ticks of a switch gap (R298). -/
def gapTicks : Nat := 32768

/-- F of the layout of the round in progress. -/
def roundF (s : State) : Nat := ((planNow s).layouts.getD s.sq.layout {}).f

/-- Ticks from the start of the round in progress to the next (R258, R296, R300). -/
def roundTicks (s : State) : Nat :=
  if s.sq.state = 6 then gapTicks else if s.sq.emptyRound then emptyTicks else roundF s + tailTicks (roundF s) s.sq.current

/-- Tick by which the round's status flits must have arrived (R290, R291). -/
def roundLimit (s : State) : Nat := if s.sq.emptyRound then emptyTicks else roundF s

/-- RTB count at which the next round starts. -/
def nextStart (s : State) : Nat := s.sq.roundRtb.toNat + roundTicks s / 8

/-- Rounds run (R288, R432): while a set is admitted, and as empty rounds after a membership change until one is. -/
def roundsRun (s : State) : Bool := planAdmitted s || (s.sq.idleRounds && s.ri.valid && s.ri.phase == 0)

/-- The headframe is at the end of a round, with no beat running. -/
def atBoundary (s : State) (empty : Bool) : Bool :=
  roundsRun s && isHeadframe s && s.sq.state != 6 && s.sq.emptyRound == empty && decide (roundTicks s ≤ roundTick s)
    && s.sq.live.isNone && s.sq.beatHeld.isNone

/-! ### What the status flits say (R288, R291) -/

/-- Positions whose status flit did not arrive. -/
def missing (s : State) : List Nat := (members s).filter (fun p => !(rx s p).got)

/-- A status flit reported FAULT, or one is missing. -/
def newFault (s : State) : Bool := (members s).any (fun p => !(rx s p).got || (rx s p).status == 3)

/-- A device is at CRITICAL. -/
def criticalSeen (s : State) : Bool := (members s).any (fun p => (rx s p).got && ((rx s p).status == 4 || decide (3 ≤ (rx s p).level)))

/-- A status flit lists a replaying position. -/
def listed (s : State) : Bool := (members s).any (fun p => (rx s p).got && decide (0 < (rx s p).replaying))

/-- A status flit reported REPLAY. -/
def replaySeen (s : State) : Bool := listed s || (members s).any (fun p => (rx s p).got && (rx s p).status == 1)

/-- A master whose freeze can make a device report FAULT stands frozen here (R295). -/
def faultMasters (s : State) : Bool :=
  s.frozen.any (fun z => z.kind == 3 || z.kind == 2 || (z.kind == 4 && !bit z.master 15))

/-- Causes of a halt as bits [20:16] of SQ_PLAN_STATUS (R306). -/
def causeBits (fault critical handoff retire : Bool) : Nat := 2 * ofBool fault + 4 * ofBool critical + 8 * ofBool handoff + 16 * ofBool retire

/-- Causes that stand. -/
def haltCauses (s : State) : Nat := causeBits s.sq.haltFault s.sq.haltCritical s.sq.haltHandoff s.sq.haltRetire

/-- The causes after this round (R291, R296): a fault stands until every frozen master it names is thawed, on the other devices by
`thawed`, and a ring-resume command has come since the halt began. -/
def causesNow (s : State) (thawed : Bool) : Nat :=
  let cleared := !faultMasters s && thawed && s.sq.resumeIssued
  causeBits (newFault s || (s.sq.haltFault && !cleared)) (criticalSeen s) (planAdmitted s && (s.cx.hoPending || s.cx.state == 4)) (s.sq.retireWanted != 0)

/-- Set the cause bits of SQ_PLAN_STATUS. -/
def setCauses (s : State) (c : Nat) : State :=
  { s with sq := { s.sq with haltFault := bit c 1, haltCritical := bit c 2, haltHandoff := bit c 3, haltRetire := bit c 4 } }

/-- ROUND_FAULT for a status flit that did not come (R311); the position-table index is not stated: a free value (log entry 37). -/
def missingEvent (s : State) (p : Nat) : State :=
  let d := draw s
  raiseEvent d.2 pgSq 0x0B (info [(1, p), (2, d.1), (1, 3), (4, s.sq.beatCount.toNat)])

/-! ### Halts (R296, R311) -/

/-- A device enters a halt for some causes, or the halt goes on (R296, R311). `unaccepted` says that the round before it must be repeated. -/
def haltOn (s : State) (c : Nat) (unaccepted : Bool) : State :=
  if s.sq.state = 5 then setCauses { s with sq := { s.sq with haltSeen := s.sq.haltSeen ||| c } } c
  else
    let s := setCauses { s with sq := { s.sq with haltSeen := c, resumeIssued := false, resumeSlip := unaccepted } } c
    raiseEvent s pgSq 0x08 (info [(1, c)])

/-- A device leaves a halt, if it stands in one (R296, R311). -/
def haltOff (s : State) (slip : Bool) : State :=
  if s.sq.state ≠ 5 then s
  else
    let s := raiseEvent s pgSq 0x09 (info [(1, s.sq.haltSeen), (1, ofBool slip)])
    setCauses { s with sq := { s.sq with haltSeen := 0, resumeSlip := false, resumeIssued := false } } 0

/-! ### Retirement (R299) -/

/-- A member of a ring whose membership changes is at the end of its round, with no beat running; no round-start flit need come any more
(R299, R432). -/
def memberRoundEnd (s : State) : Bool :=
  !isHeadframe s && s.sq.retireWanted == 2 && decide (roundTicks s ≤ roundTick s) && s.sq.live.isNone && s.sq.beatHeld.isNone

/-- PLAN_RETIRED (R299): at a round boundary that halts for a retirement, the set goes and event 0x0C is raised. -/
def execPlanRetired (s : State) : Out :=
  .next <|
    match s.sq.planSet with
    | none => s
    | some ps =>
      let s := if !s.sq.haltRetire && memberRoundEnd s then haltOn s 0x10 s.sq.roundRan else s
      if !s.sq.haltRetire ∨ s.sq.live.isSome then s
      else
        let cause := if s.sq.retireWanted = 2 then 2 else 1
        let s := forEach (upTo 64) applyTrims (retireSet s)
        raiseEvent s pgSq 0x0C (info [(1, cause), (7, 0), (8, ps.modelId.toNat)])

/-! ### The boundary on the headframe (R291, R360) -/

/-- Steps 1 to 4, the commands and the settings of an accepting boundary (R342, R348, R355, R360), and the streams that wait from it on,
whatever round follows (R350). -/
def acceptingSteps (s : State) (ran : Bool) (lack : Lacking) : State :=
  let s := if ran then acceptRound s else s
  let s := { refill s with sq := { (refill s).sq with epoch := s.sq.epoch + 1 } }
  let s := expireDue (actCommands s)
  let s := stepsTwoToFour s (retiredNow s)
  let s := forEach (streamIds s) applySettings s
  forEach (streamIds s) (markWaiting lack) s

/-- Trims take effect at a boundary that ends a round in which no beat ran (R582). -/
def boundaryTrims (s : State) : State := if s.sq.ended = [] then forEach (upTo 64) applyTrims s else s

/-- The headframe starts the next round and sends its flit (R288). -/
def headRound (s : State) (verdict : Nat) (li : Option Nat) : State :=
  let s := startRound s verdict (s.sq.round + 1) (nextStart s) li
  sendRoundStart { s with sq := { s.sq with retiredEpoch := retiredNow s } }

/-- A boundary that runs on: step 5, and a round with positions or without (R351, R360). The flit carries the retired epoch under which
step 4 has reclaimed (R361). -/
def runOn (s : State) (lack : Lacking) : State :=
  let n := s.sq.round + 1
  let s := restamp s (s.sq.ranRound + 1) (n - s.sq.ranRound - 1)
  let at' := nextStart s
  let retired := retiredNow s
  let a := assignRound { s with sq := { s.sq with round := n } } lack
  let s := { a.1 with sq := { a.1.sq with round := n } }
  let s := startRound { s with sq := { s.sq with ranRound := n - 1 } } 1 n at' a.2
  sendRoundStart { s with sq := { s.sq with retiredEpoch := retired } }

/-- The round before this boundary is to be repeated unless the ring halts (R291, R292). -/
def slipDue (s : State) : Bool := (s.sq.state == 5 && s.sq.resumeSlip) || (s.sq.roundRan && replaySeen s)

/-- A boundary, or a pass while no set is admitted, that runs steps 2 to 4 is due on the headframe (R291, R360). -/
def passDue (s : State) : Bool :=
  if roundsRun s && atBoundary s s.sq.emptyRound then causesNow s true != 0 || !slipDue s
  else !planAdmitted s && decide (rtb s / 100000 ≠ s.sq.lastIdleMs)

/-- PAUSE_EXPIRY (R371): a pause expires on the headframe at the boundary or pass that is due; one that its row does not name expires there
all the same. -/
def execPauseExpiry (stream : BitVec 16) (s : State) : Out :=
  .next (if isHeadframe s && passDue s then expireStream s stream.toNat else s)

/-- A round boundary on the headframe (R291). -/
def boundary (s : State) (thawed : Bool) (lack : Lacking) : State :=
  let s := applyRepair s
  let s := if s.cx.hoState = 3 ∧ !s.cx.hoPending ∧ allQuiet s then pendHandoff s else s
  let c := causesNow s thawed
  let s := forEach (missing s) missingEvent s
  let halted := c != 0
  let ran := s.sq.roundRan
  let slip := !halted && slipDue s
  let accepted := ran && s.sq.retireWanted != 2 && (if halted then !bit c 1 && !listed s else !slip)
  let accepting := accepted || (!ran && !halted && !slip)
  let s := boundaryTrims { s with sq := { s.sq with backfill := s.sq.backfill && !bit c 2
                                                    backfillDropped := s.sq.backfillDropped || (s.sq.backfill && bit c 2) } }
  let s := { s with sq := { s.sq with edgeAt := some s.clock, edgeKind := if accepting then 2 else if halted then 1 else 0 } }
  let s := actBindings s
  let s := if accepting then acceptingSteps s ran lack else s
  if halted then
    let s := if accepting then s else stepsTwoToFour (expireDue s) (retiredNow s)
    headRound (setStretch (haltOn s c (ran && !accepted))) 3 none
  else if slip then
    let s := setStretch (haltOff s true)
    headRound (beginSlip s (s.sq.round + 1)) 2 (some s.sq.layout)
  else
    let s := setStretch (haltOff s false)
    let b := wantedBucket s
    if b ≠ s.sq.active ∧ s.sq.verdict = 1 then headRound { s with sq := { s.sq with switchTo := some b } } 4 none
    else runOn s lack

/-- ROUND_BOUNDARY (R291): the end of a round with positions, on the headframe. `othersThawed` says that no frozen master on another
device keeps a fault standing; `lacking` are the frames that other devices lack (R350). -/
def execRoundBoundary (othersThawed : Bool) (lacking : List (BitVec 16 × BitVec 6 × BitVec 32 × BitVec 32)) (s : State) : Out :=
  .next (if atBoundary s false then boundary s othersThawed lacking else s)

/-- EMPTY_ROUND_END (R296): the end of an empty round, on the headframe. -/
def execEmptyRoundEnd (othersThawed : Bool) (lacking : List (BitVec 16 × BitVec 6 × BitVec 32 × BitVec 32)) (s : State) : Out :=
  .next (if atBoundary s true then boundary s othersThawed lacking else s)

/-! ### Switches (R298) -/

/-- A core during a switch (R298): registers, accumulators, bank and slot table clear; its scratchpad and its CARRY slots stay. -/
def switchCore (carry : List Standing) (s : State) (c : Nat) : State :=
  modCore s c (fun k =>
    { imem := k.imem, imemLen := k.imemLen, entry := k.entry, accOvf := k.accOvf, accOvfBeat := k.accOvfBeat, eccCe := k.eccCe
      posted := k.posted, slotFault := k.slotFault, scratch := k.scratch, arriving := k.arriving, stores := k.stores, scratchWas := k.scratchWas
      slots := k.slots.filter (fun e => carry.any (fun x => x.core == c && x.index == e.1)) })

/-- A device changes to the plan of bucket `b` (R298, R311): event 0x06. -/
def switchPlan (s : State) (b : Nat) : State :=
  let old := s.sq.active
  let s := { s with sq := { s.sq with active := b, switchTo := none } }
  let s := forEach (streamIds s) (fun s i => modStream s i (fun t => { t with specHeld := false })) s
  let d := ownRec s
  let s := forEach (upTo 256) (switchCore (d.standing.filter (·.carry))) (loadCores s d)
  raiseEvent s pgSq 0x06 (info [(1, old), (1, b)])

/-- k of every stream is clipped to the new plan's bound (R333); the cause that event 0x0D gives is not stated: a free value (log
entry 37). -/
def clipAll (s : State) : State := forEach (streamIds s) (fun s sid => clipK { s with free := s.free + 1 } sid (Config.freeNat s.free % 256)) s

/-- SWITCH_GAP_END (R298): the gap is over; the new plan is loaded, and the headframe begins its first round. -/
def execSwitchGapEnd (lacking : List (BitVec 16 × BitVec 6 × BitVec 32 × BitVec 32)) (s : State) : Out :=
  .next <|
    match s.sq.switchTo with
    | none => s
    | some b =>
      if s.sq.state ≠ 6 ∨ roundTick s < gapTicks then s
      else
        let s := switchPlan s b
        if isHeadframe s then
          let s := clipAll s
          runOn (forEach (streamIds s) (markWaiting lacking) s) lacking
        else { s with sq := { s.sq with state := 3 } }

/-! ### Orders to a member (R359-R366, R433) -/

/-- A page copied on a member (R362). -/
def copyPage (s : State) (sid owner page : Nat) : State :=
  match allocFrame s 0 owner with
  | some (f, s) => modStream s sid (fun t => { t with copies := t.copies ++ [(page, f, false)] })
  | none => s

/-- One order of the headframe's firmware (log entry 21). -/
def obey (s : State) (o : Order) : State :=
  let sid := o.stream.toNat
  let ow := o.owner.toNat
  let a := o.args.map (·.toNat)
  match o.kind.toNat with
  | 0 =>
    let c := (parseSettings {} o.block 0x7FF (channels s)).getD {}
    match getStream s sid with
    | some _ => modStream s sid (fun t => { t with set := c, owner := ow })
    | none => setStream s sid (some { owner := ow, set := c, modelId := (s.sq.planSet.map (·.modelId)).getD 0 })
  | 1 => allocPages s sid ow a
  | 2 => modStream s sid (fun t => { t with
      releases := t.releases ++ (a.filter (fun q => tblGet 0 t.pages q != 0)).map (fun q => tblGet 0 t.pages q - 1)
      pages := t.pages.filter (fun e => !a.contains e.1) })
  | 3 =>
    let f := ((getStream s (a.getD 1 0)).map (fun t => tblGet 0 t.pages (a.getD 2 0))).getD 0
    if f = 0 then s else modStream s sid (fun t => { t with attach := t.attach ++ [(a.getD 0 0, f - 1)] })
  | 4 => forEach a (fun s q => copyPage s sid ow q) s
  | 5 => modStream s sid (fun t => { t with
      state := 10, releases := t.releases ++ t.pages.map (fun e => e.2 - 1) ++ t.copies.map (fun c => c.2.1), pages := [], copies := [] })
  | 6 =>
    let r : RunAssign := { pos := a.getD 0 0, slot := a.getD 1 0, stream := sid, owner := ow, firstPos := a.getD 2 0, vectors := a.getD 3 0
                           prefill := a.getD 4 0 == 1, k := a.getD 5 0, round := s.sq.round }
    let x : InFlight := { stream := sid, owner := ow, dev := ownPosition s, pos := r.pos, slot := r.slot, firstPos := r.firstPos
                          vectors := r.vectors, prefill := r.prefill, last := a.getD 6 0 == 1, k := r.k, round := r.round, epoch := s.sq.epoch }
    let s := modStream s sid (fun t => { t with
      length := r.firstPos, passK := r.k
      input := (upTo (o.block.length / 4)).map (fun j => BitVec.ofNat 32 (leAt o.block (4 * j) 4)) })
    { s with sq := { s.sq with runs := s.sq.runs ++ [r], steps := s.sq.steps ++ [x] } }
  | _ => s

/-- Orders that add references or queue releases come before steps 2 to 4, allocations and runs after them (R360). -/
def early (o : Order) : Bool := o.kind == 0 || o.kind == 2 || o.kind == 3 || o.kind == 5

/-! ### The round-start flit on a member (R288, R360, R420) -/

/-- A round-start flit for a round the device has not begun (R360): boundary steps, halts, slip rounds, and the round's start. -/
def memberRound (s : State) (verdict layout stretch bucket round at' retired epoch causes : Nat) (orders : List Order) : State :=
  let s := boundaryTrims (applyRepair { s with ri := { s.ri with roundSeen := some round } })
  let accepting := decide (s.sq.epoch < epoch)
  let s := { s with sq := { s.sq with edgeAt := some s.clock, edgeKind := if accepting then 2 else if verdict = 3 then 1 else 0 } }
  let s := if accepting && s.sq.roundRan then acceptRound s else s
  let unaccepted := s.sq.roundRan && !accepting
  let s := { s with sq := { s.sq with epoch := epoch, retiredEpoch := retired, current := stretch } }
  let li := if layout = 0xFF then none else some layout
  if verdict = 2 then
    startRound (beginSlip (haltOff s true) round) 2 round at' li
  else
    let s := forEach (orders.filter early) obey s
    let s := if accepting ∨ verdict = 3 then stepsTwoToFour s retired else s
    if verdict = 3 then startRound (haltOn s causes unaccepted) 3 round at' none
    else
      let s := haltOff s false
      if verdict = 4 then startRound { s with sq := { s.sq with switchTo := some bucket } } 4 round at' none
      else
        let s := restamp s (s.sq.ranRound + 1) (round - s.sq.ranRound - 1)
        let s := { s with sq := { s.sq with round := round, ranRound := round - 1 } }
        startRound (forEach (orders.filter (fun o => !early o)) obey s) 1 round at' li

/-- ROUND_START_FLIT (R288, R360, R420): a copy of a round-start flit reaches a member, which passes it on INBYE. A copy that failed its
CRC or a round already begun has no further effect. `causes` (bits [4:1] as HALT_FAULT, HALT_CRITICAL, HALT_HANDOFF, HALT_RETIRE) and
`orders` are what the headframe's firmware has told the member (log entry 21). -/
def execRoundStartFlit (verdict : BitVec 3) (layout stretch bucket : BitVec 8) (round rtbStart retired epoch : BitVec 64) (crcOk : Bool)
    (causes : BitVec 5) (orders : List Order) (s : State) : Out :=
  .next <|
    if isHeadframe s ∨ !crcOk then s
    else
      let s := if (ownPosition s + 1) % ringCount s = 0 then s else
        sendControl s 1 (roundStartFields verdict.toNat layout.toNat stretch.toNat bucket.toNat round.toNat rtbStart.toNat retired.toNat epoch.toNat)
      if !roundsRun s ∨ s.ri.roundSeen = some round.toNat ∨ s.sq.live.isSome ∨ round.toNat ≤ s.sq.round ∨ verdict = 0 ∨ verdict.toNat ≥ 5 then s
      else memberRound s verdict.toNat layout.toNat stretch.toNat bucket.toNat round.toNat rtbStart.toNat retired.toNat epoch.toNat
        causes.toNat orders

/-! ### Status flits (R288, R420, R547) -/

/-- One term of the stretch request: a quotient rounded down, between 0 and 60 (R547). -/
def requestTerm (num : Int) (den : Nat) : Nat := min 60 (num / (den : Int)).toNat

/-- The stretch request before it is held to STRETCH_MAX (R547); temperatures are in 1/16 °C. -/
def rawRequest (s : State) : Nat :=
  let hot := s.dp.roundHot.getD s.dp.hottest
  let stk := s.dp.roundStk.getD s.dp.hotStack
  max (max (requestTerm (hot - 16 * (s.dp.throttle : Int)) 4) (requestTerm (stk - 1520) 4))
    (requestTerm (400 * (s.dp.pin1s - (s.manifest.powerLimit : Int))) s.manifest.powerLimit)

/-- The device's stretch request for the round (R547, R569, R573): at HOT or above it passes STRETCH_MAX, and that is counted. -/
def stretchRequest (s : State) : Nat × State :=
  let r := rawRequest s
  if level s < 2 then (min r s.dp.stretchMax, s)
  else if r ≤ s.dp.stretchMax then (r, s)
  else (r, overrideEvent { s with dp := { s.dp with ovThrottle := s.dp.ovThrottle.bump (sclk s) 4095 1 } } 1 r)

/-- The worst status that applies to the device (R288, R420). -/
def ownStatus (s : State) : Nat :=
  if 3 ≤ level s then 4
  else if s.sq.faulted ∨ s.sq.faultPos ≠ [] ∨ s.cx.state = 5 ∨ (isHeadframe s ∧ refFault s) then 3
  else if s.sq.roundRan ∧ s.sq.exhausted ≠ [] then 2
  else if (s.sq.roundRan ∧ s.sq.replaying ≠ []) ∨ s.sq.lossReplay then 1
  else 0

/-- A round that reports CRITICAL is counted (R569, R573). -/
def countHalt (s : State) (status : Nat) : State :=
  if status = 4 then overrideEvent { s with dp := { s.dp with ovHalt := s.dp.ovHalt.bump (sclk s) 255 1 } } 3 0 else s

/-- Positions a status flit lists (R288, R420). -/
def listedPositions (s : State) : List Nat := if s.sq.roundRan then s.sq.replaying else []

/-- The round's status flit may leave (R288): the device's last position has ended, or it has none. -/
def statusDue (s : State) : Bool :=
  s.sq.state != 6 && s.sq.live.isNone && s.sq.beatHeld.isNone
    && (s.sq.emptyRound || decide (lastEnd (ownRec s) s.sq.layout ≤ roundTick s))

/-- The status flit of the round in progress has been sent. -/
def statusSent (s : State) : Bool := match s.sq.statusFor with
  | some r => decide (s.sq.round ≤ r)
  | none => false

/-- A status flit leaves INBYE twice (R420), or is recorded at once where the headframe sends it. -/
def sendStatus (s : State) (round status req : Nat) (ps : List Nat) : State :=
  let n := if 32 < ps.length then 0xFF else ps.length
  if isHeadframe s then
    let e : RxStatus := { got := true, status := status, replaying := n, stretch := req, level := level s }
    { s with sq := { s.sq with rxStatus := tblSet {} s.sq.rxStatus (ownPosition s) e } }
  else
    let f := statusFields status (ownPosition s) req (level s) n round (if n = 0xFF then [] else ps)
    sendControl (sendControl s 1 f) 1 f

/-- ROUND_FAULT of each position that reports FAULT (R311). -/
def faultEvents (s : State) : State :=
  forEach s.sq.faultPos (fun s f => raiseEvent s pgSq 0x0B (info [(1, ownPosition s), (2, f.1), (1, f.2.1), (4, f.2.2)])) s

/-- STATUS_FLIT_SEND (R288, R420): the device sends the status flit of its round, which takes the faults up to then (R295): a later freeze
is reported with the next one. A member that has had no round-start flit by the first
position of the round that should have begun reports FAULT for it. -/
def execStatusFlitSend (s : State) : Out :=
  .next <|
    if !roundsRun s then s
    else if !statusSent s then
      if !statusDue s then s
      else
        let s := faultEvents s
        let r := stretchRequest s
        let s := { r.2 with sq := { r.2.sq with request := r.1, statusFor := some r.2.sq.round } }
        let s := sendStatus (countHalt s (ownStatus s)) s.sq.round (ownStatus s) r.1 (listedPositions s)
        { s with sq := { s.sq with faulted := false, faultPos := [] } }
    else if isHeadframe s ∨ s.sq.statusFor ≠ some s.sq.round ∨ roundTick s < roundTicks s + ((ownRec s).positions.map (·.p)).foldl min (2 ^ 27) ∨ s.sq.live.isSome then s
    else
      let r := stretchRequest s
      let n := r.2.sq.round + 1
      let s := { r.2 with sq := { r.2.sq with request := r.1, statusFor := some n } }
      let status := if 3 ≤ level s then 4 else 3
      sendStatus (countHalt s status) n status r.1 []

/-- STATUS_FLIT (R291, R420): a copy of a status flit of ring position `pos` arrives. The headframe records the first that passes its
CRC for the round; a member passes it on. -/
def execStatusFlit (pos : BitVec 6) (status replaying stretch level : BitVec 8) (round : BitVec 64) (positions : List (BitVec 16))
    (crcOk : Bool) (s : State) : Out :=
  .next <|
    if !crcOk then s
    else if !isHeadframe s then
      sendControl s 1 (statusFields status.toNat pos.toNat stretch.toNat level.toNat replaying.toNat round.toNat (positions.map (·.toNat)))
    else if !roundsRun s ∨ round.toNat ≠ s.sq.round ∨ roundLimit s < roundTick s ∨ ringCount s ≤ pos.toNat ∨ (rx s pos.toNat).got then s
    else
      let e : RxStatus :=
        { got := true, status := status.toNat, replaying := replaying.toNat, stretch := stretch.toNat, level := level.toNat }
      { s with sq := { s.sq with rxStatus := tblSet {} s.sq.rxStatus pos.toNat e } }

/-! ### SQ_STRETCH (R308) -/

/-- A write of SQ_STRETCH (R308): a FLOOR above 60 discards it. -/
def writeStretch (s : State) (v : Nat) : State :=
  let f := bits v 16 7
  if 60 < f then s else { s with sq := { s.sq with floor := f } }

/-- SQ_STRETCH (R308). -/
def execSqStretch (a : Accessor) (value : BitVec 32) (s : State) : Out :=
  .next (if mayWrite s a pgSq && a != .mgmt then writeStretch s value.toNat else s)

end Sys2Proof.Machine
end

