-- ==== Sys2Proof/Machine/PlanDma.lean ====
section
/-! DEFINITION. Plan DMA transfers, KV selectors, and copy-on-write copies (R208, R278, R295, R316-R323, R362, R381-R387). -/

namespace Sys2Proof.Machine

/-! ### KV pages (R316, R317, R319) -/

/-- KV geometry of this device (R316, R367). -/
def ownGeometry (s : State) : List Nat := (s.sq.kvGeom.drop (4 * ownPosition s)).take 4

/-- Bytes of a block: 64 entries of one layer slot, part and head (R316). -/
def blockBytes (a : Nat) : Nat := 64 * kvEntry (kvBe4 a) (kvDim a)

/-- Page offset of the block of head `h` that a selector names (R316). -/
def blockOffset (a h : Nat) : Nat := ((2 * kvLayer a + kvPart a) * kvHeads a + h) * blockBytes a

/-- Frame of a page of a stream on this device. -/
def frameOf (s : State) (sid page : Nat) : Option Nat :=
  match getStream s sid with
  | some t => if tblGet 0 t.pages page = 0 then none else some (tblGet 0 t.pages page - 1)
  | none => none

/-- The run of the vector that a KV selector names (R312, R319); none for padding (R323). -/
def selectedRun (s : State) (l : Live) (a : Nat) : Option RunAssign :=
  let w := runCapOf (liveTemplate s)
  (runsAt s l.pos).find? (fun r => r.slot == kvVector a / w && !r.padded && decide (0 < r.vectors))

/-- Pages a KV transfer touches: those read by HISTORY, those written by NEW (R320, R321). -/
def touchedPages (x : Dma) (r : RunAssign) : List Nat :=
  let a := x.addr
  match kvSpan a with
  | 0 => upTo ((r.firstPos + 63) / 64)
  | 1 =>
    let w := x.bytes / (kvCount a * (64 * ((kvEntry (kvBe4 a) (kvDim a) + 63) / 64)))
    (upTo ((r.firstPos + w - 1) / 64 + 1)).drop (r.firstPos / 64)
  | _ => []

/-- The access that a transfer makes is refused (R381). -/
def dmaRefused (s : State) (x : Dma) (r : Option RunAssign) : Bool :=
  match x.mode, r with
  | 0, _ => !extentsGranted s 0 x.addr x.bytes
  | 2, _ => !extentsGranted s x.owner x.addr x.bytes
  | _, none => false
  | _, some r => (touchedPages x r).any (fun q => (frameOf s r.stream q).isNone)

/-! ### A position that reports FAULT for a transfer (R295, R311) -/

/-- The position of a transfer reports FAULT: the beat in execution, or one that has ended. -/
def faultAt (s : State) (p cause : Nat) : State :=
  match s.sq.live with
  | some l => if l.pos = p then posFault s cause else
      { s with sq := { s.sq with faulted := true, faultPos := s.sq.faultPos ++ [(p, cause, s.sq.beatCount.toNat % 2 ^ 32)] } }
  | none => { s with sq := { s.sq with faulted := true, faultPos := s.sq.faultPos ++ [(p, cause, s.sq.beatCount.toNat % 2 ^ 32)] } }

/-- A plan queue freezes (R47, R381, R382). -/
def freezeQueue (s : State) (p queue code addr : Nat) : State := faultAt (freeze s pgMs 2 queue code addr) p 1

/-! ### DMA_SLOT_START (R278, R295, R322, R381) -/

/-- Token IDs that a ROWS read finds at its START (R322). -/
def rowIds (c : Core) (x : Dma) (ecc : List (Nat × Bool)) : List Nat :=
  let b := c.serve (x.offset - 256) (4 * kvRows x.addr) ecc
  (upTo (kvRows x.addr)).map (fun i => leAt b (4 * i) 4)

/-- Bytes of one row of a ROWS read (R322). -/
def rowBytes (x : Dma) : Nat := x.bytes / kvRows x.addr

/-- A row lies in memory that the owner may access (R322, R381). -/
def rowAllowed (s : State) (owner : Nat) (x : Dma) (id : Nat) : Bool := extentsGranted s owner (kvBase x.addr + id * rowBytes x) (rowBytes x)

/-- ROW_RANGE for the first bad ID of the beat (R322, R337). -/
def rowRange (s : State) (owner k : Nat) (x : Dma) (ids : List Nat) : State :=
  match (indexed ids).find? (fun e => e.2 != 0xFFFFFFFF && !rowAllowed s owner x e.2), s.sq.live with
  | some e, some l =>
    if l.rowRange then s
    else raiseEvent (modLive s (fun l => { l with rowRange := true })) pgSq 0x0F (info [(4, e.2), (1, kvVector x.addr + e.1), (2, k)])
  | _, _ => s

/-- DMA_SLOT_START (R278): at START of the beat in execution a DMA slot begins on the plan queue of its core. Unposted it is not made
(R295); refused it freezes its queue (R381), and for a page that has no frame the FAULT address is a free value (log entry 37). `ecc` are the errors met in the scratchpad (R201). -/
def execDmaSlotStart (slot : BitVec 16) (ecc : List (Nat × Bool)) (s : State) : Out :=
  .next <|
    let k := slot.toNat
    match s.sq.live, (liveTemplate s).dmas[k]? with
    | some l, some x =>
      if l.cycle ≠ 2 * x.start ∨ l.done.contains (5, k) then s
      else
        let s := modLive s (fun l => { l with done := (5, k) :: l.done })
        let r := if x.mode = 1 then selectedRun s l x.addr else none
        if isFrozen s 2 x.core then s
        else if x.dir = 1 ∧ !isPosted s 3 k then unposted s 3 k
        else if dmaRefused s x r then
          (if x.mode = 1 then freezeQueue (draw s).2 l.pos x.core 0x0A05 ((draw s).1 % 2 ^ 64) else freezeQueue s l.pos x.core 0x0A05 x.addr)
        else
          let rows := x.mode == 1 && kvSpan x.addr == 2
          let owner := match r with
            | some r => r.owner
            | none => if x.mode = 2 then x.owner else 0
          let c := getCore s x.core
          let ids := if rows && r.isSome then rowIds c x ecc else []
          let data := if x.dir = 1 then c.serve x.offset x.bytes ecc else []
          let s := if rows && r.isSome then scratchEcc s x.core [(x.offset - 256, 4 * kvRows x.addr)] ecc
            else if x.dir = 1 then scratchEcc s x.core [(x.offset, x.bytes)] ecc else s
          let s := rowRange s owner k x ids
          let d : DmaRun :=
            { pos := l.pos, template := l.template, slot := k, owner := owner, run := r, endAt := s.clock + 2 * x.stop - l.cycle, ids := ids
              data := data }
          { s with sq := { s.sq with dmaRunning := s.sq.dmaRunning ++ [d] } }
    | _, _ => s

/-! ### DMA_TRANSFER_COMPLETE (R205, R208, R318, R320-R323, R383, R386) -/

/-- The DMA slot of a transfer in progress. -/
def runningDma (s : State) (d : DmaRun) : Dma := ((ownRec s).templates.getD d.template {}).dmas.getD d.slot {}

/-- Zero bytes. -/
def zeros (n : Nat) : List Byte := List.replicate n 0

/-- Memory ranges that a read touches, with the bytes it delivers, in the order of the scratchpad (R320, R322, R323): an address, or none
where zeros are delivered without reading. -/
def dmaPieces (s : State) (x : Dma) (d : DmaRun) : List (Option Nat × Nat) :=
  let a := x.addr
  if x.mode ≠ 1 then [(some a, x.bytes)]
  else match d.run, kvSpan a with
    | none, _ => [(none, x.bytes)]
    | some r, 0 =>
      let b := blockBytes a
      let q := x.bytes / (kvCount a * b)
      (upTo (kvCount a)).flatMap (fun j => (upTo q).map (fun p =>
        if p < (r.firstPos + 63) / 64 then
          ((frameOf s r.stream p).map (fun f => frameAddr s f + blockOffset a (kvFirst a + j)), b)
        else (none, b)))
    | some r, _ => d.ids.map (fun id =>
        (if id ≠ 0xFFFFFFFF ∧ rowAllowed s r.owner x id then some (kvBase a + id * rowBytes x) else none, rowBytes x))

/-- Bytes that the pieces of a read deliver (R386). -/
def readPieces (s : State) (key : Nat) (ps : List (Option Nat × Nat)) : List Byte :=
  ps.flatMap (fun p => match p.1 with
    | some a => readForPlan s key a p.2
    | none => zeros p.2)

/-- Rows of a read reach the scratchpad (R205, R208): they commit in order at the end of the cycle, where a write into a FULL slot freezes
the queue and nothing more of it is written. -/
def deliverRows (p core base : Nat) (rows : List (List Byte)) (s : State) : State :=
  forEach (indexed rows) (fun s e => arrive s core { kind := 2, who := core, pos := p, off := base + 64 * e.1, data := e.2 }) s

/-- What a write stores: address and bytes (R278, R321, R323). -/
def writePieces (s : State) (x : Dma) (d : DmaRun) : List (Nat × List Byte) :=
  let a := x.addr
  if x.mode ≠ 1 then [(a, d.data)]
  else match d.run with
    | none => []
    | some r =>
      let e := kvEntry (kvBe4 a) (kvDim a)
      let e64 := 64 * ((e + 63) / 64)
      let w := x.bytes / (kvCount a * e64)
      (upTo (kvCount a)).flatMap (fun j => (upTo w).filterMap (fun i =>
        (frameOf s r.stream ((r.firstPos + i) / 64)).map (fun f =>
          (frameAddr s f + blockOffset a (kvFirst a + j) + (r.firstPos + i) % 64 * e, (d.data.drop ((j * w + i) * e64)).take e))))

/-- Bytes of a piece and a stored range meet. -/
def pieceMeets (p : Option Nat × Nat) (w : Nat × List Byte) : Bool := match p.1 with
  | some a => overlap a p.2 w.1 w.2.length
  | none => false

/-- A KV read waits behind a KV write of one of its rows that began before it and has not yet committed (R318, R384). -/
def heldBehind (s : State) (x : Dma) (d : DmaRun) : Bool :=
  x.mode == 1 && x.dir == 0 && (s.sq.dmaRunning.takeWhile (fun e => e != d)).any (fun e =>
    let y := runningDma s e
    y.mode == 1 && y.dir == 1 && (writePieces s y e).any (fun w => (dmaPieces s x d).any (fun p => pieceMeets p w)))

/-- DMA_TRANSFER_COMPLETE (R383): the transfer of a DMA slot of the beat at `pos` completes. `ecc` are the errors met in the stacks (R386).
Completing after END counts in LATE. A KV read held behind a write does not complete yet. -/
def execDmaTransferComplete (pos slot : BitVec 16) (ecc : List (Nat × Bool)) (s : State) : Out :=
  .next <|
    match s.sq.dmaRunning.find? (fun d => d.pos == pos.toNat && d.slot == slot.toNat) with
    | none => s
    | some d =>
      let x := runningDma s d
      if heldBehind s x d then s
      else
      let s := { s with sq := { s.sq with dmaRunning := s.sq.dmaRunning.erase d } }
      if isFrozen s 2 x.core then s
      else
        let s := if d.endAt < s.clock then { s with ms := { s.ms with late := s.ms.late.bump (sclk s) 65535 1 } } else s
        let key := stackKey s d.owner
        if x.dir = 0 then
          let ps := dmaPieces s x d
          let s := forEach ps (fun s p => match p.1 with
            | some a => eccRead s a p.2 ecc rdPlan x.core
            | none => s) s
          if coreFrozen s x.core then s else deliverRows d.pos x.core x.offset (chunks 64 (x.bytes / 64) (readPieces s key ps)) s
        else forEach (writePieces s x d) (fun s w => writeUnder s key w.1 w.2 x.core) s

/-! ### COPY_COMPLETE (R362) -/

/-- One block of a page as the copy holds it (R318, R362, R386): entries at or beyond the stream's length, and words that could not be
read, are not stated: free bytes. -/
def copyBlock (s : State) (key src dst block known : Nat) (ecc : List (Nat × Bool)) : State :=
  let s := eccRead s src block ecc rdCopy 256
  let bytes := (wordsOf src block).flatMap (fun w =>
    if s.ms.poisoned.contains w then leBytes 64 (Config.freeNat (s.free + 1 + w)) else wordUnder s key w)
  let bs := bytes.take known ++ leBytes (block - known) (Config.freeNat s.free)
  writeUnder { s with free := s.free + 2 ^ 34 } key dst bs 256

/-- COPY_COMPLETE (R362): the copy of a page of a stream has finished, on the headframe once every other device has finished its own; its
remap waits for step 2 of the next boundary. -/
def execCopyComplete (stream : BitVec 16) (page : BitVec 14) (othersDone : Bool) (ecc : List (Nat × Bool)) (s : State) : Out :=
  .next <|
    let sid := stream.toNat
    let q := page.toNat
    match getStream s sid with
    | none => s
    | some t =>
      match t.copies.find? (fun c => c.1 == q && !c.2.2) with
      | none => s
      | some c =>
        if isHeadframe s ∧ !othersDone then s
        else
          let g := ownGeometry s
          let e := kvEntry (g.getD 2 0 == 1) (g.getD 1 0)
          let n := 2 * g.getD 3 0 * g.getD 0 0
          let from' := frameAddr s (tblGet 0 t.pages q - 1)
          let dst := frameAddr s c.2.1
          let s := if !ownChannel s t.set.channel ∨ tblGet 0 t.pages q = 0 then s else
            forEach (upTo n) (fun s b =>
              copyBlock s (stackKey s t.owner) (from' + b * (64 * e)) (dst + b * (64 * e)) (64 * e) (e * min 64 (t.length - 64 * q)) ecc) s
          modStream s sid (fun t => { t with copies := t.copies.map (fun d => if d = c then (c.1, c.2.1, true) else d) })

end Sys2Proof.Machine
end

