-- ==== Sys2Proof/Machine/Timed.lean ====
section
/-! DEFINITION. Timed transfers from SEND to the destination's rows, their retained copies and losses, and token records
(R276, R277, R281, R289, R293, R328, R329, R410, R416-R418, R421-R425, R444, R645). -/

namespace Sys2Proof.Machine

/-! ### A ring slot and its timing (R276, R277) -/

/-- A position and one of its ring slots in the active plan's record of a device. -/
def ringSlot (s : State) (src pos slot : Nat) : Option (Pos × Ring) :=
  match activePlan s with
  | none => none
  | some q =>
    let d := q.recs.getD src {}
    match d.positions[pos]? with
    | some x => ((d.tmpl x).rings[slot]?).map (fun r => (x, r))
    | none => none

/-- Payload bytes of a TIMED flit (R408). -/
def flitBytes : Nat := 246

/-- Flits of a payload (R416). -/
def flitCount (bytes : Nat) : Nat := (bytes + flitBytes - 1) / flitBytes

/-- Tick of the round at which the first byte of a transfer leaves re-timing at this device (R277, R416). -/
def releaseTick (s : State) (src : Nat) (x : Pos) (r : Ring) : Nat :=
  x.p + r.send + hopSum s (ringCount s) r.dir src (ownPosition s)

/-- This device lies on the path of a transfer, behind its sender. -/
def onPath (s : State) (src : Nat) (r : Ring) : Bool :=
  let n := ringCount s
  let me := ownPosition s
  me != src && (me == r.dstDevice || ((hops s n r.dir r.dstDevice n src 0).map (·.1)).contains me)

/-- Ring port a transfer leaves by: 1 INBYE-out, 3 OUTBYE-out. -/
def outPort (dir : Nat) : Nat := if dir = 0 then 1 else 3

/-- Source ID of timed traffic (R424). -/
def timedSource (src core : Nat) : Nat := 256 * src + core

/-- Send TIMED flits `lo` to `hi - 1` of a payload on the next link; `lost` marks those whose payload is lost (R408, R410). -/
def sendFlits (s : State) (r : Ring) (data : List Byte) (lost : List Nat) (lo hi : Nat) : State :=
  forEach ((upTo hi).drop lo) (fun s f =>
    let bad := lost.contains f
    let bs := if bad then padTo flitBytes [] else padTo flitBytes (data.drop (flitBytes * f))
    sendFlit s (outPort r.dir)
      { kind := 1, dst := r.dstDevice, first := f == 0, last := f + 1 == flitCount r.bytes, poison := bad } bs) s

/-! ### TIMED_SEND (R276, R289, R295, R416, R421-R423) -/

/-- Status of the position in execution as it stands (R289, R421). -/
def posStatus (s : State) (l : Live) : Nat :=
  if l.fault ≠ 0 then 3 else if replayCause l = 0 then 0 else if l.rho < replayMax s then 1 else 2

/-- FLAGS of the header that fed a position in this round. -/
def fedFlags (s : State) (p : Nat) : Nat := ((s.sq.inputFlags.find? (fun e => e.1 == p && e.2.1 == s.sq.round)).map (·.2.2.1)).getD 0

/-- Run entries of the header that fed a position in this round (R423). -/
def fedEntries (s : State) (p : Nat) : Option (List (List Byte)) :=
  (s.sq.inputFlags.find? (fun e => e.1 == p && e.2.1 == s.sq.round)).map (·.2.2.2)

/-- The step header and the run table that the ring interface writes into the outgoing flits (R421, R423). -/
def sendHeader (s : State) (l : Live) (fault : Bool) : List Byte × List Byte :=
  let st := if fault then 3 else posStatus s l
  let fed := fedFlags s l.pos
  let flags := ofBool (st == 1 || bit fed 0) + 2 * ofBool (st == 3 || bit fed 1)
  let es := (fedEntries s l.pos).getD (runEntries s.free (liveTemplate s) (runsAt s l.pos))
  (stepHeader st flags l.rho (((posAt s l.pos).map (·.channel)).getD 0) l.pos s.sq.round es, runTable es)

/-- Flits whose bytes a number of ticks has released (R416). -/
def flitsReleased (bytes ticks : Nat) : Nat := if bytes ≤ 480 * ticks then flitCount bytes else 480 * ticks / flitBytes

/-- Bytes `lo` to `hi - 1` of a payload (R416, R423): the header and the run table as they are written, the rest from the scratchpad, or zeros where
the slot was not posted (R295). -/
def payloadPiece (s : State) (r : Ring) (x : Sending) (lo hi : Nat) : List Byte :=
  let a := max lo x.header.length
  let last := r.bytes - x.table.length
  let b := min hi last
  (x.header.drop lo).take (hi - lo)
    ++ (if x.posted then (getCore s r.srcCore).serve (r.srcOff + a) (b - a) x.ecc else padTo (b - a) [])
    ++ (x.table.drop (lo - last)).take (hi - max lo last)

/-- One tick of a transfer that is being sent (R416): the next 480 bytes are read, with the errors that this meets (R201), and the flits that they
complete go out. -/
def sendPiece (s : State) (r : Ring) (x : Sending) : State :=
  let lo := 480 * x.ticks
  let hi := min r.bytes (lo + 480)
  let a := max lo x.header.length
  let b := min hi (r.bytes - x.table.length)
  let y := { x with ticks := x.ticks + 1, data := x.data ++ payloadPiece s r x lo hi }
  let s := if x.posted ∧ a < b then scratchEcc s r.srcCore [(r.srcOff + a, b - a)] x.ecc else s
  let s := sendFlits s r y.data [] (flitsReleased r.bytes x.ticks) (flitsReleased r.bytes y.ticks)
  if y.ticks < linkTicks r.bytes then { s with ri := { s.ri with sending := s.ri.sending ++ [y] } } else s

/-- A tick of every transfer that this device is sending (R416). -/
def sendTick (s : State) : State :=
  forEach s.ri.sending (fun s x => match ringSlot s (ownPosition s) x.pos x.slot with
    | some (_, r) => sendPiece s r x
    | none => s) { s with ri := { s.ri with sending := [] } }

/-- TIMED_SEND (R416): at SEND of the beat in execution the ring interface begins to read a ring slot's payload, 480 bytes in each tick, and to send
it. Unposted, the slot is sent with a zero payload and its header marked FAULT (R295). `ecc` are the errors met in the scratchpad (R201). -/
def execTimedSend (slot : BitVec 16) (ecc : List (Nat × Bool)) (s : State) : Out :=
  .next <|
    let k := slot.toNat
    match s.sq.live, (liveTemplate s).rings[k]? with
    | some l, some r =>
      if l.cycle / 2 ≠ r.send ∨ l.done.contains (4, k) then s
      else
        let s := modLive s (fun l => { l with done := (4, k) :: l.done })
        let ok := isPosted s 2 k
        let s := if ok then s else unposted s 2 k
        let h := if r.stepOut then sendHeader s ((s.sq.live).getD l) (!ok) else ([], [])
        let s := if r.stepOut then { s with free := s.free + runSlots (liveTemplate s) } else s
        sendPiece s r { pos := l.pos, slot := k, posted := ok, ecc := ecc, header := h.1, table := h.2 }
    | _, _ => s

/-! ### The re-timing buffer (R410, R416) -/

/-- The same transfer. -/
def Transfer.is (t : Transfer) (src pos slot : Nat) : Bool := t.src == src && t.pos == pos && t.slot == slot

/-- A transfer in the buffer. -/
def findTransfer (s : State) (src pos slot : Nat) : Option Transfer := s.ri.retime.find? (·.is src pos slot)

/-- Put a transfer into the buffer, in place of what it held of it. -/
def putTransfer (s : State) (t : Transfer) : State :=
  { s with ri := { s.ri with retime := s.ri.retime.filter (fun u => !u.is t.src t.pos t.slot) ++ [t] } }

/-- TIMED_FLIT (R408, R410, R416): flit `index` of a transfer arrives and goes into the re-timing buffer; one that failed its CRC or carries
POISON goes on with its payload lost. -/
def execTimedFlit (src : BitVec 6) (pos slot index : BitVec 16) (payload : List (BitVec 8)) (crcOk poison : Bool) (s : State) : Out :=
  .next <|
    match ringSlot s src.toNat pos.toNat slot.toNat with
    | none => s
    | some (x, r) =>
      let t := (findTransfer s src.toNat pos.toNat slot.toNat).getD
        { src := src.toNat, pos := pos.toNat, slot := slot.toNat, round := s.sq.round }
      if x.layout ≠ s.sq.layout ∨ s.sq.emptyRound ∨ !onPath s src.toNat r ∨ t.data.length ≠ flitBytes * index.toNat
          ∨ t.dropped ∨ flitCount r.bytes ≤ index.toNat ∨ isFrozen s 4 (timedSource src.toNat r.srcCore) then s
      else
        let bad := !crcOk || poison
        putTransfer s { t with
          data := t.data ++ (if bad then padTo flitBytes [] else padTo flitBytes payload)
          lost := if bad then t.lost ++ [(index.toNat, if crcOk then 2 else 1)] else t.lost }

/-- TIMED_RELEASE (R416): after the published delay the payload is released at 480 bytes a tick, to the next link or to the rows of the
destination (TIMED_ARRIVAL). -/
def execTimedRelease (src : BitVec 6) (pos slot : BitVec 16) (s : State) : Out :=
  .next <|
    match ringSlot s src.toNat pos.toNat slot.toNat, findTransfer s src.toNat pos.toNat slot.toNat with
    | some (x, r), some t =>
      let held := if flitCount r.bytes * flitBytes ≤ t.data.length then linkTicks r.bytes else t.data.length / 480
      let due := min held (min (linkTicks r.bytes) (roundTick s - releaseTick s src.toNat x r))
      if t.dropped ∨ due ≤ t.released then s
      else
        let s := putTransfer s { t with released := due }
        if r.dstDevice = ownPosition s then s
        else
          let s := sendFlits s r t.data (t.lost.map (·.1)) (flitsReleased r.bytes t.released)
            (flitsReleased r.bytes due)
          if due = linkTicks r.bytes then
            { s with ri := { s.ri with retime := s.ri.retime.filter (fun u => !u.is src.toNat pos.toNat slot.toNat) } }
          else s
    | _, _ => s

/-! ### Arrival (R205, R208, R281, R416-R418) -/

/-- Round of the position that consumes what arrives from tick `first` of this round on (R281). -/
def consumingRound (s : State) (x : Pos) (dst first : Nat) : Nat :=
  match posAt s dst with
  | some y => if y.layout = x.layout ∧ first < y.p + ((ownRec s).tmpl y).len then s.sq.round else s.sq.round + 1
  | none => s.sq.round + 1

/-- The arrival is copied into the retention region (R281, R645). -/
def retained (s : State) (r : Ring) : Bool :=
  r.retain || (r.stepOut && match activePlan s with
    | some q => (fedPositions q (ownPosition s)).contains r.dstPos
    | none => false)

/-- The same arrival of this round. -/
def Retained.is (e : Retained) (src pos slot round : Nat) : Bool :=
  e.src == src && e.srcPos == pos && e.srcSlot == slot && e.arrived == round

/-- The valid copy of an arrival of a RETAIN slot that a slip round delivers in its place (R293, R418). -/
def slipCopy (s : State) (r : Ring) (src pos slot : Nat) : Option Retained :=
  if s.sq.verdict = 2 ∧ r.retain then s.sq.retention.find? (fun e => e.is src pos slot s.sq.round && e.valid) else none

/-- One row is added to the copy of a live arrival; a lost flit makes the copy invalid (R281, R417). -/
def retainRow (s : State) (x : Pos) (r : Ring) (t : Transfer) (bs : List Byte) (bad : Bool) : State :=
  let fresh : Retained :=
    { src := t.src, srcPos := t.pos, srcSlot := t.slot, pos := r.dstPos, dstCore := r.dstCore, dstOff := r.dstOff, slot := r.dstSlot
      arrived := s.sq.round, consumed := consumingRound s x r.dstPos (releaseTick s t.src x r) }
  let old := if t.arrived = 0 then fresh else (s.sq.retention.find? (fun e => e.is t.src t.pos t.slot s.sq.round)).getD fresh
  let e := { old with data := old.data ++ bs, valid := old.valid && !bad }
  { s with sq := { s.sq with retention := s.sq.retention.filter (fun e => !e.is t.src t.pos t.slot s.sq.round) ++ [e] } }

/-- A lost flit has reached its destination (R417, R444): event 0x07, the count, and REPLAY for the round, which lists DST_POS where that position
runs in the same round. -/
def timedLost (s : State) (r : Ring) (why : Nat) : State :=
  let s := { s with ri := { s.ri with timedLoss := s.ri.timedLoss.bump (sclk s) 255 1 } }
  let same := (posAt s r.dstPos).any (fun y => y.layout == s.sq.layout)
  let s := { s with sq := { s.sq with
    lossReplay := true
    replaying := if same && !s.sq.replaying.contains r.dstPos then s.sq.replaying ++ [r.dstPos] else s.sq.replaying } }
  raiseEvent s pgRi 0x07 (info [(2, r.dstPos), (1, if r.dir = 0 then 0 else 2), (1, why), (4, s.sq.beatCount.toNat)])

/-- Row `j` of a transfer meets a lost flit. -/
def rowLost (t : Transfer) (j : Nat) : Bool := t.lost.any (fun e => overlap (flitBytes * e.1) flitBytes (64 * j) 64)

/-- Row `j` reaches its slot (R205, R208, R416, R417); it commits at the end of the cycle (R209). -/
def arriveRow (x : Pos) (r : Ring) (copy : Option Retained) (t : Transfer) (s : State) (j : Nat) : State :=
  let src := timedSource t.src r.srcCore
  let bad := copy.isNone && rowLost t j
  let bs := match copy with
    | some e => (e.data.drop (64 * j)).take 64
    | none => if bad then nanWord else (t.data.drop (64 * j)).take 64
  let a := r.dstOff + 64 * j
  if isFrozen s 4 src then s
  else
    let s := if copy.isNone && retained s r then retainRow s x r { t with arrived := j } bs bad else s
    if coreFrozen s r.dstCore then s
    else arrive s r.dstCore { kind := 4, who := src, pos := r.dstPos, off := a, data := bs }

/-- A step header has arrived whole (R314, R329, R421): it gives a position its runs, or it is a token record for the first device. -/
def headerArrived (s : State) (x : Pos) (r : Ring) (t : Transfer) (data : List Byte) : State :=
  let p := r.dstPos
  let n := consumingRound s x p (releaseTick s t.src x r)
  let fed := match activePlan s with
    | some q => (fedPositions q (ownPosition s)).contains p
    | none => false
  if fed then { s with sq := { s.sq with recordsIn := if s.sq.recordsIn.contains p then s.sq.recordsIn else s.sq.recordsIn ++ [p] } }
  else
    let table := data.drop (r.bytes - 64 * ((byteAt data 5 - 6 + 7) / 8))
    let runs := parseRuns s p n data table
    let es := headerEntries data table
    let s := { s with sq := { s.sq with
      runs := s.sq.runs.filter (fun e => e.pos != p || e.round != n) ++ runs
      inputFlags := s.sq.inputFlags.filter (fun e => e.1 != p || e.2.1 != n) ++ [(p, n, byteAt data 2, es)] } }
    match s.sq.live, posAt s p with
    | some l, some y =>
      if l.pos = p ∧ n = s.sq.round ∧ y.role ≠ 2 ∧ lastOfChannel s y.layout y.channel then fillDraws s p y else s
    | _, _ => s

/-- TIMED_ARRIVAL (R416-R418): the rows that have been released are written at the destination, counted and retained. In a slip round a
transfer whose copy is valid comes from the copy, at the tick of the original. -/
def execTimedArrival (src : BitVec 6) (pos slot : BitVec 16) (s : State) : Out :=
  .next <|
    match ringSlot s src.toNat pos.toNat slot.toNat with
    | none => s
    | some (x, r) =>
      let found := findTransfer s src.toNat pos.toNat slot.toNat
      let copy := match found with
        | some t => if t.arrived = 0 then slipCopy s r src.toNat pos.toNat slot.toNat
          else if t.fromCopy then slipCopy s r src.toNat pos.toNat slot.toNat else none
        | none => slipCopy s r src.toNat pos.toNat slot.toNat
      if r.dstDevice ≠ ownPosition s ∨ x.layout ≠ s.sq.layout ∨ s.sq.emptyRound ∨ (found.isNone ∧ copy.isNone) then s
      else
        let t := found.getD { src := src.toNat, pos := pos.toNat, slot := slot.toNat, round := s.sq.round }
        let ticks := if copy.isSome then min (linkTicks r.bytes) (roundTick s - releaseTick s src.toNat x r) else t.released
        let rows := min (480 * ticks) r.bytes / 64
        if t.dropped ∨ rows ≤ t.arrived then s
        else
          let s := forEach ((upTo rows).drop t.arrived) (arriveRow x r copy t) s
          let hit := if copy.isSome then [] else t.lost.filter (fun e => decide (64 * t.arrived ≤ flitBytes * e.1) &&
            decide (flitBytes * e.1 < 64 * rows))
          let s := forEach hit (fun s e => timedLost s r e.2) s
          let whole := match copy with
            | some e => e.data
            | none => t.data.take r.bytes
          putTransfer s { t with
            arrived := rows, fromCopy := copy.isSome, header := if 64 * rows < r.bytes ∨ !r.stepOut then [] else whole }

/-- A step header whose last rows committed in this cycle is taken (R421), unless the write froze its ring source (R208). -/
def takeHeader (s : State) (t : Transfer) : State :=
  let s := { s with ri := { s.ri with retime := s.ri.retime.map (fun u => if u = t then { u with header := [] } else u) } }
  match ringSlot s t.src t.pos t.slot with
  | none => s
  | some (x, r) => if isFrozen s 4 (timedSource t.src r.srcCore) then s else headerArrived s x r t t.header

/-- The step headers that have arrived whole. -/
def takeHeaders (s : State) : State := forEach (s.ri.retime.filter (fun t => t.header != [] && !t.dropped)) takeHeader s

/-! ### Token records (R328, R329) -/

/-- Run slots and streams of a record: as its header lists them, which on a ring of one is the round's own assignment (R328, R400). -/
def recordSlots (s : State) (p : Nat) (data table : List Byte) : List (Nat × Nat) :=
  if 1 < ringCount s then (parseRuns s p s.sq.round data table).map (fun r => (r.slot, r.stream))
  else (s.sq.steps.filter (fun x => x.pos == p && x.dev == ownPosition s && !x.back)).map (fun x => (x.slot, x.stream))

/-- Entry of a run slot in a token record: EMITTED, ACCEPTED, K and the tokens (R328). -/
def recordEntry (data : List Byte) (j : Nat) : Nat × Nat × Nat × List (BitVec 32) :=
  let e := data.drop (64 + 320 * j)
  (byteAt e 2, byteAt e 3, byteAt e 4, (upTo (min 64 (byteAt e 2))).map (fun i => BitVec.ofNat 32 (leAt e (64 + 4 * i) 4)))

/-- A step has come back: its entry passes and its stream's length moves provisionally, or TOKEN_BAD (R329, R337). In a PREFILL run only the
last one has an entry (R353). Only the first device of the channel reports TOKEN_BAD. -/
def takeEntry (report : Bool) (data : List Byte) (s : State) (x : InFlight) (j : Nat) : State :=
  let e := recordEntry data j
  let mark := fun (s : State) (toks : List (BitVec 32)) => { s with sq := { s.sq with steps := s.sq.steps.map (fun y =>
    if y = x then { y with back := true, tokens := toks, accepted := e.2.1 } else y) } }
  if x.prefill ∧ !x.last then mark s []
  else if e.1 ≤ x.vectors ∧ e.2.1 < e.1 ∧ e.2.1 ≤ e.2.2.1 then
    let s := mark s e.2.2.2
    if x.prefill then s else modStream s x.stream (fun t => { t with length := x.firstPos + e.1 })
  else if !report then mark s []
  else
    raiseEvent (mark s []) pgSq 0x0E
      (info [(2, x.stream), (1, e.1), (1, e.2.1), (1, e.2.2.1), (3, 0), (4, s.sq.beatCount.toNat)])

/-- TOKEN_RECORD_ARRIVAL (R329): the token record of a position that this device feeds is taken from the feed slot: on a ring of two or
more when its transfer has arrived, on a ring of one at the end of the round's last position, where the sequencer also keeps a copy
(R281). A first device that is not the headframe sends the entries on. `read` names the position and the errors that the read of the slot
meets (R201). -/
def execTokenRecordArrival (read : ErrRead) (s : State) : Out :=
  .next <|
    let p := read.subject.toNat
    match feedSlot (ownRec s) p, posAt s p with
    | some f, some x =>
      let here := if 1 < ringCount s then s.sq.recordsIn.contains p
        else s.sq.live.isNone && decide (lastEnd (ownRec s) s.sq.layout ≤ roundTick s)
      if !here ∨ s.sq.emptyRound ∨ x.layout ≠ s.sq.layout ∨ s.sq.recordsTaken.contains p ∨ coreFrozen s f.core then s
      else
        let data := (getCore s f.core).serve f.base (2 ^ f.n) read.ecc
        let s := scratchEcc s f.core [(f.base, 2 ^ f.n)] read.ecc
        let bytes := recordBytes ((s.sq.planSet).getD {}) (planNow s) (ownPosition s) p
        let table := data.drop (bytes - 64 * ((byteAt data 5 - 6 + 7) / 8))
        let slots := recordSlots s p data table
        let s := { s with sq := { s.sq with recordsTaken := s.sq.recordsTaken ++ [p], recordsIn := s.sq.recordsIn.filter (· != p) } }
        let s := if 1 < ringCount s then s else
          let e : Retained :=
            { src := ownPosition s, srcPos := p, pos := p, dstCore := f.core, dstOff := f.base, slot := f.index, data := data
              arrived := s.sq.round, consumed := s.sq.round + 1 }
          { s with sq := { s.sq with
            retention := s.sq.retention.filter (fun g => g.pos != p || g.src != ownPosition s || g.arrived != s.sq.round) ++ [e] } }
        let s := forEach slots (fun s j =>
          match s.sq.steps.find? (fun y => y.stream == j.2 && y.dev == ownPosition s && !y.back) with
          | some y => takeEntry true data s y j.1
          | none => s) s
        if isHeadframe s then s else sendMessage s 0 0x60 [p] data
    | _, _ => s

end Sys2Proof.Machine
end

