-- ==== Sys2Proof/Machine/Beat.lean ====
section
/-! DEFINITION. Time (R621, R622), and what happens at the end of a cycle and of a tick (R65, R166, R192, R205, R209). -/

namespace Sys2Proof.Machine

/-! ### The end of a cycle at the scratchpads (R205, R208, R209) -/

/-- A write into a FULL slot freezes the master that made it (R208): a core, a DMA queue or a ring source. -/
def fullSlotFreeze (s : State) (c : Nat) (x : Arrival) (i o : Nat) : State :=
  if x.kind = 3 then slotFault s x.who 0x11 o (slotDetail c i 1 4)
  else if x.kind = 2 then freezeQueue s x.pos x.who 0x0D11 x.off
  else faultAt (freeze s pgRi 4 x.who 0x0D11 x.off) x.pos 1

/-- One arrival at core `c` commits (R208, R213): a frozen core takes nothing, and a DMA queue or ring source that has frozen in the
meantime writes no more. -/
def commitArrival (c : Nat) (s : State) (x : Arrival) : State :=
  if coreFrozen s c ∨ (x.kind ≠ 3 ∧ x.kind ≠ 0 ∧ isFrozen s x.kind x.who) then s
  else match if x.kind = 0 then none else fullSlot (getCore s c) x.off x.data.length with
    | some (i, o) => fullSlotFreeze s c x i o
    | none => modCore s c (fun k => k.commit x)

/-- The arrivals of a cycle at one core commit (R209): DMA and ring first, then remote writes. -/
def commitCore (s : State) (c : Nat) : State :=
  let xs := (getCore s c).arriving
  let s := modCore s c (fun k => { k with arriving := [] })
  forEach (xs.filter (·.remote)) (commitArrival c) (forEach (xs.filter (fun x => !x.remote)) (commitArrival c) s)

/-- Entry blocks that close with the tick (R192). -/
def closeBlocks (s : State) (c : Nat) : State :=
  let bs := (getCore s c).closing
  forEach bs (closeBlock c) (modCore s c (fun k => { k with closing := [] }))

/-- The end of one cycle at the cores (R192, R205, R209): arrivals commit, slots become FULL, and the arrivals increment COUNT in the next
cycle; step headers that came whole are taken; `tick` tells that the cycle ends a tick. -/
def cycleEnd (s : State) (tick : Bool) : State :=
  let s := forEach ((s.cores.filter (fun e => e.2.arriving != [])).map (·.1)) commitCore s
  let s := { s with cores := tblMap {} (fun _ k => k.fillSlots.nextCycle) s.cores }
  let s := if tick then forEach ((s.cores.filter (fun e => e.2.closing != [])).map (·.1)) closeBlocks s else s
  takeHeaders s

/-! ### Time -/

/-- A beat in execution advances by a cycle (R257); its first cycle of a tick sets the converters' biases (R65). -/
def beatAdvance (s : State) : State :=
  match s.sq.live with
  | none => s
  | some l =>
    let s := modLive s (fun l => { l with cycle := l.cycle + 1 })
    if (l.cycle + 1) % 2 = 0 then biasTick s ((l.cycle + 1) / 2) else s

/-- Programming work that waits for its place starts (R166). -/
def waitingJobs (s : State) : State := if s.jobs.any (fun j => j.phase == 0) then startJobs s else s

/-- One cycle of DCLK with no command (log entry 2): time passes; RTB counts once in 16 cycles while the main clocks run (R622); the cores'
cycle ends (R209), a beat in execution advances (R257), and programming work that waits may start (R166); a sump record lost in the cycle before is reported (R387),
and each tick takes the transfers that are being sent further (R416). -/
def idleCycle (s : State) : State :=
  let s := { s with clock := s.clock + 1 }
  if mainPower s && s.power.pllLocked then
    let s := if (s.clock + s.power.rtbPhase) % 16 = 0 then { s with power := { s.power with rtb := s.power.rtb + 1 } } else s
    let tick := match s.sq.live with
      | some l => l.cycle % 2 == 1
      | none => true
    let s := if (s.clock + s.power.rtbPhase) % 2 = 0 then sendTick s else s
    let s := forEach s.ms.lost (fun s w => eccEvent s w rdPartial 0xFFFF) { s with ms := { s.ms with lost := [] } }
    let s := issueReads (issueReads (waitingJobs (beatAdvance (cycleEnd s tick))) false) true
    if s.power.refLostHf && !refFault s then repeatClock s else s
  else s

end Sys2Proof.Machine
end

