-- ==== Sys2Proof/Machine/Assay.lean ====
section
/-! DEFINITION. Assays: their commands, what they compare and how they end (R566-R568, R584, R585). -/

namespace Sys2Proof.Machine

/-! ### Starting and stopping (R566, R584) -/

/-- An assay is refused with a code (R566, R585). -/
def assayRefuse (s : State) (code : Nat) : State :=
  { s with hb := { s.hb with assayState := 2, assayCode := code, assayExceed := 0, assayChecked := 0 } }

/-- An assay starts. -/
def assayStart (s : State) (a : Assay) : State :=
  { s with hb := { s.hb with assayState := 1, assayCode := 0, assayExceed := 0, assayChecked := 0, assay := some a } }

/-- Lowest free relief tile of a group. -/
def lowestFree (s : State) (g : Nat) : Option Nat := (upTo 64).find? (fun j => (getRelief s g j).state == 0)

/-- A PATTERN assay holds relief tile `j` of a group and has the pattern programmed into it: a job of kind 6 (R566). -/
def startPattern (s : State) (a : Assay) (g j : Nat) : State :=
  let i := tileIx g (1024 + j)
  let was := reliefFree s g
  let s := checkReserve (setRelief s g j { state := 3 } 5) g was
  assayStart { s with jobs := s.jobs ++ [{ kind := 6, group := g, logical := 0xFFFF, tile := i }] } { a with heldTile := some i }

/-- A write of HB_ASSAY_CMD (R566, R584). A START while one runs is refused with BUSY and leaves it running. -/
def writeAssay (s : State) (v : Nat) : State :=
  let s := if bit v 30 then endAssay s 6 0 0 else s
  if !bit v 31 ∨ s.hb.state = 0 ∨ !takesWork s pgHb then s
  else
    let kind := bits v 28 2
    let unit := bits v 20 8
    let tile := bits v 9 11
    let a : Assay := { kind := kind, unit := unit, tile := tile, retire := bit v 8, startedAt := s.clock }
    if s.hb.assay.isSome then { s with hb := { s.hb with assayCode := 2 } }
    else if 3 ≤ level s then assayRefuse s 7
    else if kind = 0 then
      if 64 ≤ unit ∨ !tgEnabled s unit ∨ (tile ≠ 0x7FF ∧ (tile < 1024 ∨ 1088 ≤ tile)) then assayRefuse s 5
      else
        let pick := if tile = 0x7FF then (if s.hb.margin.reserve < reliefFree s unit then lowestFree s unit else none)
          else if (getRelief s unit (tile - 1024)).state = 0 then some (tile - 1024) else none
        match pick with
        | none => assayRefuse s 3
        | some j => startPattern s a unit j
    else if kind = 1 then
      match (if unit < 64 ∧ tile < 1024 then getBinding s unit tile else none) with
      | none => assayRefuse s 5
      | some b => if b.bound ∧ tgEnabled s unit then assayStart s a else assayRefuse s 5
    else if kind = 2 then
      if planAdmitted s then s
      else if !ccEnabled s unit then assayRefuse s 5
      else assayStart s a
    else s

/-- A write of HB_ASSAY_CMD that starts kind `kind`. -/
def assayCommand (a : Accessor) (value : BitVec 32) (kind : Nat) (s : State) : State :=
  if mayWrite s a pgHb && bit value.toNat 31 && bits value.toNat 28 2 == kind then writeAssay s value.toNat else s

/-- ASSAY_PATTERN (R566). -/
def execAssayPattern (a : Accessor) (value : BitVec 32) (s : State) : Out := .next (assayCommand a value 0 s)

/-- ASSAY_REPLAY (R566). -/
def execAssayReplay (a : Accessor) (value : BitVec 32) (s : State) : Out := .next (assayCommand a value 1 s)

/-- ASSAY_CORE (R566). -/
def execAssayCore (a : Accessor) (value : BitVec 32) (s : State) : Out := .next (assayCommand a value 2 s)

/-- ABORT (R584). -/
def execHbAbort (a : Accessor) (value : BitVec 32) (s : State) : Out :=
  .next (if mayWrite s a pgHb && bit value.toNat 30 then writeAssay s value.toNat else s)

/-- ASSAY_NO_INPUT (R566): no plan shot reached the tile of a REPLAY assay within 10 s. -/
def execAssayNoInput (s : State) : Out :=
  .next (match s.hb.assay with
    | some a => if a.kind = 1 ∧ a.shotSeen = 0 ∧ a.startedAt + 10 * secCycles ≤ s.clock then endAssay s 4 0 0 else s
    | none => s)

/-! ### The comparison of R567 -/

/-- Decades of a number of seconds in steps of 1/1,024, at least 0 (R567, log entry 94). -/
def decades1024 (t : Nat) : Nat := (Nat.toDigits 10 (t ^ 1024)).length - 1

/-- B of R567 in units of 2^-16 / 614,400,000 product units, of a conversion at range `fsr` with |P|, A, the sum of squares of its drive
values and the sum of its weights' magnitudes, `t` seconds after the tile was programmed. -/
def assayBound (fsr t p a squares weights : Nat) : Nat :=
  65536 * (61440 * (15000 * stepOf fsr + 540000 + 150 * a + 630 * weights + 39 * p) + 40 * p * a)
    + 65536 * 61440 * (15360000 + 2400 * decades1024 t) * isqrt (squares * 2 ^ 20) 40 0 / 2 ^ 20

/-- One conversion against its reference (R567): 0 not compared, since a saturated code's ideal lies outside the range; 1 within B;
2 beyond B; 3 beyond 4B. `value` is q(c) with the sign restored. -/
def judgeCode (fsr t : Nat) (xws : List (Int × Int)) (c value : Int) : Nat :=
  let p := (xws.map (fun x => x.1 * x.2)).sum
  let ideal := roundAwayInt p (stepOf fsr)
  if saturated c && (decide (ideal < -512) || decide (511 < ideal)) then 0
  else
    let a := (xws.map (fun x => x.1.natAbs * x.2.natAbs)).sum
    let squares := (xws.map (fun x => x.1.natAbs * x.1.natAbs)).sum
    let weights := (xws.map (fun x => x.2.natAbs)).sum
    let b := assayBound fsr t p.natAbs a squares weights
    let dev := (value - 65536 * p).natAbs * 614400000
    if 4 * b < dev then 3 else if b < dev then 2 else 1

/-- The 512 codes of a shot converted by tile `t`, against weights given by logical row (R567, R178). The partial shift of the operation
is left out of q(c), since P is in product units (log entry 94). -/
def judgeShot (s : State) (t : Tile) (x : AssayShot) (rows : List (List Int)) (codes : List Int) : List Nat :=
  let secs := (s.clock - t.progAt) / secCycles
  let kept := (indexed (x.xs.zip rows)).filter (fun e => !x.routed.contains e.1)
  (upTo 512).map (fun p =>
    let c := codes.getD p 0
    judgeCode x.fsr secs (kept.map (fun e => (e.2.1, e.2.2.getD p 0))) c (pairSign t p * laneValue t x.fsr 0 c))

/-- The weights of a bound logical tile by logical row, from its master-copy block (R110, R176). -/
def blockRows (s : State) (g l : Nat) : List (List Int) :=
  let d := masterBlock s (lastBinding s g l)
  (upTo 512).map (fun r => (unpackCodes false 512 ((d.drop (256 * r)).take 256)).map (·.toInt))

/-- A recorded plan shot and its 16 replays (R566). `k` is its number among the recorded ones. -/
def judgeReplay (s : State) (g k : Nat) (x : AssayShot) : List Nat :=
  let lo := physicalOf s g x.base
  let hi := physicalOf s g (x.base + 1)
  let t := getTile s (if x.seam then hi else lo)
  let rows := blockRows s g x.base ++ (if x.seam then blockRows s g (x.base + 1) else [])
  (x.codes :: (upTo 16).map (fun n => codesOf s (s.free + 16 * k + n) lo hi x.seam x.fsr x.xs)).flatMap (judgeShot s t x rows)

/-- Pattern vector `k` at FSR3 on the tile that holds the pattern (R566, log entry 94). -/
def judgePattern (s : State) (i k : Nat) : List Nat :=
  let x : AssayShot := { fsr := 3, xs := (upTo 512).map (fun r => Config.assayDrive s.cx.version.toNat k r % 31 - 15) }
  judgeShot s (getTile s i) x (patternWeights s) (codesOf s (s.free + k) i i false 3 x.xs)

/-- The pattern is programmed, settled and calibrated (R566). -/
def patternReady (s : State) (i : Nat) : Bool := s.jobs.any (fun j => j.tile == i && j.kind == 6 && j.phase == 4)

/-- The verdicts of a tile assay with its number of shots, once all its shots can be had; none before. -/
def tileVerdicts (s : State) (a : Assay) : Option (List Nat × Nat) :=
  match a.kind, a.heldTile with
  | 0, some i => if patternReady s i then some ((upTo 256).flatMap (judgePattern s i), 256) else none
  | 1, _ => if a.shotSeen = 64 then some ((indexed a.recorded).flatMap (fun x => judgeReplay s a.unit x.1 x.2), 64 * 17) else none
  | _, _ => none

/-- Conversions of a tile assay that exceed B, that were compared, and whether the tile fails: above 1 %, or one beyond 4B (R567). -/
def tally (vs : List Nat) : Nat × Nat × Bool :=
  let n := (vs.filter (fun v => v != 0)).length
  let e := (vs.filter (fun v => decide (2 ≤ v))).length
  (e, n, vs.contains 3 || decide (n < 100 * e))

/-- A failed tile assay that asked for it has the tile retired (R170, R568): a held relief tile at once, a tile that serves by
TILE_RETIRE. -/
def retireAssayed (s : State) (a : Assay) : State :=
  match a.heldTile with
  | some i => setAssayResult (retireTile (dropJob s i) i 1) 1 0 0
  | none => endAssay (modTile s (physicalOf s a.unit a.tile) (fun t => { t with retireAsked := true })) 1 0 0

/-- ASSAY_COMPLETE (R567, R568): the assay's shots or kernels have been compared. Of a CORE assay the operands say of
each kernel, by the class of its instructions, whether its results agree bit for bit. A record is written (the 64 latest stay) and the result raised. -/
def execAssayComplete (scalar memory vector matrix : List Bool) (s : State) : Out :=
  .next <|
    match s.hb.assay with
    | none => s
    | some a =>
      if a.kind = 2 then
        let ks := scalar ++ memory ++ vector ++ matrix
        reportAssay (endAssay s (ofBool (ks.contains false)) 0 ks.length) a (ks.contains false)
      else match tileVerdicts s a with
        | none => s
        | some (vs, shots) =>
          let r := tally vs
          let s := { s with free := s.free + 1024 }
          let s := if r.2.2 && a.retire then retireAssayed s a else endAssay s 0 0 0
          reportAssay (setAssayResult s (ofBool r.2.2) (if r.2.1 = 0 then 0 else 1000 * r.1 / r.2.1) shots) a r.2.2

end Sys2Proof.Machine
end

