-- ==== Sys2Proof/Machine/CoreMatrix.lean ====
section
/-! DEFINITION. Matrix and accumulator read-out instructions of a correction core (R120, R121, R193-R196, R249-R252). -/

namespace Sys2Proof.Machine

/-- The 1,024 elements of a matrix accumulator, row by row. -/
def Core.acc32 (k : Core) (n : Nat) : List Word32 := tblGetList 0 k.macc (n * 1024) 1024
/-- Write elements of a matrix accumulator from element `i`. -/
def Core.setAcc32 (k : Core) (n i : Nat) (l : List Word32) : Core := { k with macc := tblSetList 0 k.macc (n * 1024 + i) l }

/-- MMA operand formats by code, as format codes of R226 (R249). -/
def mmaFmt (x : Nat) : Nat := match x with
  | 0 => 3
  | 1 => 4
  | 2 => 2
  | _ => 1

/-- One matrix step (R195): the outer product of a column and a row added to the accumulator. -/
def mmaStep (acc col row : List Word32) : List Word32 :=
  (upTo 1024).map (fun i => fFma (col.getD (i / 32) 0) (row.getD (i % 32) 0) (acc.getD i 0))

/-- Steps of MMA in ascending order (R195, R250). -/
def mmaSteps (k : Core) (w : BitVec 64) (ca ra : Nat) (ecc : List (Nat × Bool)) : Nat → List Word32 → List Word32
  | 0, acc => acc
  | n + 1, acc =>
    let cf := mmaFmt (wM w % 4)
    let rf := mmaFmt (wM w / 4)
    let z := elemSize cf
    let get := fun f a => (upTo 32).map (fun i => widen f (leAt (k.read a (32 * z) ecc) (i * z) z))
    mmaSteps k w (ca + 32 * z) (ra + 32 * z) ecc n (mmaStep acc (get cf ca) (get rf ra))

/-- MMA (R195, R196, R250, R253). `residue` lists the accumulator elements whose product failed the residue check: each becomes NaN
and event 0x19 is raised. -/
def mmaBody (s : State) (c : Nat) (w : BitVec 64) (ecc : List (Nat × Bool)) (residue : List (BitVec 10)) : State :=
  let k := getCore s c
  let n := (k.s (wC w)).toNat
  let z := elemSize (mmaFmt (wM w % 4))
  let ca := (k.s (wA w)).toNat
  let ra := (k.s (wB w)).toNat
  let sp := [(ca, 32 * z * n), (ra, 32 * z * n)]
  if n = 0 ∨ 4096 < n then coreFault s c 0x23 n
  else if ca % (32 * z) ≠ 0 then coreFault s c 0x22 ca
  else if ra % (32 * z) ≠ 0 then coreFault s c 0x22 ra
  else (loadAccess k c sp false).run s c (fun s =>
    let sum := mmaSteps k w ca ra ecc n (k.acc32 (wD w))
    let out := (upTo 1024).map (fun i => if residue.any (fun r => r.toNat == i) then nan32 else sum.getD i 0)
    let s := retire s c (fun k => (k.setAcc32 (wD w) 0 out).flagsFor out)
    let s := forEach residue (fun s r => raiseEvent s (pgCc c) 0x19
      (info [(2, wD w * 1024 + r.toNat), (4, s.sq.beatCount.toNat)])) s
    scratchEcc s c sp ecc)

/-- MZ (R249). -/
def execCcMz (core : BitVec 8) (d : BitVec 5) (s : State) : Out :=
  .next (issue s core.toNat (mkWord 0xA0 d 0 0 0 0 0) (fun s => retire s core.toNat (fun k =>
    { k with macc := tblClear k.macc (d.toNat * 1024) (d.toNat * 1024 + 1024) })))

/-- MMA (R249, R250). -/
def execCcMma (core : BitVec 8) (d a b c : BitVec 5) (m : BitVec 4) (ecc : List (Nat × Bool)) (residue : List (BitVec 10)) (s : State) :
    Out :=
  .next (issue s core.toNat (mkWord 0xA1 d a b c m 0) (fun s =>
    mmaBody s core.toNat (mkWord 0xA1 d a b c m 0) ecc residue))

/-- MRD (R249): rows 2q and 2q + 1 into a vector register. -/
def execCcMrd (core : BitVec 8) (d a : BitVec 5) (imm : BitVec 32) (s : State) : Out :=
  .next (issue s core.toNat (mkWord 0xA2 d a 0 0 0 imm) (fun s => retire s core.toNat (fun k =>
    k.setV d.toNat (((k.acc32 a.toNat).drop (64 * (imm.toNat % 16))).take 64))))

/-- MWR (R249): the inverse of MRD. -/
def execCcMwr (core : BitVec 8) (d a : BitVec 5) (imm : BitVec 32) (s : State) : Out :=
  .next (issue s core.toNat (mkWord 0xA3 d a 0 0 0 imm) (fun s => retire s core.toNat (fun k =>
    k.setAcc32 d.toNat (64 * (imm.toNat % 16)) (k.vec a.toNat))))

/-- MST (R249); the address is a multiple of the element size (log entry 107). -/
def execCcMst (core : BitVec 8) (a b : BitVec 5) (m : BitVec 4) (imm : BitVec 32) (s : State) : Out :=
  .next (issue s core.toNat (mkWord 0xA4 0 a b 0 m imm) (fun s =>
    let c := core.toNat
    let k := getCore s c
    let f := m.toNat % 8
    let o := address k (mkWord 0xA4 0 a b 0 m imm) b.toNat
    let out := (k.acc32 a.toNat).flatMap (fun x => leBytes (elemSize f) (narrow f x).1)
    if o % elemSize f ≠ 0 then coreFault s c 0x22 o
    else (storeAccess k c [(o, 1024 * elemSize f)]).run s c (fun s => retire s c (fun k => k.store o out))))

/-! ### Read-out (R193, R194, R251, R252) -/

/-- The word of a FINAL entry (R193). -/
def Acc.word (x : Acc) : Nat := field 52 1 (ofBool x.clip) + field 48 4 x.h + twos 48 x.val

/-- u of R121: fl32(L × 2^-16) scaled by 2^(h - e), exact. -/
def Acc.scaled (x : Acc) (e : Nat) : Word32 :=
  fMul (ratF32 x.val 65536) (BitVec.ofInt 32 ((127 + (x.h : Int) - e) * 8388608))

/-- Entries of a core's bank as its next read-out finds them: one read out in this cycle is EMPTY by then (R193, R228). -/
def entriesAt (s : State) (c first n : Nat) : List Acc :=
  (upTo n).map (fun i => if (getCore s c).emptied.any (fun e => decide (e.1 ≤ first + i) && decide (first + i < e.2)) then {}
    else tblGet {} (getCore s c).acc (first + i))

/-- A read-out finds every entry FINAL (R193). -/
def finalEntries (s : State) (c first n : Nat) : Bool := decide (first + n ≤ 2048) && (entriesAt s c first n).all (·.st == 2)

/-- The shot of the beat in execution whose entry block closed last on a core's block (R192). -/
def closedShot (s : State) (c block : Nat) : Option Shot :=
  match s.sq.live with
  | none => none
  | some l => ((l.done.filter (fun e => e.1 == 7)).map (fun e => (liveTemplate s).shots.getD e.2 {})).find?
      (fun x => x.group == c / 4 && x.block == block)

/-- A repair beat's word of one entry is kept for the repair round of its operation (R152): the column and what the bank gave. -/
def noteRepairRead (s : State) (c e : Nat) (x : Acc) : State :=
  match closedShot s c (e / 128) with
  | none => s
  | some y =>
    let d := ownRec s
    let o := d.ops.getD (chainHead d.ops y.op) {}
    let n := 512 * shotCol s y + 128 * (c % 4) + e % 128
    if o.n ≤ n then s
    else { s with sq := { s.sq with adapters := tblMod {} s.sq.adapters o.tag (fun a => { a with
             reads := a.reads ++ [(n, BitVec.ofInt 48 x.val, BitVec.ofNat 4 x.h)] }) } }

/-- The words that a repair beat's read-out returned (R152). -/
def noteRepairReads (s : State) (c first : Nat) (xs : List Acc) : State :=
  if (liveTemplate s).repair then forEach (indexed xs) (fun s x => noteRepairRead s c (first + x.1) x.2) s else s

/-- Read out `n` entries from `first` (R193, R194, R252): the entries become EMPTY at the end of the cycle (R192) and those with h > 0
are counted. -/
def readOut (s : State) (c : Nat) (w : BitVec 64) (first n : Nat) (use : List Acc → Core → Core) : State :=
  let xs := entriesAt s c first n
  if 2048 < first + n then coreFault s c 0x24 first
  else match (upTo n).find? (fun i => (xs.getD i {}).st != 2) with
    | some i => if bit (wM w) 3 then stall s c .acc else coreFault s c 0x15 (first + i)
    | none => retire s c (fun k =>
        let overs := (xs.filter (fun x => x.h != 0)).length
        use xs { k with emptied := k.emptied ++ [(first, first + n)], accOvf := k.accOvf.bump (sclk s) 4095 overs
                        accOvfBeat := k.accOvfBeat + overs })

/-- The read-outs (R251): raw, converted, dropped. -/
def readOutBody (s : State) (c : Nat) (w : BitVec 64) : State :=
  let first := ((getCore s c).s (wA w)).toNat
  let note := fun n => if finalEntries s c first n then noteRepairReads s c first (entriesAt s c first n) else s
  match wOp w with
  | 0xC0 => readOut (note 32) c w first 32 (fun xs k => k.setV (wD w)
      (xs.flatMap (fun x => [BitVec.ofNat 32 x.word, BitVec.ofNat 32 (x.word / 2 ^ 32)])))
  | 0xC1 => readOut (note 64) c w first 64 (fun xs k =>
      (k.setV (wD w) (xs.map (fun x => x.scaled (wImm w % 8)))).setS (wC w)
        (BitVec.ofNat 64 (xs.foldr (fun x v => ofBool x.clip + 2 * v) 0)))
  | _ =>
    let n := wImm w % 4096
    if n = 0 ∨ 2048 < n then coreFault s c 0x23 n else readOut s c w first n (fun _ k => k)

/-- ACC.RD (R251). -/
def execCcAccRd (core : BitVec 8) (d a : BitVec 5) (m : BitVec 4) (s : State) : Out :=
  .next (issue s core.toNat (mkWord 0xC0 d a 0 0 m 0) (fun s => readOutBody s core.toNat (mkWord 0xC0 d a 0 0 m 0)))

/-- ACC.RDF (R251, R252). -/
def execCcAccRdf (core : BitVec 8) (d a c : BitVec 5) (m : BitVec 4) (imm : BitVec 32) (s : State) : Out :=
  .next (issue s core.toNat (mkWord 0xC1 d a 0 c m imm) (fun s => readOutBody s core.toNat (mkWord 0xC1 d a 0 c m imm)))

/-- ACC.DROP (R251, R252). -/
def execCcAccDrop (core : BitVec 8) (a : BitVec 5) (m : BitVec 4) (imm : BitVec 32) (s : State) : Out :=
  .next (issue s core.toNat (mkWord 0xC2 0 a 0 0 m imm) (fun s => readOutBody s core.toNat (mkWord 0xC2 0 a 0 0 m imm)))

/-- A checked read-out stalled on an entry is tried again (R193): it proceeds once every entry it names is FINAL. -/
def execAccWaitRelease (core : BitVec 8) (s : State) : Out :=
  .next <|
    let c := core.toNat
    if (getCore s c).wait = some .acc ∧ !coreFrozen s c then
      let s := modCore s c (fun k => { k with wait := none })
      readOutBody s c (getCore s c).word
    else s

end Sys2Proof.Machine
end

