-- ==== Sys2Proof/Machine/CoreMemory.lean ====
section
/-! DEFINITION. Scalar and vector memory, remote access and slot instructions of a correction core (R201-R211, R239-R241, R247, R248). -/

namespace Sys2Proof.Machine

/-! ### Loads and stores -/

/-- A load of spans that passed its alignment (R201, R207): the register write, PC, and the errors the read met. -/
def loadSpans (s : State) (c : Nat) (sp : List (Nat × Nat)) (checked : Bool) (ecc : List (Nat × Bool)) (put : Core → Core) : State :=
  (loadAccess (getCore s c) c sp checked).run s c (fun s => scratchEcc (retire s c put) c sp ecc)

/-- LD (R239). -/
def ldBody (s : State) (c : Nat) (w : BitVec 64) (ecc : List (Nat × Bool)) : State :=
  let k := getCore s c
  let size := 2 ^ (wM w % 4)
  let a := address k w (wA w)
  if a % size ≠ 0 then coreFault s c 0x22 a
  else loadSpans s c [(a, size)] (bit (wM w) 3) ecc (fun k =>
    let v := ofLe (k.read a size ecc)
    k.setS (wD w) (if bit (wM w) 2 then BitVec.ofInt 64 (signed (8 * size) v) else BitVec.ofNat 64 v))

/-- ST (R239). -/
def stBody (s : State) (c : Nat) (w : BitVec 64) : State :=
  let k := getCore s c
  let size := 2 ^ (wM w % 4)
  let a := address k w (wA w)
  if a % size ≠ 0 then coreFault s c 0x22 a
  else (storeAccess k c [(a, size)]).run s c (fun s => retire s c (fun k => k.store a (leBytes size (k.s (wB w)).toNat)))

/-- Size in bytes that addresses of a format must be multiples of (R248: I4 and BE4 addresses are byte addresses). -/
def alignOf (f : Nat) : Nat := if f < 6 then elemSize f else 1

/-- Addresses of a strided access (R202), modulo 2^64. -/
def strided (base stride n : Nat) : List Nat := (upTo n).map (fun i => (base + i * stride) % 2 ^ 64)

/-- A vector load of one span at each address (R247, R248): alignment, then the access. -/
def vecLoad (s : State) (c : Nat) (w : BitVec 64) (addrs : List Nat) (n : Nat) (ecc : List (Nat × Bool))
    (put : List (List Byte) → Core → Core) : State :=
  match addrs.find? (fun a => a % alignOf (wM w % 8) != 0) with
  | some a => coreFault s c 0x22 a
  | none => loadSpans s c (addrs.map (fun a => (a, n))) (bit (wM w) 3) ecc (fun k => put (addrs.map (fun a => k.read a n ecc)) k)

/-- Elements of one row of a transposed block. -/
def rowElems (f : Nat) (bs : List Byte) : List Word32 := (upTo 32).map (fun i => widen f (leAt bs (i * elemSize f) (elemSize f)))

/-- The vector loads (R247, R248): contiguous, strided, transposing, gathering. -/
def vecLoadBody (s : State) (c : Nat) (w : BitVec 64) (ecc : List (Nat × Bool)) : State :=
  let k := getCore s c
  let f := wM w % 8
  let a := address k w (wA w)
  let stride := (k.s (wB w)).toNat
  let each := fun (bs : List (List Byte)) (k : Core) => k.setV (wD w) (bs.map (fun b => widen f (ofLe b)))
  match wOp w with
  | 0x80 => vecLoad s c w [a] (vecBytes f) ecc (fun bs k => k.setV (wD w) (widenVec f (bs.headD [])))
  | 0x82 =>
    if stride = 0 ∨ stride % elemSize f ≠ 0 then coreFault s c 0x23 stride
    else vecLoad s c w (strided a stride 64) (elemSize f) ecc each
  | 0x84 =>
    if stride = 0 ∨ stride % 64 ≠ 0 then coreFault s c 0x23 stride
    else vecLoad s c w (strided a stride 32) (32 * elemSize f) ecc (fun bs k =>
      let rows := bs.map (rowElems f)
      (upTo 16).foldl (fun k g => k.setV (wD w + g)
        ((upTo 64).map (fun i => (rows.getD (i % 32) []).getD (2 * g + i / 32) 0))) k)
  | _ => vecLoad s c w ((k.vec (wB w)).map (fun x => (a + x.toNat) % 2 ^ 64)) (elemSize f) ecc each

/-- The vector stores (R247, R248): contiguous, strided. -/
def vecStoreBody (s : State) (c : Nat) (w : BitVec 64) : State :=
  let k := getCore s c
  let f := wM w % 8
  let a := address k w (wA w)
  let stride := (k.s (wC w)).toNat
  let out := narrowVec f (k.vec (wB w))
  if wOp w = 0x81 then
    if a % alignOf f ≠ 0 then coreFault s c 0x22 a
    else (storeAccess k c [(a, vecBytes f)]).run s c (fun s => retire s c (fun k => (k.store a out.1).flagNcv out.2))
  else
    let addrs := strided a stride 64
    let e := elemSize f
    if stride = 0 ∨ stride % e ≠ 0 then coreFault s c 0x23 stride
    else match addrs.find? (fun a => a % e != 0) with
      | some a => coreFault s c 0x22 a
      | none => (storeAccess k c (addrs.map (fun a => (a, e)))).run s c (fun s => retire s c (fun k =>
          ((upTo 64).foldl (fun k i => k.store (addrs.getD i 0) ((out.1.drop (e * i)).take e)) k).flagNcv out.2))

/-! ### Remote access (R210, R211, R241) -/

/-- The fault that stops a remote access of `n` bytes at issue, in the order of R230; none if it may go out. -/
def remoteFault (s : State) (c a n how : Nat) (target : BitVec 64) : Option (State → State) :=
  let t := target.toNat
  if a % 64 ≠ 0 then some (fun s => coreFault s c 0x22 a)
  else match rangeCheck [(a, n)] (t % 256) how with
    | some x => some (fun s => x.run s c id)
    | none =>
      if 255 < t then some (fun s => coreFault s c 0x28 t)
      else
        let h := getHdr s (pgCc t)
        if !ccEnabled s t || (h.ownerValid && h.ownerId != pageOwnerId s (pgCc c)) then
          some (fun s => coreFault s c 0x17 (t * 2 ^ 32 + a))
        else none

/-- RSTV (R239): one posted packet for each 64-byte row (R187). -/
def rstvBody (s : State) (c : Nat) (w : BitVec 64) : State :=
  let k := getCore s c
  let n := 64 * 2 ^ wM w
  let a := address k w (wA w)
  match remoteFault s c a n 4 (k.s (wC w)) with
  | some f => f s
  | none =>
    let bs := imageOf (k.vec (wB w))
    let rows := (upTo (n / 64)).map (fun i => ((k.s (wC w)).toNat, a + 64 * i, (bs.drop (64 * i)).take 64))
    retire s c (fun k => { k with posted := k.posted ++ rows })

/-- RLDV (R239): the read is outstanding until its data returns. -/
def rldvBody (s : State) (c : Nat) (w : BitVec 64) : State :=
  let k := getCore s c
  let n := 64 * 2 ^ wM w
  let a := address k w (wA w)
  match remoteFault s c a n 6 (k.s (wC w)) with
  | some f => f s
  | none => retire s c (fun k => { k with remoteReads := k.remoteReads ++
      [(wD w, (k.s (wC w)).toNat, a, n, (k.posted.filter (fun p => p.1 == (k.s (wC w)).toNat)).length)] })

/-! ### The instructions -/

/-- LD (R239). -/
def execCcLd (core : BitVec 8) (d a : BitVec 5) (m : BitVec 4) (imm : BitVec 32) (ecc : List (Nat × Bool)) (s : State) : Out :=
  .next (issue s core.toNat (mkWord 0x40 d a 0 0 m imm) (fun s => ldBody s core.toNat (mkWord 0x40 d a 0 0 m imm) ecc))

/-- ST (R239). -/
def execCcSt (core : BitVec 8) (a b : BitVec 5) (m : BitVec 4) (imm : BitVec 32) (s : State) : Out :=
  .next (issue s core.toNat (mkWord 0x41 0 a b 0 m imm) (fun s => stBody s core.toNat (mkWord 0x41 0 a b 0 m imm)))

/-- RSTV (R239, R241). -/
def execCcRstv (core : BitVec 8) (a b c : BitVec 5) (m : BitVec 4) (imm : BitVec 32) (s : State) : Out :=
  .next (issue s core.toNat (mkWord 0x44 0 a b c m imm) (fun s => rstvBody s core.toNat (mkWord 0x44 0 a b c m imm)))

/-- RLDV (R239, R241). -/
def execCcRldv (core : BitVec 8) (d a c : BitVec 5) (m : BitVec 4) (imm : BitVec 32) (s : State) : Out :=
  .next (issue s core.toNat (mkWord 0x45 d a 0 c m imm) (fun s => rldvBody s core.toNat (mkWord 0x45 d a 0 c m imm)))

/-- SLOT.DEF (R239, R240). -/
def execCcSlotDef (core : BitVec 8) (a : BitVec 5) (imm : BitVec 32) (s : State) : Out :=
  .next (issue s core.toNat (mkWord 0x48 0 a 0 0 0 imm) (fun s =>
    let c := core.toNat
    let k := getCore s c
    let i := imm.toNat % 128
    let n := bits imm.toNat 8 4 + 6
    let base := (k.s a.toNat).toNat
    if slotShapeBad n (imm.toNat / 65536) base || k.slotClash i n base then coreFault s c 0x25 (slotDefAddr i base)
    else retire s c (fun k => k.defSlot i n (imm.toNat / 65536) base)))

/-- A slot instruction on one descriptor (R239, R240): fault 0x25 if it is not valid. -/
def slotOp (op : Nat) (f : SlotDesc → SlotDesc) (core : BitVec 8) (imm : BitVec 32) (s : State) : State :=
  issue s core.toNat (mkWord op 0 0 0 0 0 imm) (fun s =>
    let c := core.toNat
    let i := imm.toNat % 128
    let d := (getCore s c).slot i
    if d.valid then retire s c (fun k => k.modSlot i f) else coreFault s c 0x25 (slotDefAddr i d.base))

/-- SLOT.DRAIN (R206, R239): EMPTY, COUNT 0. -/
def execCcSlotDrain (core : BitVec 8) (imm : BitVec 32) (s : State) : Out :=
  .next (slotOp 0x49 (fun d => { d with full := false, filling := false, count := 0 }) core imm s)

/-- SLOT.FILL (R239): FULL, COUNT kept. -/
def execCcSlotFill (core : BitVec 8) (imm : BitVec 32) (s : State) : Out :=
  .next (slotOp 0x4A (fun d => { d with filling := !d.full }) core imm s)

/-- SLOT.FREE (R239). -/
def execCcSlotFree (core : BitVec 8) (imm : BitVec 32) (s : State) : Out :=
  .next (slotOp 0x4B (fun d => { d with valid := false }) core imm s)

/-- SLOT.STAT (R239, R240): an invalid descriptor gives 0. -/
def execCcSlotStat (core : BitVec 8) (d : BitVec 5) (imm : BitVec 32) (s : State) : Out :=
  .next (issue s core.toNat (mkWord 0x4C d 0 0 0 0 imm) (fun s =>
    retire s core.toNat (fun k =>
      let x := k.slot (imm.toNat % 128)
      k.setS d.toNat (if x.valid then BitVec.ofNat 64 (x.count + 65536 * ofBool x.tagFull + 131072) else 0))))

/-- VLD (R247). -/
def execCcVld (core : BitVec 8) (d a : BitVec 5) (m : BitVec 4) (imm : BitVec 32) (ecc : List (Nat × Bool)) (s : State) : Out :=
  .next (issue s core.toNat (mkWord 0x80 d a 0 0 m imm) (fun s => vecLoadBody s core.toNat (mkWord 0x80 d a 0 0 m imm) ecc))

/-- VST (R247). -/
def execCcVst (core : BitVec 8) (a b : BitVec 5) (m : BitVec 4) (imm : BitVec 32) (s : State) : Out :=
  .next (issue s core.toNat (mkWord 0x81 0 a b 0 m imm) (fun s => vecStoreBody s core.toNat (mkWord 0x81 0 a b 0 m imm)))

/-- VLDS (R202, R247). -/
def execCcVlds (core : BitVec 8) (d a b : BitVec 5) (m : BitVec 4) (imm : BitVec 32) (ecc : List (Nat × Bool)) (s : State) : Out :=
  .next (issue s core.toNat (mkWord 0x82 d a b 0 m imm) (fun s => vecLoadBody s core.toNat (mkWord 0x82 d a b 0 m imm) ecc))

/-- VSTS (R247). -/
def execCcVsts (core : BitVec 8) (a b c : BitVec 5) (m : BitVec 4) (imm : BitVec 32) (s : State) : Out :=
  .next (issue s core.toNat (mkWord 0x83 0 a b c m imm) (fun s => vecStoreBody s core.toNat (mkWord 0x83 0 a b c m imm)))

/-- VLDT (R202, R247, R248). -/
def execCcVldt (core : BitVec 8) (d a b : BitVec 5) (m : BitVec 4) (imm : BitVec 32) (ecc : List (Nat × Bool)) (s : State) : Out :=
  .next (issue s core.toNat (mkWord 0x84 d a b 0 m imm) (fun s => vecLoadBody s core.toNat (mkWord 0x84 d a b 0 m imm) ecc))

/-- VGATH (R247). -/
def execCcVgath (core : BitVec 8) (d a b : BitVec 5) (m : BitVec 4) (imm : BitVec 32) (ecc : List (Nat × Bool)) (s : State) : Out :=
  .next (issue s core.toNat (mkWord 0x85 d a b 0 m imm) (fun s => vecLoadBody s core.toNat (mkWord 0x85 d a b 0 m imm) ecc))

/-! ### Arrivals and releases -/

/-- The oldest packet of a core to a target is a read: no posted write sent before it is still on its way (R187). -/
def readFirst (k : Core) (t : Nat) : Bool := match k.remoteReads.find? (fun r => r.2.1 == t) with
  | some r => r.2.2.2.2 == 0
  | none => false

/-- The oldest posted packet of `core` to `target` reaches its bank (R187, R208-R211): discarded at a frozen core, else it commits at the
end of the cycle, where a write into a FULL slot freezes the writer. -/
def execRemoteWriteArrival (core target : BitVec 8) (s : State) : Out :=
  .next <|
    let c := core.toNat
    let t := target.toNat
    match (getCore s c).posted.find? (fun p => p.1 == t && !readFirst (getCore s c) t) with
    | none => s
    | some (_, a, bs) =>
      let s := modCore s c (fun k => { k with
        posted := k.posted.eraseP (fun p => p.1 == t)
        remoteReads := k.remoteReads.map (fun r => if r.2.1 = t then (r.1, r.2.1, r.2.2.1, r.2.2.2.1, r.2.2.2.2 - 1) else r) })
      if coreFrozen s t then s else arrive s t { remote := true, kind := 3, who := c, off := a, data := bs }

/-- The data of the oldest remote read of `core` at `target` returns (R201, R210, R211, R239, R253): the bytes as the bank holds them,
or NaN from a frozen core. -/
def execRemoteReadReturn (core target : BitVec 8) (ecc : List (Nat × Bool)) (s : State) : Out :=
  .next <|
    let c := core.toNat
    let t := target.toNat
    match (getCore s c).remoteReads.find? (fun r => r.2.1 == t && readFirst (getCore s c) t) with
    | none => s
    | some (d, _, a, n, _) =>
      let dead := coreFrozen s t
      let bs := if dead then (upTo (n / 4)).flatMap (fun _ => leBytes 4 0x7FC00000) else (getCore s t).serve a n ecc
      let s := modCore s c (fun k =>
        { (k.setV d (lanesOf bs 64)) with
            remoteReads := k.remoteReads.eraseP (fun r => r.2.1 == t), nv := k.nv || dead
            wait := if k.wait = some .net then none else k.wait })
      if dead then s else scratchEcc s t [(a, n)] ecc

/-- A checked load or counter wait stalled on a slot is tried again (R206, R207): it returns once the slot is FULL or the count is
reached, and stays stalled otherwise. -/
def execSlotWaitRelease (core : BitVec 8) (ecc : List (Nat × Bool)) (s : State) : Out :=
  .next <|
    let c := core.toNat
    match (getCore s c).wait with
    | some (.slot _) =>
      if coreFrozen s c then s
      else
        let s := modCore s c (fun k => { k with wait := none })
        let w := (getCore s c).word
        match wOp w with
        | 0x0B => waitcBody s c w
        | 0x40 => ldBody s c w ecc
        | _ => vecLoadBody s c w ecc
    | _ => s

end Sys2Proof.Machine
end

