-- ==== Sys2Proof/Machine/CoreScalar.lean ====
section
/-! DEFINITION. Scalar instructions of a correction core (R238). -/

namespace Sys2Proof.Machine

/-- sD ← f(sA, sB) (R238). -/
def scalar3 (op : Nat) (f : BitVec 64 → BitVec 64 → BitVec 64) (core : BitVec 8) (d a b : BitVec 5) (s : State) : State :=
  issue s core.toNat (mkWord op d a b 0 0 0) (fun s =>
    retire s core.toNat (fun k => k.setS d.toNat (f (k.s a.toNat) (k.s b.toNat))))

/-- sD ← f(sA, IMM sign-extended) (R238). -/
def scalarImm (op : Nat) (f : BitVec 64 → BitVec 64 → BitVec 64) (core : BitVec 8) (d a : BitVec 5) (imm : BitVec 32) (s : State) :
    State :=
  issue s core.toNat (mkWord op d a 0 0 0 imm) (fun s =>
    retire s core.toNat (fun k => k.setS d.toNat (f (k.s a.toNat) (imm.signExtend 64))))

/-- A shift count: bits [5:0] (R238). -/
def count6 (x : BitVec 64) : Nat := x.toNat % 64

/-- A truth value as a scalar. -/
def truth (b : Bool) : BitVec 64 := if b then 1 else 0

/-- ADD (R238). -/
def execCcAdd (core : BitVec 8) (d a b : BitVec 5) (s : State) : Out := .next (scalar3 0x20 (· + ·) core d a b s)

/-- SUB (R238). -/
def execCcSub (core : BitVec 8) (d a b : BitVec 5) (s : State) : Out := .next (scalar3 0x21 (· - ·) core d a b s)

/-- AND (R238). -/
def execCcAnd (core : BitVec 8) (d a b : BitVec 5) (s : State) : Out := .next (scalar3 0x22 (· &&& ·) core d a b s)

/-- OR (R238). -/
def execCcOr (core : BitVec 8) (d a b : BitVec 5) (s : State) : Out := .next (scalar3 0x23 (· ||| ·) core d a b s)

/-- XOR (R238). -/
def execCcXor (core : BitVec 8) (d a b : BitVec 5) (s : State) : Out := .next (scalar3 0x24 (· ^^^ ·) core d a b s)

/-- SHL (R238). -/
def execCcShl (core : BitVec 8) (d a b : BitVec 5) (s : State) : Out := .next (scalar3 0x25 (fun x y => x <<< count6 y) core d a b s)

/-- SHR (R238). -/
def execCcShr (core : BitVec 8) (d a b : BitVec 5) (s : State) : Out := .next (scalar3 0x26 (fun x y => x >>> count6 y) core d a b s)

/-- SRA (R238). -/
def execCcSra (core : BitVec 8) (d a b : BitVec 5) (s : State) : Out := .next (scalar3 0x27 (fun x y => x.sshiftRight (count6 y)) core d a b s)

/-- MUL (R238). -/
def execCcMul (core : BitVec 8) (d a b : BitVec 5) (s : State) : Out := .next (scalar3 0x28 (· * ·) core d a b s)

/-- MIN (R238). -/
def execCcMin (core : BitVec 8) (d a b : BitVec 5) (s : State) : Out := .next (scalar3 0x29 (fun x y => if x.slt y then x else y) core d a b s)

/-- MAX (R238). -/
def execCcMax (core : BitVec 8) (d a b : BitVec 5) (s : State) : Out := .next (scalar3 0x2A (fun x y => if x.slt y then y else x) core d a b s)

/-- SLT (R238). -/
def execCcSlt (core : BitVec 8) (d a b : BitVec 5) (s : State) : Out := .next (scalar3 0x2B (fun x y => truth (x.slt y)) core d a b s)

/-- SLTU (R238). -/
def execCcSltu (core : BitVec 8) (d a b : BitVec 5) (s : State) : Out := .next (scalar3 0x2C (fun x y => truth (x.ult y)) core d a b s)

/-- SEQ (R238). -/
def execCcSeq (core : BitVec 8) (d a b : BitVec 5) (s : State) : Out := .next (scalar3 0x2D (fun x y => truth (x == y)) core d a b s)

/-- ADDI (R238). -/
def execCcAddi (core : BitVec 8) (d a : BitVec 5) (imm : BitVec 32) (s : State) : Out := .next (scalarImm 0x30 (· + ·) core d a imm s)

/-- SHLI (R238). -/
def execCcShli (core : BitVec 8) (d a : BitVec 5) (imm : BitVec 32) (s : State) : Out := .next (scalarImm 0x33 (fun x y => x <<< count6 y) core d a imm s)

/-- SHRI (R238). -/
def execCcShri (core : BitVec 8) (d a : BitVec 5) (imm : BitVec 32) (s : State) : Out := .next (scalarImm 0x34 (fun x y => x >>> count6 y) core d a imm s)

/-- SRAI (R238). -/
def execCcSrai (core : BitVec 8) (d a : BitVec 5) (imm : BitVec 32) (s : State) : Out := .next (scalarImm 0x35 (fun x y => x.sshiftRight (count6 y)) core d a imm s)

/-- LI (R238): sD ← IMM, sign-extended. -/
def execCcLi (core : BitVec 8) (d : BitVec 5) (imm : BitVec 32) (s : State) : Out :=
  .next (issue s core.toNat (mkWord 0x31 d 0 0 0 0 imm) (fun s =>
    retire s core.toNat (fun k => k.setS d.toNat (imm.signExtend 64))))

/-- LIH (R238): the high half of sD ← IMM, the low half kept. -/
def execCcLih (core : BitVec 8) (d : BitVec 5) (imm : BitVec 32) (s : State) : Out :=
  .next (issue s core.toNat (mkWord 0x32 d 0 0 0 0 imm) (fun s =>
    retire s core.toNat (fun k => k.setS d.toNat (imm ++ k.f d.toNat))))

/-- VEXT (R238): sD ← a lane of vA, zero-extended. -/
def execCcVext (core : BitVec 8) (d a : BitVec 5) (imm : BitVec 32) (s : State) : Out :=
  .next (issue s core.toNat (mkWord 0x38 d a 0 0 0 imm) (fun s =>
    retire s core.toNat (fun k => k.setS d.toNat ((k.v a.toNat (imm.toNat % 64)).setWidth 64))))

/-- VINS (R238): a lane of vD ← sA[31:0]. -/
def execCcVins (core : BitVec 8) (d a : BitVec 5) (imm : BitVec 32) (s : State) : Out :=
  .next (issue s core.toNat (mkWord 0x39 d a 0 0 0 imm) (fun s =>
    retire s core.toNat (fun k => { k with vregs := tblSet 0 k.vregs (d.toNat * 64 + imm.toNat % 64) (k.f a.toNat) })))

end Sys2Proof.Machine
end

