-- ==== Sys2Proof/Machine/CoreVector.lean ====
section
/-! DEFINITION. Vector arithmetic of a correction core (R112, R124, R125, R242-R246, R253). -/

namespace Sys2Proof.Machine

/-- Write a vector register and set fs for its elements (R253). -/
def Core.putV (k : Core) (d : Nat) (l : List Word32) : Core := (k.setV d l).flagsFor l

/-- vD ← f(vA, B) lane by lane (R242). -/
def vec3 (op : Nat) (f : Word32 → Word32 → Word32) (core : BitVec 8) (d a b : BitVec 5) (m : BitVec 4) (s : State) : State :=
  issue s core.toNat (mkWord op d a b 0 m 0) (fun s => retire s core.toNat (fun k =>
    k.putV d.toNat (List.zipWith f (k.vec a.toNat) (k.operandB (mkWord op d a b 0 m 0)))))

/-- vD ← f(vA) lane by lane (R242). -/
def vec2 (op : Nat) (f : Word32 → Word32) (core : BitVec 8) (d a : BitVec 5) (s : State) : State :=
  issue s core.toNat (mkWord op d a 0 0 0 0) (fun s => retire s core.toNat (fun k => k.putV d.toNat ((k.vec a.toNat).map f)))

/-- A sign operation: a NaN that the device produces is canonical (R103). -/
def unlessNan (f : Word32 → Word32) (x : Word32) : Word32 := if (ofF32 x).isNan then nan32 else f x

/-- Bits of a comparison, lane 0 in bit 0. -/
def laneMask (l : List Bool) : Nat := l.foldr (fun b v => ofBool b + 2 * v) 0

/-- A quantised lane (R112): the code and whether a NaN became 0. -/
def quantise (i8 : Bool) (r x : Word32) : Int × Bool :=
  let v := fMul x r
  (if i8 then toIntClamp (ofF32 v) (-128) 127 else toIntClamp (ofF32 v) (-8) 7, (ofF32 v).isNan)

/-- The image VQ writes (R244). -/
def quantImage (i8 : Bool) (codes : List Int) : List Byte :=
  padTo 256 (if i8 then codes.map (fun c => BitVec.ofInt 8 c)
    else (upTo 32).map (fun i => BitVec.ofNat 8 (twos 4 (codes.getD (2 * i) 0) + 16 * twos 4 (codes.getD (2 * i + 1) 0))))

/-- Write a compensated pair and set fs for it (R246, R253). -/
def Core.putPair (k : Core) (d : Nat) (p : Word32 × Word32) : Core := (k.setS d (pairWord p.1 p.2)).flagsFor [p.1, p.2]

/-- VADD (R242). -/
def execCcVadd (core : BitVec 8) (d a b : BitVec 5) (m : BitVec 4) (s : State) : Out := .next (vec3 0x60 fAdd core d a b m s)

/-- VSUB (R242). -/
def execCcVsub (core : BitVec 8) (d a b : BitVec 5) (m : BitVec 4) (s : State) : Out := .next (vec3 0x61 fSub core d a b m s)

/-- VMUL (R242). -/
def execCcVmul (core : BitVec 8) (d a b : BitVec 5) (m : BitVec 4) (s : State) : Out := .next (vec3 0x62 fMul core d a b m s)

/-- VFMA (R242): one rounding. -/
def execCcVfma (core : BitVec 8) (d a b c : BitVec 5) (m : BitVec 4) (s : State) : Out :=
  .next (issue s core.toNat (mkWord 0x63 d a b c m 0) (fun s => retire s core.toNat (fun k =>
    k.putV d.toNat (List.zipWith (fun x (y : Word32 × Word32) => fFma x y.1 y.2) (k.vec a.toNat)
      (List.zip (k.operandB (mkWord 0x63 d a b c m 0)) (k.vec c.toNat))))))

/-- VMIN (R242). -/
def execCcVmin (core : BitVec 8) (d a b : BitVec 5) (m : BitVec 4) (s : State) : Out := .next (vec3 0x64 fMin core d a b m s)

/-- VMAX (R242). -/
def execCcVmax (core : BitVec 8) (d a b : BitVec 5) (m : BitVec 4) (s : State) : Out := .next (vec3 0x65 fMax core d a b m s)

/-- VABS (R103, R242). -/
def execCcVabs (core : BitVec 8) (d a : BitVec 5) (s : State) : Out :=
  .next (vec2 0x66 (unlessNan fAbs) core d a s)

/-- VNEG (R103, R242). -/
def execCcVneg (core : BitVec 8) (d a : BitVec 5) (s : State) : Out :=
  .next (vec2 0x67 (unlessNan fFlip) core d a s)

/-- VCMP (R242, R243). -/
def execCcVcmp (core : BitVec 8) (d a b : BitVec 5) (m : BitVec 4) (s : State) : Out :=
  .next (issue s core.toNat (mkWord 0x68 d a b 0 m 0) (fun s => retire s core.toNat (fun k =>
    k.setS d.toNat (BitVec.ofNat 64 (laneMask
      (List.zipWith (compareLane (m.toNat / 2)) (k.vec a.toNat) (k.operandB (mkWord 0x68 d a b 0 m 0))))))))

/-- VSEL (R242). -/
def execCcVsel (core : BitVec 8) (d a b c : BitVec 5) (m : BitVec 4) (s : State) : Out :=
  .next (issue s core.toNat (mkWord 0x69 d a b c m 0) (fun s => retire s core.toNat (fun k =>
    let y := k.operandB (mkWord 0x69 d a b c m 0)
    k.putV d.toNat ((upTo 64).map (fun i => if (k.s c.toNat).getLsbD i then k.v a.toNat i else y.getD i 0)))))

/-- VEXP (R197, R242). -/
def execCcVexp (core : BitVec 8) (d a : BitVec 5) (s : State) : Out := .next (vec2 0x6A vExp core d a s)

/-- VRCP (R197, R242). -/
def execCcVrcp (core : BitVec 8) (d a : BitVec 5) (s : State) : Out := .next (vec2 0x6B vRcp core d a s)

/-- VRSQ (R197, R242). -/
def execCcVrsq (core : BitVec 8) (d a : BitVec 5) (s : State) : Out := .next (vec2 0x6C vRsq core d a s)

/-- VDIV (R242). -/
def execCcVdiv (core : BitVec 8) (d a b : BitVec 5) (m : BitVec 4) (s : State) : Out := .next (vec3 0x6D fDiv core d a b m s)

/-- VSQRT (R242). -/
def execCcVsqrt (core : BitVec 8) (d a : BitVec 5) (s : State) : Out := .next (vec2 0x6E fSqrt core d a s)

/-- VRND (R104, R242): round to a format and widen back. -/
def execCcVrnd (core : BitVec 8) (d a : BitVec 5) (m : BitVec 4) (s : State) : Out :=
  .next (issue s core.toNat (mkWord 0x6F d a 0 0 m 0) (fun s => retire s core.toNat (fun k =>
    k.putV d.toNat ((k.vec a.toNat).map (fun x => widen (m.toNat % 8) (narrow (m.toNat % 8) x).1)))))

/-- VQ (R112, R242, R244, R253). -/
def execCcVq (core : BitVec 8) (d a b : BitVec 5) (m : BitVec 4) (s : State) : Out :=
  .next (issue s core.toNat (mkWord 0x70 d a b 0 m 0) (fun s => retire s core.toNat (fun k =>
    let q := (k.vec a.toNat).map (quantise (bit m.toNat 0) (k.f b.toNat))
    (k.setV d.toNat (lanesOf (quantImage (bit m.toNat 0) (q.map (·.1))) 64)).flagNcv (q.any (·.2)))))

/-- VPERM (R242). -/
def execCcVperm (core : BitVec 8) (d a b : BitVec 5) (s : State) : Out :=
  .next (issue s core.toNat (mkWord 0x71 d a b 0 0 0) (fun s => retire s core.toNat (fun k =>
    k.putV d.toNat ((k.vec b.toNat).map (fun i => k.v a.toNat (i.toNat % 64))))))

/-- VMOV (R242). -/
def execCcVmov (core : BitVec 8) (d a : BitVec 5) (s : State) : Out := .next (vec2 0x72 id core d a s)

/-- VBC (R242). -/
def execCcVbc (core : BitVec 8) (d a : BitVec 5) (s : State) : Out :=
  .next (issue s core.toNat (mkWord 0x73 d a 0 0 0 0) (fun s => retire s core.toNat (fun k =>
    k.putV d.toNat (List.replicate 64 (k.f a.toNat)))))

/-- VRED (R242, R245). -/
def execCcVred (core : BitVec 8) (d a : BitVec 5) (m : BitVec 4) (s : State) : Out :=
  .next (issue s core.toNat (mkWord 0x75 d a 0 0 m 0) (fun s => retire s core.toNat (fun k =>
    let r := reduceLanes (m.toNat % 4) (k.vec a.toNat)
    (k.setS d.toNat (BitVec.ofNat 64 (r.1.toNat + r.2 * 2 ^ 32))).flagsFor [r.1])))

/-- KSUM (R124, R246): a count outside 1-64 is fault 0x23. -/
def execCcKsum (core : BitVec 8) (d a b : BitVec 5) (imm : BitVec 32) (s : State) : Out :=
  .next (issue s core.toNat (mkWord 0x76 d a b 0 0 imm) (fun s =>
    let n := imm.toNat % 128
    if n = 0 ∨ 64 < n then coreFault s core.toNat 0x23 n
    else retire s core.toNat (fun k => k.putPair d.toNat (kReduce (k.pair a.toNat) ((k.vec b.toNat).take n)))))

/-- VKADD (R124, R246). -/
def execCcVkadd (core : BitVec 8) (d a c : BitVec 5) (s : State) : Out :=
  .next (issue s core.toNat (mkWord 0x77 d a 0 c 0 0) (fun s => retire s core.toNat (fun k =>
    let r := (upTo 64).map (fun i => kStep (k.v d.toNat i, k.v c.toNat i) (k.v a.toNat i))
    (k.putV d.toNat (r.map (·.1))).putV c.toNat (r.map (·.2)))))

/-- KCOMB (R125, R246). -/
def execCcKcomb (core : BitVec 8) (d a b : BitVec 5) (s : State) : Out :=
  .next (issue s core.toNat (mkWord 0x78 d a b 0 0 0) (fun s => retire s core.toNat (fun k =>
    k.putPair d.toNat (kCombine (k.pair a.toNat) (k.pair b.toNat)))))

/-- KFIN (R246). -/
def execCcKfin (core : BitVec 8) (d a : BitVec 5) (s : State) : Out :=
  .next (issue s core.toNat (mkWord 0x79 d a 0 0 0 0) (fun s => retire s core.toNat (fun k =>
    let y := kFinish (k.pair a.toNat)
    (k.setS d.toNat (y.setWidth 64)).flagsFor [y])))

end Sys2Proof.Machine
end

