-- ==== Sys2Proof/Machine/Keys.lean ====
section
/-! DEFINITION. The key engine's commands (R523-R524, R530, R535-R539). -/

namespace Sys2Proof.Machine

/-- The accessor is PF0 of a port. -/
def isPf0 (a : Accessor) (port : Bool) : Bool := a == .pf0 port

/-- The destruction of an owner's key is asked of the headframe, which orders it (R530, R537, R523). -/
def askDestroy (s : State) (o cause : Nat) : State :=
  if isHeadframe s then orderDestroy s o cause none else sendMessage s 0 0x47 [o, cause]

/-- A write of KE_DESTROY (R537): accepted only from PF0 of the port to which the owner is bound or held, with CONFIRM 0xDE57 and OWNER
not 0; any other write is discarded. -/
def writeKeDestroy (s : State) (a : Accessor) (v : Nat) : State :=
  let o := v % 256
  let k := getSlot s o
  if o != 0 && bits v 16 16 == 0xDE57 && (k.state == 1 || k.state == 2) && isPf0 a k.port then askDestroy s o 4 else s

/-- KE_DESTROY (R537). -/
def execKeDestroy (a : Accessor) (value : BitVec 32) (s : State) : Out :=
  .next (if mayWrite s a pgKe then writeKeDestroy s a value.toNat else s)

/-- One member acts on an ordered destruction (R530). On the headframe the order stands in the slot (DESTROYING), and a release
waits until every stream of the owner is CLOSED (R340); on another member the order is the headframe's C1 message. -/
def execOwnerKeyDestroy (owner cause : BitVec 8) (s : State) : Out :=
  .next <|
    let o := owner.toNat
    let k := getSlot s o
    if o = 0 ∨ k.state = 0 then s
    else if isHeadframe s then
      if k.state ≠ 3 ∨ (k.destroyCause = 1 ∧ liveStreamsOf s o ≠ []) then s
      else destroyKey s o k.destroyCause
    else destroyKey s o cause.toNat

/-- A write of KE_SEAL (R538): CLEAR is accepted only from PF0 of the selected slot's port; its sealed owner record and load records on
this device are removed and event 0x06 raised with cause 2. -/
def writeKeSeal (s : State) (a : Accessor) (v : Nat) : State :=
  let o := s.ke.slotSel
  if bit v 31 && isPf0 a (getSlot s o).port && hasSeal s o then
    let s := modSlot (removeSeals s o) o (fun k => { k with sealed := false, sealHandle := none })
    raiseEvent s pgKe 0x06 (info [(1, o), (1, 2), (2, 0)])
  else s

/-- CLEAR: a write of KE_SEAL with CLEAR set. -/
def execKeClear (a : Accessor) (value : BitVec 32) (s : State) : Out :=
  .next (if mayWrite s a pgKe && bit value.toNat 31 then writeKeSeal s a value.toNat else s)

/-- A health test of the entropy source fails (R524): state FAILED and fault event 0x09; only a module reset leaves FAILED. -/
def execEntropyFail (test : Bool) (s : State) : Out :=
  .next (if !mainPower s then s else raiseEvent { s with ke := { s.ke with state := 2 } } pgKe 0x09 (info [(1, if test then 2 else 1)]))

/-- The DRBG is reseeded after 65,536 generate requests (R524). -/
def execDrbgReseed (s : State) : Out :=
  .next (if 65536 ≤ s.ke.drbgCount ∧ s.ke.state ≠ 2 then { s with ke := { s.ke with drbgCount := 0 } } else s)

/-- KEY_DESTROY of a management session (R523): inside a secured session it destroys the key of an owner other than 0 that exists
and answers 0x00, else 0x01; outside a session it is answered with ERROR, code UnsupportedRequest (0x07). Without main
power the answer is ERROR, code Busy (R500). -/
def execKeyDestroy (sid : BitVec 32) (secured : Bool) (owner : BitVec 8) (s : State) : Out :=
  .next <|
    let o := owner.toNat
    if !s.pins.aux ∨ s.mgmt.dyn.isNone then s
    else if !mainPower s ∨ s.ke.state = 0 then emit s (.mgmt 0x05 0x7F (leBytes 1 0x03))
    else if !secured ∨ !s.mgmt.sessions.any (fun z => z.transport == 0 && z.sid == sid.toNat && z.finished) then
      emit s (.mgmt 0x05 0x7F (leBytes 1 0x07))
    else match getOwner s o with
      | none => emit s (.mgmt 0x06 0x01 [])
      | some w =>
        if o = 0 ∨ w.releasing then emit s (.mgmt 0x06 0x01 [])
        else emit (askDestroy s o 5) (.mgmt 0x06 0x00 [])

end Sys2Proof.Machine
end

