-- ==== Sys2Proof/Machine/Monitor.lean ====
section
/-! DEFINITION. The monitor converter (R561-R565, R586-R590, R593). -/

namespace Sys2Proof.Machine

/-- A sequence entry as it is in effect in this pass. -/
def mcEntry (s : State) (n : Nat) : Nat := (tblGet 0 s.mc.seqLive n).toNat
/-- An MC_RESULT register. -/
def mcResult (s : State) (n : Nat) : McResult := tblGet {} s.mc.results n
/-- Inputs 1 and 29-34 are differential (R561). -/
def mcDifferential (input : Nat) : Bool := input == 1 || (decide (29 ≤ input) && decide (input ≤ 34))
/-- MODE of the trigger in effect (R588). -/
def mcMode (s : State) : Nat := bits s.mc.triggerLive.toNat 30 2

/-- A pass starts, where the page takes work (R21): table and trigger as written take effect (R562). -/
def startPass (s : State) : State :=
  if !takesWork s pgMc then s else { s with mc := { s.mc with running := true, entry := 0, seqLive := s.mc.seq, triggerLive := s.mc.trigger } }

/-- MC_PASS_START (R562, R563): a trigger arrives. During a pass it is ignored, counted, and reported once in each second of RTB. -/
def execMcPassStart (s : State) : Out :=
  .next <|
    if s.mc.state = 0 ∨ !s.mc.en ∨ s.mc.calBusy then s
    else if !s.mc.running then startPass s
    else
      let sec := rtb s / 100000000
      let first := decide (s.mc.overrunSec ≠ some sec)
      let s := { s with mc := { s.mc with overrun := s.mc.overrun.bump (sclk s) 255 1, ignored := s.mc.ignored + 1, overrunSec := some sec } }
      if first then raiseEvent s pgMc 0x05 (info [(4, s.mc.ignored)]) else s

/-- The mean of conversions rounded to nearest, ties away from zero (R564). -/
def mcMean (codes : List Int) : Int :=
  if codes.sum < 0 then -(roundAway codes.sum.natAbs codes.length : Int) else (roundAway codes.sum.natAbs codes.length : Int)

/-- The VALUE field of a code (R590). -/
def mcValue (s : State) (input : Nat) (code : Int) : Nat :=
  if s.mc.left then twos 12 code * 16 else if mcDifferential input then twos 16 code else twos 12 code

/-- MC_ENTRY_DONE (R562-R564): the conversions of the entry in progress have been made; REPEAT + 1 of them give the mean. A code lies in
12 bits, signed for a differential input. At the last entry the pass ends, and in FREE mode the next one starts at once. -/
def execMcEntryDone (codes : List Int) (s : State) : Out :=
  .next <|
    let n := s.mc.entry
    let e := mcEntry s n
    let input := bits e 24 6
    let lo : Int := if mcDifferential input then -2048 else 0
    let hi : Int := if mcDifferential input then 2047 else 4095
    if !s.mc.running ∨ codes.length ≠ bits e 16 8 + 1 ∨ codes.any (fun c => decide (c < lo) || decide (hi < c)) then s
    else
      let r := mcResult s n
      let r : McResult := { valid := true, fresh := true, count := (r.count + 1) % 16384
                            cycle := sclk s, before := r.shown (sclk s)
                            value := BitVec.ofNat 16 (mcValue s input (mcMean codes)) }
      let s := { s with mc := { s.mc with results := tblSet {} s.mc.results n r } }
      if bit e 31 ∨ n = 31 then
        let s := { s with mc := { s.mc with running := false, entry := 0 } }
        if bits s.mc.trigger.toNat 30 2 = 0 then startPass s else s
      else { s with mc := { s.mc with entry := n + 1 } }

/-- A write of MC_CTRL (R589): setting EN clears VALID of the results and the count of ignored triggers; SELFCAL pauses the sequence. -/
def writeMcCtrl (s : State) (v : Nat) : State :=
  let en := bit v 31
  let rises := en && !s.mc.en
  let s := { s with mc := { s.mc with en := en, lowPower := bit v 29, left := bit v 28 } }
  let s := if rises then
      { s with mc := { s.mc with results := tblMap {} (fun _ r => { r with valid := false }) s.mc.results, ignored := 0 } } else s
  let s := if !en then { s with mc := { s.mc with running := false, entry := 0 } } else s
  if bit v 30 ∧ takesWork s pgMc then { s with mc := { s.mc with calBusy := true, running := false, entry := 0 } }
  else if rises ∧ bits s.mc.trigger.toNat 30 2 = 0 ∧ !s.mc.calBusy then startPass s
  else s

/-- SELFCAL of the monitor converter: a write of MC_CTRL with SELFCAL set (R565). -/
def execMcSelfcal (a : Accessor) (value : BitVec 32) (s : State) : Out :=
  .next (if mayWrite s a pgMc && a != .mgmt && bit value.toNat 30 then writeMcCtrl s value.toNat else s)

/-- MC_SELFCAL_COMPLETE (R565, R593): the offset and gain error found; the sequence resumes with a new pass. -/
def execMcSelfcalComplete (offset gain : BitVec 16) (s : State) : Out :=
  .next <|
    if !s.mc.calBusy then s
    else
      let s := raiseEvent { s with mc := { s.mc with calBusy := false } } pgMc 0x04 (info [(2, offset.toNat), (2, gain.toNat)])
      if s.mc.en then startPass s else s

/-- A write of MC_SEQ_TABLE (R587). -/
def writeMcSeq (s : State) (n v : Nat) : State :=
  if 39 < bits v 24 6 ∨ 32 ≤ n then s
  else { s with mc := { s.mc with seq := tblSet 0 s.mc.seq n (BitVec.ofNat 32 (v % 2 ^ 32 - (if bit v 30 then 2 ^ 30 else 0))) } }

/-- MC_SEQ_TABLE (R587): it takes effect at the next pass. -/
def execMcSeqTable (a : Accessor) (n : BitVec 5) (value : BitVec 32) (s : State) : Out :=
  .next (if mayWrite s a pgMc && a != .mgmt then writeMcSeq s n.toNat value.toNat else s)

/-- A write of MC_TRIGGER (R588); the reserved MODE 3 is discarded with the rest of the write. -/
def writeMcTrigger (s : State) (v : Nat) : State :=
  if 1000 < bits v 17 10 ∨ (bits v 30 2 = 1 ∧ bits v 0 16 = 0) ∨ bits v 30 2 = 3 then s
  else { s with mc := { s.mc with trigger := BitVec.ofNat 32 (v % 2 ^ 32 - (if bit v 16 then 2 ^ 16 else 0)) } }

/-- MC_TRIGGER (R588): it takes effect at the next pass. -/
def execMcTrigger (a : Accessor) (value : BitVec 32) (s : State) : Out :=
  .next (if mayWrite s a pgMc && a != .mgmt then writeMcTrigger s value.toNat else s)

end Sys2Proof.Machine
end

