-- ==== Sys2Proof/Machine/Management.lean ====
section
/-! DEFINITION. The management endpoint and attestation: MCTP, PLDM, SPDM and the vendor messages that touch no register
(R500-R503, R511-R523). Message bodies that DMTF specifications fix are free bytes (log entry 23). -/

namespace Sys2Proof.Machine

/-! ### MCTP control (R500) -/

/-- The endpoint can be reached: AUX power and a dynamic address (R500). -/
def mgmtUp (s : State) : Bool := s.pins.aux && s.mgmt.dyn.isSome

/-- DYNAMIC_ADDRESS_ASSIGN (R500): the bus controller assigns the endpoint's dynamic address. -/
def execDynamicAddressAssign (addr : BitVec 7) (s : State) : Out :=
  .next (if s.pins.aux then { s with mgmt := { s.mgmt with dyn := some addr.toNat } } else s)

/-- SET_ENDPOINT_ID (R500). -/
def execSetEndpointId (eid : BitVec 8) (s : State) : Out :=
  .next (if mgmtUp s then emit { s with mgmt := { s.mgmt with eid := eid.toNat } } (.mgmt 0x00 0x00 [eid]) else s)

/-- GET_ENDPOINT_ID (R500). -/
def execGetEndpointId (s : State) : Out :=
  .next (if mgmtUp s then emit s (.mgmt 0x00 0x00 [BitVec.ofNat 8 s.mgmt.eid]) else s)

/-- GET_MCTP_VERSION_SUPPORT (R500): the versions are those of DSP0233 and its companions. -/
def execGetMctpVersionSupport (type : BitVec 8) (s : State) : Out :=
  .next (if mgmtUp s then emit s (.mgmt 0x00 0x00 (Config.dmtfBody 0x04 type.toNat)) else s)

/-- Message types the endpoint serves (R500). -/
def messageTypes : List Byte := [0x00, 0x01, 0x05, 0x06, 0x7E]

/-- GET_MESSAGE_TYPE_SUPPORT (R500). -/
def execGetMessageTypeSupport (s : State) : Out :=
  .next (if mgmtUp s then emit s (.mgmt 0x00 0x00 messageTypes) else s)

/-- GET_VENDOR_MESSAGE_SUPPORT (R500): PCI vendor ID 0x1F9C. -/
def execGetVendorMessageSupport (s : State) : Out :=
  .next (if mgmtUp s then emit s (.mgmt 0x00 0x00 (leBytes 2 vendorId)) else s)

/-! ### PLDM (R501, R502) -/

/-- Reading of a PLDM sensor (R501): none for an ID the table does not give; the flag tells whether it needs main power. The AUX
voltage has no source in the model's state and is a free value. -/
def pldmSensor (s : State) (id : Nat) : Option (Bool × Nat) :=
  if id = 1 then some (true, twos 16 s.dp.hottest)
  else if id = 2 then some (true, twos 16 s.dp.hotStack)
  else if id = 3 then some (true, twos 16 s.dp.hotOptics)
  else if id = 4 then some (true, twos 16 s.dp.vin)
  else if id = 5 then some (true, twos 16 s.dp.iin)
  else if id = 6 then some (true, twos 16 s.dp.pin1s)
  else if id = 7 then some (false, Config.freeNat s.free % 65536)
  else if id = 16 then some (false, level s)
  else if id = 17 then some (false, s.power.state.code)
  else if id = 18 then some (false, ofBool (!s.ri.crosscut))
  else if id = 19 then some (true, s.cx.state)
  else none

/-- PLDM_SENSOR_READ (R501): identifier, operational state (0 enabled, 2 unavailable, PRESUMED of DSP0248) and reading; an unknown
sensor is answered with code 0x80 (PRESUMED). -/
def execPldmSensorRead (id : BitVec 16) (s : State) : Out :=
  .next <|
    if !mgmtUp s then s
    else
      let s' := { s with free := s.free + 1 }
      match pldmSensor s id.toNat with
      | none => emit s' (.mgmt 0x01 0x80 (leBytes 2 id.toNat))
      | some (main, v) =>
        if main && !mainPower s then emit s' (.mgmt 0x01 0x00 (leBytes 2 id.toNat ++ [2]))
        else emit s' (.mgmt 0x01 0x00 (leBytes 2 id.toNat ++ [0] ++ leBytes 2 v))

/-- PLDM_BASE_REQUEST: a PLDM type 0 command is answered (R500). -/
def execPldmBaseRequest (command : BitVec 8) (s : State) : Out :=
  .next (if mgmtUp s then emit s (.mgmt 0x01 0x00 (Config.dmtfBody 0x100 command.toNat)) else s)

/-- PLDM_FRU_REQUEST: a PLDM type 4 command is answered with FRU data (R500). -/
def execPldmFruRequest (command : BitVec 8) (s : State) : Out :=
  .next (if mgmtUp s then emit s (.mgmt 0x01 0x00 (Config.dmtfBody 0x104 command.toNat)) else s)

/-- SET_EVENT_RECEIVER (R502). -/
def execSetEventReceiver (eid : BitVec 8) (s : State) : Out :=
  .next (if mgmtUp s then emit { s with mgmt := { s.mgmt with receiver := some eid.toNat } } (.mgmt 0x01 0x00 []) else s)

/-- The oldest queued event leaves the queue: it was delivered (R502). -/
def eventDelivered (s : State) : State :=
  mgmtFreed { s with mgmt := { s.mgmt with queue := s.mgmt.queue.drop 1, sentAt := none, retries := 0 } }

/-- POLL_FOR_PLATFORM_EVENT (R502): the oldest undelivered event is returned, and is then delivered; an empty queue answers without
data. -/
def execPollForPlatformEvent (s : State) : Out :=
  .next <|
    if !mgmtUp s then s
    else match s.mgmt.queue with
      | [] => emit s (.mgmt 0x01 0x00 [])
      | e :: _ => emit (eventDelivered s) (.mgmt 0x01 0x00 (leBytes 1 e.1 ++ e.2.1))

/-- PLATFORM_EVENT_SEND (R502): the oldest queued event goes to the receiver, unless its retries are spent; `answered` tells that the
response arrived, now or to an event sent before. -/
def execPlatformEventSend (answered : Bool) (s : State) : Out :=
  .next <|
    match s.mgmt.receiver, s.mgmt.queue with
    | some r, e :: _ =>
      if !mgmtUp s ∨ e.2.2.2 then s
      else
        let s := if s.mgmt.sentAt.isSome then s
          else { emit s (.platformEvent r e.1 e.2.1) with mgmt := { s.mgmt with sentAt := some s.clock, retries := 0 } }
        if answered then eventDelivered s else s
    | _, _ => s

/-- PLATFORM_EVENT_TIMEOUT (R502): 100 ms without a response: retried up to 3 times, then left for polling. -/
def execPlatformEventTimeout (s : State) : Out :=
  .next <|
    match s.mgmt.sentAt, s.mgmt.receiver, s.mgmt.queue with
    | some t, some r, e :: q =>
      if s.clock < t + 100 * msCycles then s
      else if s.mgmt.retries < 3 then
        { emit s (.platformEvent r e.1 e.2.1) with mgmt := { s.mgmt with sentAt := some s.clock, retries := s.mgmt.retries + 1 } }
      else { s with mgmt := { s.mgmt with sentAt := none, retries := 0, queue := (e.1, e.2.1, e.2.2.1, true) :: q } }
    | _, _, _ => s

/-! ### Vendor messages without register access (R503) -/

/-- SUMP_READ (R503): `count` (1-7) plaintext records from a record index, modulo the capacity; INVALID for another count, UNAVAILABLE
without main power or a sump. -/
def execSumpRead (index : BitVec 32) (count : BitVec 8) (s : State) : Out :=
  .next <|
    if !mgmtUp s then s
    else if !mainPower s ∨ !s.power.sumpExists then emit s (.mgmt 0x7E 0x03 [])
    else if count = 0 ∨ 7 < count.toNat ∨ sumpCapacity s ≤ index.toNat then emit s (.mgmt 0x7E 0x02 [])
    else emit s (.mgmt 0x7E 0x00 ((upTo count.toNat).flatMap (fun k =>
      memBytes s (s.power.sumpBase.toNat + 32 * ((index.toNat + k) % sumpCapacity s)) 32)))

/-- STATUS (R503): power state, CX state, deputy level, ring position, N, CX_FW_VERSION. -/
def execMgmtStatus (s : State) : Out :=
  .next (if mgmtUp s then emit s (.mgmt 0x7E 0x00
      ([BitVec.ofNat 8 s.power.state.code, BitVec.ofNat 8 s.cx.state, BitVec.ofNat 8 (level s), BitVec.ofNat 8 s.ri.position
       , BitVec.ofNat 8 s.ri.count] ++ leBytes 4 s.cx.version.toNat))
    else s)

/-! ### SPDM (R511-R513, R520-R522) -/

/-- Transport number of an SPDM request. -/
def viaNo : Via → Nat
  | .mgmt => 0
  | .doe p f => mailbox p f.toNat

/-- Answer an SPDM request on its transport. -/
def spdmAnswer (s : State) (via : Via) (code : Nat) (body : List Byte) : State :=
  match via with
  | .mgmt => emit s (.mgmt 0x05 code body)
  | .doe p f => emit s (.doe p f.toNat code body)

/-- Answer with ERROR (0x7F) and an error code: Busy 0x03, UnexpectedRequest 0x04, Unspecified 0x05, SessionLimitExceeded 0x0A, and
InvalidRequest 0x01 and InvalidSession 0x02 (values PRESUMED of DSP0274). -/
def spdmError (s : State) (via : Via) (code : Nat) : State := spdmAnswer s via 0x7F [BitVec.ofNat 8 code]

/-- The transport carries requests: AUX and an address for management, a live enabled function with its link up for a mailbox. -/
def viaUp (s : State) : Via → Bool
  | .mgmt => mgmtUp s
  | .doe p f => (getHp s p).up && fnLive s p f.toNat

/-- What every SPDM request meets first (R500, R513): no answer on a dead transport, Busy without main power or before the key engine
serves, Unspecified without identity; with `ready`, UnexpectedRequest before algorithms are negotiated (PRESUMED of DSP0274). -/
def spdmServe (s : State) (via : Via) (ready : Bool) (f : State → State) : State :=
  if !viaUp s via then s
  else if !mainPower s ∨ s.ke.state = 0 then spdmError s via 0x03
  else if s.ke.state = 3 then spdmError s via 0x05
  else if ready && !s.mgmt.negotiated.contains (viaNo via) then spdmError s via 0x04
  else f s

/-- GET_VERSION (R520): versions are returned and the negotiation starts again. -/
def execSpdmGetVersion (via : Via) (s : State) : Out :=
  .next (spdmServe s via false (fun s =>
    spdmAnswer { s with mgmt := { s.mgmt with negotiated := s.mgmt.negotiated.filter (· != viaNo via) } } via 0x04
      (Config.dmtfBody 0x504 0)))

/-- GET_CAPABILITIES (R520). -/
def execSpdmGetCapabilities (via : Via) (s : State) : Out :=
  .next (spdmServe s via false (fun s => spdmAnswer s via 0x61 (Config.dmtfBody 0x561 0)))

/-- NEGOTIATE_ALGORITHMS (R520): the algorithms of R520 are fixed. -/
def execSpdmNegotiateAlgorithms (via : Via) (s : State) : Out :=
  .next (spdmServe s via false (fun s =>
    spdmAnswer { s with mgmt := { s.mgmt with negotiated := viaNo via :: s.mgmt.negotiated.filter (· != viaNo via) } } via 0x63
      (Config.dmtfBody 0x563 0)))

/-- A 512-bit digest as bytes. -/
def digestBytes (d : BitVec 512) : List Byte := (leBytes 64 d.toNat).reverse

/-- GET_DIGESTS (R520): the digest of the slot 0 chain. -/
def execSpdmGetDigests (via : Via) (s : State) : Out :=
  .next (spdmServe s via true (fun s => spdmAnswer s via 0x01 (digestBytes (sha512 s.store.chain))))

/-- GET_CERTIFICATE (R512, R520): a part of the slot 0 chain; slot 0 only. -/
def execSpdmGetCertificate (via : Via) (slot : BitVec 8) (offset length : BitVec 16) (s : State) : Out :=
  .next (spdmServe s via true (fun s =>
    if slot ≠ 0 then spdmError s via 0x01
    else spdmAnswer s via 0x02 ((s.store.chain.drop offset.toNat).take length.toNat)))

/-- CHALLENGE (R520): the chain digest and a signature under the identity key over the exchange (its bytes are free). -/
def execSpdmChallenge (via : Via) (slot : BitVec 8) (nonce : List Byte) (s : State) : Out :=
  .next (spdmServe s via true (fun s =>
    if slot ≠ 0 then spdmError s via 0x01
    else spdmAnswer { s with free := s.free + 1 } via 0x03
      (digestBytes (sha512 s.store.chain) ++ nonce ++ Config.dmtfBody 0x503 s.free)))

/-- One bit for every page's PAGE_LOCK in directory order, then the function pages of VFs 1-31 of Ports A and B (R521). -/
def lockBytes (s : State) : List Byte :=
  (upTo 51).map (fun b => BitVec.ofNat 8 ((upTo 8).map (fun k =>
    if 8 * b + k < 401 ∧ (getHdr s (8 * b + k)).lock then 2 ^ k else 0)).sum)

/-- Measurement block `i` of R521. -/
def measurement (s : State) (i : Nat) : List Byte :=
  match i, s.cx.running with
  | 1, _ => digestBytes Config.bootRomDigest
  | 2, some r => digestBytes r.headerDigest
  | 3, some r => digestBytes r.kernelDigest
  | 4, some r => digestBytes r.manifestDigest ++ leBytes 8 r.manifest.serial.toNat ++ leBytes 8 r.manifest.sku.toNat
  | 5, some r => leBytes 4 r.version.toNat ++ leBytes 4 r.svn ++ leBytes 4 s.store.mvc
  | 6, _ => match s.sq.planSet with
    | some p => digestBytes s.sq.planDigest ++ leBytes 8 p.modelId.toNat
    | none => []
  | 7, _ => if s.ri.valid then leBytes 1 s.ri.position ++ leBytes 1 s.ri.count ++ leBytes 1 s.ri.generation
      ++ s.ri.members.flatMap (fun m => (leBytes 32 m.digest.toNat).reverse) else []
  | 8, _ => lockBytes s
  | _, _ => []

/-- Blocks 1 to 8 with index and length before each (R521). -/
def allMeasurements (s : State) : List Byte :=
  ((upTo 9).drop 1).flatMap (fun i => let m := measurement s i; leBytes 1 i ++ leBytes 2 m.length ++ m)

/-- GET_MEASUREMENTS (R521): one block, all blocks (0xFF), or their number (0). -/
def execSpdmGetMeasurements (via : Via) (index : BitVec 8) (s : State) : Out :=
  .next (spdmServe s via true (fun s =>
    if index = 0 then spdmAnswer s via 0x60 [8]
    else if index = 0xFF then spdmAnswer s via 0x60 (allMeasurements s)
    else if 8 < index.toNat then spdmError s via 0x01
    else spdmAnswer s via 0x60 (index :: leBytes 2 (measurement s index.toNat).length ++ measurement s index.toNat)))

/-- KEY_EXCHANGE (R520): opens a secured session; a fifth on the transport is refused with SessionLimitExceeded. -/
def execSpdmKeyExchange (via : Via) (s : State) : Out :=
  .next (spdmServe s via true (fun s =>
    if 4 ≤ (s.mgmt.sessions.filter (fun z => z.transport == viaNo via)).length then spdmError s via 0x0A
    else
      let sid := s.mgmt.nextSid
      spdmAnswer { s with mgmt := { s.mgmt with sessions := s.mgmt.sessions ++ [{ transport := viaNo via, sid := sid }]
                                                nextSid := sid + 1 }, free := s.free + 1 } via 0x64
        (leBytes 4 sid ++ Config.dmtfBody 0x564 s.free)))

/-- A session of a transport. -/
def findSession (s : State) (via : Via) (sid : Nat) : Option Session :=
  s.mgmt.sessions.find? (fun z => z.transport == viaNo via && z.sid == sid)

/-- FINISH (R520): completes the establishment of a session. -/
def execSpdmFinish (via : Via) (sid : BitVec 32) (s : State) : Out :=
  .next (spdmServe s via true (fun s =>
    match findSession s via sid.toNat with
    | none => spdmError s via 0x02
    | some z =>
      if z.finished then spdmError s via 0x04
      else spdmAnswer { s with mgmt := { s.mgmt with sessions := s.mgmt.sessions.map (fun y =>
        if y = z then { y with finished := true } else y) } } via 0x65 (Config.dmtfBody 0x565 0)))

/-- HEARTBEAT (R520): a secured session is kept alive. -/
def execSpdmHeartbeat (via : Via) (sid : BitVec 32) (s : State) : Out :=
  .next (spdmServe s via true (fun s =>
    match findSession s via sid.toNat with
    | some z => if z.finished then spdmAnswer s via 0x68 [] else spdmError s via 0x04
    | none => spdmError s via 0x02))

/-- KEY_UPDATE (R520): the keys of a session are replaced; session keys are not named in the model's state (log entry 13). -/
def execSpdmKeyUpdate (via : Via) (sid : BitVec 32) (s : State) : Out :=
  .next (spdmServe s via true (fun s =>
    match findSession s via sid.toNat with
    | some z => if z.finished then spdmAnswer s via 0x69 [] else spdmError s via 0x04
    | none => spdmError s via 0x02))

/-- END_SESSION (R520): a secured session is closed. -/
def execSpdmEndSession (via : Via) (sid : BitVec 32) (s : State) : Out :=
  .next (spdmServe s via true (fun s =>
    match findSession s via sid.toNat with
    | none => spdmError s via 0x02
    | some z => spdmAnswer { s with mgmt := { s.mgmt with sessions := s.mgmt.sessions.filter (· != z) } } via 0x6C []))

end Sys2Proof.Machine
end

