-- ==== Sys2Proof/Machine/Ring.lean ====
section
/-! DEFINITION. The ring's links, crosscut, training and membership (R399-R444, R489, R492, R529, R614, R625). -/

namespace Sys2Proof.Machine

/-! ### Bring-up (R402, R403, R413, R426) -/

/-- Fibres whose eight lanes are all good (R403). -/
def goodFibres (lanes : BitVec 32) : List Nat := (upTo 4).filter (fun f => bits lanes.toNat (8 * f) 8 == 255)

/-- Fibres of a mask. -/
def fibresOf (m : BitVec 4) : List Nat := (upTo 4).filter (fun f => m.getLsbD f)

/-- A port is down. -/
def dropPort (s : State) (p : Nat) : State := modLink { s with ri := { s.ri with statusCleared := false } } p Link.dropped

/-! ### A membership change begins (R299, R432, R492) -/

/-- The admitted set is to be retired at the next boundary (R299, R432). -/
def retireForChange (s : State) : State :=
  if planAdmitted s then { s with sq := { s.sq with retireWanted := 2 } } else s

/-- A membership change begins (R432, R492): halt and retirement, the staged image discarded unless the handoff is pending, and
training anew, from phase 1 where a hop changed and from phase 3 elsewhere. `cause` is what MEMBERSHIP will report (R444). -/
def beginChange (s : State) (cause : Nat) (trip : Bool) : State :=
  let s := retireForChange { s with
    ri := { s.ri with changing := true, changeCause := cause }, sq := { s.sq with idleRounds := false } }
  let s := changeDiscards s (if trip then 2 else 3)
  if s.ri.crosscut ∨ s.ri.crosscutMoving.isSome then s
  else if portsUp s ∧ 7 ≤ s.power.state.code then startElect s
  else startBringup s

/-- A link goes down (R411, R415, R444): LINK_DOWN with its port and cause; the device reports FAULT for the round, which halts the ring
(R291), and phases 1 and 2 run anew on the port. A link that has failed, with causes 1 to 3, changes the membership (R432); after wander or a
failed tag the ring trains and keeps its membership where no delay changes (R415, R429; log entry 86). -/
def linkDown (s : State) (p cause : Nat) : State :=
  let s := raiseEvent (dropPort s p) pgRi 0x04 (info [(1, p), (1, cause)])
  let s := { s with sq := { s.sq with faulted := s.sq.faulted || planAdmitted s } }
  if cause ≤ 3 ∧ s.ri.valid ∧ 1 < s.ri.count then beginChange s 3 false else startBringup s

/-- Phase 1 ends on a port (R403, R426): the fibres `kept`, good ones and as many as the envelope allows. Fewer than LANES_MIN fails with RESULT
1; once every port has its lanes, phase 2 begins. -/
def trainLanes (s : State) (p : Nat) (good ks : List Nat) : State :=
  let n := min good.length s.ri.envelope.2
  if !ks.all (good.contains ·) ∨ ks.length ≠ n then s
  else
    let s := { s with ri := { s.ri with peerLight := true } }
    if n < s.ri.envelope.1 then trainFail s 1
    else
      let s := modLink { s with ri := { s.ri with statusCleared := false } } p (fun l => { l with trained := true, width := n })
      let excluded := (upTo 4).foldl (fun m f => if ks.contains f then m else m + 255 * 2 ^ (8 * f)) 0
      let s := if n = 4 then s else raiseEvent s pgRi 0x0B (info [(1, p), (1, 8 * n), (4, excluded)])
      if (upTo 4).all (fun p => (getLink s p).up || (getLink s p).trained) then
        { s with ri := { s.ri with phase := 2, phaseAt := s.clock } }
      else s

/-- Phase 2 ends on a port (R413, R426): the link has a new session key, and the port is up. The two directions between the same devices
share the secrets of one bring-up. `auth` is 0, or the LINK_AUTH code of a failed step, with the peer's serial: RESULT 2; a device
without its identity key cannot sign (R513). With every port up the ring elects, or a device that Port A cannot load waits for an image. -/
def keyPort (s : State) (p auth : Nat) (serial : BitVec 64) (wants : Bool) : State :=
  if auth ≠ 0 ∨ !s.store.idOk ∨ s.ke.state = 3 then
    trainFail (raiseEvent s pgRi 0x08 (info [(1, p), (1, if auth = 0 then 2 else auth), (8, serial.toNat)])) 2
  else
    let (k, s) := newKey s
    let other := getLink s (oppositePort p)
    let born := s.ri.phaseAt + 1
    let s := modLink { s with ri := { s.ri with statusCleared := false } } p (fun l =>
      { l with up := true, trained := false, bornAt := born, key := if other.up ∧ other.bornAt = born then other.key else k })
    let s := if p = 1 ∧ wants then
        (match s.cx.running with
        | some img => sendImage s (s.ri.position + 1) residentBase img.size
        | none => { s with ri := { s.ri with imageWanted := true } }) else s
    if !portsUp s then s
    else if 7 ≤ s.power.state.code then startElect s
    else { s with ri := { s.ri with phase := if (getHp s false).up then 0 else 2, phaseAt := s.clock } }

/-- LINK_BRINGUP (R403, R413, R426): a port ends phase 1 with its lanes, and then phase 2 with its key. `lanes` are the lanes whose symbol error
ratio is at most 2.4e-4, `kept` the fibres chosen. `wants` tells that the INBYE-out neighbour waits for an image (R426, R489). -/
def execLinkBringup (port : BitVec 2) (lanes : BitVec 32) (kept : BitVec 4) (auth : BitVec 2) (serial : BitVec 64) (wants : Bool) (s : State) : Out :=
  .next <|
    let p := port.toNat
    let l := getLink s p
    if s.ri.crosscut ∨ s.ri.crosscutMoving.isSome ∨ s.power.state.code < 3 ∨ l.up then s
    else if s.ri.phase = 1 ∧ !l.trained then trainLanes s p (goodFibres lanes) (fibresOf kept)
    else if s.ri.phase = 2 ∧ l.trained then keyPort s p auth.toNat serial wants
    else s

/-! ### Loss of a link (R411, R415, R429, R444) -/

/-- LINK_LIGHT_LOSS (R444): cause 1 light lost, 2 FEC lock lost. On the closed path light is then no longer sensed (R405, R441; log entry
114). -/
def execLinkLightLoss (port : BitVec 2) (fec : Bool) (s : State) : Out :=
  .next (if s.ri.crosscut ∧ !fec then { s with ri := { s.ri with light := false } }
    else if (getLink s port.toNat).up then linkDown s port.toNat (if fec then 2 else 1) else s)

/-- LINK_SILENCE (R411): nothing received on the port for 10 µs. -/
def execLinkSilence (port : BitVec 2) (s : State) : Out :=
  .next (if (getLink s port.toNat).up then linkDown s port.toNat 3 else s)

/-- RETIME_WANDER (R429): the re-timing buffer of a hop leaves its ±2 ticks: LINK_DOWN with cause 4, a halt, and the ring retrains. -/
def execRetimeWander (port : BitVec 2) (s : State) : Out :=
  .next (if (getLink s port.toNat).up then linkDown s port.toNat 4 else s)

/-! ### Acknowledgement and replay (R408, R411, R412) -/

/-- RTB second. -/
def rtbSecond (s : State) : Nat := rtb s / 100000000

/-- One CREDIT flit is resent: REPLAYS counts it, and the 64th of one second of RTB on a port raises REPLAY_RATE (R411, R441, R444). -/
def resend (p : Nat) (s : State) (e : Nat × Nat × CreditFlit) : State :=
  let sec := rtbSecond s
  let s := modLink s p (fun l =>
    { l with resentSec := sec, resent1s := if l.resentSec = sec then l.resent1s + 1 else 1
             replay := l.replay.map (fun g => if g.1 = e.1 then (g.1, g.2.1 + 1, g.2.2) else g) })
  let s := { s with ri := { s.ri with replays := s.ri.replays.bump (sclk s) 255 1 } }
  let s := sendCredit s p e.1 e.2.2
  let n := (getLink s p).resent1s
  if n = 64 then raiseEvent s pgRi 0x0C (info [(1, p), (4, n)]) else s

/-- ACK, NAK and credits for a sending port (R408, R411, R412): acknowledged flits leave the replay buffer; on NAK the rest is resent in
order, unless one of them has been resent 16 times, which takes the link down; credits return, and waiting flits go. -/
def linkReturn (s : State) (p ack : Nat) (nak : Bool) (credits cls : Nat) : State :=
  let l := getLink s p
  let rest := if l.replay.any (fun e => e.1 == ack) then (l.replay.dropWhile (fun e => e.1 != ack)).drop 1 else l.replay
  let s := modLink s p (fun l => { l.withCredits cls (min 512 (l.credits cls + credits)) with replay := rest })
  if nak ∧ rest.any (fun e => decide (16 ≤ e.2.1)) then linkDown s p 3
  else drainCredits (if nak then forEach rest (resend p) s else s) p

/-- IDLE_FLIT (R408): the ACK, NAK, CREDITS and CCLASS fields of a flit received on a port, whatever its KIND, serve the opposite link. With the crosscut
closed the flit passes by, and its light is sensed (R405, R441; log entry 114). -/
def execIdleFlit (port : BitVec 2) (ack : BitVec 12) (nak : Bool) (credits : BitVec 10) (cclass : Bool) (s : State) : Out :=
  .next <|
    let p := port.toNat
    if s.ri.crosscut ∧ mainPower s then { s with ri := { s.ri with light := true } }
    else if (p ≠ 0 ∧ p ≠ 2) ∨ !(getLink s p).up ∨ !(getLink s (oppositePort p)).up then s
    else linkReturn s (oppositePort p) ack.toNat nak credits.toNat (ofBool cclass)

/-! ### Credit packets (R401, R410, R412, R424, R425) -/

/-- A ring source is frozen for a malformed credit packet (R425); what comes from a frozen source is discarded. -/
def malformed (s : State) (packet : List Byte) : State :=
  if isFrozen s 4 (packetSource packet) then s else freeze s pgRi 4 (packetSource packet) 0x080A (leAt packet 8 8)

/-- A packet is whole (R424, R425): discarded from a frozen source; a reserved TYPE or a length that its flits do not hold freezes its
source. A read request carries no data. -/
def packetArrived (s : State) (bytes : List Byte) (flits : Nat) : State :=
  let type := byteAt bytes 0
  let len := leAt bytes 6 2
  let size := 32 + (if type = 2 then 0 else len)
  if isFrozen s 4 (leAt bytes 2 2) then s
  else if type = 0 ∨ 5 < type ∨ 4096 < len ∨ (size + flitPayload - 1) / flitPayload ≠ flits then malformed s bytes
  else { s with ri := { s.ri with packets := s.ri.packets ++ [bytes.take size] } }

/-- Packet under reassembly on a port and class. -/
def Link.assembly (l : Link) (cls : Nat) : Option (List Byte) := if cls = 0 then l.asmC0 else l.asmC1

/-- Change the packet under reassembly. -/
def setAssembly (s : State) (p cls : Nat) (v : Option (List Byte)) : State :=
  modLink s p (fun l => if cls = 0 then { l with asmC0 := v } else { l with asmC1 := v })

/-- A CREDIT flit for this device joins its packet (R424, R425): a FIRST flit or an eighteenth one before LAST means that LAST is missing. -/
def consumeFlit (s : State) (p cls : Nat) (first last : Bool) (body : List Byte) : State :=
  let held := (getLink s p).assembly cls
  let s := match first, held with
    | true, some old => malformed (setAssembly s p cls none) old
    | _, _ => s
  match (if first then some [] else held) with
  | none => s
  | some old =>
    let new := old ++ padTo flitPayload body
    if last then packetArrived (setAssembly s p cls none) new (new.length / flitPayload)
    else if 17 * flitPayload ≤ new.length then malformed (setAssembly s p cls none) new
    else setAssembly s p cls (some new)

/-- CREDIT_FLIT (R401, R410-R412): a flit that fails its CRC is discarded and NAKed; one out of order is discarded; one in order is
acknowledged, and forwarded against a credit of the next link or consumed here, which returns its credit. -/
def execCreditFlit (port : BitVec 2) (cls : Bool) (seq : BitVec 12) (dst : BitVec 6) (first last : Bool) (body : List (BitVec 8))
    (crcOk : Bool) (s : State) : Out :=
  .next <|
    let p := port.toNat
    let c := ofBool cls
    if (p ≠ 0 ∧ p ≠ 2) ∨ !(getLink s p).up then s
    else if !crcOk then sendReturn s p 1 0 c
    else if seq.toNat ≠ ((getLink s p).rxSeq + 1) % 4096 then s
    else
      let s := modLink s p (fun l => { l with rxSeq := seq.toNat })
      let d := dst.toNat
      let onward := s.ri.valid && (if p = 0 then decide (s.ri.position < d) else decide (d < s.ri.position))
      let out := if p = 0 then 1 else 3
      if onward && (getLink s out).up then
        queueCredit (sendReturn s p 0 0 c) out { cls := c, dst := d, first := first, last := last, body := body, came := some p }
      else
        let s := if onward ∨ (s.ri.valid && d != s.ri.position) then s else consumeFlit s p c first last body
        sendReturn s p 0 1 c

/-! ### Tags (R414, R415) -/

/-- TAG_WINDOW_CLOSE (R414): windows closed at 2,048 flits send their tag flits; with none, a window that holds flits closes at a flit
period in which nothing of rank 2 to 4 is ready, and its tag flit goes. -/
def execTagWindowClose (port : BitVec 2) (s : State) : Out :=
  .next <|
    let p := port.toNat
    let l := getLink s p
    let tags := fun (s : State) (ws : List (Nat × List Byte)) => forEach ws (fun s w => sendControl s p (tagFields w.1 w.2) true) s
    if !l.up then s
    else if l.tagReady ≠ [] then tags (modLink s p (fun l => { l with tagReady := [] })) l.tagReady
    else if l.windowFlits = 0 ∨ (nextCredit l).isSome then s
    else tags (modLink s p (fun l => { closeWindow p l with tagReady := [] })) (closeWindow p l).tagReady

/-- TAG_FLIT (R415): a received tag flit meets the payload of its window (`ok`); a tag that fails raises LINK_AUTH, makes the device report
FAULT and takes the link down with cause 5. -/
def execTagFlit (port : BitVec 2) (_window : BitVec 64) (ok crcOk : Bool) (s : State) : Out :=
  .next <|
    let p := port.toNat
    if !(getLink s p).up ∨ ok ∨ !crcOk then s
    else linkDown (raiseEvent s pgRi 0x08 (info [(1, p), (1, 3)])) p 5

/-! ### Election and timebase (R420, R426-R430) -/

/-- Phase 3 ends when the device's own claim has come round (R426, R427): N is its hops; the position is the INBYE hops from the
candidate of the lowest serial; without a candidate training fails. Phase 4 re-evaluates the PLL's reference (R619). -/
def claimsDone (s : State) (n : Nat) : State :=
  match s.ri.best with
  | none => trainFail s 3
  | some (_, hops) =>
    let s := { s with ri := { s.ri with elected := some (hops, n), phase := 4, phaseAt := s.clock } }
    if pllSelect s ≠ s.power.pllRef ∨ s.power.pllHold.isSome then pllRetarget s
    else if s.power.pllPending then s else startMeasure s

/-- A claim reaches a trained device: the ring trains again, from phase 3 on this hop (R429, R432; log entry 115). -/
def joinElect (s : State) : State :=
  if s.ri.phase = 0 ∧ s.ri.valid ∧ !s.ri.crosscut ∧ 7 ≤ s.power.state.code ∧ portsUp s then startElect s else s

/-- CLAIM_FLIT (R420, R427, R430): another device's claim is noted and goes on INBYE, one hop further; the device's own ends phase 3. -/
def execClaimFlit (hfSel candidate : Bool) (serial maxRtb : BitVec 64) (hops : BitVec 8) (crcOk : Bool) (s : State) : Out :=
  .next <|
    if !crcOk then s
    else
      let n := hops.toNat + 1
      let s := if serial = s.store.serial then s else joinElect s
      if serial = s.store.serial then (if s.ri.phase = 3 then claimsDone s n else s)
      else if s.ri.phase ≠ 3 then sendControl s 1 (claimFields hfSel candidate serial.toNat maxRtb.toNat n)
      else
        let best := match s.ri.best with
          | some (b, h) => if candidate && decide (serial.toNat < b.toNat) then some (serial, n) else some (b, h)
          | none => if candidate then some (serial, n) else none
        let s := { s with ri := { s.ri with best := best, maxRtb := if s.ri.maxRtb.toNat < maxRtb.toNat then maxRtb else s.ri.maxRtb } }
        sendControl s 1 (claimFields hfSel candidate serial.toNat maxRtb.toNat n)

/-- The value the headframe sets RTB to (R430). -/
def newRtb (maxRtb : Nat) : Nat := (maxRtb + 2 ^ 22 + 2 ^ 20 - 1) / 2 ^ 20 * 2 ^ 20

/-- RTB takes a value of `cycles` DCLK cycles, never back (R430, R622). -/
def setRtb (s : State) (cycles : Nat) : State :=
  if cycles / 16 < rtb s then s
  else { s with power := { s.power with rtb := BitVec.ofNat 64 (cycles / 16), rtbPhase := (cycles % 16 + 15 * s.clock) % 16 } }

/-- TIME_FLIT (R420, R428, R430): a probe is echoed on the opposite link; the echo of this device's probe gives the published delay of its
INBYE-out hop, half the round trip in whole ticks and the fixed paths, and the headframe then sets RTB and sends the set flit; a set
flit sets RTB to its count plus the path's delay in ticks and goes on INBYE. -/
def execTimeFlit (port : BitVec 2) (mode : BitVec 2) (count stamp : BitVec 64) (delay : BitVec 16) (crcOk : Bool) (s : State) : Out :=
  .next <|
    if !crcOk ∨ !(getLink s port.toNat).up then s
    else if mode = 1 ∧ port = 0 then sendControl s 3 (timeFields 2 count.toNat stamp.toNat)
    else if mode = 2 ∧ port = 2 ∧ s.ri.phase = 5 ∧ s.ri.probeSent = some stamp then
      let trip := s.clock / 2 - stamp.toNat
      let s := { s with ri := { s.ri with probeSent := none, measured := some ((trip + 1) / 2 + Config.fixedPath) } }
      match s.ri.elected with
      | some (0, _) =>
        let v := newRtb s.ri.maxRtb.toNat
        let s := setRtb s (16 * v)
        let s := { s with ri := { s.ri with phase := 6, phaseAt := s.clock } }
        sendControl s 1 (timeFields 0 v (s.clock / 2))
      | _ => s
    else if mode = 0 ∧ port = 0 ∧ s.ri.phase = 5 then
      match s.ri.elected with
      | some (p, n) =>
        if p = 0 then s
        else
          let s := setRtb s (16 * count.toNat + 2 * delay.toNat)
          let s := { s with ri := { s.ri with phase := 6, phaseAt := s.clock } }
          if p + 1 < n then sendControl s 1 (timeFields 0 count.toNat stamp.toNat) else s
      | none => s
    else s

/-! ### Membership (R299, R431, R432, R492) -/

/-- MEMBERSHIP_CHANGE (R432): a crosscut change, a failed link or a changed delay elsewhere on the ring changes the membership; `trip`
tells that a trip is its origin (R510). -/
def execMembershipChange (cause : BitVec 8) (trip : Bool) (s : State) : Out :=
  .next (if !s.ri.valid ∨ s.ri.count ≤ 1 ∨ cause.toNat < 2 ∨ 5 < cause.toNat then s else beginChange s cause.toNat trip)

/-- Completion reports of a handoff follow their members to the positions of a new ring (R492: every surviving member completes it). -/
def renumberDone (s : State) (old ms : List Member) : State :=
  let place := fun (p : Nat) => match old[p]? with
    | some m => ms.findIdx? (fun n => n.serial == m.serial)
    | none => none
  { s with cx := { s.cx with hoDone := s.cx.hoDone.filterMap place } }

/-- A ring of one forms again after a change (R400, R431, R432). -/
def reformSolo (s : State) (cause : Nat) : State :=
  let s := renumberDone (changeDiscards (retireForChange s) 3) s.ri.members [{ serial := s.store.serial }]
  let m : Member := { serial := s.store.serial, digest := s.store.idDigest }
  let s := { s with ri := { s.ri with
    state := 6, statusCleared := false, valid := true, hf := true, count := 1, position := 0, members := [m], cause := cause, phase := 0, result := 0
    generation := (s.ri.generation + 1) % 256, retrainAt := none, changing := false, changeCause := 5, elected := none, inbyeHop := 0, outbyeHop := 0 } }
  raiseEvent s pgRi 0x05 (info [(1, 1), (1, 0), (1, s.ri.generation), (1, cause)])

/-- TRAINING_PHASE_TIMEOUT (R426): a phase that exceeds its limit fails training with its number as RESULT. After a JOIN that finds no
light on any port, a strapped device in READY forms its ring of one again (R400). -/
def execTrainingPhaseTimeout (s : State) : Out :=
  .next <|
    let limit := [0, 40, 10, 1, 20, 5, 1].getD s.ri.phase 0
    if s.ri.phase = 0 ∨ s.clock < s.ri.phaseAt + limit * msCycles then s
    else if s.ri.phase = 1 ∧ s.power.state = .ready ∧ (upTo 4).all (fun p => !(getLink s p).up && !(getLink s p).trained) ∧ s.ri.hfSel then reformSolo s 2
    else trainFail s s.ri.phase

/-- TRAINING_RETRY (R625): one second after training failed it is repeated. -/
def execTrainingRetry (s : State) : Out :=
  .next (match s.ri.retrainAt with
    | none => s
    | some t =>
      if s.clock < t ∨ s.ri.state ≠ 5 then s
      else if portsUp s ∧ 7 ≤ s.power.state.code then startElect s
      else startBringup s)

/-- Restored owners are resolved (R529) from every member's reports (owner, ring position, digest, port): the record of the lowest
position stands; a member whose record differs removes it, destroys the slot, unbinds the tiles and raises SEAL_CONFLICT; a member
without a record creates a fresh slot; the headframe marks the owner in use and held by the recorded port. -/
def resolveOwners (s : State) (reports : List (Nat × Nat × BitVec 128 × Bool)) : State :=
  forEach ((upTo 256).drop 1) (fun s o =>
    match reports.filter (fun r => r.1 == o) with
    | [] => s
    | r :: rs =>
      let w := rs.foldl (fun m x => if x.2.1 < m.2.1 then x else m) r
      let k := getSlot s o
      let mine := k.state == 2 && k.restored
      let s := if mine && k.token != w.2.2.1 then
          raiseEvent (unbindOwner (destroyKey s o 6) o) pgKe 0x08 (info [(1, o), (1, w.2.1)]) else s
      let s := if mine && k.token == w.2.2.1 then s
        else modSlot (fillSlot s o w.2.2.2 w.2.2.1) o (fun k => { k with state := 2 })
      if isHeadframe s ∧ (getOwner s o).isNone then setOwner s o (some { token := w.2.2.1, held := some w.2.2.2 }) else s) s

/-- The hop that OUTBYE-out of a position leads over: the INBYE hop of the position before it (R399, R428). -/
def outbyeOf (ms : List Member) (p : Nat) : Nat := ((ms[(p + ms.length - 1) % ms.length]?).map (·.inbyeHop)).getD 0

/-- What this device puts into the report of itself (R431): identity, the lanes of each port as they trained, the hop as it measured it. -/
def ownMember (s : State) (m : Member) : Member :=
  { m with digest := s.store.idDigest, lanes := (upTo 4).map (fun p => 8 * (getLink s p).width), inbyeHop := s.ri.measured.getD m.inbyeHop }

/-- GENERATION and cause of a new membership (R431, R439, R444): the headframe counts changes, a first formation aside, and reports what began
this one; another member takes both from the report. -/
def reportOf (s : State) (p generation cause : Nat) : Nat × Nat :=
  if p = 0 then ((if s.ri.changeCause = 1 then s.ri.generation else (s.ri.generation + 1) % 256), s.ri.changeCause) else (generation, cause)

/-- The rounds of a new ring (R432): empty ones, until a set is admitted. -/
def startIdleRounds (s : State) : State :=
  { s with sq := { s.sq with idleRounds := true, roundRtb := s.power.rtb, emptyRound := true, roundRan := false, verdict := 0, rxStatus := []
                             statusFor := none } }

/-- Ring position that executes a fetched command of this device, of those sent on (R457). -/
def executorOf (f : Fetched) : Nat := if f.device = 0xFF then 0 else f.device

/-- Commands whose executing device is no member of a new ring complete with ABORTED (R463). -/
def abortDeparted (s : State) (old ms : List Member) : State :=
  let gone := fun (f : Fetched) => f.sent && match old[executorOf f]? with
    | some m => !ms.any (fun n => n.serial == m.serial)
    | none => true
  forEach ((s.hpA.fetched ++ s.hpB.fetched).filter gone) (fun s f => complete s (issuerOf f.port f) stAborted) s

/-- MEMBERSHIP_PUBLISH (R427-R432, R529): the report of phase 6: each position's serial, digest, lanes and INBYE hop, this device's own as it
knows them. A hop beyond 240 ticks fails training. An unchanged membership resumes with its set; a new one counts, raises
MEMBERSHIP, resolves the restored owners, lets a device in RING_TRAINING become READY, and runs empty rounds (R432). -/
def execMembershipPublish (report : List (BitVec 64 × BitVec 256 × List (BitVec 6) × BitVec 16)) (generation cause : BitVec 8)
    (owners : List (BitVec 8 × BitVec 6 × BitVec 128 × Bool)) (s : State) : Out :=
  .next <|
    match s.ri.elected with
    | none => s
    | some (p, n) =>
      let raw : List Member := report.map (fun r =>
        { serial := r.1, digest := r.2.1, lanes := r.2.2.1.map (·.toNat), inbyeHop := r.2.2.2.toNat })
      let raw := raw.modify p (ownMember s)
      let ms := (upTo raw.length).zipWith (fun i m => { m with outbyeHop := outbyeOf raw i }) raw
      match ms[p]? with
      | none => s
      | some me =>
        if s.ri.phase ≠ 6 ∨ ms.length ≠ n ∨ 64 < n ∨ me.serial ≠ s.store.serial then s
        else if ms.any (fun m => decide (240 < m.inbyeHop)) then trainFail s 5
        else
          let same := s.ri.valid && !s.ri.changing && s.ri.members.map (fun m => (m.serial, m.inbyeHop)) == ms.map (fun m => (m.serial, m.inbyeHop))
          let trained := fun (s : State) => { s with ri := { s.ri with
            state := 4, phase := 0, result := 0, retrainAt := none, members := ms, elected := none, changing := false } }
          if same then trained s
          else
            let s := renumberDone (abortDeparted s s.ri.members ms) s.ri.members ms
            let s := trained s
            let r := reportOf s p generation.toNat cause.toNat
            let s := if s.ri.valid then retireForChange s else s
            let s := { s with ri := { s.ri with
              statusCleared := false, valid := true, hf := p == 0, count := n, position := p, inbyeHop := me.inbyeHop, outbyeHop := me.outbyeHop
              generation := r.1, cause := r.2, changeCause := 5 } }
            let s := raiseEvent s pgRi 0x05 (info [(1, n), (1, p), (1, r.1), (1, r.2)])
            let s := resolveOwners s (owners.map (fun o => (o.1.toNat, o.2.1.toNat, o.2.2.1, o.2.2.2)))
            startIdleRounds (if s.power.state = .ringTraining then enterReady s else s)

/-! ### The crosscut (R405, R406, R614) and RI_TRAIN (R442) -/

/-- CROSSCUT_CLOSE (R405): main power is lost, module reset is asserted or the deputy trips: the crosscut starts to close if it does not
already. -/
def execCrosscutClose (s : State) : Out :=
  .next (if !mainPower s ∨ s.power.moduleResetAt.isSome ∨ s.power.railsByTrip then closeCrosscut s 0 else s)

/-- CROSSCUT_SETTLED (R405-R407, R437, R614): the actuator completes. Closed, the module is absent from the ring: its ports are down, no
membership holds, and its set is retired; `light` tells whether ring light passes on the closed path. Open, bring-up begins. -/
def execCrosscutSettled (light : Bool) (s : State) : Out :=
  .next (match s.ri.crosscutMoving with
    | none => s
    | some (true, _) =>
      let was := s.ri.valid
      let s := renumberDone (abortDeparted s s.ri.members [{ serial := s.store.serial }]) s.ri.members [{ serial := s.store.serial }]
      let s := if was then beginChange s 2 s.power.railsByTrip else s
      { s with ri := { s.ri with
        crosscut := true, crosscutMoving := none, ports := [], light := light && mainPower s, state := if mainPower s then 1 else 0
        statusCleared := false, valid := false, hf := false, count := 0, position := 0, inbyeHop := 0, outbyeHop := 0, members := [], phase := 0, retrainAt := none
        retime := [], packets := [], partialMsg := [], elected := none, changing := false
        generation := if was then (s.ri.generation + 1) % 256 else s.ri.generation } }
    | some (false, _) =>
      let s := { s with ri := { s.ri with
        crosscut := false, crosscutMoving := none, light := false, changeCause := if s.power.state = .ready then 2 else s.ri.changeCause } }
      if mainPower s then startBringup { s with ri := { s.ri with state := 2 } } else s)

/-- A write of RI_TRAIN (R442), where the page takes work (R21). JOIN: PF0 or management, while the crosscut is closed. LEAVE: PF0, while it is open. RETRAIN: PF0, on the
headframe. Anything else has no effect. -/
def writeRiTrain (s : State) (a : Accessor) (v : Nat) : State :=
  let pf0 : Bool := match a with
    | .pf0 _ => true
    | _ => false
  let closed : Bool := match s.ri.crosscutMoving with
    | some (c, _) => c
    | none => s.ri.crosscut
  if !takesWork s pgRi then s
  else if bit v 31 ∧ closed ∧ mainPower s ∧ (pf0 ∨ a = .mgmt) then openCrosscut s 4
  else if bit v 30 ∧ !closed ∧ pf0 then closeCrosscut s 3
  else if bit v 29 ∧ pf0 ∧ s.ri.valid ∧ s.ri.hf then
    if s.ri.count ≤ 1 then reformSolo s 4 else broadcast (beginChange s 4 false) 0x73 []
  else s

/-- JOIN: a write of RI_TRAIN with JOIN set. -/
def execRiJoin (a : Accessor) (value : BitVec 32) (s : State) : Out :=
  .next (if mayWrite s a pgRi && bit value.toNat 31 then writeRiTrain s a value.toNat else s)

/-- LEAVE: a write of RI_TRAIN with LEAVE set. -/
def execRiLeave (a : Accessor) (value : BitVec 32) (s : State) : Out :=
  .next (if mayWrite s a pgRi && bit value.toNat 30 then writeRiTrain s a value.toNat else s)

/-- RETRAIN: a write of RI_TRAIN with RETRAIN set. -/
def execRiRetrain (a : Accessor) (value : BitVec 32) (s : State) : Out :=
  .next (if mayWrite s a pgRi && bit value.toNat 29 then writeRiTrain s a value.toNat else s)

/-- RING_JOIN (R503): the vendor management command acts as a write of RI_TRAIN.JOIN; a write that is not accepted is answered with
DISCARDED. -/
def execRingJoin (s : State) : Out :=
  .next (if !mgmtUp s then s
    else if !mainPower s then emit s (.mgmt 0x7E 0x03 [])
    else
      let t := writeRiTrain s .mgmt (2 ^ 31)
      emit t (.mgmt 0x7E (if t = s then 0x01 else 0x00) []))

/-- A write of RI_LINK_RATE (R443, R516): discarded whole unless 1 ≤ LANES_MIN ≤ LANES_MAX, at most 4 and the manifest's FIBRES_MAX. -/
def writeRiLinkRate (s : State) (v : Nat) : State :=
  let lo := bits v 0 4
  let hi := bits v 4 4
  if lo = 0 ∨ hi < lo ∨ 4 < hi ∨ s.manifest.fibresMax < hi then s
  else { s with ri := { s.ri with lanesMin := lo, lanesMax := hi } }

/-- RI_LINK_RATE (R443). -/
def execRiLinkRate (a : Accessor) (value : BitVec 32) (s : State) : Out :=
  .next (if mayWrite s a pgRi && a != .mgmt then writeRiLinkRate s value.toNat else s)

end Sys2Proof.Machine
end

