-- ==== Sys2Proof/Machine/Registers.lean ====
section
/-! DEFINITION. The register pages: what every register reads as, what a read clears or latches, and what a write does (R12-R35, R40-R51,
R640), with the register commands of management and of the headframe (R461, R503). -/

namespace Sys2Proof.Machine

/-! ### The page directory (R28-R30) -/

/-- The page and the offset within it that a BAR0 offset of PF0 lies in; none for a reserved page and the calibration window. -/
def pageAt (off : Nat) : Option (Nat × Nat) :=
  if off < 0xB000 then some (off / 4096, off % 4096)
  else if 0x10000 ≤ off ∧ off < 0x18000 then some (pgSc ((off - 0x10000) / 4096), off % 4096)
  else if 0x100000 ≤ off ∧ off < 0x200000 then some (pgTg ((off - 0x100000) / 0x4000), off % 0x4000)
  else if 0x200000 ≤ off ∧ off < 0x300000 then some (pgCc ((off - 0x200000) / 4096), off % 4096)
  else none

/-- The tile and the byte of its record that an offset of the calibration window lies in (R30). -/
def windowAt (off : Nat) : Option (Nat × Nat) :=
  if 0x1000000 ≤ off ∧ off < 0x1440000 then some ((off - 0x1000000) / 64, off % 64) else none

/-- The port of an HP page. -/
def hpOfPage (p : Nat) : Bool := p == 9
/-- Port and number of the virtual function of a function page. -/
def fnOfPage (p : Nat) : Bool × Nat := if p < 370 then (false, p - 338) else (true, p - 369)

/-! ### The page header (R16-R27, R40, R48, R640) -/

/-- PAGE_CAPS (R20, R640). -/
def pageCaps (p : Nat) : Nat :=
  let c := pageClass p
  field 8 8 (if c = 0x0C then 4 else 1) + field 7 1 (ofBool ([0x09, 0x0A, 0x08, 0x0D].contains c))
    + field 6 1 (ofBool (c == 0x0C || c == 0x0D))
    + field 5 1 (ofBool (decide (p < 339) && [0x04, 0x05, 0x08, 0x09, 0x0B, 0x0C, 0x0D].contains c))

/-- PAGE_CTRL.SRST is implemented and EN can be written (R21, R640). -/
def pageSrst (p : Nat) : Bool := bit (pageCaps p) 5

/-- The manifest enables the page's resource (R21, R516). -/
def manifestEnables (s : State) (p : Nat) : Bool :=
  if p = 8 then s.manifest.hpEnable.getLsbD 0
  else if p = 9 then s.manifest.hpEnable.getLsbD 1
  else if 19 ≤ p ∧ p < 83 then s.manifest.tgEnable.getLsbD (p - 19)
  else if 83 ≤ p ∧ p < 339 then s.manifest.ccEnable.getLsbD (p - 83)
  else true

/-- PAGE_CTRL.EN as it reads (R21); on a VF function page, for which no rule gives it, it reads 1 and a write discards it (log entry
62). -/
def pageEn (s : State) (p : Nat) : Bool := manifestEnables s p && (getHdr s p).en

/-- PAGE_STATUS.STATE of a tile group (R91); where several apply, OFF, DISABLED, SELF_CAL, PROGRAM, IDLE, HALT, RUN in that order (log entry
76). -/
def tgState (s : State) (g : Nat) : Nat :=
  if s.power.state.code < 6 then 0
  else if !tgEnabled s g then 6
  else if s.hb.selfcal then 1
  else if (getTg s g).prog then 5
  else if !planAdmitted s then 2
  else if s.sq.state = 5 then 4
  else 3

/-- The core waits for a slot, a read-out or a remote read (R215, R217). -/
def coreStalled (k : Core) : Bool := match k.wait with
  | some (.slot _) | some .acc | some .net => true
  | _ => false

/-- PAGE_STATUS.STATE of a correction core (R215); a frozen core shows what it did at the freeze (log entry 106). -/
def ccState (s : State) (c : Nat) : Nat :=
  let k := getCore s c
  if s.power.state.code < 4 then 0
  else if !ccEnabled s c then 6
  else if k.inReset then 5
  else if k.active then (if coreStalled k then 3 else 2)
  else if planAdmitted s ∧ s.sq.state = 5 then 4
  else 1

/-- PAGE_STATUS.STATE of a page (R23 and the block chapters). -/
def pageState (s : State) (p : Nat) : Nat :=
  if p = 0 then s.power.state.code
  else if p = 2 then level s
  else if !mainPower s then 0
  else if p = 1 then s.cx.state
  else if p = 3 then
    (if s.hb.state = 0 then 0 else if s.hb.assayState = 1 then 3
     else if s.hb.selfcal || s.tgs.any (fun e => e.2.calActive) then 2 else 1)
  else if p = 4 then (if s.mc.state = 0 then 0 else if s.mc.calBusy then 3 else if s.mc.running then 2 else 1)
  else if p = 5 then s.ke.state
  else if p = 6 then s.sq.state
  else if p = 7 then s.ri.state
  else if p = 8 then s.hpA.state
  else if p = 9 then s.hpB.state
  else if p = 10 then s.ms.state
  else if p < 19 then (getSc s (p - 11)).state
  else if p < 83 then tgState s (p - 19)
  else if p < 339 then ccState s (p - 83)
  else
    let f := fnOfPage p
    if !fnEnabled s f.1 f.2 then 0 else if (getFn s f.1 f.2).inReset then 2 else 1

/-- PAGE_STATUS.READY (R23, R635): on the DEV page from READY onward; on any other page while its state is one of service (log entry
40). -/
def pageReady (s : State) (p : Nat) : Bool :=
  let st := pageState s p
  if p = 0 then st == 8
  else if p = 2 then true
  else if p = 1 then decide (3 ≤ st) && st != 5
  else if p = 5 then st == 1
  else if p = 7 then st == 4 || st == 6
  else if p = 8 ∨ p = 9 then st == 3
  else if 10 ≤ p ∧ p < 19 then st == 2
  else if 19 ≤ p ∧ p < 83 then decide (2 ≤ st) && st != 6
  else if 83 ≤ p ∧ p < 339 then decide (1 ≤ st) && decide (st ≤ 4)
  else if 339 ≤ p then st == 1
  else decide (1 ≤ st)

/-- A command of the page's block is in progress (R23; log entry 63): an image check or a handoff; a calibration, self-calibration or
assay; a self-calibration of the monitor converter; a destruction of keys; a plan check; training or a moving crosscut; programming or
calibration of a group; the clearing of a core, or a diagnostic launch. -/
def blockBusy (s : State) (p : Nat) : Bool :=
  if p = 1 then s.cx.state == 2 || s.cx.state == 4
  else if p = 3 then s.hb.selfcal || s.hb.assay.isSome || s.tgs.any (fun e => e.2.calActive)
  else if p = 4 then s.mc.calBusy
  else if p = 5 then s.ke.slots.any (fun e => e.2.state == 3)
  else if p = 6 then s.sq.checking.isSome
  else if p = 7 then s.ri.phase != 0 || s.ri.crosscutMoving.isSome
  else if 19 ≤ p ∧ p < 83 then (getTg s (p - 19)).prog || calShooting s (p - 19)
  else if 83 ≤ p ∧ p < 339 then (getCore s (p - 83)).inReset || ((getCore s (p - 83)).active && !planAdmitted s)
  else false

/-- PAGE_STATUS.BUSY (R23, R213): a page soft reset or a block command is in progress. -/
def pageBusy (s : State) (p : Nat) : Bool := (getHdr s p).busy || blockBusy s p

/-- A header register (R16). -/
def headerReg (s : State) (p off : Nat) : Nat :=
  let h := getHdr s p
  match off with
  | 0x000 => pageId p
  | 0x004 => pageCaps p
  | 0x008 => ofBool (pageEn s p)
  | 0x00C => field 4 4 (pageState s p) + field 2 1 (ofBool (pageBusy s p)) + field 1 1 (ofBool (pageFrozen s p))
      + ofBool (pageReady s p)
  | 0x010 => h.evtStatus.toNat
  | 0x014 => h.evtEnable.toNat
  | 0x01C => field 1 1 (ofBool h.routeMgmt) + ofBool h.routeHost
  | 0x020 => field 31 1 (ofBool h.faultValid) + h.faultCode.toNat
  | 0x024 => field 24 8 h.faultExtra + field 20 4 h.faultKind + h.faultMaster.toNat
  | 0x028 => h.faultAddr.toNat % 2 ^ 32
  | 0x02C => h.faultAddr.toNat / 2 ^ 32
  | 0x030 => field 31 1 (ofBool h.ownerValid) + (if h.ownerValid then field 8 1 (ofBool h.ownerPort) + field 0 8 h.ownerId else 0)
  | 0x034 => ofBool h.lock
  | 0x038 => h.scratch.toNat
  | _ => 0

/-! ### Block registers, page by page -/

/-- DEV (R45, R635, R636, R638). -/
def devReg (s : State) (off : Nat) : Nat :=
  match off with
  | 0x040 => field 28 4 s.power.wait + field 8 16 (if mainPower s then upMs s else 0) + s.power.state.code
  | 0x048 => field 16 16 s.power.causeCount + field 8 1 (ofBool s.power.tripBefore) + field 4 4 s.power.requester
      + field 0 4 s.power.cause
  | 0x050 => s.power.rtb.toNat % 2 ^ 32
  | 0x054 => s.power.rtbHi.toNat
  | 0x100 => s.power.sumpBase.toNat % 2 ^ 32
  | 0x104 => s.power.sumpBase.toNat / 2 ^ 32
  | 0x108 => field 0 5 s.power.sumpLog
  | 0x10C => s.power.sumpHead.toNat
  | _ => 0

/-- CX (R505-R509). -/
def cxReg (s : State) (off : Nat) : Nat :=
  match off with
  | 0x044 => field 31 1 (ofBool s.cx.fwValid) + field 16 8 s.cx.fwResult + field 8 8 s.cx.fwPhase
  | 0x048 => s.cx.version.toNat
  | 0x04C => field 24 4 s.cx.hoState + field 16 8 s.cx.hoResult + field 8 8 s.cx.hoMembers + field 0 8 (s.cx.hoDeferrals.shown (sclk s))
  | _ => 0

/-- DP (R570-R575). -/
def dpReg (s : State) (off : Nat) : Nat :=
  match off with
  | 0x040 => field 29 3 (level s) + field 26 3 s.dp.lArray + field 23 3 s.dp.lStack + field 20 3 s.dp.lOptics + field 17 3 s.dp.lPower
      + field 16 1 (ofBool (quiet s)) + field 15 1 (ofBool (tripPending s)) + field 0 12 s.dp.hottest.toNat
  | 0x044 => field 16 7 s.dp.stretchMax + field 8 8 95 + field 0 8 s.dp.throttle
  | 0x048 => field 20 12 (s.dp.ovThrottle.shown (sclk s)) + field 8 12 (s.dp.ovCal.shown (sclk s)) + field 0 8 (s.dp.ovHalt.shown (sclk s))
  | _ =>
    if 0x080 ≤ off ∧ off < 0x0C0 then
      match shownTrip s with
      | some r => leAt r.bytes (off - 0x080) 4
      | none => 0
    else 0

/-- HB (R576-R585). -/
def hbReg (s : State) (off : Nat) : Nat :=
  let h := s.hb
  match off with
  | 0x040 => field 0 9 h.tempSel
  | 0x044 =>
    if 408 ≤ h.tempSel ∨ h.dataCleared then 0
    else
      let x := getSensor s h.tempSel
      field 31 1 (ofBool (x.valid && !x.failed)) + field 29 2 x.period + twos 16 x.temp
  | 0x048 => field 16 7 h.margin.dtcal + field 8 7 h.dtcalHi + field 0 7 h.dtcalLo
  | 0x04C => field 20 10 h.margin.interval + field 10 10 h.intHi + field 0 10 h.intLo
  | 0x050 => h.calCount
  | 0x054 => h.calLast.toNat % 2 ^ 32
  | 0x058 => h.calLast.toNat / 2 ^ 32
  | 0x060 => marginWord s
  | 0x068 => assayStatus s
  | 0x06C => field 24 7 h.guardHi + field 16 7 h.guardLo + field 8 5 h.tolHi + field 0 5 h.tolLo
  | 0x070 => field 24 2 h.derateHi + field 16 2 h.derateLo + field 8 5 h.reserveHi + field 0 5 h.reserveLo
  | _ => 0

/-- MC (R586-R590). -/
def mcReg (s : State) (off : Nat) : Nat :=
  if off = 0x040 then
    field 31 1 (ofBool s.mc.en) + field 29 1 (ofBool s.mc.lowPower) + field 28 1 (ofBool s.mc.left) + field 27 1 (ofBool s.mc.running)
      + field 26 1 (ofBool s.mc.calBusy) + field 8 8 (s.mc.overrun.shown (sclk s))
  else if off = 0x044 then s.mc.trigger.toNat
  else if 0x080 ≤ off ∧ off < 0x100 then (tblGet 0 s.mc.seq ((off - 0x080) / 4)).toNat
  else if 0x100 ≤ off ∧ off < 0x180 then
    (mcResult s ((off - 0x100) / 4)).shown (sclk s)
  else 0

/-- KE (R534-R538). -/
def keReg (s : State) (off : Nat) : Nat :=
  let k := getSlot s s.ke.slotSel
  match off with
  | 0x040 => field 0 8 s.ke.slotSel
  | 0x044 => field 29 3 k.state + field 28 1 (ofBool k.port) + field 27 1 (ofBool k.map) + field 26 1 (ofBool (hasSeal s s.ke.slotSel))
      + field 25 1 (ofBool k.restored) + field 16 8 k.generation
      + field 0 16 (s.ke.pauseKeys.filter (fun e => e.2.owner == s.ke.slotSel)).length
  | 0x04C => field 17 8 s.store.seals.length + field 0 17 (65536 - s.store.loads.length)
  | _ => 0

/-- SQ (R305-R310). -/
def sqReg (s : State) (off : Nat) : Nat :=
  let q := s.sq
  match off with
  | 0x040 => field 31 1 (ofBool q.planSet.isSome) + field 28 3 q.verdict + field 25 3 q.layout + field 20 1 (ofBool q.haltRetire)
      + field 19 1 (ofBool q.haltHandoff) + field 18 1 (ofBool q.haltCritical) + field 17 1 (ofBool q.haltFault)
      + field 6 10 q.buckets.toNat + field 0 4 q.active
  | 0x044 => field 24 8 q.beatTemplate + field 0 24 q.beatLen
  | 0x048 => field 16 7 q.floor + field 8 7 q.request + field 0 7 q.current
  | 0x04C => q.rejectCode.toNat
  | 0x050 => q.beatCount.toNat % 2 ^ 32
  | 0x054 => q.beatCountHi.toNat
  | _ => 0

/-- RI (R438-R443); after a page soft reset the status fields read their reset values until the next membership or link event (R24, log entry
41). -/
def riReg (s : State) (off : Nat) : Nat :=
  let r := if s.ri.statusCleared then
      { s.ri with valid := false, hf := false, generation := 0, count := 0, position := 0, light := false } else s.ri
  let up := fun p => ofBool ((getLink s p).up && !r.statusCleared)
  let width := fun p => if r.statusCleared then 0 else (getLink s p).width
  match off with
  | 0x040 => field 31 1 (ofBool r.valid) + field 30 1 (ofBool r.hf) + field 29 1 (ofBool r.hfSel) + field 16 8 r.generation
      + field 8 7 r.count + field 0 6 r.position
  | 0x044 => if r.count ≤ 1 then 0 else field 16 16 r.outbyeHop + field 0 16 r.inbyeHop
  | 0x048 => field 31 1 (up 0) + field 30 1 (up 1) + field 29 1 (up 2) + field 28 1 (up 3) + field 27 1 (ofBool r.crosscut)
      + field 26 1 (ofBool r.light) + field 16 8 (r.replays.shown (sclk s)) + field 8 8 (r.timedLoss.shown (sclk s))
  | 0x04C => field 4 4 r.phase + field 0 4 r.result
  | 0x050 => field 17 3 (width 3) + field 14 3 (width 2) + field 11 3 (width 1) + field 8 3 (width 0) + field 4 4 r.lanesMax
      + field 0 4 r.lanesMin
  | _ => 0

/-- Word `k` of HP_FN_OWNERS (R478). -/
def fnOwners (s : State) (port : Bool) (fn k : Nat) : Nat :=
  (upTo 32).foldl (fun m b => if boundTo s (32 * k + b) port fn then m + 2 ^ b else m) 0

/-- HP_A and HP_B (R472-R478); after a page soft reset HP_LINK_STATUS reads its reset value until the next link event (R24, log entry 41). -/
def hpReg (s : State) (port : Bool) (off : Nat) : Nat :=
  let h := getHp s port
  let f := getFn s port 0
  match off with
  | 0x040 => if h.statusCleared then field 8 8 (h.urCount.shown (sclk s)) else field 31 1 (ofBool h.up) + field 28 3 h.speed + field 24 4 h.width + field 23 1 (ofBool h.diag) + field 22 1 (ofBool f.linkIde)
      + field 19 3 f.selIde + field 8 8 (h.urCount.shown (sclk s)) + field 0 5 h.numVf
  | 0x044 => field 0 10 f.aptBase
  | 0x048 => field 0 8 f.aptOwner
  | 0x04C => f.hbValue.toNat
  | 0x050 => field 0 16 h.hbTimeout
  | 0x054 => field 0 16 h.grace
  | _ => if 0x060 ≤ off ∧ off < 0x080 then fnOwners s port 0 ((off - 0x060) / 4) else 0

/-- A VF function page (R472, R474-R479). -/
def fnReg (s : State) (port : Bool) (fn off : Nat) : Nat :=
  let f := getFn s port fn
  match off with
  | 0x040 => f.hbValue.toNat
  | 0x044 => field 0 10 f.aptBase
  | 0x048 => field 0 8 f.aptOwner
  | _ =>
    if 0x060 ≤ off ∧ off < 0x080 then fnOwners s port fn ((off - 0x060) / 4)
    else if 0x080 ≤ off ∧ off < 0x0BC then
      match tblGet 0 f.queueMap ((off - 0x080) / 4) with
      | 0 => 0
      | p + 1 => field 31 1 1 + field 0 8 p
    else 0

/-- MS (R391-R393). -/
def msReg (s : State) (off : Nat) : Nat :=
  match off with
  | 0x040 => field 31 1 (ofBool s.ms.scrubEn) + field 30 1 (ofBool s.ms.scrubActive) + field 8 16 s.ms.passes + field 0 8 s.ms.period
  | 0x044 => s.ms.ceCount.shown (sclk s)
  | 0x048 => s.ms.ueCount.shown (sclk s)
  | 0x04C => field 24 8 (min 255 (s.frozen.filter (fun z => z.page == pgMs && decide (z.master < 256))).length) + field 0 16 (s.ms.late.shown (sclk s))
  | _ => 0

/-- SC (R395-R397). -/
def scReg (s : State) (n off : Nat) : Nat :=
  let c := getSc s n
  match off with
  | 0x040 => field 16 16 (c.ce.shown (sclk s)) + field 8 8 (c.ue.shown (sclk s)) + field 0 8 c.ceRate
  | 0x044 => c.pchErr.toNat
  | 0x048 => field 31 1 (ofBool c.tempValid) + twos 16 c.temp
  | _ => 0

/-- Converters of a tile marked dead (R99). -/
def deadCount (t : Tile) : Nat := ((upTo 65).filter (fun k => t.dead.getLsbD k)).length

/-- A tile record as the tables of its page show it (R99): while a beat runs, as it stood when the beat began. -/
def shownTile (s : State) (i : Nat) : Tile := if s.sq.live.isSome then tblGet {} s.beatTiles i else getTile s i

/-- A group record as its relief map and tables show it (R81, R99). -/
def shownTg (s : State) (g : Nat) : Tg := if s.sq.live.isSome then tblGet {} s.beatTgs g else getTg s g

/-- CAL_PEND (R99): the tile's own calibration is due, or a group calibration that covers it is not complete. -/
def calPending (t : Tg) (x : Tile) : Bool := x.calPend || (t.calActive && !retiredState x.state)

/-- One tile's half word of the tile state table (R99). -/
def tileStateHalf (s : State) (g t : Nat) : Nat :=
  let x := shownTile s (tileIx g t)
  let r : ReliefReg := tblGet {} (shownTg s g).relief (t - 1024)
  let st := if t < 1024 then x.state else [2, 3, 4, 5].getD r.state 2
  field 13 3 st + field 12 1 (ofBool x.seam) + field 11 1 (ofBool (calPending (shownTg s g) x)) + field 0 7 (deadCount x)

/-- TG, its tables included (R92-R99). -/
def tgReg (s : State) (g off : Nat) : Nat :=
  let t := getTg s g
  if off = 0x040 then
    field 24 8 (reliefFree s g)
      + field 16 8 (min 255 ((tilesOf s g).filter (fun e => decide (e.1 % 1088 < 1024) && (e.2.state == 1 || e.2.state == 6))).length)
      + field 8 8 t.reshotBeat + field 3 1 (ofBool t.calDue) + field 2 1 (ofBool (calShooting s g)) + field 1 1 (ofBool t.prog)
      + ofBool t.plan
  else if off = 0x044 then field 31 1 (ofBool t.pin) + field 8 4 t.derate + field 4 4 t.fsrHi + field 0 4 t.fsrLo
  else if off = 0x048 then t.clipCount.shown (sclk s)
  else if off = 0x04C then field 0 8 t.tol
  else if off = 0x050 then t.calCount
  else if off = 0x058 then t.calLast.toNat % 2 ^ 32
  else if off = 0x05C then t.calLast.toNat / 2 ^ 32
  else if 0x080 ≤ off ∧ off < 0x180 then
    let r : ReliefReg := tblGet {} (shownTg s g).relief ((off - 0x080) / 4)
    field 30 2 r.state + field 29 1 (ofBool r.seam) + field 0 10 r.logical
  else if 0x1000 ≤ off ∧ off < 0x3200 then
    let x := shownTile s (tileIx g ((off - 0x1000) / 8))
    if off % 8 = 0 then field 16 16 x.offset.toNat + x.gain.toNat else x.estRtb.toNat
  else if 0x3200 ≤ off ∧ off < 0x3A80 then
    let i := (off - 0x3200) / 4
    field 16 16 (tileStateHalf s g (2 * i + 1)) + tileStateHalf s g (2 * i)
  else 0

/-- CC (R216-R220). -/
def ccReg (s : State) (c off : Nat) : Nat :=
  let k := getCore s c
  match off with
  | 0x040 => field 20 12 (k.accOvf.shown (sclk s)) + field 8 12 (k.eccCe.shown (sclk s)) + field 3 1 (ofBool (k.wait == some .net)) + field 2 1 (ofBool (k.wait == some .acc))
      + field 1 1 (match k.wait with | some (.slot _) => 1 | _ => 0) + ofBool k.active
  | 0x044 => field 16 13 k.entry + field 0 16 k.current
  | 0x048 => field 31 1 (ofBool (k.active || coreFrozen s c)) + field 0 13 k.pc
  | 0x04C => k.slotFault.toNat
  | _ => 0

/-- A 4-byte word of a tile's record in the calibration window (R557). -/
def windowWord (s : State) (i byte : Nat) : Nat :=
  let t := getTile s i
  let b := leBytes 4 t.gCal.toNat ++ leBytes 4 t.oCal.toNat ++ leBytes 4 t.gammaCal.toNat ++ leBytes 4 t.omegaCal.toNat
    ++ leBytes 8 t.last.toNat ++ leBytes 2 (twos 16 t.calTemp) ++ leBytes 2 t.calCount ++ leBytes 9 t.dead.toNat
    ++ leBytes 1 t.trimLo ++ leBytes 1 t.trimHi ++ leBytes 1 t.taps.toNat ++ leBytes 2 t.inlMax.toNat ++ leBytes 2 t.gainSpread.toNat
    ++ leBytes 4 (getTg s (i / 1088)).selfcal.toNat ++ leBytes 4 t.trimSteps ++ leBytes 4 t.gammaDrift.toNat ++ leBytes 4 t.cycles
    ++ leBytes 2 t.pvIter
  leAt b byte 4

/-- What a register of a page reads as (R13, R14): write-only and undefined offsets read 0. -/
def regValue (s : State) (p off : Nat) : Nat :=
  if off < 0x040 then headerReg s p off
  else match p with
  | 0 => devReg s off
  | 1 => cxReg s off
  | 2 => dpReg s off
  | 3 => hbReg s off
  | 4 => mcReg s off
  | 5 => keReg s off
  | 6 => sqReg s off
  | 7 => riReg s off
  | 8 => hpReg s false off
  | 9 => hpReg s true off
  | 10 => msReg s off
  | _ =>
    if p < 19 then scReg s (p - 11) off
    else if p < 83 then tgReg s (p - 19) off
    else if p < 339 then ccReg s (p - 83) off
    else fnReg s (fnOfPage p).1 (fnOfPage p).2 off

/-- What a read of a register clears (RC, R14) or latches (R310, R635). -/
def readEffect (s : State) (p off : Nat) : State :=
  let now := sclk s
  match p, off with
  | 0, 0x050 => { s with power := { s.power with rtbHi := BitVec.ofNat 32 (s.power.rtb.toNat / 2 ^ 32) } }
  | 1, 0x04C => { s with cx := { s.cx with hoDeferrals := s.cx.hoDeferrals.taken now } }
  | 2, 0x048 => { s with dp := { s.dp with ovThrottle := s.dp.ovThrottle.taken now, ovCal := s.dp.ovCal.taken now, ovHalt := s.dp.ovHalt.taken now } }
  | 4, 0x040 => { s with mc := { s.mc with overrun := s.mc.overrun.taken now } }
  | 6, 0x050 => { s with sq := { s.sq with beatCountHi := BitVec.ofNat 32 (s.sq.beatCount.toNat / 2 ^ 32) } }
  | 7, 0x048 => { s with ri := { s.ri with replays := s.ri.replays.taken now, timedLoss := s.ri.timedLoss.taken now } }
  | 8, 0x040 => { s with hpA := { s.hpA with urCount := s.hpA.urCount.taken now } }
  | 9, 0x040 => { s with hpB := { s.hpB with urCount := s.hpB.urCount.taken now } }
  | 10, 0x044 => { s with ms := { s.ms with ceCount := s.ms.ceCount.taken now } }
  | 10, 0x048 => { s with ms := { s.ms with ueCount := s.ms.ueCount.taken now } }
  | 10, 0x04C => { s with ms := { s.ms with late := s.ms.late.taken now } }
  | _, _ =>
    if p = 4 ∧ 0x100 ≤ off ∧ off < 0x180 then
      { s with mc := { s.mc with results := tblMod {} s.mc.results ((off - 0x100) / 4) (fun r => r.taken now) } }
    else if 11 ≤ p ∧ p < 19 ∧ off = 0x040 then modSc s (p - 11) (fun c => { c with ce := c.ce.taken now, ue := c.ue.taken now })
    else if 11 ≤ p ∧ p < 19 ∧ off = 0x044 then modSc s (p - 11) (fun c => { c with pchErr := 0 })
    else if 19 ≤ p ∧ p < 83 ∧ off = 0x048 then modTg s (p - 19) (fun t => { t with clipCount := t.clipCount.taken now })
    else if 83 ≤ p ∧ p < 339 ∧ off = 0x040 then
      modCore s (p - 83) (fun k => { k with accOvf := k.accOvf.taken now, eccCe := k.eccCe.taken now })
    else s

/-! ### Reads -/

/-- Where an access lands: a register of a page, a register of a doorbell page, a word of the calibration window, or nothing (R13, R28, R33,
R36). A virtual function sees its function page and 15 doorbell pages. -/
inductive Target where
  /-- A register of a page. -/
  | page (p off : Nat)
  /-- A register of doorbell page `page` of a function: PF0's BAR2, or a VF's BAR0 from 0x1000. -/
  | bell (port : Bool) (fn page off : Nat)
  /-- A byte of a tile's record in the calibration window. -/
  | window (tile byte : Nat)
  /-- A reserved page. -/
  | nothing
deriving DecidableEq, Repr

/-- The target of an offset, in the accessor's view of BAR0. -/
def targetOf (a : Accessor) (off : Nat) : Target :=
  match a with
  | .vf port f => if off < 4096 then .page (pgFn port f.toNat) off
      else if off < 65536 then .bell port f.toNat (off / 4096 - 1) (off % 4096) else .nothing
  | .bar2 port => if off < 2 ^ 20 then .bell port 0 (off / 4096) (off % 4096) else .nothing
  | .mgmtFn port f => if off < 4096 then .page (pgFn port f.toNat) off else .nothing
  | _ => match pageAt off, windowAt off with
    | some (p, o), _ => .page p o
    | none, some (t, b) => .window t b
    | none, none => .nothing

/-- What a doorbell page reads as (R33, R36): DB_QP_STATUS (R456) of the pair it names, and 0 at its write-only and reserved offsets and on an
unmapped page. -/
def bellValue (s : State) (port : Bool) (fn page off : Nat) : Nat :=
  match pairOf s port fn page with
  | some p => if off = 0x008 then qpStatus (getHp s port) (getQp s port p) else 0
  | none => 0

/-- A 4-byte read: the value and the state after it. Pages that do not answer read 0 (R626); to management, what is not the DP page reads
0xFFFF_FFFF while main power is absent (R35). -/
def readWord (s : State) (a : Accessor) (off : Nat) : Nat × State :=
  match targetOf a off with
  | .page p o => if pageOpen s p then (regValue s p o, readEffect s p o) else (if mainPower s then 0 else 2 ^ 32 - 1, s)
  | .window t b => (if pageOpen s (pgTg 0) then windowWord s t b else if mainPower s then 0 else 2 ^ 32 - 1, s)
  | .bell port fn page o => (bellValue s port fn page o, s)
  | .nothing => (if mainPower s then 0 else 2 ^ 32 - 1, s)

/-- The low register of a low/high pair (R12): DEV_RTB, DEV_SUMP_BASE, the FAULT address of every page, SQ_BEAT_COUNT, TG_CAL_LAST.
HB_CAL_LAST_LO lies at no 8-byte-aligned offset. -/
def pairLow (a : Accessor) (off : Nat) : Bool :=
  match targetOf a off with
  | .page p o => o == 0x028 || (p == 0 && (o == 0x050 || o == 0x100)) || (p == 6 && o == 0x050)
      || (decide (19 ≤ p) && decide (p < 83) && o == 0x058)
  | _ => false

/-- An access of a size at an offset that R12 completes. -/
def accessOk (a : Accessor) (off size : Nat) : Bool :=
  (size == 4 && off % 4 == 0) || (size == 8 && off % 8 == 0 && pairLow a off)

/-- An accessor reaches the register space at all. -/
def reaches (s : State) (a : Accessor) : Bool :=
  match a with
  | .pf0 port => mainPower s && pf0Live s port
  | .bar2 port => mainPower s && pf0Live s port
  | .vf port f => mainPower s && vfLive s port f.toNat
  | .mgmt => s.pins.aux
  | .mgmtFn _ _ => s.pins.aux

/-- An access that R12 or R626 does not complete: Unsupported Request, counted at the receiving port. -/
def refuseAccess (s : State) (a : Accessor) : State :=
  match a with
  | .pf0 port => countUr s port
  | .bar2 port => countUr s port
  | .vf port _ => countUr s port
  | .mgmt => s
  | .mgmtFn _ _ => s

/-- An access to BAR2 or a VF's BAR0 on a link that is up but not operational, or below ROM (R447, R451, R626): Unsupported Request. -/
def shutOut (s : State) (a : Accessor) : Bool :=
  match a with
  | .vf port f => mainPower s && (getHp s port).up && fnEnabled s port f.toNat && f != 0 && !barsOpen s port
  | .bar2 port => mainPower s && (getHp s port).up && !barsOpen s port
  | _ => false

/-- A read of `size` bytes (R12-R14): the data goes to the reader. An 8-byte read of a pair gives both halves at one instant and performs
the latch of its low register. -/
def readAccess (s : State) (a : Accessor) (off size : Nat) : State :=
  if shutOut s a then refuseAccess s a
  else if !reaches s a then s
  else if !accessOk a off size then refuseAccess s a
  else
    let r := readWord s a off
    if size = 4 then emit r.2 (.readData r.1)
    else
      let h := readWord r.2 a (off + 4)
      emit h.2 (.readData (r.1 + 2 ^ 32 * h.1))

/-- RC_READ (R12-R15): a read of a register. What it returns is the value before the read clears an RC register or field. -/
def execRcRead (a : Accessor) (offset : BitVec 25) (size : BitVec 8) (s : State) : Out :=
  .next (readAccess s a offset.toNat size.toNat)

/-- SQ_BEAT_COUNT_READ (R310): with `wide`, the 8-byte read of the pair. -/
def execSqBeatCountRead (a : Accessor) (wide : Bool) (s : State) : Out :=
  .next (readAccess s a 0x6050 (if wide then 8 else 4))

/-- DEV_RTB_READ (R635). -/
def execDevRtbRead (a : Accessor) (wide : Bool) (s : State) : Out :=
  .next (readAccess s a 0x50 (if wide then 8 else 4))

/-! ### Thaw (R49-R51, R213, R452) -/

/-- A writer is entitled to thaw a master (R49). -/
def mayThaw (a : Accessor) (z : Frozen) : Bool :=
  match a with
  | .mgmt => true
  | .pf0 port => !(z.kind == 1 && (z.master == 0 || z.master == 32)) && (z.port == none || z.port == some port)
  | _ => false

/-- A link forgets the packets of a source that are still under reassembly (R50). -/
def Link.dropSource (l : Link) (source : Nat) : Link :=
  { l with asmC0 := l.asmC0.filter (fun b => packetSource b != source), asmC1 := l.asmC1.filter (fun b => packetSource b != source) }

/-- One master returns to its block's idle state (R50): a function's pairs are UNCONFIGURED (R452); a DMA queue has no transfer left; a core
is cleared (R213); nothing is held of what a ring source has sent. -/
def thawMaster (s : State) (z : Frozen) : State :=
  if z.kind = 1 then
    let port := decide (32 ≤ z.master)
    forEach (pairsOf s port (z.master % 32)) (fun s p => modQp s port p (fun q => { fn := q.fn, cfg := q.cfg + 1 })) s
  else if z.kind = 2 then
    { s with sq := { s.sq with dmaRunning := s.sq.dmaRunning.filter (fun d => (runningDma s d).core != z.master) } }
  else if z.kind = 3 then clearCore s z.master
  else { s with ri := { s.ri with
    retime := s.ri.retime.map (fun t => match ringSlot s t.src t.pos t.slot with
      | some (_, r) => if timedSource t.src r.srcCore = z.master then { t with dropped := true } else t
      | none => t)
    ports := tblMap {} (fun _ l => l.dropSource z.master) s.ri.ports
    packets := s.ri.packets.filter (fun b => packetSource b != z.master)
    partialMsg := s.ri.partialMsg.filter (fun m => m.1 != z.master) } }

/-- Who writes, as event 0x02 and R638 count it: 0 Port A, 1 Port B, 2 management. -/
def writerCode : Accessor → Nat
  | .pf0 port => ofBool port
  | .bar2 port => ofBool port
  | .vf port _ => ofBool port
  | .mgmt => 2
  | .mgmtFn _ _ => 2

/-- The masters that a THAW write thaws (R49): those frozen before its SCLK cycle, for it acts before the violations of that cycle (R51). -/
def thawHits (s : State) (a : Accessor) (p : Nat) : List Frozen :=
  s.frozen.filter (fun z => z.page == p && mayThaw a z && z.cycle != sclk s)

/-- The FAULT record of a page after a thaw (R50, R51): VALID clears when no master stays frozen; where only violations of the same SCLK cycle
are left, the first of them is recorded anew. -/
def recordAfterThaw (s : State) (p : Nat) : State :=
  match s.frozen.filter (fun z => z.page == p) with
  | [] => modHdr s p (fun h => { h with faultValid := false })
  | z :: zs =>
    if (z :: zs).all (fun y => y.cycle == sclk s) then
      modHdr s p (fun h => { h with faultValid := true, faultCode := z.code, faultExtra := min 255 zs.length, faultKind := z.kind
                                    faultMaster := BitVec.ofNat 16 z.master, faultAddr := z.addr })
    else s

/-- A write of PAGE_CTRL.THAW (R49-R51). -/
def thaw (s : State) (a : Accessor) (p : Nat) : State :=
  let hit := thawHits s a p
  if hit.isEmpty then s
  else
    let s := recordAfterThaw (forEach hit thawMaster { s with frozen := s.frozen.filter (fun z => !hit.contains z) }) p
    raiseEvent s p 0x02 (info [(4, hit.length), (1, writerCode a)])

/-! ### Page soft reset (R24) -/

/-- Block registers of a page at their reset values (R24): what software wrote, counters, latched results and status; a status register that
mirrors its block's work shows that work again at its next change, and the block keeps working (log entry 41). HB_MARGIN_PLAN and
TG_RELIEF_MAP have the margin plan and the health map as their reset values (R98, R582), which they hold. -/
def resetBlock (s : State) (p : Nat) : State :=
  if p = 3 then
    let s := endAssay s 6 0 0
    { s with hb := { s.hb with
      tempSel := 0, dataCleared := true, dtcalLo := 5, dtcalHi := 100, intLo := 60, intHi := 600, calCount := 0, calLast := 0, assayState := 0, assayCode := 0
      assayExceed := 0, assayChecked := 0, guardHi := 100, guardLo := 0, tolHi := 25, tolLo := 8, derateHi := 2, derateLo := 0
      reserveHi := 16, reserveLo := 0 } }
  else if p = 4 then { s with mc := { state := s.mc.state } }
  else if p = 7 then { s with ri := { s.ri with replays := {}, timedLoss := {}, result := 0, lanesMin := 4, lanesMax := 4, statusCleared := true } }
  else if p = 8 ∨ p = 9 then
    let s := modHp s (hpOfPage p) (fun h => { h with urCount := {}, hbTimeout := 1000, grace := 60, statusCleared := true })
    modFn s (hpOfPage p) 0 (fun f => { f with aptBase := 0, aptOwner := 0, hbValue := 0 })
  else if p < 19 then modSc s (p - 11) (fun c => { c with ce := {}, ue := {}, ceRate := 0, pchErr := 0, tempValid := false, temp := 0 })
  else if p < 83 then
    modTg s (p - 19) (fun t => { t with
      pin := false, fsrHi := 3, fsrLo := 0, clipCount := {}, tol := 6, calCount := 0, calLast := 0, reshotBeat := 0, calDue := false
      calLate := false })
  else
    modCore s (p - 83) (fun k => { k with
      accOvf := {}, eccCe := {}, entry := 0, slotFault := 0, active := false, current := 0xFFFF, pc := 0, wait := none })

/-- A write of PAGE_CTRL.SRST (R24): it runs, with BUSY set, until SRST_DONE. -/
def softResetPage (s : State) (p : Nat) : State :=
  if !pageSrst p || pageEn s p || pageFrozen s p || pageBusy s p then s
  else resetBlock (modHdr s p (fun h => { h with
    busy := true, evtStatus := 0, faultValid := false, faultCode := 0, faultExtra := 0, faultKind := 0, faultMaster := 0
    faultAddr := 0 })) p

/-! ### Writes -/

/-- A write of PAGE_CTRL.EN by PF0 (R21, R22): on HP, SC, TG and CC pages only while no plan is admitted. -/
def writeEn (s : State) (p v : Nat) : State :=
  let gated := decide (8 ≤ p) && p != 10
  if !pageSrst p || !manifestEnables s p || (gated && planAdmitted s) then s else modHdr s p (fun h => { h with en := bit v 0 })

/-- A write of PAGE_CTRL (R21-R24, R35, R49): EN, then THAW, then SRST (log entry 64); management writes THAW only. -/
def writePageCtrl (s : State) (a : Accessor) (p v : Nat) : State :=
  let pf0 := match a with
    | .pf0 _ => true
    | _ => false
  let s := if pf0 then writeEn s p v else s
  let s := if bit v 1 then thaw s a p else s
  if pf0 && bit v 2 then softResetPage s p else s

/-- A write of EVT_FORCE (R42): a forced event for each bit, lowest first, with INFO bytes of 0 (log entry 65). -/
def forceEvents (s : State) (p v : Nat) : State :=
  forEach ((upTo 32).filter (fun n => bit v n)) (fun s n => raiseEvent s p (if n = 31 then 0x20 else n + 1) [] true) s

/-- A write of a header register (R16, R25, R27, R40, R42). -/
def writeHeader (s : State) (a : Accessor) (p off v : Nat) : State :=
  match off with
  | 0x008 => writePageCtrl s a p v
  | 0x010 => modHdr s p (fun h => { h with evtStatus := (h.evtStatus &&& ~~~BitVec.ofNat 32 v) ||| h.newBits (sclk s) })
  | 0x014 => modHdr s p (fun h => { h with evtEnable := BitVec.ofNat 32 v })
  | 0x018 => forceEvents s p v
  | 0x01C => modHdr s p (fun h => { h with routeMgmt := bit v 1, routeHost := if a = .mgmt then h.routeHost else bit v 0 })
  | 0x034 => modHdr s p (fun h => { h with lock := h.lock || bit v 0 })
  | 0x038 => modHdr s p (fun h => { h with scratch := BitVec.ofNat 32 v })
  | _ => s

/-- A write of a block register; a read-only or undefined offset discards it (R13, R14). -/
def writeBlock (s : State) (a : Accessor) (p off v : Nat) : State :=
  match p, off with
  | 0, 0x044 => writeDevReset s a v
  | 1, 0x040 => writeDoorbell s a v
  | 1, 0x04C => writeHandoff s a v
  | 2, 0x044 => writeThrottle s v
  | 2, 0x04C => writeTripAck s a v
  | 2, 0x050 => writeRestart s a v
  | 3, 0x040 => { s with hb := { s.hb with tempSel := bits v 0 9, dataCleared := false } }
  | 3, 0x048 => writeDtcal s v
  | 3, 0x04C => writeInterval s v
  | 3, 0x05C => writeCalCmd s v
  | 3, 0x060 => writeMarginPlan s v
  | 3, 0x064 => writeAssay s v
  | 3, 0x06C => writeEnv s false v
  | 3, 0x070 => writeEnv s true v
  | 4, 0x040 => writeMcCtrl s v
  | 4, 0x044 => writeMcTrigger s v
  | 5, 0x040 => { s with ke := { s.ke with slotSel := bits v 0 8 } }
  | 5, 0x048 => writeKeDestroy s a v
  | 5, 0x04C => writeKeSeal s a v
  | 6, 0x048 => writeStretch s v
  | 7, 0x04C => writeRiTrain s a v
  | 7, 0x050 => writeRiLinkRate s v
  | 10, 0x040 => writeScrubCtrl s v
  | _, _ =>
    if p = 4 ∧ 0x080 ≤ off ∧ off < 0x100 then writeMcSeq s ((off - 0x080) / 4) v
    else if p = 8 ∨ p = 9 then
      let port := hpOfPage p
      match off with
      | 0x044 => writeAptBase s port 0 v
      | 0x048 => writeAptOwner s port 0 v
      | 0x04C => writeHeartbeat s port 0 v
      | 0x050 => writeTimeout s port false v
      | 0x054 => writeTimeout s port true v
      | _ => s
    else if 19 ≤ p ∧ p < 83 ∧ off = 0x044 then writeFsr s (p - 19) v
    else if 19 ≤ p ∧ p < 83 ∧ off = 0x04C then writeTol s (p - 19) v
    else if 83 ≤ p ∧ p < 339 ∧ off = 0x044 then writeCcLaunch s (p - 83) v
    else if 339 ≤ p then
      let f := fnOfPage p
      match off with
      | 0x040 => writeHeartbeat s f.1 f.2 v
      | 0x044 => writeAptBase s f.1 f.2 v
      | 0x048 => writeAptOwner s f.1 f.2 v
      | _ => s
    else s

/-- A write that reaches a register (R14). -/
def writeReg (s : State) (a : Accessor) (p off v : Nat) : State :=
  if off < 0x040 then writeHeader s a p off v else writeBlock s a p off v

/-- The registers management may write (R35, R570, R576). -/
def mgmtMayWrite (p off : Nat) : Bool :=
  off == 0x008 || off == 0x014 || off == 0x01C || (p == 0 && off == 0x044) || (p == 7 && off == 0x04C)
    || (p == 2 && [0x044, 0x04C, 0x050].contains off)
    || (p == 3 && [0x040, 0x048, 0x04C, 0x05C, 0x064, 0x06C, 0x070].contains off)

/-- A 4-byte write of an accessor (R13, R14, R30, R31, R33, R35). -/
def writeWordAt (s : State) (a : Accessor) (off v : Nat) : State :=
  match targetOf a off with
  | .page p o => if mayWrite s a p && (a != .mgmt || mgmtMayWrite p o) then writeReg s a p o v else s
  | .window t b =>
    if mayWrite s a (pgTg (t / 1088)) && a != .mgmt then writeCalWindow s t (b / 4) (BitVec.ofNat 32 v) else s
  | .bell port fn page o =>
    if o = 0x000 then submitTail s port fn page v else if o = 0x004 then complHead s port fn page v else s
  | .nothing => s

/-- A write of `size` bytes (R12). Every register of a low/high pair is read-only, so an 8-byte write of one is discarded. -/
def writeAccess (s : State) (a : Accessor) (off size v : Nat) : State :=
  if shutOut s a then refuseAccess s a
  else if !reaches s a then s
  else if !accessOk a off size then refuseAccess s a
  else if size = 4 then writeWordAt s a off v
  else s

/-- REGISTER_WRITE (R12-R14, R31-R35). -/
def execRegisterWrite (a : Accessor) (offset : BitVec 25) (size : BitVec 8) (value : BitVec 32) (s : State) : Out :=
  .next (writeAccess s a offset.toNat size.toNat value.toNat)

/-- PAGE_ENABLE_WRITE (R22): a write of PAGE_CTRL by PF0 that changes EN. -/
def execPageEnableWrite (port : Bool) (page : BitVec 9) (value : BitVec 32) (s : State) : Out :=
  .next (if mayWrite s (.pf0 port) page.toNat && pageEn s page.toNat != bit value.toNat 0 then
    writePageCtrl s (.pf0 port) page.toNat value.toNat else s)

/-- THAW (R49): a write of PAGE_CTRL with THAW set. -/
def execThaw (a : Accessor) (page : BitVec 9) (value : BitVec 32) (s : State) : Out :=
  .next (if mayWrite s a page.toNat && bit value.toNat 1 then writePageCtrl s a page.toNat value.toNat else s)

/-- SRST (R24): a write of PAGE_CTRL by PF0 with SRST set. -/
def execSrst (port : Bool) (page : BitVec 9) (value : BitVec 32) (s : State) : Out :=
  .next (if mayWrite s (.pf0 port) page.toNat && bit value.toNat 2 then writePageCtrl s (.pf0 port) page.toNat value.toNat else s)

/-- SRST_DONE (R24, R39): a page soft reset completes. -/
def execSrstDone (page : BitVec 9) (s : State) : Out :=
  .next (if (getHdr s page.toNat).busy then
    raiseEvent (modHdr s page.toNat (fun h => { h with busy := false })) page.toNat 0x03 [] else s)

/-- EVT_FORCE (R42). -/
def execEvtForce (a : Accessor) (page : BitVec 9) (value : BitVec 32) (s : State) : Out :=
  .next (if mayWrite s a page.toNat && a != .mgmt then writeReg s a page.toNat 0x018 value.toNat else s)

/-- PAGE_LOCK (R14, R27). -/
def execPageLock (a : Accessor) (page : BitVec 9) (value : BitVec 32) (s : State) : Out :=
  .next (if mayWrite s a page.toNat && a != .mgmt then writeReg s a page.toNat 0x034 value.toNat else s)

/-! ### Relayed and management access (R461, R503) -/

/-- A write at this device in the name of PF0 of a port that another member relays (R31, R461): none if R31 would not let it write the
page (R425). -/
def relayedWrite (s : State) (port : Bool) (off v : Nat) : Option State :=
  match targetOf (.pf0 port) off with
  | .page p o => if pageOpen s p && !pf0Writes s port p then none else some (if pageOpen s p then writeReg s (.pf0 port) p o v else s)
  | .window t b =>
    if pageOpen s (pgTg 0) && !pf0Writes s port (pgTg (t / 1088)) then none
    else some (if pageOpen s (pgTg 0) then writeCalWindow s t (b / 4) (BitVec.ofNat 32 v) else s)
  | _ => some s

/-- REG_ACCESS (R461): a 4-byte BAR0 access at DEVICE as by PF0 of its Port A; a misaligned offset or one beyond BAR0 is BAD_PARAM. At
another member it travels as a C1 packet: a write completes when it is sent, a read when its data returns (log entry 42). -/
def execRegAccess (i : Issuer) (offset value : BitVec 32) (write : Bool) (s : State) : Out :=
  command i 0x35 [offset.toNat, value.toNat, if write then 1 else 0] s fun s =>
    let off := offset.toNat
    let dst := match findFetched s i with
      | some f => if f.device = 0xFF then s.ri.position else f.device
      | none => s.ri.position
    if !fromHeadPf0 s i then complete s i stNotAllowed
    else if off % 4 ≠ 0 ∨ 2 ^ 25 ≤ off then complete s i stBadParam
    else if dst = s.ri.position then
      if write then complete ((relayedWrite s false off value.toNat).getD s) i stOk (leBytes 4 0)
      else
        let r := readWord s (.pf0 false) off
        complete r.2 i stOk (leBytes 4 r.1)
    else if write then
      complete (sendPacket s 1 dst (packetHeader 1 (creditSource s 0xC0) 0 4 off 0 1 ++ leBytes 4 value.toNat)) i stOk (leBytes 4 0)
    else
      let tag := s.ri.readTag
      let s := { s with ri := { s.ri with readTag := (tag + 1) % 65536, creditReads := s.ri.creditReads ++ [(tag, i)] } }
      sendPacket s 1 dst (packetHeader 2 (creditSource s 0xC0) 0 4 off tag 1)

/-- Dwords of consecutive offsets, read in order (R503). -/
def readDwords (s : State) (off : Nat) : Nat → List Byte × State
  | 0 => ([], s)
  | n + 1 =>
    let r := readWord s .mgmt off
    let rest := readDwords r.2 (off + 4) n
    (leBytes 4 r.1 ++ rest.1, rest.2)

/-- REG_READ (R503): 1-16 dwords from an aligned BAR0 offset; INVALID otherwise. -/
def execRegRead (offset : BitVec 32) (count : BitVec 8) (s : State) : Out :=
  .next <|
    if !mgmtUp s then s
    else if offset.toNat % 4 ≠ 0 ∨ count = 0 ∨ 16 < count.toNat ∨ 2 ^ 25 < offset.toNat + 4 * count.toNat then emit s (.mgmt 0x7E 0x02 [])
    else
      let r := readDwords s offset.toNat count.toNat
      emit r.2 (.mgmt 0x7E 0x00 r.1)

/-- Whether a write of management was accepted (R503): by its register's own rule where that tells, else by its having an effect. -/
def mgmtAccepted (s t : State) (p off v : Nat) : Bool :=
  if off = 0x014 ∨ off = 0x01C ∨ (p = 3 ∧ off = 0x040) then true
  else if p = 2 ∧ off = 0x044 then throttleOk s v
  else if p = 3 ∧ off = 0x048 then dtcalOk v
  else if p = 3 ∧ off = 0x04C then intervalOk v
  else if p = 3 ∧ (off = 0x06C ∨ off = 0x070) then envOk (off == 0x070) v
  else if p = 0 then bits v 16 16 == 0xA5C3 && !resetTaken s && (bit v 1 || (bit v 0 && softAllowed s))
  else t != s

/-- REG_WRITE (R503): INVALID for a bad offset, UNAVAILABLE off the DP page without main power, DISCARDED for a write that is not
permitted or not accepted. -/
def execRegWrite (offset value : BitVec 32) (s : State) : Out :=
  .next <|
    let v := value.toNat
    if !mgmtUp s then s
    else if offset.toNat % 4 ≠ 0 ∨ 2 ^ 25 ≤ offset.toNat then emit s (.mgmt 0x7E 0x02 [])
    else match targetOf .mgmt offset.toNat with
      | .page p o =>
        if !mainPower s ∧ p ≠ pgDp then emit s (.mgmt 0x7E 0x03 [])
        else
          let t := writeWordAt s .mgmt offset.toNat v
          emit t (.mgmt 0x7E (if mayWrite s .mgmt p && mgmtMayWrite p o && mgmtAccepted s t p o v then 0x00 else 0x01) [])
      | _ => emit s (.mgmt 0x7E (if mainPower s then 0x01 else 0x03) [])

end Sys2Proof.Machine
end

