-- ==== Sys2Proof/Machine/Credit.lean ====
section
/-! DEFINITION. Credit packets and the firmware messages they carry (R381, R424, R425, R433, R434, R489). -/

namespace Sys2Proof.Machine

/-! ### The packet at the front (R424) -/

/-- Fields of a credit packet (R424). -/
structure Packet where
  source : Nat
  owner : Nat
  len : Nat
  addr : Nat
  tag : Nat
  space : Nat
  data : List Byte
deriving DecidableEq, Repr

/-- Read a packet's header (R424). -/
def packetOf (b : List Byte) : Packet :=
  { source := leAt b 2 2, owner := byteAt b 5, len := leAt b 6 2, addr := leAt b 8 8, tag := leAt b 16 2, space := byteAt b 18
    data := b.drop 32 }

/-- Ring position that sent a packet (R424). -/
def Packet.position (p : Packet) : Nat := bits p.source 8 6
/-- Its agent (R424). -/
def Packet.agent (p : Packet) : Nat := p.source % 256

/-- Take the oldest packet received if it has a TYPE, and act on it; one of a frozen source is discarded (R425). -/
def takePacket (s : State) (type : Nat) (act : State → Packet → State) : State :=
  match s.ri.packets with
  | [] => s
  | b :: bs =>
    let t := { s with ri := { s.ri with packets := bs } }
    if byteAt b 0 ≠ type then s else if isFrozen s 4 (packetSource b) then t else act t (packetOf b)

/-- The access of a packet is refused (R425). -/
def accessRefused (s : State) (p : Packet) : State := freeze s pgRi 4 p.source 0x0809 p.addr

/-- R381 lets a packet touch its bytes of stack memory: firmware any, every other agent the extents granted to its owner. -/
def memoryAllowed (s : State) (p : Packet) : Bool :=
  if p.agent = 0 then decide (p.addr + p.len ≤ memSize) else extentsGranted s p.owner p.addr p.len

/-- Put a message or a mailbox write into the firmware mailbox (R424). -/
def toMailbox (s : State) (source : Nat) (bytes : List Byte) : State :=
  { s with ri := { s.ri with mailbox := s.ri.mailbox ++ [(source, bytes)] } }

/-- A BAR0 write of a packet (R424, R425): in the name of PF0 of a port, or of management; no other agent may write a page. Its length is
4 bytes at a multiple of 4. -/
def packetRegWrite (s : State) (p : Packet) : State :=
  let v := leAt p.data 0 4
  if p.len ≠ 4 ∨ p.addr % 4 ≠ 0 then freeze s pgRi 4 p.source 0x080A p.addr
  else if p.agent = 0x01 then writeWordAt s .mgmt p.addr v
  else if p.agent = 0xC0 ∨ p.agent = 0xE0 then
    match relayedWrite s (p.agent == 0xE0) p.addr v with
    | some t => t
    | none => accessRefused s p
  else accessRefused s p

/-- CREDIT_WRITE (R424, R425): stack memory under the packet's owner, a BAR0 offset, or the firmware mailbox. A reserved SPACE is
discarded. -/
def execCreditWrite (s : State) : Out :=
  .next <| takePacket s 1 fun s p =>
    if p.space = 0 then
      (if memoryAllowed s p then writeUnder s (stackKey s p.owner) p.addr (padTo p.len p.data) 258 else accessRefused s p)
    else if p.space = 1 then packetRegWrite s p
    else if p.space = 2 then toMailbox s p.source p.data
    else s

/-- CREDIT_READ_REQUEST (R424, R425): the data goes back to the source as read data with the request's tag. `ecc` are the errors met in
stack memory (R386). -/
def execCreditReadRequest (ecc : List (Nat × Bool)) (s : State) : Out :=
  .next <| takePacket s 2 fun s p =>
    let reply := fun (s : State) (cls : Nat) (data : List Byte) =>
      sendPacket s cls p.position (packetHeader 3 (creditSource s 0) p.owner data.length p.addr p.tag p.space ++ data)
    if p.space = 0 then
      if memoryAllowed s p then
        let s := eccRead s p.addr p.len ecc rdCommand 258
        if poisonedIn s p.addr p.len then sendMessage s p.position 0x49 [p.tag] else reply s 0 (readUnder s (stackKey s p.owner) p.addr p.len)
      else accessRefused s p
    else if p.space = 1 then
      if p.len ≠ 4 ∨ p.addr % 4 ≠ 0 then freeze s pgRi 4 p.source 0x080A p.addr
      else
        let r := readWord s (if p.agent = 0x01 then .mgmt else .pf0 (p.agent == 0xE0)) p.addr
        reply r.2 1 (leBytes 4 r.1)
    else s

/-- CREDIT_READ_DATA (R424, R461): the data of a relayed read completes its command. -/
def execCreditReadData (s : State) : Out :=
  .next <| takePacket s 3 fun s p =>
    match s.ri.creditReads.find? (fun e => e.1 == p.tag) with
    | some e =>
      complete { s with ri := { s.ri with creditReads := s.ri.creditReads.filter (fun x => x.1 != p.tag) } } e.2 stOk (padTo 4 p.data)
    | none => s

/-! ### Firmware messages (R433, R434, log entry 21) -/

/-- A forwarded host command is held as fetched here (R433), with its pair's number among forwarded ones; its answer goes back as a
message. Words: opcode, port, function, pair, CID, the SCLK cycle in which the member fetched it (R348, R372), parameters. -/
def forwarded (s : State) (position : Nat) (w : List Nat) : State :=
  let port := w.getD 1 0 == 1
  let f : Fetched :=
    { port := port, fn := w.getD 2 0 % 32, pair := 256 * (position + 1) + w.getD 3 0 % 256, cid := w.getD 4 0 % 65536
      opcode := w.getD 0 0, params := (w.drop 6).flatMap (leBytes 8), fetchedAt := w.getD 5 0 }
  modHp s port (fun h => { h with fetched := h.fetched ++ [f] })

/-- An answered command of this device: words port, function, pair, CID, status, and the result (R433). -/
def answered (s : State) (w : List Nat) (data : List Byte) : State :=
  complete s
    { port := w.getD 0 0 == 1, fn := BitVec.ofNat 5 (w.getD 1 0), pair := BitVec.ofNat 8 (w.getD 2 0), cid := BitVec.ofNat 16 (w.getD 3 0) }
    (w.getD 4 0) data

/-- Where `n` bytes find free extents behind the resident copy (R377): at the place that firmware would take, else behind the first
range of extents that leaves room. -/
def freePlace (s : State) (n : Nat) : Option Nat :=
  let m := (n + 4095) / 4096
  ((32768 + Config.planPlace % 9732857) :: s.ms.extents.map (fun e => e.2.1)).find? (fun lo =>
    decide (32768 ≤ lo) && decide (lo + m ≤ extentCount) && allHeld s.ms.extents lo (lo + m) 0)

/-- The headframe's copy of a plan image arrives for checking (R284): it is kept in free extents of the reserved region, which firmware
then holds (R377, log entry 39); without room for it nothing is checked. -/
def imageToCheck (s : State) (data : List Byte) : State :=
  if s.sq.checking.isSome ∨ planAdmitted s then s
  else match freePlace s data.length with
    | none => s
    | some lo =>
      let s := setExtents s lo (lo + (data.length + 4095) / 4096) 257
      { writeUnder s 0 (4096 * lo) data 0xFFFF with sq := { s.sq with checking := some (4096 * lo, 0), state := 2 } }

/-- A token record that a first device sends on (R329): the steps of that device's position come back. -/
def recordForwarded (s : State) (position p : Nat) (data : List Byte) : State :=
  forEach (s.sq.steps.filter (fun x => x.dev == position && x.pos == p && !x.back)) (fun s x => takeEntry false data s x x.slot) s

/-- A member fills the slot of a new owner (R525, R526, R539). -/
def slotOrdered (s : State) (o : Nat) (port : Bool) (digest : List Byte) : State :=
  if isHeadframe s ∨ o = 0 ∨ (getSlot s o).state ≠ 0 ∨ s.ke.state = 2 then s
  else
    let s := fillSlot s o port (BitVec.ofNat 128 (ofLe (padTo 16 digest)))
    raiseEvent s pgKe 0x04 (info [(1, o), (1, ofBool port), (1, (getSlot s o).generation)])

/-- Pairs of a list of words. -/
def wordPairs : List Nat → List (Bool × Nat)
  | p :: f :: ws => (p == 1, f) :: wordPairs ws
  | _ => []

/-- A member learns which functions an owner is bound to (R450, R478, R640): it keeps its own by their numbers, and the port of the owner.
An aperture of a function that the owner is no longer bound to returns to 0 (R475). -/
def ownerShared (s : State) (o home : Nat) (ws : List Nat) : State :=
  if isHeadframe s then s
  else
    let own := (wordPairs ws).filterMap (fun b => if b.2 / 32 = ownPosition s + 1 then some (b.1, b.2 % 32) else none)
    let was := ((getOwner s o).map (·.bound)).getD []
    let w := (getOwner s o).getD {}
    let s := setOwner s o (some { w with bound := own, home := if home = 0 then none else some (home == 2) })
    forEach (was.filter (fun b => !own.contains b)) (fun s b => dropAperture s o b.1 b.2) s

/-- The headframe learns what has happened to a function of a member (R467, R476, R496): 0 its heartbeat has expired, 1 it is written again,
2 the function is being reset, 3 its beat boundary after that (the member learns how many keys went with it, R480), 4 it is ready again, 5 it is
enabled, 6 it is disabled. -/
def functionTold (s : State) (port : Bool) (key what : Nat) : State :=
  match what with
  | 0 => modFn s port key (fun f => { f with hbExpired := true })
  | 1 => modFn s port key (fun f => { f with hbArmed := true, hbExpired := false })
  | 2 =>
    let s := unbindFrom s port key
    let s := modHp s port (fun h => { h with fetched := h.fetched.filter (fun f => fnKey (issuerOf port f) != key) })
    modFn s port key (fun f => { f with inReset := true, hbArmed := false, hbExpired := false })
  | 3 =>
    let s := if (getFn s port key).tierSize = 0 then s else releaseTier s port key none
    let gone := deserted s
    let s := forEach gone (fun s o => orderDestroy s o 2 none) s
    sendMessage s (key / 32 - 1) 0x57 [ofBool port, key % 32, gone.length]
  | 5 => modFn s port key (fun f => { f with enabled := true })
  | 6 => modFn s port key (fun f => { f with enabled := false })
  | _ => modFn s port key (fun f => { f with inReset := false })

/-- A member takes a stream's pause key and the place of its image (R369, R527). -/
def pauseKeyTold (s : State) (w : List Nat) (data : List Byte) : State :=
  if isHeadframe s then s
  else
    let k : PauseKey :=
      { owner := w.getD 1 0, pauseNo := w.getD 2 0, key := BitVec.ofNat 256 (ofLe (padTo 32 data)), wrap := (getSlot s (w.getD 1 0)).kWrap
        image := some (w.getD 3 0 == 1, w.getD 4 0, w.getD 5 0), room := w.getD 6 0 }
    { s with ke := { s.ke with pauseKeys := tblSet {} s.ke.pauseKeys (w.getD 0 0) k } }

/-- A member notes its own frame of a page that the headframe has published (R364). Words: stream, page, owner, both halves of the key,
channel. -/
def pageTold (s : State) (w : List Nat) : State :=
  match tblGet 0 (((getStream s (w.getD 0 0)).map (·.pages)).getD []) (w.getD 1 0) with
  | 0 => s
  | f + 1 => indexPage s (w.getD 2 0) (BitVec.ofNat 128 (w.getD 3 0 * 2 ^ 64 + w.getD 4 0)) f (w.getD 5 0)

/-- A read of this device's met a poisoned word at the other end: its command fails with the memory-error code (R386, R463). -/
def readFailed (s : State) (tag : Nat) : State :=
  match s.ri.creditReads.find? (fun e => e.1 == tag) with
  | some e => complete { s with ri := { s.ri with creditReads := s.ri.creditReads.filter (fun x => x.1 != tag) } } e.2 stMemError
  | none => s

/-- A whole message of a member's firmware (R434): what acts at once acts; the rest waits in the mailbox for the row that it informs. -/
def message (s : State) (source : Nat) (body : List Byte) : State :=
  let position := bits source 8 6
  let n := leAt body 8 8
  let w := (upTo (min n (body.length / 8))).map (fun k => leAt body (16 + 8 * k) 8)
  let data := body.drop (16 + 8 * n)
  match leAt body 0 8 with
  | 0x30 => imageToCheck s data
  | 0x40 => slotOrdered s (w.getD 0 0) (w.getD 1 0 == 1) data
  | 0x41 =>
    if (getSlot s (w.getD 0 0)).state = 0 ∨ w.getD 0 0 = 0 then s
    else modSlot s (w.getD 0 0) (fun k => { k with state := 3, destroyCause := w.getD 1 0 })
  | 0x42 => forwarded s position w
  | 0x43 => forwarded s position w
  | 0x44 => answered s w data
  | 0x45 => deliver s (w.getD 0 0 == 1) (w.getD 1 0) (w.getD 2 0) (w.getD 3 0) (w.getD 4 0) data
  | 0x46 => if isHeadframe s then functionTold s (w.getD 0 0 == 1) (32 * (position + 1) + w.getD 1 0 % 32) (w.getD 2 0) else s
  | 0x47 =>
    if isHeadframe s ∧ (getOwner s (w.getD 0 0)).isSome ∧ (getSlot s (w.getD 0 0)).state ≠ 3 then orderDestroy s (w.getD 0 0) (w.getD 1 0) none else s
  | 0x48 => if fnDma s (w.getD 0 0 == 1) (w.getD 1 0) then hostSend s (w.getD 0 0 == 1) (.hostWrite (w.getD 0 0 == 1) (w.getD 1 0) (w.getD 2 0) data) else s
  | 0x4A => if isHeadframe s then notifyPf0 (notifyPf0 s false) true else s
  | 0x49 => readFailed s (w.getD 0 0)
  | 0x51 => modStream s (w.getD 0 0) (fun t => { t with passK := w.getD 1 0 })
  | 0x52 => ownerShared s (w.getD 0 0) (w.getD 1 0) (w.drop 2)
  | 0x53 => { s with sq := { s.sq with
      repairNext := s.sq.repairNext.filter (·.1 != w.getD 0 0) ++ [(w.getD 0 0, (w.getD 1 0 == 1, w.getD 2 0 == 1))] } }
  | 0x54 => pauseKeyTold s w data
  | 0x55 => if isHeadframe s then s else dropPauseKey s (w.getD 0 0)
  | 0x56 => if isHeadframe s then s else pageTold s w
  | 0x57 => modFn s (w.getD 0 0 == 1) (w.getD 1 0) (fun f => { f with keysDestroyed := f.keysDestroyed + w.getD 2 0 })
  | 0x60 => if isHeadframe s then recordForwarded s position (w.getD 0 0) data else toMailbox s source body
  | 0x72 => if s.ri.valid ∧ 1 < s.ri.count then startMeasure s else s
  | 0x73 => beginChange s 4 false
  | 0x93 =>
    if w.getD 0 0 = 1 then (if s.cx.staged.isSome then { s with cx := { s.cx with hoState := 3 } } else s)
    else if w.getD 0 0 = 4 then { s with cx := { s.cx with hoPending := s.cx.hoPending || (s.cx.hoState == 3 && s.cx.staged.isSome) } }
    else if w.getD 0 0 = 5 then
      (if s.cx.hoState = 1 ∧ s.cx.staged.isSome then { s with cx := { s.cx with hoState := 2, hoResult := 0, hoMembers := w.getD 1 0 } } else s)
    else if s.cx.hoState = 0 then s
    else if w.getD 0 0 = 3 then { s with cx := { s.cx with
      hoState := 5, hoResult := w.getD 1 0, staged := none, stageOk := false, state := if s.cx.state = 2 then 3 else s.cx.state } }
    else if s.cx.hoState = 5 then s
    else if s.cx.state = 4 then revertHandoff s true
    else discardStaged s 1
  | _ => toMailbox s source body

/-- CREDIT_MESSAGE (R424, R434): a message packet; its request tag counts the packets of the message still to come. -/
def execCreditMessage (s : State) : Out :=
  .next <| takePacket s 4 fun s p =>
    let have_ := match s.ri.partialMsg.find? (fun e => e.1 == p.source) with
      | some e => e.2
      | none => []
    let rest := s.ri.partialMsg.filter (fun e => e.1 != p.source)
    if p.tag = 0 then message { s with ri := { s.ri with partialMsg := rest } } p.source (have_ ++ p.data)
    else { s with ri := { s.ri with partialMsg := rest ++ [(p.source, have_ ++ p.data)] } }

/-- CREDIT_IMAGE (R489, R490): image data at its offset in the image; the packet that reaches the image's SIZE is the last. -/
def execCreditImage (s : State) : Out :=
  .next <| takePacket s 5 fun s p =>
    let t := imagePacket s p.addr p.data false
    let size := imgLe t stagingBase 16 8
    if 24 ≤ p.addr + p.data.length ∧ size ≤ p.addr + p.data.length then imagePacket s p.addr p.data true else t

end Sys2Proof.Machine
end

