-- ==== Sys2Proof/Machine/Repair.lean ====
section
/-! DEFINITION. Repair training from reference outputs, and the commit of adapters (R112, R116-R122, R130, R131, R145, R150-R154). -/

namespace Sys2Proof.Machine

/-! ### The master copy of an operation (R110, R118, R151) -/

/-- An operation and those chained to it, which share its activation vector (R116). -/
def chainOps (d : DevRec) (i : Nat) : List (Nat × OpDesc) :=
  (i, d.ops.getD i {}) :: (((indexed d.ops).drop (i + 1)).takeWhile (·.2.chained))

/-- Logical tiles that an operation shoots. -/
def opTiles (d : DevRec) (j : Nat) : List (Nat × Nat) :=
  (d.templates.flatMap (fun t => (t.shots.filter (fun x => x.op == j)).flatMap (fun x =>
    (shotTiles (shotOp d x) x).map (fun l => (x.group, l))))).eraseDups

/-- The AW4 blocks of an operation's tiles in the stacks: row tile of 512 rows, column tile, block, column scales. -/
def opBlocks (s : State) (d : DevRec) (j : Nat) : List (Nat × Nat × List Byte × List (BitVec 16)) :=
  (opTiles d j).filterMap (fun x => (getBinding s x.1 x.2).map (fun b => (b.rowTile, b.colTile, masterBlock s b, b.scales)))

/-- The weight codes of column `n`, over `k` rows, in those blocks (R110, R118). -/
def columnWeights (bs : List (Nat × Nat × List Byte × List (BitVec 16))) (k n : Nat) : List Int :=
  ((upTo ((k + 511) / 512)).flatMap (fun rt => match bs.find? (fun b => b.1 == rt && b.2.1 == n / 512) with
    | some b => (upTo 512).map (fun r => ((unpackCodes false 512 ((b.2.2.1.drop (256 * r)).take 256)).getD (n % 512) 0).toInt)
    | none => List.replicate 512 0)).take k

/-- The column scale of column `n` (R109). -/
def columnScale (bs : List (Nat × Nat × List Byte × List (BitVec 16))) (n : Nat) : Word32 :=
  match bs.find? (fun b => b.2.1 == n / 512) with
  | some b => bf16To32 (b.2.2.2.getD (n % 512) 0)
  | none => 0

/-! ### Codes, routing and the outlier term of an input (R112, R130, R131) -/

/-- An input of a repair round: its FP32 values before quantisation, s_a and r_a, and the read-outs (L, h) of its columns. -/
abbrev RepairVec := List Word32 × Word32 × Word32 × List (BitVec 48 × BitVec 4)

/-- A candidate channel is routed: its magnitude passes theta, or it is not finite (R130). -/
def isRouted (theta x : Word32) : Bool := !(ofF32 x).isFin || Fp.lt (ofF32 theta) (ofF32 (fAbs x))

/-- Routed candidates of an outlier set, as their numbers and channels. -/
def routedOf (o : Option OutlierSet) (xs : List Word32) : List (Nat × Nat) := match o with
  | none => []
  | some u => (indexed u.cand).filter (fun c => isRouted u.theta (xs.getD c.2 0))

/-- Activation codes as the array is driven: 0 for a routed channel (R112, R130). -/
def repairCodes (o : OpDesc) (v : RepairVec) : List Int :=
  let routed := routedOf o.outlier v.1
  (indexed v.1).map (fun x => if routed.any (fun c => c.2 == x.1) then 0 else (quantise o.i8 v.2.2.1 x.2).1)

/-- Owner whose extent holds an address (R377). -/
def ownerAt (s : State) (a : Nat) : Nat := extentHolder s.ms.extents (a / 4096) - 1

/-- The outlier term of column `n` (R131), if the vector has a routed channel. -/
def outlierTerm (s : State) (o : OpDesc) (v : RepairVec) (n : Nat) : Option Word32 := match o.outlier with
  | none => none
  | some u =>
    let term := fun (c : Nat × Nat) =>
      fMul (v.1.getD c.2 0) (bf16To32 (BitVec.ofNat 16 (leAt (readUnder s (stackKey s (ownerAt s u.addr)) (u.addr + 2 * o.n * c.1 + 2 * n) 2) 0 2)))
    match routedOf o.outlier v.1 with
    | [] => none
    | c :: cs => some (cs.foldl (fun m c => fAdd m (term c)) (term c))

/-! ### Results (R120-R122, R151) -/

/-- y1 of R122 from an LX48 value and its halving count. -/
def resultOf (s : State) (o : OpDesc) (v : RepairVec) (scale : Word32) (n : Nat) (l : Int) (h : Nat) : Word32 :=
  let y0 := fMul (fMul (Acc.scaled { st := 2, val := l, h := h } o.e) v.2.1) scale
  match outlierTerm s o v n with
  | some t => fAdd y0 t
  | none => y0

/-- T_ref of a column (R151): the sum over the chain's operations of 2^16 x 2^e x the exact product, in units of 2^-16. -/
def referenceSum (s : State) (d : DevRec) (i : Nat) (codes : List Int) (n : Nat) : Int :=
  ((chainOps d i).map (fun e => 2 ^ (16 + e.2.e) * (List.zipWith (· * ·) codes (columnWeights (opBlocks s d e.1) e.2.k n)).sum)).sum

/-- The residual of a column (R151): the reference output less y1 of the read-out. -/
def residual (s : State) (d : DevRec) (i : Nat) (v : RepairVec) (codes : List Int) (n : Nat) : Word32 :=
  let o := d.ops.getD i {}
  let scale := columnScale (opBlocks s d i) n
  let ref := overflowRepeat (referenceSum s d i codes n)
  let r := v.2.2.2.getD n (0, 0)
  fSub (resultOf s o v scale n ref.1 ref.2) (resultOf s o v scale n r.1.toInt r.2.toNat)

/-- The residuals of an input (R151). -/
def residuals (s : State) (d : DevRec) (i : Nat) (v : RepairVec) : List Word32 :=
  let codes := repairCodes (d.ops.getD i {}) v
  (upTo (d.ops.getD i {}).n).map (residual s d i v codes)

/-! ### REPAIR_ROUND (R150, R152) -/

/-- The owner of the stream of vector `j` of a retained step input (R150, R281, R421). -/
def retainedOwner (s : State) (e j : Nat) : Option Nat := match s.sq.retention[e]? with
  | none => none
  | some r =>
    if r.src ≠ ownPosition s ∧ !((ringSlot s r.src r.srcPos r.slot).any (·.2.stepOut)) then none else
    let runs := parseRuns s r.pos r.consumed r.data (r.data.drop (r.data.length - 64 * ((byteAt r.data 5 - 6 + 7) / 8)))
    let w := runCapOf ((ownRec s).templates.getD ((ownRec s).positions.getD r.pos {}).template {})
    (runs.find? (fun x => decide (x.slot * w ≤ j) && decide (j < x.slot * w + x.vectors))).map (·.owner)

/-- The input may train this adapter (R150, R268): a vector of the probe set, or, where live inputs are allowed, an activation vector of a
step input that the device retains from a stream of the adapter's owner. -/
def inputAllowed (s : State) (o : OpDesc) (x : AdapterDesc) (live : Bool) (i : RepairInput) : Bool :=
  decide (0x00800000 ≤ i.sA.toNat) && decide (i.sA.toNat < 0x7F800000) && decide (0x00800000 ≤ i.rA.toNat) &&
  decide (i.rA.toNat < 0x7F800000) && decide (i.reads.length = o.n) &&
  match i.probe with
  | some p => decide (p.toNat < x.count)
  | none => live && decide (i.x.length = o.k) && retainedOwner s i.entry.toNat i.vector.toNat == some o.owner

/-- The vector that an input names. -/
def repairVec (s : State) (o : OpDesc) (x : AdapterDesc) (i : RepairInput) : RepairVec :=
  ((match i.probe with
    | some p => probeVector s o x p.toNat
    | none => i.x), i.sA, i.rA, i.reads)

/-- The inputs stand in the order of use (R150, R152): m training inputs, probes first and then live ones, then 16 further probes, no probe
twice. -/
def inputOrder (m : Nat) (is : List RepairInput) : Bool :=
  decide (is.length = m + 16) && ((is.take m).dropWhile (·.probe.isSome)).all (·.probe.isNone) && (is.drop m).all (·.probe.isSome)
    && decide ((is.filterMap (·.probe)).Nodup)

/-- Take each of some words out of those read, if all of them stand there. -/
def takeReads : List (Nat × BitVec 48 × BitVec 4) → List (Nat × BitVec 48 × BitVec 4) → Bool
  | [], _ => true
  | x :: xs, rs => rs.contains x && takeReads xs (rs.erase x)

/-- The words of the inputs are ones that the banks gave for the operation's shots in repair beats, each used once (R152). -/
def readsShot (s : State) (o : OpDesc) (is : List RepairInput) : Bool :=
  takeReads (is.flatMap (fun i => indexed i.reads)) (tblGet {} s.sq.adapters o.tag).reads

/-- REPAIR_ROUND (R150-R154): a repair round of operation `op` in a repair beat, from its inputs in order of use: training
inputs from the probe set, live ones, and the held-out ones. An input brings the scales
that the plan's code supplies and the words that the banks read out for its shots in repair beats (log entry 33). -/
def execRepairRound (op : BitVec 16) (probes live heldOut : List RepairInput) (s : State) : Out :=
  .next <|
    let inputs := probes ++ live ++ heldOut
    let i := op.toNat
    let d := ownRec s
    let o := d.ops.getD i {}
    match s.sq.live, o.adapter with
    | some l, some x =>
      let m := 2 ^ x.logM
      let on := tblGet (false, false) s.sq.repair o.owner
      if l.template ≠ o.template ∨ !(liveTemplate s).repair ∨ !x.train ∨ !on.1 ∨ !inputOrder m inputs
          ∨ !inputs.all (inputAllowed s o x on.2) ∨ !readsShot s o inputs ∨ l.done.contains (8, i) then s
      else
        let vs := inputs.map (repairVec s o x)
        let es := vs.map (residuals s d i)
        let s := modLive s (fun l => { l with done := (8, i) :: l.done })
        let s := modAdapter s o.tag (fun a => { a with reads := [] })
        repairRound s i o x ((vs.take m).map (·.1)) (es.take m) ((vs.drop m).map (·.1)) (es.drop m)
    | _, _ => s

/-- ADAPTER_COMMIT (R145, R154): at a step boundary, which accepts a round, with no replay pending, the staged copy of an operation's adapter
becomes the served one, its version increments and event 0x32 is raised. -/
def execAdapterCommit (op : BitVec 16) (s : State) : Out :=
  .next <|
    let i := op.toNat
    let o := (ownRec s).ops.getD i {}
    let st := tblGet {} s.sq.adapters o.tag
    match o.adapter with
    | none => s
    | some x =>
      if !atEdge s 2 ∨ !st.staged ∨ !st.eligible ∨ s.sq.live.isSome ∨ s.sq.ended ≠ [] ∨ s.sq.verdict = 2 ∨ s.sq.replaying ≠ [] ∨ s.sq.rho ≠ [] then s
      else
        let key := stackKey s o.owner
        let s := writeUnder s key x.a (st.stagedA.flatMap (fun w => leBytes 2 w.toNat)) 256
        let s := writeUnder s key x.b (st.stagedB.flatMap (fun w => leBytes 2 w.toNat)) 256
        let s := modAdapter s o.tag (fun t => { t with staged := false, eligible := false, version := t.version + 1 })
        raiseEvent s (pgCc (columnZeroCore s i)) 0x32
          (info [(2, o.tag), (4, (st.version + 1).toNat), (4, st.lossNew.toNat), (4, st.lossCur.toNat)])

end Sys2Proof.Machine
end

