-- ==== Sys2Proof/Machine/Dispatch.lean ====
section
/-! DEFINITION. One arm per command. -/

namespace Sys2Proof.Machine

/-- What a command does to the state, the queue apart. -/
def exec (i : Instr) (s : State) : Host.Outcome State Fault Refusal :=
  match i with
  | .registerWrite a offset size value => Sys2Proof.Machine.execRegisterWrite a offset size value s
  | .rcRead a offset size => Sys2Proof.Machine.execRcRead a offset size s
  | .sqBeatCountRead a wide => Sys2Proof.Machine.execSqBeatCountRead a wide s
  | .devRtbRead a wide => Sys2Proof.Machine.execDevRtbRead a wide s
  | .pageEnableWrite port page value => Sys2Proof.Machine.execPageEnableWrite port page value s
  | .thaw a page value => Sys2Proof.Machine.execThaw a page value s
  | .srst port page value => Sys2Proof.Machine.execSrst port page value s
  | .srstDone page => Sys2Proof.Machine.execSrstDone page s
  | .evtForce a page value => Sys2Proof.Machine.execEvtForce a page value s
  | .pageLock a page value => Sys2Proof.Machine.execPageLock a page value s
  | .shot entry => Sys2Proof.Machine.execShot entry s
  | .reshot group op logical k => Sys2Proof.Machine.execReshot group op logical k s
  | .seamReshot group op logical k => Sys2Proof.Machine.execSeamReshot group op logical k s
  | .calibrationShot group tile => Sys2Proof.Machine.execCalibrationShot group tile s
  | .driveFetch group source row ecc => Sys2Proof.Machine.execDriveFetch group source row ecc s
  | .entryBlockClose entry => Sys2Proof.Machine.execEntryBlockClose entry s
  | .beatStart pos => Sys2Proof.Machine.execBeatStart pos s
  | .beatEnd => Sys2Proof.Machine.execBeatEnd s
  | .tgFsrDefault a group value => Sys2Proof.Machine.execTgFsrDefault a group value s
  | .tgCheckTol a group value => Sys2Proof.Machine.execTgCheckTol a group value s
  | .calWindowWrite a tile word value => Sys2Proof.Machine.execCalWindowWrite a tile word value s
  | .adapterCommit op => Sys2Proof.Machine.execAdapterCommit op s
  | .repairRound op probes live heldOut => Sys2Proof.Machine.execRepairRound op probes live heldOut s
  | .loadWeights w owner list ecc => Sys2Proof.Machine.execLoadWeights w owner list ecc s
  | .loadWeightsStart => Sys2Proof.Machine.execLoadWeightsStart s
  | .tileProgramDone tile failed partners iterations touched => Sys2Proof.Machine.execTileProgramDone tile failed partners iterations touched s
  | .tileSettleEnd tile => Sys2Proof.Machine.execTileSettleEnd tile s
  | .tileCalComplete tile dead => Sys2Proof.Machine.execTileCalComplete tile dead s
  | .loadWeightsComplete load => Sys2Proof.Machine.execLoadWeightsComplete load s
  | .tileRetire group tile ecc => Sys2Proof.Machine.execTileRetire group tile ecc s
  | .liveSwap load => Sys2Proof.Machine.execLiveSwap load s
  | .tileUnbind => Sys2Proof.Machine.execTileUnbind s
  | .remoteWriteArrival core target => Sys2Proof.Machine.execRemoteWriteArrival core target s
  | .remoteReadReturn core target ecc => Sys2Proof.Machine.execRemoteReadReturn core target ecc s
  | .slotWaitRelease core ecc => Sys2Proof.Machine.execSlotWaitRelease core ecc s
  | .accWaitRelease core => Sys2Proof.Machine.execAccWaitRelease core s
  | .waittRelease core => Sys2Proof.Machine.execWaittRelease core s
  | .fenceComplete core => Sys2Proof.Machine.execFenceComplete core s
  | .coreClearDone core => Sys2Proof.Machine.execCoreClearDone core s
  | .ccLaunchStart a core value => Sys2Proof.Machine.execCcLaunchStart a core value s
  | .launchStart launch => Sys2Proof.Machine.execLaunchStart launch s
  | .ccNop core => Sys2Proof.Machine.execCcNop core s
  | .ccEnd core => Sys2Proof.Machine.execCcEnd core s
  | .ccBr core imm => Sys2Proof.Machine.execCcBr core imm s
  | .ccBeq core a b imm => Sys2Proof.Machine.execCcBeq core a b imm s
  | .ccBne core a b imm => Sys2Proof.Machine.execCcBne core a b imm s
  | .ccBlt core a b imm => Sys2Proof.Machine.execCcBlt core a b imm s
  | .ccBge core a b imm => Sys2Proof.Machine.execCcBge core a b imm s
  | .ccBltu core a b imm => Sys2Proof.Machine.execCcBltu core a b imm s
  | .ccBgeu core a b imm => Sys2Proof.Machine.execCcBgeu core a b imm s
  | .ccFence core => Sys2Proof.Machine.execCcFence core s
  | .ccWaitt core a imm => Sys2Proof.Machine.execCcWaitt core a imm s
  | .ccWaitc core imm => Sys2Proof.Machine.execCcWaitc core imm s
  | .ccPost core imm => Sys2Proof.Machine.execCcPost core imm s
  | .ccSget core d imm => Sys2Proof.Machine.execCcSget core d imm s
  | .ccFsclr core => Sys2Proof.Machine.execCcFsclr core s
  | .ccRsc core d a imm => Sys2Proof.Machine.execCcRsc core d a imm s
  | .ccNwchk core d a imm => Sys2Proof.Machine.execCcNwchk core d a imm s
  | .ccRand core d a => Sys2Proof.Machine.execCcRand core d a s
  | .ccAdd core d a b => Sys2Proof.Machine.execCcAdd core d a b s
  | .ccSub core d a b => Sys2Proof.Machine.execCcSub core d a b s
  | .ccAnd core d a b => Sys2Proof.Machine.execCcAnd core d a b s
  | .ccOr core d a b => Sys2Proof.Machine.execCcOr core d a b s
  | .ccXor core d a b => Sys2Proof.Machine.execCcXor core d a b s
  | .ccShl core d a b => Sys2Proof.Machine.execCcShl core d a b s
  | .ccShr core d a b => Sys2Proof.Machine.execCcShr core d a b s
  | .ccSra core d a b => Sys2Proof.Machine.execCcSra core d a b s
  | .ccMul core d a b => Sys2Proof.Machine.execCcMul core d a b s
  | .ccMin core d a b => Sys2Proof.Machine.execCcMin core d a b s
  | .ccMax core d a b => Sys2Proof.Machine.execCcMax core d a b s
  | .ccSlt core d a b => Sys2Proof.Machine.execCcSlt core d a b s
  | .ccSltu core d a b => Sys2Proof.Machine.execCcSltu core d a b s
  | .ccSeq core d a b => Sys2Proof.Machine.execCcSeq core d a b s
  | .ccAddi core d a imm => Sys2Proof.Machine.execCcAddi core d a imm s
  | .ccLi core d imm => Sys2Proof.Machine.execCcLi core d imm s
  | .ccLih core d imm => Sys2Proof.Machine.execCcLih core d imm s
  | .ccShli core d a imm => Sys2Proof.Machine.execCcShli core d a imm s
  | .ccShri core d a imm => Sys2Proof.Machine.execCcShri core d a imm s
  | .ccSrai core d a imm => Sys2Proof.Machine.execCcSrai core d a imm s
  | .ccVext core d a imm => Sys2Proof.Machine.execCcVext core d a imm s
  | .ccVins core d a imm => Sys2Proof.Machine.execCcVins core d a imm s
  | .ccLd core d a m imm ecc => Sys2Proof.Machine.execCcLd core d a m imm ecc s
  | .ccSt core a b m imm => Sys2Proof.Machine.execCcSt core a b m imm s
  | .ccRstv core a b c m imm => Sys2Proof.Machine.execCcRstv core a b c m imm s
  | .ccRldv core d a c m imm => Sys2Proof.Machine.execCcRldv core d a c m imm s
  | .ccSlotDef core a imm => Sys2Proof.Machine.execCcSlotDef core a imm s
  | .ccSlotDrain core imm => Sys2Proof.Machine.execCcSlotDrain core imm s
  | .ccSlotFill core imm => Sys2Proof.Machine.execCcSlotFill core imm s
  | .ccSlotFree core imm => Sys2Proof.Machine.execCcSlotFree core imm s
  | .ccSlotStat core d imm => Sys2Proof.Machine.execCcSlotStat core d imm s
  | .ccVadd core d a b m => Sys2Proof.Machine.execCcVadd core d a b m s
  | .ccVsub core d a b m => Sys2Proof.Machine.execCcVsub core d a b m s
  | .ccVmul core d a b m => Sys2Proof.Machine.execCcVmul core d a b m s
  | .ccVfma core d a b c m => Sys2Proof.Machine.execCcVfma core d a b c m s
  | .ccVmin core d a b m => Sys2Proof.Machine.execCcVmin core d a b m s
  | .ccVmax core d a b m => Sys2Proof.Machine.execCcVmax core d a b m s
  | .ccVabs core d a => Sys2Proof.Machine.execCcVabs core d a s
  | .ccVneg core d a => Sys2Proof.Machine.execCcVneg core d a s
  | .ccVcmp core d a b m => Sys2Proof.Machine.execCcVcmp core d a b m s
  | .ccVsel core d a b c m => Sys2Proof.Machine.execCcVsel core d a b c m s
  | .ccVexp core d a => Sys2Proof.Machine.execCcVexp core d a s
  | .ccVrcp core d a => Sys2Proof.Machine.execCcVrcp core d a s
  | .ccVrsq core d a => Sys2Proof.Machine.execCcVrsq core d a s
  | .ccVdiv core d a b m => Sys2Proof.Machine.execCcVdiv core d a b m s
  | .ccVsqrt core d a => Sys2Proof.Machine.execCcVsqrt core d a s
  | .ccVrnd core d a m => Sys2Proof.Machine.execCcVrnd core d a m s
  | .ccVq core d a b m => Sys2Proof.Machine.execCcVq core d a b m s
  | .ccVperm core d a b => Sys2Proof.Machine.execCcVperm core d a b s
  | .ccVmov core d a => Sys2Proof.Machine.execCcVmov core d a s
  | .ccVbc core d a => Sys2Proof.Machine.execCcVbc core d a s
  | .ccVred core d a m => Sys2Proof.Machine.execCcVred core d a m s
  | .ccKsum core d a b imm => Sys2Proof.Machine.execCcKsum core d a b imm s
  | .ccVkadd core d a c => Sys2Proof.Machine.execCcVkadd core d a c s
  | .ccKcomb core d a b => Sys2Proof.Machine.execCcKcomb core d a b s
  | .ccKfin core d a => Sys2Proof.Machine.execCcKfin core d a s
  | .ccVld core d a m imm ecc => Sys2Proof.Machine.execCcVld core d a m imm ecc s
  | .ccVst core a b m imm => Sys2Proof.Machine.execCcVst core a b m imm s
  | .ccVlds core d a b m imm ecc => Sys2Proof.Machine.execCcVlds core d a b m imm ecc s
  | .ccVsts core a b c m imm => Sys2Proof.Machine.execCcVsts core a b c m imm s
  | .ccVldt core d a b m imm ecc => Sys2Proof.Machine.execCcVldt core d a b m imm ecc s
  | .ccVgath core d a b m imm ecc => Sys2Proof.Machine.execCcVgath core d a b m imm ecc s
  | .ccMz core d => Sys2Proof.Machine.execCcMz core d s
  | .ccMma core d a b c m ecc residue => Sys2Proof.Machine.execCcMma core d a b c m ecc residue s
  | .ccMrd core d a imm => Sys2Proof.Machine.execCcMrd core d a imm s
  | .ccMwr core d a imm => Sys2Proof.Machine.execCcMwr core d a imm s
  | .ccMst core a b m imm => Sys2Proof.Machine.execCcMst core a b m imm s
  | .ccAccRd core d a m => Sys2Proof.Machine.execCcAccRd core d a m s
  | .ccAccRdf core d a c m imm => Sys2Proof.Machine.execCcAccRdf core d a c m imm s
  | .ccAccDrop core a m imm => Sys2Proof.Machine.execCcAccDrop core a m imm s
  | .ccIllegal core word => Sys2Proof.Machine.execCcIllegal core word s
  | .planAdmit w addr membersOk => Sys2Proof.Machine.execPlanAdmit w addr membersOk s
  | .planAdmitted retention => Sys2Proof.Machine.execPlanAdmitted retention s
  | .planRetire w => Sys2Proof.Machine.execPlanRetire w s
  | .planRetired => Sys2Proof.Machine.execPlanRetired s
  | .ringResume w => Sys2Proof.Machine.execRingResume w s
  | .roundBoundary othersThawed lacking => Sys2Proof.Machine.execRoundBoundary othersThawed lacking s
  | .roundStartFlit verdict layout stretch bucket round rtbStart retired epoch crcOk causes orders => Sys2Proof.Machine.execRoundStartFlit verdict layout stretch bucket round rtbStart retired epoch crcOk causes orders s
  | .idleBoundaryPass => Sys2Proof.Machine.execIdleBoundaryPass s
  | .statusFlitSend => Sys2Proof.Machine.execStatusFlitSend s
  | .statusFlit pos status replaying stretch level round positions crcOk => Sys2Proof.Machine.execStatusFlit pos status replaying stretch level round positions crcOk s
  | .switchGapEnd lacking => Sys2Proof.Machine.execSwitchGapEnd lacking s
  | .emptyRoundEnd othersThawed lacking => Sys2Proof.Machine.execEmptyRoundEnd othersThawed lacking s
  | .timedSend slot ecc => Sys2Proof.Machine.execTimedSend slot ecc s
  | .timedRelease src pos slot => Sys2Proof.Machine.execTimedRelease src pos slot s
  | .timedArrival src pos slot => Sys2Proof.Machine.execTimedArrival src pos slot s
  | .tokenRecordArrival read => Sys2Proof.Machine.execTokenRecordArrival read s
  | .dmaSlotStart slot ecc => Sys2Proof.Machine.execDmaSlotStart slot ecc s
  | .dmaTransferComplete pos slot ecc => Sys2Proof.Machine.execDmaTransferComplete pos slot ecc s
  | .copyComplete stream page othersDone ecc => Sys2Proof.Machine.execCopyComplete stream page othersDone ecc s
  | .sqStretch a value => Sys2Proof.Machine.execSqStretch a value s
  | .submissionFetch port pair entry => Sys2Proof.Machine.execSubmissionFetch port pair entry s
  | .nopCommand w => Sys2Proof.Machine.execNopCommand w s
  | .ownerCreate w membersOk => Sys2Proof.Machine.execOwnerCreate w membersOk s
  | .ownerRelease w owner => Sys2Proof.Machine.execOwnerRelease w owner s
  | .ownerLimits w owner genMode promptMode weight fill genRate genCap promptRate promptCap report => Sys2Proof.Machine.execOwnerLimits w owner genMode promptMode weight fill genRate genCap promptRate promptCap report s
  | .ownerBind w owner target => Sys2Proof.Machine.execOwnerBind w owner target s
  | .ownerUnbind w owner target => Sys2Proof.Machine.execOwnerUnbind w owner target s
  | .ownerReattach w owner token => Sys2Proof.Machine.execOwnerReattach w owner token s
  | .streamOpen w owner settings pair => Sys2Proof.Machine.execStreamOpen w owner settings pair s
  | .streamSubmit w owner stream count tokens => Sys2Proof.Machine.execStreamSubmit w owner stream count tokens s
  | .streamSet w owner stream mask settings => Sys2Proof.Machine.execStreamSet w owner stream mask settings s
  | .streamQuery w owner stream report => Sys2Proof.Machine.execStreamQuery w owner stream report s
  | .streamFork w owner stream => Sys2Proof.Machine.execStreamFork w owner stream s
  | .streamRewind w owner stream length => Sys2Proof.Machine.execStreamRewind w owner stream length s
  | .streamPause w owner stream ttl => Sys2Proof.Machine.execStreamPause w owner stream ttl s
  | .pausePlacement stream imageBytes => Sys2Proof.Machine.execPausePlacement stream imageBytes s
  | .pauseImageDone read => Sys2Proof.Machine.execPauseImageDone read s
  | .pauseExpiry stream => Sys2Proof.Machine.execPauseExpiry stream s
  | .streamResume w owner stream othersHaveFrames => Sys2Proof.Machine.execStreamResume w owner stream othersHaveFrames s
  | .resumeImageDone stream image => Sys2Proof.Machine.execResumeImageDone stream image s
  | .streamClose w owner stream => Sys2Proof.Machine.execStreamClose w owner stream s
  | .streamTokens w owner stream buffer first count => Sys2Proof.Machine.execStreamTokens w owner stream buffer first count s
  | .tierRegister w addr size => Sys2Proof.Machine.execTierRegister w addr size s
  | .schedSet w backfill prefillShare => Sys2Proof.Machine.execSchedSet w backfill prefillShare s
  | .memGrant w owner addr size => Sys2Proof.Machine.execMemGrant w owner addr size s
  | .memRelease w owner addr size => Sys2Proof.Machine.execMemRelease w owner addr size s
  | .memWrite w owner addr host length => Sys2Proof.Machine.execMemWrite w owner addr host length s
  | .memRead w owner addr host length => Sys2Proof.Machine.execMemRead w owner addr host length s
  | .repairCtrl w owner enabled live => Sys2Proof.Machine.execRepairCtrl w owner enabled live s
  | .membership w buffer size => Sys2Proof.Machine.execMembership w buffer size s
  | .regAccess w offset value write => Sys2Proof.Machine.execRegAccess w offset value write s
  | .fnQueues w vf mapEntry map pair => Sys2Proof.Machine.execFnQueues w vf mapEntry map pair s
  | .qpConfig port fn dwords => Sys2Proof.Machine.execQpConfig port fn dwords s
  | .dbSubmitTail port fn page value => Sys2Proof.Machine.execDbSubmitTail port fn page value s
  | .dbComplHead port fn page value => Sys2Proof.Machine.execDbComplHead port fn page value s
  | .msixSignal port pair => Sys2Proof.Machine.execMsixSignal port pair s
  | .apertureAccess port fn offset write count data ecc => Sys2Proof.Machine.execApertureAccess port fn offset write count data ecc s
  | .hpAptBase a page fn value => Sys2Proof.Machine.execHpAptBase a page fn value s
  | .hpAptOwner a page fn value => Sys2Proof.Machine.execHpAptOwner a page fn value s
  | .hpHeartbeat a page fn value => Sys2Proof.Machine.execHpHeartbeat a page fn value s
  | .hpHeartbeatTimeout a page grace value => Sys2Proof.Machine.execHpHeartbeatTimeout a page grace value s
  | .heartbeatLost port fn => Sys2Proof.Machine.execHeartbeatLost port fn s
  | .orphaned owner => Sys2Proof.Machine.execOrphaned owner s
  | .graceExpired owner => Sys2Proof.Machine.execGraceExpired owner s
  | .flr port fn => Sys2Proof.Machine.execFlr port fn s
  | .flrBoundary port fn => Sys2Proof.Machine.execFlrBoundary port fn s
  | .functionReset port fn => Sys2Proof.Machine.execFunctionReset port fn s
  | .vfEnableClear port => Sys2Proof.Machine.execVfEnableClear port s
  | .perstAssert port => Sys2Proof.Machine.execPerstAssert port s
  | .perstDeassert port => Sys2Proof.Machine.execPerstDeassert port s
  | .hostLinkChange port speed width => Sys2Proof.Machine.execHostLinkChange port speed width s
  | .linkLossTimeout port => Sys2Proof.Machine.execLinkLossTimeout port s
  | .busMasterEnable port fn on => Sys2Proof.Machine.execBusMasterEnable port fn on s
  | .doeDiscovery port fn index => Sys2Proof.Machine.execDoeDiscovery port fn index s
  | .ideKm port fn secured link go => Sys2Proof.Machine.execIdeKm port fn secured link go s
  | .boot a value => Sys2Proof.Machine.execBoot a value s
  | .fwVerifyDone => Sys2Proof.Machine.execFwVerifyDone s
  | .stage a value => Sys2Proof.Machine.execStage a value s
  | .fwImagePacket offset data last => Sys2Proof.Machine.execFwImagePacket offset data last s
  | .fwStaged results => Sys2Proof.Machine.execFwStaged results s
  | .cxActivate a value => Sys2Proof.Machine.execCxActivate a value s
  | .cxDiscard a value => Sys2Proof.Machine.execCxDiscard a value s
  | .quietTimeReached position reached => Sys2Proof.Machine.execQuietTimeReached position reached s
  | .handoffStart => Sys2Proof.Machine.execHandoffStart s
  | .handoffDone position all => Sys2Proof.Machine.execHandoffDone position all s
  | .handoffRevert why => Sys2Proof.Machine.execHandoffRevert why s
  | .watchdogSignal core => Sys2Proof.Machine.execWatchdogSignal core s
  | .watchdog core => Sys2Proof.Machine.execWatchdog core s
  | .setEndpointId eid => Sys2Proof.Machine.execSetEndpointId eid s
  | .getEndpointId => Sys2Proof.Machine.execGetEndpointId s
  | .getMctpVersionSupport type => Sys2Proof.Machine.execGetMctpVersionSupport type s
  | .getMessageTypeSupport => Sys2Proof.Machine.execGetMessageTypeSupport s
  | .getVendorMessageSupport => Sys2Proof.Machine.execGetVendorMessageSupport s
  | .pldmSensorRead id => Sys2Proof.Machine.execPldmSensorRead id s
  | .pldmBaseRequest command => Sys2Proof.Machine.execPldmBaseRequest command s
  | .pldmFruRequest command => Sys2Proof.Machine.execPldmFruRequest command s
  | .setEventReceiver eid => Sys2Proof.Machine.execSetEventReceiver eid s
  | .pollForPlatformEvent => Sys2Proof.Machine.execPollForPlatformEvent s
  | .platformEventSend answered => Sys2Proof.Machine.execPlatformEventSend answered s
  | .platformEventTimeout => Sys2Proof.Machine.execPlatformEventTimeout s
  | .spdmGetVersion via => Sys2Proof.Machine.execSpdmGetVersion via s
  | .spdmGetCapabilities via => Sys2Proof.Machine.execSpdmGetCapabilities via s
  | .spdmNegotiateAlgorithms via => Sys2Proof.Machine.execSpdmNegotiateAlgorithms via s
  | .spdmGetDigests via => Sys2Proof.Machine.execSpdmGetDigests via s
  | .spdmGetCertificate via slot offset length => Sys2Proof.Machine.execSpdmGetCertificate via slot offset length s
  | .spdmChallenge via slot nonce => Sys2Proof.Machine.execSpdmChallenge via slot nonce s
  | .spdmGetMeasurements via index => Sys2Proof.Machine.execSpdmGetMeasurements via index s
  | .spdmKeyExchange via => Sys2Proof.Machine.execSpdmKeyExchange via s
  | .spdmFinish via sid => Sys2Proof.Machine.execSpdmFinish via sid s
  | .spdmHeartbeat via sid => Sys2Proof.Machine.execSpdmHeartbeat via sid s
  | .spdmKeyUpdate via sid => Sys2Proof.Machine.execSpdmKeyUpdate via sid s
  | .spdmEndSession via sid => Sys2Proof.Machine.execSpdmEndSession via sid s
  | .keyDestroy sid secured owner => Sys2Proof.Machine.execKeyDestroy sid secured owner s
  | .regRead offset count => Sys2Proof.Machine.execRegRead offset count s
  | .regWrite offset value => Sys2Proof.Machine.execRegWrite offset value s
  | .ringJoin => Sys2Proof.Machine.execRingJoin s
  | .sumpRead index count => Sys2Proof.Machine.execSumpRead index count s
  | .mgmtStatus => Sys2Proof.Machine.execMgmtStatus s
  | .keDestroy a value => Sys2Proof.Machine.execKeDestroy a value s
  | .ownerKeyDestroy owner cause => Sys2Proof.Machine.execOwnerKeyDestroy owner cause s
  | .keClear a value => Sys2Proof.Machine.execKeClear a value s
  | .entropyFail test => Sys2Proof.Machine.execEntropyFail test s
  | .drbgReseed => Sys2Proof.Machine.execDrbgReseed s
  | .linkBringup port lanes kept auth serial wants => Sys2Proof.Machine.execLinkBringup port lanes kept auth serial wants s
  | .linkLightLoss port fec => Sys2Proof.Machine.execLinkLightLoss port fec s
  | .linkSilence port => Sys2Proof.Machine.execLinkSilence port s
  | .idleFlit port ack nak credits cclass => Sys2Proof.Machine.execIdleFlit port ack nak credits cclass s
  | .timedFlit src pos slot index payload crcOk poison => Sys2Proof.Machine.execTimedFlit src pos slot index payload crcOk poison s
  | .creditFlit port cls seq dst first last body crcOk => Sys2Proof.Machine.execCreditFlit port cls seq dst first last body crcOk s
  | .tagWindowClose port => Sys2Proof.Machine.execTagWindowClose port s
  | .tagFlit port window ok crcOk => Sys2Proof.Machine.execTagFlit port window ok crcOk s
  | .timeFlit port mode count stamp delay crcOk => Sys2Proof.Machine.execTimeFlit port mode count stamp delay crcOk s
  | .claimFlit hfSel candidate serial maxRtb hops crcOk => Sys2Proof.Machine.execClaimFlit hfSel candidate serial maxRtb hops crcOk s
  | .creditWrite => Sys2Proof.Machine.execCreditWrite s
  | .creditReadRequest ecc => Sys2Proof.Machine.execCreditReadRequest ecc s
  | .creditReadData => Sys2Proof.Machine.execCreditReadData s
  | .creditMessage => Sys2Proof.Machine.execCreditMessage s
  | .creditImage => Sys2Proof.Machine.execCreditImage s
  | .riJoin a value => Sys2Proof.Machine.execRiJoin a value s
  | .riLeave a value => Sys2Proof.Machine.execRiLeave a value s
  | .riRetrain a value => Sys2Proof.Machine.execRiRetrain a value s
  | .riLinkRate a value => Sys2Proof.Machine.execRiLinkRate a value s
  | .crosscutClose => Sys2Proof.Machine.execCrosscutClose s
  | .crosscutSettled light => Sys2Proof.Machine.execCrosscutSettled light s
  | .retimeWander port => Sys2Proof.Machine.execRetimeWander port s
  | .membershipChange cause trip => Sys2Proof.Machine.execMembershipChange cause trip s
  | .trainingPhaseTimeout => Sys2Proof.Machine.execTrainingPhaseTimeout s
  | .trainingRetry => Sys2Proof.Machine.execTrainingRetry s
  | .membershipPublish report generation cause owners => Sys2Proof.Machine.execMembershipPublish report generation cause owners s
  | .scrubPassStart => Sys2Proof.Machine.execScrubPassStart s
  | .scrubPass ecc => Sys2Proof.Machine.execScrubPass ecc s
  | .msScrubCtrl a value => Sys2Proof.Machine.execMsScrubCtrl a value s
  | .ceRateUpdate => Sys2Proof.Machine.execCeRateUpdate s
  | .tempSample sensor reading => Sys2Proof.Machine.execTempSample sensor reading s
  | .powerSample vin vin1ms iin iin10us iin100ms iin1s pin1s => Sys2Proof.Machine.execPowerSample vin vin1ms iin iin10us iin100ms iin1s pin1s s
  | .levelFall source => Sys2Proof.Machine.execLevelFall source s
  | .brownOut vin => Sys2Proof.Machine.execBrownOut vin s
  | .calIntervalExpiry group => Sys2Proof.Machine.execCalIntervalExpiry group s
  | .calDone group dead moved => Sys2Proof.Machine.execCalDone group dead moved s
  | .calLate group => Sys2Proof.Machine.execCalLate group s
  | .hbCal a value => Sys2Proof.Machine.execHbCal a value s
  | .hbSelfcal a value => Sys2Proof.Machine.execHbSelfcal a value s
  | .selfcalDone dead => Sys2Proof.Machine.execSelfcalDone dead s
  | .hbCalDtcal a value => Sys2Proof.Machine.execHbCalDtcal a value s
  | .hbCalMaxInterval a value => Sys2Proof.Machine.execHbCalMaxInterval a value s
  | .hbMarginEnv a which value => Sys2Proof.Machine.execHbMarginEnv a which value s
  | .ageingUpdate stressed unstressed stressedTime unstressedTime => Sys2Proof.Machine.execAgeingUpdate stressed unstressed stressedTime unstressedTime s
  | .marginReplan => Sys2Proof.Machine.execMarginReplan s
  | .replan a value => Sys2Proof.Machine.execReplan a value s
  | .assayPattern a value => Sys2Proof.Machine.execAssayPattern a value s
  | .assayReplay a value => Sys2Proof.Machine.execAssayReplay a value s
  | .assayCore a value => Sys2Proof.Machine.execAssayCore a value s
  | .hbAbort a value => Sys2Proof.Machine.execHbAbort a value s
  | .assayNoInput => Sys2Proof.Machine.execAssayNoInput s
  | .assayComplete scalar memory vector matrix => Sys2Proof.Machine.execAssayComplete scalar memory vector matrix s
  | .dpThrottlePoint a value => Sys2Proof.Machine.execDpThrottlePoint a value s
  | .dpTripAck a value => Sys2Proof.Machine.execDpTripAck a value s
  | .dpRestart a value => Sys2Proof.Machine.execDpRestart a value s
  | .mcPassStart => Sys2Proof.Machine.execMcPassStart s
  | .mcEntryDone codes => Sys2Proof.Machine.execMcEntryDone codes s
  | .mcSelfcal a value => Sys2Proof.Machine.execMcSelfcal a value s
  | .mcSelfcalComplete offset gain => Sys2Proof.Machine.execMcSelfcalComplete offset gain s
  | .mcSeqTable a n value => Sys2Proof.Machine.execMcSeqTable a n value s
  | .mcTrigger a value => Sys2Proof.Machine.execMcTrigger a value s
  | .auxApply => Sys2Proof.Machine.execAuxApply s
  | .auxLoss => Sys2Proof.Machine.execAuxLoss s
  | .vinApply vin => Sys2Proof.Machine.execVinApply vin s
  | .pwrEnRise => Sys2Proof.Machine.execPwrEnRise s
  | .pwrEnFall => Sys2Proof.Machine.execPwrEnFall s
  | .thermTripRelease => Sys2Proof.Machine.execThermTripRelease s
  | .mainOn light failed => Sys2Proof.Machine.execMainOn light failed s
  | .zeroFillDone => Sys2Proof.Machine.execZeroFillDone s
  | .fwLoadedWorkDone identity => Sys2Proof.Machine.execFwLoadedWorkDone identity s
  | .configuredWorkDone => Sys2Proof.Machine.execConfiguredWorkDone s
  | .startupCalDone peerLight => Sys2Proof.Machine.execStartupCalDone peerLight s
  | .devSoft a value => Sys2Proof.Machine.execDevSoft a value s
  | .softResetDone => Sys2Proof.Machine.execSoftResetDone s
  | .devModule a value => Sys2Proof.Machine.execDevModule a value s
  | .moduleRestart => Sys2Proof.Machine.execModuleRestart s
  | .refLost ref => Sys2Proof.Machine.execRefLost ref s
  | .refHoldoverExpiry => Sys2Proof.Machine.execRefHoldoverExpiry s
  | .referenceAppear ref => Sys2Proof.Machine.execReferenceAppear ref s
  | .refLocked us => Sys2Proof.Machine.execRefLocked us s
  | .mainRailsStart bank => Sys2Proof.Machine.execMainRailsStart bank s
  | .holdUpBankDepleted => Sys2Proof.Machine.execHoldUpBankDepleted s
  | .planCheckComplete others ecc => Sys2Proof.Machine.execPlanCheckComplete others ecc s
  | .commandTransferComplete w data ecc => Sys2Proof.Machine.execCommandTransferComplete w data ecc s
  | .vfEnableSet port count => Sys2Proof.Machine.execVfEnableSet port count s
  | .resizableBar port log2Size => Sys2Proof.Machine.execResizableBar port log2Size s
  | .dynamicAddressAssign addr => Sys2Proof.Machine.execDynamicAddressAssign addr s

end Sys2Proof.Machine
end

