-- ==== Sys2Proof/Machine/Step.lean ====
section
/-! DEFINITION. One step of the block: the command at the front of the queue, or one cycle of DCLK when none waits. -/

namespace Sys2Proof.Machine

/-- One step: exec of the command at the front of the queue on the state with the queue's rest; on an empty queue the block lets one
cycle of DCLK pass (log entry 2). -/
def step (s : State) : Host.Outcome State Fault Refusal :=
  match s.pending with
  | [] => .next (idleCycle s)
  | c :: rest => exec c { s with pending := rest }

/-- The command that a table word spells, put at the front of the queue; the table gives no bits, so no word spells one (R1). -/
def State.withFetchWord (s : State) (nbits w : Nat) : State :=
  match Sys2Proof.decodeTableWord nbits w with
  | some c => { s with pending := c :: s.pending }
  | none => s

end Sys2Proof.Machine
end

