-- ==== Sys2Proof/Safety.lean ====
section
/-! DEFINITION. What a sound state and a safe run are, in the terms the statements use. -/

namespace Sys2Proof.Machine

/-- FAULT_CODE.VALID stands on every page one of whose masters is frozen (R47, R50); no master reports on a function page (339 on). -/
def State.faultsRecorded (s : State) : Bool := s.frozen.all (fun z => decide (339 ≤ z.page) || (getHdr s z.page).faultValid)

/-- No master is listed as frozen twice (R47). -/
def State.frozenOnce (s : State) : Bool := decide ((s.frozen.map (fun z => (z.kind, z.master))).Nodup)

/-- Stack memory and its record of keys are in canonical form. -/
def State.memSound (s : State) : Bool := Memory.wf s.mem && tblWf 0 s.memKey

/-- The frozen masters are sound (R47, R50): none is listed twice, the page of each shows a recorded fault, none is a master of the DP
page (it has none), and the page headers are in canonical form. -/
def State.frozenSound (s : State) : Bool :=
  s.frozenOnce && s.faultsRecorded && s.frozen.all (fun z => z.page != pgDp) && tblWf {} s.hdrs

/-- The instruction word `w` is core `c`'s next one and issues now (R225, R227): it stands at PC of a core that executes, is not frozen,
not clearing and not stalled; it is a legal word, and no remote read that it must await is outstanding. -/
def ready (s : State) (c : BitVec 8) (w : BitVec 64) : Prop :=
  canIssue s c.toNat w = true ∧ wordIllegal w = false ∧ netHazard (getCore s c.toNat) w = false

/-- A step is safe when it stops for no reason. -/
def safeStep (s : State) : Prop := ∃ t, step s = .next t

/-- The commands waiting, after a step: the front one is gone (the block's queue is first in, first out). -/
def State.rest (s : State) : List Instr := s.pending.tail

end Sys2Proof.Machine
end

