-- ==== Sys2Proof/Certificates/Slice0/Obligations.lean ====
section
/-! DEFINITION. The statements about the model, each a proposition that the spec's rules support. -/

open Sys2Proof Sys2Proof.Machine

/-- A step runs the command at the front of the queue on the state with the queue's rest. For every command c, every queue rest and
every state s: step of s with c at the front of its queue is exec of c on s with the queue's rest. (R1) -/
def Obligations.StepRunsFront : Prop :=
  ∀ (c : Instr) (rest : List Instr) (s : State), step { s with pending := c :: rest } = exec c { s with pending := rest }

/-- With no command waiting a step lets one DCLK cycle pass. The model's choice for a step on an empty queue (log entry 2): the clock
advances by one cycle of DCLK; while main power is present and the PLL is locked, RTB counts once in 16 cycles, and otherwise it
stands still. Where nothing is under way that a cycle moves on (no ring transfer, no sump record lost to a poisoned word, no
arrival or block closing in a correction core, no beat, no job or stream that waits, no lost reference of the headframe), stack
memory, owners, streams, the key engine, the record store, the page headers, the frozen masters and the queue are as before. (R621,
R622) -/
def Obligations.EmptyQueueTicks : Prop :=
  ∀ s : State, s.pending = [] →
    ∃ t, step s = .next t ∧ t.clock = s.clock + 1 ∧ t.pending = [] ∧
      t.power.rtb = (if mainPower s = true ∧ s.power.pllLocked = true ∧ (s.clock + 1 + s.power.rtbPhase) % 16 = 0
        then s.power.rtb + 1 else s.power.rtb) ∧
      (s.ri.sending = [] → s.ri.retime = [] → s.ms.lost = [] → (∀ e ∈ s.cores, e.2.arriving = [] ∧ e.2.closing = []) → s.sq.live = none →
        (∀ j ∈ s.jobs, j.phase ≠ 0) → tblWf none s.streams = true → (∀ j x, getStream s j = some x → x.state ≠ 8) →
        s.power.refLostHf = false →
        t.mem = s.mem ∧ t.memKey = s.memKey ∧ t.owners = s.owners ∧ t.streams = s.streams ∧ t.ke = s.ke ∧ t.store = s.store ∧
        t.hdrs = s.hdrs ∧ t.frozen = s.frozen)

/-- Every command answers a next state in every state. No command faults or is refused: for every command c and every state s, exec of
c on s answers a next state. (R1, R47) -/
def Obligations.NoCommandStops : Prop :=
  ∀ (c : Instr) (s : State), ∃ t, exec c s = .next t

/-- A step takes exactly the front command off the queue: no command adds, drops or reorders waiting commands. In every state, whatever
command stands at the front, the queue after a step is the queue before it without its front command (empty stays empty). (R1) -/
def Obligations.StepTakesTheFrontCommand : Prop :=
  ∀ s t : State, step s = .next t → t.pending = s.pending.tail

/-- Every step keeps stack memory and its record of keys in canonical form. If the list of stack-memory bytes and the list of the keys
of its 64-byte words are in canonical form (addresses strictly rising, no entry equal to what an unlisted address reads as), they
are so after any step. (R375, R380, R389) -/
def Obligations.MemoryStaysCanonical : Prop :=
  ∀ s t : State, s.memSound = true → step s = .next t → t.memSound = true

/-- Every step keeps the record of frozen masters sound. If no master is listed as frozen twice, FAULT_CODE.VALID stands on the page of
each (function pages, which none reports on, apart), none is a master of the DP page and the headers are in canonical form, then
this is so after any step: no command clears a page's violation record while a master of it stays frozen, and none freezes a master
twice. (R47, R48, R50) -/
def Obligations.FrozenMastersStaySound : Prop :=
  ∀ s t : State, s.frozenSound = true → step s = .next t → t.frozenSound = true

/-- The state after reset is sound: nothing waits, nothing is frozen, memory lists nothing, MAIN_ON. At reset the queue is empty,
memory and the frozen masters are sound and empty, the power state is MAIN_ON with the clock and RTB at 0, no plan set is admitted,
no owner and no stream exist, and nothing has left the block. (R47, R389, R515, R621, R622, R630) -/
def Obligations.ResetIsSound : Prop :=
  State.reset.pending = [] ∧ State.reset.memSound = true ∧ State.reset.frozenSound = true ∧ State.reset.frozen = [] ∧
    State.reset.mem = [] ∧ State.reset.power.state = .mainOn ∧ State.reset.clock = 0 ∧ State.reset.power.rtb = 0 ∧
    planAdmitted State.reset = false ∧ State.reset.owners = [] ∧ State.reset.streams = [] ∧ State.reset.out = []

/-- A core instruction that is not the core's next one does nothing; an illegal next word freezes the core with 0x20. For an
instruction word w and any effect: nothing happens unless w stands at PC of a core that executes, is not frozen, not clearing and
not stalled; an illegal word there freezes the core with fault 0x20 and the word as FAULT address; a word that must await a remote
read stalls; otherwise the effect takes place. The command CC_ILLEGAL does exactly the freeze. (R225, R227, R256) -/
def Obligations.CoreIssueRule : Prop :=
  ∀ (s : State) (c : Nat) (core : BitVec 8) (w : BitVec 64) (f : State → State),
    (canIssue s c w = false → issue s c w f = s) ∧
    (canIssue s c w = true → wordIllegal w = true → issue s c w f = freezeCore s c 0x20 w.toNat) ∧
    (canIssue s c w = true → wordIllegal w = false → netHazard (getCore s c) w = true → issue s c w f = stall s c .net) ∧
    (canIssue s c w = true → wordIllegal w = false → netHazard (getCore s c) w = false → issue s c w f = f s) ∧
    (canIssue s core.toNat w = true → wordIllegal w = true →
      exec (.ccIllegal core w) s = .next (freezeCore s core.toNat 0x20 w.toNat)) ∧
    (wordIllegal w = false → exec (.ccIllegal core w) s = .next s)

/-- An instruction that took effect moves PC to the next index; falling through 8,191 freezes the core with 0x21. After its effect f on
its core, an instruction that is neither END nor a taken branch adds 1 to PC; at PC 8,191 the effect stands, PC stays and the core
freezes with fault 0x21 and FAULT address 8,192. (R231, R256) -/
def Obligations.CoreAdvance : Prop :=
  ∀ (s : State) (c : Nat) (f : Core → Core),
    retire s c f = (if (getCore (modCore s c f) c).pc = 8191 then freezeCore (modCore s c f) c 0x21 8192
      else modCore (modCore s c f) c (fun k => { k with pc := k.pc + 1 }))

/-- Changing one core changes that core alone; s0 reads as 0 and any other scalar register as last written. In a state whose table of
cores is canonical, changing core c by f makes its record f of what it was, leaves every other core, keeps the table canonical, and
leaves every other piece of state as before. A read of scalar register 0 gives 0 and a write to it changes nothing; writing
register n from 1 on changes that register alone, in a core whose register table is canonical. (R221, R229) -/
def Obligations.CoreRecordAndScalarRegisters : Prop :=
  (∀ (s : State) (c : Nat) (f : Core → Core), tblWf {} s.cores = true →
     getCore (modCore s c f) c = f (getCore s c) ∧ (∀ d, d ≠ c → getCore (modCore s c f) d = getCore s d) ∧
     tblWf {} (modCore s c f).cores = true ∧ { modCore s c f with cores := s.cores } = s) ∧
  (∀ (k : Core) (n : Nat) (v : BitVec 64),
     k.s 0 = 0 ∧ k.setS 0 v = k ∧
     (tblWf 0 k.sregs = true → n ≠ 0 → (k.setS n v).s n = v ∧ ∀ m, m ≠ n → (k.setS n v).s m = k.s m) ∧
     { k.setS n v with sregs := k.sregs } = k)

/-- The scalar arithmetic, logic, comparison and shift instructions, on registers and with an immediate, and the lane moves. When its
word is the core's next and legal, each of ADD, SUB, AND, OR, XOR, SHL, SHR, SRA, MUL, MIN, MAX, SLT, SLTU and SEQ writes its
stated function of sA and sB into sD and goes on to the next instruction; nothing else of the machine changes (a shift count is
sB[5:0]; comparisons give 1 or 0). When its word is the core's next and legal: ADDI adds IMM sign-extended to sA; LI loads IMM
sign-extended; LIH puts IMM over the high half of sD; SHLI, SHRI and SRAI shift sA by IMM[5:0]; VEXT puts lane IMM[5:0] of vA
zero-extended into sD; VINS puts sA[31:0] into lane IMM[5:0] of vD. Each of these retires: PC moves to the next index, or at 8,191
the core freezes, as CoreAdvance states; nothing else changes. (R238) -/
def Obligations.ScalarInstructions : Prop :=
  (∀ (s : State) (c : BitVec 8) (d a b : BitVec 5),
     let k := getCore s c.toNat
     let x := k.s a.toNat
     let y := k.s b.toNat
     let on := fun (op : Nat) (i : Instr) (v : BitVec 64) =>
       ready s c (mkWord op d a b 0 0 0) → exec i s = .next (retire s c.toNat (fun k => k.setS d.toNat v))
     on 0x20 (.ccAdd c d a b) (x + y) ∧ on 0x21 (.ccSub c d a b) (x - y) ∧ on 0x22 (.ccAnd c d a b) (x &&& y) ∧
     on 0x23 (.ccOr c d a b) (x ||| y) ∧ on 0x24 (.ccXor c d a b) (x ^^^ y) ∧
     on 0x25 (.ccShl c d a b) (x <<< (y.toNat % 64)) ∧ on 0x26 (.ccShr c d a b) (x >>> (y.toNat % 64)) ∧
     on 0x27 (.ccSra c d a b) (x.sshiftRight (y.toNat % 64)) ∧ on 0x28 (.ccMul c d a b) (x * y) ∧
     on 0x29 (.ccMin c d a b) (if x.toInt < y.toInt then x else y) ∧
     on 0x2A (.ccMax c d a b) (if x.toInt < y.toInt then y else x) ∧
     on 0x2B (.ccSlt c d a b) (if x.toInt < y.toInt then 1 else 0) ∧
     on 0x2C (.ccSltu c d a b) (if x.toNat < y.toNat then 1 else 0) ∧
     on 0x2D (.ccSeq c d a b) (if x = y then 1 else 0)) ∧
  (∀ (s : State) (c : BitVec 8) (d a : BitVec 5) (imm : BitVec 32),
     let k := getCore s c.toNat
     let x := k.s a.toNat
     let on := fun (op : Nat) (a : BitVec 5) (i : Instr) (f : Core → Core) =>
       ready s c (mkWord op d a 0 0 0 imm) → exec i s = .next (retire s c.toNat f)
     on 0x30 a (.ccAddi c d a imm) (fun k => k.setS d.toNat (x + imm.signExtend 64)) ∧
     on 0x31 0 (.ccLi c d imm) (fun k => k.setS d.toNat (imm.signExtend 64)) ∧
     on 0x32 0 (.ccLih c d imm) (fun k' => k'.setS d.toNat (imm ++ (k.s d.toNat).setWidth 32)) ∧
     on 0x33 a (.ccShli c d a imm) (fun k => k.setS d.toNat (x <<< (imm.toNat % 64))) ∧
     on 0x34 a (.ccShri c d a imm) (fun k => k.setS d.toNat (x >>> (imm.toNat % 64))) ∧
     on 0x35 a (.ccSrai c d a imm) (fun k => k.setS d.toNat (x.sshiftRight (imm.toNat % 64))) ∧
     on 0x38 a (.ccVext c d a imm) (fun k' => k'.setS d.toNat ((tblGet 0 k.vregs (64 * a.toNat + imm.toNat % 64)).setWidth 64)) ∧
     on 0x39 a (.ccVins c d a imm) (fun k' =>
       { k' with vregs := tblSet 0 k'.vregs (64 * d.toNat + imm.toNat % 64) (x.setWidth 32) }))

/-- The branches, and NOP, FSCLR, FENCE, WAITT, WAITC and POST: what each waits for and does. When its word is the core's next and
legal and IMM is at most 8,191, BR sets PC to IMM; BEQ, BNE, BLT, BGE (signed), BLTU and BGEU (unsigned) set PC to IMM if the
comparison of sA and sB holds and otherwise go on to the next instruction; with IMM above 8,191 each freezes the core with fault
0x21 and IMM as FAULT address, taken or not. When its word is the core's next and legal: NOP only goes on; FSCLR clears fs; FENCE
goes on once the core has no posted remote write outstanding, and else stalls; WAITT goes on once the beat's tick is at least sA +
IMM, and else stalls until that tick (with no beat the tick is a free value, log entry 27); WAITC on a valid slot goes on if the
slot is FULL or its COUNT has reached a count that is not 0, and else stalls on the slot; POST of an entry of the launch's post
table that is not yet posted waits as FENCE does, then marks it posted with the cycle. (R206, R228, R231, R233, R234) -/
def Obligations.BranchAndWaitInstructions : Prop :=
  (∀ (s : State) (c : BitVec 8) (a b : BitVec 5) (imm : BitVec 32),
     let x := (getCore s c.toNat).s a.toNat
     let y := (getCore s c.toNat).s b.toNat
     let jump := modCore s c.toNat (fun k => { k with pc := imm.toNat })
     let on := fun (op : Nat) (i : Instr) (taken : Prop) =>
       ready s c (mkWord op 0 a b 0 0 imm) →
         (8191 < imm.toNat → exec i s = .next (freezeCore s c.toNat 0x21 imm.toNat)) ∧
         (imm.toNat ≤ 8191 → (taken → exec i s = .next jump) ∧ (¬ taken → exec i s = .next (advance s c.toNat)))
     (ready s c (mkWord 0x02 0 0 0 0 0 imm) →
       (8191 < imm.toNat → exec (.ccBr c imm) s = .next (freezeCore s c.toNat 0x21 imm.toNat)) ∧
       (imm.toNat ≤ 8191 → exec (.ccBr c imm) s = .next jump)) ∧
     on 0x03 (.ccBeq c a b imm) (x = y) ∧ on 0x04 (.ccBne c a b imm) (x ≠ y) ∧
     on 0x05 (.ccBlt c a b imm) (x.toInt < y.toInt) ∧ on 0x06 (.ccBge c a b imm) (y.toInt ≤ x.toInt) ∧
     on 0x07 (.ccBltu c a b imm) (x.toNat < y.toNat) ∧ on 0x08 (.ccBgeu c a b imm) (y.toNat ≤ x.toNat)) ∧
  (∀ (s : State) (c : BitVec 8) (a : BitVec 5) (imm : BitVec 32),
     let n := c.toNat
     let k := getCore s n
     (ready s c (mkWord 0x00 0 0 0 0 0 0) → exec (.ccNop c) s = .next (advance s n)) ∧
     (ready s c (mkWord 0x0E 0 0 0 0 0 0) →
       exec (.ccFsclr c) s = .next (retire s n (fun k => { k with nv := false, inf := false, ncv := false }))) ∧
     (ready s c (mkWord 0x09 0 0 0 0 0 0) →
       exec (.ccFence c) s = .next (if k.posted = [] then advance s n else stall s n .fence)) ∧
     (ready s c (mkWord 0x0A 0 a 0 0 0 imm) →
       let target := (k.s a.toNat + imm.signExtend 64).toNat
       exec (.ccWaitt c a imm) s = .next (if target ≤ (beatCycle s).1 / 2 then advance (beatCycle s).2 n
         else stall (beatCycle s).2 n (.tick target))) ∧
     (ready s c (mkWord 0x0B 0 0 0 0 0 imm) →
       let d := k.slot (imm.toNat % 128)
       let count := imm.toNat / 65536
       d.valid = true →
         exec (.ccWaitc c imm) s = .next (if d.full = true ∨ d.filling = true ∨ (count ≠ 0 ∧ count ≤ d.count) then advance s n
           else stall s n (.slot (imm.toNat % 128)))) ∧
     (ready s c (mkWord 0x0C 0 0 0 0 0 imm) → ∀ l, s.sq.live = some l →
       let e := imm.toNat % 1024
       e < (launchOf s n).posts.length → l.posted.any (fun p => p.1 == k.current && p.2.1 == e) = false →
         exec (.ccPost c imm) s = .next (if k.posted = []
           then advance { s with sq := { s.sq with live := some { l with posted := (k.current, e, l.cycle) :: l.posted } } } n
           else stall s n .fence)))

/-- SGET loads a special value; RSC, NWCHK and RAND: the rescaled pair, the norm-watch comparison, the next draw words. When its word
is the core's next and legal, SGET writes into sD: IMM 0 the core's number, 1 its group, 2 and 3 the beat's tick and DCLK cycle, 4
the beat count, 5 the replay index, 6 fs, 7 the launch, 8 the owner of the core's page or 0 while the page names none, 9 RTB; it
goes on to the next instruction. With no beat, tick, cycle and replay index are free values (log entry 27). When its word is the
core's next and legal: RSC of a tag that an operation of the plan has (the one of the beat's template, if that has one) returns sA
unchanged if the operation is not rescaled or the replay index is 0; NWCHK of a watch that is declared for the layer on this core
and not yet made in this execution for the vector puts 1 into sD on a jump and 0 otherwise and hands layer, vector, result and
value to the replay decision; RAND of a stream with 64 words left in its draw buffer loads them and advances the draw position by
64; each goes on to the next instruction. RSC of a tag that no operation of the plan has is fault 0x2B, a watch not declared or
made twice fault 0x2A, a RAND with fewer than 64 words or with no beat fault 0x29. (R145, R231, R232, R235, R236, R237, R325) -/
def Obligations.SpecialValuesReplayAndDraw : Prop :=
  (∀ (s : State) (c : BitVec 8) (d : BitVec 5) (sel : Nat) (v : Nat) (t : State),
     let n := c.toNat
     let k := getCore s n
     (sel, v, t) ∈ [(0, n, s), (1, n / 4, s), (2, (beatCycle s).1 / 2, (beatCycle s).2), (3, (beatCycle s).1, (beatCycle s).2),
       (4, s.sq.beatCount.toNat, s), (5, (beatRho s).1, (beatRho s).2),
       (6, (if k.nv then 1 else 0) + (if k.inf then 2 else 0) + (if k.ncv then 4 else 0), s), (7, k.current, s),
       (8, if (getHdr s (83 + n)).ownerValid then (getHdr s (83 + n)).ownerId else 0, s), (9, s.power.rtb.toNat, s)] →
     ready s c (mkWord 0x0D d 0 0 0 0 (BitVec.ofNat 32 sel)) →
       exec (.ccSget c d (BitVec.ofNat 32 sel)) s = .next (retire t n (fun k => k.setS d.toNat (BitVec.ofNat 64 v)))) ∧
  (∀ (s : State) (c : BitVec 8) (d a : BitVec 5) (imm : BitVec 32),
     let n := c.toNat
     let k := getCore s n
     let tag := imm.toNat % 65536
     let layer := imm.toNat % 4096
     let vec := imm.toNat / 65536 % 256
     let stream := (k.s a.toNat).toNat % 65536
     let tagged := (ownRec s).ops.filter (fun o => o.tag == tag)
     let named := match tagged.find? (fun o => some o.template == s.sq.live.map (·.template)) with
       | some o => some o
       | none => tagged.head?
     let words := (tblGet [] s.sq.draws stream).drop (tblGet 0 s.sq.drawPos stream)
     (ready s c (mkWord 0x10 d a 0 0 0 imm) →
       (named = none → exec (.ccRsc c d a imm) s = .next (freezeCore s n 0x2B tag)) ∧
       (∀ o l, named = some o → s.sq.live = some l → o.rescale = false ∨ l.rho = 0 →
         exec (.ccRsc c d a imm) s = .next (retire s n (fun k => k.setS d.toNat (k.s a.toNat))))) ∧
     (ready s c (mkWord 0x11 d a 0 0 0 imm) →
       (∀ l x, s.sq.live = some l → (liveTemplate s).watches.find? (fun x => x.layer == layer && x.core == n) = some x →
         (l.nwQ.any (fun e => e.1 == layer && e.2.1 == vec) = false →
           let jump := isJump ((k.s a.toNat).setWidth 32) x.kappa (tblGet 0 l.muStart layer)
           exec (.ccNwchk c d a imm) s =
             .next (retire (modLive s (fun l => { l with nwQ := l.nwQ ++ [(layer, vec, jump, (k.s a.toNat).setWidth 32)] })) n
               (fun k => k.setS d.toNat (if jump then 1 else 0)))) ∧
         (l.nwQ.any (fun e => e.1 == layer && e.2.1 == vec) = true →
           exec (.ccNwchk c d a imm) s = .next (freezeCore s n 0x2A (vec * 65536 + layer)))) ∧
       ((liveTemplate s).watches.find? (fun x => x.layer == layer && x.core == n) = none →
         exec (.ccNwchk c d a imm) s = .next (freezeCore s n 0x2A (vec * 65536 + layer)))) ∧
     (ready s c (mkWord 0x12 d a 0 0 0 0) →
       (s.sq.live.isSome = true → 64 ≤ words.length →
         exec (.ccRand c d a) s =
           .next (retire { s with sq := { s.sq with
             drawPos := tblSet 0 s.sq.drawPos stream (tblGet 0 s.sq.drawPos stream + 64) } } n
               (fun k => k.setV d.toNat (words.take 64)))) ∧
       (s.sq.live = none ∨ words.length < 64 → exec (.ccRand c d a) s = .next (freezeCore s n 0x29 stream))))

/-- How a core's execution begins and ends: END, CC_LAUNCH, LAUNCH_START, WAITT and FENCE releases, CORE_CLEAR_DONE. END with no launch
waiting makes the core idle, and a watched launch with fs.NV or fs.INF set marks the beat's result as non-finite. A PF0 write of
CC_LAUNCH with START, from power state FW_LOADED on and not in WATCHDOG, on an idle, enabled, unfrozen core that is not in reset,
with no plan admitted, starts execution at ENTRY with fs 0, an empty slot table and the scalar registers as they were; no other
core and nothing outside the cores changes. LAUNCH_START of a launch of the executing beat at its START tick, not yet started, on
an enabled, unfrozen core that is not in reset and has not been cleared in this beat, begins it on an idle core (with its
descriptors defined, if none clashes, PC at ENTRY and fs 0) and puts it behind the core's launches otherwise. WAITT_RELEASE moves
on a core whose WAITT has reached its tick, FENCE_COMPLETE one whose FENCE has no remote write outstanding; CORE_CLEAR_DONE ends a
core's reset once its time is over. (R213, R215, R218, R222, R231, R233, R254, R273) -/
def Obligations.LaunchesBeginAndEnd : Prop :=
  ∀ (s : State) (c : BitVec 8),
    let n := c.toNat
    let k := getCore s n
    (ready s c (mkWord 0x01 0 0 0 0 0 0) → k.launchWait = [] →
      exec (.ccEnd c) s = .next (modCore
        (if k.watched = true ∧ (k.nv = true ∨ k.inf = true) then modLive s (fun l => { l with nonFinite := true }) else s) n
        (fun k => { k with active := false, current := 0xFFFF, watched := false, wait := none, launchWait := k.launchWait.tail }))) ∧
    (∀ (port : Bool) (value : BitVec 32), mayWrite s (.pf0 port) (83 + n) = true → value.toNat.testBit 31 = true →
      4 ≤ s.power.state.code → s.cx.state ≠ 5 → planAdmitted s = false → coreFrozen s n = false → k.inReset = false → k.active = false →
      ccEnabled s n = true →
      ∃ t, exec (.ccLaunchStart (.pf0 port) c value) s = .next t ∧
        { t with cores := s.cores } = s ∧ (tblWf {} s.cores = true →
          (∀ d, d ≠ n → getCore t d = getCore s d) ∧ (getCore t n).active = true ∧ (getCore t n).fs = 0 ∧
          (getCore t n).pc = value.toNat / 65536 % 8192 ∧ (getCore t n).entry = value.toNat / 65536 % 8192 ∧
          (getCore t n).slots = [] ∧ (getCore t n).sregs = k.sregs)) ∧
    (∀ (launch : BitVec 16) (l : Launch) (b : Live), s.sq.live = some b → (liveTemplate s).launches[launch.toNat]? = some l →
      b.cycle / 2 = l.start → b.done.contains (1, launch.toNat) = false → coreFrozen s l.core = false →
      (getCore s l.core).inReset = false → (getCore s l.core).sitOut = false → ccEnabled s l.core = true →
      let u := { s with sq := { s.sq with live := some { b with done := (1, launch.toNat) :: b.done } } }
      ((getCore s l.core).active = false → exec (.launchStart launch) s = .next (beginLaunch u launch.toNat l) ∧
        ∀ k, defineAll (getCore s l.core) l.descs = .ok k →
          beginLaunch u launch.toNat l = startCore (modCore u l.core (fun _ => k)) l.core l.entry launch.toNat l.watched) ∧
      ((getCore s l.core).active = true → exec (.launchStart launch) s =
        .next (modCore u l.core (fun k => { k with launchWait := k.launchWait ++ [launch.toNat] })))) ∧
    (∀ (t : Nat) (b : Live), k.wait = some (.tick t) → coreFrozen s n = false → s.sq.live = some b → t ≤ b.cycle / 2 →
      exec (.waittRelease c) s = .next (advance (modCore s n (fun k => { k with wait := none })) n)) ∧
    (k.wait = some .fence → k.posted = [] → coreFrozen s n = false → wOp k.word = 0x09 → tblWf {} s.cores = true →
      exec (.fenceComplete c) s = .next (advance (modCore s n (fun k => { k with wait := none })) n)) ∧
    (k.inReset = true → k.clearEnd ≤ s.clock →
      exec (.coreClearDone c) s = .next (modCore s n (fun k => { k with inReset := false, clearEnd := 0 })))

/-- What an access of one scratchpad row may do: range, slot state, checked and unchecked loads, stores. For a span of n bytes at
offset a that lies in one 64-byte row: beyond the scratchpad every access is fault 0x14; a row that no valid slot covers is loaded
unchecked and stored to freely, while a checked load of it is fault 0x13; a row of a FULL slot is loaded freely and a store to it
is fault 0x11; a row of an EMPTY slot is stored to freely, an unchecked load of it is fault 0x12 and a checked one waits for the
slot. A slot that SLOT.FILL has filled in this cycle counts as FULL for its own core. Each fault carries its detail word for
CC_SLOT_FAULT. (R200, R204, R207, R208, R220, R230, R256) -/
def Obligations.ScratchpadAccessRules : Prop :=
  ∀ (k : Core) (c a n : Nat), 0 < n → a % 64 + n ≤ 64 →
    (0x60000 < a + n → loadAccess k c [(a, n)] false = .bad 0x14 a (slotDetail c 0xFF 0xF 1) ∧
      loadAccess k c [(a, n)] true = .bad 0x14 a (slotDetail c 0xFF 0xF 2) ∧
      storeAccess k c [(a, n)] = .bad 0x14 a (slotDetail c 0xFF 0xF 3)) ∧
    (a + n ≤ 0x60000 →
      (k.slotAt (a / 64) = none → loadAccess k c [(a, n)] false = .go ∧
        loadAccess k c [(a, n)] true = .bad 0x13 a (slotDetail c 0xFF 0xF 2) ∧ storeAccess k c [(a, n)] = .go) ∧
      (∀ i d, k.slotAt (a / 64) = some (i, d) →
        (d.full = true ∨ d.filling = true → loadAccess k c [(a, n)] false = .go ∧ loadAccess k c [(a, n)] true = .go ∧
          storeAccess k c [(a, n)] = .bad 0x11 a (slotDetail c i 1 3)) ∧
        (d.full = false ∧ d.filling = false → loadAccess k c [(a, n)] false = .bad 0x12 a (slotDetail c i 0 1) ∧
          loadAccess k c [(a, n)] true = .hold i ∧ storeAccess k c [(a, n)] = .go)))

/-- LD and ST move 1, 2, 4 or 8 bytes between a scalar register and the scratchpad; RSTV and RLDV go out to another core. When its word
is the core's next and legal: LD of 2^M[1:0] bytes at sA + IMM loads them, zero- or sign-extended by M[2], through the errors the
read meets; ST stores the low bytes of sB there and nowhere else; a misaligned address is fault 0x22. RSTV of 64 x 2^M bytes posts
one packet of each 64-byte row to the core sC; RLDV leaves a read outstanding for vD, behind the packets it has posted to that
core; an address that is not a multiple of 64 is fault 0x22. Each that passes its checks goes on to the next instruction. (R201,
R210, R229, R238, R239, R241, R256) -/
def Obligations.ScalarMemoryInstructions : Prop :=
  ∀ (s : State) (c : BitVec 8) (d a b : BitVec 5) (m : BitVec 4) (imm : BitVec 32) (ecc : List (Nat × Bool)),
    let n := c.toNat
    let k := getCore s n
    let size := 2 ^ (m.toNat % 4)
    let at_ := (k.s a.toNat + imm.signExtend 64).toNat
    let far := 64 * 2 ^ m.toNat
    let dst := (k.s d.toNat).toNat
    (ready s c (mkWord 0x40 d a 0 0 m imm) →
      (at_ % size ≠ 0 → exec (.ccLd c d a m imm ecc) s = .next (freezeCore s n 0x22 at_)) ∧
      (at_ % size = 0 → loadAccess k n [(at_, size)] (m.toNat.testBit 3) = .go →
        exec (.ccLd c d a m imm ecc) s = .next (scratchEcc (retire s n (fun k => k.setS d.toNat
          (if m.toNat.testBit 2 then BitVec.ofInt 64 (signed (8 * size) (ofLe (k.read at_ size ecc)))
            else BitVec.ofNat 64 (ofLe (k.read at_ size ecc))))) n [(at_, size)] ecc))) ∧
    (ready s c (mkWord 0x41 0 a b 0 m imm) →
      (at_ % size ≠ 0 → exec (.ccSt c a b m imm) s = .next (freezeCore s n 0x22 at_)) ∧
      (at_ % size = 0 → storeAccess k n [(at_, size)] = .go →
        exec (.ccSt c a b m imm) s = .next (retire s n (fun k => k.store at_ (leBytes size (k.s b.toNat).toNat))))) ∧
    (ready s c (mkWord 0x44 0 a b d m imm) →
      (at_ % 64 ≠ 0 → exec (.ccRstv c a b d m imm) s = .next (freezeCore s n 0x22 at_)) ∧
      (remoteFault s n at_ far 4 (k.s d.toNat) = none →
        exec (.ccRstv c a b d m imm) s = .next (retire s n (fun k => { k with
          posted := k.posted ++ (upTo (2 ^ m.toNat)).map (fun i =>
            (dst, at_ + 64 * i, ((imageOf (k.vec b.toNat)).drop (64 * i)).take 64)) })))) ∧
    (ready s c (mkWord 0x45 b a 0 d m imm) →
      (at_ % 64 ≠ 0 → exec (.ccRldv c b a d m imm) s = .next (freezeCore s n 0x22 at_)) ∧
      (remoteFault s n at_ far 6 (k.s d.toNat) = none →
        exec (.ccRldv c b a d m imm) s = .next (retire s n (fun k => { k with
          remoteReads := k.remoteReads ++ [(b.toNat, dst, at_, far, (k.posted.filter (fun p => p.1 == dst)).length)] }))))

/-- When a remote access may leave its core, and which fault stops it otherwise. For an access of n bytes at offset a of core number t:
it may go out exactly if a is a multiple of 64, the bytes lie in the scratchpad, t is at most 255, that core's page is enabled, and
its page names no owner or the owner of the issuing core's page. (R200, R211, R230, R241, R256) -/
def Obligations.RemoteAccessChecks : Prop :=
  ∀ (s : State) (c a n how : Nat) (t : BitVec 64),
    remoteFault s c a n how t = none ↔
      (a % 64 = 0 ∧ a + n ≤ 0x60000 ∧ t.toNat ≤ 255 ∧ ccEnabled s t.toNat = true ∧
        ((getHdr s (83 + t.toNat)).ownerValid = true → (getHdr s (83 + t.toNat)).ownerId = pageOwnerId s (83 + c)))

/-- SLOT.DEF, SLOT.DRAIN, SLOT.FILL, SLOT.FREE and SLOT.STAT on the slot table of their core. When its word is the core's next and
legal: SLOT.DEF of a descriptor with an allowed shape that overlaps no other valid one defines it with COUNT 0 and EMPTY, and
otherwise is fault 0x25; on a valid descriptor SLOT.DRAIN makes it EMPTY with COUNT 0, SLOT.FILL makes it FULL at the end of the
cycle and keeps COUNT, SLOT.FREE clears VALID, and on one that is not valid each is fault 0x25; SLOT.STAT returns COUNT, FULL in
bit 16 and VALID in bit 17, or 0 for one that is not valid. The allowed shapes: 2^6 to 2^16 bytes, TARGET not 0, base a multiple of
the size up to 4,096, inside the scratchpad. (R204, R206, R239, R240, R256) -/
def Obligations.SlotInstructions : Prop :=
  ∀ (s : State) (c : BitVec 8) (d a : BitVec 5) (imm : BitVec 32),
    let n := c.toNat
    let k := getCore s n
    let i := imm.toNat % 128
    let e := imm.toNat / 256 % 16 + 6
    let target := imm.toNat / 65536
    let base := (k.s a.toNat).toNat
    let fits := 6 ≤ e ∧ e ≤ 16 ∧ target ≠ 0 ∧ base % min (2 ^ e) 4096 = 0 ∧ base + 2 ^ e ≤ 0x60000 ∧
      ∀ x ∈ k.slots, x.1 ≠ i → x.2.valid = true → x.2.base + x.2.size ≤ base ∨ base + 2 ^ e ≤ x.2.base
    let one := fun (op : Nat) (x : Instr) (f : SlotDesc → SlotDesc) => ready s c (mkWord op 0 0 0 0 0 imm) →
      ((k.slot i).valid = true → exec x s = .next (retire s n (fun k => { k with slots := tblMod {} k.slots i f }))) ∧
      ((k.slot i).valid = false → exec x s = .next (freezeCore s n 0x25 (i * 2 ^ 32 + (k.slot i).base % 2 ^ 32)))
    (ready s c (mkWord 0x48 0 a 0 0 0 imm) →
      (fits → exec (.ccSlotDef c a imm) s = .next (retire s n (fun k => { k with
        slots := tblSet {} k.slots i { valid := true, base := base, size := 2 ^ e, target := target, count := 0, full := false }
        pendingArr := k.pendingArr.filter (· != i) }))) ∧
      (¬ fits → exec (.ccSlotDef c a imm) s = .next (freezeCore s n 0x25 (i * 2 ^ 32 + base % 2 ^ 32)))) ∧
    one 0x49 (.ccSlotDrain c imm) (fun x => { x with full := false, filling := false, count := 0 }) ∧
    one 0x4A (.ccSlotFill c imm) (fun x => { x with filling := !x.full }) ∧
    one 0x4B (.ccSlotFree c imm) (fun x => { x with valid := false }) ∧
    (ready s c (mkWord 0x4C d 0 0 0 0 imm) → exec (.ccSlotStat c d imm) s = .next (retire s n (fun k' => k'.setS d.toNat
      (if (k.slot i).valid then BitVec.ofNat 64 ((k.slot i).count + (if (k.slot i).full || (k.slot i).filling then 65536 else 0) + 131072) else 0))))

/-- VLD, VLDS, VLDT, VGATH, VST and VSTS move 64 elements, or a block, between vector registers and the scratchpad. When its word is
the core's next and legal, its addresses are aligned to its format's elements, its stride is a non-zero multiple of the element (of
64 for VLDT), and its rows may be accessed: VLD widens the contiguous elements at sA + IMM into vD; VLDS the elements at that
address plus 64 strides sB; VGATH the elements at that address plus each lane of vB; VLDT 32 rows of 32 elements at strides sB,
transposed into the 16 registers from vD; VST narrows vB to its format and stores it contiguously, VSTS at strides sC, setting
fs.NCV if a conversion was invalid. A stride of 0 or off its multiple is fault 0x23. Each that passes its checks goes on to the
next instruction and changes nothing but its core. (R201, R202, R226, R229, R247, R248, R253) -/
def Obligations.VectorMemoryInstructions : Prop :=
  ∀ (s : State) (c : BitVec 8) (d a b : BitVec 5) (m : BitVec 4) (imm : BitVec 32) (ecc : List (Nat × Bool)),
    let n := c.toNat
    let k := getCore s n
    let f := m.toNat % 8
    let at_ := (k.s a.toNat + imm.signExtend 64).toNat
    let by_ := (k.s b.toNat).toNat
    let checked := m.toNat.testBit 3
    let each := fun (l : List Nat) => l.map (fun x => (x, elemSize f))
    let across := (upTo 64).map (fun i => (at_ + i * by_) % 2 ^ 64)
    let down := (upTo 32).map (fun i => (at_ + i * by_) % 2 ^ 64)
    let gather := (k.vec b.toNat).map (fun x => (at_ + x.toNat) % 2 ^ 64)
    let aligned := fun (l : List Nat) => ∀ x ∈ l, x % alignOf f = 0
    (ready s c (mkWord 0x80 d a 0 0 m imm) → aligned [at_] → loadAccess k n [(at_, vecBytes f)] checked = .go →
      exec (.ccVld c d a m imm ecc) s = .next (scratchEcc (retire s n (fun k =>
        k.setV d.toNat (widenVec f (k.read at_ (vecBytes f) ecc)))) n [(at_, vecBytes f)] ecc)) ∧
    (ready s c (mkWord 0x82 d a b 0 m imm) →
      (by_ = 0 ∨ by_ % elemSize f ≠ 0 → exec (.ccVlds c d a b m imm ecc) s = .next (freezeCore s n 0x23 by_)) ∧
      (by_ ≠ 0 → by_ % elemSize f = 0 → aligned across → loadAccess k n (each across) checked = .go →
        exec (.ccVlds c d a b m imm ecc) s = .next (scratchEcc (retire s n (fun k =>
          k.setV d.toNat (across.map (fun x => widen f (ofLe (k.read x (elemSize f) ecc)))))) n (each across) ecc))) ∧
    (ready s c (mkWord 0x85 d a b 0 m imm) → aligned gather → loadAccess k n (each gather) checked = .go →
      exec (.ccVgath c d a b m imm ecc) s = .next (scratchEcc (retire s n (fun k =>
        k.setV d.toNat (gather.map (fun x => widen f (ofLe (k.read x (elemSize f) ecc)))))) n (each gather) ecc)) ∧
    (ready s c (mkWord 0x84 d a b 0 m imm) →
      (by_ = 0 ∨ by_ % 64 ≠ 0 → exec (.ccVldt c d a b m imm ecc) s = .next (freezeCore s n 0x23 by_)) ∧
      (by_ ≠ 0 → by_ % 64 = 0 → aligned down → loadAccess k n (down.map (fun x => (x, 32 * elemSize f))) checked = .go →
        exec (.ccVldt c d a b m imm ecc) s = .next (scratchEcc (retire s n (fun k => (upTo 16).foldl (fun k' g =>
          k'.setV (d.toNat + g) ((upTo 64).map (fun i => widen f (leAt (k.read (down.getD (i % 32) 0) (32 * elemSize f) ecc)
            ((2 * g + i / 32) * elemSize f) (elemSize f))))) k)) n (down.map (fun x => (x, 32 * elemSize f))) ecc))) ∧
    (ready s c (mkWord 0x81 0 a b 0 m imm) →
      (at_ % alignOf f ≠ 0 → exec (.ccVst c a b m imm) s = .next (freezeCore s n 0x22 at_)) ∧
      (at_ % alignOf f = 0 → storeAccess k n [(at_, vecBytes f)] = .go →
        exec (.ccVst c a b m imm) s = .next (retire s n (fun k' => { k'.store at_ (narrowVec f (k.vec b.toNat)).1 with
          ncv := k'.ncv || (narrowVec f (k.vec b.toNat)).2 })))) ∧
    (ready s c (mkWord 0x83 0 a d b m imm) →
      (by_ = 0 ∨ by_ % elemSize f ≠ 0 → exec (.ccVsts c a d b m imm) s = .next (freezeCore s n 0x23 by_)) ∧
      (by_ ≠ 0 → by_ % elemSize f = 0 → (∀ x ∈ across, x % elemSize f = 0) → storeAccess k n (each across) = .go →
        let out := narrowVec f (k.vec d.toNat)
        exec (.ccVsts c a d b m imm) s = .next (retire s n (fun k' =>
          let k2 := (upTo 64).foldl (fun k' i => k'.store (across.getD i 0) ((out.1.drop (elemSize f * i)).take (elemSize f))) k'
          { k2 with ncv := k2.ncv || out.2 }))))

/-- The lane-wise vector instructions: 64 results into vD, fs.NV and fs.INF set for NaN and infinite results. When its word is the
core's next and legal: VADD, VSUB, VMUL, VMIN, VMAX and VDIV combine each lane of vA with the lane of vB, or with sB[31:0] when
M[0] = 1; VFMA multiplies by that operand and adds the lane of vC with one rounding; VABS, VNEG, VEXP, VRCP, VRSQ, VSQRT and VMOV
act on each lane of vA; VRND rounds each lane to format M[2:0] and widens it back; VBC copies sA[31:0] to every lane; VPERM takes
the lane of vA that vB[5:0] names; VSEL takes the lane of vA or of the operand B by the bits of sC. The 64 results go to vD, fs.NV
is set if one is a NaN and fs.INF if one is infinite, and the core goes on; nothing else changes. (R103, R197, R221, R226, R242,
R253) -/
def Obligations.VectorLaneInstructions : Prop :=
  ∀ (s : State) (c : BitVec 8) (d a b e : BitVec 5) (m : BitVec 4),
    let n := c.toNat
    let k := getCore s n
    let x := k.vec a.toNat
    let y := if m.toNat.testBit 0 then List.replicate 64 ((k.s b.toNat).setWidth 32) else k.vec b.toNat
    let done := fun (r : List Word32) => retire s n (fun k => { k with
      vregs := tblSetList 0 k.vregs (64 * d.toNat) r, nv := k.nv || r.any (fun v => (ofF32 v).isNan)
      inf := k.inf || r.any (fun v => (ofF32 v).isInf) })
    let three := fun (op : Nat) (i : Instr) (f : Word32 → Word32 → Word32) =>
      ready s c (mkWord op d a b 0 m 0) → exec i s = .next (done (List.zipWith f x y))
    let two := fun (op : Nat) (i : Instr) (f : Word32 → Word32) =>
      ready s c (mkWord op d a 0 0 0 0) → exec i s = .next (done (x.map f))
    three 0x60 (.ccVadd c d a b m) fAdd ∧ three 0x61 (.ccVsub c d a b m) fSub ∧ three 0x62 (.ccVmul c d a b m) fMul ∧
    three 0x64 (.ccVmin c d a b m) fMin ∧ three 0x65 (.ccVmax c d a b m) fMax ∧ three 0x6D (.ccVdiv c d a b m) fDiv ∧
    two 0x66 (.ccVabs c d a) (fun v => if (ofF32 v).isNan then nan32 else v &&& 0x7FFFFFFF) ∧
    two 0x67 (.ccVneg c d a) (fun v => if (ofF32 v).isNan then nan32 else v ^^^ 0x80000000) ∧
    two 0x6A (.ccVexp c d a) vExp ∧ two 0x6B (.ccVrcp c d a) vRcp ∧ two 0x6C (.ccVrsq c d a) vRsq ∧
    two 0x6E (.ccVsqrt c d a) fSqrt ∧ two 0x72 (.ccVmov c d a) id ∧
    (ready s c (mkWord 0x63 d a b e m 0) → exec (.ccVfma c d a b e m) s =
      .next (done (List.zipWith (fun p (q : Word32 × Word32) => fFma p q.1 q.2) x (List.zip y (k.vec e.toNat))))) ∧
    (ready s c (mkWord 0x69 d a b e m 0) → exec (.ccVsel c d a b e m) s =
      .next (done ((upTo 64).map (fun i => if (k.s e.toNat).getLsbD i then tblGet 0 k.vregs (64 * a.toNat + i) else y.getD i 0)))) ∧
    (ready s c (mkWord 0x6F d a 0 0 m 0) → exec (.ccVrnd c d a m) s =
      .next (done (x.map (fun v => widen (m.toNat % 8) (narrow (m.toNat % 8) v).1)))) ∧
    (ready s c (mkWord 0x71 d a b 0 0 0) → exec (.ccVperm c d a b) s =
      .next (done ((k.vec b.toNat).map (fun i => tblGet 0 k.vregs (64 * a.toNat + i.toNat % 64))))) ∧
    (ready s c (mkWord 0x73 d a 0 0 0 0) → exec (.ccVbc c d a) s =
      .next (done (List.replicate 64 ((k.s a.toNat).setWidth 32))))

/-- VCMP, VQ, VRED and the compensated sums KSUM, VKADD, KCOMB, KFIN. When its word is the core's next and legal: VCMP puts the
comparison of each lane into a bit of sD; VQ quantises each lane times sB[31:0] to INT8 or INT4 codes in vD and sets fs.NCV if one
was a NaN; VRED puts the reduced value into sD[31:0] and its lane into sD[63:32]; KSUM adds IMM[6:0] lanes to the pair in sA by
compensated steps (a count outside 1 to 64 is fault 0x23); VKADD makes one compensated step in each lane of the pair vD, vC; KCOMB
joins the pairs in sA and sB; KFIN puts s + c into sD. Those with floating results set fs.NV and fs.INF for them; each goes on and
changes nothing else. (R112, R124, R125, R242, R243, R244, R245, R246, R253) -/
def Obligations.VectorToScalarInstructions : Prop :=
  ∀ (s : State) (c : BitVec 8) (d a b : BitVec 5) (m : BitVec 4) (imm : BitVec 32),
    let n := c.toNat
    let k := getCore s n
    let x := k.vec a.toNat
    let y := if m.toNat.testBit 0 then List.replicate 64 ((k.s b.toNat).setWidth 32) else k.vec b.toNat
    let flags := fun (k : Core) (r : List Word32) => { k with
      nv := k.nv || r.any (fun v => (ofF32 v).isNan), inf := k.inf || r.any (fun v => (ofF32 v).isInf) }
    let scalar := fun (v : BitVec 64) (r : List Word32) => retire s n (fun k => flags (k.setS d.toNat v) r)
    let pairOf := fun (v : BitVec 64) => (v.setWidth 32, (v >>> 32).setWidth 32)
    (ready s c (mkWord 0x68 d a b 0 m 0) → exec (.ccVcmp c d a b m) s = .next (retire s n (fun k => k.setS d.toNat
      (BitVec.ofNat 64 (laneMask (List.zipWith (compareLane (m.toNat / 2)) x y)))))) ∧
    (ready s c (mkWord 0x70 d a b 0 m 0) → exec (.ccVq c d a b m) s =
      let q := x.map (quantise (m.toNat.testBit 0) ((k.s b.toNat).setWidth 32))
      .next (retire s n (fun k => { k.setV d.toNat (lanesOf (quantImage (m.toNat.testBit 0) (q.map (·.1))) 64) with
        ncv := k.ncv || q.any (·.2) }))) ∧
    (ready s c (mkWord 0x75 d a 0 0 m 0) → exec (.ccVred c d a m) s =
      let r := reduceLanes (m.toNat % 4) x
      .next (scalar (BitVec.ofNat 64 (r.1.toNat + r.2 * 2 ^ 32)) [r.1])) ∧
    (ready s c (mkWord 0x76 d a b 0 0 imm) →
      (imm.toNat % 128 = 0 ∨ 64 < imm.toNat % 128 →
        exec (.ccKsum c d a b imm) s = .next (freezeCore s n 0x23 (imm.toNat % 128))) ∧
      (1 ≤ imm.toNat % 128 → imm.toNat % 128 ≤ 64 →
        let p := ((k.vec b.toNat).take (imm.toNat % 128)).foldl kStep (pairOf (k.s a.toNat))
        exec (.ccKsum c d a b imm) s = .next (scalar (pairWord p.1 p.2) [p.1, p.2]))) ∧
    (ready s c (mkWord 0x77 d a 0 b 0 0) → exec (.ccVkadd c d a b) s =
      let r := (upTo 64).map (fun i => kStep (k.v d.toNat i, k.v b.toNat i) (k.v a.toNat i))
      .next (retire s n (fun k => flags ((flags (k.setV d.toNat (r.map (·.1))) (r.map (·.1))).setV b.toNat (r.map (·.2))) (r.map (·.2))))) ∧
    (ready s c (mkWord 0x78 d a b 0 0 0) → exec (.ccKcomb c d a b) s =
      let p := kCombine (pairOf (k.s a.toNat)) (pairOf (k.s b.toNat))
      .next (scalar (pairWord p.1 p.2) [p.1, p.2])) ∧
    (ready s c (mkWord 0x79 d a 0 0 0 0) → exec (.ccKfin c d a) s =
      let r := fAdd (pairOf (k.s a.toNat)).1 (pairOf (k.s a.toNat)).2
      .next (scalar (r.setWidth 64) [r]))

/-- The matrix instructions and their residue check, and the read-out of accumulator entries. When its word is the core's next and
legal: MZ clears its 32 x 32 accumulator; MMA with a count of 1 to 4,096 in sC, aligned operands and no slot in the way adds that
many outer products, sets fs for the results and goes on (shown for no residue failure); a count of 0 or above 4,096 is fault 0x23;
MRD copies rows 2q and 2q + 1, q = IMM[3:0], into vD and MWR copies vA into them; MST stores the accumulator narrowed to its format
from its address on, which must be a multiple of the element (fault 0x22). Each goes on and changes nothing but its core. When its
word is the core's next and legal: entries beyond the bank's 2,048 are fault 0x24; an entry that is not FINAL is fault 0x15 for a
read-out that does not wait (M[3] = 0) and stalls one that does; else ACC.RD loads 32 entries as 64-bit words, ACC.RDF loads 64
entries as FP32 values scaled by IMM[2:0] with their clip bits in sC, ACC.DROP drops IMM[11:0] of them; the entries read become
EMPTY at the end of the cycle (until then a second read-out finds them EMPTY), a repair beat notes what it read, and those with an
extension are added to the counters of overflows (one saturates at 4,095). A read-out that stalled acts in the same way once it is
tried again. (R121, R193, R194, R195, R196, R201, R249, R250, R251, R252, R253, R256) -/
def Obligations.MatrixInstructionsAndReadOut : Prop :=
  (∀ (s : State) (c : BitVec 8) (d a b e : BitVec 5) (m : BitVec 4) (imm : BitVec 32) (ecc : List (Nat × Bool)),
     let n := c.toNat
     let k := getCore s n
     let half := 64 * (imm.toNat % 16)
     let at_ := (k.s b.toNat + imm.signExtend 64).toNat
     let z := elemSize (m.toNat % 8)
     (ready s c (mkWord 0xA0 d 0 0 0 0 0) → exec (.ccMz c d) s = .next (retire s n (fun k => { k with
       macc := tblClear k.macc (1024 * d.toNat) (1024 * d.toNat + 1024) }))) ∧
     (ready s c (mkWord 0xA1 d a b e m 0) →
       let w := mkWord 0xA1 d a b e m 0
       let count := (k.s e.toNat).toNat
       let row := 32 * elemSize (mmaFmt (m.toNat % 4))
       let ca := (k.s a.toNat).toNat
       let ra := (k.s b.toNat).toNat
       let sp := [(ca, row * count), (ra, row * count)]
       (count = 0 ∨ 4096 < count → exec (.ccMma c d a b e m ecc []) s = .next (freezeCore s n 0x23 count)) ∧
       (1 ≤ count → count ≤ 4096 → ca % row = 0 → ra % row = 0 → loadAccess k n sp false = .go →
         let sum := mmaSteps k w ca ra ecc count (tblGetList 0 k.macc (1024 * d.toNat) 1024)
         ∃ out : List Word32, out.length = 1024 ∧ (∀ i < 1024, out.getD i 0 = sum.getD i 0) ∧
           exec (.ccMma c d a b e m ecc []) s = .next (scratchEcc (retire s n (fun k => { k with
             macc := tblSetList 0 k.macc (1024 * d.toNat) out, nv := k.nv || out.any (fun v => (ofF32 v).isNan)
             inf := k.inf || out.any (fun v => (ofF32 v).isInf) })) n sp ecc))) ∧
     (ready s c (mkWord 0xA2 d a 0 0 0 imm) → exec (.ccMrd c d a imm) s = .next (retire s n (fun k => { k with
       vregs := tblSetList 0 k.vregs (64 * d.toNat) (((tblGetList 0 k.macc (1024 * a.toNat) 1024).drop half).take 64) }))) ∧
     (ready s c (mkWord 0xA3 d a 0 0 0 imm) → exec (.ccMwr c d a imm) s = .next (retire s n (fun k => { k with
       macc := tblSetList 0 k.macc (1024 * d.toNat + half) (tblGetList 0 k.vregs (64 * a.toNat) 64) }))) ∧
     (ready s c (mkWord 0xA4 0 a b 0 m imm) →
       (at_ % z ≠ 0 → exec (.ccMst c a b m imm) s = .next (freezeCore s n 0x22 at_)) ∧
       (at_ % z = 0 → storeAccess k n [(at_, 1024 * z)] = .go →
         exec (.ccMst c a b m imm) s = .next (retire s n (fun k' => k'.store at_
           ((tblGetList 0 k.macc (1024 * a.toNat) 1024).flatMap (fun v => leBytes z (narrow (m.toNat % 8) v).1))))))) ∧
  (∀ (s : State) (c : BitVec 8) (d a e : BitVec 5) (m : BitVec 4) (imm : BitVec 32),
     let n := c.toNat
     let k := getCore s n
     let first := (k.s a.toNat).toNat
     let entry := fun (i : Nat) => if k.emptied.any (fun e => decide (e.1 ≤ first + i) && decide (first + i < e.2)) then ({} : Acc)
       else tblGet {} k.acc (first + i)
     let held := fun (count : Nat) => (upTo count).map entry
     let noted := fun (count : Nat) => noteRepairReads s n first (held count)
     let read := fun (i : Instr) (count : Nat) (u : State) (g : Core → Core) =>
       (2048 < first + count → exec i s = .next (freezeCore s n 0x24 first)) ∧
       (first + count ≤ 2048 →
         (∀ j < count, (∀ l < j, (entry l).st = 2) → (entry j).st ≠ 2 →
           exec i s = .next (if m.toNat.testBit 3 then stall s n .acc else freezeCore s n 0x15 (first + j))) ∧
         ((∀ j < count, (entry j).st = 2) →
           let overs := ((held count).filter (fun x => x.h != 0)).length
           exec i s = .next (retire u n (fun k => g { k with
             emptied := k.emptied ++ [(first, first + count)], accOvf := k.accOvf.bump (sclk s) 4095 overs
             accOvfBeat := k.accOvfBeat + overs }))))
     (ready s c (mkWord 0xC0 d a 0 0 m 0) → read (.ccAccRd c d a m) 32 (noted 32) (fun k => k.setV d.toNat
       ((held 32).flatMap (fun x => [BitVec.ofNat 32 x.word, BitVec.ofNat 32 (x.word / 2 ^ 32)])))) ∧
     (ready s c (mkWord 0xC1 d a 0 e m imm) → read (.ccAccRdf c d a e m imm) 64 (noted 64) (fun k =>
       (k.setV d.toNat ((held 64).map (fun x => x.scaled (imm.toNat % 8)))).setS e.toNat
         (BitVec.ofNat 64 ((held 64).foldr (fun x v => ofBool x.clip + 2 * v) 0)))) ∧
     (ready s c (mkWord 0xC2 0 a 0 0 m imm) →
       (imm.toNat % 4096 = 0 ∨ 2048 < imm.toNat % 4096 →
         exec (.ccAccDrop c a m imm) s = .next (freezeCore s n 0x23 (imm.toNat % 4096))) ∧
       (1 ≤ imm.toNat % 4096 → imm.toNat % 4096 ≤ 2048 → read (.ccAccDrop c a m imm) (imm.toNat % 4096) s id)) ∧
     (k.wait = some .acc → coreFrozen s n = false →
       exec (.accWaitRelease c) s =
         .next (readOutBody (modCore s n (fun k => { k with wait := none })) n
           (getCore (modCore s n (fun k => { k with wait := none })) n).word)) ∧
     (k.wait ≠ some .acc → exec (.accWaitRelease c) s = .next s))

/-- What arrives at a core: posted remote writes, the data of remote reads, and the release of a core that waits for a slot.
REMOTE_WRITE_ARRIVAL takes the oldest posted packet from a core to a target off the core, where no older remote read of that target
is outstanding; at a frozen target it is discarded, else it stands among the target's arrivals, which commit at the end of the
cycle. REMOTE_READ_RETURN of the oldest remote read at a target, once every packet posted there before it has arrived: from a
target that is not frozen its bytes, as they stood at the start of the cycle, go to vD, the errors they meet acting on the target;
from a frozen one canonical NaNs go to vD and fs.NV is set; the read is no longer outstanding. SLOT_WAIT_RELEASE of an unfrozen
core that waits for a slot tries its instruction again: a WAITC, an LD, or a vector load. (R187, R201, R205, R206, R207, R209,
R210, R211, R228) -/
def Obligations.RemoteAndSlotReleases : Prop :=
  ∀ (s : State) (c t : BitVec 8) (ecc : List (Nat × Bool)),
    let n := c.toNat
    let k := getCore s n
    (∀ (a : Nat) (bs : List Byte), k.posted.find? (fun p => p.1 == t.toNat) = some (t.toNat, a, bs) →
      (∀ r, k.remoteReads.find? (fun r => r.2.1 == t.toNat) = some r → r.2.2.2.2 ≠ 0) →
      let u := modCore s n (fun k => { k with
        posted := k.posted.eraseP (fun p => p.1 == t.toNat)
        remoteReads := k.remoteReads.map (fun r =>
          if r.2.1 = t.toNat then (r.1, r.2.1, r.2.2.1, r.2.2.2.1, r.2.2.2.2 - 1) else r) })
      (coreFrozen s t.toNat = true → exec (.remoteWriteArrival c t) s = .next u) ∧
      (coreFrozen s t.toNat = false → exec (.remoteWriteArrival c t) s = .next (modCore u t.toNat (fun k => { k with
        arriving := k.arriving ++ [{ remote := true, kind := 3, who := n, off := a, data := bs }] })))) ∧
    (∀ (d a len : Nat), k.remoteReads.find? (fun r => r.2.1 == t.toNat) = some (d, t.toNat, a, len, 0) →
      let back := fun (dead : Bool) (bs : List Byte) => modCore s n (fun k => { k.setV d (lanesOf bs 64) with
        remoteReads := k.remoteReads.eraseP (fun r => r.2.1 == t.toNat), nv := k.nv || dead
        wait := if k.wait = some .net then none else k.wait })
      (coreFrozen s t.toNat = false → exec (.remoteReadReturn c t ecc) s =
        .next (scratchEcc (back false ((getCore s t.toNat).serve a len ecc)) t.toNat [(a, len)] ecc)) ∧
      (coreFrozen s t.toNat = true → exec (.remoteReadReturn c t ecc) s =
        .next (back true ((upTo (len / 4)).flatMap (fun _ => leBytes 4 0x7FC00000))))) ∧
    (∀ i : Nat, k.wait = some (.slot i) → coreFrozen s n = false →
      let u := modCore s n (fun k => { k with wait := none })
      let w := (getCore u n).word
      (wOp w = 0x0B → exec (.slotWaitRelease c ecc) s = .next (waitcBody u n w)) ∧
      (wOp w = 0x40 → exec (.slotWaitRelease c ecc) s = .next (ldBody u n w ecc)) ∧
      (wOp w ≠ 0x0B → wOp w ≠ 0x40 → exec (.slotWaitRelease c ecc) s = .next (vecLoadBody u n w ecc)))

/-- Register reads: what is returned, what a read clears or latches, the two 8-byte pairs, reads by management. RC_READ of 4 bytes at
an aligned offset, by an accessor that reaches the register space, where the offset targets register o of an open page p, answers
the register's value (regValue) and makes the change that a read of it makes (readEffect); by PF0 with another size or alignment it
is an Unsupported Request. SQ_BEAT_COUNT_READ (from power state ROM on) and DEV_RTB_READ by PF0 answer the low half, or with the
8-byte form the whole count, and latch the high half, which the next register up then shows. After a read, DP_OVERRIDE and the CE
and UE counts of the MS page read 0, and so does the clip count of a tile group, the other groups being as before; increments of
the SCLK cycle of the read are kept and show from the next cycle on. REG_READ of 1 to 16 dwords from an aligned offset inside the
register space answers their 4 bytes each with status 0x00; with a bad offset or count it is answered with status 0x02 alone. (R12,
R13, R14, R15, R35, R310, R503, R635) -/
def Obligations.RegisterReads : Prop :=
  (∀ (s : State) (a : Accessor) (off : BitVec 25) (p o : Nat), reaches s a = true → off.toNat % 4 = 0 →
      targetOf a off.toNat = .page p o → pageOpen s p = true → (∀ q f, a = .vf q f → barsOpen s q = true) →
      exec (.rcRead a off 4) s = .next (emit (readEffect s p o) (.readData (regValue s p o)))) ∧
    (∀ (s : State) (port : Bool) (off : BitVec 25) (size : BitVec 8), reaches s (.pf0 port) = true →
      accessOk (.pf0 port) off.toNat size.toNat = false → exec (.rcRead (.pf0 port) off size) s = .next (countUr s port)) ∧
    (∀ (s : State) (port : Bool), reaches s (.pf0 port) = true → 3 ≤ s.power.state.code →
      let half := { s with sq := { s.sq with beatCountHi := BitVec.ofNat 32 (s.sq.beatCount.toNat / 2 ^ 32) } }
      exec (.sqBeatCountRead (.pf0 port) false) s = .next (emit half (.readData (s.sq.beatCount.toNat % 2 ^ 32))) ∧
      exec (.sqBeatCountRead (.pf0 port) true) s = .next (emit half (.readData s.sq.beatCount.toNat)) ∧
      regValue half 6 0x054 = s.sq.beatCount.toNat / 2 ^ 32) ∧
    (∀ (s : State) (port : Bool), reaches s (.pf0 port) = true →
      let half := { s with power := { s.power with rtbHi := BitVec.ofNat 32 (s.power.rtb.toNat / 2 ^ 32) } }
      exec (.devRtbRead (.pf0 port) false) s = .next (emit half (.readData (s.power.rtb.toNat % 2 ^ 32))) ∧
      exec (.devRtbRead (.pf0 port) true) s = .next (emit half (.readData s.power.rtb.toNat)) ∧
      regValue half 0 0x054 = s.power.rtb.toNat / 2 ^ 32) ∧
    (∀ (s : State) (p o : Nat), (p, o) ∈ [(2, 0x048), (10, 0x044), (10, 0x048)] → regValue (readEffect s p o) p o = 0) ∧
    (∀ (s : State) (g : Nat), g < 64 → tblWf {} s.tgs = true →
      regValue (readEffect s (19 + g) 0x048) (19 + g) 0x048 = 0 ∧
      ∀ h, h ≠ g → getTg (readEffect s (19 + g) 0x048) h = getTg s h) ∧
    (∀ (x : Counter) (now : Nat), (x.taken now).shown now = 0 ∧ (x.taken now).shown (now + 1) = (if x.cycle = now then x.added else 0)) ∧
    (∀ (s : State) (off : BitVec 32) (n : BitVec 8), mgmtUp s = true →
      (off.toNat % 4 = 0 → 1 ≤ n.toNat → n.toNat ≤ 16 → off.toNat + 4 * n.toNat ≤ 2 ^ 25 →
        (readDwords s off.toNat n.toNat).1.length = 4 * n.toNat ∧
        exec (.regRead off n) s =
          .next (emit (readDwords s off.toNat n.toNat).2 (.mgmt 0x7E 0x00 (readDwords s off.toNat n.toNat).1))) ∧
      (off.toNat % 4 ≠ 0 ∨ n = 0 ∨ 16 < n.toNat ∨ 2 ^ 25 < off.toNat + 4 * n.toNat →
        exec (.regRead off n) s = .next (emit s (.mgmt 0x7E 0x02 []))))

/-- Register writes: the header registers, enable, soft reset, forced events and the lock; what is discarded. REGISTER_WRITE of 4 bytes
at an aligned offset by PF0, to register o of page p, writes that register (writeReg) if PF0 may write the page and changes nothing
otherwise. Writing EVT_STATUS clears the bits written 1 but for those that hardware has set in the same SCLK cycle; EVT_ENABLE,
EVT_ROUTE and SCRATCH store what is written; the read-only offsets of the header change nothing. On a page that PF0 may write:
PAGE_LOCK sets its bit and never clears it; EVT_FORCE raises, lowest bit first, the event of each bit written, as a forced one with
INFO of zeros (the model's choice, log entry 65); PAGE_ENABLE_WRITE that changes EN alone stores it where the page has SRST and the
manifest enables it, on pages 8 and above but MS only while no plan is admitted; SRST alone, on a page that has it with EN 0,
neither frozen nor busy, sets BUSY, clears EVT_STATUS and FAULT and resets the block. SRST_DONE on a busy page clears BUSY and
raises event 0x03. REG_WRITE of EVT_ENABLE by management stores it and is answered with 0x00; one with a bad offset is answered
with 0x02 alone. (R13, R14, R16, R21, R22, R24, R27, R31, R35, R39, R42, R503) -/
def Obligations.RegisterWrites : Prop :=
  (∀ (s : State) (port : Bool) (off : BitVec 25) (v : BitVec 32) (p o : Nat), reaches s (.pf0 port) = true → off.toNat % 4 = 0 →
      targetOf (.pf0 port) off.toNat = .page p o →
      exec (.registerWrite (.pf0 port) off 4 v) s = .next (if mayWrite s (.pf0 port) p then writeReg s (.pf0 port) p o v.toNat else s)) ∧
    (∀ (s : State) (port : Bool) (p : Nat) (v : BitVec 32), let a := Accessor.pf0 port
      writeReg s a p 0x010 v.toNat = modHdr s p (fun h => { h with
        evtStatus := (h.evtStatus &&& ~~~v) ||| (if h.evtCycle = sclk s then h.evtNew else 0) }) ∧
      writeReg s a p 0x014 v.toNat = modHdr s p (fun h => { h with evtEnable := v }) ∧
      writeReg s a p 0x01C v.toNat = modHdr s p (fun h => { h with routeMgmt := v.getLsbD 1, routeHost := v.getLsbD 0 }) ∧
      writeReg s a p 0x038 v.toNat = modHdr s p (fun h => { h with scratch := v }) ∧
      ∀ o ∈ [0x000, 0x004, 0x00C, 0x020, 0x024, 0x028, 0x02C, 0x030, 0x03C], writeReg s a p o v.toNat = s) ∧
    (∀ (s : State) (port : Bool) (p : BitVec 9) (v : BitVec 32), mayWrite s (.pf0 port) p.toNat = true → let a := Accessor.pf0 port
      exec (.pageLock a p v) s = .next (modHdr s p.toNat (fun h => { h with lock := h.lock || v.getLsbD 0 })) ∧
      exec (.evtForce a p v) s = .next (forEach ((upTo 32).filter (fun n => v.getLsbD n))
        (fun s n => raiseEvent s p.toNat (if n = 31 then 0x20 else n + 1) [] true) s) ∧
      (pageSrst p.toNat = true → manifestEnables s p.toNat = true → (getHdr s p.toNat).en ≠ v.getLsbD 0 → v.toNat < 2 →
        exec (.pageEnableWrite port p v) s = .next
          (if (8 ≤ p.toNat ∧ p.toNat ≠ 10) ∧ planAdmitted s = true then s
            else modHdr s p.toNat (fun h => { h with en := v.getLsbD 0 }))) ∧
      (pageSrst p.toNat = true → pageEn s p.toNat = false → pageFrozen s p.toNat = false → pageBusy s p.toNat = false → v = 4 →
        (manifestEnables s p.toNat = true → (getHdr s p.toNat).en = false → tblWf {} s.hdrs = true →
          exec (.srst port p v) s = .next (softResetPage s p.toNat)) ∧
        softResetPage s p.toNat = resetBlock (modHdr s p.toNat (fun h => { h with
          busy := true, evtStatus := 0, faultValid := false, faultCode := 0, faultExtra := 0, faultKind := 0, faultMaster := 0
          faultAddr := 0 })) p.toNat)) ∧
    (∀ (s : State) (p : BitVec 9), (getHdr s p.toNat).busy = true →
      exec (.srstDone p) s = .next (raiseEvent (modHdr s p.toNat (fun h => { h with busy := false })) p.toNat 0x03 [])) ∧
    (∀ (s : State) (off v : BitVec 32) (p : Nat), mgmtUp s = true → mainPower s = true → off.toNat % 4 = 0 → off.toNat < 2 ^ 25 →
      targetOf .mgmt off.toNat = .page p 0x014 → mayWrite s .mgmt p = true →
      exec (.regWrite off v) s = .next (emit (modHdr s p (fun h => { h with evtEnable := v })) (.mgmt 0x7E 0x00 []))) ∧
    (∀ (s : State) (off v : BitVec 32), mgmtUp s = true → off.toNat % 4 ≠ 0 ∨ 2 ^ 25 ≤ off.toNat →
      exec (.regWrite off v) s = .next (emit s (.mgmt 0x7E 0x02 [])))

/-- The per-tile calibration window: 64 bytes for each tile at 0x100_0000 + (g × 1088 + t) × 64, RWL under the group's page lock. For
every group g and tile t, each of the 64 bytes at BAR0 offset 0x100_0000 + (g × 1088 + t) × 64 lies in the record of tile g × 1088
+ t, which is of group g, and no other offset lies in the window; a write there is discarded while the owning TG page's lock is 1.
(R30) -/
def Obligations.CalibrationWindowPlace : Prop :=
  (∀ g t b : Nat, g < 64 → t < 1088 → b < 64 →
      windowAt (0x1000000 + (g * 1088 + t) * 64 + b) = some (g * 1088 + t, b) ∧ (g * 1088 + t) / 1088 = g) ∧
    (∀ off : Nat, off < 0x1000000 ∨ 0x1000000 + 69632 * 64 ≤ off → windowAt off = none) ∧
    (∀ (s : State) (a : Accessor) (off : BitVec 25) (size : BitVec 8) (v : BitVec 32) (i b : Nat), reaches s a = true →
      accessOk a off.toNat size.toNat = true → targetOf a off.toNat = .window i b → (getHdr s (19 + i / 1088)).lock = true →
      exec (.registerWrite a off size v) s = .next s)

/-- Which EVT_STATUS bit an event sets, whatever EVT_ENABLE holds. Raising block code c on a powered page sets bit c − 1 of its
EVT_STATUS for c in 0x01–0x1F and bit 31 for c in 0x20–0xFF, keeps the other bits, and does so for every value of EVT_ENABLE. (R40) -/
def Obligations.EventStatusBit : Prop :=
  ∀ (s : State) (p c : Nat) (inf : List Byte) (forced : Bool), pagePowered s p = true → tblWf {} s.hdrs = true →
    1 ≤ c → c ≤ 0xFF →
      ∀ i, i < 32 → (getHdr (raiseEvent s p c inf forced) p).evtStatus.getLsbD i =
        ((getHdr s p).evtStatus.getLsbD i || (if c ≤ 0x1F then i == c - 1 else i == 31))

/-- A freeze records a master and the first violation of its page; THAW releases the masters that its writer may thaw. A freeze of a
master adds it to the frozen ones if it is not among them, stores code, kind, master and address in the page's FAULT registers if
none is valid, and otherwise keeps them and counts in EXTRA up to 255. THAW by a writer that may write the page, with SRST 0: the
write first sets EN as far as PF0 may (log entry 64); with no master on the page that the writer may thaw, those frozen in this
SCLK cycle apart, nothing more happens; else those masters are no longer frozen and return to their idle state, the record becomes
invalid once no master of the page is frozen (it becomes that of a violation of the same SCLK cycle where only such masters stay
frozen), and event 0x02 tells how many and who wrote. Returning to idle, a function's pairs become UNCONFIGURED and a core is
cleared. A function's own PF0 master is thawed by management, never by PF0. (R23, R47, R49, R50, R51, R213, R452) -/
def Obligations.FreezeAndThaw : Prop :=
  (∀ (s : State) (page kind master code addr : Nat), tblWf {} s.hdrs = true →
      let t := freeze s page kind master code addr
      isFrozen t kind master = true ∧
      (isFrozen s kind master = true → t.frozen = s.frozen) ∧ (isFrozen s kind master = false → t.frozen.length = s.frozen.length + 1) ∧
      ((getHdr s page).faultValid = false → (getHdr t page).faultValid = true ∧
        (getHdr t page).faultCode = BitVec.ofNat 16 code ∧ (getHdr t page).faultExtra = 0 ∧ (getHdr t page).faultKind = kind ∧
        (getHdr t page).faultMaster = BitVec.ofNat 16 master ∧ (getHdr t page).faultAddr = BitVec.ofNat 64 addr) ∧
      ((getHdr s page).faultValid = true → (getHdr t page).faultExtra = min 255 ((getHdr s page).faultExtra + 1) ∧
        (getHdr t page).faultCode = (getHdr s page).faultCode ∧ (getHdr t page).faultAddr = (getHdr s page).faultAddr ∧
        (getHdr t page).faultKind = (getHdr s page).faultKind ∧ (getHdr t page).faultMaster = (getHdr s page).faultMaster)) ∧
    (∀ (s : State) (a : Accessor) (page : BitVec 9) (v : BitVec 32), mayWrite s a page.toNat = true → v.getLsbD 1 = true → v.getLsbD 2 = false →
      let u := match a with
        | .pf0 _ => writeEn s page.toNat v.toNat
        | _ => s
      let hit := u.frozen.filter (fun z => z.page == page.toNat && mayThaw a z && z.cycle != sclk u)
      let w := forEach hit thawMaster { u with frozen := u.frozen.filter (fun z => !hit.contains z) }
      (hit = [] → exec (.thaw a page v) s = .next u) ∧
      (hit ≠ [] → exec (.thaw a page v) s =
        .next (raiseEvent (recordAfterThaw w page.toNat) page.toNat 0x02 (info [(4, hit.length), (1, writerCode a)])))) ∧
    (∀ (s : State) (p : Nat), let left := s.frozen.filter (fun z => z.page == p)
      (left = [] → recordAfterThaw s p = modHdr s p (fun h => { h with faultValid := false })) ∧
      ((∃ z ∈ left, z.cycle ≠ sclk s) → recordAfterThaw s p = s) ∧
      (∀ z zs, left = z :: zs → (∀ y ∈ left, y.cycle = sclk s) → recordAfterThaw s p = modHdr s p (fun h => { h with
        faultValid := true, faultCode := z.code, faultExtra := min 255 zs.length, faultKind := z.kind
        faultMaster := BitVec.ofNat 16 z.master, faultAddr := z.addr }))) ∧
    (∀ (s : State) (z : Frozen), (z.kind = 3 → thawMaster s z = clearCore s z.master) ∧
      (z.kind = 1 → thawMaster s z = forEach (pairsOf s (decide (32 ≤ z.master)) (z.master % 32))
        (fun s p => modQp s (decide (32 ≤ z.master)) p (fun q => { fn := q.fn, cfg := q.cfg + 1 })) s)) ∧
    (∀ (q : Nat) (c : Nat), ({ fn := q, cfg := c } : Qp).state = 0) ∧
    (∀ z : Frozen, z.kind = 1 → z.master = 0 ∨ z.master = 32 → mayThaw .mgmt z = true ∧ ∀ port, mayThaw (.pf0 port) z = false)

/-- A plan shot is taken once at its tick: 517 codes, the canaries, the check and the transfer of 512 pairs; an unserved tile gives 0.
SHOT completes at tick 8 x slot + 11 of the beat in execution, for a shot of its template that is not yet taken and whose drive
source has been fetched: the shot is marked taken. If its tiles serve, each of its 517 codes is the conversion of the pair's sum
over the drives of its tile, of both tiles in a seam shot; the tile's tables of use turn over, its canaries are added to its
accumulators, the checker examines the codes and the adaptive range notes them, an assay records them, and then each of the 512
pairs is transferred in order. If a tile does not serve, each pair delivers 0. An unsaturated code enters its lane with the sign of
its pair; a saturated one waits for a reserved slot where the operation has an allowance, and else enters as a clip. A partial that
reaches a FINAL entry freezes the core with fault 0x16; one that reaches an open entry of a core that is not frozen adds to it.
(R63, R64, R67, R114, R115, R117, R133, R138, R188, R193, R644) -/
def Obligations.PlanShotAndItsTransfer : Prop :=
  (∀ (s : State) (entry : BitVec 32) (b : Live) (x : Shot),
      let d := ownRec s
      let i := entry.toNat
      let o := shotOp d x
      let taken := modLive s (fun b => { b with done := (2, i) :: b.done })
      let lo := physicalOf s x.group x.logical
      let hi := physicalOf s x.group (x.logical + 1)
      let up := if o.seam then hi else lo
      let xs := driveValues taken d x
      let codes := codesOf taken s.free lo hi o.seam (rangeOf s x.group o) xs
      let u1 := useTile { taken with free := s.free + 1 } up
      let used := if o.seam then useTile u1 lo else u1
      let seen := checkShot (modTile used up (fun t => canaries t codes xs.sum o.seam)) up d x codes
      s.sq.live = some b → (liveTemplate s).shots[i]? = some x → b.cycle / 2 = 8 * x.slot + 11 → b.done.contains (2, i) = false →
      b.done.contains (3, driveKey x.group x.source (shotRow s (shotOp d x) x)) = true →
      ((∀ l ∈ shotTiles o x, tileServes s x.group l = true) → exec (.shot entry) s = .next
        (forEach (upTo 512) (fun u p => transferPair u d i x (getTile used up) p (codes.getD p 0))
          (noteAssay (noteRange seen x.group o (codes.take 512)) d x xs (codes.take 512)))) ∧
      ((∃ l ∈ shotTiles o x, tileServes s x.group l = false) →
        exec (.shot entry) s = .next (forEach (upTo 512) (fun s p => toLane s d x p 0 false) taken))) ∧
    (∀ (s : State) (n lo hi fsr : Nat) (seam : Bool) (xs : List Int) (p : Nat), p < 517 →
      let own := pairSum2 (getTile s lo) (physicalDrive (getTile s lo) lo (xs.take 512)) p 0 512
      let other := if seam then pairSum2 (getTile s hi) (physicalDrive (getTile s hi) hi (xs.drop 512)) p 0 512 else 0
      (codesOf s n lo hi seam fsr xs).length = 517 ∧ (codesOf s n lo hi seam fsr xs).getD p 0 =
        convertCode n p (own + other) (if p < 512 then fsr else if seam then 4 else 3)) ∧
    (∀ (n p f : Nat) (v : Int), -512 ≤ convertCode n p v f ∧ convertCode n p v f ≤ 511) ∧
    (∀ (s : State) (d : DevRec) (i : Nat) (x : Shot) (t : Tile) (p : Nat) (c : Int),
      (c ≠ -512 → c ≠ 511 → transferPair s d i x t p c =
        toLane s d x p (pairSign t p * laneValue t (rangeOf s x.group (shotOp d x)) (shotOp d x).e c) false) ∧
      (c = -512 ∨ c = 511 → 0 < (shotOp d x).allowance →
        transferPair s d i x t p c = { s with sq := { s.sq with satQueue := s.sq.satQueue ++ [(i, p, c)] } }) ∧
      (c = -512 ∨ c = 511 → (shotOp d x).allowance = 0 → transferPair s d i x t p c = clipPair s d x p c)) ∧
    (∀ (s : State) (c entry : Nat) (v : Int) (clip : Bool), coreFrozen s c = false →
      ((tblGet {} (getCore s c).acc entry).st = 2 → deliverPartial s c entry v clip = freezeCore s c 0x16 entry) ∧
      ((tblGet {} (getCore s c).acc entry).st ≠ 2 → deliverPartial s c entry v clip = modCore s c (fun k => { k with
        acc := tblMod {} k.acc entry (fun a => { a with st := 1, val := a.val + v, clip := a.clip || clip }) }))) ∧
    (∀ (fsr : Nat) (e : Nat) (c : Int) (t : Tile), laneValue t fsr e c =
      roundEvenInt ((15 * 2 ^ fsr : Int) * t.gain.toNat * (16 * c - t.offset.toInt) * 2 ^ e) 4)

/-- Reserved slots rescue saturated pairs of the earliest saturated shot; what is left enters as clips when the entry block closes. In
reserved slot k of a plain operation on a logical tile RESHOT spends the slot and, if a saturated shot of it has unrescued pairs,
converts again half by half up to 4 of them per converter; SEAM_RESHOT does so for every saturated pair of a seam shot, each tile
by itself; with none waiting only the slot is spent. A rescued pair leaves the queue and enters as the sum of its halves; each half
that saturates counts as a clip and marks the entry. ENTRY_BLOCK_CLOSE completes once for a block of a column tile, at its close
tick: it enters the block's remaining saturated pairs as clips, drops them from the queue and notes the block on each core it
covers. The close of a tick (closeBlocks) takes a core's noted blocks and closes each: on a core that is not frozen every entry of
the block becomes FINAL, nothing else changing, and a frozen core keeps its bank. A value within 48 bits becomes final as it is.
(R72, R73, R74, R75, R76, R115, R119, R192, R213) -/
def Obligations.RescueClipAndBlockClose : Prop :=
  (∀ (s : State) (g : BitVec 6) (op : BitVec 16) (l : BitVec 10) (k : BitVec 2),
      let d := ownRec s
      let spent := spendReserved s g.toNat op.toNat l.toNat k.toNat
      inReserved s g.toNat op.toNat l.toNat k.toNat = true →
      (earliestSaturated spent g.toNat op.toNat l.toNat = none →
        ((d.ops.getD op.toNat {}).seam = false → exec (.reshot g op l k) s = .next spent) ∧
        ((d.ops.getD op.toNat {}).seam = true → exec (.seamReshot g op l k) s = .next spent)) ∧
      (∀ i x ps, earliestSaturated spent g.toNat op.toNat l.toNat = some (i, x, ps) → (d.ops.getD op.toNat {}).seam = false →
        let ph := physicalOf spent g.toNat l.toNat
        let t := getTile spent ph
        let f := rangeOf spent g.toNat (shotOp d x)
        let xs := physicalDrive t ph (driveValues spent d x)
        let n := s.free
        exec (.reshot g op l k) s = .next (forEach
          (ps.filter (fun p => decide ((ps.filter (fun q => q / 8 == p / 8 && decide (q < p))).length < 4)))
          (fun s p => rescuePair s d i x p t t (convertCode n p (pairSum2 t xs p 0 256) f) (convertCode n (1024 + p) (pairSum2 t xs p 256 512) f))
          (modTile (modTg { spent with free := n + 1 } g.toNat (fun t => { t with reshotNow := t.reshotNow + 1 })) ph
            (fun t => { t with bank := true })))) ∧
      (∀ i x ps, earliestSaturated spent g.toNat op.toNat l.toNat = some (i, x, ps) → (d.ops.getD op.toNat {}).seam = true →
        let pl := physicalOf spent g.toNat l.toNat
        let pu := physicalOf spent g.toNat (l.toNat + 1)
        let f := rangeOf spent g.toNat (shotOp d x)
        let xl := physicalDrive (getTile spent pl) pl ((driveValues spent d x).take 512)
        let xh := physicalDrive (getTile spent pu) pu ((driveValues spent d x).drop 512)
        let n := s.free
        exec (.seamReshot g op l k) s = .next (forEach ps
          (fun s p => rescuePair s d i x p (getTile spent pl) (getTile spent pu)
            (convertCode n p (pairSum2 (getTile spent pl) xl p 0 512) f) (convertCode n (1024 + p) (pairSum2 (getTile spent pu) xh p 0 512) f))
          (modTg (useTile (useTile { spent with free := n + 1 } pl) pu) g.toNat (fun t => { t with reshotNow := t.reshotNow + 1 }))))) ∧
    (∀ (s : State) (entry : BitVec 32) (b : Live) (x : Shot),
      let d := ownRec s
      let t := liveTemplate s
      let key := blockKey s d x
      let mine := s.sq.satQueue.filter (fun e => blockKey s d (t.shots.getD e.1 {}) == key)
      let marked := modLive s (fun b => { b with done :=
        ((indexed t.shots).filter (fun y => blockKey s d y.2 == key)).map (fun y => (7, y.1)) ++ b.done })
      let clipped := forEach mine (fun s e => clipPair s d (t.shots.getD e.1 {}) e.2.1 e.2.2) marked
      let u := { clipped with sq := { clipped.sq with satQueue := clipped.sq.satQueue.filter (fun e => !mine.contains e) } }
      s.sq.live = some b → t.shots[entry.toNat]? = some x → b.cycle / 2 = closeTick s d t key →
      b.done.contains (7, entry.toNat) = false → exec (.entryBlockClose entry) s = .next
        (forEach (coresOf x.group (shotOp d x).n (shotCol u x))
          (fun s c => modCore s c (fun k => { k with closing := k.closing ++ [x.block] })) u)) ∧
    (∀ (s : State) (d : DevRec) (i : Nat) (x : Shot) (p : Nat) (lo hi : Tile) (cl ch : Int),
      let o := shotOp d x
      let f := rangeOf s x.group o
      let u := { s with sq := { s.sq with satQueue := s.sq.satQueue.filter (fun e => !(e.1 == i && e.2.1 == p)) } }
      let v := pairSign hi p * (laneValue lo f o.e cl + laneValue hi f o.e ch)
      let sat := fun (c : Int) => c = -512 ∨ c = 511
      (¬ sat cl → ¬ sat ch → rescuePair s d i x p lo hi cl ch = toLane u d x p v false) ∧
      (sat cl → ¬ sat ch → rescuePair s d i x p lo hi cl ch = toLane (countClip u d x p) d x p v true) ∧
      (¬ sat cl → sat ch → rescuePair s d i x p lo hi cl ch = toLane (countClip u d x p) d x p v true) ∧
      (sat cl → sat ch → rescuePair s d i x p lo hi cl ch = toLane (countClip (countClip u d x p) d x p) d x p v true)) ∧
    (∀ (s : State) (c : Nat), closeBlocks s c =
      forEach (getCore s c).closing (closeBlock c) (modCore s c (fun k => { k with closing := [] }))) ∧
    (∀ (s : State) (c block : Nat), (coreFrozen s c = true → closeBlock c s block = s) ∧
      (coreFrozen s c = false → { closeBlock c s block with cores := s.cores } = s ∧
        (tblWf {} s.cores = true → (∀ j, j ≠ c → getCore (closeBlock c s block) j = getCore s j) ∧
          (tblWf {} (getCore s c).acc = true → ∀ e, e < 128 →
            (tblGet {} (getCore (closeBlock c s block) c).acc (128 * block + e)).st = 2)))) ∧
    (∀ v : Int, -(2 ^ 47) ≤ v → v < 2 ^ 47 → overflowRepeat v = (v, 0))

/-- A group fetches a posted drive source 16 ticks before its first shot; a calibration shot only measures its tile. 16 ticks before
the first shot of a group that uses a source for a row tile, DRIVE_FETCH of a posted source of a core that is not frozen loads the
row tile's activation codes and the outlier mask (0 where the source names none), as the core's scratchpad serves them, into the
group's drives; with reads free of errors nothing else changes but the mark of the fetch and its 16-tick window, in which a freeze
of the core still zeroes the source. A frozen core makes the source drive 0 and the position report FAULT; an unposted source
freezes its poster with fault 0x26. CALIBRATION_SHOT on a tile where one may be placed, with no older waiting tile, measures the
tile and counts in its group's window of 64 slots; no other tile and no core changes. (R84, R130, R234, R270, R271, R295, R553) -/
def Obligations.DriveFetchAndCalibrationShot : Prop :=
  (∀ (s : State) (g : BitVec 6) (source : BitVec 16) (row : BitVec 8) (b : Live) (v : Drive) (x : Shot),
      let d := ownRec s
      let k := source.toNat
      let o := shotOp d x
      let key := driveKey g.toNat k row.toNat
      let n := if o.seam then 1024 else 512
      let size := if o.i8 then n else n / 2
      let marked := modLive s (fun b => { b with done := (3, key) :: b.done })
      s.sq.live = some b → (liveTemplate s).drives[k]? = some v →
      (liveTemplate s).shots.find? (fun x => x.group == g.toNat && x.source == k && shotRow s (shotOp d x) x == row.toNat) = some x →
      b.cycle / 2 = 8 * x.slot - 16 → b.done.contains (3, key) = false →
      (coreFrozen s v.core = true → exec (.driveFetch g source row []) s = .next (posFault (zeroSource marked g.toNat k) 1)) ∧
      (coreFrozen s v.core = false → isPosted marked 1 k = false →
        exec (.driveFetch g source row []) s = .next (unposted (zeroSource marked g.toNat k) 1 k)) ∧
      (coreFrozen s v.core = false → isPosted marked 1 k = true →
        exec (.driveFetch g source row []) s = .next { marked with sq := { marked.sq with
          drive := tblSetList 0 s.sq.drive (key * 1024)
            (unpackCodes o.i8 n ((getCore s v.core).serve (v.codes + size * row.toNat) size []))
          driveMask := tblSet 0 s.sq.driveMask key
            (BitVec.ofNat 64 (if v.mask = 0xFFFFFFFF then 0 else ofLe ((getCore s v.core).serve v.mask 8 [])))
          driveFetch := (v.core, g.toNat, k, b.cycle / 2 + 16) :: s.sq.driveFetch } })) ∧
    (∀ (s : State) (g : BitVec 6) (tile : BitVec 11), let i := tileIx g.toNat tile.toNat
      tile.toNat < 1088 → calPlace s i = true →
      (∀ j ∈ groupTiles g.toNat, (getTile s j).last.toNat < (getTile s i).last.toNat → calPlace s j = false) →
      ∃ t, exec (.calibrationShot g tile) s = .next t ∧ t.free = s.free + 1 ∧ t.cores = s.cores ∧ t.sq = s.sq ∧
        { t with tiles := s.tiles, tgs := s.tgs, free := s.free } = s ∧
        (tblWf {} s.tiles = true → (∀ j, j ≠ i → getTile t j = getTile s j) ∧
          (getTile t i).calShots = (getTile s i).calShots + 1 ∧ (getTile t i).cells = (getTile s i).cells) ∧
        (tblWf {} s.tgs = true → (getTg t g.toNat).windowNo = windowNow s ∧ ∀ h, h ≠ g.toNat → getTg t h = getTg s h))

/-- BEAT_START opens the beat its position is due for and BEAT_END closes it: the count, what completes once in it, the layout, the
replay decision. A beat due at a position whose tiles are all ready starts: the beat count grows by 1, the live beat has the
position, its template and its replay index, at cycle 0, with nothing posted, driven or queued, the words of tiles and groups shown
during the beat are those of its start, and nothing outside the sequencer and the tiles' bias changes; if a tile is not ready the
beat is held (an IDLE_FILL position then runs none, log entry 109) and nothing else changes. BEAT_END, L ticks after the start,
closes the beat: none is in execution and the template and length of a beat read as in an idle tick; before that it does nothing. A
beat without a cause of replay keeps its watch values for the round; with one it is replayed while the replay index is below the
set's limit, and else exhausted. In it SHOT at its tick with its drive fetched, RESHOT and SEAM_RESHOT in a reserved slot not yet
spent, and ENTRY_BLOCK_CLOSE at its close tick complete, and each is marked as done. (R141, R144, R145, R146, R175, R212, R257,
R310, R311) -/
def Obligations.BeatsBeginAndEnd : Prop :=
  (∀ (s : State) (pos : BitVec 16) (x : Pos), posAt s pos.toNat = some x → beatDue s pos.toNat x = true →
      let tpl := (ownRec s).templates.getD x.template {}
      (tilesReady s tpl = false → exec (.beatStart pos) s =
        .next (if x.role = 2 then s else { s with sq := { s.sq with beatHeld := some pos.toNat } })) ∧
      (tilesReady s tpl = true → ∃ t l, exec (.beatStart pos) s = .next t ∧ t.sq.live = some l ∧ t.sq.beatCount = s.sq.beatCount + 1 ∧
        l.pos = pos.toNat ∧ l.template = x.template ∧ l.cycle = 0 ∧ l.posted = [] ∧ l.done = [] ∧ l.rho = tblGet 0 s.sq.rho pos.toNat ∧
        t.sq.beatTemplate = x.template ∧ t.sq.beatLen = tpl.len ∧ t.sq.satQueue = [] ∧ t.sq.drive = [] ∧ t.sq.beatHeld = none ∧
        t.beatTiles = s.tiles ∧ t.beatTgs = s.tgs ∧ { t with sq := s.sq, tiles := s.tiles, beatTiles := s.beatTiles, beatTgs := s.beatTgs } = s)) ∧
    (∀ (s : State) (l : Live), s.sq.live = some l →
      (l.cycle < 2 * (liveTemplate s).len → exec .beatEnd s = .next s) ∧
      (2 * (liveTemplate s).len ≤ l.cycle → ∃ t, exec .beatEnd s = .next t ∧ t = closeBeat s l ∧ t.sq.live = none ∧ t.sq.drawPos = [] ∧
        t.sq.beatTemplate = 0xFF ∧ t.sq.beatLen = 0 ∧ t.sq.draws = [])) ∧
    (∀ (s : State) (l : Live),
      (replayCause l = 0 → decideReplay s l = { s with sq := { s.sq with
        roundQ := s.sq.roundQ ++ l.nwQ.map (fun e => (l.pos, e.1, e.2.1, e.2.2.1, e.2.2.2)) } }) ∧
      (replayCause l ≠ 0 → l.rho < replayMax s →
        decideReplay s l = replayEvent { s with sq := { s.sq with replaying := s.sq.replaying ++ [l.pos] } } l 0x30 (l.rho + 1)) ∧
      (replayCause l ≠ 0 → replayMax s ≤ l.rho →
        decideReplay s l = replayEvent { s with sq := { s.sq with exhausted := s.sq.exhausted ++ [l.pos] } } l 0x31 (replayMax s))) ∧
    (∀ (s : State) (entry : BitVec 32) (b : Live) (x : Shot), s.sq.live = some b → (liveTemplate s).shots[entry.toNat]? = some x →
      (b.cycle / 2 = 8 * x.slot + 11 → b.done.contains (2, entry.toNat) = false →
        b.done.contains (3, driveKey x.group x.source (shotRow s (shotOp (ownRec s) x) x)) = true →
        ∃ t l, exec (.shot entry) s = .next t ∧ t.sq.live = some l ∧ l.cycle = b.cycle ∧ l.done = (2, entry.toNat) :: b.done) ∧
      (b.cycle / 2 = closeTick s (ownRec s) (liveTemplate s) (blockKey s (ownRec s) x) → b.done.contains (7, entry.toNat) = false →
        ∃ t l, exec (.entryBlockClose entry) s = .next t ∧ t.sq.live = some l ∧ l.cycle = b.cycle ∧
          l.done.contains (7, entry.toNat) = true)) ∧
    (∀ (s : State) (g : BitVec 6) (op : BitVec 16) (l : BitVec 10) (k : BitVec 2) (b : Live), s.sq.live = some b →
      inReserved s g.toNat op.toNat l.toNat k.toNat = true →
      let spent := (6, ((g.toNat * 65536 + op.toNat) * 1024 + l.toNat) * 4 + k.toNat) :: b.done
      (((ownRec s).ops.getD op.toNat {}).seam = false →
        ∃ t m, exec (.reshot g op l k) s = .next t ∧ t.sq.live = some m ∧ m.cycle = b.cycle ∧ m.done = spent) ∧
      (((ownRec s).ops.getD op.toNat {}).seam = true →
        ∃ t m, exec (.seamReshot g op l k) s = .next t ∧ t.sq.live = some m ∧ m.cycle = b.cycle ∧ m.done = spent))

/-- TG_CHECK_TOL: TOL in [7:0], reset 6, a write outside 1–63 discarded, a new value in force from the next beat boundary. After reset
TOL reads 6 in bits [7:0] of the register and the other bits read 0. PF0's accepted write stores bits [7:0] if they are in 1–63 and
else changes nothing; the tolerance in force at the checker stays what it was until the beat boundary, which makes it the stored
TOL. The checker fails a shot whose difference, in steps of the checksum's range, lies above the tolerance. (R96) -/
def Obligations.CheckerToleranceRegister : Prop :=
  (∀ g : Nat, g < 64 → regValue State.reset (19 + g) 0x04C = 6) ∧
    (∀ (s : State) (g : Nat), g < 64 → regValue s (19 + g) 0x04C = (getTg s g).tol % 256) ∧
    (∀ (s : State) (port : Bool) (g : BitVec 6) (v : BitVec 32), mayWrite s (.pf0 port) (19 + g.toNat) = true →
      (1 ≤ v.toNat % 256 → v.toNat % 256 ≤ 63 →
        exec (.tgCheckTol (.pf0 port) g v) s = .next (modTg s g.toNat (fun t => { t with tol := v.toNat % 256 })) ∧
        (tblWf {} s.tgs = true →
          (getTg (modTg s g.toNat (fun t => { t with tol := v.toNat % 256 })) g.toNat).liveTol = (getTg s g.toNat).liveTol)) ∧
      (v.toNat % 256 = 0 ∨ 63 < v.toNat % 256 → exec (.tgCheckTol (.pf0 port) g v) s = .next s)) ∧
    (∀ (s : State) (g : Nat), tblWf {} s.tgs = true → (getTg s g).firstClip = none →
      (getTg (groupBoundary s g) g).liveTol = (getTg s g).tol) ∧
    (∀ (s : State) (i : Nat) (d : DevRec) (x : Shot) (codes : List Int), checkable codes = true →
      let diff := checksumDiff (getTile s i) codes (rangeOf s x.group (shotOp d x)) (shotOp d x).seam
      ((getTg s x.group).liveTol * 2048 < diff.natAbs → ∃ u, checkShot s i d x codes = recordCheck u i x.logical true) ∧
      (diff.natAbs ≤ (getTg s x.group).liveTol * 2048 → checkShot s i d x codes = recordCheck s i x.logical false))

/-- The group's range register, the baselines of the calibration window, a repair round and the commit of an adapter. TG_FSR_DEFAULT
stores PIN, FSR_HI and FSR_LO, discarding the whole write if LO is above HI or HI above 3. A write of words 0 to 3 of a tile's
window record stores a baseline only while no plan is admitted and the group's page is not locked; other words are not written.
REPAIR_ROUND of an operation with an adapter, in a repair beat of its template, with training enabled for the owner and 2^logM
training and 16 held-out inputs in order, each allowed and with the read-outs the beat's cores took of its shots, marks the round
and runs it on the inputs' vectors and the residuals that the device forms from its own codes and read-outs. ADAPTER_COMMIT of a
staged copy that an accepted boundary has made eligible, at a step boundary with no beat live, none ended since and no replay
pending or repeated, writes the copy to the extents of A and B under the owner's key, clears staged and eligible, increments the
version and raises 0x32. (R30, R80, R94, R151, R152, R154, R557) -/
def Obligations.RangeRegisterWindowAndRepair : Prop :=
  (∀ (s : State) (port : Bool) (g : BitVec 6) (v : BitVec 32), mayWrite s (.pf0 port) (19 + g.toNat) = true →
      let hi := v.toNat / 16 % 16
      let lo := v.toNat % 16
      (hi < lo ∨ 3 < hi → exec (.tgFsrDefault (.pf0 port) g v) s = .next s) ∧
      (lo ≤ hi → hi ≤ 3 → exec (.tgFsrDefault (.pf0 port) g v) s = .next (modTg s g.toNat (fun t => { t with
        pin := v.getLsbD 31, fsrHi := hi, fsrLo := lo })))) ∧
    (∀ (s : State) (port : Bool) (i : BitVec 17) (w : BitVec 4) (v : BitVec 32), i.toNat < 69632 →
      mayWrite s (.pf0 port) (19 + i.toNat / 1088) = true →
      (planAdmitted s = true ∨ (getHdr s (19 + i.toNat / 1088)).lock = true → exec (.calWindowWrite (.pf0 port) i w v) s = .next s) ∧
      (planAdmitted s = false → (getHdr s (19 + i.toNat / 1088)).lock = false →
        exec (.calWindowWrite (.pf0 port) i w v) s = .next (modTile s i.toNat (fun t =>
          if w = 0 then { t with gCal := v } else if w = 1 then { t with oCal := v } else if w = 2 then { t with gammaCal := v }
          else if w = 3 then { t with omegaCal := v } else t)))) ∧
    (∀ (s : State) (op : BitVec 16) (probes live heldOut : List RepairInput) (l : Live) (x : AdapterDesc),
      let inputs := probes ++ live ++ heldOut
      let i := op.toNat
      let o := (ownRec s).ops.getD i {}
      let m := 2 ^ x.logM
      let ran := modLive s (fun l => { l with done := (8, i) :: l.done })
      let marked := { ran with sq := { ran.sq with adapters := tblMod {} ran.sq.adapters o.tag (fun a => { a with reads := [] }) } }
      let vs := inputs.map (repairVec s o x)
      let es := vs.map (residuals s (ownRec s) i)
      s.sq.live = some l → o.adapter = some x → l.template = o.template → (liveTemplate s).repair = true → x.train = true →
      (tblGet (false, false) s.sq.repair o.owner).1 = true → inputOrder m inputs = true →
      (∀ y ∈ inputs, inputAllowed s o x (tblGet (false, false) s.sq.repair o.owner).2 y = true) → readsShot s o inputs = true →
      l.done.contains (8, i) = false →
        exec (.repairRound op probes live heldOut) s = .next
          (Sys2Proof.Machine.repairRound marked i o x ((vs.take m).map (·.1)) (es.take m) ((vs.drop m).map (·.1)) (es.drop m))) ∧
    (∀ (s : State) (op : BitVec 16) (x : AdapterDesc),
      let i := op.toNat
      let o := (ownRec s).ops.getD i {}
      let st := tblGet {} s.sq.adapters o.tag
      o.adapter = some x → atEdge s 2 = true → st.staged = true → st.eligible = true → s.sq.live = none → s.sq.ended = [] →
      s.sq.verdict ≠ 2 → s.sq.replaying = [] → s.sq.rho = [] →
      let w := writeUnder (writeUnder s (stackKey s o.owner) x.a (st.stagedA.flatMap (fun w => leBytes 2 w.toNat)) 256)
        (stackKey s o.owner) x.b (st.stagedB.flatMap (fun w => leBytes 2 w.toNat)) 256
      let u := { w with sq := { w.sq with adapters := tblMod {} w.sq.adapters o.tag (fun t => { t with
          staged := false, eligible := false, version := t.version + 1 }) } }
      exec (.adapterCommit op) s = .next (raiseEvent u (83 + columnZeroCore u i) 0x32
          (info [(2, o.tag), (4, (st.version + 1).toNat), (4, st.lossNew.toNat), (4, st.lossCur.toNat)])))

/-- LOAD_WEIGHTS is read, checked and held; at most four run; a finished command completes with its result and counts. A fetched
LOAD_WEIGHTS of an owner bound to the function, its words met without error, completes with 0x11 where its header may not be read,
with 0x10 where the header is wrong, and else with the code of the first check that fails (loadCode; tables that may not be read
fail it with 0x11); with none failing, mode DIRECT or ERASE, or a RESUME whose records agree, waits, holding its tiles, and nothing
else changes, a RESUME whose records disagree completes with their code, and a LIVE one waits with a target for each unit or, where
too few targets are free, completes with 0x19. LOAD_WEIGHTS_START completes with fewer than 4 commands in progress: the next
waiting one (in order of arrival; of those that came in one SCLK cycle, Port A's first) is started and each of its entries enters
its job in order; with 4 in progress it changes nothing. An entry's job programs the logical tile's physical tile (DIRECT, sealed
and with the tile available; RESUME with the tile not retired; ERASE with it available) or its target (LIVE). LOAD_WEIGHTS_COMPLETE
of a started command with nothing left to do completes the command with OK, 1 (relieved), 2 (unavailable) or, its key destroyed,
0x20, and its three counts, and the waiting tiles are tried again. (R157, R158, R161, R162, R163, R170, R174, R179, R339) -/
def Obligations.LoadWeightsRuns : Prop :=
  (∀ (s : State) (i : Issuer) (owner : BitVec 8) (list : BitVec 64),
      let o := owner.toNat
      let a := list.toNat
      let h := readUnder s (stackKey s o) a 64
      let mode := byteAt h 6
      let keep := bit (byteAt h 7) 0
      let mc := leAt h 8 4
      let tc := leAt h 12 4
      let tables := (if mc = 0 then [] else [(leAt h 16 8, 32 * mc)]) ++ [(leAt h 24 8, 32 * tc)]
      let entries := fun a n => if mayRead s o (a, 32 * n) then entries32 s o a n else []
      let ms := (entries (leAt h 16 8) mc).map matrixOf
      let ts := (entries (leAt h 24 8) tc).map tileEntryOf
      let none1 : MatrixEntry := { k := 0, n := 0, scales := 0, tag := 0, seam := 0, clean := true }
      let bs := ts.map (fun e => if mode = 3 then { owner := o } else bindingOf s o (keep || mode == 2) (ms.getD e.matrix none1) e)
      let es := ts.map (fun t => (t.group, t.logical))
      let heads := (ts.zip bs).filter (fun x => !(x.2.seam && x.1.logical % 2 == 1))
      let code := loadCode s o mode ms ts bs (tables.all (mayRead s o))
      starts s i 0x24 [o, a] = true → forHere s i = true → ownerRefusal s i o = none → s.ms.poisoned = [] → s.ms.latent = [] →
      (mayRead s o (a, 64) = false → exec (.loadWeights i owner list []) s = .next (complete s i 0x11)) ∧
      (mayRead s o (a, 64) = true → loadHeaderOk h = false → exec (.loadWeights i owner list []) s = .next (complete s i 0x10)) ∧
      (mayRead s o (a, 64) = true → loadHeaderOk h = true →
        (code ≠ 0 → exec (.loadWeights i owner list []) s = .next (complete s i code)) ∧
        (code = 0 → mode = 1 → exec (.loadWeights i owner list []) s =
          .next (acceptLive s i o keep es bs (heads.map (fun x => (x.1.group, x.1.logical, x.2.seam))))) ∧
        (code = 0 → mode = 2 → resumeCode s o ts bs ≠ 0 →
          exec (.loadWeights i owner list []) s = .next (complete s i (resumeCode s o ts bs))) ∧
        (code = 0 → mode = 0 ∨ mode = 3 ∨ (mode = 2 ∧ resumeCode s o ts bs = 0) →
          exec (.loadWeights i owner list []) s = .next (acceptLoad s i o mode keep es bs [])))) ∧
    (∀ (s : State) (i : Issuer) (o mode : Nat) (keep : Bool) (es : List (Nat × Nat)) (bs : List Binding) (tg : List Nat),
      let t := acceptLoad s i o mode keep es bs tg
      (∀ e ∈ es, tileHeld t e.1 e.2 = true) ∧ t.loadNo = s.loadNo + 1 ∧ { t with loads := s.loads, loadNo := s.loadNo } = s) ∧
    (∀ (s : State) (i : Issuer) (o : Nat) (keep : Bool) (es : List (Nat × Nat)) (bs : List Binding) (us : List (Nat × Nat × Bool)),
      let found := liveTargets s (us.filter (·.2.2) ++ us.filter (fun u => !u.2.2))
      (found = none → acceptLive s i o keep es bs us = complete s i 0x19) ∧
      (∀ t ps, found = some (t, ps) → acceptLive s i o keep es bs us =
        acceptLoad t i o 1 keep es bs (es.map (fun e => ((ps.find? (fun p => p.1 == e)).map (·.2)).getD 0)))) ∧
    (∀ (s : State) (x : Load), nextLoad s = some x → x ∈ s.loads ∧ x.started = false ∧
      ∀ y ∈ s.loads, y.started = false → y.came = x.came → y.port = false → x.port = false) ∧
    (∀ (s : State) (x : Load), (s.loads.filter (·.started)).length < 4 → nextLoad s = some x →
      exec .loadWeightsStart s = .next (startJobs (forEach (indexed (x.entries.zip x.binds)) (enterJob x)
        (modLoad s x.no (fun x => { x with started := true }))))) ∧
    (∀ s : State, 4 ≤ (s.loads.filter (·.started)).length ∨ nextLoad s = none → exec .loadWeightsStart s = .next s) ∧
    (∀ (s : State) (x : Load) (k g l : Nat) (b : Binding),
      let job := fun (tile : Nat) => { s with jobs := s.jobs ++ [{ no := x.no, kind := x.mode, group := g, logical := l, tile := tile, bind := b }] }
      let here := (getTg s g).unavailable.contains l = false
      (x.mode = 1 → enterJob x s (k, (g, l), b) = job (x.targets.getD k 0)) ∧
      (x.mode = 2 → retiredState (getTile s (physicalOf s g l)).state = false → enterJob x s (k, (g, l), b) = job (physicalOf s g l)) ∧
      (x.mode = 3 → here → enterJob x s (k, (g, l), b) = job (physicalOf s g l)) ∧
      (x.mode = 0 → x.isSeal = true → here → b.seam = false → enterJob x s (k, (g, l), b) = job (physicalOf s g l))) ∧
    (∀ (s : State) (no : BitVec 32) (x : Load), s.loads.find? (fun x => x.no == no.toNat && x.started) = some x → loadDone s x = true →
      exec (.loadWeightsComplete no) s = .next (complete
        (let u := if x.keyGone then giveUp s (fun j => j.no == x.no) else s; startJobs { u with loads := u.loads.filter (fun y => y.no != x.no) })
        (issuerOf x.port { fn := x.fn, pair := x.pair, cid := x.cid })
        (if x.keyGone then 0x20 else if x.unavailable ≠ 0 then 2 else if x.relieved ≠ 0 then 1 else 0)
        (leBytes 4 x.programmed ++ leBytes 4 x.relieved ++ leBytes 4 x.unavailable)))

/-- Program-verify ends, the tile settles 1 s, is calibrated by 24 shots and becomes ready; a retirement condition sends it to relief.
With the DP level below CRITICAL, TILE_PROGRAM_DONE of a tile being programmed for a direct or live load or a relief, with no
failed cell, writes the cells of the block's weights under the owner's mapping (in an ERASE those of zero weights), read with what
errors they meet, ends programming and counts a program cycle; a RESUME counts none, and its tile that was not touched keeps its
cells. A live load's or a relief's tile then settles for 1 s. The retirement condition is 1 for a residual canary, 0 for at most 4
residual pairs and 256 failed cells, 2 for more than 64 pairs. TILE_SETTLE_END of a settled tile begins its calibration.
TILE_CAL_COMPLETE with 24 shots marks the converters found dead and loads the calibration; without a job waiting for it nothing
else follows; with one the tile becomes ready, its load record is written if a load's or a load's relief is sealed and its owner's
key stands, and a direct, resumed or erasing job ends, while a live or relief one waits for its swap. An ERASE list without a
failing check is accepted and waits; LOAD_WEIGHTS_START starts the next command while fewer than four run, and
LOAD_WEIGHTS_COMPLETE of one with nothing left to do takes it away. (R55, R56, R57, R164, R167, R169, R170, R175, R177, R182, R554) -/
def Obligations.ProgrammingOfATile : Prop :=
  (∀ (s : State) (tile : BitVec 17) (iterations : BitVec 16) (j : Job),
      let i := tile.toNat
      let key := if j.kind = 3 then 0 else (getSlot s j.bind.owner).kMap
      let sg := if j.bind.seam then (if i % 2 = 0 then i + 1 else i) else i
      let u := if j.kind = 3 then s
        else eccRead s j.bind.block 131072 [] (if j.no = 0 then rdFirmware else rdCommand) (if j.no = 0 then 0xFFFF else 258)
      let ws := if j.kind = 3 then List.replicate 512 (List.replicate 512 0) else physicalWeights key i sg (masterBlock u j.bind)
      let t1 := modTile (modTile u i (fun t => { t with programming := false, pvIter := iterations.toNat })) i (fun t => { t with
        cells := (programmedCells ws [] []).1, keyMap := key, sigmaG := sg, progAt := s.clock, progHours := s.hb.poweredHours })
      s.jobs.find? (fun j => j.tile == i && j.phase == 1) = some j → jobStopped s j = false → level s < 3 →
        (∀ b, j.kind = 0 ∨ j.kind = 1 ∨ j.kind = 3 ∨ j.kind = 4 → exec (.tileProgramDone tile [] [] iterations b) s =
          .next (showProg (boundaryNow (startJobs (programmed (updatePvMean (countCycle t1 i)) j b))) (i / 1088))) ∧
        (j.kind = 2 → exec (.tileProgramDone tile [] [] iterations false) s = .next (showProg (boundaryNow (startJobs
          (programmed (updatePvMean (modTile u i (fun t => { t with programming := false }))) j false))) (i / 1088)) ∧
          exec (.tileProgramDone tile [] [] iterations true) s = .next (showProg (boundaryNow (startJobs
            (programmed (updatePvMean t1) j true))) (i / 1088)))) ∧
    (∀ (s : State) (j : Job), j.kind = 1 ∨ j.kind = 4 → tblWf {} s.tiles = true →
      (getTile (programmed s j true) j.tile).settleEnd = some (s.clock + secCycles)) ∧
    (∀ (res : List (Nat × Nat)) (failed : Nat),
      ((∃ x ∈ res, 512 ≤ x.2) → retireCondition res failed = 1) ∧
      ((∀ x ∈ res, x.2 < 512) → res.length ≤ 4 → failed ≤ 256 → retireCondition res failed = 0) ∧
      ((∀ x ∈ res, x.2 < 512) → 64 < res.length → retireCondition res failed = 2)) ∧
    (∀ (s : State) (tile : BitVec 17) (t : Nat), (getTile s tile.toNat).settleEnd = some t → t ≤ s.clock →
      exec (.tileSettleEnd tile) s = .next (startTileCal (modTile (modJob s tile.toNat (fun j => { j with phase := 3 })) tile.toNat
        (fun t => { t with settleEnd := none })) tile.toNat)) ∧
    (∀ (s : State) (tile : BitVec 17) (dead : List (BitVec 7)), let i := tile.toNat
      let done := finishTileCal (forEach (dead.filter (fun c => decide (c.toNat ≤ 64))) (fun s c => convDead s i c.toNat 2) s) i
      let u := modTg done (i / 1088) (fun t => { t with calDue := t.calActive || (tilesOf done (i / 1088)).any (fun e => e.2.calibrating) })
      ((getTile s i).calibrating = true → (getTile s i).calShots = 24 → exec (.tileCalComplete tile dead) s = .next (jobCalibrated u i)) ∧
      ((getTile s i).calibrating = false → exec (.tileCalComplete tile dead) s = .next (jobCalibrated s i))) ∧
    (∀ (s : State) (i : Nat),
      (s.jobs.find? (fun j => j.tile == i && j.phase == 3) = none → jobCalibrated s i = s) ∧
      (∀ j, s.jobs.find? (fun j => j.tile == i && j.phase == 3) = some j →
        let r := modTile s i (fun t => { t with ready := true, history := [], holdG := 0, holdO := 0 })
        let w := if j.bind.sealedLoad && !jobStopped r j && (j.no != 0 || decide (j.kind ≤ 2)) then writeLoadRec r j.group j.logical j.bind else r
        (j.kind = 0 ∨ j.kind = 2 ∨ j.kind = 3 → jobCalibrated s i = dropJob w i) ∧
        (j.kind = 1 ∨ j.kind = 4 → jobCalibrated s i = boundaryNow (modJob w i (fun j => { j with phase := 4 }))))) ∧
    (∀ (s : State) (i : Issuer) (owner : BitVec 8) (list : BitVec 64),
      let o := owner.toNat
      let a := list.toNat
      let h := readUnder s (stackKey s o) a 64
      let place := leAt h 24 8
      let n := leAt h 12 4
      let ts := (entries32 s o place n).map tileEntryOf
      starts s i 0x24 [o, a] = true → forHere s i = true → ownerRefusal s i o = none → s.ms.poisoned = [] → s.ms.latent = [] →
      mayRead s o (a, 64) = true → loadHeaderOk h = true → byteAt h 6 = 3 → leAt h 8 4 = 0 → mayRead s o (place, 32 * n) = true →
      loadCode s o 3 [] ts (ts.map (fun _ => { owner := o })) true = 0 →
      ∃ t x, exec (.loadWeights i owner list []) s = .next t ∧ t.loads = s.loads ++ [x] ∧ x.no = s.loadNo ∧ x.owner = o ∧ x.mode = 3 ∧
        x.entries = ts.map (fun e => (e.group, e.logical)) ∧ x.started = false ∧ t.loadNo = s.loadNo + 1) ∧
    (∀ (s : State) (x : Load), (s.loads.filter (·.started)).length < 4 → nextLoad s = some x →
      ∃ t, exec .loadWeightsStart s = .next t ∧ (t.loads.filter (·.started)).length = ((modLoad s x.no
        (fun x => { x with started := true })).loads.filter (·.started)).length) ∧
    (∀ (s : State) (no : BitVec 32) (x : Load), s.loads.find? (fun x => x.no == no.toNat && x.started) = some x → loadDone s x = true →
      ∃ t, exec (.loadWeightsComplete no) s = .next t ∧ ∀ y ∈ t.loads, y.no ≠ no.toNat)

/-- TILE_RETIRE relieves or retires a tile with a trigger; LIVE_SWAP moves a whole command at once; TILE_UNBIND unbinds after a key
destruction. TILE_RETIRE of a tile with a standing trigger that is not yet retired, or only vacated: a target of a live load or a
relief is given up and its logical tile relieved anew; one that serves a logical tile with no relief in progress is relieved from
its master copy (both halves of a seam pair together), as its job's where it has one; one that serves none is retired at once, but
for an excluded one, and one that an assay holds fails that assay's job. LIVE_SWAP between beats, with every target of the command
ready, swaps all its logical tiles; with a target not ready it does nothing. TILE_UNBIND between beats unbinds every tile of the
owners whose key was destroyed, gives up their programming and leaves none waiting. (R81, R169, R170, R171, R174, R176, R179, R530,
R642) -/
def Obligations.RetireSwapAndUnbind : Prop :=
  (∀ (s : State) (group : BitVec 6) (tile : BitVec 11),
      let g := group.toNat
      let i := tileIx g tile.toNat
      tile.toNat < 1088 → retireDue s i = true → retiredState (getTile s i).state = false ∨ (getTile s i).vacated = true →
      (∀ j, s.jobs.find? (fun j => j.tile == i && (j.kind == 1 || j.kind == 4)) = some j →
        exec (.tileRetire group tile []) s = .next (boundaryNow (startJobs (failTarget s j)))) ∧
      (s.jobs.find? (fun j => j.tile == i && (j.kind == 1 || j.kind == 4)) = none →
      (servedBy s i = none → s.jobs.find? (fun j => j.tile == i && decide (6 ≤ j.kind)) = none →
        exec (.tileRetire group tile []) s = .next (if (getTile s i).state = 5 then s else retireTile s i 1)) ∧
      (∀ j, servedBy s i = none → s.jobs.find? (fun j => j.tile == i && decide (6 ≤ j.kind)) = some j →
        exec (.tileRetire group tile []) s = .next (startJobs (failJob s j))) ∧
      (∀ l, servedBy s i = some l → s.jobs.any (fun j => j.group == g && j.logical == l && j.kind == 4) = false →
        let own := s.jobs.find? (fun j => j.tile == i && decide (j.kind ≤ 3))
        let b := (own.map (·.bind)).getD (lastBinding s g l)
        let u := forEach (pairWith s g l b) (fun s x => if x.2.bound && extentsGranted s x.2.owner x.2.block 131072 then
          eccRead s x.2.block 131072 [] rdFirmware 0xFFFF else s) s
        (own = none → exec (.tileRetire group tile []) s = .next (boundaryNow (startJobs (failInPlace u 0 g l b)))) ∧
        (∀ j, own = some j → exec (.tileRetire group tile []) s = .next (boundaryNow (startJobs (failJob u j))))))) ∧
    (∀ (s : State) (no : BitVec 32) (x : Load),
      let js := s.jobs.filter (fun j => j.no == x.no && j.kind == 1)
      s.loads.find? (fun x => x.no == no.toNat && x.started && x.mode == 1 && !x.keyGone) = some x →
      (s.sq.live = none → js ≠ [] → (∀ j ∈ js, j.phase = 4) → exec (.liveSwap no) s = .next (showSeams (forEach js (swapLive x) s))) ∧
      ((∃ j ∈ js, j.phase ≠ 4) → exec (.liveSwap no) s = .next s)) ∧
    (∀ (s : State) (x : Load) (j : Job), x.isSeal = true → tblWf none s.bindings = true →
      getBinding (swapLive x s j) j.group j.logical = some j.bind) ∧
    (∀ s : State, (s.sq.live ≠ none → exec .tileUnbind s = .next s) ∧
      (s.sq.live = none → ∃ t, exec .tileUnbind s = .next t ∧ t.unbinding = [] ∧
        ({ t with unbinding := s.unbinding } =
          giveUp (forEach s.unbinding unbindOwner s) (fun j => s.unbinding.contains j.bind.owner && !s.loads.any (fun x => x.no == j.no))))) ∧
    (∀ (s : State) (o g l : Nat), tblWf none s.bindings = true →
      getBinding (unbindOwner s o) g l = (getBinding s g l).map (fun b => if b.owner = o then { b with bound := false } else b))

/-- PLAN_ADMIT checks a set, PLAN_ADMITTED brings it into force, PLAN_RETIRE and PLAN_RETIRED take it away; RING_RESUME; the idle
passes. From PF0 of Port A of the headframe: PLAN_ADMIT with nothing in the way and an image in owner 0's granted memory with no
word in error keeps address and command, begins the check (state 2) and hands the image to the other members; a poisoned word is
met and completes it with MEM_ERROR; barred, it is rejected with STATE, the header's MODEL_ID in the event where the image may be
read. PLAN_CHECK_COMPLETE, no device reporting another rejection, completes the command with this device's first error or keeps the
set, and PLAN_ADMITTED then puts it in force: active bucket, empty round 0, event 0x04, the command completed, the stretch set on
the headframe and the round-start flit sent. PLAN_RETIRE marks the set for retirement and completes, with NO_SET where there is
none; at a boundary halted for it PLAN_RETIRED leaves no set, no active plan and event 0x0C. RING_RESUME during a halt is noted.
With no set admitted, the waiting owner and stream commands and the expired pauses act and steps 2 to 4 of a boundary run once
every millisecond of RTB. (R213, R264, R283, R284, R296, R299, R306, R358, R360, R461, R640) -/
def Obligations.PlanSetsComeAndGo : Prop :=
  (∀ (s : State) (i : Issuer) (addr : BitVec 64) (ok : Bool), starts s i 0x30 [addr.toNat] = true →
      (fromHeadPf0 s i = false → exec (.planAdmit i addr ok) s = .next (complete s i stNotAllowed)) ∧
      (fromHeadPf0 s i = true → admitBarred s = false →
        let key := stackKey s 0
        let n := imageSize s key addr.toNat
        let u := { s with sq := { s.sq with checking := some (addr.toNat, key), admitCmd := some i, state := 2 } }
        (extentsGranted s 0 addr.toNat 256 = false ∨ extentsGranted s 0 addr.toNat n = false →
          exec (.planAdmit i addr true) s = .next (complete s i stMemAccess)) ∧
        (extentsGranted s 0 addr.toNat 256 = true → extentsGranted s 0 addr.toNat n = true →
          (poisonedIn s addr.toNat n = true → exec (.planAdmit i addr true) s =
            .next (complete (eccRead s addr.toNat n [] rdCommand 258) i stMemError)) ∧
          (poisonedIn s addr.toNat n = false → exec (.planAdmit i addr true) s =
            .next (broadcast u 0x30 [addr.toNat] (readUnder s key addr.toNat n))))) ∧
      (fromHeadPf0 s i = true → admitBarred s = true ∨ ok = false → exec (.planAdmit i addr ok) s = .next
        (complete (reject (modelAt s addr.toNat).2 (rejState, 0, lsHeader, 0) (modelAt s addr.toNat).1) i rejState
          (rejectResult (ownPosition s) (rejState, 0, lsHeader, 0))))) ∧
    (∀ (s : State) (a key : Nat), s.sq.checking = some (a, key) → isHeadframe s = true → s.ms.poisoned = [] → s.ms.latent = [] →
      extentsGranted s 0 a (imageSize s key a) = true →
      exec (.planCheckComplete [] []) s = .next (match (checkImage s a key).2 with
        | none => { s with sq := { s.sq with checking := none, checked := some { (checkImage s a key).1 with addr := a } } }
        | some e => checkOver (completeAdmit (reject s e (checkImage s a key).1.modelId.toNat) e.1 (rejectResult (ownPosition s) e)))) ∧
    (∀ (s : State) (ps : PlanSet) (ret : List (BitVec 32 × BitVec 32)), let r := ret.map (fun x => (x.1.toNat, x.2.toNat))
      let u := raiseEvent (admitSet s ps r) 6 0x04 (info [(8, ps.modelId.toNat), (2, bucketMask ps), (1, (lowestPlan ps).bucket)])
      let v := match s.sq.admitCmd with
        | some i => complete u i stOk (padTo 8 [])
        | none => u
      s.sq.checked = some ps → s.sq.live = none → retentionOk s (ownRecs s ps) r = true →
      exec (.planAdmitted ret) s = .next (if isHeadframe v then sendRoundStart (setStretch v) else v)) ∧
    (∀ (s : State) (ps : PlanSet) (r : List (Nat × Nat)), let t := admitSet s ps r
      planAdmitted t = true ∧ t.sq.planSet = some ps ∧ t.sq.active = (lowestPlan ps).bucket ∧ t.sq.state = 3 ∧ t.sq.emptyRound = true ∧
      t.sq.round = 0 ∧ t.sq.runs = [] ∧ t.sq.steps = [] ∧ t.sq.rho = [] ∧ t.sq.retentionExt = r ∧ t.sq.checked = none) ∧
    (∀ (s : State) (i : Issuer), starts s i 0x31 [] = true → fromHeadPf0 s i = true →
      (planAdmitted s = false → exec (.planRetire i) s = .next (complete s i stNoSet)) ∧
      (planAdmitted s = true → s.sq.retireWanted = 0 →
        exec (.planRetire i) s = .next (complete { s with sq := { s.sq with retireWanted := 1 } } i stOk))) ∧
    (∀ (s : State) (ps : PlanSet), s.sq.planSet = some ps → s.sq.haltRetire = true → s.sq.live = none →
      exec .planRetired s = .next (raiseEvent (forEach (upTo 64) applyTrims (retireSet s)) 6 0x0C
        (info [(1, if s.sq.retireWanted = 2 then 2 else 1), (7, 0), (8, ps.modelId.toNat)]))) ∧
    (∀ s : State, let t := retireSet s
      planAdmitted t = false ∧ t.sq.state = 1 ∧ t.sq.active = 15 ∧ t.sq.live = none ∧ t.sq.retention = [] ∧ t.sq.steps = [] ∧
      t.bindings = s.bindings) ∧
    (∀ (s : State) (i : Issuer), starts s i 0x32 [] = true → fromHeadPf0 s i = true →
      exec (.ringResume i) s = .next (complete (if s.sq.state = 5 then { s with sq := { s.sq with resumeIssued := true } } else s) i stOk)) ∧
    (∀ s : State, planAdmitted s = false →
      (s.sq.lastIdleMs = s.power.rtb.toNat / 100000 → exec .idleBoundaryPass s = .next s) ∧
      (s.sq.lastIdleMs ≠ s.power.rtb.toNat / 100000 →
        let u := { s with sq := { s.sq with lastIdleMs := s.power.rtb.toNat / 100000, edgeAt := some s.clock, edgeKind := 2 } }
        exec .idleBoundaryPass s = .next (stepsTwoToFour (if isHeadframe s then expireDue (actCommands u) else u) s.sq.epoch)))

/-- The headframe's boundary verdicts, switch gap and status flits; the round-start flit on a member; SQ_STRETCH. A boundary is taken
on the headframe only when the round's time is over and no beat runs. A started round takes its verdict, number, start and layout,
and the state they mean. A status flit of the round in time is recorded once by the headframe and passed on by a member. The
device's own flit leaves after its last position, FAULT events first; one that reports CRITICAL is counted, and the faults it
reports are then told. A member passes a good round-start flit on unless it is the last position, and begins its round if that is
later than its own. The gap's end changes the active plan, and on the headframe streams that become eligible wait and the next
round is assigned. SQ_STRETCH stores a FLOOR up to 60. A round without stretch lasts F ticks, an empty one 8,192, a gap 32,768.
(R258, R288, R290, R291, R292, R296, R298, R300, R308, R311, R360, R420) -/
def Obligations.RoundsBeginAndEnd : Prop :=
  (∀ (s : State) (thawed : Bool) (lack : List (BitVec 16 × BitVec 6 × BitVec 32 × BitVec 32)),
      (atBoundary s false = true → exec (.roundBoundary thawed lack) s = .next (boundary s thawed lack)) ∧
      (atBoundary s true = true → exec (.emptyRoundEnd thawed lack) s = .next (boundary s thawed lack)) ∧
      (s.sq.live ≠ none ∨ roundTick s < roundTicks s → exec (.roundBoundary thawed lack) s = .next s ∧
        exec (.emptyRoundEnd thawed lack) s = .next s)) ∧
    (∀ s : State, s.sq.state ≠ 6 →
      (s.sq.emptyRound = true → roundTicks s = 8192) ∧
      (s.sq.emptyRound = false → roundTicks s = roundF s + 8 * ((roundF s * s.sq.current + 799) / 800))) ∧
    (∀ s : State, s.sq.state = 6 → roundTicks s = 32768) ∧
    (∀ (s : State) (n rtb : Nat) (li : Option Nat) (v : Nat), let t := startRound s v n rtb li
      t.sq.verdict = v ∧ t.sq.round = n ∧ t.sq.roundRtb = BitVec.ofNat 64 rtb ∧ t.sq.emptyRound = li.isNone ∧
      t.sq.layout = li.getD s.sq.layout ∧ t.sq.rxStatus = [] ∧ t.sq.ended = [] ∧
      (planAdmitted s = true → t.sq.state = (if v = 3 then 5 else if v = 4 then 6 else if li.isNone then 3 else 4))) ∧
    (∀ (s : State) (p : BitVec 6) (st rp sr lv : BitVec 8) (round : BitVec 64) (ps : List (BitVec 16)),
      (isHeadframe s = false → exec (.statusFlit p st rp sr lv round ps true) s = .next (sendControl s 1
        ([(1, 0x02), (1, st.toNat), (1, p.toNat), (1, sr.toNat), (1, lv.toNat), (1, rp.toNat), (2, 0), (8, round.toNat)] ++
          (ps.map (·.toNat)).map (fun p => (2, p))))) ∧
      (isHeadframe s = true → planAdmitted s = true → round.toNat = s.sq.round → roundTick s ≤ roundLimit s → p.toNat < ringCount s →
        (rx s p.toNat).got = false → exec (.statusFlit p st rp sr lv round ps true) s = .next { s with sq := { s.sq with
          rxStatus := tblSet {} s.sq.rxStatus p.toNat
            { got := true, status := st.toNat, replaying := rp.toNat, stretch := sr.toNat, level := lv.toNat } } })) ∧
    (∀ s : State, planAdmitted s = true → statusSent s = false → statusDue s = true →
      let r := stretchRequest (faultEvents s)
      let u := { r.2 with sq := { r.2.sq with request := r.1, statusFor := some r.2.sq.round } }
      let v := if ownStatus u = 4 then
        overrideEvent { u with dp := { u.dp with ovHalt := u.dp.ovHalt.bump (sclk u) 255 1 } } 3 0 else u
      let w := sendStatus v u.sq.round (ownStatus u) r.1 (listedPositions u)
      exec .statusFlitSend s = .next { w with sq := { w.sq with faulted := false, faultPos := [] } }) ∧
    (∀ (s : State) (v : BitVec 3) (li st bk : BitVec 8) (round start retired epoch : BitVec 64) (causes : BitVec 5) (orders : List Order),
      let u := if (ownPosition s + 1) % ringCount s = 0 then s else sendControl s 1 [(1, 0x01), (1, v.toNat), (1, li.toNat),
        (1, st.toNat), (1, bk.toNat), (3, 0), (8, round.toNat), (8, start.toNat), (8, retired.toNat), (8, epoch.toNat)]
      isHeadframe s = false → planAdmitted s = true → s.ri.roundSeen ≠ some round.toNat →
      s.sq.live = none → s.sq.round < round.toNat → 1 ≤ v.toNat → v.toNat ≤ 4 →
        exec (.roundStartFlit v li st bk round start retired epoch true causes orders) s = .next (memberRound u v.toNat li.toNat st.toNat
          bk.toNat round.toNat start.toNat retired.toNat epoch.toNat causes.toNat orders)) ∧
    (∀ (s : State) (b : Nat) (lack : List (BitVec 16 × BitVec 6 × BitVec 32 × BitVec 32)), s.sq.switchTo = some b → s.sq.state = 6 →
      32768 ≤ roundTick s →
      (isHeadframe s = true → exec (.switchGapEnd lack) s =
        (let u := clipAll (switchPlan s b); .next (runOn (forEach (streamIds u) (markWaiting lack) u) lack))) ∧
      (isHeadframe s = false → exec (.switchGapEnd lack) s =
        .next { switchPlan s b with sq := { (switchPlan s b).sq with state := 3 } })) ∧
    (∀ (s : State) (port : Bool) (v : BitVec 32), mayWrite s (.pf0 port) 6 = true → let f := v.toNat / 65536 % 128
      (f ≤ 60 → exec (.sqStretch (.pf0 port) v) s = .next { s with sq := { s.sq with floor := f } }) ∧
      (60 < f → exec (.sqStretch (.pf0 port) v) s = .next s))

/-- Which verdict a boundary on the headframe gives: HALT over SLIP over SWITCH and RUN. At a boundary at which no handoff is waiting
to become pending: if any cause of a halt stands, the next round's verdict is 3 and it is empty; if none stands but the round ran
and a status flit reported a replay, the verdict is 2 and the layout stays; if none stands and no round ran, outside a halt, it is
1 or 4. (R291, R292, R296, R298, R351) -/
def Obligations.BoundaryVerdict : Prop :=
  ∀ (s : State) (thawed : Bool) (lack : List (BitVec 16 × BitVec 6 × BitVec 32 × BitVec 32)),
    s.cx.hoState ≠ 3 →
    let t := boundary s thawed lack
    (causesNow s thawed ≠ 0 → t.sq.verdict = 3 ∧ t.sq.emptyRound = true ∧ (planAdmitted s = true → t.sq.state = 5)) ∧
    (causesNow s thawed = 0 → s.sq.roundRan = true → replaySeen s = true → t.sq.verdict = 2 ∧ t.sq.layout = s.sq.layout) ∧
    (causesNow s thawed = 0 → s.sq.roundRan = false → s.sq.state ≠ 5 → t.sq.verdict = 1 ∨ t.sq.verdict = 4)

/-- A DMA slot starts at its tick on its core's plan queue and completes into the scratchpad or the stacks; a copied page waits for its
remap. In the first DCLK cycle of tick START, DMA_SLOT_START of a slot whose queue is not frozen and whose access is allowed keeps
the transfer as running, with what a write reads from the scratchpad and the row identifiers a gathering KV read finds there at
that instant, reported where they lie outside the stream; an unposted write makes none and freezes its poster, a refused one
freezes the queue with 0x0A05 (for a page without a frame at an address that is the model's free value, log entry 37), a frozen
queue makes none. On completion a read queues its pieces row by row for the slot's place, unless the core is frozen, and a write
stores its pieces under the owner's key; one that ends after END counts in LATE. A KV read behind an uncommitted KV write of one of
its rows does not complete. COPY_COMPLETE copies the blocks of the page to the new frame and marks the copy done, on the headframe
only when every other device has. A ring slot not yet sent is sent at its tick; the first flit of a transfer begins its buffer, as
lost where it failed; what is held is released, and arrives row by row at the destination; a token record that has come is taken
once. (R208, R278, R295, R318, R320, R321, R322, R362, R381, R382, R383, R386) -/
def Obligations.PlanTransfers : Prop :=
  (∀ (s : State) (slot : BitVec 16) (l : Live) (x : Dma),
      let k := slot.toNat
      let u := modLive s (fun l => { l with done := (5, k) :: l.done })
      let r := if x.mode = 1 then selectedRun u l x.addr else none
      let owner := match r with
        | some r => r.owner
        | none => if x.mode = 2 then x.owner else 0
      s.sq.live = some l → (liveTemplate s).dmas[k]? = some x → l.cycle = 2 * x.start → l.done.contains (5, k) = false →
      (isFrozen s 2 x.core = true → exec (.dmaSlotStart slot []) s = .next u) ∧
      (isFrozen s 2 x.core = false → x.dir = 1 → isPosted u 3 k = false → exec (.dmaSlotStart slot []) s = .next (unposted u 3 k)) ∧
      (isFrozen s 2 x.core = false → (x.dir = 1 → isPosted u 3 k = true) →
        (dmaRefused u x r = true → x.mode ≠ 1 → exec (.dmaSlotStart slot []) s = .next (freezeQueue u l.pos x.core 0x0A05 x.addr)) ∧
        (dmaRefused u x r = true → x.mode = 1 → ∃ a, exec (.dmaSlotStart slot []) s =
          .next (freezeQueue { u with free := u.free + 1 } l.pos x.core 0x0A05 a)) ∧
        (dmaRefused u x r = false →
          let ids := if x.mode = 1 ∧ kvSpan x.addr = 2 ∧ r.isSome = true then rowIds (getCore s x.core) x [] else []
          let v := rowRange u owner k x ids
          exec (.dmaSlotStart slot []) s = .next { v with sq := { v.sq with dmaRunning := v.sq.dmaRunning ++ [{
            pos := l.pos, template := l.template, slot := k, owner := owner, run := r, endAt := s.clock + 2 * x.stop - l.cycle
            ids := ids, data := if x.dir = 1 then (getCore s x.core).serve x.offset x.bytes [] else [] }] } }))) ∧
    (∀ (s : State) (pos slot : BitVec 16) (d : DmaRun),
      let x := ((ownRec s).templates.getD d.template {}).dmas.getD d.slot {}
      let u := { s with sq := { s.sq with dmaRunning := s.sq.dmaRunning.erase d } }
      let v := if d.endAt < s.clock then { u with ms := { u.ms with late := s.ms.late.bump (sclk s) 65535 1 } } else u
      s.sq.dmaRunning.find? (fun d => d.pos == pos.toNat && d.slot == slot.toNat) = some d → s.ms.poisoned = [] → s.ms.latent = [] →
      (heldBehind s x d = true → exec (.dmaTransferComplete pos slot []) s = .next s) ∧
      (heldBehind s x d = false → isFrozen s 2 x.core = true → exec (.dmaTransferComplete pos slot []) s = .next u) ∧
      (heldBehind s x d = false → isFrozen s 2 x.core = false →
        (x.dir = 0 → coreFrozen s x.core = true → exec (.dmaTransferComplete pos slot []) s = .next v) ∧
        (x.dir = 0 → coreFrozen s x.core = false → exec (.dmaTransferComplete pos slot []) s = .next (deliverRows d.pos x.core x.offset
          (chunks 64 (x.bytes / 64) (readPieces v (stackKey s d.owner) (dmaPieces v x d))) v)) ∧
        (x.dir ≠ 0 → exec (.dmaTransferComplete pos slot []) s =
          .next (forEach (writePieces v x d) (fun s w => writeUnder s (stackKey v d.owner) w.1 w.2 x.core) v)))) ∧
    (∀ (s : State) (x : Dma) (d : DmaRun), x.mode ≠ 1 → dmaPieces s x d = [(some x.addr, x.bytes)] ∧ writePieces s x d = [(x.addr, d.data)]) ∧
    (∀ (s : State) (stream : BitVec 16) (page : BitVec 14) (others : Bool) (t : Stream) (c : Nat × Nat × Bool),
      getStream s stream.toNat = some t → t.copies.find? (fun c => c.1 == page.toNat && !c.2.2) = some c →
      (isHeadframe s = true → others = false → exec (.copyComplete stream page others []) s = .next s) ∧
      (isHeadframe s = false ∨ others = true → ownChannel s t.set.channel = false →
        exec (.copyComplete stream page others []) s = .next (modStream s stream.toNat (fun t => { t with
          copies := t.copies.map (fun d => if d = c then (c.1, c.2.1, true) else d) }))) ∧
      (isHeadframe s = false ∨ others = true → ownChannel s t.set.channel = true → tblGet 0 t.pages page.toNat ≠ 0 →
        let g := ownGeometry s
        let e := kvEntry (g.getD 2 0 == 1) (g.getD 1 0)
        exec (.copyComplete stream page others []) s = .next (modStream
          (forEach (upTo (2 * g.getD 3 0 * g.getD 0 0)) (fun u b => copyBlock u (stackKey u t.owner)
            (frameAddr s (tblGet 0 t.pages page.toNat - 1) + b * (64 * e)) (frameAddr s c.2.1 + b * (64 * e)) (64 * e)
            (e * min 64 (t.length - 64 * page.toNat)) []) s) stream.toNat (fun t => { t with
              copies := t.copies.map (fun d => if d = c then (c.1, c.2.1, true) else d) })))) ∧
    (∀ (s : State) (slot : BitVec 16) (ecc : List (Nat × Bool)) (l : Live) (r : Ring), s.sq.live = some l →
      (liveTemplate s).rings[slot.toNat]? = some r → l.cycle / 2 = r.send → l.done.contains (4, slot.toNat) = false →
      ∃ t m, exec (.timedSend slot ecc) s = .next t ∧ t.sq.live = some m ∧ m.cycle = l.cycle ∧ m.done = (4, slot.toNat) :: l.done) ∧
    (∀ (s : State) (src : BitVec 6) (pos slot index : BitVec 16) (payload : List (BitVec 8)) (ok poison : Bool) (x : Pos) (r : Ring),
      ringSlot s src.toNat pos.toNat slot.toNat = some (x, r) → x.layout = s.sq.layout → s.sq.emptyRound = false →
      onPath s src.toNat r = true → isFrozen s 4 (timedSource src.toNat r.srcCore) = false →
      findTransfer s src.toNat pos.toNat slot.toNat = none → index = 0 → 0 < flitCount r.bytes →
      ∃ t y, exec (.timedFlit src pos slot index payload ok poison) s = .next t ∧ findTransfer t src.toNat pos.toNat slot.toNat = some y ∧
        y.data.length = 246 ∧ (y.lost = [] ↔ ok = true ∧ poison = false)) ∧
    (∀ (s : State) (src : BitVec 6) (pos slot : BitVec 16) (x : Pos) (r : Ring) (y : Transfer),
      ringSlot s src.toNat pos.toNat slot.toNat = some (x, r) → findTransfer s src.toNat pos.toNat slot.toNat = some y → y.dropped = false →
      (flitCount r.bytes * 246 ≤ y.data.length → linkTicks r.bytes ≤ roundTick s - releaseTick s src.toNat x r →
        y.released < linkTicks r.bytes →
        ∃ t, exec (.timedRelease src pos slot) s = .next t ∧ findTransfer t src.toNat pos.toNat slot.toNat =
          (if r.dstDevice = ownPosition s then some { y with released := linkTicks r.bytes } else none)) ∧
      (r.dstDevice = ownPosition s → x.layout = s.sq.layout → s.sq.emptyRound = false → y.arrived ≠ 0 → y.fromCopy = false →
        y.arrived < min (480 * y.released) r.bytes / 64 →
        ∃ t z, exec (.timedArrival src pos slot) s = .next t ∧ findTransfer t src.toNat pos.toNat slot.toNat = some z ∧
          z.arrived = min (480 * y.released) r.bytes / 64)) ∧
    (∀ (s : State) (read : ErrRead) (f : Standing) (x : Pos), let p := read.subject.toNat
      feedSlot (ownRec s) p = some f → posAt s p = some x → s.sq.emptyRound = false → x.layout = s.sq.layout →
      s.sq.recordsTaken.contains p = false → coreFrozen s f.core = false →
      (if 1 < ringCount s then s.sq.recordsIn.contains p = true else s.sq.live = none ∧ lastEnd (ownRec s) s.sq.layout ≤ roundTick s) →
      ∃ t, exec (.tokenRecordArrival read) s = .next t ∧ t.sq.recordsTaken = s.sq.recordsTaken ++ [p])

/-- A ring slot is sent from SEND on, goes through the re-timing buffer, is released at its published tick and arrives row by row.
TIMED_SEND at SEND of a slot not yet sent completes: it marks the slot, draws up the step header and run table of a STEP_OUT and
sends the first piece; an unposted slot freezes its poster and sends zeros. Each later tick sends the next 480 bytes, read then
from the core, the header and table taking the first and last bytes of the payload, as the flits they fill. TIMED_FLIT of the
expected index adds its 246 bytes to the buffer, as lost where the CRC failed or POISON is set. TIMED_RELEASE lets at most 480
bytes a tick go after the published delay, to the next link or, at the destination, to its rows; what has all gone on leaves the
buffer. TIMED_ARRIVAL queues the rows released and not yet arrived, in a slip round those of the valid retained copy, to commit at
the end of the cycle, and reports each lost flit that touches them; a row that a lost flit touches is NaNs. A row in a FULL slot
freezes its ring source with 0x0D11. TOKEN_RECORD_ARRIVAL on the headframe of a ring takes a record once and lets each returned
step have its entry; an entry whose counts do not fit is TOKEN_BAD, event 0x0E. (R276, R277, R281, R295, R329, R410, R416, R417,
R418, R421, R423, R444) -/
def Obligations.TimedTransfers : Prop :=
  (∀ (s : State) (slot : BitVec 16) (ecc : List (Nat × Bool)) (l : Live) (r : Ring),
      let k := slot.toNat
      let marked := modLive s (fun l => { l with done := (4, k) :: l.done })
      s.sq.live = some l → (liveTemplate s).rings[k]? = some r → l.cycle / 2 = r.send → l.done.contains (4, k) = false →
        let ok := isPosted marked 2 k
        let u := if ok then marked else unposted marked 2 k
        let h := if r.stepOut then sendHeader u ((u.sq.live).getD l) (!ok) else ([], [])
        let v := if r.stepOut then { u with free := u.free + runSlots (liveTemplate u) } else u
        exec (.timedSend slot ecc) s = .next (sendPiece v r
          { pos := l.pos, slot := k, posted := ok, ecc := ecc, header := h.1, table := h.2 })) ∧
    (∀ (s : State) (r : Ring) (x : Sending), x.ecc = [] →
      let lo := 480 * x.ticks
      let hi := min r.bytes (lo + 480)
      let y := { x with ticks := x.ticks + 1, data := x.data ++ payloadPiece s r x lo hi }
      let u := sendFlits s r y.data [] (flitsReleased r.bytes x.ticks) (flitsReleased r.bytes (x.ticks + 1))
      (x.ticks + 1 < linkTicks r.bytes → sendPiece s r x = { u with ri := { u.ri with sending := u.ri.sending ++ [y] } }) ∧
      (linkTicks r.bytes ≤ x.ticks + 1 → sendPiece s r x = u)) ∧
    (∀ (s : State) (r : Ring) (x : Sending) (lo hi : Nat),
      let a := max lo x.header.length
      let b := min hi (r.bytes - x.table.length)
      payloadPiece s r x lo hi = (x.header.drop lo).take (hi - lo)
        ++ (if x.posted then (getCore s r.srcCore).serve (r.srcOff + a) (b - a) x.ecc else padTo (b - a) [])
        ++ (x.table.drop (lo - (r.bytes - x.table.length))).take (hi - max lo (r.bytes - x.table.length))) ∧
    (∀ s : State, sendTick s = forEach s.ri.sending (fun s x => match ringSlot s (ownPosition s) x.pos x.slot with
      | some (_, r) => sendPiece s r x
      | none => s) { s with ri := { s.ri with sending := [] } }) ∧
    (∀ (s : State) (src : BitVec 6) (pos slot index : BitVec 16) (payload : List (BitVec 8)) (ok poison : Bool) (x : Pos) (r : Ring),
      let t := (findTransfer s src.toNat pos.toNat slot.toNat).getD { src := src.toNat, pos := pos.toNat, slot := slot.toNat, round := s.sq.round }
      ringSlot s src.toNat pos.toNat slot.toNat = some (x, r) → x.layout = s.sq.layout → s.sq.emptyRound = false →
      onPath s src.toNat r = true → t.data.length = 246 * index.toNat → index.toNat < flitCount r.bytes → t.dropped = false →
      isFrozen s 4 (timedSource src.toNat r.srcCore) = false →
      (ok = true → poison = false → exec (.timedFlit src pos slot index payload ok poison) s =
        .next (putTransfer s { t with data := t.data ++ padTo 246 payload })) ∧
      (ok = false ∨ poison = true → exec (.timedFlit src pos slot index payload ok poison) s =
        .next (putTransfer s { t with data := t.data ++ padTo 246 [], lost := t.lost ++ [(index.toNat, if ok then 2 else 1)] }))) ∧
    (∀ (s : State) (src : BitVec 6) (pos slot : BitVec 16) (x : Pos) (r : Ring) (t : Transfer),
      let due := min (if flitCount r.bytes * 246 ≤ t.data.length then linkTicks r.bytes else t.data.length / 480)
        (min (linkTicks r.bytes) (roundTick s - releaseTick s src.toNat x r))
      ringSlot s src.toNat pos.toNat slot.toNat = some (x, r) → findTransfer s src.toNat pos.toNat slot.toNat = some t → t.dropped = false →
      (due ≤ t.released → exec (.timedRelease src pos slot) s = .next s) ∧
      (t.released < due → r.dstDevice = ownPosition s →
        exec (.timedRelease src pos slot) s = .next (putTransfer s { t with released := due })) ∧
      (t.released < due → r.dstDevice ≠ ownPosition s →
        let u := sendFlits (putTransfer s { t with released := due }) r t.data (t.lost.map (·.1)) (flitsReleased r.bytes t.released)
          (flitsReleased r.bytes due)
        (due < linkTicks r.bytes → exec (.timedRelease src pos slot) s = .next u) ∧
        (due = linkTicks r.bytes → exec (.timedRelease src pos slot) s = .next { u with ri := { u.ri with
          retime := u.ri.retime.filter (fun y => !y.is src.toNat pos.toNat slot.toNat) } }))) ∧
    (∀ (s : State) (src : BitVec 6) (pos slot : BitVec 16) (x : Pos) (r : Ring),
      let found := findTransfer s src.toNat pos.toNat slot.toNat
      let t := found.getD { src := src.toNat, pos := pos.toNat, slot := slot.toNat, round := s.sq.round }
      let copy := if t.arrived = 0 ∨ t.fromCopy = true then slipCopy s r src.toNat pos.toNat slot.toNat else none
      let ticks := if copy.isSome then min (linkTicks r.bytes) (roundTick s - releaseTick s src.toNat x r) else t.released
      let rows := min (480 * ticks) r.bytes / 64
      let whole := match copy with
        | some e => e.data
        | none => t.data.take r.bytes
      let hit := if copy.isSome then []
        else t.lost.filter (fun e => decide (64 * t.arrived ≤ 246 * e.1) && decide (246 * e.1 < 64 * rows))
      ringSlot s src.toNat pos.toNat slot.toNat = some (x, r) → found.isSome = true ∨ copy.isSome = true →
      r.dstDevice = ownPosition s → x.layout = s.sq.layout → s.sq.emptyRound = false → t.dropped = false → t.arrived < rows →
      exec (.timedArrival src pos slot) s = .next (putTransfer (forEach hit (fun s e => timedLost s r e.2)
        (forEach ((upTo rows).drop t.arrived) (arriveRow x r copy t) s)) { t with
          arrived := rows, fromCopy := copy.isSome, header := if 64 * rows < r.bytes ∨ r.stepOut = false then [] else whole })) ∧
    (∀ (x : Pos) (r : Ring) (copy : Option Retained) (t : Transfer) (s : State) (j : Nat), copy.isSome = true ∨ retained s r = false →
      isFrozen s 4 (timedSource t.src r.srcCore) = false → coreFrozen s r.dstCore = false →
      arriveRow x r copy t s j = modCore s r.dstCore (fun k => { k with arriving := k.arriving ++ [{
        kind := 4, who := timedSource t.src r.srcCore, pos := r.dstPos, off := r.dstOff + 64 * j
        data := match copy with
          | some e => (e.data.drop (64 * j)).take 64
          | none => if rowLost t j then nanWord else (t.data.drop (64 * j)).take 64 }] })) ∧
    (∀ (s : State) (c : Nat) (w : Arrival) (i o : Nat), w.kind = 4 → coreFrozen s c = false → isFrozen s 4 w.who = false →
      fullSlot (getCore s c) w.off w.data.length = some (i, o) → commitArrival c s w = faultAt (freeze s 7 4 w.who 0x0D11 w.off) w.pos 1) ∧
    (∀ (s : State) (pos : BitVec 16) (f : Standing) (x : Pos), feedSlot (ownRec s) pos.toNat = some f → posAt s pos.toNat = some x →
      1 < ringCount s → s.sq.recordsIn.contains pos.toNat = true → s.sq.emptyRound = false → x.layout = s.sq.layout →
      s.sq.recordsTaken.contains pos.toNat = false → coreFrozen s f.core = false → isHeadframe s = true →
        let data := (getCore s f.core).serve f.base (2 ^ f.n) []
        let bytes := recordBytes ((s.sq.planSet).getD {}) (planNow s) (ownPosition s) pos.toNat
        let u := { s with sq := { s.sq with
          recordsTaken := s.sq.recordsTaken ++ [pos.toNat], recordsIn := s.sq.recordsIn.filter (· != pos.toNat) } }
        exec (.tokenRecordArrival ⟨pos, []⟩) s = .next (forEach
          (recordSlots s pos.toNat data (data.drop (bytes - 64 * ((byteAt data 5 - 6 + 7) / 8))))
          (fun s j => match s.sq.steps.find? (fun y => y.stream == j.2 && y.dev == ownPosition s && !y.back) with
            | some y => takeEntry true data s y j.1
            | none => s) u)) ∧
    (∀ (data : List Byte) (s : State) (x : InFlight) (j : Nat), let e := recordEntry data j
      let mark := fun (toks : List (BitVec 32)) => { s with sq := { s.sq with steps := s.sq.steps.map (fun y =>
        if y = x then { y with back := true, tokens := toks, accepted := e.2.1 } else y) } }
      x.prefill = false →
      (e.1 ≤ x.vectors → e.2.1 < e.1 → e.2.1 ≤ e.2.2.1 →
        takeEntry true data s x j = modStream (mark e.2.2.2) x.stream (fun t => { t with length := x.firstPos + e.1 })) ∧
      (x.vectors < e.1 ∨ e.1 ≤ e.2.1 ∨ e.2.2.1 < e.2.1 → takeEntry true data s x j = raiseEvent (mark []) 6 0x0E
        (info [(2, x.stream), (1, e.1), (1, e.2.1), (1, e.2.2.1), (3, 0), (4, s.sq.beatCount.toNat)])))

/-- NOP, the owner commands, OWNER_REATTACH, SCHED_SET, REPAIR_CTRL, MEMBERSHIP and FN_QUEUES: when each acts, what it does and
returns. A fetched command that may start with its operands: NOP completes OK on the device it names, else it goes there once as a
message, as OWNER_RELEASE goes to the headframe. On the headframe OWNER_CREATE, OWNER_RELEASE, OWNER_LIMITS and OWNER_REATTACH, and
SCHED_SET of its PF0 of Port A, wait for their boundary, as OWNER_BIND and OWNER_UNBIND do while a set is admitted (without one
they act at once). Acting, OWNER_CREATE takes the lowest free ID, fills its slot and binds it to the issuing function, or completes
NO_OWNER; OWNER_RELEASE orders the key's destruction and waits; OWNER_LIMITS stores modes, rates, caps and weight and returns both
balances; OWNER_BIND and OWNER_UNBIND add or take away a function; OWNER_REATTACH with the right token and a live heartbeat binds
it to the issuing function; SCHED_SET stores BACKFILL and PREFILL_SHARE. REPAIR_CTRL keeps its setting for the next boundary;
MEMBERSHIP writes its report; FN_QUEUES maps an UNCONFIGURED pair into a VF's page or takes it out. An owner that does not exist is
UNKNOWN, one not bound to the function DENIED. A doorbell of a usable READY pair sets its tail or head; QP_CONFIG deletes a pair; a
submission entry is fetched with its fields; a signal that is due is sent. (R150, R338, R339, R340, R346, R347, R348, R354, R450,
R453, R461, R499) -/
def Obligations.OwnerAndDeviceCommands : Prop :=
  (∀ (s : State) (i : Issuer), starts s i 0x00 [] = true → forHere s i = true → exec (.nopCommand i) s = .next (complete s i stOk)) ∧
    (∀ (s : State) (i : Issuer) (f : Fetched), findFetched s i = some f → starts s i 0x00 [] = true → forHere s i = false →
      exec (.nopCommand i) s = .next (sendOn s i f.device 0x43 0x00 [])) ∧
    (∀ (s : State) (i : Issuer) (owner : BitVec 8), starts s i 0x02 [owner.toNat] = true → isHeadframe s = false →
      exec (.ownerRelease i owner) s = .next (sendOn s i 0 0x42 0x02 [owner.toNat])) ∧
    (∀ (s : State) (i : Issuer) (f : Fetched) (dst kind op : Nat) (params : List Nat), findFetched s i = some f →
      (f.sent = true → sendOn s i dst kind op params = s) ∧
      (f.sent = false → sendOn s i dst kind op params = sendMessage (modFetched s i (fun f => { f with sent := true })) dst kind
        ([op, ofBool i.port, i.fn.toNat, i.pair.toNat, i.cid.toNat, f.fetchedAt] ++ params))) ∧
    (∀ (s : State) (i : Issuer) (cmd : Instr) (held : Nat), (∀ d ∈ s.sq.deferred, d.issuer ≠ i) →
      stage s i cmd held = { s with promptUsed := s.promptUsed + held, sq := { s.sq with
        deferred := s.sq.deferred ++ [{ issuer := i, cmd := cmd, held := held }] } }) ∧
    (∀ (s : State) (d : Deferred), actOne s d =
      act d { s with sq := { s.sq with deferred := s.sq.deferred.filter (fun e => e.issuer != d.issuer) } }) ∧
    (∀ (s : State) (i : Issuer) (ok : Bool), starts s i 0x01 [] = true → isHeadframe s = true →
      exec (.ownerCreate i ok) s = .next (stage s i (.ownerCreate i ok))) ∧
    (∀ (s : State) (i : Issuer),
      (freeOwner s = none → act { issuer := i, cmd := .ownerCreate i true } s = complete s i stNoOwner) ∧
      (∀ o, freeOwner s = some o → s.ke.state ≠ 2 →
        let token : BitVec 128 := BitVec.ofNat 128 (draw (drbgRequest s)).1
        let u := setOwner (fillSlot (draw (drbgRequest s)).2 o i.port (tokenDigest token)) o
          (some { token := token, bound := [(i.port, fnKey i)] })
        let v := raiseEvent u 5 0x04 (info [(1, o), (1, ofBool i.port), (1, (getSlot u o).generation)])
        act { issuer := i, cmd := .ownerCreate i true } s = complete
          (shareOwner (broadcast v 0x40 [o, ofBool i.port] (leBytes 16 (tokenDigest token).toNat)) o) i stOk
          (leBytes 8 o ++ leBytes 16 token.toNat))) ∧
    (∀ (s : State) (o : Nat) (port : Bool) (d : BitVec 128), tblWf {} s.ke.slots = true →
      let k := getSlot (fillSlot s o port d) o
      k.state = 1 ∧ k.port = port ∧ k.token = d ∧ k.generation = ((getSlot s o).generation + 1) % 256 ∧
      k.kStack = s.ke.nextKey ∧ k.kMap = s.ke.nextKey + 1 ∧ k.kWrap = s.ke.nextKey + 2 ∧
      ∀ p, p ≠ o → getSlot (fillSlot s o port d) p = getSlot s p) ∧
    (∀ (s : State) (i : Issuer) (owner : BitVec 8), starts s i 0x02 [owner.toNat] = true → isHeadframe s = true →
      exec (.ownerRelease i owner) s = .next (stage s i (.ownerRelease i owner))) ∧
    (∀ (s : State) (i : Issuer) (owner gm pm wt fill : BitVec 8) (gr gc pr pc : BitVec 32) (report : BitVec 64),
      starts s i 0x03 [owner.toNat, gm.toNat, pm.toNat, wt.toNat, fill.toNat, gr.toNat, gc.toNat,
        pr.toNat, pc.toNat, report.toNat] = true → isHeadframe s = true → exec (.ownerLimits i owner gm pm wt fill gr gc pr pc report) s =
        .next (stage s i (.ownerLimits i owner gm pm wt fill gr gc pr pc report))) ∧
    (∀ (s : State) (i : Issuer) (owner target : BitVec 8), isHeadframe s = true →
      (starts s i 0x04 [owner.toNat, target.toNat] = true →
        (planAdmitted s = true → exec (.ownerBind i owner target) s = .next (stage s i (.ownerBind i owner target))) ∧
        (planAdmitted s = false → exec (.ownerBind i owner target) s = .next (act { issuer := i, cmd := .ownerBind i owner target } s))) ∧
      (starts s i 0x05 [owner.toNat, target.toNat] = true →
        (planAdmitted s = true → exec (.ownerUnbind i owner target) s = .next (stage s i (.ownerUnbind i owner target))) ∧
        (planAdmitted s = false →
          exec (.ownerUnbind i owner target) s = .next (act { issuer := i, cmd := .ownerUnbind i owner target } s)))) ∧
    (∀ (s : State) (i : Issuer) (owner : BitVec 8) (w : Owner), let o := owner.toNat
      ownerRefusal s i o = none → o ≠ 0 → getOwner s o = some w →
      (w.releaseCmd = none → w.releasing = false → act { issuer := i, cmd := .ownerRelease i owner } s =
        modOwner (orderDestroy s o 1 (some (i.port, i.pairKey))) o (fun w => { w with releaseCmd := some i })) ∧
      (∀ target : BitVec 8, let f := targetKey i target
        (target.toNat ≤ 31 → fnLive s i.port f = true → act { issuer := i, cmd := .ownerBind i owner target } s = complete (shareOwner
          (modOwner s o (fun w => if w.bound.contains (i.port, f) then w else { w with bound := w.bound ++ [(i.port, f)] })) o) i stOk) ∧
        (w.bound.contains (i.port, f) = true → 1 < w.bound.length → act { issuer := i, cmd := .ownerUnbind i owner target } s =
          complete (shareOwner (dropAperture
            (modOwner s o (fun w => { w with bound := w.bound.filter (· != (i.port, f)) })) o i.port f) o) i stOk)) ∧
      (∀ (gm pm wt : BitVec 8) (gr gc pr pc : BitVec 32), gm.toNat ≤ 2 → pm.toNat ≤ 2 →
        (gm ≠ 0 → gc ≠ 0) → (pm ≠ 0 → pc ≠ 0) →
          let v := { w with gen := limitTally w.gen gm.toNat gr.toNat gc.toNat false
                            prompt := limitTally w.prompt pm.toNat pr.toNat pc.toNat false
                            weight := if wt = 0 then w.weight else wt.toNat }
          act { issuer := i, cmd := .ownerLimits i owner gm pm wt 0 gr gc pr pc 0 } s = complete (setOwner s o (some v)) i stOk
            (leBytes 8 (twos 64 v.gen.balance) ++ leBytes 8 (twos 64 v.prompt.balance)))) ∧
    (∀ (t : Tally) (mode rate cap : Nat), limitTally t 0 rate cap false = t ∧
      (mode ≠ 0 → limitTally t mode rate cap false = { t with limited := mode == 2, rate := rate, cap := cap })) ∧
    (∀ (s : State) (i : Issuer) (owner : BitVec 8) (token : BitVec 128), starts s i 0x06 [owner.toNat, token.toNat % 2 ^ 64, token.toNat / 2 ^ 64] = true → isHeadframe s = true →
      exec (.ownerReattach i owner token) s = .next (stage s i (.ownerReattach i owner token))) ∧
    (∀ (s : State) (i : Issuer) (owner : BitVec 8) (token : BitVec 128) (w : Owner), let o := owner.toNat
      let f := getFn s i.port (fnKey i)
      f.hbArmed = true → f.hbExpired = false → getOwner s o = some w → w.held = some i.port → w.releasing = false →
      tokenDigest token = (getSlot s o).token →
      ∃ u, act { issuer := i, cmd := .ownerReattach i owner token } s =
          complete (shareOwner (raiseEvent u 1 0x0A (info [(1, o), (1, ofBool i.port), (1, i.fn.toNat)])) o) i stOk ∧
        (tblWf none s.owners = true → getOwner u o = some { w with
          bound := [(i.port, fnKey i)], held := none, grace := none, denials := 0, token := token })) ∧
    (∀ (s : State) (i : Issuer) (bf share : BitVec 8), starts s i 0x33 [bf.toNat, share.toNat] = true →
      (fromHeadPf0 s i = true → exec (.schedSet i bf share) s = .next (stage s i (.schedSet i bf share))) ∧
      (fromHeadPf0 s i = false → exec (.schedSet i bf share) s = .next (complete s i stDenied))) ∧
    (∀ (s : State) (i : Issuer) (bf share : BitVec 8), bf.toNat ≤ 1 → share ≠ 0 → share.toNat ≤ 64 →
      act { issuer := i, cmd := .schedSet i bf share } s = complete { s with sq := { s.sq with
        backfill := bf == 1, prefillShare := share.toNat, backfillDropped := false } } i stOk) ∧
    (∀ (s : State) (i : Issuer) (owner : BitVec 8) (on live : Bool), starts s i 0x25 [owner.toNat, ofBool on + 2 * ofBool live] = true → isHeadframe s = true →
      ownerRefusal s i owner.toNat = none → exec (.repairCtrl i owner on live) s = .next (complete
        { broadcast s 0x53 [owner.toNat, ofBool on, ofBool live] with sq := { s.sq with
          repairNext := s.sq.repairNext.filter (·.1 != owner.toNat) ++ [(owner.toNat, (on, live))] } } i stOk)) ∧
    (∀ (s : State) (i : Issuer) (buffer : BitVec 64) (size : BitVec 32), starts s i 0x34 [buffer.toNat, size.toNat] = true → forHere s i = true →
      (size.toNat < 64 + 64 * s.ri.members.length → exec (.membership i buffer size) s = .next (complete s i stBadParam)) ∧
      (64 + 64 * s.ri.members.length ≤ size.toNat → i.origin = 0xFF → fnDma s i.port i.fn.toNat = true → exec (.membership i buffer size) s =
        .next (complete (hostSend s i.port (.hostWrite i.port i.fn.toNat buffer.toNat (membershipReport s))) i stOk
          (leBytes 1 s.ri.members.length ++ leBytes 1 s.ri.generation)))) ∧
    (∀ (s : State) (i : Issuer) (vf entry : BitVec 8) (pair : BitVec 16), forHere s i = true → i.fn = 0 → vf ≠ 0 → vf.toNat ≤ 31 →
      entry.toNat ≤ 14 → pair.toNat ≤ 255 → (getQp s i.port pair.toNat).state = 0 →
      (tblGet 0 (getFn s i.port vf.toNat).queueMap entry.toNat = 0 → (getQp s i.port pair.toNat).fn = 0 →
        starts s i 0x38 [vf.toNat, entry.toNat, 1, pair.toNat] = true → exec (.fnQueues i vf entry true pair) s = .next (complete (modFn (modQp s i.port pair.toNat (fun q => { q with fn := vf.toNat }))
          i.port vf.toNat (fun f => { f with queueMap := tblSet 0 f.queueMap entry.toNat (pair.toNat + 1) })) i stOk)) ∧
      (tblGet 0 (getFn s i.port vf.toNat).queueMap entry.toNat = pair.toNat + 1 →
        starts s i 0x38 [vf.toNat, entry.toNat, 0, pair.toNat] = true → exec (.fnQueues i vf entry false pair) s = .next (complete (modFn (modQp s i.port pair.toNat (fun q => { q with fn := 0 }))
          i.port vf.toNat (fun f => { f with queueMap := tblSet 0 f.queueMap entry.toNat 0 })) i stOk))) ∧
    (∀ (s : State) (i : Issuer) (o : Nat), i.origin = 0xFF → o ≠ 0 →
      (getOwner s o = none → ownerRefusal s i o = some stUnknown) ∧
      (∀ w, getOwner s o = some w → w.keyGone = false → w.bound.contains (i.port, i.fn.toNat) = false → ownerRefusal s i o = some stDenied)) ∧
    (∀ (s : State) (port : Bool) (fn : BitVec 5) (page : BitVec 8) (v : BitVec 32) (p : Nat), let q := getQp s port p
      let x := v.toNat % 4096
      let adv := (x + cqDepth q - q.cqHead % cqDepth q) % cqDepth q
      barsOpen s port = true → fnFrozen s port fn.toNat = false → (getFn s port fn.toNat).inReset = false →
      fnEnabled s port fn.toNat = true → pairOf s port fn.toNat page.toNat = some p → q.fn = fn.toNat → q.state = 1 →
      tblWf {} (getHp s port).qps = true →
      (x < sqDepth q → ∃ t, exec (.dbSubmitTail port fn page v) s = .next t ∧ getQp t port p = { q with sqTail := x }) ∧
      (x < cqDepth q → q.cqHead + adv ≤ q.cqTail → ∃ t, exec (.dbComplHead port fn page v) s = .next t ∧
        getQp t port p = { q with cqHead := q.cqHead + adv, signalled := false })) ∧
    (∀ (s : State) (port : Bool) (fn : BitVec 5) (d : List (BitVec 32)) (p : Nat), (getFn s port fn.toNat).inReset = false →
      (getHp s port).up = true → fnEnabled s port fn.toNat = true → 5 ≤ s.power.state.code → tblWf {} (getHp s port).qps = true →
      (fn = 0 ∨ bits (d.getD 0 0).toNat 0 8 ≤ 14) → bits (d.getD 0 0).toNat 8 8 = 0 →
      pairOf s port fn.toNat (bits (d.getD 0 0).toNat 0 8) = some p → (getQp s port p).fn = fn.toNat →
      ∃ t, exec (.qpConfig port fn d) s = .next t ∧ (getQp t port p).state = 0 ∧ (getQp t port p).cfg = (getQp s port p).cfg + 1) ∧
    (∀ (s : State) (port : Bool) (pair : BitVec 8) (e : List (BitVec 8)), let q := getQp s port pair.toNat
      q.state = 1 → q.sqHead ≠ q.sqTail → cqFree q ≠ 0 → fnDma s port q.fn = true → barsOpen s port = true → firmwareRuns s = true →
      5 ≤ s.power.state.code → (getHdr s (pgHp port)).en = true → hostReadsOut s port + 64 ≤ 262144 → entryRefusal s port q.fn e = none →
      tblWf {} (getHp s port).qps = true →
      ∃ t f, exec (.submissionFetch port pair (some e)) s = .next t ∧ (getHp t port).fetched = (getHp s port).fetched ++ [f] ∧
        f.opcode = byteAt e 0 ∧ f.owner = byteAt e 4 ∧ f.device = byteAt e 5 ∧ f.cid = leAt e 2 2 ∧ f.pair = pair.toNat ∧
        (getQp t port pair.toNat).sqHead = (q.sqHead + 1) % sqDepth q) ∧
    (∀ (s : State) (port : Bool) (pair : BitVec 8) (n : Nat), let q := getQp s port pair.toNat
      q.signalAt = some n → n ≤ s.clock → fnDma s port q.fn = true → q.signalled = false → (getHp s port).up = true →
      tblWf {} (getHp s port).qps = true → ∃ t, exec (.msixSignal port pair) s = .next t ∧
        getQp t port pair.toNat = { q with signalled := true, signalAt := none } ∧ t.out = s.out ++ [.msix port q.fn q.vector])

/-- STREAM_OPEN, SUBMIT, SET, QUERY, FORK, REWIND, TOKENS and TIER_REGISTER: when each acts, what it stores and returns. A fetched
command that may start on the headframe: all but QUERY and TOKENS wait for their boundary, SUBMIT with its tokens in the prompt
pool from then on, or POOL_FULL. Acting for the caller's own owner and stream: STREAM_OPEN with good settings gives the lowest free
ID a new stream of the set's model; SUBMIT makes the tokens pending input of a stream that is OPEN or FINISHED, in OPEN skipping
those of matched shared pages; SET keeps the settings for the next accepting boundary; FORK of a FINISHED stream makes one that
refers to the same frames; REWIND shortens it and queues the pages beyond; TIER_REGISTER of a function without a tier records the
range; each completes OK. QUERY of a FINISHED stream writes the report, TOKENS the kept tokens asked for, both at once. (R341,
R342, R345, R346, R348, R352, R362, R365, R366, R368, R461, R462) -/
def Obligations.StreamCommandsOnOpenStreams : Prop :=
  (∀ (s : State) (i : Issuer) (owner : BitVec 8) (b : List (BitVec 8)) (pair : BitVec 16) (ps : PlanSet) (c : Settings) (sid : Nat),
      ownerRefusal s i owner.toNat = none → s.sq.planSet = some ps → parseSettings {} b 0x7FF ps.channels = some c →
      i.origin ≠ 0xFF ∨ pairOk s i pair.toNat = true → s.ke.state ≠ 2 ∨ c.seed ≠ none → soloBusy s none c = false → freeStream s = some sid →
      act { issuer := i, cmd := .streamOpen i owner (some b) pair } s = complete (setStream (withSeed s c).2 sid (some {
        owner := owner.toNat, port := i.port, pair := deliveryPair i pair.toNat, fn := fnKey i, modelId := ps.modelId
        set := (withSeed s c).1 })) i stOk (leBytes 2 sid)) ∧
    (∀ (s : State) (i : Issuer) (owner : BitVec 8) (stream : BitVec 16), isHeadframe s = true →
      (∀ (b : Option (List (BitVec 8))) (pair : BitVec 16), hostReadable s i 128 = true → starts s i 0x10 [owner.toNat, pair.toNat] = true →
        exec (.streamOpen i owner b pair) s = .next (stage s i (.streamOpen i owner b pair))) ∧
      (∀ (count : BitVec 32) (b : List (BitVec 8)), hostReadable s i (4 * count.toNat) = true →
        starts s i 0x11 [owner.toNat, stream.toNat, count.toNat] = true → count.toNat ≤ 65536 →
        (∀ d ∈ s.sq.deferred, d.issuer ≠ i) → let cmd : Instr := .streamSubmit i owner stream count (some b)
        (s.promptUsed + count.toNat ≤ 16777216 → exec cmd s = .next (stage s i cmd count.toNat)) ∧
        (16777216 < s.promptUsed + count.toNat → exec cmd s = .next (complete s i stPoolFull))) ∧
      (∀ (mask : BitVec 32) (b : Option (List (BitVec 8))), hostReadable s i 128 = true → starts s i 0x12 [owner.toNat, stream.toNat, mask.toNat] = true →
        exec (.streamSet i owner stream mask b) s = .next (stage s i (.streamSet i owner stream mask b))) ∧
      (starts s i 0x14 [owner.toNat, stream.toNat] = true → exec (.streamFork i owner stream) s = .next (stage s i (.streamFork i owner stream))) ∧
      (∀ l : BitVec 32, starts s i 0x15 [owner.toNat, stream.toNat, l.toNat] = true →
        exec (.streamRewind i owner stream l) s = .next (stage s i (.streamRewind i owner stream l))) ∧
      (∀ (addr : BitVec 64) (size : BitVec 32), starts s i 0x1A [addr.toNat, size.toNat] = true →
        exec (.tierRegister i addr size) s = .next (stage s i (.tierRegister i addr size)))) ∧
    (∀ (s : State) (i : Issuer) (owner : BitVec 8) (stream : BitVec 16) (t : Stream), streamOf s i owner.toNat stream.toNat = .ok t →
      (∀ (count : BitVec 32) (b : List (BitVec 8)), count ≠ 0 → count.toNat ≤ 65536 → t.state = 1 ∨ t.state = 4 → t.closing = 0 →
        t.pausing = false →
        let ids := (upTo count.toNat).map (fun j => BitVec.ofNat 32 (leAt b (4 * j) 4))
        let m := if t.state = 1 then matchPages s t.owner t.modelId t.set.channel ((count.toNat - 1) / 64) ids 0 else []
        act { issuer := i, cmd := .streamSubmit i owner stream count (some b), held := count.toNat } s =
          complete (modStream { s with promptUsed := s.promptUsed - count.toNat + (count.toNat - 64 * m.length) } stream.toNat
            (fun t => { (if 64 * m.length = 0 then t else putHistory t t.length (ids.take (64 * m.length))) with
              state := 2, input := t.input ++ ids.drop (64 * m.length), length := t.length + 64 * m.length
              attach := t.attach ++ (m.zip (upTo m.length)).map (fun e => (e.2, e.1.1)), keys := t.keys ++ m.map (·.2) })) i stOk) ∧
      (∀ (mask : BitVec 32) (b : List (BitVec 8)) (c : Settings), t.state ≠ 10 → mask.getLsbD 0 = false →
        parseSettings (t.setNext.getD t.set) b mask.toNat (channels s) = some c → s.ke.state ≠ 2 ∨ c.seed ≠ none →
        soloBusy s (some stream.toNat) c = false → act { issuer := i, cmd := .streamSet i owner stream mask (some b) } s =
          complete (modStream (withSeed s c).2 stream.toNat (fun t => { t with setNext := some (withSeed s c).1 })) i stOk) ∧
      (t.state = 4 → t.closing = 0 → t.pausing = false → t.setDue.solo = false → ∀ sid, freeStream s = some sid →
        act { issuer := i, cmd := .streamFork i owner stream } s = complete (setStream s sid (some { t with
          attach := t.pages.map (fun e => (e.1, e.2 - 1)) ++ t.attach, pages := [], copies := [], releases := [], awaiting := [], waits := []
          set := t.setDue, setNext := none, k := 0, tracked := false, sinceK0 := 0, passK := 0, specHeld := false
          inFlight := false, waitingSince := none, shortSec := none })) i stOk (leBytes 2 sid)) ∧
      (∀ length : BitVec 32, t.state = 4 → t.closing = 0 → t.pausing = false →
        (length = 0 ∨ t.length < length.toNat →
          act { issuer := i, cmd := .streamRewind i owner stream length } s = complete s i stBadParam) ∧
        (length ≠ 0 → length.toNat ≤ t.length → act { issuer := i, cmd := .streamRewind i owner stream length } s =
          complete (modStream s stream.toNat (fun t => { t with
            length := length.toNat, history := t.history.take (length.toNat - t.histBase), toks := t.toks.take length.toNat
            releases := t.releases ++ (t.pages.filter (fun e => length.toNat ≤ 64 * e.1)).map (fun e => e.2 - 1)
            pages := t.pages.filter (fun e => 64 * e.1 < length.toNat), attach := t.attach.filter (fun e => 64 * e.1 < length.toNat)
            keys := t.keys.take (length.toNat / 64) })) i stOk)) ∧
      (isHeadframe s = true → ∀ report : BitVec 64, starts s i 0x13 [owner.toNat, stream.toNat, report.toNat] = true → t.state = 4 → exec (.streamQuery i owner stream report) s =
        .next (complete (issuerWrite s i report.toNat (padTo 64 (leBytes 4 4 ++ leBytes 4 t.length ++
          leBytes 4 t.input.length ++ leBytes 4 t.genCount ++ leBytes 1 t.k) ++ settingsBlock t.set)) i stOk
          (leBytes 4 4 ++ leBytes 4 t.length))) ∧
      (isHeadframe s = true → ∀ (buffer : BitVec 64) (first count : BitVec 32), starts s i 0x19 [owner.toNat, stream.toNat, buffer.toNat, first.toNat, count.toNat] = true → count ≠ 0 →
        count.toNat ≤ 4096 → t.histBase ≤ first.toNat → first.toNat + count.toNat ≤ t.histBase + t.history.length →
        exec (.streamTokens i owner stream buffer first count) s = .next (complete (issuerWrite s i buffer.toNat
          (((t.history.drop (first.toNat - t.histBase)).take count.toNat).flatMap (fun w => leBytes 4 w.toNat))) i stOk))) ∧
    (∀ (s : State) (i : Issuer) (addr : BitVec 64) (size : BitVec 32), size.toNat ≤ 1024 → addr.toNat % 4096 = 0 →
      (getFn s i.port (fnKey i)).tierSize = 0 → act { issuer := i, cmd := .tierRegister i addr size } s =
        complete (modFn s i.port (fnKey i) (fun f => { f with tierAddr := if size = 0 then 0 else addr, tierSize := size.toNat })) i stOk)

/-- A stream's pause, where it is placed, sealed and when it expires, its return, and its close. On the headframe STREAM_PAUSE,
STREAM_RESUME and STREAM_CLOSE wait for their boundary. Acting, STREAM_PAUSE of a stream that can pause marks it, with the TTL
given or its own, and waits. At an accepting edge with no step of it in flight PAUSE_PLACEMENT puts it in the host tier where its
image fits in the room allotted it, under a new pause key (state 5), or else in the cold pool, state 7, with event 0x12.
PAUSE_IMAGE_DONE seals this device's pages into the image; the headframe notes its end. STREAM_RESUME before the expiry of a cold
pause asks for its return; of a host-tier one, with the same model and geometry and frames everywhere, it takes frames and enters
state 8; later it is EXPIRED. RESUME_IMAGE_DONE restores the pages and drops the key; a page whose tag fails closes the stream with
event 0x14. PAUSE_EXPIRY of an expired pause with no resume pending, before the boundary or pass that is due, raises 0x13 and marks
the stream for closing. STREAM_CLOSE marks it for closing and waits. (R344, R346, R348, R349, R369, R370, R371, R372, R374, R527) -/
def Obligations.PauseResumeAndClose : Prop :=
  (∀ (s : State) (i : Issuer) (owner : BitVec 8) (stream : BitVec 16), isHeadframe s = true →
      (∀ ttl : BitVec 32, starts s i 0x16 [owner.toNat, stream.toNat, ttl.toNat] = true →
        exec (.streamPause i owner stream ttl) s = .next (stage s i (.streamPause i owner stream ttl))) ∧
      (∀ ok : Bool, starts s i 0x17 [owner.toNat, stream.toNat] = true →
        exec (.streamResume i owner stream ok) s = .next (stage s i (.streamResume i owner stream ok))) ∧
      (starts s i 0x18 [owner.toNat, stream.toNat] = true → exec (.streamClose i owner stream) s = .next (stage s i (.streamClose i owner stream)))) ∧
    (∀ (s : State) (i : Issuer) (owner : BitVec 8) (stream : BitVec 16) (t : Stream), streamOf s i owner.toNat stream.toNat = .ok t →
      (∀ ttl : BitVec 32, ttl.toNat ≤ 86400 → t.state = 2 ∨ t.state = 3 ∨ t.state = 4 → t.closing = 0 → t.pausing = false →
        act { issuer := i, cmd := .streamPause i owner stream ttl } s = modStream s stream.toNat (fun t => { t with
          pausing := true, pauseTtl := if ttl = 0 then t.set.ttl else ttl.toNat, pauseFn := fnKey i, waits := t.waits ++ [(1, i)] })) ∧
      (t.state ≠ 10 → act { issuer := i, cmd := .streamClose i owner stream } s =
        wantClose (modStream s stream.toNat (fun t => { t with waits := t.waits ++ [(3, i)] })) stream.toNat
          (if t.port = i.port ∧ t.pair = i.pairKey then 1 else 2)) ∧
      (∀ (ok : Bool) (f : Fetched), findFetched s i = some f → t.restoring = false → t.expired = false →
        (t.state = 6 ∨ t.state = 7 → 4 * (t.pauseStart.toNat + t.pauseTtl * 100000000) ≤ f.fetchedAt →
          act { issuer := i, cmd := .streamResume i owner stream ok } s = complete s i stExpired) ∧
        (f.fetchedAt < 4 * (t.pauseStart.toNat + t.pauseTtl * 100000000) → t.closing = 0 →
          (t.state = 7 → act { issuer := i, cmd := .streamResume i owner stream ok } s =
            modStream s stream.toNat (fun t => { t with restoring := true, waits := t.waits ++ [(2, i)] })) ∧
          (t.state = 6 → s.sq.planSet.map (·.modelId) = some t.imageModel → s.sq.kvGeom = t.imageGeom → ok = true →
            (ownChannel s t.set.channel = true → (t.length + 63) / 64 ≤ framesFree s) →
            act { issuer := i, cmd := .streamResume i owner stream ok } s = issueReads
              (modStream (allocPages s stream.toNat t.owner (upTo ((t.length + 63) / 64)))
                stream.toNat (fun t => { t with state := 8, waits := t.waits ++ [(2, i)] })) t.port)))) ∧
    (∀ (s : State) (stream : BitVec 16) (t : Stream) (n : Nat), getStream s stream.toNat = some t → atEdge s 2 = true →
      t.pausing = true → t.inFlight = false → let room := max n (imageNeed s stream.toNat t)
      (∀ a, tierFit s t.port t.pauseFn room = some a → ∃ u, exec (.pausePlacement stream n) s = .next u ∧
        (tblWf none s.streams = true → getStream u stream.toNat = some { t with
          state := 5, heldState := t.state, pausing := false, imageModel := t.modelId, imageGeom := s.sq.kvGeom, imageSize := room
          imageAt := a }) ∧
        u.ke.nextKey = s.ke.nextKey + 1 ∧
        (tblWf {} s.ke.pauseKeys = true → (tblGet {} u.ke.pauseKeys stream.toNat).key = Config.keyBits s.ke.nextKey)) ∧
      (tierFit s t.port t.pauseFn room = none → exec (.pausePlacement stream n) s = .next (completeWaits
        (raiseEvent (modStream s stream.toNat (fun t => { t with
          state := 7, heldState := t.state, pausing := false, pauseStart := s.power.rtb })) 6 0x12
          (info [(2, stream.toNat), (1, if (getFn s t.port t.pauseFn).tierSize = 0 then 1 else 2)])) stream.toNat 1 stOk [7]))) ∧
    (∀ (s : State) (stream : BitVec 16) (t : Stream), getStream s stream.toNat = some t →
      (∀ p, (tblGet {} s.ke.pauseKeys stream.toNat).image = some p → let u := forEach (ownPages t) (sealPage stream.toNat []) s
        (isHeadframe s = false → exec (.pauseImageDone ⟨stream, []⟩) s = .next u) ∧
        (isHeadframe s = true → t.state = 5 → t.imageDone = false → exec (.pauseImageDone ⟨stream, []⟩) s =
          .next (modStream u stream.toNat (fun t => { t with imageDone := true })))) ∧
      (isHeadframe s = true → passDue s = true → t.state = 6 ∨ t.state = 7 → pauseExpired s t = true → resumePending s stream.toNat t = false →
        t.closing = 0 → t.restoring = false → let u := if t.state = 6 then dropPauseKey s stream.toNat else s
        exec (.pauseExpiry stream) s = .next (wantClose
          (modStream (raiseEvent u 6 0x13 (info [(2, stream.toNat), (1, t.owner), (1, if t.state = 6 then 1 else 2)]))
            stream.toNat (fun t => { t with expired := true })) stream.toNat 2)) ∧
      (∀ (image : List (BitVec 56 × List (BitVec 8))) (p : Bool × Nat × Nat), isHeadframe s = true → t.state = 8 →
        (32 ≤ t.pauseFn ∨ t.issued ≠ 0 ∨ t.imageSize = 0) → (tblGet {} s.ke.pauseKeys stream.toNat).image = some p →
        ((∀ e ∈ ownPages t, (openPage s stream.toNat image e.1).isSome = true) →
          exec (.resumeImageDone stream ⟨image, none⟩) s = .next (modStream (dropPauseKey (restorePages s stream.toNat image t) stream.toNat)
            stream.toNat (fun t => { t with restoring := true, imageSize := 0, issued := 0 })) ∧
          ∀ (q : BitVec 6) (page : BitVec 56), exec (.resumeImageDone stream ⟨image, some (q, page)⟩) s = .next (wantClose
            (completeWaits (raiseEvent s 6 0x14 (info [(2, stream.toNat), (1, q.toNat), (7, page.toNat)])) stream.toNat 2 stTag [])
            stream.toNat 2)) ∧
        (∀ e tail, ownPages t = e :: tail → openPage s stream.toNat image e.1 = none → ∀ x,
          exec (.resumeImageDone stream ⟨image, x⟩) s = .next (wantClose (completeWaits
            (raiseEvent s 6 0x14 (info [(2, stream.toNat), (1, ownPosition s), (7, e.1)])) stream.toNat 2 stTag []) stream.toNat 2))))

/-- MEM_GRANT, MEM_RELEASE, MEM_WRITE, MEM_READ, the apertures, and the patrol scrub. For a fetched command for this device, MEM_GRANT
and MEM_RELEASE by a function of the owner complete with the code and effect of the extents asked for; MEM_WRITE and MEM_READ
aligned to 64 and inside the owner's extents start a transfer, and COMMAND_TRANSFER_COMPLETE then writes the host's data under the
owner's key, or sends what the stacks hold under it, and completes. Outside the sump region and PF0's view in power state ROM, an
aperture access inside the owner's extents writes or reads under its key; one outside them but inside the aperture is refused: a
read is an Unsupported Request, a write is discarded, and the function freezes with 0x0904; a write that meets the sump region
freezes it with 0x0905. A scrub pass starts when enabled and none runs, lasts PERIOD hours, and its end counts it and raises 0x06;
MS_SCRUB_CTRL stores EN and a PERIOD of 1 to 168; each hour of RTB CE_RATE takes the hour's corrected words up to 255, and at 64
raises 0x04. (R34, R37, R45, R378, R381, R386, R388, R392, R396, R398, R451, R461) -/
def Obligations.StackMemoryCommands : Prop :=
  (∀ (s : State) (i : Issuer) (owner : BitVec 8) (addr size : BitVec 64), forHere s i = true →
      (starts s i 0x20 [owner.toNat, addr.toNat, size.toNat] = true → ownerRefusal s i owner.toNat = none → exec (.memGrant i owner addr size) s =
        .next (complete (grantEffect s owner.toNat addr.toNat size.toNat).2 i (grantEffect s owner.toNat addr.toNat size.toNat).1)) ∧
      (starts s i 0x21 [owner.toNat, addr.toNat, size.toNat] = true → ownerRefusal s i owner.toNat = none → exec (.memRelease i owner addr size) s =
        .next (complete (releaseEffect s owner.toNat addr.toNat size.toNat).2 i (releaseEffect s owner.toNat addr.toNat size.toNat).1)) ∧
      (starts s i 0x20 [owner.toNat, addr.toNat, size.toNat] = true → (ownerRefusal s i owner.toNat).isSome = true →
        exec (.memGrant i owner addr size) s = .next (complete s i stDenied))) ∧
    (∀ (s : State) (o a n : Nat), grantShape a n = true → allHeld s.ms.extents (a / 4096) ((a + n) / 4096) 0 = true →
      grantEffect s o a n = (stOk, setExtents s (a / 4096) ((a + n) / 4096) (1 + o))) ∧
    (∀ (s : State) (i : Issuer) (owner : BitVec 8) (addr host : BitVec 64) (n : BitVec 32), forHere s i = true →
      ownerRefusal s i owner.toNat = none → addr.toNat % 64 = 0 → host.toNat % 64 = 0 → n.toNat % 64 = 0 →
      extentsGranted s owner.toNat addr.toNat n.toNat = true →
      let u := modFetched s i (fun f => { f with
        inEffect := true, owner := owner.toNat, params := leBytes 8 addr.toNat ++ leBytes 8 host.toNat ++ leBytes 4 n.toNat })
      (starts s i 0x22 [owner.toNat, addr.toNat, host.toNat, n.toNat] = true → exec (.memWrite i owner addr host n) s = .next (issueReads u i.port)) ∧
      (starts s i 0x23 [owner.toNat, addr.toNat, host.toNat, n.toNat] = true → exec (.memRead i owner addr host n) s = .next (issueReads u i.port))) ∧
    (∀ (s : State) (i : Issuer) (f : Fetched) (bs : List (BitVec 8)),
      let addr := leAt f.params 0 8
      let host := leAt f.params 8 8
      let len := leAt f.params 16 4
      findFetched s i = some f → f.inEffect = true → extentsGranted s f.owner addr len = true → f.dropped = false → i.origin = 0xFF →
      (f.opcode = 0x22 → 256 ≤ f.pair ∨ f.issued ≠ 0 ∨ len = 0 → exec (.commandTransferComplete i (some bs) []) s =
        .next (complete (writeUnder s (stackKey s f.owner) addr (padTo len bs) 258) i stOk)) ∧
      (f.opcode = 0x23 → s.ms.poisoned = [] → s.ms.latent = [] → fnDma s i.port i.fn.toNat = true →
        exec (.commandTransferComplete i (some bs) []) s = .next (complete
          (hostSend s i.port (.hostWrite i.port i.fn.toNat host (readUnder s (stackKey s f.owner) addr len))) i stOk))) ∧
    (∀ (s : State) (port : Bool) (fn : BitVec 5) (off : BitVec 64) (n : Nat) (data : List (BitVec 8)),
      let f := getFn s port fn.toNat
      let a := f.aptBase * 2 ^ 30 + off.toNat
      barsOpen s port = true → fnEnabled s port fn.toNat = true → fnFrozen s port fn.toNat = false → f.inReset = false →
      (fn ≠ 0 → f.aptOwner ≠ 0) →
      (s.power.state = .rom → fn ≠ 0) →
      (off.toNat + data.length ≤ apertureSize s port fn.toNat → meetsSump s a data.length = true →
        exec (.apertureAccess port fn off true n data []) s = .next (freeze s (pgHp port) 1 (fnMaster port fn.toNat) 0x0905 a)) ∧
      (meetsSump s a n = false → meetsSump s a data.length = false →
      (off.toNat + n ≤ apertureSize s port fn.toNat →
        (extentsGranted s f.aptOwner a n = true → s.ms.poisoned = [] → s.ms.latent = [] → exec (.apertureAccess port fn off false n data []) s =
          .next (emit s (.apertureData false (readUnder s (stackKey s f.aptOwner) a n)))) ∧
        (extentsGranted s f.aptOwner a n = false → exec (.apertureAccess port fn off false n data []) s =
          .next (freeze (countUr s port) (pgHp port) 1 (fnMaster port fn.toNat) 0x0904 a))) ∧
      (off.toNat + data.length ≤ apertureSize s port fn.toNat →
        (extentsGranted s f.aptOwner a data.length = true → exec (.apertureAccess port fn off true n data []) s =
          .next (writeUnder s (stackKey s f.aptOwner) a data 258)) ∧
        (extentsGranted s f.aptOwner a data.length = false → exec (.apertureAccess port fn off true n data []) s =
          .next (freeze s (pgHp port) 1 (fnMaster port fn.toNat) 0x0904 a))))) ∧
    (∀ s : State, s.ms.scrubEn = true → s.ms.scrubActive = false → s.ms.state = 2 →
      exec .scrubPassStart s = .next { s with ms := { s.ms with
        scrubActive := true, scrubUntil := s.clock + s.ms.period * 5760000000000 } }) ∧
    (∀ s : State, s.ms.scrubActive = true → s.clock < s.ms.scrubUntil → exec (.scrubPass []) s = .next s) ∧
    (∀ s : State, s.ms.scrubActive = true → s.ms.scrubUntil ≤ s.clock → s.ms.poisoned = [] → s.ms.latent = [] → exec (.scrubPass []) s =
      .next (raiseEvent { s with ms := { s.ms with scrubActive := false, passes := min 65535 (s.ms.passes + 1) } } 10 0x06
        (info [(4, 0), (4, 0)]))) ∧
    (∀ (s : State) (port : Bool) (v : BitVec 32), mayWrite s (.pf0 port) 10 = true →
      exec (.msScrubCtrl (.pf0 port) v) s = .next (if 1 ≤ v.toNat % 256 ∧ v.toNat % 256 ≤ 168
        then { s with ms := { s.ms with scrubEn := v.getLsbD 31, period := v.toNat % 256 } } else s)) ∧
    (∀ s : State, (rtb s / 360000000000 ≤ s.ms.rateHour → exec .ceRateUpdate s = .next s) ∧
      (s.ms.rateHour < rtb s / 360000000000 → exec .ceRateUpdate s = .next (forEach (upTo 8) (fun s n =>
        let rate := min 255 (getSc s n).ceHour
        let u := modSc s n (fun c => { c with ceRate := rate, ceHour := 0 })
        if 64 ≤ rate then raiseEvent u (11 + n) 0x04 (info [(1, rate), (4, (getSc s n).pchErr.toNat)]) else u)
        { s with ms := { s.ms with rateHour := rtb s / 360000000000 } })))

/-- Doorbells, QP_CONFIG, entry fetch, the completion entry and its signal. On a usable function's READY pair DB_SUBMIT_TAIL sets the
tail, or the pair goes to ERROR with cause 1 at or above the depth; DB_COMPL_HEAD moves the head and rearms the signal, or ERROR
with cause 2 at or above the depth or past the completion index. ERROR keeps the cause and raises 0x08. Where the port does not
answer a doorbell is an Unsupported Request; a frozen function, one in reset and a page without a pair discard it. QP_CONFIG of the
function's own pair deletes it with a queue of size 0, or configures it as the request's dwords say; below power state 5 it answers
NOT_READY, for no pair NOT_OWNED. An entry fetched while a completion entry is free and its 64 bytes fit the completion buffer is
held with its fields, the head moves and a completion entry is reserved; one with a reason to refuse it completes at once with that
code; a failed host read is ERROR with cause 3. Completing a held command removes it, uses its reserved entry and writes a
completion entry; on a link that is up that is 32 bytes with the command ID, head, status, kind and the phase at the completion
index. A signal that is due, by its time or a half-full queue, is sent on such a link, and the pair then counts as signalled.
(R447, R452, R453, R454, R455, R456, R457, R458, R459, R460, R463, R464) -/
def Obligations.QueuePairsAndCompletions : Prop :=
  (∀ (s : State) (port : Bool) (fn : BitVec 5) (page : BitVec 8) (v : BitVec 32) (p : Nat), let q := getQp s port p
      let x := v.toNat % 4096
      barsOpen s port = true → fnFrozen s port fn.toNat = false → (getFn s port fn.toNat).inReset = false →
      fnEnabled s port fn.toNat = true → pairOf s port fn.toNat page.toNat = some p → q.fn = fn.toNat → q.state = 1 →
      (x < sqDepth q → exec (.dbSubmitTail port fn page v) s = .next (modQp s port p (fun q => { q with sqTail := x }))) ∧
      (sqDepth q ≤ x → exec (.dbSubmitTail port fn page v) s = .next (qpError s port p 1)) ∧
      (let adv := (x + cqDepth q - q.cqHead % cqDepth q) % cqDepth q;
        (cqDepth q ≤ x ∨ q.cqTail < q.cqHead + adv → exec (.dbComplHead port fn page v) s = .next (qpError s port p 2)) ∧
        (x < cqDepth q → q.cqHead + adv ≤ q.cqTail → exec (.dbComplHead port fn page v) s =
          .next (modQp s port p (fun q => { q with cqHead := q.cqHead + adv, signalled := false }))))) ∧
    (∀ (s : State) (port : Bool) (p cause : Nat), tblWf {} (getHp s port).qps = true →
      ∃ u, qpError s port p cause = raiseEvent u (pgHp port) 0x08 (info [(1, p), (1, (getQp s port p).fn), (1, cause)]) ∧
        getQp u port p = { getQp s port p with state := 2, cause := cause } ∧ ∀ p', p' ≠ p → getQp u port p' = getQp s port p') ∧
    (∀ (s : State) (port : Bool) (fn : BitVec 5) (page : BitVec 8) (v : BitVec 32),
      (barsOpen s port = false → exec (.dbSubmitTail port fn page v) s = .next (countUr s port) ∧
        exec (.dbComplHead port fn page v) s = .next (countUr s port)) ∧
      (barsOpen s port = true → fnFrozen s port fn.toNat = true ∨ (getFn s port fn.toNat).inReset = true ∨
          pairOf s port fn.toNat page.toNat = none →
        exec (.dbSubmitTail port fn page v) s = .next s ∧ exec (.dbComplHead port fn page v) s = .next s)) ∧
    (∀ (s : State) (port : Bool) (fn : BitVec 5) (d : List (BitVec 32)), (getFn s port fn.toNat).inReset = false → (getHp s port).up = true →
      fnEnabled s port fn.toNat = true → let w := fun k => (d.getD k 0).toNat
      let sq := bits (w 0) 8 8
      let cq := bits (w 0) 16 8
      (s.power.state.code < 5 → exec (.qpConfig port fn d) s = .next (emit s (.doe port fn.toNat 3 (leBytes 4 3)))) ∧
      (5 ≤ s.power.state.code → (fn = 0 ∨ bits (w 0) 0 8 ≤ 14) →
        (sq = 0 → pairOf s port fn.toNat (bits (w 0) 0 8) = none →
          exec (.qpConfig port fn d) s = .next (emit s (.doe port fn.toNat 2 (leBytes 4 2)))) ∧
        ∀ p, pairOf s port fn.toNat (bits (w 0) 0 8) = some p → (getQp s port p).fn = fn.toNat →
          (sq = 0 → exec (.qpConfig port fn d) s = .next (emit (modQp s port p (fun q => { fn := q.fn, cfg := q.cfg + 1 }))
            (.doe port fn.toNat 0 (leBytes 4 0)))) ∧
          (4 ≤ sq → sq ≤ 12 → 4 ≤ cq → cq ≤ 12 → bits (w 0) 24 8 < (if fn = 0 then 64 else 16) → w 1 % 4096 = 0 → w 3 % 4096 = 0 →
            w 5 < 256 → exec (.qpConfig port fn d) s = .next (emit (modQp s port p (fun q => {
              state := 1, fn := q.fn, cfg := q.cfg + 1, sqLog := sq, cqLog := cq, vector := bits (w 0) 24 8
              sqAddr := BitVec.ofNat 64 (w 1 + 2 ^ 32 * w 2), cqAddr := BitVec.ofNat 64 (w 3 + 2 ^ 32 * w 4), coalesce := w 5 }))
              (.doe port fn.toNat 0 (leBytes 4 0)))))) ∧
    (∀ (s : State) (port : Bool) (pair : BitVec 8), let q := getQp s port pair.toNat
      q.state = 1 → q.sqHead ≠ q.sqTail → cqFree q ≠ 0 → fnDma s port q.fn = true → barsOpen s port = true → firmwareRuns s = true →
      5 ≤ s.power.state.code → (getHdr s (pgHp port)).en = true → hostReadsOut s port + 64 ≤ 262144 →
      exec (.submissionFetch port pair none) s = .next (qpError s port pair.toNat 3) ∧
      ∀ e : List (BitVec 8),
        let u := modHp (modQp s port pair.toNat (fun q => { q with
            sqHead := (q.sqHead + 1) % sqDepth q, reserved := q.reserved + 1 })) port (fun h => { h with fetched := h.fetched ++ [{
              port := port, fn := q.fn, pair := pair.toNat, cid := leAt e 2 2, cfg := q.cfg, opcode := byteAt e 0, owner := byteAt e 4
              device := byteAt e 5, fence := bit (byteAt e 1) 0, params := (padTo 64 e).drop 8, fetchedAt := sclkRtb s }] })
        (entryRefusal u port q.fn e = none → exec (.submissionFetch port pair (some e)) s = .next u) ∧
        (∀ c, entryRefusal u port q.fn e = some c → exec (.submissionFetch port pair (some e)) s = .next (complete u
          { port := port, fn := BitVec.ofNat 5 q.fn, pair := pair, cid := BitVec.ofNat 16 (leAt e 2 2) } c))) ∧
    (∀ (s : State) (port : Bool) (fn : Nat) (e : List (BitVec 8)),
      (byteAt e 0 = 0x00 → byteAt e 1 = 0 → byteAt e 6 = 0 → byteAt e 7 = 0 → byteAt e 5 = 0xFF → (∀ j, 8 ≤ j → j < 64 → byteAt e j = 0) →
        entryRefusal s port fn e = none) ∧
      (byteAt e 0 = 0x07 → entryRefusal s port fn e = some 0x0101) ∧
      (byteAt e 0 = 0x00 → 1 < byteAt e 1 → entryRefusal s port fn e = some 0x0101)) ∧
    (∀ (s : State) (i : Issuer) (f : Fetched) (status : Nat) (result : List (BitVec 8)), findFetched s i = some f → i.pairKey < 256 →
      f.cfg = (getQp s i.port i.pairKey).cfg → fnFrozen s i.port i.fn.toNat = false → (getFn s i.port i.fn.toNat).inReset = false →
      (getFn s i.port i.fn.toNat).busMaster = true → ∃ u, complete s i status result =
          writeEntry u i.port i.pairKey i.cid.toNat status 0 result ∧
        (getHp u i.port).fetched = (getHp s i.port).fetched.eraseP
          (fun f => f.pair == i.pairKey && f.cid == i.cid.toNat && f.fn == i.fn.toNat) ∧
        (tblWf {} (getHp s i.port).qps = true → getQp u i.port i.pairKey =
          { getQp s i.port i.pairKey with reserved := (getQp s i.port i.pairKey).reserved - 1 })) ∧
    (∀ (s : State) (port : Bool) (pair head status kind : Nat) (result : List (BitVec 8)), let q := getQp s port pair
      tblWf {} (getHp s port).qps = true → q.signalled = true → (getHp s port).up = true →
      let t := writeEntry s port pair head status kind result
      t.out = s.out ++ [.completion port pair (q.cqTail % cqDepth q) (leBytes 2 head ++ leBytes 2 q.sqHead ++ leBytes 2 status ++
        leBytes 1 kind ++ leBytes 1 (if q.cqTail / cqDepth q % 2 = 0 then 1 else 0) ++ padTo 24 result)] ∧
      getQp t port pair = { q with cqTail := q.cqTail + 1 }) ∧
    (∀ (s : State) (port : Bool) (pair : BitVec 8) (t : Nat), let q := getQp s port pair.toNat
      q.signalAt = some t → fnDma s port q.fn = true → q.signalled = false → (getHp s port).up = true →
      (t ≤ s.clock ∨ cqDepth q ≤ 2 * (q.cqTail - q.cqHead) → exec (.msixSignal port pair) s =
        .next (emit (modQp s port pair.toNat (fun q => { q with signalled := true, signalAt := none })) (.msix port q.fn q.vector))) ∧
      (s.clock < t → 2 * (q.cqTail - q.cqHead) < cqDepth q → exec (.msixSignal port pair) s = .next s))

/-- HP_HEARTBEAT_TIMEOUT and HP_GRACE: fields, reset values, the writes discarded, and when a new value applies. After reset MS reads
1,000 and SECONDS 60, each in bits [15:0] with the other bits 0. PF0's accepted write stores bits [15:0] if MS is in 250–10,000, or
SECONDS in 10–3,600, and else changes nothing. A new value applies to timers started after the write: the write changes no
function's deadline and no owner's, a heartbeat write afterwards sets the deadline by the new MS, and an orphaning by the new
SECONDS. (R477) -/
def Obligations.HeartbeatTimeoutAndGrace : Prop :=
  (∀ p, p = 8 ∨ p = 9 → regValue State.reset p 0x050 = 1000 ∧ regValue State.reset p 0x054 = 60) ∧
    (∀ s : State, regValue s 8 0x050 = s.hpA.hbTimeout % 65536 ∧ regValue s 8 0x054 = s.hpA.grace % 65536 ∧
      regValue s 9 0x050 = s.hpB.hbTimeout % 65536 ∧ regValue s 9 0x054 = s.hpB.grace % 65536) ∧
    (∀ (s : State) (port : Bool) (v : BitVec 32), mayWrite s (.pf0 port) (pgHp port) = true → let n := v.toNat % 65536
      (250 ≤ n → n ≤ 10000 → exec (.hpHeartbeatTimeout (.pf0 port) port false v) s = .next (modHp s port (fun h => { h with hbTimeout := n }))) ∧
      (n < 250 ∨ 10000 < n → exec (.hpHeartbeatTimeout (.pf0 port) port false v) s = .next s) ∧
      (10 ≤ n → n ≤ 3600 → exec (.hpHeartbeatTimeout (.pf0 port) port true v) s = .next (modHp s port (fun h => { h with grace := n }))) ∧
      (n < 10 ∨ 3600 < n → exec (.hpHeartbeatTimeout (.pf0 port) port true v) s = .next s)) ∧
    (∀ (s : State) (port : Bool) (n f : Nat), tblWf {} (getHp s port).fns = true →
      getFn (modHp s port (fun h => { h with hbTimeout := n })) port f = getFn s port f ∧
      (getFn (writeHeartbeat s port f n) port f).hbDeadline = s.clock + (getHp s port).hbTimeout * msCycles) ∧
    (∀ (s : State) (owner : BitVec 8) (w : Owner) (port : Bool) (fn : Nat), getOwner s owner.toNat = some w → w.bound = [(port, fn)] →
      owner ≠ 0 → w.releasing = false → (getFn s port fn).hbExpired = true → tblWf none s.owners = true →
      planAdmitted s = false ∨ atEdge s 0 = true →
      ∃ t, exec (.orphaned owner) s = .next t ∧ getOwner t owner.toNat = some { w with
        bound := [], held := some port, grace := some (BitVec.ofNat 64 (rtb s + (getHp s port).grace * 100000000)), denials := 0 })

/-- Aperture and heartbeat registers, the loss of a heartbeat, an orphaned owner and the end of its grace. An accepted write of the
aperture base stores it if it is a multiple of the aperture's size; of the aperture owner if it is 0 or an owner bound to the
function; of the heartbeat restarts its timer (a member tells the headframe of a timer that starts or expires). A timer that has
run out expires with event 0x07. An owner all of whose functions have expired becomes, at a round boundary or while no set is
admitted, held by the port: its streams in OPEN to FINISHED are ORPHANED, its slot is in state 2, its grace runs, event 0x09. At
the first boundary or pass at the deadline, with no reattachment pending, its key's destruction is ordered and 0x0B raised. The
BAR's size is stored if it is 1 to 64 GiB on a link that is up, and the base cut to a multiple of it (the model's choice, log entry
22). (R37, R474, R475, R476, R480, R496, R497, R498, R499) -/
def Obligations.ApertureHeartbeatAndOrphans : Prop :=
  (∀ (s : State) (port : Bool) (v : BitVec 32), mayWrite s (.pf0 port) (pgHp port) = true →
      (v.toNat % 1024 % 2 ^ ((getHp s port).bar4Log - 30) = 0 → exec (.hpAptBase (.pf0 port) port 0 v) s =
        .next (modFn s port 0 (fun f => { f with aptBase := v.toNat % 1024 }))) ∧
      (v.toNat % 1024 % 2 ^ ((getHp s port).bar4Log - 30) ≠ 0 → exec (.hpAptBase (.pf0 port) port 0 v) s = .next s) ∧
      (v.toNat % 256 = 0 ∨ boundTo s (v.toNat % 256) port 0 = true → exec (.hpAptOwner (.pf0 port) port 0 v) s =
        .next (modFn s port 0 (fun f => { f with aptOwner := v.toNat % 256 }))) ∧
      (v.toNat % 256 ≠ 0 → boundTo s (v.toNat % 256) port 0 = false → exec (.hpAptOwner (.pf0 port) port 0 v) s = .next s) ∧
      exec (.hpHeartbeat (.pf0 port) port 0 v) s = .next (modFn
        (if (getFn s port 0).hbArmed ∧ !(getFn s port 0).hbExpired then s else tellHead s port 0 1) port 0 (fun f => { f with
        hbValue := v, hbArmed := true, hbExpired := false, hbDeadline := s.clock + (getHp s port).hbTimeout * 1600000 }))) ∧
    (∀ (s : State) (port : Bool) (fn : BitVec 5) (v : BitVec 32), fn ≠ 0 → mayWrite s (.vf port fn) (pgFn port fn.toNat) = true →
      exec (.hpAptBase (.vf port fn) port fn v) s = .next (modFn s port fn.toNat (fun f => { f with aptBase := v.toNat % 1024 })) ∧
      exec (.hpHeartbeat (.vf port fn) port fn v) s = .next (modFn
        (if (getFn s port fn.toNat).hbArmed ∧ !(getFn s port fn.toNat).hbExpired then s else tellHead s port fn.toNat 1) port fn.toNat (fun f => { f with
        hbValue := v, hbArmed := true, hbExpired := false, hbDeadline := s.clock + (getHp s port).hbTimeout * 1600000 }))) ∧
    (∀ (s : State) (port : Bool) (fn : BitVec 5), (getFn s port fn.toNat).hbArmed = true → (getFn s port fn.toNat).hbExpired = false →
      (getFn s port fn.toNat).hbDeadline ≤ s.clock → exec (.heartbeatLost port fn) s =
        .next (raiseEvent (modFn (tellHead s port fn.toNat 0) port fn.toNat (fun f => { f with hbExpired := true })) (pgHp port) 0x07
          (info [(1, fn.toNat)]))) ∧
    (∀ (s : State) (owner : BitVec 8) (w : Owner) (b : Bool × Nat) (r : List (Bool × Nat)), getOwner s owner.toNat = some w →
      w.bound = b :: r → owner ≠ 0 → w.releasing = false → (∀ x ∈ w.bound, (getFn s x.1 x.2).hbExpired = true) →
      planAdmitted s = false ∨ atEdge s 0 = true →
      ∃ u, exec (.orphaned owner) s = .next (raiseEvent u 1 0x09 (info [(1, owner.toNat), (1, ofBool b.1),
          (2, (orphanStreams s owner.toNat).length), (4, (getHp s b.1).grace)])) ∧
        (tblWf {} s.ke.slots = true → (getSlot u owner.toNat).state = 2 ∧ (getSlot u owner.toNat).port = b.1) ∧
        (tblWf none s.streams = true → ∀ j t, getStream s j = some t → j ∈ orphanStreams s owner.toNat →
          getStream u j = some { t with state := 9, heldState := t.state }) ∧
        (tblWf none s.streams = true → ∀ j, j ∉ orphanStreams s owner.toNat → getStream u j = getStream s j)) ∧
    (∀ (s : State) (owner : BitVec 8) (w : Owner) (port : Bool) (d : BitVec 64), getOwner s owner.toNat = some w → w.held = some port →
      w.grace = some d → d.toNat ≤ s.power.rtb.toNat → atEdge s 0 = true → w.releasing = false → reattachPending s owner.toNat d.toNat = false →
      exec (.graceExpired owner) s = .next (raiseEvent (orderDestroy s owner.toNat 3 none) 1 0x0B
        (info [(1, owner.toNat), (1, ofBool port), (2, (liveStreamsOf s owner.toNat).length)]))) ∧
    (∀ (s : State) (port : Bool) (n : BitVec 6), (getHp s port).up = true → 30 ≤ n.toNat → n.toNat ≤ 36 →
      exec (.resizableBar port n) s = .next (modFn (modHp s port (fun h => { h with bar4Log := n.toNat })) port 0 (fun f =>
        { f with aptBase := f.aptBase - f.aptBase % 2 ^ (n.toNat - 30) })))

/-- FLR, PERST, link changes, VF Enable, Bus Master Enable, DOE discovery and IDE_KM. A reset of a function discards its commands not
yet in effect, disarms its heartbeat and clears its aperture base, and touches no other function, no stream and no memory; at the
beat boundary, on the headframe, its commands in effect run on without host DMA, its delayed DMA goes and the keys of owners left
without a live function are ordered destroyed; an FLR of PF0 also clears VF Enable; the function then returns with its pairs
UNCONFIGURED (those its map does not name are PF0's), its aperture owner 0 and event 0x09. PERST of an enabled port takes its link
down, its timeouts back to their reset values and its freezes away, not memory; deasserted with power good the port may train. A
link that trains is up at its speed and width, diagnostic at 32 GT/s or below x4, and sends what waited for it; one that goes down
starts the 100 ms after which it acts as PERST, from that moment. VF Enable enables the VFs asked for up to the manifest's limit,
and clearing it resets them. Bus Master Enable is stored; DOE discovery names the protocols; IDE_KM of PF0 in a finished session
sets link IDE, else it is refused. (R368, R445, R447, R467, R468, R470, R471, R473, R480, R522, R598, R599) -/
def Obligations.FunctionResetsAndLinks : Prop :=
  (∀ (s : State) (port : Bool) (fn : BitVec 5), fnEnabled s port fn.toNat = true → exec (.flr port fn) s =
      .next (startReset (if fn = 0 then clearVfs s port else s) port fn.toNat 1 s.clock)) ∧
    (∀ (s : State) (port : Bool) (fn kind since : Nat), tblWf {} (getHp s port).fns = true → let t := startReset s port fn kind since
      (getFn t port fn).inReset = true ∧ (getFn t port fn).resetKind = kind ∧ (getFn t port fn).resetAt = since ∧ (getFn t port fn).busMaster = false ∧ (getFn t port fn).hbArmed = false ∧
      (getFn t port fn).aptBase = 0 ∧ (getFn t port fn).resetDone = false ∧ (∀ f ∈ (getHp t port).fetched, f.fn ≠ fn ∨ 256 ≤ f.pair ∨ f.inEffect = true) ∧
      (∀ g, g ≠ fn → getFn t port g = getFn s port g) ∧ t.mem = s.mem ∧ t.streams = s.streams) ∧
    (∀ (s : State) (port : Bool) (fn : BitVec 5), (getFn s port fn.toNat).inReset = true → (getFn s port fn.toNat).resetDone = false →
      s.sq.live = none → isHeadframe s = true →
      let u := modFn (modHp s port (fun h => { h with
        fetched := h.fetched.map (fun f => if f.fn = fn.toNat ∧ f.pair < 256 then { f with dropped := true, issued := 0 } else f)
        delayed := h.delayed.filter (fun o => !dmaOf s port fn.toNat o) })) port fn.toNat (fun f => { f with resetDone := true })
      let v := if (getFn u port fn.toNat).tierSize = 0 then u else releaseTier u port fn.toNat none
      exec (.flrBoundary port fn) s = .next (modFn (forEach (deserted v) (fun s o => orderDestroy s o 2 none) v) port fn.toNat
        (fun f => { f with keysDestroyed := f.keysDestroyed + (deserted v).length }))) ∧
    (∀ (s : State) (port : Bool) (fn : BitVec 5), let f := getFn s port fn.toNat
      f.inReset = true → f.resetDone = true → f.resetKind < 3 → exec (.functionReset port fn) s = .next (raiseEvent (leaveReset s port fn.toNat) (pgHp port) 0x09
        (info [(1, fn.toNat), (1, f.resetKind), (2, f.keysDestroyed), (2, (s.clock - f.resetAt) / 1600000)]))) ∧
    (∀ (s : State) (port : Bool) (fn p : Nat), tblWf {} (getHp s port).qps = true → tblWf {} (getHp s port).fns = true → p < 256 →
      (getQp s port p).fn = fn → (getQp (leaveReset s port fn) port p).state = 0 ∧ (getQp (leaveReset s port fn) port p).fn =
          (if (getFn s port fn).queueMap.any (fun e => e.2 == p + 1) then fn else 0) ∧
        (getFn (leaveReset s port fn) port fn).inReset = false ∧ (getFn (leaveReset s port fn) port fn).aptOwner = 0) ∧
    (∀ (s : State) (port : Bool) (n : BitVec 5), fnEnabled s port 0 = true → (getFn s port 0).inReset = false → n.toNat ≤ s.manifest.maxVf →
      exec (.vfEnableSet port n) s = .next (modHp (forEach ((upTo (n.toNat + 1)).drop 1)
        (fun s k => tellHead (modFn s port k (fun f => { f with enabled := true })) port k 5) s) port (fun h => { h with numVf := n.toNat, statusCleared := false }))) ∧
    (∀ (s : State) (port : Bool), exec (.vfEnableClear port) s = .next (clearVfs s port) ∧ clearVfs s port = modHp (forEach
        ((upTo 32).filter (fun k => k != 0 && (getFn s port k).enabled)) (fun s k =>
          tellHead (modFn (startReset s port k 2 s.clock) port k (fun f => { f with enabled := false })) port k 6) s)
        port (fun h => { h with numVf := 0, statusCleared := false })) ∧
    (∀ s : State, portEnabled s false = true → s.pins.perstA = false → mainPower s = true →
      ∃ t, exec (.perstAssert false) s = .next t ∧ t.pins.perstA = true ∧ t.hpA.state = 0 ∧ t.hpA.up = false ∧ t.hpA.numVf = 0 ∧
        t.hpA.hbTimeout = 1000 ∧ t.hpA.grace = 60 ∧ t.mem = s.mem ∧ (∀ z ∈ t.frozen, z.page ≠ 8)) ∧
    (∀ s : State, portEnabled s true = true → s.pins.perstB = false → mainPower s = true →
      ∃ t, exec (.perstAssert true) s = .next t ∧ t.pins.perstB = true ∧ t.hpB.state = 0 ∧ t.hpB.up = false ∧ t.mem = s.mem) ∧
    (∀ s : State, portEnabled s false = true → s.pins.powerGood = true → s.hpA.state = 0 → exec (.perstDeassert false) s =
      .next { s with pins := { s.pins with perstA := false }, hpA := { s.hpA with state := 1 } }) ∧
    (∀ (s : State) (speed : BitVec 3) (width : BitVec 4), speed = 5 ∨ speed = 6 → width = 1 ∨ width = 2 ∨ width = 4 ∨ width = 8 → s.hpA.state ≠ 0 → portEnabled s false = true → s.pins.refA = true →
      let d := speed ≠ 6 ∨ width.toNat < 4
      exec (.hostLinkChange false speed width) s = .next (raiseEvent (forEach s.hpA.delayed emit { s with
        hpA := { s.hpA with
          statusCleared := false, up := true, speed := speed.toNat, width := width.toNat, diag := decide d, state := if d then 2 else 3
          delayed := [] }
        power := { s.power with linkLossA := none } }) 8 0x06 (info [(1, if d then 3 else 1), (1, speed.toNat), (1, width.toNat)]))) ∧
    (∀ (s : State) (speed : BitVec 3), s.hpA.up = true → exec (.hostLinkChange false speed 0) s = .next (raiseEvent { s with
        hpA := { s.hpA with statusCleared := false, up := false, speed := 0, width := 0, diag := false, state := 1 }
        power := { s.power with linkLossA := some s.clock } } 8 0x06 (info [(1, 2), (1, 0), (1, 0)]))) ∧
    (∀ (s : State) (t : Nat), s.power.linkLossA = some t → t + 100 * 1600000 ≤ s.clock → s.hpA.up = false →
      exec (.linkLossTimeout false) s = .next (modHp (portReset { s with power := { s.power with linkLossA := none } } false 4 t) false
        (fun h => { h with state := 1 }))) ∧
    (∀ (s : State) (port : Bool) (fn : BitVec 5) (on : Bool),
      exec (.busMasterEnable port fn on) s = .next (modFn s port fn.toNat (fun f => { f with busMaster := on }))) ∧
    (∀ (s : State) (port : Bool) (fn : BitVec 5) (k : BitVec 8), (getFn s port fn.toNat).inReset = false → (getHp s port).up = true →
      fnEnabled s port fn.toNat = true →
      (let p := [(0x0001, 0x00), (0x0001, 0x01), (0x0001, 0x02), (0x1F9C, 0x01)].getD k.toNat (0xFFFF, 0xFF); exec (.doeDiscovery port fn k) s = .next (emit s (.doe port fn.toNat 0
          (leBytes 2 p.1 ++ leBytes 1 p.2 ++ leBytes 1 (if k.toNat < 3 then k.toNat + 1 else 0))))) ∧
      (fn = 0 → s.mgmt.sessions.any (fun z => z.transport == mailbox port 0 && z.finished) = true → exec (.ideKm port fn true true true) s =
        .next (emit (modFn (modHp s port (fun h => { h with statusCleared := false })) port 0 (fun f => { f with linkIde := true }))
          (.doe port 0 0 []))) ∧
      (fn ≠ 0 → exec (.ideKm port fn true true true) s = .next (emit s (.doe port fn.toNat 0x7F (leBytes 1 0x04)))))

/-- MCTP control, PLDM sensors and events, SUMP_READ and STATUS at a management endpoint that is up. AUX lets the bus controller assign
an address. With AUX and an address: Set Endpoint ID stores the ID, and Get, Message Type Support and Vendor Support answer the ID,
the types 00 01 05 06 7E, and vendor 0x1F9C; the DMTF bodies are free (log 23). A sensor answers its reading, or Unavailable where
it needs absent main power. The oldest event goes to the receiver, is delivered when answered, is sent again after 100 ms up to 3
times, then stays for polling, which delivers it. SUMP_READ of 1-7 records answers their 32 bytes each, and UNAVAILABLE without
main power; STATUS answers its nine bytes. (R35, R500, R501, R502, R503) -/
def Obligations.ManagementMessages : Prop :=
  (∀ (s : State) (a : BitVec 7), s.pins.aux = true →
      exec (.dynamicAddressAssign a) s = .next { s with mgmt := { s.mgmt with dyn := some a.toNat } }) ∧
    (∀ s : State, mgmtUp s = true →
      (∀ e, exec (.setEndpointId e) s = .next (emit { s with mgmt := { s.mgmt with eid := e.toNat } } (.mgmt 0x00 0x00 [e]))) ∧
      exec .getEndpointId s = .next (emit s (.mgmt 0x00 0x00 [BitVec.ofNat 8 s.mgmt.eid])) ∧
      (∀ t, ∃ b, exec (.getMctpVersionSupport t) s = .next (emit s (.mgmt 0x00 0x00 b))) ∧
      exec .getMessageTypeSupport s = .next (emit s (.mgmt 0x00 0x00 [0x00, 0x01, 0x05, 0x06, 0x7E])) ∧
      exec .getVendorMessageSupport s = .next (emit s (.mgmt 0x00 0x00 [0x9C, 0x1F])) ∧
      (∀ c, ∃ b, exec (.pldmBaseRequest c) s = .next (emit s (.mgmt 0x01 0x00 b))) ∧
      (∀ c, ∃ b, exec (.pldmFruRequest c) s = .next (emit s (.mgmt 0x01 0x00 b))) ∧
      (∀ e, exec (.setEventReceiver e) s =
        .next (emit { s with mgmt := { s.mgmt with receiver := some e.toNat } } (.mgmt 0x01 0x00 []))) ∧
      exec .mgmtStatus s = .next (emit s (.mgmt 0x7E 0x00 ([BitVec.ofNat 8 s.power.state.code, BitVec.ofNat 8 s.cx.state
        , BitVec.ofNat 8 (level s), BitVec.ofNat 8 s.ri.position, BitVec.ofNat 8 s.ri.count] ++ leBytes 4 s.cx.version.toNat)))) ∧
    (∀ s : State, pldmSensor s 1 = some (true, twos 16 s.dp.hottest) ∧ pldmSensor s 2 = some (true, twos 16 s.dp.hotStack) ∧
      pldmSensor s 3 = some (true, twos 16 s.dp.hotOptics) ∧ pldmSensor s 4 = some (true, twos 16 s.dp.vin) ∧
      pldmSensor s 5 = some (true, twos 16 s.dp.iin) ∧ pldmSensor s 6 = some (true, twos 16 s.dp.pin1s) ∧
      (∃ v, pldmSensor s 7 = some (false, v)) ∧ pldmSensor s 16 = some (false, level s) ∧
      pldmSensor s 17 = some (false, s.power.state.code) ∧ pldmSensor s 18 = some (false, if s.ri.crosscut then 0 else 1) ∧
      pldmSensor s 19 = some (true, s.cx.state)) ∧
    (∀ (s : State) (id : BitVec 16) (m : Bool) (v : Nat), mgmtUp s = true → pldmSensor s id.toNat = some (m, v) →
      exec (.pldmSensorRead id) s = .next (emit { s with free := s.free + 1 } (.mgmt 0x01 0x00 (if m = true ∧ mainPower s = false
        then leBytes 2 id.toNat ++ [2] else leBytes 2 id.toNat ++ [0] ++ leBytes 2 v)))) ∧
    (∀ (s : State) (r n : Nat) (b : List (BitVec 8)) (k : Bool) (q : List (Nat × List (BitVec 8) × Bool × Bool)), mgmtUp s = true →
      s.mgmt.receiver = some r → s.mgmt.queue = (n, b, k, false) :: q →
      (s.mgmt.sentAt = none → exec (.platformEventSend false) s = .next { s with
        out := s.out ++ [.platformEvent r n b], mgmt := { s.mgmt with sentAt := some s.clock, retries := 0 } }) ∧
      (∀ t, s.mgmt.sentAt = some t → exec (.platformEventSend true) s =
        .next (mgmtFreed { s with mgmt := { s.mgmt with queue := q, sentAt := none, retries := 0 } }) ∧
        (t + 100 * 1600000 ≤ s.clock → s.mgmt.retries < 3 → exec .platformEventTimeout s = .next { s with
          out := s.out ++ [.platformEvent r n b], mgmt := { s.mgmt with sentAt := some s.clock, retries := s.mgmt.retries + 1 } }) ∧
        (t + 100 * 1600000 ≤ s.clock → 3 ≤ s.mgmt.retries → exec .platformEventTimeout s = .next { s with
          mgmt := { s.mgmt with sentAt := none, retries := 0, queue := (n, b, k, true) :: q } }))) ∧
    (∀ (s : State) (n : Nat) (b : List (BitVec 8)) (x : Bool × Bool) (q : List (Nat × List (BitVec 8) × Bool × Bool)), mgmtUp s = true →
      (s.mgmt.queue = [] → exec .pollForPlatformEvent s = .next (emit s (.mgmt 0x01 0x00 []))) ∧
      (s.mgmt.queue = (n, b, x) :: q → exec .pollForPlatformEvent s =
        .next (emit (mgmtFreed { s with mgmt := { s.mgmt with queue := q, sentAt := none, retries := 0 } })
          (.mgmt 0x01 0x00 (leBytes 1 n ++ b))))) ∧
    (∀ s : State, (s.mgmt.dropped = 0 → ∃ p, mgmtFreed s = { s with pins := p }) ∧
      (s.mgmt.dropped ≠ 0 → s.mgmt.queue.length < 128 → ∃ p, mgmtFreed s = { s with pins := p, mgmt := { s.mgmt with
        queue := s.mgmt.queue ++ [(0xF1, leBytes 4 s.mgmt.dropped, false, false)], dropped := 0 } })) ∧
    (∀ (s : State) (i : BitVec 32) (n : BitVec 8), mgmtUp s = true →
      (mainPower s = true → s.power.sumpExists = true → n ≠ 0 → n.toNat ≤ 7 → i.toNat < 2 ^ s.power.sumpLog →
        exec (.sumpRead i n) s = .next (emit s (.mgmt 0x7E 0x00 ((upTo n.toNat).flatMap (fun k =>
          memBytes s (s.power.sumpBase.toNat + 32 * ((i.toNat + k) % 2 ^ s.power.sumpLog)) 32))))) ∧
      (mainPower s = false → exec (.sumpRead i n) s = .next (emit s (.mgmt 0x7E 0x03 []))))

/-- SPDM requests on a transport that carries them, with main power and a key engine that serves. GET_VERSION and NEGOTIATE_ALGORITHMS
end and make the transport's negotiation; GET_CAPABILITIES answers. After it: GET_DIGESTS the SHA-512 of the chain, GET_CERTIFICATE
a part of slot 0, CHALLENGE digest, nonce and a free signature, GET_MEASUREMENTS 8, one block or all, KEY_EXCHANGE a session while
fewer than four are open on the transport and SessionLimitExceeded at four; FINISH, HEARTBEAT, KEY_UPDATE and END_SESSION act on a
session of the transport. Without main power the answer is Busy, without identity Unspecified. Blocks 4 to 8 are the manifest,
versions, plan set, ring and the 51 lock bytes. The codes are PRESUMED (log 45), the bodies that DMTF fixes free (log 23). (R500,
R512, R513, R520, R521) -/
def Obligations.AttestationMessages : Prop :=
  (∀ (s : State) (v : Via), viaUp s v = true → mainPower s = true → s.ke.state ≠ 0 → s.ke.state ≠ 3 →
      (∃ b, exec (.spdmGetVersion v) s = .next (spdmAnswer { s with mgmt := { s.mgmt with
        negotiated := s.mgmt.negotiated.filter (· != viaNo v) } } v 0x04 b)) ∧
      (∃ b, exec (.spdmGetCapabilities v) s = .next (spdmAnswer s v 0x61 b)) ∧
      (∃ b, exec (.spdmNegotiateAlgorithms v) s = .next (spdmAnswer { s with mgmt := { s.mgmt with
        negotiated := viaNo v :: s.mgmt.negotiated.filter (· != viaNo v) } } v 0x63 b)) ∧
      (viaNo v ∈ s.mgmt.negotiated →
        exec (.spdmGetDigests v) s = .next (spdmAnswer s v 0x01 (digestBytes (sha512 s.store.chain))) ∧
        (∀ o n, exec (.spdmGetCertificate v 0 o n) s =
          .next (spdmAnswer s v 0x02 ((s.store.chain.drop o.toNat).take n.toNat))) ∧
        (∀ n, ∃ b, exec (.spdmChallenge v 0 n) s = .next (spdmAnswer { s with free := s.free + 1 } v 0x03
          (digestBytes (sha512 s.store.chain) ++ n ++ b))) ∧
        exec (.spdmGetMeasurements v 0) s = .next (spdmAnswer s v 0x60 [8]) ∧
        (∀ i : BitVec 8, 1 ≤ i.toNat → i.toNat ≤ 8 → exec (.spdmGetMeasurements v i) s = .next (spdmAnswer s v 0x60
          (i :: leBytes 2 (measurement s i.toNat).length ++ measurement s i.toNat))) ∧
        exec (.spdmGetMeasurements v 0xFF) s = .next (spdmAnswer s v 0x60 ([1, 2, 3, 4, 5, 6, 7, 8].flatMap (fun i =>
          leBytes 1 i ++ leBytes 2 (measurement s i).length ++ measurement s i))) ∧
        ((s.mgmt.sessions.filter (fun z => z.transport == viaNo v)).length < 4 → ∃ b, exec (.spdmKeyExchange v) s =
          .next (spdmAnswer { s with
            free := s.free + 1
            mgmt := { s.mgmt with nextSid := s.mgmt.nextSid + 1,
                                  sessions := s.mgmt.sessions ++ [{ transport := viaNo v, sid := s.mgmt.nextSid }] } } v 0x64 b)) ∧
        (4 ≤ (s.mgmt.sessions.filter (fun z => z.transport == viaNo v)).length →
          exec (.spdmKeyExchange v) s = .next (spdmAnswer s v 0x7F [0x0A])) ∧
        (∀ (sid : BitVec 32) (z : Session), findSession s v sid.toNat = some z →
          (z.finished = false → ∃ b, exec (.spdmFinish v sid) s = .next (spdmAnswer { s with mgmt := { s.mgmt with
            sessions := s.mgmt.sessions.map (fun y => if y = z then { y with finished := true } else y) } } v 0x65 b)) ∧
          (z.finished = true → exec (.spdmHeartbeat v sid) s = .next (spdmAnswer s v 0x68 []) ∧
            exec (.spdmKeyUpdate v sid) s = .next (spdmAnswer s v 0x69 [])) ∧
          exec (.spdmEndSession v sid) s = .next (spdmAnswer { s with mgmt := { s.mgmt with
            sessions := s.mgmt.sessions.filter (· != z) } } v 0x6C [])))) ∧
    (∀ (s : State) (v : Via), viaUp s v = true →
      (mainPower s = false → exec (.spdmGetCapabilities v) s = .next (spdmAnswer s v 0x7F [0x03])) ∧
      (mainPower s = true → s.ke.state = 3 → exec (.spdmGetCapabilities v) s = .next (spdmAnswer s v 0x7F [0x05]))) ∧
    (∀ (s : State) (c : Nat) (b : List (BitVec 8)), spdmAnswer s .mgmt c b = emit s (.mgmt 0x05 c b) ∧
      ∀ p f, spdmAnswer s (.doe p f) c b = emit s (.doe p f.toNat c b)) ∧
    (∀ (s : State) (r : ImageInfo), s.cx.running = some r →
      measurement s 1 = digestBytes Config.bootRomDigest ∧ measurement s 2 = digestBytes r.headerDigest ∧
      measurement s 3 = digestBytes r.kernelDigest ∧
      measurement s 4 = digestBytes r.manifestDigest ++ leBytes 8 r.manifest.serial.toNat ++ leBytes 8 r.manifest.sku.toNat ∧
      measurement s 5 = leBytes 4 r.version.toNat ++ leBytes 4 r.svn ++ leBytes 4 s.store.mvc ∧
      (s.sq.planSet = none → measurement s 6 = []) ∧
      (∀ p, s.sq.planSet = some p → measurement s 6 = digestBytes s.sq.planDigest ++ leBytes 8 p.modelId.toNat)) ∧
    (∀ s : State, s.ri.valid = true → measurement s 7 = leBytes 1 s.ri.position ++ leBytes 1 s.ri.count ++ leBytes 1 s.ri.generation
      ++ s.ri.members.flatMap (fun m => (leBytes 32 m.digest.toNat).reverse)) ∧
    (∀ s : State, (measurement s 8).length = 51 ∧ ∀ i, i < 401 →
      ((measurement s 8).getD (i / 8) 0).getLsbD (i % 8) = (getHdr s i).lock)

/-- Key destruction, the entropy source, credit packets received, and REG_ACCESS. KE_DESTROY orders the destruction of a bound or held
owner's key by PF0 of its port with CONFIRM (a member asks the headframe for it), and does nothing otherwise; a management
session's KEY_DESTROY does so for an owner that exists; each member then clears slot and pause keys. CLEAR by PF0 of the selected
slot's port removes its seals with event 0x06; with main power a failed health test is FAILED with 0x09; the DRBG is reseeded at
65,536 requests. A credit write reaches memory under the owner's key, a page or the mailbox; a read is answered with its tag; read
data completes its command; a message is assembled; in ROM image data before the header's SIZE goes to its offset. A packet of a
frozen source is discarded. An access that R381 refuses freezes the source with 0x0809. REG_ACCESS of PF0 of Port A of the
headframe reads and writes here, or sends a packet to the member named. (R340, R381, R424, R425, R433, R434, R461, R489, R523,
R524, R530, R537) -/
def Obligations.KeysCreditPacketsAndRegAccess : Prop :=
  (∀ (s : State) (a : Accessor) (v : BitVec 32), let o := v.toNat % 256
      exec (.keDestroy a v) s = .next (if mayWrite s a 5 = true ∧ o ≠ 0 ∧ bits v.toNat 16 16 = 0xDE57 ∧
        ((getSlot s o).state = 1 ∨ (getSlot s o).state = 2) ∧ a = .pf0 (getSlot s o).port then askDestroy s o 4 else s)) ∧
    (∀ (s : State) (o c : Nat), (isHeadframe s = true → askDestroy s o c = orderDestroy s o c none) ∧
      (isHeadframe s = false → askDestroy s o c = sendMessage s 0 0x47 [o, c])) ∧
    (∀ (s : State) (o c : BitVec 8), o ≠ 0 →
      (isHeadframe s = true → (getSlot s o.toNat).state = 3 → (getSlot s o.toNat).destroyCause = 1 → liveStreamsOf s o.toNat = [] →
        exec (.ownerKeyDestroy o c) s = .next (destroyKey s o.toNat 1)) ∧
      (isHeadframe s = true → (getSlot s o.toNat).state = 3 → (getSlot s o.toNat).destroyCause ≠ 1 →
        exec (.ownerKeyDestroy o c) s = .next (destroyKey s o.toNat (getSlot s o.toNat).destroyCause)) ∧
      (isHeadframe s = false → (getSlot s o.toNat).state ≠ 0 → exec (.ownerKeyDestroy o c) s = .next (destroyKey s o.toNat c.toNat))) ∧
    (∀ (s : State) (o c : Nat), tblWf {} s.ke.slots = true →
      getSlot (destroyKey s o c) o = { generation := (getSlot s o).generation } ∧
      (∀ x, x ≠ o → getSlot (destroyKey s o c) x = getSlot s x) ∧
      (destroyKey s o c).ke.pauseKeys = s.ke.pauseKeys.filter (fun e => e.2.owner != o)) ∧
    (∀ (s : State) (a : Accessor) (v : BitVec 32), mayWrite s a 5 = true → v.getLsbD 31 = true → a = .pf0 (getSlot s s.ke.slotSel).port →
      hasSeal s s.ke.slotSel = true → exec (.keClear a v) s = .next (raiseEvent (modSlot (removeSeals s s.ke.slotSel) s.ke.slotSel
        (fun k => { k with sealed := false, sealHandle := none })) 5 0x06 (info [(1, s.ke.slotSel), (1, 2), (2, 0)]))) ∧
    (∀ (s : State) (x : Bool), mainPower s = true → exec (.entropyFail x) s =
      .next (raiseEvent { s with ke := { s.ke with state := 2 } } 5 0x09 (info [(1, if x then 2 else 1)]))) ∧
    (∀ s : State, 65536 ≤ s.ke.drbgCount → s.ke.state ≠ 2 → exec .drbgReseed s = .next { s with ke := { s.ke with drbgCount := 0 } }) ∧
    (∀ (s : State) (sid : BitVec 32) (o : BitVec 8) (w : Owner), { transport := 0, sid := sid.toNat, finished := true } ∈ s.mgmt.sessions →
      s.pins.aux = true → s.mgmt.dyn ≠ none → mainPower s = true → s.ke.state ≠ 0 → o ≠ 0 → getOwner s o.toNat = some w →
      w.releasing = false → exec (.keyDestroy sid true o) s = .next (emit (askDestroy s o.toNat 5) (.mgmt 0x06 0x00 []))) ∧
    (∀ (s : State) (b : List (BitVec 8)) (q : List (List (BitVec 8))), s.ri.packets = b :: q → isFrozen s 4 (packetSource b) = true →
      byteAt b 0 = 1 → exec .creditWrite s = .next { s with ri := { s.ri with packets := q } }) ∧
    (∀ (s : State) (b : List (BitVec 8)) (q : List (List (BitVec 8))), s.ri.packets = b :: q → isFrozen s 4 (packetSource b) = false →
      let u := { s with ri := { s.ri with packets := q } }
      let p := packetOf b
      (byteAt b 0 = 1 → p.space = 0 → memoryAllowed s p = true →
        exec .creditWrite s = .next (writeUnder u (stackKey s p.owner) p.addr (padTo p.len p.data) 258)) ∧
      (byteAt b 0 = 1 → p.space = 0 → memoryAllowed s p = false → exec .creditWrite s = .next (freeze u 7 4 p.source 0x0809 p.addr)) ∧
      (byteAt b 0 = 1 → p.space = 1 → p.len = 4 → p.addr % 4 = 0 → p.agent = 0x01 →
        exec .creditWrite s = .next (writeWordAt u .mgmt p.addr (leAt p.data 0 4))) ∧
      (byteAt b 0 = 1 → p.space = 2 → exec .creditWrite s =
        .next { u with ri := { u.ri with mailbox := s.ri.mailbox ++ [(p.source, p.data)] } }) ∧
      (byteAt b 0 = 2 → p.space = 0 → memoryAllowed s p = true → s.ms.poisoned = [] → s.ms.latent = [] → exec (.creditReadRequest []) s =
        (let d := readUnder u (stackKey s p.owner) p.addr p.len
        .next (sendPacket u 0 p.position (packetHeader 3 (creditSource s 0) p.owner d.length p.addr p.tag 0 ++ d)))) ∧
      (byteAt b 0 = 2 → p.space = 1 → p.len = 4 → p.addr % 4 = 0 → p.agent = 0xC0 → exec (.creditReadRequest []) s =
        (let r := readWord u (.pf0 false) p.addr
        .next (sendPacket r.2 1 p.position (packetHeader 3 (creditSource r.2 0) p.owner 4 p.addr p.tag 1 ++ leBytes 4 r.1)))) ∧
      (∀ e, byteAt b 0 = 3 → s.ri.creditReads.find? (fun e => e.1 == p.tag) = some e → exec .creditReadData s =
        .next (complete { u with ri := { u.ri with creditReads := s.ri.creditReads.filter (fun x => x.1 != p.tag) } } e.2 0
          (padTo 4 p.data))) ∧
      (byteAt b 0 = 4 → p.tag ≠ 0 → s.ri.partialMsg = [] → exec .creditMessage s =
        .next { u with ri := { u.ri with partialMsg := [(p.source, p.data)] } }) ∧
      (∀ h, byteAt b 0 = 4 → p.tag = 0 → s.ri.partialMsg = [(p.source, h)] → exec .creditMessage s =
        .next (message { u with ri := { u.ri with partialMsg := [] } } p.source (h ++ p.data))) ∧
      (byteAt b 0 = 5 → s.power.state = .rom → s.cx.state = 1 → p.addr + p.data.length ≤ stagingSize → p.addr + p.data.length < 24 →
        exec .creditImage s = .next (let t := writeUnder u 0 (stagingBase + p.addr) p.data 258
          { t with cx := { t.cx with fwPhase := 1 } }))) ∧
    (∀ (s : State) (src : Nat) (body : List (BitVec 8)),
      (leAt body 0 8 = 0x41 → ∀ o c, o ≠ 0 → (getSlot s o).state ≠ 0 → 2 ≤ leAt body 8 8 → 4 ≤ body.length / 8 → leAt body 16 8 = o →
        leAt body 24 8 = c → message s src body = modSlot s o (fun k => { k with state := 3, destroyCause := c })) ∧
      (leAt body 0 8 = 0x90 → message s src body = { s with ri := { s.ri with mailbox := s.ri.mailbox ++ [(src, body)] } })) ∧
    (∀ (s : State) (i : Issuer) (f : Fetched) (off v : BitVec 32), fromHeadPf0 s i = true →
      findFetched s i = some f → off.toNat % 4 = 0 → off.toNat < 2 ^ 25 →
      (f.device = s.ri.position ∨ f.device = 0xFF →
        (starts s i 0x35 [off.toNat, v.toNat, 0] = true → exec (.regAccess i off v false) s = .next (complete (readWord s (.pf0 false) off.toNat).2 i 0
          (leBytes 4 (readWord s (.pf0 false) off.toNat).1))) ∧
        (∀ t, starts s i 0x35 [off.toNat, v.toNat, 1] = true → relayedWrite s false off.toNat v.toNat = some t → exec (.regAccess i off v true) s = .next (complete t i 0 [0, 0, 0, 0]))) ∧
      (f.device ≠ s.ri.position → f.device ≠ 0xFF →
        (starts s i 0x35 [off.toNat, v.toNat, 1] = true → exec (.regAccess i off v true) s = .next (complete (sendPacket s 1 f.device
          (packetHeader 1 (creditSource s 0xC0) 0 4 off.toNat 0 1 ++ leBytes 4 v.toNat)) i 0 [0, 0, 0, 0])) ∧
        (starts s i 0x35 [off.toNat, v.toNat, 0] = true → let u := { s with ri := { s.ri with
            readTag := (s.ri.readTag + 1) % 65536, creditReads := s.ri.creditReads ++ [(s.ri.readTag, i)] } }
        exec (.regAccess i off v false) s = .next (sendPacket u 1 f.device
          (packetHeader 2 (creditSource s 0xC0) 0 4 off.toNat s.ri.readTag 1)))))

/-- BOOT, image verification, staging, activation, handoff, reversion and the watchdog. In ROM, PF0's BOOT starts verification; an
image with code 0 runs in FW_LOADED, its KERNEL in SRAM, another returns to ROM with event 0x05. On a running headframe PF0 of Port
A stages an image in extents of owner 0, which is copied (elsewhere 0x0A, outside them 0x09); a member that has checked the image
it was sent tells the headframe, and when every member has passed STAGED follows with event 0x06, which the members are told;
FAILED everywhere where a member failed. ACTIVATE waits, DISCARD discards with event 0x08. Quiet members are recorded, losses of
other members counted; all quiet with no plan set is pending, which every member is told. HANDOFF_START, with no set admitted or at
a boundary of the halt, writes the handoff block and starts the staged image; a report of completion that comes before it is kept;
completion by all ends it with the counter advanced to its SVN; a rejection, an order, or 30 ms without completion reverts to the
old image with RESULT 0x0C. Above ROM a core silent for 50 ms stops the device with 0x0D. (R483, R487, R488, R489, R490, R491,
R492, R493, R494, R495, R509, R510) -/
def Obligations.FirmwareBootStagingHandoffAndWatchdog : Prop :=
  (∀ (s : State) (p : Bool) (v : BitVec 32), mayWrite s (.pf0 p) 1 = true → bits v.toNat 30 2 = 0 → bits v.toNat 0 28 = 0 →
      s.power.state = .rom → s.cx.state = 1 → exec (.boot (.pf0 p) v) s = .next { s with
        cx := { s.cx with state := 2, fwPhase := 2, fwValid := false, bootPort := if p then 1 else 0 }
        power := { s.power with wait := 0 } }) ∧
    (∀ s : State, s.cx.state = 2 → s.power.state = .rom → s.cx.bootPort < 2 → let code := imgCheck s 0 (some (s.cx.bootPort == 1)) false
      ∃ t, exec .fwVerifyDone s = .next t ∧ if code = 0
        then t.power.state = .fwLoaded ∧ t.cx.state = 3 ∧ t.cx.fwResult = 0 ∧
          t.cx.running = some (imgInfo s 0) ∧ t.cx.version = (imgInfo s 0).version ∧ t.store = s.store ∧ t.owners = s.owners ∧
          t.cx.sram = (loadKernel (copyBytes s 0 0 residentBase (imgInfo s 0).size) 0).cx.sram
        else t = raiseEvent { s with
          cx := { s.cx with state := 1, fwValid := true, fwResult := code, fwPhase := 0 }, power := { s.power with wait := 1 } } 1 0x05
          (info [(1, code), (1, 0), (1, s.ri.position)])) ∧
    (∀ (s : State) (base : Nat) (x : Section), (imgSections s base).find? (fun x => x.type == 1) = some x →
      loadKernel s base = { s with cx := { s.cx with sram := memBytes s (base + x.offset) x.length } }) ∧
    (∀ (s : State) (v : BitVec 32), let a := bits v.toNat 0 28 * 4096
      mayWrite s (.pf0 false) 1 = true → bits v.toNat 30 2 = 1 → s.cx.state = 3 → s.cx.hoState = 0 ∨ s.cx.hoState = 5 →
      (isHeadframe s = false → exec (.stage (.pf0 false) v) s = .next (stageFail s 0x0A)) ∧
      (let n := max 8192 (min (ofLe (readUnder s (stackKey s 0) (a + 16) 8)) stagingSize)
       isHeadframe s = true → (extentsGranted s 0 a n = false → exec (.stage (.pf0 false) v) s = .next (stageFail s 0x09)) ∧
        (extentsGranted s 0 a n = true → exec (.stage (.pf0 false) v) s = .next (let u := copyBytes s (stackKey s 0) a 0 n
          { u with cx := { u.cx with hoState := 1, state := 2, fwPhase := 1, fwValid := false, stageOk := false, hoMembers := 0
                                     staged := none } })))) ∧
    (∀ s : State, s.cx.state = 2 → s.power.state ≠ .rom → s.cx.hoState = 1 → isHeadframe s = false →
      exec .fwVerifyDone s = .next (if imgCheck s 0 none true = 0 then sendMessage { s with cx := { s.cx with
        state := 3, fwValid := true, fwResult := 0, fwPhase := 0, staged := some (imgInfo s 0), stageOk := true, hoMembers := 1 } } 0 0x90
          [s.ri.position, 0]
        else sendMessage (stageFail s (imgCheck s 0 none true)) 0 0x90 [s.ri.position, imgCheck s 0 none true])) ∧
    (∀ (s : State) (code : Nat), stageFail s code = raiseEvent { s with cx := { s.cx with
      state := 3, hoState := 5, hoResult := code, staged := none, stageOk := false, fwValid := true, fwResult := code, fwPhase := 0 } } 1
      0x05 (info [(1, code), (1, 1), (1, s.ri.position)])) ∧
    (∀ (s : State) (o : BitVec 32) (d : List (BitVec 8)) (last : Bool), s.power.state = .rom → s.cx.state = 1 →
      o.toNat + d.length ≤ stagingSize → exec (.fwImagePacket o d last) s = .next
        (let u := writeUnder s 0 o.toNat d 0xFFFF;
          { u with cx := if last then { u.cx with fwPhase := 2, state := 2, fwValid := false, bootPort := 2 }
                         else { u.cx with fwPhase := 1 } })) ∧
    (∀ (s : State) (img : ImageInfo), s.cx.hoState = 1 → s.cx.stageOk = true → isHeadframe s = true → s.cx.staged = some img →
      (∀ l : List (BitVec 6 × BitVec 8), (∀ e ∈ l, e.2 = 0) →
        let k := (((l.filter (fun r => r.1.toNat != s.ri.position)).map (fun r => r.1.toNat)).eraseDups).length + 1
        (ringCount s ≤ k → exec (.fwStaged l) s = .next (raiseEvent (broadcast { s with
          cx := { s.cx with hoState := 2, hoResult := 0, hoMembers := ringCount s } } 0x93 [5, ringCount s])
          1 0x06 (info [(4, img.version.toNat), (1, ringCount s)]))) ∧
        (k < ringCount s → exec (.fwStaged l) s = .next { s with cx := { s.cx with hoMembers := k } })) ∧
      (∀ (p : BitVec 6) (c : BitVec 8), c ≠ 0 → exec (.fwStaged [(p, c)]) s = .next (broadcast { s with cx := { s.cx with
        hoState := 5, hoResult := c.toNat, staged := none, stageOk := false } } 0x93 [3, c.toNat]))) ∧
    (∀ (s : State) (v : BitVec 32), mayWrite s (.pf0 false) 1 = true → isHeadframe s = true →
      (v.getLsbD 31 = true → v.getLsbD 30 = false → s.cx.hoState = 2 → exec (.cxActivate (.pf0 false) v) s =
        .next (let u := broadcast { s with cx := { s.cx with hoState := 3, quietMembers := if quiet s then [s.ri.position] else [] } } 0x93 [1]
          if planAdmitted u = false ∧ allQuiet u = true then pendHandoff u else u)) ∧
      (v.getLsbD 31 = false → v.getLsbD 30 = true → s.cx.hoState = 2 ∨ s.cx.hoState = 3 →
        exec (.cxDiscard (.pf0 false) v) s = .next (broadcast (raiseEvent { s with cx := { s.cx with
          hoState := 0, hoResult := 0x0B, staged := none, stageOk := false, hoMembers := 0, quietMembers := [], hoPending := false
          hoDone := [], state := if s.cx.state = 2 then 3 else s.cx.state, fwPhase := if s.cx.state = 2 then 0 else s.cx.fwPhase } } 1 0x08
          (info [(1, 1)])) 0x93 [2]))) ∧
    (∀ s : State, pendHandoff s = broadcast { s with cx := { s.cx with hoPending := true, hoDone := [] } } 0x93 [4]) ∧
    (∀ (s : State) (p : BitVec 6), s.cx.hoState = 3 → isHeadframe s = true → p.toNat ≠ s.ri.position →
      (s.cx.quietMembers.contains p.toNat = false → let u := { s with cx := { s.cx with quietMembers := s.cx.quietMembers ++ [p.toNat] } }
        exec (.quietTimeReached p true) s = .next (if planAdmitted s = false ∧ s.cx.hoPending = false ∧ allQuiet u = true
          then pendHandoff u else u)) ∧
      (exec (.quietTimeReached p false) s = .next { s with cx := { s.cx with
        hoDeferrals := s.cx.hoDeferrals.bump (sclk s) 255 1, quietMembers := s.cx.quietMembers.filter (· != p.toNat) } })) ∧
    (∀ (s : State) (img : ImageInfo), s.cx.hoPending = true → s.cx.state = 3 → s.cx.staged = some img → level s < 2 →
      powerEmergency s = false → planAdmitted s = false ∨ (s.sq.verdict = 3 ∧ s.sq.haltHandoff = true ∧ s.sq.edgeAt = some s.clock) →
      exec .handoffStart s = .next (loadKernel { s with handoff := some (handoffBlock s), cx := { s.cx with
        state := 4, hoState := 4, hoPending := true, hoStart := s.power.rtb, previous := s.cx.running } } 0)) ∧
    (∀ (s : State) (r : ImageInfo), s.cx.running = some r → let b := handoffBlock s
      b.format = r.handoffOut ∧ b.owners = s.owners ∧ b.streams = s.streams ∧ b.frames = s.ms.frames ∧ b.prefixes = s.prefixes ∧
      b.extents = s.ms.extents ∧ b.pauses = s.ke.pauseKeys ∧ b.sumpHead = s.power.sumpHead ∧ b.epochs = (s.sq.epoch, s.sq.retiredEpoch)) ∧
    (∀ (s : State) (p : BitVec 6), s.cx.state ≠ 4 → s.cx.hoPending = true → isHeadframe s = true → p.toNat ≠ s.ri.position →
      s.cx.hoDone.contains p.toNat = false → exec (.handoffDone p false) s =
        .next { s with cx := { s.cx with hoDone := s.cx.hoDone ++ [p.toNat] } }) ∧
    (∀ (s : State) (p : BitVec 6), s.cx.state = 4 → isHeadframe s = true → p.toNat ≠ s.ri.position →
      s.cx.hoDone.contains p.toNat = false → let u := { s with cx := { s.cx with hoDone := s.cx.hoDone ++ [p.toNat] } }
      exec (.handoffDone p false) s = .next (if (upTo (ringCount s)).all (fun q => u.cx.hoDone.contains q) = true
        then handoffFinish u else u)) ∧
    (∀ (s : State) (img old : ImageInfo), s.cx.staged = some img → s.cx.running = some old →
      (handoffFinish s).cx.state = 3 ∧ (handoffFinish s).cx.running = some img ∧ (handoffFinish s).cx.version = img.version ∧
        (handoffFinish s).cx.hoState = 0 ∧ (handoffFinish s).handoff = none ∧ (handoffFinish s).manifest = img.manifest ∧
        (handoffFinish s).store.mvc = max s.store.mvc img.svn ∧ (handoffFinish s).streams = s.streams) ∧
    (∀ (s : State) (why : BitVec 2) (img old : ImageInfo), s.cx.state = 4 → s.cx.staged = some img → s.cx.previous = some old →
      why = 1 ∨ why = 2 ∨ (why = 0 ∧ s.cx.hoStart.toNat + 3000000 < s.power.rtb.toNat ∧ s.ri.position ∉ s.cx.hoDone) →
      ∃ t, exec (.handoffRevert why) s = .next t ∧ t.cx.state = 3 ∧ t.cx.hoState = 5 ∧ t.cx.hoResult = 0x0C ∧
        t.cx.running = some old ∧ t.cx.version = old.version ∧ t.cx.staged = none ∧ t.handoff = none ∧ t.store.mvc = s.store.mvc ∧ t.streams = s.streams) ∧
    (∀ (s : State) (c : BitVec 3), exec (.watchdogSignal c) s =
      .next { s with cx := { s.cx with signals := tblSet 0 s.cx.signals c.toNat s.clock } }) ∧
    (∀ (s : State) (c : BitVec 3), 4 ≤ s.power.state.code → s.cx.state ≠ 5 → tblGet 0 s.cx.signals c.toNat + 50 * 1600000 ≤ s.clock →
      exec (.watchdog c) s = .next (raiseEvent { s with cx := { s.cx with state := 5 } } 1 0x0D (info [(1, c.toNat)])))

/-- AUX, input, PWR_EN, THERM_TRIP#, the rails, the PLL's reference, and the start from ROM to READY. AUX and the input appear and note
their time; when all conditions of R600 hold, PWR_EN's rise, or the last condition met, starts the rails with a cause; PWR_EN's
fall removes main power, as does AUX loss, which releases THERM_TRIP#; it is released after 100 ms of PWR_EN low; with both inputs
lost AUX's domain loses its state. A lost reference starts holdover with event 0x06; after 10 ms, or when a better one appears, the
PLL takes the next; lock is event 0x07. Zero-fill leads to ROM, firmware's work to CONFIGURED with the image's manifest, then
CALIBRATING unless a trip is pending; calibrated, a lone device is READY. (R389, R515, R600, R601, R602, R606, R607, R619, R620,
R623, R624, R634) -/
def Obligations.SuppliesReferencesAndStartup : Prop :=
  (∀ s : State, s.pins.aux = false → ∃ t, exec .auxApply s = .next t ∧ t.pins.aux = true ∧ t.power.state = .aux ∧
        t.power.auxSince = s.clock ∧ t.power.causeCount = 0 ∧ t.store = s.store) ∧
    (∀ s : State, s.pins.aux = true → ∃ t, exec .auxLoss s = .next t ∧ t.pins.aux = false ∧ t.pins.thermTrip = false ∧
        t.power.state = .off ∧ t.power.starting = false ∧ t.store = s.store ∧ mainPower t = false) ∧
    (∀ s : State, s.pins.aux = false → s.pins.vinPresent = false → exec .holdUpBankDepleted s =
        .next (auxOff { s with power := { s.power with bankCharged := false } })) ∧
    (∀ s : State, (auxOff s).dp = {} ∧ (auxOff s).mgmt = {} ∧ getHdr (auxOff s) 2 = {} ∧ (auxOff s).pins = { s.pins with alert := false } ∧
        (auxOff s).store = s.store) ∧
    (∀ (s : State) (v : BitVec 16), v ≠ 0 → s.pins.vinPresent = false → s.pins.pwrEn = false → exec (.vinApply v) s = .next { s with
        pins := { s.pins with vinPresent := true }
        dp := { s.dp with vin := v.toNat }
        power := { s.power with vinSince := s.clock, bankCharged := false } }) ∧
    (∀ s : State, startReady s = true ↔ (s.pins.pwrEn = true ∧ s.pins.aux = true ∧ s.power.auxSince + 20 * 1600000 ≤ s.clock ∧
        3990 ≤ s.dp.vin ∧ s.dp.vin ≤ 4410 ∧ s.power.vinSince + 10 * 1600000 ≤ s.clock ∧ s.power.bankCharged = true ∧
        s.power.railsOn = false ∧ s.power.starting = false ∧ level s ≠ 4 ∧ s.power.moduleResetAt = none ∧
        ∀ t, s.power.pwrEnFellAt = some t → t + 100 * 1600000 ≤ s.clock)) ∧
    (∀ s : State, s.pins.pwrEn = false → (∃ t, exec .pwrEnRise s = .next t ∧ t.pins.pwrEn = true) ∧
        (let u := { s with pins := { s.pins with pwrEn := true }, power := { s.power with nextCause := 1, nextRequester := 0 } }
         startReady u = true → ∃ t, exec .pwrEnRise s = .next t ∧ t.power.starting = true ∧ t.power.cause = 1 ∧ t.power.requester = 0)) ∧
    (∀ (s : State) (b : Bool), let u := { s with power := { s.power with bankCharged := s.power.bankCharged || b } }
      startReady u = true → exec (.mainRailsStart b) s = .next { clearLevels u with power := { u.power with
        starting := true, cause := u.power.nextCause, tripBefore := u.power.railsByTrip
        requester := if u.power.nextCause = 2 ∨ u.power.nextCause = 3 then u.power.nextRequester else 0
        causeCount := min 65535 (u.power.causeCount + 1) } }) ∧
    (∀ s : State, s.pins.pwrEn = true → mainPower s = true → s.pins.aux = true → ∃ t, exec .pwrEnFall s = .next t ∧
        t.pins.pwrEn = false ∧ t.power.state = .aux ∧ t.pins.powerGood = false ∧ t.power.pwrEnFellAt = some s.clock ∧
        t.store = s.store ∧ t.mem = [] ∧ t.owners = [] ∧ t.streams = []) ∧
    (∀ (s : State) (t : Nat), s.power.pwrEnFellAt = some t → s.pins.pwrEn = false → s.pins.thermTrip = true →
        t + 100 * 1600000 ≤ s.clock → exec .thermTripRelease s = .next { s with pins := { s.pins with thermTrip := false } }) ∧
    (∀ (s : State) (t : Nat), s.power.moduleResetAt = some t → t + 20 * 1600000 ≤ s.clock → s.pins.pwrEn = true →
        s.dp.hottest < tempThreshold s 1 4 → s.dp.hotStack < tempThreshold s 2 4 → s.dp.hotOptics < tempThreshold s 3 4 →
        s.dp.iin10us ≤ 5500 → exec .moduleRestart s =
          .next (tryStart (clearLevels { s with power := { s.power with moduleResetAt := none } }))) ∧
    (∀ s : State, mainPower s = true → s.power.pllHold = none → s.power.pllRef = 1 → s.ri.elected = none → s.ri.valid = false →
        exec (.refLost 1) s = .next (raiseEvent { s with
          pins := { s.pins with refA := false }
          power := { s.power with pllHold := some s.clock, refLostHf := s.power.refLostHf || s.ri.hf } } 0 0x06
            (info [(1, 1), (1, if s.pins.refB then 2 else 4)]))) ∧
    (∀ (s : State) (t : Nat), s.power.pllHold = some t → t + 10 * 1600000 ≤ s.clock → exec .refHoldoverExpiry s =
        .next { s with power := { s.power with pllRef := pllSelect s, pllHold := none, pllPending := true } }) ∧
    (∀ s : State, mainPower s = true → s.power.pllRef = 4 → s.ri.elected = none → s.ri.valid = false →
        exec (.referenceAppear 1) s = .next { s with
          pins := { s.pins with refA := true }
          power := { s.power with pllRef := 1, pllHold := none, pllPending := true } }) ∧
    (∀ (s : State) (us : BitVec 16), mainPower s = true → s.power.pllPending = true → s.power.pllHold = none → us.toNat ≤ 200 →
        s.ri.phase ≠ 4 → exec (.refLocked us) s = .next (raiseEvent { s with
          power := { s.power with pllPending := false, pllLocked := true, pllLockAt := s.clock } } 0 0x07
            (info [(1, s.power.pllRef), (2, us.toNat)]))) ∧
    (∀ s : State, s.power.state = .mainOn → s.power.softReset = false → s.ms.state ≠ 3 → ∃ t, exec .zeroFillDone s = .next t ∧
        t.power.state = .rom ∧ t.ms.state = 2 ∧ t.cx.state = 1 ∧ t.power.wait = 1 ∧ t.store = s.store ∧
        (t.power.sumpExists = false → t.mem = [])) ∧
    (∀ s : State, s.power.state = .mainOn → s.power.softReset = true → ∃ t, exec .softResetDone s = .next t ∧ t.power.state = .rom ∧
        t.power.softReset = false ∧ t.power.cause = 3 ∧ t.power.requester = s.power.nextRequester ∧ t.cx.state = 1) ∧
    (∀ (s : State) (img : ImageInfo), s.power.state = .fwLoaded → s.cx.running = some img → s.store.idOk = true → s.ke.state ≠ 2 →
        (∀ e ∈ s.store.seals, e.1 ≠ 0) →
        ∃ t, exec (.fwLoadedWorkDone 0) s = .next t ∧ t.power.state = .configured ∧ t.manifest = img.manifest ∧ t.ke.state = 1 ∧
          t.hb.state = 1 ∧ t.mc.state = 1 ∧ (tblWf {} s.ke.slots = true → (getSlot t 0).state = 1)) ∧
    (∀ s : State, s.power.state = .configured → (tripPending s = true → exec .configuredWorkDone s =
          .next { s with power := { s.power with wait := 2 } }) ∧
        (tripPending s = false → exec .configuredWorkDone s = .next (enterCalibrating s))) ∧
    (∀ s : State, (enterCalibrating s).power.state = .calibrating ∧ (enterCalibrating s).power.wait = 4 ∧
        (enterCalibrating s).mc.calBusy = true) ∧
    (∀ s : State, s.power.state = .calibrating → s.hb.selfcal = false → s.mc.calBusy = false → (∀ e ∈ s.tgs, e.2.calActive = false) →
        s.ri.peerLight = false → (s.ri.crosscut = false ∨ s.ri.light = false) → ∃ t, exec (.startupCalDone false) s = .next t ∧
          t.power.state = .ready ∧ t.sq.state = 1 ∧ t.power.wait = 0 ∧ t.ri.state = (if s.ri.hfSel then 6 else 7) ∧
          (s.ri.hfSel = true → t.ri.valid = true ∧ t.ri.hf = true ∧ t.ri.count = 1 ∧ t.ri.position = 0))

/-- Group and converter calibration, ageing measures, host envelopes and the margin plan. Of an enabled group a calibration starts at
the interval, or by CAL of PF0; finished, it counts, notes RTB and temperature; one second late is reported once. SELFCAL without a
plan set starts self-calibration, whose end without failures raises 0x08. Envelope writes in order and range are stored and clip
the plan in force, others are discarded. An ageing update stores D_ro, the CE peak of 168 hours and counts the hour. REPLAN forms
the plan of R559, clipped into envelope and manifest, stored, as does a schedule of 168 hours below CRITICAL; at CRITICAL a command
waits. A plan put in force sets every group's DERATE. (R552, R555, R556, R558, R559, R560, R578, R579, R581, R582, R583, R592) -/
def Obligations.CalibrationAgeingAndMarginPlan : Prop :=
  (∀ (s : State) (g : BitVec 6), let t := getTg s g.toNat
      6 ≤ s.power.state.code → s.cx.state ≠ 5 → t.calCount ≠ 0 → t.calLast.toNat + s.hb.margin.interval * 100000000 ≤ s.power.rtb.toNat →
      exec (.calIntervalExpiry g) s = .next (startCal s g.toNat 2)) ∧
    (∀ (s : State) (g cause : Nat), tgEnabled s g = true → (getTg s g).calActive = false → tblWf {} s.tgs = true →
      getTg (startCal s g cause) g = { getTg s g with
        calActive := true, calDue := true, calCause := cause, calDueAt := s.clock, calLate := false, calStartTemp := groupTemp s g } ∧
      ∀ h, h ≠ g → getTg (startCal s g cause) h = getTg s h) ∧
    (∀ (s : State) (g cause : Nat), tgEnabled s g = false ∨ (getTg s g).calActive = true → startCal s g cause = s) ∧
    (∀ (s : State) (g : BitVec 6), (getTg s g.toNat).calActive = true → uncalibrated s g.toNat = 0 →
      (s.power.state ≠ .calibrating → exec (.calDone g [] false) s = .next (finishGroupCal s g.toNat)) ∧
      (s.power.state = .calibrating → exec (.calDone g [] false) s = .next (finishGroupCal s g.toNat) ∧
        ((getTg (finishGroupCal s g.toNat) g.toNat).startCals < 63 → exec (.calDone g [] true) s =
          .next (modTg (startCal (finishGroupCal s g.toNat) g.toNat 4) g.toNat (fun t => { t with startCals := t.startCals + 1 }))))) ∧
    (∀ (s : State) (g : Nat), tblWf {} s.tgs = true → s.hb.margin.dtcal * 16 ≥ 10 * (groupTemp s g - (getTg s g).calStartTemp).natAbs →
      let t := finishGroupCal s g
      (getTg t g).calActive = false ∧ (getTg t g).calCount = min 0xFFFFFFFF ((getTg s g).calCount + 1) ∧
        (getTg t g).calLast = s.power.rtb ∧ (getTg t g).lastCalTemp = groupTemp s g ∧ t.hb.calCount = min 0xFFFFFFFF (s.hb.calCount + 1) ∧
        t.hb.calLast = s.power.rtb) ∧
    (∀ (s : State) (g : BitVec 6), let t := getTg s g.toNat
      t.calDue = true → t.calLate = false → t.calDueAt + 1600000000 ≤ s.clock → ∃ n, exec (.calLate g) s = .next
        (raiseEvent (modTg s g.toNat (fun t => { t with calLate := true })) (19 + g.toNat) 0x06 (info [(2, n)])) ∧
        (t.calActive = true → n = uncalibrated s g.toNat)) ∧
    (∀ (s : State) (p : Bool) (v : BitVec 32), mayWrite s (.pf0 p) 3 = true → takesWork s 3 = true → 6 ≤ s.power.state.code → s.cx.state ≠ 5 →
      (v.getLsbD 31 = true → v.getLsbD 30 = false → v.getLsbD 6 = false →
        exec (.hbCal (.pf0 p) v) s = .next (startCal s (v.toNat % 64) 3)) ∧
      (v.getLsbD 31 = true → v.getLsbD 30 = false → v.getLsbD 6 = true →
        exec (.hbCal (.pf0 p) v) s = .next (forEach (upTo 64) (fun s g => startCal s g 3) s)) ∧
      (v.getLsbD 31 = false → v.getLsbD 30 = true → planAdmitted s = false → exec (.hbSelfcal (.pf0 p) v) s =
        .next { s with hb := { s.hb with selfcal := true } }) ∧
      (v.getLsbD 31 = false → v.getLsbD 30 = true → planAdmitted s = true → exec (.hbSelfcal (.pf0 p) v) s = .next s)) ∧
    (∀ (s : State), s.hb.selfcal = true → s.power.state ≠ .calibrating →
      ∃ u, exec (.selfcalDone []) s = .next (raiseEvent u 3 0x08 (info [(1, (enabledGroups s).length), (2, 0)])) ∧
        u.hb = { s.hb with selfcal := false } ∧ (tblWf {} s.tgs = true → ∀ g ∈ enabledGroups s,
          getTg u g = { getTg s g with selfcal := s.power.rtb.setWidth 32 })) ∧
    (∀ (s : State) (p : Bool) (v : BitVec 32), let lo := v.toNat % 128
      let hi := v.toNat / 256 % 128
      mayWrite s (.pf0 p) 3 = true →
      (5 ≤ lo ∧ lo ≤ hi ∧ hi ≤ 100 → exec (.hbCalDtcal (.pf0 p) v) s =
        .next (reclip { s with hb := { s.hb with dtcalLo := lo, dtcalHi := hi } } false)) ∧
      (¬ (5 ≤ lo ∧ lo ≤ hi ∧ hi ≤ 100) → exec (.hbCalDtcal (.pf0 p) v) s = .next s)) ∧
    (∀ (s : State) (p : Bool) (v : BitVec 32), let lo := v.toNat % 1024
      let hi := v.toNat / 1024 % 1024
      mayWrite s (.pf0 p) 3 = true →
      (60 ≤ lo ∧ lo ≤ hi ∧ hi ≤ 600 → exec (.hbCalMaxInterval (.pf0 p) v) s =
        .next (reclip { s with hb := { s.hb with intLo := lo, intHi := hi } } false)) ∧
      (¬ (60 ≤ lo ∧ lo ≤ hi ∧ hi ≤ 600) → exec (.hbCalMaxInterval (.pf0 p) v) s = .next s)) ∧
    (∀ (s : State) (p : Bool) (v : BitVec 32), let a := v.toNat / 65536 % 128
      let b := v.toNat / 16777216 % 128
      let c := v.toNat % 32
      let d := v.toNat / 256 % 32
      mayWrite s (.pf0 p) 3 = true →
      (a ≤ b ∧ b ≤ 100 ∧ 8 ≤ c ∧ c ≤ d ∧ d ≤ 25 → exec (.hbMarginEnv (.pf0 p) false v) s =
        .next (reclip { s with hb := { s.hb with guardHi := b, guardLo := a, tolHi := d, tolLo := c } } true)) ∧
      (¬ (a ≤ b ∧ b ≤ 100 ∧ 8 ≤ c ∧ c ≤ d ∧ d ≤ 25) → exec (.hbMarginEnv (.pf0 p) false v) s = .next s)) ∧
    (∀ (s : State) (p : Bool) (v : BitVec 32), let a := v.toNat / 65536 % 4
      let b := v.toNat / 16777216 % 4
      let c := v.toNat % 32
      let d := v.toNat / 256 % 32
      mayWrite s (.pf0 p) 3 = true →
      (a ≤ b ∧ b ≤ 2 ∧ c ≤ d ∧ d ≤ 16 → exec (.hbMarginEnv (.pf0 p) true v) s =
        .next (reclip { s with hb := { s.hb with derateHi := b, derateLo := a, reserveHi := d, reserveLo := c } } true)) ∧
      (¬ (a ≤ b ∧ b ≤ 2 ∧ c ≤ d ∧ d ≤ 16) → exec (.hbMarginEnv (.pf0 p) true v) s = .next s)) ∧
    (∀ (s : State) (e : Bool), (clipMargin s s.hb.margin = s.hb.margin → reclip s e = s) ∧
      (reclip s e).hb.margin = clipMargin s s.hb.margin ∧
      (clipMargin s s.hb.margin ≠ s.hb.margin → (reclip s e).store.margin = clipMargin s s.hb.margin)) ∧
    (∀ (s : State) (m : Margin), (putMargin s m).hb.margin = m ∧ (putMargin s m).store.margin = m ∧
      (tblWf {} s.tgs = true → ∀ g, g < 64 → (getTg (putMargin s m) g).derate = m.derate)) ∧
    (∀ (s : State) (fs fu : List (BitVec 32)) (ts tu : BitVec 32), let peaks := (s.hb.cePeaks ++ [((upTo 8).map (fun n => (getSc s n).ceRate)).foldl max 0]).drop (s.hb.cePeaks.length + 1 - 168)
      mainPower s = true → fs.length = 64 → fu.length = 64 → 0 ∉ fu → ts ≠ 0 → tu ≠ 0 → exec (.ageingUpdate fs fu ts tu) s = .next { s with hb := { s.hb with
        dRo := ((fs.zip fu).map (fun x => 10000 * (ts.toNat * x.2.toNat - x.1.toNat * tu.toNat) / (ts.toNat * x.2.toNat))).foldl max 0
        cePeaks := peaks, cePeak := peaks.foldl max 0, hours := s.hb.hours + 1, poweredHours := s.hb.poweredHours + 1
        retirements := s.hb.retirements.filter (fun t => decide (s.hb.poweredHours + 1 < t + 168)) } }) ∧
    (∀ s : State, planMargin s = {
      guard := s.manifest.guardMin + 10 * (s.hb.dRo / 50) + (if 16 ≤ s.hb.cePeak then 10 else 0)
      dtcal := if s.hb.canaryDrift < 5 then 30 else if s.hb.canaryDrift < 15 then 20 else 10
      interval := if s.hb.canaryDrift < 5 then 600 else if s.hb.canaryDrift < 15 then 300 else 120
      derate := if s.hb.trimDrift < 8 then 0 else if s.hb.trimDrift < 24 then 1 else 2
      tol := if s.hb.pvMean < 16 * 32 then 15 else if s.hb.pvMean < 16 * 48 then 12 else 10
      reserve := min 16 (2 + (s.hb.retirements.length + 15) / 16) }) ∧
    (∀ (s : State) (cause : Nat), (replan s cause).hb.margin = clipMargin s (planMargin s) ∧
      (replan s cause).store.margin = clipMargin s (planMargin s) ∧ (replan s cause).hb.hours = 0) ∧
    (∀ s : State, s.hb.state ≠ 0 → level s < 3 →
      (s.hb.replanPending = true → exec .marginReplan s = .next (replan s 2)) ∧
      (s.hb.replanPending = false → 168 ≤ s.hb.hours → exec .marginReplan s = .next (replan s 1))) ∧
    (∀ (s : State) (p : Bool) (v : BitVec 32), mayWrite s (.pf0 p) 3 = true → takesWork s 3 = true → v.getLsbD 31 = true →
      (level s < 3 → exec (.replan (.pf0 p) v) s = .next (replan s 2)) ∧
      (3 ≤ level s → exec (.replan (.pf0 p) v) s = .next { s with hb := { s.hb with replanPending := true } }))

/-- HB_ASSAY_CMD and the end of an assay; passes, results, self-calibration, table and trigger of the monitor converter. Below
CRITICAL, with the page taking work and none running, START by PF0 starts PATTERN on a free relief tile it names (held, to be
programmed), REPLAY on a bound tile, CORE on an enabled core with no plan set; a bad target is code 5, a tile not free 3, CRITICAL
7, one running 2. ABORT ends the assay with 6 and a REPLAY without input for 10 s with 4; a CORE assay fails if a kernel was wrong,
a tile assay by its verdicts (one beyond 4B or above 1 % beyond B); the record (64 kept) and event 0x05 or 0x06 follow. A trigger
starts a pass or is counted; an entry's mean goes to its result with COUNT; the pass ends at the last entry. SELFCAL stops it until
complete; MC_SEQ_TABLE and MC_TRIGGER are stored when valid, else discarded. (R562, R563, R564, R565, R566, R567, R568, R584, R585,
R587, R588, R589) -/
def Obligations.AssaysAndMonitorConverter : Prop :=
  (∀ (s : State) (p : Bool) (v : BitVec 32), let kind := bits v.toNat 28 2
      let unit := bits v.toNat 20 8
      let tile := bits v.toNat 9 11
      let a : Assay := { kind := kind, unit := unit, tile := tile, retire := v.getLsbD 8, startedAt := s.clock }
      mayWrite s (.pf0 p) 3 = true → takesWork s 3 = true → v.getLsbD 31 = true → v.getLsbD 30 = false → s.hb.state ≠ 0 →
      (s.hb.assay = none → 
        (kind = 0 → level s < 3 → unit < 64 → tgEnabled s unit = true → 1024 ≤ tile → tile < 1088 →
          (getRelief s unit (tile - 1024)).state = 0 → ∃ t, exec (.assayPattern (.pf0 p) v) s = .next t ∧
            t.hb.assay = some { a with heldTile := some (unit * 1088 + tile) } ∧ t.hb.assayState = 1 ∧
            t.jobs = s.jobs ++ [{ kind := 6, group := unit, logical := 0xFFFF, tile := unit * 1088 + tile }] ∧
            (tblWf {} s.tgs = true → tblWf {} (getTg s unit).relief = true → (getRelief t unit (tile - 1024)).state = 3)) ∧
        (kind = 0 → level s < 3 → 64 ≤ unit → exec (.assayPattern (.pf0 p) v) s = .next (assayRefuse s 5)) ∧
        (kind = 0 → level s < 3 → unit < 64 → tgEnabled s unit = true → 1024 ≤ tile → tile < 1088 →
          (getRelief s unit (tile - 1024)).state ≠ 0 → exec (.assayPattern (.pf0 p) v) s = .next (assayRefuse s 3)) ∧
        (∀ b, kind = 1 → level s < 3 → unit < 64 → tile < 1024 → tgEnabled s unit = true → getBinding s unit tile = some b →
          b.bound = true → exec (.assayReplay (.pf0 p) v) s = .next (assayStart s a)) ∧
        (kind = 2 → level s < 3 → planAdmitted s = false → ccEnabled s unit = true →
          exec (.assayCore (.pf0 p) v) s = .next (assayStart s a)) ∧
        (kind = 2 → 3 ≤ level s → exec (.assayCore (.pf0 p) v) s = .next (assayRefuse s 7))) ∧
      (s.hb.assay ≠ none → kind = 2 → exec (.assayCore (.pf0 p) v) s = .next { s with hb := { s.hb with assayCode := 2 } })) ∧
    (∀ (s : State) (a : Assay), assayStart s a = { s with hb := { s.hb with
        assayState := 1, assayCode := 0, assayExceed := 0, assayChecked := 0, assay := some a } }) ∧
    (∀ (s : State) (c : Nat), assayRefuse s c = { s with hb := { s.hb with
        assayState := 2, assayCode := c, assayExceed := 0, assayChecked := 0 } }) ∧
    (∀ (s : State) (a : Assay), s.hb.assay = some a →
      (∀ (p : Bool) (v : BitVec 32), mayWrite s (.pf0 p) 3 = true → v.getLsbD 31 = false → v.getLsbD 30 = true →
        a.heldTile = none → exec (.hbAbort (.pf0 p) v) s = .next { s with hb := { s.hb with
          assayState := 2, assayCode := 6, assayExceed := 0, assayChecked := 0, assay := none } }) ∧
      (a.heldTile = none → a.kind = 1 → a.shotSeen = 0 → a.startedAt + 10 * 1600000000 ≤ s.clock →
        exec .assayNoInput s = .next { s with hb := { s.hb with
          assayState := 2, assayCode := 4, assayExceed := 0, assayChecked := 0, assay := none } }) ∧
      (∀ (scalar memory vector matrix : List Bool), let ks := scalar ++ memory ++ vector ++ matrix
        a.kind = 2 → a.heldTile = none →
        ∃ u, exec (.assayComplete scalar memory vector matrix) s = .next (raiseEvent u 3 (if false ∈ ks then 0x06 else 0x05) (info ([(1, 2), (1, a.unit)
          , (2, a.tile), (4, assayStatus u)] ++ if false ∈ ks then [(1, if a.retire then 1 else 0)] else []))) ∧ u.hb = { s.hb with
            assayState := 2, assayCode := if false ∈ ks then 1 else 0, assayExceed := 0, assayChecked := min 65535 ks.length, assay := none } ∧
          u.store.assays = (s.store.assays ++ [(s.power.rtb.toNat, assayStatus u)]).drop (s.store.assays.length + 1 - 64)) ∧
      (∀ (scalar memory vector matrix : List Bool) (shots : Nat) (vs : List Nat), a.kind ≠ 2 → tileVerdicts s a = some (vs, shots) → a.retire = false →
        let compared := (vs.filter (fun v => v != 0)).length
        let beyond := (vs.filter (fun v => decide (2 ≤ v))).length
        let fail := 3 ∈ vs ∨ compared < 100 * beyond
        ∃ u, exec (.assayComplete scalar memory vector matrix) s = .next (raiseEvent u 3 (if fail then 0x06 else 0x05) (info ([(1, a.kind), (1, a.unit)
          , (2, a.tile), (4, assayStatus u)] ++ if fail then [(1, 0)] else []))) ∧ u.hb = { s.hb with
            assayState := 2, assayCode := if fail then 1 else 0
            assayExceed := min 255 (if compared = 0 then 0 else 1000 * beyond / compared)
            assayChecked := min 65535 shots, assay := none } ∧
          u.store.assays = (s.store.assays ++ [(s.power.rtb.toNat, assayStatus u)]).drop (s.store.assays.length + 1 - 64))) ∧
    (∀ s : State, assayStatus s = s.hb.assayState % 16 * 268435456 + s.hb.assayCode % 16 * 16777216 + s.hb.assayExceed % 256 * 65536 +
      s.hb.assayChecked % 65536) ∧
    (∀ s : State, s.mc.state ≠ 0 → s.mc.en = true → s.mc.calBusy = false →
      (s.mc.running = false → takesWork s 4 = true → exec .mcPassStart s = .next { s with mc := { s.mc with
        running := true, entry := 0, seqLive := s.mc.seq, triggerLive := s.mc.trigger } }) ∧
      (let u := { s with mc := { s.mc with
          overrun := s.mc.overrun.bump (sclk s) 255 1, ignored := s.mc.ignored + 1, overrunSec := some (s.power.rtb.toNat / 100000000) } }
       s.mc.running = true → exec .mcPassStart s = .next (if s.mc.overrunSec = some (s.power.rtb.toNat / 100000000) then u
        else raiseEvent u 4 0x05 (info [(4, s.mc.ignored + 1)])))) ∧
    (∀ (s : State) (code : Int), let e := mcEntry s s.mc.entry
      s.mc.running = true → bits e 16 8 = 0 → mcDifferential (bits e 24 6) = false → 0 ≤ code → code ≤ 4095 → s.mc.left = false →
      tblWf {} s.mc.results = true → s.mc.entry < 31 →
      ∃ t, exec (.mcEntryDone [code]) s = .next t ∧
        mcResult t s.mc.entry = 
          { valid := true, fresh := true, count := ((mcResult s s.mc.entry).count + 1) % 16384
            cycle := sclk s, before := (mcResult s s.mc.entry).shown (sclk s), value := BitVec.ofInt 16 code } ∧
        (∀ n, n ≠ s.mc.entry → mcResult t n = mcResult s n) ∧
        (bit e 31 = false → t.mc.running = true ∧ t.mc.entry = s.mc.entry + 1) ∧
        (bit e 31 = true → bits s.mc.trigger.toNat 30 2 ≠ 0 → t.mc.running = false) ∧
        (bit e 31 = true → bits s.mc.trigger.toNat 30 2 = 0 → takesWork s 4 = true → t.mc.running = true ∧ t.mc.entry = 0)) ∧
    (∀ (s : State) (p : Bool) (v : BitVec 32), mayWrite s (.pf0 p) 4 = true → takesWork s 4 = true → v.getLsbD 30 = true → v.getLsbD 31 = true → s.mc.en = true →
      exec (.mcSelfcal (.pf0 p) v) s = .next { s with mc := { s.mc with
        lowPower := v.getLsbD 29, left := v.getLsbD 28, calBusy := true, running := false, entry := 0 } }) ∧
    (∀ (s : State) (o g : BitVec 16), s.mc.calBusy = true →
      let u := raiseEvent { s with mc := { s.mc with calBusy := false } } 4 0x04 (info [(2, o.toNat), (2, g.toNat)])
      exec (.mcSelfcalComplete o g) s = .next (if s.mc.en = true then startPass u else u)) ∧
    (∀ (s : State) (p : Bool) (n : BitVec 5) (v : BitVec 32), mayWrite s (.pf0 p) 4 = true →
      (bits v.toNat 24 6 ≤ 39 → exec (.mcSeqTable (.pf0 p) n v) s =
        .next { s with mc := { s.mc with seq := tblSet 0 s.mc.seq n.toNat (v &&& 0xBFFFFFFF) } }) ∧
      (39 < bits v.toNat 24 6 → exec (.mcSeqTable (.pf0 p) n v) s = .next s)) ∧
    (∀ (s : State) (p : Bool) (v : BitVec 32), mayWrite s (.pf0 p) 4 = true →
      (bits v.toNat 17 10 ≤ 1000 → bits v.toNat 30 2 ≠ 3 → (bits v.toNat 30 2 = 1 → bits v.toNat 0 16 ≠ 0) →
        exec (.mcTrigger (.pf0 p) v) s = .next { s with mc := { s.mc with trigger := v &&& 0xFFFEFFFF } }) ∧
      (1000 < bits v.toNat 17 10 ∨ bits v.toNat 30 2 = 3 ∨ (bits v.toNat 30 2 = 1 ∧ bits v.toNat 0 16 = 0) → exec (.mcTrigger (.pf0 p) v) s = .next s))

/-- Sensor and power samples, levels, trip and brown-out, DP_THROTTLE_POINT, DP_TRIP_ACK, DP_RESTART and DEV_RESET. A sample is stored;
the source rises to the level whose threshold of R544 its hottest reading reaches, with event 0x04 if the device level changes, and
at TRIP trips: THERM_TRIP#, crosscut closing, a record, main power off, event 0x05. A level falls by one after 100 ms below the
hysteresis. Below 37.5 V with PWR_EN a brown-out writes a record of kind 2, removes main power and raises 0x06. The throttle point
is stored within the manifest's limits, else discarded. The displayed record's SEQ acknowledges it with event 0x08, any other write
is discarded. CONFIRM and MODULE reset the module; SOFT resets the device where R630 accepts it, else raises 0x05. (R541, R543,
R544, R545, R548, R549, R550, R572, R574, R575, R630, R637) -/
def Obligations.DeputyLevelsTripsAndResets : Prop :=
  (∀ (s : State) (k : BitVec 9) (r : Int), k.toNat < 408 → s.pins.aux = true → let u := keepHottest (takeReading s k.toNat r) k.toNat r
      exec (.tempSample k r) s =
        .next (judgeGroup (judgeSource u (sensorSource k.toNat) k.toNat (hottestOf u (sensorSource k.toNat))) k.toNat)) ∧
    (∀ (s : State) (k : Nat) (r : Int), let x : Sensor :=
        { temp := r, valid := true, failed := (getSensor s k).failed, period := samplePeriod s 2 r, deviant := 0 }
      400 ≤ k → takeReading s k r = { s with hb := { s.hb with sensors := tblSet {} s.hb.sensors k x } }) ∧
    (∀ s : State, tempThreshold s 1 1 = 16 * s.dp.throttle ∧ tempThreshold s 1 2 = 16 * min (s.dp.throttle + 10) 103 ∧
      tempThreshold s 1 3 = 16 * 106 ∧ tempThreshold s 1 4 = 16 * 110 ∧ tempThreshold s 2 1 = 16 * 95 ∧ tempThreshold s 2 2 = 16 * 99 ∧
      tempThreshold s 2 3 = 16 * 102 ∧ tempThreshold s 2 4 = 16 * 105 ∧ tempThreshold s 3 1 = 16 * 80 ∧ tempThreshold s 3 2 = 16 * 85 ∧
      tempThreshold s 3 3 = 16 * 90 ∧ tempThreshold s 3 4 = 16 * 95) ∧
    (∀ (s : State) (src k : Nat) (hot : Int), mainPower s = true → srcLevel s src < tempLevel s src hot → srcLevel s src ≠ 4 →
      judgeSource s src k hot = (if tempLevel s src hot = 4 then trip (setLevel s src 4 hot) src (hottestSensor s src k hot) hot
        else setLevel s src (tempLevel s src hot) hot)) ∧
    (∀ (s : State) (src lv : Nat) (r : Int), 1 ≤ src → src ≤ 4 → let t := setLevel s src lv r
      srcLevel t src = lv ∧ (∀ x, 1 ≤ x → x ≤ 4 → x ≠ src → srcLevel t x = srcLevel s x) ∧ t.power.state = s.power.state) ∧
    (∀ (s : State) (vin v1 i i10 i100 i1 p : Nat), mainPower s = true → 3990 ≤ vin → vin ≤ 4410 → 3990 ≤ s.dp.vin → s.dp.vin ≤ 4410 →
      let u := keepRecent (keepRecent { s with
        dp := { s.dp with vin := vin, vinMean1ms := v1, iin := i, iin10us := i10, iin100ms := i100, iin1s := i1, pin1s := p }
        pins := { s.pins with vinPresent := true } } 3 vin) 4 i
      let lv := if 5500 < i10 then 4 else if v1 < 3900 ∨ 4000 < i100 then 3 else if vin < 3990 ∨ 3800 < i1 then 2
        else if s.manifest.powerLimit < p then 1 else 0
      (s.dp.lPower = 0 → lv = 0 → exec (.powerSample vin v1 i i10 i100 i1 p) s = .next u) ∧
      (s.dp.lPower < lv → lv < 4 → exec (.powerSample vin v1 i i10 i100 i1 p) s = .next (setLevel u 4 lv (powerReading u lv))) ∧
      (s.dp.lPower < lv → lv = 4 → exec (.powerSample vin v1 i i10 i100 i1 p) s =
        .next (trip (setLevel u 4 4 i10) 5 0xFFFF i10))) ∧
    (∀ (s : State) (src : BitVec 3) (t : Nat), src ≠ 0 → src.toNat ≤ 4 → mainPower s = true → belowSince s src.toNat = some t →
      srcLevel s src.toNat ≠ 0 → srcLevel s src.toNat ≠ 4 → t + 100 * 1600000 ≤ s.clock →
      ∃ r, exec (.levelFall src) s = .next (setLevel s src.toNat (srcLevel s src.toNat - 1) r)) ∧
    (∀ (s : State) (src k : Nat) (v : Int), mainPower s = true → s.pins.aux = true → let t := trip s src k v
      t.pins.thermTrip = true ∧ t.power.state = .aux ∧ t.power.railsByTrip = true ∧ t.pins.powerGood = false ∧
      (s.ri.crosscutMoving = none → s.ri.crosscut = false → t.ri.crosscutMoving = some (true, s.clock)) ∧
      t.store.nextSeq = (s.store.nextSeq + 1) % 65536 ∧ ∃ r, r ∈ t.store.trips ∧ r.time = s.power.rtb ∧ r.seq = s.store.nextSeq ∧
        r.kind = 1 ∧ r.source = src ∧ r.sensor = k ∧ r.value = v ∧ r.acked = false) ∧
    (∀ (s : State) (vin : Nat), s.pins.pwrEn = true → s.pins.aux = true → vin < 3750 → mainPower s = true →
      ∃ t, exec (.brownOut vin) s = .next t ∧ t.power.state = .aux ∧ t.power.nextCause = 4 ∧ t.power.railsByTrip = false ∧
        t.pins.thermTrip = s.pins.thermTrip ∧ ∃ r, r ∈ t.store.trips ∧ r.kind = 2 ∧ r.source = 4 ∧ r.sensor = 0xFFFF ∧ r.value = vin ∧
          r.seq = s.store.nextSeq) ∧
    (∀ (s : State) (a : Accessor) (v : BitVec 32), mayWrite s a 2 = true → exec (.dpThrottlePoint a v) s = .next (
      if s.manifest.throttleMin ≤ v.toNat % 256 ∧ v.toNat % 256 ≤ s.manifest.throttleMax ∧ v.toNat / 65536 % 128 ≤ 60
      then { s with dp := { s.dp with throttle := v.toNat % 256, stretchMax := v.toNat / 65536 % 128 } } else s)) ∧
    (∀ (s : State) (a : Accessor) (v : BitVec 32), mayWrite s a 2 = true →
      (shownTrip s = none → exec (.dpTripAck a v) s = .next s) ∧
      (∀ r, shownTrip s = some r → v.toNat % 65536 ≠ r.seq → exec (.dpTripAck a v) s = .next s) ∧
      (∀ r, shownTrip s = some r → v.toNat % 65536 = r.seq → s.power.state ≠ .configured → exec (.dpTripAck a v) s = .next (raiseEvent
        { s with store := { s.store with
            trips := s.store.trips.map (fun t => if t.kind = 1 ∧ t.seq = r.seq then { t with acked := true } else t) } } 2 0x08
          (info [(2, r.seq), (1, requesterOf a)])))) ∧
    (∀ s : State, s.power.state.code < 4 → shownTrip s = none) ∧
    (∀ s : State, 4 ≤ s.power.state.code → shownTrip s = s.store.trips.find? (fun t => t.kind == 1 && !t.acked)) ∧
    (∀ (s : State) (a : Accessor) (v : BitVec 32), mayWrite s a 2 = true → exec (.dpRestart a v) s = .next (
      if v.toNat / 65536 = 0xA5C3 ∧ v.getLsbD 0 = true ∧ s.pins.pwrEn = true ∧ s.pins.aux = true
      then moduleReset s (requesterOf a) else s)) ∧
    (∀ (s : State) (a : Accessor) (v : BitVec 32), mayWrite s a 0 = true → v.toNat / 65536 = 0xA5C3 → s.power.softReset = false →
      (v.getLsbD 1 = true → exec (.devModule a v) s = .next (moduleReset s (requesterOf a))) ∧
      (v.getLsbD 1 = false → v.getLsbD 0 = true → softAllowed s = true → exec (.devSoft a v) s = .next (softReset s (requesterOf a))) ∧
      (v.getLsbD 1 = false → v.getLsbD 0 = true → softAllowed s = false → exec (.devSoft a v) s = .next (raiseEvent s 0 0x05
        (info [(1, s.power.cause), (1, 0xFF), (1, if s.power.tripBefore then 1 else 0)])))) ∧
    (∀ (s : State) (a : Accessor) (v : BitVec 32), v.toNat / 65536 ≠ 0xA5C3 → exec (.devModule a v) s = .next s ∧
      exec (.devSoft a v) s = .next s) ∧
    (∀ (s : State) (who : Nat), let t := moduleReset s who
      t.power.moduleResetAt = some s.clock ∧ t.power.nextCause = 2 ∧ t.power.nextRequester = who ∧ t.pins.thermTrip = false ∧
      t.store = s.store ∧ (s.pins.aux = true → mainPower s = true → t.power.state = .aux ∧ t.owners = [] ∧ t.streams = [])) ∧
    (∀ (s : State) (who : Nat), let t := softReset s who
      t.power.state = .mainOn ∧ t.power.softReset = true ∧ t.power.nextCause = 3 ∧ t.power.nextRequester = who ∧ t.owners = [] ∧
      t.streams = [] ∧ t.cores = [] ∧ t.hpA.fetched = [] ∧ t.hpB.fetched = [] ∧ t.mem = [] ∧ t.store.seals = s.store.seals)

/-- Link bring-up and loss, acknowledgement and credits, CREDIT flits and their packets, windows and tags. In phase 1 a port takes its
good fibres, four or, with event 0x0B, three, by the envelope the phase began with, too few being RESULT 1; once every port has its
lanes, phase 2 begins, in which a good peer gives a fresh key (one for both directions) and the port comes up, and a failed
authentication is event 0x08 and RESULT 2. On a closed crosscut light is sensed as it comes and goes. Lost light, lost FEC lock,
silence or wander takes a link down with event 0x04 and its cause: the port's state is gone but for the count of its second, FAULT
reported under a plan set, bring-up anew. An ACK frees the replay buffer, credits return to at most 512; a NAK of a flit resent 16
times takes the link down. A CREDIT flit in order is acknowledged, forwarded or joined into its packet; a malformed one freezes its
source. A window closes with its tag flit; a failed tag is event 0x08 and cause 5. (R403, R408, R410, R411, R412, R413, R414, R415,
R424, R425, R429, R444) -/
def Obligations.RingLinksAndFlits : Prop :=
  (∀ (s : State) (p : BitVec 2) (serial : BitVec 64), s.ri.crosscut = false → s.ri.crosscutMoving = none → 3 ≤ s.power.state.code →
      s.ri.phase = 1 → (getLink s p.toNat).up = false → (getLink s p.toNat).trained = false →
      let go := fun t : State => if (upTo 4).all (fun q => (getLink t q).up || (getLink t q).trained) = true
        then { t with ri := { t.ri with phase := 2, phaseAt := s.clock } } else t
      let lit := fun n : Nat => modLink { s with ri := { s.ri with peerLight := true, statusCleared := false } } p.toNat
        (fun l => { l with trained := true, width := n })
      (∀ a : BitVec 2, s.ri.envelope.1 ≤ 4 → s.ri.envelope.2 = 4 →
        exec (.linkBringup p 0xFFFFFFFF 0xF a serial false) s = .next (go (lit 4))) ∧
      (∀ a : BitVec 2, s.ri.envelope.1 ≤ 3 → 3 ≤ s.ri.envelope.2 → exec (.linkBringup p 0x00FFFFFF 0x7 a serial false) s =
        .next (go (raiseEvent (lit 3) 7 0x0B (info [(1, p.toNat), (1, 24), (4, 0xFF000000)])))) ∧
      (∀ a : BitVec 2, 1 ≤ s.ri.envelope.1 → exec (.linkBringup p 0 0 a serial false) s =
        .next (trainFail { s with ri := { s.ri with peerLight := true } } 1))) ∧
    (∀ (s : State) (p : BitVec 2) (lanes : BitVec 32) (kept : BitVec 4) (serial : BitVec 64), s.ri.crosscut = false →
      s.ri.crosscutMoving = none → 3 ≤ s.power.state.code → s.ri.phase = 2 → (getLink s p.toNat).up = false →
      (getLink s p.toNat).trained = true → s.store.idOk = true → s.ke.state ≠ 3 →
      let other := getLink s (oppositePort p.toNat)
      (∀ t, t = modLink { s with
          ri := { s.ri with statusCleared := false }
          ke := { s.ke with nextKey := s.ke.nextKey + 1, drbgCount := s.ke.drbgCount + 1 } } p.toNat
            (fun l => { l with
              up := true, trained := false, bornAt := s.ri.phaseAt + 1
              key := if other.up = true ∧ other.bornAt = s.ri.phaseAt + 1 then other.key else s.ke.nextKey }) →
        (portsUp t = false → exec (.linkBringup p lanes kept 0 serial false) s = .next t) ∧
        (portsUp t = true → 7 ≤ s.power.state.code → exec (.linkBringup p lanes kept 0 serial false) s = .next (startElect t))) ∧
      (∀ a : BitVec 2, a ≠ 0 → exec (.linkBringup p lanes kept a serial false) s =
        .next (trainFail (raiseEvent s 7 0x08 (info [(1, p.toNat), (1, a.toNat), (8, serial.toNat)])) 2))) ∧
    (∀ (s : State) (p : BitVec 2), (getLink s p.toNat).up = true →
      (s.ri.crosscut = false → exec (.linkLightLoss p false) s = .next (linkDown s p.toNat 1)) ∧ exec (.linkLightLoss p true) s = .next (linkDown s p.toNat 2) ∧
      exec (.linkSilence p) s = .next (linkDown s p.toNat 3) ∧ exec (.retimeWander p) s = .next (linkDown s p.toNat 4)) ∧
    (∀ (s : State) (p : BitVec 2), s.ri.crosscut = true →
      exec (.linkLightLoss p false) s = .next { s with ri := { s.ri with light := false } } ∧
      (mainPower s = true → ∀ a n cls nak, exec (.idleFlit p a nak n cls) s = .next { s with ri := { s.ri with light := true } })) ∧
    (∀ (s : State) (p c : Nat), tblWf {} s.ri.ports = true → p < 4 → let t := linkDown s p c
      getLink t p = { resent1s := (getLink s p).resent1s, resentSec := (getLink s p).resentSec } ∧
      (∀ q, q ≠ p → (getLink s q).up = true → (getLink t q).up = true ∧ (getLink t q).width = (getLink s q).width ∧
        (getLink t q).key = (getLink s q).key ∧ (getLink t q).rxSeq = (getLink s q).rxSeq) ∧ t.sq.faulted = (s.sq.faulted || planAdmitted s) ∧
      (s.ri.crosscut = false → s.ri.crosscutMoving = none → 3 ≤ s.power.state.code → t.ri.phase = 1 ∧ t.ri.state = 2)) ∧
    (∀ (s : State) (p : BitVec 2) (a : BitVec 12) (n : BitVec 10) (cls : Bool), p = 0 ∨ p = 2 → tblWf {} s.ri.ports = true →
      (getLink s p.toNat).up = true → (getLink s (3 - p.toNat)).up = true → s.ri.crosscut = false →
      let l := getLink s (3 - p.toNat)
      let c := if cls then 1 else 0
      let rest := if l.replay.any (fun e => e.1 == a.toNat) then (l.replay.dropWhile (fun e => e.1 != a.toNat)).drop 1 else l.replay
      let u := modLink s (3 - p.toNat) (fun l => { l.withCredits c (min 512 (l.credits c + n.toNat)) with replay := rest })
      (l.queue = [] → exec (.idleFlit p a false n cls) s = .next u) ∧
      ((∃ e ∈ rest, 16 ≤ e.2.1) → exec (.idleFlit p a true n cls) s = .next (linkDown u (3 - p.toNat) 3))) ∧
    (∀ (s : State) (p : BitVec 2) (cls : Bool) (seq : BitVec 12) (d : BitVec 6) (f l : Bool) (b : List (BitVec 8)), p = 0 ∨ p = 2 →
      (getLink s p.toNat).up = true → let c := if cls then 1 else 0
      let u := modLink s p.toNat (fun l => { l with rxSeq := seq.toNat })
      exec (.creditFlit p cls seq d f l b false) s = .next (sendReturn s p.toNat 1 0 c) ∧
      (seq.toNat ≠ ((getLink s p.toNat).rxSeq + 1) % 4096 → exec (.creditFlit p cls seq d f l b true) s = .next s) ∧
      (seq.toNat = ((getLink s p.toNat).rxSeq + 1) % 4096 → s.ri.valid = true → d.toNat = s.ri.position →
        exec (.creditFlit p cls seq d f l b true) s = .next (sendReturn (consumeFlit u p.toNat c f l b) p.toNat 0 1 c)) ∧
      (seq.toNat = ((getLink s p.toNat).rxSeq + 1) % 4096 → s.ri.valid = true → p = 0 → s.ri.position < d.toNat →
        (getLink s 1).up = true → tblWf {} s.ri.ports = true →
        exec (.creditFlit p cls seq d f l b true) s = .next (queueCredit (sendReturn u 0 0 0 c) 1
          { cls := c, dst := d.toNat, first := f, last := l, body := b, came := some 0 }))) ∧
    (∀ (s : State) (p c : Nat) (b : List (BitVec 8)), (getLink s p).assembly c = none →
      consumeFlit s p c true true b = packetArrived (setAssembly s p c none) (padTo 246 b) 1 ∧
      consumeFlit s p c true false b = setAssembly s p c (some (padTo 246 b)) ∧ consumeFlit s p c false true b = s) ∧
    (∀ (s : State) (b : List (BitVec 8)), let n := leAt b 6 2
      let flits := (32 + (if byteAt b 0 = 2 then 0 else n) + 245) / 246
      isFrozen s 4 (leAt b 2 2) = false → 1 ≤ byteAt b 0 → byteAt b 0 ≤ 5 → n ≤ 4096 → packetArrived s b flits =
        { s with ri := { s.ri with packets := s.ri.packets ++ [b.take (32 + (if byteAt b 0 = 2 then 0 else n))] } }) ∧
    (∀ (s : State) (b : List (BitVec 8)) (n : Nat), (isFrozen s 4 (leAt b 2 2) = true → packetArrived s b n = s) ∧
      (isFrozen s 4 (leAt b 2 2) = false → byteAt b 0 = 0 ∨ 5 < byteAt b 0 ∨ 4096 < leAt b 6 2 →
        packetArrived s b n = freeze s 7 4 (leAt b 2 2) 0x080A (leAt b 8 8))) ∧
    (∀ (s : State) (p : BitVec 2), let l := getLink s p.toNat
      l.up = true → l.tagReady = [] → l.windowFlits ≠ 0 → nextCredit l = none → exec (.tagWindowClose p) s =
        .next (sendControl (modLink s p.toNat (fun l => { closeWindow p.toNat l with tagReady := [] })) p.toNat
          (tagFields l.window (windowTag l p.toNat)) true)) ∧
    (∀ (p : Nat) (l : Link), (closeWindow p l).windowFlits = 0 ∧ (closeWindow p l).windowData = [] ∧
      (closeWindow p l).window = l.window + 1) ∧
    (∀ (s : State) (p : BitVec 2) (w : BitVec 64), exec (.tagFlit p w true true) s = .next s ∧
      ((getLink s p.toNat).up = true → exec (.tagFlit p w false true) s =
        .next (linkDown (raiseEvent s 7 0x08 (info [(1, p.toNat), (1, 3)])) p.toNat 5)))

/-- Claims, probes and the set of RTB, timeouts and retries, the membership, the crosscut, RI_TRAIN, RI_LINK_RATE, RING_JOIN. In phase
3 another device's claim goes on one hop further and counts if lower; a trained device that meets one elects anew; its own ends the
phase: with a candidate it is elected, without one training fails with 3. A probe is echoed; the echo gives the hop's delay; the
set flit sets RTB, never back, and ends phase 5. A phase over its limit fails training with its number, and after 1 s it is
repeated. A membership change ends the plan set and, unless the handoff is pending, the staged image; the report publishes count,
position, headframe and generation (counted by the headframe, with the cause of the change) with event 0x05, its own row as the
device knows it, empty rounds begin, and a device in training becomes READY. The crosscut closes on loss of power, and settles
closed or open. JOIN, LEAVE, RETRAIN, LANES limits and RING_JOIN act as R442, R443 and R503 state. (R400, R405, R406, R426, R427,
R428, R430, R431, R432, R442, R443, R503) -/
def Obligations.RingTrainingMembershipAndCrosscut : Prop :=
  (∀ (s : State) (h c : Bool) (serial mx : BitVec 64) (n : BitVec 8), s.ri.phase = 3 →
      (serial ≠ s.store.serial → exec (.claimFlit h c serial mx n true) s = .next (sendControl { s with ri := { s.ri with
          best := match s.ri.best with
            | some (b, k) => if c = true ∧ serial.toNat < b.toNat then some (serial, n.toNat + 1) else some (b, k)
            | none => if c = true then some (serial, n.toNat + 1) else none
          maxRtb := if s.ri.maxRtb.toNat < mx.toNat then mx else s.ri.maxRtb } } 1
        (claimFields h c serial.toNat mx.toNat (n.toNat + 1)))) ∧
      (serial = s.store.serial → s.ri.best = none → exec (.claimFlit h c serial mx n true) s = .next (trainFail s 3)) ∧
      (∀ b k, serial = s.store.serial → s.ri.best = some (b, k) → s.power.pllHold = none → s.power.pllPending = false →
        let u := { s with ri := { s.ri with elected := some (k, n.toNat + 1), phase := 4, phaseAt := s.clock } }
        pllSelect u = s.power.pllRef → exec (.claimFlit h c serial mx n true) s = .next (startMeasure u))) ∧
    (∀ (s : State) (h c : Bool) (serial mx : BitVec 64) (n : BitVec 8), s.ri.phase = 0 → s.ri.valid = true → s.ri.crosscut = false →
      7 ≤ s.power.state.code → portsUp s = true → serial ≠ s.store.serial →
      exec (.claimFlit h c serial mx n true) s = exec (.claimFlit h c serial mx n true) (startElect s)) ∧
    (∀ (s : State) (count stamp : BitVec 64) (d : BitVec 16),
      ((getLink s 0).up = true → exec (.timeFlit 0 1 count stamp d true) s = .next (sendControl s 3 (timeFields 2 count.toNat stamp.toNat))) ∧
      (∀ p n, (getLink s 2).up = true → s.ri.phase = 5 → s.ri.probeSent = some stamp → s.ri.elected = some (p + 1, n) →
        exec (.timeFlit 2 2 count stamp d true) s = .next { s with ri := { s.ri with
          probeSent := none, measured := some ((s.clock / 2 - stamp.toNat + 1) / 2 + Config.fixedPath) } }) ∧
      (∀ p, (getLink s 0).up = true → s.ri.phase = 5 → s.ri.elected = some (p + 1, p + 2) →
        ∃ t, exec (.timeFlit 0 0 count stamp d true) s = .next t ∧ t.ri.phase = 6 ∧
          t.power.rtb = (if (16 * count.toNat + 2 * d.toNat) / 16 < s.power.rtb.toNat then s.power.rtb
            else BitVec.ofNat 64 ((16 * count.toNat + 2 * d.toNat) / 16)))) ∧
    (∀ s : State, let limit := [0, 40, 10, 1, 20, 5, 1].getD s.ri.phase 0
      2 ≤ s.ri.phase → s.ri.phaseAt + limit * 1600000 ≤ s.clock → exec .trainingPhaseTimeout s = .next { s with ri := { s.ri with
        state := 5, phase := 0, result := s.ri.phase, retrainAt := some (s.clock + 1600000000) } }) ∧
    (∀ (s : State) (t : Nat), s.ri.retrainAt = some t → t ≤ s.clock → s.ri.state = 5 →
      (portsUp s = true → 7 ≤ s.power.state.code → exec .trainingRetry s = .next (startElect s)) ∧
      (portsUp s = false → s.ri.crosscut = false → 3 ≤ s.power.state.code → exec .trainingRetry s = .next { s with ri := { s.ri with
        state := 2, phase := 1, phaseAt := s.clock, retrainAt := none, envelope := (s.ri.lanesMin, s.ri.lanesMax)
        ports := tblMap {} (fun _ l => if l.up = true then l else { resent1s := l.resent1s, resentSec := l.resentSec }) s.ri.ports } })) ∧
    (∀ (s : State) (c : BitVec 8) (tr : Bool), s.ri.valid = true → 1 < s.ri.count → 2 ≤ c.toNat → c.toNat ≤ 5 →
      exec (.membershipChange c tr) s = .next (beginChange s c.toNat tr)) ∧
    (∀ (s : State) (k : Nat) (tr : Bool), let t := beginChange s k tr
      t.ri.changing = true ∧ t.ri.changeCause = k ∧ t.sq.retireWanted = (if planAdmitted s then 2 else s.sq.retireWanted) ∧
      (s.cx.hoState = 1 ∨ s.cx.hoState = 2 ∨ s.cx.hoState = 3 → s.cx.hoPending = false → s.sq.haltHandoff = false → t.cx.staged = none) ∧
      (s.cx.hoPending = true → t.cx.staged = s.cx.staged)) ∧
    (∀ (s : State) (report : List (BitVec 64 × BitVec 256 × List (BitVec 6) × BitVec 16)) (gen c : BitVec 8) (p : Nat),
      s.ri.elected = some (p, report.length) → s.ri.phase = 6 → report.length ≤ 64 → (report[p]?).map (·.1) = some s.store.serial →
      (∀ r ∈ report, r.2.2.2.toNat ≤ 240) → s.ri.measured.getD 0 ≤ 240 → s.ri.valid = false →
      ∃ t, exec (.membershipPublish report gen c []) s = .next t ∧ t.ri.state = 4 ∧ t.ri.valid = true ∧ t.ri.hf = (p == 0) ∧
        t.ri.count = report.length ∧ t.ri.position = p ∧ t.ri.generation = (if p ≠ 0 then gen.toNat else if s.ri.changeCause = 1 then s.ri.generation
          else (s.ri.generation + 1) % 256) ∧
        t.ri.cause = (if p = 0 then s.ri.changeCause else c.toNat) ∧ t.ri.phase = 0 ∧ t.sq.idleRounds = true ∧
        (t.ri.members[p]?).map (·.digest) = some s.store.idDigest ∧ (t.ri.members[p]?).map (·.lanes) =
          some ((upTo 4).map (fun q => 8 * (getLink s q).width)) ∧
        t.ri.members.map (·.serial) = report.map (·.1) ∧ (s.power.state = .ringTraining → t.power.state = .ready)) ∧
    (∀ s : State, s.ri.crosscut = false → s.ri.crosscutMoving = none →
      (mainPower s = false → exec .crosscutClose s = .next { s with ri := { s.ri with crosscutMoving := some (true, s.clock) } }) ∧
      (∀ (p : Bool) (v : BitVec 32), mayWrite s (.pf0 p) 7 = true → takesWork s 7 = true → v.getLsbD 30 = true → exec (.riLeave (.pf0 p) v) s =
        .next (raiseEvent { s with ri := { s.ri with crosscutMoving := some (true, s.clock) } } 7 0x06 (info [(1, 1), (1, 3)]))) ∧
      (∀ (p : Bool) (v : BitVec 32), mayWrite s (.pf0 p) 7 = true → takesWork s 7 = true → v.getLsbD 31 = false → v.getLsbD 30 = false → v.getLsbD 29 = true →
        s.ri.valid = true → s.ri.hf = true →
        (1 < s.ri.count → exec (.riRetrain (.pf0 p) v) s = .next (broadcast (beginChange s 4 false) 0x73 [])) ∧
        (s.ri.count ≤ 1 → exec (.riRetrain (.pf0 p) v) s = .next (reformSolo s 4))) ∧
      (mgmtUp s = true → mainPower s = true → exec .ringJoin s = .next (emit s (.mgmt 0x7E 0x01 [])))) ∧
    (∀ s : State, s.ri.crosscut = true → s.ri.crosscutMoving = none → mainPower s = true → takesWork s 7 = true →
      let t := raiseEvent { s with ri := { s.ri with crosscutMoving := some (false, s.clock) } } 7 0x06 (info [(1, 2), (1, 4)])
      (∀ (p : Bool) (v : BitVec 32), mayWrite s (.pf0 p) 7 = true → v.getLsbD 31 = true → exec (.riJoin (.pf0 p) v) s = .next t) ∧
      (mgmtUp s = true → exec .ringJoin s = .next (emit t (.mgmt 0x7E 0x00 [])))) ∧
    (∀ (s : State) (light : Bool) (at0 : Nat),
      (s.ri.crosscutMoving = some (true, at0) → ∃ t, exec (.crosscutSettled light) s = .next t ∧ t.ri.crosscut = true ∧
        t.ri.crosscutMoving = none ∧ t.ri.ports = [] ∧ t.ri.valid = false ∧ t.ri.count = 0 ∧ t.ri.members = [] ∧ t.ri.phase = 0 ∧
        t.ri.light = (light && mainPower s) ∧
        t.ri.generation = (if s.ri.valid = true then (s.ri.generation + 1) % 256 else s.ri.generation) ∧ (s.ri.valid = true → planAdmitted s = true → t.sq.retireWanted = 2)) ∧
      (s.ri.crosscutMoving = some (false, at0) → 3 ≤ s.power.state.code → exec (.crosscutSettled light) s = .next { s with
        ri := { s.ri with
          crosscut := false, crosscutMoving := none, light := false, state := 2, phase := 1, phaseAt := s.clock, retrainAt := none
          changeCause := if s.power.state = .ready then 2 else s.ri.changeCause, envelope := (s.ri.lanesMin, s.ri.lanesMax)
          ports := tblMap {} (fun _ l => if l.up = true then l else { resent1s := l.resent1s, resentSec := l.resentSec }) s.ri.ports } })) ∧
    (∀ (s : State) (cause : Nat), let t := reformSolo s cause
      t.ri.valid = true ∧ t.ri.hf = true ∧ t.ri.count = 1 ∧ t.ri.position = 0 ∧ t.ri.state = 6 ∧
        t.ri.generation = (s.ri.generation + 1) % 256 ∧ t.ri.cause = cause) ∧
    (∀ (s : State) (p : Bool) (v : BitVec 32), let lo := v.toNat % 16
      let hi := v.toNat / 16 % 16
      mayWrite s (.pf0 p) 7 = true → exec (.riLinkRate (.pf0 p) v) s = .next (
        if 1 ≤ lo ∧ lo ≤ hi ∧ hi ≤ 4 ∧ hi ≤ s.manifest.fibresMax then { s with ri := { s.ri with lanesMin := lo, lanesMax := hi } } else s))
end

