-- ==== Sys2Proof/Laws/InstrWord.lean ====
section
/-! SUPPORT. The fields of an instruction word read back as they were put (R224). -/

namespace Sys2Proof.Machine

/-- The number of an instruction word. -/
theorem mk_toNat (op : Nat) (d a b c : BitVec 5) (m : BitVec 4) (imm : BitVec 32) :
    (mkWord op d a b c m imm).toNat = op % 256 * 2 ^ 56 + d.toNat * 2 ^ 51 + a.toNat * 2 ^ 46 + b.toNat * 2 ^ 41 + c.toNat * 2 ^ 36 + m.toNat * 2 ^ 32 + imm.toNat := by
  have := d.isLt; have := a.isLt; have := b.isLt; have := c.isLt; have := m.isLt; have := imm.isLt
  have h : op % 256 < 256 := Nat.mod_lt _ (by decide)
  simp only [mkWord, field, BitVec.toNat_ofNat]
  rw [Nat.mod_eq_of_lt (by omega : d.toNat < 2^5), Nat.mod_eq_of_lt (by omega : a.toNat < 2^5), Nat.mod_eq_of_lt (by omega : b.toNat < 2^5), Nat.mod_eq_of_lt (by omega : c.toNat < 2^5), Nat.mod_eq_of_lt (by omega : m.toNat < 2^4)]
  norm_num
  omega

/-- IMM of a word put together. -/
@[simp] theorem wImm_mk (op : Nat) (d a b c : BitVec 5) (m : BitVec 4) (imm : BitVec 32) : wImm (mkWord op d a b c m imm) = imm.toNat := by
  have := imm.isLt
  unfold wImm; rw [bits, mk_toNat]; omega

/-- M of a word put together. -/
@[simp] theorem wM_mk (op : Nat) (d a b c : BitVec 5) (m : BitVec 4) (imm : BitVec 32) : wM (mkWord op d a b c m imm) = m.toNat := by
  have := imm.isLt; have := m.isLt
  unfold wM; rw [bits, mk_toNat]; omega

/-- A of a word put together. -/
@[simp] theorem wA_mk (op : Nat) (d a b c : BitVec 5) (m : BitVec 4) (imm : BitVec 32) : wA (mkWord op d a b c m imm) = a.toNat := by
  have := imm.isLt; have := m.isLt; have := c.isLt; have := b.isLt; have := a.isLt
  unfold wA; rw [bits, mk_toNat]; omega

/-- B of a word put together. -/
@[simp] theorem wB_mk (op : Nat) (d a b c : BitVec 5) (m : BitVec 4) (imm : BitVec 32) : wB (mkWord op d a b c m imm) = b.toNat := by
  have := imm.isLt; have := m.isLt; have := c.isLt; have := b.isLt; have := a.isLt
  unfold wB; rw [bits, mk_toNat]; omega

/-- C of a word put together. -/
@[simp] theorem wC_mk (op : Nat) (d a b c : BitVec 5) (m : BitVec 4) (imm : BitVec 32) : wC (mkWord op d a b c m imm) = c.toNat := by
  have := imm.isLt; have := m.isLt; have := c.isLt; have := b.isLt; have := a.isLt
  unfold wC; rw [bits, mk_toNat]; omega

/-- D of a word put together. -/
@[simp] theorem wD_mk (op : Nat) (d a b c : BitVec 5) (m : BitVec 4) (imm : BitVec 32) : wD (mkWord op d a b c m imm) = d.toNat := by
  have := imm.isLt; have := m.isLt; have := c.isLt; have := b.isLt; have := a.isLt; have := d.isLt
  unfold wD; rw [bits, mk_toNat]; omega

/-- OP of a word put together. -/
@[simp] theorem wOp_mk (op : Nat) (d a b c : BitVec 5) (m : BitVec 4) (imm : BitVec 32) : wOp (mkWord op d a b c m imm) = op % 256 := by
  have := imm.isLt; have := m.isLt; have := c.isLt; have := b.isLt; have := a.isLt; have := d.isLt
  unfold wOp; rw [bits, mk_toNat]; omega

/-- IMM sign-extended. -/
@[simp] theorem wSimm_mk (op : Nat) (d a b c : BitVec 5) (m : BitVec 4) (imm : BitVec 32) :
    wSimm (mkWord op d a b c m imm) = imm.signExtend 64 := by
  unfold wSimm
  rw [wImm_mk]
  have h := imm.isLt
  have : signed 32 imm.toNat = imm.toInt := by
    unfold signed
    rw [Nat.mod_eq_of_lt h, BitVec.toInt]
    split <;> split <;> first | rfl | omega
  rw [this]
  rfl

end Sys2Proof.Machine
end

