-- ==== Sys2Proof/Laws/Table.lean ====
section
/-! SUPPORT. The laws of the sparse arrays: reading after writing, and the canonical form that every change keeps. -/

namespace Sys2Proof.Machine

variable {α : Type} [DecidableEq α] {d : α}

/-- A canonical array whose indexes start above `i` has no entry at `i`. -/
theorem tblGet_below {t : Tbl α} {lo i : Nat} (h : tblWfFrom d lo t = true) (hi : i < lo) : tblGet d t i = d := by
  induction t generalizing lo with
  | nil => rfl
  | cons e t ih =>
    obtain ⟨k, v⟩ := e
    simp only [tblWfFrom, Bool.and_eq_true, decide_eq_true_eq] at h
    rw [tblGet, if_neg (by omega)]
    exact ih h.2 (by omega)

/-- The canonical form above an index holds above every lower one. -/
theorem tblWfFrom_mono {t : Tbl α} {lo lo' : Nat} (h : tblWfFrom d lo t = true) (hl : lo' ≤ lo) : tblWfFrom d lo' t = true := by
  cases t with
  | nil => rfl
  | cons e t =>
    obtain ⟨k, v⟩ := e
    simp only [tblWfFrom, Bool.and_eq_true, decide_eq_true_eq] at h ⊢
    exact ⟨⟨by omega, h.1.2⟩, h.2⟩

/-- Writing keeps the canonical form. -/
theorem tblWfFrom_set {t : Tbl α} {lo i : Nat} {v : α} (h : tblWfFrom d lo t = true) (hi : lo ≤ i) :
    tblWfFrom d lo (tblSet d t i v) = true := by
  induction t generalizing lo with
  | nil =>
    unfold tblSet
    split
    · rfl
    · simp [tblWfFrom, *]
  | cons e t ih =>
    obtain ⟨k, w⟩ := e
    have h' := h
    simp only [tblWfFrom, Bool.and_eq_true, decide_eq_true_eq] at h
    unfold tblSet
    split
    · split
      · exact h'
      · simp only [tblWfFrom, Bool.and_eq_true, decide_eq_true_eq, Bool.not_eq_eq_eq_not, Bool.not_true, decide_eq_false_iff_not]
        exact ⟨⟨hi, by assumption⟩, ⟨by omega, by simpa using h.1.2⟩, h.2⟩
    · split
      · split
        · exact tblWfFrom_mono h.2 (by omega)
        · subst i
          simp only [tblWfFrom, Bool.and_eq_true, decide_eq_true_eq, Bool.not_eq_eq_eq_not, Bool.not_true, decide_eq_false_iff_not]
          exact ⟨⟨by omega, by assumption⟩, h.2⟩
      · simp only [tblWfFrom, Bool.and_eq_true, decide_eq_true_eq]
        exact ⟨h.1, ih h.2 (by omega)⟩

/-- Writing keeps the canonical form of a whole array. -/
theorem tblWf_set {t : Tbl α} (h : tblWf d t = true) (i : Nat) (v : α) : tblWf d (tblSet d t i v) = true :=
  tblWfFrom_set h (Nat.zero_le i)

/-- Reading the index just written. -/
theorem tblGet_set_self {t : Tbl α} (h : tblWf d t = true) (i : Nat) (v : α) : tblGet d (tblSet d t i v) i = v := by
  unfold tblWf at h
  generalize 0 = lo at h
  induction t generalizing lo with
  | nil =>
    unfold tblSet
    split <;> simp [tblGet, *]
  | cons e t ih =>
    obtain ⟨k, w⟩ := e
    have h' := h
    simp only [tblWfFrom, Bool.and_eq_true, decide_eq_true_eq] at h
    unfold tblSet
    split
    · split
      · rename_i hlt hv
        rw [hv]
        exact tblGet_below (tblWfFrom_mono (lo := k) (by simp [tblWfFrom]; exact ⟨by simpa using h.1.2, h.2⟩) (Nat.le_refl k)) hlt
      · simp [tblGet]
    · split
      · split
        · rename_i hk hv
          rw [hv]
          exact tblGet_below h.2 (by omega)
        · simp [tblGet]
      · rw [tblGet, if_neg (by assumption)]
        exact ih (k + 1) h.2

/-- Reading any other index than the one written. -/
theorem tblGet_set_ne {t : Tbl α} {i j : Nat} (v : α) (hne : j ≠ i) : tblGet d (tblSet d t i v) j = tblGet d t j := by
  induction t with
  | nil =>
    unfold tblSet
    split <;> simp [tblGet, hne]
  | cons e t ih =>
    obtain ⟨k, w⟩ := e
    unfold tblSet
    split
    · split
      · rfl
      · rw [tblGet, if_neg hne]
    · split
      · subst i
        split <;> simp [tblGet, hne]
      · simp only [tblGet, ih]

/-- Writing a list keeps the canonical form. -/
theorem tblWf_setList {t : Tbl α} (h : tblWf d t = true) (i : Nat) (vs : List α) : tblWf d (tblSetList d t i vs) = true := by
  induction vs generalizing t i with
  | nil => exact h
  | cons v vs ih => exact ih (tblWf_set h i v) (i + 1)

/-- Reading outside the list just written. -/
theorem tblGet_setList_out {t : Tbl α} {i j : Nat} (vs : List α) (hj : j < i ∨ i + vs.length ≤ j) :
    tblGet d (tblSetList d t i vs) j = tblGet d t j := by
  induction vs generalizing t i with
  | nil => rfl
  | cons v vs ih =>
    simp only [List.length_cons] at hj
    rw [tblSetList, ih (by omega), tblGet_set_ne v (by omega)]

/-- Reading inside the list just written. -/
theorem tblGet_setList_in {t : Tbl α} (h : tblWf d t = true) {i j : Nat} (vs : List α) (hj : j < vs.length) :
    tblGet d (tblSetList d t i vs) (i + j) = vs[j] := by
  induction vs generalizing t i j with
  | nil => simp at hj
  | cons v vs ih =>
    rw [tblSetList]
    cases j with
    | zero => rw [tblGet_setList_out vs (by omega)]; exact tblGet_set_self h i v
    | succ j =>
      rw [show i + (j + 1) = i + 1 + j by omega, ih (tblWf_set h i v) (by simpa using hj)]
      rfl

/-- Changing an entry keeps the canonical form. -/
theorem tblWf_mod {t : Tbl α} (h : tblWf d t = true) (i : Nat) (f : α → α) : tblWf d (tblMod d t i f) = true := tblWf_set h i _

/-- Reading the entry just changed. -/
theorem tblGet_mod_self {t : Tbl α} (h : tblWf d t = true) (i : Nat) (f : α → α) : tblGet d (tblMod d t i f) i = f (tblGet d t i) :=
  tblGet_set_self h i _

/-- Reading any other entry than the one changed. -/
theorem tblGet_mod_ne {t : Tbl α} {i j : Nat} (f : α → α) (hne : j ≠ i) : tblGet d (tblMod d t i f) j = tblGet d t j :=
  tblGet_set_ne _ hne

/-- Dropping entries keeps the canonical form above an index. -/
theorem tblWfFrom_filter {t : Tbl α} {lo : Nat} (h : tblWfFrom d lo t = true) (q : Nat × α → Bool) :
    tblWfFrom d lo (t.filter q) = true := by
  induction t generalizing lo with
  | nil => rfl
  | cons e t ih =>
    obtain ⟨k, v⟩ := e
    simp only [tblWfFrom, Bool.and_eq_true, decide_eq_true_eq] at h
    by_cases hq : q (k, v) = true
    · rw [List.filter_cons_of_pos hq]
      simp only [tblWfFrom, Bool.and_eq_true, decide_eq_true_eq]
      exact ⟨h.1, ih h.2⟩
    · rw [List.filter_cons_of_neg hq]
      exact tblWfFrom_mono (ih h.2) (by omega)

/-- Dropping entries keeps the canonical form. -/
theorem tblWf_filter {t : Tbl α} (h : tblWf d t = true) (q : Nat × α → Bool) : tblWf d (t.filter q) = true := tblWfFrom_filter h q

/-- Dropping entries by their index leaves the others. -/
theorem tblGet_filter {t : Tbl α} (q : Nat → Bool) {i : Nat} (hi : q i = true) :
    tblGet d (t.filter (fun e => q e.1)) i = tblGet d t i := by
  induction t with
  | nil => rfl
  | cons e t ih =>
    obtain ⟨k, v⟩ := e
    by_cases hq : q k = true
    · rw [List.filter_cons_of_pos (by simpa using hq)]
      simp only [tblGet, ih]
    · rw [List.filter_cons_of_neg (by simpa using hq), tblGet, if_neg (by intro hik; exact hq (by rw [← hik]; exact hi))]
      exact ih

/-- Changing every entry keeps the canonical form. -/
theorem tblWfFrom_map {t : Tbl α} {lo : Nat} (h : tblWfFrom d lo t = true) (f : Nat → α → α) : tblWfFrom d lo (tblMap d f t) = true := by
  induction t generalizing lo with
  | nil => rfl
  | cons e t ih =>
    obtain ⟨k, v⟩ := e
    simp only [tblWfFrom, Bool.and_eq_true, decide_eq_true_eq] at h
    unfold tblMap
    split
    · exact tblWfFrom_mono (ih h.2) (by omega)
    · simp only [tblWfFrom, Bool.and_eq_true, decide_eq_true_eq, Bool.not_eq_eq_eq_not, Bool.not_true, decide_eq_false_iff_not]
      exact ⟨⟨h.1.1, by assumption⟩, ih h.2⟩

/-- Changing every entry keeps the canonical form. -/
theorem tblWf_map {t : Tbl α} (h : tblWf d t = true) (f : Nat → α → α) : tblWf d (tblMap d f t) = true := tblWfFrom_map h f

/-- Reading an entry after changing every entry. -/
theorem tblGet_map {t : Tbl α} (h : tblWf d t = true) (f : Nat → α → α) (hd : ∀ i, f i d = d) (i : Nat) :
    tblGet d (tblMap d f t) i = f i (tblGet d t i) := by
  unfold tblWf at h
  generalize 0 = lo at h
  induction t generalizing lo with
  | nil => exact (hd i).symm
  | cons e t ih =>
    obtain ⟨k, v⟩ := e
    simp only [tblWfFrom, Bool.and_eq_true, decide_eq_true_eq] at h
    unfold tblMap
    by_cases hk : i = k
    · subst i
      rw [show tblGet d ((k, v) :: t) k = v by simp [tblGet]]
      split
      · rw [ih (k + 1) h.2, tblGet_below h.2 (by omega), hd]
        exact Eq.symm (by assumption)
      · simp [tblGet]
    · rw [show tblGet d ((k, v) :: t) i = tblGet d t i by simp [tblGet, hk]]
      split
      · exact ih (k + 1) h.2
      · rw [tblGet, if_neg hk]
        exact ih (k + 1) h.2

end Sys2Proof.Machine
end

