-- ==== Sys2Proof/Laws/Keep.lean ====
section
/-! SUPPORT. Every operation and every meaning keeps the waiting commands, the canonical form of memory and the soundness of the
frozen masters: one lemma for each. -/

set_option linter.all false

namespace Sys2Proof.Machine

/-- What every operation keeps: the waiting commands are `pd.1`; under the premise `pd.2.1` memory is sound, and under `pd.2.2` the
frozen masters are. -/
structure Good (pd : List Instr × Prop × Prop) (s : State) : Prop where
  pending : s.pending = pd.1
  mem : pd.2.1 → s.memSound = true
  frozen : pd.2.2 → s.frozenSound = true

/-- The same of what a meaning answers. -/
def OutGood (pd : List Instr × Prop × Prop) (o : Out) : Prop :=
  match o with
  | .next t => Good pd t
  | _ => True

/-- What `Good` says of the five fields it reads. -/
def GoodFields (pd : List Instr × Prop × Prop) (p : List Instr) (fr : List Frozen) (hd : Tbl Hdr) (m : List Host.Cell) (mk : Tbl Nat) : Prop :=
  Good pd { pending := p, frozen := fr, hdrs := hd, mem := m, memKey := mk }

/-- `Good` of a record reads five fields of it. -/
theorem good_mk {pd : List Instr × Prop × Prop} {a_clock : Nat} {a_free : Nat} {a_out : List Output} {u_pending : List Instr} {a_pins : Pins} {a_power : Power} {a_manifest : Manifest} {u_hdrs : Tbl Hdr} {u_frozen : List Frozen} {a_cx : Cx} {a_handoff : Option HandoffBlock} {a_dp : Dp} {a_hb : Hb} {a_mc : Mc} {a_ke : Ke} {a_store : RecStore} {a_sq : Sq} {a_ri : Ri} {a_hpA : Hp} {a_hpB : Hp} {a_ms : Ms} {a_scs : Tbl Sc} {a_tgs : Tbl Tg} {a_tiles : Tbl Tile} {a_beatTiles : Tbl Tile} {a_beatTgs : Tbl Tg} {a_bindings : Tbl (Option Binding)} {a_loads : List Load} {a_loadNo : Nat} {a_jobs : List Job} {a_unbinding : List Nat} {a_cores : Tbl Core} {a_owners : Tbl (Option Owner)} {a_streams : Tbl (Option Stream)} {a_prefixes : List (Nat × BitVec 128 × Nat × Nat)} {a_promptUsed : Nat} {a_mgmt : Mgmt} {u_mem : List Host.Cell} {u_memKey : Tbl Nat} :
    Good pd { clock := a_clock, free := a_free, out := a_out, pending := u_pending, pins := a_pins, power := a_power, manifest := a_manifest, hdrs := u_hdrs, frozen := u_frozen, cx := a_cx, handoff := a_handoff, dp := a_dp, hb := a_hb, mc := a_mc, ke := a_ke, store := a_store, sq := a_sq, ri := a_ri, hpA := a_hpA, hpB := a_hpB, ms := a_ms, scs := a_scs, tgs := a_tgs, tiles := a_tiles, beatTiles := a_beatTiles, beatTgs := a_beatTgs, bindings := a_bindings, loads := a_loads, loadNo := a_loadNo, jobs := a_jobs, unbinding := a_unbinding, cores := a_cores, owners := a_owners, streams := a_streams, prefixes := a_prefixes, promptUsed := a_promptUsed, mgmt := a_mgmt, mem := u_mem, memKey := u_memKey } ↔ GoodFields pd u_pending u_frozen u_hdrs u_mem u_memKey :=
  ⟨fun h => ⟨h.1, h.2, h.3⟩, fun h => ⟨h.1, h.2, h.3⟩⟩

/-- The five fields of a good state. -/
theorem good_of {pd : List Instr × Prop × Prop} {u : State} (h : Good pd u) : GoodFields pd u.pending u.frozen u.hdrs u.mem u.memKey :=
  ⟨h.1, h.2, h.3⟩


/-- `GoodFields` spelled out. -/
theorem goodFields_iff {pd : List Instr × Prop × Prop} {p : List Instr} {fr : List Frozen} {hd : Tbl Hdr} {m : List Host.Cell}
    {mk : Tbl Nat} :
    GoodFields pd p fr hd m mk ↔ p = pd.1 ∧ (pd.2.1 → tblWf 0 m = true ∧ tblWf 0 mk = true) ∧
      (pd.2.2 → (fr.map (fun z => (z.kind, z.master))).Nodup ∧
        (∀ z ∈ fr, 339 ≤ z.page ∨ (tblGet {} hd z.page).faultValid = true) ∧ (∀ z ∈ fr, z.page ≠ 2) ∧ tblWf {} hd = true) := by
  constructor
  · rintro ⟨h1, h2, h3⟩
    simp only [State.memSound, Memory.wf, State.frozenSound, State.frozenOnce, State.faultsRecorded, Bool.and_eq_true,
      List.all_eq_true, Bool.or_eq_true, decide_eq_true_eq, bne_iff_ne, getHdr, pgDp] at h2 h3
    exact ⟨h1, h2, fun hF => ⟨(h3 hF).1.1.1, (h3 hF).1.1.2, (h3 hF).1.2, (h3 hF).2⟩⟩
  · rintro ⟨h1, h2, h3⟩
    refine ⟨h1, ?_, ?_⟩
    · simpa only [State.memSound, Memory.wf, Bool.and_eq_true] using h2
    · simp only [State.frozenSound, State.frozenOnce, State.faultsRecorded, Bool.and_eq_true,
        List.all_eq_true, Bool.or_eq_true, decide_eq_true_eq, bne_iff_ne, getHdr, pgDp]
      exact fun hF => ⟨⟨⟨(h3 hF).1, (h3 hF).2.1⟩, (h3 hF).2.2.1⟩, (h3 hF).2.2.2⟩

/-- Fewer frozen masters, with the headers of their pages kept. -/
theorem goodFields_less {pd : List Instr × Prop × Prop} {p : List Instr} {fr : List Frozen} {hd : Tbl Hdr} {m : List Host.Cell}
    {mk : Tbl Nat} (h : GoodFields pd p fr hd m mk) (q : Frozen → Bool) (r : Nat → Bool)
    (hq : ∀ z ∈ fr, q z = true → z.page ≠ 2 → z.page < 339 → r z.page = true) :
    GoodFields pd p (fr.filter q) (hd.filter (fun e => r e.1)) m mk := by
  rw [goodFields_iff] at h ⊢
  refine ⟨h.1, h.2.1, fun hF => ?_⟩
  obtain ⟨h3, h4, h5, h6⟩ := h.2.2 hF
  refine ⟨h3.sublist (List.Sublist.map _ List.filter_sublist), ?_, ?_, tblWf_filter h6 _⟩
  · intro z hz
    rw [List.mem_filter] at hz
    rcases h4 z hz.1 with h | h
    · exact Or.inl h
    · by_cases hp : 339 ≤ z.page
      · exact Or.inl hp
      · exact Or.inr (by rw [tblGet_filter r (hq z hz.1 hz.2 (h5 z hz.1) (by omega))]; exact h)
  · intro z hz
    rw [List.mem_filter] at hz
    exact h5 z hz.1

/-- An empty memory is in canonical form. -/
theorem goodFields_noMem {pd : List Instr × Prop × Prop} {p : List Instr} {fr : List Frozen} {hd : Tbl Hdr} {m : List Host.Cell}
    {mk : Tbl Nat} (h : GoodFields pd p fr hd m mk) : GoodFields pd p fr hd [] [] := by
  rw [goodFields_iff] at h ⊢
  exact ⟨h.1, fun _ => ⟨rfl, rfl⟩, h.2.2⟩

theorem good_snd {pd : List Instr × Prop × Prop} {α : Type} {e : α × State} {a : α} {b : State} (h : e = (a, b)) (g : Good pd e.2) : Good pd b := by
  subst h; exact g

theorem good_fst {pd : List Instr × Prop × Prop} {α : Type} {e : State × α} {a : α} {b : State} (h : e = (b, a)) (g : Good pd e.1) : Good pd b := by
  subst h; exact g

theorem good_ite {pd : List Instr × Prop × Prop} {c : Prop} [Decidable c] {a b : State} (ha : Good pd a) (hb : Good pd b) :
    Good pd (if c then a else b) := by
  split <;> assumption

/-- Changing a page header keeps a state good if it keeps FAULT_CODE.VALID, or where no frozen master reports. -/
theorem good_modHdr {pd : List Instr × Prop × Prop} {s : State} {p : Nat} {f : Hdr → Hdr} (h_s : Good pd s)
    (hf : (∀ h : Hdr, h.faultValid = true → (f h).faultValid = true) ∨ 339 ≤ p ∨ pageFrozen s p = false) : Good pd (modHdr s p f) := by
  unfold modHdr
  rw [good_mk, goodFields_iff]
  have h := goodFields_iff.1 (good_of h_s)
  refine ⟨h.1, h.2.1, fun hF => ?_⟩
  obtain ⟨h3, h4, h5, h6⟩ := h.2.2 hF
  refine ⟨h3, fun z hz => ?_, h5, tblWf_mod h6 p f⟩
  rcases h4 z hz with h | h
  · exact Or.inl h
  · by_cases hp : z.page = p
    · rcases hf with hf | hf | hf
      · right
        rw [hp, tblGet_mod_self h6]
        exact hf _ (hp ▸ h)
      · exact Or.inl (by omega)
      · simp only [pageFrozen, List.any_eq_false, beq_iff_eq] at hf
        exact absurd hp (hf z hz)
    · right
      rw [tblGet_mod_ne f hp]
      exact h

theorem keep_modHdr {pd : List Instr × Prop × Prop} {s : State} {p : Nat} {f : Hdr → Hdr} (h_s : Good pd s)
    (hf : ∀ h : Hdr, h.faultValid = true → (f h).faultValid = true) : Good pd (modHdr s p f) := good_modHdr h_s (Or.inl hf)

theorem keep_modHp {pd : List Instr × Prop × Prop} {s : State} {port : Bool} {f : Hp → Hp} (h_s : Good pd s) :
    Good pd (modHp s port f) := by
  unfold modHp
  repeat' (first | with_reducible (first | assumption | apply good_of | (intro _) | apply good_ite | (refine good_snd (by assumption) ?_) | (refine good_fst (by assumption) ?_)) | (extract_lets +onlyGivenNames x; first | (suffices hx : Good pd x from ?_; (on_goal 1 => clear_value x); (on_goal 2 => simp only [x])) | skip) | split | simp only [id_eq] | simp only [good_mk])

theorem keep_modFn {pd : List Instr × Prop × Prop} {s : State} {port : Bool} {n : Nat} {f : Fn → Fn} (h_s : Good pd s) :
    Good pd (modFn s port n f) := by
  unfold modFn
  repeat' (first | with_reducible (first | assumption | apply good_of | (intro _) | apply keep_modHp | apply good_ite | (refine good_snd (by assumption) ?_) | (refine good_fst (by assumption) ?_)) | (extract_lets +onlyGivenNames x; first | (suffices hx : Good pd x from ?_; (on_goal 1 => clear_value x); (on_goal 2 => simp only [x])) | skip) | split | simp only [id_eq] | simp only [good_mk])

theorem keep_modQp {pd : List Instr × Prop × Prop} {s : State} {port : Bool} {n : Nat} {f : Qp → Qp} (h_s : Good pd s) :
    Good pd (modQp s port n f) := by
  unfold modQp
  repeat' (first | with_reducible (first | assumption | apply good_of | (intro _) | apply keep_modHp | apply good_ite | (refine good_snd (by assumption) ?_) | (refine good_fst (by assumption) ?_)) | (extract_lets +onlyGivenNames x; first | (suffices hx : Good pd x from ?_; (on_goal 1 => clear_value x); (on_goal 2 => simp only [x])) | skip) | split | simp only [id_eq] | simp only [good_mk])

theorem keep_modSc {pd : List Instr × Prop × Prop} {s : State} {n : Nat} {f : Sc → Sc} (h_s : Good pd s) :
    Good pd (modSc s n f) := by
  unfold modSc
  repeat' (first | with_reducible (first | assumption | apply good_of | (intro _) | apply good_ite | (refine good_snd (by assumption) ?_) | (refine good_fst (by assumption) ?_)) | (extract_lets +onlyGivenNames x; first | (suffices hx : Good pd x from ?_; (on_goal 1 => clear_value x); (on_goal 2 => simp only [x])) | skip) | split | simp only [id_eq] | simp only [good_mk])

theorem keep_modTg {pd : List Instr × Prop × Prop} {s : State} {g : Nat} {f : Tg → Tg} (h_s : Good pd s) :
    Good pd (modTg s g f) := by
  unfold modTg
  repeat' (first | with_reducible (first | assumption | apply good_of | (intro _) | apply good_ite | (refine good_snd (by assumption) ?_) | (refine good_fst (by assumption) ?_)) | (extract_lets +onlyGivenNames x; first | (suffices hx : Good pd x from ?_; (on_goal 1 => clear_value x); (on_goal 2 => simp only [x])) | skip) | split | simp only [id_eq] | simp only [good_mk])

theorem keep_modTile {pd : List Instr × Prop × Prop} {s : State} {i : Nat} {f : Tile → Tile} (h_s : Good pd s) :
    Good pd (modTile s i f) := by
  unfold modTile
  repeat' (first | with_reducible (first | assumption | apply good_of | (intro _) | apply good_ite | (refine good_snd (by assumption) ?_) | (refine good_fst (by assumption) ?_)) | (extract_lets +onlyGivenNames x; first | (suffices hx : Good pd x from ?_; (on_goal 1 => clear_value x); (on_goal 2 => simp only [x])) | skip) | split | simp only [id_eq] | simp only [good_mk])

theorem keep_modCore {pd : List Instr × Prop × Prop} {s : State} {c : Nat} {f : Core → Core} (h_s : Good pd s) :
    Good pd (modCore s c f) := by
  unfold modCore
  repeat' (first | with_reducible (first | assumption | apply good_of | (intro _) | apply good_ite | (refine good_snd (by assumption) ?_) | (refine good_fst (by assumption) ?_)) | (extract_lets +onlyGivenNames x; first | (suffices hx : Good pd x from ?_; (on_goal 1 => clear_value x); (on_goal 2 => simp only [x])) | skip) | split | simp only [id_eq] | simp only [good_mk])

theorem keep_setOwner {pd : List Instr × Prop × Prop} {s : State} {o : Nat} {v : Option Owner} (h_s : Good pd s) :
    Good pd (setOwner s o v) := by
  unfold setOwner
  repeat' (first | with_reducible (first | assumption | apply good_of | (intro _) | apply good_ite | (refine good_snd (by assumption) ?_) | (refine good_fst (by assumption) ?_)) | (extract_lets +onlyGivenNames x; first | (suffices hx : Good pd x from ?_; (on_goal 1 => clear_value x); (on_goal 2 => simp only [x])) | skip) | split | simp only [id_eq] | simp only [good_mk])

theorem keep_modOwner {pd : List Instr × Prop × Prop} {s : State} {o : Nat} {f : Owner → Owner} (h_s : Good pd s) :
    Good pd (modOwner s o f) := by
  unfold modOwner
  repeat' (first | with_reducible (first | assumption | apply good_of | (intro _) | apply keep_setOwner | apply good_ite | (refine good_snd (by assumption) ?_) | (refine good_fst (by assumption) ?_)) | (extract_lets +onlyGivenNames x; first | (suffices hx : Good pd x from ?_; (on_goal 1 => clear_value x); (on_goal 2 => simp only [x])) | skip) | split | simp only [id_eq] | simp only [good_mk])

theorem keep_setStream {pd : List Instr × Prop × Prop} {s : State} {i : Nat} {v : Option Stream} (h_s : Good pd s) :
    Good pd (setStream s i v) := by
  unfold setStream
  repeat' (first | with_reducible (first | assumption | apply good_of | (intro _) | apply good_ite | (refine good_snd (by assumption) ?_) | (refine good_fst (by assumption) ?_)) | (extract_lets +onlyGivenNames x; first | (suffices hx : Good pd x from ?_; (on_goal 1 => clear_value x); (on_goal 2 => simp only [x])) | skip) | split | simp only [id_eq] | simp only [good_mk])

theorem keep_modStream {pd : List Instr × Prop × Prop} {s : State} {i : Nat} {f : Stream → Stream} (h_s : Good pd s) :
    Good pd (modStream s i f) := by
  unfold modStream
  repeat' (first | with_reducible (first | assumption | apply good_of | (intro _) | apply keep_setStream | apply good_ite | (refine good_snd (by assumption) ?_) | (refine good_fst (by assumption) ?_)) | (extract_lets +onlyGivenNames x; first | (suffices hx : Good pd x from ?_; (on_goal 1 => clear_value x); (on_goal 2 => simp only [x])) | skip) | split | simp only [id_eq] | simp only [good_mk])

theorem keep_setBinding {pd : List Instr × Prop × Prop} {s : State} {g : Nat} {l : Nat} {b : Option Binding} (h_s : Good pd s) :
    Good pd (setBinding s g l b) := by
  unfold setBinding
  repeat' (first | with_reducible (first | assumption | apply good_of | (intro _) | apply good_ite | (refine good_snd (by assumption) ?_) | (refine good_fst (by assumption) ?_)) | (extract_lets +onlyGivenNames x; first | (suffices hx : Good pd x from ?_; (on_goal 1 => clear_value x); (on_goal 2 => simp only [x])) | skip) | split | simp only [id_eq] | simp only [good_mk])

theorem keep_modSlot {pd : List Instr × Prop × Prop} {s : State} {o : Nat} {f : Slot → Slot} (h_s : Good pd s) :
    Good pd (modSlot s o f) := by
  unfold modSlot
  repeat' (first | with_reducible (first | assumption | apply good_of | (intro _) | apply good_ite | (refine good_snd (by assumption) ?_) | (refine good_fst (by assumption) ?_)) | (extract_lets +onlyGivenNames x; first | (suffices hx : Good pd x from ?_; (on_goal 1 => clear_value x); (on_goal 2 => simp only [x])) | skip) | split | simp only [id_eq] | simp only [good_mk])

theorem keep_modLink {pd : List Instr × Prop × Prop} {s : State} {p : Nat} {f : Link → Link} (h_s : Good pd s) :
    Good pd (modLink s p f) := by
  unfold modLink
  repeat' (first | with_reducible (first | assumption | apply good_of | (intro _) | apply good_ite | (refine good_snd (by assumption) ?_) | (refine good_fst (by assumption) ?_)) | (extract_lets +onlyGivenNames x; first | (suffices hx : Good pd x from ?_; (on_goal 1 => clear_value x); (on_goal 2 => simp only [x])) | skip) | split | simp only [id_eq] | simp only [good_mk])

theorem keep_forEach {pd : List Instr × Prop × Prop} {α : Type} {l : List α} {f : State → α → State} {s : State} (h_s : Good pd s)
    (hf : ∀ s a, Good pd s → Good pd (f s a)) : Good pd (forEach l f s) := by
  unfold forEach
  induction l generalizing s with
  | nil => exact h_s
  | cons a l ih => exact ih (hf _ _ h_s)

theorem keep_draw {pd : List Instr × Prop × Prop} {s : State} (h_s : Good pd s) :
    Good pd (draw s).2 := by
  unfold draw
  repeat' (first | with_reducible (first | assumption | apply good_of | (intro _) | apply good_ite | (refine good_snd (by assumption) ?_) | (refine good_fst (by assumption) ?_)) | (extract_lets +onlyGivenNames x; first | (suffices hx : Good pd x from ?_; (on_goal 1 => clear_value x); (on_goal 2 => simp only [x])) | skip) | split | simp only [id_eq] | simp only [good_mk])

theorem keep_drawBool {pd : List Instr × Prop × Prop} {s : State} (h_s : Good pd s) :
    Good pd (drawBool s).2 := by
  unfold drawBool
  repeat' (first | with_reducible (first | assumption | apply good_of | (intro _) | apply good_ite | (refine good_snd (by assumption) ?_) | (refine good_fst (by assumption) ?_)) | (extract_lets +onlyGivenNames x; first | (suffices hx : Good pd x from ?_; (on_goal 1 => clear_value x); (on_goal 2 => simp only [x])) | skip) | split | simp only [id_eq] | simp only [good_mk])

theorem keep_memWrite {pd : List Instr × Prop × Prop} {s : State} {k a : Nat} {bs : List Byte} (h_s : Good pd s) :
    Good pd (memWrite s k a bs) := by
  unfold memWrite
  rw [good_mk, goodFields_iff]
  have h := goodFields_iff.1 (good_of h_s)
  refine ⟨h.1, fun hM => ?_, h.2.2⟩
  obtain ⟨h2, h3⟩ := h.2.1 hM
  refine ⟨tblWf_setList h2 a bs, ?_⟩
  split
  · exact h3
  · generalize (upTo ((a + bs.length - 1) / 64 - a / 64 + 1)) = l
    have : ∀ t : Tbl Nat, tblWf 0 t = true → tblWf 0 (l.foldl (fun t i => tblSet 0 t (a / 64 + i) k) t) = true := by
      induction l with
      | nil => exact fun t ht => ht
      | cons i l ih => exact fun t ht => ih _ (tblWf_set ht _ _)
    exact this _ h3

theorem keep_mergeWord {pd : List Instr × Prop × Prop} {s : State} {k : Nat} {w : Nat} {p : Nat × List Byte} (h_s : Good pd s) :
    Good pd (mergeWord s k w p) := by
  unfold mergeWord
  repeat' (first | with_reducible (first | assumption | apply good_of | (intro _) | apply keep_memWrite | apply good_ite | (refine good_snd (by assumption) ?_) | (refine good_fst (by assumption) ?_)) | (extract_lets +onlyGivenNames x; first | (suffices hx : Good pd x from ?_; (on_goal 1 => clear_value x); (on_goal 2 => simp only [x])) | skip) | split | simp only [id_eq] | simp only [good_mk])

theorem keep_emit {pd : List Instr × Prop × Prop} {s : State} {o : Output} (h_s : Good pd s) :
    Good pd (emit s o) := by
  unfold emit
  repeat' (first | with_reducible (first | assumption | apply good_of | (intro _) | apply good_ite | (refine good_snd (by assumption) ?_) | (refine good_fst (by assumption) ?_)) | (extract_lets +onlyGivenNames x; first | (suffices hx : Good pd x from ?_; (on_goal 1 => clear_value x); (on_goal 2 => simp only [x])) | skip) | split | simp only [id_eq] | simp only [good_mk])

theorem keep_hostSend {pd : List Instr × Prop × Prop} {s : State} {port : Bool} {o : Output} (h_s : Good pd s) :
    Good pd (hostSend s port o) := by
  unfold hostSend
  repeat' (first | with_reducible (first | assumption | apply good_of | (intro _) | apply keep_modHp | apply keep_emit | apply good_ite | (refine good_snd (by assumption) ?_) | (refine good_fst (by assumption) ?_)) | (extract_lets +onlyGivenNames x; first | (suffices hx : Good pd x from ?_; (on_goal 1 => clear_value x); (on_goal 2 => simp only [x])) | skip) | split | simp only [id_eq] | simp only [good_mk])

theorem keep_countWindow {pd : List Instr × Prop × Prop} {s : State} {p : Nat} {word : Nat} {text : List Byte} (h_s : Good pd s) :
    Good pd (countWindow s p word text) := by
  unfold countWindow
  repeat' (first | with_reducible (first | assumption | apply good_of | (intro _) | apply keep_modLink | apply good_ite | (refine good_snd (by assumption) ?_) | (refine good_fst (by assumption) ?_)) | (extract_lets +onlyGivenNames x; first | (suffices hx : Good pd x from ?_; (on_goal 1 => clear_value x); (on_goal 2 => simp only [x])) | skip) | split | simp only [id_eq] | simp only [good_mk])

theorem keep_sendFlit {pd : List Instr × Prop × Prop} {s : State} {p : Nat} {h : FlitHeader} {payload : List Byte} {plain : optParam Bool false} (h_s : Good pd s) :
    Good pd (sendFlit s p h payload plain) := by
  unfold sendFlit
  repeat' (first | with_reducible (first | assumption | apply good_of | (intro _) | apply keep_emit | apply keep_countWindow | apply good_ite | (refine good_snd (by assumption) ?_) | (refine good_fst (by assumption) ?_)) | (extract_lets +onlyGivenNames x; first | (suffices hx : Good pd x from ?_; (on_goal 1 => clear_value x); (on_goal 2 => simp only [x])) | skip) | split | simp only [id_eq] | simp only [good_mk])

theorem keep_sendControl {pd : List Instr × Prop × Prop} {s : State} {p : Nat} {fields : List (Nat × Nat)} {plain : optParam Bool false} (h_s : Good pd s) :
    Good pd (sendControl s p fields plain) := by
  unfold sendControl
  repeat' (first | with_reducible (first | assumption | apply good_of | (intro _) | apply keep_sendFlit | apply good_ite | (refine good_snd (by assumption) ?_) | (refine good_fst (by assumption) ?_)) | (extract_lets +onlyGivenNames x; first | (suffices hx : Good pd x from ?_; (on_goal 1 => clear_value x); (on_goal 2 => simp only [x])) | skip) | split | simp only [id_eq] | simp only [good_mk])

theorem keep_sendReturn {pd : List Instr × Prop × Prop} {s : State} {rx : Nat} {nak : Nat} {credits : Nat} {cls : Nat} (h_s : Good pd s) :
    Good pd (sendReturn s rx nak credits cls) := by
  unfold sendReturn
  repeat' (first | with_reducible (first | assumption | apply good_of | (intro _) | apply keep_sendFlit | apply good_ite | (refine good_snd (by assumption) ?_) | (refine good_fst (by assumption) ?_)) | (extract_lets +onlyGivenNames x; first | (suffices hx : Good pd x from ?_; (on_goal 1 => clear_value x); (on_goal 2 => simp only [x])) | skip) | split | simp only [id_eq] | simp only [good_mk])

theorem keep_sendCredit {pd : List Instr × Prop × Prop} {s : State} {p : Nat} {seq : Nat} {f : CreditFlit} (h_s : Good pd s) :
    Good pd (sendCredit s p seq f) := by
  unfold sendCredit
  repeat' (first | with_reducible (first | assumption | apply good_of | (intro _) | apply keep_sendFlit | apply good_ite | (refine good_snd (by assumption) ?_) | (refine good_fst (by assumption) ?_)) | (extract_lets +onlyGivenNames x; first | (suffices hx : Good pd x from ?_; (on_goal 1 => clear_value x); (on_goal 2 => simp only [x])) | skip) | split | simp only [id_eq] | simp only [good_mk])

theorem keep_sendNextCredit {pd : List Instr × Prop × Prop} {s : State} {p : Nat} (h_s : Good pd s) :
    Good pd (sendNextCredit s p) := by
  unfold sendNextCredit
  repeat' (first | with_reducible (first | assumption | apply good_of | (intro _) | apply keep_modLink | apply keep_sendReturn | apply keep_sendCredit | apply good_ite | (refine good_snd (by assumption) ?_) | (refine good_fst (by assumption) ?_)) | (extract_lets +onlyGivenNames x; first | (suffices hx : Good pd x from ?_; (on_goal 1 => clear_value x); (on_goal 2 => simp only [x])) | skip) | split | simp only [id_eq] | simp only [good_mk])

theorem keep_drainCredits {pd : List Instr × Prop × Prop} {s : State} {p : Nat} (h_s : Good pd s) :
    Good pd (drainCredits s p) := by
  unfold drainCredits
  repeat' (first | with_reducible (first | assumption | apply good_of | (intro _) | apply keep_forEach | apply keep_sendNextCredit | apply good_ite | (refine good_snd (by assumption) ?_) | (refine good_fst (by assumption) ?_)) | (extract_lets +onlyGivenNames x; first | (suffices hx : Good pd x from ?_; (on_goal 1 => clear_value x); (on_goal 2 => simp only [x])) | skip) | split | simp only [id_eq] | simp only [good_mk])

theorem keep_queueCredit {pd : List Instr × Prop × Prop} {s : State} {p : Nat} {f : CreditFlit} (h_s : Good pd s) :
    Good pd (queueCredit s p f) := by
  unfold queueCredit
  repeat' (first | with_reducible (first | assumption | apply good_of | (intro _) | apply keep_modLink | apply keep_drainCredits | apply good_ite | (refine good_snd (by assumption) ?_) | (refine good_fst (by assumption) ?_)) | (extract_lets +onlyGivenNames x; first | (suffices hx : Good pd x from ?_; (on_goal 1 => clear_value x); (on_goal 2 => simp only [x])) | skip) | split | simp only [id_eq] | simp only [good_mk])

theorem keep_sendPacket {pd : List Instr × Prop × Prop} {s : State} {cls : Nat} {dst : Nat} {bytes : List Byte} (h_s : Good pd s) :
    Good pd (sendPacket s cls dst bytes) := by
  unfold sendPacket
  repeat' (first | with_reducible (first | assumption | apply good_of | (intro _) | apply keep_forEach | apply keep_queueCredit | apply good_ite | (refine good_snd (by assumption) ?_) | (refine good_fst (by assumption) ?_)) | (extract_lets +onlyGivenNames x; first | (suffices hx : Good pd x from ?_; (on_goal 1 => clear_value x); (on_goal 2 => simp only [x])) | skip) | split | simp only [id_eq] | simp only [good_mk])

theorem keep_sendMessage {pd : List Instr × Prop × Prop} {s : State} {dst : Nat} {kind : Nat} {words : List Nat} {data : optParam (List Byte) []} (h_s : Good pd s) :
    Good pd (sendMessage s dst kind words data) := by
  unfold sendMessage
  repeat' (first | with_reducible (first | assumption | apply good_of | (intro _) | apply keep_forEach | apply keep_sendPacket | apply good_ite | (refine good_snd (by assumption) ?_) | (refine good_fst (by assumption) ?_)) | (extract_lets +onlyGivenNames x; first | (suffices hx : Good pd x from ?_; (on_goal 1 => clear_value x); (on_goal 2 => simp only [x])) | skip) | split | simp only [id_eq] | simp only [good_mk])

theorem keep_broadcast {pd : List Instr × Prop × Prop} {s : State} {kind : Nat} {words : List Nat} {data : optParam (List Byte) []} (h_s : Good pd s) :
    Good pd (broadcast s kind words data) := by
  unfold broadcast
  repeat' (first | with_reducible (first | assumption | apply good_of | (intro _) | apply keep_forEach | apply keep_sendMessage | apply good_ite | (refine good_snd (by assumption) ?_) | (refine good_fst (by assumption) ?_)) | (extract_lets +onlyGivenNames x; first | (suffices hx : Good pd x from ?_; (on_goal 1 => clear_value x); (on_goal 2 => simp only [x])) | skip) | split | simp only [id_eq] | simp only [good_mk])

theorem keep_sendImage {pd : List Instr × Prop × Prop} {s : State} {dst : Nat} {base : Nat} {n : Nat} (h_s : Good pd s) :
    Good pd (sendImage s dst base n) := by
  unfold sendImage
  repeat' (first | with_reducible (first | assumption | apply good_of | (intro _) | apply keep_forEach | apply keep_sendPacket | apply good_ite | (refine good_snd (by assumption) ?_) | (refine good_fst (by assumption) ?_)) | (extract_lets +onlyGivenNames x; first | (suffices hx : Good pd x from ?_; (on_goal 1 => clear_value x); (on_goal 2 => simp only [x])) | skip) | split | simp only [id_eq] | simp only [good_mk])

theorem keep_trainFail {pd : List Instr × Prop × Prop} {s : State} {result : Nat} (h_s : Good pd s) :
    Good pd (trainFail s result) := by
  unfold trainFail
  repeat' (first | with_reducible (first | assumption | apply good_of | (intro _) | apply good_ite | (refine good_snd (by assumption) ?_) | (refine good_fst (by assumption) ?_)) | (extract_lets +onlyGivenNames x; first | (suffices hx : Good pd x from ?_; (on_goal 1 => clear_value x); (on_goal 2 => simp only [x])) | skip) | split | simp only [id_eq] | simp only [good_mk])

theorem keep_updateAlert {pd : List Instr × Prop × Prop} {s : State} (h_s : Good pd s) :
    Good pd (updateAlert s) := by
  unfold updateAlert
  repeat' (first | with_reducible (first | assumption | apply good_of | (intro _) | apply good_ite | (refine good_snd (by assumption) ?_) | (refine good_fst (by assumption) ?_)) | (extract_lets +onlyGivenNames x; first | (suffices hx : Good pd x from ?_; (on_goal 1 => clear_value x); (on_goal 2 => simp only [x])) | skip) | split | simp only [id_eq] | simp only [good_mk])

theorem keep_mgmtEnqueue {pd : List Instr × Prop × Prop} {s : State} {cls : Nat} {data : List Byte} {isFault : Bool} (h_s : Good pd s) :
    Good pd (mgmtEnqueue s cls data isFault) := by
  unfold mgmtEnqueue
  repeat' (first | with_reducible (first | assumption | apply good_of | (intro _) | apply keep_updateAlert | apply good_ite | (refine good_snd (by assumption) ?_) | (refine good_fst (by assumption) ?_)) | (extract_lets +onlyGivenNames x; first | (suffices hx : Good pd x from ?_; (on_goal 1 => clear_value x); (on_goal 2 => simp only [x])) | skip) | split | simp only [id_eq] | simp only [good_mk])

theorem keep_mgmtFreed {pd : List Instr × Prop × Prop} {s : State} (h_s : Good pd s) :
    Good pd (mgmtFreed s) := by
  unfold mgmtFreed
  repeat' (first | with_reducible (first | assumption | apply good_of | (intro _) | apply keep_updateAlert | apply good_ite | (refine good_snd (by assumption) ?_) | (refine good_fst (by assumption) ?_)) | (extract_lets +onlyGivenNames x; first | (suffices hx : Good pd x from ?_; (on_goal 1 => clear_value x); (on_goal 2 => simp only [x])) | skip) | split | simp only [id_eq] | simp only [good_mk])

theorem keep_notifyPf0 {pd : List Instr × Prop × Prop} {s : State} {p : Bool} (h_s : Good pd s) :
    Good pd (notifyPf0 s p) := by
  unfold notifyPf0
  repeat' (first | with_reducible (first | assumption | apply good_of | (intro _) | apply keep_hostSend | apply good_ite | (refine good_snd (by assumption) ?_) | (refine good_fst (by assumption) ?_)) | (extract_lets +onlyGivenNames x; first | (suffices hx : Good pd x from ?_; (on_goal 1 => clear_value x); (on_goal 2 => simp only [x])) | skip) | split | simp only [id_eq] | simp only [good_mk])

theorem keep_notifyHost {pd : List Instr × Prop × Prop} {s : State} {page : Nat} (h_s : Good pd s) :
    Good pd (notifyHost s page) := by
  unfold notifyHost
  repeat' (first | with_reducible (first | assumption | apply good_of | (intro _) | apply keep_sendMessage | apply keep_notifyPf0 | apply good_ite | (refine good_snd (by assumption) ?_) | (refine good_fst (by assumption) ?_)) | (extract_lets +onlyGivenNames x; first | (suffices hx : Good pd x from ?_; (on_goal 1 => clear_value x); (on_goal 2 => simp only [x])) | skip) | split | simp only [id_eq] | simp only [good_mk])

theorem keep_sumpWrite {pd : List Instr × Prop × Prop} {s : State} {page code : Nat} {forced : Bool} {inf : List Byte} (h_s : Good pd s) :
    Good pd (sumpWrite s page code forced inf) := by
  unfold sumpWrite
  extract_lets batch first s1
  have h1 : Good pd s1 := by
    refine keep_forEach h_s (fun t e h => keep_mergeWord ?_)
    split
    · exact good_mk.2 (good_of h)
    · exact h
  clear_value s1
  exact good_mk.2 (good_of h1)

theorem keep_raiseEvent {pd : List Instr × Prop × Prop} {s : State} {page code : Nat} {inf : List Byte} {forced : Bool}
    (h_s : Good pd s) : Good pd (raiseEvent s page code inf forced) := by
  unfold raiseEvent
  extract_lets h enabled fault s1 recorded seqLow s2 data s3 s4
  have h1 : Good pd s1 := by
    simp only [s1]
    split
    · exact keep_modHdr h_s (fun _ h => h)
    · exact h_s
  clear_value s1
  have h2 : Good pd s2 := by
    simp only [s2]
    split
    · exact h1
    · exact good_mk.2 (good_of h1)
  clear_value s2 data
  have h3 : Good pd s3 := by
    simp only [s3]
    split
    · exact keep_sumpWrite h2
    · exact h2
  clear_value s3
  have h4 : Good pd s4 := by
    simp only [s4]
    split
    · exact keep_notifyHost h3
    · exact h3
  clear_value s4
  split
  · exact keep_mgmtEnqueue h4
  · exact h4

theorem keep_freeze {pd : List Instr × Prop × Prop} {s : State} {page kind master code addr : Nat} (h_s : Good pd s) (hp : page ≠ 2) :
    Good pd (freeze s page kind master code addr) := by
  have key : ∀ e : Frozen, e.kind = kind → e.master = master → e.page = page → ∀ fr,
      fr = (if isFrozen s kind master then s.frozen else s.frozen ++ [e]) → ∀ f : Hdr → Hdr, (∀ h, (f h).faultValid = true) →
      GoodFields pd s.pending fr (tblMod {} s.hdrs page f) s.mem s.memKey := by
    intro e hk hm hpg fr hfr f hf
    have h := goodFields_iff.1 (good_of h_s)
    rw [goodFields_iff]
    refine ⟨h.1, h.2.1, fun hF => ?_⟩
    obtain ⟨h3, h4, h5, h6⟩ := h.2.2 hF
    have hmem : ∀ z ∈ fr, z ∈ s.frozen ∨ z = e := by
      intro z hz
      rw [hfr] at hz
      split at hz
      · exact Or.inl hz
      · simpa using hz
    refine ⟨?_, fun z hz => ?_, fun z hz => ?_, tblWf_mod h6 page f⟩
    · rw [hfr]
      split
      · exact h3
      · rename_i hn
        rw [List.map_append, List.nodup_append]
        refine ⟨h3, by simp, ?_⟩
        intro a ha b hb heq
        simp only [List.map_cons, List.map_nil, List.mem_singleton, hk, hm] at hb
        obtain ⟨z, hz, hza⟩ := List.mem_map.1 ha
        apply hn
        simp only [isFrozen, List.any_eq_true, Bool.and_eq_true, beq_iff_eq]
        have := hza.trans (heq.trans hb)
        exact ⟨z, hz, by simpa using this⟩
    · by_cases hpz : z.page = page
      · right
        rw [hpz, tblGet_mod_self h6]
        exact hf _
      · rcases hmem z hz with h | h
        · rw [tblGet_mod_ne f hpz]
          exact h4 z h
        · exact absurd (h ▸ hpg) hpz
    · rcases hmem z hz with h | h
      · exact h5 z h
      · rw [h, hpg]
        exact hp
  unfold freeze
  extract_lets h0 entry s1 s2 h3
  have : Good pd s2 := by
    have hs1 : s1 = { s with frozen := if isFrozen s kind master then s.frozen else s.frozen ++ [entry] } := by
      simp only [s1]
      split <;> rfl
    simp only [s2, hs1, modHdr]
    rw [good_mk]
    refine key entry rfl rfl rfl _ rfl _ (fun h => ?_)
    split <;> first | assumption | rfl
  clear_value s2
  apply keep_raiseEvent
  exact this

theorem keep_posFault {pd : List Instr × Prop × Prop} {s : State} {cause : Nat} (h_s : Good pd s) :
    Good pd (posFault s cause) := by
  unfold posFault
  repeat' (first | with_reducible (first | assumption | apply good_of | (intro _) | apply keep_draw | apply good_ite | (refine good_snd (by assumption) ?_) | (refine good_fst (by assumption) ?_)) | (extract_lets +onlyGivenNames x; first | (suffices hx : Good pd x from ?_; (on_goal 1 => clear_value x); (on_goal 2 => simp only [x])) | skip) | split | simp only [id_eq] | simp only [good_mk])

theorem keep_zeroFetches {pd : List Instr × Prop × Prop} {s : State} {c : Nat} (h_s : Good pd s) :
    Good pd (zeroFetches s c) := by
  unfold zeroFetches
  repeat' (first | with_reducible (first | assumption | apply good_of | (intro _) | apply good_ite | (refine good_snd (by assumption) ?_) | (refine good_fst (by assumption) ?_)) | (extract_lets +onlyGivenNames x; first | (suffices hx : Good pd x from ?_; (on_goal 1 => clear_value x); (on_goal 2 => simp only [x])) | skip) | split | simp only [id_eq] | simp only [good_mk])

theorem keep_freezeCore {pd : List Instr × Prop × Prop} {s : State} {c : Nat} {code : Nat} {addr : Nat} (h_s : Good pd s) :
    Good pd (freezeCore s c code addr) := by
  unfold freezeCore
  repeat' (first | with_reducible (first | assumption | apply good_of | (intro _) | apply keep_freeze | apply keep_posFault | apply keep_zeroFetches | (simp only [pgCc, pgHp, pgMs, pgRi]; split <;> decide) | (simp only [pgCc, pgHp, pgMs, pgRi]; omega) | apply good_ite | (refine good_snd (by assumption) ?_) | (refine good_fst (by assumption) ?_)) | (extract_lets +onlyGivenNames x; first | (suffices hx : Good pd x from ?_; (on_goal 1 => clear_value x); (on_goal 2 => simp only [x])) | skip) | split | simp only [id_eq] | simp only [good_mk])

theorem keep_qpError {pd : List Instr × Prop × Prop} {s : State} {port : Bool} {pair : Nat} {cause : Nat} (h_s : Good pd s) :
    Good pd (qpError s port pair cause) := by
  unfold qpError
  repeat' (first | with_reducible (first | assumption | apply good_of | (intro _) | apply keep_modQp | apply keep_raiseEvent | apply good_ite | (refine good_snd (by assumption) ?_) | (refine good_fst (by assumption) ?_)) | (extract_lets +onlyGivenNames x; first | (suffices hx : Good pd x from ?_; (on_goal 1 => clear_value x); (on_goal 2 => simp only [x])) | skip) | split | simp only [id_eq] | simp only [good_mk])

theorem keep_qpSignal {pd : List Instr × Prop × Prop} {s : State} {port : Bool} {pair : Nat} (h_s : Good pd s) :
    Good pd (qpSignal s port pair) := by
  unfold qpSignal
  repeat' (first | with_reducible (first | assumption | apply good_of | (intro _) | apply keep_modQp | apply keep_hostSend | apply good_ite | (refine good_snd (by assumption) ?_) | (refine good_fst (by assumption) ?_)) | (extract_lets +onlyGivenNames x; first | (suffices hx : Good pd x from ?_; (on_goal 1 => clear_value x); (on_goal 2 => simp only [x])) | skip) | split | simp only [id_eq] | simp only [good_mk])

theorem keep_writeEntry {pd : List Instr × Prop × Prop} {s : State} {port : Bool} {pair : Nat} {head : Nat} {status : Nat} {kind : Nat} {result : List Byte} (h_s : Good pd s) :
    Good pd (writeEntry s port pair head status kind result) := by
  unfold writeEntry
  repeat' (first | with_reducible (first | assumption | apply good_of | (intro _) | apply keep_modQp | apply keep_hostSend | apply keep_qpSignal | apply good_ite | (refine good_snd (by assumption) ?_) | (refine good_fst (by assumption) ?_)) | (extract_lets +onlyGivenNames x; first | (suffices hx : Good pd x from ?_; (on_goal 1 => clear_value x); (on_goal 2 => simp only [x])) | skip) | split | simp only [id_eq] | simp only [good_mk])

theorem keep_tokenDrop {pd : List Instr × Prop × Prop} {s : State} {port : Bool} {stream : Nat} {cause : Nat} (h_s : Good pd s) :
    Good pd (tokenDrop s port stream cause) := by
  unfold tokenDrop
  repeat' (first | with_reducible (first | assumption | apply good_of | (intro _) | apply keep_raiseEvent | apply good_ite | (refine good_snd (by assumption) ?_) | (refine good_fst (by assumption) ?_)) | (extract_lets +onlyGivenNames x; first | (suffices hx : Good pd x from ?_; (on_goal 1 => clear_value x); (on_goal 2 => simp only [x])) | skip) | split | simp only [id_eq] | simp only [good_mk])

theorem keep_issueReads {pd : List Instr × Prop × Prop} {s : State} {port : Bool} (h_s : Good pd s) :
    Good pd (issueReads s port) := by
  unfold issueReads
  repeat' (first | with_reducible (first | assumption | apply good_of | (intro _) | apply keep_modHp | apply keep_modStream | apply keep_forEach | apply good_ite | (refine good_snd (by assumption) ?_) | (refine good_fst (by assumption) ?_)) | (extract_lets +onlyGivenNames x; first | (suffices hx : Good pd x from ?_; (on_goal 1 => clear_value x); (on_goal 2 => simp only [x])) | skip) | split | simp only [id_eq] | simp only [good_mk])

theorem keep_complete {pd : List Instr × Prop × Prop} {s : State} {i : Issuer} {status : Nat} {result : optParam (List Byte) []} (h_s : Good pd s) :
    Good pd (complete s i status result) := by
  unfold complete
  repeat' (first | with_reducible (first | assumption | apply good_of | (intro _) | apply keep_modHp | apply keep_modQp | apply keep_sendMessage | apply keep_writeEntry | apply keep_tokenDrop | apply good_ite | (refine good_snd (by assumption) ?_) | (refine good_fst (by assumption) ?_)) | (extract_lets +onlyGivenNames x; first | (suffices hx : Good pd x from ?_; (on_goal 1 => clear_value x); (on_goal 2 => simp only [x])) | skip) | split | simp only [id_eq] | simp only [good_mk])

theorem keep_deliver {pd : List Instr × Prop × Prop} {s : State} {port : Bool} {pair : Nat} {stream : Nat} {status : Nat} {kind : Nat} {result : List Byte} (h_s : Good pd s) :
    Good pd (deliver s port pair stream status kind result) := by
  unfold deliver
  repeat' (first | with_reducible (first | assumption | apply good_of | (intro _) | apply keep_sendMessage | apply keep_qpError | apply keep_writeEntry | apply keep_tokenDrop | apply good_ite | (refine good_snd (by assumption) ?_) | (refine good_fst (by assumption) ?_)) | (extract_lets +onlyGivenNames x; first | (suffices hx : Good pd x from ?_; (on_goal 1 => clear_value x); (on_goal 2 => simp only [x])) | skip) | split | simp only [id_eq] | simp only [good_mk])

theorem keep_shareOwner {pd : List Instr × Prop × Prop} {s : State} {o : Nat} (h_s : Good pd s) :
    Good pd (shareOwner s o) := by
  unfold shareOwner
  repeat' (first | with_reducible (first | assumption | apply good_of | (intro _) | apply keep_broadcast | apply good_ite | (refine good_snd (by assumption) ?_) | (refine good_fst (by assumption) ?_)) | (extract_lets +onlyGivenNames x; first | (suffices hx : Good pd x from ?_; (on_goal 1 => clear_value x); (on_goal 2 => simp only [x])) | skip) | split | simp only [id_eq] | simp only [good_mk])

theorem keep_fnWrite {pd : List Instr × Prop × Prop} {s : State} {port : Bool} {key : Nat} {addr : Nat} {bytes : List Byte} (h_s : Good pd s) :
    Good pd (fnWrite s port key addr bytes) := by
  unfold fnWrite
  repeat' (first | with_reducible (first | assumption | apply good_of | (intro _) | apply keep_hostSend | apply keep_sendMessage | apply good_ite | (refine good_snd (by assumption) ?_) | (refine good_fst (by assumption) ?_)) | (extract_lets +onlyGivenNames x; first | (suffices hx : Good pd x from ?_; (on_goal 1 => clear_value x); (on_goal 2 => simp only [x])) | skip) | split | simp only [id_eq] | simp only [good_mk])

theorem keep_issuerWrite {pd : List Instr × Prop × Prop} {s : State} {i : Issuer} {addr : Nat} {bytes : List Byte} (h_s : Good pd s) :
    Good pd (issuerWrite s i addr bytes) := by
  unfold issuerWrite
  repeat' (first | with_reducible (first | assumption | apply good_of | (intro _) | apply keep_hostSend | apply keep_fnWrite | apply good_ite | (refine good_snd (by assumption) ?_) | (refine good_fst (by assumption) ?_)) | (extract_lets +onlyGivenNames x; first | (suffices hx : Good pd x from ?_; (on_goal 1 => clear_value x); (on_goal 2 => simp only [x])) | skip) | split | simp only [id_eq] | simp only [good_mk])

theorem keep_dropAperture {pd : List Instr × Prop × Prop} {s : State} {o : Nat} {port : Bool} {fn : Nat} (h_s : Good pd s) :
    Good pd (dropAperture s o port fn) := by
  unfold dropAperture
  repeat' (first | with_reducible (first | assumption | apply good_of | (intro _) | apply keep_modFn | apply good_ite | (refine good_snd (by assumption) ?_) | (refine good_fst (by assumption) ?_)) | (extract_lets +onlyGivenNames x; first | (suffices hx : Good pd x from ?_; (on_goal 1 => clear_value x); (on_goal 2 => simp only [x])) | skip) | split | simp only [id_eq] | simp only [good_mk])

theorem keep_dropApertures {pd : List Instr × Prop × Prop} {s : State} {o : Nat} (h_s : Good pd s) :
    Good pd (dropApertures s o) := by
  unfold dropApertures
  repeat' (first | with_reducible (first | assumption | apply good_of | (intro _) | apply keep_forEach | apply keep_dropAperture | apply good_ite | (refine good_snd (by assumption) ?_) | (refine good_fst (by assumption) ?_)) | (extract_lets +onlyGivenNames x; first | (suffices hx : Good pd x from ?_; (on_goal 1 => clear_value x); (on_goal 2 => simp only [x])) | skip) | split | simp only [id_eq] | simp only [good_mk])

theorem keep_wantClose {pd : List Instr × Prop × Prop} {s : State} {sid : Nat} {how : Nat} (h_s : Good pd s) :
    Good pd (wantClose s sid how) := by
  unfold wantClose
  repeat' (first | with_reducible (first | assumption | apply good_of | (intro _) | apply keep_modStream | apply good_ite | (refine good_snd (by assumption) ?_) | (refine good_fst (by assumption) ?_)) | (extract_lets +onlyGivenNames x; first | (suffices hx : Good pd x from ?_; (on_goal 1 => clear_value x); (on_goal 2 => simp only [x])) | skip) | split | simp only [id_eq] | simp only [good_mk])

theorem keep_freePool {pd : List Instr × Prop × Prop} {s : State} {n : Nat} (h_s : Good pd s) :
    Good pd (freePool s n) := by
  unfold freePool
  repeat' (first | with_reducible (first | assumption | apply good_of | (intro _) | apply good_ite | (refine good_snd (by assumption) ?_) | (refine good_fst (by assumption) ?_)) | (extract_lets +onlyGivenNames x; first | (suffices hx : Good pd x from ?_; (on_goal 1 => clear_value x); (on_goal 2 => simp only [x])) | skip) | split | simp only [id_eq] | simp only [good_mk])

theorem keep_completeWaits {pd : List Instr × Prop × Prop} {s : State} {sid : Nat} {k : Nat} {status : Nat} {result : List Byte} (h_s : Good pd s) :
    Good pd (completeWaits s sid k status result) := by
  unfold completeWaits
  repeat' (first | with_reducible (first | assumption | apply good_of | (intro _) | apply keep_modStream | apply keep_forEach | apply keep_complete | apply good_ite | (refine good_snd (by assumption) ?_) | (refine good_fst (by assumption) ?_)) | (extract_lets +onlyGivenNames x; first | (suffices hx : Good pd x from ?_; (on_goal 1 => clear_value x); (on_goal 2 => simp only [x])) | skip) | split | simp only [id_eq] | simp only [good_mk])

theorem keep_dropPauseKey {pd : List Instr × Prop × Prop} {s : State} {sid : Nat} (h_s : Good pd s) :
    Good pd (dropPauseKey s sid) := by
  unfold dropPauseKey
  repeat' (first | with_reducible (first | assumption | apply good_of | (intro _) | apply keep_broadcast | apply good_ite | (refine good_snd (by assumption) ?_) | (refine good_fst (by assumption) ?_)) | (extract_lets +onlyGivenNames x; first | (suffices hx : Good pd x from ?_; (on_goal 1 => clear_value x); (on_goal 2 => simp only [x])) | skip) | split | simp only [id_eq] | simp only [good_mk])

theorem keep_finishClose {pd : List Instr × Prop × Prop} {s : State} {sid : Nat} (h_s : Good pd s) :
    Good pd (finishClose s sid) := by
  unfold finishClose
  repeat' (first | with_reducible (first | assumption | apply good_of | (intro _) | apply keep_modStream | apply keep_draw | apply keep_deliver | apply keep_freePool | apply keep_completeWaits | apply keep_dropPauseKey | apply good_ite | (refine good_snd (by assumption) ?_) | (refine good_fst (by assumption) ?_)) | (extract_lets +onlyGivenNames x; first | (suffices hx : Good pd x from ?_; (on_goal 1 => clear_value x); (on_goal 2 => simp only [x])) | skip) | split | simp only [id_eq] | simp only [good_mk])

theorem keep_orderDestroy {pd : List Instr × Prop × Prop} {s : State} {o : Nat} {cause : Nat} {ownPair : Option (Bool × Nat)} (h_s : Good pd s) :
    Good pd (orderDestroy s o cause ownPair) := by
  unfold orderDestroy
  repeat' (first | with_reducible (first | assumption | apply good_of | (intro _) | apply keep_modOwner | apply keep_modSlot | apply keep_forEach | apply keep_broadcast | apply keep_wantClose | apply good_ite | (refine good_snd (by assumption) ?_) | (refine good_fst (by assumption) ?_)) | (extract_lets +onlyGivenNames x; first | (suffices hx : Good pd x from ?_; (on_goal 1 => clear_value x); (on_goal 2 => simp only [x])) | skip) | split | simp only [id_eq] | simp only [good_mk])

theorem keep_dropPageOwner {pd : List Instr × Prop × Prop} {s : State} {o : Nat} (h_s : Good pd s) : Good pd (dropPageOwner s o) := by
  unfold dropPageOwner
  rw [good_mk]
  have h := goodFields_iff.1 (good_of h_s)
  refine goodFields_iff.2 ⟨h.1, h.2.1, fun hF => ?_⟩
  obtain ⟨h3, h4, h5, h6⟩ := h.2.2 hF
  refine ⟨h3, fun z hz => ?_, h5, tblWf_map h6 _⟩
  rcases h4 z hz with h | h
  · exact Or.inl h
  · right
    rw [tblGet_map h6 _ (fun _ => by simp)]
    split <;> exact h

theorem keep_removeSeals {pd : List Instr × Prop × Prop} {s : State} {o : Nat} (h_s : Good pd s) :
    Good pd (removeSeals s o) := by
  unfold removeSeals
  repeat' (first | with_reducible (first | assumption | apply good_of | (intro _) | apply good_ite | (refine good_snd (by assumption) ?_) | (refine good_fst (by assumption) ?_)) | (extract_lets +onlyGivenNames x; first | (suffices hx : Good pd x from ?_; (on_goal 1 => clear_value x); (on_goal 2 => simp only [x])) | skip) | split | simp only [id_eq] | simp only [good_mk])

theorem keep_fenceExtents {pd : List Instr × Prop × Prop} {s : State} {lo : Nat} {hi : Nat} {h : Nat} (h_s : Good pd s) :
    Good pd (fenceExtents s lo hi h) := by
  unfold fenceExtents
  repeat' (first | with_reducible (first | assumption | apply good_of | (intro _) | apply keep_forEach | apply keep_raiseEvent | apply good_ite | (refine good_snd (by assumption) ?_) | (refine good_fst (by assumption) ?_)) | (extract_lets +onlyGivenNames x; first | (suffices hx : Good pd x from ?_; (on_goal 1 => clear_value x); (on_goal 2 => simp only [x])) | skip) | split | simp only [id_eq] | simp only [good_mk])

theorem keep_unbindOwner {pd : List Instr × Prop × Prop} {s : State} {o : Nat} (h_s : Good pd s) :
    Good pd (unbindOwner s o) := by
  unfold unbindOwner
  repeat' (first | with_reducible (first | assumption | apply good_of | (intro _) | apply good_ite | (refine good_snd (by assumption) ?_) | (refine good_fst (by assumption) ?_)) | (extract_lets +onlyGivenNames x; first | (suffices hx : Good pd x from ?_; (on_goal 1 => clear_value x); (on_goal 2 => simp only [x])) | skip) | split | simp only [id_eq] | simp only [good_mk])

theorem keep_destroyKey {pd : List Instr × Prop × Prop} {s : State} {o : Nat} {cause : Nat} (h_s : Good pd s) :
    Good pd (destroyKey s o cause) := by
  unfold destroyKey
  repeat' (first | with_reducible (first | assumption | apply good_of | (intro _) | apply keep_setOwner | apply keep_modSlot | apply keep_raiseEvent | apply keep_complete | apply keep_dropApertures | apply keep_dropPageOwner | apply keep_removeSeals | apply keep_fenceExtents | apply keep_unbindOwner | apply good_ite | (refine good_snd (by assumption) ?_) | (refine good_fst (by assumption) ?_)) | (extract_lets +onlyGivenNames x; first | (suffices hx : Good pd x from ?_; (on_goal 1 => clear_value x); (on_goal 2 => simp only [x])) | skip) | split | simp only [id_eq] | simp only [good_mk])

theorem keep_modFrame {pd : List Instr × Prop × Prop} {s : State} {f : Nat} {g : Frame → Frame} (h_s : Good pd s) :
    Good pd (modFrame s f g) := by
  unfold modFrame
  repeat' (first | with_reducible (first | assumption | apply good_of | (intro _) | apply good_ite | (refine good_snd (by assumption) ?_) | (refine good_fst (by assumption) ?_)) | (extract_lets +onlyGivenNames x; first | (suffices hx : Good pd x from ?_; (on_goal 1 => clear_value x); (on_goal 2 => simp only [x])) | skip) | split | simp only [id_eq] | simp only [good_mk])

theorem keep_addRef {pd : List Instr × Prop × Prop} {s : State} {f : Nat} (h_s : Good pd s) :
    Good pd (addRef s f) := by
  unfold addRef
  repeat' (first | with_reducible (first | assumption | apply good_of | (intro _) | apply keep_modFrame | apply good_ite | (refine good_snd (by assumption) ?_) | (refine good_fst (by assumption) ?_)) | (extract_lets +onlyGivenNames x; first | (suffices hx : Good pd x from ?_; (on_goal 1 => clear_value x); (on_goal 2 => simp only [x])) | skip) | split | simp only [id_eq] | simp only [good_mk])

theorem keep_dropRef {pd : List Instr × Prop × Prop} {s : State} {f : Nat} (h_s : Good pd s) :
    Good pd (dropRef s f) := by
  unfold dropRef
  repeat' (first | with_reducible (first | assumption | apply good_of | (intro _) | apply keep_modFrame | apply good_ite | (refine good_snd (by assumption) ?_) | (refine good_fst (by assumption) ?_)) | (extract_lets +onlyGivenNames x; first | (suffices hx : Good pd x from ?_; (on_goal 1 => clear_value x); (on_goal 2 => simp only [x])) | skip) | split | simp only [id_eq] | simp only [good_mk])

theorem keep_stepReferStream {pd : List Instr × Prop × Prop} {s : State} {sid : Nat} (h_s : Good pd s) :
    Good pd (stepReferStream s sid) := by
  unfold stepReferStream
  repeat' (first | with_reducible (first | assumption | apply good_of | (intro _) | apply keep_modStream | apply keep_forEach | apply keep_completeWaits | apply keep_addRef | apply good_ite | (refine good_snd (by assumption) ?_) | (refine good_fst (by assumption) ?_)) | (extract_lets +onlyGivenNames x; first | (suffices hx : Good pd x from ?_; (on_goal 1 => clear_value x); (on_goal 2 => simp only [x])) | skip) | split | simp only [id_eq] | simp only [good_mk])

theorem keep_stepRefer {pd : List Instr × Prop × Prop} {s : State} (h_s : Good pd s) :
    Good pd (stepRefer s) := by
  unfold stepRefer
  repeat' (first | with_reducible (first | assumption | apply good_of | (intro _) | apply keep_forEach | apply keep_stepReferStream | apply good_ite | (refine good_snd (by assumption) ?_) | (refine good_fst (by assumption) ?_)) | (extract_lets +onlyGivenNames x; first | (suffices hx : Good pd x from ?_; (on_goal 1 => clear_value x); (on_goal 2 => simp only [x])) | skip) | split | simp only [id_eq] | simp only [good_mk])

theorem keep_stepReleaseStream {pd : List Instr × Prop × Prop} {s : State} {sid : Nat} (h_s : Good pd s) :
    Good pd (stepReleaseStream s sid) := by
  unfold stepReleaseStream
  repeat' (first | with_reducible (first | assumption | apply good_of | (intro _) | apply keep_modStream | apply keep_forEach | apply keep_completeWaits | apply keep_finishClose | apply keep_dropRef | apply good_ite | (refine good_snd (by assumption) ?_) | (refine good_fst (by assumption) ?_)) | (extract_lets +onlyGivenNames x; first | (suffices hx : Good pd x from ?_; (on_goal 1 => clear_value x); (on_goal 2 => simp only [x])) | skip) | split | simp only [id_eq] | simp only [good_mk])

theorem keep_stepRelease {pd : List Instr × Prop × Prop} {s : State} (h_s : Good pd s) :
    Good pd (stepRelease s) := by
  unfold stepRelease
  repeat' (first | with_reducible (first | assumption | apply good_of | (intro _) | apply keep_forEach | apply keep_stepReleaseStream | apply good_ite | (refine good_snd (by assumption) ?_) | (refine good_fst (by assumption) ?_)) | (extract_lets +onlyGivenNames x; first | (suffices hx : Good pd x from ?_; (on_goal 1 => clear_value x); (on_goal 2 => simp only [x])) | skip) | split | simp only [id_eq] | simp only [good_mk])

theorem keep_freeIds {pd : List Instr × Prop × Prop} {s : State} (h_s : Good pd s) :
    Good pd (freeIds s) := by
  unfold freeIds
  repeat' (first | with_reducible (first | assumption | apply good_of | (intro _) | apply keep_setOwner | apply keep_setStream | apply keep_forEach | apply good_ite | (refine good_snd (by assumption) ?_) | (refine good_fst (by assumption) ?_)) | (extract_lets +onlyGivenNames x; first | (suffices hx : Good pd x from ?_; (on_goal 1 => clear_value x); (on_goal 2 => simp only [x])) | skip) | split | simp only [id_eq] | simp only [good_mk])

theorem keep_markPch {pd : List Instr × Prop × Prop} {s : State} {a : Nat} (h_s : Good pd s) :
    Good pd (markPch s a) := by
  unfold markPch
  repeat' (first | with_reducible (first | assumption | apply good_of | (intro _) | apply keep_modSc | apply good_ite | (refine good_snd (by assumption) ?_) | (refine good_fst (by assumption) ?_)) | (extract_lets +onlyGivenNames x; first | (suffices hx : Good pd x from ?_; (on_goal 1 => clear_value x); (on_goal 2 => simp only [x])) | skip) | split | simp only [id_eq] | simp only [good_mk])

theorem keep_eccCorrected {pd : List Instr × Prop × Prop} {s : State} {w : Nat} (h_s : Good pd s) :
    Good pd (eccCorrected s w) := by
  unfold eccCorrected
  repeat' (first | with_reducible (first | assumption | apply good_of | (intro _) | apply keep_modSc | apply keep_markPch | apply good_ite | (refine good_snd (by assumption) ?_) | (refine good_fst (by assumption) ?_)) | (extract_lets +onlyGivenNames x; first | (suffices hx : Good pd x from ?_; (on_goal 1 => clear_value x); (on_goal 2 => simp only [x])) | skip) | split | simp only [id_eq] | simp only [good_mk])

theorem keep_eccEvent {pd : List Instr × Prop × Prop} {s : State} {w : Nat} {reader : Nat} {queue : Nat} (h_s : Good pd s) :
    Good pd (eccEvent s w reader queue) := by
  unfold eccEvent
  repeat' (first | with_reducible (first | assumption | apply good_of | (intro _) | apply keep_raiseEvent | apply good_ite | (refine good_snd (by assumption) ?_) | (refine good_fst (by assumption) ?_)) | (extract_lets +onlyGivenNames x; first | (suffices hx : Good pd x from ?_; (on_goal 1 => clear_value x); (on_goal 2 => simp only [x])) | skip) | split | simp only [id_eq] | simp only [good_mk])

theorem keep_eccPoisoned {pd : List Instr × Prop × Prop} {s : State} {w : Nat} {reader : Nat} {queue : Nat} (h_s : Good pd s) :
    Good pd (eccPoisoned s w reader queue) := by
  unfold eccPoisoned
  repeat' (first | with_reducible (first | assumption | apply good_of | (intro _) | apply keep_modSc | apply keep_markPch | apply keep_eccEvent | apply good_ite | (refine good_snd (by assumption) ?_) | (refine good_fst (by assumption) ?_)) | (extract_lets +onlyGivenNames x; first | (suffices hx : Good pd x from ?_; (on_goal 1 => clear_value x); (on_goal 2 => simp only [x])) | skip) | split | simp only [id_eq] | simp only [good_mk])

theorem keep_noteErrors {pd : List Instr × Prop × Prop} {s : State} {ecc : List (Nat × Bool)} (h_s : Good pd s) :
    Good pd (noteErrors s ecc) := by
  unfold noteErrors
  repeat' (first | with_reducible (first | assumption | apply good_of | (intro _) | apply good_ite | (refine good_snd (by assumption) ?_) | (refine good_fst (by assumption) ?_)) | (extract_lets +onlyGivenNames x; first | (suffices hx : Good pd x from ?_; (on_goal 1 => clear_value x); (on_goal 2 => simp only [x])) | skip) | split | simp only [id_eq] | simp only [good_mk])

theorem keep_eccRead {pd : List Instr × Prop × Prop} {s : State} {a : Nat} {n : Nat} {ecc : List (Nat × Bool)} {reader : Nat} {queue : Nat} (h_s : Good pd s) :
    Good pd (eccRead s a n ecc reader queue) := by
  unfold eccRead
  repeat' (first | with_reducible (first | assumption | apply good_of | (intro _) | apply keep_forEach | apply keep_eccCorrected | apply keep_eccPoisoned | apply keep_noteErrors | apply good_ite | (refine good_snd (by assumption) ?_) | (refine good_fst (by assumption) ?_)) | (extract_lets +onlyGivenNames x; first | (suffices hx : Good pd x from ?_; (on_goal 1 => clear_value x); (on_goal 2 => simp only [x])) | skip) | split | simp only [id_eq] | simp only [good_mk])

theorem keep_writeWord {pd : List Instr × Prop × Prop} {s : State} {k : Nat} {w : Nat} {p : Nat × List Byte} {queue : Nat} (h_s : Good pd s) :
    Good pd (writeWord s k w p queue) := by
  unfold writeWord
  repeat' (first | with_reducible (first | assumption | apply good_of | (intro _) | apply keep_mergeWord | apply keep_eccCorrected | apply keep_eccEvent | apply keep_eccPoisoned | apply good_ite | (refine good_snd (by assumption) ?_) | (refine good_fst (by assumption) ?_)) | (extract_lets +onlyGivenNames x; first | (suffices hx : Good pd x from ?_; (on_goal 1 => clear_value x); (on_goal 2 => simp only [x])) | skip) | split | simp only [id_eq] | simp only [good_mk])

theorem keep_writeUnder {pd : List Instr × Prop × Prop} {s : State} {k : Nat} {a : Nat} {bs : List Byte} {queue : Nat} (h_s : Good pd s) :
    Good pd (writeUnder s k a bs queue) := by
  unfold writeUnder
  repeat' (first | with_reducible (first | assumption | apply good_of | (intro _) | apply keep_forEach | apply keep_writeWord | apply good_ite | (refine good_snd (by assumption) ?_) | (refine good_fst (by assumption) ?_)) | (extract_lets +onlyGivenNames x; first | (suffices hx : Good pd x from ?_; (on_goal 1 => clear_value x); (on_goal 2 => simp only [x])) | skip) | split | simp only [id_eq] | simp only [good_mk])

theorem keep_copyBytes {pd : List Instr × Prop × Prop} {s : State} {key : Nat} {src : Nat} {dst : Nat} {n : Nat} (h_s : Good pd s) :
    Good pd (copyBytes s key src dst n) := by
  unfold copyBytes
  repeat' (first | with_reducible (first | assumption | apply good_of | (intro _) | apply keep_writeUnder | apply good_ite | (refine good_snd (by assumption) ?_) | (refine good_fst (by assumption) ?_)) | (extract_lets +onlyGivenNames x; first | (suffices hx : Good pd x from ?_; (on_goal 1 => clear_value x); (on_goal 2 => simp only [x])) | skip) | split | simp only [id_eq] | simp only [good_mk])

theorem keep_checkReserve {pd : List Instr × Prop × Prop} {s : State} {g : Nat} {was : Nat} (h_s : Good pd s) :
    Good pd (checkReserve s g was) := by
  unfold checkReserve
  repeat' (first | with_reducible (first | assumption | apply good_of | (intro _) | apply keep_raiseEvent | apply good_ite | (refine good_snd (by assumption) ?_) | (refine good_fst (by assumption) ?_)) | (extract_lets +onlyGivenNames x; first | (suffices hx : Good pd x from ?_; (on_goal 1 => clear_value x); (on_goal 2 => simp only [x])) | skip) | split | simp only [id_eq] | simp only [good_mk])

theorem keep_putMargin {pd : List Instr × Prop × Prop} {s : State} {m : Margin} (h_s : Good pd s) :
    Good pd (putMargin s m) := by
  unfold putMargin
  repeat' (first | with_reducible (first | assumption | apply good_of | (intro _) | apply keep_modTg | apply keep_forEach | apply keep_raiseEvent | apply good_ite | (refine good_snd (by assumption) ?_) | (refine good_fst (by assumption) ?_)) | (extract_lets +onlyGivenNames x; first | (suffices hx : Good pd x from ?_; (on_goal 1 => clear_value x); (on_goal 2 => simp only [x])) | skip) | split | simp only [id_eq] | simp only [good_mk])

theorem keep_marginEvent {pd : List Instr × Prop × Prop} {s : State} {cause : Nat} (h_s : Good pd s) :
    Good pd (marginEvent s cause) := by
  unfold marginEvent
  repeat' (first | with_reducible (first | assumption | apply good_of | (intro _) | apply keep_raiseEvent | apply good_ite | (refine good_snd (by assumption) ?_) | (refine good_fst (by assumption) ?_)) | (extract_lets +onlyGivenNames x; first | (suffices hx : Good pd x from ?_; (on_goal 1 => clear_value x); (on_goal 2 => simp only [x])) | skip) | split | simp only [id_eq] | simp only [good_mk])

theorem keep_startCal {pd : List Instr × Prop × Prop} {s : State} {g : Nat} {cause : Nat} (h_s : Good pd s) :
    Good pd (startCal s g cause) := by
  unfold startCal
  repeat' (first | with_reducible (first | assumption | apply good_of | (intro _) | apply keep_modTg | apply good_ite | (refine good_snd (by assumption) ?_) | (refine good_fst (by assumption) ?_)) | (extract_lets +onlyGivenNames x; first | (suffices hx : Good pd x from ?_; (on_goal 1 => clear_value x); (on_goal 2 => simp only [x])) | skip) | split | simp only [id_eq] | simp only [good_mk])

theorem keep_startTileCal {pd : List Instr × Prop × Prop} {s : State} {i : Nat} (h_s : Good pd s) :
    Good pd (startTileCal s i) := by
  unfold startTileCal
  repeat' (first | with_reducible (first | assumption | apply good_of | (intro _) | apply keep_modTg | apply keep_modTile | apply good_ite | (refine good_snd (by assumption) ?_) | (refine good_fst (by assumption) ?_)) | (extract_lets +onlyGivenNames x; first | (suffices hx : Good pd x from ?_; (on_goal 1 => clear_value x); (on_goal 2 => simp only [x])) | skip) | split | simp only [id_eq] | simp only [good_mk])

theorem keep_applyBaselines {pd : List Instr × Prop × Prop} {s : State} {i : Nat} {b : List Word32} (h_s : Good pd s) :
    Good pd (applyBaselines s i b) := by
  unfold applyBaselines
  repeat' (first | with_reducible (first | assumption | apply good_of | (intro _) | apply keep_modTile | apply good_ite | (refine good_snd (by assumption) ?_) | (refine good_fst (by assumption) ?_)) | (extract_lets +onlyGivenNames x; first | (suffices hx : Good pd x from ?_; (on_goal 1 => clear_value x); (on_goal 2 => simp only [x])) | skip) | split | simp only [id_eq] | simp only [good_mk])

theorem keep_applyTrims {pd : List Instr × Prop × Prop} {s : State} {g : Nat} (h_s : Good pd s) :
    Good pd (applyTrims s g) := by
  unfold applyTrims
  repeat' (first | with_reducible (first | assumption | apply good_of | (intro _) | apply keep_forEach | apply keep_applyBaselines | apply good_ite | (refine good_snd (by assumption) ?_) | (refine good_fst (by assumption) ?_)) | (extract_lets +onlyGivenNames x; first | (suffices hx : Good pd x from ?_; (on_goal 1 => clear_value x); (on_goal 2 => simp only [x])) | skip) | split | simp only [id_eq] | simp only [good_mk])

theorem keep_convDead {pd : List Instr × Prop × Prop} {s : State} {i : Nat} {conv : Nat} {detection : Nat} (h_s : Good pd s) :
    Good pd (convDead s i conv detection) := by
  unfold convDead
  repeat' (first | with_reducible (first | assumption | apply good_of | (intro _) | apply keep_modTile | apply keep_raiseEvent | apply good_ite | (refine good_snd (by assumption) ?_) | (refine good_fst (by assumption) ?_)) | (extract_lets +onlyGivenNames x; first | (suffices hx : Good pd x from ?_; (on_goal 1 => clear_value x); (on_goal 2 => simp only [x])) | skip) | split | simp only [id_eq] | simp only [good_mk])

theorem keep_finishTileCal {pd : List Instr × Prop × Prop} {s : State} {i : Nat} (h_s : Good pd s) :
    Good pd (finishTileCal s i) := by
  unfold finishTileCal
  repeat' (first | with_reducible (first | assumption | apply good_of | (intro _) | apply keep_modTile | apply keep_applyBaselines | apply good_ite | (refine good_snd (by assumption) ?_) | (refine good_fst (by assumption) ?_)) | (extract_lets +onlyGivenNames x; first | (suffices hx : Good pd x from ?_; (on_goal 1 => clear_value x); (on_goal 2 => simp only [x])) | skip) | split | simp only [id_eq] | simp only [good_mk])

theorem keep_recheckDue {pd : List Instr × Prop × Prop} {s : State} {g : Nat} (h_s : Good pd s) :
    Good pd (recheckDue s g) := by
  unfold recheckDue
  repeat' (first | with_reducible (first | assumption | apply good_of | (intro _) | apply keep_modTg | apply good_ite | (refine good_snd (by assumption) ?_) | (refine good_fst (by assumption) ?_)) | (extract_lets +onlyGivenNames x; first | (suffices hx : Good pd x from ?_; (on_goal 1 => clear_value x); (on_goal 2 => simp only [x])) | skip) | split | simp only [id_eq] | simp only [good_mk])

theorem keep_noteDrift {pd : List Instr × Prop × Prop} {s : State} (h_s : Good pd s) :
    Good pd (noteDrift s) := by
  unfold noteDrift
  repeat' (first | with_reducible (first | assumption | apply good_of | (intro _) | apply good_ite | (refine good_snd (by assumption) ?_) | (refine good_fst (by assumption) ?_)) | (extract_lets +onlyGivenNames x; first | (suffices hx : Good pd x from ?_; (on_goal 1 => clear_value x); (on_goal 2 => simp only [x])) | skip) | split | simp only [id_eq] | simp only [good_mk])

theorem keep_finishGroupCal {pd : List Instr × Prop × Prop} {s : State} {g : Nat} (h_s : Good pd s) :
    Good pd (finishGroupCal s g) := by
  unfold finishGroupCal
  repeat' (first | with_reducible (first | assumption | apply good_of | (intro _) | apply keep_modTg | apply keep_forEach | apply keep_raiseEvent | apply keep_startCal | apply keep_finishTileCal | apply keep_noteDrift | apply good_ite | (refine good_snd (by assumption) ?_) | (refine good_fst (by assumption) ?_)) | (extract_lets +onlyGivenNames x; first | (suffices hx : Good pd x from ?_; (on_goal 1 => clear_value x); (on_goal 2 => simp only [x])) | skip) | split | simp only [id_eq] | simp only [good_mk])

theorem keep_startSelfcal {pd : List Instr × Prop × Prop} {s : State} (h_s : Good pd s) :
    Good pd (startSelfcal s) := by
  unfold startSelfcal
  repeat' (first | with_reducible (first | assumption | apply good_of | (intro _) | apply good_ite | (refine good_snd (by assumption) ?_) | (refine good_fst (by assumption) ?_)) | (extract_lets +onlyGivenNames x; first | (suffices hx : Good pd x from ?_; (on_goal 1 => clear_value x); (on_goal 2 => simp only [x])) | skip) | split | simp only [id_eq] | simp only [good_mk])

theorem keep_countCycle {pd : List Instr × Prop × Prop} {s : State} {i : Nat} (h_s : Good pd s) :
    Good pd (countCycle s i) := by
  unfold countCycle
  repeat' (first | with_reducible (first | assumption | apply good_of | (intro _) | apply keep_modTile | apply keep_raiseEvent | apply good_ite | (refine good_snd (by assumption) ?_) | (refine good_fst (by assumption) ?_)) | (extract_lets +onlyGivenNames x; first | (suffices hx : Good pd x from ?_; (on_goal 1 => clear_value x); (on_goal 2 => simp only [x])) | skip) | split | simp only [id_eq] | simp only [good_mk])

theorem keep_eraseTile {pd : List Instr × Prop × Prop} {s : State} {i : Nat} (h_s : Good pd s) :
    Good pd (eraseTile s i) := by
  unfold eraseTile
  repeat' (first | with_reducible (first | assumption | apply good_of | (intro _) | apply keep_modTile | apply keep_countCycle | apply good_ite | (refine good_snd (by assumption) ?_) | (refine good_fst (by assumption) ?_)) | (extract_lets +onlyGivenNames x; first | (suffices hx : Good pd x from ?_; (on_goal 1 => clear_value x); (on_goal 2 => simp only [x])) | skip) | split | simp only [id_eq] | simp only [good_mk])

theorem keep_setRelief {pd : List Instr × Prop × Prop} {s : State} {g : Nat} {j : Nat} {r : ReliefReg} {tileState : Nat} (h_s : Good pd s) :
    Good pd (setRelief s g j r tileState) := by
  unfold setRelief
  repeat' (first | with_reducible (first | assumption | apply good_of | (intro _) | apply keep_modTg | apply keep_modTile | apply good_ite | (refine good_snd (by assumption) ?_) | (refine good_fst (by assumption) ?_)) | (extract_lets +onlyGivenNames x; first | (suffices hx : Good pd x from ?_; (on_goal 1 => clear_value x); (on_goal 2 => simp only [x])) | skip) | split | simp only [id_eq] | simp only [good_mk])

theorem keep_showProg {pd : List Instr × Prop × Prop} {s : State} {g : Nat} (h_s : Good pd s) :
    Good pd (showProg s g) := by
  unfold showProg
  repeat' (first | with_reducible (first | assumption | apply good_of | (intro _) | apply keep_modTg | apply good_ite | (refine good_snd (by assumption) ?_) | (refine good_fst (by assumption) ?_)) | (extract_lets +onlyGivenNames x; first | (suffices hx : Good pd x from ?_; (on_goal 1 => clear_value x); (on_goal 2 => simp only [x])) | skip) | split | simp only [id_eq] | simp only [good_mk])

theorem keep_freeHeld {pd : List Instr × Prop × Prop} {s : State} {i : Nat} (h_s : Good pd s) :
    Good pd (freeHeld s i) := by
  unfold freeHeld
  repeat' (first | with_reducible (first | assumption | apply good_of | (intro _) | apply keep_modTile | apply keep_recheckDue | apply keep_showProg | apply good_ite | (refine good_snd (by assumption) ?_) | (refine good_fst (by assumption) ?_)) | (extract_lets +onlyGivenNames x; first | (suffices hx : Good pd x from ?_; (on_goal 1 => clear_value x); (on_goal 2 => simp only [x])) | skip) | split | simp only [id_eq] | simp only [good_mk])

theorem keep_setAssayResult {pd : List Instr × Prop × Prop} {s : State} {code : Nat} {exceed : Nat} {checked : Nat} (h_s : Good pd s) :
    Good pd (setAssayResult s code exceed checked) := by
  unfold setAssayResult
  repeat' (first | with_reducible (first | assumption | apply good_of | (intro _) | apply good_ite | (refine good_snd (by assumption) ?_) | (refine good_fst (by assumption) ?_)) | (extract_lets +onlyGivenNames x; first | (suffices hx : Good pd x from ?_; (on_goal 1 => clear_value x); (on_goal 2 => simp only [x])) | skip) | split | simp only [id_eq] | simp only [good_mk])

theorem keep_endAssay {pd : List Instr × Prop × Prop} {s : State} {code : Nat} {exceed : Nat} {checked : Nat} (h_s : Good pd s) :
    Good pd (endAssay s code exceed checked) := by
  unfold endAssay
  repeat' (first | with_reducible (first | assumption | apply good_of | (intro _) | apply keep_freeHeld | apply keep_setAssayResult | apply good_ite | (refine good_snd (by assumption) ?_) | (refine good_fst (by assumption) ?_)) | (extract_lets +onlyGivenNames x; first | (suffices hx : Good pd x from ?_; (on_goal 1 => clear_value x); (on_goal 2 => simp only [x])) | skip) | split | simp only [id_eq] | simp only [good_mk])

theorem keep_reportAssay {pd : List Instr × Prop × Prop} {s : State} {a : Assay} {fail : Bool} (h_s : Good pd s) :
    Good pd (reportAssay s a fail) := by
  unfold reportAssay
  repeat' (first | with_reducible (first | assumption | apply good_of | (intro _) | apply keep_raiseEvent | apply good_ite | (refine good_snd (by assumption) ?_) | (refine good_fst (by assumption) ?_)) | (extract_lets +onlyGivenNames x; first | (suffices hx : Good pd x from ?_; (on_goal 1 => clear_value x); (on_goal 2 => simp only [x])) | skip) | split | simp only [id_eq] | simp only [good_mk])

theorem keep_command {pd : List Instr × Prop × Prop} {i : Issuer} {op : Nat} {params : List Nat} {s : State} {body : State → State} (h_s : Good pd s) (h_body : ∀ x0, Good pd x0 → Good pd (body x0)) :
    OutGood pd (command i op params s body) := by
  unfold command
  show Good pd _
  repeat' (first | with_reducible (first | assumption | apply good_of | (intro _) | apply keep_sendMessage | apply keep_complete | apply keep_raiseEvent | apply h_body | apply good_ite | (refine good_snd (by assumption) ?_) | (refine good_fst (by assumption) ?_)) | (extract_lets +onlyGivenNames x; first | (suffices hx : Good pd x from ?_; (on_goal 1 => clear_value x); (on_goal 2 => simp only [x])) | skip) | split | simp only [id_eq] | simp only [good_mk])

theorem keep_modFetched {pd : List Instr × Prop × Prop} {s : State} {i : Issuer} {g : Fetched → Fetched} (h_s : Good pd s) :
    Good pd (modFetched s i g) := by
  unfold modFetched
  repeat' (first | with_reducible (first | assumption | apply good_of | (intro _) | apply keep_modHp | apply good_ite | (refine good_snd (by assumption) ?_) | (refine good_fst (by assumption) ?_)) | (extract_lets +onlyGivenNames x; first | (suffices hx : Good pd x from ?_; (on_goal 1 => clear_value x); (on_goal 2 => simp only [x])) | skip) | split | simp only [id_eq] | simp only [good_mk])

theorem keep_sendOn {pd : List Instr × Prop × Prop} {s : State} {i : Issuer} {dst : Nat} {kind : Nat} {op : Nat} {params : List Nat} (h_s : Good pd s) :
    Good pd (sendOn s i dst kind op params) := by
  unfold sendOn
  repeat' (first | with_reducible (first | assumption | apply good_of | (intro _) | apply keep_sendMessage | apply keep_modFetched | apply good_ite | (refine good_snd (by assumption) ?_) | (refine good_fst (by assumption) ?_)) | (extract_lets +onlyGivenNames x; first | (suffices hx : Good pd x from ?_; (on_goal 1 => clear_value x); (on_goal 2 => simp only [x])) | skip) | split | simp only [id_eq] | simp only [good_mk])

theorem keep_headCommand {pd : List Instr × Prop × Prop} {i : Issuer} {op : Nat} {params : List Nat} {s : State} {body : State → State} {refused : optParam (State → Option Nat) fun x => none} (h_s : Good pd s) (h_body : ∀ x0, Good pd x0 → Good pd (body x0)) :
    OutGood pd (headCommand i op params s body refused) := by
  unfold headCommand
  show Good pd _
  repeat' (first | with_reducible (first | assumption | apply good_of | (intro _) | apply keep_complete | apply keep_command | apply keep_sendOn | apply keep_sendMessage | apply keep_raiseEvent | apply keep_modFetched | apply h_body | apply good_ite | (refine good_snd (by assumption) ?_) | (refine good_fst (by assumption) ?_)) | (extract_lets +onlyGivenNames x; first | (suffices hx : Good pd x from ?_; (on_goal 1 => clear_value x); (on_goal 2 => simp only [x])) | skip) | split | simp only [id_eq] | simp only [good_mk])

theorem keep_deviceCommand {pd : List Instr × Prop × Prop} {i : Issuer} {op : Nat} {params : List Nat} {s : State} {body : State → State}
    {refused : State → Option Nat} {onSend : State → State} (h_s : Good pd s) (h_body : ∀ x, Good pd x → Good pd (body x))
    (h_onSend : ∀ x, Good pd x → Good pd (onSend x)) : OutGood pd (deviceCommand i op params s body refused onSend) := by
  refine keep_command h_s (fun s h_s => good_ite (h_body s h_s) ?_)
  split
  · exact keep_complete h_s
  · exact keep_sendOn (h_onSend s h_s)

theorem keep_stage {pd : List Instr × Prop × Prop} {s : State} {i : Issuer} {cmd : Instr} {held : optParam Nat 0} (h_s : Good pd s) :
    Good pd (stage s i cmd held) := by
  unfold stage
  repeat' (first | with_reducible (first | assumption | apply good_of | (intro _) | apply good_ite | (refine good_snd (by assumption) ?_) | (refine good_fst (by assumption) ?_)) | (extract_lets +onlyGivenNames x; first | (suffices hx : Good pd x from ?_; (on_goal 1 => clear_value x); (on_goal 2 => simp only [x])) | skip) | split | simp only [id_eq] | simp only [good_mk])

theorem keep_boundaryCommand {pd : List Instr × Prop × Prop} {i : Issuer} {op : Nat} {cmd : Instr} {params : List Nat} {s : State} (h_s : Good pd s) :
    OutGood pd (boundaryCommand i op cmd params s) :=
  keep_headCommand h_s (fun _ h => keep_stage h)

theorem keep_orRefuse {pd : List Instr × Prop × Prop} {i : Issuer} {s : State} {c : Option Nat} {body : State → State} (h_s : Good pd s) (h_body : ∀ x0, Good pd x0 → Good pd (body x0)) :
    Good pd (orRefuse i s c body) := by
  unfold orRefuse
  repeat' (first | with_reducible (first | assumption | apply good_of | (intro _) | apply keep_complete | apply keep_sendMessage | apply keep_raiseEvent | apply keep_sendOn | apply keep_modFetched | apply keep_stage | apply h_body | apply good_ite | (refine good_snd (by assumption) ?_) | (refine good_fst (by assumption) ?_)) | (extract_lets +onlyGivenNames x; first | (suffices hx : Good pd x from ?_; (on_goal 1 => clear_value x); (on_goal 2 => simp only [x])) | skip) | split | simp only [id_eq] | simp only [good_mk])

theorem keep_execNopCommand {pd : List Instr × Prop × Prop} {i : Issuer} {s : State} (h_s : Good pd s) :
    OutGood pd (execNopCommand i s) := by
  unfold execNopCommand
  show Good pd _
  repeat' (first | with_reducible (first | assumption | apply good_of | (intro _) | apply keep_complete | apply keep_deviceCommand | apply keep_sendMessage | apply keep_raiseEvent | apply keep_sendOn | apply keep_modFetched | apply keep_stage | apply good_ite | (refine good_snd (by assumption) ?_) | (refine good_fst (by assumption) ?_)) | (extract_lets +onlyGivenNames x; first | (suffices hx : Good pd x from ?_; (on_goal 1 => clear_value x); (on_goal 2 => simp only [x])) | skip) | split | simp only [id_eq] | simp only [good_mk])

theorem keep_drbgRequest {pd : List Instr × Prop × Prop} {s : State} (h_s : Good pd s) :
    Good pd (drbgRequest s) := by
  unfold drbgRequest
  repeat' (first | with_reducible (first | assumption | apply good_of | (intro _) | apply good_ite | (refine good_snd (by assumption) ?_) | (refine good_fst (by assumption) ?_)) | (extract_lets +onlyGivenNames x; first | (suffices hx : Good pd x from ?_; (on_goal 1 => clear_value x); (on_goal 2 => simp only [x])) | skip) | split | simp only [id_eq] | simp only [good_mk])

theorem keep_fillSlot {pd : List Instr × Prop × Prop} {s : State} {o : Nat} {port : Bool} {digest : BitVec 128} (h_s : Good pd s) :
    Good pd (fillSlot s o port digest) := by
  unfold fillSlot
  repeat' (first | with_reducible (first | assumption | apply good_of | (intro _) | apply keep_modSlot | apply good_ite | (refine good_snd (by assumption) ?_) | (refine good_fst (by assumption) ?_)) | (extract_lets +onlyGivenNames x; first | (suffices hx : Good pd x from ?_; (on_goal 1 => clear_value x); (on_goal 2 => simp only [x])) | skip) | split | simp only [id_eq] | simp only [good_mk])

theorem keep_actOwnerCreate {pd : List Instr × Prop × Prop} {i : Issuer} {membersOk : Bool} {s : State} (h_s : Good pd s) :
    Good pd (actOwnerCreate i membersOk s) := by
  unfold actOwnerCreate
  repeat' (first | with_reducible (first | assumption | apply good_of | (intro _) | apply keep_setOwner | apply keep_draw | apply keep_broadcast | apply keep_raiseEvent | apply keep_complete | apply keep_shareOwner | apply keep_drbgRequest | apply keep_fillSlot | apply good_ite | (refine good_snd (by assumption) ?_) | (refine good_fst (by assumption) ?_)) | (extract_lets +onlyGivenNames x; first | (suffices hx : Good pd x from ?_; (on_goal 1 => clear_value x); (on_goal 2 => simp only [x])) | skip) | split | simp only [id_eq] | simp only [good_mk])

theorem keep_execOwnerCreate {pd : List Instr × Prop × Prop} {i : Issuer} {membersOk : Bool} {s : State} (h_s : Good pd s) :
    OutGood pd (execOwnerCreate i membersOk s) := keep_boundaryCommand h_s

theorem keep_actOwnerRelease {pd : List Instr × Prop × Prop} {i : Issuer} {owner : BitVec 8} {s : State} (h_s : Good pd s) :
    Good pd (actOwnerRelease i owner s) := by
  unfold actOwnerRelease
  repeat' (first | with_reducible (first | assumption | apply good_of | (intro _) | apply keep_modOwner | apply keep_complete | apply keep_orderDestroy | apply keep_orRefuse | apply keep_sendMessage | apply keep_raiseEvent | apply keep_sendOn | apply keep_modFetched | apply keep_stage | apply good_ite | (refine good_snd (by assumption) ?_) | (refine good_fst (by assumption) ?_)) | (extract_lets +onlyGivenNames x; first | (suffices hx : Good pd x from ?_; (on_goal 1 => clear_value x); (on_goal 2 => simp only [x])) | skip) | split | simp only [id_eq] | simp only [good_mk])

theorem keep_execOwnerRelease {pd : List Instr × Prop × Prop} {i : Issuer} {owner : BitVec 8} {s : State} (h_s : Good pd s) :
    OutGood pd (execOwnerRelease i owner s) := keep_boundaryCommand h_s

theorem keep_actOwnerLimits {pd : List Instr × Prop × Prop} {i : Issuer} {owner : BitVec 8} {genMode : BitVec 8} {promptMode : BitVec 8} {weight : BitVec 8} {fill : BitVec 8} {genRate : BitVec 32} {genCap : BitVec 32} {promptRate : BitVec 32} {promptCap : BitVec 32} {report : BitVec 64} {s : State} (h_s : Good pd s) :
    Good pd (actOwnerLimits i owner genMode promptMode weight fill genRate genCap promptRate promptCap report s) := by
  unfold actOwnerLimits
  repeat' (first | with_reducible (first | assumption | apply good_of | (intro _) | apply keep_setOwner | apply keep_complete | apply keep_issuerWrite | apply keep_orRefuse | apply keep_sendMessage | apply keep_raiseEvent | apply keep_sendOn | apply keep_modFetched | apply keep_stage | apply good_ite | (refine good_snd (by assumption) ?_) | (refine good_fst (by assumption) ?_)) | (extract_lets +onlyGivenNames x; first | (suffices hx : Good pd x from ?_; (on_goal 1 => clear_value x); (on_goal 2 => simp only [x])) | skip) | split | simp only [id_eq] | simp only [good_mk])

theorem keep_execOwnerLimits {pd : List Instr × Prop × Prop} {i : Issuer} {owner : BitVec 8} {genMode : BitVec 8} {promptMode : BitVec 8} {weight : BitVec 8} {fill : BitVec 8} {genRate : BitVec 32} {genCap : BitVec 32} {promptRate : BitVec 32} {promptCap : BitVec 32} {report : BitVec 64} {s : State} (h_s : Good pd s) :
    OutGood pd (execOwnerLimits i owner genMode promptMode weight fill genRate genCap promptRate promptCap report s) := keep_boundaryCommand h_s

theorem keep_actOwnerBind {pd : List Instr × Prop × Prop} {i : Issuer} {owner : BitVec 8} {target : BitVec 8} {s : State} (h_s : Good pd s) :
    Good pd (actOwnerBind i owner target s) := by
  unfold actOwnerBind
  repeat' (first | with_reducible (first | assumption | apply good_of | (intro _) | apply keep_modOwner | apply keep_complete | apply keep_shareOwner | apply keep_orRefuse | apply keep_sendMessage | apply keep_raiseEvent | apply keep_sendOn | apply keep_modFetched | apply keep_stage | apply good_ite | (refine good_snd (by assumption) ?_) | (refine good_fst (by assumption) ?_)) | (extract_lets +onlyGivenNames x; first | (suffices hx : Good pd x from ?_; (on_goal 1 => clear_value x); (on_goal 2 => simp only [x])) | skip) | split | simp only [id_eq] | simp only [good_mk])

theorem keep_execOwnerBind {pd : List Instr × Prop × Prop} {i : Issuer} {owner : BitVec 8} {target : BitVec 8} {s : State} (h_s : Good pd s) :
    OutGood pd (execOwnerBind i owner target s) := by
  unfold execOwnerBind
  show Good pd _
  repeat' (first | with_reducible (first | assumption | apply good_of | (intro _) | apply keep_headCommand | apply keep_stage | apply keep_actOwnerBind | apply keep_sendMessage | apply keep_complete | apply keep_raiseEvent | apply keep_sendOn | apply keep_modFetched | apply good_ite | (refine good_snd (by assumption) ?_) | (refine good_fst (by assumption) ?_)) | (extract_lets +onlyGivenNames x; first | (suffices hx : Good pd x from ?_; (on_goal 1 => clear_value x); (on_goal 2 => simp only [x])) | skip) | split | simp only [id_eq] | simp only [good_mk])

theorem keep_actOwnerUnbind {pd : List Instr × Prop × Prop} {i : Issuer} {owner : BitVec 8} {target : BitVec 8} {s : State} (h_s : Good pd s) :
    Good pd (actOwnerUnbind i owner target s) := by
  unfold actOwnerUnbind
  repeat' (first | with_reducible (first | assumption | apply good_of | (intro _) | apply keep_modOwner | apply keep_complete | apply keep_shareOwner | apply keep_dropAperture | apply keep_orRefuse | apply keep_sendMessage | apply keep_raiseEvent | apply keep_sendOn | apply keep_modFetched | apply keep_stage | apply good_ite | (refine good_snd (by assumption) ?_) | (refine good_fst (by assumption) ?_)) | (extract_lets +onlyGivenNames x; first | (suffices hx : Good pd x from ?_; (on_goal 1 => clear_value x); (on_goal 2 => simp only [x])) | skip) | split | simp only [id_eq] | simp only [good_mk])

theorem keep_execOwnerUnbind {pd : List Instr × Prop × Prop} {i : Issuer} {owner : BitVec 8} {target : BitVec 8} {s : State} (h_s : Good pd s) :
    OutGood pd (execOwnerUnbind i owner target s) := by
  unfold execOwnerUnbind
  show Good pd _
  repeat' (first | with_reducible (first | assumption | apply good_of | (intro _) | apply keep_headCommand | apply keep_stage | apply keep_actOwnerUnbind | apply keep_sendMessage | apply keep_complete | apply keep_raiseEvent | apply keep_sendOn | apply keep_modFetched | apply good_ite | (refine good_snd (by assumption) ?_) | (refine good_fst (by assumption) ?_)) | (extract_lets +onlyGivenNames x; first | (suffices hx : Good pd x from ?_; (on_goal 1 => clear_value x); (on_goal 2 => simp only [x])) | skip) | split | simp only [id_eq] | simp only [good_mk])

theorem keep_actOwnerReattach {pd : List Instr × Prop × Prop} {i : Issuer} {owner : BitVec 8} {token : BitVec 128} {s : State} (h_s : Good pd s) :
    Good pd (actOwnerReattach i owner token s) := by
  unfold actOwnerReattach
  repeat' (first | with_reducible (first | assumption | apply good_of | (intro _) | apply keep_modOwner | apply keep_modStream | apply keep_modSlot | apply keep_forEach | apply keep_raiseEvent | apply keep_complete | apply keep_shareOwner | apply good_ite | (refine good_snd (by assumption) ?_) | (refine good_fst (by assumption) ?_)) | (extract_lets +onlyGivenNames x; first | (suffices hx : Good pd x from ?_; (on_goal 1 => clear_value x); (on_goal 2 => simp only [x])) | skip) | split | simp only [id_eq] | simp only [good_mk])

theorem keep_execOwnerReattach {pd : List Instr × Prop × Prop} {i : Issuer} {owner : BitVec 8} {token : BitVec 128} {s : State} (h_s : Good pd s) :
    OutGood pd (execOwnerReattach i owner token s) := keep_boundaryCommand h_s

theorem keep_actSchedSet {pd : List Instr × Prop × Prop} {i : Issuer} {backfill : BitVec 8} {prefillShare : BitVec 8} {s : State} (h_s : Good pd s) :
    Good pd (actSchedSet i backfill prefillShare s) := by
  unfold actSchedSet
  repeat' (first | with_reducible (first | assumption | apply good_of | (intro _) | apply keep_complete | apply good_ite | (refine good_snd (by assumption) ?_) | (refine good_fst (by assumption) ?_)) | (extract_lets +onlyGivenNames x; first | (suffices hx : Good pd x from ?_; (on_goal 1 => clear_value x); (on_goal 2 => simp only [x])) | skip) | split | simp only [id_eq] | simp only [good_mk])

theorem keep_execSchedSet {pd : List Instr × Prop × Prop} {i : Issuer} {backfill : BitVec 8} {prefillShare : BitVec 8} {s : State} (h_s : Good pd s) :
    OutGood pd (execSchedSet i backfill prefillShare s) := by
  unfold execSchedSet
  show Good pd _
  repeat' (first | with_reducible (first | assumption | apply good_of | (intro _) | apply keep_complete | apply keep_command | apply keep_stage | apply keep_sendMessage | apply keep_raiseEvent | apply keep_sendOn | apply keep_modFetched | apply good_ite | (refine good_snd (by assumption) ?_) | (refine good_fst (by assumption) ?_)) | (extract_lets +onlyGivenNames x; first | (suffices hx : Good pd x from ?_; (on_goal 1 => clear_value x); (on_goal 2 => simp only [x])) | skip) | split | simp only [id_eq] | simp only [good_mk])

theorem keep_execRepairCtrl {pd : List Instr × Prop × Prop} {i : Issuer} {owner : BitVec 8} {enabled : Bool} {live : Bool} {s : State} (h_s : Good pd s) :
    OutGood pd (execRepairCtrl i owner enabled live s) := by
  unfold execRepairCtrl
  show Good pd _
  repeat' (first | with_reducible (first | assumption | apply good_of | (intro _) | apply keep_broadcast | apply keep_complete | apply keep_headCommand | apply keep_orRefuse | apply keep_sendMessage | apply keep_raiseEvent | apply keep_sendOn | apply keep_modFetched | apply keep_stage | apply good_ite | (refine good_snd (by assumption) ?_) | (refine good_fst (by assumption) ?_)) | (extract_lets +onlyGivenNames x; first | (suffices hx : Good pd x from ?_; (on_goal 1 => clear_value x); (on_goal 2 => simp only [x])) | skip) | split | simp only [id_eq] | simp only [good_mk])

theorem keep_execMembership {pd : List Instr × Prop × Prop} {i : Issuer} {buffer : BitVec 64} {size : BitVec 32} {s : State} (h_s : Good pd s) :
    OutGood pd (execMembership i buffer size s) := by
  unfold execMembership
  show Good pd _
  repeat' (first | with_reducible (first | assumption | apply good_of | (intro _) | apply keep_complete | apply keep_issuerWrite | apply keep_deviceCommand | apply keep_sendMessage | apply keep_raiseEvent | apply keep_sendOn | apply keep_modFetched | apply keep_stage | apply good_ite | (refine good_snd (by assumption) ?_) | (refine good_fst (by assumption) ?_)) | (extract_lets +onlyGivenNames x; first | (suffices hx : Good pd x from ?_; (on_goal 1 => clear_value x); (on_goal 2 => simp only [x])) | skip) | split | simp only [id_eq] | simp only [good_mk])

theorem keep_execFnQueues {pd : List Instr × Prop × Prop} {i : Issuer} {vf : BitVec 8} {mapEntry : BitVec 8} {map : Bool} {pair : BitVec 16} {s : State} (h_s : Good pd s) :
    OutGood pd (execFnQueues i vf mapEntry map pair s) := by
  unfold execFnQueues
  show Good pd _
  repeat' (first | with_reducible (first | assumption | apply good_of | (intro _) | apply keep_modFn | apply keep_modQp | apply keep_complete | apply keep_deviceCommand | apply keep_sendMessage | apply keep_raiseEvent | apply keep_sendOn | apply keep_modFetched | apply keep_stage | apply good_ite | (refine good_snd (by assumption) ?_) | (refine good_fst (by assumption) ?_)) | (extract_lets +onlyGivenNames x; first | (suffices hx : Good pd x from ?_; (on_goal 1 => clear_value x); (on_goal 2 => simp only [x])) | skip) | split | simp only [id_eq] | simp only [good_mk])

theorem keep_withSeed {pd : List Instr × Prop × Prop} {s : State} {c : Settings} (h_s : Good pd s) :
    Good pd (withSeed s c).2 := by
  unfold withSeed
  repeat' (first | with_reducible (first | assumption | apply good_of | (intro _) | apply keep_draw | apply keep_drbgRequest | apply good_ite | (refine good_snd (by assumption) ?_) | (refine good_fst (by assumption) ?_)) | (extract_lets +onlyGivenNames x; first | (suffices hx : Good pd x from ?_; (on_goal 1 => clear_value x); (on_goal 2 => simp only [x])) | skip) | split | simp only [id_eq] | simp only [good_mk])

theorem keep_actStreamOpen {pd : List Instr × Prop × Prop} {i : Issuer} {owner : BitVec 8} {settings : Option (List Byte)} {pair : BitVec 16} {s : State} (h_s : Good pd s) :
    Good pd (actStreamOpen i owner settings pair s) := by
  unfold actStreamOpen
  repeat' (first | with_reducible (first | assumption | apply good_of | (intro _) | apply keep_setStream | apply keep_complete | apply keep_orRefuse | apply keep_withSeed | apply keep_sendMessage | apply keep_raiseEvent | apply keep_sendOn | apply keep_modFetched | apply keep_stage | apply good_ite | (refine good_snd (by assumption) ?_) | (refine good_fst (by assumption) ?_)) | (extract_lets +onlyGivenNames x; first | (suffices hx : Good pd x from ?_; (on_goal 1 => clear_value x); (on_goal 2 => simp only [x])) | skip) | split | simp only [id_eq] | simp only [good_mk])

theorem keep_execStreamOpen {pd : List Instr × Prop × Prop} {i : Issuer} {owner : BitVec 8} {settings : Option (List Byte)} {pair : BitVec 16}
    {s : State} (h_s : Good pd s) : OutGood pd (execStreamOpen i owner settings pair s) := by
  unfold execStreamOpen
  split
  · exact h_s
  · exact keep_headCommand h_s (fun _ h => keep_stage h)

theorem keep_actStreamSubmit {pd : List Instr × Prop × Prop} {i : Issuer} {owner : BitVec 8} {stream : BitVec 16} {count : BitVec 32} {tokens : Option (List Byte)} {s : State} (h_s : Good pd s) :
    Good pd (actStreamSubmit i owner stream count tokens s) := by
  unfold actStreamSubmit
  repeat' (first | with_reducible (first | assumption | apply good_of | (intro _) | apply keep_modStream | apply keep_complete | apply good_ite | (refine good_snd (by assumption) ?_) | (refine good_fst (by assumption) ?_)) | (extract_lets +onlyGivenNames x; first | (suffices hx : Good pd x from ?_; (on_goal 1 => clear_value x); (on_goal 2 => simp only [x])) | skip) | split | simp only [id_eq] | simp only [good_mk])

theorem keep_execStreamSubmit {pd : List Instr × Prop × Prop} {i : Issuer} {owner : BitVec 8} {stream : BitVec 16} {count : BitVec 32}
    {tokens : Option (List Byte)} {s : State} (h_s : Good pd s) : OutGood pd (execStreamSubmit i owner stream count tokens s) := by
  unfold execStreamSubmit
  split
  · exact h_s
  · exact keep_headCommand h_s (fun _ h => good_ite (keep_complete h) (keep_stage h))

theorem keep_actStreamSet {pd : List Instr × Prop × Prop} {i : Issuer} {owner : BitVec 8} {stream : BitVec 16} {mask : BitVec 32} {settings : Option (List Byte)} {s : State} (h_s : Good pd s) :
    Good pd (actStreamSet i owner stream mask settings s) := by
  unfold actStreamSet
  repeat' (first | with_reducible (first | assumption | apply good_of | (intro _) | apply keep_modStream | apply keep_complete | apply keep_withSeed | apply good_ite | (refine good_snd (by assumption) ?_) | (refine good_fst (by assumption) ?_)) | (extract_lets +onlyGivenNames x; first | (suffices hx : Good pd x from ?_; (on_goal 1 => clear_value x); (on_goal 2 => simp only [x])) | skip) | split | simp only [id_eq] | simp only [good_mk])

theorem keep_execStreamSet {pd : List Instr × Prop × Prop} {i : Issuer} {owner : BitVec 8} {stream : BitVec 16} {mask : BitVec 32}
    {settings : Option (List Byte)} {s : State} (h_s : Good pd s) : OutGood pd (execStreamSet i owner stream mask settings s) := by
  unfold execStreamSet
  split
  · exact h_s
  · exact keep_boundaryCommand h_s

theorem keep_execStreamQuery {pd : List Instr × Prop × Prop} {i : Issuer} {owner : BitVec 8} {stream : BitVec 16} {report : BitVec 64} {s : State} (h_s : Good pd s) :
    OutGood pd (execStreamQuery i owner stream report s) := by
  unfold execStreamQuery
  show Good pd _
  repeat' (first | with_reducible (first | assumption | apply good_of | (intro _) | apply keep_complete | apply keep_issuerWrite | apply keep_headCommand | apply keep_sendMessage | apply keep_raiseEvent | apply keep_sendOn | apply keep_modFetched | apply keep_stage | apply good_ite | (refine good_snd (by assumption) ?_) | (refine good_fst (by assumption) ?_)) | (extract_lets +onlyGivenNames x; first | (suffices hx : Good pd x from ?_; (on_goal 1 => clear_value x); (on_goal 2 => simp only [x])) | skip) | split | simp only [id_eq] | simp only [good_mk])

theorem keep_actStreamFork {pd : List Instr × Prop × Prop} {i : Issuer} {owner : BitVec 8} {stream : BitVec 16} {s : State} (h_s : Good pd s) :
    Good pd (actStreamFork i owner stream s) := by
  unfold actStreamFork
  repeat' (first | with_reducible (first | assumption | apply good_of | (intro _) | apply keep_setStream | apply keep_complete | apply good_ite | (refine good_snd (by assumption) ?_) | (refine good_fst (by assumption) ?_)) | (extract_lets +onlyGivenNames x; first | (suffices hx : Good pd x from ?_; (on_goal 1 => clear_value x); (on_goal 2 => simp only [x])) | skip) | split | simp only [id_eq] | simp only [good_mk])

theorem keep_execStreamFork {pd : List Instr × Prop × Prop} {i : Issuer} {owner : BitVec 8} {stream : BitVec 16} {s : State} (h_s : Good pd s) :
    OutGood pd (execStreamFork i owner stream s) := keep_boundaryCommand h_s

theorem keep_actStreamRewind {pd : List Instr × Prop × Prop} {i : Issuer} {owner : BitVec 8} {stream : BitVec 16} {length : BitVec 32} {s : State} (h_s : Good pd s) :
    Good pd (actStreamRewind i owner stream length s) := by
  unfold actStreamRewind
  repeat' (first | with_reducible (first | assumption | apply good_of | (intro _) | apply keep_modStream | apply keep_complete | apply good_ite | (refine good_snd (by assumption) ?_) | (refine good_fst (by assumption) ?_)) | (extract_lets +onlyGivenNames x; first | (suffices hx : Good pd x from ?_; (on_goal 1 => clear_value x); (on_goal 2 => simp only [x])) | skip) | split | simp only [id_eq] | simp only [good_mk])

theorem keep_execStreamRewind {pd : List Instr × Prop × Prop} {i : Issuer} {owner : BitVec 8} {stream : BitVec 16} {length : BitVec 32} {s : State} (h_s : Good pd s) :
    OutGood pd (execStreamRewind i owner stream length s) := keep_boundaryCommand h_s

theorem keep_actStreamPause {pd : List Instr × Prop × Prop} {i : Issuer} {owner : BitVec 8} {stream : BitVec 16} {ttl : BitVec 32} {s : State} (h_s : Good pd s) :
    Good pd (actStreamPause i owner stream ttl s) := by
  unfold actStreamPause
  repeat' (first | with_reducible (first | assumption | apply good_of | (intro _) | apply keep_modStream | apply keep_complete | apply good_ite | (refine good_snd (by assumption) ?_) | (refine good_fst (by assumption) ?_)) | (extract_lets +onlyGivenNames x; first | (suffices hx : Good pd x from ?_; (on_goal 1 => clear_value x); (on_goal 2 => simp only [x])) | skip) | split | simp only [id_eq] | simp only [good_mk])

theorem keep_execStreamPause {pd : List Instr × Prop × Prop} {i : Issuer} {owner : BitVec 8} {stream : BitVec 16} {ttl : BitVec 32} {s : State} (h_s : Good pd s) :
    OutGood pd (execStreamPause i owner stream ttl s) := keep_boundaryCommand h_s

theorem keep_allocFrame {pd : List Instr × Prop × Prop} {s : State} {base o : Nat} (h_s : Good pd s) :
    ∀ t, allocFrame s base o = some t → Good pd t.2 := by
  intro t h
  unfold allocFrame at h
  split at h
  · exact absurd h (by simp)
  · obtain rfl := Option.some.inj h
    exact keep_modFrame h_s

theorem keep_allocPages {pd : List Instr × Prop × Prop} {s : State} {sid o : Nat} {z3 : List Nat} (h_s : Good pd s) : Good pd (allocPages s sid o z3) := by
  induction z3 generalizing s with
  | nil => exact h_s
  | cons q qs ih =>
    unfold allocPages
    split
    · exact h_s
    · rename_i h
      exact ih (keep_modStream (keep_allocFrame h_s _ h))

theorem keep_imageWrite {pd : List Instr × Prop × Prop} {s : State} {k : PauseKey} {position : Nat} {page : Nat} {bs : List Byte} (h_s : Good pd s) :
    Good pd (imageWrite s k position page bs) := by
  unfold imageWrite
  repeat' (first | with_reducible (first | assumption | apply good_of | (intro _) | apply keep_fnWrite | apply good_ite | (refine good_snd (by assumption) ?_) | (refine good_fst (by assumption) ?_)) | (extract_lets +onlyGivenNames x; first | (suffices hx : Good pd x from ?_; (on_goal 1 => clear_value x); (on_goal 2 => simp only [x])) | skip) | split | simp only [id_eq] | simp only [good_mk])

theorem keep_execPausePlacement {pd : List Instr × Prop × Prop} {stream : BitVec 16} {imageBytes : Nat} {s : State} (h_s : Good pd s) :
    OutGood pd (execPausePlacement stream imageBytes s) := by
  unfold execPausePlacement
  show Good pd _
  repeat' (first | with_reducible (first | assumption | apply good_of | (intro _) | apply keep_modStream | apply keep_broadcast | apply keep_raiseEvent | apply keep_completeWaits | apply keep_imageWrite | apply good_ite | (refine good_snd (by assumption) ?_) | (refine good_fst (by assumption) ?_)) | (extract_lets +onlyGivenNames x; first | (suffices hx : Good pd x from ?_; (on_goal 1 => clear_value x); (on_goal 2 => simp only [x])) | skip) | split | simp only [id_eq] | simp only [good_mk])

theorem keep_sealPage {pd : List Instr × Prop × Prop} {sid : Nat} {ecc : List (Nat × Bool)} {s : State} {e : Nat × Nat} (h_s : Good pd s) :
    Good pd (sealPage sid ecc s e) := by
  unfold sealPage
  repeat' (first | with_reducible (first | assumption | apply good_of | (intro _) | apply keep_eccRead | apply keep_imageWrite | apply good_ite | (refine good_snd (by assumption) ?_) | (refine good_fst (by assumption) ?_)) | (extract_lets +onlyGivenNames x; first | (suffices hx : Good pd x from ?_; (on_goal 1 => clear_value x); (on_goal 2 => simp only [x])) | skip) | split | simp only [id_eq] | simp only [good_mk])

theorem keep_execPauseImageDone {pd : List Instr × Prop × Prop} {read : ErrRead} {s : State} (h_s : Good pd s) :
    OutGood pd (execPauseImageDone read s) := by
  unfold execPauseImageDone
  show Good pd _
  repeat' (first | with_reducible (first | assumption | apply good_of | (intro _) | apply keep_modStream | apply keep_forEach | apply keep_sealPage | apply good_ite | (refine good_snd (by assumption) ?_) | (refine good_fst (by assumption) ?_)) | (extract_lets +onlyGivenNames x; first | (suffices hx : Good pd x from ?_; (on_goal 1 => clear_value x); (on_goal 2 => simp only [x])) | skip) | split | simp only [id_eq] | simp only [good_mk])

theorem keep_expireStream {pd : List Instr × Prop × Prop} {s : State} {sid : Nat} (h_s : Good pd s) :
    Good pd (expireStream s sid) := by
  unfold expireStream
  repeat' (first | with_reducible (first | assumption | apply good_of | (intro _) | apply keep_modStream | apply keep_raiseEvent | apply keep_wantClose | apply keep_dropPauseKey | apply good_ite | (refine good_snd (by assumption) ?_) | (refine good_fst (by assumption) ?_)) | (extract_lets +onlyGivenNames x; first | (suffices hx : Good pd x from ?_; (on_goal 1 => clear_value x); (on_goal 2 => simp only [x])) | skip) | split | simp only [id_eq] | simp only [good_mk])

theorem keep_expireDue {pd : List Instr × Prop × Prop} {s : State} (h_s : Good pd s) :
    Good pd (expireDue s) := by
  unfold expireDue
  repeat' (first | with_reducible (first | assumption | apply good_of | (intro _) | apply keep_forEach | apply keep_expireStream | apply good_ite | (refine good_snd (by assumption) ?_) | (refine good_fst (by assumption) ?_)) | (extract_lets +onlyGivenNames x; first | (suffices hx : Good pd x from ?_; (on_goal 1 => clear_value x); (on_goal 2 => simp only [x])) | skip) | split | simp only [id_eq] | simp only [good_mk])

theorem keep_actStreamResume {pd : List Instr × Prop × Prop} {i : Issuer} {owner : BitVec 8} {stream : BitVec 16} {othersHaveFrames : Bool} {s : State} (h_s : Good pd s) :
    Good pd (actStreamResume i owner stream othersHaveFrames s) := by
  unfold actStreamResume
  repeat' (first | with_reducible (first | assumption | apply good_of | (intro _) | apply keep_modStream | apply keep_issueReads | apply keep_complete | apply keep_allocPages | apply good_ite | (refine good_snd (by assumption) ?_) | (refine good_fst (by assumption) ?_)) | (extract_lets +onlyGivenNames x; first | (suffices hx : Good pd x from ?_; (on_goal 1 => clear_value x); (on_goal 2 => simp only [x])) | skip) | split | simp only [id_eq] | simp only [good_mk])

theorem keep_execStreamResume {pd : List Instr × Prop × Prop} {i : Issuer} {owner : BitVec 8} {stream : BitVec 16} {othersHaveFrames : Bool} {s : State} (h_s : Good pd s) :
    OutGood pd (execStreamResume i owner stream othersHaveFrames s) := keep_boundaryCommand h_s

theorem keep_restorePages {pd : List Instr × Prop × Prop} {s : State} {sid : Nat} {image : List (BitVec 56 × List Byte)} {t : Stream} (h_s : Good pd s) :
    Good pd (restorePages s sid image t) := by
  unfold restorePages
  repeat' (first | with_reducible (first | assumption | apply good_of | (intro _) | apply keep_forEach | apply keep_writeUnder | apply good_ite | (refine good_snd (by assumption) ?_) | (refine good_fst (by assumption) ?_)) | (extract_lets +onlyGivenNames x; first | (suffices hx : Good pd x from ?_; (on_goal 1 => clear_value x); (on_goal 2 => simp only [x])) | skip) | split | simp only [id_eq] | simp only [good_mk])

theorem keep_execResumeImageDone {pd : List Instr × Prop × Prop} {stream : BitVec 16} {image : ImageRead} {s : State} (h_s : Good pd s) :
    OutGood pd (execResumeImageDone stream image s) := by
  unfold execResumeImageDone
  show Good pd _
  repeat' (first | with_reducible (first | assumption | apply good_of | (intro _) | apply keep_modStream | apply keep_sendMessage | apply keep_raiseEvent | apply keep_wantClose | apply keep_completeWaits | apply keep_dropPauseKey | apply keep_restorePages | apply good_ite | (refine good_snd (by assumption) ?_) | (refine good_fst (by assumption) ?_)) | (extract_lets +onlyGivenNames x; first | (suffices hx : Good pd x from ?_; (on_goal 1 => clear_value x); (on_goal 2 => simp only [x])) | skip) | split | simp only [id_eq] | simp only [good_mk])

theorem keep_actStreamClose {pd : List Instr × Prop × Prop} {i : Issuer} {owner : BitVec 8} {stream : BitVec 16} {s : State} (h_s : Good pd s) :
    Good pd (actStreamClose i owner stream s) := by
  unfold actStreamClose
  repeat' (first | with_reducible (first | assumption | apply good_of | (intro _) | apply keep_modStream | apply keep_complete | apply keep_wantClose | apply good_ite | (refine good_snd (by assumption) ?_) | (refine good_fst (by assumption) ?_)) | (extract_lets +onlyGivenNames x; first | (suffices hx : Good pd x from ?_; (on_goal 1 => clear_value x); (on_goal 2 => simp only [x])) | skip) | split | simp only [id_eq] | simp only [good_mk])

theorem keep_execStreamClose {pd : List Instr × Prop × Prop} {i : Issuer} {owner : BitVec 8} {stream : BitVec 16} {s : State} (h_s : Good pd s) :
    OutGood pd (execStreamClose i owner stream s) := keep_boundaryCommand h_s

theorem keep_execStreamTokens {pd : List Instr × Prop × Prop} {i : Issuer} {owner : BitVec 8} {stream : BitVec 16} {buffer : BitVec 64} {first : BitVec 32} {count : BitVec 32} {s : State} (h_s : Good pd s) :
    OutGood pd (execStreamTokens i owner stream buffer first count s) := by
  unfold execStreamTokens
  show Good pd _
  repeat' (first | with_reducible (first | assumption | apply good_of | (intro _) | apply keep_complete | apply keep_issuerWrite | apply keep_headCommand | apply keep_sendMessage | apply keep_raiseEvent | apply keep_sendOn | apply keep_modFetched | apply keep_stage | apply good_ite | (refine good_snd (by assumption) ?_) | (refine good_fst (by assumption) ?_)) | (extract_lets +onlyGivenNames x; first | (suffices hx : Good pd x from ?_; (on_goal 1 => clear_value x); (on_goal 2 => simp only [x])) | skip) | split | simp only [id_eq] | simp only [good_mk])

theorem keep_releaseTier {pd : List Instr × Prop × Prop} {s : State} {port : Bool} {fn : Nat} {own : Option (Bool × Nat)} (h_s : Good pd s) :
    Good pd (releaseTier s port fn own) := by
  unfold releaseTier
  repeat' (first | with_reducible (first | assumption | apply good_of | (intro _) | apply keep_modFn | apply keep_forEach | apply keep_raiseEvent | apply keep_wantClose | apply good_ite | (refine good_snd (by assumption) ?_) | (refine good_fst (by assumption) ?_)) | (extract_lets +onlyGivenNames x; first | (suffices hx : Good pd x from ?_; (on_goal 1 => clear_value x); (on_goal 2 => simp only [x])) | skip) | split | simp only [id_eq] | simp only [good_mk])

theorem keep_actTierRegister {pd : List Instr × Prop × Prop} {i : Issuer} {addr : BitVec 64} {size : BitVec 32} {s : State} (h_s : Good pd s) :
    Good pd (actTierRegister i addr size s) := by
  unfold actTierRegister
  repeat' (first | with_reducible (first | assumption | apply good_of | (intro _) | apply keep_modFn | apply keep_complete | apply keep_releaseTier | apply good_ite | (refine good_snd (by assumption) ?_) | (refine good_fst (by assumption) ?_)) | (extract_lets +onlyGivenNames x; first | (suffices hx : Good pd x from ?_; (on_goal 1 => clear_value x); (on_goal 2 => simp only [x])) | skip) | split | simp only [id_eq] | simp only [good_mk])

theorem keep_execTierRegister {pd : List Instr × Prop × Prop} {i : Issuer} {addr : BitVec 64} {size : BitVec 32} {s : State} (h_s : Good pd s) :
    OutGood pd (execTierRegister i addr size s) := keep_boundaryCommand h_s

theorem keep_act {pd : List Instr × Prop × Prop} {d : Deferred} {s : State} (h_s : Good pd s) :
    Good pd (act d s) := by
  unfold act
  repeat' (first | with_reducible (first | assumption | apply good_of | (intro _) | apply keep_freePool | apply keep_actOwnerCreate | apply keep_actOwnerRelease | apply keep_actOwnerLimits | apply keep_actOwnerBind | apply keep_actOwnerUnbind | apply keep_actOwnerReattach | apply keep_actSchedSet | apply keep_actStreamOpen | apply keep_actStreamSubmit | apply keep_actStreamSet | apply keep_actStreamFork | apply keep_actStreamRewind | apply keep_actStreamPause | apply keep_actStreamResume | apply keep_actStreamClose | apply keep_actTierRegister | apply good_ite | (refine good_snd (by assumption) ?_) | (refine good_fst (by assumption) ?_)) | (extract_lets +onlyGivenNames x; first | (suffices hx : Good pd x from ?_; (on_goal 1 => clear_value x); (on_goal 2 => simp only [x])) | skip) | split | simp only [id_eq] | simp only [good_mk])

theorem keep_actOne {pd : List Instr × Prop × Prop} {s : State} {d : Deferred} (h_s : Good pd s) :
    Good pd (actOne s d) := by
  unfold actOne
  repeat' (first | with_reducible (first | assumption | apply good_of | (intro _) | apply keep_act | apply good_ite | (refine good_snd (by assumption) ?_) | (refine good_fst (by assumption) ?_)) | (extract_lets +onlyGivenNames x; first | (suffices hx : Good pd x from ?_; (on_goal 1 => clear_value x); (on_goal 2 => simp only [x])) | skip) | split | simp only [id_eq] | simp only [good_mk])

theorem keep_dropGone {pd : List Instr × Prop × Prop} {s : State} (h_s : Good pd s) :
    Good pd (dropGone s) := by
  unfold dropGone
  repeat' (first | with_reducible (first | assumption | apply good_of | (intro _) | apply keep_forEach | apply keep_freePool | apply good_ite | (refine good_snd (by assumption) ?_) | (refine good_fst (by assumption) ?_)) | (extract_lets +onlyGivenNames x; first | (suffices hx : Good pd x from ?_; (on_goal 1 => clear_value x); (on_goal 2 => simp only [x])) | skip) | split | simp only [id_eq] | simp only [good_mk])

theorem keep_actCommands {pd : List Instr × Prop × Prop} {s : State} (h_s : Good pd s) :
    Good pd (actCommands s) := by
  unfold actCommands
  repeat' (first | with_reducible (first | assumption | apply good_of | (intro _) | apply keep_forEach | apply keep_actOne | apply keep_dropGone | apply good_ite | (refine good_snd (by assumption) ?_) | (refine good_fst (by assumption) ?_)) | (extract_lets +onlyGivenNames x; first | (suffices hx : Good pd x from ?_; (on_goal 1 => clear_value x); (on_goal 2 => simp only [x])) | skip) | split | simp only [id_eq] | simp only [good_mk])

theorem keep_actBindings {pd : List Instr × Prop × Prop} {s : State} (h_s : Good pd s) :
    Good pd (actBindings s) := by
  unfold actBindings
  repeat' (first | with_reducible (first | assumption | apply good_of | (intro _) | apply keep_forEach | apply keep_actOne | apply good_ite | (refine good_snd (by assumption) ?_) | (refine good_fst (by assumption) ?_)) | (extract_lets +onlyGivenNames x; first | (suffices hx : Good pd x from ?_; (on_goal 1 => clear_value x); (on_goal 2 => simp only [x])) | skip) | split | simp only [id_eq] | simp only [good_mk])

theorem keep_writeAptBase {pd : List Instr × Prop × Prop} {s : State} {port : Bool} {fn : Nat} {v : Nat} (h_s : Good pd s) :
    Good pd (writeAptBase s port fn v) := by
  unfold writeAptBase
  repeat' (first | with_reducible (first | assumption | apply good_of | (intro _) | apply keep_modFn | apply good_ite | (refine good_snd (by assumption) ?_) | (refine good_fst (by assumption) ?_)) | (extract_lets +onlyGivenNames x; first | (suffices hx : Good pd x from ?_; (on_goal 1 => clear_value x); (on_goal 2 => simp only [x])) | skip) | split | simp only [id_eq] | simp only [good_mk])

theorem keep_writeAptOwner {pd : List Instr × Prop × Prop} {s : State} {port : Bool} {fn : Nat} {v : Nat} (h_s : Good pd s) :
    Good pd (writeAptOwner s port fn v) := by
  unfold writeAptOwner
  repeat' (first | with_reducible (first | assumption | apply good_of | (intro _) | apply keep_modFn | apply good_ite | (refine good_snd (by assumption) ?_) | (refine good_fst (by assumption) ?_)) | (extract_lets +onlyGivenNames x; first | (suffices hx : Good pd x from ?_; (on_goal 1 => clear_value x); (on_goal 2 => simp only [x])) | skip) | split | simp only [id_eq] | simp only [good_mk])

theorem keep_tellHead {pd : List Instr × Prop × Prop} {s : State} {port : Bool} {fn : Nat} {what : Nat} (h_s : Good pd s) :
    Good pd (tellHead s port fn what) := by
  unfold tellHead
  repeat' (first | with_reducible (first | assumption | apply good_of | (intro _) | apply keep_sendMessage | apply good_ite | (refine good_snd (by assumption) ?_) | (refine good_fst (by assumption) ?_)) | (extract_lets +onlyGivenNames x; first | (suffices hx : Good pd x from ?_; (on_goal 1 => clear_value x); (on_goal 2 => simp only [x])) | skip) | split | simp only [id_eq] | simp only [good_mk])

theorem keep_writeHeartbeat {pd : List Instr × Prop × Prop} {s : State} {port : Bool} {fn : Nat} {v : Nat} (h_s : Good pd s) :
    Good pd (writeHeartbeat s port fn v) := by
  unfold writeHeartbeat
  repeat' (first | with_reducible (first | assumption | apply good_of | (intro _) | apply keep_modFn | apply keep_tellHead | apply good_ite | (refine good_snd (by assumption) ?_) | (refine good_fst (by assumption) ?_)) | (extract_lets +onlyGivenNames x; first | (suffices hx : Good pd x from ?_; (on_goal 1 => clear_value x); (on_goal 2 => simp only [x])) | skip) | split | simp only [id_eq] | simp only [good_mk])

theorem keep_writeTimeout {pd : List Instr × Prop × Prop} {s : State} {port : Bool} {grace : Bool} {v : Nat} (h_s : Good pd s) :
    Good pd (writeTimeout s port grace v) := by
  unfold writeTimeout
  repeat' (first | with_reducible (first | assumption | apply good_of | (intro _) | apply keep_modHp | apply good_ite | (refine good_snd (by assumption) ?_) | (refine good_fst (by assumption) ?_)) | (extract_lets +onlyGivenNames x; first | (suffices hx : Good pd x from ?_; (on_goal 1 => clear_value x); (on_goal 2 => simp only [x])) | skip) | split | simp only [id_eq] | simp only [good_mk])

theorem keep_execHpAptBase {pd : List Instr × Prop × Prop} {a : Accessor} {page : Bool} {fn : BitVec 5} {value : BitVec 32} {s : State} (h_s : Good pd s) :
    OutGood pd (execHpAptBase a page fn value s) := by
  unfold execHpAptBase
  show Good pd _
  repeat' (first | with_reducible (first | assumption | apply good_of | (intro _) | apply keep_writeAptBase | apply good_ite | (refine good_snd (by assumption) ?_) | (refine good_fst (by assumption) ?_)) | (extract_lets +onlyGivenNames x; first | (suffices hx : Good pd x from ?_; (on_goal 1 => clear_value x); (on_goal 2 => simp only [x])) | skip) | split | simp only [id_eq] | simp only [good_mk])

theorem keep_execHpAptOwner {pd : List Instr × Prop × Prop} {a : Accessor} {page : Bool} {fn : BitVec 5} {value : BitVec 32} {s : State} (h_s : Good pd s) :
    OutGood pd (execHpAptOwner a page fn value s) := by
  unfold execHpAptOwner
  show Good pd _
  repeat' (first | with_reducible (first | assumption | apply good_of | (intro _) | apply keep_writeAptOwner | apply good_ite | (refine good_snd (by assumption) ?_) | (refine good_fst (by assumption) ?_)) | (extract_lets +onlyGivenNames x; first | (suffices hx : Good pd x from ?_; (on_goal 1 => clear_value x); (on_goal 2 => simp only [x])) | skip) | split | simp only [id_eq] | simp only [good_mk])

theorem keep_execHpHeartbeat {pd : List Instr × Prop × Prop} {a : Accessor} {page : Bool} {fn : BitVec 5} {value : BitVec 32} {s : State} (h_s : Good pd s) :
    OutGood pd (execHpHeartbeat a page fn value s) := by
  unfold execHpHeartbeat
  show Good pd _
  repeat' (first | with_reducible (first | assumption | apply good_of | (intro _) | apply keep_writeHeartbeat | apply good_ite | (refine good_snd (by assumption) ?_) | (refine good_fst (by assumption) ?_)) | (extract_lets +onlyGivenNames x; first | (suffices hx : Good pd x from ?_; (on_goal 1 => clear_value x); (on_goal 2 => simp only [x])) | skip) | split | simp only [id_eq] | simp only [good_mk])

theorem keep_execHpHeartbeatTimeout {pd : List Instr × Prop × Prop} {a : Accessor} {page : Bool} {grace : Bool} {value : BitVec 32} {s : State} (h_s : Good pd s) :
    OutGood pd (execHpHeartbeatTimeout a page grace value s) := by
  unfold execHpHeartbeatTimeout
  show Good pd _
  repeat' (first | with_reducible (first | assumption | apply good_of | (intro _) | apply keep_writeTimeout | apply good_ite | (refine good_snd (by assumption) ?_) | (refine good_fst (by assumption) ?_)) | (extract_lets +onlyGivenNames x; first | (suffices hx : Good pd x from ?_; (on_goal 1 => clear_value x); (on_goal 2 => simp only [x])) | skip) | split | simp only [id_eq] | simp only [good_mk])

theorem keep_execHeartbeatLost {pd : List Instr × Prop × Prop} {port : Bool} {fn : BitVec 5} {s : State} (h_s : Good pd s) :
    OutGood pd (execHeartbeatLost port fn s) := by
  unfold execHeartbeatLost
  show Good pd _
  repeat' (first | with_reducible (first | assumption | apply good_of | (intro _) | apply keep_modFn | apply keep_raiseEvent | apply keep_tellHead | apply good_ite | (refine good_snd (by assumption) ?_) | (refine good_fst (by assumption) ?_)) | (extract_lets +onlyGivenNames x; first | (suffices hx : Good pd x from ?_; (on_goal 1 => clear_value x); (on_goal 2 => simp only [x])) | skip) | split | simp only [id_eq] | simp only [good_mk])

theorem keep_execOrphaned {pd : List Instr × Prop × Prop} {owner : BitVec 8} {s : State} (h_s : Good pd s) :
    OutGood pd (execOrphaned owner s) := by
  unfold execOrphaned
  show Good pd _
  repeat' (first | with_reducible (first | assumption | apply good_of | (intro _) | apply keep_modOwner | apply keep_modStream | apply keep_modSlot | apply keep_forEach | apply keep_raiseEvent | apply keep_shareOwner | apply keep_dropAperture | apply good_ite | (refine good_snd (by assumption) ?_) | (refine good_fst (by assumption) ?_)) | (extract_lets +onlyGivenNames x; first | (suffices hx : Good pd x from ?_; (on_goal 1 => clear_value x); (on_goal 2 => simp only [x])) | skip) | split | simp only [id_eq] | simp only [good_mk])

theorem keep_execGraceExpired {pd : List Instr × Prop × Prop} {owner : BitVec 8} {s : State} (h_s : Good pd s) :
    OutGood pd (execGraceExpired owner s) := by
  unfold execGraceExpired
  show Good pd _
  repeat' (first | with_reducible (first | assumption | apply good_of | (intro _) | apply keep_raiseEvent | apply keep_orderDestroy | apply good_ite | (refine good_snd (by assumption) ?_) | (refine good_fst (by assumption) ?_)) | (extract_lets +onlyGivenNames x; first | (suffices hx : Good pd x from ?_; (on_goal 1 => clear_value x); (on_goal 2 => simp only [x])) | skip) | split | simp only [id_eq] | simp only [good_mk])

theorem keep_unbindFrom {pd : List Instr × Prop × Prop} {s : State} {port : Bool} {fn : Nat} (h_s : Good pd s) :
    Good pd (unbindFrom s port fn) := by
  unfold unbindFrom
  repeat' (first | with_reducible (first | assumption | apply good_of | (intro _) | apply keep_modOwner | apply keep_forEach | apply keep_shareOwner | apply keep_dropAperture | apply good_ite | (refine good_snd (by assumption) ?_) | (refine good_fst (by assumption) ?_)) | (extract_lets +onlyGivenNames x; first | (suffices hx : Good pd x from ?_; (on_goal 1 => clear_value x); (on_goal 2 => simp only [x])) | skip) | split | simp only [id_eq] | simp only [good_mk])

theorem keep_startReset {pd : List Instr × Prop × Prop} {s : State} {port : Bool} {fn : Nat} {kind : Nat} {since : Nat} (h_s : Good pd s) :
    Good pd (startReset s port fn kind since) := by
  unfold startReset
  repeat' (first | with_reducible (first | assumption | apply good_of | (intro _) | apply keep_modHp | apply keep_modFn | apply keep_tellHead | apply keep_unbindFrom | apply good_ite | (refine good_snd (by assumption) ?_) | (refine good_fst (by assumption) ?_)) | (extract_lets +onlyGivenNames x; first | (suffices hx : Good pd x from ?_; (on_goal 1 => clear_value x); (on_goal 2 => simp only [x])) | skip) | split | simp only [id_eq] | simp only [good_mk])

theorem keep_resetBoundary {pd : List Instr × Prop × Prop} {s : State} {port : Bool} {fn : Nat} (h_s : Good pd s) :
    Good pd (resetBoundary s port fn) := by
  unfold resetBoundary
  repeat' (first | with_reducible (first | assumption | apply good_of | (intro _) | apply keep_modHp | apply keep_modFn | apply keep_forEach | apply keep_orderDestroy | apply keep_releaseTier | apply keep_tellHead | apply good_ite | (refine good_snd (by assumption) ?_) | (refine good_fst (by assumption) ?_)) | (extract_lets +onlyGivenNames x; first | (suffices hx : Good pd x from ?_; (on_goal 1 => clear_value x); (on_goal 2 => simp only [x])) | skip) | split | simp only [id_eq] | simp only [good_mk])

theorem keep_leaveReset {pd : List Instr × Prop × Prop} {s : State} {port : Bool} {fn : Nat} (h_s : Good pd s) : Good pd (leaveReset s port fn) := by
  unfold leaveReset
  extract_lets mapped s1 s2
  have h1 : Good pd s1 := keep_forEach h_s (fun _ _ h => keep_modQp h)
  have h2 : Good pd s2 := by
    simp only [s2]
    apply keep_tellHead
    split
    · exact h1
    · refine good_modHdr h1 (Or.inr (Or.inl ?_))
      simp only [pgFn]
      split <;> omega
  exact keep_modFn h2

theorem keep_clearVfs {pd : List Instr × Prop × Prop} {s : State} {port : Bool} (h_s : Good pd s) :
    Good pd (clearVfs s port) := by
  unfold clearVfs
  repeat' (first | with_reducible (first | assumption | apply good_of | (intro _) | apply keep_modHp | apply keep_modFn | apply keep_forEach | apply keep_tellHead | apply keep_startReset | apply good_ite | (refine good_snd (by assumption) ?_) | (refine good_fst (by assumption) ?_)) | (extract_lets +onlyGivenNames x; first | (suffices hx : Good pd x from ?_; (on_goal 1 => clear_value x); (on_goal 2 => simp only [x])) | skip) | split | simp only [id_eq] | simp only [good_mk])

theorem keep_execFlr {pd : List Instr × Prop × Prop} {port : Bool} {fn : BitVec 5} {s : State} (h_s : Good pd s) :
    OutGood pd (execFlr port fn s) := by
  unfold execFlr
  show Good pd _
  repeat' (first | with_reducible (first | assumption | apply good_of | (intro _) | apply keep_startReset | apply keep_clearVfs | apply good_ite | (refine good_snd (by assumption) ?_) | (refine good_fst (by assumption) ?_)) | (extract_lets +onlyGivenNames x; first | (suffices hx : Good pd x from ?_; (on_goal 1 => clear_value x); (on_goal 2 => simp only [x])) | skip) | split | simp only [id_eq] | simp only [good_mk])

theorem keep_execFlrBoundary {pd : List Instr × Prop × Prop} {port : Bool} {fn : BitVec 5} {s : State} (h_s : Good pd s) :
    OutGood pd (execFlrBoundary port fn s) := by
  unfold execFlrBoundary
  show Good pd _
  repeat' (first | with_reducible (first | assumption | apply good_of | (intro _) | apply keep_resetBoundary | apply good_ite | (refine good_snd (by assumption) ?_) | (refine good_fst (by assumption) ?_)) | (extract_lets +onlyGivenNames x; first | (suffices hx : Good pd x from ?_; (on_goal 1 => clear_value x); (on_goal 2 => simp only [x])) | skip) | split | simp only [id_eq] | simp only [good_mk])

theorem keep_execFunctionReset {pd : List Instr × Prop × Prop} {port : Bool} {fn : BitVec 5} {s : State} (h_s : Good pd s) :
    OutGood pd (execFunctionReset port fn s) := by
  unfold execFunctionReset
  show Good pd _
  repeat' (first | with_reducible (first | assumption | apply good_of | (intro _) | apply keep_forEach | apply keep_raiseEvent | apply keep_leaveReset | apply good_ite | (refine good_snd (by assumption) ?_) | (refine good_fst (by assumption) ?_)) | (extract_lets +onlyGivenNames x; first | (suffices hx : Good pd x from ?_; (on_goal 1 => clear_value x); (on_goal 2 => simp only [x])) | skip) | split | simp only [id_eq] | simp only [good_mk])

theorem keep_execVfEnableClear {pd : List Instr × Prop × Prop} {port : Bool} {s : State} (h_s : Good pd s) :
    OutGood pd (execVfEnableClear port s) := by
  unfold execVfEnableClear
  show Good pd _
  repeat' (first | with_reducible (first | assumption | apply good_of | (intro _) | apply keep_clearVfs | apply good_ite | (refine good_snd (by assumption) ?_) | (refine good_fst (by assumption) ?_)) | (extract_lets +onlyGivenNames x; first | (suffices hx : Good pd x from ?_; (on_goal 1 => clear_value x); (on_goal 2 => simp only [x])) | skip) | split | simp only [id_eq] | simp only [good_mk])

theorem keep_execVfEnableSet {pd : List Instr × Prop × Prop} {port : Bool} {count : BitVec 5} {s : State} (h_s : Good pd s) :
    OutGood pd (execVfEnableSet port count s) := by
  unfold execVfEnableSet
  show Good pd _
  repeat' (first | with_reducible (first | assumption | apply good_of | (intro _) | apply keep_modHp | apply keep_modFn | apply keep_forEach | apply keep_tellHead | apply good_ite | (refine good_snd (by assumption) ?_) | (refine good_fst (by assumption) ?_)) | (extract_lets +onlyGivenNames x; first | (suffices hx : Good pd x from ?_; (on_goal 1 => clear_value x); (on_goal 2 => simp only [x])) | skip) | split | simp only [id_eq] | simp only [good_mk])

theorem keep_portReset {pd : List Instr × Prop × Prop} {s : State} {port : Bool} {kind since : Nat} (h_s : Good pd s) : Good pd (portReset s port kind since) := by
  unfold portReset
  extract_lets fns s1 s2 s3 s4
  have h1 : Good pd s1 := keep_forEach h_s (fun _ _ h => keep_startReset h)
  have h2 : Good pd s2 := keep_forEach h1 (fun _ _ h => keep_tellHead (keep_modFn h))
  clear_value s2
  have h3 : Good pd s3 := by
    simp only [s3, good_mk]
    have := goodFields_less (good_of h2) (fun z => z.page != pgHp port) (fun _ => true) (fun _ _ _ _ _ => rfl)
    rwa [show s2.hdrs.filter (fun _ => true) = s2.hdrs by simp] at this
  have h4 : Good pd s4 := by
    refine good_modHdr h3 (Or.inr (Or.inr ?_))
    simp only [pageFrozen, s3, List.any_eq_false, List.mem_filter, beq_iff_eq, bne_iff_ne]
    exact fun z hz => hz.2
  exact keep_modHp h4

theorem keep_execPerstAssert {pd : List Instr × Prop × Prop} {port : Bool} {s : State} (h_s : Good pd s) :
    OutGood pd (execPerstAssert port s) := by
  unfold execPerstAssert
  show Good pd _
  repeat' (first | with_reducible (first | assumption | apply good_of | (intro _) | apply keep_portReset | apply good_ite | (refine good_snd (by assumption) ?_) | (refine good_fst (by assumption) ?_)) | (extract_lets +onlyGivenNames x; first | (suffices hx : Good pd x from ?_; (on_goal 1 => clear_value x); (on_goal 2 => simp only [x])) | skip) | split | simp only [id_eq] | simp only [good_mk])

theorem keep_execPerstDeassert {pd : List Instr × Prop × Prop} {port : Bool} {s : State} (h_s : Good pd s) :
    OutGood pd (execPerstDeassert port s) := by
  unfold execPerstDeassert
  show Good pd _
  repeat' (first | with_reducible (first | assumption | apply good_of | (intro _) | apply keep_modHp | apply good_ite | (refine good_snd (by assumption) ?_) | (refine good_fst (by assumption) ?_)) | (extract_lets +onlyGivenNames x; first | (suffices hx : Good pd x from ?_; (on_goal 1 => clear_value x); (on_goal 2 => simp only [x])) | skip) | split | simp only [id_eq] | simp only [good_mk])

theorem keep_execHostLinkChange {pd : List Instr × Prop × Prop} {port : Bool} {speed : BitVec 3} {width : BitVec 4} {s : State} (h_s : Good pd s) :
    OutGood pd (execHostLinkChange port speed width s) := by
  unfold execHostLinkChange
  show Good pd _
  repeat' (first | with_reducible (first | assumption | apply good_of | (intro _) | apply keep_modHp | apply keep_forEach | apply keep_emit | apply keep_raiseEvent | apply good_ite | (refine good_snd (by assumption) ?_) | (refine good_fst (by assumption) ?_)) | (extract_lets +onlyGivenNames x; first | (suffices hx : Good pd x from ?_; (on_goal 1 => clear_value x); (on_goal 2 => simp only [x])) | skip) | split | simp only [id_eq] | simp only [good_mk])

theorem keep_execLinkLossTimeout {pd : List Instr × Prop × Prop} {port : Bool} {s : State} (h_s : Good pd s) :
    OutGood pd (execLinkLossTimeout port s) := by
  unfold execLinkLossTimeout
  show Good pd _
  repeat' (first | with_reducible (first | assumption | apply good_of | (intro _) | apply keep_modHp | apply keep_portReset | apply good_ite | (refine good_snd (by assumption) ?_) | (refine good_fst (by assumption) ?_)) | (extract_lets +onlyGivenNames x; first | (suffices hx : Good pd x from ?_; (on_goal 1 => clear_value x); (on_goal 2 => simp only [x])) | skip) | split | simp only [id_eq] | simp only [good_mk])

theorem keep_execBusMasterEnable {pd : List Instr × Prop × Prop} {port : Bool} {fn : BitVec 5} {on : Bool} {s : State} (h_s : Good pd s) :
    OutGood pd (execBusMasterEnable port fn on s) := by
  unfold execBusMasterEnable
  show Good pd _
  repeat' (first | with_reducible (first | assumption | apply good_of | (intro _) | apply keep_modFn | apply good_ite | (refine good_snd (by assumption) ?_) | (refine good_fst (by assumption) ?_)) | (extract_lets +onlyGivenNames x; first | (suffices hx : Good pd x from ?_; (on_goal 1 => clear_value x); (on_goal 2 => simp only [x])) | skip) | split | simp only [id_eq] | simp only [good_mk])

theorem keep_execResizableBar {pd : List Instr × Prop × Prop} {port : Bool} {log2Size : BitVec 6} {s : State} (h_s : Good pd s) :
    OutGood pd (execResizableBar port log2Size s) := by
  unfold execResizableBar
  show Good pd _
  repeat' (first | with_reducible (first | assumption | apply good_of | (intro _) | apply keep_modHp | apply keep_modFn | apply good_ite | (refine good_snd (by assumption) ?_) | (refine good_fst (by assumption) ?_)) | (extract_lets +onlyGivenNames x; first | (suffices hx : Good pd x from ?_; (on_goal 1 => clear_value x); (on_goal 2 => simp only [x])) | skip) | split | simp only [id_eq] | simp only [good_mk])

theorem keep_execDoeDiscovery {pd : List Instr × Prop × Prop} {port : Bool} {fn : BitVec 5} {index : BitVec 8} {s : State} (h_s : Good pd s) :
    OutGood pd (execDoeDiscovery port fn index s) := by
  unfold execDoeDiscovery
  show Good pd _
  repeat' (first | with_reducible (first | assumption | apply good_of | (intro _) | apply keep_emit | apply good_ite | (refine good_snd (by assumption) ?_) | (refine good_fst (by assumption) ?_)) | (extract_lets +onlyGivenNames x; first | (suffices hx : Good pd x from ?_; (on_goal 1 => clear_value x); (on_goal 2 => simp only [x])) | skip) | split | simp only [id_eq] | simp only [good_mk])

theorem keep_execIdeKm {pd : List Instr × Prop × Prop} {port : Bool} {fn : BitVec 5} {secured : Bool} {link : Bool} {go : Bool} {s : State} (h_s : Good pd s) :
    OutGood pd (execIdeKm port fn secured link go s) := by
  unfold execIdeKm
  show Good pd _
  repeat' (first | with_reducible (first | assumption | apply good_of | (intro _) | apply keep_modHp | apply keep_modFn | apply keep_emit | apply good_ite | (refine good_snd (by assumption) ?_) | (refine good_fst (by assumption) ?_)) | (extract_lets +onlyGivenNames x; first | (suffices hx : Good pd x from ?_; (on_goal 1 => clear_value x); (on_goal 2 => simp only [x])) | skip) | split | simp only [id_eq] | simp only [good_mk])

theorem keep_powerEvent {pd : List Instr × Prop × Prop} {s : State} {old : Nat} (h_s : Good pd s) :
    Good pd (powerEvent s old) := by
  unfold powerEvent
  repeat' (first | with_reducible (first | assumption | apply good_of | (intro _) | apply keep_raiseEvent | apply good_ite | (refine good_snd (by assumption) ?_) | (refine good_fst (by assumption) ?_)) | (extract_lets +onlyGivenNames x; first | (suffices hx : Good pd x from ?_; (on_goal 1 => clear_value x); (on_goal 2 => simp only [x])) | skip) | split | simp only [id_eq] | simp only [good_mk])

theorem keep_setPower {pd : List Instr × Prop × Prop} {s : State} {p : PowerState} (h_s : Good pd s) :
    Good pd (setPower s p) := by
  unfold setPower
  repeat' (first | with_reducible (first | assumption | apply good_of | (intro _) | apply keep_powerEvent | apply good_ite | (refine good_snd (by assumption) ?_) | (refine good_fst (by assumption) ?_)) | (extract_lets +onlyGivenNames x; first | (suffices hx : Good pd x from ?_; (on_goal 1 => clear_value x); (on_goal 2 => simp only [x])) | skip) | split | simp only [id_eq] | simp only [good_mk])

theorem keep_closeCrosscut {pd : List Instr × Prop × Prop} {s : State} {cause : Nat} (h_s : Good pd s) :
    Good pd (closeCrosscut s cause) := by
  unfold closeCrosscut
  repeat' (first | with_reducible (first | assumption | apply good_of | (intro _) | apply keep_raiseEvent | apply good_ite | (refine good_snd (by assumption) ?_) | (refine good_fst (by assumption) ?_)) | (extract_lets +onlyGivenNames x; first | (suffices hx : Good pd x from ?_; (on_goal 1 => clear_value x); (on_goal 2 => simp only [x])) | skip) | split | simp only [id_eq] | simp only [good_mk])

theorem keep_openCrosscut {pd : List Instr × Prop × Prop} {s : State} {cause : Nat} (h_s : Good pd s) :
    Good pd (openCrosscut s cause) := by
  unfold openCrosscut
  repeat' (first | with_reducible (first | assumption | apply good_of | (intro _) | apply keep_raiseEvent | apply good_ite | (refine good_snd (by assumption) ?_) | (refine good_fst (by assumption) ?_)) | (extract_lets +onlyGivenNames x; first | (suffices hx : Good pd x from ?_; (on_goal 1 => clear_value x); (on_goal 2 => simp only [x])) | skip) | split | simp only [id_eq] | simp only [good_mk])

theorem keep_clearBlocks {pd : List Instr × Prop × Prop} {s : State} (h_s : Good pd s) : Good pd (clearBlocks s) := by
  unfold clearBlocks
  rw [good_mk]
  exact goodFields_noMem (good_of h_s)

theorem keep_mainOff {pd : List Instr × Prop × Prop} {s : State} {byTrip : Bool} (h_s : Good pd s) : Good pd (mainOff s byTrip) := by
  have h1 : Good pd (clearBlocks (setPower { s with power := { s.power with sumpExists := false } } (if s.pins.aux then .aux else .off))) := by
    apply keep_clearBlocks
    apply keep_setPower
    simp only [good_mk]
    exact good_of h_s
  unfold mainOff
  dsimp only
  generalize clearBlocks _ = u at h1 ⊢
  rw [good_mk]
  have := goodFields_less (good_of h1) (fun _ => false) (fun k => k == pgDp) (fun _ _ h => by simp at h)
  rwa [show u.frozen.filter (fun _ => false) = [] by simp] at this

theorem keep_softClear {pd : List Instr × Prop × Prop} {s : State} (h_s : Good pd s) : Good pd (softClear s) := by
  have h1 : Good pd (clearBlocks { s with power := { s.power with sumpExists := false, softReset := true, softAt := s.clock, wait := 0 } }) := by
    apply keep_clearBlocks
    simp only [good_mk]
    exact good_of h_s
  unfold softClear
  dsimp only
  generalize clearBlocks _ = u at h1 ⊢
  rw [good_mk]
  exact goodFields_less (good_of h1) _ (fun k => k == pgDp || k == 8 || k == 9 || decide (339 ≤ k))
    (fun z _ h _ _ => by simp only [Bool.or_eq_true, beq_iff_eq, decide_eq_true_eq] at h ⊢; omega)

theorem keep_updateQuiet {pd : List Instr × Prop × Prop} {s : State} (h_s : Good pd s) :
    Good pd (updateQuiet s) := by
  unfold updateQuiet
  repeat' (first | with_reducible (first | assumption | apply good_of | (intro _) | apply keep_sendMessage | apply good_ite | (refine good_snd (by assumption) ?_) | (refine good_fst (by assumption) ?_)) | (extract_lets +onlyGivenNames x; first | (suffices hx : Good pd x from ?_; (on_goal 1 => clear_value x); (on_goal 2 => simp only [x])) | skip) | split | simp only [id_eq] | simp only [good_mk])

theorem keep_enterCritical {pd : List Instr × Prop × Prop} {s : State} (h_s : Good pd s) :
    Good pd (enterCritical s) := by
  unfold enterCritical
  repeat' (first | with_reducible (first | assumption | apply good_of | (intro _) | apply keep_endAssay | apply good_ite | (refine good_snd (by assumption) ?_) | (refine good_fst (by assumption) ?_)) | (extract_lets +onlyGivenNames x; first | (suffices hx : Good pd x from ?_; (on_goal 1 => clear_value x); (on_goal 2 => simp only [x])) | skip) | split | simp only [id_eq] | simp only [good_mk])

theorem keep_setLevel {pd : List Instr × Prop × Prop} {s : State} {src : Nat} {lv : Nat} {reading : ℤ} (h_s : Good pd s) :
    Good pd (setLevel s src lv reading) := by
  unfold setLevel
  repeat' (first | with_reducible (first | assumption | apply good_of | (intro _) | apply keep_raiseEvent | apply keep_updateQuiet | apply keep_enterCritical | apply good_ite | (refine good_snd (by assumption) ?_) | (refine good_fst (by assumption) ?_)) | (extract_lets +onlyGivenNames x; first | (suffices hx : Good pd x from ?_; (on_goal 1 => clear_value x); (on_goal 2 => simp only [x])) | skip) | split | simp only [id_eq] | simp only [good_mk])

theorem keep_clearLevels {pd : List Instr × Prop × Prop} {s : State} (h_s : Good pd s) :
    Good pd (clearLevels s) := by
  unfold clearLevels
  repeat' (first | with_reducible (first | assumption | apply good_of | (intro _) | apply good_ite | (refine good_snd (by assumption) ?_) | (refine good_fst (by assumption) ?_)) | (extract_lets +onlyGivenNames x; first | (suffices hx : Good pd x from ?_; (on_goal 1 => clear_value x); (on_goal 2 => simp only [x])) | skip) | split | simp only [id_eq] | simp only [good_mk])

theorem keep_keepRecent {pd : List Instr × Prop × Prop} {s : State} {kind : Nat} {v : ℤ} (h_s : Good pd s) :
    Good pd (keepRecent s kind v) := by
  unfold keepRecent
  repeat' (first | with_reducible (first | assumption | apply good_of | (intro _) | apply good_ite | (refine good_snd (by assumption) ?_) | (refine good_fst (by assumption) ?_)) | (extract_lets +onlyGivenNames x; first | (suffices hx : Good pd x from ?_; (on_goal 1 => clear_value x); (on_goal 2 => simp only [x])) | skip) | split | simp only [id_eq] | simp only [good_mk])

theorem keep_writeTrip {pd : List Instr × Prop × Prop} {s : State} {kind : Nat} {source : Nat} {sensor : Nat} {v : ℤ} (h_s : Good pd s) :
    Good pd (writeTrip s kind source sensor v).1 := by
  unfold writeTrip
  repeat' (first | with_reducible (first | assumption | apply good_of | (intro _) | apply good_ite | (refine good_snd (by assumption) ?_) | (refine good_fst (by assumption) ?_)) | (extract_lets +onlyGivenNames x; first | (suffices hx : Good pd x from ?_; (on_goal 1 => clear_value x); (on_goal 2 => simp only [x])) | skip) | split | simp only [id_eq] | simp only [good_mk])

theorem keep_trip {pd : List Instr × Prop × Prop} {s : State} {source : Nat} {sensor : Nat} {v : ℤ} (h_s : Good pd s) :
    Good pd (trip s source sensor v) := by
  unfold trip
  repeat' (first | with_reducible (first | assumption | apply good_of | (intro _) | apply keep_raiseEvent | apply keep_closeCrosscut | apply keep_mainOff | apply keep_writeTrip | apply good_ite | (refine good_snd (by assumption) ?_) | (refine good_fst (by assumption) ?_)) | (extract_lets +onlyGivenNames x; first | (suffices hx : Good pd x from ?_; (on_goal 1 => clear_value x); (on_goal 2 => simp only [x])) | skip) | split | simp only [id_eq] | simp only [good_mk])

theorem keep_rise {pd : List Instr × Prop × Prop} {s : State} {src : Nat} {lv : Nat} {reading : ℤ} {source : Nat} {sensor : Nat} (h_s : Good pd s) :
    Good pd (rise s src lv reading source sensor) := by
  unfold rise
  repeat' (first | with_reducible (first | assumption | apply good_of | (intro _) | apply keep_setLevel | apply keep_trip | apply good_ite | (refine good_snd (by assumption) ?_) | (refine good_fst (by assumption) ?_)) | (extract_lets +onlyGivenNames x; first | (suffices hx : Good pd x from ?_; (on_goal 1 => clear_value x); (on_goal 2 => simp only [x])) | skip) | split | simp only [id_eq] | simp only [good_mk])

theorem keep_setBelow {pd : List Instr × Prop × Prop} {s : State} {src : Nat} {safe : Bool} (h_s : Good pd s) :
    Good pd (setBelow s src safe) := by
  unfold setBelow
  repeat' (first | with_reducible (first | assumption | apply good_of | (intro _) | apply good_ite | (refine good_snd (by assumption) ?_) | (refine good_fst (by assumption) ?_)) | (extract_lets +onlyGivenNames x; first | (suffices hx : Good pd x from ?_; (on_goal 1 => clear_value x); (on_goal 2 => simp only [x])) | skip) | split | simp only [id_eq] | simp only [good_mk])

theorem keep_takeReading {pd : List Instr × Prop × Prop} {s : State} {k : Nat} {reading : ℤ} (h_s : Good pd s) :
    Good pd (takeReading s k reading) := by
  unfold takeReading
  repeat' (first | with_reducible (first | assumption | apply good_of | (intro _) | apply keep_raiseEvent | apply good_ite | (refine good_snd (by assumption) ?_) | (refine good_fst (by assumption) ?_)) | (extract_lets +onlyGivenNames x; first | (suffices hx : Good pd x from ?_; (on_goal 1 => clear_value x); (on_goal 2 => simp only [x])) | skip) | split | simp only [id_eq] | simp only [good_mk])

theorem keep_keepHottest {pd : List Instr × Prop × Prop} {s : State} {k : Nat} {reading : ℤ} (h_s : Good pd s) :
    Good pd (keepHottest s k reading) := by
  unfold keepHottest
  repeat' (first | with_reducible (first | assumption | apply good_of | (intro _) | apply keep_modSc | apply keep_keepRecent | apply good_ite | (refine good_snd (by assumption) ?_) | (refine good_fst (by assumption) ?_)) | (extract_lets +onlyGivenNames x; first | (suffices hx : Good pd x from ?_; (on_goal 1 => clear_value x); (on_goal 2 => simp only [x])) | skip) | split | simp only [id_eq] | simp only [good_mk])

theorem keep_judgeSource {pd : List Instr × Prop × Prop} {s : State} {src : Nat} {k : Nat} {hot : ℤ} (h_s : Good pd s) :
    Good pd (judgeSource s src k hot) := by
  unfold judgeSource
  repeat' (first | with_reducible (first | assumption | apply good_of | (intro _) | apply keep_rise | apply keep_setBelow | apply good_ite | (refine good_snd (by assumption) ?_) | (refine good_fst (by assumption) ?_)) | (extract_lets +onlyGivenNames x; first | (suffices hx : Good pd x from ?_; (on_goal 1 => clear_value x); (on_goal 2 => simp only [x])) | skip) | split | simp only [id_eq] | simp only [good_mk])

theorem keep_judgeGroup {pd : List Instr × Prop × Prop} {s : State} {k : Nat} (h_s : Good pd s) :
    Good pd (judgeGroup s k) := by
  unfold judgeGroup
  repeat' (first | with_reducible (first | assumption | apply good_of | (intro _) | apply keep_startCal | apply good_ite | (refine good_snd (by assumption) ?_) | (refine good_fst (by assumption) ?_)) | (extract_lets +onlyGivenNames x; first | (suffices hx : Good pd x from ?_; (on_goal 1 => clear_value x); (on_goal 2 => simp only [x])) | skip) | split | simp only [id_eq] | simp only [good_mk])

theorem keep_execTempSample {pd : List Instr × Prop × Prop} {sensor : BitVec 9} {reading : ℤ} {s : State} (h_s : Good pd s) :
    OutGood pd (execTempSample sensor reading s) := by
  unfold execTempSample
  show Good pd _
  repeat' (first | with_reducible (first | assumption | apply good_of | (intro _) | apply keep_takeReading | apply keep_keepHottest | apply keep_judgeSource | apply keep_judgeGroup | apply good_ite | (refine good_snd (by assumption) ?_) | (refine good_fst (by assumption) ?_)) | (extract_lets +onlyGivenNames x; first | (suffices hx : Good pd x from ?_; (on_goal 1 => clear_value x); (on_goal 2 => simp only [x])) | skip) | split | simp only [id_eq] | simp only [good_mk])

theorem keep_execPowerSample {pd : List Instr × Prop × Prop} {vin : Nat} {vin1ms : Nat} {iin : Nat} {iin10us : Nat} {iin100ms : Nat} {iin1s : Nat} {pin1s : Nat} {s : State} (h_s : Good pd s) :
    OutGood pd (execPowerSample vin vin1ms iin iin10us iin100ms iin1s pin1s s) := by
  unfold execPowerSample
  show Good pd _
  repeat' (first | with_reducible (first | assumption | apply good_of | (intro _) | apply keep_clearLevels | apply keep_keepRecent | apply keep_rise | apply keep_setBelow | apply good_ite | (refine good_snd (by assumption) ?_) | (refine good_fst (by assumption) ?_)) | (extract_lets +onlyGivenNames x; first | (suffices hx : Good pd x from ?_; (on_goal 1 => clear_value x); (on_goal 2 => simp only [x])) | skip) | split | simp only [id_eq] | simp only [good_mk])

theorem keep_execLevelFall {pd : List Instr × Prop × Prop} {source : BitVec 3} {s : State} (h_s : Good pd s) :
    OutGood pd (execLevelFall source s) := by
  unfold execLevelFall
  show Good pd _
  repeat' (first | with_reducible (first | assumption | apply good_of | (intro _) | apply keep_setLevel | apply good_ite | (refine good_snd (by assumption) ?_) | (refine good_fst (by assumption) ?_)) | (extract_lets +onlyGivenNames x; first | (suffices hx : Good pd x from ?_; (on_goal 1 => clear_value x); (on_goal 2 => simp only [x])) | skip) | split | simp only [id_eq] | simp only [good_mk])

theorem keep_execBrownOut {pd : List Instr × Prop × Prop} {vin : Nat} {s : State} (h_s : Good pd s) :
    OutGood pd (execBrownOut vin s) := by
  unfold execBrownOut
  show Good pd _
  repeat' (first | with_reducible (first | assumption | apply good_of | (intro _) | apply keep_raiseEvent | apply keep_closeCrosscut | apply keep_mainOff | apply keep_writeTrip | apply good_ite | (refine good_snd (by assumption) ?_) | (refine good_fst (by assumption) ?_)) | (extract_lets +onlyGivenNames x; first | (suffices hx : Good pd x from ?_; (on_goal 1 => clear_value x); (on_goal 2 => simp only [x])) | skip) | split | simp only [id_eq] | simp only [good_mk])

theorem keep_startRails {pd : List Instr × Prop × Prop} {s : State} (h_s : Good pd s) :
    Good pd (startRails s) := by
  unfold startRails
  repeat' (first | with_reducible (first | assumption | apply good_of | (intro _) | apply keep_clearLevels | apply good_ite | (refine good_snd (by assumption) ?_) | (refine good_fst (by assumption) ?_)) | (extract_lets +onlyGivenNames x; first | (suffices hx : Good pd x from ?_; (on_goal 1 => clear_value x); (on_goal 2 => simp only [x])) | skip) | split | simp only [id_eq] | simp only [good_mk])

theorem keep_tryStart {pd : List Instr × Prop × Prop} {s : State} (h_s : Good pd s) :
    Good pd (tryStart s) := by
  unfold tryStart
  repeat' (first | with_reducible (first | assumption | apply good_of | (intro _) | apply keep_startRails | apply good_ite | (refine good_snd (by assumption) ?_) | (refine good_fst (by assumption) ?_)) | (extract_lets +onlyGivenNames x; first | (suffices hx : Good pd x from ?_; (on_goal 1 => clear_value x); (on_goal 2 => simp only [x])) | skip) | split | simp only [id_eq] | simp only [good_mk])

theorem keep_moduleReset {pd : List Instr × Prop × Prop} {s : State} {who : Nat} (h_s : Good pd s) :
    Good pd (moduleReset s who) := by
  unfold moduleReset
  repeat' (first | with_reducible (first | assumption | apply good_of | (intro _) | apply keep_closeCrosscut | apply keep_mainOff | apply good_ite | (refine good_snd (by assumption) ?_) | (refine good_fst (by assumption) ?_)) | (extract_lets +onlyGivenNames x; first | (suffices hx : Good pd x from ?_; (on_goal 1 => clear_value x); (on_goal 2 => simp only [x])) | skip) | split | simp only [id_eq] | simp only [good_mk])

theorem keep_abortAll {pd : List Instr × Prop × Prop} {s : State} (h_s : Good pd s) :
    Good pd (abortAll s) := by
  unfold abortAll
  repeat' (first | with_reducible (first | assumption | apply good_of | (intro _) | apply keep_forEach | apply keep_complete | apply good_ite | (refine good_snd (by assumption) ?_) | (refine good_fst (by assumption) ?_)) | (extract_lets +onlyGivenNames x; first | (suffices hx : Good pd x from ?_; (on_goal 1 => clear_value x); (on_goal 2 => simp only [x])) | skip) | split | simp only [id_eq] | simp only [good_mk])

theorem keep_dropPairs {pd : List Instr × Prop × Prop} {s : State} (h_s : Good pd s) :
    Good pd (dropPairs s) := by
  unfold dropPairs
  repeat' (first | with_reducible (first | assumption | apply good_of | (intro _) | apply good_ite | (refine good_snd (by assumption) ?_) | (refine good_fst (by assumption) ?_)) | (extract_lets +onlyGivenNames x; first | (suffices hx : Good pd x from ?_; (on_goal 1 => clear_value x); (on_goal 2 => simp only [x])) | skip) | split | simp only [id_eq] | simp only [good_mk])

theorem keep_softReset {pd : List Instr × Prop × Prop} {s : State} {who : Nat} (h_s : Good pd s) :
    Good pd (softReset s who) := by
  have h0 : Good pd { s with power := { s.power with sumpExists := false } } := good_mk.2 (good_of h_s)
  have h2 : Good pd (setPower (dropPairs (abortAll { s with power := { s.power with sumpExists := false } })) .mainOn) :=
    keep_setPower (keep_dropPairs (keep_abortAll h0))
  unfold softReset
  dsimp only
  generalize setPower _ _ = v at h2 ⊢
  have h3 := keep_softClear h2
  generalize softClear v = w at h3 ⊢
  exact good_mk.2 (good_of h3)

theorem keep_writeDevReset {pd : List Instr × Prop × Prop} {s : State} {a : Accessor} {v : Nat} (h_s : Good pd s) :
    Good pd (writeDevReset s a v) := by
  unfold writeDevReset
  repeat' (first | with_reducible (first | assumption | apply good_of | (intro _) | apply keep_raiseEvent | apply keep_moduleReset | apply keep_softReset | apply good_ite | (refine good_snd (by assumption) ?_) | (refine good_fst (by assumption) ?_)) | (extract_lets +onlyGivenNames x; first | (suffices hx : Good pd x from ?_; (on_goal 1 => clear_value x); (on_goal 2 => simp only [x])) | skip) | split | simp only [id_eq] | simp only [good_mk])

theorem keep_execDevSoft {pd : List Instr × Prop × Prop} {a : Accessor} {value : BitVec 32} {s : State} (h_s : Good pd s) :
    OutGood pd (execDevSoft a value s) := by
  unfold execDevSoft
  show Good pd _
  repeat' (first | with_reducible (first | assumption | apply good_of | (intro _) | apply keep_writeDevReset | apply good_ite | (refine good_snd (by assumption) ?_) | (refine good_fst (by assumption) ?_)) | (extract_lets +onlyGivenNames x; first | (suffices hx : Good pd x from ?_; (on_goal 1 => clear_value x); (on_goal 2 => simp only [x])) | skip) | split | simp only [id_eq] | simp only [good_mk])

theorem keep_execDevModule {pd : List Instr × Prop × Prop} {a : Accessor} {value : BitVec 32} {s : State} (h_s : Good pd s) :
    OutGood pd (execDevModule a value s) := by
  unfold execDevModule
  show Good pd _
  repeat' (first | with_reducible (first | assumption | apply good_of | (intro _) | apply keep_writeDevReset | apply good_ite | (refine good_snd (by assumption) ?_) | (refine good_fst (by assumption) ?_)) | (extract_lets +onlyGivenNames x; first | (suffices hx : Good pd x from ?_; (on_goal 1 => clear_value x); (on_goal 2 => simp only [x])) | skip) | split | simp only [id_eq] | simp only [good_mk])

theorem keep_writeThrottle {pd : List Instr × Prop × Prop} {s : State} {v : Nat} (h_s : Good pd s) :
    Good pd (writeThrottle s v) := by
  unfold writeThrottle
  repeat' (first | with_reducible (first | assumption | apply good_of | (intro _) | apply good_ite | (refine good_snd (by assumption) ?_) | (refine good_fst (by assumption) ?_)) | (extract_lets +onlyGivenNames x; first | (suffices hx : Good pd x from ?_; (on_goal 1 => clear_value x); (on_goal 2 => simp only [x])) | skip) | split | simp only [id_eq] | simp only [good_mk])

theorem keep_execDpThrottlePoint {pd : List Instr × Prop × Prop} {a : Accessor} {value : BitVec 32} {s : State} (h_s : Good pd s) :
    OutGood pd (execDpThrottlePoint a value s) := by
  unfold execDpThrottlePoint
  show Good pd _
  repeat' (first | with_reducible (first | assumption | apply good_of | (intro _) | apply keep_writeThrottle | apply good_ite | (refine good_snd (by assumption) ?_) | (refine good_fst (by assumption) ?_)) | (extract_lets +onlyGivenNames x; first | (suffices hx : Good pd x from ?_; (on_goal 1 => clear_value x); (on_goal 2 => simp only [x])) | skip) | split | simp only [id_eq] | simp only [good_mk])

theorem keep_enterCalibrating {pd : List Instr × Prop × Prop} {s : State} (h_s : Good pd s) :
    Good pd (enterCalibrating s) := by
  unfold enterCalibrating
  repeat' (first | with_reducible (first | assumption | apply good_of | (intro _) | apply keep_startSelfcal | apply keep_setPower | apply good_ite | (refine good_snd (by assumption) ?_) | (refine good_fst (by assumption) ?_)) | (extract_lets +onlyGivenNames x; first | (suffices hx : Good pd x from ?_; (on_goal 1 => clear_value x); (on_goal 2 => simp only [x])) | skip) | split | simp only [id_eq] | simp only [good_mk])

theorem keep_writeTripAck {pd : List Instr × Prop × Prop} {s : State} {a : Accessor} {v : Nat} (h_s : Good pd s) :
    Good pd (writeTripAck s a v) := by
  unfold writeTripAck
  repeat' (first | with_reducible (first | assumption | apply good_of | (intro _) | apply keep_raiseEvent | apply keep_enterCalibrating | apply good_ite | (refine good_snd (by assumption) ?_) | (refine good_fst (by assumption) ?_)) | (extract_lets +onlyGivenNames x; first | (suffices hx : Good pd x from ?_; (on_goal 1 => clear_value x); (on_goal 2 => simp only [x])) | skip) | split | simp only [id_eq] | simp only [good_mk])

theorem keep_execDpTripAck {pd : List Instr × Prop × Prop} {a : Accessor} {value : BitVec 32} {s : State} (h_s : Good pd s) :
    OutGood pd (execDpTripAck a value s) := by
  unfold execDpTripAck
  show Good pd _
  repeat' (first | with_reducible (first | assumption | apply good_of | (intro _) | apply keep_writeTripAck | apply good_ite | (refine good_snd (by assumption) ?_) | (refine good_fst (by assumption) ?_)) | (extract_lets +onlyGivenNames x; first | (suffices hx : Good pd x from ?_; (on_goal 1 => clear_value x); (on_goal 2 => simp only [x])) | skip) | split | simp only [id_eq] | simp only [good_mk])

theorem keep_writeRestart {pd : List Instr × Prop × Prop} {s : State} {a : Accessor} {v : Nat} (h_s : Good pd s) :
    Good pd (writeRestart s a v) := by
  unfold writeRestart
  repeat' (first | with_reducible (first | assumption | apply good_of | (intro _) | apply keep_moduleReset | apply good_ite | (refine good_snd (by assumption) ?_) | (refine good_fst (by assumption) ?_)) | (extract_lets +onlyGivenNames x; first | (suffices hx : Good pd x from ?_; (on_goal 1 => clear_value x); (on_goal 2 => simp only [x])) | skip) | split | simp only [id_eq] | simp only [good_mk])

theorem keep_execDpRestart {pd : List Instr × Prop × Prop} {a : Accessor} {value : BitVec 32} {s : State} (h_s : Good pd s) :
    OutGood pd (execDpRestart a value s) := by
  unfold execDpRestart
  show Good pd _
  repeat' (first | with_reducible (first | assumption | apply good_of | (intro _) | apply keep_writeRestart | apply good_ite | (refine good_snd (by assumption) ?_) | (refine good_fst (by assumption) ?_)) | (extract_lets +onlyGivenNames x; first | (suffices hx : Good pd x from ?_; (on_goal 1 => clear_value x); (on_goal 2 => simp only [x])) | skip) | split | simp only [id_eq] | simp only [good_mk])

theorem keep_overrideEvent {pd : List Instr × Prop × Prop} {s : State} {kind : Nat} {request : Nat} (h_s : Good pd s) :
    Good pd (overrideEvent s kind request) := by
  unfold overrideEvent
  repeat' (first | with_reducible (first | assumption | apply good_of | (intro _) | apply keep_raiseEvent | apply good_ite | (refine good_snd (by assumption) ?_) | (refine good_fst (by assumption) ?_)) | (extract_lets +onlyGivenNames x; first | (suffices hx : Good pd x from ?_; (on_goal 1 => clear_value x); (on_goal 2 => simp only [x])) | skip) | split | simp only [id_eq] | simp only [good_mk])

theorem keep_countCalOverride {pd : List Instr × Prop × Prop} {s : State} (h_s : Good pd s) :
    Good pd (countCalOverride s) := by
  unfold countCalOverride
  repeat' (first | with_reducible (first | assumption | apply good_of | (intro _) | apply keep_overrideEvent | apply good_ite | (refine good_snd (by assumption) ?_) | (refine good_fst (by assumption) ?_)) | (extract_lets +onlyGivenNames x; first | (suffices hx : Good pd x from ?_; (on_goal 1 => clear_value x); (on_goal 2 => simp only [x])) | skip) | split | simp only [id_eq] | simp only [good_mk])

theorem keep_pllRetarget {pd : List Instr × Prop × Prop} {s : State} (h_s : Good pd s) :
    Good pd (pllRetarget s) := by
  unfold pllRetarget
  repeat' (first | with_reducible (first | assumption | apply good_of | (intro _) | apply good_ite | (refine good_snd (by assumption) ?_) | (refine good_fst (by assumption) ?_)) | (extract_lets +onlyGivenNames x; first | (suffices hx : Good pd x from ?_; (on_goal 1 => clear_value x); (on_goal 2 => simp only [x])) | skip) | split | simp only [id_eq] | simp only [good_mk])

theorem keep_setRef {pd : List Instr × Prop × Prop} {s : State} {ref : Nat} {on : Bool} (h_s : Good pd s) :
    Good pd (setRef s ref on) := by
  unfold setRef
  repeat' (first | with_reducible (first | assumption | apply good_of | (intro _) | apply good_ite | (refine good_snd (by assumption) ?_) | (refine good_fst (by assumption) ?_)) | (extract_lets +onlyGivenNames x; first | (suffices hx : Good pd x from ?_; (on_goal 1 => clear_value x); (on_goal 2 => simp only [x])) | skip) | split | simp only [id_eq] | simp only [good_mk])

theorem keep_startElect {pd : List Instr × Prop × Prop} {s : State} (h_s : Good pd s) :
    Good pd (startElect s) := by
  unfold startElect
  repeat' (first | with_reducible (first | assumption | apply good_of | (intro _) | apply keep_draw | apply keep_sendControl | apply keep_raiseEvent | apply good_ite | (refine good_snd (by assumption) ?_) | (refine good_fst (by assumption) ?_)) | (extract_lets +onlyGivenNames x; first | (suffices hx : Good pd x from ?_; (on_goal 1 => clear_value x); (on_goal 2 => simp only [x])) | skip) | split | simp only [id_eq] | simp only [good_mk])

theorem keep_startMeasure {pd : List Instr × Prop × Prop} {s : State} (h_s : Good pd s) :
    Good pd (startMeasure s) := by
  unfold startMeasure
  repeat' (first | with_reducible (first | assumption | apply good_of | (intro _) | apply keep_sendControl | apply good_ite | (refine good_snd (by assumption) ?_) | (refine good_fst (by assumption) ?_)) | (extract_lets +onlyGivenNames x; first | (suffices hx : Good pd x from ?_; (on_goal 1 => clear_value x); (on_goal 2 => simp only [x])) | skip) | split | simp only [id_eq] | simp only [good_mk])

theorem keep_startBringup {pd : List Instr × Prop × Prop} {s : State} (h_s : Good pd s) :
    Good pd (startBringup s) := by
  unfold startBringup
  repeat' (first | with_reducible (first | assumption | apply good_of | (intro _) | apply good_ite | (refine good_snd (by assumption) ?_) | (refine good_fst (by assumption) ?_)) | (extract_lets +onlyGivenNames x; first | (suffices hx : Good pd x from ?_; (on_goal 1 => clear_value x); (on_goal 2 => simp only [x])) | skip) | split | simp only [id_eq] | simp only [good_mk])

theorem keep_repeatClock {pd : List Instr × Prop × Prop} {s : State} (h_s : Good pd s) :
    Good pd (repeatClock s) := by
  unfold repeatClock
  repeat' (first | with_reducible (first | assumption | apply good_of | (intro _) | apply keep_broadcast | apply keep_startMeasure | apply good_ite | (refine good_snd (by assumption) ?_) | (refine good_fst (by assumption) ?_)) | (extract_lets +onlyGivenNames x; first | (suffices hx : Good pd x from ?_; (on_goal 1 => clear_value x); (on_goal 2 => simp only [x])) | skip) | split | simp only [id_eq] | simp only [good_mk])

theorem keep_execRefLost {pd : List Instr × Prop × Prop} {ref : BitVec 3} {s : State} (h_s : Good pd s) :
    OutGood pd (execRefLost ref s) := by
  unfold execRefLost
  show Good pd _
  repeat' (first | with_reducible (first | assumption | apply good_of | (intro _) | apply keep_raiseEvent | apply keep_setRef | apply good_ite | (refine good_snd (by assumption) ?_) | (refine good_fst (by assumption) ?_)) | (extract_lets +onlyGivenNames x; first | (suffices hx : Good pd x from ?_; (on_goal 1 => clear_value x); (on_goal 2 => simp only [x])) | skip) | split | simp only [id_eq] | simp only [good_mk])

theorem keep_execRefHoldoverExpiry {pd : List Instr × Prop × Prop} {s : State} (h_s : Good pd s) :
    OutGood pd (execRefHoldoverExpiry s) := by
  unfold execRefHoldoverExpiry
  show Good pd _
  repeat' (first | with_reducible (first | assumption | apply good_of | (intro _) | apply keep_pllRetarget | apply good_ite | (refine good_snd (by assumption) ?_) | (refine good_fst (by assumption) ?_)) | (extract_lets +onlyGivenNames x; first | (suffices hx : Good pd x from ?_; (on_goal 1 => clear_value x); (on_goal 2 => simp only [x])) | skip) | split | simp only [id_eq] | simp only [good_mk])

theorem keep_execReferenceAppear {pd : List Instr × Prop × Prop} {ref : BitVec 3} {s : State} (h_s : Good pd s) :
    OutGood pd (execReferenceAppear ref s) := by
  unfold execReferenceAppear
  show Good pd _
  repeat' (first | with_reducible (first | assumption | apply good_of | (intro _) | apply keep_pllRetarget | apply keep_setRef | apply good_ite | (refine good_snd (by assumption) ?_) | (refine good_fst (by assumption) ?_)) | (extract_lets +onlyGivenNames x; first | (suffices hx : Good pd x from ?_; (on_goal 1 => clear_value x); (on_goal 2 => simp only [x])) | skip) | split | simp only [id_eq] | simp only [good_mk])

theorem keep_execRefLocked {pd : List Instr × Prop × Prop} {us : BitVec 16} {s : State} (h_s : Good pd s) :
    OutGood pd (execRefLocked us s) := by
  unfold execRefLocked
  show Good pd _
  repeat' (first | with_reducible (first | assumption | apply good_of | (intro _) | apply keep_raiseEvent | apply keep_startMeasure | apply good_ite | (refine good_snd (by assumption) ?_) | (refine good_fst (by assumption) ?_)) | (extract_lets +onlyGivenNames x; first | (suffices hx : Good pd x from ?_; (on_goal 1 => clear_value x); (on_goal 2 => simp only [x])) | skip) | split | simp only [id_eq] | simp only [good_mk])

theorem keep_auxOff {pd : List Instr × Prop × Prop} {s : State} (h_s : Good pd s) : Good pd (auxOff s) := by
  unfold auxOff
  rw [good_mk]
  have := goodFields_less (good_of h_s) (fun _ => true) (fun k => k != pgDp) (fun z _ _ h _ => by simpa [pgDp] using h)
  rwa [show s.frozen.filter (fun _ => true) = s.frozen by simp] at this

theorem keep_execAuxApply {pd : List Instr × Prop × Prop} {s : State} (h_s : Good pd s) :
    OutGood pd (execAuxApply s) := by
  unfold execAuxApply
  show Good pd _
  repeat' (first | with_reducible (first | assumption | apply good_of | (intro _) | apply keep_setPower | apply good_ite | (refine good_snd (by assumption) ?_) | (refine good_fst (by assumption) ?_)) | (extract_lets +onlyGivenNames x; first | (suffices hx : Good pd x from ?_; (on_goal 1 => clear_value x); (on_goal 2 => simp only [x])) | skip) | split | simp only [id_eq] | simp only [good_mk])

theorem keep_execAuxLoss {pd : List Instr × Prop × Prop} {s : State} (h_s : Good pd s) :
    OutGood pd (execAuxLoss s) := by
  unfold execAuxLoss
  show Good pd _
  repeat' (first | with_reducible (first | assumption | apply good_of | (intro _) | apply keep_setPower | apply keep_closeCrosscut | apply keep_mainOff | apply keep_clearLevels | apply keep_auxOff | apply good_ite | (refine good_snd (by assumption) ?_) | (refine good_fst (by assumption) ?_)) | (extract_lets +onlyGivenNames x; first | (suffices hx : Good pd x from ?_; (on_goal 1 => clear_value x); (on_goal 2 => simp only [x])) | skip) | split | simp only [id_eq] | simp only [good_mk])

theorem keep_execHoldUpBankDepleted {pd : List Instr × Prop × Prop} {s : State} (h_s : Good pd s) :
    OutGood pd (execHoldUpBankDepleted s) := by
  unfold execHoldUpBankDepleted
  show Good pd _
  repeat' (first | with_reducible (first | assumption | apply good_of | (intro _) | apply keep_auxOff | apply good_ite | (refine good_snd (by assumption) ?_) | (refine good_fst (by assumption) ?_)) | (extract_lets +onlyGivenNames x; first | (suffices hx : Good pd x from ?_; (on_goal 1 => clear_value x); (on_goal 2 => simp only [x])) | skip) | split | simp only [id_eq] | simp only [good_mk])

theorem keep_execVinApply {pd : List Instr × Prop × Prop} {vin : BitVec 16} {s : State} (h_s : Good pd s) :
    OutGood pd (execVinApply vin s) := by
  unfold execVinApply
  show Good pd _
  repeat' (first | with_reducible (first | assumption | apply good_of | (intro _) | apply good_ite | (refine good_snd (by assumption) ?_) | (refine good_fst (by assumption) ?_)) | (extract_lets +onlyGivenNames x; first | (suffices hx : Good pd x from ?_; (on_goal 1 => clear_value x); (on_goal 2 => simp only [x])) | skip) | split | simp only [id_eq] | simp only [good_mk])

theorem keep_execPwrEnRise {pd : List Instr × Prop × Prop} {s : State} (h_s : Good pd s) :
    OutGood pd (execPwrEnRise s) := by
  unfold execPwrEnRise
  show Good pd _
  repeat' (first | with_reducible (first | assumption | apply good_of | (intro _) | apply keep_clearLevels | apply keep_tryStart | apply good_ite | (refine good_snd (by assumption) ?_) | (refine good_fst (by assumption) ?_)) | (extract_lets +onlyGivenNames x; first | (suffices hx : Good pd x from ?_; (on_goal 1 => clear_value x); (on_goal 2 => simp only [x])) | skip) | split | simp only [id_eq] | simp only [good_mk])

theorem keep_execPwrEnFall {pd : List Instr × Prop × Prop} {s : State} (h_s : Good pd s) :
    OutGood pd (execPwrEnFall s) := by
  unfold execPwrEnFall
  show Good pd _
  repeat' (first | with_reducible (first | assumption | apply good_of | (intro _) | apply keep_closeCrosscut | apply keep_mainOff | apply good_ite | (refine good_snd (by assumption) ?_) | (refine good_fst (by assumption) ?_)) | (extract_lets +onlyGivenNames x; first | (suffices hx : Good pd x from ?_; (on_goal 1 => clear_value x); (on_goal 2 => simp only [x])) | skip) | split | simp only [id_eq] | simp only [good_mk])

theorem keep_execThermTripRelease {pd : List Instr × Prop × Prop} {s : State} (h_s : Good pd s) :
    OutGood pd (execThermTripRelease s) := by
  unfold execThermTripRelease
  show Good pd _
  repeat' (first | with_reducible (first | assumption | apply good_of | (intro _) | apply good_ite | (refine good_snd (by assumption) ?_) | (refine good_fst (by assumption) ?_)) | (extract_lets +onlyGivenNames x; first | (suffices hx : Good pd x from ?_; (on_goal 1 => clear_value x); (on_goal 2 => simp only [x])) | skip) | split | simp only [id_eq] | simp only [good_mk])

theorem keep_execMainRailsStart {pd : List Instr × Prop × Prop} {bank : Bool} {s : State} (h_s : Good pd s) :
    OutGood pd (execMainRailsStart bank s) := by
  unfold execMainRailsStart
  show Good pd _
  repeat' (first | with_reducible (first | assumption | apply good_of | (intro _) | apply keep_tryStart | apply good_ite | (refine good_snd (by assumption) ?_) | (refine good_fst (by assumption) ?_)) | (extract_lets +onlyGivenNames x; first | (suffices hx : Good pd x from ?_; (on_goal 1 => clear_value x); (on_goal 2 => simp only [x])) | skip) | split | simp only [id_eq] | simp only [good_mk])

theorem keep_execModuleRestart {pd : List Instr × Prop × Prop} {s : State} (h_s : Good pd s) :
    OutGood pd (execModuleRestart s) := by
  unfold execModuleRestart
  show Good pd _
  repeat' (first | with_reducible (first | assumption | apply good_of | (intro _) | apply keep_clearLevels | apply keep_tryStart | apply good_ite | (refine good_snd (by assumption) ?_) | (refine good_fst (by assumption) ?_)) | (extract_lets +onlyGivenNames x; first | (suffices hx : Good pd x from ?_; (on_goal 1 => clear_value x); (on_goal 2 => simp only [x])) | skip) | split | simp only [id_eq] | simp only [good_mk])

theorem keep_startPort {pd : List Instr × Prop × Prop} {s : State} {port : Bool} (h_s : Good pd s) :
    Good pd (startPort s port) := by
  unfold startPort
  repeat' (first | with_reducible (first | assumption | apply good_of | (intro _) | apply keep_modHp | apply good_ite | (refine good_snd (by assumption) ?_) | (refine good_fst (by assumption) ?_)) | (extract_lets +onlyGivenNames x; first | (suffices hx : Good pd x from ?_; (on_goal 1 => clear_value x); (on_goal 2 => simp only [x])) | skip) | split | simp only [id_eq] | simp only [good_mk])

theorem keep_execMainOn {pd : List Instr × Prop × Prop} {light : Bool} {failed : List (BitVec 3 × BitVec 5 × BitVec 8)} {s : State} (h_s : Good pd s) :
    OutGood pd (execMainOn light failed s) := by
  unfold execMainOn
  show Good pd _
  repeat' (first | with_reducible (first | assumption | apply good_of | (intro _) | apply keep_modSc | apply keep_forEach | apply keep_raiseEvent | apply keep_setPower | apply keep_openCrosscut | apply keep_updateQuiet | apply keep_pllRetarget | apply keep_startPort | apply good_ite | (refine good_snd (by assumption) ?_) | (refine good_fst (by assumption) ?_)) | (extract_lets +onlyGivenNames x; first | (suffices hx : Good pd x from ?_; (on_goal 1 => clear_value x); (on_goal 2 => simp only [x])) | skip) | split | simp only [id_eq] | simp only [good_mk])

theorem keep_enterRom {pd : List Instr × Prop × Prop} {s : State} (h_s : Good pd s) : Good pd (enterRom s) := by
  unfold enterRom
  apply keep_startBringup
  apply keep_setPower
  rw [good_mk]
  exact goodFields_noMem (good_of h_s)

theorem keep_execZeroFillDone {pd : List Instr × Prop × Prop} {s : State} (h_s : Good pd s) :
    OutGood pd (execZeroFillDone s) := by
  unfold execZeroFillDone
  show Good pd _
  repeat' (first | with_reducible (first | assumption | apply good_of | (intro _) | apply keep_enterRom | apply good_ite | (refine good_snd (by assumption) ?_) | (refine good_fst (by assumption) ?_)) | (extract_lets +onlyGivenNames x; first | (suffices hx : Good pd x from ?_; (on_goal 1 => clear_value x); (on_goal 2 => simp only [x])) | skip) | split | simp only [id_eq] | simp only [good_mk])

theorem keep_execSoftResetDone {pd : List Instr × Prop × Prop} {s : State} (h_s : Good pd s) :
    OutGood pd (execSoftResetDone s) := by
  unfold execSoftResetDone
  show Good pd _
  repeat' (first | with_reducible (first | assumption | apply good_of | (intro _) | apply keep_enterRom | apply good_ite | (refine good_snd (by assumption) ?_) | (refine good_fst (by assumption) ?_)) | (extract_lets +onlyGivenNames x; first | (suffices hx : Good pd x from ?_; (on_goal 1 => clear_value x); (on_goal 2 => simp only [x])) | skip) | split | simp only [id_eq] | simp only [good_mk])

theorem keep_loadUnavailable {pd : List Instr × Prop × Prop} {s : State} (h_s : Good pd s) :
    Good pd (loadUnavailable s) := by
  unfold loadUnavailable
  repeat' (first | with_reducible (first | assumption | apply good_of | (intro _) | apply keep_modTg | apply keep_forEach | apply good_ite | (refine good_snd (by assumption) ?_) | (refine good_fst (by assumption) ?_)) | (extract_lets +onlyGivenNames x; first | (suffices hx : Good pd x from ?_; (on_goal 1 => clear_value x); (on_goal 2 => simp only [x])) | skip) | split | simp only [id_eq] | simp only [good_mk])

theorem keep_loadReliefs {pd : List Instr × Prop × Prop} {s : State} (h_s : Good pd s) :
    Good pd (loadReliefs s) := by
  unfold loadReliefs
  repeat' (first | with_reducible (first | assumption | apply good_of | (intro _) | apply keep_modTg | apply keep_forEach | apply keep_raiseEvent | apply keep_loadUnavailable | apply good_ite | (refine good_snd (by assumption) ?_) | (refine good_fst (by assumption) ?_)) | (extract_lets +onlyGivenNames x; first | (suffices hx : Good pd x from ?_; (on_goal 1 => clear_value x); (on_goal 2 => simp only [x])) | skip) | split | simp only [id_eq] | simp only [good_mk])

theorem keep_newKey {pd : List Instr × Prop × Prop} {s : State} (h_s : Good pd s) :
    Good pd (newKey s).2 := by
  unfold newKey
  repeat' (first | with_reducible (first | assumption | apply good_of | (intro _) | apply good_ite | (refine good_snd (by assumption) ?_) | (refine good_fst (by assumption) ?_)) | (extract_lets +onlyGivenNames x; first | (suffices hx : Good pd x from ?_; (on_goal 1 => clear_value x); (on_goal 2 => simp only [x])) | skip) | split | simp only [id_eq] | simp only [good_mk])

theorem keep_restoreSlot {pd : List Instr × Prop × Prop} {s : State} {o : Nat} {r : SealRec} (h_s : Good pd s) :
    Good pd (restoreSlot s o r) := by
  unfold restoreSlot
  repeat' (first | with_reducible (first | assumption | apply good_of | (intro _) | apply keep_modSlot | apply keep_raiseEvent | apply keep_newKey | apply good_ite | (refine good_snd (by assumption) ?_) | (refine good_fst (by assumption) ?_)) | (extract_lets +onlyGivenNames x; first | (suffices hx : Good pd x from ?_; (on_goal 1 => clear_value x); (on_goal 2 => simp only [x])) | skip) | split | simp only [id_eq] | simp only [good_mk])

theorem keep_reportTrips {pd : List Instr × Prop × Prop} {s : State} (h_s : Good pd s) :
    Good pd (reportTrips s) := by
  unfold reportTrips
  repeat' (first | with_reducible (first | assumption | apply good_of | (intro _) | apply keep_forEach | apply keep_raiseEvent | apply good_ite | (refine good_snd (by assumption) ?_) | (refine good_fst (by assumption) ?_)) | (extract_lets +onlyGivenNames x; first | (suffices hx : Good pd x from ?_; (on_goal 1 => clear_value x); (on_goal 2 => simp only [x])) | skip) | split | simp only [id_eq] | simp only [good_mk])

theorem keep_execFwLoadedWorkDone {pd : List Instr × Prop × Prop} {identity : BitVec 2} {s : State} (h_s : Good pd s) :
    OutGood pd (execFwLoadedWorkDone identity s) := by
  unfold execFwLoadedWorkDone
  show Good pd _
  repeat' (first | with_reducible (first | assumption | apply good_of | (intro _) | apply keep_modTg | apply keep_modSlot | apply keep_forEach | apply keep_raiseEvent | apply keep_setPower | apply keep_loadReliefs | apply keep_newKey | apply keep_restoreSlot | apply keep_reportTrips | apply good_ite | (refine good_snd (by assumption) ?_) | (refine good_fst (by assumption) ?_)) | (extract_lets +onlyGivenNames x; first | (suffices hx : Good pd x from ?_; (on_goal 1 => clear_value x); (on_goal 2 => simp only [x])) | skip) | split | simp only [id_eq] | simp only [good_mk])

theorem keep_execConfiguredWorkDone {pd : List Instr × Prop × Prop} {s : State} (h_s : Good pd s) :
    OutGood pd (execConfiguredWorkDone s) := by
  unfold execConfiguredWorkDone
  show Good pd _
  repeat' (first | with_reducible (first | assumption | apply good_of | (intro _) | apply keep_enterCalibrating | apply good_ite | (refine good_snd (by assumption) ?_) | (refine good_fst (by assumption) ?_)) | (extract_lets +onlyGivenNames x; first | (suffices hx : Good pd x from ?_; (on_goal 1 => clear_value x); (on_goal 2 => simp only [x])) | skip) | split | simp only [id_eq] | simp only [good_mk])

theorem keep_advanceMvc {pd : List Instr × Prop × Prop} {s : State} {cause : Nat} (h_s : Good pd s) :
    Good pd (advanceMvc s cause) := by
  unfold advanceMvc
  repeat' (first | with_reducible (first | assumption | apply good_of | (intro _) | apply keep_raiseEvent | apply good_ite | (refine good_snd (by assumption) ?_) | (refine good_fst (by assumption) ?_)) | (extract_lets +onlyGivenNames x; first | (suffices hx : Good pd x from ?_; (on_goal 1 => clear_value x); (on_goal 2 => simp only [x])) | skip) | split | simp only [id_eq] | simp only [good_mk])

theorem keep_adoptRestored {pd : List Instr × Prop × Prop} {s : State} (h_s : Good pd s) :
    Good pd (adoptRestored s) := by
  unfold adoptRestored
  repeat' (first | with_reducible (first | assumption | apply good_of | (intro _) | apply keep_setOwner | apply keep_forEach | apply good_ite | (refine good_snd (by assumption) ?_) | (refine good_fst (by assumption) ?_)) | (extract_lets +onlyGivenNames x; first | (suffices hx : Good pd x from ?_; (on_goal 1 => clear_value x); (on_goal 2 => simp only [x])) | skip) | split | simp only [id_eq] | simp only [good_mk])

theorem keep_startGrace {pd : List Instr × Prop × Prop} {s : State} (h_s : Good pd s) :
    Good pd (startGrace s) := by
  unfold startGrace
  repeat' (first | with_reducible (first | assumption | apply good_of | (intro _) | apply keep_modOwner | apply keep_forEach | apply good_ite | (refine good_snd (by assumption) ?_) | (refine good_fst (by assumption) ?_)) | (extract_lets +onlyGivenNames x; first | (suffices hx : Good pd x from ?_; (on_goal 1 => clear_value x); (on_goal 2 => simp only [x])) | skip) | split | simp only [id_eq] | simp only [good_mk])

theorem keep_enterReady {pd : List Instr × Prop × Prop} {s : State} (h_s : Good pd s) :
    Good pd (enterReady s) := by
  unfold enterReady
  repeat' (first | with_reducible (first | assumption | apply good_of | (intro _) | apply keep_setPower | apply keep_advanceMvc | apply keep_adoptRestored | apply keep_startGrace | apply good_ite | (refine good_snd (by assumption) ?_) | (refine good_fst (by assumption) ?_)) | (extract_lets +onlyGivenNames x; first | (suffices hx : Good pd x from ?_; (on_goal 1 => clear_value x); (on_goal 2 => simp only [x])) | skip) | split | simp only [id_eq] | simp only [good_mk])

theorem keep_formSolo {pd : List Instr × Prop × Prop} {s : State} (h_s : Good pd s) :
    Good pd (formSolo s) := by
  unfold formSolo
  repeat' (first | with_reducible (first | assumption | apply good_of | (intro _) | apply keep_raiseEvent | apply good_ite | (refine good_snd (by assumption) ?_) | (refine good_fst (by assumption) ?_)) | (extract_lets +onlyGivenNames x; first | (suffices hx : Good pd x from ?_; (on_goal 1 => clear_value x); (on_goal 2 => simp only [x])) | skip) | split | simp only [id_eq] | simp only [good_mk])

theorem keep_execStartupCalDone {pd : List Instr × Prop × Prop} {peerLight : Bool} {s : State} (h_s : Good pd s) :
    OutGood pd (execStartupCalDone peerLight s) := by
  unfold execStartupCalDone
  show Good pd _
  repeat' (first | with_reducible (first | assumption | apply good_of | (intro _) | apply keep_setPower | apply keep_startElect | apply keep_startBringup | apply keep_enterReady | apply keep_formSolo | apply good_ite | (refine good_snd (by assumption) ?_) | (refine good_fst (by assumption) ?_)) | (extract_lets +onlyGivenNames x; first | (suffices hx : Good pd x from ?_; (on_goal 1 => clear_value x); (on_goal 2 => simp only [x])) | skip) | split | simp only [id_eq] | simp only [good_mk])

theorem keep_setExtents {pd : List Instr × Prop × Prop} {s : State} {lo : Nat} {hi : Nat} {h : Nat} (h_s : Good pd s) :
    Good pd (setExtents s lo hi h) := by
  unfold setExtents
  repeat' (first | with_reducible (first | assumption | apply good_of | (intro _) | apply good_ite | (refine good_snd (by assumption) ?_) | (refine good_fst (by assumption) ?_)) | (extract_lets +onlyGivenNames x; first | (suffices hx : Good pd x from ?_; (on_goal 1 => clear_value x); (on_goal 2 => simp only [x])) | skip) | split | simp only [id_eq] | simp only [good_mk])

theorem keep_fwResult {pd : List Instr × Prop × Prop} {s : State} {code : Nat} (h_s : Good pd s) :
    Good pd (fwResult s code) := by
  unfold fwResult
  repeat' (first | with_reducible (first | assumption | apply good_of | (intro _) | apply good_ite | (refine good_snd (by assumption) ?_) | (refine good_fst (by assumption) ?_)) | (extract_lets +onlyGivenNames x; first | (suffices hx : Good pd x from ?_; (on_goal 1 => clear_value x); (on_goal 2 => simp only [x])) | skip) | split | simp only [id_eq] | simp only [good_mk])

theorem keep_fwReject {pd : List Instr × Prop × Prop} {s : State} {code : Nat} {action : Nat} (h_s : Good pd s) :
    Good pd (fwReject s code action) := by
  unfold fwReject
  repeat' (first | with_reducible (first | assumption | apply good_of | (intro _) | apply keep_raiseEvent | apply keep_fwResult | apply good_ite | (refine good_snd (by assumption) ?_) | (refine good_fst (by assumption) ?_)) | (extract_lets +onlyGivenNames x; first | (suffices hx : Good pd x from ?_; (on_goal 1 => clear_value x); (on_goal 2 => simp only [x])) | skip) | split | simp only [id_eq] | simp only [good_mk])

theorem keep_stageFail {pd : List Instr × Prop × Prop} {s : State} {code : Nat} (h_s : Good pd s) :
    Good pd (stageFail s code) := by
  unfold stageFail
  repeat' (first | with_reducible (first | assumption | apply good_of | (intro _) | apply keep_fwReject | apply good_ite | (refine good_snd (by assumption) ?_) | (refine good_fst (by assumption) ?_)) | (extract_lets +onlyGivenNames x; first | (suffices hx : Good pd x from ?_; (on_goal 1 => clear_value x); (on_goal 2 => simp only [x])) | skip) | split | simp only [id_eq] | simp only [good_mk])

theorem keep_stageDoorbell {pd : List Instr × Prop × Prop} {s : State} {a : Accessor} {addr : Nat} (h_s : Good pd s) :
    Good pd (stageDoorbell s a addr) := by
  unfold stageDoorbell
  repeat' (first | with_reducible (first | assumption | apply good_of | (intro _) | apply keep_copyBytes | apply keep_stageFail | apply good_ite | (refine good_snd (by assumption) ?_) | (refine good_fst (by assumption) ?_)) | (extract_lets +onlyGivenNames x; first | (suffices hx : Good pd x from ?_; (on_goal 1 => clear_value x); (on_goal 2 => simp only [x])) | skip) | split | simp only [id_eq] | simp only [good_mk])

theorem keep_writeDoorbell {pd : List Instr × Prop × Prop} {s : State} {a : Accessor} {v : Nat} (h_s : Good pd s) :
    Good pd (writeDoorbell s a v) := by
  unfold writeDoorbell
  repeat' (first | with_reducible (first | assumption | apply good_of | (intro _) | apply keep_stageDoorbell | apply good_ite | (refine good_snd (by assumption) ?_) | (refine good_fst (by assumption) ?_)) | (extract_lets +onlyGivenNames x; first | (suffices hx : Good pd x from ?_; (on_goal 1 => clear_value x); (on_goal 2 => simp only [x])) | skip) | split | simp only [id_eq] | simp only [good_mk])

theorem keep_execBoot {pd : List Instr × Prop × Prop} {a : Accessor} {value : BitVec 32} {s : State} (h_s : Good pd s) :
    OutGood pd (execBoot a value s) := by
  unfold execBoot
  show Good pd _
  repeat' (first | with_reducible (first | assumption | apply good_of | (intro _) | apply keep_writeDoorbell | apply good_ite | (refine good_snd (by assumption) ?_) | (refine good_fst (by assumption) ?_)) | (extract_lets +onlyGivenNames x; first | (suffices hx : Good pd x from ?_; (on_goal 1 => clear_value x); (on_goal 2 => simp only [x])) | skip) | split | simp only [id_eq] | simp only [good_mk])

theorem keep_execStage {pd : List Instr × Prop × Prop} {a : Accessor} {value : BitVec 32} {s : State} (h_s : Good pd s) :
    OutGood pd (execStage a value s) := by
  unfold execStage
  show Good pd _
  repeat' (first | with_reducible (first | assumption | apply good_of | (intro _) | apply keep_writeDoorbell | apply good_ite | (refine good_snd (by assumption) ?_) | (refine good_fst (by assumption) ?_)) | (extract_lets +onlyGivenNames x; first | (suffices hx : Good pd x from ?_; (on_goal 1 => clear_value x); (on_goal 2 => simp only [x])) | skip) | split | simp only [id_eq] | simp only [good_mk])

theorem keep_setSump {pd : List Instr × Prop × Prop} {s : State} {log : Nat} (h_s : Good pd s) :
    Good pd (setSump s log) := by
  unfold setSump
  repeat' (first | with_reducible (first | assumption | apply good_of | (intro _) | apply keep_setExtents | apply good_ite | (refine good_snd (by assumption) ?_) | (refine good_fst (by assumption) ?_)) | (extract_lets +onlyGivenNames x; first | (suffices hx : Good pd x from ?_; (on_goal 1 => clear_value x); (on_goal 2 => simp only [x])) | skip) | split | simp only [id_eq] | simp only [good_mk])

theorem keep_holdFirmware {pd : List Instr × Prop × Prop} {s : State} (h_s : Good pd s) :
    Good pd (holdFirmware s) := by
  unfold holdFirmware
  have h1 : Good pd (setExtents s 0 32768 257) := keep_setExtents h_s
  generalize setExtents s 0 32768 257 = u at h1 ⊢
  generalize Config.firmwareExtents = l
  induction l generalizing u with
  | nil => exact h1
  | cons r rs ih => exact ih _ (keep_setExtents h1)

theorem keep_loadKernel {pd : List Instr × Prop × Prop} {s : State} {base : Nat} (h_s : Good pd s) :
    Good pd (loadKernel s base) := by
  unfold loadKernel
  repeat' (first | with_reducible (first | assumption | apply good_of | (intro _) | apply good_ite | (refine good_snd (by assumption) ?_) | (refine good_fst (by assumption) ?_)) | (extract_lets +onlyGivenNames x; first | (suffices hx : Good pd x from ?_; (on_goal 1 => clear_value x); (on_goal 2 => simp only [x])) | skip) | split | simp only [id_eq] | simp only [good_mk])

theorem keep_bootAccept {pd : List Instr × Prop × Prop} {s : State} (h_s : Good pd s) :
    Good pd (bootAccept s) := by
  unfold bootAccept
  repeat' (first | with_reducible (first | assumption | apply good_of | (intro _) | apply keep_sendImage | apply keep_raiseEvent | apply keep_copyBytes | apply keep_powerEvent | apply keep_fwResult | apply keep_setSump | apply keep_holdFirmware | apply keep_loadKernel | apply good_ite | (refine good_snd (by assumption) ?_) | (refine good_fst (by assumption) ?_)) | (extract_lets +onlyGivenNames x; first | (suffices hx : Good pd x from ?_; (on_goal 1 => clear_value x); (on_goal 2 => simp only [x])) | skip) | split | simp only [id_eq] | simp only [good_mk])

theorem keep_execFwVerifyDone {pd : List Instr × Prop × Prop} {s : State} (h_s : Good pd s) :
    OutGood pd (execFwVerifyDone s) := by
  unfold execFwVerifyDone
  show Good pd _
  repeat' (first | with_reducible (first | assumption | apply good_of | (intro _) | apply keep_forEach | apply keep_sendMessage | apply keep_sendImage | apply keep_trainFail | apply keep_fwResult | apply keep_fwReject | apply keep_stageFail | apply keep_bootAccept | apply good_ite | (refine good_snd (by assumption) ?_) | (refine good_fst (by assumption) ?_)) | (extract_lets +onlyGivenNames x; first | (suffices hx : Good pd x from ?_; (on_goal 1 => clear_value x); (on_goal 2 => simp only [x])) | skip) | split | simp only [id_eq] | simp only [good_mk])

theorem keep_imagePacket {pd : List Instr × Prop × Prop} {s : State} {offset : Nat} {data : List Byte} {last : Bool} (h_s : Good pd s) :
    Good pd (imagePacket s offset data last) := by
  unfold imagePacket
  repeat' (first | with_reducible (first | assumption | apply good_of | (intro _) | apply keep_writeUnder | apply good_ite | (refine good_snd (by assumption) ?_) | (refine good_fst (by assumption) ?_)) | (extract_lets +onlyGivenNames x; first | (suffices hx : Good pd x from ?_; (on_goal 1 => clear_value x); (on_goal 2 => simp only [x])) | skip) | split | simp only [id_eq] | simp only [good_mk])

theorem keep_execFwImagePacket {pd : List Instr × Prop × Prop} {offset : BitVec 32} {data : List Byte} {last : Bool} {s : State} (h_s : Good pd s) :
    OutGood pd (execFwImagePacket offset data last s) := by
  unfold execFwImagePacket
  show Good pd _
  repeat' (first | with_reducible (first | assumption | apply good_of | (intro _) | apply keep_imagePacket | apply good_ite | (refine good_snd (by assumption) ?_) | (refine good_fst (by assumption) ?_)) | (extract_lets +onlyGivenNames x; first | (suffices hx : Good pd x from ?_; (on_goal 1 => clear_value x); (on_goal 2 => simp only [x])) | skip) | split | simp only [id_eq] | simp only [good_mk])

theorem keep_execFwStaged {pd : List Instr × Prop × Prop} {results : List (BitVec 6 × BitVec 8)} {s : State} (h_s : Good pd s) :
    OutGood pd (execFwStaged results s) := by
  unfold execFwStaged
  show Good pd _
  refine good_ite h_s ?_
  extract_lets positions src s1
  have h1 : Good pd s1 := keep_broadcast (good_mk.2 (good_of h_s))
  clear_value s1
  split
  · exact keep_broadcast (good_mk.2 (good_of h_s))
  · refine good_ite (good_mk.2 (good_of h_s)) ?_
    split
    · exact keep_raiseEvent h1
    · exact h1

theorem keep_discardStaged {pd : List Instr × Prop × Prop} {s : State} {cause : Nat} (h_s : Good pd s) :
    Good pd (discardStaged s cause) := by
  unfold discardStaged
  repeat' (first | with_reducible (first | assumption | apply good_of | (intro _) | apply keep_raiseEvent | apply good_ite | (refine good_snd (by assumption) ?_) | (refine good_fst (by assumption) ?_)) | (extract_lets +onlyGivenNames x; first | (suffices hx : Good pd x from ?_; (on_goal 1 => clear_value x); (on_goal 2 => simp only [x])) | skip) | split | simp only [id_eq] | simp only [good_mk])

theorem keep_changeDiscards {pd : List Instr × Prop × Prop} {s : State} {cause : Nat} (h_s : Good pd s) :
    Good pd (changeDiscards s cause) := by
  unfold changeDiscards
  repeat' (first | with_reducible (first | assumption | apply good_of | (intro _) | apply keep_discardStaged | apply good_ite | (refine good_snd (by assumption) ?_) | (refine good_fst (by assumption) ?_)) | (extract_lets +onlyGivenNames x; first | (suffices hx : Good pd x from ?_; (on_goal 1 => clear_value x); (on_goal 2 => simp only [x])) | skip) | split | simp only [id_eq] | simp only [good_mk])

theorem keep_pendHandoff {pd : List Instr × Prop × Prop} {s : State} (h_s : Good pd s) :
    Good pd (pendHandoff s) := by
  unfold pendHandoff
  repeat' (first | with_reducible (first | assumption | apply good_of | (intro _) | apply keep_broadcast | apply good_ite | (refine good_snd (by assumption) ?_) | (refine good_fst (by assumption) ?_)) | (extract_lets +onlyGivenNames x; first | (suffices hx : Good pd x from ?_; (on_goal 1 => clear_value x); (on_goal 2 => simp only [x])) | skip) | split | simp only [id_eq] | simp only [good_mk])

theorem keep_writeHandoff {pd : List Instr × Prop × Prop} {s : State} {a : Accessor} {v : Nat} (h_s : Good pd s) :
    Good pd (writeHandoff s a v) := by
  unfold writeHandoff
  repeat' (first | with_reducible (first | assumption | apply good_of | (intro _) | apply keep_broadcast | apply keep_discardStaged | apply keep_pendHandoff | apply good_ite | (refine good_snd (by assumption) ?_) | (refine good_fst (by assumption) ?_)) | (extract_lets +onlyGivenNames x; first | (suffices hx : Good pd x from ?_; (on_goal 1 => clear_value x); (on_goal 2 => simp only [x])) | skip) | split | simp only [id_eq] | simp only [good_mk])

theorem keep_execCxActivate {pd : List Instr × Prop × Prop} {a : Accessor} {value : BitVec 32} {s : State} (h_s : Good pd s) :
    OutGood pd (execCxActivate a value s) := by
  unfold execCxActivate
  show Good pd _
  repeat' (first | with_reducible (first | assumption | apply good_of | (intro _) | apply keep_writeHandoff | apply good_ite | (refine good_snd (by assumption) ?_) | (refine good_fst (by assumption) ?_)) | (extract_lets +onlyGivenNames x; first | (suffices hx : Good pd x from ?_; (on_goal 1 => clear_value x); (on_goal 2 => simp only [x])) | skip) | split | simp only [id_eq] | simp only [good_mk])

theorem keep_execCxDiscard {pd : List Instr × Prop × Prop} {a : Accessor} {value : BitVec 32} {s : State} (h_s : Good pd s) :
    OutGood pd (execCxDiscard a value s) := by
  unfold execCxDiscard
  show Good pd _
  repeat' (first | with_reducible (first | assumption | apply good_of | (intro _) | apply keep_writeHandoff | apply good_ite | (refine good_snd (by assumption) ?_) | (refine good_fst (by assumption) ?_)) | (extract_lets +onlyGivenNames x; first | (suffices hx : Good pd x from ?_; (on_goal 1 => clear_value x); (on_goal 2 => simp only [x])) | skip) | split | simp only [id_eq] | simp only [good_mk])

theorem keep_execQuietTimeReached {pd : List Instr × Prop × Prop} {position : BitVec 6} {reached : Bool} {s : State} (h_s : Good pd s) :
    OutGood pd (execQuietTimeReached position reached s) := by
  unfold execQuietTimeReached
  show Good pd _
  repeat' (first | with_reducible (first | assumption | apply good_of | (intro _) | apply keep_sendMessage | apply keep_pendHandoff | apply good_ite | (refine good_snd (by assumption) ?_) | (refine good_fst (by assumption) ?_)) | (extract_lets +onlyGivenNames x; first | (suffices hx : Good pd x from ?_; (on_goal 1 => clear_value x); (on_goal 2 => simp only [x])) | skip) | split | simp only [id_eq] | simp only [good_mk])

theorem keep_execHandoffStart {pd : List Instr × Prop × Prop} {s : State} (h_s : Good pd s) :
    OutGood pd (execHandoffStart s) := by
  unfold execHandoffStart
  show Good pd _
  repeat' (first | with_reducible (first | assumption | apply good_of | (intro _) | apply keep_loadKernel | apply good_ite | (refine good_snd (by assumption) ?_) | (refine good_fst (by assumption) ?_)) | (extract_lets +onlyGivenNames x; first | (suffices hx : Good pd x from ?_; (on_goal 1 => clear_value x); (on_goal 2 => simp only [x])) | skip) | split | simp only [id_eq] | simp only [good_mk])

theorem keep_handoffFinish {pd : List Instr × Prop × Prop} {s : State} (h_s : Good pd s) :
    Good pd (handoffFinish s) := by
  unfold handoffFinish
  repeat' (first | with_reducible (first | assumption | apply good_of | (intro _) | apply keep_broadcast | apply keep_raiseEvent | apply keep_putMargin | apply keep_advanceMvc | apply good_ite | (refine good_snd (by assumption) ?_) | (refine good_fst (by assumption) ?_)) | (extract_lets +onlyGivenNames x; first | (suffices hx : Good pd x from ?_; (on_goal 1 => clear_value x); (on_goal 2 => simp only [x])) | skip) | split | simp only [id_eq] | simp only [good_mk])

theorem keep_execHandoffDone {pd : List Instr × Prop × Prop} {position : BitVec 6} {all : Bool} {s : State} (h_s : Good pd s) :
    OutGood pd (execHandoffDone position all s) := by
  unfold execHandoffDone
  show Good pd _
  extract_lets +onlyGivenNames p own
  by_cases hc : (if own = true then (s.cx.state != 4 || s.handoff.isNone || (decide (3000000 < rtb s - s.cx.hoStart.toNat) && !s.cx.hoDone.contains p)) else (s.cx.state != 4 && !(isHeadframe s && s.cx.hoPending))) = true
  · rw [if_pos hc]; exact h_s
  · rw [if_neg hc]
    have h1 : Good pd (if p = s.ri.position then
          (let s := copyBytes s 0 stagingBase residentBase (imgLe s stagingBase 16 8)
          if isHeadframe s then s else sendMessage s 0 0x92 [p])
        else s) := by
      split
      · dsimp only
        have h0 : Good pd (copyBytes s 0 stagingBase residentBase (imgLe s stagingBase 16 8)) := keep_copyBytes h_s
        generalize copyBytes s 0 stagingBase residentBase (imgLe s stagingBase 16 8) = s0 at h0 ⊢
        split
        · exact h0
        · exact keep_sendMessage h0
      · exact h_s
    generalize (if p = s.ri.position then _ else s) = s1 at h1 ⊢
    have h2 : Good pd { s1 with cx := { s1.cx with hoDone := if s1.cx.hoDone.contains p then s1.cx.hoDone else s1.cx.hoDone ++ [p] } } :=
      good_mk.2 (good_of h1)
    exact good_ite (good_ite (keep_handoffFinish h2) h2) (good_ite (keep_handoffFinish h2) h2)

theorem keep_revertHandoff {pd : List Instr × Prop × Prop} {s : State} {ordered : Bool} (h_s : Good pd s) :
    Good pd (revertHandoff s ordered) := by
  unfold revertHandoff
  repeat' (first | with_reducible (first | assumption | apply good_of | (intro _) | apply keep_sendMessage | apply keep_broadcast | apply keep_raiseEvent | apply keep_loadKernel | apply good_ite | (refine good_snd (by assumption) ?_) | (refine good_fst (by assumption) ?_)) | (extract_lets +onlyGivenNames x; first | (suffices hx : Good pd x from ?_; (on_goal 1 => clear_value x); (on_goal 2 => simp only [x])) | skip) | split | simp only [id_eq] | simp only [good_mk])

theorem keep_execHandoffRevert {pd : List Instr × Prop × Prop} {why : BitVec 2} {s : State} (h_s : Good pd s) :
    OutGood pd (execHandoffRevert why s) := by
  unfold execHandoffRevert
  show Good pd _
  repeat' (first | with_reducible (first | assumption | apply good_of | (intro _) | apply keep_revertHandoff | apply good_ite | (refine good_snd (by assumption) ?_) | (refine good_fst (by assumption) ?_)) | (extract_lets +onlyGivenNames x; first | (suffices hx : Good pd x from ?_; (on_goal 1 => clear_value x); (on_goal 2 => simp only [x])) | skip) | split | simp only [id_eq] | simp only [good_mk])

theorem keep_execWatchdogSignal {pd : List Instr × Prop × Prop} {core : BitVec 3} {s : State} (h_s : Good pd s) :
    OutGood pd (execWatchdogSignal core s) := by
  unfold execWatchdogSignal
  show Good pd _
  repeat' (first | with_reducible (first | assumption | apply good_of | (intro _) | apply good_ite | (refine good_snd (by assumption) ?_) | (refine good_fst (by assumption) ?_)) | (extract_lets +onlyGivenNames x; first | (suffices hx : Good pd x from ?_; (on_goal 1 => clear_value x); (on_goal 2 => simp only [x])) | skip) | split | simp only [id_eq] | simp only [good_mk])

theorem keep_execWatchdog {pd : List Instr × Prop × Prop} {core : BitVec 3} {s : State} (h_s : Good pd s) :
    OutGood pd (execWatchdog core s) := by
  unfold execWatchdog
  show Good pd _
  repeat' (first | with_reducible (first | assumption | apply good_of | (intro _) | apply keep_raiseEvent | apply good_ite | (refine good_snd (by assumption) ?_) | (refine good_fst (by assumption) ?_)) | (extract_lets +onlyGivenNames x; first | (suffices hx : Good pd x from ?_; (on_goal 1 => clear_value x); (on_goal 2 => simp only [x])) | skip) | split | simp only [id_eq] | simp only [good_mk])

theorem keep_reclaimFrame {pd : List Instr × Prop × Prop} {s : State} {f : Nat} (h_s : Good pd s) :
    Good pd (reclaimFrame s f) := by
  unfold reclaimFrame
  repeat' (first | with_reducible (first | assumption | apply good_of | (intro _) | apply keep_modStream | apply keep_forEach | apply keep_raiseEvent | apply keep_modFrame | apply good_ite | (refine good_snd (by assumption) ?_) | (refine good_fst (by assumption) ?_)) | (extract_lets +onlyGivenNames x; first | (suffices hx : Good pd x from ?_; (on_goal 1 => clear_value x); (on_goal 2 => simp only [x])) | skip) | split | simp only [id_eq] | simp only [good_mk])

theorem keep_stepReclaim {pd : List Instr × Prop × Prop} {s : State} {retired : Nat} (h_s : Good pd s) :
    Good pd (stepReclaim s retired) := by
  unfold stepReclaim
  repeat' (first | with_reducible (first | assumption | apply good_of | (intro _) | apply keep_forEach | apply keep_freeIds | apply keep_reclaimFrame | apply good_ite | (refine good_snd (by assumption) ?_) | (refine good_fst (by assumption) ?_)) | (extract_lets +onlyGivenNames x; first | (suffices hx : Good pd x from ?_; (on_goal 1 => clear_value x); (on_goal 2 => simp only [x])) | skip) | split | simp only [id_eq] | simp only [good_mk])

theorem keep_stepsTwoToFour {pd : List Instr × Prop × Prop} {s : State} {retired : Nat} (h_s : Good pd s) :
    Good pd (stepsTwoToFour s retired) := by
  unfold stepsTwoToFour
  repeat' (first | with_reducible (first | assumption | apply good_of | (intro _) | apply keep_stepRefer | apply keep_stepRelease | apply keep_stepReclaim | apply good_ite | (refine good_snd (by assumption) ?_) | (refine good_fst (by assumption) ?_)) | (extract_lets +onlyGivenNames x; first | (suffices hx : Good pd x from ?_; (on_goal 1 => clear_value x); (on_goal 2 => simp only [x])) | skip) | split | simp only [id_eq] | simp only [good_mk])

theorem keep_grantEffect {pd : List Instr × Prop × Prop} {s : State} {o : Nat} {a : Nat} {n : Nat} (h_s : Good pd s) :
    Good pd (grantEffect s o a n).2 := by
  unfold grantEffect
  repeat' (first | with_reducible (first | assumption | apply good_of | (intro _) | apply keep_setExtents | apply good_ite | (refine good_snd (by assumption) ?_) | (refine good_fst (by assumption) ?_)) | (extract_lets +onlyGivenNames x; first | (suffices hx : Good pd x from ?_; (on_goal 1 => clear_value x); (on_goal 2 => simp only [x])) | skip) | split | simp only [id_eq] | simp only [good_mk])

theorem keep_releaseEffect {pd : List Instr × Prop × Prop} {s : State} {o : Nat} {a : Nat} {n : Nat} (h_s : Good pd s) :
    Good pd (releaseEffect s o a n).2 := by
  unfold releaseEffect
  repeat' (first | with_reducible (first | assumption | apply good_of | (intro _) | apply keep_forEach | apply keep_raiseEvent | apply keep_setExtents | apply good_ite | (refine good_snd (by assumption) ?_) | (refine good_fst (by assumption) ?_)) | (extract_lets +onlyGivenNames x; first | (suffices hx : Good pd x from ?_; (on_goal 1 => clear_value x); (on_goal 2 => simp only [x])) | skip) | split | simp only [id_eq] | simp only [good_mk])

theorem keep_execScrubPassStart {pd : List Instr × Prop × Prop} {s : State} (h_s : Good pd s) :
    OutGood pd (execScrubPassStart s) := by
  unfold execScrubPassStart
  show Good pd _
  repeat' (first | with_reducible (first | assumption | apply good_of | (intro _) | apply good_ite | (refine good_snd (by assumption) ?_) | (refine good_fst (by assumption) ?_)) | (extract_lets +onlyGivenNames x; first | (suffices hx : Good pd x from ?_; (on_goal 1 => clear_value x); (on_goal 2 => simp only [x])) | skip) | split | simp only [id_eq] | simp only [good_mk])

theorem keep_execScrubPass {pd : List Instr × Prop × Prop} {ecc : List (Nat × Bool)} {s : State} (h_s : Good pd s) :
    OutGood pd (execScrubPass ecc s) := by
  unfold execScrubPass
  show Good pd _
  repeat' (first | with_reducible (first | assumption | apply good_of | (intro _) | apply keep_forEach | apply keep_raiseEvent | apply keep_eccCorrected | apply keep_eccPoisoned | apply good_ite | (refine good_snd (by assumption) ?_) | (refine good_fst (by assumption) ?_)) | (extract_lets +onlyGivenNames x; first | (suffices hx : Good pd x from ?_; (on_goal 1 => clear_value x); (on_goal 2 => simp only [x])) | skip) | split | simp only [id_eq] | simp only [good_mk])

theorem keep_writeScrubCtrl {pd : List Instr × Prop × Prop} {s : State} {v : Nat} (h_s : Good pd s) :
    Good pd (writeScrubCtrl s v) := by
  unfold writeScrubCtrl
  repeat' (first | with_reducible (first | assumption | apply good_of | (intro _) | apply good_ite | (refine good_snd (by assumption) ?_) | (refine good_fst (by assumption) ?_)) | (extract_lets +onlyGivenNames x; first | (suffices hx : Good pd x from ?_; (on_goal 1 => clear_value x); (on_goal 2 => simp only [x])) | skip) | split | simp only [id_eq] | simp only [good_mk])

theorem keep_execMsScrubCtrl {pd : List Instr × Prop × Prop} {a : Accessor} {value : BitVec 32} {s : State} (h_s : Good pd s) :
    OutGood pd (execMsScrubCtrl a value s) := by
  unfold execMsScrubCtrl
  show Good pd _
  repeat' (first | with_reducible (first | assumption | apply good_of | (intro _) | apply keep_writeScrubCtrl | apply good_ite | (refine good_snd (by assumption) ?_) | (refine good_fst (by assumption) ?_)) | (extract_lets +onlyGivenNames x; first | (suffices hx : Good pd x from ?_; (on_goal 1 => clear_value x); (on_goal 2 => simp only [x])) | skip) | split | simp only [id_eq] | simp only [good_mk])

theorem keep_execCeRateUpdate {pd : List Instr × Prop × Prop} {s : State} (h_s : Good pd s) :
    OutGood pd (execCeRateUpdate s) := by
  unfold execCeRateUpdate
  show Good pd _
  repeat' (first | with_reducible (first | assumption | apply good_of | (intro _) | apply keep_modSc | apply keep_forEach | apply keep_raiseEvent | apply good_ite | (refine good_snd (by assumption) ?_) | (refine good_fst (by assumption) ?_)) | (extract_lets +onlyGivenNames x; first | (suffices hx : Good pd x from ?_; (on_goal 1 => clear_value x); (on_goal 2 => simp only [x])) | skip) | split | simp only [id_eq] | simp only [good_mk])

theorem keep_coreFault {pd : List Instr × Prop × Prop} {s : State} {c : Nat} {code : Nat} {addr : Nat} (h_s : Good pd s) :
    Good pd (coreFault s c code addr) := by
  unfold coreFault
  repeat' (first | with_reducible (first | assumption | apply good_of | (intro _) | apply keep_freezeCore | apply good_ite | (refine good_snd (by assumption) ?_) | (refine good_fst (by assumption) ?_)) | (extract_lets +onlyGivenNames x; first | (suffices hx : Good pd x from ?_; (on_goal 1 => clear_value x); (on_goal 2 => simp only [x])) | skip) | split | simp only [id_eq] | simp only [good_mk])

theorem keep_slotFault {pd : List Instr × Prop × Prop} {s : State} {c : Nat} {code : Nat} {addr : Nat} {detail : BitVec 32} (h_s : Good pd s) :
    Good pd (slotFault s c code addr detail) := by
  unfold slotFault
  repeat' (first | with_reducible (first | assumption | apply good_of | (intro _) | apply keep_modCore | apply keep_freezeCore | apply good_ite | (refine good_snd (by assumption) ?_) | (refine good_fst (by assumption) ?_)) | (extract_lets +onlyGivenNames x; first | (suffices hx : Good pd x from ?_; (on_goal 1 => clear_value x); (on_goal 2 => simp only [x])) | skip) | split | simp only [id_eq] | simp only [good_mk])

theorem keep_stall {pd : List Instr × Prop × Prop} {s : State} {c : Nat} {w : Wait} (h_s : Good pd s) :
    Good pd (stall s c w) := by
  unfold stall
  repeat' (first | with_reducible (first | assumption | apply good_of | (intro _) | apply keep_modCore | apply good_ite | (refine good_snd (by assumption) ?_) | (refine good_fst (by assumption) ?_)) | (extract_lets +onlyGivenNames x; first | (suffices hx : Good pd x from ?_; (on_goal 1 => clear_value x); (on_goal 2 => simp only [x])) | skip) | split | simp only [id_eq] | simp only [good_mk])

theorem keep_issue {pd : List Instr × Prop × Prop} {s : State} {c : Nat} {w : BitVec 64} {body : State → State} (h_s : Good pd s) (h_body : ∀ x0, Good pd x0 → Good pd (body x0)) :
    Good pd (issue s c w body) := by
  unfold issue
  repeat' (first | with_reducible (first | assumption | apply good_of | (intro _) | apply keep_coreFault | apply keep_stall | apply h_body | apply good_ite | (refine good_snd (by assumption) ?_) | (refine good_fst (by assumption) ?_)) | (extract_lets +onlyGivenNames x; first | (suffices hx : Good pd x from ?_; (on_goal 1 => clear_value x); (on_goal 2 => simp only [x])) | skip) | split | simp only [id_eq] | simp only [good_mk])

theorem keep_advance {pd : List Instr × Prop × Prop} {s : State} {c : Nat} (h_s : Good pd s) :
    Good pd (advance s c) := by
  unfold advance
  repeat' (first | with_reducible (first | assumption | apply good_of | (intro _) | apply keep_modCore | apply keep_coreFault | apply good_ite | (refine good_snd (by assumption) ?_) | (refine good_fst (by assumption) ?_)) | (extract_lets +onlyGivenNames x; first | (suffices hx : Good pd x from ?_; (on_goal 1 => clear_value x); (on_goal 2 => simp only [x])) | skip) | split | simp only [id_eq] | simp only [good_mk])

theorem keep_retire {pd : List Instr × Prop × Prop} {s : State} {c : Nat} {f : Core → Core} (h_s : Good pd s) :
    Good pd (retire s c f) := by
  unfold retire
  repeat' (first | with_reducible (first | assumption | apply good_of | (intro _) | apply keep_modCore | apply keep_advance | apply good_ite | (refine good_snd (by assumption) ?_) | (refine good_fst (by assumption) ?_)) | (extract_lets +onlyGivenNames x; first | (suffices hx : Good pd x from ?_; (on_goal 1 => clear_value x); (on_goal 2 => simp only [x])) | skip) | split | simp only [id_eq] | simp only [good_mk])

theorem keep_Access_run {pd : List Instr × Prop × Prop} {x : Access} {s : State} {c : Nat} {body : State → State} (h_s : Good pd s) (h_body : ∀ x0, Good pd x0 → Good pd (body x0)) :
    Good pd (Access.run x s c body) := by
  unfold Access.run
  repeat' (first | with_reducible (first | assumption | apply good_of | (intro _) | apply keep_slotFault | apply keep_stall | apply keep_Access_run | apply h_body | apply good_ite | (refine good_snd (by assumption) ?_) | (refine good_fst (by assumption) ?_)) | (extract_lets +onlyGivenNames x; first | (suffices hx : Good pd x from ?_; (on_goal 1 => clear_value x); (on_goal 2 => simp only [x])) | skip) | split | simp only [id_eq] | simp only [good_mk])

theorem keep_scratchEcc {pd : List Instr × Prop × Prop} {s : State} {c : Nat} {sp : List (Nat × Nat)} {ecc : List (Nat × Bool)} (h_s : Good pd s) :
    Good pd (scratchEcc s c sp ecc) := by
  unfold scratchEcc
  repeat' (first | with_reducible (first | assumption | apply good_of | (intro _) | apply keep_modCore | apply keep_freezeCore | apply good_ite | (refine good_snd (by assumption) ?_) | (refine good_fst (by assumption) ?_)) | (extract_lets +onlyGivenNames x; first | (suffices hx : Good pd x from ?_; (on_goal 1 => clear_value x); (on_goal 2 => simp only [x])) | skip) | split | simp only [id_eq] | simp only [good_mk])

theorem keep_arrive {pd : List Instr × Prop × Prop} {s : State} {c : Nat} {x : Arrival} (h_s : Good pd s) :
    Good pd (arrive s c x) := by
  unfold arrive
  repeat' (first | with_reducible (first | assumption | apply good_of | (intro _) | apply keep_modCore | apply good_ite | (refine good_snd (by assumption) ?_) | (refine good_fst (by assumption) ?_)) | (extract_lets +onlyGivenNames x; first | (suffices hx : Good pd x from ?_; (on_goal 1 => clear_value x); (on_goal 2 => simp only [x])) | skip) | split | simp only [id_eq] | simp only [good_mk])

theorem keep_beatCycle {pd : List Instr × Prop × Prop} {s : State} (h_s : Good pd s) :
    Good pd (beatCycle s).2 := by
  unfold beatCycle
  repeat' (first | with_reducible (first | assumption | apply good_of | (intro _) | apply keep_draw | apply good_ite | (refine good_snd (by assumption) ?_) | (refine good_fst (by assumption) ?_)) | (extract_lets +onlyGivenNames x; first | (suffices hx : Good pd x from ?_; (on_goal 1 => clear_value x); (on_goal 2 => simp only [x])) | skip) | split | simp only [id_eq] | simp only [good_mk])

theorem keep_beatRho {pd : List Instr × Prop × Prop} {s : State} (h_s : Good pd s) :
    Good pd (beatRho s).2 := by
  unfold beatRho
  repeat' (first | with_reducible (first | assumption | apply good_of | (intro _) | apply keep_draw | apply good_ite | (refine good_snd (by assumption) ?_) | (refine good_fst (by assumption) ?_)) | (extract_lets +onlyGivenNames x; first | (suffices hx : Good pd x from ?_; (on_goal 1 => clear_value x); (on_goal 2 => simp only [x])) | skip) | split | simp only [id_eq] | simp only [good_mk])

theorem keep_modLive {pd : List Instr × Prop × Prop} {s : State} {f : Live → Live} (h_s : Good pd s) :
    Good pd (modLive s f) := by
  unfold modLive
  repeat' (first | with_reducible (first | assumption | apply good_of | (intro _) | apply good_ite | (refine good_snd (by assumption) ?_) | (refine good_fst (by assumption) ?_)) | (extract_lets +onlyGivenNames x; first | (suffices hx : Good pd x from ?_; (on_goal 1 => clear_value x); (on_goal 2 => simp only [x])) | skip) | split | simp only [id_eq] | simp only [good_mk])

theorem keep_clearCore {pd : List Instr × Prop × Prop} {s : State} {c : Nat} (h_s : Good pd s) :
    Good pd (clearCore s c) := by
  unfold clearCore
  repeat' (first | with_reducible (first | assumption | apply good_of | (intro _) | apply keep_modCore | apply keep_slotFault | apply good_ite | (refine good_snd (by assumption) ?_) | (refine good_fst (by assumption) ?_)) | (extract_lets +onlyGivenNames x; first | (suffices hx : Good pd x from ?_; (on_goal 1 => clear_value x); (on_goal 2 => simp only [x])) | skip) | split | simp only [id_eq] | simp only [good_mk])

theorem keep_startCore {pd : List Instr × Prop × Prop} {s : State} {c : Nat} {pc : Nat} {current : Nat} {watched : Bool} (h_s : Good pd s) :
    Good pd (startCore s c pc current watched) := by
  unfold startCore
  repeat' (first | with_reducible (first | assumption | apply good_of | (intro _) | apply keep_modCore | apply good_ite | (refine good_snd (by assumption) ?_) | (refine good_fst (by assumption) ?_)) | (extract_lets +onlyGivenNames x; first | (suffices hx : Good pd x from ?_; (on_goal 1 => clear_value x); (on_goal 2 => simp only [x])) | skip) | split | simp only [id_eq] | simp only [good_mk])

theorem keep_beginLaunch {pd : List Instr × Prop × Prop} {s : State} {i : Nat} {l : Launch} (h_s : Good pd s) :
    Good pd (beginLaunch s i l) := by
  unfold beginLaunch
  repeat' (first | with_reducible (first | assumption | apply good_of | (intro _) | apply keep_modCore | apply keep_coreFault | apply keep_startCore | apply good_ite | (refine good_snd (by assumption) ?_) | (refine good_fst (by assumption) ?_)) | (extract_lets +onlyGivenNames x; first | (suffices hx : Good pd x from ?_; (on_goal 1 => clear_value x); (on_goal 2 => simp only [x])) | skip) | split | simp only [id_eq] | simp only [good_mk])

theorem keep_execCalIntervalExpiry {pd : List Instr × Prop × Prop} {group : BitVec 6} {s : State} (h_s : Good pd s) :
    OutGood pd (execCalIntervalExpiry group s) := by
  unfold execCalIntervalExpiry
  show Good pd _
  repeat' (first | with_reducible (first | assumption | apply good_of | (intro _) | apply keep_startCal | apply good_ite | (refine good_snd (by assumption) ?_) | (refine good_fst (by assumption) ?_)) | (extract_lets +onlyGivenNames x; first | (suffices hx : Good pd x from ?_; (on_goal 1 => clear_value x); (on_goal 2 => simp only [x])) | skip) | split | simp only [id_eq] | simp only [good_mk])

theorem keep_execCalDone {pd : List Instr × Prop × Prop} {group : BitVec 6} {dead : List (BitVec 11 × BitVec 7)} {moved : Bool} {s : State} (h_s : Good pd s) :
    OutGood pd (execCalDone group dead moved s) := by
  unfold execCalDone
  show Good pd _
  repeat' (first | with_reducible (first | assumption | apply good_of | (intro _) | apply keep_modTg | apply keep_forEach | apply keep_startCal | apply keep_convDead | apply keep_finishGroupCal | apply good_ite | (refine good_snd (by assumption) ?_) | (refine good_fst (by assumption) ?_)) | (extract_lets +onlyGivenNames x; first | (suffices hx : Good pd x from ?_; (on_goal 1 => clear_value x); (on_goal 2 => simp only [x])) | skip) | split | simp only [id_eq] | simp only [good_mk])

theorem keep_execCalLate {pd : List Instr × Prop × Prop} {group : BitVec 6} {s : State} (h_s : Good pd s) :
    OutGood pd (execCalLate group s) := by
  unfold execCalLate
  show Good pd _
  repeat' (first | with_reducible (first | assumption | apply good_of | (intro _) | apply keep_modTg | apply keep_raiseEvent | apply good_ite | (refine good_snd (by assumption) ?_) | (refine good_fst (by assumption) ?_)) | (extract_lets +onlyGivenNames x; first | (suffices hx : Good pd x from ?_; (on_goal 1 => clear_value x); (on_goal 2 => simp only [x])) | skip) | split | simp only [id_eq] | simp only [good_mk])

theorem keep_writeCalCmd {pd : List Instr × Prop × Prop} {s : State} {v : Nat} (h_s : Good pd s) :
    Good pd (writeCalCmd s v) := by
  unfold writeCalCmd
  repeat' (first | with_reducible (first | assumption | apply good_of | (intro _) | apply keep_forEach | apply keep_startCal | apply keep_startSelfcal | apply good_ite | (refine good_snd (by assumption) ?_) | (refine good_fst (by assumption) ?_)) | (extract_lets +onlyGivenNames x; first | (suffices hx : Good pd x from ?_; (on_goal 1 => clear_value x); (on_goal 2 => simp only [x])) | skip) | split | simp only [id_eq] | simp only [good_mk])

theorem keep_execHbCal {pd : List Instr × Prop × Prop} {a : Accessor} {value : BitVec 32} {s : State} (h_s : Good pd s) :
    OutGood pd (execHbCal a value s) := by
  unfold execHbCal
  show Good pd _
  repeat' (first | with_reducible (first | assumption | apply good_of | (intro _) | apply keep_writeCalCmd | apply good_ite | (refine good_snd (by assumption) ?_) | (refine good_fst (by assumption) ?_)) | (extract_lets +onlyGivenNames x; first | (suffices hx : Good pd x from ?_; (on_goal 1 => clear_value x); (on_goal 2 => simp only [x])) | skip) | split | simp only [id_eq] | simp only [good_mk])

theorem keep_execHbSelfcal {pd : List Instr × Prop × Prop} {a : Accessor} {value : BitVec 32} {s : State} (h_s : Good pd s) :
    OutGood pd (execHbSelfcal a value s) := by
  unfold execHbSelfcal
  show Good pd _
  repeat' (first | with_reducible (first | assumption | apply good_of | (intro _) | apply keep_writeCalCmd | apply good_ite | (refine good_snd (by assumption) ?_) | (refine good_fst (by assumption) ?_)) | (extract_lets +onlyGivenNames x; first | (suffices hx : Good pd x from ?_; (on_goal 1 => clear_value x); (on_goal 2 => simp only [x])) | skip) | split | simp only [id_eq] | simp only [good_mk])

theorem keep_execSelfcalDone {pd : List Instr × Prop × Prop} {dead : List (BitVec 17 × BitVec 7)} {s : State} (h_s : Good pd s) :
    OutGood pd (execSelfcalDone dead s) := by
  unfold execSelfcalDone
  show Good pd _
  repeat' (first | with_reducible (first | assumption | apply good_of | (intro _) | apply keep_modTg | apply keep_forEach | apply keep_raiseEvent | apply keep_startCal | apply keep_convDead | apply good_ite | (refine good_snd (by assumption) ?_) | (refine good_fst (by assumption) ?_)) | (extract_lets +onlyGivenNames x; first | (suffices hx : Good pd x from ?_; (on_goal 1 => clear_value x); (on_goal 2 => simp only [x])) | skip) | split | simp only [id_eq] | simp only [good_mk])

theorem keep_reclip {pd : List Instr × Prop × Prop} {s : State} {event : Bool} (h_s : Good pd s) :
    Good pd (reclip s event) := by
  unfold reclip
  repeat' (first | with_reducible (first | assumption | apply good_of | (intro _) | apply keep_putMargin | apply keep_marginEvent | apply good_ite | (refine good_snd (by assumption) ?_) | (refine good_fst (by assumption) ?_)) | (extract_lets +onlyGivenNames x; first | (suffices hx : Good pd x from ?_; (on_goal 1 => clear_value x); (on_goal 2 => simp only [x])) | skip) | split | simp only [id_eq] | simp only [good_mk])

theorem keep_writeDtcal {pd : List Instr × Prop × Prop} {s : State} {v : Nat} (h_s : Good pd s) :
    Good pd (writeDtcal s v) := by
  unfold writeDtcal
  repeat' (first | with_reducible (first | assumption | apply good_of | (intro _) | apply keep_reclip | apply good_ite | (refine good_snd (by assumption) ?_) | (refine good_fst (by assumption) ?_)) | (extract_lets +onlyGivenNames x; first | (suffices hx : Good pd x from ?_; (on_goal 1 => clear_value x); (on_goal 2 => simp only [x])) | skip) | split | simp only [id_eq] | simp only [good_mk])

theorem keep_execHbCalDtcal {pd : List Instr × Prop × Prop} {a : Accessor} {value : BitVec 32} {s : State} (h_s : Good pd s) :
    OutGood pd (execHbCalDtcal a value s) := by
  unfold execHbCalDtcal
  show Good pd _
  repeat' (first | with_reducible (first | assumption | apply good_of | (intro _) | apply keep_writeDtcal | apply good_ite | (refine good_snd (by assumption) ?_) | (refine good_fst (by assumption) ?_)) | (extract_lets +onlyGivenNames x; first | (suffices hx : Good pd x from ?_; (on_goal 1 => clear_value x); (on_goal 2 => simp only [x])) | skip) | split | simp only [id_eq] | simp only [good_mk])

theorem keep_writeInterval {pd : List Instr × Prop × Prop} {s : State} {v : Nat} (h_s : Good pd s) :
    Good pd (writeInterval s v) := by
  unfold writeInterval
  repeat' (first | with_reducible (first | assumption | apply good_of | (intro _) | apply keep_reclip | apply good_ite | (refine good_snd (by assumption) ?_) | (refine good_fst (by assumption) ?_)) | (extract_lets +onlyGivenNames x; first | (suffices hx : Good pd x from ?_; (on_goal 1 => clear_value x); (on_goal 2 => simp only [x])) | skip) | split | simp only [id_eq] | simp only [good_mk])

theorem keep_execHbCalMaxInterval {pd : List Instr × Prop × Prop} {a : Accessor} {value : BitVec 32} {s : State} (h_s : Good pd s) :
    OutGood pd (execHbCalMaxInterval a value s) := by
  unfold execHbCalMaxInterval
  show Good pd _
  repeat' (first | with_reducible (first | assumption | apply good_of | (intro _) | apply keep_writeInterval | apply good_ite | (refine good_snd (by assumption) ?_) | (refine good_fst (by assumption) ?_)) | (extract_lets +onlyGivenNames x; first | (suffices hx : Good pd x from ?_; (on_goal 1 => clear_value x); (on_goal 2 => simp only [x])) | skip) | split | simp only [id_eq] | simp only [good_mk])

theorem keep_writeEnv {pd : List Instr × Prop × Prop} {s : State} {which : Bool} {v : Nat} (h_s : Good pd s) :
    Good pd (writeEnv s which v) := by
  unfold writeEnv
  repeat' (first | with_reducible (first | assumption | apply good_of | (intro _) | apply keep_reclip | apply good_ite | (refine good_snd (by assumption) ?_) | (refine good_fst (by assumption) ?_)) | (extract_lets +onlyGivenNames x; first | (suffices hx : Good pd x from ?_; (on_goal 1 => clear_value x); (on_goal 2 => simp only [x])) | skip) | split | simp only [id_eq] | simp only [good_mk])

theorem keep_execHbMarginEnv {pd : List Instr × Prop × Prop} {a : Accessor} {which : Bool} {value : BitVec 32} {s : State} (h_s : Good pd s) :
    OutGood pd (execHbMarginEnv a which value s) := by
  unfold execHbMarginEnv
  show Good pd _
  repeat' (first | with_reducible (first | assumption | apply good_of | (intro _) | apply keep_writeEnv | apply good_ite | (refine good_snd (by assumption) ?_) | (refine good_fst (by assumption) ?_)) | (extract_lets +onlyGivenNames x; first | (suffices hx : Good pd x from ?_; (on_goal 1 => clear_value x); (on_goal 2 => simp only [x])) | skip) | split | simp only [id_eq] | simp only [good_mk])

theorem keep_execAgeingUpdate {pd : List Instr × Prop × Prop} {stressed : List (BitVec 32)} {unstressed : List (BitVec 32)} {stressedTime : BitVec 32} {unstressedTime : BitVec 32} {s : State} (h_s : Good pd s) :
    OutGood pd (execAgeingUpdate stressed unstressed stressedTime unstressedTime s) := by
  unfold execAgeingUpdate
  show Good pd _
  repeat' (first | with_reducible (first | assumption | apply good_of | (intro _) | apply good_ite | (refine good_snd (by assumption) ?_) | (refine good_fst (by assumption) ?_)) | (extract_lets +onlyGivenNames x; first | (suffices hx : Good pd x from ?_; (on_goal 1 => clear_value x); (on_goal 2 => simp only [x])) | skip) | split | simp only [id_eq] | simp only [good_mk])

theorem keep_replan {pd : List Instr × Prop × Prop} {s : State} {cause : Nat} (h_s : Good pd s) :
    Good pd (replan s cause) := by
  unfold replan
  repeat' (first | with_reducible (first | assumption | apply good_of | (intro _) | apply keep_putMargin | apply keep_marginEvent | apply good_ite | (refine good_snd (by assumption) ?_) | (refine good_fst (by assumption) ?_)) | (extract_lets +onlyGivenNames x; first | (suffices hx : Good pd x from ?_; (on_goal 1 => clear_value x); (on_goal 2 => simp only [x])) | skip) | split | simp only [id_eq] | simp only [good_mk])

theorem keep_execMarginReplan {pd : List Instr × Prop × Prop} {s : State} (h_s : Good pd s) :
    OutGood pd (execMarginReplan s) := by
  unfold execMarginReplan
  show Good pd _
  repeat' (first | with_reducible (first | assumption | apply good_of | (intro _) | apply keep_replan | apply good_ite | (refine good_snd (by assumption) ?_) | (refine good_fst (by assumption) ?_)) | (extract_lets +onlyGivenNames x; first | (suffices hx : Good pd x from ?_; (on_goal 1 => clear_value x); (on_goal 2 => simp only [x])) | skip) | split | simp only [id_eq] | simp only [good_mk])

theorem keep_writeMarginPlan {pd : List Instr × Prop × Prop} {s : State} {v : Nat} (h_s : Good pd s) :
    Good pd (writeMarginPlan s v) := by
  unfold writeMarginPlan
  repeat' (first | with_reducible (first | assumption | apply good_of | (intro _) | apply keep_replan | apply good_ite | (refine good_snd (by assumption) ?_) | (refine good_fst (by assumption) ?_)) | (extract_lets +onlyGivenNames x; first | (suffices hx : Good pd x from ?_; (on_goal 1 => clear_value x); (on_goal 2 => simp only [x])) | skip) | split | simp only [id_eq] | simp only [good_mk])

theorem keep_execReplan {pd : List Instr × Prop × Prop} {a : Accessor} {value : BitVec 32} {s : State} (h_s : Good pd s) :
    OutGood pd (execReplan a value s) := by
  unfold execReplan
  show Good pd _
  repeat' (first | with_reducible (first | assumption | apply good_of | (intro _) | apply keep_writeMarginPlan | apply good_ite | (refine good_snd (by assumption) ?_) | (refine good_fst (by assumption) ?_)) | (extract_lets +onlyGivenNames x; first | (suffices hx : Good pd x from ?_; (on_goal 1 => clear_value x); (on_goal 2 => simp only [x])) | skip) | split | simp only [id_eq] | simp only [good_mk])

theorem keep_deliverPartial {pd : List Instr × Prop × Prop} {s : State} {c : Nat} {entry : Nat} {v : ℤ} {clip : Bool} (h_s : Good pd s) :
    Good pd (deliverPartial s c entry v clip) := by
  unfold deliverPartial
  repeat' (first | with_reducible (first | assumption | apply good_of | (intro _) | apply keep_modCore | apply keep_freezeCore | apply good_ite | (refine good_snd (by assumption) ?_) | (refine good_fst (by assumption) ?_)) | (extract_lets +onlyGivenNames x; first | (suffices hx : Good pd x from ?_; (on_goal 1 => clear_value x); (on_goal 2 => simp only [x])) | skip) | split | simp only [id_eq] | simp only [good_mk])

theorem keep_toLane {pd : List Instr × Prop × Prop} {s : State} {d : DevRec} {x : Shot} {p : Nat} {v : ℤ} {clip : Bool} (h_s : Good pd s) :
    Good pd (toLane s d x p v clip) := by
  unfold toLane
  repeat' (first | with_reducible (first | assumption | apply good_of | (intro _) | apply keep_deliverPartial | apply good_ite | (refine good_snd (by assumption) ?_) | (refine good_fst (by assumption) ?_)) | (extract_lets +onlyGivenNames x; first | (suffices hx : Good pd x from ?_; (on_goal 1 => clear_value x); (on_goal 2 => simp only [x])) | skip) | split | simp only [id_eq] | simp only [good_mk])

theorem keep_countClip {pd : List Instr × Prop × Prop} {s : State} {d : DevRec} {x : Shot} {p : Nat} (h_s : Good pd s) :
    Good pd (countClip s d x p) := by
  unfold countClip
  repeat' (first | with_reducible (first | assumption | apply good_of | (intro _) | apply keep_modTg | apply good_ite | (refine good_snd (by assumption) ?_) | (refine good_fst (by assumption) ?_)) | (extract_lets +onlyGivenNames x; first | (suffices hx : Good pd x from ?_; (on_goal 1 => clear_value x); (on_goal 2 => simp only [x])) | skip) | split | simp only [id_eq] | simp only [good_mk])

theorem keep_clipPair {pd : List Instr × Prop × Prop} {s : State} {d : DevRec} {x : Shot} {p : Nat} {c : ℤ} (h_s : Good pd s) :
    Good pd (clipPair s d x p c) := by
  unfold clipPair
  repeat' (first | with_reducible (first | assumption | apply good_of | (intro _) | apply keep_toLane | apply keep_countClip | apply good_ite | (refine good_snd (by assumption) ?_) | (refine good_fst (by assumption) ?_)) | (extract_lets +onlyGivenNames x; first | (suffices hx : Good pd x from ?_; (on_goal 1 => clear_value x); (on_goal 2 => simp only [x])) | skip) | split | simp only [id_eq] | simp only [good_mk])

theorem keep_useTile {pd : List Instr × Prop × Prop} {s : State} {i : Nat} (h_s : Good pd s) :
    Good pd (useTile s i) := by
  unfold useTile
  repeat' (first | with_reducible (first | assumption | apply good_of | (intro _) | apply keep_modTile | apply good_ite | (refine good_snd (by assumption) ?_) | (refine good_fst (by assumption) ?_)) | (extract_lets +onlyGivenNames x; first | (suffices hx : Good pd x from ?_; (on_goal 1 => clear_value x); (on_goal 2 => simp only [x])) | skip) | split | simp only [id_eq] | simp only [good_mk])

theorem keep_recordCheck {pd : List Instr × Prop × Prop} {s : State} {i : Nat} {logical : Nat} {fails : Bool} (h_s : Good pd s) :
    Good pd (recordCheck s i logical fails) := by
  unfold recordCheck
  repeat' (first | with_reducible (first | assumption | apply good_of | (intro _) | apply keep_modTile | apply keep_raiseEvent | apply keep_startTileCal | apply good_ite | (refine good_snd (by assumption) ?_) | (refine good_fst (by assumption) ?_)) | (extract_lets +onlyGivenNames x; first | (suffices hx : Good pd x from ?_; (on_goal 1 => clear_value x); (on_goal 2 => simp only [x])) | skip) | split | simp only [id_eq] | simp only [good_mk])

theorem keep_checkShot {pd : List Instr × Prop × Prop} {s : State} {i : Nat} {d : DevRec} {x : Shot} {codes : List ℤ} (h_s : Good pd s) :
    Good pd (checkShot s i d x codes) := by
  unfold checkShot
  repeat' (first | with_reducible (first | assumption | apply good_of | (intro _) | apply keep_raiseEvent | apply keep_modLive | apply keep_recordCheck | apply good_ite | (refine good_snd (by assumption) ?_) | (refine good_fst (by assumption) ?_)) | (extract_lets +onlyGivenNames x; first | (suffices hx : Good pd x from ?_; (on_goal 1 => clear_value x); (on_goal 2 => simp only [x])) | skip) | split | simp only [id_eq] | simp only [good_mk])

theorem keep_noteRange {pd : List Instr × Prop × Prop} {s : State} {g : Nat} {o : OpDesc} {codes : List ℤ} (h_s : Good pd s) :
    Good pd (noteRange s g o codes) := by
  unfold noteRange
  repeat' (first | with_reducible (first | assumption | apply good_of | (intro _) | apply good_ite | (refine good_snd (by assumption) ?_) | (refine good_fst (by assumption) ?_)) | (extract_lets +onlyGivenNames x; first | (suffices hx : Good pd x from ?_; (on_goal 1 => clear_value x); (on_goal 2 => simp only [x])) | skip) | split | simp only [id_eq] | simp only [good_mk])

theorem keep_noteAssay {pd : List Instr × Prop × Prop} {s : State} {d : DevRec} {x : Shot} {xs : List ℤ} {codes : List ℤ} (h_s : Good pd s) :
    Good pd (noteAssay s d x xs codes) := by
  unfold noteAssay
  repeat' (first | with_reducible (first | assumption | apply good_of | (intro _) | apply good_ite | (refine good_snd (by assumption) ?_) | (refine good_fst (by assumption) ?_)) | (extract_lets +onlyGivenNames x; first | (suffices hx : Good pd x from ?_; (on_goal 1 => clear_value x); (on_goal 2 => simp only [x])) | skip) | split | simp only [id_eq] | simp only [good_mk])

theorem keep_transferPair {pd : List Instr × Prop × Prop} {s : State} {d : DevRec} {i : Nat} {x : Shot} {t : Tile} {p : Nat} {c : ℤ} (h_s : Good pd s) :
    Good pd (transferPair s d i x t p c) := by
  unfold transferPair
  repeat' (first | with_reducible (first | assumption | apply good_of | (intro _) | apply keep_toLane | apply keep_clipPair | apply good_ite | (refine good_snd (by assumption) ?_) | (refine good_fst (by assumption) ?_)) | (extract_lets +onlyGivenNames x; first | (suffices hx : Good pd x from ?_; (on_goal 1 => clear_value x); (on_goal 2 => simp only [x])) | skip) | split | simp only [id_eq] | simp only [good_mk])

theorem keep_takeShot {pd : List Instr × Prop × Prop} {s : State} {d : DevRec} {i : Nat} {x : Shot} (h_s : Good pd s) :
    Good pd (takeShot s d i x) := by
  unfold takeShot
  repeat' (first | with_reducible (first | assumption | apply good_of | (intro _) | apply keep_modTile | apply keep_forEach | apply keep_useTile | apply keep_checkShot | apply keep_noteRange | apply keep_noteAssay | apply keep_transferPair | apply good_ite | (refine good_snd (by assumption) ?_) | (refine good_fst (by assumption) ?_)) | (extract_lets +onlyGivenNames x; first | (suffices hx : Good pd x from ?_; (on_goal 1 => clear_value x); (on_goal 2 => simp only [x])) | skip) | split | simp only [id_eq] | simp only [good_mk])

theorem keep_execShot {pd : List Instr × Prop × Prop} {entry : BitVec 32} {s : State} (h_s : Good pd s) :
    OutGood pd (execShot entry s) := by
  unfold execShot
  show Good pd _
  repeat' (first | with_reducible (first | assumption | apply good_of | (intro _) | apply keep_forEach | apply keep_modLive | apply keep_toLane | apply keep_takeShot | apply good_ite | (refine good_snd (by assumption) ?_) | (refine good_fst (by assumption) ?_)) | (extract_lets +onlyGivenNames x; first | (suffices hx : Good pd x from ?_; (on_goal 1 => clear_value x); (on_goal 2 => simp only [x])) | skip) | split | simp only [id_eq] | simp only [good_mk])

theorem keep_spendReserved {pd : List Instr × Prop × Prop} {s : State} {g : Nat} {op : Nat} {l : Nat} {k : Nat} (h_s : Good pd s) :
    Good pd (spendReserved s g op l k) := by
  unfold spendReserved
  repeat' (first | with_reducible (first | assumption | apply good_of | (intro _) | apply keep_modLive | apply good_ite | (refine good_snd (by assumption) ?_) | (refine good_fst (by assumption) ?_)) | (extract_lets +onlyGivenNames x; first | (suffices hx : Good pd x from ?_; (on_goal 1 => clear_value x); (on_goal 2 => simp only [x])) | skip) | split | simp only [id_eq] | simp only [good_mk])

theorem keep_biasTick {pd : List Instr × Prop × Prop} {s : State} {tick : Nat} (h_s : Good pd s) :
    Good pd (biasTick s tick) := by
  unfold biasTick
  repeat' (first | with_reducible (first | assumption | apply good_of | (intro _) | apply keep_modTile | apply keep_forEach | apply good_ite | (refine good_snd (by assumption) ?_) | (refine good_fst (by assumption) ?_)) | (extract_lets +onlyGivenNames x; first | (suffices hx : Good pd x from ?_; (on_goal 1 => clear_value x); (on_goal 2 => simp only [x])) | skip) | split | simp only [id_eq] | simp only [good_mk])

theorem keep_rescuePair {pd : List Instr × Prop × Prop} {s : State} {d : DevRec} {i : Nat} {x : Shot} {p : Nat} {lo : Tile} {hi : Tile} {cl : ℤ} {ch : ℤ} (h_s : Good pd s) :
    Good pd (rescuePair s d i x p lo hi cl ch) := by
  unfold rescuePair
  repeat' (first | with_reducible (first | assumption | apply good_of | (intro _) | apply keep_toLane | apply keep_countClip | apply good_ite | (refine good_snd (by assumption) ?_) | (refine good_fst (by assumption) ?_)) | (extract_lets +onlyGivenNames x; first | (suffices hx : Good pd x from ?_; (on_goal 1 => clear_value x); (on_goal 2 => simp only [x])) | skip) | split | simp only [id_eq] | simp only [good_mk])

theorem keep_execReshot {pd : List Instr × Prop × Prop} {group : BitVec 6} {op : BitVec 16} {logical : BitVec 10} {k : BitVec 2} {s : State} (h_s : Good pd s) :
    OutGood pd (execReshot group op logical k s) := by
  unfold execReshot
  show Good pd _
  repeat' (first | with_reducible (first | assumption | apply good_of | (intro _) | apply keep_modTg | apply keep_modTile | apply keep_forEach | apply keep_spendReserved | apply keep_rescuePair | apply good_ite | (refine good_snd (by assumption) ?_) | (refine good_fst (by assumption) ?_)) | (extract_lets +onlyGivenNames x; first | (suffices hx : Good pd x from ?_; (on_goal 1 => clear_value x); (on_goal 2 => simp only [x])) | skip) | split | simp only [id_eq] | simp only [good_mk])

theorem keep_execSeamReshot {pd : List Instr × Prop × Prop} {group : BitVec 6} {op : BitVec 16} {logical : BitVec 10} {k : BitVec 2}
    {s : State} (h_s : Good pd s) : OutGood pd (execSeamReshot group op logical k s) := by
  unfold execSeamReshot
  show Good pd _
  extract_lets g l d s1
  have h1 : Good pd s1 := keep_spendReserved h_s
  split
  · exact h_s
  · split
    · exact h1
    · refine keep_forEach (keep_modTg (keep_useTile (keep_useTile ?_))) (fun _ _ h => keep_rescuePair h)
      exact good_mk.2 (good_of h1)

theorem keep_closeBlock {pd : List Instr × Prop × Prop} {c : Nat} {s : State} {block : Nat} (h_s : Good pd s) :
    Good pd (closeBlock c s block) := by
  unfold closeBlock
  repeat' (first | with_reducible (first | assumption | apply good_of | (intro _) | apply keep_modCore | apply good_ite | (refine good_snd (by assumption) ?_) | (refine good_fst (by assumption) ?_)) | (extract_lets +onlyGivenNames x; first | (suffices hx : Good pd x from ?_; (on_goal 1 => clear_value x); (on_goal 2 => simp only [x])) | skip) | split | simp only [id_eq] | simp only [good_mk])

theorem keep_execEntryBlockClose {pd : List Instr × Prop × Prop} {entry : BitVec 32} {s : State} (h_s : Good pd s) :
    OutGood pd (execEntryBlockClose entry s) := by
  unfold execEntryBlockClose
  show Good pd _
  repeat' (first | with_reducible (first | assumption | apply good_of | (intro _) | apply keep_modCore | apply keep_forEach | apply keep_modLive | apply keep_clipPair | apply good_ite | (refine good_snd (by assumption) ?_) | (refine good_fst (by assumption) ?_)) | (extract_lets +onlyGivenNames x; first | (suffices hx : Good pd x from ?_; (on_goal 1 => clear_value x); (on_goal 2 => simp only [x])) | skip) | split | simp only [id_eq] | simp only [good_mk])

theorem keep_unposted {pd : List Instr × Prop × Prop} {s : State} {kind : Nat} {index : Nat} (h_s : Good pd s) :
    Good pd (unposted s kind index) := by
  unfold unposted
  repeat' (first | with_reducible (first | assumption | apply good_of | (intro _) | apply keep_posFault | apply keep_freezeCore | apply good_ite | (refine good_snd (by assumption) ?_) | (refine good_fst (by assumption) ?_)) | (extract_lets +onlyGivenNames x; first | (suffices hx : Good pd x from ?_; (on_goal 1 => clear_value x); (on_goal 2 => simp only [x])) | skip) | split | simp only [id_eq] | simp only [good_mk])

theorem keep_zeroSource {pd : List Instr × Prop × Prop} {s : State} {g : Nat} {source : Nat} (h_s : Good pd s) :
    Good pd (zeroSource s g source) := by
  unfold zeroSource
  repeat' (first | with_reducible (first | assumption | apply good_of | (intro _) | apply good_ite | (refine good_snd (by assumption) ?_) | (refine good_fst (by assumption) ?_)) | (extract_lets +onlyGivenNames x; first | (suffices hx : Good pd x from ?_; (on_goal 1 => clear_value x); (on_goal 2 => simp only [x])) | skip) | split | simp only [id_eq] | simp only [good_mk])

theorem keep_execDriveFetch {pd : List Instr × Prop × Prop} {group : BitVec 6} {source : BitVec 16} {row : BitVec 8} {ecc : List (Nat × Bool)} {s : State} (h_s : Good pd s) :
    OutGood pd (execDriveFetch group source row ecc s) := by
  unfold execDriveFetch
  show Good pd _
  repeat' (first | with_reducible (first | assumption | apply good_of | (intro _) | apply keep_posFault | apply keep_scratchEcc | apply keep_modLive | apply keep_unposted | apply keep_zeroSource | apply good_ite | (refine good_snd (by assumption) ?_) | (refine good_fst (by assumption) ?_)) | (extract_lets +onlyGivenNames x; first | (suffices hx : Good pd x from ?_; (on_goal 1 => clear_value x); (on_goal 2 => simp only [x])) | skip) | split | simp only [id_eq] | simp only [good_mk])

theorem keep_execCalibrationShot {pd : List Instr × Prop × Prop} {group : BitVec 6} {tile : BitVec 11} {s : State} (h_s : Good pd s) :
    OutGood pd (execCalibrationShot group tile s) := by
  unfold execCalibrationShot
  show Good pd _
  repeat' (first | with_reducible (first | assumption | apply good_of | (intro _) | apply keep_modTg | apply keep_modTile | apply keep_useTile | apply good_ite | (refine good_snd (by assumption) ?_) | (refine good_fst (by assumption) ?_)) | (extract_lets +onlyGivenNames x; first | (suffices hx : Good pd x from ?_; (on_goal 1 => clear_value x); (on_goal 2 => simp only [x])) | skip) | split | simp only [id_eq] | simp only [good_mk])

theorem keep_countUr {pd : List Instr × Prop × Prop} {s : State} {port : Bool} (h_s : Good pd s) :
    Good pd (countUr s port) := by
  unfold countUr
  repeat' (first | with_reducible (first | assumption | apply good_of | (intro _) | apply keep_modHp | apply keep_emit | apply good_ite | (refine good_snd (by assumption) ?_) | (refine good_fst (by assumption) ?_)) | (extract_lets +onlyGivenNames x; first | (suffices hx : Good pd x from ?_; (on_goal 1 => clear_value x); (on_goal 2 => simp only [x])) | skip) | split | simp only [id_eq] | simp only [good_mk])

theorem keep_doorbell {pd : List Instr × Prop × Prop} {s : State} {port : Bool} {fn : Nat} {page : Nat} {act : Nat → Qp → State} (h_s : Good pd s) (h_act : ∀ x0 x1, Good pd (act x0 x1)) :
    Good pd (doorbell s port fn page act) := by
  unfold doorbell
  repeat' (first | with_reducible (first | assumption | apply good_of | (intro _) | apply keep_act | apply keep_countUr | apply h_act | apply good_ite | (refine good_snd (by assumption) ?_) | (refine good_fst (by assumption) ?_)) | (extract_lets +onlyGivenNames x; first | (suffices hx : Good pd x from ?_; (on_goal 1 => clear_value x); (on_goal 2 => simp only [x])) | skip) | split | simp only [id_eq] | simp only [good_mk])

theorem keep_submitTail {pd : List Instr × Prop × Prop} {s : State} {port : Bool} {fn : Nat} {page : Nat} {value : Nat} (h_s : Good pd s) :
    Good pd (submitTail s port fn page value) := by
  unfold submitTail
  repeat' (first | with_reducible (first | assumption | apply good_of | (intro _) | apply keep_modQp | apply keep_qpError | apply keep_doorbell | apply good_ite | (refine good_snd (by assumption) ?_) | (refine good_fst (by assumption) ?_)) | (extract_lets +onlyGivenNames x; first | (suffices hx : Good pd x from ?_; (on_goal 1 => clear_value x); (on_goal 2 => simp only [x])) | skip) | split | simp only [id_eq] | simp only [good_mk])

theorem keep_execDbSubmitTail {pd : List Instr × Prop × Prop} {port : Bool} {fn : BitVec 5} {page : BitVec 8} {value : BitVec 32} {s : State} (h_s : Good pd s) :
    OutGood pd (execDbSubmitTail port fn page value s) := by
  unfold execDbSubmitTail
  show Good pd _
  repeat' (first | with_reducible (first | assumption | apply good_of | (intro _) | apply keep_submitTail | apply good_ite | (refine good_snd (by assumption) ?_) | (refine good_fst (by assumption) ?_)) | (extract_lets +onlyGivenNames x; first | (suffices hx : Good pd x from ?_; (on_goal 1 => clear_value x); (on_goal 2 => simp only [x])) | skip) | split | simp only [id_eq] | simp only [good_mk])

theorem keep_complHead {pd : List Instr × Prop × Prop} {s : State} {port : Bool} {fn : Nat} {page : Nat} {value : Nat} (h_s : Good pd s) :
    Good pd (complHead s port fn page value) := by
  unfold complHead
  repeat' (first | with_reducible (first | assumption | apply good_of | (intro _) | apply keep_modQp | apply keep_qpError | apply keep_doorbell | apply good_ite | (refine good_snd (by assumption) ?_) | (refine good_fst (by assumption) ?_)) | (extract_lets +onlyGivenNames x; first | (suffices hx : Good pd x from ?_; (on_goal 1 => clear_value x); (on_goal 2 => simp only [x])) | skip) | split | simp only [id_eq] | simp only [good_mk])

theorem keep_execDbComplHead {pd : List Instr × Prop × Prop} {port : Bool} {fn : BitVec 5} {page : BitVec 8} {value : BitVec 32} {s : State} (h_s : Good pd s) :
    OutGood pd (execDbComplHead port fn page value s) := by
  unfold execDbComplHead
  show Good pd _
  repeat' (first | with_reducible (first | assumption | apply good_of | (intro _) | apply keep_complHead | apply good_ite | (refine good_snd (by assumption) ?_) | (refine good_fst (by assumption) ?_)) | (extract_lets +onlyGivenNames x; first | (suffices hx : Good pd x from ?_; (on_goal 1 => clear_value x); (on_goal 2 => simp only [x])) | skip) | split | simp only [id_eq] | simp only [good_mk])

theorem keep_execMsixSignal {pd : List Instr × Prop × Prop} {port : Bool} {pair : BitVec 8} {s : State} (h_s : Good pd s) :
    OutGood pd (execMsixSignal port pair s) := by
  unfold execMsixSignal
  show Good pd _
  repeat' (first | with_reducible (first | assumption | apply good_of | (intro _) | apply keep_qpSignal | apply good_ite | (refine good_snd (by assumption) ?_) | (refine good_fst (by assumption) ?_)) | (extract_lets +onlyGivenNames x; first | (suffices hx : Good pd x from ?_; (on_goal 1 => clear_value x); (on_goal 2 => simp only [x])) | skip) | split | simp only [id_eq] | simp only [good_mk])

theorem keep_configure {pd : List Instr × Prop × Prop} {s : State} {port : Bool} {fn : Nat} {d : List (BitVec 32)} (h_s : Good pd s) :
    Good pd (configure s port fn d) := by
  unfold configure
  repeat' (first | with_reducible (first | assumption | apply good_of | (intro _) | apply keep_modQp | apply good_ite | (refine good_snd (by assumption) ?_) | (refine good_fst (by assumption) ?_)) | (extract_lets +onlyGivenNames x; first | (suffices hx : Good pd x from ?_; (on_goal 1 => clear_value x); (on_goal 2 => simp only [x])) | skip) | split | simp only [id_eq] | simp only [good_mk])

theorem keep_execQpConfig {pd : List Instr × Prop × Prop} {port : Bool} {fn : BitVec 5} {dwords : List (BitVec 32)} {s : State} (h_s : Good pd s) :
    OutGood pd (execQpConfig port fn dwords s) := by
  unfold execQpConfig
  show Good pd _
  repeat' (first | with_reducible (first | assumption | apply good_of | (intro _) | apply keep_emit | apply keep_configure | apply good_ite | (refine good_snd (by assumption) ?_) | (refine good_fst (by assumption) ?_)) | (extract_lets +onlyGivenNames x; first | (suffices hx : Good pd x from ?_; (on_goal 1 => clear_value x); (on_goal 2 => simp only [x])) | skip) | split | simp only [id_eq] | simp only [good_mk])

theorem keep_execSubmissionFetch {pd : List Instr × Prop × Prop} {port : Bool} {pair : BitVec 8} {entry : Option (List Byte)} {s : State} (h_s : Good pd s) :
    OutGood pd (execSubmissionFetch port pair entry s) := by
  unfold execSubmissionFetch
  show Good pd _
  repeat' (first | with_reducible (first | assumption | apply good_of | (intro _) | apply keep_modHp | apply keep_modQp | apply keep_qpError | apply keep_complete | apply good_ite | (refine good_snd (by assumption) ?_) | (refine good_fst (by assumption) ?_)) | (extract_lets +onlyGivenNames x; first | (suffices hx : Good pd x from ?_; (on_goal 1 => clear_value x); (on_goal 2 => simp only [x])) | skip) | split | simp only [id_eq] | simp only [good_mk])

theorem keep_execMemGrant {pd : List Instr × Prop × Prop} {i : Issuer} {owner : BitVec 8} {addr : BitVec 64} {size : BitVec 64} {s : State} (h_s : Good pd s) :
    OutGood pd (execMemGrant i owner addr size s) := by
  unfold execMemGrant
  show Good pd _
  repeat' (first | with_reducible (first | assumption | apply good_of | (intro _) | apply keep_complete | apply keep_deviceCommand | apply keep_grantEffect | apply keep_sendMessage | apply keep_raiseEvent | apply keep_sendOn | apply keep_modFetched | apply keep_stage | apply good_ite | (refine good_snd (by assumption) ?_) | (refine good_fst (by assumption) ?_)) | (extract_lets +onlyGivenNames x; first | (suffices hx : Good pd x from ?_; (on_goal 1 => clear_value x); (on_goal 2 => simp only [x])) | skip) | split | simp only [id_eq] | simp only [good_mk])

theorem keep_execMemRelease {pd : List Instr × Prop × Prop} {i : Issuer} {owner : BitVec 8} {addr : BitVec 64} {size : BitVec 64} {s : State} (h_s : Good pd s) :
    OutGood pd (execMemRelease i owner addr size s) := by
  unfold execMemRelease
  show Good pd _
  repeat' (first | with_reducible (first | assumption | apply good_of | (intro _) | apply keep_complete | apply keep_deviceCommand | apply keep_releaseEffect | apply keep_sendMessage | apply keep_raiseEvent | apply keep_sendOn | apply keep_modFetched | apply keep_stage | apply good_ite | (refine good_snd (by assumption) ?_) | (refine good_fst (by assumption) ?_)) | (extract_lets +onlyGivenNames x; first | (suffices hx : Good pd x from ?_; (on_goal 1 => clear_value x); (on_goal 2 => simp only [x])) | skip) | split | simp only [id_eq] | simp only [good_mk])

theorem keep_startTransfer {pd : List Instr × Prop × Prop} {i : Issuer} {op owner addr host len : Nat} {s : State} (h_s : Good pd s) :
    OutGood pd (startTransfer i op owner addr host len s) := by
  unfold startTransfer
  split
  · exact h_s
  · refine keep_deviceCommand h_s (fun s h => ?_) (fun s h => good_ite (keep_modFetched h) h)
    simp only [orRefuse]
    split
    · exact keep_complete h
    · exact good_ite (keep_complete h) (good_ite (keep_complete h) (keep_issueReads (keep_modFetched h)))

theorem keep_execMemWrite {pd : List Instr × Prop × Prop} {i : Issuer} {owner : BitVec 8} {addr : BitVec 64} {host : BitVec 64} {length : BitVec 32} {s : State} (h_s : Good pd s) :
    OutGood pd (execMemWrite i owner addr host length s) := keep_startTransfer h_s

theorem keep_execMemRead {pd : List Instr × Prop × Prop} {i : Issuer} {owner : BitVec 8} {addr : BitVec 64} {host : BitVec 64} {length : BitVec 32} {s : State} (h_s : Good pd s) :
    OutGood pd (execMemRead i owner addr host length s) := keep_startTransfer h_s

theorem keep_execCommandTransferComplete {pd : List Instr × Prop × Prop} {i : Issuer} {data : Option (List Byte)} {ecc : List (Nat × Bool)} {s : State} (h_s : Good pd s) :
    OutGood pd (execCommandTransferComplete i data ecc s) := by
  unfold execCommandTransferComplete
  show Good pd _
  repeat' (first | with_reducible (first | assumption | apply good_of | (intro _) | apply keep_complete | apply keep_issuerWrite | apply keep_eccRead | apply keep_writeUnder | apply good_ite | (refine good_snd (by assumption) ?_) | (refine good_fst (by assumption) ?_)) | (extract_lets +onlyGivenNames x; first | (suffices hx : Good pd x from ?_; (on_goal 1 => clear_value x); (on_goal 2 => simp only [x])) | skip) | split | simp only [id_eq] | simp only [good_mk])

theorem keep_refuseAperture {pd : List Instr × Prop × Prop} {s : State} {port : Bool} {fn : Nat} {addr : Nat} {write : Bool} {code : optParam Nat 2308} (h_s : Good pd s) :
    Good pd (refuseAperture s port fn addr write code) := by
  unfold refuseAperture
  repeat' (first | with_reducible (first | assumption | apply good_of | (intro _) | apply keep_freeze | apply keep_countUr | (simp only [pgCc, pgHp, pgMs, pgRi]; split <;> decide) | (simp only [pgCc, pgHp, pgMs, pgRi]; omega) | apply good_ite | (refine good_snd (by assumption) ?_) | (refine good_fst (by assumption) ?_)) | (extract_lets +onlyGivenNames x; first | (suffices hx : Good pd x from ?_; (on_goal 1 => clear_value x); (on_goal 2 => simp only [x])) | skip) | split | simp only [id_eq] | simp only [good_mk])

theorem keep_romAperture {pd : List Instr × Prop × Prop} {s : State} {offset : Nat} {write : Bool} {count : Nat} {data : List Byte} {ecc : List (Nat × Bool)} (h_s : Good pd s) :
    Good pd (romAperture s offset write count data ecc) := by
  unfold romAperture
  repeat' (first | with_reducible (first | assumption | apply good_of | (intro _) | apply keep_emit | apply keep_eccRead | apply keep_writeUnder | apply good_ite | (refine good_snd (by assumption) ?_) | (refine good_fst (by assumption) ?_)) | (extract_lets +onlyGivenNames x; first | (suffices hx : Good pd x from ?_; (on_goal 1 => clear_value x); (on_goal 2 => simp only [x])) | skip) | split | simp only [id_eq] | simp only [good_mk])

theorem keep_execApertureAccess {pd : List Instr × Prop × Prop} {port : Bool} {fn : BitVec 5} {offset : BitVec 64} {write : Bool} {count : Nat} {data : List Byte} {ecc : List (Nat × Bool)} {s : State} (h_s : Good pd s) :
    OutGood pd (execApertureAccess port fn offset write count data ecc s) := by
  unfold execApertureAccess
  show Good pd _
  repeat' (first | with_reducible (first | assumption | apply good_of | (intro _) | apply keep_emit | apply keep_eccRead | apply keep_writeUnder | apply keep_countUr | apply keep_refuseAperture | apply keep_romAperture | apply good_ite | (refine good_snd (by assumption) ?_) | (refine good_fst (by assumption) ?_)) | (extract_lets +onlyGivenNames x; first | (suffices hx : Good pd x from ?_; (on_goal 1 => clear_value x); (on_goal 2 => simp only [x])) | skip) | split | simp only [id_eq] | simp only [good_mk])

theorem keep_markSeams {pd : List Instr × Prop × Prop} {s : State} {ds : List DevRec} (h_s : Good pd s) :
    Good pd (markSeams s ds) := by
  unfold markSeams
  repeat' (first | with_reducible (first | assumption | apply good_of | (intro _) | apply keep_modTile | apply keep_forEach | apply good_ite | (refine good_snd (by assumption) ?_) | (refine good_fst (by assumption) ?_)) | (extract_lets +onlyGivenNames x; first | (suffices hx : Good pd x from ?_; (on_goal 1 => clear_value x); (on_goal 2 => simp only [x])) | skip) | split | simp only [id_eq] | simp only [good_mk])

theorem keep_showSeams {pd : List Instr × Prop × Prop} {s : State} (h_s : Good pd s) :
    Good pd (showSeams s) := by
  unfold showSeams
  repeat' (first | with_reducible (first | assumption | apply good_of | (intro _) | apply keep_markSeams | apply good_ite | (refine good_snd (by assumption) ?_) | (refine good_fst (by assumption) ?_)) | (extract_lets +onlyGivenNames x; first | (suffices hx : Good pd x from ?_; (on_goal 1 => clear_value x); (on_goal 2 => simp only [x])) | skip) | split | simp only [id_eq] | simp only [good_mk])

theorem keep_holdRelief {pd : List Instr × Prop × Prop} {s : State} {g : Nat} {j : Nat} {seam : Bool} {l : Nat} (h_s : Good pd s) :
    Good pd (holdRelief s g j seam l) := by
  unfold holdRelief
  repeat' (first | with_reducible (first | assumption | apply good_of | (intro _) | apply keep_checkReserve | apply keep_setRelief | apply good_ite | (refine good_snd (by assumption) ?_) | (refine good_fst (by assumption) ?_)) | (extract_lets +onlyGivenNames x; first | (suffices hx : Good pd x from ?_; (on_goal 1 => clear_value x); (on_goal 2 => simp only [x])) | skip) | split | simp only [id_eq] | simp only [good_mk])

theorem keep_takeRelief {pd : List Instr × Prop × Prop} {s : State} {g : Nat} {seam : Bool} {ls : List Nat} (h_s : Good pd s) :
    ∀ t, takeRelief s g seam ls = some t → Good pd t.1 := by
  intro t h
  unfold takeRelief at h
  extract_lets free j at h
  split at h
  · exact absurd h (by simp)
  · obtain rfl := Option.some.inj h
    exact keep_forEach (keep_draw h_s) (fun _ _ h => keep_holdRelief h)

theorem keep_freeRelief {pd : List Instr × Prop × Prop} {s : State} {i : Nat} (h_s : Good pd s) :
    Good pd (freeRelief s i) := by
  unfold freeRelief
  repeat' (first | with_reducible (first | assumption | apply good_of | (intro _) | apply keep_setRelief | apply good_ite | (refine good_snd (by assumption) ?_) | (refine good_fst (by assumption) ?_)) | (extract_lets +onlyGivenNames x; first | (suffices hx : Good pd x from ?_; (on_goal 1 => clear_value x); (on_goal 2 => simp only [x])) | skip) | split | simp only [id_eq] | simp only [good_mk])

theorem keep_reliefEvent {pd : List Instr × Prop × Prop} {s : State} {g : Nat} {l : Nat} {t : Nat} {reason : Nat} (h_s : Good pd s) :
    Good pd (reliefEvent s g l t reason) := by
  unfold reliefEvent
  repeat' (first | with_reducible (first | assumption | apply good_of | (intro _) | apply keep_raiseEvent | apply good_ite | (refine good_snd (by assumption) ?_) | (refine good_fst (by assumption) ?_)) | (extract_lets +onlyGivenNames x; first | (suffices hx : Good pd x from ?_; (on_goal 1 => clear_value x); (on_goal 2 => simp only [x])) | skip) | split | simp only [id_eq] | simp only [good_mk])

theorem keep_retireRelief {pd : List Instr × Prop × Prop} {s : State} {g : Nat} {j : Nat} (h_s : Good pd s) :
    Good pd (retireRelief s g j) := by
  unfold retireRelief
  repeat' (first | with_reducible (first | assumption | apply good_of | (intro _) | apply keep_checkReserve | apply keep_setRelief | apply keep_reliefEvent | apply good_ite | (refine good_snd (by assumption) ?_) | (refine good_fst (by assumption) ?_)) | (extract_lets +onlyGivenNames x; first | (suffices hx : Good pd x from ?_; (on_goal 1 => clear_value x); (on_goal 2 => simp only [x])) | skip) | split | simp only [id_eq] | simp only [good_mk])

theorem keep_retireTile {pd : List Instr × Prop × Prop} {s : State} {i : Nat} {shown : Nat} (h_s : Good pd s) :
    Good pd (retireTile s i shown) := by
  unfold retireTile
  repeat' (first | with_reducible (first | assumption | apply good_of | (intro _) | apply keep_modTile | apply keep_recheckDue | apply keep_retireRelief | apply good_ite | (refine good_snd (by assumption) ?_) | (refine good_fst (by assumption) ?_)) | (extract_lets +onlyGivenNames x; first | (suffices hx : Good pd x from ?_; (on_goal 1 => clear_value x); (on_goal 2 => simp only [x])) | skip) | split | simp only [id_eq] | simp only [good_mk])

theorem keep_loseTile {pd : List Instr × Prop × Prop} {s : State} {g : Nat} {l : Nat} {cause : Nat} (h_s : Good pd s) :
    Good pd (loseTile s g l cause) := by
  unfold loseTile
  repeat' (first | with_reducible (first | assumption | apply good_of | (intro _) | apply keep_modTg | apply keep_modTile | apply keep_raiseEvent | apply keep_retireTile | apply good_ite | (refine good_snd (by assumption) ?_) | (refine good_fst (by assumption) ?_)) | (extract_lets +onlyGivenNames x; first | (suffices hx : Good pd x from ?_; (on_goal 1 => clear_value x); (on_goal 2 => simp only [x])) | skip) | split | simp only [id_eq] | simp only [good_mk])

theorem keep_sealEvent {pd : List Instr × Prop × Prop} {s : State} {o : Nat} {what : Nat} (h_s : Good pd s) :
    Good pd (sealEvent s o what) := by
  unfold sealEvent
  repeat' (first | with_reducible (first | assumption | apply good_of | (intro _) | apply keep_raiseEvent | apply good_ite | (refine good_snd (by assumption) ?_) | (refine good_fst (by assumption) ?_)) | (extract_lets +onlyGivenNames x; first | (suffices hx : Good pd x from ?_; (on_goal 1 => clear_value x); (on_goal 2 => simp only [x])) | skip) | split | simp only [id_eq] | simp only [good_mk])

theorem keep_dropLoadRec {pd : List Instr × Prop × Prop} {s : State} {g : Nat} {l : Nat} (h_s : Good pd s) :
    Good pd (dropLoadRec s g l) := by
  unfold dropLoadRec
  repeat' (first | with_reducible (first | assumption | apply good_of | (intro _) | apply keep_modSlot | apply keep_removeSeals | apply keep_sealEvent | apply good_ite | (refine good_snd (by assumption) ?_) | (refine good_fst (by assumption) ?_)) | (extract_lets +onlyGivenNames x; first | (suffices hx : Good pd x from ?_; (on_goal 1 => clear_value x); (on_goal 2 => simp only [x])) | skip) | split | simp only [id_eq] | simp only [good_mk])

theorem keep_writeLoadRec {pd : List Instr × Prop × Prop} {s : State} {g : Nat} {l : Nat} {b : Binding} (h_s : Good pd s) :
    Good pd (writeLoadRec s g l b) := by
  unfold writeLoadRec
  repeat' (first | with_reducible (first | assumption | apply good_of | (intro _) | apply keep_modSlot | apply keep_sealEvent | apply good_ite | (refine good_snd (by assumption) ?_) | (refine good_fst (by assumption) ?_)) | (extract_lets +onlyGivenNames x; first | (suffices hx : Good pd x from ?_; (on_goal 1 => clear_value x); (on_goal 2 => simp only [x])) | skip) | split | simp only [id_eq] | simp only [good_mk])

theorem keep_modLoad {pd : List Instr × Prop × Prop} {s : State} {no : Nat} {f : Load → Load} (h_s : Good pd s) :
    Good pd (modLoad s no f) := by
  unfold modLoad
  repeat' (first | with_reducible (first | assumption | apply good_of | (intro _) | apply good_ite | (refine good_snd (by assumption) ?_) | (refine good_fst (by assumption) ?_)) | (extract_lets +onlyGivenNames x; first | (suffices hx : Good pd x from ?_; (on_goal 1 => clear_value x); (on_goal 2 => simp only [x])) | skip) | split | simp only [id_eq] | simp only [good_mk])

theorem keep_modJob {pd : List Instr × Prop × Prop} {s : State} {tile : Nat} {f : Job → Job} (h_s : Good pd s) :
    Good pd (modJob s tile f) := by
  unfold modJob
  repeat' (first | with_reducible (first | assumption | apply good_of | (intro _) | apply good_ite | (refine good_snd (by assumption) ?_) | (refine good_fst (by assumption) ?_)) | (extract_lets +onlyGivenNames x; first | (suffices hx : Good pd x from ?_; (on_goal 1 => clear_value x); (on_goal 2 => simp only [x])) | skip) | split | simp only [id_eq] | simp only [good_mk])

theorem keep_dropJob {pd : List Instr × Prop × Prop} {s : State} {tile : Nat} (h_s : Good pd s) :
    Good pd (dropJob s tile) := by
  unfold dropJob
  repeat' (first | with_reducible (first | assumption | apply good_of | (intro _) | apply keep_modTile | apply keep_showProg | apply good_ite | (refine good_snd (by assumption) ?_) | (refine good_fst (by assumption) ?_)) | (extract_lets +onlyGivenNames x; first | (suffices hx : Good pd x from ?_; (on_goal 1 => clear_value x); (on_goal 2 => simp only [x])) | skip) | split | simp only [id_eq] | simp only [good_mk])

theorem keep_pauseJobs {pd : List Instr × Prop × Prop} {s : State} (h_s : Good pd s) :
    Good pd (pauseJobs s) := by
  unfold pauseJobs
  repeat' (first | with_reducible (first | assumption | apply good_of | (intro _) | apply keep_modTile | apply keep_forEach | apply keep_showProg | apply keep_modJob | apply good_ite | (refine good_snd (by assumption) ?_) | (refine good_fst (by assumption) ?_)) | (extract_lets +onlyGivenNames x; first | (suffices hx : Good pd x from ?_; (on_goal 1 => clear_value x); (on_goal 2 => simp only [x])) | skip) | split | simp only [id_eq] | simp only [good_mk])

theorem keep_loseLater {pd : List Instr × Prop × Prop} {s : State} {no : Nat} {g : Nat} {ls : List (Nat × Binding)} {cause : Nat} (h_s : Good pd s) :
    Good pd (loseLater s no g ls cause) := by
  unfold loseLater
  repeat' (first | with_reducible (first | assumption | apply good_of | (intro _) | apply keep_forEach | apply keep_loseTile | apply keep_modLoad | apply good_ite | (refine good_snd (by assumption) ?_) | (refine good_fst (by assumption) ?_)) | (extract_lets +onlyGivenNames x; first | (suffices hx : Good pd x from ?_; (on_goal 1 => clear_value x); (on_goal 2 => simp only [x])) | skip) | split | simp only [id_eq] | simp only [good_mk])

theorem keep_relieve {pd : List Instr × Prop × Prop} {s : State} {kind no : Nat} {again : Bool} {g : Nat} {ls : List (Nat × Binding)}
    (h_s : Good pd s) : Good pd (relieve s kind no again g ls) := by
  unfold relieve
  split
  · exact keep_loseLater h_s
  · rename_i h
    have h := keep_takeRelief h_s _ h
    split
    · simp only [good_mk]
      exact good_of h
    · exact keep_loseLater (keep_forEach h (fun _ _ h => keep_freeRelief h))

theorem keep_failInPlace {pd : List Instr × Prop × Prop} {s : State} {no : Nat} {g : Nat} {l : Nat} {b : Binding} (h_s : Good pd s) :
    Good pd (failInPlace s no g l b) := by
  unfold failInPlace
  repeat' (first | with_reducible (first | assumption | apply good_of | (intro _) | apply keep_forEach | apply keep_dropJob | apply keep_relieve | apply good_ite | (refine good_snd (by assumption) ?_) | (refine good_fst (by assumption) ?_)) | (extract_lets +onlyGivenNames x; first | (suffices hx : Good pd x from ?_; (on_goal 1 => clear_value x); (on_goal 2 => simp only [x])) | skip) | split | simp only [id_eq] | simp only [good_mk])

theorem keep_failTarget {pd : List Instr × Prop × Prop} {s : State} {j : Job} (h_s : Good pd s) :
    Good pd (failTarget s j) := by
  unfold failTarget
  repeat' (first | with_reducible (first | assumption | apply good_of | (intro _) | apply keep_forEach | apply keep_freeRelief | apply keep_retireTile | apply keep_dropJob | apply keep_relieve | apply good_ite | (refine good_snd (by assumption) ?_) | (refine good_fst (by assumption) ?_)) | (extract_lets +onlyGivenNames x; first | (suffices hx : Good pd x from ?_; (on_goal 1 => clear_value x); (on_goal 2 => simp only [x])) | skip) | split | simp only [id_eq] | simp only [good_mk])

theorem keep_unbindErased {pd : List Instr × Prop × Prop} {s : State} {g : Nat} {l : Nat} (h_s : Good pd s) :
    Good pd (unbindErased s g l) := by
  unfold unbindErased
  repeat' (first | with_reducible (first | assumption | apply good_of | (intro _) | apply keep_setBinding | apply keep_dropLoadRec | apply good_ite | (refine good_snd (by assumption) ?_) | (refine good_fst (by assumption) ?_)) | (extract_lets +onlyGivenNames x; first | (suffices hx : Good pd x from ?_; (on_goal 1 => clear_value x); (on_goal 2 => simp only [x])) | skip) | split | simp only [id_eq] | simp only [good_mk])

theorem keep_failAssayTile {pd : List Instr × Prop × Prop} {s : State} {j : Job} (h_s : Good pd s) :
    Good pd (failAssayTile s j) := by
  unfold failAssayTile
  repeat' (first | with_reducible (first | assumption | apply good_of | (intro _) | apply keep_setAssayResult | apply keep_reportAssay | apply keep_retireTile | apply keep_dropJob | apply good_ite | (refine good_snd (by assumption) ?_) | (refine good_fst (by assumption) ?_)) | (extract_lets +onlyGivenNames x; first | (suffices hx : Good pd x from ?_; (on_goal 1 => clear_value x); (on_goal 2 => simp only [x])) | skip) | split | simp only [id_eq] | simp only [good_mk])

theorem keep_failJob {pd : List Instr × Prop × Prop} {s : State} {j : Job} (h_s : Good pd s) :
    Good pd (failJob s j) := by
  unfold failJob
  repeat' (first | with_reducible (first | assumption | apply good_of | (intro _) | apply keep_retireTile | apply keep_dropJob | apply keep_failInPlace | apply keep_failTarget | apply keep_unbindErased | apply keep_failAssayTile | apply good_ite | (refine good_snd (by assumption) ?_) | (refine good_fst (by assumption) ?_)) | (extract_lets +onlyGivenNames x; first | (suffices hx : Good pd x from ?_; (on_goal 1 => clear_value x); (on_goal 2 => simp only [x])) | skip) | split | simp only [id_eq] | simp only [good_mk])

theorem keep_unreadable {pd : List Instr × Prop × Prop} {s : State} {j : Job} (h_s : Good pd s) :
    Good pd (unreadable s j) := by
  unfold unreadable
  repeat' (first | with_reducible (first | assumption | apply good_of | (intro _) | apply keep_forEach | apply keep_freeRelief | apply keep_dropJob | apply keep_loseLater | apply good_ite | (refine good_snd (by assumption) ?_) | (refine good_fst (by assumption) ?_)) | (extract_lets +onlyGivenNames x; first | (suffices hx : Good pd x from ?_; (on_goal 1 => clear_value x); (on_goal 2 => simp only [x])) | skip) | split | simp only [id_eq] | simp only [good_mk])

theorem keep_startJob {pd : List Instr × Prop × Prop} {s : State} {j : Job} (h_s : Good pd s) :
    Good pd (startJob s j) := by
  unfold startJob
  repeat' (first | with_reducible (first | assumption | apply good_of | (intro _) | apply keep_modTile | apply keep_setBinding | apply keep_showProg | apply keep_modJob | apply keep_dropJob | apply keep_failJob | apply keep_unreadable | apply good_ite | (refine good_snd (by assumption) ?_) | (refine good_fst (by assumption) ?_)) | (extract_lets +onlyGivenNames x; first | (suffices hx : Good pd x from ?_; (on_goal 1 => clear_value x); (on_goal 2 => simp only [x])) | skip) | split | simp only [id_eq] | simp only [good_mk])

theorem keep_startJobs {pd : List Instr × Prop × Prop} {s : State} (h_s : Good pd s) :
    Good pd (startJobs s) := by
  unfold startJobs
  repeat' (first | with_reducible (first | assumption | apply good_of | (intro _) | apply keep_forEach | apply keep_startJob | apply good_ite | (refine good_snd (by assumption) ?_) | (refine good_fst (by assumption) ?_)) | (extract_lets +onlyGivenNames x; first | (suffices hx : Good pd x from ?_; (on_goal 1 => clear_value x); (on_goal 2 => simp only [x])) | skip) | split | simp only [id_eq] | simp only [good_mk])

theorem keep_updatePvMean {pd : List Instr × Prop × Prop} {s : State} (h_s : Good pd s) :
    Good pd (updatePvMean s) := by
  unfold updatePvMean
  repeat' (first | with_reducible (first | assumption | apply good_of | (intro _) | apply good_ite | (refine good_snd (by assumption) ?_) | (refine good_fst (by assumption) ?_)) | (extract_lets +onlyGivenNames x; first | (suffices hx : Good pd x from ?_; (on_goal 1 => clear_value x); (on_goal 2 => simp only [x])) | skip) | split | simp only [id_eq] | simp only [good_mk])

theorem keep_swapRelief {pd : List Instr × Prop × Prop} {s : State} {j : Job} (h_s : Good pd s) :
    Good pd (swapRelief s j) := by
  unfold swapRelief
  repeat' (first | with_reducible (first | assumption | apply good_of | (intro _) | apply keep_modTg | apply keep_modTile | apply keep_setBinding | apply keep_raiseEvent | apply keep_setRelief | apply keep_retireTile | apply keep_modLoad | apply good_ite | (refine good_snd (by assumption) ?_) | (refine good_fst (by assumption) ?_)) | (extract_lets +onlyGivenNames x; first | (suffices hx : Good pd x from ?_; (on_goal 1 => clear_value x); (on_goal 2 => simp only [x])) | skip) | split | simp only [id_eq] | simp only [good_mk])

theorem keep_boundaryJobs {pd : List Instr × Prop × Prop} {s : State} (h_s : Good pd s) :
    Good pd (boundaryJobs s) := by
  unfold boundaryJobs
  repeat' (first | with_reducible (first | assumption | apply good_of | (intro _) | apply keep_forEach | apply keep_showSeams | apply keep_loseTile | apply keep_swapRelief | apply good_ite | (refine good_snd (by assumption) ?_) | (refine good_fst (by assumption) ?_)) | (extract_lets +onlyGivenNames x; first | (suffices hx : Good pd x from ?_; (on_goal 1 => clear_value x); (on_goal 2 => simp only [x])) | skip) | split | simp only [id_eq] | simp only [good_mk])

theorem keep_boundaryNow {pd : List Instr × Prop × Prop} {s : State} (h_s : Good pd s) :
    Good pd (boundaryNow s) := by
  unfold boundaryNow
  repeat' (first | with_reducible (first | assumption | apply good_of | (intro _) | apply keep_boundaryJobs | apply good_ite | (refine good_snd (by assumption) ?_) | (refine good_fst (by assumption) ?_)) | (extract_lets +onlyGivenNames x; first | (suffices hx : Good pd x from ?_; (on_goal 1 => clear_value x); (on_goal 2 => simp only [x])) | skip) | split | simp only [id_eq] | simp only [good_mk])

theorem keep_programmed {pd : List Instr × Prop × Prop} {s : State} {j : Job} {touched : Bool} (h_s : Good pd s) :
    Good pd (programmed s j touched) := by
  unfold programmed
  repeat' (first | with_reducible (first | assumption | apply good_of | (intro _) | apply keep_modTile | apply keep_setBinding | apply keep_startTileCal | apply keep_freeRelief | apply keep_modLoad | apply keep_modJob | apply keep_dropJob | apply keep_unbindErased | apply good_ite | (refine good_snd (by assumption) ?_) | (refine good_fst (by assumption) ?_)) | (extract_lets +onlyGivenNames x; first | (suffices hx : Good pd x from ?_; (on_goal 1 => clear_value x); (on_goal 2 => simp only [x])) | skip) | split | simp only [id_eq] | simp only [good_mk])

theorem keep_execTileProgramDone {pd : List Instr × Prop × Prop} {tile : BitVec 17} {failed : List (Nat × Nat × Nat)} {partners : List (Nat × Nat × Nat)} {iterations : BitVec 16} {touched : Bool} {s : State} (h_s : Good pd s) :
    OutGood pd (execTileProgramDone tile failed partners iterations touched s) := by
  unfold execTileProgramDone
  show Good pd _
  repeat' (first | with_reducible (first | assumption | apply good_of | (intro _) | apply keep_modTile | apply keep_raiseEvent | apply keep_eccRead | apply keep_countCycle | apply keep_showProg | apply keep_failJob | apply keep_startJobs | apply keep_updatePvMean | apply keep_boundaryNow | apply keep_programmed | apply good_ite | (refine good_snd (by assumption) ?_) | (refine good_fst (by assumption) ?_)) | (extract_lets +onlyGivenNames x; first | (suffices hx : Good pd x from ?_; (on_goal 1 => clear_value x); (on_goal 2 => simp only [x])) | skip) | split | simp only [id_eq] | simp only [good_mk])

theorem keep_execTileSettleEnd {pd : List Instr × Prop × Prop} {tile : BitVec 17} {s : State} (h_s : Good pd s) :
    OutGood pd (execTileSettleEnd tile s) := by
  unfold execTileSettleEnd
  show Good pd _
  repeat' (first | with_reducible (first | assumption | apply good_of | (intro _) | apply keep_modTile | apply keep_startTileCal | apply keep_modJob | apply good_ite | (refine good_snd (by assumption) ?_) | (refine good_fst (by assumption) ?_)) | (extract_lets +onlyGivenNames x; first | (suffices hx : Good pd x from ?_; (on_goal 1 => clear_value x); (on_goal 2 => simp only [x])) | skip) | split | simp only [id_eq] | simp only [good_mk])

theorem keep_jobCalibrated {pd : List Instr × Prop × Prop} {s : State} {i : Nat} (h_s : Good pd s) :
    Good pd (jobCalibrated s i) := by
  unfold jobCalibrated
  repeat' (first | with_reducible (first | assumption | apply good_of | (intro _) | apply keep_modTile | apply keep_writeLoadRec | apply keep_modJob | apply keep_dropJob | apply keep_boundaryNow | apply good_ite | (refine good_snd (by assumption) ?_) | (refine good_fst (by assumption) ?_)) | (extract_lets +onlyGivenNames x; first | (suffices hx : Good pd x from ?_; (on_goal 1 => clear_value x); (on_goal 2 => simp only [x])) | skip) | split | simp only [id_eq] | simp only [good_mk])

theorem keep_execTileCalComplete {pd : List Instr × Prop × Prop} {tile : BitVec 17} {dead : List (BitVec 7)} {s : State} (h_s : Good pd s) :
    OutGood pd (execTileCalComplete tile dead s) := by
  unfold execTileCalComplete
  show Good pd _
  repeat' (first | with_reducible (first | assumption | apply good_of | (intro _) | apply keep_forEach | apply keep_convDead | apply keep_finishTileCal | apply keep_recheckDue | apply keep_jobCalibrated | apply good_ite | (refine good_snd (by assumption) ?_) | (refine good_fst (by assumption) ?_)) | (extract_lets +onlyGivenNames x; first | (suffices hx : Good pd x from ?_; (on_goal 1 => clear_value x); (on_goal 2 => simp only [x])) | skip) | split | simp only [id_eq] | simp only [good_mk])

theorem keep_liveTargets {pd : List Instr × Prop × Prop} {s : State} {z1 : List (Nat × Nat × Bool)} (h_s : Good pd s) :
    ∀ t, liveTargets s z1 = some t → Good pd t.1 := by
  induction z1 generalizing s with
  | nil =>
    intro t h
    obtain rfl := Option.some.inj h
    exact h_s
  | cons x rest ih =>
    obtain ⟨g, l, seam⟩ := x
    intro t h
    unfold liveTargets at h
    extract_lets ls at h
    split at h
    · obtain ⟨r, hr, rfl⟩ := Option.map_eq_some_iff.1 h
      exact ih h_s r hr
    · split at h
      · exact absurd h (by simp)
      · split at h
        · exact absurd h (by simp)
        · rename_i ht
          obtain ⟨r, hr, rfl⟩ := Option.map_eq_some_iff.1 h
          exact ih (keep_takeRelief h_s _ ht) r hr

theorem keep_acceptLoad {pd : List Instr × Prop × Prop} {s : State} {i : Issuer} {o : Nat} {mode : Nat} {isSeal : Bool} {es : List (Nat × Nat)} {bs : List Binding} {tg : List Nat} (h_s : Good pd s) :
    Good pd (acceptLoad s i o mode isSeal es bs tg) := by
  unfold acceptLoad
  repeat' (first | with_reducible (first | assumption | apply good_of | (intro _) | apply good_ite | (refine good_snd (by assumption) ?_) | (refine good_fst (by assumption) ?_)) | (extract_lets +onlyGivenNames x; first | (suffices hx : Good pd x from ?_; (on_goal 1 => clear_value x); (on_goal 2 => simp only [x])) | skip) | split | simp only [id_eq] | simp only [good_mk])

theorem keep_acceptLive {pd : List Instr × Prop × Prop} {s : State} {i : Issuer} {o : Nat} {keep : Bool} {es : List (Nat × Nat)} {bs : List Binding}
    {us : List (Nat × Nat × Bool)} (h_s : Good pd s) : Good pd (acceptLive s i o keep es bs us) := by
  unfold acceptLive
  split
  · exact keep_complete h_s
  · rename_i h
    exact keep_acceptLoad (keep_liveTargets h_s _ h)

theorem keep_execLoadWeights {pd : List Instr × Prop × Prop} {i : Issuer} {owner : BitVec 8} {list : BitVec 64} {ecc : List (Nat × Bool)} {s : State} (h_s : Good pd s) :
    OutGood pd (execLoadWeights i owner list ecc s) := by
  unfold execLoadWeights
  show Good pd _
  repeat' (first | with_reducible (first | assumption | apply good_of | (intro _) | apply keep_forEach | apply keep_complete | apply keep_eccRead | apply keep_deviceCommand | apply keep_orRefuse | apply keep_acceptLoad | apply keep_acceptLive | apply keep_sendMessage | apply keep_raiseEvent | apply keep_sendOn | apply keep_modFetched | apply keep_stage | apply good_ite | (refine good_snd (by assumption) ?_) | (refine good_fst (by assumption) ?_)) | (extract_lets +onlyGivenNames x; first | (suffices hx : Good pd x from ?_; (on_goal 1 => clear_value x); (on_goal 2 => simp only [x])) | skip) | split | simp only [id_eq] | simp only [good_mk])

theorem keep_enterJob {pd : List Instr × Prop × Prop} {x : Load} {s : State} {e : Nat × (Nat × Nat) × Binding} (h_s : Good pd s) :
    Good pd (enterJob x s e) := by
  unfold enterJob
  repeat' (first | with_reducible (first | assumption | apply good_of | (intro _) | apply keep_setBinding | apply keep_dropLoadRec | apply keep_modLoad | apply keep_relieve | apply keep_unbindErased | apply good_ite | (refine good_snd (by assumption) ?_) | (refine good_fst (by assumption) ?_)) | (extract_lets +onlyGivenNames x; first | (suffices hx : Good pd x from ?_; (on_goal 1 => clear_value x); (on_goal 2 => simp only [x])) | skip) | split | simp only [id_eq] | simp only [good_mk])

theorem keep_execLoadWeightsStart {pd : List Instr × Prop × Prop} {s : State} (h_s : Good pd s) :
    OutGood pd (execLoadWeightsStart s) := by
  unfold execLoadWeightsStart
  show Good pd _
  repeat' (first | with_reducible (first | assumption | apply good_of | (intro _) | apply keep_forEach | apply keep_modLoad | apply keep_startJobs | apply keep_enterJob | apply good_ite | (refine good_snd (by assumption) ?_) | (refine good_fst (by assumption) ?_)) | (extract_lets +onlyGivenNames x; first | (suffices hx : Good pd x from ?_; (on_goal 1 => clear_value x); (on_goal 2 => simp only [x])) | skip) | split | simp only [id_eq] | simp only [good_mk])

theorem keep_giveUp {pd : List Instr × Prop × Prop} {s : State} {p : Job → Bool} (h_s : Good pd s) :
    Good pd (giveUp s p) := by
  unfold giveUp
  repeat' (first | with_reducible (first | assumption | apply good_of | (intro _) | apply keep_forEach | apply keep_freeRelief | apply keep_dropJob | apply good_ite | (refine good_snd (by assumption) ?_) | (refine good_fst (by assumption) ?_)) | (extract_lets +onlyGivenNames x; first | (suffices hx : Good pd x from ?_; (on_goal 1 => clear_value x); (on_goal 2 => simp only [x])) | skip) | split | simp only [id_eq] | simp only [good_mk])

theorem keep_execLoadWeightsComplete {pd : List Instr × Prop × Prop} {load : BitVec 32} {s : State} (h_s : Good pd s) :
    OutGood pd (execLoadWeightsComplete load s) := by
  unfold execLoadWeightsComplete
  show Good pd _
  repeat' (first | with_reducible (first | assumption | apply good_of | (intro _) | apply keep_complete | apply keep_startJobs | apply keep_giveUp | apply good_ite | (refine good_snd (by assumption) ?_) | (refine good_fst (by assumption) ?_)) | (extract_lets +onlyGivenNames x; first | (suffices hx : Good pd x from ?_; (on_goal 1 => clear_value x); (on_goal 2 => simp only [x])) | skip) | split | simp only [id_eq] | simp only [good_mk])

theorem keep_execTileRetire {pd : List Instr × Prop × Prop} {group : BitVec 6} {tile : BitVec 11} {ecc : List (Nat × Bool)} {s : State}
    (h_s : Good pd s) : OutGood pd (execTileRetire group tile ecc s) := by
  unfold execTileRetire
  show Good pd _
  extract_lets g i own
  refine good_ite h_s ?_
  split
  · exact keep_boundaryNow (keep_startJobs (keep_failTarget h_s))
  · split
    · rename_i l _
      refine good_ite h_s ?_
      have h1 : Good pd (forEach (pairWith s g l ((own.map (·.bind)).getD (lastBinding s g l))) (fun s x =>
          if x.2.bound && extentsGranted s x.2.owner x.2.block 131072 then eccRead s x.2.block 131072 ecc rdFirmware 0xFFFF else s) s) :=
        keep_forEach h_s (fun _ _ h => good_ite (keep_eccRead h) h)
      extract_lets b s1
      change Good pd s1 at h1
      clear_value s1 b own
      apply keep_boundaryNow
      apply keep_startJobs
      split
      · exact keep_failJob h1
      · exact keep_failInPlace h1
    · split
      · exact keep_startJobs (keep_failJob h_s)
      · exact good_ite h_s (keep_retireTile h_s)

theorem keep_swapLive {pd : List Instr × Prop × Prop} {x : Load} {s : State} {j : Job} (h_s : Good pd s) :
    Good pd (swapLive x s j) := by
  unfold swapLive
  repeat' (first | with_reducible (first | assumption | apply good_of | (intro _) | apply keep_modTile | apply keep_setBinding | apply keep_raiseEvent | apply keep_setRelief | apply keep_freeRelief | apply keep_dropLoadRec | apply good_ite | (refine good_snd (by assumption) ?_) | (refine good_fst (by assumption) ?_)) | (extract_lets +onlyGivenNames x; first | (suffices hx : Good pd x from ?_; (on_goal 1 => clear_value x); (on_goal 2 => simp only [x])) | skip) | split | simp only [id_eq] | simp only [good_mk])

theorem keep_execLiveSwap {pd : List Instr × Prop × Prop} {load : BitVec 32} {s : State} (h_s : Good pd s) :
    OutGood pd (execLiveSwap load s) := by
  unfold execLiveSwap
  show Good pd _
  repeat' (first | with_reducible (first | assumption | apply good_of | (intro _) | apply keep_forEach | apply keep_showSeams | apply keep_swapLive | apply good_ite | (refine good_snd (by assumption) ?_) | (refine good_fst (by assumption) ?_)) | (extract_lets +onlyGivenNames x; first | (suffices hx : Good pd x from ?_; (on_goal 1 => clear_value x); (on_goal 2 => simp only [x])) | skip) | split | simp only [id_eq] | simp only [good_mk])

theorem keep_execTileUnbind {pd : List Instr × Prop × Prop} {s : State} (h_s : Good pd s) :
    OutGood pd (execTileUnbind s) := by
  unfold execTileUnbind
  show Good pd _
  repeat' (first | with_reducible (first | assumption | apply good_of | (intro _) | apply keep_forEach | apply keep_unbindOwner | apply keep_giveUp | apply good_ite | (refine good_snd (by assumption) ?_) | (refine good_fst (by assumption) ?_)) | (extract_lets +onlyGivenNames x; first | (suffices hx : Good pd x from ?_; (on_goal 1 => clear_value x); (on_goal 2 => simp only [x])) | skip) | split | simp only [id_eq] | simp only [good_mk])

theorem keep_endLaunch {pd : List Instr × Prop × Prop} {s : State} {c : Nat} (h_s : Good pd s) :
    Good pd (endLaunch s c) := by
  unfold endLaunch
  repeat' (first | with_reducible (first | assumption | apply good_of | (intro _) | apply keep_modCore | apply keep_modLive | apply keep_beginLaunch | apply good_ite | (refine good_snd (by assumption) ?_) | (refine good_fst (by assumption) ?_)) | (extract_lets +onlyGivenNames x; first | (suffices hx : Good pd x from ?_; (on_goal 1 => clear_value x); (on_goal 2 => simp only [x])) | skip) | split | simp only [id_eq] | simp only [good_mk])

theorem keep_branchBody {pd : List Instr × Prop × Prop} {s : State} {c : Nat} {w : BitVec 64} {taken : Bool} (h_s : Good pd s) :
    Good pd (branchBody s c w taken) := by
  unfold branchBody
  repeat' (first | with_reducible (first | assumption | apply good_of | (intro _) | apply keep_modCore | apply keep_coreFault | apply keep_advance | apply good_ite | (refine good_snd (by assumption) ?_) | (refine good_fst (by assumption) ?_)) | (extract_lets +onlyGivenNames x; first | (suffices hx : Good pd x from ?_; (on_goal 1 => clear_value x); (on_goal 2 => simp only [x])) | skip) | split | simp only [id_eq] | simp only [good_mk])

theorem keep_condBranch {pd : List Instr × Prop × Prop} {op : Nat} {test : BitVec 64 → BitVec 64 → Bool} {core : BitVec 8} {a : BitVec 5} {b : BitVec 5} {imm : BitVec 32} {s : State} (h_s : Good pd s) :
    Good pd (condBranch op test core a b imm s) := by
  unfold condBranch
  repeat' (first | with_reducible (first | assumption | apply good_of | (intro _) | apply keep_issue | apply keep_branchBody | apply good_ite | (refine good_snd (by assumption) ?_) | (refine good_fst (by assumption) ?_)) | (extract_lets +onlyGivenNames x; first | (suffices hx : Good pd x from ?_; (on_goal 1 => clear_value x); (on_goal 2 => simp only [x])) | skip) | split | simp only [id_eq] | simp only [good_mk])

theorem keep_fenceBody {pd : List Instr × Prop × Prop} {s : State} {c : Nat} (h_s : Good pd s) :
    Good pd (fenceBody s c) := by
  unfold fenceBody
  repeat' (first | with_reducible (first | assumption | apply good_of | (intro _) | apply keep_stall | apply keep_advance | apply good_ite | (refine good_snd (by assumption) ?_) | (refine good_fst (by assumption) ?_)) | (extract_lets +onlyGivenNames x; first | (suffices hx : Good pd x from ?_; (on_goal 1 => clear_value x); (on_goal 2 => simp only [x])) | skip) | split | simp only [id_eq] | simp only [good_mk])

theorem keep_waittBody {pd : List Instr × Prop × Prop} {s : State} {c : Nat} {w : BitVec 64} (h_s : Good pd s) :
    Good pd (waittBody s c w) := by
  unfold waittBody
  repeat' (first | with_reducible (first | assumption | apply good_of | (intro _) | apply keep_stall | apply keep_advance | apply keep_beatCycle | apply good_ite | (refine good_snd (by assumption) ?_) | (refine good_fst (by assumption) ?_)) | (extract_lets +onlyGivenNames x; first | (suffices hx : Good pd x from ?_; (on_goal 1 => clear_value x); (on_goal 2 => simp only [x])) | skip) | split | simp only [id_eq] | simp only [good_mk])

theorem keep_waitcBody {pd : List Instr × Prop × Prop} {s : State} {c : Nat} {w : BitVec 64} (h_s : Good pd s) :
    Good pd (waitcBody s c w) := by
  unfold waitcBody
  repeat' (first | with_reducible (first | assumption | apply good_of | (intro _) | apply keep_draw | apply keep_slotFault | apply keep_stall | apply keep_advance | apply good_ite | (refine good_snd (by assumption) ?_) | (refine good_fst (by assumption) ?_)) | (extract_lets +onlyGivenNames x; first | (suffices hx : Good pd x from ?_; (on_goal 1 => clear_value x); (on_goal 2 => simp only [x])) | skip) | split | simp only [id_eq] | simp only [good_mk])

theorem keep_postBody {pd : List Instr × Prop × Prop} {s : State} {c : Nat} {w : BitVec 64} (h_s : Good pd s) :
    Good pd (postBody s c w) := by
  unfold postBody
  repeat' (first | with_reducible (first | assumption | apply good_of | (intro _) | apply keep_coreFault | apply keep_stall | apply keep_advance | apply keep_modLive | apply good_ite | (refine good_snd (by assumption) ?_) | (refine good_fst (by assumption) ?_)) | (extract_lets +onlyGivenNames x; first | (suffices hx : Good pd x from ?_; (on_goal 1 => clear_value x); (on_goal 2 => simp only [x])) | skip) | split | simp only [id_eq] | simp only [good_mk])

theorem keep_specialValue {pd : List Instr × Prop × Prop} {s : State} {c : Nat} {sel : Nat} (h_s : Good pd s) :
    Good pd (specialValue s c sel).2 := by
  unfold specialValue
  repeat' (first | with_reducible (first | assumption | apply good_of | (intro _) | apply keep_beatCycle | apply keep_beatRho | apply good_ite | (refine good_snd (by assumption) ?_) | (refine good_fst (by assumption) ?_)) | (extract_lets +onlyGivenNames x; first | (suffices hx : Good pd x from ?_; (on_goal 1 => clear_value x); (on_goal 2 => simp only [x])) | skip) | split | simp only [id_eq] | simp only [good_mk])

theorem keep_rscBody {pd : List Instr × Prop × Prop} {s : State} {c : Nat} {w : BitVec 64} (h_s : Good pd s) :
    Good pd (rscBody s c w) := by
  unfold rscBody
  repeat' (first | with_reducible (first | assumption | apply good_of | (intro _) | apply keep_draw | apply keep_coreFault | apply keep_retire | apply keep_beatRho | apply good_ite | (refine good_snd (by assumption) ?_) | (refine good_fst (by assumption) ?_)) | (extract_lets +onlyGivenNames x; first | (suffices hx : Good pd x from ?_; (on_goal 1 => clear_value x); (on_goal 2 => simp only [x])) | skip) | split | simp only [id_eq] | simp only [good_mk])

theorem keep_nwchkBody {pd : List Instr × Prop × Prop} {s : State} {c : Nat} {w : BitVec 64} (h_s : Good pd s) :
    Good pd (nwchkBody s c w) := by
  unfold nwchkBody
  repeat' (first | with_reducible (first | assumption | apply good_of | (intro _) | apply keep_coreFault | apply keep_retire | apply keep_modLive | apply good_ite | (refine good_snd (by assumption) ?_) | (refine good_fst (by assumption) ?_)) | (extract_lets +onlyGivenNames x; first | (suffices hx : Good pd x from ?_; (on_goal 1 => clear_value x); (on_goal 2 => simp only [x])) | skip) | split | simp only [id_eq] | simp only [good_mk])

theorem keep_randBody {pd : List Instr × Prop × Prop} {s : State} {c : Nat} {w : BitVec 64} (h_s : Good pd s) :
    Good pd (randBody s c w) := by
  unfold randBody
  repeat' (first | with_reducible (first | assumption | apply good_of | (intro _) | apply keep_coreFault | apply keep_retire | apply good_ite | (refine good_snd (by assumption) ?_) | (refine good_fst (by assumption) ?_)) | (extract_lets +onlyGivenNames x; first | (suffices hx : Good pd x from ?_; (on_goal 1 => clear_value x); (on_goal 2 => simp only [x])) | skip) | split | simp only [id_eq] | simp only [good_mk])

theorem keep_execCcNop {pd : List Instr × Prop × Prop} {core : BitVec 8} {s : State} (h_s : Good pd s) :
    OutGood pd (execCcNop core s) := by
  unfold execCcNop
  show Good pd _
  repeat' (first | with_reducible (first | assumption | apply good_of | (intro _) | apply keep_issue | apply keep_advance | apply good_ite | (refine good_snd (by assumption) ?_) | (refine good_fst (by assumption) ?_)) | (extract_lets +onlyGivenNames x; first | (suffices hx : Good pd x from ?_; (on_goal 1 => clear_value x); (on_goal 2 => simp only [x])) | skip) | split | simp only [id_eq] | simp only [good_mk])

theorem keep_execCcEnd {pd : List Instr × Prop × Prop} {core : BitVec 8} {s : State} (h_s : Good pd s) :
    OutGood pd (execCcEnd core s) := by
  unfold execCcEnd
  show Good pd _
  repeat' (first | with_reducible (first | assumption | apply good_of | (intro _) | apply keep_issue | apply keep_endLaunch | apply good_ite | (refine good_snd (by assumption) ?_) | (refine good_fst (by assumption) ?_)) | (extract_lets +onlyGivenNames x; first | (suffices hx : Good pd x from ?_; (on_goal 1 => clear_value x); (on_goal 2 => simp only [x])) | skip) | split | simp only [id_eq] | simp only [good_mk])

theorem keep_execCcBr {pd : List Instr × Prop × Prop} {core : BitVec 8} {imm : BitVec 32} {s : State} (h_s : Good pd s) :
    OutGood pd (execCcBr core imm s) := by
  unfold execCcBr
  show Good pd _
  repeat' (first | with_reducible (first | assumption | apply good_of | (intro _) | apply keep_issue | apply keep_branchBody | apply good_ite | (refine good_snd (by assumption) ?_) | (refine good_fst (by assumption) ?_)) | (extract_lets +onlyGivenNames x; first | (suffices hx : Good pd x from ?_; (on_goal 1 => clear_value x); (on_goal 2 => simp only [x])) | skip) | split | simp only [id_eq] | simp only [good_mk])

theorem keep_execCcBeq {pd : List Instr × Prop × Prop} {core : BitVec 8} {a : BitVec 5} {b : BitVec 5} {imm : BitVec 32} {s : State} (h_s : Good pd s) :
    OutGood pd (execCcBeq core a b imm s) := by
  unfold execCcBeq
  show Good pd _
  repeat' (first | with_reducible (first | assumption | apply good_of | (intro _) | apply keep_condBranch | apply good_ite | (refine good_snd (by assumption) ?_) | (refine good_fst (by assumption) ?_)) | (extract_lets +onlyGivenNames x; first | (suffices hx : Good pd x from ?_; (on_goal 1 => clear_value x); (on_goal 2 => simp only [x])) | skip) | split | simp only [id_eq] | simp only [good_mk])

theorem keep_execCcBne {pd : List Instr × Prop × Prop} {core : BitVec 8} {a : BitVec 5} {b : BitVec 5} {imm : BitVec 32} {s : State} (h_s : Good pd s) :
    OutGood pd (execCcBne core a b imm s) := by
  unfold execCcBne
  show Good pd _
  repeat' (first | with_reducible (first | assumption | apply good_of | (intro _) | apply keep_condBranch | apply good_ite | (refine good_snd (by assumption) ?_) | (refine good_fst (by assumption) ?_)) | (extract_lets +onlyGivenNames x; first | (suffices hx : Good pd x from ?_; (on_goal 1 => clear_value x); (on_goal 2 => simp only [x])) | skip) | split | simp only [id_eq] | simp only [good_mk])

theorem keep_execCcBlt {pd : List Instr × Prop × Prop} {core : BitVec 8} {a : BitVec 5} {b : BitVec 5} {imm : BitVec 32} {s : State} (h_s : Good pd s) :
    OutGood pd (execCcBlt core a b imm s) := by
  unfold execCcBlt
  show Good pd _
  repeat' (first | with_reducible (first | assumption | apply good_of | (intro _) | apply keep_condBranch | apply good_ite | (refine good_snd (by assumption) ?_) | (refine good_fst (by assumption) ?_)) | (extract_lets +onlyGivenNames x; first | (suffices hx : Good pd x from ?_; (on_goal 1 => clear_value x); (on_goal 2 => simp only [x])) | skip) | split | simp only [id_eq] | simp only [good_mk])

theorem keep_execCcBge {pd : List Instr × Prop × Prop} {core : BitVec 8} {a : BitVec 5} {b : BitVec 5} {imm : BitVec 32} {s : State} (h_s : Good pd s) :
    OutGood pd (execCcBge core a b imm s) := by
  unfold execCcBge
  show Good pd _
  repeat' (first | with_reducible (first | assumption | apply good_of | (intro _) | apply keep_condBranch | apply good_ite | (refine good_snd (by assumption) ?_) | (refine good_fst (by assumption) ?_)) | (extract_lets +onlyGivenNames x; first | (suffices hx : Good pd x from ?_; (on_goal 1 => clear_value x); (on_goal 2 => simp only [x])) | skip) | split | simp only [id_eq] | simp only [good_mk])

theorem keep_execCcBltu {pd : List Instr × Prop × Prop} {core : BitVec 8} {a : BitVec 5} {b : BitVec 5} {imm : BitVec 32} {s : State} (h_s : Good pd s) :
    OutGood pd (execCcBltu core a b imm s) := by
  unfold execCcBltu
  show Good pd _
  repeat' (first | with_reducible (first | assumption | apply good_of | (intro _) | apply keep_condBranch | apply good_ite | (refine good_snd (by assumption) ?_) | (refine good_fst (by assumption) ?_)) | (extract_lets +onlyGivenNames x; first | (suffices hx : Good pd x from ?_; (on_goal 1 => clear_value x); (on_goal 2 => simp only [x])) | skip) | split | simp only [id_eq] | simp only [good_mk])

theorem keep_execCcBgeu {pd : List Instr × Prop × Prop} {core : BitVec 8} {a : BitVec 5} {b : BitVec 5} {imm : BitVec 32} {s : State} (h_s : Good pd s) :
    OutGood pd (execCcBgeu core a b imm s) := by
  unfold execCcBgeu
  show Good pd _
  repeat' (first | with_reducible (first | assumption | apply good_of | (intro _) | apply keep_condBranch | apply good_ite | (refine good_snd (by assumption) ?_) | (refine good_fst (by assumption) ?_)) | (extract_lets +onlyGivenNames x; first | (suffices hx : Good pd x from ?_; (on_goal 1 => clear_value x); (on_goal 2 => simp only [x])) | skip) | split | simp only [id_eq] | simp only [good_mk])

theorem keep_execCcFence {pd : List Instr × Prop × Prop} {core : BitVec 8} {s : State} (h_s : Good pd s) :
    OutGood pd (execCcFence core s) := by
  unfold execCcFence
  show Good pd _
  repeat' (first | with_reducible (first | assumption | apply good_of | (intro _) | apply keep_issue | apply keep_fenceBody | apply good_ite | (refine good_snd (by assumption) ?_) | (refine good_fst (by assumption) ?_)) | (extract_lets +onlyGivenNames x; first | (suffices hx : Good pd x from ?_; (on_goal 1 => clear_value x); (on_goal 2 => simp only [x])) | skip) | split | simp only [id_eq] | simp only [good_mk])

theorem keep_execCcWaitt {pd : List Instr × Prop × Prop} {core : BitVec 8} {a : BitVec 5} {imm : BitVec 32} {s : State} (h_s : Good pd s) :
    OutGood pd (execCcWaitt core a imm s) := by
  unfold execCcWaitt
  show Good pd _
  repeat' (first | with_reducible (first | assumption | apply good_of | (intro _) | apply keep_issue | apply keep_waittBody | apply good_ite | (refine good_snd (by assumption) ?_) | (refine good_fst (by assumption) ?_)) | (extract_lets +onlyGivenNames x; first | (suffices hx : Good pd x from ?_; (on_goal 1 => clear_value x); (on_goal 2 => simp only [x])) | skip) | split | simp only [id_eq] | simp only [good_mk])

theorem keep_execCcWaitc {pd : List Instr × Prop × Prop} {core : BitVec 8} {imm : BitVec 32} {s : State} (h_s : Good pd s) :
    OutGood pd (execCcWaitc core imm s) := by
  unfold execCcWaitc
  show Good pd _
  repeat' (first | with_reducible (first | assumption | apply good_of | (intro _) | apply keep_issue | apply keep_waitcBody | apply good_ite | (refine good_snd (by assumption) ?_) | (refine good_fst (by assumption) ?_)) | (extract_lets +onlyGivenNames x; first | (suffices hx : Good pd x from ?_; (on_goal 1 => clear_value x); (on_goal 2 => simp only [x])) | skip) | split | simp only [id_eq] | simp only [good_mk])

theorem keep_execCcPost {pd : List Instr × Prop × Prop} {core : BitVec 8} {imm : BitVec 32} {s : State} (h_s : Good pd s) :
    OutGood pd (execCcPost core imm s) := by
  unfold execCcPost
  show Good pd _
  repeat' (first | with_reducible (first | assumption | apply good_of | (intro _) | apply keep_issue | apply keep_postBody | apply good_ite | (refine good_snd (by assumption) ?_) | (refine good_fst (by assumption) ?_)) | (extract_lets +onlyGivenNames x; first | (suffices hx : Good pd x from ?_; (on_goal 1 => clear_value x); (on_goal 2 => simp only [x])) | skip) | split | simp only [id_eq] | simp only [good_mk])

theorem keep_execCcSget {pd : List Instr × Prop × Prop} {core : BitVec 8} {d : BitVec 5} {imm : BitVec 32} {s : State} (h_s : Good pd s) :
    OutGood pd (execCcSget core d imm s) := by
  unfold execCcSget
  show Good pd _
  repeat' (first | with_reducible (first | assumption | apply good_of | (intro _) | apply keep_issue | apply keep_retire | apply keep_specialValue | apply good_ite | (refine good_snd (by assumption) ?_) | (refine good_fst (by assumption) ?_)) | (extract_lets +onlyGivenNames x; first | (suffices hx : Good pd x from ?_; (on_goal 1 => clear_value x); (on_goal 2 => simp only [x])) | skip) | split | simp only [id_eq] | simp only [good_mk])

theorem keep_execCcFsclr {pd : List Instr × Prop × Prop} {core : BitVec 8} {s : State} (h_s : Good pd s) :
    OutGood pd (execCcFsclr core s) := by
  unfold execCcFsclr
  show Good pd _
  repeat' (first | with_reducible (first | assumption | apply good_of | (intro _) | apply keep_issue | apply keep_retire | apply good_ite | (refine good_snd (by assumption) ?_) | (refine good_fst (by assumption) ?_)) | (extract_lets +onlyGivenNames x; first | (suffices hx : Good pd x from ?_; (on_goal 1 => clear_value x); (on_goal 2 => simp only [x])) | skip) | split | simp only [id_eq] | simp only [good_mk])

theorem keep_execCcRsc {pd : List Instr × Prop × Prop} {core : BitVec 8} {d : BitVec 5} {a : BitVec 5} {imm : BitVec 32} {s : State} (h_s : Good pd s) :
    OutGood pd (execCcRsc core d a imm s) := by
  unfold execCcRsc
  show Good pd _
  repeat' (first | with_reducible (first | assumption | apply good_of | (intro _) | apply keep_issue | apply keep_rscBody | apply good_ite | (refine good_snd (by assumption) ?_) | (refine good_fst (by assumption) ?_)) | (extract_lets +onlyGivenNames x; first | (suffices hx : Good pd x from ?_; (on_goal 1 => clear_value x); (on_goal 2 => simp only [x])) | skip) | split | simp only [id_eq] | simp only [good_mk])

theorem keep_execCcNwchk {pd : List Instr × Prop × Prop} {core : BitVec 8} {d : BitVec 5} {a : BitVec 5} {imm : BitVec 32} {s : State} (h_s : Good pd s) :
    OutGood pd (execCcNwchk core d a imm s) := by
  unfold execCcNwchk
  show Good pd _
  repeat' (first | with_reducible (first | assumption | apply good_of | (intro _) | apply keep_issue | apply keep_nwchkBody | apply good_ite | (refine good_snd (by assumption) ?_) | (refine good_fst (by assumption) ?_)) | (extract_lets +onlyGivenNames x; first | (suffices hx : Good pd x from ?_; (on_goal 1 => clear_value x); (on_goal 2 => simp only [x])) | skip) | split | simp only [id_eq] | simp only [good_mk])

theorem keep_execCcRand {pd : List Instr × Prop × Prop} {core : BitVec 8} {d : BitVec 5} {a : BitVec 5} {s : State} (h_s : Good pd s) :
    OutGood pd (execCcRand core d a s) := by
  unfold execCcRand
  show Good pd _
  repeat' (first | with_reducible (first | assumption | apply good_of | (intro _) | apply keep_issue | apply keep_randBody | apply good_ite | (refine good_snd (by assumption) ?_) | (refine good_fst (by assumption) ?_)) | (extract_lets +onlyGivenNames x; first | (suffices hx : Good pd x from ?_; (on_goal 1 => clear_value x); (on_goal 2 => simp only [x])) | skip) | split | simp only [id_eq] | simp only [good_mk])

theorem keep_execCcIllegal {pd : List Instr × Prop × Prop} {core : BitVec 8} {word : BitVec 64} {s : State} (h_s : Good pd s) :
    OutGood pd (execCcIllegal core word s) := by
  unfold execCcIllegal
  show Good pd _
  repeat' (first | with_reducible (first | assumption | apply good_of | (intro _) | apply keep_issue | apply good_ite | (refine good_snd (by assumption) ?_) | (refine good_fst (by assumption) ?_)) | (extract_lets +onlyGivenNames x; first | (suffices hx : Good pd x from ?_; (on_goal 1 => clear_value x); (on_goal 2 => simp only [x])) | skip) | split | simp only [id_eq] | simp only [good_mk])

theorem keep_writeCcLaunch {pd : List Instr × Prop × Prop} {s : State} {c : Nat} {v : Nat} (h_s : Good pd s) :
    Good pd (writeCcLaunch s c v) := by
  unfold writeCcLaunch
  repeat' (first | with_reducible (first | assumption | apply good_of | (intro _) | apply keep_modCore | apply keep_startCore | apply good_ite | (refine good_snd (by assumption) ?_) | (refine good_fst (by assumption) ?_)) | (extract_lets +onlyGivenNames x; first | (suffices hx : Good pd x from ?_; (on_goal 1 => clear_value x); (on_goal 2 => simp only [x])) | skip) | split | simp only [id_eq] | simp only [good_mk])

theorem keep_execCcLaunchStart {pd : List Instr × Prop × Prop} {a : Accessor} {core : BitVec 8} {value : BitVec 32} {s : State} (h_s : Good pd s) :
    OutGood pd (execCcLaunchStart a core value s) := by
  unfold execCcLaunchStart
  show Good pd _
  repeat' (first | with_reducible (first | assumption | apply good_of | (intro _) | apply keep_writeCcLaunch | apply good_ite | (refine good_snd (by assumption) ?_) | (refine good_fst (by assumption) ?_)) | (extract_lets +onlyGivenNames x; first | (suffices hx : Good pd x from ?_; (on_goal 1 => clear_value x); (on_goal 2 => simp only [x])) | skip) | split | simp only [id_eq] | simp only [good_mk])

theorem keep_execLaunchStart {pd : List Instr × Prop × Prop} {launch : BitVec 16} {s : State} (h_s : Good pd s) :
    OutGood pd (execLaunchStart launch s) := by
  unfold execLaunchStart
  show Good pd _
  repeat' (first | with_reducible (first | assumption | apply good_of | (intro _) | apply keep_modCore | apply keep_modLive | apply keep_beginLaunch | apply good_ite | (refine good_snd (by assumption) ?_) | (refine good_fst (by assumption) ?_)) | (extract_lets +onlyGivenNames x; first | (suffices hx : Good pd x from ?_; (on_goal 1 => clear_value x); (on_goal 2 => simp only [x])) | skip) | split | simp only [id_eq] | simp only [good_mk])

theorem keep_execCoreClearDone {pd : List Instr × Prop × Prop} {core : BitVec 8} {s : State} (h_s : Good pd s) :
    OutGood pd (execCoreClearDone core s) := by
  unfold execCoreClearDone
  show Good pd _
  repeat' (first | with_reducible (first | assumption | apply good_of | (intro _) | apply keep_modCore | apply good_ite | (refine good_snd (by assumption) ?_) | (refine good_fst (by assumption) ?_)) | (extract_lets +onlyGivenNames x; first | (suffices hx : Good pd x from ?_; (on_goal 1 => clear_value x); (on_goal 2 => simp only [x])) | skip) | split | simp only [id_eq] | simp only [good_mk])

theorem keep_execWaittRelease {pd : List Instr × Prop × Prop} {core : BitVec 8} {s : State} (h_s : Good pd s) :
    OutGood pd (execWaittRelease core s) := by
  unfold execWaittRelease
  show Good pd _
  repeat' (first | with_reducible (first | assumption | apply good_of | (intro _) | apply keep_modCore | apply keep_advance | apply keep_beatCycle | apply good_ite | (refine good_snd (by assumption) ?_) | (refine good_fst (by assumption) ?_)) | (extract_lets +onlyGivenNames x; first | (suffices hx : Good pd x from ?_; (on_goal 1 => clear_value x); (on_goal 2 => simp only [x])) | skip) | split | simp only [id_eq] | simp only [good_mk])

theorem keep_execFenceComplete {pd : List Instr × Prop × Prop} {core : BitVec 8} {s : State} (h_s : Good pd s) :
    OutGood pd (execFenceComplete core s) := by
  unfold execFenceComplete
  show Good pd _
  repeat' (first | with_reducible (first | assumption | apply good_of | (intro _) | apply keep_modCore | apply keep_fenceBody | apply keep_postBody | apply good_ite | (refine good_snd (by assumption) ?_) | (refine good_fst (by assumption) ?_)) | (extract_lets +onlyGivenNames x; first | (suffices hx : Good pd x from ?_; (on_goal 1 => clear_value x); (on_goal 2 => simp only [x])) | skip) | split | simp only [id_eq] | simp only [good_mk])

theorem keep_fillDraws {pd : List Instr × Prop × Prop} {s : State} {p : Nat} {x : Pos} (h_s : Good pd s) :
    Good pd (fillDraws s p x) := by
  unfold fillDraws
  repeat' (first | with_reducible (first | assumption | apply good_of | (intro _) | apply good_ite | (refine good_snd (by assumption) ?_) | (refine good_fst (by assumption) ?_)) | (extract_lets +onlyGivenNames x; first | (suffices hx : Good pd x from ?_; (on_goal 1 => clear_value x); (on_goal 2 => simp only [x])) | skip) | split | simp only [id_eq] | simp only [good_mk])

theorem keep_openBeat {pd : List Instr × Prop × Prop} {s : State} {p : Nat} {x : Pos} (h_s : Good pd s) :
    Good pd (openBeat s p x) := by
  unfold openBeat
  repeat' (first | with_reducible (first | assumption | apply good_of | (intro _) | apply good_ite | (refine good_snd (by assumption) ?_) | (refine good_fst (by assumption) ?_)) | (extract_lets +onlyGivenNames x; first | (suffices hx : Good pd x from ?_; (on_goal 1 => clear_value x); (on_goal 2 => simp only [x])) | skip) | split | simp only [id_eq] | simp only [good_mk])

theorem keep_shiftRound {pd : List Instr × Prop × Prop} {s : State} {x : Pos} (h_s : Good pd s) :
    Good pd (shiftRound s x) := by
  unfold shiftRound
  repeat' (first | with_reducible (first | assumption | apply good_of | (intro _) | apply good_ite | (refine good_snd (by assumption) ?_) | (refine good_fst (by assumption) ?_)) | (extract_lets +onlyGivenNames x; first | (suffices hx : Good pd x from ?_; (on_goal 1 => clear_value x); (on_goal 2 => simp only [x])) | skip) | split | simp only [id_eq] | simp only [good_mk])

theorem keep_execBeatStart {pd : List Instr × Prop × Prop} {pos : BitVec 16} {s : State} (h_s : Good pd s) :
    OutGood pd (execBeatStart pos s) := by
  unfold execBeatStart
  show Good pd _
  repeat' (first | with_reducible (first | assumption | apply good_of | (intro _) | apply keep_biasTick | apply keep_fillDraws | apply keep_openBeat | apply keep_shiftRound | apply good_ite | (refine good_snd (by assumption) ?_) | (refine good_fst (by assumption) ?_)) | (extract_lets +onlyGivenNames x; first | (suffices hx : Good pd x from ?_; (on_goal 1 => clear_value x); (on_goal 2 => simp only [x])) | skip) | split | simp only [id_eq] | simp only [good_mk])

theorem keep_rangeTo {pd : List Instr × Prop × Prop} {s : State} {g : Nat} {o : OpDesc} {c : Nat} {cause : Nat} (h_s : Good pd s) :
    Good pd (rangeTo s g o c cause) := by
  unfold rangeTo
  repeat' (first | with_reducible (first | assumption | apply good_of | (intro _) | apply keep_raiseEvent | apply good_ite | (refine good_snd (by assumption) ?_) | (refine good_fst (by assumption) ?_)) | (extract_lets +onlyGivenNames x; first | (suffices hx : Good pd x from ?_; (on_goal 1 => clear_value x); (on_goal 2 => simp only [x])) | skip) | split | simp only [id_eq] | simp only [good_mk])

theorem keep_modRange {pd : List Instr × Prop × Prop} {s : State} {g : Nat} {o : OpDesc} {f : OpState → OpState} (h_s : Good pd s) :
    Good pd (modRange s g o f) := by
  unfold modRange
  repeat' (first | with_reducible (first | assumption | apply good_of | (intro _) | apply good_ite | (refine good_snd (by assumption) ?_) | (refine good_fst (by assumption) ?_)) | (extract_lets +onlyGivenNames x; first | (suffices hx : Good pd x from ?_; (on_goal 1 => clear_value x); (on_goal 2 => simp only [x])) | skip) | split | simp only [id_eq] | simp only [good_mk])

theorem keep_rangeBoundary {pd : List Instr × Prop × Prop} {g : Nat} {s : State} {o : OpDesc} (h_s : Good pd s) :
    Good pd (rangeBoundary g s o) := by
  unfold rangeBoundary
  repeat' (first | with_reducible (first | assumption | apply good_of | (intro _) | apply keep_rangeTo | apply keep_modRange | apply good_ite | (refine good_snd (by assumption) ?_) | (refine good_fst (by assumption) ?_)) | (extract_lets +onlyGivenNames x; first | (suffices hx : Good pd x from ?_; (on_goal 1 => clear_value x); (on_goal 2 => simp only [x])) | skip) | split | simp only [id_eq] | simp only [good_mk])

theorem keep_estHold {pd : List Instr × Prop × Prop} {s : State} {i : Nat} {kind : Nat} {n : Nat} {v : Word32} (h_s : Good pd s) :
    Good pd (estHold s i kind n v) := by
  unfold estHold
  repeat' (first | with_reducible (first | assumption | apply good_of | (intro _) | apply keep_raiseEvent | apply keep_startTileCal | apply good_ite | (refine good_snd (by assumption) ?_) | (refine good_fst (by assumption) ?_)) | (extract_lets +onlyGivenNames x; first | (suffices hx : Good pd x from ?_; (on_goal 1 => clear_value x); (on_goal 2 => simp only [x])) | skip) | split | simp only [id_eq] | simp only [good_mk])

theorem keep_updateGain {pd : List Instr × Prop × Prop} {s : State} {i : Nat} {hold : Bool} (h_s : Good pd s) :
    Good pd (updateGain s i hold) := by
  unfold updateGain
  repeat' (first | with_reducible (first | assumption | apply good_of | (intro _) | apply keep_modTile | apply keep_estHold | apply good_ite | (refine good_snd (by assumption) ?_) | (refine good_fst (by assumption) ?_)) | (extract_lets +onlyGivenNames x; first | (suffices hx : Good pd x from ?_; (on_goal 1 => clear_value x); (on_goal 2 => simp only [x])) | skip) | split | simp only [id_eq] | simp only [good_mk])

theorem keep_updateOffset {pd : List Instr × Prop × Prop} {s : State} {i : Nat} {hold : Bool} (h_s : Good pd s) :
    Good pd (updateOffset s i hold) := by
  unfold updateOffset
  repeat' (first | with_reducible (first | assumption | apply good_of | (intro _) | apply keep_modTile | apply keep_estHold | apply good_ite | (refine good_snd (by assumption) ?_) | (refine good_fst (by assumption) ?_)) | (extract_lets +onlyGivenNames x; first | (suffices hx : Good pd x from ?_; (on_goal 1 => clear_value x); (on_goal 2 => simp only [x])) | skip) | split | simp only [id_eq] | simp only [good_mk])

theorem keep_clearAccumulators {pd : List Instr × Prop × Prop} {s : State} {i : Nat} (h_s : Good pd s) :
    Good pd (clearAccumulators s i) := by
  unfold clearAccumulators
  repeat' (first | with_reducible (first | assumption | apply good_of | (intro _) | apply keep_modTile | apply good_ite | (refine good_snd (by assumption) ?_) | (refine good_fst (by assumption) ?_)) | (extract_lets +onlyGivenNames x; first | (suffices hx : Good pd x from ?_; (on_goal 1 => clear_value x); (on_goal 2 => simp only [x])) | skip) | split | simp only [id_eq] | simp only [good_mk])

theorem keep_updateEstimate {pd : List Instr × Prop × Prop} {s : State} {i : Nat} (h_s : Good pd s) :
    Good pd (updateEstimate s i) := by
  unfold updateEstimate
  repeat' (first | with_reducible (first | assumption | apply good_of | (intro _) | apply keep_modTile | apply keep_applyBaselines | apply keep_updateGain | apply keep_updateOffset | apply keep_clearAccumulators | apply good_ite | (refine good_snd (by assumption) ?_) | (refine good_fst (by assumption) ?_)) | (extract_lets +onlyGivenNames x; first | (suffices hx : Good pd x from ?_; (on_goal 1 => clear_value x); (on_goal 2 => simp only [x])) | skip) | split | simp only [id_eq] | simp only [good_mk])

theorem keep_replayEvent {pd : List Instr × Prop × Prop} {s : State} {l : Live} {code : Nat} {rho : Nat} (h_s : Good pd s) :
    Good pd (replayEvent s l code rho) := by
  unfold replayEvent
  repeat' (first | with_reducible (first | assumption | apply good_of | (intro _) | apply keep_draw | apply keep_raiseEvent | apply good_ite | (refine good_snd (by assumption) ?_) | (refine good_fst (by assumption) ?_)) | (extract_lets +onlyGivenNames x; first | (suffices hx : Good pd x from ?_; (on_goal 1 => clear_value x); (on_goal 2 => simp only [x])) | skip) | split | simp only [id_eq] | simp only [good_mk])

theorem keep_decideReplay {pd : List Instr × Prop × Prop} {s : State} {l : Live} (h_s : Good pd s) :
    Good pd (decideReplay s l) := by
  unfold decideReplay
  repeat' (first | with_reducible (first | assumption | apply good_of | (intro _) | apply keep_replayEvent | apply good_ite | (refine good_snd (by assumption) ?_) | (refine good_fst (by assumption) ?_)) | (extract_lets +onlyGivenNames x; first | (suffices hx : Good pd x from ?_; (on_goal 1 => clear_value x); (on_goal 2 => simp only [x])) | skip) | split | simp only [id_eq] | simp only [good_mk])

theorem keep_overrunCore {pd : List Instr × Prop × Prop} {s : State} {c : Nat} (h_s : Good pd s) :
    Good pd (overrunCore s c) := by
  unfold overrunCore
  repeat' (first | with_reducible (first | assumption | apply good_of | (intro _) | apply keep_freezeCore | apply good_ite | (refine good_snd (by assumption) ?_) | (refine good_fst (by assumption) ?_)) | (extract_lets +onlyGivenNames x; first | (suffices hx : Good pd x from ?_; (on_goal 1 => clear_value x); (on_goal 2 => simp only [x])) | skip) | split | simp only [id_eq] | simp only [good_mk])

theorem keep_coreBoundary {pd : List Instr × Prop × Prop} {s : State} {c : Nat} (h_s : Good pd s) :
    Good pd (coreBoundary s c) := by
  unfold coreBoundary
  repeat' (first | with_reducible (first | assumption | apply good_of | (intro _) | apply keep_modCore | apply keep_raiseEvent | apply good_ite | (refine good_snd (by assumption) ?_) | (refine good_fst (by assumption) ?_)) | (extract_lets +onlyGivenNames x; first | (suffices hx : Good pd x from ?_; (on_goal 1 => clear_value x); (on_goal 2 => simp only [x])) | skip) | split | simp only [id_eq] | simp only [good_mk])

theorem keep_groupBoundary {pd : List Instr × Prop × Prop} {s : State} {g : Nat} (h_s : Good pd s) :
    Good pd (groupBoundary s g) := by
  unfold groupBoundary
  repeat' (first | with_reducible (first | assumption | apply good_of | (intro _) | apply keep_modTg | apply keep_forEach | apply keep_raiseEvent | apply keep_rangeBoundary | apply good_ite | (refine good_snd (by assumption) ?_) | (refine good_fst (by assumption) ?_)) | (extract_lets +onlyGivenNames x; first | (suffices hx : Good pd x from ?_; (on_goal 1 => clear_value x); (on_goal 2 => simp only [x])) | skip) | split | simp only [id_eq] | simp only [good_mk])

theorem keep_closeBeat {pd : List Instr × Prop × Prop} {s : State} {l : Live} (h_s : Good pd s) :
    Good pd (closeBeat s l) := by
  unfold closeBeat
  extract_lets s1 s2 s3 leaving s4 l1 s5 s6 faults
  have h1 : Good pd s1 := keep_forEach h_s (fun _ _ h => keep_overrunCore h)
  clear_value s1
  have h2 : Good pd s2 := keep_forEach h1 (fun _ _ h => keep_coreBoundary h)
  clear_value s2
  have h3 : Good pd s3 := keep_forEach h2 (fun _ _ h => keep_groupBoundary h)
  clear_value s3
  have h4 : Good pd s4 := keep_forEach h3 (fun _ _ h => good_ite (keep_clearAccumulators h) (keep_updateEstimate h))
  clear_value s4
  have h5 : Good pd s5 := keep_decideReplay h4
  clear_value s5
  have h6 : Good pd s6 := keep_boundaryJobs (good_mk.2 (good_of h5))
  clear_value s6
  exact good_mk.2 (good_of h6)

theorem keep_execBeatEnd {pd : List Instr × Prop × Prop} {s : State} (h_s : Good pd s) :
    OutGood pd (execBeatEnd s) := by
  unfold execBeatEnd
  show Good pd _
  repeat' (first | with_reducible (first | assumption | apply good_of | (intro _) | apply keep_closeBeat | apply good_ite | (refine good_snd (by assumption) ?_) | (refine good_fst (by assumption) ?_)) | (extract_lets +onlyGivenNames x; first | (suffices hx : Good pd x from ?_; (on_goal 1 => clear_value x); (on_goal 2 => simp only [x])) | skip) | split | simp only [id_eq] | simp only [good_mk])

theorem keep_writeFsr {pd : List Instr × Prop × Prop} {s : State} {g : Nat} {v : Nat} (h_s : Good pd s) :
    Good pd (writeFsr s g v) := by
  unfold writeFsr
  repeat' (first | with_reducible (first | assumption | apply good_of | (intro _) | apply keep_modTg | apply good_ite | (refine good_snd (by assumption) ?_) | (refine good_fst (by assumption) ?_)) | (extract_lets +onlyGivenNames x; first | (suffices hx : Good pd x from ?_; (on_goal 1 => clear_value x); (on_goal 2 => simp only [x])) | skip) | split | simp only [id_eq] | simp only [good_mk])

theorem keep_execTgFsrDefault {pd : List Instr × Prop × Prop} {a : Accessor} {group : BitVec 6} {value : BitVec 32} {s : State} (h_s : Good pd s) :
    OutGood pd (execTgFsrDefault a group value s) := by
  unfold execTgFsrDefault
  show Good pd _
  repeat' (first | with_reducible (first | assumption | apply good_of | (intro _) | apply keep_writeFsr | apply good_ite | (refine good_snd (by assumption) ?_) | (refine good_fst (by assumption) ?_)) | (extract_lets +onlyGivenNames x; first | (suffices hx : Good pd x from ?_; (on_goal 1 => clear_value x); (on_goal 2 => simp only [x])) | skip) | split | simp only [id_eq] | simp only [good_mk])

theorem keep_writeTol {pd : List Instr × Prop × Prop} {s : State} {g : Nat} {v : Nat} (h_s : Good pd s) :
    Good pd (writeTol s g v) := by
  unfold writeTol
  repeat' (first | with_reducible (first | assumption | apply good_of | (intro _) | apply keep_modTg | apply good_ite | (refine good_snd (by assumption) ?_) | (refine good_fst (by assumption) ?_)) | (extract_lets +onlyGivenNames x; first | (suffices hx : Good pd x from ?_; (on_goal 1 => clear_value x); (on_goal 2 => simp only [x])) | skip) | split | simp only [id_eq] | simp only [good_mk])

theorem keep_execTgCheckTol {pd : List Instr × Prop × Prop} {a : Accessor} {group : BitVec 6} {value : BitVec 32} {s : State} (h_s : Good pd s) :
    OutGood pd (execTgCheckTol a group value s) := by
  unfold execTgCheckTol
  show Good pd _
  repeat' (first | with_reducible (first | assumption | apply good_of | (intro _) | apply keep_writeTol | apply good_ite | (refine good_snd (by assumption) ?_) | (refine good_fst (by assumption) ?_)) | (extract_lets +onlyGivenNames x; first | (suffices hx : Good pd x from ?_; (on_goal 1 => clear_value x); (on_goal 2 => simp only [x])) | skip) | split | simp only [id_eq] | simp only [good_mk])

theorem keep_writeCalWindow {pd : List Instr × Prop × Prop} {s : State} {i : Nat} {w : Nat} {v : BitVec 32} (h_s : Good pd s) :
    Good pd (writeCalWindow s i w v) := by
  unfold writeCalWindow
  repeat' (first | with_reducible (first | assumption | apply good_of | (intro _) | apply keep_modTile | apply good_ite | (refine good_snd (by assumption) ?_) | (refine good_fst (by assumption) ?_)) | (extract_lets +onlyGivenNames x; first | (suffices hx : Good pd x from ?_; (on_goal 1 => clear_value x); (on_goal 2 => simp only [x])) | skip) | split | simp only [id_eq] | simp only [good_mk])

theorem keep_execCalWindowWrite {pd : List Instr × Prop × Prop} {a : Accessor} {tile : BitVec 17} {word : BitVec 4} {value : BitVec 32} {s : State} (h_s : Good pd s) :
    OutGood pd (execCalWindowWrite a tile word value s) := by
  unfold execCalWindowWrite
  show Good pd _
  repeat' (first | with_reducible (first | assumption | apply good_of | (intro _) | apply keep_writeCalWindow | apply good_ite | (refine good_snd (by assumption) ?_) | (refine good_fst (by assumption) ?_)) | (extract_lets +onlyGivenNames x; first | (suffices hx : Good pd x from ?_; (on_goal 1 => clear_value x); (on_goal 2 => simp only [x])) | skip) | split | simp only [id_eq] | simp only [good_mk])

theorem keep_modAdapter {pd : List Instr × Prop × Prop} {s : State} {tag : Nat} {f : AdapterState → AdapterState} (h_s : Good pd s) :
    Good pd (modAdapter s tag f) := by
  unfold modAdapter
  repeat' (first | with_reducible (first | assumption | apply good_of | (intro _) | apply good_ite | (refine good_snd (by assumption) ?_) | (refine good_fst (by assumption) ?_)) | (extract_lets +onlyGivenNames x; first | (suffices hx : Good pd x from ?_; (on_goal 1 => clear_value x); (on_goal 2 => simp only [x])) | skip) | split | simp only [id_eq] | simp only [good_mk])

theorem keep_repairRound {pd : List Instr × Prop × Prop} {s : State} {i : Nat} {o : OpDesc} {x : AdapterDesc} {xs : List (List Word32)} {es : List (List Word32)} {hs : List (List Word32)} {eh : List (List Word32)} (h_s : Good pd s) :
    Good pd (repairRound s i o x xs es hs eh) := by
  unfold repairRound
  repeat' (first | with_reducible (first | assumption | apply good_of | (intro _) | apply keep_raiseEvent | apply keep_modAdapter | apply good_ite | (refine good_snd (by assumption) ?_) | (refine good_fst (by assumption) ?_)) | (extract_lets +onlyGivenNames x; first | (suffices hx : Good pd x from ?_; (on_goal 1 => clear_value x); (on_goal 2 => simp only [x])) | skip) | split | simp only [id_eq] | simp only [good_mk])

theorem keep_reject {pd : List Instr × Prop × Prop} {s : State} {e : PErr} {model : Nat} (h_s : Good pd s) :
    Good pd (reject s e model) := by
  unfold reject
  repeat' (first | with_reducible (first | assumption | apply good_of | (intro _) | apply keep_raiseEvent | apply good_ite | (refine good_snd (by assumption) ?_) | (refine good_fst (by assumption) ?_)) | (extract_lets +onlyGivenNames x; first | (suffices hx : Good pd x from ?_; (on_goal 1 => clear_value x); (on_goal 2 => simp only [x])) | skip) | split | simp only [id_eq] | simp only [good_mk])

theorem keep_modelAt {pd : List Instr × Prop × Prop} {s : State} {addr : Nat} (h_s : Good pd s) :
    Good pd (modelAt s addr).2 := by
  unfold modelAt
  repeat' (first | with_reducible (first | assumption | apply good_of | (intro _) | apply keep_draw | apply keep_eccRead | apply good_ite | (refine good_snd (by assumption) ?_) | (refine good_fst (by assumption) ?_)) | (extract_lets +onlyGivenNames x; first | (suffices hx : Good pd x from ?_; (on_goal 1 => clear_value x); (on_goal 2 => simp only [x])) | skip) | split | simp only [id_eq] | simp only [good_mk])

theorem keep_execPlanAdmit {pd : List Instr × Prop × Prop} {i : Issuer} {addr : BitVec 64} {membersOk : Bool} {s : State} (h_s : Good pd s) :
    OutGood pd (execPlanAdmit i addr membersOk s) := by
  unfold execPlanAdmit
  show Good pd _
  repeat' (first | with_reducible (first | assumption | apply good_of | (intro _) | apply keep_broadcast | apply keep_complete | apply keep_eccRead | apply keep_command | apply keep_reject | apply keep_modelAt | apply keep_sendMessage | apply keep_raiseEvent | apply keep_sendOn | apply keep_modFetched | apply keep_stage | apply good_ite | (refine good_snd (by assumption) ?_) | (refine good_fst (by assumption) ?_)) | (extract_lets +onlyGivenNames x; first | (suffices hx : Good pd x from ?_; (on_goal 1 => clear_value x); (on_goal 2 => simp only [x])) | skip) | split | simp only [id_eq] | simp only [good_mk])

theorem keep_checkOver {pd : List Instr × Prop × Prop} {s : State} (h_s : Good pd s) :
    Good pd (checkOver s) := by
  unfold checkOver
  repeat' (first | with_reducible (first | assumption | apply good_of | (intro _) | apply good_ite | (refine good_snd (by assumption) ?_) | (refine good_fst (by assumption) ?_)) | (extract_lets +onlyGivenNames x; first | (suffices hx : Good pd x from ?_; (on_goal 1 => clear_value x); (on_goal 2 => simp only [x])) | skip) | split | simp only [id_eq] | simp only [good_mk])

theorem keep_completeAdmit {pd : List Instr × Prop × Prop} {s : State} {status : Nat} {result : List Byte} (h_s : Good pd s) :
    Good pd (completeAdmit s status result) := by
  unfold completeAdmit
  repeat' (first | with_reducible (first | assumption | apply good_of | (intro _) | apply keep_complete | apply good_ite | (refine good_snd (by assumption) ?_) | (refine good_fst (by assumption) ?_)) | (extract_lets +onlyGivenNames x; first | (suffices hx : Good pd x from ?_; (on_goal 1 => clear_value x); (on_goal 2 => simp only [x])) | skip) | split | simp only [id_eq] | simp only [good_mk])

theorem keep_execPlanCheckComplete {pd : List Instr × Prop × Prop} {others : List (BitVec 6 × BitVec 8 × BitVec 8 × BitVec 8 × BitVec 32)} {ecc : List (Nat × Bool)} {s : State} (h_s : Good pd s) :
    OutGood pd (execPlanCheckComplete others ecc s) := by
  unfold execPlanCheckComplete
  show Good pd _
  repeat' (first | with_reducible (first | assumption | apply good_of | (intro _) | apply keep_sendMessage | apply keep_eccRead | apply keep_reject | apply keep_checkOver | apply keep_completeAdmit | apply good_ite | (refine good_snd (by assumption) ?_) | (refine good_fst (by assumption) ?_)) | (extract_lets +onlyGivenNames x; first | (suffices hx : Good pd x from ?_; (on_goal 1 => clear_value x); (on_goal 2 => simp only [x])) | skip) | split | simp only [id_eq] | simp only [good_mk])

theorem keep_loadCores {pd : List Instr × Prop × Prop} {s : State} {d : DevRec} (h_s : Good pd s) :
    Good pd (loadCores s d) := by
  unfold loadCores
  repeat' (first | with_reducible (first | assumption | apply good_of | (intro _) | apply keep_modCore | apply keep_forEach | apply good_ite | (refine good_snd (by assumption) ?_) | (refine good_fst (by assumption) ?_)) | (extract_lets +onlyGivenNames x; first | (suffices hx : Good pd x from ?_; (on_goal 1 => clear_value x); (on_goal 2 => simp only [x])) | skip) | split | simp only [id_eq] | simp only [good_mk])

theorem keep_divideFrames {pd : List Instr × Prop × Prop} {s : State} {size : Nat} {same : Bool} (h_s : Good pd s) :
    Good pd (divideFrames s size same) := by
  unfold divideFrames
  repeat' (first | with_reducible (first | assumption | apply good_of | (intro _) | apply keep_modStream | apply keep_forEach | apply good_ite | (refine good_snd (by assumption) ?_) | (refine good_fst (by assumption) ?_)) | (extract_lets +onlyGivenNames x; first | (suffices hx : Good pd x from ?_; (on_goal 1 => clear_value x); (on_goal 2 => simp only [x])) | skip) | split | simp only [id_eq] | simp only [good_mk])

theorem keep_admitStreams {pd : List Instr × Prop × Prop} {s : State} {ps : PlanSet} {geom : List Nat} (h_s : Good pd s) :
    Good pd (admitStreams s ps geom) := by
  unfold admitStreams
  repeat' (first | with_reducible (first | assumption | apply good_of | (intro _) | apply keep_forEach | apply keep_raiseEvent | apply keep_wantClose | apply keep_finishClose | apply keep_divideFrames | apply good_ite | (refine good_snd (by assumption) ?_) | (refine good_fst (by assumption) ?_)) | (extract_lets +onlyGivenNames x; first | (suffices hx : Good pd x from ?_; (on_goal 1 => clear_value x); (on_goal 2 => simp only [x])) | skip) | split | simp only [id_eq] | simp only [good_mk])

theorem keep_setPageOwner {pd : List Instr × Prop × Prop} {s : State} {page : Nat} {o : Option Nat} (h_s : Good pd s) :
    Good pd (setPageOwner s page o) := by
  unfold setPageOwner
  repeat' (first | with_reducible (first | assumption | apply good_of | (intro _) | apply keep_modHdr | apply good_ite | (refine good_snd (by assumption) ?_) | (refine good_fst (by assumption) ?_)) | (extract_lets +onlyGivenNames x; first | (suffices hx : Good pd x from ?_; (on_goal 1 => clear_value x); (on_goal 2 => simp only [x])) | skip) | split | simp only [id_eq] | simp only [good_mk])

theorem keep_setPageOwners {pd : List Instr × Prop × Prop} {s : State} {ds : List DevRec} (h_s : Good pd s) :
    Good pd (setPageOwners s ds) := by
  unfold setPageOwners
  repeat' (first | with_reducible (first | assumption | apply good_of | (intro _) | apply keep_forEach | apply keep_setPageOwner | apply good_ite | (refine good_snd (by assumption) ?_) | (refine good_fst (by assumption) ?_)) | (extract_lets +onlyGivenNames x; first | (suffices hx : Good pd x from ?_; (on_goal 1 => clear_value x); (on_goal 2 => simp only [x])) | skip) | split | simp only [id_eq] | simp only [good_mk])

theorem keep_setTables {pd : List Instr × Prop × Prop} {s : State} {ds : List DevRec} (h_s : Good pd s) :
    Good pd (setTables s ds) := by
  unfold setTables
  repeat' (first | with_reducible (first | assumption | apply good_of | (intro _) | apply keep_modTg | apply keep_forEach | apply keep_markSeams | apply good_ite | (refine good_snd (by assumption) ?_) | (refine good_fst (by assumption) ?_)) | (extract_lets +onlyGivenNames x; first | (suffices hx : Good pd x from ?_; (on_goal 1 => clear_value x); (on_goal 2 => simp only [x])) | skip) | split | simp only [id_eq] | simp only [good_mk])

theorem keep_clearTables {pd : List Instr × Prop × Prop} {s : State} (h_s : Good pd s) :
    Good pd (clearTables s) := by
  unfold clearTables
  repeat' (first | with_reducible (first | assumption | apply good_of | (intro _) | apply keep_modTg | apply keep_forEach | apply good_ite | (refine good_snd (by assumption) ?_) | (refine good_fst (by assumption) ?_)) | (extract_lets +onlyGivenNames x; first | (suffices hx : Good pd x from ?_; (on_goal 1 => clear_value x); (on_goal 2 => simp only [x])) | skip) | split | simp only [id_eq] | simp only [good_mk])

theorem keep_releaseRetention {pd : List Instr × Prop × Prop} {s : State} (h_s : Good pd s) :
    Good pd (releaseRetention s) := by
  unfold releaseRetention
  repeat' (first | with_reducible (first | assumption | apply good_of | (intro _) | apply keep_forEach | apply keep_raiseEvent | apply keep_setExtents | apply good_ite | (refine good_snd (by assumption) ?_) | (refine good_fst (by assumption) ?_)) | (extract_lets +onlyGivenNames x; first | (suffices hx : Good pd x from ?_; (on_goal 1 => clear_value x); (on_goal 2 => simp only [x])) | skip) | split | simp only [id_eq] | simp only [good_mk])

theorem keep_defineStanding {pd : List Instr × Prop × Prop} {s : State} {x : Standing} (h_s : Good pd s) :
    Good pd (defineStanding s x) := by
  unfold defineStanding
  repeat' (first | with_reducible (first | assumption | apply good_of | (intro _) | apply keep_modCore | apply good_ite | (refine good_snd (by assumption) ?_) | (refine good_fst (by assumption) ?_)) | (extract_lets +onlyGivenNames x; first | (suffices hx : Good pd x from ?_; (on_goal 1 => clear_value x); (on_goal 2 => simp only [x])) | skip) | split | simp only [id_eq] | simp only [good_mk])

theorem keep_defineStandings {pd : List Instr × Prop × Prop} {s : State} (h_s : Good pd s) :
    Good pd (defineStandings s) := by
  unfold defineStandings
  repeat' (first | with_reducible (first | assumption | apply good_of | (intro _) | apply keep_forEach | apply keep_defineStanding | apply good_ite | (refine good_snd (by assumption) ?_) | (refine good_fst (by assumption) ?_)) | (extract_lets +onlyGivenNames x; first | (suffices hx : Good pd x from ?_; (on_goal 1 => clear_value x); (on_goal 2 => simp only [x])) | skip) | split | simp only [id_eq] | simp only [good_mk])

theorem keep_admitSet {pd : List Instr × Prop × Prop} {s : State} {ps : PlanSet} {ret : List (Nat × Nat)} (h_s : Good pd s) :
    Good pd (admitSet s ps ret) := by
  unfold admitSet
  repeat' (first | with_reducible (first | assumption | apply good_of | (intro _) | apply keep_forEach | apply keep_applyTrims | apply keep_setExtents | apply keep_stepsTwoToFour | apply keep_clearCore | apply keep_pauseJobs | apply keep_loadCores | apply keep_admitStreams | apply keep_setPageOwners | apply keep_setTables | apply keep_defineStandings | apply good_ite | (refine good_snd (by assumption) ?_) | (refine good_fst (by assumption) ?_)) | (extract_lets +onlyGivenNames x; first | (suffices hx : Good pd x from ?_; (on_goal 1 => clear_value x); (on_goal 2 => simp only [x])) | skip) | split | simp only [id_eq] | simp only [good_mk])

theorem keep_sendRoundStart {pd : List Instr × Prop × Prop} {s : State} (h_s : Good pd s) :
    Good pd (sendRoundStart s) := by
  unfold sendRoundStart
  repeat' (first | with_reducible (first | assumption | apply good_of | (intro _) | apply keep_sendControl | apply good_ite | (refine good_snd (by assumption) ?_) | (refine good_fst (by assumption) ?_)) | (extract_lets +onlyGivenNames x; first | (suffices hx : Good pd x from ?_; (on_goal 1 => clear_value x); (on_goal 2 => simp only [x])) | skip) | split | simp only [id_eq] | simp only [good_mk])

theorem keep_setStretch {pd : List Instr × Prop × Prop} {s : State} (h_s : Good pd s) :
    Good pd (setStretch s) := by
  unfold setStretch
  repeat' (first | with_reducible (first | assumption | apply good_of | (intro _) | apply keep_raiseEvent | apply good_ite | (refine good_snd (by assumption) ?_) | (refine good_fst (by assumption) ?_)) | (extract_lets +onlyGivenNames x; first | (suffices hx : Good pd x from ?_; (on_goal 1 => clear_value x); (on_goal 2 => simp only [x])) | skip) | split | simp only [id_eq] | simp only [good_mk])

theorem keep_execPlanAdmitted {pd : List Instr × Prop × Prop} {retention : List (BitVec 32 × BitVec 32)} {s : State} (h_s : Good pd s) :
    OutGood pd (execPlanAdmitted retention s) := by
  unfold execPlanAdmitted
  show Good pd _
  split
  · exact h_s
  · rename_i ps _
    extract_lets ret cmd s1 s2 s3
    split
    · exact h_s
    · have h2 : Good pd s2 := keep_raiseEvent (keep_admitSet h_s)
      have h3 : Good pd s3 := by
        simp only [s3]
        clear_value s2 cmd
        split
        · exact keep_complete h2
        · exact h2
      split
      · exact keep_sendRoundStart (keep_setStretch h3)
      · exact h3

theorem keep_discardSteps {pd : List Instr × Prop × Prop} {s : State} (h_s : Good pd s) :
    Good pd (discardSteps s) := by
  unfold discardSteps
  repeat' (first | with_reducible (first | assumption | apply good_of | (intro _) | apply keep_modStream | apply keep_forEach | apply good_ite | (refine good_snd (by assumption) ?_) | (refine good_fst (by assumption) ?_)) | (extract_lets +onlyGivenNames x; first | (suffices hx : Good pd x from ?_; (on_goal 1 => clear_value x); (on_goal 2 => simp only [x])) | skip) | split | simp only [id_eq] | simp only [good_mk])

theorem keep_retireSet {pd : List Instr × Prop × Prop} {s : State} (h_s : Good pd s) :
    Good pd (retireSet s) := by
  unfold retireSet
  repeat' (first | with_reducible (first | assumption | apply good_of | (intro _) | apply keep_forEach | apply keep_clearCore | apply keep_setPageOwner | apply keep_clearTables | apply keep_releaseRetention | apply keep_discardSteps | apply good_ite | (refine good_snd (by assumption) ?_) | (refine good_fst (by assumption) ?_)) | (extract_lets +onlyGivenNames x; first | (suffices hx : Good pd x from ?_; (on_goal 1 => clear_value x); (on_goal 2 => simp only [x])) | skip) | split | simp only [id_eq] | simp only [good_mk])

theorem keep_execPlanRetire {pd : List Instr × Prop × Prop} {i : Issuer} {s : State} (h_s : Good pd s) :
    OutGood pd (execPlanRetire i s) := by
  unfold execPlanRetire
  show Good pd _
  repeat' (first | with_reducible (first | assumption | apply good_of | (intro _) | apply keep_complete | apply keep_command | apply keep_sendMessage | apply keep_raiseEvent | apply keep_sendOn | apply keep_modFetched | apply keep_stage | apply good_ite | (refine good_snd (by assumption) ?_) | (refine good_fst (by assumption) ?_)) | (extract_lets +onlyGivenNames x; first | (suffices hx : Good pd x from ?_; (on_goal 1 => clear_value x); (on_goal 2 => simp only [x])) | skip) | split | simp only [id_eq] | simp only [good_mk])

theorem keep_execRingResume {pd : List Instr × Prop × Prop} {i : Issuer} {s : State} (h_s : Good pd s) :
    OutGood pd (execRingResume i s) := by
  unfold execRingResume
  show Good pd _
  repeat' (first | with_reducible (first | assumption | apply good_of | (intro _) | apply keep_complete | apply keep_command | apply keep_sendMessage | apply keep_raiseEvent | apply keep_sendOn | apply keep_modFetched | apply keep_stage | apply good_ite | (refine good_snd (by assumption) ?_) | (refine good_fst (by assumption) ?_)) | (extract_lets +onlyGivenNames x; first | (suffices hx : Good pd x from ?_; (on_goal 1 => clear_value x); (on_goal 2 => simp only [x])) | skip) | split | simp only [id_eq] | simp only [good_mk])

theorem keep_execIdleBoundaryPass {pd : List Instr × Prop × Prop} {s : State} (h_s : Good pd s) :
    OutGood pd (execIdleBoundaryPass s) := by
  unfold execIdleBoundaryPass
  show Good pd _
  repeat' (first | with_reducible (first | assumption | apply good_of | (intro _) | apply keep_expireDue | apply keep_actCommands | apply keep_stepsTwoToFour | apply good_ite | (refine good_snd (by assumption) ?_) | (refine good_fst (by assumption) ?_)) | (extract_lets +onlyGivenNames x; first | (suffices hx : Good pd x from ?_; (on_goal 1 => clear_value x); (on_goal 2 => simp only [x])) | skip) | split | simp only [id_eq] | simp only [good_mk])

theorem keep_setK {pd : List Instr × Prop × Prop} {s : State} {sid : Nat} {k : Nat} {cause : Nat} (h_s : Good pd s) :
    Good pd (setK s sid k cause) := by
  unfold setK
  repeat' (first | with_reducible (first | assumption | apply good_of | (intro _) | apply keep_modStream | apply keep_raiseEvent | apply good_ite | (refine good_snd (by assumption) ?_) | (refine good_fst (by assumption) ?_)) | (extract_lets +onlyGivenNames x; first | (suffices hx : Good pd x from ?_; (on_goal 1 => clear_value x); (on_goal 2 => simp only [x])) | skip) | split | simp only [id_eq] | simp only [good_mk])

theorem keep_pageShort {pd : List Instr × Prop × Prop} {lack : Lacking} {s : State} {sid : Nat} (h_s : Good pd s) :
    Good pd (pageShort lack s sid) := by
  unfold pageShort
  repeat' (first | with_reducible (first | assumption | apply good_of | (intro _) | apply keep_modStream | apply keep_raiseEvent | apply good_ite | (refine good_snd (by assumption) ?_) | (refine good_fst (by assumption) ?_)) | (extract_lets +onlyGivenNames x; first | (suffices hx : Good pd x from ?_; (on_goal 1 => clear_value x); (on_goal 2 => simp only [x])) | skip) | split | simp only [id_eq] | simp only [good_mk])

theorem keep_markWaiting {pd : List Instr × Prop × Prop} {lack : Lacking} {s : State} {sid : Nat} (h_s : Good pd s) :
    Good pd (markWaiting lack s sid) := by
  unfold markWaiting
  repeat' (first | with_reducible (first | assumption | apply good_of | (intro _) | apply keep_modStream | apply good_ite | (refine good_snd (by assumption) ?_) | (refine good_fst (by assumption) ?_)) | (extract_lets +onlyGivenNames x; first | (suffices hx : Good pd x from ?_; (on_goal 1 => clear_value x); (on_goal 2 => simp only [x])) | skip) | split | simp only [id_eq] | simp only [good_mk])

theorem keep_holdSpec {pd : List Instr × Prop × Prop} {lack : Lacking} {s : State} {sid : Nat} (h_s : Good pd s) :
    Good pd (holdSpec lack s sid) := by
  unfold holdSpec
  repeat' (first | with_reducible (first | assumption | apply good_of | (intro _) | apply keep_modStream | apply good_ite | (refine good_snd (by assumption) ?_) | (refine good_fst (by assumption) ?_)) | (extract_lets +onlyGivenNames x; first | (suffices hx : Good pd x from ?_; (on_goal 1 => clear_value x); (on_goal 2 => simp only [x])) | skip) | split | simp only [id_eq] | simp only [good_mk])

theorem keep_scheduleCopies {pd : List Instr × Prop × Prop} {s : State} {c : Nat × List Nat} (h_s : Good pd s) :
    Good pd (scheduleCopies s c) := by
  unfold scheduleCopies
  split
  · exact h_s
  · refine keep_forEach h_s (fun u q h => ?_)
    split
    · rename_i e
      exact keep_modStream (keep_allocFrame h _ e)
    · exact h

theorem keep_assignRun {pd : List Instr × Prop × Prop} {s : State} {k : Pick} (h_s : Good pd s) :
    Good pd (assignRun s k) := by
  unfold assignRun
  repeat' (first | with_reducible (first | assumption | apply good_of | (intro _) | apply keep_modStream | apply keep_sendMessage | apply keep_broadcast | apply keep_allocPages | apply keep_setK | apply good_ite | (refine good_snd (by assumption) ?_) | (refine good_fst (by assumption) ?_)) | (extract_lets +onlyGivenNames x; first | (suffices hx : Good pd x from ?_; (on_goal 1 => clear_value x); (on_goal 2 => simp only [x])) | skip) | split | simp only [id_eq] | simp only [good_mk])

theorem keep_keepCredits {pd : List Instr × Prop × Prop} {s : State} {c : Tbl Nat} (h_s : Good pd s) :
    Good pd (keepCredits s c) := by
  unfold keepCredits
  repeat' (first | with_reducible (first | assumption | apply good_of | (intro _) | apply keep_modOwner | apply keep_forEach | apply good_ite | (refine good_snd (by assumption) ?_) | (refine good_fst (by assumption) ?_)) | (extract_lets +onlyGivenNames x; first | (suffices hx : Good pd x from ?_; (on_goal 1 => clear_value x); (on_goal 2 => simp only [x])) | skip) | split | simp only [id_eq] | simp only [good_mk])

theorem keep_assignRound {pd : List Instr × Prop × Prop} {s : State} {lack : Lacking} (h_s : Good pd s) :
    Good pd (assignRound s lack).1 := by
  unfold assignRound
  repeat' (first | with_reducible (first | assumption | apply good_of | (intro _) | apply keep_forEach | apply keep_pageShort | apply keep_holdSpec | apply keep_scheduleCopies | apply keep_assignRun | apply keep_keepCredits | apply good_ite | (refine good_snd (by assumption) ?_) | (refine good_fst (by assumption) ?_)) | (extract_lets +onlyGivenNames x; first | (suffices hx : Good pd x from ?_; (on_goal 1 => clear_value x); (on_goal 2 => simp only [x])) | skip) | split | simp only [id_eq] | simp only [good_mk])

theorem keep_deliverTokens {pd : List Instr × Prop × Prop} {s : State} {t : Stream} {sid : Nat} {p : Nat} {reason : Nat} {toks : List (BitVec 32)} (h_s : Good pd s) :
    Good pd (deliverTokens s t sid p reason toks) := by
  unfold deliverTokens
  repeat' (first | with_reducible (first | assumption | apply good_of | (intro _) | apply keep_forEach | apply keep_deliver | apply good_ite | (refine good_snd (by assumption) ?_) | (refine good_fst (by assumption) ?_)) | (extract_lets +onlyGivenNames x; first | (suffices hx : Good pd x from ?_; (on_goal 1 => clear_value x); (on_goal 2 => simp only [x])) | skip) | split | simp only [id_eq] | simp only [good_mk])

theorem keep_tallyEvent {pd : List Instr × Prop × Prop} {s : State} {o : Nat} {kind : Nat} {t : Tally} (h_s : Good pd s) :
    Good pd (tallyEvent s o kind t) := by
  unfold tallyEvent
  repeat' (first | with_reducible (first | assumption | apply good_of | (intro _) | apply keep_raiseEvent | apply good_ite | (refine good_snd (by assumption) ?_) | (refine good_fst (by assumption) ?_)) | (extract_lets +onlyGivenNames x; first | (suffices hx : Good pd x from ?_; (on_goal 1 => clear_value x); (on_goal 2 => simp only [x])) | skip) | split | simp only [id_eq] | simp only [good_mk])

theorem keep_chargeGen {pd : List Instr × Prop × Prop} {s : State} {o : Nat} {n : Nat} (h_s : Good pd s) :
    Good pd (chargeGen s o n) := by
  unfold chargeGen
  repeat' (first | with_reducible (first | assumption | apply good_of | (intro _) | apply keep_setOwner | apply keep_tallyEvent | apply good_ite | (refine good_snd (by assumption) ?_) | (refine good_fst (by assumption) ?_)) | (extract_lets +onlyGivenNames x; first | (suffices hx : Good pd x from ?_; (on_goal 1 => clear_value x); (on_goal 2 => simp only [x])) | skip) | split | simp only [id_eq] | simp only [good_mk])

theorem keep_chargePrompt {pd : List Instr × Prop × Prop} {s : State} {o : Nat} {n : Nat} (h_s : Good pd s) :
    Good pd (chargePrompt s o n) := by
  unfold chargePrompt
  repeat' (first | with_reducible (first | assumption | apply good_of | (intro _) | apply keep_setOwner | apply keep_tallyEvent | apply good_ite | (refine good_snd (by assumption) ?_) | (refine good_fst (by assumption) ?_)) | (extract_lets +onlyGivenNames x; first | (suffices hx : Good pd x from ?_; (on_goal 1 => clear_value x); (on_goal 2 => simp only [x])) | skip) | split | simp only [id_eq] | simp only [good_mk])

theorem keep_refill {pd : List Instr × Prop × Prop} {s : State} (h_s : Good pd s) :
    Good pd (refill s) := by
  unfold refill
  repeat' (first | with_reducible (first | assumption | apply good_of | (intro _) | apply keep_modOwner | apply keep_forEach | apply good_ite | (refine good_snd (by assumption) ?_) | (refine good_fst (by assumption) ?_)) | (extract_lets +onlyGivenNames x; first | (suffices hx : Good pd x from ?_; (on_goal 1 => clear_value x); (on_goal 2 => simp only [x])) | skip) | split | simp only [id_eq] | simp only [good_mk])

theorem keep_trackPass {pd : List Instr × Prop × Prop} {s : State} {x : InFlight} {emitted : Nat} (h_s : Good pd s) :
    Good pd (trackPass s x emitted) := by
  unfold trackPass
  repeat' (first | with_reducible (first | assumption | apply good_of | (intro _) | apply keep_modStream | apply keep_setK | apply good_ite | (refine good_snd (by assumption) ?_) | (refine good_fst (by assumption) ?_)) | (extract_lets +onlyGivenNames x; first | (suffices hx : Good pd x from ?_; (on_goal 1 => clear_value x); (on_goal 2 => simp only [x])) | skip) | split | simp only [id_eq] | simp only [good_mk])

theorem keep_indexPage {pd : List Instr × Prop × Prop} {s : State} {o : Nat} {key : BitVec 128} {frame : Nat} {channel : Nat} (h_s : Good pd s) :
    Good pd (indexPage s o key frame channel) := by
  unfold indexPage
  repeat' (first | with_reducible (first | assumption | apply good_of | (intro _) | apply good_ite | (refine good_snd (by assumption) ?_) | (refine good_fst (by assumption) ?_)) | (extract_lets +onlyGivenNames x; first | (suffices hx : Good pd x from ?_; (on_goal 1 => clear_value x); (on_goal 2 => simp only [x])) | skip) | split | simp only [id_eq] | simp only [good_mk])

theorem keep_publishPage {pd : List Instr × Prop × Prop} {sid : Nat} {s : State} {page : Nat} (h_s : Good pd s) :
    Good pd (publishPage sid s page) := by
  unfold publishPage
  repeat' (first | with_reducible (first | assumption | apply good_of | (intro _) | apply keep_modStream | apply keep_broadcast | apply keep_indexPage | apply good_ite | (refine good_snd (by assumption) ?_) | (refine good_fst (by assumption) ?_)) | (extract_lets +onlyGivenNames x; first | (suffices hx : Good pd x from ?_; (on_goal 1 => clear_value x); (on_goal 2 => simp only [x])) | skip) | split | simp only [id_eq] | simp only [good_mk])

theorem keep_publish {pd : List Instr × Prop × Prop} {s : State} {sid : Nat} (h_s : Good pd s) :
    Good pd (publish s sid) := by
  unfold publish
  repeat' (first | with_reducible (first | assumption | apply good_of | (intro _) | apply keep_forEach | apply keep_publishPage | apply good_ite | (refine good_snd (by assumption) ?_) | (refine good_fst (by assumption) ?_)) | (extract_lets +onlyGivenNames x; first | (suffices hx : Good pd x from ?_; (on_goal 1 => clear_value x); (on_goal 2 => simp only [x])) | skip) | split | simp only [id_eq] | simp only [good_mk])

theorem keep_acceptTokens {pd : List Instr × Prop × Prop} {s : State} {x : InFlight} {p : Nat} {length : Nat → Nat} (h_s : Good pd s) :
    Good pd (acceptTokens s x p length) := by
  unfold acceptTokens
  repeat' (first | with_reducible (first | assumption | apply good_of | (intro _) | apply keep_modStream | apply keep_deliverTokens | apply keep_chargeGen | apply good_ite | (refine good_snd (by assumption) ?_) | (refine good_fst (by assumption) ?_)) | (extract_lets +onlyGivenNames x; first | (suffices hx : Good pd x from ?_; (on_goal 1 => clear_value x); (on_goal 2 => simp only [x])) | skip) | split | simp only [id_eq] | simp only [good_mk])

theorem keep_acceptPrefill {pd : List Instr × Prop × Prop} {s : State} {x : InFlight} {t : Stream} (h_s : Good pd s) :
    Good pd (acceptPrefill s x t) := by
  unfold acceptPrefill
  repeat' (first | with_reducible (first | assumption | apply good_of | (intro _) | apply keep_modStream | apply keep_freePool | apply keep_chargePrompt | apply keep_acceptTokens | apply good_ite | (refine good_snd (by assumption) ?_) | (refine good_fst (by assumption) ?_)) | (extract_lets +onlyGivenNames x; first | (suffices hx : Good pd x from ?_; (on_goal 1 => clear_value x); (on_goal 2 => simp only [x])) | skip) | split | simp only [id_eq] | simp only [good_mk])

theorem keep_acceptStep {pd : List Instr × Prop × Prop} {s : State} {x : InFlight} (h_s : Good pd s) :
    Good pd (acceptStep s x) := by
  unfold acceptStep
  repeat' (first | with_reducible (first | assumption | apply good_of | (intro _) | apply keep_modStream | apply keep_trackPass | apply keep_publish | apply keep_acceptTokens | apply keep_acceptPrefill | apply good_ite | (refine good_snd (by assumption) ?_) | (refine good_fst (by assumption) ?_)) | (extract_lets +onlyGivenNames x; first | (suffices hx : Good pd x from ?_; (on_goal 1 => clear_value x); (on_goal 2 => simp only [x])) | skip) | split | simp only [id_eq] | simp only [good_mk])

theorem keep_acceptLocal {pd : List Instr × Prop × Prop} {s : State} (h_s : Good pd s) :
    Good pd (acceptLocal s) := by
  unfold acceptLocal
  repeat' (first | with_reducible (first | assumption | apply good_of | (intro _) | apply good_ite | (refine good_snd (by assumption) ?_) | (refine good_fst (by assumption) ?_)) | (extract_lets +onlyGivenNames x; first | (suffices hx : Good pd x from ?_; (on_goal 1 => clear_value x); (on_goal 2 => simp only [x])) | skip) | split | simp only [id_eq] | simp only [good_mk])

theorem keep_acceptRound {pd : List Instr × Prop × Prop} {s : State} (h_s : Good pd s) :
    Good pd (acceptRound s) := by
  unfold acceptRound
  repeat' (first | with_reducible (first | assumption | apply good_of | (intro _) | apply keep_forEach | apply keep_acceptStep | apply keep_acceptLocal | apply good_ite | (refine good_snd (by assumption) ?_) | (refine good_fst (by assumption) ?_)) | (extract_lets +onlyGivenNames x; first | (suffices hx : Good pd x from ?_; (on_goal 1 => clear_value x); (on_goal 2 => simp only [x])) | skip) | split | simp only [id_eq] | simp only [good_mk])

theorem keep_clipK {pd : List Instr × Prop × Prop} {s : State} {sid : Nat} {cause : Nat} (h_s : Good pd s) :
    Good pd (clipK s sid cause) := by
  unfold clipK
  repeat' (first | with_reducible (first | assumption | apply good_of | (intro _) | apply keep_setK | apply good_ite | (refine good_snd (by assumption) ?_) | (refine good_fst (by assumption) ?_)) | (extract_lets +onlyGivenNames x; first | (suffices hx : Good pd x from ?_; (on_goal 1 => clear_value x); (on_goal 2 => simp only [x])) | skip) | split | simp only [id_eq] | simp only [good_mk])

theorem keep_applySettings {pd : List Instr × Prop × Prop} {s : State} {sid : Nat} (h_s : Good pd s) :
    Good pd (applySettings s sid) := by
  unfold applySettings
  repeat' (first | with_reducible (first | assumption | apply good_of | (intro _) | apply keep_modStream | apply keep_clipK | apply good_ite | (refine good_snd (by assumption) ?_) | (refine good_fst (by assumption) ?_)) | (extract_lets +onlyGivenNames x; first | (suffices hx : Good pd x from ?_; (on_goal 1 => clear_value x); (on_goal 2 => simp only [x])) | skip) | split | simp only [id_eq] | simp only [good_mk])

theorem keep_applyRepair {pd : List Instr × Prop × Prop} {s : State} (h_s : Good pd s) :
    Good pd (applyRepair s) := by
  unfold applyRepair
  repeat' (first | with_reducible (first | assumption | apply good_of | (intro _) | apply good_ite | (refine good_snd (by assumption) ?_) | (refine good_fst (by assumption) ?_)) | (extract_lets +onlyGivenNames x; first | (suffices hx : Good pd x from ?_; (on_goal 1 => clear_value x); (on_goal 2 => simp only [x])) | skip) | split | simp only [id_eq] | simp only [good_mk])

theorem keep_assayRefuse {pd : List Instr × Prop × Prop} {s : State} {code : Nat} (h_s : Good pd s) :
    Good pd (assayRefuse s code) := by
  unfold assayRefuse
  repeat' (first | with_reducible (first | assumption | apply good_of | (intro _) | apply good_ite | (refine good_snd (by assumption) ?_) | (refine good_fst (by assumption) ?_)) | (extract_lets +onlyGivenNames x; first | (suffices hx : Good pd x from ?_; (on_goal 1 => clear_value x); (on_goal 2 => simp only [x])) | skip) | split | simp only [id_eq] | simp only [good_mk])

theorem keep_assayStart {pd : List Instr × Prop × Prop} {s : State} {a : Assay} (h_s : Good pd s) :
    Good pd (assayStart s a) := by
  unfold assayStart
  repeat' (first | with_reducible (first | assumption | apply good_of | (intro _) | apply good_ite | (refine good_snd (by assumption) ?_) | (refine good_fst (by assumption) ?_)) | (extract_lets +onlyGivenNames x; first | (suffices hx : Good pd x from ?_; (on_goal 1 => clear_value x); (on_goal 2 => simp only [x])) | skip) | split | simp only [id_eq] | simp only [good_mk])

theorem keep_startPattern {pd : List Instr × Prop × Prop} {s : State} {a : Assay} {g : Nat} {j : Nat} (h_s : Good pd s) :
    Good pd (startPattern s a g j) := by
  unfold startPattern
  repeat' (first | with_reducible (first | assumption | apply good_of | (intro _) | apply keep_checkReserve | apply keep_setRelief | apply keep_assayStart | apply good_ite | (refine good_snd (by assumption) ?_) | (refine good_fst (by assumption) ?_)) | (extract_lets +onlyGivenNames x; first | (suffices hx : Good pd x from ?_; (on_goal 1 => clear_value x); (on_goal 2 => simp only [x])) | skip) | split | simp only [id_eq] | simp only [good_mk])

theorem keep_writeAssay {pd : List Instr × Prop × Prop} {s : State} {v : Nat} (h_s : Good pd s) : Good pd (writeAssay s v) := by
  unfold writeAssay
  extract_lets +onlyGivenNames s1
  have h1 : Good pd s1 := by
    simp only [s1]
    split
    · exact keep_endAssay h_s
    · exact h_s
  clear_value s1
  dsimp only
  repeat' split
  all_goals first
    | exact h1
    | exact keep_assayRefuse h1
    | exact keep_assayStart h1
    | exact keep_startPattern h1
    | (simp only [good_mk]; exact good_of h1)

theorem keep_assayCommand {pd : List Instr × Prop × Prop} {a : Accessor} {value : BitVec 32} {kind : Nat} {s : State} (h_s : Good pd s) :
    Good pd (assayCommand a value kind s) := by
  unfold assayCommand
  repeat' (first | with_reducible (first | assumption | apply good_of | (intro _) | apply keep_writeAssay | apply good_ite | (refine good_snd (by assumption) ?_) | (refine good_fst (by assumption) ?_)) | (extract_lets +onlyGivenNames x; first | (suffices hx : Good pd x from ?_; (on_goal 1 => clear_value x); (on_goal 2 => simp only [x])) | skip) | split | simp only [id_eq] | simp only [good_mk])

theorem keep_execAssayPattern {pd : List Instr × Prop × Prop} {a : Accessor} {value : BitVec 32} {s : State} (h_s : Good pd s) :
    OutGood pd (execAssayPattern a value s) := by
  unfold execAssayPattern
  show Good pd _
  repeat' (first | with_reducible (first | assumption | apply good_of | (intro _) | apply keep_assayCommand | apply good_ite | (refine good_snd (by assumption) ?_) | (refine good_fst (by assumption) ?_)) | (extract_lets +onlyGivenNames x; first | (suffices hx : Good pd x from ?_; (on_goal 1 => clear_value x); (on_goal 2 => simp only [x])) | skip) | split | simp only [id_eq] | simp only [good_mk])

theorem keep_execAssayReplay {pd : List Instr × Prop × Prop} {a : Accessor} {value : BitVec 32} {s : State} (h_s : Good pd s) :
    OutGood pd (execAssayReplay a value s) := by
  unfold execAssayReplay
  show Good pd _
  repeat' (first | with_reducible (first | assumption | apply good_of | (intro _) | apply keep_assayCommand | apply good_ite | (refine good_snd (by assumption) ?_) | (refine good_fst (by assumption) ?_)) | (extract_lets +onlyGivenNames x; first | (suffices hx : Good pd x from ?_; (on_goal 1 => clear_value x); (on_goal 2 => simp only [x])) | skip) | split | simp only [id_eq] | simp only [good_mk])

theorem keep_execAssayCore {pd : List Instr × Prop × Prop} {a : Accessor} {value : BitVec 32} {s : State} (h_s : Good pd s) :
    OutGood pd (execAssayCore a value s) := by
  unfold execAssayCore
  show Good pd _
  repeat' (first | with_reducible (first | assumption | apply good_of | (intro _) | apply keep_assayCommand | apply good_ite | (refine good_snd (by assumption) ?_) | (refine good_fst (by assumption) ?_)) | (extract_lets +onlyGivenNames x; first | (suffices hx : Good pd x from ?_; (on_goal 1 => clear_value x); (on_goal 2 => simp only [x])) | skip) | split | simp only [id_eq] | simp only [good_mk])

theorem keep_execHbAbort {pd : List Instr × Prop × Prop} {a : Accessor} {value : BitVec 32} {s : State} (h_s : Good pd s) :
    OutGood pd (execHbAbort a value s) := by
  unfold execHbAbort
  show Good pd _
  repeat' (first | with_reducible (first | assumption | apply good_of | (intro _) | apply keep_writeAssay | apply good_ite | (refine good_snd (by assumption) ?_) | (refine good_fst (by assumption) ?_)) | (extract_lets +onlyGivenNames x; first | (suffices hx : Good pd x from ?_; (on_goal 1 => clear_value x); (on_goal 2 => simp only [x])) | skip) | split | simp only [id_eq] | simp only [good_mk])

theorem keep_execAssayNoInput {pd : List Instr × Prop × Prop} {s : State} (h_s : Good pd s) :
    OutGood pd (execAssayNoInput s) := by
  unfold execAssayNoInput
  show Good pd _
  repeat' (first | with_reducible (first | assumption | apply good_of | (intro _) | apply keep_endAssay | apply good_ite | (refine good_snd (by assumption) ?_) | (refine good_fst (by assumption) ?_)) | (extract_lets +onlyGivenNames x; first | (suffices hx : Good pd x from ?_; (on_goal 1 => clear_value x); (on_goal 2 => simp only [x])) | skip) | split | simp only [id_eq] | simp only [good_mk])

theorem keep_retireAssayed {pd : List Instr × Prop × Prop} {s : State} {a : Assay} (h_s : Good pd s) :
    Good pd (retireAssayed s a) := by
  unfold retireAssayed
  repeat' (first | with_reducible (first | assumption | apply good_of | (intro _) | apply keep_modTile | apply keep_setAssayResult | apply keep_endAssay | apply keep_retireTile | apply keep_dropJob | apply good_ite | (refine good_snd (by assumption) ?_) | (refine good_fst (by assumption) ?_)) | (extract_lets +onlyGivenNames x; first | (suffices hx : Good pd x from ?_; (on_goal 1 => clear_value x); (on_goal 2 => simp only [x])) | skip) | split | simp only [id_eq] | simp only [good_mk])

theorem keep_execAssayComplete {pd : List Instr × Prop × Prop} {scalar : List Bool} {memory : List Bool} {vector : List Bool} {matrix : List Bool} {s : State} (h_s : Good pd s) :
    OutGood pd (execAssayComplete scalar memory vector matrix s) := by
  unfold execAssayComplete
  show Good pd _
  repeat' (first | with_reducible (first | assumption | apply good_of | (intro _) | apply keep_setAssayResult | apply keep_endAssay | apply keep_reportAssay | apply keep_retireAssayed | apply good_ite | (refine good_snd (by assumption) ?_) | (refine good_fst (by assumption) ?_)) | (extract_lets +onlyGivenNames x; first | (suffices hx : Good pd x from ?_; (on_goal 1 => clear_value x); (on_goal 2 => simp only [x])) | skip) | split | simp only [id_eq] | simp only [good_mk])

theorem keep_drainStanding {pd : List Instr × Prop × Prop} {s : State} {x : Standing} (h_s : Good pd s) :
    Good pd (drainStanding s x) := by
  unfold drainStanding
  repeat' (first | with_reducible (first | assumption | apply good_of | (intro _) | apply keep_modCore | apply good_ite | (refine good_snd (by assumption) ?_) | (refine good_fst (by assumption) ?_)) | (extract_lets +onlyGivenNames x; first | (suffices hx : Good pd x from ?_; (on_goal 1 => clear_value x); (on_goal 2 => simp only [x])) | skip) | split | simp only [id_eq] | simp only [good_mk])

theorem keep_restamp {pd : List Instr × Prop × Prop} {s : State} {from' : Nat} {by' : Nat} (h_s : Good pd s) :
    Good pd (restamp s from' by') := by
  unfold restamp
  repeat' (first | with_reducible (first | assumption | apply good_of | (intro _) | apply good_ite | (refine good_snd (by assumption) ?_) | (refine good_fst (by assumption) ?_)) | (extract_lets +onlyGivenNames x; first | (suffices hx : Good pd x from ?_; (on_goal 1 => clear_value x); (on_goal 2 => simp only [x])) | skip) | split | simp only [id_eq] | simp only [good_mk])

theorem keep_redeliver {pd : List Instr × Prop × Prop} {s : State} {r : Retained} (h_s : Good pd s) :
    Good pd (redeliver s r) := by
  unfold redeliver
  repeat' (first | with_reducible (first | assumption | apply good_of | (intro _) | apply keep_modCore | apply good_ite | (refine good_snd (by assumption) ?_) | (refine good_fst (by assumption) ?_)) | (extract_lets +onlyGivenNames x; first | (suffices hx : Good pd x from ?_; (on_goal 1 => clear_value x); (on_goal 2 => simp only [x])) | skip) | split | simp only [id_eq] | simp only [good_mk])

theorem keep_raiseRho {pd : List Instr × Prop × Prop} {s : State} (h_s : Good pd s) :
    Good pd (raiseRho s) := by
  unfold raiseRho
  repeat' (first | with_reducible (first | assumption | apply good_of | (intro _) | apply good_ite | (refine good_snd (by assumption) ?_) | (refine good_fst (by assumption) ?_)) | (extract_lets +onlyGivenNames x; first | (suffices hx : Good pd x from ?_; (on_goal 1 => clear_value x); (on_goal 2 => simp only [x])) | skip) | split | simp only [id_eq] | simp only [good_mk])

theorem keep_restoreLengths {pd : List Instr × Prop × Prop} {s : State} (h_s : Good pd s) :
    Good pd (restoreLengths s) := by
  unfold restoreLengths
  repeat' (first | with_reducible (first | assumption | apply good_of | (intro _) | apply keep_modStream | apply keep_forEach | apply good_ite | (refine good_snd (by assumption) ?_) | (refine good_fst (by assumption) ?_)) | (extract_lets +onlyGivenNames x; first | (suffices hx : Good pd x from ?_; (on_goal 1 => clear_value x); (on_goal 2 => simp only [x])) | skip) | split | simp only [id_eq] | simp only [good_mk])

theorem keep_beginSlip {pd : List Instr × Prop × Prop} {s : State} {n : Nat} (h_s : Good pd s) :
    Good pd (beginSlip s n) := by
  unfold beginSlip
  repeat' (first | with_reducible (first | assumption | apply good_of | (intro _) | apply keep_raiseEvent | apply keep_restamp | apply keep_raiseRho | apply keep_restoreLengths | apply good_ite | (refine good_snd (by assumption) ?_) | (refine good_fst (by assumption) ?_)) | (extract_lets +onlyGivenNames x; first | (suffices hx : Good pd x from ?_; (on_goal 1 => clear_value x); (on_goal 2 => simp only [x])) | skip) | split | simp only [id_eq] | simp only [good_mk])

theorem keep_slipDeliver {pd : List Instr × Prop × Prop} {s : State} {n : Nat} (h_s : Good pd s) :
    Good pd (slipDeliver s n) := by
  unfold slipDeliver
  repeat' (first | with_reducible (first | assumption | apply good_of | (intro _) | apply keep_forEach | apply keep_drainStanding | apply keep_redeliver | apply good_ite | (refine good_snd (by assumption) ?_) | (refine good_fst (by assumption) ?_)) | (extract_lets +onlyGivenNames x; first | (suffices hx : Good pd x from ?_; (on_goal 1 => clear_value x); (on_goal 2 => simp only [x])) | skip) | split | simp only [id_eq] | simp only [good_mk])

theorem keep_writeFeed {pd : List Instr × Prop × Prop} {s : State} {p : Nat} (h_s : Good pd s) :
    Good pd (writeFeed s p) := by
  unfold writeFeed
  repeat' (first | with_reducible (first | assumption | apply good_of | (intro _) | apply keep_modCore | apply good_ite | (refine good_snd (by assumption) ?_) | (refine good_fst (by assumption) ?_)) | (extract_lets +onlyGivenNames x; first | (suffices hx : Good pd x from ?_; (on_goal 1 => clear_value x); (on_goal 2 => simp only [x])) | skip) | split | simp only [id_eq] | simp only [good_mk])

theorem keep_writeFeeds {pd : List Instr × Prop × Prop} {s : State} (h_s : Good pd s) :
    Good pd (writeFeeds s) := by
  unfold writeFeeds
  repeat' (first | with_reducible (first | assumption | apply good_of | (intro _) | apply keep_forEach | apply keep_writeFeed | apply good_ite | (refine good_snd (by assumption) ?_) | (refine good_fst (by assumption) ?_)) | (extract_lets +onlyGivenNames x; first | (suffices hx : Good pd x from ?_; (on_goal 1 => clear_value x); (on_goal 2 => simp only [x])) | skip) | split | simp only [id_eq] | simp only [good_mk])

theorem keep_startRound {pd : List Instr × Prop × Prop} {s : State} {verdict : Nat} {n : Nat} {at' : Nat} {li : Option Nat} (h_s : Good pd s) :
    Good pd (startRound s verdict n at' li) := by
  unfold startRound
  extract_lets +onlyGivenNames slip q c1 c2 c3 s1
  have h1 : Good pd s1 := good_mk.2 (good_of h_s)
  clear_value s1
  exact good_ite (keep_defineStandings h1) (good_ite (keep_writeFeeds (keep_slipDeliver (keep_defineStandings h1)))
    (keep_writeFeeds (keep_defineStandings (keep_restamp h1))))

theorem keep_setCauses {pd : List Instr × Prop × Prop} {s : State} {c : Nat} (h_s : Good pd s) :
    Good pd (setCauses s c) := by
  unfold setCauses
  repeat' (first | with_reducible (first | assumption | apply good_of | (intro _) | apply good_ite | (refine good_snd (by assumption) ?_) | (refine good_fst (by assumption) ?_)) | (extract_lets +onlyGivenNames x; first | (suffices hx : Good pd x from ?_; (on_goal 1 => clear_value x); (on_goal 2 => simp only [x])) | skip) | split | simp only [id_eq] | simp only [good_mk])

theorem keep_missingEvent {pd : List Instr × Prop × Prop} {s : State} {p : Nat} (h_s : Good pd s) :
    Good pd (missingEvent s p) := by
  unfold missingEvent
  repeat' (first | with_reducible (first | assumption | apply good_of | (intro _) | apply keep_draw | apply keep_raiseEvent | apply good_ite | (refine good_snd (by assumption) ?_) | (refine good_fst (by assumption) ?_)) | (extract_lets +onlyGivenNames x; first | (suffices hx : Good pd x from ?_; (on_goal 1 => clear_value x); (on_goal 2 => simp only [x])) | skip) | split | simp only [id_eq] | simp only [good_mk])

theorem keep_haltOn {pd : List Instr × Prop × Prop} {s : State} {c : Nat} {unaccepted : Bool} (h_s : Good pd s) :
    Good pd (haltOn s c unaccepted) := by
  unfold haltOn
  repeat' (first | with_reducible (first | assumption | apply good_of | (intro _) | apply keep_raiseEvent | apply keep_setCauses | apply good_ite | (refine good_snd (by assumption) ?_) | (refine good_fst (by assumption) ?_)) | (extract_lets +onlyGivenNames x; first | (suffices hx : Good pd x from ?_; (on_goal 1 => clear_value x); (on_goal 2 => simp only [x])) | skip) | split | simp only [id_eq] | simp only [good_mk])

theorem keep_haltOff {pd : List Instr × Prop × Prop} {s : State} {slip : Bool} (h_s : Good pd s) :
    Good pd (haltOff s slip) := by
  unfold haltOff
  repeat' (first | with_reducible (first | assumption | apply good_of | (intro _) | apply keep_raiseEvent | apply keep_setCauses | apply good_ite | (refine good_snd (by assumption) ?_) | (refine good_fst (by assumption) ?_)) | (extract_lets +onlyGivenNames x; first | (suffices hx : Good pd x from ?_; (on_goal 1 => clear_value x); (on_goal 2 => simp only [x])) | skip) | split | simp only [id_eq] | simp only [good_mk])

theorem keep_execPlanRetired {pd : List Instr × Prop × Prop} {s : State} (h_s : Good pd s) :
    OutGood pd (execPlanRetired s) := by
  unfold execPlanRetired
  show Good pd _
  repeat' (first | with_reducible (first | assumption | apply good_of | (intro _) | apply keep_forEach | apply keep_raiseEvent | apply keep_applyTrims | apply keep_retireSet | apply keep_haltOn | apply good_ite | (refine good_snd (by assumption) ?_) | (refine good_fst (by assumption) ?_)) | (extract_lets +onlyGivenNames x; first | (suffices hx : Good pd x from ?_; (on_goal 1 => clear_value x); (on_goal 2 => simp only [x])) | skip) | split | simp only [id_eq] | simp only [good_mk])

theorem keep_acceptingSteps {pd : List Instr × Prop × Prop} {s : State} {ran : Bool} {lack : Lacking} (h_s : Good pd s) :
    Good pd (acceptingSteps s ran lack) := by
  unfold acceptingSteps
  repeat' (first | with_reducible (first | assumption | apply good_of | (intro _) | apply keep_forEach | apply keep_expireDue | apply keep_actCommands | apply keep_stepsTwoToFour | apply keep_markWaiting | apply keep_refill | apply keep_acceptRound | apply keep_applySettings | apply good_ite | (refine good_snd (by assumption) ?_) | (refine good_fst (by assumption) ?_)) | (extract_lets +onlyGivenNames x; first | (suffices hx : Good pd x from ?_; (on_goal 1 => clear_value x); (on_goal 2 => simp only [x])) | skip) | split | simp only [id_eq] | simp only [good_mk])

theorem keep_boundaryTrims {pd : List Instr × Prop × Prop} {s : State} (h_s : Good pd s) :
    Good pd (boundaryTrims s) := by
  unfold boundaryTrims
  repeat' (first | with_reducible (first | assumption | apply good_of | (intro _) | apply keep_forEach | apply keep_applyTrims | apply good_ite | (refine good_snd (by assumption) ?_) | (refine good_fst (by assumption) ?_)) | (extract_lets +onlyGivenNames x; first | (suffices hx : Good pd x from ?_; (on_goal 1 => clear_value x); (on_goal 2 => simp only [x])) | skip) | split | simp only [id_eq] | simp only [good_mk])

theorem keep_headRound {pd : List Instr × Prop × Prop} {s : State} {verdict : Nat} {li : Option Nat} (h_s : Good pd s) :
    Good pd (headRound s verdict li) := by
  unfold headRound
  repeat' (first | with_reducible (first | assumption | apply good_of | (intro _) | apply keep_sendRoundStart | apply keep_startRound | apply good_ite | (refine good_snd (by assumption) ?_) | (refine good_fst (by assumption) ?_)) | (extract_lets +onlyGivenNames x; first | (suffices hx : Good pd x from ?_; (on_goal 1 => clear_value x); (on_goal 2 => simp only [x])) | skip) | split | simp only [id_eq] | simp only [good_mk])

theorem keep_runOn {pd : List Instr × Prop × Prop} {s : State} {lack : Lacking} (h_s : Good pd s) :
    Good pd (runOn s lack) := by
  unfold runOn
  dsimp only
  apply keep_sendRoundStart
  rw [good_mk]
  refine good_of ?_
  apply keep_startRound
  rw [good_mk]
  refine good_of ?_
  apply keep_assignRound
  rw [good_mk]
  exact good_of (keep_restamp h_s)

theorem keep_execPauseExpiry {pd : List Instr × Prop × Prop} {stream : BitVec 16} {s : State} (h_s : Good pd s) :
    OutGood pd (execPauseExpiry stream s) := by
  unfold execPauseExpiry
  show Good pd _
  repeat' (first | with_reducible (first | assumption | apply good_of | (intro _) | apply keep_expireStream | apply good_ite | (refine good_snd (by assumption) ?_) | (refine good_fst (by assumption) ?_)) | (extract_lets +onlyGivenNames x; first | (suffices hx : Good pd x from ?_; (on_goal 1 => clear_value x); (on_goal 2 => simp only [x])) | skip) | split | simp only [id_eq] | simp only [good_mk])

theorem keep_boundary {pd : List Instr × Prop × Prop} {s : State} {thawed : Bool} {lack : Lacking} (h_s : Good pd s) :
    Good pd (boundary s thawed lack) := by
  unfold boundary
  repeat' (first | with_reducible (first | assumption | apply good_of | (intro _) | apply keep_forEach | apply keep_expireDue | apply keep_actBindings | apply keep_pendHandoff | apply keep_stepsTwoToFour | apply keep_setStretch | apply keep_applyRepair | apply keep_beginSlip | apply keep_missingEvent | apply keep_haltOn | apply keep_haltOff | apply keep_acceptingSteps | apply keep_boundaryTrims | apply keep_headRound | apply keep_runOn | apply good_ite | (refine good_snd (by assumption) ?_) | (refine good_fst (by assumption) ?_)) | (extract_lets +onlyGivenNames x; first | (suffices hx : Good pd x from ?_; (on_goal 1 => clear_value x); (on_goal 2 => simp only [x])) | skip) | split | simp only [id_eq] | simp only [good_mk])

theorem keep_execRoundBoundary {pd : List Instr × Prop × Prop} {othersThawed : Bool} {lacking : List (BitVec 16 × BitVec 6 × BitVec 32 × BitVec 32)} {s : State} (h_s : Good pd s) :
    OutGood pd (execRoundBoundary othersThawed lacking s) := by
  unfold execRoundBoundary
  show Good pd _
  repeat' (first | with_reducible (first | assumption | apply good_of | (intro _) | apply keep_boundary | apply good_ite | (refine good_snd (by assumption) ?_) | (refine good_fst (by assumption) ?_)) | (extract_lets +onlyGivenNames x; first | (suffices hx : Good pd x from ?_; (on_goal 1 => clear_value x); (on_goal 2 => simp only [x])) | skip) | split | simp only [id_eq] | simp only [good_mk])

theorem keep_execEmptyRoundEnd {pd : List Instr × Prop × Prop} {othersThawed : Bool} {lacking : List (BitVec 16 × BitVec 6 × BitVec 32 × BitVec 32)} {s : State} (h_s : Good pd s) :
    OutGood pd (execEmptyRoundEnd othersThawed lacking s) := by
  unfold execEmptyRoundEnd
  show Good pd _
  repeat' (first | with_reducible (first | assumption | apply good_of | (intro _) | apply keep_boundary | apply good_ite | (refine good_snd (by assumption) ?_) | (refine good_fst (by assumption) ?_)) | (extract_lets +onlyGivenNames x; first | (suffices hx : Good pd x from ?_; (on_goal 1 => clear_value x); (on_goal 2 => simp only [x])) | skip) | split | simp only [id_eq] | simp only [good_mk])

theorem keep_switchCore {pd : List Instr × Prop × Prop} {carry : List Standing} {s : State} {c : Nat} (h_s : Good pd s) :
    Good pd (switchCore carry s c) := by
  unfold switchCore
  repeat' (first | with_reducible (first | assumption | apply good_of | (intro _) | apply keep_modCore | apply keep_slotFault | apply good_ite | (refine good_snd (by assumption) ?_) | (refine good_fst (by assumption) ?_)) | (extract_lets +onlyGivenNames x; first | (suffices hx : Good pd x from ?_; (on_goal 1 => clear_value x); (on_goal 2 => simp only [x])) | skip) | split | simp only [id_eq] | simp only [good_mk])

theorem keep_switchPlan {pd : List Instr × Prop × Prop} {s : State} {b : Nat} (h_s : Good pd s) :
    Good pd (switchPlan s b) := by
  unfold switchPlan
  repeat' (first | with_reducible (first | assumption | apply good_of | (intro _) | apply keep_modStream | apply keep_forEach | apply keep_raiseEvent | apply keep_loadCores | apply keep_switchCore | apply good_ite | (refine good_snd (by assumption) ?_) | (refine good_fst (by assumption) ?_)) | (extract_lets +onlyGivenNames x; first | (suffices hx : Good pd x from ?_; (on_goal 1 => clear_value x); (on_goal 2 => simp only [x])) | skip) | split | simp only [id_eq] | simp only [good_mk])

theorem keep_clipAll {pd : List Instr × Prop × Prop} {s : State} (h_s : Good pd s) :
    Good pd (clipAll s) := by
  unfold clipAll
  repeat' (first | with_reducible (first | assumption | apply good_of | (intro _) | apply keep_forEach | apply keep_clipK | apply good_ite | (refine good_snd (by assumption) ?_) | (refine good_fst (by assumption) ?_)) | (extract_lets +onlyGivenNames x; first | (suffices hx : Good pd x from ?_; (on_goal 1 => clear_value x); (on_goal 2 => simp only [x])) | skip) | split | simp only [id_eq] | simp only [good_mk])

theorem keep_execSwitchGapEnd {pd : List Instr × Prop × Prop} {lacking : List (BitVec 16 × BitVec 6 × BitVec 32 × BitVec 32)} {s : State} (h_s : Good pd s) :
    OutGood pd (execSwitchGapEnd lacking s) := by
  unfold execSwitchGapEnd
  show Good pd _
  repeat' (first | with_reducible (first | assumption | apply good_of | (intro _) | apply keep_forEach | apply keep_markWaiting | apply keep_runOn | apply keep_switchPlan | apply keep_clipAll | apply good_ite | (refine good_snd (by assumption) ?_) | (refine good_fst (by assumption) ?_)) | (extract_lets +onlyGivenNames x; first | (suffices hx : Good pd x from ?_; (on_goal 1 => clear_value x); (on_goal 2 => simp only [x])) | skip) | split | simp only [id_eq] | simp only [good_mk])

theorem keep_copyPage {pd : List Instr × Prop × Prop} {s : State} {sid owner page : Nat} (h_s : Good pd s) : Good pd (copyPage s sid owner page) := by
  unfold copyPage
  split
  · rename_i h
    exact keep_modStream (keep_allocFrame h_s _ h)
  · exact h_s

theorem keep_obey {pd : List Instr × Prop × Prop} {s : State} {o : Order} (h_s : Good pd s) :
    Good pd (obey s o) := by
  unfold obey
  repeat' (first | with_reducible (first | assumption | apply good_of | (intro _) | apply keep_setStream | apply keep_modStream | apply keep_forEach | apply keep_allocPages | apply keep_copyPage | apply good_ite | (refine good_snd (by assumption) ?_) | (refine good_fst (by assumption) ?_)) | (extract_lets +onlyGivenNames x; first | (suffices hx : Good pd x from ?_; (on_goal 1 => clear_value x); (on_goal 2 => simp only [x])) | skip) | split | simp only [id_eq] | simp only [good_mk])

theorem keep_memberRound {pd : List Instr × Prop × Prop} {s : State} {verdict : Nat} {layout : Nat} {stretch : Nat} {bucket : Nat} {round : Nat} {at' : Nat} {retired : Nat} {epoch : Nat} {causes : Nat} {orders : List Order} (h_s : Good pd s) :
    Good pd (memberRound s verdict layout stretch bucket round at' retired epoch causes orders) := by
  unfold memberRound
  repeat' (first | with_reducible (first | assumption | apply good_of | (intro _) | apply keep_forEach | apply keep_stepsTwoToFour | apply keep_acceptRound | apply keep_applyRepair | apply keep_restamp | apply keep_beginSlip | apply keep_startRound | apply keep_haltOn | apply keep_haltOff | apply keep_boundaryTrims | apply keep_obey | apply good_ite | (refine good_snd (by assumption) ?_) | (refine good_fst (by assumption) ?_)) | (extract_lets +onlyGivenNames x; first | (suffices hx : Good pd x from ?_; (on_goal 1 => clear_value x); (on_goal 2 => simp only [x])) | skip) | split | simp only [id_eq] | simp only [good_mk])

theorem keep_execRoundStartFlit {pd : List Instr × Prop × Prop} {verdict : BitVec 3} {layout : BitVec 8} {stretch : BitVec 8} {bucket : BitVec 8} {round : BitVec 64} {rtbStart : BitVec 64} {retired : BitVec 64} {epoch : BitVec 64} {crcOk : Bool} {causes : BitVec 5} {orders : List Order} {s : State} (h_s : Good pd s) :
    OutGood pd (execRoundStartFlit verdict layout stretch bucket round rtbStart retired epoch crcOk causes orders s) := by
  unfold execRoundStartFlit
  show Good pd _
  repeat' (first | with_reducible (first | assumption | apply good_of | (intro _) | apply keep_sendControl | apply keep_memberRound | apply good_ite | (refine good_snd (by assumption) ?_) | (refine good_fst (by assumption) ?_)) | (extract_lets +onlyGivenNames x; first | (suffices hx : Good pd x from ?_; (on_goal 1 => clear_value x); (on_goal 2 => simp only [x])) | skip) | split | simp only [id_eq] | simp only [good_mk])

theorem keep_stretchRequest {pd : List Instr × Prop × Prop} {s : State} (h_s : Good pd s) :
    Good pd (stretchRequest s).2 := by
  unfold stretchRequest
  repeat' (first | with_reducible (first | assumption | apply good_of | (intro _) | apply keep_overrideEvent | apply good_ite | (refine good_snd (by assumption) ?_) | (refine good_fst (by assumption) ?_)) | (extract_lets +onlyGivenNames x; first | (suffices hx : Good pd x from ?_; (on_goal 1 => clear_value x); (on_goal 2 => simp only [x])) | skip) | split | simp only [id_eq] | simp only [good_mk])

theorem keep_countHalt {pd : List Instr × Prop × Prop} {s : State} {status : Nat} (h_s : Good pd s) :
    Good pd (countHalt s status) := by
  unfold countHalt
  repeat' (first | with_reducible (first | assumption | apply good_of | (intro _) | apply keep_overrideEvent | apply good_ite | (refine good_snd (by assumption) ?_) | (refine good_fst (by assumption) ?_)) | (extract_lets +onlyGivenNames x; first | (suffices hx : Good pd x from ?_; (on_goal 1 => clear_value x); (on_goal 2 => simp only [x])) | skip) | split | simp only [id_eq] | simp only [good_mk])

theorem keep_sendStatus {pd : List Instr × Prop × Prop} {s : State} {round : Nat} {status : Nat} {req : Nat} {ps : List Nat} (h_s : Good pd s) :
    Good pd (sendStatus s round status req ps) := by
  unfold sendStatus
  repeat' (first | with_reducible (first | assumption | apply good_of | (intro _) | apply keep_sendControl | apply good_ite | (refine good_snd (by assumption) ?_) | (refine good_fst (by assumption) ?_)) | (extract_lets +onlyGivenNames x; first | (suffices hx : Good pd x from ?_; (on_goal 1 => clear_value x); (on_goal 2 => simp only [x])) | skip) | split | simp only [id_eq] | simp only [good_mk])

theorem keep_faultEvents {pd : List Instr × Prop × Prop} {s : State} (h_s : Good pd s) :
    Good pd (faultEvents s) := by
  unfold faultEvents
  repeat' (first | with_reducible (first | assumption | apply good_of | (intro _) | apply keep_forEach | apply keep_raiseEvent | apply good_ite | (refine good_snd (by assumption) ?_) | (refine good_fst (by assumption) ?_)) | (extract_lets +onlyGivenNames x; first | (suffices hx : Good pd x from ?_; (on_goal 1 => clear_value x); (on_goal 2 => simp only [x])) | skip) | split | simp only [id_eq] | simp only [good_mk])

theorem keep_execStatusFlitSend {pd : List Instr × Prop × Prop} {s : State} (h_s : Good pd s) :
    OutGood pd (execStatusFlitSend s) := by
  unfold execStatusFlitSend
  show Good pd _
  repeat' (first | with_reducible (first | assumption | apply good_of | (intro _) | apply keep_stretchRequest | apply keep_countHalt | apply keep_sendStatus | apply keep_faultEvents | apply good_ite | (refine good_snd (by assumption) ?_) | (refine good_fst (by assumption) ?_)) | (extract_lets +onlyGivenNames x; first | (suffices hx : Good pd x from ?_; (on_goal 1 => clear_value x); (on_goal 2 => simp only [x])) | skip) | split | simp only [id_eq] | simp only [good_mk])

theorem keep_execStatusFlit {pd : List Instr × Prop × Prop} {pos : BitVec 6} {status : BitVec 8} {replaying : BitVec 8} {stretch : BitVec 8} {level : BitVec 8} {round : BitVec 64} {positions : List (BitVec 16)} {crcOk : Bool} {s : State} (h_s : Good pd s) :
    OutGood pd (execStatusFlit pos status replaying stretch level round positions crcOk s) := by
  unfold execStatusFlit
  show Good pd _
  repeat' (first | with_reducible (first | assumption | apply good_of | (intro _) | apply keep_sendControl | apply good_ite | (refine good_snd (by assumption) ?_) | (refine good_fst (by assumption) ?_)) | (extract_lets +onlyGivenNames x; first | (suffices hx : Good pd x from ?_; (on_goal 1 => clear_value x); (on_goal 2 => simp only [x])) | skip) | split | simp only [id_eq] | simp only [good_mk])

theorem keep_writeStretch {pd : List Instr × Prop × Prop} {s : State} {v : Nat} (h_s : Good pd s) :
    Good pd (writeStretch s v) := by
  unfold writeStretch
  repeat' (first | with_reducible (first | assumption | apply good_of | (intro _) | apply good_ite | (refine good_snd (by assumption) ?_) | (refine good_fst (by assumption) ?_)) | (extract_lets +onlyGivenNames x; first | (suffices hx : Good pd x from ?_; (on_goal 1 => clear_value x); (on_goal 2 => simp only [x])) | skip) | split | simp only [id_eq] | simp only [good_mk])

theorem keep_execSqStretch {pd : List Instr × Prop × Prop} {a : Accessor} {value : BitVec 32} {s : State} (h_s : Good pd s) :
    OutGood pd (execSqStretch a value s) := by
  unfold execSqStretch
  show Good pd _
  repeat' (first | with_reducible (first | assumption | apply good_of | (intro _) | apply keep_writeStretch | apply good_ite | (refine good_snd (by assumption) ?_) | (refine good_fst (by assumption) ?_)) | (extract_lets +onlyGivenNames x; first | (suffices hx : Good pd x from ?_; (on_goal 1 => clear_value x); (on_goal 2 => simp only [x])) | skip) | split | simp only [id_eq] | simp only [good_mk])

theorem keep_faultAt {pd : List Instr × Prop × Prop} {s : State} {p : Nat} {cause : Nat} (h_s : Good pd s) :
    Good pd (faultAt s p cause) := by
  unfold faultAt
  repeat' (first | with_reducible (first | assumption | apply good_of | (intro _) | apply keep_posFault | apply good_ite | (refine good_snd (by assumption) ?_) | (refine good_fst (by assumption) ?_)) | (extract_lets +onlyGivenNames x; first | (suffices hx : Good pd x from ?_; (on_goal 1 => clear_value x); (on_goal 2 => simp only [x])) | skip) | split | simp only [id_eq] | simp only [good_mk])

theorem keep_freezeQueue {pd : List Instr × Prop × Prop} {s : State} {p : Nat} {queue : Nat} {code : Nat} {addr : Nat} (h_s : Good pd s) :
    Good pd (freezeQueue s p queue code addr) := by
  unfold freezeQueue
  repeat' (first | with_reducible (first | assumption | apply good_of | (intro _) | apply keep_freeze | apply keep_faultAt | (simp only [pgCc, pgHp, pgMs, pgRi]; split <;> decide) | (simp only [pgCc, pgHp, pgMs, pgRi]; omega) | apply good_ite | (refine good_snd (by assumption) ?_) | (refine good_fst (by assumption) ?_)) | (extract_lets +onlyGivenNames x; first | (suffices hx : Good pd x from ?_; (on_goal 1 => clear_value x); (on_goal 2 => simp only [x])) | skip) | split | simp only [id_eq] | simp only [good_mk])

theorem keep_rowRange {pd : List Instr × Prop × Prop} {s : State} {owner : Nat} {k : Nat} {x : Dma} {ids : List Nat} (h_s : Good pd s) :
    Good pd (rowRange s owner k x ids) := by
  unfold rowRange
  repeat' (first | with_reducible (first | assumption | apply good_of | (intro _) | apply keep_raiseEvent | apply keep_modLive | apply good_ite | (refine good_snd (by assumption) ?_) | (refine good_fst (by assumption) ?_)) | (extract_lets +onlyGivenNames x; first | (suffices hx : Good pd x from ?_; (on_goal 1 => clear_value x); (on_goal 2 => simp only [x])) | skip) | split | simp only [id_eq] | simp only [good_mk])

theorem keep_execDmaSlotStart {pd : List Instr × Prop × Prop} {slot : BitVec 16} {ecc : List (Nat × Bool)} {s : State} (h_s : Good pd s) :
    OutGood pd (execDmaSlotStart slot ecc s) := by
  unfold execDmaSlotStart
  show Good pd _
  repeat' (first | with_reducible (first | assumption | apply good_of | (intro _) | apply keep_draw | apply keep_scratchEcc | apply keep_modLive | apply keep_unposted | apply keep_freezeQueue | apply keep_rowRange | apply good_ite | (refine good_snd (by assumption) ?_) | (refine good_fst (by assumption) ?_)) | (extract_lets +onlyGivenNames x; first | (suffices hx : Good pd x from ?_; (on_goal 1 => clear_value x); (on_goal 2 => simp only [x])) | skip) | split | simp only [id_eq] | simp only [good_mk])

theorem keep_deliverRows {pd : List Instr × Prop × Prop} {p : Nat} {core : Nat} {base : Nat} {rows : List (List Byte)} {s : State} (h_s : Good pd s) :
    Good pd (deliverRows p core base rows s) := by
  unfold deliverRows
  repeat' (first | with_reducible (first | assumption | apply good_of | (intro _) | apply keep_forEach | apply keep_arrive | apply good_ite | (refine good_snd (by assumption) ?_) | (refine good_fst (by assumption) ?_)) | (extract_lets +onlyGivenNames x; first | (suffices hx : Good pd x from ?_; (on_goal 1 => clear_value x); (on_goal 2 => simp only [x])) | skip) | split | simp only [id_eq] | simp only [good_mk])

theorem keep_execDmaTransferComplete {pd : List Instr × Prop × Prop} {pos : BitVec 16} {slot : BitVec 16} {ecc : List (Nat × Bool)} {s : State} (h_s : Good pd s) :
    OutGood pd (execDmaTransferComplete pos slot ecc s) := by
  unfold execDmaTransferComplete
  show Good pd _
  repeat' (first | with_reducible (first | assumption | apply good_of | (intro _) | apply keep_forEach | apply keep_eccRead | apply keep_writeUnder | apply keep_deliverRows | apply good_ite | (refine good_snd (by assumption) ?_) | (refine good_fst (by assumption) ?_)) | (extract_lets +onlyGivenNames x; first | (suffices hx : Good pd x from ?_; (on_goal 1 => clear_value x); (on_goal 2 => simp only [x])) | skip) | split | simp only [id_eq] | simp only [good_mk])

theorem keep_copyBlock {pd : List Instr × Prop × Prop} {s : State} {key : Nat} {src : Nat} {dst : Nat} {block : Nat} {known : Nat} {ecc : List (Nat × Bool)} (h_s : Good pd s) :
    Good pd (copyBlock s key src dst block known ecc) := by
  unfold copyBlock
  repeat' (first | with_reducible (first | assumption | apply good_of | (intro _) | apply keep_eccRead | apply keep_writeUnder | apply good_ite | (refine good_snd (by assumption) ?_) | (refine good_fst (by assumption) ?_)) | (extract_lets +onlyGivenNames x; first | (suffices hx : Good pd x from ?_; (on_goal 1 => clear_value x); (on_goal 2 => simp only [x])) | skip) | split | simp only [id_eq] | simp only [good_mk])

theorem keep_execCopyComplete {pd : List Instr × Prop × Prop} {stream : BitVec 16} {page : BitVec 14} {othersDone : Bool} {ecc : List (Nat × Bool)} {s : State} (h_s : Good pd s) :
    OutGood pd (execCopyComplete stream page othersDone ecc s) := by
  unfold execCopyComplete
  show Good pd _
  repeat' (first | with_reducible (first | assumption | apply good_of | (intro _) | apply keep_modStream | apply keep_forEach | apply keep_copyBlock | apply good_ite | (refine good_snd (by assumption) ?_) | (refine good_fst (by assumption) ?_)) | (extract_lets +onlyGivenNames x; first | (suffices hx : Good pd x from ?_; (on_goal 1 => clear_value x); (on_goal 2 => simp only [x])) | skip) | split | simp only [id_eq] | simp only [good_mk])

theorem keep_sendFlits {pd : List Instr × Prop × Prop} {s : State} {r : Ring} {data : List Byte} {lost : List Nat} {lo : Nat} {hi : Nat} (h_s : Good pd s) :
    Good pd (sendFlits s r data lost lo hi) := by
  unfold sendFlits
  repeat' (first | with_reducible (first | assumption | apply good_of | (intro _) | apply keep_forEach | apply keep_sendFlit | apply good_ite | (refine good_snd (by assumption) ?_) | (refine good_fst (by assumption) ?_)) | (extract_lets +onlyGivenNames x; first | (suffices hx : Good pd x from ?_; (on_goal 1 => clear_value x); (on_goal 2 => simp only [x])) | skip) | split | simp only [id_eq] | simp only [good_mk])

theorem keep_sendPiece {pd : List Instr × Prop × Prop} {s : State} {r : Ring} {x : Sending} (h_s : Good pd s) :
    Good pd (sendPiece s r x) := by
  unfold sendPiece
  repeat' (first | with_reducible (first | assumption | apply good_of | (intro _) | apply keep_scratchEcc | apply keep_sendFlits | apply good_ite | (refine good_snd (by assumption) ?_) | (refine good_fst (by assumption) ?_)) | (extract_lets +onlyGivenNames x; first | (suffices hx : Good pd x from ?_; (on_goal 1 => clear_value x); (on_goal 2 => simp only [x])) | skip) | split | simp only [id_eq] | simp only [good_mk])

theorem keep_sendTick {pd : List Instr × Prop × Prop} {s : State} (h_s : Good pd s) :
    Good pd (sendTick s) := by
  unfold sendTick
  repeat' (first | with_reducible (first | assumption | apply good_of | (intro _) | apply keep_forEach | apply keep_sendPiece | apply good_ite | (refine good_snd (by assumption) ?_) | (refine good_fst (by assumption) ?_)) | (extract_lets +onlyGivenNames x; first | (suffices hx : Good pd x from ?_; (on_goal 1 => clear_value x); (on_goal 2 => simp only [x])) | skip) | split | simp only [id_eq] | simp only [good_mk])

theorem keep_execTimedSend {pd : List Instr × Prop × Prop} {slot : BitVec 16} {ecc : List (Nat × Bool)} {s : State} (h_s : Good pd s) :
    OutGood pd (execTimedSend slot ecc s) := by
  unfold execTimedSend
  show Good pd _
  repeat' (first | with_reducible (first | assumption | apply good_of | (intro _) | apply keep_modLive | apply keep_unposted | apply keep_sendPiece | apply good_ite | (refine good_snd (by assumption) ?_) | (refine good_fst (by assumption) ?_)) | (extract_lets +onlyGivenNames x; first | (suffices hx : Good pd x from ?_; (on_goal 1 => clear_value x); (on_goal 2 => simp only [x])) | skip) | split | simp only [id_eq] | simp only [good_mk])

theorem keep_putTransfer {pd : List Instr × Prop × Prop} {s : State} {t : Transfer} (h_s : Good pd s) :
    Good pd (putTransfer s t) := by
  unfold putTransfer
  repeat' (first | with_reducible (first | assumption | apply good_of | (intro _) | apply good_ite | (refine good_snd (by assumption) ?_) | (refine good_fst (by assumption) ?_)) | (extract_lets +onlyGivenNames x; first | (suffices hx : Good pd x from ?_; (on_goal 1 => clear_value x); (on_goal 2 => simp only [x])) | skip) | split | simp only [id_eq] | simp only [good_mk])

theorem keep_execTimedFlit {pd : List Instr × Prop × Prop} {src : BitVec 6} {pos : BitVec 16} {slot : BitVec 16} {index : BitVec 16} {payload : List (BitVec 8)} {crcOk : Bool} {poison : Bool} {s : State} (h_s : Good pd s) :
    OutGood pd (execTimedFlit src pos slot index payload crcOk poison s) := by
  unfold execTimedFlit
  show Good pd _
  repeat' (first | with_reducible (first | assumption | apply good_of | (intro _) | apply keep_putTransfer | apply good_ite | (refine good_snd (by assumption) ?_) | (refine good_fst (by assumption) ?_)) | (extract_lets +onlyGivenNames x; first | (suffices hx : Good pd x from ?_; (on_goal 1 => clear_value x); (on_goal 2 => simp only [x])) | skip) | split | simp only [id_eq] | simp only [good_mk])

theorem keep_execTimedRelease {pd : List Instr × Prop × Prop} {src : BitVec 6} {pos : BitVec 16} {slot : BitVec 16} {s : State} (h_s : Good pd s) :
    OutGood pd (execTimedRelease src pos slot s) := by
  unfold execTimedRelease
  show Good pd _
  repeat' (first | with_reducible (first | assumption | apply good_of | (intro _) | apply keep_sendFlits | apply keep_putTransfer | apply good_ite | (refine good_snd (by assumption) ?_) | (refine good_fst (by assumption) ?_)) | (extract_lets +onlyGivenNames x; first | (suffices hx : Good pd x from ?_; (on_goal 1 => clear_value x); (on_goal 2 => simp only [x])) | skip) | split | simp only [id_eq] | simp only [good_mk])

theorem keep_retainRow {pd : List Instr × Prop × Prop} {s : State} {x : Pos} {r : Ring} {t : Transfer} {bs : List Byte} {bad : Bool} (h_s : Good pd s) :
    Good pd (retainRow s x r t bs bad) := by
  unfold retainRow
  repeat' (first | with_reducible (first | assumption | apply good_of | (intro _) | apply good_ite | (refine good_snd (by assumption) ?_) | (refine good_fst (by assumption) ?_)) | (extract_lets +onlyGivenNames x; first | (suffices hx : Good pd x from ?_; (on_goal 1 => clear_value x); (on_goal 2 => simp only [x])) | skip) | split | simp only [id_eq] | simp only [good_mk])

theorem keep_timedLost {pd : List Instr × Prop × Prop} {s : State} {r : Ring} {why : Nat} (h_s : Good pd s) :
    Good pd (timedLost s r why) := by
  unfold timedLost
  repeat' (first | with_reducible (first | assumption | apply good_of | (intro _) | apply keep_raiseEvent | apply good_ite | (refine good_snd (by assumption) ?_) | (refine good_fst (by assumption) ?_)) | (extract_lets +onlyGivenNames x; first | (suffices hx : Good pd x from ?_; (on_goal 1 => clear_value x); (on_goal 2 => simp only [x])) | skip) | split | simp only [id_eq] | simp only [good_mk])

theorem keep_arriveRow {pd : List Instr × Prop × Prop} {x : Pos} {r : Ring} {copy : Option Retained} {t : Transfer} {s : State} {j : Nat} (h_s : Good pd s) :
    Good pd (arriveRow x r copy t s j) := by
  unfold arriveRow
  repeat' (first | with_reducible (first | assumption | apply good_of | (intro _) | apply keep_arrive | apply keep_retainRow | apply good_ite | (refine good_snd (by assumption) ?_) | (refine good_fst (by assumption) ?_)) | (extract_lets +onlyGivenNames x; first | (suffices hx : Good pd x from ?_; (on_goal 1 => clear_value x); (on_goal 2 => simp only [x])) | skip) | split | simp only [id_eq] | simp only [good_mk])

theorem keep_headerArrived {pd : List Instr × Prop × Prop} {s : State} {x : Pos} {r : Ring} {t : Transfer} {data : List Byte} (h_s : Good pd s) :
    Good pd (headerArrived s x r t data) := by
  unfold headerArrived
  repeat' (first | with_reducible (first | assumption | apply good_of | (intro _) | apply keep_fillDraws | apply good_ite | (refine good_snd (by assumption) ?_) | (refine good_fst (by assumption) ?_)) | (extract_lets +onlyGivenNames x; first | (suffices hx : Good pd x from ?_; (on_goal 1 => clear_value x); (on_goal 2 => simp only [x])) | skip) | split | simp only [id_eq] | simp only [good_mk])

theorem keep_execTimedArrival {pd : List Instr × Prop × Prop} {src : BitVec 6} {pos : BitVec 16} {slot : BitVec 16} {s : State} (h_s : Good pd s) :
    OutGood pd (execTimedArrival src pos slot s) := by
  unfold execTimedArrival
  show Good pd _
  repeat' (first | with_reducible (first | assumption | apply good_of | (intro _) | apply keep_forEach | apply keep_putTransfer | apply keep_timedLost | apply keep_arriveRow | apply good_ite | (refine good_snd (by assumption) ?_) | (refine good_fst (by assumption) ?_)) | (extract_lets +onlyGivenNames x; first | (suffices hx : Good pd x from ?_; (on_goal 1 => clear_value x); (on_goal 2 => simp only [x])) | skip) | split | simp only [id_eq] | simp only [good_mk])

theorem keep_takeHeader {pd : List Instr × Prop × Prop} {s : State} {t : Transfer} (h_s : Good pd s) :
    Good pd (takeHeader s t) := by
  unfold takeHeader
  repeat' (first | with_reducible (first | assumption | apply good_of | (intro _) | apply keep_headerArrived | apply good_ite | (refine good_snd (by assumption) ?_) | (refine good_fst (by assumption) ?_)) | (extract_lets +onlyGivenNames x; first | (suffices hx : Good pd x from ?_; (on_goal 1 => clear_value x); (on_goal 2 => simp only [x])) | skip) | split | simp only [id_eq] | simp only [good_mk])

theorem keep_takeHeaders {pd : List Instr × Prop × Prop} {s : State} (h_s : Good pd s) :
    Good pd (takeHeaders s) := by
  unfold takeHeaders
  repeat' (first | with_reducible (first | assumption | apply good_of | (intro _) | apply keep_forEach | apply keep_takeHeader | apply good_ite | (refine good_snd (by assumption) ?_) | (refine good_fst (by assumption) ?_)) | (extract_lets +onlyGivenNames x; first | (suffices hx : Good pd x from ?_; (on_goal 1 => clear_value x); (on_goal 2 => simp only [x])) | skip) | split | simp only [id_eq] | simp only [good_mk])

theorem keep_takeEntry {pd : List Instr × Prop × Prop} {report : Bool} {data : List Byte} {s : State} {x : InFlight} {j : Nat} (h_s : Good pd s) :
    Good pd (takeEntry report data s x j) := by
  unfold takeEntry
  repeat' (first | with_reducible (first | assumption | apply good_of | (intro _) | apply keep_modStream | apply keep_raiseEvent | apply good_ite | (refine good_snd (by assumption) ?_) | (refine good_fst (by assumption) ?_)) | (extract_lets +onlyGivenNames x; first | (suffices hx : Good pd x from ?_; (on_goal 1 => clear_value x); (on_goal 2 => simp only [x])) | skip) | split | simp only [id_eq] | simp only [good_mk])

theorem keep_execTokenRecordArrival {pd : List Instr × Prop × Prop} {read : ErrRead} {s : State} (h_s : Good pd s) :
    OutGood pd (execTokenRecordArrival read s) := by
  unfold execTokenRecordArrival
  show Good pd _
  repeat' (first | with_reducible (first | assumption | apply good_of | (intro _) | apply keep_forEach | apply keep_sendMessage | apply keep_scratchEcc | apply keep_takeEntry | apply good_ite | (refine good_snd (by assumption) ?_) | (refine good_fst (by assumption) ?_)) | (extract_lets +onlyGivenNames x; first | (suffices hx : Good pd x from ?_; (on_goal 1 => clear_value x); (on_goal 2 => simp only [x])) | skip) | split | simp only [id_eq] | simp only [good_mk])

theorem keep_fullSlotFreeze {pd : List Instr × Prop × Prop} {s : State} {c : Nat} {x : Arrival} {i : Nat} {o : Nat} (h_s : Good pd s) :
    Good pd (fullSlotFreeze s c x i o) := by
  unfold fullSlotFreeze
  repeat' (first | with_reducible (first | assumption | apply good_of | (intro _) | apply keep_freeze | apply keep_slotFault | apply keep_faultAt | apply keep_freezeQueue | (simp only [pgCc, pgHp, pgMs, pgRi]; split <;> decide) | (simp only [pgCc, pgHp, pgMs, pgRi]; omega) | apply good_ite | (refine good_snd (by assumption) ?_) | (refine good_fst (by assumption) ?_)) | (extract_lets +onlyGivenNames x; first | (suffices hx : Good pd x from ?_; (on_goal 1 => clear_value x); (on_goal 2 => simp only [x])) | skip) | split | simp only [id_eq] | simp only [good_mk])

theorem keep_commitArrival {pd : List Instr × Prop × Prop} {c : Nat} {s : State} {x : Arrival} (h_s : Good pd s) :
    Good pd (commitArrival c s x) := by
  unfold commitArrival
  repeat' (first | with_reducible (first | assumption | apply good_of | (intro _) | apply keep_modCore | apply keep_fullSlotFreeze | apply good_ite | (refine good_snd (by assumption) ?_) | (refine good_fst (by assumption) ?_)) | (extract_lets +onlyGivenNames x; first | (suffices hx : Good pd x from ?_; (on_goal 1 => clear_value x); (on_goal 2 => simp only [x])) | skip) | split | simp only [id_eq] | simp only [good_mk])

theorem keep_commitCore {pd : List Instr × Prop × Prop} {s : State} {c : Nat} (h_s : Good pd s) :
    Good pd (commitCore s c) := by
  unfold commitCore
  repeat' (first | with_reducible (first | assumption | apply good_of | (intro _) | apply keep_modCore | apply keep_forEach | apply keep_commitArrival | apply good_ite | (refine good_snd (by assumption) ?_) | (refine good_fst (by assumption) ?_)) | (extract_lets +onlyGivenNames x; first | (suffices hx : Good pd x from ?_; (on_goal 1 => clear_value x); (on_goal 2 => simp only [x])) | skip) | split | simp only [id_eq] | simp only [good_mk])

theorem keep_closeBlocks {pd : List Instr × Prop × Prop} {s : State} {c : Nat} (h_s : Good pd s) :
    Good pd (closeBlocks s c) := by
  unfold closeBlocks
  repeat' (first | with_reducible (first | assumption | apply good_of | (intro _) | apply keep_modCore | apply keep_forEach | apply keep_closeBlock | apply good_ite | (refine good_snd (by assumption) ?_) | (refine good_fst (by assumption) ?_)) | (extract_lets +onlyGivenNames x; first | (suffices hx : Good pd x from ?_; (on_goal 1 => clear_value x); (on_goal 2 => simp only [x])) | skip) | split | simp only [id_eq] | simp only [good_mk])

theorem keep_cycleEnd {pd : List Instr × Prop × Prop} {s : State} {tick : Bool} (h_s : Good pd s) :
    Good pd (cycleEnd s tick) := by
  unfold cycleEnd
  repeat' (first | with_reducible (first | assumption | apply good_of | (intro _) | apply keep_forEach | apply keep_takeHeaders | apply keep_commitCore | apply keep_closeBlocks | apply good_ite | (refine good_snd (by assumption) ?_) | (refine good_fst (by assumption) ?_)) | (extract_lets +onlyGivenNames x; first | (suffices hx : Good pd x from ?_; (on_goal 1 => clear_value x); (on_goal 2 => simp only [x])) | skip) | split | simp only [id_eq] | simp only [good_mk])

theorem keep_beatAdvance {pd : List Instr × Prop × Prop} {s : State} (h_s : Good pd s) :
    Good pd (beatAdvance s) := by
  unfold beatAdvance
  repeat' (first | with_reducible (first | assumption | apply good_of | (intro _) | apply keep_modLive | apply keep_biasTick | apply good_ite | (refine good_snd (by assumption) ?_) | (refine good_fst (by assumption) ?_)) | (extract_lets +onlyGivenNames x; first | (suffices hx : Good pd x from ?_; (on_goal 1 => clear_value x); (on_goal 2 => simp only [x])) | skip) | split | simp only [id_eq] | simp only [good_mk])

theorem keep_waitingJobs {pd : List Instr × Prop × Prop} {s : State} (h_s : Good pd s) :
    Good pd (waitingJobs s) := by
  unfold waitingJobs
  repeat' (first | with_reducible (first | assumption | apply good_of | (intro _) | apply keep_startJobs | apply good_ite | (refine good_snd (by assumption) ?_) | (refine good_fst (by assumption) ?_)) | (extract_lets +onlyGivenNames x; first | (suffices hx : Good pd x from ?_; (on_goal 1 => clear_value x); (on_goal 2 => simp only [x])) | skip) | split | simp only [id_eq] | simp only [good_mk])

theorem keep_idleCycle {pd : List Instr × Prop × Prop} {s : State} (h_s : Good pd s) :
    Good pd (idleCycle s) := by
  unfold idleCycle
  repeat' (first | with_reducible (first | assumption | apply good_of | (intro _) | apply keep_forEach | apply keep_issueReads | apply keep_eccEvent | apply keep_repeatClock | apply keep_sendTick | apply keep_cycleEnd | apply keep_beatAdvance | apply keep_waitingJobs | apply good_ite | (refine good_snd (by assumption) ?_) | (refine good_fst (by assumption) ?_)) | (extract_lets +onlyGivenNames x; first | (suffices hx : Good pd x from ?_; (on_goal 1 => clear_value x); (on_goal 2 => simp only [x])) | skip) | split | simp only [id_eq] | simp only [good_mk])

theorem keep_mmaBody {pd : List Instr × Prop × Prop} {s : State} {c : Nat} {w : BitVec 64} {ecc : List (Nat × Bool)} {residue : List (BitVec 10)} (h_s : Good pd s) :
    Good pd (mmaBody s c w ecc residue) := by
  unfold mmaBody
  repeat' (first | with_reducible (first | assumption | apply good_of | (intro _) | apply keep_forEach | apply keep_raiseEvent | apply keep_coreFault | apply keep_retire | apply keep_scratchEcc | apply keep_Access_run | apply good_ite | (refine good_snd (by assumption) ?_) | (refine good_fst (by assumption) ?_)) | (extract_lets +onlyGivenNames x; first | (suffices hx : Good pd x from ?_; (on_goal 1 => clear_value x); (on_goal 2 => simp only [x])) | skip) | split | simp only [id_eq] | simp only [good_mk])

theorem keep_execCcMz {pd : List Instr × Prop × Prop} {core : BitVec 8} {d : BitVec 5} {s : State} (h_s : Good pd s) :
    OutGood pd (execCcMz core d s) := by
  unfold execCcMz
  show Good pd _
  repeat' (first | with_reducible (first | assumption | apply good_of | (intro _) | apply keep_issue | apply keep_retire | apply good_ite | (refine good_snd (by assumption) ?_) | (refine good_fst (by assumption) ?_)) | (extract_lets +onlyGivenNames x; first | (suffices hx : Good pd x from ?_; (on_goal 1 => clear_value x); (on_goal 2 => simp only [x])) | skip) | split | simp only [id_eq] | simp only [good_mk])

theorem keep_execCcMma {pd : List Instr × Prop × Prop} {core : BitVec 8} {d : BitVec 5} {a : BitVec 5} {b : BitVec 5} {c : BitVec 5} {m : BitVec 4} {ecc : List (Nat × Bool)} {residue : List (BitVec 10)} {s : State} (h_s : Good pd s) :
    OutGood pd (execCcMma core d a b c m ecc residue s) := by
  unfold execCcMma
  show Good pd _
  repeat' (first | with_reducible (first | assumption | apply good_of | (intro _) | apply keep_issue | apply keep_mmaBody | apply good_ite | (refine good_snd (by assumption) ?_) | (refine good_fst (by assumption) ?_)) | (extract_lets +onlyGivenNames x; first | (suffices hx : Good pd x from ?_; (on_goal 1 => clear_value x); (on_goal 2 => simp only [x])) | skip) | split | simp only [id_eq] | simp only [good_mk])

theorem keep_execCcMrd {pd : List Instr × Prop × Prop} {core : BitVec 8} {d : BitVec 5} {a : BitVec 5} {imm : BitVec 32} {s : State} (h_s : Good pd s) :
    OutGood pd (execCcMrd core d a imm s) := by
  unfold execCcMrd
  show Good pd _
  repeat' (first | with_reducible (first | assumption | apply good_of | (intro _) | apply keep_issue | apply keep_retire | apply good_ite | (refine good_snd (by assumption) ?_) | (refine good_fst (by assumption) ?_)) | (extract_lets +onlyGivenNames x; first | (suffices hx : Good pd x from ?_; (on_goal 1 => clear_value x); (on_goal 2 => simp only [x])) | skip) | split | simp only [id_eq] | simp only [good_mk])

theorem keep_execCcMwr {pd : List Instr × Prop × Prop} {core : BitVec 8} {d : BitVec 5} {a : BitVec 5} {imm : BitVec 32} {s : State} (h_s : Good pd s) :
    OutGood pd (execCcMwr core d a imm s) := by
  unfold execCcMwr
  show Good pd _
  repeat' (first | with_reducible (first | assumption | apply good_of | (intro _) | apply keep_issue | apply keep_retire | apply good_ite | (refine good_snd (by assumption) ?_) | (refine good_fst (by assumption) ?_)) | (extract_lets +onlyGivenNames x; first | (suffices hx : Good pd x from ?_; (on_goal 1 => clear_value x); (on_goal 2 => simp only [x])) | skip) | split | simp only [id_eq] | simp only [good_mk])

theorem keep_execCcMst {pd : List Instr × Prop × Prop} {core : BitVec 8} {a : BitVec 5} {b : BitVec 5} {m : BitVec 4} {imm : BitVec 32} {s : State} (h_s : Good pd s) :
    OutGood pd (execCcMst core a b m imm s) := by
  unfold execCcMst
  show Good pd _
  repeat' (first | with_reducible (first | assumption | apply good_of | (intro _) | apply keep_coreFault | apply keep_issue | apply keep_retire | apply keep_Access_run | apply good_ite | (refine good_snd (by assumption) ?_) | (refine good_fst (by assumption) ?_)) | (extract_lets +onlyGivenNames x; first | (suffices hx : Good pd x from ?_; (on_goal 1 => clear_value x); (on_goal 2 => simp only [x])) | skip) | split | simp only [id_eq] | simp only [good_mk])

theorem keep_noteRepairRead {pd : List Instr × Prop × Prop} {s : State} {c : Nat} {e : Nat} {x : Acc} (h_s : Good pd s) :
    Good pd (noteRepairRead s c e x) := by
  unfold noteRepairRead
  repeat' (first | with_reducible (first | assumption | apply good_of | (intro _) | apply good_ite | (refine good_snd (by assumption) ?_) | (refine good_fst (by assumption) ?_)) | (extract_lets +onlyGivenNames x; first | (suffices hx : Good pd x from ?_; (on_goal 1 => clear_value x); (on_goal 2 => simp only [x])) | skip) | split | simp only [id_eq] | simp only [good_mk])

theorem keep_noteRepairReads {pd : List Instr × Prop × Prop} {s : State} {c : Nat} {first : Nat} {xs : List Acc} (h_s : Good pd s) :
    Good pd (noteRepairReads s c first xs) := by
  unfold noteRepairReads
  repeat' (first | with_reducible (first | assumption | apply good_of | (intro _) | apply keep_forEach | apply keep_noteRepairRead | apply good_ite | (refine good_snd (by assumption) ?_) | (refine good_fst (by assumption) ?_)) | (extract_lets +onlyGivenNames x; first | (suffices hx : Good pd x from ?_; (on_goal 1 => clear_value x); (on_goal 2 => simp only [x])) | skip) | split | simp only [id_eq] | simp only [good_mk])

theorem keep_readOut {pd : List Instr × Prop × Prop} {s : State} {c : Nat} {w : BitVec 64} {first : Nat} {n : Nat} {use : List Acc → Core → Core} (h_s : Good pd s) :
    Good pd (readOut s c w first n use) := by
  unfold readOut
  repeat' (first | with_reducible (first | assumption | apply good_of | (intro _) | apply keep_coreFault | apply keep_stall | apply keep_retire | apply good_ite | (refine good_snd (by assumption) ?_) | (refine good_fst (by assumption) ?_)) | (extract_lets +onlyGivenNames x; first | (suffices hx : Good pd x from ?_; (on_goal 1 => clear_value x); (on_goal 2 => simp only [x])) | skip) | split | simp only [id_eq] | simp only [good_mk])

theorem keep_readOutBody {pd : List Instr × Prop × Prop} {s : State} {c : Nat} {w : BitVec 64} (h_s : Good pd s) :
    Good pd (readOutBody s c w) := by
  unfold readOutBody
  repeat' (first | with_reducible (first | assumption | apply good_of | (intro _) | apply keep_coreFault | apply keep_noteRepairReads | apply keep_readOut | apply good_ite | (refine good_snd (by assumption) ?_) | (refine good_fst (by assumption) ?_)) | (extract_lets +onlyGivenNames x; first | (suffices hx : Good pd x from ?_; (on_goal 1 => clear_value x); (on_goal 2 => simp only [x])) | skip) | split | simp only [id_eq] | simp only [good_mk])

theorem keep_execCcAccRd {pd : List Instr × Prop × Prop} {core : BitVec 8} {d : BitVec 5} {a : BitVec 5} {m : BitVec 4} {s : State} (h_s : Good pd s) :
    OutGood pd (execCcAccRd core d a m s) := by
  unfold execCcAccRd
  show Good pd _
  repeat' (first | with_reducible (first | assumption | apply good_of | (intro _) | apply keep_issue | apply keep_readOutBody | apply good_ite | (refine good_snd (by assumption) ?_) | (refine good_fst (by assumption) ?_)) | (extract_lets +onlyGivenNames x; first | (suffices hx : Good pd x from ?_; (on_goal 1 => clear_value x); (on_goal 2 => simp only [x])) | skip) | split | simp only [id_eq] | simp only [good_mk])

theorem keep_execCcAccRdf {pd : List Instr × Prop × Prop} {core : BitVec 8} {d : BitVec 5} {a : BitVec 5} {c : BitVec 5} {m : BitVec 4} {imm : BitVec 32} {s : State} (h_s : Good pd s) :
    OutGood pd (execCcAccRdf core d a c m imm s) := by
  unfold execCcAccRdf
  show Good pd _
  repeat' (first | with_reducible (first | assumption | apply good_of | (intro _) | apply keep_issue | apply keep_readOutBody | apply good_ite | (refine good_snd (by assumption) ?_) | (refine good_fst (by assumption) ?_)) | (extract_lets +onlyGivenNames x; first | (suffices hx : Good pd x from ?_; (on_goal 1 => clear_value x); (on_goal 2 => simp only [x])) | skip) | split | simp only [id_eq] | simp only [good_mk])

theorem keep_execCcAccDrop {pd : List Instr × Prop × Prop} {core : BitVec 8} {a : BitVec 5} {m : BitVec 4} {imm : BitVec 32} {s : State} (h_s : Good pd s) :
    OutGood pd (execCcAccDrop core a m imm s) := by
  unfold execCcAccDrop
  show Good pd _
  repeat' (first | with_reducible (first | assumption | apply good_of | (intro _) | apply keep_issue | apply keep_readOutBody | apply good_ite | (refine good_snd (by assumption) ?_) | (refine good_fst (by assumption) ?_)) | (extract_lets +onlyGivenNames x; first | (suffices hx : Good pd x from ?_; (on_goal 1 => clear_value x); (on_goal 2 => simp only [x])) | skip) | split | simp only [id_eq] | simp only [good_mk])

theorem keep_execAccWaitRelease {pd : List Instr × Prop × Prop} {core : BitVec 8} {s : State} (h_s : Good pd s) :
    OutGood pd (execAccWaitRelease core s) := by
  unfold execAccWaitRelease
  show Good pd _
  repeat' (first | with_reducible (first | assumption | apply good_of | (intro _) | apply keep_modCore | apply keep_readOutBody | apply good_ite | (refine good_snd (by assumption) ?_) | (refine good_fst (by assumption) ?_)) | (extract_lets +onlyGivenNames x; first | (suffices hx : Good pd x from ?_; (on_goal 1 => clear_value x); (on_goal 2 => simp only [x])) | skip) | split | simp only [id_eq] | simp only [good_mk])

theorem keep_loadSpans {pd : List Instr × Prop × Prop} {s : State} {c : Nat} {sp : List (Nat × Nat)} {checked : Bool} {ecc : List (Nat × Bool)} {put : Core → Core} (h_s : Good pd s) :
    Good pd (loadSpans s c sp checked ecc put) := by
  unfold loadSpans
  repeat' (first | with_reducible (first | assumption | apply good_of | (intro _) | apply keep_retire | apply keep_scratchEcc | apply keep_Access_run | apply good_ite | (refine good_snd (by assumption) ?_) | (refine good_fst (by assumption) ?_)) | (extract_lets +onlyGivenNames x; first | (suffices hx : Good pd x from ?_; (on_goal 1 => clear_value x); (on_goal 2 => simp only [x])) | skip) | split | simp only [id_eq] | simp only [good_mk])

theorem keep_ldBody {pd : List Instr × Prop × Prop} {s : State} {c : Nat} {w : BitVec 64} {ecc : List (Nat × Bool)} (h_s : Good pd s) :
    Good pd (ldBody s c w ecc) := by
  unfold ldBody
  repeat' (first | with_reducible (first | assumption | apply good_of | (intro _) | apply keep_coreFault | apply keep_loadSpans | apply good_ite | (refine good_snd (by assumption) ?_) | (refine good_fst (by assumption) ?_)) | (extract_lets +onlyGivenNames x; first | (suffices hx : Good pd x from ?_; (on_goal 1 => clear_value x); (on_goal 2 => simp only [x])) | skip) | split | simp only [id_eq] | simp only [good_mk])

theorem keep_stBody {pd : List Instr × Prop × Prop} {s : State} {c : Nat} {w : BitVec 64} (h_s : Good pd s) :
    Good pd (stBody s c w) := by
  unfold stBody
  repeat' (first | with_reducible (first | assumption | apply good_of | (intro _) | apply keep_coreFault | apply keep_retire | apply keep_Access_run | apply good_ite | (refine good_snd (by assumption) ?_) | (refine good_fst (by assumption) ?_)) | (extract_lets +onlyGivenNames x; first | (suffices hx : Good pd x from ?_; (on_goal 1 => clear_value x); (on_goal 2 => simp only [x])) | skip) | split | simp only [id_eq] | simp only [good_mk])

theorem keep_vecLoad {pd : List Instr × Prop × Prop} {s : State} {c : Nat} {w : BitVec 64} {addrs : List Nat} {n : Nat} {ecc : List (Nat × Bool)} {put : List (List Byte) → Core → Core} (h_s : Good pd s) :
    Good pd (vecLoad s c w addrs n ecc put) := by
  unfold vecLoad
  repeat' (first | with_reducible (first | assumption | apply good_of | (intro _) | apply keep_coreFault | apply keep_loadSpans | apply good_ite | (refine good_snd (by assumption) ?_) | (refine good_fst (by assumption) ?_)) | (extract_lets +onlyGivenNames x; first | (suffices hx : Good pd x from ?_; (on_goal 1 => clear_value x); (on_goal 2 => simp only [x])) | skip) | split | simp only [id_eq] | simp only [good_mk])

theorem keep_vecLoadBody {pd : List Instr × Prop × Prop} {s : State} {c : Nat} {w : BitVec 64} {ecc : List (Nat × Bool)} (h_s : Good pd s) :
    Good pd (vecLoadBody s c w ecc) := by
  unfold vecLoadBody
  repeat' (first | with_reducible (first | assumption | apply good_of | (intro _) | apply keep_coreFault | apply keep_vecLoad | apply good_ite | (refine good_snd (by assumption) ?_) | (refine good_fst (by assumption) ?_)) | (extract_lets +onlyGivenNames x; first | (suffices hx : Good pd x from ?_; (on_goal 1 => clear_value x); (on_goal 2 => simp only [x])) | skip) | split | simp only [id_eq] | simp only [good_mk])

theorem keep_vecStoreBody {pd : List Instr × Prop × Prop} {s : State} {c : Nat} {w : BitVec 64} (h_s : Good pd s) :
    Good pd (vecStoreBody s c w) := by
  unfold vecStoreBody
  repeat' (first | with_reducible (first | assumption | apply good_of | (intro _) | apply keep_coreFault | apply keep_retire | apply keep_Access_run | apply good_ite | (refine good_snd (by assumption) ?_) | (refine good_fst (by assumption) ?_)) | (extract_lets +onlyGivenNames x; first | (suffices hx : Good pd x from ?_; (on_goal 1 => clear_value x); (on_goal 2 => simp only [x])) | skip) | split | simp only [id_eq] | simp only [good_mk])

theorem keep_remoteFault {pd : List Instr × Prop × Prop} {s u : State} {c a n how : Nat} {target : BitVec 64} {f : State → State}
    (h : remoteFault s c a n how target = some f) (h_u : Good pd u) : Good pd (f u) := by
  unfold remoteFault at h
  extract_lets t hd at h
  repeat' split at h
  all_goals first
    | (obtain rfl := Option.some.inj h; first | exact keep_coreFault h_u | exact keep_Access_run h_u (fun _ h => h))
    | simp at h

theorem keep_rstvBody {pd : List Instr × Prop × Prop} {s : State} {c : Nat} {w : BitVec 64} (h_s : Good pd s) : Good pd (rstvBody s c w) := by
  unfold rstvBody
  extract_lets k n a
  split
  · rename_i h
    exact keep_remoteFault h h_s
  · exact keep_retire h_s

theorem keep_rldvBody {pd : List Instr × Prop × Prop} {s : State} {c : Nat} {w : BitVec 64} (h_s : Good pd s) : Good pd (rldvBody s c w) := by
  unfold rldvBody
  extract_lets k n a
  split
  · rename_i h
    exact keep_remoteFault h h_s
  · exact keep_retire h_s

theorem keep_execCcLd {pd : List Instr × Prop × Prop} {core : BitVec 8} {d : BitVec 5} {a : BitVec 5} {m : BitVec 4} {imm : BitVec 32} {ecc : List (Nat × Bool)} {s : State} (h_s : Good pd s) :
    OutGood pd (execCcLd core d a m imm ecc s) := by
  unfold execCcLd
  show Good pd _
  repeat' (first | with_reducible (first | assumption | apply good_of | (intro _) | apply keep_issue | apply keep_ldBody | apply good_ite | (refine good_snd (by assumption) ?_) | (refine good_fst (by assumption) ?_)) | (extract_lets +onlyGivenNames x; first | (suffices hx : Good pd x from ?_; (on_goal 1 => clear_value x); (on_goal 2 => simp only [x])) | skip) | split | simp only [id_eq] | simp only [good_mk])

theorem keep_execCcSt {pd : List Instr × Prop × Prop} {core : BitVec 8} {a : BitVec 5} {b : BitVec 5} {m : BitVec 4} {imm : BitVec 32} {s : State} (h_s : Good pd s) :
    OutGood pd (execCcSt core a b m imm s) := by
  unfold execCcSt
  show Good pd _
  repeat' (first | with_reducible (first | assumption | apply good_of | (intro _) | apply keep_issue | apply keep_stBody | apply good_ite | (refine good_snd (by assumption) ?_) | (refine good_fst (by assumption) ?_)) | (extract_lets +onlyGivenNames x; first | (suffices hx : Good pd x from ?_; (on_goal 1 => clear_value x); (on_goal 2 => simp only [x])) | skip) | split | simp only [id_eq] | simp only [good_mk])

theorem keep_execCcRstv {pd : List Instr × Prop × Prop} {core : BitVec 8} {a : BitVec 5} {b : BitVec 5} {c : BitVec 5} {m : BitVec 4} {imm : BitVec 32} {s : State} (h_s : Good pd s) :
    OutGood pd (execCcRstv core a b c m imm s) := by
  unfold execCcRstv
  show Good pd _
  repeat' (first | with_reducible (first | assumption | apply good_of | (intro _) | apply keep_issue | apply keep_rstvBody | apply good_ite | (refine good_snd (by assumption) ?_) | (refine good_fst (by assumption) ?_)) | (extract_lets +onlyGivenNames x; first | (suffices hx : Good pd x from ?_; (on_goal 1 => clear_value x); (on_goal 2 => simp only [x])) | skip) | split | simp only [id_eq] | simp only [good_mk])

theorem keep_execCcRldv {pd : List Instr × Prop × Prop} {core : BitVec 8} {d : BitVec 5} {a : BitVec 5} {c : BitVec 5} {m : BitVec 4} {imm : BitVec 32} {s : State} (h_s : Good pd s) :
    OutGood pd (execCcRldv core d a c m imm s) := by
  unfold execCcRldv
  show Good pd _
  repeat' (first | with_reducible (first | assumption | apply good_of | (intro _) | apply keep_issue | apply keep_rldvBody | apply good_ite | (refine good_snd (by assumption) ?_) | (refine good_fst (by assumption) ?_)) | (extract_lets +onlyGivenNames x; first | (suffices hx : Good pd x from ?_; (on_goal 1 => clear_value x); (on_goal 2 => simp only [x])) | skip) | split | simp only [id_eq] | simp only [good_mk])

theorem keep_execCcSlotDef {pd : List Instr × Prop × Prop} {core : BitVec 8} {a : BitVec 5} {imm : BitVec 32} {s : State} (h_s : Good pd s) :
    OutGood pd (execCcSlotDef core a imm s) := by
  unfold execCcSlotDef
  show Good pd _
  repeat' (first | with_reducible (first | assumption | apply good_of | (intro _) | apply keep_coreFault | apply keep_issue | apply keep_retire | apply good_ite | (refine good_snd (by assumption) ?_) | (refine good_fst (by assumption) ?_)) | (extract_lets +onlyGivenNames x; first | (suffices hx : Good pd x from ?_; (on_goal 1 => clear_value x); (on_goal 2 => simp only [x])) | skip) | split | simp only [id_eq] | simp only [good_mk])

theorem keep_slotOp {pd : List Instr × Prop × Prop} {op : Nat} {f : SlotDesc → SlotDesc} {core : BitVec 8} {imm : BitVec 32} {s : State} (h_s : Good pd s) :
    Good pd (slotOp op f core imm s) := by
  unfold slotOp
  repeat' (first | with_reducible (first | assumption | apply good_of | (intro _) | apply keep_coreFault | apply keep_issue | apply keep_retire | apply good_ite | (refine good_snd (by assumption) ?_) | (refine good_fst (by assumption) ?_)) | (extract_lets +onlyGivenNames x; first | (suffices hx : Good pd x from ?_; (on_goal 1 => clear_value x); (on_goal 2 => simp only [x])) | skip) | split | simp only [id_eq] | simp only [good_mk])

theorem keep_execCcSlotDrain {pd : List Instr × Prop × Prop} {core : BitVec 8} {imm : BitVec 32} {s : State} (h_s : Good pd s) :
    OutGood pd (execCcSlotDrain core imm s) := by
  unfold execCcSlotDrain
  show Good pd _
  repeat' (first | with_reducible (first | assumption | apply good_of | (intro _) | apply keep_slotOp | apply good_ite | (refine good_snd (by assumption) ?_) | (refine good_fst (by assumption) ?_)) | (extract_lets +onlyGivenNames x; first | (suffices hx : Good pd x from ?_; (on_goal 1 => clear_value x); (on_goal 2 => simp only [x])) | skip) | split | simp only [id_eq] | simp only [good_mk])

theorem keep_execCcSlotFill {pd : List Instr × Prop × Prop} {core : BitVec 8} {imm : BitVec 32} {s : State} (h_s : Good pd s) :
    OutGood pd (execCcSlotFill core imm s) := by
  unfold execCcSlotFill
  show Good pd _
  repeat' (first | with_reducible (first | assumption | apply good_of | (intro _) | apply keep_slotOp | apply good_ite | (refine good_snd (by assumption) ?_) | (refine good_fst (by assumption) ?_)) | (extract_lets +onlyGivenNames x; first | (suffices hx : Good pd x from ?_; (on_goal 1 => clear_value x); (on_goal 2 => simp only [x])) | skip) | split | simp only [id_eq] | simp only [good_mk])

theorem keep_execCcSlotFree {pd : List Instr × Prop × Prop} {core : BitVec 8} {imm : BitVec 32} {s : State} (h_s : Good pd s) :
    OutGood pd (execCcSlotFree core imm s) := by
  unfold execCcSlotFree
  show Good pd _
  repeat' (first | with_reducible (first | assumption | apply good_of | (intro _) | apply keep_slotOp | apply good_ite | (refine good_snd (by assumption) ?_) | (refine good_fst (by assumption) ?_)) | (extract_lets +onlyGivenNames x; first | (suffices hx : Good pd x from ?_; (on_goal 1 => clear_value x); (on_goal 2 => simp only [x])) | skip) | split | simp only [id_eq] | simp only [good_mk])

theorem keep_execCcSlotStat {pd : List Instr × Prop × Prop} {core : BitVec 8} {d : BitVec 5} {imm : BitVec 32} {s : State} (h_s : Good pd s) :
    OutGood pd (execCcSlotStat core d imm s) := by
  unfold execCcSlotStat
  show Good pd _
  repeat' (first | with_reducible (first | assumption | apply good_of | (intro _) | apply keep_issue | apply keep_retire | apply good_ite | (refine good_snd (by assumption) ?_) | (refine good_fst (by assumption) ?_)) | (extract_lets +onlyGivenNames x; first | (suffices hx : Good pd x from ?_; (on_goal 1 => clear_value x); (on_goal 2 => simp only [x])) | skip) | split | simp only [id_eq] | simp only [good_mk])

theorem keep_execCcVld {pd : List Instr × Prop × Prop} {core : BitVec 8} {d : BitVec 5} {a : BitVec 5} {m : BitVec 4} {imm : BitVec 32} {ecc : List (Nat × Bool)} {s : State} (h_s : Good pd s) :
    OutGood pd (execCcVld core d a m imm ecc s) := by
  unfold execCcVld
  show Good pd _
  repeat' (first | with_reducible (first | assumption | apply good_of | (intro _) | apply keep_issue | apply keep_vecLoadBody | apply good_ite | (refine good_snd (by assumption) ?_) | (refine good_fst (by assumption) ?_)) | (extract_lets +onlyGivenNames x; first | (suffices hx : Good pd x from ?_; (on_goal 1 => clear_value x); (on_goal 2 => simp only [x])) | skip) | split | simp only [id_eq] | simp only [good_mk])

theorem keep_execCcVst {pd : List Instr × Prop × Prop} {core : BitVec 8} {a : BitVec 5} {b : BitVec 5} {m : BitVec 4} {imm : BitVec 32} {s : State} (h_s : Good pd s) :
    OutGood pd (execCcVst core a b m imm s) := by
  unfold execCcVst
  show Good pd _
  repeat' (first | with_reducible (first | assumption | apply good_of | (intro _) | apply keep_issue | apply keep_vecStoreBody | apply good_ite | (refine good_snd (by assumption) ?_) | (refine good_fst (by assumption) ?_)) | (extract_lets +onlyGivenNames x; first | (suffices hx : Good pd x from ?_; (on_goal 1 => clear_value x); (on_goal 2 => simp only [x])) | skip) | split | simp only [id_eq] | simp only [good_mk])

theorem keep_execCcVlds {pd : List Instr × Prop × Prop} {core : BitVec 8} {d : BitVec 5} {a : BitVec 5} {b : BitVec 5} {m : BitVec 4} {imm : BitVec 32} {ecc : List (Nat × Bool)} {s : State} (h_s : Good pd s) :
    OutGood pd (execCcVlds core d a b m imm ecc s) := by
  unfold execCcVlds
  show Good pd _
  repeat' (first | with_reducible (first | assumption | apply good_of | (intro _) | apply keep_issue | apply keep_vecLoadBody | apply good_ite | (refine good_snd (by assumption) ?_) | (refine good_fst (by assumption) ?_)) | (extract_lets +onlyGivenNames x; first | (suffices hx : Good pd x from ?_; (on_goal 1 => clear_value x); (on_goal 2 => simp only [x])) | skip) | split | simp only [id_eq] | simp only [good_mk])

theorem keep_execCcVsts {pd : List Instr × Prop × Prop} {core : BitVec 8} {a : BitVec 5} {b : BitVec 5} {c : BitVec 5} {m : BitVec 4} {imm : BitVec 32} {s : State} (h_s : Good pd s) :
    OutGood pd (execCcVsts core a b c m imm s) := by
  unfold execCcVsts
  show Good pd _
  repeat' (first | with_reducible (first | assumption | apply good_of | (intro _) | apply keep_issue | apply keep_vecStoreBody | apply good_ite | (refine good_snd (by assumption) ?_) | (refine good_fst (by assumption) ?_)) | (extract_lets +onlyGivenNames x; first | (suffices hx : Good pd x from ?_; (on_goal 1 => clear_value x); (on_goal 2 => simp only [x])) | skip) | split | simp only [id_eq] | simp only [good_mk])

theorem keep_execCcVldt {pd : List Instr × Prop × Prop} {core : BitVec 8} {d : BitVec 5} {a : BitVec 5} {b : BitVec 5} {m : BitVec 4} {imm : BitVec 32} {ecc : List (Nat × Bool)} {s : State} (h_s : Good pd s) :
    OutGood pd (execCcVldt core d a b m imm ecc s) := by
  unfold execCcVldt
  show Good pd _
  repeat' (first | with_reducible (first | assumption | apply good_of | (intro _) | apply keep_issue | apply keep_vecLoadBody | apply good_ite | (refine good_snd (by assumption) ?_) | (refine good_fst (by assumption) ?_)) | (extract_lets +onlyGivenNames x; first | (suffices hx : Good pd x from ?_; (on_goal 1 => clear_value x); (on_goal 2 => simp only [x])) | skip) | split | simp only [id_eq] | simp only [good_mk])

theorem keep_execCcVgath {pd : List Instr × Prop × Prop} {core : BitVec 8} {d : BitVec 5} {a : BitVec 5} {b : BitVec 5} {m : BitVec 4} {imm : BitVec 32} {ecc : List (Nat × Bool)} {s : State} (h_s : Good pd s) :
    OutGood pd (execCcVgath core d a b m imm ecc s) := by
  unfold execCcVgath
  show Good pd _
  repeat' (first | with_reducible (first | assumption | apply good_of | (intro _) | apply keep_issue | apply keep_vecLoadBody | apply good_ite | (refine good_snd (by assumption) ?_) | (refine good_fst (by assumption) ?_)) | (extract_lets +onlyGivenNames x; first | (suffices hx : Good pd x from ?_; (on_goal 1 => clear_value x); (on_goal 2 => simp only [x])) | skip) | split | simp only [id_eq] | simp only [good_mk])

theorem keep_execRemoteWriteArrival {pd : List Instr × Prop × Prop} {core : BitVec 8} {target : BitVec 8} {s : State} (h_s : Good pd s) :
    OutGood pd (execRemoteWriteArrival core target s) := by
  unfold execRemoteWriteArrival
  show Good pd _
  repeat' (first | with_reducible (first | assumption | apply good_of | (intro _) | apply keep_modCore | apply keep_arrive | apply good_ite | (refine good_snd (by assumption) ?_) | (refine good_fst (by assumption) ?_)) | (extract_lets +onlyGivenNames x; first | (suffices hx : Good pd x from ?_; (on_goal 1 => clear_value x); (on_goal 2 => simp only [x])) | skip) | split | simp only [id_eq] | simp only [good_mk])

theorem keep_execRemoteReadReturn {pd : List Instr × Prop × Prop} {core : BitVec 8} {target : BitVec 8} {ecc : List (Nat × Bool)} {s : State} (h_s : Good pd s) :
    OutGood pd (execRemoteReadReturn core target ecc s) := by
  unfold execRemoteReadReturn
  show Good pd _
  repeat' (first | with_reducible (first | assumption | apply good_of | (intro _) | apply keep_modCore | apply keep_scratchEcc | apply good_ite | (refine good_snd (by assumption) ?_) | (refine good_fst (by assumption) ?_)) | (extract_lets +onlyGivenNames x; first | (suffices hx : Good pd x from ?_; (on_goal 1 => clear_value x); (on_goal 2 => simp only [x])) | skip) | split | simp only [id_eq] | simp only [good_mk])

theorem keep_execSlotWaitRelease {pd : List Instr × Prop × Prop} {core : BitVec 8} {ecc : List (Nat × Bool)} {s : State} (h_s : Good pd s) :
    OutGood pd (execSlotWaitRelease core ecc s) := by
  unfold execSlotWaitRelease
  show Good pd _
  repeat' (first | with_reducible (first | assumption | apply good_of | (intro _) | apply keep_modCore | apply keep_waitcBody | apply keep_ldBody | apply keep_vecLoadBody | apply good_ite | (refine good_snd (by assumption) ?_) | (refine good_fst (by assumption) ?_)) | (extract_lets +onlyGivenNames x; first | (suffices hx : Good pd x from ?_; (on_goal 1 => clear_value x); (on_goal 2 => simp only [x])) | skip) | split | simp only [id_eq] | simp only [good_mk])

theorem keep_scalar3 {pd : List Instr × Prop × Prop} {op : Nat} {f : BitVec 64 → BitVec 64 → BitVec 64} {core : BitVec 8} {d : BitVec 5} {a : BitVec 5} {b : BitVec 5} {s : State} (h_s : Good pd s) :
    Good pd (scalar3 op f core d a b s) := by
  unfold scalar3
  repeat' (first | with_reducible (first | assumption | apply good_of | (intro _) | apply keep_issue | apply keep_retire | apply good_ite | (refine good_snd (by assumption) ?_) | (refine good_fst (by assumption) ?_)) | (extract_lets +onlyGivenNames x; first | (suffices hx : Good pd x from ?_; (on_goal 1 => clear_value x); (on_goal 2 => simp only [x])) | skip) | split | simp only [id_eq] | simp only [good_mk])

theorem keep_scalarImm {pd : List Instr × Prop × Prop} {op : Nat} {f : BitVec 64 → BitVec 64 → BitVec 64} {core : BitVec 8} {d : BitVec 5} {a : BitVec 5} {imm : BitVec 32} {s : State} (h_s : Good pd s) :
    Good pd (scalarImm op f core d a imm s) := by
  unfold scalarImm
  repeat' (first | with_reducible (first | assumption | apply good_of | (intro _) | apply keep_issue | apply keep_retire | apply good_ite | (refine good_snd (by assumption) ?_) | (refine good_fst (by assumption) ?_)) | (extract_lets +onlyGivenNames x; first | (suffices hx : Good pd x from ?_; (on_goal 1 => clear_value x); (on_goal 2 => simp only [x])) | skip) | split | simp only [id_eq] | simp only [good_mk])

theorem keep_execCcAdd {pd : List Instr × Prop × Prop} {core : BitVec 8} {d : BitVec 5} {a : BitVec 5} {b : BitVec 5} {s : State} (h_s : Good pd s) :
    OutGood pd (execCcAdd core d a b s) := by
  unfold execCcAdd
  show Good pd _
  repeat' (first | with_reducible (first | assumption | apply good_of | (intro _) | apply keep_scalar3 | apply good_ite | (refine good_snd (by assumption) ?_) | (refine good_fst (by assumption) ?_)) | (extract_lets +onlyGivenNames x; first | (suffices hx : Good pd x from ?_; (on_goal 1 => clear_value x); (on_goal 2 => simp only [x])) | skip) | split | simp only [id_eq] | simp only [good_mk])

theorem keep_execCcSub {pd : List Instr × Prop × Prop} {core : BitVec 8} {d : BitVec 5} {a : BitVec 5} {b : BitVec 5} {s : State} (h_s : Good pd s) :
    OutGood pd (execCcSub core d a b s) := by
  unfold execCcSub
  show Good pd _
  repeat' (first | with_reducible (first | assumption | apply good_of | (intro _) | apply keep_scalar3 | apply good_ite | (refine good_snd (by assumption) ?_) | (refine good_fst (by assumption) ?_)) | (extract_lets +onlyGivenNames x; first | (suffices hx : Good pd x from ?_; (on_goal 1 => clear_value x); (on_goal 2 => simp only [x])) | skip) | split | simp only [id_eq] | simp only [good_mk])

theorem keep_execCcAnd {pd : List Instr × Prop × Prop} {core : BitVec 8} {d : BitVec 5} {a : BitVec 5} {b : BitVec 5} {s : State} (h_s : Good pd s) :
    OutGood pd (execCcAnd core d a b s) := by
  unfold execCcAnd
  show Good pd _
  repeat' (first | with_reducible (first | assumption | apply good_of | (intro _) | apply keep_scalar3 | apply good_ite | (refine good_snd (by assumption) ?_) | (refine good_fst (by assumption) ?_)) | (extract_lets +onlyGivenNames x; first | (suffices hx : Good pd x from ?_; (on_goal 1 => clear_value x); (on_goal 2 => simp only [x])) | skip) | split | simp only [id_eq] | simp only [good_mk])

theorem keep_execCcOr {pd : List Instr × Prop × Prop} {core : BitVec 8} {d : BitVec 5} {a : BitVec 5} {b : BitVec 5} {s : State} (h_s : Good pd s) :
    OutGood pd (execCcOr core d a b s) := by
  unfold execCcOr
  show Good pd _
  repeat' (first | with_reducible (first | assumption | apply good_of | (intro _) | apply keep_scalar3 | apply good_ite | (refine good_snd (by assumption) ?_) | (refine good_fst (by assumption) ?_)) | (extract_lets +onlyGivenNames x; first | (suffices hx : Good pd x from ?_; (on_goal 1 => clear_value x); (on_goal 2 => simp only [x])) | skip) | split | simp only [id_eq] | simp only [good_mk])

theorem keep_execCcXor {pd : List Instr × Prop × Prop} {core : BitVec 8} {d : BitVec 5} {a : BitVec 5} {b : BitVec 5} {s : State} (h_s : Good pd s) :
    OutGood pd (execCcXor core d a b s) := by
  unfold execCcXor
  show Good pd _
  repeat' (first | with_reducible (first | assumption | apply good_of | (intro _) | apply keep_scalar3 | apply good_ite | (refine good_snd (by assumption) ?_) | (refine good_fst (by assumption) ?_)) | (extract_lets +onlyGivenNames x; first | (suffices hx : Good pd x from ?_; (on_goal 1 => clear_value x); (on_goal 2 => simp only [x])) | skip) | split | simp only [id_eq] | simp only [good_mk])

theorem keep_execCcShl {pd : List Instr × Prop × Prop} {core : BitVec 8} {d : BitVec 5} {a : BitVec 5} {b : BitVec 5} {s : State} (h_s : Good pd s) :
    OutGood pd (execCcShl core d a b s) := by
  unfold execCcShl
  show Good pd _
  repeat' (first | with_reducible (first | assumption | apply good_of | (intro _) | apply keep_scalar3 | apply good_ite | (refine good_snd (by assumption) ?_) | (refine good_fst (by assumption) ?_)) | (extract_lets +onlyGivenNames x; first | (suffices hx : Good pd x from ?_; (on_goal 1 => clear_value x); (on_goal 2 => simp only [x])) | skip) | split | simp only [id_eq] | simp only [good_mk])

theorem keep_execCcShr {pd : List Instr × Prop × Prop} {core : BitVec 8} {d : BitVec 5} {a : BitVec 5} {b : BitVec 5} {s : State} (h_s : Good pd s) :
    OutGood pd (execCcShr core d a b s) := by
  unfold execCcShr
  show Good pd _
  repeat' (first | with_reducible (first | assumption | apply good_of | (intro _) | apply keep_scalar3 | apply good_ite | (refine good_snd (by assumption) ?_) | (refine good_fst (by assumption) ?_)) | (extract_lets +onlyGivenNames x; first | (suffices hx : Good pd x from ?_; (on_goal 1 => clear_value x); (on_goal 2 => simp only [x])) | skip) | split | simp only [id_eq] | simp only [good_mk])

theorem keep_execCcSra {pd : List Instr × Prop × Prop} {core : BitVec 8} {d : BitVec 5} {a : BitVec 5} {b : BitVec 5} {s : State} (h_s : Good pd s) :
    OutGood pd (execCcSra core d a b s) := by
  unfold execCcSra
  show Good pd _
  repeat' (first | with_reducible (first | assumption | apply good_of | (intro _) | apply keep_scalar3 | apply good_ite | (refine good_snd (by assumption) ?_) | (refine good_fst (by assumption) ?_)) | (extract_lets +onlyGivenNames x; first | (suffices hx : Good pd x from ?_; (on_goal 1 => clear_value x); (on_goal 2 => simp only [x])) | skip) | split | simp only [id_eq] | simp only [good_mk])

theorem keep_execCcMul {pd : List Instr × Prop × Prop} {core : BitVec 8} {d : BitVec 5} {a : BitVec 5} {b : BitVec 5} {s : State} (h_s : Good pd s) :
    OutGood pd (execCcMul core d a b s) := by
  unfold execCcMul
  show Good pd _
  repeat' (first | with_reducible (first | assumption | apply good_of | (intro _) | apply keep_scalar3 | apply good_ite | (refine good_snd (by assumption) ?_) | (refine good_fst (by assumption) ?_)) | (extract_lets +onlyGivenNames x; first | (suffices hx : Good pd x from ?_; (on_goal 1 => clear_value x); (on_goal 2 => simp only [x])) | skip) | split | simp only [id_eq] | simp only [good_mk])

theorem keep_execCcMin {pd : List Instr × Prop × Prop} {core : BitVec 8} {d : BitVec 5} {a : BitVec 5} {b : BitVec 5} {s : State} (h_s : Good pd s) :
    OutGood pd (execCcMin core d a b s) := by
  unfold execCcMin
  show Good pd _
  repeat' (first | with_reducible (first | assumption | apply good_of | (intro _) | apply keep_scalar3 | apply good_ite | (refine good_snd (by assumption) ?_) | (refine good_fst (by assumption) ?_)) | (extract_lets +onlyGivenNames x; first | (suffices hx : Good pd x from ?_; (on_goal 1 => clear_value x); (on_goal 2 => simp only [x])) | skip) | split | simp only [id_eq] | simp only [good_mk])

theorem keep_execCcMax {pd : List Instr × Prop × Prop} {core : BitVec 8} {d : BitVec 5} {a : BitVec 5} {b : BitVec 5} {s : State} (h_s : Good pd s) :
    OutGood pd (execCcMax core d a b s) := by
  unfold execCcMax
  show Good pd _
  repeat' (first | with_reducible (first | assumption | apply good_of | (intro _) | apply keep_scalar3 | apply good_ite | (refine good_snd (by assumption) ?_) | (refine good_fst (by assumption) ?_)) | (extract_lets +onlyGivenNames x; first | (suffices hx : Good pd x from ?_; (on_goal 1 => clear_value x); (on_goal 2 => simp only [x])) | skip) | split | simp only [id_eq] | simp only [good_mk])

theorem keep_execCcSlt {pd : List Instr × Prop × Prop} {core : BitVec 8} {d : BitVec 5} {a : BitVec 5} {b : BitVec 5} {s : State} (h_s : Good pd s) :
    OutGood pd (execCcSlt core d a b s) := by
  unfold execCcSlt
  show Good pd _
  repeat' (first | with_reducible (first | assumption | apply good_of | (intro _) | apply keep_scalar3 | apply good_ite | (refine good_snd (by assumption) ?_) | (refine good_fst (by assumption) ?_)) | (extract_lets +onlyGivenNames x; first | (suffices hx : Good pd x from ?_; (on_goal 1 => clear_value x); (on_goal 2 => simp only [x])) | skip) | split | simp only [id_eq] | simp only [good_mk])

theorem keep_execCcSltu {pd : List Instr × Prop × Prop} {core : BitVec 8} {d : BitVec 5} {a : BitVec 5} {b : BitVec 5} {s : State} (h_s : Good pd s) :
    OutGood pd (execCcSltu core d a b s) := by
  unfold execCcSltu
  show Good pd _
  repeat' (first | with_reducible (first | assumption | apply good_of | (intro _) | apply keep_scalar3 | apply good_ite | (refine good_snd (by assumption) ?_) | (refine good_fst (by assumption) ?_)) | (extract_lets +onlyGivenNames x; first | (suffices hx : Good pd x from ?_; (on_goal 1 => clear_value x); (on_goal 2 => simp only [x])) | skip) | split | simp only [id_eq] | simp only [good_mk])

theorem keep_execCcSeq {pd : List Instr × Prop × Prop} {core : BitVec 8} {d : BitVec 5} {a : BitVec 5} {b : BitVec 5} {s : State} (h_s : Good pd s) :
    OutGood pd (execCcSeq core d a b s) := by
  unfold execCcSeq
  show Good pd _
  repeat' (first | with_reducible (first | assumption | apply good_of | (intro _) | apply keep_scalar3 | apply good_ite | (refine good_snd (by assumption) ?_) | (refine good_fst (by assumption) ?_)) | (extract_lets +onlyGivenNames x; first | (suffices hx : Good pd x from ?_; (on_goal 1 => clear_value x); (on_goal 2 => simp only [x])) | skip) | split | simp only [id_eq] | simp only [good_mk])

theorem keep_execCcAddi {pd : List Instr × Prop × Prop} {core : BitVec 8} {d : BitVec 5} {a : BitVec 5} {imm : BitVec 32} {s : State} (h_s : Good pd s) :
    OutGood pd (execCcAddi core d a imm s) := by
  unfold execCcAddi
  show Good pd _
  repeat' (first | with_reducible (first | assumption | apply good_of | (intro _) | apply keep_scalarImm | apply good_ite | (refine good_snd (by assumption) ?_) | (refine good_fst (by assumption) ?_)) | (extract_lets +onlyGivenNames x; first | (suffices hx : Good pd x from ?_; (on_goal 1 => clear_value x); (on_goal 2 => simp only [x])) | skip) | split | simp only [id_eq] | simp only [good_mk])

theorem keep_execCcShli {pd : List Instr × Prop × Prop} {core : BitVec 8} {d : BitVec 5} {a : BitVec 5} {imm : BitVec 32} {s : State} (h_s : Good pd s) :
    OutGood pd (execCcShli core d a imm s) := by
  unfold execCcShli
  show Good pd _
  repeat' (first | with_reducible (first | assumption | apply good_of | (intro _) | apply keep_scalarImm | apply good_ite | (refine good_snd (by assumption) ?_) | (refine good_fst (by assumption) ?_)) | (extract_lets +onlyGivenNames x; first | (suffices hx : Good pd x from ?_; (on_goal 1 => clear_value x); (on_goal 2 => simp only [x])) | skip) | split | simp only [id_eq] | simp only [good_mk])

theorem keep_execCcShri {pd : List Instr × Prop × Prop} {core : BitVec 8} {d : BitVec 5} {a : BitVec 5} {imm : BitVec 32} {s : State} (h_s : Good pd s) :
    OutGood pd (execCcShri core d a imm s) := by
  unfold execCcShri
  show Good pd _
  repeat' (first | with_reducible (first | assumption | apply good_of | (intro _) | apply keep_scalarImm | apply good_ite | (refine good_snd (by assumption) ?_) | (refine good_fst (by assumption) ?_)) | (extract_lets +onlyGivenNames x; first | (suffices hx : Good pd x from ?_; (on_goal 1 => clear_value x); (on_goal 2 => simp only [x])) | skip) | split | simp only [id_eq] | simp only [good_mk])

theorem keep_execCcSrai {pd : List Instr × Prop × Prop} {core : BitVec 8} {d : BitVec 5} {a : BitVec 5} {imm : BitVec 32} {s : State} (h_s : Good pd s) :
    OutGood pd (execCcSrai core d a imm s) := by
  unfold execCcSrai
  show Good pd _
  repeat' (first | with_reducible (first | assumption | apply good_of | (intro _) | apply keep_scalarImm | apply good_ite | (refine good_snd (by assumption) ?_) | (refine good_fst (by assumption) ?_)) | (extract_lets +onlyGivenNames x; first | (suffices hx : Good pd x from ?_; (on_goal 1 => clear_value x); (on_goal 2 => simp only [x])) | skip) | split | simp only [id_eq] | simp only [good_mk])

theorem keep_execCcLi {pd : List Instr × Prop × Prop} {core : BitVec 8} {d : BitVec 5} {imm : BitVec 32} {s : State} (h_s : Good pd s) :
    OutGood pd (execCcLi core d imm s) := by
  unfold execCcLi
  show Good pd _
  repeat' (first | with_reducible (first | assumption | apply good_of | (intro _) | apply keep_issue | apply keep_retire | apply good_ite | (refine good_snd (by assumption) ?_) | (refine good_fst (by assumption) ?_)) | (extract_lets +onlyGivenNames x; first | (suffices hx : Good pd x from ?_; (on_goal 1 => clear_value x); (on_goal 2 => simp only [x])) | skip) | split | simp only [id_eq] | simp only [good_mk])

theorem keep_execCcLih {pd : List Instr × Prop × Prop} {core : BitVec 8} {d : BitVec 5} {imm : BitVec 32} {s : State} (h_s : Good pd s) :
    OutGood pd (execCcLih core d imm s) := by
  unfold execCcLih
  show Good pd _
  repeat' (first | with_reducible (first | assumption | apply good_of | (intro _) | apply keep_issue | apply keep_retire | apply good_ite | (refine good_snd (by assumption) ?_) | (refine good_fst (by assumption) ?_)) | (extract_lets +onlyGivenNames x; first | (suffices hx : Good pd x from ?_; (on_goal 1 => clear_value x); (on_goal 2 => simp only [x])) | skip) | split | simp only [id_eq] | simp only [good_mk])

theorem keep_execCcVext {pd : List Instr × Prop × Prop} {core : BitVec 8} {d : BitVec 5} {a : BitVec 5} {imm : BitVec 32} {s : State} (h_s : Good pd s) :
    OutGood pd (execCcVext core d a imm s) := by
  unfold execCcVext
  show Good pd _
  repeat' (first | with_reducible (first | assumption | apply good_of | (intro _) | apply keep_issue | apply keep_retire | apply good_ite | (refine good_snd (by assumption) ?_) | (refine good_fst (by assumption) ?_)) | (extract_lets +onlyGivenNames x; first | (suffices hx : Good pd x from ?_; (on_goal 1 => clear_value x); (on_goal 2 => simp only [x])) | skip) | split | simp only [id_eq] | simp only [good_mk])

theorem keep_execCcVins {pd : List Instr × Prop × Prop} {core : BitVec 8} {d : BitVec 5} {a : BitVec 5} {imm : BitVec 32} {s : State} (h_s : Good pd s) :
    OutGood pd (execCcVins core d a imm s) := by
  unfold execCcVins
  show Good pd _
  repeat' (first | with_reducible (first | assumption | apply good_of | (intro _) | apply keep_issue | apply keep_retire | apply good_ite | (refine good_snd (by assumption) ?_) | (refine good_fst (by assumption) ?_)) | (extract_lets +onlyGivenNames x; first | (suffices hx : Good pd x from ?_; (on_goal 1 => clear_value x); (on_goal 2 => simp only [x])) | skip) | split | simp only [id_eq] | simp only [good_mk])

theorem keep_vec3 {pd : List Instr × Prop × Prop} {op : Nat} {f : Word32 → Word32 → Word32} {core : BitVec 8} {d : BitVec 5} {a : BitVec 5} {b : BitVec 5} {m : BitVec 4} {s : State} (h_s : Good pd s) :
    Good pd (vec3 op f core d a b m s) := by
  unfold vec3
  repeat' (first | with_reducible (first | assumption | apply good_of | (intro _) | apply keep_issue | apply keep_retire | apply good_ite | (refine good_snd (by assumption) ?_) | (refine good_fst (by assumption) ?_)) | (extract_lets +onlyGivenNames x; first | (suffices hx : Good pd x from ?_; (on_goal 1 => clear_value x); (on_goal 2 => simp only [x])) | skip) | split | simp only [id_eq] | simp only [good_mk])

theorem keep_vec2 {pd : List Instr × Prop × Prop} {op : Nat} {f : Word32 → Word32} {core : BitVec 8} {d : BitVec 5} {a : BitVec 5} {s : State} (h_s : Good pd s) :
    Good pd (vec2 op f core d a s) := by
  unfold vec2
  repeat' (first | with_reducible (first | assumption | apply good_of | (intro _) | apply keep_issue | apply keep_retire | apply good_ite | (refine good_snd (by assumption) ?_) | (refine good_fst (by assumption) ?_)) | (extract_lets +onlyGivenNames x; first | (suffices hx : Good pd x from ?_; (on_goal 1 => clear_value x); (on_goal 2 => simp only [x])) | skip) | split | simp only [id_eq] | simp only [good_mk])

theorem keep_execCcVadd {pd : List Instr × Prop × Prop} {core : BitVec 8} {d : BitVec 5} {a : BitVec 5} {b : BitVec 5} {m : BitVec 4} {s : State} (h_s : Good pd s) :
    OutGood pd (execCcVadd core d a b m s) := by
  unfold execCcVadd
  show Good pd _
  repeat' (first | with_reducible (first | assumption | apply good_of | (intro _) | apply keep_vec3 | apply good_ite | (refine good_snd (by assumption) ?_) | (refine good_fst (by assumption) ?_)) | (extract_lets +onlyGivenNames x; first | (suffices hx : Good pd x from ?_; (on_goal 1 => clear_value x); (on_goal 2 => simp only [x])) | skip) | split | simp only [id_eq] | simp only [good_mk])

theorem keep_execCcVsub {pd : List Instr × Prop × Prop} {core : BitVec 8} {d : BitVec 5} {a : BitVec 5} {b : BitVec 5} {m : BitVec 4} {s : State} (h_s : Good pd s) :
    OutGood pd (execCcVsub core d a b m s) := by
  unfold execCcVsub
  show Good pd _
  repeat' (first | with_reducible (first | assumption | apply good_of | (intro _) | apply keep_vec3 | apply good_ite | (refine good_snd (by assumption) ?_) | (refine good_fst (by assumption) ?_)) | (extract_lets +onlyGivenNames x; first | (suffices hx : Good pd x from ?_; (on_goal 1 => clear_value x); (on_goal 2 => simp only [x])) | skip) | split | simp only [id_eq] | simp only [good_mk])

theorem keep_execCcVmul {pd : List Instr × Prop × Prop} {core : BitVec 8} {d : BitVec 5} {a : BitVec 5} {b : BitVec 5} {m : BitVec 4} {s : State} (h_s : Good pd s) :
    OutGood pd (execCcVmul core d a b m s) := by
  unfold execCcVmul
  show Good pd _
  repeat' (first | with_reducible (first | assumption | apply good_of | (intro _) | apply keep_vec3 | apply good_ite | (refine good_snd (by assumption) ?_) | (refine good_fst (by assumption) ?_)) | (extract_lets +onlyGivenNames x; first | (suffices hx : Good pd x from ?_; (on_goal 1 => clear_value x); (on_goal 2 => simp only [x])) | skip) | split | simp only [id_eq] | simp only [good_mk])

theorem keep_execCcVfma {pd : List Instr × Prop × Prop} {core : BitVec 8} {d : BitVec 5} {a : BitVec 5} {b : BitVec 5} {c : BitVec 5} {m : BitVec 4} {s : State} (h_s : Good pd s) :
    OutGood pd (execCcVfma core d a b c m s) := by
  unfold execCcVfma
  show Good pd _
  repeat' (first | with_reducible (first | assumption | apply good_of | (intro _) | apply keep_issue | apply keep_retire | apply good_ite | (refine good_snd (by assumption) ?_) | (refine good_fst (by assumption) ?_)) | (extract_lets +onlyGivenNames x; first | (suffices hx : Good pd x from ?_; (on_goal 1 => clear_value x); (on_goal 2 => simp only [x])) | skip) | split | simp only [id_eq] | simp only [good_mk])

theorem keep_execCcVmin {pd : List Instr × Prop × Prop} {core : BitVec 8} {d : BitVec 5} {a : BitVec 5} {b : BitVec 5} {m : BitVec 4} {s : State} (h_s : Good pd s) :
    OutGood pd (execCcVmin core d a b m s) := by
  unfold execCcVmin
  show Good pd _
  repeat' (first | with_reducible (first | assumption | apply good_of | (intro _) | apply keep_vec3 | apply good_ite | (refine good_snd (by assumption) ?_) | (refine good_fst (by assumption) ?_)) | (extract_lets +onlyGivenNames x; first | (suffices hx : Good pd x from ?_; (on_goal 1 => clear_value x); (on_goal 2 => simp only [x])) | skip) | split | simp only [id_eq] | simp only [good_mk])

theorem keep_execCcVmax {pd : List Instr × Prop × Prop} {core : BitVec 8} {d : BitVec 5} {a : BitVec 5} {b : BitVec 5} {m : BitVec 4} {s : State} (h_s : Good pd s) :
    OutGood pd (execCcVmax core d a b m s) := by
  unfold execCcVmax
  show Good pd _
  repeat' (first | with_reducible (first | assumption | apply good_of | (intro _) | apply keep_vec3 | apply good_ite | (refine good_snd (by assumption) ?_) | (refine good_fst (by assumption) ?_)) | (extract_lets +onlyGivenNames x; first | (suffices hx : Good pd x from ?_; (on_goal 1 => clear_value x); (on_goal 2 => simp only [x])) | skip) | split | simp only [id_eq] | simp only [good_mk])

theorem keep_execCcVabs {pd : List Instr × Prop × Prop} {core : BitVec 8} {d : BitVec 5} {a : BitVec 5} {s : State} (h_s : Good pd s) :
    OutGood pd (execCcVabs core d a s) := by
  unfold execCcVabs
  show Good pd _
  repeat' (first | with_reducible (first | assumption | apply good_of | (intro _) | apply keep_vec2 | apply good_ite | (refine good_snd (by assumption) ?_) | (refine good_fst (by assumption) ?_)) | (extract_lets +onlyGivenNames x; first | (suffices hx : Good pd x from ?_; (on_goal 1 => clear_value x); (on_goal 2 => simp only [x])) | skip) | split | simp only [id_eq] | simp only [good_mk])

theorem keep_execCcVneg {pd : List Instr × Prop × Prop} {core : BitVec 8} {d : BitVec 5} {a : BitVec 5} {s : State} (h_s : Good pd s) :
    OutGood pd (execCcVneg core d a s) := by
  unfold execCcVneg
  show Good pd _
  repeat' (first | with_reducible (first | assumption | apply good_of | (intro _) | apply keep_vec2 | apply good_ite | (refine good_snd (by assumption) ?_) | (refine good_fst (by assumption) ?_)) | (extract_lets +onlyGivenNames x; first | (suffices hx : Good pd x from ?_; (on_goal 1 => clear_value x); (on_goal 2 => simp only [x])) | skip) | split | simp only [id_eq] | simp only [good_mk])

theorem keep_execCcVcmp {pd : List Instr × Prop × Prop} {core : BitVec 8} {d : BitVec 5} {a : BitVec 5} {b : BitVec 5} {m : BitVec 4} {s : State} (h_s : Good pd s) :
    OutGood pd (execCcVcmp core d a b m s) := by
  unfold execCcVcmp
  show Good pd _
  repeat' (first | with_reducible (first | assumption | apply good_of | (intro _) | apply keep_issue | apply keep_retire | apply good_ite | (refine good_snd (by assumption) ?_) | (refine good_fst (by assumption) ?_)) | (extract_lets +onlyGivenNames x; first | (suffices hx : Good pd x from ?_; (on_goal 1 => clear_value x); (on_goal 2 => simp only [x])) | skip) | split | simp only [id_eq] | simp only [good_mk])

theorem keep_execCcVsel {pd : List Instr × Prop × Prop} {core : BitVec 8} {d : BitVec 5} {a : BitVec 5} {b : BitVec 5} {c : BitVec 5} {m : BitVec 4} {s : State} (h_s : Good pd s) :
    OutGood pd (execCcVsel core d a b c m s) := by
  unfold execCcVsel
  show Good pd _
  repeat' (first | with_reducible (first | assumption | apply good_of | (intro _) | apply keep_issue | apply keep_retire | apply good_ite | (refine good_snd (by assumption) ?_) | (refine good_fst (by assumption) ?_)) | (extract_lets +onlyGivenNames x; first | (suffices hx : Good pd x from ?_; (on_goal 1 => clear_value x); (on_goal 2 => simp only [x])) | skip) | split | simp only [id_eq] | simp only [good_mk])

theorem keep_execCcVexp {pd : List Instr × Prop × Prop} {core : BitVec 8} {d : BitVec 5} {a : BitVec 5} {s : State} (h_s : Good pd s) :
    OutGood pd (execCcVexp core d a s) := by
  unfold execCcVexp
  show Good pd _
  repeat' (first | with_reducible (first | assumption | apply good_of | (intro _) | apply keep_vec2 | apply good_ite | (refine good_snd (by assumption) ?_) | (refine good_fst (by assumption) ?_)) | (extract_lets +onlyGivenNames x; first | (suffices hx : Good pd x from ?_; (on_goal 1 => clear_value x); (on_goal 2 => simp only [x])) | skip) | split | simp only [id_eq] | simp only [good_mk])

theorem keep_execCcVrcp {pd : List Instr × Prop × Prop} {core : BitVec 8} {d : BitVec 5} {a : BitVec 5} {s : State} (h_s : Good pd s) :
    OutGood pd (execCcVrcp core d a s) := by
  unfold execCcVrcp
  show Good pd _
  repeat' (first | with_reducible (first | assumption | apply good_of | (intro _) | apply keep_vec2 | apply good_ite | (refine good_snd (by assumption) ?_) | (refine good_fst (by assumption) ?_)) | (extract_lets +onlyGivenNames x; first | (suffices hx : Good pd x from ?_; (on_goal 1 => clear_value x); (on_goal 2 => simp only [x])) | skip) | split | simp only [id_eq] | simp only [good_mk])

theorem keep_execCcVrsq {pd : List Instr × Prop × Prop} {core : BitVec 8} {d : BitVec 5} {a : BitVec 5} {s : State} (h_s : Good pd s) :
    OutGood pd (execCcVrsq core d a s) := by
  unfold execCcVrsq
  show Good pd _
  repeat' (first | with_reducible (first | assumption | apply good_of | (intro _) | apply keep_vec2 | apply good_ite | (refine good_snd (by assumption) ?_) | (refine good_fst (by assumption) ?_)) | (extract_lets +onlyGivenNames x; first | (suffices hx : Good pd x from ?_; (on_goal 1 => clear_value x); (on_goal 2 => simp only [x])) | skip) | split | simp only [id_eq] | simp only [good_mk])

theorem keep_execCcVdiv {pd : List Instr × Prop × Prop} {core : BitVec 8} {d : BitVec 5} {a : BitVec 5} {b : BitVec 5} {m : BitVec 4} {s : State} (h_s : Good pd s) :
    OutGood pd (execCcVdiv core d a b m s) := by
  unfold execCcVdiv
  show Good pd _
  repeat' (first | with_reducible (first | assumption | apply good_of | (intro _) | apply keep_vec3 | apply good_ite | (refine good_snd (by assumption) ?_) | (refine good_fst (by assumption) ?_)) | (extract_lets +onlyGivenNames x; first | (suffices hx : Good pd x from ?_; (on_goal 1 => clear_value x); (on_goal 2 => simp only [x])) | skip) | split | simp only [id_eq] | simp only [good_mk])

theorem keep_execCcVsqrt {pd : List Instr × Prop × Prop} {core : BitVec 8} {d : BitVec 5} {a : BitVec 5} {s : State} (h_s : Good pd s) :
    OutGood pd (execCcVsqrt core d a s) := by
  unfold execCcVsqrt
  show Good pd _
  repeat' (first | with_reducible (first | assumption | apply good_of | (intro _) | apply keep_vec2 | apply good_ite | (refine good_snd (by assumption) ?_) | (refine good_fst (by assumption) ?_)) | (extract_lets +onlyGivenNames x; first | (suffices hx : Good pd x from ?_; (on_goal 1 => clear_value x); (on_goal 2 => simp only [x])) | skip) | split | simp only [id_eq] | simp only [good_mk])

theorem keep_execCcVrnd {pd : List Instr × Prop × Prop} {core : BitVec 8} {d : BitVec 5} {a : BitVec 5} {m : BitVec 4} {s : State} (h_s : Good pd s) :
    OutGood pd (execCcVrnd core d a m s) := by
  unfold execCcVrnd
  show Good pd _
  repeat' (first | with_reducible (first | assumption | apply good_of | (intro _) | apply keep_issue | apply keep_retire | apply good_ite | (refine good_snd (by assumption) ?_) | (refine good_fst (by assumption) ?_)) | (extract_lets +onlyGivenNames x; first | (suffices hx : Good pd x from ?_; (on_goal 1 => clear_value x); (on_goal 2 => simp only [x])) | skip) | split | simp only [id_eq] | simp only [good_mk])

theorem keep_execCcVq {pd : List Instr × Prop × Prop} {core : BitVec 8} {d : BitVec 5} {a : BitVec 5} {b : BitVec 5} {m : BitVec 4} {s : State} (h_s : Good pd s) :
    OutGood pd (execCcVq core d a b m s) := by
  unfold execCcVq
  show Good pd _
  repeat' (first | with_reducible (first | assumption | apply good_of | (intro _) | apply keep_issue | apply keep_retire | apply good_ite | (refine good_snd (by assumption) ?_) | (refine good_fst (by assumption) ?_)) | (extract_lets +onlyGivenNames x; first | (suffices hx : Good pd x from ?_; (on_goal 1 => clear_value x); (on_goal 2 => simp only [x])) | skip) | split | simp only [id_eq] | simp only [good_mk])

theorem keep_execCcVperm {pd : List Instr × Prop × Prop} {core : BitVec 8} {d : BitVec 5} {a : BitVec 5} {b : BitVec 5} {s : State} (h_s : Good pd s) :
    OutGood pd (execCcVperm core d a b s) := by
  unfold execCcVperm
  show Good pd _
  repeat' (first | with_reducible (first | assumption | apply good_of | (intro _) | apply keep_issue | apply keep_retire | apply good_ite | (refine good_snd (by assumption) ?_) | (refine good_fst (by assumption) ?_)) | (extract_lets +onlyGivenNames x; first | (suffices hx : Good pd x from ?_; (on_goal 1 => clear_value x); (on_goal 2 => simp only [x])) | skip) | split | simp only [id_eq] | simp only [good_mk])

theorem keep_execCcVmov {pd : List Instr × Prop × Prop} {core : BitVec 8} {d : BitVec 5} {a : BitVec 5} {s : State} (h_s : Good pd s) :
    OutGood pd (execCcVmov core d a s) := by
  unfold execCcVmov
  show Good pd _
  repeat' (first | with_reducible (first | assumption | apply good_of | (intro _) | apply keep_vec2 | apply good_ite | (refine good_snd (by assumption) ?_) | (refine good_fst (by assumption) ?_)) | (extract_lets +onlyGivenNames x; first | (suffices hx : Good pd x from ?_; (on_goal 1 => clear_value x); (on_goal 2 => simp only [x])) | skip) | split | simp only [id_eq] | simp only [good_mk])

theorem keep_execCcVbc {pd : List Instr × Prop × Prop} {core : BitVec 8} {d : BitVec 5} {a : BitVec 5} {s : State} (h_s : Good pd s) :
    OutGood pd (execCcVbc core d a s) := by
  unfold execCcVbc
  show Good pd _
  repeat' (first | with_reducible (first | assumption | apply good_of | (intro _) | apply keep_issue | apply keep_retire | apply good_ite | (refine good_snd (by assumption) ?_) | (refine good_fst (by assumption) ?_)) | (extract_lets +onlyGivenNames x; first | (suffices hx : Good pd x from ?_; (on_goal 1 => clear_value x); (on_goal 2 => simp only [x])) | skip) | split | simp only [id_eq] | simp only [good_mk])

theorem keep_execCcVred {pd : List Instr × Prop × Prop} {core : BitVec 8} {d : BitVec 5} {a : BitVec 5} {m : BitVec 4} {s : State} (h_s : Good pd s) :
    OutGood pd (execCcVred core d a m s) := by
  unfold execCcVred
  show Good pd _
  repeat' (first | with_reducible (first | assumption | apply good_of | (intro _) | apply keep_issue | apply keep_retire | apply good_ite | (refine good_snd (by assumption) ?_) | (refine good_fst (by assumption) ?_)) | (extract_lets +onlyGivenNames x; first | (suffices hx : Good pd x from ?_; (on_goal 1 => clear_value x); (on_goal 2 => simp only [x])) | skip) | split | simp only [id_eq] | simp only [good_mk])

theorem keep_execCcKsum {pd : List Instr × Prop × Prop} {core : BitVec 8} {d : BitVec 5} {a : BitVec 5} {b : BitVec 5} {imm : BitVec 32} {s : State} (h_s : Good pd s) :
    OutGood pd (execCcKsum core d a b imm s) := by
  unfold execCcKsum
  show Good pd _
  repeat' (first | with_reducible (first | assumption | apply good_of | (intro _) | apply keep_coreFault | apply keep_issue | apply keep_retire | apply good_ite | (refine good_snd (by assumption) ?_) | (refine good_fst (by assumption) ?_)) | (extract_lets +onlyGivenNames x; first | (suffices hx : Good pd x from ?_; (on_goal 1 => clear_value x); (on_goal 2 => simp only [x])) | skip) | split | simp only [id_eq] | simp only [good_mk])

theorem keep_execCcVkadd {pd : List Instr × Prop × Prop} {core : BitVec 8} {d : BitVec 5} {a : BitVec 5} {c : BitVec 5} {s : State} (h_s : Good pd s) :
    OutGood pd (execCcVkadd core d a c s) := by
  unfold execCcVkadd
  show Good pd _
  repeat' (first | with_reducible (first | assumption | apply good_of | (intro _) | apply keep_issue | apply keep_retire | apply good_ite | (refine good_snd (by assumption) ?_) | (refine good_fst (by assumption) ?_)) | (extract_lets +onlyGivenNames x; first | (suffices hx : Good pd x from ?_; (on_goal 1 => clear_value x); (on_goal 2 => simp only [x])) | skip) | split | simp only [id_eq] | simp only [good_mk])

theorem keep_execCcKcomb {pd : List Instr × Prop × Prop} {core : BitVec 8} {d : BitVec 5} {a : BitVec 5} {b : BitVec 5} {s : State} (h_s : Good pd s) :
    OutGood pd (execCcKcomb core d a b s) := by
  unfold execCcKcomb
  show Good pd _
  repeat' (first | with_reducible (first | assumption | apply good_of | (intro _) | apply keep_issue | apply keep_retire | apply good_ite | (refine good_snd (by assumption) ?_) | (refine good_fst (by assumption) ?_)) | (extract_lets +onlyGivenNames x; first | (suffices hx : Good pd x from ?_; (on_goal 1 => clear_value x); (on_goal 2 => simp only [x])) | skip) | split | simp only [id_eq] | simp only [good_mk])

theorem keep_execCcKfin {pd : List Instr × Prop × Prop} {core : BitVec 8} {d : BitVec 5} {a : BitVec 5} {s : State} (h_s : Good pd s) :
    OutGood pd (execCcKfin core d a s) := by
  unfold execCcKfin
  show Good pd _
  repeat' (first | with_reducible (first | assumption | apply good_of | (intro _) | apply keep_issue | apply keep_retire | apply good_ite | (refine good_snd (by assumption) ?_) | (refine good_fst (by assumption) ?_)) | (extract_lets +onlyGivenNames x; first | (suffices hx : Good pd x from ?_; (on_goal 1 => clear_value x); (on_goal 2 => simp only [x])) | skip) | split | simp only [id_eq] | simp only [good_mk])

theorem keep_execDynamicAddressAssign {pd : List Instr × Prop × Prop} {addr : BitVec 7} {s : State} (h_s : Good pd s) :
    OutGood pd (execDynamicAddressAssign addr s) := by
  unfold execDynamicAddressAssign
  show Good pd _
  repeat' (first | with_reducible (first | assumption | apply good_of | (intro _) | apply good_ite | (refine good_snd (by assumption) ?_) | (refine good_fst (by assumption) ?_)) | (extract_lets +onlyGivenNames x; first | (suffices hx : Good pd x from ?_; (on_goal 1 => clear_value x); (on_goal 2 => simp only [x])) | skip) | split | simp only [id_eq] | simp only [good_mk])

theorem keep_execSetEndpointId {pd : List Instr × Prop × Prop} {eid : BitVec 8} {s : State} (h_s : Good pd s) :
    OutGood pd (execSetEndpointId eid s) := by
  unfold execSetEndpointId
  show Good pd _
  repeat' (first | with_reducible (first | assumption | apply good_of | (intro _) | apply keep_emit | apply good_ite | (refine good_snd (by assumption) ?_) | (refine good_fst (by assumption) ?_)) | (extract_lets +onlyGivenNames x; first | (suffices hx : Good pd x from ?_; (on_goal 1 => clear_value x); (on_goal 2 => simp only [x])) | skip) | split | simp only [id_eq] | simp only [good_mk])

theorem keep_execGetEndpointId {pd : List Instr × Prop × Prop} {s : State} (h_s : Good pd s) :
    OutGood pd (execGetEndpointId s) := by
  unfold execGetEndpointId
  show Good pd _
  repeat' (first | with_reducible (first | assumption | apply good_of | (intro _) | apply keep_emit | apply good_ite | (refine good_snd (by assumption) ?_) | (refine good_fst (by assumption) ?_)) | (extract_lets +onlyGivenNames x; first | (suffices hx : Good pd x from ?_; (on_goal 1 => clear_value x); (on_goal 2 => simp only [x])) | skip) | split | simp only [id_eq] | simp only [good_mk])

theorem keep_execGetMctpVersionSupport {pd : List Instr × Prop × Prop} {type : BitVec 8} {s : State} (h_s : Good pd s) :
    OutGood pd (execGetMctpVersionSupport type s) := by
  unfold execGetMctpVersionSupport
  show Good pd _
  repeat' (first | with_reducible (first | assumption | apply good_of | (intro _) | apply keep_emit | apply good_ite | (refine good_snd (by assumption) ?_) | (refine good_fst (by assumption) ?_)) | (extract_lets +onlyGivenNames x; first | (suffices hx : Good pd x from ?_; (on_goal 1 => clear_value x); (on_goal 2 => simp only [x])) | skip) | split | simp only [id_eq] | simp only [good_mk])

theorem keep_execGetMessageTypeSupport {pd : List Instr × Prop × Prop} {s : State} (h_s : Good pd s) :
    OutGood pd (execGetMessageTypeSupport s) := by
  unfold execGetMessageTypeSupport
  show Good pd _
  repeat' (first | with_reducible (first | assumption | apply good_of | (intro _) | apply keep_emit | apply good_ite | (refine good_snd (by assumption) ?_) | (refine good_fst (by assumption) ?_)) | (extract_lets +onlyGivenNames x; first | (suffices hx : Good pd x from ?_; (on_goal 1 => clear_value x); (on_goal 2 => simp only [x])) | skip) | split | simp only [id_eq] | simp only [good_mk])

theorem keep_execGetVendorMessageSupport {pd : List Instr × Prop × Prop} {s : State} (h_s : Good pd s) :
    OutGood pd (execGetVendorMessageSupport s) := by
  unfold execGetVendorMessageSupport
  show Good pd _
  repeat' (first | with_reducible (first | assumption | apply good_of | (intro _) | apply keep_emit | apply good_ite | (refine good_snd (by assumption) ?_) | (refine good_fst (by assumption) ?_)) | (extract_lets +onlyGivenNames x; first | (suffices hx : Good pd x from ?_; (on_goal 1 => clear_value x); (on_goal 2 => simp only [x])) | skip) | split | simp only [id_eq] | simp only [good_mk])

theorem keep_execPldmSensorRead {pd : List Instr × Prop × Prop} {id : BitVec 16} {s : State} (h_s : Good pd s) :
    OutGood pd (execPldmSensorRead id s) := by
  unfold execPldmSensorRead
  show Good pd _
  repeat' (first | with_reducible (first | assumption | apply good_of | (intro _) | apply keep_emit | apply good_ite | (refine good_snd (by assumption) ?_) | (refine good_fst (by assumption) ?_)) | (extract_lets +onlyGivenNames x; first | (suffices hx : Good pd x from ?_; (on_goal 1 => clear_value x); (on_goal 2 => simp only [x])) | skip) | split | simp only [id_eq] | simp only [good_mk])

theorem keep_execPldmBaseRequest {pd : List Instr × Prop × Prop} {command : BitVec 8} {s : State} (h_s : Good pd s) :
    OutGood pd (execPldmBaseRequest command s) := by
  unfold execPldmBaseRequest
  show Good pd _
  repeat' (first | with_reducible (first | assumption | apply good_of | (intro _) | apply keep_emit | apply keep_command | apply keep_sendMessage | apply keep_complete | apply keep_raiseEvent | apply keep_sendOn | apply keep_modFetched | apply keep_stage | apply good_ite | (refine good_snd (by assumption) ?_) | (refine good_fst (by assumption) ?_)) | (extract_lets +onlyGivenNames x; first | (suffices hx : Good pd x from ?_; (on_goal 1 => clear_value x); (on_goal 2 => simp only [x])) | skip) | split | simp only [id_eq] | simp only [good_mk])

theorem keep_execPldmFruRequest {pd : List Instr × Prop × Prop} {command : BitVec 8} {s : State} (h_s : Good pd s) :
    OutGood pd (execPldmFruRequest command s) := by
  unfold execPldmFruRequest
  show Good pd _
  repeat' (first | with_reducible (first | assumption | apply good_of | (intro _) | apply keep_emit | apply keep_command | apply keep_sendMessage | apply keep_complete | apply keep_raiseEvent | apply keep_sendOn | apply keep_modFetched | apply keep_stage | apply good_ite | (refine good_snd (by assumption) ?_) | (refine good_fst (by assumption) ?_)) | (extract_lets +onlyGivenNames x; first | (suffices hx : Good pd x from ?_; (on_goal 1 => clear_value x); (on_goal 2 => simp only [x])) | skip) | split | simp only [id_eq] | simp only [good_mk])

theorem keep_execSetEventReceiver {pd : List Instr × Prop × Prop} {eid : BitVec 8} {s : State} (h_s : Good pd s) :
    OutGood pd (execSetEventReceiver eid s) := by
  unfold execSetEventReceiver
  show Good pd _
  repeat' (first | with_reducible (first | assumption | apply good_of | (intro _) | apply keep_emit | apply good_ite | (refine good_snd (by assumption) ?_) | (refine good_fst (by assumption) ?_)) | (extract_lets +onlyGivenNames x; first | (suffices hx : Good pd x from ?_; (on_goal 1 => clear_value x); (on_goal 2 => simp only [x])) | skip) | split | simp only [id_eq] | simp only [good_mk])

theorem keep_eventDelivered {pd : List Instr × Prop × Prop} {s : State} (h_s : Good pd s) :
    Good pd (eventDelivered s) := by
  unfold eventDelivered
  repeat' (first | with_reducible (first | assumption | apply good_of | (intro _) | apply keep_mgmtFreed | apply good_ite | (refine good_snd (by assumption) ?_) | (refine good_fst (by assumption) ?_)) | (extract_lets +onlyGivenNames x; first | (suffices hx : Good pd x from ?_; (on_goal 1 => clear_value x); (on_goal 2 => simp only [x])) | skip) | split | simp only [id_eq] | simp only [good_mk])

theorem keep_execPollForPlatformEvent {pd : List Instr × Prop × Prop} {s : State} (h_s : Good pd s) :
    OutGood pd (execPollForPlatformEvent s) := by
  unfold execPollForPlatformEvent
  show Good pd _
  repeat' (first | with_reducible (first | assumption | apply good_of | (intro _) | apply keep_emit | apply keep_eventDelivered | apply good_ite | (refine good_snd (by assumption) ?_) | (refine good_fst (by assumption) ?_)) | (extract_lets +onlyGivenNames x; first | (suffices hx : Good pd x from ?_; (on_goal 1 => clear_value x); (on_goal 2 => simp only [x])) | skip) | split | simp only [id_eq] | simp only [good_mk])

theorem keep_execPlatformEventSend {pd : List Instr × Prop × Prop} {answered : Bool} {s : State} (h_s : Good pd s) :
    OutGood pd (execPlatformEventSend answered s) := by
  unfold execPlatformEventSend
  show Good pd _
  repeat' (first | with_reducible (first | assumption | apply good_of | (intro _) | apply keep_emit | apply keep_eventDelivered | apply keep_answered | apply good_ite | (refine good_snd (by assumption) ?_) | (refine good_fst (by assumption) ?_)) | (extract_lets +onlyGivenNames x; first | (suffices hx : Good pd x from ?_; (on_goal 1 => clear_value x); (on_goal 2 => simp only [x])) | skip) | split | simp only [id_eq] | simp only [good_mk])

theorem keep_execPlatformEventTimeout {pd : List Instr × Prop × Prop} {s : State} (h_s : Good pd s) :
    OutGood pd (execPlatformEventTimeout s) := by
  unfold execPlatformEventTimeout
  show Good pd _
  repeat' (first | with_reducible (first | assumption | apply good_of | (intro _) | apply keep_emit | apply good_ite | (refine good_snd (by assumption) ?_) | (refine good_fst (by assumption) ?_)) | (extract_lets +onlyGivenNames x; first | (suffices hx : Good pd x from ?_; (on_goal 1 => clear_value x); (on_goal 2 => simp only [x])) | skip) | split | simp only [id_eq] | simp only [good_mk])

theorem keep_execSumpRead {pd : List Instr × Prop × Prop} {index : BitVec 32} {count : BitVec 8} {s : State} (h_s : Good pd s) :
    OutGood pd (execSumpRead index count s) := by
  unfold execSumpRead
  show Good pd _
  repeat' (first | with_reducible (first | assumption | apply good_of | (intro _) | apply keep_emit | apply good_ite | (refine good_snd (by assumption) ?_) | (refine good_fst (by assumption) ?_)) | (extract_lets +onlyGivenNames x; first | (suffices hx : Good pd x from ?_; (on_goal 1 => clear_value x); (on_goal 2 => simp only [x])) | skip) | split | simp only [id_eq] | simp only [good_mk])

theorem keep_execMgmtStatus {pd : List Instr × Prop × Prop} {s : State} (h_s : Good pd s) :
    OutGood pd (execMgmtStatus s) := by
  unfold execMgmtStatus
  show Good pd _
  repeat' (first | with_reducible (first | assumption | apply good_of | (intro _) | apply keep_emit | apply good_ite | (refine good_snd (by assumption) ?_) | (refine good_fst (by assumption) ?_)) | (extract_lets +onlyGivenNames x; first | (suffices hx : Good pd x from ?_; (on_goal 1 => clear_value x); (on_goal 2 => simp only [x])) | skip) | split | simp only [id_eq] | simp only [good_mk])

theorem keep_spdmAnswer {pd : List Instr × Prop × Prop} {s : State} {via : Via} {code : Nat} {body : List Byte} (h_s : Good pd s) :
    Good pd (spdmAnswer s via code body) := by
  unfold spdmAnswer
  repeat' (first | with_reducible (first | assumption | apply good_of | (intro _) | apply keep_emit | apply good_ite | (refine good_snd (by assumption) ?_) | (refine good_fst (by assumption) ?_)) | (extract_lets +onlyGivenNames x; first | (suffices hx : Good pd x from ?_; (on_goal 1 => clear_value x); (on_goal 2 => simp only [x])) | skip) | split | simp only [id_eq] | simp only [good_mk])

theorem keep_spdmError {pd : List Instr × Prop × Prop} {s : State} {via : Via} {code : Nat} (h_s : Good pd s) :
    Good pd (spdmError s via code) := by
  unfold spdmError
  repeat' (first | with_reducible (first | assumption | apply good_of | (intro _) | apply keep_spdmAnswer | apply good_ite | (refine good_snd (by assumption) ?_) | (refine good_fst (by assumption) ?_)) | (extract_lets +onlyGivenNames x; first | (suffices hx : Good pd x from ?_; (on_goal 1 => clear_value x); (on_goal 2 => simp only [x])) | skip) | split | simp only [id_eq] | simp only [good_mk])

theorem keep_spdmServe {pd : List Instr × Prop × Prop} {s : State} {via : Via} {ready : Bool} {f : State → State} (h_s : Good pd s) (h_f : ∀ x0, Good pd x0 → Good pd (f x0)) :
    Good pd (spdmServe s via ready f) := by
  unfold spdmServe
  repeat' (first | with_reducible (first | assumption | apply good_of | (intro _) | apply keep_spdmError | apply h_f | apply good_ite | (refine good_snd (by assumption) ?_) | (refine good_fst (by assumption) ?_)) | (extract_lets +onlyGivenNames x; first | (suffices hx : Good pd x from ?_; (on_goal 1 => clear_value x); (on_goal 2 => simp only [x])) | skip) | split | simp only [id_eq] | simp only [good_mk])

theorem keep_execSpdmGetVersion {pd : List Instr × Prop × Prop} {via : Via} {s : State} (h_s : Good pd s) :
    OutGood pd (execSpdmGetVersion via s) := by
  unfold execSpdmGetVersion
  show Good pd _
  repeat' (first | with_reducible (first | assumption | apply good_of | (intro _) | apply keep_spdmAnswer | apply keep_spdmServe | apply good_ite | (refine good_snd (by assumption) ?_) | (refine good_fst (by assumption) ?_)) | (extract_lets +onlyGivenNames x; first | (suffices hx : Good pd x from ?_; (on_goal 1 => clear_value x); (on_goal 2 => simp only [x])) | skip) | split | simp only [id_eq] | simp only [good_mk])

theorem keep_execSpdmGetCapabilities {pd : List Instr × Prop × Prop} {via : Via} {s : State} (h_s : Good pd s) :
    OutGood pd (execSpdmGetCapabilities via s) := by
  unfold execSpdmGetCapabilities
  show Good pd _
  repeat' (first | with_reducible (first | assumption | apply good_of | (intro _) | apply keep_spdmAnswer | apply keep_spdmServe | apply good_ite | (refine good_snd (by assumption) ?_) | (refine good_fst (by assumption) ?_)) | (extract_lets +onlyGivenNames x; first | (suffices hx : Good pd x from ?_; (on_goal 1 => clear_value x); (on_goal 2 => simp only [x])) | skip) | split | simp only [id_eq] | simp only [good_mk])

theorem keep_execSpdmNegotiateAlgorithms {pd : List Instr × Prop × Prop} {via : Via} {s : State} (h_s : Good pd s) :
    OutGood pd (execSpdmNegotiateAlgorithms via s) := by
  unfold execSpdmNegotiateAlgorithms
  show Good pd _
  repeat' (first | with_reducible (first | assumption | apply good_of | (intro _) | apply keep_spdmAnswer | apply keep_spdmServe | apply good_ite | (refine good_snd (by assumption) ?_) | (refine good_fst (by assumption) ?_)) | (extract_lets +onlyGivenNames x; first | (suffices hx : Good pd x from ?_; (on_goal 1 => clear_value x); (on_goal 2 => simp only [x])) | skip) | split | simp only [id_eq] | simp only [good_mk])

theorem keep_execSpdmGetDigests {pd : List Instr × Prop × Prop} {via : Via} {s : State} (h_s : Good pd s) :
    OutGood pd (execSpdmGetDigests via s) := by
  unfold execSpdmGetDigests
  show Good pd _
  repeat' (first | with_reducible (first | assumption | apply good_of | (intro _) | apply keep_spdmAnswer | apply keep_spdmServe | apply good_ite | (refine good_snd (by assumption) ?_) | (refine good_fst (by assumption) ?_)) | (extract_lets +onlyGivenNames x; first | (suffices hx : Good pd x from ?_; (on_goal 1 => clear_value x); (on_goal 2 => simp only [x])) | skip) | split | simp only [id_eq] | simp only [good_mk])

theorem keep_execSpdmGetCertificate {pd : List Instr × Prop × Prop} {via : Via} {slot : BitVec 8} {offset : BitVec 16} {length : BitVec 16} {s : State} (h_s : Good pd s) :
    OutGood pd (execSpdmGetCertificate via slot offset length s) := by
  unfold execSpdmGetCertificate
  show Good pd _
  repeat' (first | with_reducible (first | assumption | apply good_of | (intro _) | apply keep_spdmAnswer | apply keep_spdmError | apply keep_spdmServe | apply good_ite | (refine good_snd (by assumption) ?_) | (refine good_fst (by assumption) ?_)) | (extract_lets +onlyGivenNames x; first | (suffices hx : Good pd x from ?_; (on_goal 1 => clear_value x); (on_goal 2 => simp only [x])) | skip) | split | simp only [id_eq] | simp only [good_mk])

theorem keep_execSpdmChallenge {pd : List Instr × Prop × Prop} {via : Via} {slot : BitVec 8} {nonce : List Byte} {s : State} (h_s : Good pd s) :
    OutGood pd (execSpdmChallenge via slot nonce s) := by
  unfold execSpdmChallenge
  show Good pd _
  repeat' (first | with_reducible (first | assumption | apply good_of | (intro _) | apply keep_spdmAnswer | apply keep_spdmError | apply keep_spdmServe | apply good_ite | (refine good_snd (by assumption) ?_) | (refine good_fst (by assumption) ?_)) | (extract_lets +onlyGivenNames x; first | (suffices hx : Good pd x from ?_; (on_goal 1 => clear_value x); (on_goal 2 => simp only [x])) | skip) | split | simp only [id_eq] | simp only [good_mk])

theorem keep_execSpdmGetMeasurements {pd : List Instr × Prop × Prop} {via : Via} {index : BitVec 8} {s : State} (h_s : Good pd s) :
    OutGood pd (execSpdmGetMeasurements via index s) := by
  unfold execSpdmGetMeasurements
  show Good pd _
  repeat' (first | with_reducible (first | assumption | apply good_of | (intro _) | apply keep_spdmAnswer | apply keep_spdmError | apply keep_spdmServe | apply good_ite | (refine good_snd (by assumption) ?_) | (refine good_fst (by assumption) ?_)) | (extract_lets +onlyGivenNames x; first | (suffices hx : Good pd x from ?_; (on_goal 1 => clear_value x); (on_goal 2 => simp only [x])) | skip) | split | simp only [id_eq] | simp only [good_mk])

theorem keep_execSpdmKeyExchange {pd : List Instr × Prop × Prop} {via : Via} {s : State} (h_s : Good pd s) :
    OutGood pd (execSpdmKeyExchange via s) := by
  unfold execSpdmKeyExchange
  show Good pd _
  repeat' (first | with_reducible (first | assumption | apply good_of | (intro _) | apply keep_spdmAnswer | apply keep_spdmError | apply keep_spdmServe | apply good_ite | (refine good_snd (by assumption) ?_) | (refine good_fst (by assumption) ?_)) | (extract_lets +onlyGivenNames x; first | (suffices hx : Good pd x from ?_; (on_goal 1 => clear_value x); (on_goal 2 => simp only [x])) | skip) | split | simp only [id_eq] | simp only [good_mk])

theorem keep_execSpdmFinish {pd : List Instr × Prop × Prop} {via : Via} {sid : BitVec 32} {s : State} (h_s : Good pd s) :
    OutGood pd (execSpdmFinish via sid s) := by
  unfold execSpdmFinish
  show Good pd _
  repeat' (first | with_reducible (first | assumption | apply good_of | (intro _) | apply keep_spdmAnswer | apply keep_spdmError | apply keep_spdmServe | apply good_ite | (refine good_snd (by assumption) ?_) | (refine good_fst (by assumption) ?_)) | (extract_lets +onlyGivenNames x; first | (suffices hx : Good pd x from ?_; (on_goal 1 => clear_value x); (on_goal 2 => simp only [x])) | skip) | split | simp only [id_eq] | simp only [good_mk])

theorem keep_execSpdmHeartbeat {pd : List Instr × Prop × Prop} {via : Via} {sid : BitVec 32} {s : State} (h_s : Good pd s) :
    OutGood pd (execSpdmHeartbeat via sid s) := by
  unfold execSpdmHeartbeat
  show Good pd _
  repeat' (first | with_reducible (first | assumption | apply good_of | (intro _) | apply keep_spdmAnswer | apply keep_spdmError | apply keep_spdmServe | apply good_ite | (refine good_snd (by assumption) ?_) | (refine good_fst (by assumption) ?_)) | (extract_lets +onlyGivenNames x; first | (suffices hx : Good pd x from ?_; (on_goal 1 => clear_value x); (on_goal 2 => simp only [x])) | skip) | split | simp only [id_eq] | simp only [good_mk])

theorem keep_execSpdmKeyUpdate {pd : List Instr × Prop × Prop} {via : Via} {sid : BitVec 32} {s : State} (h_s : Good pd s) :
    OutGood pd (execSpdmKeyUpdate via sid s) := by
  unfold execSpdmKeyUpdate
  show Good pd _
  repeat' (first | with_reducible (first | assumption | apply good_of | (intro _) | apply keep_spdmAnswer | apply keep_spdmError | apply keep_spdmServe | apply good_ite | (refine good_snd (by assumption) ?_) | (refine good_fst (by assumption) ?_)) | (extract_lets +onlyGivenNames x; first | (suffices hx : Good pd x from ?_; (on_goal 1 => clear_value x); (on_goal 2 => simp only [x])) | skip) | split | simp only [id_eq] | simp only [good_mk])

theorem keep_execSpdmEndSession {pd : List Instr × Prop × Prop} {via : Via} {sid : BitVec 32} {s : State} (h_s : Good pd s) :
    OutGood pd (execSpdmEndSession via sid s) := by
  unfold execSpdmEndSession
  show Good pd _
  repeat' (first | with_reducible (first | assumption | apply good_of | (intro _) | apply keep_spdmAnswer | apply keep_spdmError | apply keep_spdmServe | apply good_ite | (refine good_snd (by assumption) ?_) | (refine good_fst (by assumption) ?_)) | (extract_lets +onlyGivenNames x; first | (suffices hx : Good pd x from ?_; (on_goal 1 => clear_value x); (on_goal 2 => simp only [x])) | skip) | split | simp only [id_eq] | simp only [good_mk])

theorem keep_dropPort {pd : List Instr × Prop × Prop} {s : State} {p : Nat} (h_s : Good pd s) :
    Good pd (dropPort s p) := by
  unfold dropPort
  repeat' (first | with_reducible (first | assumption | apply good_of | (intro _) | apply keep_modLink | apply good_ite | (refine good_snd (by assumption) ?_) | (refine good_fst (by assumption) ?_)) | (extract_lets +onlyGivenNames x; first | (suffices hx : Good pd x from ?_; (on_goal 1 => clear_value x); (on_goal 2 => simp only [x])) | skip) | split | simp only [id_eq] | simp only [good_mk])

theorem keep_retireForChange {pd : List Instr × Prop × Prop} {s : State} (h_s : Good pd s) :
    Good pd (retireForChange s) := by
  unfold retireForChange
  repeat' (first | with_reducible (first | assumption | apply good_of | (intro _) | apply good_ite | (refine good_snd (by assumption) ?_) | (refine good_fst (by assumption) ?_)) | (extract_lets +onlyGivenNames x; first | (suffices hx : Good pd x from ?_; (on_goal 1 => clear_value x); (on_goal 2 => simp only [x])) | skip) | split | simp only [id_eq] | simp only [good_mk])

theorem keep_beginChange {pd : List Instr × Prop × Prop} {s : State} {cause : Nat} {trip : Bool} (h_s : Good pd s) :
    Good pd (beginChange s cause trip) := by
  unfold beginChange
  repeat' (first | with_reducible (first | assumption | apply good_of | (intro _) | apply keep_trip | apply keep_startElect | apply keep_startBringup | apply keep_changeDiscards | apply keep_retireForChange | apply good_ite | (refine good_snd (by assumption) ?_) | (refine good_fst (by assumption) ?_)) | (extract_lets +onlyGivenNames x; first | (suffices hx : Good pd x from ?_; (on_goal 1 => clear_value x); (on_goal 2 => simp only [x])) | skip) | split | simp only [id_eq] | simp only [good_mk])

theorem keep_linkDown {pd : List Instr × Prop × Prop} {s : State} {p : Nat} {cause : Nat} (h_s : Good pd s) :
    Good pd (linkDown s p cause) := by
  unfold linkDown
  repeat' (first | with_reducible (first | assumption | apply good_of | (intro _) | apply keep_raiseEvent | apply keep_startBringup | apply keep_dropPort | apply keep_beginChange | apply good_ite | (refine good_snd (by assumption) ?_) | (refine good_fst (by assumption) ?_)) | (extract_lets +onlyGivenNames x; first | (suffices hx : Good pd x from ?_; (on_goal 1 => clear_value x); (on_goal 2 => simp only [x])) | skip) | split | simp only [id_eq] | simp only [good_mk])

theorem keep_trainLanes {pd : List Instr × Prop × Prop} {s : State} {p : Nat} {good : List Nat} {ks : List Nat} (h_s : Good pd s) :
    Good pd (trainLanes s p good ks) := by
  unfold trainLanes
  repeat' (first | with_reducible (first | assumption | apply good_of | (intro _) | apply keep_modLink | apply keep_trainFail | apply keep_raiseEvent | apply good_ite | (refine good_snd (by assumption) ?_) | (refine good_fst (by assumption) ?_)) | (extract_lets +onlyGivenNames x; first | (suffices hx : Good pd x from ?_; (on_goal 1 => clear_value x); (on_goal 2 => simp only [x])) | skip) | split | simp only [id_eq] | simp only [good_mk])

theorem keep_keyPort {pd : List Instr × Prop × Prop} {s : State} {p : Nat} {auth : Nat} {serial : BitVec 64} {wants : Bool} (h_s : Good pd s) :
    Good pd (keyPort s p auth serial wants) := by
  unfold keyPort
  repeat' (first | with_reducible (first | assumption | apply good_of | (intro _) | apply keep_modLink | apply keep_sendImage | apply keep_trainFail | apply keep_raiseEvent | apply keep_startElect | apply keep_newKey | apply good_ite | (refine good_snd (by assumption) ?_) | (refine good_fst (by assumption) ?_)) | (extract_lets +onlyGivenNames x; first | (suffices hx : Good pd x from ?_; (on_goal 1 => clear_value x); (on_goal 2 => simp only [x])) | skip) | split | simp only [id_eq] | simp only [good_mk])

theorem keep_execLinkBringup {pd : List Instr × Prop × Prop} {port : BitVec 2} {lanes : BitVec 32} {kept : BitVec 4} {auth : BitVec 2} {serial : BitVec 64} {wants : Bool} {s : State} (h_s : Good pd s) :
    OutGood pd (execLinkBringup port lanes kept auth serial wants s) := by
  unfold execLinkBringup
  show Good pd _
  repeat' (first | with_reducible (first | assumption | apply good_of | (intro _) | apply keep_trainLanes | apply keep_keyPort | apply good_ite | (refine good_snd (by assumption) ?_) | (refine good_fst (by assumption) ?_)) | (extract_lets +onlyGivenNames x; first | (suffices hx : Good pd x from ?_; (on_goal 1 => clear_value x); (on_goal 2 => simp only [x])) | skip) | split | simp only [id_eq] | simp only [good_mk])

theorem keep_execLinkLightLoss {pd : List Instr × Prop × Prop} {port : BitVec 2} {fec : Bool} {s : State} (h_s : Good pd s) :
    OutGood pd (execLinkLightLoss port fec s) := by
  unfold execLinkLightLoss
  show Good pd _
  repeat' (first | with_reducible (first | assumption | apply good_of | (intro _) | apply keep_linkDown | apply good_ite | (refine good_snd (by assumption) ?_) | (refine good_fst (by assumption) ?_)) | (extract_lets +onlyGivenNames x; first | (suffices hx : Good pd x from ?_; (on_goal 1 => clear_value x); (on_goal 2 => simp only [x])) | skip) | split | simp only [id_eq] | simp only [good_mk])

theorem keep_execLinkSilence {pd : List Instr × Prop × Prop} {port : BitVec 2} {s : State} (h_s : Good pd s) :
    OutGood pd (execLinkSilence port s) := by
  unfold execLinkSilence
  show Good pd _
  repeat' (first | with_reducible (first | assumption | apply good_of | (intro _) | apply keep_linkDown | apply good_ite | (refine good_snd (by assumption) ?_) | (refine good_fst (by assumption) ?_)) | (extract_lets +onlyGivenNames x; first | (suffices hx : Good pd x from ?_; (on_goal 1 => clear_value x); (on_goal 2 => simp only [x])) | skip) | split | simp only [id_eq] | simp only [good_mk])

theorem keep_execRetimeWander {pd : List Instr × Prop × Prop} {port : BitVec 2} {s : State} (h_s : Good pd s) :
    OutGood pd (execRetimeWander port s) := by
  unfold execRetimeWander
  show Good pd _
  repeat' (first | with_reducible (first | assumption | apply good_of | (intro _) | apply keep_linkDown | apply good_ite | (refine good_snd (by assumption) ?_) | (refine good_fst (by assumption) ?_)) | (extract_lets +onlyGivenNames x; first | (suffices hx : Good pd x from ?_; (on_goal 1 => clear_value x); (on_goal 2 => simp only [x])) | skip) | split | simp only [id_eq] | simp only [good_mk])

theorem keep_resend {pd : List Instr × Prop × Prop} {p : Nat} {s : State} {e : Nat × Nat × CreditFlit} (h_s : Good pd s) :
    Good pd (resend p s e) := by
  unfold resend
  repeat' (first | with_reducible (first | assumption | apply good_of | (intro _) | apply keep_modLink | apply keep_sendCredit | apply keep_raiseEvent | apply good_ite | (refine good_snd (by assumption) ?_) | (refine good_fst (by assumption) ?_)) | (extract_lets +onlyGivenNames x; first | (suffices hx : Good pd x from ?_; (on_goal 1 => clear_value x); (on_goal 2 => simp only [x])) | skip) | split | simp only [id_eq] | simp only [good_mk])

theorem keep_linkReturn {pd : List Instr × Prop × Prop} {s : State} {p : Nat} {ack : Nat} {nak : Bool} {credits : Nat} {cls : Nat} (h_s : Good pd s) :
    Good pd (linkReturn s p ack nak credits cls) := by
  unfold linkReturn
  repeat' (first | with_reducible (first | assumption | apply good_of | (intro _) | apply keep_modLink | apply keep_forEach | apply keep_drainCredits | apply keep_linkDown | apply keep_resend | apply good_ite | (refine good_snd (by assumption) ?_) | (refine good_fst (by assumption) ?_)) | (extract_lets +onlyGivenNames x; first | (suffices hx : Good pd x from ?_; (on_goal 1 => clear_value x); (on_goal 2 => simp only [x])) | skip) | split | simp only [id_eq] | simp only [good_mk])

theorem keep_execIdleFlit {pd : List Instr × Prop × Prop} {port : BitVec 2} {ack : BitVec 12} {nak : Bool} {credits : BitVec 10} {cclass : Bool} {s : State} (h_s : Good pd s) :
    OutGood pd (execIdleFlit port ack nak credits cclass s) := by
  unfold execIdleFlit
  show Good pd _
  repeat' (first | with_reducible (first | assumption | apply good_of | (intro _) | apply keep_linkReturn | apply good_ite | (refine good_snd (by assumption) ?_) | (refine good_fst (by assumption) ?_)) | (extract_lets +onlyGivenNames x; first | (suffices hx : Good pd x from ?_; (on_goal 1 => clear_value x); (on_goal 2 => simp only [x])) | skip) | split | simp only [id_eq] | simp only [good_mk])

theorem keep_malformed {pd : List Instr × Prop × Prop} {s : State} {packet : List Byte} (h_s : Good pd s) :
    Good pd (malformed s packet) := by
  unfold malformed
  repeat' (first | with_reducible (first | assumption | apply good_of | (intro _) | apply keep_freeze | (simp only [pgCc, pgHp, pgMs, pgRi]; split <;> decide) | (simp only [pgCc, pgHp, pgMs, pgRi]; omega) | apply good_ite | (refine good_snd (by assumption) ?_) | (refine good_fst (by assumption) ?_)) | (extract_lets +onlyGivenNames x; first | (suffices hx : Good pd x from ?_; (on_goal 1 => clear_value x); (on_goal 2 => simp only [x])) | skip) | split | simp only [id_eq] | simp only [good_mk])

theorem keep_packetArrived {pd : List Instr × Prop × Prop} {s : State} {bytes : List Byte} {flits : Nat} (h_s : Good pd s) :
    Good pd (packetArrived s bytes flits) := by
  unfold packetArrived
  repeat' (first | with_reducible (first | assumption | apply good_of | (intro _) | apply keep_malformed | apply good_ite | (refine good_snd (by assumption) ?_) | (refine good_fst (by assumption) ?_)) | (extract_lets +onlyGivenNames x; first | (suffices hx : Good pd x from ?_; (on_goal 1 => clear_value x); (on_goal 2 => simp only [x])) | skip) | split | simp only [id_eq] | simp only [good_mk])

theorem keep_setAssembly {pd : List Instr × Prop × Prop} {s : State} {p : Nat} {cls : Nat} {v : Option (List Byte)} (h_s : Good pd s) :
    Good pd (setAssembly s p cls v) := by
  unfold setAssembly
  repeat' (first | with_reducible (first | assumption | apply good_of | (intro _) | apply keep_modLink | apply good_ite | (refine good_snd (by assumption) ?_) | (refine good_fst (by assumption) ?_)) | (extract_lets +onlyGivenNames x; first | (suffices hx : Good pd x from ?_; (on_goal 1 => clear_value x); (on_goal 2 => simp only [x])) | skip) | split | simp only [id_eq] | simp only [good_mk])

theorem keep_consumeFlit {pd : List Instr × Prop × Prop} {s : State} {p cls : Nat} {first last : Bool} {body : List Byte} (h_s : Good pd s) :
    Good pd (consumeFlit s p cls first last body) := by
  unfold consumeFlit
  extract_lets held s1
  have h1 : Good pd s1 := by
    simp only [s1]
    clear_value held
    split
    · exact keep_malformed (keep_setAssembly h_s)
    · exact h_s
  clear_value s1
  split
  · exact h1
  · extract_lets new
    split
    · exact keep_packetArrived (keep_setAssembly h1)
    · split
      · exact keep_malformed (keep_setAssembly h1)
      · exact keep_setAssembly h1

theorem keep_execCreditFlit {pd : List Instr × Prop × Prop} {port : BitVec 2} {cls : Bool} {seq : BitVec 12} {dst : BitVec 6} {first : Bool} {last : Bool} {body : List (BitVec 8)} {crcOk : Bool} {s : State} (h_s : Good pd s) :
    OutGood pd (execCreditFlit port cls seq dst first last body crcOk s) := by
  unfold execCreditFlit
  show Good pd _
  repeat' (first | with_reducible (first | assumption | apply good_of | (intro _) | apply keep_modLink | apply keep_sendReturn | apply keep_queueCredit | apply keep_consumeFlit | apply good_ite | (refine good_snd (by assumption) ?_) | (refine good_fst (by assumption) ?_)) | (extract_lets +onlyGivenNames x; first | (suffices hx : Good pd x from ?_; (on_goal 1 => clear_value x); (on_goal 2 => simp only [x])) | skip) | split | simp only [id_eq] | simp only [good_mk])

theorem keep_execTagWindowClose {pd : List Instr × Prop × Prop} {port : BitVec 2} {s : State} (h_s : Good pd s) :
    OutGood pd (execTagWindowClose port s) := by
  unfold execTagWindowClose
  show Good pd _
  repeat' (first | with_reducible (first | assumption | apply good_of | (intro _) | apply keep_modLink | apply keep_forEach | apply keep_sendControl | apply good_ite | (refine good_snd (by assumption) ?_) | (refine good_fst (by assumption) ?_)) | (extract_lets +onlyGivenNames x; first | (suffices hx : Good pd x from ?_; (on_goal 1 => clear_value x); (on_goal 2 => simp only [x])) | skip) | split | simp only [id_eq] | simp only [good_mk])

theorem keep_execTagFlit {pd : List Instr × Prop × Prop} {port : BitVec 2} {_window : BitVec 64} {ok : Bool} {crcOk : Bool} {s : State} (h_s : Good pd s) :
    OutGood pd (execTagFlit port _window ok crcOk s) := by
  unfold execTagFlit
  show Good pd _
  repeat' (first | with_reducible (first | assumption | apply good_of | (intro _) | apply keep_raiseEvent | apply keep_linkDown | apply good_ite | (refine good_snd (by assumption) ?_) | (refine good_fst (by assumption) ?_)) | (extract_lets +onlyGivenNames x; first | (suffices hx : Good pd x from ?_; (on_goal 1 => clear_value x); (on_goal 2 => simp only [x])) | skip) | split | simp only [id_eq] | simp only [good_mk])

theorem keep_claimsDone {pd : List Instr × Prop × Prop} {s : State} {n : Nat} (h_s : Good pd s) :
    Good pd (claimsDone s n) := by
  unfold claimsDone
  repeat' (first | with_reducible (first | assumption | apply good_of | (intro _) | apply keep_trainFail | apply keep_pllRetarget | apply keep_startMeasure | apply good_ite | (refine good_snd (by assumption) ?_) | (refine good_fst (by assumption) ?_)) | (extract_lets +onlyGivenNames x; first | (suffices hx : Good pd x from ?_; (on_goal 1 => clear_value x); (on_goal 2 => simp only [x])) | skip) | split | simp only [id_eq] | simp only [good_mk])

theorem keep_joinElect {pd : List Instr × Prop × Prop} {s : State} (h_s : Good pd s) :
    Good pd (joinElect s) := by
  unfold joinElect
  repeat' (first | with_reducible (first | assumption | apply good_of | (intro _) | apply keep_startElect | apply good_ite | (refine good_snd (by assumption) ?_) | (refine good_fst (by assumption) ?_)) | (extract_lets +onlyGivenNames x; first | (suffices hx : Good pd x from ?_; (on_goal 1 => clear_value x); (on_goal 2 => simp only [x])) | skip) | split | simp only [id_eq] | simp only [good_mk])

theorem keep_execClaimFlit {pd : List Instr × Prop × Prop} {hfSel : Bool} {candidate : Bool} {serial : BitVec 64} {maxRtb : BitVec 64} {hops : BitVec 8} {crcOk : Bool} {s : State} (h_s : Good pd s) :
    OutGood pd (execClaimFlit hfSel candidate serial maxRtb hops crcOk s) := by
  unfold execClaimFlit
  show Good pd _
  repeat' (first | with_reducible (first | assumption | apply good_of | (intro _) | apply keep_sendControl | apply keep_claimsDone | apply keep_joinElect | apply good_ite | (refine good_snd (by assumption) ?_) | (refine good_fst (by assumption) ?_)) | (extract_lets +onlyGivenNames x; first | (suffices hx : Good pd x from ?_; (on_goal 1 => clear_value x); (on_goal 2 => simp only [x])) | skip) | split | simp only [id_eq] | simp only [good_mk])

theorem keep_setRtb {pd : List Instr × Prop × Prop} {s : State} {cycles : Nat} (h_s : Good pd s) :
    Good pd (setRtb s cycles) := by
  unfold setRtb
  repeat' (first | with_reducible (first | assumption | apply good_of | (intro _) | apply good_ite | (refine good_snd (by assumption) ?_) | (refine good_fst (by assumption) ?_)) | (extract_lets +onlyGivenNames x; first | (suffices hx : Good pd x from ?_; (on_goal 1 => clear_value x); (on_goal 2 => simp only [x])) | skip) | split | simp only [id_eq] | simp only [good_mk])

theorem keep_execTimeFlit {pd : List Instr × Prop × Prop} {port : BitVec 2} {mode : BitVec 2} {count : BitVec 64} {stamp : BitVec 64} {delay : BitVec 16} {crcOk : Bool} {s : State} (h_s : Good pd s) :
    OutGood pd (execTimeFlit port mode count stamp delay crcOk s) := by
  unfold execTimeFlit
  show Good pd _
  repeat' (first | with_reducible (first | assumption | apply good_of | (intro _) | apply keep_sendControl | apply keep_trip | apply keep_setRtb | apply good_ite | (refine good_snd (by assumption) ?_) | (refine good_fst (by assumption) ?_)) | (extract_lets +onlyGivenNames x; first | (suffices hx : Good pd x from ?_; (on_goal 1 => clear_value x); (on_goal 2 => simp only [x])) | skip) | split | simp only [id_eq] | simp only [good_mk])

theorem keep_execMembershipChange {pd : List Instr × Prop × Prop} {cause : BitVec 8} {trip : Bool} {s : State} (h_s : Good pd s) :
    OutGood pd (execMembershipChange cause trip s) := by
  unfold execMembershipChange
  show Good pd _
  repeat' (first | with_reducible (first | assumption | apply good_of | (intro _) | apply keep_trip | apply keep_beginChange | apply good_ite | (refine good_snd (by assumption) ?_) | (refine good_fst (by assumption) ?_)) | (extract_lets +onlyGivenNames x; first | (suffices hx : Good pd x from ?_; (on_goal 1 => clear_value x); (on_goal 2 => simp only [x])) | skip) | split | simp only [id_eq] | simp only [good_mk])

theorem keep_renumberDone {pd : List Instr × Prop × Prop} {s : State} {old : List Member} {ms : List Member} (h_s : Good pd s) :
    Good pd (renumberDone s old ms) := by
  unfold renumberDone
  repeat' (first | with_reducible (first | assumption | apply good_of | (intro _) | apply good_ite | (refine good_snd (by assumption) ?_) | (refine good_fst (by assumption) ?_)) | (extract_lets +onlyGivenNames x; first | (suffices hx : Good pd x from ?_; (on_goal 1 => clear_value x); (on_goal 2 => simp only [x])) | skip) | split | simp only [id_eq] | simp only [good_mk])

theorem keep_reformSolo {pd : List Instr × Prop × Prop} {s : State} {cause : Nat} (h_s : Good pd s) :
    Good pd (reformSolo s cause) := by
  unfold reformSolo
  repeat' (first | with_reducible (first | assumption | apply good_of | (intro _) | apply keep_raiseEvent | apply keep_changeDiscards | apply keep_retireForChange | apply keep_renumberDone | apply good_ite | (refine good_snd (by assumption) ?_) | (refine good_fst (by assumption) ?_)) | (extract_lets +onlyGivenNames x; first | (suffices hx : Good pd x from ?_; (on_goal 1 => clear_value x); (on_goal 2 => simp only [x])) | skip) | split | simp only [id_eq] | simp only [good_mk])

theorem keep_execTrainingPhaseTimeout {pd : List Instr × Prop × Prop} {s : State} (h_s : Good pd s) :
    OutGood pd (execTrainingPhaseTimeout s) := by
  unfold execTrainingPhaseTimeout
  show Good pd _
  repeat' (first | with_reducible (first | assumption | apply good_of | (intro _) | apply keep_trainFail | apply keep_reformSolo | apply good_ite | (refine good_snd (by assumption) ?_) | (refine good_fst (by assumption) ?_)) | (extract_lets +onlyGivenNames x; first | (suffices hx : Good pd x from ?_; (on_goal 1 => clear_value x); (on_goal 2 => simp only [x])) | skip) | split | simp only [id_eq] | simp only [good_mk])

theorem keep_execTrainingRetry {pd : List Instr × Prop × Prop} {s : State} (h_s : Good pd s) :
    OutGood pd (execTrainingRetry s) := by
  unfold execTrainingRetry
  show Good pd _
  repeat' (first | with_reducible (first | assumption | apply good_of | (intro _) | apply keep_startElect | apply keep_startBringup | apply good_ite | (refine good_snd (by assumption) ?_) | (refine good_fst (by assumption) ?_)) | (extract_lets +onlyGivenNames x; first | (suffices hx : Good pd x from ?_; (on_goal 1 => clear_value x); (on_goal 2 => simp only [x])) | skip) | split | simp only [id_eq] | simp only [good_mk])

theorem keep_resolveOwners {pd : List Instr × Prop × Prop} {s : State} {reports : List (Nat × Nat × BitVec 128 × Bool)} (h_s : Good pd s) :
    Good pd (resolveOwners s reports) := by
  unfold resolveOwners
  repeat' (first | with_reducible (first | assumption | apply good_of | (intro _) | apply keep_setOwner | apply keep_modSlot | apply keep_forEach | apply keep_raiseEvent | apply keep_unbindOwner | apply keep_destroyKey | apply keep_fillSlot | apply good_ite | (refine good_snd (by assumption) ?_) | (refine good_fst (by assumption) ?_)) | (extract_lets +onlyGivenNames x; first | (suffices hx : Good pd x from ?_; (on_goal 1 => clear_value x); (on_goal 2 => simp only [x])) | skip) | split | simp only [id_eq] | simp only [good_mk])

theorem keep_startIdleRounds {pd : List Instr × Prop × Prop} {s : State} (h_s : Good pd s) :
    Good pd (startIdleRounds s) := by
  unfold startIdleRounds
  repeat' (first | with_reducible (first | assumption | apply good_of | (intro _) | apply good_ite | (refine good_snd (by assumption) ?_) | (refine good_fst (by assumption) ?_)) | (extract_lets +onlyGivenNames x; first | (suffices hx : Good pd x from ?_; (on_goal 1 => clear_value x); (on_goal 2 => simp only [x])) | skip) | split | simp only [id_eq] | simp only [good_mk])

theorem keep_abortDeparted {pd : List Instr × Prop × Prop} {s : State} {old : List Member} {ms : List Member} (h_s : Good pd s) :
    Good pd (abortDeparted s old ms) := by
  unfold abortDeparted
  repeat' (first | with_reducible (first | assumption | apply good_of | (intro _) | apply keep_forEach | apply keep_complete | apply good_ite | (refine good_snd (by assumption) ?_) | (refine good_fst (by assumption) ?_)) | (extract_lets +onlyGivenNames x; first | (suffices hx : Good pd x from ?_; (on_goal 1 => clear_value x); (on_goal 2 => simp only [x])) | skip) | split | simp only [id_eq] | simp only [good_mk])

theorem keep_execMembershipPublish {pd : List Instr × Prop × Prop} {report : List (BitVec 64 × BitVec 256 × List (BitVec 6) × BitVec 16)}
    {generation cause : BitVec 8} {owners : List (BitVec 8 × BitVec 6 × BitVec 128 × Bool)} {s : State} (h_s : Good pd s) :
    OutGood pd (execMembershipPublish report generation cause owners s) := by
  unfold execMembershipPublish
  show Good pd _
  split
  · exact h_s
  · extract_lets +onlyGivenNames raw0 raw ms
    split
    · exact h_s
    · refine good_ite h_s (good_ite (keep_trainFail h_s) ?_)
      extract_lets +onlyGivenNames same trained
      have ht : ∀ {t : State}, Good pd t → Good pd (trained t) := fun h => good_mk.2 (good_of h)
      refine good_ite (ht h_s) ?_
      extract_lets +onlyGivenNames s1 s2 r s3
      have h3 : Good pd s3 := good_ite (keep_retireForChange (ht (keep_renumberDone (keep_abortDeparted h_s))))
        (ht (keep_renumberDone (keep_abortDeparted h_s)))
      clear_value s3 r s2 s1 trained
      extract_lets +onlyGivenNames src s4 s5 s6
      have h6 : Good pd s6 := keep_resolveOwners (keep_raiseEvent (good_mk.2 (good_of h3)))
      clear_value s6
      exact keep_startIdleRounds (good_ite (keep_enterReady h6) h6)

theorem keep_execCrosscutClose {pd : List Instr × Prop × Prop} {s : State} (h_s : Good pd s) :
    OutGood pd (execCrosscutClose s) := by
  unfold execCrosscutClose
  show Good pd _
  repeat' (first | with_reducible (first | assumption | apply good_of | (intro _) | apply keep_closeCrosscut | apply good_ite | (refine good_snd (by assumption) ?_) | (refine good_fst (by assumption) ?_)) | (extract_lets +onlyGivenNames x; first | (suffices hx : Good pd x from ?_; (on_goal 1 => clear_value x); (on_goal 2 => simp only [x])) | skip) | split | simp only [id_eq] | simp only [good_mk])

theorem keep_execCrosscutSettled {pd : List Instr × Prop × Prop} {light : Bool} {s : State} (h_s : Good pd s) :
    OutGood pd (execCrosscutSettled light s) := by
  unfold execCrosscutSettled
  show Good pd _
  repeat' (first | with_reducible (first | assumption | apply good_of | (intro _) | apply keep_startBringup | apply keep_beginChange | apply keep_renumberDone | apply keep_abortDeparted | apply good_ite | (refine good_snd (by assumption) ?_) | (refine good_fst (by assumption) ?_)) | (extract_lets +onlyGivenNames x; first | (suffices hx : Good pd x from ?_; (on_goal 1 => clear_value x); (on_goal 2 => simp only [x])) | skip) | split | simp only [id_eq] | simp only [good_mk])

theorem keep_writeRiTrain {pd : List Instr × Prop × Prop} {s : State} {a : Accessor} {v : Nat} (h_s : Good pd s) :
    Good pd (writeRiTrain s a v) := by
  unfold writeRiTrain
  repeat' (first | with_reducible (first | assumption | apply good_of | (intro _) | apply keep_broadcast | apply keep_closeCrosscut | apply keep_openCrosscut | apply keep_beginChange | apply keep_reformSolo | apply good_ite | (refine good_snd (by assumption) ?_) | (refine good_fst (by assumption) ?_)) | (extract_lets +onlyGivenNames x; first | (suffices hx : Good pd x from ?_; (on_goal 1 => clear_value x); (on_goal 2 => simp only [x])) | skip) | split | simp only [id_eq] | simp only [good_mk])

theorem keep_execRiJoin {pd : List Instr × Prop × Prop} {a : Accessor} {value : BitVec 32} {s : State} (h_s : Good pd s) :
    OutGood pd (execRiJoin a value s) := by
  unfold execRiJoin
  show Good pd _
  repeat' (first | with_reducible (first | assumption | apply good_of | (intro _) | apply keep_writeRiTrain | apply good_ite | (refine good_snd (by assumption) ?_) | (refine good_fst (by assumption) ?_)) | (extract_lets +onlyGivenNames x; first | (suffices hx : Good pd x from ?_; (on_goal 1 => clear_value x); (on_goal 2 => simp only [x])) | skip) | split | simp only [id_eq] | simp only [good_mk])

theorem keep_execRiLeave {pd : List Instr × Prop × Prop} {a : Accessor} {value : BitVec 32} {s : State} (h_s : Good pd s) :
    OutGood pd (execRiLeave a value s) := by
  unfold execRiLeave
  show Good pd _
  repeat' (first | with_reducible (first | assumption | apply good_of | (intro _) | apply keep_writeRiTrain | apply good_ite | (refine good_snd (by assumption) ?_) | (refine good_fst (by assumption) ?_)) | (extract_lets +onlyGivenNames x; first | (suffices hx : Good pd x from ?_; (on_goal 1 => clear_value x); (on_goal 2 => simp only [x])) | skip) | split | simp only [id_eq] | simp only [good_mk])

theorem keep_execRiRetrain {pd : List Instr × Prop × Prop} {a : Accessor} {value : BitVec 32} {s : State} (h_s : Good pd s) :
    OutGood pd (execRiRetrain a value s) := by
  unfold execRiRetrain
  show Good pd _
  repeat' (first | with_reducible (first | assumption | apply good_of | (intro _) | apply keep_writeRiTrain | apply good_ite | (refine good_snd (by assumption) ?_) | (refine good_fst (by assumption) ?_)) | (extract_lets +onlyGivenNames x; first | (suffices hx : Good pd x from ?_; (on_goal 1 => clear_value x); (on_goal 2 => simp only [x])) | skip) | split | simp only [id_eq] | simp only [good_mk])

theorem keep_execRingJoin {pd : List Instr × Prop × Prop} {s : State} (h_s : Good pd s) :
    OutGood pd (execRingJoin s) := by
  unfold execRingJoin
  show Good pd _
  repeat' (first | with_reducible (first | assumption | apply good_of | (intro _) | apply keep_emit | apply keep_writeRiTrain | apply good_ite | (refine good_snd (by assumption) ?_) | (refine good_fst (by assumption) ?_)) | (extract_lets +onlyGivenNames x; first | (suffices hx : Good pd x from ?_; (on_goal 1 => clear_value x); (on_goal 2 => simp only [x])) | skip) | split | simp only [id_eq] | simp only [good_mk])

theorem keep_writeRiLinkRate {pd : List Instr × Prop × Prop} {s : State} {v : Nat} (h_s : Good pd s) :
    Good pd (writeRiLinkRate s v) := by
  unfold writeRiLinkRate
  repeat' (first | with_reducible (first | assumption | apply good_of | (intro _) | apply good_ite | (refine good_snd (by assumption) ?_) | (refine good_fst (by assumption) ?_)) | (extract_lets +onlyGivenNames x; first | (suffices hx : Good pd x from ?_; (on_goal 1 => clear_value x); (on_goal 2 => simp only [x])) | skip) | split | simp only [id_eq] | simp only [good_mk])

theorem keep_execRiLinkRate {pd : List Instr × Prop × Prop} {a : Accessor} {value : BitVec 32} {s : State} (h_s : Good pd s) :
    OutGood pd (execRiLinkRate a value s) := by
  unfold execRiLinkRate
  show Good pd _
  repeat' (first | with_reducible (first | assumption | apply good_of | (intro _) | apply keep_writeRiLinkRate | apply good_ite | (refine good_snd (by assumption) ?_) | (refine good_fst (by assumption) ?_)) | (extract_lets +onlyGivenNames x; first | (suffices hx : Good pd x from ?_; (on_goal 1 => clear_value x); (on_goal 2 => simp only [x])) | skip) | split | simp only [id_eq] | simp only [good_mk])

theorem keep_startPass {pd : List Instr × Prop × Prop} {s : State} (h_s : Good pd s) :
    Good pd (startPass s) := by
  unfold startPass
  repeat' (first | with_reducible (first | assumption | apply good_of | (intro _) | apply good_ite | (refine good_snd (by assumption) ?_) | (refine good_fst (by assumption) ?_)) | (extract_lets +onlyGivenNames x; first | (suffices hx : Good pd x from ?_; (on_goal 1 => clear_value x); (on_goal 2 => simp only [x])) | skip) | split | simp only [id_eq] | simp only [good_mk])

theorem keep_execMcPassStart {pd : List Instr × Prop × Prop} {s : State} (h_s : Good pd s) :
    OutGood pd (execMcPassStart s) := by
  unfold execMcPassStart
  show Good pd _
  repeat' (first | with_reducible (first | assumption | apply good_of | (intro _) | apply keep_raiseEvent | apply keep_startPass | apply good_ite | (refine good_snd (by assumption) ?_) | (refine good_fst (by assumption) ?_)) | (extract_lets +onlyGivenNames x; first | (suffices hx : Good pd x from ?_; (on_goal 1 => clear_value x); (on_goal 2 => simp only [x])) | skip) | split | simp only [id_eq] | simp only [good_mk])

theorem keep_execMcEntryDone {pd : List Instr × Prop × Prop} {codes : List ℤ} {s : State} (h_s : Good pd s) :
    OutGood pd (execMcEntryDone codes s) := by
  unfold execMcEntryDone
  show Good pd _
  repeat' (first | with_reducible (first | assumption | apply good_of | (intro _) | apply keep_startPass | apply good_ite | (refine good_snd (by assumption) ?_) | (refine good_fst (by assumption) ?_)) | (extract_lets +onlyGivenNames x; first | (suffices hx : Good pd x from ?_; (on_goal 1 => clear_value x); (on_goal 2 => simp only [x])) | skip) | split | simp only [id_eq] | simp only [good_mk])

theorem keep_writeMcCtrl {pd : List Instr × Prop × Prop} {s : State} {v : Nat} (h_s : Good pd s) :
    Good pd (writeMcCtrl s v) := by
  unfold writeMcCtrl
  repeat' (first | with_reducible (first | assumption | apply good_of | (intro _) | apply keep_startPass | apply good_ite | (refine good_snd (by assumption) ?_) | (refine good_fst (by assumption) ?_)) | (extract_lets +onlyGivenNames x; first | (suffices hx : Good pd x from ?_; (on_goal 1 => clear_value x); (on_goal 2 => simp only [x])) | skip) | split | simp only [id_eq] | simp only [good_mk])

theorem keep_execMcSelfcal {pd : List Instr × Prop × Prop} {a : Accessor} {value : BitVec 32} {s : State} (h_s : Good pd s) :
    OutGood pd (execMcSelfcal a value s) := by
  unfold execMcSelfcal
  show Good pd _
  repeat' (first | with_reducible (first | assumption | apply good_of | (intro _) | apply keep_writeMcCtrl | apply good_ite | (refine good_snd (by assumption) ?_) | (refine good_fst (by assumption) ?_)) | (extract_lets +onlyGivenNames x; first | (suffices hx : Good pd x from ?_; (on_goal 1 => clear_value x); (on_goal 2 => simp only [x])) | skip) | split | simp only [id_eq] | simp only [good_mk])

theorem keep_execMcSelfcalComplete {pd : List Instr × Prop × Prop} {offset : BitVec 16} {gain : BitVec 16} {s : State} (h_s : Good pd s) :
    OutGood pd (execMcSelfcalComplete offset gain s) := by
  unfold execMcSelfcalComplete
  show Good pd _
  repeat' (first | with_reducible (first | assumption | apply good_of | (intro _) | apply keep_raiseEvent | apply keep_startPass | apply good_ite | (refine good_snd (by assumption) ?_) | (refine good_fst (by assumption) ?_)) | (extract_lets +onlyGivenNames x; first | (suffices hx : Good pd x from ?_; (on_goal 1 => clear_value x); (on_goal 2 => simp only [x])) | skip) | split | simp only [id_eq] | simp only [good_mk])

theorem keep_writeMcSeq {pd : List Instr × Prop × Prop} {s : State} {n : Nat} {v : Nat} (h_s : Good pd s) :
    Good pd (writeMcSeq s n v) := by
  unfold writeMcSeq
  repeat' (first | with_reducible (first | assumption | apply good_of | (intro _) | apply good_ite | (refine good_snd (by assumption) ?_) | (refine good_fst (by assumption) ?_)) | (extract_lets +onlyGivenNames x; first | (suffices hx : Good pd x from ?_; (on_goal 1 => clear_value x); (on_goal 2 => simp only [x])) | skip) | split | simp only [id_eq] | simp only [good_mk])

theorem keep_execMcSeqTable {pd : List Instr × Prop × Prop} {a : Accessor} {n : BitVec 5} {value : BitVec 32} {s : State} (h_s : Good pd s) :
    OutGood pd (execMcSeqTable a n value s) := by
  unfold execMcSeqTable
  show Good pd _
  repeat' (first | with_reducible (first | assumption | apply good_of | (intro _) | apply keep_writeMcSeq | apply good_ite | (refine good_snd (by assumption) ?_) | (refine good_fst (by assumption) ?_)) | (extract_lets +onlyGivenNames x; first | (suffices hx : Good pd x from ?_; (on_goal 1 => clear_value x); (on_goal 2 => simp only [x])) | skip) | split | simp only [id_eq] | simp only [good_mk])

theorem keep_writeMcTrigger {pd : List Instr × Prop × Prop} {s : State} {v : Nat} (h_s : Good pd s) :
    Good pd (writeMcTrigger s v) := by
  unfold writeMcTrigger
  repeat' (first | with_reducible (first | assumption | apply good_of | (intro _) | apply good_ite | (refine good_snd (by assumption) ?_) | (refine good_fst (by assumption) ?_)) | (extract_lets +onlyGivenNames x; first | (suffices hx : Good pd x from ?_; (on_goal 1 => clear_value x); (on_goal 2 => simp only [x])) | skip) | split | simp only [id_eq] | simp only [good_mk])

theorem keep_execMcTrigger {pd : List Instr × Prop × Prop} {a : Accessor} {value : BitVec 32} {s : State} (h_s : Good pd s) :
    OutGood pd (execMcTrigger a value s) := by
  unfold execMcTrigger
  show Good pd _
  repeat' (first | with_reducible (first | assumption | apply good_of | (intro _) | apply keep_writeMcTrigger | apply good_ite | (refine good_snd (by assumption) ?_) | (refine good_fst (by assumption) ?_)) | (extract_lets +onlyGivenNames x; first | (suffices hx : Good pd x from ?_; (on_goal 1 => clear_value x); (on_goal 2 => simp only [x])) | skip) | split | simp only [id_eq] | simp only [good_mk])

theorem keep_askDestroy {pd : List Instr × Prop × Prop} {s : State} {o : Nat} {cause : Nat} (h_s : Good pd s) :
    Good pd (askDestroy s o cause) := by
  unfold askDestroy
  repeat' (first | with_reducible (first | assumption | apply good_of | (intro _) | apply keep_sendMessage | apply keep_orderDestroy | apply good_ite | (refine good_snd (by assumption) ?_) | (refine good_fst (by assumption) ?_)) | (extract_lets +onlyGivenNames x; first | (suffices hx : Good pd x from ?_; (on_goal 1 => clear_value x); (on_goal 2 => simp only [x])) | skip) | split | simp only [id_eq] | simp only [good_mk])

theorem keep_writeKeDestroy {pd : List Instr × Prop × Prop} {s : State} {a : Accessor} {v : Nat} (h_s : Good pd s) :
    Good pd (writeKeDestroy s a v) := by
  unfold writeKeDestroy
  repeat' (first | with_reducible (first | assumption | apply good_of | (intro _) | apply keep_askDestroy | apply good_ite | (refine good_snd (by assumption) ?_) | (refine good_fst (by assumption) ?_)) | (extract_lets +onlyGivenNames x; first | (suffices hx : Good pd x from ?_; (on_goal 1 => clear_value x); (on_goal 2 => simp only [x])) | skip) | split | simp only [id_eq] | simp only [good_mk])

theorem keep_execKeDestroy {pd : List Instr × Prop × Prop} {a : Accessor} {value : BitVec 32} {s : State} (h_s : Good pd s) :
    OutGood pd (execKeDestroy a value s) := by
  unfold execKeDestroy
  show Good pd _
  repeat' (first | with_reducible (first | assumption | apply good_of | (intro _) | apply keep_writeKeDestroy | apply good_ite | (refine good_snd (by assumption) ?_) | (refine good_fst (by assumption) ?_)) | (extract_lets +onlyGivenNames x; first | (suffices hx : Good pd x from ?_; (on_goal 1 => clear_value x); (on_goal 2 => simp only [x])) | skip) | split | simp only [id_eq] | simp only [good_mk])

theorem keep_execOwnerKeyDestroy {pd : List Instr × Prop × Prop} {owner : BitVec 8} {cause : BitVec 8} {s : State} (h_s : Good pd s) :
    OutGood pd (execOwnerKeyDestroy owner cause s) := by
  unfold execOwnerKeyDestroy
  show Good pd _
  repeat' (first | with_reducible (first | assumption | apply good_of | (intro _) | apply keep_destroyKey | apply good_ite | (refine good_snd (by assumption) ?_) | (refine good_fst (by assumption) ?_)) | (extract_lets +onlyGivenNames x; first | (suffices hx : Good pd x from ?_; (on_goal 1 => clear_value x); (on_goal 2 => simp only [x])) | skip) | split | simp only [id_eq] | simp only [good_mk])

theorem keep_writeKeSeal {pd : List Instr × Prop × Prop} {s : State} {a : Accessor} {v : Nat} (h_s : Good pd s) :
    Good pd (writeKeSeal s a v) := by
  unfold writeKeSeal
  repeat' (first | with_reducible (first | assumption | apply good_of | (intro _) | apply keep_modSlot | apply keep_raiseEvent | apply keep_removeSeals | apply good_ite | (refine good_snd (by assumption) ?_) | (refine good_fst (by assumption) ?_)) | (extract_lets +onlyGivenNames x; first | (suffices hx : Good pd x from ?_; (on_goal 1 => clear_value x); (on_goal 2 => simp only [x])) | skip) | split | simp only [id_eq] | simp only [good_mk])

theorem keep_execKeClear {pd : List Instr × Prop × Prop} {a : Accessor} {value : BitVec 32} {s : State} (h_s : Good pd s) :
    OutGood pd (execKeClear a value s) := by
  unfold execKeClear
  show Good pd _
  repeat' (first | with_reducible (first | assumption | apply good_of | (intro _) | apply keep_writeKeSeal | apply good_ite | (refine good_snd (by assumption) ?_) | (refine good_fst (by assumption) ?_)) | (extract_lets +onlyGivenNames x; first | (suffices hx : Good pd x from ?_; (on_goal 1 => clear_value x); (on_goal 2 => simp only [x])) | skip) | split | simp only [id_eq] | simp only [good_mk])

theorem keep_execEntropyFail {pd : List Instr × Prop × Prop} {test : Bool} {s : State} (h_s : Good pd s) :
    OutGood pd (execEntropyFail test s) := by
  unfold execEntropyFail
  show Good pd _
  repeat' (first | with_reducible (first | assumption | apply good_of | (intro _) | apply keep_raiseEvent | apply good_ite | (refine good_snd (by assumption) ?_) | (refine good_fst (by assumption) ?_)) | (extract_lets +onlyGivenNames x; first | (suffices hx : Good pd x from ?_; (on_goal 1 => clear_value x); (on_goal 2 => simp only [x])) | skip) | split | simp only [id_eq] | simp only [good_mk])

theorem keep_execDrbgReseed {pd : List Instr × Prop × Prop} {s : State} (h_s : Good pd s) :
    OutGood pd (execDrbgReseed s) := by
  unfold execDrbgReseed
  show Good pd _
  repeat' (first | with_reducible (first | assumption | apply good_of | (intro _) | apply good_ite | (refine good_snd (by assumption) ?_) | (refine good_fst (by assumption) ?_)) | (extract_lets +onlyGivenNames x; first | (suffices hx : Good pd x from ?_; (on_goal 1 => clear_value x); (on_goal 2 => simp only [x])) | skip) | split | simp only [id_eq] | simp only [good_mk])

theorem keep_execKeyDestroy {pd : List Instr × Prop × Prop} {sid : BitVec 32} {secured : Bool} {owner : BitVec 8} {s : State} (h_s : Good pd s) :
    OutGood pd (execKeyDestroy sid secured owner s) := by
  unfold execKeyDestroy
  show Good pd _
  repeat' (first | with_reducible (first | assumption | apply good_of | (intro _) | apply keep_emit | apply keep_askDestroy | apply good_ite | (refine good_snd (by assumption) ?_) | (refine good_fst (by assumption) ?_)) | (extract_lets +onlyGivenNames x; first | (suffices hx : Good pd x from ?_; (on_goal 1 => clear_value x); (on_goal 2 => simp only [x])) | skip) | split | simp only [id_eq] | simp only [good_mk])

theorem keep_readEffect {pd : List Instr × Prop × Prop} {s : State} {p : Nat} {off : Nat} (h_s : Good pd s) :
    Good pd (readEffect s p off) := by
  unfold readEffect
  repeat' (first | with_reducible (first | assumption | apply good_of | (intro _) | apply keep_modSc | apply keep_modTg | apply keep_modCore | apply good_ite | (refine good_snd (by assumption) ?_) | (refine good_fst (by assumption) ?_)) | (extract_lets +onlyGivenNames x; first | (suffices hx : Good pd x from ?_; (on_goal 1 => clear_value x); (on_goal 2 => simp only [x])) | skip) | split | simp only [id_eq] | simp only [good_mk])

theorem keep_readWord {pd : List Instr × Prop × Prop} {s : State} {a : Accessor} {off : Nat} (h_s : Good pd s) :
    Good pd (readWord s a off).2 := by
  unfold readWord
  repeat' (first | with_reducible (first | assumption | apply good_of | (intro _) | apply keep_readEffect | apply good_ite | (refine good_snd (by assumption) ?_) | (refine good_fst (by assumption) ?_)) | (extract_lets +onlyGivenNames x; first | (suffices hx : Good pd x from ?_; (on_goal 1 => clear_value x); (on_goal 2 => simp only [x])) | skip) | split | simp only [id_eq] | simp only [good_mk])

theorem keep_refuseAccess {pd : List Instr × Prop × Prop} {s : State} {a : Accessor} (h_s : Good pd s) :
    Good pd (refuseAccess s a) := by
  unfold refuseAccess
  repeat' (first | with_reducible (first | assumption | apply good_of | (intro _) | apply keep_countUr | apply good_ite | (refine good_snd (by assumption) ?_) | (refine good_fst (by assumption) ?_)) | (extract_lets +onlyGivenNames x; first | (suffices hx : Good pd x from ?_; (on_goal 1 => clear_value x); (on_goal 2 => simp only [x])) | skip) | split | simp only [id_eq] | simp only [good_mk])

theorem keep_readAccess {pd : List Instr × Prop × Prop} {s : State} {a : Accessor} {off : Nat} {size : Nat} (h_s : Good pd s) :
    Good pd (readAccess s a off size) := by
  unfold readAccess
  repeat' (first | with_reducible (first | assumption | apply good_of | (intro _) | apply keep_emit | apply keep_readWord | apply keep_refuseAccess | apply good_ite | (refine good_snd (by assumption) ?_) | (refine good_fst (by assumption) ?_)) | (extract_lets +onlyGivenNames x; first | (suffices hx : Good pd x from ?_; (on_goal 1 => clear_value x); (on_goal 2 => simp only [x])) | skip) | split | simp only [id_eq] | simp only [good_mk])

theorem keep_execRcRead {pd : List Instr × Prop × Prop} {a : Accessor} {offset : BitVec 25} {size : BitVec 8} {s : State} (h_s : Good pd s) :
    OutGood pd (execRcRead a offset size s) := by
  unfold execRcRead
  show Good pd _
  repeat' (first | with_reducible (first | assumption | apply good_of | (intro _) | apply keep_readAccess | apply good_ite | (refine good_snd (by assumption) ?_) | (refine good_fst (by assumption) ?_)) | (extract_lets +onlyGivenNames x; first | (suffices hx : Good pd x from ?_; (on_goal 1 => clear_value x); (on_goal 2 => simp only [x])) | skip) | split | simp only [id_eq] | simp only [good_mk])

theorem keep_execSqBeatCountRead {pd : List Instr × Prop × Prop} {a : Accessor} {wide : Bool} {s : State} (h_s : Good pd s) :
    OutGood pd (execSqBeatCountRead a wide s) := by
  unfold execSqBeatCountRead
  show Good pd _
  repeat' (first | with_reducible (first | assumption | apply good_of | (intro _) | apply keep_readAccess | apply good_ite | (refine good_snd (by assumption) ?_) | (refine good_fst (by assumption) ?_)) | (extract_lets +onlyGivenNames x; first | (suffices hx : Good pd x from ?_; (on_goal 1 => clear_value x); (on_goal 2 => simp only [x])) | skip) | split | simp only [id_eq] | simp only [good_mk])

theorem keep_execDevRtbRead {pd : List Instr × Prop × Prop} {a : Accessor} {wide : Bool} {s : State} (h_s : Good pd s) :
    OutGood pd (execDevRtbRead a wide s) := by
  unfold execDevRtbRead
  show Good pd _
  repeat' (first | with_reducible (first | assumption | apply good_of | (intro _) | apply keep_readAccess | apply good_ite | (refine good_snd (by assumption) ?_) | (refine good_fst (by assumption) ?_)) | (extract_lets +onlyGivenNames x; first | (suffices hx : Good pd x from ?_; (on_goal 1 => clear_value x); (on_goal 2 => simp only [x])) | skip) | split | simp only [id_eq] | simp only [good_mk])

theorem keep_thawMaster {pd : List Instr × Prop × Prop} {s : State} {z : Frozen} (h_s : Good pd s) :
    Good pd (thawMaster s z) := by
  unfold thawMaster
  repeat' (first | with_reducible (first | assumption | apply good_of | (intro _) | apply keep_modQp | apply keep_forEach | apply keep_clearCore | apply good_ite | (refine good_snd (by assumption) ?_) | (refine good_fst (by assumption) ?_)) | (extract_lets +onlyGivenNames x; first | (suffices hx : Good pd x from ?_; (on_goal 1 => clear_value x); (on_goal 2 => simp only [x])) | skip) | split | simp only [id_eq] | simp only [good_mk])

theorem keep_recordAfterThaw {pd : List Instr × Prop × Prop} {s : State} {p : Nat} (h_s : Good pd s) : Good pd (recordAfterThaw s p) := by
  unfold recordAfterThaw
  split
  · rename_i hz
    refine good_modHdr h_s (Or.inr (Or.inr ?_))
    simpa [pageFrozen, List.filter_eq_nil_iff] using hz
  · split
    · exact keep_modHdr h_s (fun _ _ => rfl)
    · exact h_s

theorem keep_thaw {pd : List Instr × Prop × Prop} {s : State} {a : Accessor} {p : Nat} (h_s : Good pd s) : Good pd (thaw s a p) := by
  unfold thaw
  extract_lets hit s1
  split
  · exact h_s
  · have h1 : Good pd s1 := by
      refine keep_recordAfterThaw (keep_forEach ?_ (fun _ _ h => keep_thawMaster h))
      simp only [good_mk]
      have := goodFields_less (good_of h_s) (fun z => !hit.contains z) (fun _ => true) (fun _ _ _ _ _ => rfl)
      rwa [show s.hdrs.filter (fun _ => true) = s.hdrs by simp] at this
    exact keep_raiseEvent h1

theorem keep_resetBlock {pd : List Instr × Prop × Prop} {s : State} {p : Nat} (h_s : Good pd s) :
    Good pd (resetBlock s p) := by
  unfold resetBlock
  repeat' (first | with_reducible (first | assumption | apply good_of | (intro _) | apply keep_modHp | apply keep_modFn | apply keep_modSc | apply keep_modTg | apply keep_modCore | apply keep_endAssay | apply keep_slotFault | apply good_ite | (refine good_snd (by assumption) ?_) | (refine good_fst (by assumption) ?_)) | (extract_lets +onlyGivenNames x; first | (suffices hx : Good pd x from ?_; (on_goal 1 => clear_value x); (on_goal 2 => simp only [x])) | skip) | split | simp only [id_eq] | simp only [good_mk])

theorem keep_softResetPage {pd : List Instr × Prop × Prop} {s : State} {p : Nat} (h_s : Good pd s) : Good pd (softResetPage s p) := by
  unfold softResetPage
  split
  · exact h_s
  · rename_i hn
    simp only [Bool.or_eq_true, not_or, Bool.not_eq_true] at hn
    exact keep_resetBlock (good_modHdr h_s (Or.inr (Or.inr hn.1.2)))

theorem keep_writeEn {pd : List Instr × Prop × Prop} {s : State} {p : Nat} {v : Nat} (h_s : Good pd s) :
    Good pd (writeEn s p v) := by
  unfold writeEn
  repeat' (first | with_reducible (first | assumption | apply good_of | (intro _) | apply keep_modHdr | apply good_ite | (refine good_snd (by assumption) ?_) | (refine good_fst (by assumption) ?_)) | (extract_lets +onlyGivenNames x; first | (suffices hx : Good pd x from ?_; (on_goal 1 => clear_value x); (on_goal 2 => simp only [x])) | skip) | split | simp only [id_eq] | simp only [good_mk])

theorem keep_writePageCtrl {pd : List Instr × Prop × Prop} {s : State} {a : Accessor} {p : Nat} {v : Nat} (h_s : Good pd s) :
    Good pd (writePageCtrl s a p v) := by
  unfold writePageCtrl
  repeat' (first | with_reducible (first | assumption | apply good_of | (intro _) | apply keep_thaw | apply keep_softResetPage | apply keep_writeEn | apply good_ite | (refine good_snd (by assumption) ?_) | (refine good_fst (by assumption) ?_)) | (extract_lets +onlyGivenNames x; first | (suffices hx : Good pd x from ?_; (on_goal 1 => clear_value x); (on_goal 2 => simp only [x])) | skip) | split | simp only [id_eq] | simp only [good_mk])

theorem keep_forceEvents {pd : List Instr × Prop × Prop} {s : State} {p : Nat} {v : Nat} (h_s : Good pd s) :
    Good pd (forceEvents s p v) := by
  unfold forceEvents
  repeat' (first | with_reducible (first | assumption | apply good_of | (intro _) | apply keep_forEach | apply keep_raiseEvent | apply good_ite | (refine good_snd (by assumption) ?_) | (refine good_fst (by assumption) ?_)) | (extract_lets +onlyGivenNames x; first | (suffices hx : Good pd x from ?_; (on_goal 1 => clear_value x); (on_goal 2 => simp only [x])) | skip) | split | simp only [id_eq] | simp only [good_mk])

theorem keep_writeHeader {pd : List Instr × Prop × Prop} {s : State} {a : Accessor} {p : Nat} {off : Nat} {v : Nat} (h_s : Good pd s) :
    Good pd (writeHeader s a p off v) := by
  unfold writeHeader
  repeat' (first | with_reducible (first | assumption | apply good_of | (intro _) | apply keep_modHdr | apply keep_writePageCtrl | apply keep_forceEvents | apply good_ite | (refine good_snd (by assumption) ?_) | (refine good_fst (by assumption) ?_)) | (extract_lets +onlyGivenNames x; first | (suffices hx : Good pd x from ?_; (on_goal 1 => clear_value x); (on_goal 2 => simp only [x])) | skip) | split | simp only [id_eq] | simp only [good_mk])

theorem keep_writeBlock {pd : List Instr × Prop × Prop} {s : State} {a : Accessor} {p : Nat} {off : Nat} {v : Nat} (h_s : Good pd s) :
    Good pd (writeBlock s a p off v) := by
  unfold writeBlock
  repeat' (first | with_reducible (first | assumption | apply good_of | (intro _) | apply keep_writeAptBase | apply keep_writeAptOwner | apply keep_writeHeartbeat | apply keep_writeTimeout | apply keep_writeDevReset | apply keep_writeThrottle | apply keep_writeTripAck | apply keep_writeRestart | apply keep_writeDoorbell | apply keep_writeHandoff | apply keep_writeScrubCtrl | apply keep_writeCalCmd | apply keep_writeDtcal | apply keep_writeInterval | apply keep_writeEnv | apply keep_writeMarginPlan | apply keep_writeCcLaunch | apply keep_writeFsr | apply keep_writeTol | apply keep_writeAssay | apply keep_writeStretch | apply keep_writeRiTrain | apply keep_writeRiLinkRate | apply keep_writeMcCtrl | apply keep_writeMcSeq | apply keep_writeMcTrigger | apply keep_writeKeDestroy | apply keep_writeKeSeal | apply good_ite | (refine good_snd (by assumption) ?_) | (refine good_fst (by assumption) ?_)) | (extract_lets +onlyGivenNames x; first | (suffices hx : Good pd x from ?_; (on_goal 1 => clear_value x); (on_goal 2 => simp only [x])) | skip) | split | simp only [id_eq] | simp only [good_mk])

theorem keep_writeReg {pd : List Instr × Prop × Prop} {s : State} {a : Accessor} {p : Nat} {off : Nat} {v : Nat} (h_s : Good pd s) :
    Good pd (writeReg s a p off v) := by
  unfold writeReg
  repeat' (first | with_reducible (first | assumption | apply good_of | (intro _) | apply keep_writeHeader | apply keep_writeBlock | apply good_ite | (refine good_snd (by assumption) ?_) | (refine good_fst (by assumption) ?_)) | (extract_lets +onlyGivenNames x; first | (suffices hx : Good pd x from ?_; (on_goal 1 => clear_value x); (on_goal 2 => simp only [x])) | skip) | split | simp only [id_eq] | simp only [good_mk])

theorem keep_writeWordAt {pd : List Instr × Prop × Prop} {s : State} {a : Accessor} {off : Nat} {v : Nat} (h_s : Good pd s) :
    Good pd (writeWordAt s a off v) := by
  unfold writeWordAt
  repeat' (first | with_reducible (first | assumption | apply good_of | (intro _) | apply keep_submitTail | apply keep_complHead | apply keep_writeCalWindow | apply keep_writeReg | apply good_ite | (refine good_snd (by assumption) ?_) | (refine good_fst (by assumption) ?_)) | (extract_lets +onlyGivenNames x; first | (suffices hx : Good pd x from ?_; (on_goal 1 => clear_value x); (on_goal 2 => simp only [x])) | skip) | split | simp only [id_eq] | simp only [good_mk])

theorem keep_writeAccess {pd : List Instr × Prop × Prop} {s : State} {a : Accessor} {off : Nat} {size : Nat} {v : Nat} (h_s : Good pd s) :
    Good pd (writeAccess s a off size v) := by
  unfold writeAccess
  repeat' (first | with_reducible (first | assumption | apply good_of | (intro _) | apply keep_refuseAccess | apply keep_writeWordAt | apply good_ite | (refine good_snd (by assumption) ?_) | (refine good_fst (by assumption) ?_)) | (extract_lets +onlyGivenNames x; first | (suffices hx : Good pd x from ?_; (on_goal 1 => clear_value x); (on_goal 2 => simp only [x])) | skip) | split | simp only [id_eq] | simp only [good_mk])

theorem keep_execRegisterWrite {pd : List Instr × Prop × Prop} {a : Accessor} {offset : BitVec 25} {size : BitVec 8} {value : BitVec 32} {s : State} (h_s : Good pd s) :
    OutGood pd (execRegisterWrite a offset size value s) := by
  unfold execRegisterWrite
  show Good pd _
  repeat' (first | with_reducible (first | assumption | apply good_of | (intro _) | apply keep_writeAccess | apply good_ite | (refine good_snd (by assumption) ?_) | (refine good_fst (by assumption) ?_)) | (extract_lets +onlyGivenNames x; first | (suffices hx : Good pd x from ?_; (on_goal 1 => clear_value x); (on_goal 2 => simp only [x])) | skip) | split | simp only [id_eq] | simp only [good_mk])

theorem keep_execPageEnableWrite {pd : List Instr × Prop × Prop} {port : Bool} {page : BitVec 9} {value : BitVec 32} {s : State} (h_s : Good pd s) :
    OutGood pd (execPageEnableWrite port page value s) := by
  unfold execPageEnableWrite
  show Good pd _
  repeat' (first | with_reducible (first | assumption | apply good_of | (intro _) | apply keep_writePageCtrl | apply good_ite | (refine good_snd (by assumption) ?_) | (refine good_fst (by assumption) ?_)) | (extract_lets +onlyGivenNames x; first | (suffices hx : Good pd x from ?_; (on_goal 1 => clear_value x); (on_goal 2 => simp only [x])) | skip) | split | simp only [id_eq] | simp only [good_mk])

theorem keep_execThaw {pd : List Instr × Prop × Prop} {a : Accessor} {page : BitVec 9} {value : BitVec 32} {s : State} (h_s : Good pd s) :
    OutGood pd (execThaw a page value s) := by
  unfold execThaw
  show Good pd _
  repeat' (first | with_reducible (first | assumption | apply good_of | (intro _) | apply keep_writePageCtrl | apply good_ite | (refine good_snd (by assumption) ?_) | (refine good_fst (by assumption) ?_)) | (extract_lets +onlyGivenNames x; first | (suffices hx : Good pd x from ?_; (on_goal 1 => clear_value x); (on_goal 2 => simp only [x])) | skip) | split | simp only [id_eq] | simp only [good_mk])

theorem keep_execSrst {pd : List Instr × Prop × Prop} {port : Bool} {page : BitVec 9} {value : BitVec 32} {s : State} (h_s : Good pd s) :
    OutGood pd (execSrst port page value s) := by
  unfold execSrst
  show Good pd _
  repeat' (first | with_reducible (first | assumption | apply good_of | (intro _) | apply keep_writePageCtrl | apply good_ite | (refine good_snd (by assumption) ?_) | (refine good_fst (by assumption) ?_)) | (extract_lets +onlyGivenNames x; first | (suffices hx : Good pd x from ?_; (on_goal 1 => clear_value x); (on_goal 2 => simp only [x])) | skip) | split | simp only [id_eq] | simp only [good_mk])

theorem keep_execSrstDone {pd : List Instr × Prop × Prop} {page : BitVec 9} {s : State} (h_s : Good pd s) :
    OutGood pd (execSrstDone page s) := by
  unfold execSrstDone
  show Good pd _
  repeat' (first | with_reducible (first | assumption | apply good_of | (intro _) | apply keep_modHdr | apply keep_raiseEvent | apply good_ite | (refine good_snd (by assumption) ?_) | (refine good_fst (by assumption) ?_)) | (extract_lets +onlyGivenNames x; first | (suffices hx : Good pd x from ?_; (on_goal 1 => clear_value x); (on_goal 2 => simp only [x])) | skip) | split | simp only [id_eq] | simp only [good_mk])

theorem keep_execEvtForce {pd : List Instr × Prop × Prop} {a : Accessor} {page : BitVec 9} {value : BitVec 32} {s : State} (h_s : Good pd s) :
    OutGood pd (execEvtForce a page value s) := by
  unfold execEvtForce
  show Good pd _
  repeat' (first | with_reducible (first | assumption | apply good_of | (intro _) | apply keep_writeReg | apply good_ite | (refine good_snd (by assumption) ?_) | (refine good_fst (by assumption) ?_)) | (extract_lets +onlyGivenNames x; first | (suffices hx : Good pd x from ?_; (on_goal 1 => clear_value x); (on_goal 2 => simp only [x])) | skip) | split | simp only [id_eq] | simp only [good_mk])

theorem keep_execPageLock {pd : List Instr × Prop × Prop} {a : Accessor} {page : BitVec 9} {value : BitVec 32} {s : State} (h_s : Good pd s) :
    OutGood pd (execPageLock a page value s) := by
  unfold execPageLock
  show Good pd _
  repeat' (first | with_reducible (first | assumption | apply good_of | (intro _) | apply keep_writeReg | apply good_ite | (refine good_snd (by assumption) ?_) | (refine good_fst (by assumption) ?_)) | (extract_lets +onlyGivenNames x; first | (suffices hx : Good pd x from ?_; (on_goal 1 => clear_value x); (on_goal 2 => simp only [x])) | skip) | split | simp only [id_eq] | simp only [good_mk])

theorem keep_relayedWrite {pd : List Instr × Prop × Prop} {s : State} {port : Bool} {off v : Nat} (h_s : Good pd s) :
    ∀ t, relayedWrite s port off v = some t → Good pd t := by
  intro t h
  unfold relayedWrite at h
  repeat' split at h
  all_goals first
    | (obtain rfl := Option.some.inj h; first | exact h_s | exact keep_writeReg h_s | exact keep_writeCalWindow h_s)
    | simp at h

theorem keep_execRegAccess {pd : List Instr × Prop × Prop} {i : Issuer} {offset value : BitVec 32} {write : Bool} {s : State} (h_s : Good pd s) :
    OutGood pd (execRegAccess i offset value write s) := by
  refine keep_command h_s (fun s h_s => ?_)
  dsimp only
  repeat' split
  all_goals first
    | exact keep_complete h_s
    | exact keep_complete (keep_readWord h_s)
    | exact keep_complete (keep_sendPacket h_s)
    | (refine keep_complete ?_
       cases h : relayedWrite s false offset.toNat value.toNat with
       | none => exact h_s
       | some t => exact keep_relayedWrite h_s _ h)
    | (apply keep_sendPacket; simp only [good_mk]; exact good_of h_s)

theorem keep_readDwords {pd : List Instr × Prop × Prop} {s : State} {off : Nat} {z2 : Nat} (h_s : Good pd s) : Good pd (readDwords s off z2).2 := by
  induction z2 generalizing s off with
  | zero => exact h_s
  | succ n ih => exact ih (keep_readWord h_s)

theorem keep_execRegRead {pd : List Instr × Prop × Prop} {offset : BitVec 32} {count : BitVec 8} {s : State} (h_s : Good pd s) :
    OutGood pd (execRegRead offset count s) := by
  unfold execRegRead
  show Good pd _
  repeat' (first | with_reducible (first | assumption | apply good_of | (intro _) | apply keep_emit | apply keep_readDwords | apply good_ite | (refine good_snd (by assumption) ?_) | (refine good_fst (by assumption) ?_)) | (extract_lets +onlyGivenNames x; first | (suffices hx : Good pd x from ?_; (on_goal 1 => clear_value x); (on_goal 2 => simp only [x])) | skip) | split | simp only [id_eq] | simp only [good_mk])

theorem keep_execRegWrite {pd : List Instr × Prop × Prop} {offset : BitVec 32} {value : BitVec 32} {s : State} (h_s : Good pd s) :
    OutGood pd (execRegWrite offset value s) := by
  unfold execRegWrite
  show Good pd _
  repeat' (first | with_reducible (first | assumption | apply good_of | (intro _) | apply keep_emit | apply keep_writeWordAt | apply good_ite | (refine good_snd (by assumption) ?_) | (refine good_fst (by assumption) ?_)) | (extract_lets +onlyGivenNames x; first | (suffices hx : Good pd x from ?_; (on_goal 1 => clear_value x); (on_goal 2 => simp only [x])) | skip) | split | simp only [id_eq] | simp only [good_mk])

theorem keep_takePacket {pd : List Instr × Prop × Prop} {s : State} {type : Nat} {act : State → Packet → State} (h_s : Good pd s) (h_act : ∀ x0 x1, Good pd x0 → Good pd (act x0 x1)) :
    Good pd (takePacket s type act) := by
  unfold takePacket
  repeat' (first | with_reducible (first | assumption | apply good_of | (intro _) | apply keep_act | apply h_act | apply good_ite | (refine good_snd (by assumption) ?_) | (refine good_fst (by assumption) ?_)) | (extract_lets +onlyGivenNames x; first | (suffices hx : Good pd x from ?_; (on_goal 1 => clear_value x); (on_goal 2 => simp only [x])) | skip) | split | simp only [id_eq] | simp only [good_mk])

theorem keep_accessRefused {pd : List Instr × Prop × Prop} {s : State} {p : Packet} (h_s : Good pd s) :
    Good pd (accessRefused s p) := by
  unfold accessRefused
  repeat' (first | with_reducible (first | assumption | apply good_of | (intro _) | apply keep_freeze | (simp only [pgCc, pgHp, pgMs, pgRi]; split <;> decide) | (simp only [pgCc, pgHp, pgMs, pgRi]; omega) | apply good_ite | (refine good_snd (by assumption) ?_) | (refine good_fst (by assumption) ?_)) | (extract_lets +onlyGivenNames x; first | (suffices hx : Good pd x from ?_; (on_goal 1 => clear_value x); (on_goal 2 => simp only [x])) | skip) | split | simp only [id_eq] | simp only [good_mk])

theorem keep_toMailbox {pd : List Instr × Prop × Prop} {s : State} {source : Nat} {bytes : List Byte} (h_s : Good pd s) :
    Good pd (toMailbox s source bytes) := by
  unfold toMailbox
  repeat' (first | with_reducible (first | assumption | apply good_of | (intro _) | apply good_ite | (refine good_snd (by assumption) ?_) | (refine good_fst (by assumption) ?_)) | (extract_lets +onlyGivenNames x; first | (suffices hx : Good pd x from ?_; (on_goal 1 => clear_value x); (on_goal 2 => simp only [x])) | skip) | split | simp only [id_eq] | simp only [good_mk])

theorem keep_packetRegWrite {pd : List Instr × Prop × Prop} {s : State} {p : Packet} (h_s : Good pd s) : Good pd (packetRegWrite s p) := by
  unfold packetRegWrite
  extract_lets v
  split
  · exact keep_freeze h_s (by decide)
  · split
    · exact keep_writeWordAt h_s
    · split
      · split
        · rename_i h
          exact keep_relayedWrite h_s _ h
        · exact keep_accessRefused h_s
      · exact keep_accessRefused h_s

theorem keep_execCreditWrite {pd : List Instr × Prop × Prop} {s : State} (h_s : Good pd s) :
    OutGood pd (execCreditWrite s) := by
  unfold execCreditWrite
  show Good pd _
  repeat' (first | with_reducible (first | assumption | apply good_of | (intro _) | apply keep_writeUnder | apply keep_takePacket | apply keep_accessRefused | apply keep_toMailbox | apply keep_packetRegWrite | apply good_ite | (refine good_snd (by assumption) ?_) | (refine good_fst (by assumption) ?_)) | (extract_lets +onlyGivenNames x; first | (suffices hx : Good pd x from ?_; (on_goal 1 => clear_value x); (on_goal 2 => simp only [x])) | skip) | split | simp only [id_eq] | simp only [good_mk])

theorem keep_execCreditReadRequest {pd : List Instr × Prop × Prop} {ecc : List (Nat × Bool)} {s : State} (h_s : Good pd s) :
    OutGood pd (execCreditReadRequest ecc s) := by
  unfold execCreditReadRequest
  show Good pd _
  repeat' (first | with_reducible (first | assumption | apply good_of | (intro _) | apply keep_sendPacket | apply keep_sendMessage | apply keep_freeze | apply keep_eccRead | apply keep_readWord | apply keep_takePacket | apply keep_accessRefused | (simp only [pgCc, pgHp, pgMs, pgRi]; split <;> decide) | (simp only [pgCc, pgHp, pgMs, pgRi]; omega) | apply good_ite | (refine good_snd (by assumption) ?_) | (refine good_fst (by assumption) ?_)) | (extract_lets +onlyGivenNames x; first | (suffices hx : Good pd x from ?_; (on_goal 1 => clear_value x); (on_goal 2 => simp only [x])) | skip) | split | simp only [id_eq] | simp only [good_mk])

theorem keep_execCreditReadData {pd : List Instr × Prop × Prop} {s : State} (h_s : Good pd s) :
    OutGood pd (execCreditReadData s) := by
  unfold execCreditReadData
  show Good pd _
  repeat' (first | with_reducible (first | assumption | apply good_of | (intro _) | apply keep_complete | apply keep_takePacket | apply good_ite | (refine good_snd (by assumption) ?_) | (refine good_fst (by assumption) ?_)) | (extract_lets +onlyGivenNames x; first | (suffices hx : Good pd x from ?_; (on_goal 1 => clear_value x); (on_goal 2 => simp only [x])) | skip) | split | simp only [id_eq] | simp only [good_mk])

theorem keep_forwarded {pd : List Instr × Prop × Prop} {s : State} {position : Nat} {w : List Nat} (h_s : Good pd s) :
    Good pd (forwarded s position w) := by
  unfold forwarded
  repeat' (first | with_reducible (first | assumption | apply good_of | (intro _) | apply keep_modHp | apply good_ite | (refine good_snd (by assumption) ?_) | (refine good_fst (by assumption) ?_)) | (extract_lets +onlyGivenNames x; first | (suffices hx : Good pd x from ?_; (on_goal 1 => clear_value x); (on_goal 2 => simp only [x])) | skip) | split | simp only [id_eq] | simp only [good_mk])

theorem keep_answered {pd : List Instr × Prop × Prop} {s : State} {w : List Nat} {data : List Byte} (h_s : Good pd s) :
    Good pd (answered s w data) := by
  unfold answered
  repeat' (first | with_reducible (first | assumption | apply good_of | (intro _) | apply keep_complete | apply good_ite | (refine good_snd (by assumption) ?_) | (refine good_fst (by assumption) ?_)) | (extract_lets +onlyGivenNames x; first | (suffices hx : Good pd x from ?_; (on_goal 1 => clear_value x); (on_goal 2 => simp only [x])) | skip) | split | simp only [id_eq] | simp only [good_mk])

theorem keep_imageToCheck {pd : List Instr × Prop × Prop} {s : State} {data : List Byte} (h_s : Good pd s) :
    Good pd (imageToCheck s data) := by
  unfold imageToCheck
  repeat' (first | with_reducible (first | assumption | apply good_of | (intro _) | apply keep_writeUnder | apply keep_setExtents | apply good_ite | (refine good_snd (by assumption) ?_) | (refine good_fst (by assumption) ?_)) | (extract_lets +onlyGivenNames x; first | (suffices hx : Good pd x from ?_; (on_goal 1 => clear_value x); (on_goal 2 => simp only [x])) | skip) | split | simp only [id_eq] | simp only [good_mk])

theorem keep_recordForwarded {pd : List Instr × Prop × Prop} {s : State} {position : Nat} {p : Nat} {data : List Byte} (h_s : Good pd s) :
    Good pd (recordForwarded s position p data) := by
  unfold recordForwarded
  repeat' (first | with_reducible (first | assumption | apply good_of | (intro _) | apply keep_forEach | apply keep_takeEntry | apply good_ite | (refine good_snd (by assumption) ?_) | (refine good_fst (by assumption) ?_)) | (extract_lets +onlyGivenNames x; first | (suffices hx : Good pd x from ?_; (on_goal 1 => clear_value x); (on_goal 2 => simp only [x])) | skip) | split | simp only [id_eq] | simp only [good_mk])

theorem keep_slotOrdered {pd : List Instr × Prop × Prop} {s : State} {o : Nat} {port : Bool} {digest : List Byte} (h_s : Good pd s) :
    Good pd (slotOrdered s o port digest) := by
  unfold slotOrdered
  repeat' (first | with_reducible (first | assumption | apply good_of | (intro _) | apply keep_raiseEvent | apply keep_fillSlot | apply good_ite | (refine good_snd (by assumption) ?_) | (refine good_fst (by assumption) ?_)) | (extract_lets +onlyGivenNames x; first | (suffices hx : Good pd x from ?_; (on_goal 1 => clear_value x); (on_goal 2 => simp only [x])) | skip) | split | simp only [id_eq] | simp only [good_mk])

theorem keep_ownerShared {pd : List Instr × Prop × Prop} {s : State} {o : Nat} {home : Nat} {ws : List Nat} (h_s : Good pd s) :
    Good pd (ownerShared s o home ws) := by
  unfold ownerShared
  repeat' (first | with_reducible (first | assumption | apply good_of | (intro _) | apply keep_setOwner | apply keep_forEach | apply keep_dropAperture | apply good_ite | (refine good_snd (by assumption) ?_) | (refine good_fst (by assumption) ?_)) | (extract_lets +onlyGivenNames x; first | (suffices hx : Good pd x from ?_; (on_goal 1 => clear_value x); (on_goal 2 => simp only [x])) | skip) | split | simp only [id_eq] | simp only [good_mk])

theorem keep_functionTold {pd : List Instr × Prop × Prop} {s : State} {port : Bool} {key : Nat} {what : Nat} (h_s : Good pd s) :
    Good pd (functionTold s port key what) := by
  unfold functionTold
  repeat' (first | with_reducible (first | assumption | apply good_of | (intro _) | apply keep_modHp | apply keep_modFn | apply keep_forEach | apply keep_sendMessage | apply keep_orderDestroy | apply keep_releaseTier | apply keep_unbindFrom | apply good_ite | (refine good_snd (by assumption) ?_) | (refine good_fst (by assumption) ?_)) | (extract_lets +onlyGivenNames x; first | (suffices hx : Good pd x from ?_; (on_goal 1 => clear_value x); (on_goal 2 => simp only [x])) | skip) | split | simp only [id_eq] | simp only [good_mk])

theorem keep_pauseKeyTold {pd : List Instr × Prop × Prop} {s : State} {w : List Nat} {data : List Byte} (h_s : Good pd s) :
    Good pd (pauseKeyTold s w data) := by
  unfold pauseKeyTold
  repeat' (first | with_reducible (first | assumption | apply good_of | (intro _) | apply good_ite | (refine good_snd (by assumption) ?_) | (refine good_fst (by assumption) ?_)) | (extract_lets +onlyGivenNames x; first | (suffices hx : Good pd x from ?_; (on_goal 1 => clear_value x); (on_goal 2 => simp only [x])) | skip) | split | simp only [id_eq] | simp only [good_mk])

theorem keep_pageTold {pd : List Instr × Prop × Prop} {s : State} {w : List Nat} (h_s : Good pd s) :
    Good pd (pageTold s w) := by
  unfold pageTold
  repeat' (first | with_reducible (first | assumption | apply good_of | (intro _) | apply keep_indexPage | apply good_ite | (refine good_snd (by assumption) ?_) | (refine good_fst (by assumption) ?_)) | (extract_lets +onlyGivenNames x; first | (suffices hx : Good pd x from ?_; (on_goal 1 => clear_value x); (on_goal 2 => simp only [x])) | skip) | split | simp only [id_eq] | simp only [good_mk])

theorem keep_readFailed {pd : List Instr × Prop × Prop} {s : State} {tag : Nat} (h_s : Good pd s) :
    Good pd (readFailed s tag) := by
  unfold readFailed
  repeat' (first | with_reducible (first | assumption | apply good_of | (intro _) | apply keep_complete | apply good_ite | (refine good_snd (by assumption) ?_) | (refine good_fst (by assumption) ?_)) | (extract_lets +onlyGivenNames x; first | (suffices hx : Good pd x from ?_; (on_goal 1 => clear_value x); (on_goal 2 => simp only [x])) | skip) | split | simp only [id_eq] | simp only [good_mk])

theorem keep_message {pd : List Instr × Prop × Prop} {s : State} {source : Nat} {body : List Byte} (h_s : Good pd s) :
    Good pd (message s source body) := by
  unfold message
  repeat' (first | with_reducible (first | assumption | apply good_of | (intro _) | apply keep_modFn | apply keep_modStream | apply keep_modSlot | apply keep_hostSend | apply keep_notifyPf0 | apply keep_deliver | apply keep_dropPauseKey | apply keep_orderDestroy | apply keep_startMeasure | apply keep_discardStaged | apply keep_revertHandoff | apply keep_beginChange | apply keep_toMailbox | apply keep_forwarded | apply keep_answered | apply keep_imageToCheck | apply keep_recordForwarded | apply keep_slotOrdered | apply keep_ownerShared | apply keep_functionTold | apply keep_pauseKeyTold | apply keep_pageTold | apply keep_readFailed | apply good_ite | (refine good_snd (by assumption) ?_) | (refine good_fst (by assumption) ?_)) | (extract_lets +onlyGivenNames x; first | (suffices hx : Good pd x from ?_; (on_goal 1 => clear_value x); (on_goal 2 => simp only [x])) | skip) | split | simp only [id_eq] | simp only [good_mk])

theorem keep_execCreditMessage {pd : List Instr × Prop × Prop} {s : State} (h_s : Good pd s) :
    OutGood pd (execCreditMessage s) := by
  unfold execCreditMessage
  show Good pd _
  repeat' (first | with_reducible (first | assumption | apply good_of | (intro _) | apply keep_takePacket | apply keep_message | apply good_ite | (refine good_snd (by assumption) ?_) | (refine good_fst (by assumption) ?_)) | (extract_lets +onlyGivenNames x; first | (suffices hx : Good pd x from ?_; (on_goal 1 => clear_value x); (on_goal 2 => simp only [x])) | skip) | split | simp only [id_eq] | simp only [good_mk])

theorem keep_execCreditImage {pd : List Instr × Prop × Prop} {s : State} (h_s : Good pd s) :
    OutGood pd (execCreditImage s) := by
  unfold execCreditImage
  show Good pd _
  repeat' (first | with_reducible (first | assumption | apply good_of | (intro _) | apply keep_imagePacket | apply keep_takePacket | apply good_ite | (refine good_snd (by assumption) ?_) | (refine good_fst (by assumption) ?_)) | (extract_lets +onlyGivenNames x; first | (suffices hx : Good pd x from ?_; (on_goal 1 => clear_value x); (on_goal 2 => simp only [x])) | skip) | split | simp only [id_eq] | simp only [good_mk])

theorem keep_execRepairRound {pd : List Instr × Prop × Prop} {op : BitVec 16} {probes : List RepairInput} {live : List RepairInput} {heldOut : List RepairInput} {s : State} (h_s : Good pd s) :
    OutGood pd (execRepairRound op probes live heldOut s) := by
  unfold execRepairRound
  show Good pd _
  repeat' (first | with_reducible (first | assumption | apply good_of | (intro _) | apply keep_modLive | apply keep_modAdapter | apply keep_repairRound | apply good_ite | (refine good_snd (by assumption) ?_) | (refine good_fst (by assumption) ?_)) | (extract_lets +onlyGivenNames x; first | (suffices hx : Good pd x from ?_; (on_goal 1 => clear_value x); (on_goal 2 => simp only [x])) | skip) | split | simp only [id_eq] | simp only [good_mk])

theorem keep_execAdapterCommit {pd : List Instr × Prop × Prop} {op : BitVec 16} {s : State} (h_s : Good pd s) :
    OutGood pd (execAdapterCommit op s) := by
  unfold execAdapterCommit
  show Good pd _
  repeat' (first | with_reducible (first | assumption | apply good_of | (intro _) | apply keep_raiseEvent | apply keep_writeUnder | apply keep_modAdapter | apply good_ite | (refine good_snd (by assumption) ?_) | (refine good_fst (by assumption) ?_)) | (extract_lets +onlyGivenNames x; first | (suffices hx : Good pd x from ?_; (on_goal 1 => clear_value x); (on_goal 2 => simp only [x])) | skip) | split | simp only [id_eq] | simp only [good_mk])

end Sys2Proof.Machine
end

