-- ==== Sys2Proof/Laws/Ops.lean ====
section
/-! SUPPORT. What the shared operations can do, said once for each: sending on the ring, raising an event, freezing, the record of one
unit. -/

namespace Sys2Proof.Machine

/-! ### Traffic on the ring changes the ring interface and the log of outputs, nothing else -/

/-- `t` differs from `s` in the ring interface and the outputs at most. -/
def Sent (s t : State) : Prop := ∃ r o, t = { s with ri := r, out := o }

theorem Sent.refl (s : State) : Sent s s := ⟨s.ri, s.out, rfl⟩

theorem Sent.trans {s t u : State} (h : Sent s t) (g : Sent t u) : Sent s u := by
  obtain ⟨r, o, rfl⟩ := h
  obtain ⟨r', o', rfl⟩ := g
  exact ⟨r', o', rfl⟩

theorem sent_forEach {α : Type} (l : List α) (f : State → α → State) (hf : ∀ s a, Sent s (f s a)) (s : State) : Sent s (forEach l f s) := by
  unfold forEach
  induction l generalizing s with
  | nil => exact Sent.refl s
  | cons a l ih => exact (hf s a).trans (ih _)

theorem sent_emit (s : State) (o : Output) : Sent s (emit s o) := ⟨s.ri, _, rfl⟩

theorem sent_modLink (s : State) (p : Nat) (f : Link → Link) : Sent s (modLink s p f) := ⟨_, s.out, rfl⟩

theorem sent_sendFlit (s : State) (p : Nat) (h : FlitHeader) (payload : List Byte) (plain : Bool) :
    Sent s (sendFlit s p h payload plain) := by
  unfold sendFlit
  dsimp only
  split
  · exact Sent.refl s
  · split
    · exact sent_emit s _
    · exact (sent_modLink s p _).trans (sent_emit _ _)

theorem sent_sendControl (s : State) (p : Nat) (fields : List (Nat × Nat)) (plain : Bool) : Sent s (sendControl s p fields plain) :=
  sent_sendFlit s p _ _ _

theorem sent_sendReturn (s : State) (rx nak credits cls : Nat) : Sent s (sendReturn s rx nak credits cls) :=
  sent_sendFlit s _ _ _ _

theorem sent_sendCredit (s : State) (p seq : Nat) (f : CreditFlit) : Sent s (sendCredit s p seq f) :=
  sent_sendFlit s _ _ _ _

theorem sent_sendNextCredit (s : State) (p : Nat) : Sent s (sendNextCredit s p) := by
  unfold sendNextCredit
  split
  · exact Sent.refl s
  · dsimp only
    split
    · exact ((sent_modLink s p _).trans (sent_sendCredit _ _ _ _)).trans (sent_sendReturn _ _ _ _ _)
    · exact (sent_modLink s p _).trans (sent_sendCredit _ _ _ _)

theorem sent_drainCredits (s : State) (p : Nat) : Sent s (drainCredits s p) :=
  sent_forEach _ _ (fun s _ => sent_sendNextCredit s p) s

theorem sent_queueCredit (s : State) (p : Nat) (f : CreditFlit) : Sent s (queueCredit s p f) := by
  unfold queueCredit
  split
  · exact (sent_modLink s p _).trans (sent_drainCredits _ _)
  · exact Sent.refl s

theorem sent_sendPacket (s : State) (cls dst : Nat) (bytes : List Byte) : Sent s (sendPacket s cls dst bytes) := by
  unfold sendPacket
  dsimp only
  split
  · exact Sent.refl s
  · exact sent_forEach _ _ (fun s _ => sent_queueCredit s _ _) s

/-- A message to another member leaves everything but the ring interface and the outputs. -/
theorem sent_sendMessage (s : State) (dst kind : Nat) (words : List Nat) (data : List Byte) : Sent s (sendMessage s dst kind words data) :=
  sent_forEach _ _ (fun s _ => sent_sendPacket s _ _ _) s

/-- A message to every member leaves everything but the ring interface and the outputs. -/
theorem sent_broadcast (s : State) (kind : Nat) (words : List Nat) (data : List Byte) : Sent s (broadcast s kind words data) := by
  unfold broadcast
  split
  · refine sent_forEach _ _ (fun s p => ?_) s
    split
    · exact Sent.refl s
    · exact sent_sendMessage s _ _ _ _
  · exact Sent.refl s

/-! ### Reporting an event -/

/-- `t` differs from `s` at most by what reporting events changes (R39-R46, R387, R388, R434, R468, R502): EVT_STATUS bits, the sump with its
head, the records of the cycle in it and its region of memory with the errors there, the outputs and those a link that is down delays, what a
hostless member sends to the headframe, the management queue with ALERT#, and the counter of free values. -/
def Reported (s t : State) : Prop :=
  ∃ hd pw sb sc po la lo m mk o al mg fr ri da db, t = { s with
    hdrs := hd, power := { s.power with sumpHead := pw, sumpBatch := sb, sumpCycle := sc }
    ms := { s.ms with poisoned := po, latent := la, lost := lo }
    mem := m, memKey := mk, out := o, pins := { s.pins with alert := al }, mgmt := mg, free := fr, ri := ri
    hpA := { s.hpA with delayed := da }, hpB := { s.hpB with delayed := db } }

/-- A change of the listed parts alone is a report. -/
theorem Reported.of (s : State) {hd pw sb sc po la lo m mk o al mg fr ri da db} {t : State} (h : t = { s with
    hdrs := hd, power := { s.power with sumpHead := pw, sumpBatch := sb, sumpCycle := sc }
    ms := { s.ms with poisoned := po, latent := la, lost := lo }
    mem := m, memKey := mk, out := o, pins := { s.pins with alert := al }, mgmt := mg, free := fr, ri := ri
    hpA := { s.hpA with delayed := da }, hpB := { s.hpB with delayed := db } }) : Reported s t :=
  ⟨hd, pw, sb, sc, po, la, lo, m, mk, o, al, mg, fr, ri, da, db, h⟩

theorem Reported.refl (s : State) : Reported s s := Reported.of s rfl

theorem Reported.trans {s t u : State} (h : Reported s t) (g : Reported t u) : Reported s u := by
  obtain ⟨_, _, _, _, _, _, _, _, _, _, _, _, _, _, _, _, rfl⟩ := h
  obtain ⟨_, _, _, _, _, _, _, _, _, _, _, _, _, _, _, _, rfl⟩ := g
  exact Reported.of s rfl

theorem reported_ite {c : Prop} [Decidable c] {s a b : State} (ha : Reported s a) (hb : Reported s b) :
    Reported s (if c then a else b) := by
  split <;> assumption

theorem reported_forEach {α : Type} (l : List α) (f : State → α → State) (hf : ∀ s a, Reported s (f s a)) (s : State) :
    Reported s (forEach l f s) := by
  unfold forEach
  induction l generalizing s with
  | nil => exact Reported.refl s
  | cons a l ih => exact (hf s a).trans (ih _)

theorem reported_sent {s t : State} (h : Sent s t) : Reported s t := by
  obtain ⟨_, _, rfl⟩ := h
  exact Reported.of s rfl

theorem reported_modHdr (s : State) (p : Nat) (f : Hdr → Hdr) : Reported s (modHdr s p f) := Reported.of s rfl

theorem reported_memWrite (s : State) (k a : Nat) (bs : List Byte) : Reported s (memWrite s k a bs) := Reported.of s rfl

theorem reported_errors (s : State) (po : List Nat) (la : List (Nat × Bool)) (lo : List Nat) :
    Reported s { s with ms := { s.ms with poisoned := po, latent := la, lost := lo } } := Reported.of s rfl

theorem reported_mergeWord (s : State) (k w : Nat) (p : Nat × List Byte) : Reported s (mergeWord s k w p) := by
  unfold mergeWord
  split
  · exact (reported_memWrite s k (64 * w) p.2).trans (reported_errors _ _ _ _)
  · refine reported_ite (Reported.refl s) ?_
    exact (reported_memWrite s k (64 * w) _).trans (reported_errors _ _ _ _)

/-- A sump record changes the sump's region, its head and the records of the cycle. -/
theorem reported_sumpWrite (s : State) (page code : Nat) (forced : Bool) (inf : List Byte) :
    Reported s (sumpWrite s page code forced inf) := by
  unfold sumpWrite
  extract_lets batch first s1
  have h : Reported s s1 := reported_forEach _ _ (fun s _ =>
    (reported_ite (reported_errors s _ _ _) (Reported.refl s)).trans (reported_mergeWord _ _ _ _)) s
  exact h.trans (Reported.of s1 rfl)

theorem reported_hostSend (s : State) (p : Bool) (o : Output) : Reported s (hostSend s p o) := by
  unfold hostSend
  refine reported_ite (reported_sent (sent_emit s o)) ?_
  cases p
  · exact Reported.of s rfl
  · exact Reported.of s rfl

theorem reported_mgmtEnqueue (s : State) (cls : Nat) (data : List Byte) (f : Bool) : Reported s (mgmtEnqueue s cls data f) := by
  unfold mgmtEnqueue
  split <;> exact Reported.of s rfl

theorem reported_notifyPf0 (s : State) (p : Bool) : Reported s (notifyPf0 s p) :=
  reported_ite (reported_hostSend s p _) (Reported.refl s)

theorem reported_notifyHost (s : State) (page : Nat) : Reported s (notifyHost s page) := by
  unfold notifyHost
  dsimp only
  split
  · exact reported_sent (sent_sendMessage s _ _ _ _)
  · exact reported_ite (reported_notifyPf0 s _) ((reported_notifyPf0 s _).trans (reported_notifyPf0 _ _))

/-- Raising an event changes at most what reporting changes. -/
theorem reported_raiseEvent (s : State) (page code : Nat) (inf : List Byte) (forced : Bool) :
    Reported s (raiseEvent s page code inf forced) := by
  unfold raiseEvent
  extract_lets h enabled fault s1 recorded seqLow s2 data s3 s4
  have h1 : Reported s s1 := reported_ite (reported_modHdr s _ _) (Reported.refl s)
  have h2 : Reported s1 s2 := reported_ite (Reported.refl s1) (Reported.of s1 rfl)
  have h3 : Reported s2 s3 := reported_ite (reported_sumpWrite s2 _ _ _ _) (Reported.refl s2)
  have h4 : Reported s3 s4 := reported_ite (reported_notifyHost s3 _) (Reported.refl s3)
  exact (((h1.trans h2).trans h3).trans h4).trans (reported_ite (reported_mgmtEnqueue s4 _ _ _) (Reported.refl s4))

/-! ### One unit's record -/

/-- Changing a core's record reads back as changed. -/
theorem getCore_modCore {s : State} (h : tblWf {} s.cores = true) (c : Nat) (f : Core → Core) :
    getCore (modCore s c f) c = f (getCore s c) := tblGet_mod_self h c f

/-- Changing a core's record leaves every other core. -/
theorem getCore_modCore_ne {s : State} {c d : Nat} (f : Core → Core) (h : d ≠ c) : getCore (modCore s c f) d = getCore s d :=
  tblGet_mod_ne f h

/-- The header of a page after a change reads back as changed. -/
theorem getHdr_modHdr {s : State} (h : tblWf {} s.hdrs = true) (p : Nat) (f : Hdr → Hdr) :
    getHdr (modHdr s p f) p = f (getHdr s p) := tblGet_mod_self h p f

/-- Two changes of a core that agree on the record it has make the same state. -/
theorem modCore_congr {s : State} {c : Nat} {f g : Core → Core} (h : f (getCore s c) = g (getCore s c)) : modCore s c f = modCore s c g := by
  unfold modCore tblMod
  unfold getCore at h
  rw [h]

/-- Two effects that agree on the core's record retire alike. -/
theorem retire_congr {s : State} {c : Nat} {f g : Core → Core} (h : f (getCore s c) = g (getCore s c)) : retire s c f = retire s c g := by
  unfold retire
  rw [modCore_congr h]

/-- A ready instruction takes its effect. -/
theorem issue_ready {s : State} {c : BitVec 8} {w : BitVec 64} (h : ready s c w) (f : State → State) : issue s c.toNat w f = f s := by
  unfold issue
  rw [if_pos h.1, h.2.1, h.2.2]
  simp

end Sys2Proof.Machine
end

