-- ==== Sys2Proof/Laws/State.lean ====
section
/-! SUPPORT. What each update of the state does to each of its fields: one lemma per update and field, so that no later proof unfolds a
record update. -/

namespace Sys2Proof.Machine

variable (s : State)

/-! `modHdr` -/

@[simp] theorem modHdr_clock (p : Nat) (f : Hdr → Hdr) : (modHdr s p f).clock = s.clock := rfl
@[simp] theorem modHdr_free (p : Nat) (f : Hdr → Hdr) : (modHdr s p f).free = s.free := rfl
@[simp] theorem modHdr_out (p : Nat) (f : Hdr → Hdr) : (modHdr s p f).out = s.out := rfl
@[simp] theorem modHdr_pending (p : Nat) (f : Hdr → Hdr) : (modHdr s p f).pending = s.pending := rfl
@[simp] theorem modHdr_pins (p : Nat) (f : Hdr → Hdr) : (modHdr s p f).pins = s.pins := rfl
@[simp] theorem modHdr_power (p : Nat) (f : Hdr → Hdr) : (modHdr s p f).power = s.power := rfl
@[simp] theorem modHdr_manifest (p : Nat) (f : Hdr → Hdr) : (modHdr s p f).manifest = s.manifest := rfl
@[simp] theorem modHdr_hdrs (p : Nat) (f : Hdr → Hdr) : (modHdr s p f).hdrs = tblMod {} s.hdrs p f := rfl
@[simp] theorem modHdr_frozen (p : Nat) (f : Hdr → Hdr) : (modHdr s p f).frozen = s.frozen := rfl
@[simp] theorem modHdr_cx (p : Nat) (f : Hdr → Hdr) : (modHdr s p f).cx = s.cx := rfl
@[simp] theorem modHdr_handoff (p : Nat) (f : Hdr → Hdr) : (modHdr s p f).handoff = s.handoff := rfl
@[simp] theorem modHdr_dp (p : Nat) (f : Hdr → Hdr) : (modHdr s p f).dp = s.dp := rfl
@[simp] theorem modHdr_hb (p : Nat) (f : Hdr → Hdr) : (modHdr s p f).hb = s.hb := rfl
@[simp] theorem modHdr_mc (p : Nat) (f : Hdr → Hdr) : (modHdr s p f).mc = s.mc := rfl
@[simp] theorem modHdr_ke (p : Nat) (f : Hdr → Hdr) : (modHdr s p f).ke = s.ke := rfl
@[simp] theorem modHdr_store (p : Nat) (f : Hdr → Hdr) : (modHdr s p f).store = s.store := rfl
@[simp] theorem modHdr_sq (p : Nat) (f : Hdr → Hdr) : (modHdr s p f).sq = s.sq := rfl
@[simp] theorem modHdr_ri (p : Nat) (f : Hdr → Hdr) : (modHdr s p f).ri = s.ri := rfl
@[simp] theorem modHdr_hpA (p : Nat) (f : Hdr → Hdr) : (modHdr s p f).hpA = s.hpA := rfl
@[simp] theorem modHdr_hpB (p : Nat) (f : Hdr → Hdr) : (modHdr s p f).hpB = s.hpB := rfl
@[simp] theorem modHdr_ms (p : Nat) (f : Hdr → Hdr) : (modHdr s p f).ms = s.ms := rfl
@[simp] theorem modHdr_scs (p : Nat) (f : Hdr → Hdr) : (modHdr s p f).scs = s.scs := rfl
@[simp] theorem modHdr_tgs (p : Nat) (f : Hdr → Hdr) : (modHdr s p f).tgs = s.tgs := rfl
@[simp] theorem modHdr_tiles (p : Nat) (f : Hdr → Hdr) : (modHdr s p f).tiles = s.tiles := rfl
@[simp] theorem modHdr_beatTiles (p : Nat) (f : Hdr → Hdr) : (modHdr s p f).beatTiles = s.beatTiles := rfl
@[simp] theorem modHdr_beatTgs (p : Nat) (f : Hdr → Hdr) : (modHdr s p f).beatTgs = s.beatTgs := rfl
@[simp] theorem modHdr_bindings (p : Nat) (f : Hdr → Hdr) : (modHdr s p f).bindings = s.bindings := rfl
@[simp] theorem modHdr_loads (p : Nat) (f : Hdr → Hdr) : (modHdr s p f).loads = s.loads := rfl
@[simp] theorem modHdr_loadNo (p : Nat) (f : Hdr → Hdr) : (modHdr s p f).loadNo = s.loadNo := rfl
@[simp] theorem modHdr_jobs (p : Nat) (f : Hdr → Hdr) : (modHdr s p f).jobs = s.jobs := rfl
@[simp] theorem modHdr_unbinding (p : Nat) (f : Hdr → Hdr) : (modHdr s p f).unbinding = s.unbinding := rfl
@[simp] theorem modHdr_cores (p : Nat) (f : Hdr → Hdr) : (modHdr s p f).cores = s.cores := rfl
@[simp] theorem modHdr_owners (p : Nat) (f : Hdr → Hdr) : (modHdr s p f).owners = s.owners := rfl
@[simp] theorem modHdr_streams (p : Nat) (f : Hdr → Hdr) : (modHdr s p f).streams = s.streams := rfl
@[simp] theorem modHdr_prefixes (p : Nat) (f : Hdr → Hdr) : (modHdr s p f).prefixes = s.prefixes := rfl
@[simp] theorem modHdr_promptUsed (p : Nat) (f : Hdr → Hdr) : (modHdr s p f).promptUsed = s.promptUsed := rfl
@[simp] theorem modHdr_mgmt (p : Nat) (f : Hdr → Hdr) : (modHdr s p f).mgmt = s.mgmt := rfl
@[simp] theorem modHdr_mem (p : Nat) (f : Hdr → Hdr) : (modHdr s p f).mem = s.mem := rfl
@[simp] theorem modHdr_memKey (p : Nat) (f : Hdr → Hdr) : (modHdr s p f).memKey = s.memKey := rfl

/-! `modHp` -/

@[simp] theorem modHp_clock (port : Bool) (f : Hp → Hp) : (modHp s port f).clock = s.clock := by cases port <;> rfl
@[simp] theorem modHp_free (port : Bool) (f : Hp → Hp) : (modHp s port f).free = s.free := by cases port <;> rfl
@[simp] theorem modHp_out (port : Bool) (f : Hp → Hp) : (modHp s port f).out = s.out := by cases port <;> rfl
@[simp] theorem modHp_pending (port : Bool) (f : Hp → Hp) : (modHp s port f).pending = s.pending := by cases port <;> rfl
@[simp] theorem modHp_pins (port : Bool) (f : Hp → Hp) : (modHp s port f).pins = s.pins := by cases port <;> rfl
@[simp] theorem modHp_power (port : Bool) (f : Hp → Hp) : (modHp s port f).power = s.power := by cases port <;> rfl
@[simp] theorem modHp_manifest (port : Bool) (f : Hp → Hp) : (modHp s port f).manifest = s.manifest := by cases port <;> rfl
@[simp] theorem modHp_hdrs (port : Bool) (f : Hp → Hp) : (modHp s port f).hdrs = s.hdrs := by cases port <;> rfl
@[simp] theorem modHp_frozen (port : Bool) (f : Hp → Hp) : (modHp s port f).frozen = s.frozen := by cases port <;> rfl
@[simp] theorem modHp_cx (port : Bool) (f : Hp → Hp) : (modHp s port f).cx = s.cx := by cases port <;> rfl
@[simp] theorem modHp_handoff (port : Bool) (f : Hp → Hp) : (modHp s port f).handoff = s.handoff := by cases port <;> rfl
@[simp] theorem modHp_dp (port : Bool) (f : Hp → Hp) : (modHp s port f).dp = s.dp := by cases port <;> rfl
@[simp] theorem modHp_hb (port : Bool) (f : Hp → Hp) : (modHp s port f).hb = s.hb := by cases port <;> rfl
@[simp] theorem modHp_mc (port : Bool) (f : Hp → Hp) : (modHp s port f).mc = s.mc := by cases port <;> rfl
@[simp] theorem modHp_ke (port : Bool) (f : Hp → Hp) : (modHp s port f).ke = s.ke := by cases port <;> rfl
@[simp] theorem modHp_store (port : Bool) (f : Hp → Hp) : (modHp s port f).store = s.store := by cases port <;> rfl
@[simp] theorem modHp_sq (port : Bool) (f : Hp → Hp) : (modHp s port f).sq = s.sq := by cases port <;> rfl
@[simp] theorem modHp_ri (port : Bool) (f : Hp → Hp) : (modHp s port f).ri = s.ri := by cases port <;> rfl
@[simp] theorem modHp_hpA (port : Bool) (f : Hp → Hp) : (modHp s port f).hpA = if port then s.hpA else f s.hpA := by cases port <;> rfl
@[simp] theorem modHp_hpB (port : Bool) (f : Hp → Hp) : (modHp s port f).hpB = if port then f s.hpB else s.hpB := by cases port <;> rfl
@[simp] theorem modHp_ms (port : Bool) (f : Hp → Hp) : (modHp s port f).ms = s.ms := by cases port <;> rfl
@[simp] theorem modHp_scs (port : Bool) (f : Hp → Hp) : (modHp s port f).scs = s.scs := by cases port <;> rfl
@[simp] theorem modHp_tgs (port : Bool) (f : Hp → Hp) : (modHp s port f).tgs = s.tgs := by cases port <;> rfl
@[simp] theorem modHp_tiles (port : Bool) (f : Hp → Hp) : (modHp s port f).tiles = s.tiles := by cases port <;> rfl
@[simp] theorem modHp_beatTiles (port : Bool) (f : Hp → Hp) : (modHp s port f).beatTiles = s.beatTiles := by cases port <;> rfl
@[simp] theorem modHp_beatTgs (port : Bool) (f : Hp → Hp) : (modHp s port f).beatTgs = s.beatTgs := by cases port <;> rfl
@[simp] theorem modHp_bindings (port : Bool) (f : Hp → Hp) : (modHp s port f).bindings = s.bindings := by cases port <;> rfl
@[simp] theorem modHp_loads (port : Bool) (f : Hp → Hp) : (modHp s port f).loads = s.loads := by cases port <;> rfl
@[simp] theorem modHp_loadNo (port : Bool) (f : Hp → Hp) : (modHp s port f).loadNo = s.loadNo := by cases port <;> rfl
@[simp] theorem modHp_jobs (port : Bool) (f : Hp → Hp) : (modHp s port f).jobs = s.jobs := by cases port <;> rfl
@[simp] theorem modHp_unbinding (port : Bool) (f : Hp → Hp) : (modHp s port f).unbinding = s.unbinding := by cases port <;> rfl
@[simp] theorem modHp_cores (port : Bool) (f : Hp → Hp) : (modHp s port f).cores = s.cores := by cases port <;> rfl
@[simp] theorem modHp_owners (port : Bool) (f : Hp → Hp) : (modHp s port f).owners = s.owners := by cases port <;> rfl
@[simp] theorem modHp_streams (port : Bool) (f : Hp → Hp) : (modHp s port f).streams = s.streams := by cases port <;> rfl
@[simp] theorem modHp_prefixes (port : Bool) (f : Hp → Hp) : (modHp s port f).prefixes = s.prefixes := by cases port <;> rfl
@[simp] theorem modHp_promptUsed (port : Bool) (f : Hp → Hp) : (modHp s port f).promptUsed = s.promptUsed := by cases port <;> rfl
@[simp] theorem modHp_mgmt (port : Bool) (f : Hp → Hp) : (modHp s port f).mgmt = s.mgmt := by cases port <;> rfl
@[simp] theorem modHp_mem (port : Bool) (f : Hp → Hp) : (modHp s port f).mem = s.mem := by cases port <;> rfl
@[simp] theorem modHp_memKey (port : Bool) (f : Hp → Hp) : (modHp s port f).memKey = s.memKey := by cases port <;> rfl

/-! `modFn` -/

@[simp] theorem modFn_clock (port : Bool) (n : Nat) (f : Fn → Fn) : (modFn s port n f).clock = s.clock := by cases port <;> rfl
@[simp] theorem modFn_free (port : Bool) (n : Nat) (f : Fn → Fn) : (modFn s port n f).free = s.free := by cases port <;> rfl
@[simp] theorem modFn_out (port : Bool) (n : Nat) (f : Fn → Fn) : (modFn s port n f).out = s.out := by cases port <;> rfl
@[simp] theorem modFn_pending (port : Bool) (n : Nat) (f : Fn → Fn) : (modFn s port n f).pending = s.pending := by cases port <;> rfl
@[simp] theorem modFn_pins (port : Bool) (n : Nat) (f : Fn → Fn) : (modFn s port n f).pins = s.pins := by cases port <;> rfl
@[simp] theorem modFn_power (port : Bool) (n : Nat) (f : Fn → Fn) : (modFn s port n f).power = s.power := by cases port <;> rfl
@[simp] theorem modFn_manifest (port : Bool) (n : Nat) (f : Fn → Fn) : (modFn s port n f).manifest = s.manifest := by cases port <;> rfl
@[simp] theorem modFn_hdrs (port : Bool) (n : Nat) (f : Fn → Fn) : (modFn s port n f).hdrs = s.hdrs := by cases port <;> rfl
@[simp] theorem modFn_frozen (port : Bool) (n : Nat) (f : Fn → Fn) : (modFn s port n f).frozen = s.frozen := by cases port <;> rfl
@[simp] theorem modFn_cx (port : Bool) (n : Nat) (f : Fn → Fn) : (modFn s port n f).cx = s.cx := by cases port <;> rfl
@[simp] theorem modFn_handoff (port : Bool) (n : Nat) (f : Fn → Fn) : (modFn s port n f).handoff = s.handoff := by cases port <;> rfl
@[simp] theorem modFn_dp (port : Bool) (n : Nat) (f : Fn → Fn) : (modFn s port n f).dp = s.dp := by cases port <;> rfl
@[simp] theorem modFn_hb (port : Bool) (n : Nat) (f : Fn → Fn) : (modFn s port n f).hb = s.hb := by cases port <;> rfl
@[simp] theorem modFn_mc (port : Bool) (n : Nat) (f : Fn → Fn) : (modFn s port n f).mc = s.mc := by cases port <;> rfl
@[simp] theorem modFn_ke (port : Bool) (n : Nat) (f : Fn → Fn) : (modFn s port n f).ke = s.ke := by cases port <;> rfl
@[simp] theorem modFn_store (port : Bool) (n : Nat) (f : Fn → Fn) : (modFn s port n f).store = s.store := by cases port <;> rfl
@[simp] theorem modFn_sq (port : Bool) (n : Nat) (f : Fn → Fn) : (modFn s port n f).sq = s.sq := by cases port <;> rfl
@[simp] theorem modFn_ri (port : Bool) (n : Nat) (f : Fn → Fn) : (modFn s port n f).ri = s.ri := by cases port <;> rfl
@[simp] theorem modFn_ms (port : Bool) (n : Nat) (f : Fn → Fn) : (modFn s port n f).ms = s.ms := by cases port <;> rfl
@[simp] theorem modFn_scs (port : Bool) (n : Nat) (f : Fn → Fn) : (modFn s port n f).scs = s.scs := by cases port <;> rfl
@[simp] theorem modFn_tgs (port : Bool) (n : Nat) (f : Fn → Fn) : (modFn s port n f).tgs = s.tgs := by cases port <;> rfl
@[simp] theorem modFn_tiles (port : Bool) (n : Nat) (f : Fn → Fn) : (modFn s port n f).tiles = s.tiles := by cases port <;> rfl
@[simp] theorem modFn_beatTiles (port : Bool) (n : Nat) (f : Fn → Fn) : (modFn s port n f).beatTiles = s.beatTiles := by cases port <;> rfl
@[simp] theorem modFn_beatTgs (port : Bool) (n : Nat) (f : Fn → Fn) : (modFn s port n f).beatTgs = s.beatTgs := by cases port <;> rfl
@[simp] theorem modFn_bindings (port : Bool) (n : Nat) (f : Fn → Fn) : (modFn s port n f).bindings = s.bindings := by cases port <;> rfl
@[simp] theorem modFn_loads (port : Bool) (n : Nat) (f : Fn → Fn) : (modFn s port n f).loads = s.loads := by cases port <;> rfl
@[simp] theorem modFn_loadNo (port : Bool) (n : Nat) (f : Fn → Fn) : (modFn s port n f).loadNo = s.loadNo := by cases port <;> rfl
@[simp] theorem modFn_jobs (port : Bool) (n : Nat) (f : Fn → Fn) : (modFn s port n f).jobs = s.jobs := by cases port <;> rfl
@[simp] theorem modFn_unbinding (port : Bool) (n : Nat) (f : Fn → Fn) : (modFn s port n f).unbinding = s.unbinding := by cases port <;> rfl
@[simp] theorem modFn_cores (port : Bool) (n : Nat) (f : Fn → Fn) : (modFn s port n f).cores = s.cores := by cases port <;> rfl
@[simp] theorem modFn_owners (port : Bool) (n : Nat) (f : Fn → Fn) : (modFn s port n f).owners = s.owners := by cases port <;> rfl
@[simp] theorem modFn_streams (port : Bool) (n : Nat) (f : Fn → Fn) : (modFn s port n f).streams = s.streams := by cases port <;> rfl
@[simp] theorem modFn_prefixes (port : Bool) (n : Nat) (f : Fn → Fn) : (modFn s port n f).prefixes = s.prefixes := by cases port <;> rfl
@[simp] theorem modFn_promptUsed (port : Bool) (n : Nat) (f : Fn → Fn) : (modFn s port n f).promptUsed = s.promptUsed := by cases port <;> rfl
@[simp] theorem modFn_mgmt (port : Bool) (n : Nat) (f : Fn → Fn) : (modFn s port n f).mgmt = s.mgmt := by cases port <;> rfl
@[simp] theorem modFn_mem (port : Bool) (n : Nat) (f : Fn → Fn) : (modFn s port n f).mem = s.mem := by cases port <;> rfl
@[simp] theorem modFn_memKey (port : Bool) (n : Nat) (f : Fn → Fn) : (modFn s port n f).memKey = s.memKey := by cases port <;> rfl

/-! `modQp` -/

@[simp] theorem modQp_clock (port : Bool) (n : Nat) (f : Qp → Qp) : (modQp s port n f).clock = s.clock := by cases port <;> rfl
@[simp] theorem modQp_free (port : Bool) (n : Nat) (f : Qp → Qp) : (modQp s port n f).free = s.free := by cases port <;> rfl
@[simp] theorem modQp_out (port : Bool) (n : Nat) (f : Qp → Qp) : (modQp s port n f).out = s.out := by cases port <;> rfl
@[simp] theorem modQp_pending (port : Bool) (n : Nat) (f : Qp → Qp) : (modQp s port n f).pending = s.pending := by cases port <;> rfl
@[simp] theorem modQp_pins (port : Bool) (n : Nat) (f : Qp → Qp) : (modQp s port n f).pins = s.pins := by cases port <;> rfl
@[simp] theorem modQp_power (port : Bool) (n : Nat) (f : Qp → Qp) : (modQp s port n f).power = s.power := by cases port <;> rfl
@[simp] theorem modQp_manifest (port : Bool) (n : Nat) (f : Qp → Qp) : (modQp s port n f).manifest = s.manifest := by cases port <;> rfl
@[simp] theorem modQp_hdrs (port : Bool) (n : Nat) (f : Qp → Qp) : (modQp s port n f).hdrs = s.hdrs := by cases port <;> rfl
@[simp] theorem modQp_frozen (port : Bool) (n : Nat) (f : Qp → Qp) : (modQp s port n f).frozen = s.frozen := by cases port <;> rfl
@[simp] theorem modQp_cx (port : Bool) (n : Nat) (f : Qp → Qp) : (modQp s port n f).cx = s.cx := by cases port <;> rfl
@[simp] theorem modQp_handoff (port : Bool) (n : Nat) (f : Qp → Qp) : (modQp s port n f).handoff = s.handoff := by cases port <;> rfl
@[simp] theorem modQp_dp (port : Bool) (n : Nat) (f : Qp → Qp) : (modQp s port n f).dp = s.dp := by cases port <;> rfl
@[simp] theorem modQp_hb (port : Bool) (n : Nat) (f : Qp → Qp) : (modQp s port n f).hb = s.hb := by cases port <;> rfl
@[simp] theorem modQp_mc (port : Bool) (n : Nat) (f : Qp → Qp) : (modQp s port n f).mc = s.mc := by cases port <;> rfl
@[simp] theorem modQp_ke (port : Bool) (n : Nat) (f : Qp → Qp) : (modQp s port n f).ke = s.ke := by cases port <;> rfl
@[simp] theorem modQp_store (port : Bool) (n : Nat) (f : Qp → Qp) : (modQp s port n f).store = s.store := by cases port <;> rfl
@[simp] theorem modQp_sq (port : Bool) (n : Nat) (f : Qp → Qp) : (modQp s port n f).sq = s.sq := by cases port <;> rfl
@[simp] theorem modQp_ri (port : Bool) (n : Nat) (f : Qp → Qp) : (modQp s port n f).ri = s.ri := by cases port <;> rfl
@[simp] theorem modQp_ms (port : Bool) (n : Nat) (f : Qp → Qp) : (modQp s port n f).ms = s.ms := by cases port <;> rfl
@[simp] theorem modQp_scs (port : Bool) (n : Nat) (f : Qp → Qp) : (modQp s port n f).scs = s.scs := by cases port <;> rfl
@[simp] theorem modQp_tgs (port : Bool) (n : Nat) (f : Qp → Qp) : (modQp s port n f).tgs = s.tgs := by cases port <;> rfl
@[simp] theorem modQp_tiles (port : Bool) (n : Nat) (f : Qp → Qp) : (modQp s port n f).tiles = s.tiles := by cases port <;> rfl
@[simp] theorem modQp_beatTiles (port : Bool) (n : Nat) (f : Qp → Qp) : (modQp s port n f).beatTiles = s.beatTiles := by cases port <;> rfl
@[simp] theorem modQp_beatTgs (port : Bool) (n : Nat) (f : Qp → Qp) : (modQp s port n f).beatTgs = s.beatTgs := by cases port <;> rfl
@[simp] theorem modQp_bindings (port : Bool) (n : Nat) (f : Qp → Qp) : (modQp s port n f).bindings = s.bindings := by cases port <;> rfl
@[simp] theorem modQp_loads (port : Bool) (n : Nat) (f : Qp → Qp) : (modQp s port n f).loads = s.loads := by cases port <;> rfl
@[simp] theorem modQp_loadNo (port : Bool) (n : Nat) (f : Qp → Qp) : (modQp s port n f).loadNo = s.loadNo := by cases port <;> rfl
@[simp] theorem modQp_jobs (port : Bool) (n : Nat) (f : Qp → Qp) : (modQp s port n f).jobs = s.jobs := by cases port <;> rfl
@[simp] theorem modQp_unbinding (port : Bool) (n : Nat) (f : Qp → Qp) : (modQp s port n f).unbinding = s.unbinding := by cases port <;> rfl
@[simp] theorem modQp_cores (port : Bool) (n : Nat) (f : Qp → Qp) : (modQp s port n f).cores = s.cores := by cases port <;> rfl
@[simp] theorem modQp_owners (port : Bool) (n : Nat) (f : Qp → Qp) : (modQp s port n f).owners = s.owners := by cases port <;> rfl
@[simp] theorem modQp_streams (port : Bool) (n : Nat) (f : Qp → Qp) : (modQp s port n f).streams = s.streams := by cases port <;> rfl
@[simp] theorem modQp_prefixes (port : Bool) (n : Nat) (f : Qp → Qp) : (modQp s port n f).prefixes = s.prefixes := by cases port <;> rfl
@[simp] theorem modQp_promptUsed (port : Bool) (n : Nat) (f : Qp → Qp) : (modQp s port n f).promptUsed = s.promptUsed := by cases port <;> rfl
@[simp] theorem modQp_mgmt (port : Bool) (n : Nat) (f : Qp → Qp) : (modQp s port n f).mgmt = s.mgmt := by cases port <;> rfl
@[simp] theorem modQp_mem (port : Bool) (n : Nat) (f : Qp → Qp) : (modQp s port n f).mem = s.mem := by cases port <;> rfl
@[simp] theorem modQp_memKey (port : Bool) (n : Nat) (f : Qp → Qp) : (modQp s port n f).memKey = s.memKey := by cases port <;> rfl

/-! `modSc` -/

@[simp] theorem modSc_clock (n : Nat) (f : Sc → Sc) : (modSc s n f).clock = s.clock := rfl
@[simp] theorem modSc_free (n : Nat) (f : Sc → Sc) : (modSc s n f).free = s.free := rfl
@[simp] theorem modSc_out (n : Nat) (f : Sc → Sc) : (modSc s n f).out = s.out := rfl
@[simp] theorem modSc_pending (n : Nat) (f : Sc → Sc) : (modSc s n f).pending = s.pending := rfl
@[simp] theorem modSc_pins (n : Nat) (f : Sc → Sc) : (modSc s n f).pins = s.pins := rfl
@[simp] theorem modSc_power (n : Nat) (f : Sc → Sc) : (modSc s n f).power = s.power := rfl
@[simp] theorem modSc_manifest (n : Nat) (f : Sc → Sc) : (modSc s n f).manifest = s.manifest := rfl
@[simp] theorem modSc_hdrs (n : Nat) (f : Sc → Sc) : (modSc s n f).hdrs = s.hdrs := rfl
@[simp] theorem modSc_frozen (n : Nat) (f : Sc → Sc) : (modSc s n f).frozen = s.frozen := rfl
@[simp] theorem modSc_cx (n : Nat) (f : Sc → Sc) : (modSc s n f).cx = s.cx := rfl
@[simp] theorem modSc_handoff (n : Nat) (f : Sc → Sc) : (modSc s n f).handoff = s.handoff := rfl
@[simp] theorem modSc_dp (n : Nat) (f : Sc → Sc) : (modSc s n f).dp = s.dp := rfl
@[simp] theorem modSc_hb (n : Nat) (f : Sc → Sc) : (modSc s n f).hb = s.hb := rfl
@[simp] theorem modSc_mc (n : Nat) (f : Sc → Sc) : (modSc s n f).mc = s.mc := rfl
@[simp] theorem modSc_ke (n : Nat) (f : Sc → Sc) : (modSc s n f).ke = s.ke := rfl
@[simp] theorem modSc_store (n : Nat) (f : Sc → Sc) : (modSc s n f).store = s.store := rfl
@[simp] theorem modSc_sq (n : Nat) (f : Sc → Sc) : (modSc s n f).sq = s.sq := rfl
@[simp] theorem modSc_ri (n : Nat) (f : Sc → Sc) : (modSc s n f).ri = s.ri := rfl
@[simp] theorem modSc_hpA (n : Nat) (f : Sc → Sc) : (modSc s n f).hpA = s.hpA := rfl
@[simp] theorem modSc_hpB (n : Nat) (f : Sc → Sc) : (modSc s n f).hpB = s.hpB := rfl
@[simp] theorem modSc_ms (n : Nat) (f : Sc → Sc) : (modSc s n f).ms = s.ms := rfl
@[simp] theorem modSc_scs (n : Nat) (f : Sc → Sc) : (modSc s n f).scs = tblMod {} s.scs n f := rfl
@[simp] theorem modSc_tgs (n : Nat) (f : Sc → Sc) : (modSc s n f).tgs = s.tgs := rfl
@[simp] theorem modSc_tiles (n : Nat) (f : Sc → Sc) : (modSc s n f).tiles = s.tiles := rfl
@[simp] theorem modSc_beatTiles (n : Nat) (f : Sc → Sc) : (modSc s n f).beatTiles = s.beatTiles := rfl
@[simp] theorem modSc_beatTgs (n : Nat) (f : Sc → Sc) : (modSc s n f).beatTgs = s.beatTgs := rfl
@[simp] theorem modSc_bindings (n : Nat) (f : Sc → Sc) : (modSc s n f).bindings = s.bindings := rfl
@[simp] theorem modSc_loads (n : Nat) (f : Sc → Sc) : (modSc s n f).loads = s.loads := rfl
@[simp] theorem modSc_loadNo (n : Nat) (f : Sc → Sc) : (modSc s n f).loadNo = s.loadNo := rfl
@[simp] theorem modSc_jobs (n : Nat) (f : Sc → Sc) : (modSc s n f).jobs = s.jobs := rfl
@[simp] theorem modSc_unbinding (n : Nat) (f : Sc → Sc) : (modSc s n f).unbinding = s.unbinding := rfl
@[simp] theorem modSc_cores (n : Nat) (f : Sc → Sc) : (modSc s n f).cores = s.cores := rfl
@[simp] theorem modSc_owners (n : Nat) (f : Sc → Sc) : (modSc s n f).owners = s.owners := rfl
@[simp] theorem modSc_streams (n : Nat) (f : Sc → Sc) : (modSc s n f).streams = s.streams := rfl
@[simp] theorem modSc_prefixes (n : Nat) (f : Sc → Sc) : (modSc s n f).prefixes = s.prefixes := rfl
@[simp] theorem modSc_promptUsed (n : Nat) (f : Sc → Sc) : (modSc s n f).promptUsed = s.promptUsed := rfl
@[simp] theorem modSc_mgmt (n : Nat) (f : Sc → Sc) : (modSc s n f).mgmt = s.mgmt := rfl
@[simp] theorem modSc_mem (n : Nat) (f : Sc → Sc) : (modSc s n f).mem = s.mem := rfl
@[simp] theorem modSc_memKey (n : Nat) (f : Sc → Sc) : (modSc s n f).memKey = s.memKey := rfl

/-! `modTg` -/

@[simp] theorem modTg_clock (g : Nat) (f : Tg → Tg) : (modTg s g f).clock = s.clock := rfl
@[simp] theorem modTg_free (g : Nat) (f : Tg → Tg) : (modTg s g f).free = s.free := rfl
@[simp] theorem modTg_out (g : Nat) (f : Tg → Tg) : (modTg s g f).out = s.out := rfl
@[simp] theorem modTg_pending (g : Nat) (f : Tg → Tg) : (modTg s g f).pending = s.pending := rfl
@[simp] theorem modTg_pins (g : Nat) (f : Tg → Tg) : (modTg s g f).pins = s.pins := rfl
@[simp] theorem modTg_power (g : Nat) (f : Tg → Tg) : (modTg s g f).power = s.power := rfl
@[simp] theorem modTg_manifest (g : Nat) (f : Tg → Tg) : (modTg s g f).manifest = s.manifest := rfl
@[simp] theorem modTg_hdrs (g : Nat) (f : Tg → Tg) : (modTg s g f).hdrs = s.hdrs := rfl
@[simp] theorem modTg_frozen (g : Nat) (f : Tg → Tg) : (modTg s g f).frozen = s.frozen := rfl
@[simp] theorem modTg_cx (g : Nat) (f : Tg → Tg) : (modTg s g f).cx = s.cx := rfl
@[simp] theorem modTg_handoff (g : Nat) (f : Tg → Tg) : (modTg s g f).handoff = s.handoff := rfl
@[simp] theorem modTg_dp (g : Nat) (f : Tg → Tg) : (modTg s g f).dp = s.dp := rfl
@[simp] theorem modTg_hb (g : Nat) (f : Tg → Tg) : (modTg s g f).hb = s.hb := rfl
@[simp] theorem modTg_mc (g : Nat) (f : Tg → Tg) : (modTg s g f).mc = s.mc := rfl
@[simp] theorem modTg_ke (g : Nat) (f : Tg → Tg) : (modTg s g f).ke = s.ke := rfl
@[simp] theorem modTg_store (g : Nat) (f : Tg → Tg) : (modTg s g f).store = s.store := rfl
@[simp] theorem modTg_sq (g : Nat) (f : Tg → Tg) : (modTg s g f).sq = s.sq := rfl
@[simp] theorem modTg_ri (g : Nat) (f : Tg → Tg) : (modTg s g f).ri = s.ri := rfl
@[simp] theorem modTg_hpA (g : Nat) (f : Tg → Tg) : (modTg s g f).hpA = s.hpA := rfl
@[simp] theorem modTg_hpB (g : Nat) (f : Tg → Tg) : (modTg s g f).hpB = s.hpB := rfl
@[simp] theorem modTg_ms (g : Nat) (f : Tg → Tg) : (modTg s g f).ms = s.ms := rfl
@[simp] theorem modTg_scs (g : Nat) (f : Tg → Tg) : (modTg s g f).scs = s.scs := rfl
@[simp] theorem modTg_tgs (g : Nat) (f : Tg → Tg) : (modTg s g f).tgs = tblMod {} s.tgs g f := rfl
@[simp] theorem modTg_tiles (g : Nat) (f : Tg → Tg) : (modTg s g f).tiles = s.tiles := rfl
@[simp] theorem modTg_beatTiles (g : Nat) (f : Tg → Tg) : (modTg s g f).beatTiles = s.beatTiles := rfl
@[simp] theorem modTg_beatTgs (g : Nat) (f : Tg → Tg) : (modTg s g f).beatTgs = s.beatTgs := rfl
@[simp] theorem modTg_bindings (g : Nat) (f : Tg → Tg) : (modTg s g f).bindings = s.bindings := rfl
@[simp] theorem modTg_loads (g : Nat) (f : Tg → Tg) : (modTg s g f).loads = s.loads := rfl
@[simp] theorem modTg_loadNo (g : Nat) (f : Tg → Tg) : (modTg s g f).loadNo = s.loadNo := rfl
@[simp] theorem modTg_jobs (g : Nat) (f : Tg → Tg) : (modTg s g f).jobs = s.jobs := rfl
@[simp] theorem modTg_unbinding (g : Nat) (f : Tg → Tg) : (modTg s g f).unbinding = s.unbinding := rfl
@[simp] theorem modTg_cores (g : Nat) (f : Tg → Tg) : (modTg s g f).cores = s.cores := rfl
@[simp] theorem modTg_owners (g : Nat) (f : Tg → Tg) : (modTg s g f).owners = s.owners := rfl
@[simp] theorem modTg_streams (g : Nat) (f : Tg → Tg) : (modTg s g f).streams = s.streams := rfl
@[simp] theorem modTg_prefixes (g : Nat) (f : Tg → Tg) : (modTg s g f).prefixes = s.prefixes := rfl
@[simp] theorem modTg_promptUsed (g : Nat) (f : Tg → Tg) : (modTg s g f).promptUsed = s.promptUsed := rfl
@[simp] theorem modTg_mgmt (g : Nat) (f : Tg → Tg) : (modTg s g f).mgmt = s.mgmt := rfl
@[simp] theorem modTg_mem (g : Nat) (f : Tg → Tg) : (modTg s g f).mem = s.mem := rfl
@[simp] theorem modTg_memKey (g : Nat) (f : Tg → Tg) : (modTg s g f).memKey = s.memKey := rfl

/-! `modTile` -/

@[simp] theorem modTile_clock (i : Nat) (f : Tile → Tile) : (modTile s i f).clock = s.clock := rfl
@[simp] theorem modTile_free (i : Nat) (f : Tile → Tile) : (modTile s i f).free = s.free := rfl
@[simp] theorem modTile_out (i : Nat) (f : Tile → Tile) : (modTile s i f).out = s.out := rfl
@[simp] theorem modTile_pending (i : Nat) (f : Tile → Tile) : (modTile s i f).pending = s.pending := rfl
@[simp] theorem modTile_pins (i : Nat) (f : Tile → Tile) : (modTile s i f).pins = s.pins := rfl
@[simp] theorem modTile_power (i : Nat) (f : Tile → Tile) : (modTile s i f).power = s.power := rfl
@[simp] theorem modTile_manifest (i : Nat) (f : Tile → Tile) : (modTile s i f).manifest = s.manifest := rfl
@[simp] theorem modTile_hdrs (i : Nat) (f : Tile → Tile) : (modTile s i f).hdrs = s.hdrs := rfl
@[simp] theorem modTile_frozen (i : Nat) (f : Tile → Tile) : (modTile s i f).frozen = s.frozen := rfl
@[simp] theorem modTile_cx (i : Nat) (f : Tile → Tile) : (modTile s i f).cx = s.cx := rfl
@[simp] theorem modTile_handoff (i : Nat) (f : Tile → Tile) : (modTile s i f).handoff = s.handoff := rfl
@[simp] theorem modTile_dp (i : Nat) (f : Tile → Tile) : (modTile s i f).dp = s.dp := rfl
@[simp] theorem modTile_hb (i : Nat) (f : Tile → Tile) : (modTile s i f).hb = s.hb := rfl
@[simp] theorem modTile_mc (i : Nat) (f : Tile → Tile) : (modTile s i f).mc = s.mc := rfl
@[simp] theorem modTile_ke (i : Nat) (f : Tile → Tile) : (modTile s i f).ke = s.ke := rfl
@[simp] theorem modTile_store (i : Nat) (f : Tile → Tile) : (modTile s i f).store = s.store := rfl
@[simp] theorem modTile_sq (i : Nat) (f : Tile → Tile) : (modTile s i f).sq = s.sq := rfl
@[simp] theorem modTile_ri (i : Nat) (f : Tile → Tile) : (modTile s i f).ri = s.ri := rfl
@[simp] theorem modTile_hpA (i : Nat) (f : Tile → Tile) : (modTile s i f).hpA = s.hpA := rfl
@[simp] theorem modTile_hpB (i : Nat) (f : Tile → Tile) : (modTile s i f).hpB = s.hpB := rfl
@[simp] theorem modTile_ms (i : Nat) (f : Tile → Tile) : (modTile s i f).ms = s.ms := rfl
@[simp] theorem modTile_scs (i : Nat) (f : Tile → Tile) : (modTile s i f).scs = s.scs := rfl
@[simp] theorem modTile_tgs (i : Nat) (f : Tile → Tile) : (modTile s i f).tgs = s.tgs := rfl
@[simp] theorem modTile_tiles (i : Nat) (f : Tile → Tile) : (modTile s i f).tiles = tblMod {} s.tiles i f := rfl
@[simp] theorem modTile_beatTiles (i : Nat) (f : Tile → Tile) : (modTile s i f).beatTiles = s.beatTiles := rfl
@[simp] theorem modTile_beatTgs (i : Nat) (f : Tile → Tile) : (modTile s i f).beatTgs = s.beatTgs := rfl
@[simp] theorem modTile_bindings (i : Nat) (f : Tile → Tile) : (modTile s i f).bindings = s.bindings := rfl
@[simp] theorem modTile_loads (i : Nat) (f : Tile → Tile) : (modTile s i f).loads = s.loads := rfl
@[simp] theorem modTile_loadNo (i : Nat) (f : Tile → Tile) : (modTile s i f).loadNo = s.loadNo := rfl
@[simp] theorem modTile_jobs (i : Nat) (f : Tile → Tile) : (modTile s i f).jobs = s.jobs := rfl
@[simp] theorem modTile_unbinding (i : Nat) (f : Tile → Tile) : (modTile s i f).unbinding = s.unbinding := rfl
@[simp] theorem modTile_cores (i : Nat) (f : Tile → Tile) : (modTile s i f).cores = s.cores := rfl
@[simp] theorem modTile_owners (i : Nat) (f : Tile → Tile) : (modTile s i f).owners = s.owners := rfl
@[simp] theorem modTile_streams (i : Nat) (f : Tile → Tile) : (modTile s i f).streams = s.streams := rfl
@[simp] theorem modTile_prefixes (i : Nat) (f : Tile → Tile) : (modTile s i f).prefixes = s.prefixes := rfl
@[simp] theorem modTile_promptUsed (i : Nat) (f : Tile → Tile) : (modTile s i f).promptUsed = s.promptUsed := rfl
@[simp] theorem modTile_mgmt (i : Nat) (f : Tile → Tile) : (modTile s i f).mgmt = s.mgmt := rfl
@[simp] theorem modTile_mem (i : Nat) (f : Tile → Tile) : (modTile s i f).mem = s.mem := rfl
@[simp] theorem modTile_memKey (i : Nat) (f : Tile → Tile) : (modTile s i f).memKey = s.memKey := rfl

/-! `modCore` -/

@[simp] theorem modCore_clock (c : Nat) (f : Core → Core) : (modCore s c f).clock = s.clock := rfl
@[simp] theorem modCore_free (c : Nat) (f : Core → Core) : (modCore s c f).free = s.free := rfl
@[simp] theorem modCore_out (c : Nat) (f : Core → Core) : (modCore s c f).out = s.out := rfl
@[simp] theorem modCore_pending (c : Nat) (f : Core → Core) : (modCore s c f).pending = s.pending := rfl
@[simp] theorem modCore_pins (c : Nat) (f : Core → Core) : (modCore s c f).pins = s.pins := rfl
@[simp] theorem modCore_power (c : Nat) (f : Core → Core) : (modCore s c f).power = s.power := rfl
@[simp] theorem modCore_manifest (c : Nat) (f : Core → Core) : (modCore s c f).manifest = s.manifest := rfl
@[simp] theorem modCore_hdrs (c : Nat) (f : Core → Core) : (modCore s c f).hdrs = s.hdrs := rfl
@[simp] theorem modCore_frozen (c : Nat) (f : Core → Core) : (modCore s c f).frozen = s.frozen := rfl
@[simp] theorem modCore_cx (c : Nat) (f : Core → Core) : (modCore s c f).cx = s.cx := rfl
@[simp] theorem modCore_handoff (c : Nat) (f : Core → Core) : (modCore s c f).handoff = s.handoff := rfl
@[simp] theorem modCore_dp (c : Nat) (f : Core → Core) : (modCore s c f).dp = s.dp := rfl
@[simp] theorem modCore_hb (c : Nat) (f : Core → Core) : (modCore s c f).hb = s.hb := rfl
@[simp] theorem modCore_mc (c : Nat) (f : Core → Core) : (modCore s c f).mc = s.mc := rfl
@[simp] theorem modCore_ke (c : Nat) (f : Core → Core) : (modCore s c f).ke = s.ke := rfl
@[simp] theorem modCore_store (c : Nat) (f : Core → Core) : (modCore s c f).store = s.store := rfl
@[simp] theorem modCore_sq (c : Nat) (f : Core → Core) : (modCore s c f).sq = s.sq := rfl
@[simp] theorem modCore_ri (c : Nat) (f : Core → Core) : (modCore s c f).ri = s.ri := rfl
@[simp] theorem modCore_hpA (c : Nat) (f : Core → Core) : (modCore s c f).hpA = s.hpA := rfl
@[simp] theorem modCore_hpB (c : Nat) (f : Core → Core) : (modCore s c f).hpB = s.hpB := rfl
@[simp] theorem modCore_ms (c : Nat) (f : Core → Core) : (modCore s c f).ms = s.ms := rfl
@[simp] theorem modCore_scs (c : Nat) (f : Core → Core) : (modCore s c f).scs = s.scs := rfl
@[simp] theorem modCore_tgs (c : Nat) (f : Core → Core) : (modCore s c f).tgs = s.tgs := rfl
@[simp] theorem modCore_tiles (c : Nat) (f : Core → Core) : (modCore s c f).tiles = s.tiles := rfl
@[simp] theorem modCore_beatTiles (c : Nat) (f : Core → Core) : (modCore s c f).beatTiles = s.beatTiles := rfl
@[simp] theorem modCore_beatTgs (c : Nat) (f : Core → Core) : (modCore s c f).beatTgs = s.beatTgs := rfl
@[simp] theorem modCore_bindings (c : Nat) (f : Core → Core) : (modCore s c f).bindings = s.bindings := rfl
@[simp] theorem modCore_loads (c : Nat) (f : Core → Core) : (modCore s c f).loads = s.loads := rfl
@[simp] theorem modCore_loadNo (c : Nat) (f : Core → Core) : (modCore s c f).loadNo = s.loadNo := rfl
@[simp] theorem modCore_jobs (c : Nat) (f : Core → Core) : (modCore s c f).jobs = s.jobs := rfl
@[simp] theorem modCore_unbinding (c : Nat) (f : Core → Core) : (modCore s c f).unbinding = s.unbinding := rfl
@[simp] theorem modCore_cores (c : Nat) (f : Core → Core) : (modCore s c f).cores = tblMod {} s.cores c f := rfl
@[simp] theorem modCore_owners (c : Nat) (f : Core → Core) : (modCore s c f).owners = s.owners := rfl
@[simp] theorem modCore_streams (c : Nat) (f : Core → Core) : (modCore s c f).streams = s.streams := rfl
@[simp] theorem modCore_prefixes (c : Nat) (f : Core → Core) : (modCore s c f).prefixes = s.prefixes := rfl
@[simp] theorem modCore_promptUsed (c : Nat) (f : Core → Core) : (modCore s c f).promptUsed = s.promptUsed := rfl
@[simp] theorem modCore_mgmt (c : Nat) (f : Core → Core) : (modCore s c f).mgmt = s.mgmt := rfl
@[simp] theorem modCore_mem (c : Nat) (f : Core → Core) : (modCore s c f).mem = s.mem := rfl
@[simp] theorem modCore_memKey (c : Nat) (f : Core → Core) : (modCore s c f).memKey = s.memKey := rfl

/-! `setOwner` -/

@[simp] theorem setOwner_clock (o : Nat) (v : Option Owner) : (setOwner s o v).clock = s.clock := rfl
@[simp] theorem setOwner_free (o : Nat) (v : Option Owner) : (setOwner s o v).free = s.free := rfl
@[simp] theorem setOwner_out (o : Nat) (v : Option Owner) : (setOwner s o v).out = s.out := rfl
@[simp] theorem setOwner_pending (o : Nat) (v : Option Owner) : (setOwner s o v).pending = s.pending := rfl
@[simp] theorem setOwner_pins (o : Nat) (v : Option Owner) : (setOwner s o v).pins = s.pins := rfl
@[simp] theorem setOwner_power (o : Nat) (v : Option Owner) : (setOwner s o v).power = s.power := rfl
@[simp] theorem setOwner_manifest (o : Nat) (v : Option Owner) : (setOwner s o v).manifest = s.manifest := rfl
@[simp] theorem setOwner_hdrs (o : Nat) (v : Option Owner) : (setOwner s o v).hdrs = s.hdrs := rfl
@[simp] theorem setOwner_frozen (o : Nat) (v : Option Owner) : (setOwner s o v).frozen = s.frozen := rfl
@[simp] theorem setOwner_cx (o : Nat) (v : Option Owner) : (setOwner s o v).cx = s.cx := rfl
@[simp] theorem setOwner_handoff (o : Nat) (v : Option Owner) : (setOwner s o v).handoff = s.handoff := rfl
@[simp] theorem setOwner_dp (o : Nat) (v : Option Owner) : (setOwner s o v).dp = s.dp := rfl
@[simp] theorem setOwner_hb (o : Nat) (v : Option Owner) : (setOwner s o v).hb = s.hb := rfl
@[simp] theorem setOwner_mc (o : Nat) (v : Option Owner) : (setOwner s o v).mc = s.mc := rfl
@[simp] theorem setOwner_ke (o : Nat) (v : Option Owner) : (setOwner s o v).ke = s.ke := rfl
@[simp] theorem setOwner_store (o : Nat) (v : Option Owner) : (setOwner s o v).store = s.store := rfl
@[simp] theorem setOwner_sq (o : Nat) (v : Option Owner) : (setOwner s o v).sq = s.sq := rfl
@[simp] theorem setOwner_ri (o : Nat) (v : Option Owner) : (setOwner s o v).ri = s.ri := rfl
@[simp] theorem setOwner_hpA (o : Nat) (v : Option Owner) : (setOwner s o v).hpA = s.hpA := rfl
@[simp] theorem setOwner_hpB (o : Nat) (v : Option Owner) : (setOwner s o v).hpB = s.hpB := rfl
@[simp] theorem setOwner_ms (o : Nat) (v : Option Owner) : (setOwner s o v).ms = s.ms := rfl
@[simp] theorem setOwner_scs (o : Nat) (v : Option Owner) : (setOwner s o v).scs = s.scs := rfl
@[simp] theorem setOwner_tgs (o : Nat) (v : Option Owner) : (setOwner s o v).tgs = s.tgs := rfl
@[simp] theorem setOwner_tiles (o : Nat) (v : Option Owner) : (setOwner s o v).tiles = s.tiles := rfl
@[simp] theorem setOwner_beatTiles (o : Nat) (v : Option Owner) : (setOwner s o v).beatTiles = s.beatTiles := rfl
@[simp] theorem setOwner_beatTgs (o : Nat) (v : Option Owner) : (setOwner s o v).beatTgs = s.beatTgs := rfl
@[simp] theorem setOwner_bindings (o : Nat) (v : Option Owner) : (setOwner s o v).bindings = s.bindings := rfl
@[simp] theorem setOwner_loads (o : Nat) (v : Option Owner) : (setOwner s o v).loads = s.loads := rfl
@[simp] theorem setOwner_loadNo (o : Nat) (v : Option Owner) : (setOwner s o v).loadNo = s.loadNo := rfl
@[simp] theorem setOwner_jobs (o : Nat) (v : Option Owner) : (setOwner s o v).jobs = s.jobs := rfl
@[simp] theorem setOwner_unbinding (o : Nat) (v : Option Owner) : (setOwner s o v).unbinding = s.unbinding := rfl
@[simp] theorem setOwner_cores (o : Nat) (v : Option Owner) : (setOwner s o v).cores = s.cores := rfl
@[simp] theorem setOwner_owners (o : Nat) (v : Option Owner) : (setOwner s o v).owners = tblSet none s.owners o v := rfl
@[simp] theorem setOwner_streams (o : Nat) (v : Option Owner) : (setOwner s o v).streams = s.streams := rfl
@[simp] theorem setOwner_prefixes (o : Nat) (v : Option Owner) : (setOwner s o v).prefixes = s.prefixes := rfl
@[simp] theorem setOwner_promptUsed (o : Nat) (v : Option Owner) : (setOwner s o v).promptUsed = s.promptUsed := rfl
@[simp] theorem setOwner_mgmt (o : Nat) (v : Option Owner) : (setOwner s o v).mgmt = s.mgmt := rfl
@[simp] theorem setOwner_mem (o : Nat) (v : Option Owner) : (setOwner s o v).mem = s.mem := rfl
@[simp] theorem setOwner_memKey (o : Nat) (v : Option Owner) : (setOwner s o v).memKey = s.memKey := rfl

/-! `modOwner` -/

@[simp] theorem modOwner_clock (o : Nat) (f : Owner → Owner) : (modOwner s o f).clock = s.clock := rfl
@[simp] theorem modOwner_free (o : Nat) (f : Owner → Owner) : (modOwner s o f).free = s.free := rfl
@[simp] theorem modOwner_out (o : Nat) (f : Owner → Owner) : (modOwner s o f).out = s.out := rfl
@[simp] theorem modOwner_pending (o : Nat) (f : Owner → Owner) : (modOwner s o f).pending = s.pending := rfl
@[simp] theorem modOwner_pins (o : Nat) (f : Owner → Owner) : (modOwner s o f).pins = s.pins := rfl
@[simp] theorem modOwner_power (o : Nat) (f : Owner → Owner) : (modOwner s o f).power = s.power := rfl
@[simp] theorem modOwner_manifest (o : Nat) (f : Owner → Owner) : (modOwner s o f).manifest = s.manifest := rfl
@[simp] theorem modOwner_hdrs (o : Nat) (f : Owner → Owner) : (modOwner s o f).hdrs = s.hdrs := rfl
@[simp] theorem modOwner_frozen (o : Nat) (f : Owner → Owner) : (modOwner s o f).frozen = s.frozen := rfl
@[simp] theorem modOwner_cx (o : Nat) (f : Owner → Owner) : (modOwner s o f).cx = s.cx := rfl
@[simp] theorem modOwner_handoff (o : Nat) (f : Owner → Owner) : (modOwner s o f).handoff = s.handoff := rfl
@[simp] theorem modOwner_dp (o : Nat) (f : Owner → Owner) : (modOwner s o f).dp = s.dp := rfl
@[simp] theorem modOwner_hb (o : Nat) (f : Owner → Owner) : (modOwner s o f).hb = s.hb := rfl
@[simp] theorem modOwner_mc (o : Nat) (f : Owner → Owner) : (modOwner s o f).mc = s.mc := rfl
@[simp] theorem modOwner_ke (o : Nat) (f : Owner → Owner) : (modOwner s o f).ke = s.ke := rfl
@[simp] theorem modOwner_store (o : Nat) (f : Owner → Owner) : (modOwner s o f).store = s.store := rfl
@[simp] theorem modOwner_sq (o : Nat) (f : Owner → Owner) : (modOwner s o f).sq = s.sq := rfl
@[simp] theorem modOwner_ri (o : Nat) (f : Owner → Owner) : (modOwner s o f).ri = s.ri := rfl
@[simp] theorem modOwner_hpA (o : Nat) (f : Owner → Owner) : (modOwner s o f).hpA = s.hpA := rfl
@[simp] theorem modOwner_hpB (o : Nat) (f : Owner → Owner) : (modOwner s o f).hpB = s.hpB := rfl
@[simp] theorem modOwner_ms (o : Nat) (f : Owner → Owner) : (modOwner s o f).ms = s.ms := rfl
@[simp] theorem modOwner_scs (o : Nat) (f : Owner → Owner) : (modOwner s o f).scs = s.scs := rfl
@[simp] theorem modOwner_tgs (o : Nat) (f : Owner → Owner) : (modOwner s o f).tgs = s.tgs := rfl
@[simp] theorem modOwner_tiles (o : Nat) (f : Owner → Owner) : (modOwner s o f).tiles = s.tiles := rfl
@[simp] theorem modOwner_beatTiles (o : Nat) (f : Owner → Owner) : (modOwner s o f).beatTiles = s.beatTiles := rfl
@[simp] theorem modOwner_beatTgs (o : Nat) (f : Owner → Owner) : (modOwner s o f).beatTgs = s.beatTgs := rfl
@[simp] theorem modOwner_bindings (o : Nat) (f : Owner → Owner) : (modOwner s o f).bindings = s.bindings := rfl
@[simp] theorem modOwner_loads (o : Nat) (f : Owner → Owner) : (modOwner s o f).loads = s.loads := rfl
@[simp] theorem modOwner_loadNo (o : Nat) (f : Owner → Owner) : (modOwner s o f).loadNo = s.loadNo := rfl
@[simp] theorem modOwner_jobs (o : Nat) (f : Owner → Owner) : (modOwner s o f).jobs = s.jobs := rfl
@[simp] theorem modOwner_unbinding (o : Nat) (f : Owner → Owner) : (modOwner s o f).unbinding = s.unbinding := rfl
@[simp] theorem modOwner_cores (o : Nat) (f : Owner → Owner) : (modOwner s o f).cores = s.cores := rfl
@[simp] theorem modOwner_owners (o : Nat) (f : Owner → Owner) : (modOwner s o f).owners = tblSet none s.owners o ((getOwner s o).map f) := rfl
@[simp] theorem modOwner_streams (o : Nat) (f : Owner → Owner) : (modOwner s o f).streams = s.streams := rfl
@[simp] theorem modOwner_prefixes (o : Nat) (f : Owner → Owner) : (modOwner s o f).prefixes = s.prefixes := rfl
@[simp] theorem modOwner_promptUsed (o : Nat) (f : Owner → Owner) : (modOwner s o f).promptUsed = s.promptUsed := rfl
@[simp] theorem modOwner_mgmt (o : Nat) (f : Owner → Owner) : (modOwner s o f).mgmt = s.mgmt := rfl
@[simp] theorem modOwner_mem (o : Nat) (f : Owner → Owner) : (modOwner s o f).mem = s.mem := rfl
@[simp] theorem modOwner_memKey (o : Nat) (f : Owner → Owner) : (modOwner s o f).memKey = s.memKey := rfl

/-! `setStream` -/

@[simp] theorem setStream_clock (i : Nat) (v : Option Stream) : (setStream s i v).clock = s.clock := rfl
@[simp] theorem setStream_free (i : Nat) (v : Option Stream) : (setStream s i v).free = s.free := rfl
@[simp] theorem setStream_out (i : Nat) (v : Option Stream) : (setStream s i v).out = s.out := rfl
@[simp] theorem setStream_pending (i : Nat) (v : Option Stream) : (setStream s i v).pending = s.pending := rfl
@[simp] theorem setStream_pins (i : Nat) (v : Option Stream) : (setStream s i v).pins = s.pins := rfl
@[simp] theorem setStream_power (i : Nat) (v : Option Stream) : (setStream s i v).power = s.power := rfl
@[simp] theorem setStream_manifest (i : Nat) (v : Option Stream) : (setStream s i v).manifest = s.manifest := rfl
@[simp] theorem setStream_hdrs (i : Nat) (v : Option Stream) : (setStream s i v).hdrs = s.hdrs := rfl
@[simp] theorem setStream_frozen (i : Nat) (v : Option Stream) : (setStream s i v).frozen = s.frozen := rfl
@[simp] theorem setStream_cx (i : Nat) (v : Option Stream) : (setStream s i v).cx = s.cx := rfl
@[simp] theorem setStream_handoff (i : Nat) (v : Option Stream) : (setStream s i v).handoff = s.handoff := rfl
@[simp] theorem setStream_dp (i : Nat) (v : Option Stream) : (setStream s i v).dp = s.dp := rfl
@[simp] theorem setStream_hb (i : Nat) (v : Option Stream) : (setStream s i v).hb = s.hb := rfl
@[simp] theorem setStream_mc (i : Nat) (v : Option Stream) : (setStream s i v).mc = s.mc := rfl
@[simp] theorem setStream_ke (i : Nat) (v : Option Stream) : (setStream s i v).ke = s.ke := rfl
@[simp] theorem setStream_store (i : Nat) (v : Option Stream) : (setStream s i v).store = s.store := rfl
@[simp] theorem setStream_sq (i : Nat) (v : Option Stream) : (setStream s i v).sq = s.sq := rfl
@[simp] theorem setStream_ri (i : Nat) (v : Option Stream) : (setStream s i v).ri = s.ri := rfl
@[simp] theorem setStream_hpA (i : Nat) (v : Option Stream) : (setStream s i v).hpA = s.hpA := rfl
@[simp] theorem setStream_hpB (i : Nat) (v : Option Stream) : (setStream s i v).hpB = s.hpB := rfl
@[simp] theorem setStream_ms (i : Nat) (v : Option Stream) : (setStream s i v).ms = s.ms := rfl
@[simp] theorem setStream_scs (i : Nat) (v : Option Stream) : (setStream s i v).scs = s.scs := rfl
@[simp] theorem setStream_tgs (i : Nat) (v : Option Stream) : (setStream s i v).tgs = s.tgs := rfl
@[simp] theorem setStream_tiles (i : Nat) (v : Option Stream) : (setStream s i v).tiles = s.tiles := rfl
@[simp] theorem setStream_beatTiles (i : Nat) (v : Option Stream) : (setStream s i v).beatTiles = s.beatTiles := rfl
@[simp] theorem setStream_beatTgs (i : Nat) (v : Option Stream) : (setStream s i v).beatTgs = s.beatTgs := rfl
@[simp] theorem setStream_bindings (i : Nat) (v : Option Stream) : (setStream s i v).bindings = s.bindings := rfl
@[simp] theorem setStream_loads (i : Nat) (v : Option Stream) : (setStream s i v).loads = s.loads := rfl
@[simp] theorem setStream_loadNo (i : Nat) (v : Option Stream) : (setStream s i v).loadNo = s.loadNo := rfl
@[simp] theorem setStream_jobs (i : Nat) (v : Option Stream) : (setStream s i v).jobs = s.jobs := rfl
@[simp] theorem setStream_unbinding (i : Nat) (v : Option Stream) : (setStream s i v).unbinding = s.unbinding := rfl
@[simp] theorem setStream_cores (i : Nat) (v : Option Stream) : (setStream s i v).cores = s.cores := rfl
@[simp] theorem setStream_owners (i : Nat) (v : Option Stream) : (setStream s i v).owners = s.owners := rfl
@[simp] theorem setStream_streams (i : Nat) (v : Option Stream) : (setStream s i v).streams = tblSet none s.streams i v := rfl
@[simp] theorem setStream_prefixes (i : Nat) (v : Option Stream) : (setStream s i v).prefixes = s.prefixes := rfl
@[simp] theorem setStream_promptUsed (i : Nat) (v : Option Stream) : (setStream s i v).promptUsed = s.promptUsed := rfl
@[simp] theorem setStream_mgmt (i : Nat) (v : Option Stream) : (setStream s i v).mgmt = s.mgmt := rfl
@[simp] theorem setStream_mem (i : Nat) (v : Option Stream) : (setStream s i v).mem = s.mem := rfl
@[simp] theorem setStream_memKey (i : Nat) (v : Option Stream) : (setStream s i v).memKey = s.memKey := rfl

/-! `modStream` -/

@[simp] theorem modStream_clock (i : Nat) (f : Stream → Stream) : (modStream s i f).clock = s.clock := rfl
@[simp] theorem modStream_free (i : Nat) (f : Stream → Stream) : (modStream s i f).free = s.free := rfl
@[simp] theorem modStream_out (i : Nat) (f : Stream → Stream) : (modStream s i f).out = s.out := rfl
@[simp] theorem modStream_pending (i : Nat) (f : Stream → Stream) : (modStream s i f).pending = s.pending := rfl
@[simp] theorem modStream_pins (i : Nat) (f : Stream → Stream) : (modStream s i f).pins = s.pins := rfl
@[simp] theorem modStream_power (i : Nat) (f : Stream → Stream) : (modStream s i f).power = s.power := rfl
@[simp] theorem modStream_manifest (i : Nat) (f : Stream → Stream) : (modStream s i f).manifest = s.manifest := rfl
@[simp] theorem modStream_hdrs (i : Nat) (f : Stream → Stream) : (modStream s i f).hdrs = s.hdrs := rfl
@[simp] theorem modStream_frozen (i : Nat) (f : Stream → Stream) : (modStream s i f).frozen = s.frozen := rfl
@[simp] theorem modStream_cx (i : Nat) (f : Stream → Stream) : (modStream s i f).cx = s.cx := rfl
@[simp] theorem modStream_handoff (i : Nat) (f : Stream → Stream) : (modStream s i f).handoff = s.handoff := rfl
@[simp] theorem modStream_dp (i : Nat) (f : Stream → Stream) : (modStream s i f).dp = s.dp := rfl
@[simp] theorem modStream_hb (i : Nat) (f : Stream → Stream) : (modStream s i f).hb = s.hb := rfl
@[simp] theorem modStream_mc (i : Nat) (f : Stream → Stream) : (modStream s i f).mc = s.mc := rfl
@[simp] theorem modStream_ke (i : Nat) (f : Stream → Stream) : (modStream s i f).ke = s.ke := rfl
@[simp] theorem modStream_store (i : Nat) (f : Stream → Stream) : (modStream s i f).store = s.store := rfl
@[simp] theorem modStream_sq (i : Nat) (f : Stream → Stream) : (modStream s i f).sq = s.sq := rfl
@[simp] theorem modStream_ri (i : Nat) (f : Stream → Stream) : (modStream s i f).ri = s.ri := rfl
@[simp] theorem modStream_hpA (i : Nat) (f : Stream → Stream) : (modStream s i f).hpA = s.hpA := rfl
@[simp] theorem modStream_hpB (i : Nat) (f : Stream → Stream) : (modStream s i f).hpB = s.hpB := rfl
@[simp] theorem modStream_ms (i : Nat) (f : Stream → Stream) : (modStream s i f).ms = s.ms := rfl
@[simp] theorem modStream_scs (i : Nat) (f : Stream → Stream) : (modStream s i f).scs = s.scs := rfl
@[simp] theorem modStream_tgs (i : Nat) (f : Stream → Stream) : (modStream s i f).tgs = s.tgs := rfl
@[simp] theorem modStream_tiles (i : Nat) (f : Stream → Stream) : (modStream s i f).tiles = s.tiles := rfl
@[simp] theorem modStream_beatTiles (i : Nat) (f : Stream → Stream) : (modStream s i f).beatTiles = s.beatTiles := rfl
@[simp] theorem modStream_beatTgs (i : Nat) (f : Stream → Stream) : (modStream s i f).beatTgs = s.beatTgs := rfl
@[simp] theorem modStream_bindings (i : Nat) (f : Stream → Stream) : (modStream s i f).bindings = s.bindings := rfl
@[simp] theorem modStream_loads (i : Nat) (f : Stream → Stream) : (modStream s i f).loads = s.loads := rfl
@[simp] theorem modStream_loadNo (i : Nat) (f : Stream → Stream) : (modStream s i f).loadNo = s.loadNo := rfl
@[simp] theorem modStream_jobs (i : Nat) (f : Stream → Stream) : (modStream s i f).jobs = s.jobs := rfl
@[simp] theorem modStream_unbinding (i : Nat) (f : Stream → Stream) : (modStream s i f).unbinding = s.unbinding := rfl
@[simp] theorem modStream_cores (i : Nat) (f : Stream → Stream) : (modStream s i f).cores = s.cores := rfl
@[simp] theorem modStream_owners (i : Nat) (f : Stream → Stream) : (modStream s i f).owners = s.owners := rfl
@[simp] theorem modStream_streams (i : Nat) (f : Stream → Stream) : (modStream s i f).streams = tblSet none s.streams i ((getStream s i).map f) := rfl
@[simp] theorem modStream_prefixes (i : Nat) (f : Stream → Stream) : (modStream s i f).prefixes = s.prefixes := rfl
@[simp] theorem modStream_promptUsed (i : Nat) (f : Stream → Stream) : (modStream s i f).promptUsed = s.promptUsed := rfl
@[simp] theorem modStream_mgmt (i : Nat) (f : Stream → Stream) : (modStream s i f).mgmt = s.mgmt := rfl
@[simp] theorem modStream_mem (i : Nat) (f : Stream → Stream) : (modStream s i f).mem = s.mem := rfl
@[simp] theorem modStream_memKey (i : Nat) (f : Stream → Stream) : (modStream s i f).memKey = s.memKey := rfl

/-! `setBinding` -/

@[simp] theorem setBinding_clock (g l : Nat) (b : Option Binding) : (setBinding s g l b).clock = s.clock := rfl
@[simp] theorem setBinding_free (g l : Nat) (b : Option Binding) : (setBinding s g l b).free = s.free := rfl
@[simp] theorem setBinding_out (g l : Nat) (b : Option Binding) : (setBinding s g l b).out = s.out := rfl
@[simp] theorem setBinding_pending (g l : Nat) (b : Option Binding) : (setBinding s g l b).pending = s.pending := rfl
@[simp] theorem setBinding_pins (g l : Nat) (b : Option Binding) : (setBinding s g l b).pins = s.pins := rfl
@[simp] theorem setBinding_power (g l : Nat) (b : Option Binding) : (setBinding s g l b).power = s.power := rfl
@[simp] theorem setBinding_manifest (g l : Nat) (b : Option Binding) : (setBinding s g l b).manifest = s.manifest := rfl
@[simp] theorem setBinding_hdrs (g l : Nat) (b : Option Binding) : (setBinding s g l b).hdrs = s.hdrs := rfl
@[simp] theorem setBinding_frozen (g l : Nat) (b : Option Binding) : (setBinding s g l b).frozen = s.frozen := rfl
@[simp] theorem setBinding_cx (g l : Nat) (b : Option Binding) : (setBinding s g l b).cx = s.cx := rfl
@[simp] theorem setBinding_handoff (g l : Nat) (b : Option Binding) : (setBinding s g l b).handoff = s.handoff := rfl
@[simp] theorem setBinding_dp (g l : Nat) (b : Option Binding) : (setBinding s g l b).dp = s.dp := rfl
@[simp] theorem setBinding_hb (g l : Nat) (b : Option Binding) : (setBinding s g l b).hb = s.hb := rfl
@[simp] theorem setBinding_mc (g l : Nat) (b : Option Binding) : (setBinding s g l b).mc = s.mc := rfl
@[simp] theorem setBinding_ke (g l : Nat) (b : Option Binding) : (setBinding s g l b).ke = s.ke := rfl
@[simp] theorem setBinding_store (g l : Nat) (b : Option Binding) : (setBinding s g l b).store = s.store := rfl
@[simp] theorem setBinding_sq (g l : Nat) (b : Option Binding) : (setBinding s g l b).sq = s.sq := rfl
@[simp] theorem setBinding_ri (g l : Nat) (b : Option Binding) : (setBinding s g l b).ri = s.ri := rfl
@[simp] theorem setBinding_hpA (g l : Nat) (b : Option Binding) : (setBinding s g l b).hpA = s.hpA := rfl
@[simp] theorem setBinding_hpB (g l : Nat) (b : Option Binding) : (setBinding s g l b).hpB = s.hpB := rfl
@[simp] theorem setBinding_ms (g l : Nat) (b : Option Binding) : (setBinding s g l b).ms = s.ms := rfl
@[simp] theorem setBinding_scs (g l : Nat) (b : Option Binding) : (setBinding s g l b).scs = s.scs := rfl
@[simp] theorem setBinding_tgs (g l : Nat) (b : Option Binding) : (setBinding s g l b).tgs = s.tgs := rfl
@[simp] theorem setBinding_tiles (g l : Nat) (b : Option Binding) : (setBinding s g l b).tiles = s.tiles := rfl
@[simp] theorem setBinding_beatTiles (g l : Nat) (b : Option Binding) : (setBinding s g l b).beatTiles = s.beatTiles := rfl
@[simp] theorem setBinding_beatTgs (g l : Nat) (b : Option Binding) : (setBinding s g l b).beatTgs = s.beatTgs := rfl
@[simp] theorem setBinding_loads (g l : Nat) (b : Option Binding) : (setBinding s g l b).loads = s.loads := rfl
@[simp] theorem setBinding_loadNo (g l : Nat) (b : Option Binding) : (setBinding s g l b).loadNo = s.loadNo := rfl
@[simp] theorem setBinding_jobs (g l : Nat) (b : Option Binding) : (setBinding s g l b).jobs = s.jobs := rfl
@[simp] theorem setBinding_unbinding (g l : Nat) (b : Option Binding) : (setBinding s g l b).unbinding = s.unbinding := rfl
@[simp] theorem setBinding_cores (g l : Nat) (b : Option Binding) : (setBinding s g l b).cores = s.cores := rfl
@[simp] theorem setBinding_owners (g l : Nat) (b : Option Binding) : (setBinding s g l b).owners = s.owners := rfl
@[simp] theorem setBinding_streams (g l : Nat) (b : Option Binding) : (setBinding s g l b).streams = s.streams := rfl
@[simp] theorem setBinding_prefixes (g l : Nat) (b : Option Binding) : (setBinding s g l b).prefixes = s.prefixes := rfl
@[simp] theorem setBinding_promptUsed (g l : Nat) (b : Option Binding) : (setBinding s g l b).promptUsed = s.promptUsed := rfl
@[simp] theorem setBinding_mgmt (g l : Nat) (b : Option Binding) : (setBinding s g l b).mgmt = s.mgmt := rfl
@[simp] theorem setBinding_mem (g l : Nat) (b : Option Binding) : (setBinding s g l b).mem = s.mem := rfl
@[simp] theorem setBinding_memKey (g l : Nat) (b : Option Binding) : (setBinding s g l b).memKey = s.memKey := rfl

/-! `modSlot` -/

@[simp] theorem modSlot_clock (o : Nat) (f : Slot → Slot) : (modSlot s o f).clock = s.clock := rfl
@[simp] theorem modSlot_free (o : Nat) (f : Slot → Slot) : (modSlot s o f).free = s.free := rfl
@[simp] theorem modSlot_out (o : Nat) (f : Slot → Slot) : (modSlot s o f).out = s.out := rfl
@[simp] theorem modSlot_pending (o : Nat) (f : Slot → Slot) : (modSlot s o f).pending = s.pending := rfl
@[simp] theorem modSlot_pins (o : Nat) (f : Slot → Slot) : (modSlot s o f).pins = s.pins := rfl
@[simp] theorem modSlot_power (o : Nat) (f : Slot → Slot) : (modSlot s o f).power = s.power := rfl
@[simp] theorem modSlot_manifest (o : Nat) (f : Slot → Slot) : (modSlot s o f).manifest = s.manifest := rfl
@[simp] theorem modSlot_hdrs (o : Nat) (f : Slot → Slot) : (modSlot s o f).hdrs = s.hdrs := rfl
@[simp] theorem modSlot_frozen (o : Nat) (f : Slot → Slot) : (modSlot s o f).frozen = s.frozen := rfl
@[simp] theorem modSlot_cx (o : Nat) (f : Slot → Slot) : (modSlot s o f).cx = s.cx := rfl
@[simp] theorem modSlot_handoff (o : Nat) (f : Slot → Slot) : (modSlot s o f).handoff = s.handoff := rfl
@[simp] theorem modSlot_dp (o : Nat) (f : Slot → Slot) : (modSlot s o f).dp = s.dp := rfl
@[simp] theorem modSlot_hb (o : Nat) (f : Slot → Slot) : (modSlot s o f).hb = s.hb := rfl
@[simp] theorem modSlot_mc (o : Nat) (f : Slot → Slot) : (modSlot s o f).mc = s.mc := rfl
@[simp] theorem modSlot_ke (o : Nat) (f : Slot → Slot) : (modSlot s o f).ke = { s.ke with slots := tblMod {} s.ke.slots o f } := rfl
@[simp] theorem modSlot_store (o : Nat) (f : Slot → Slot) : (modSlot s o f).store = s.store := rfl
@[simp] theorem modSlot_sq (o : Nat) (f : Slot → Slot) : (modSlot s o f).sq = s.sq := rfl
@[simp] theorem modSlot_ri (o : Nat) (f : Slot → Slot) : (modSlot s o f).ri = s.ri := rfl
@[simp] theorem modSlot_hpA (o : Nat) (f : Slot → Slot) : (modSlot s o f).hpA = s.hpA := rfl
@[simp] theorem modSlot_hpB (o : Nat) (f : Slot → Slot) : (modSlot s o f).hpB = s.hpB := rfl
@[simp] theorem modSlot_ms (o : Nat) (f : Slot → Slot) : (modSlot s o f).ms = s.ms := rfl
@[simp] theorem modSlot_scs (o : Nat) (f : Slot → Slot) : (modSlot s o f).scs = s.scs := rfl
@[simp] theorem modSlot_tgs (o : Nat) (f : Slot → Slot) : (modSlot s o f).tgs = s.tgs := rfl
@[simp] theorem modSlot_tiles (o : Nat) (f : Slot → Slot) : (modSlot s o f).tiles = s.tiles := rfl
@[simp] theorem modSlot_beatTiles (o : Nat) (f : Slot → Slot) : (modSlot s o f).beatTiles = s.beatTiles := rfl
@[simp] theorem modSlot_beatTgs (o : Nat) (f : Slot → Slot) : (modSlot s o f).beatTgs = s.beatTgs := rfl
@[simp] theorem modSlot_bindings (o : Nat) (f : Slot → Slot) : (modSlot s o f).bindings = s.bindings := rfl
@[simp] theorem modSlot_loads (o : Nat) (f : Slot → Slot) : (modSlot s o f).loads = s.loads := rfl
@[simp] theorem modSlot_loadNo (o : Nat) (f : Slot → Slot) : (modSlot s o f).loadNo = s.loadNo := rfl
@[simp] theorem modSlot_jobs (o : Nat) (f : Slot → Slot) : (modSlot s o f).jobs = s.jobs := rfl
@[simp] theorem modSlot_unbinding (o : Nat) (f : Slot → Slot) : (modSlot s o f).unbinding = s.unbinding := rfl
@[simp] theorem modSlot_cores (o : Nat) (f : Slot → Slot) : (modSlot s o f).cores = s.cores := rfl
@[simp] theorem modSlot_owners (o : Nat) (f : Slot → Slot) : (modSlot s o f).owners = s.owners := rfl
@[simp] theorem modSlot_streams (o : Nat) (f : Slot → Slot) : (modSlot s o f).streams = s.streams := rfl
@[simp] theorem modSlot_prefixes (o : Nat) (f : Slot → Slot) : (modSlot s o f).prefixes = s.prefixes := rfl
@[simp] theorem modSlot_promptUsed (o : Nat) (f : Slot → Slot) : (modSlot s o f).promptUsed = s.promptUsed := rfl
@[simp] theorem modSlot_mgmt (o : Nat) (f : Slot → Slot) : (modSlot s o f).mgmt = s.mgmt := rfl
@[simp] theorem modSlot_mem (o : Nat) (f : Slot → Slot) : (modSlot s o f).mem = s.mem := rfl
@[simp] theorem modSlot_memKey (o : Nat) (f : Slot → Slot) : (modSlot s o f).memKey = s.memKey := rfl

/-! `modLink` -/

@[simp] theorem modLink_clock (p : Nat) (f : Link → Link) : (modLink s p f).clock = s.clock := rfl
@[simp] theorem modLink_free (p : Nat) (f : Link → Link) : (modLink s p f).free = s.free := rfl
@[simp] theorem modLink_out (p : Nat) (f : Link → Link) : (modLink s p f).out = s.out := rfl
@[simp] theorem modLink_pending (p : Nat) (f : Link → Link) : (modLink s p f).pending = s.pending := rfl
@[simp] theorem modLink_pins (p : Nat) (f : Link → Link) : (modLink s p f).pins = s.pins := rfl
@[simp] theorem modLink_power (p : Nat) (f : Link → Link) : (modLink s p f).power = s.power := rfl
@[simp] theorem modLink_manifest (p : Nat) (f : Link → Link) : (modLink s p f).manifest = s.manifest := rfl
@[simp] theorem modLink_hdrs (p : Nat) (f : Link → Link) : (modLink s p f).hdrs = s.hdrs := rfl
@[simp] theorem modLink_frozen (p : Nat) (f : Link → Link) : (modLink s p f).frozen = s.frozen := rfl
@[simp] theorem modLink_cx (p : Nat) (f : Link → Link) : (modLink s p f).cx = s.cx := rfl
@[simp] theorem modLink_handoff (p : Nat) (f : Link → Link) : (modLink s p f).handoff = s.handoff := rfl
@[simp] theorem modLink_dp (p : Nat) (f : Link → Link) : (modLink s p f).dp = s.dp := rfl
@[simp] theorem modLink_hb (p : Nat) (f : Link → Link) : (modLink s p f).hb = s.hb := rfl
@[simp] theorem modLink_mc (p : Nat) (f : Link → Link) : (modLink s p f).mc = s.mc := rfl
@[simp] theorem modLink_ke (p : Nat) (f : Link → Link) : (modLink s p f).ke = s.ke := rfl
@[simp] theorem modLink_store (p : Nat) (f : Link → Link) : (modLink s p f).store = s.store := rfl
@[simp] theorem modLink_sq (p : Nat) (f : Link → Link) : (modLink s p f).sq = s.sq := rfl
@[simp] theorem modLink_ri (p : Nat) (f : Link → Link) : (modLink s p f).ri = { s.ri with ports := tblMod {} s.ri.ports p f } := rfl
@[simp] theorem modLink_hpA (p : Nat) (f : Link → Link) : (modLink s p f).hpA = s.hpA := rfl
@[simp] theorem modLink_hpB (p : Nat) (f : Link → Link) : (modLink s p f).hpB = s.hpB := rfl
@[simp] theorem modLink_ms (p : Nat) (f : Link → Link) : (modLink s p f).ms = s.ms := rfl
@[simp] theorem modLink_scs (p : Nat) (f : Link → Link) : (modLink s p f).scs = s.scs := rfl
@[simp] theorem modLink_tgs (p : Nat) (f : Link → Link) : (modLink s p f).tgs = s.tgs := rfl
@[simp] theorem modLink_tiles (p : Nat) (f : Link → Link) : (modLink s p f).tiles = s.tiles := rfl
@[simp] theorem modLink_beatTiles (p : Nat) (f : Link → Link) : (modLink s p f).beatTiles = s.beatTiles := rfl
@[simp] theorem modLink_beatTgs (p : Nat) (f : Link → Link) : (modLink s p f).beatTgs = s.beatTgs := rfl
@[simp] theorem modLink_bindings (p : Nat) (f : Link → Link) : (modLink s p f).bindings = s.bindings := rfl
@[simp] theorem modLink_loads (p : Nat) (f : Link → Link) : (modLink s p f).loads = s.loads := rfl
@[simp] theorem modLink_loadNo (p : Nat) (f : Link → Link) : (modLink s p f).loadNo = s.loadNo := rfl
@[simp] theorem modLink_jobs (p : Nat) (f : Link → Link) : (modLink s p f).jobs = s.jobs := rfl
@[simp] theorem modLink_unbinding (p : Nat) (f : Link → Link) : (modLink s p f).unbinding = s.unbinding := rfl
@[simp] theorem modLink_cores (p : Nat) (f : Link → Link) : (modLink s p f).cores = s.cores := rfl
@[simp] theorem modLink_owners (p : Nat) (f : Link → Link) : (modLink s p f).owners = s.owners := rfl
@[simp] theorem modLink_streams (p : Nat) (f : Link → Link) : (modLink s p f).streams = s.streams := rfl
@[simp] theorem modLink_prefixes (p : Nat) (f : Link → Link) : (modLink s p f).prefixes = s.prefixes := rfl
@[simp] theorem modLink_promptUsed (p : Nat) (f : Link → Link) : (modLink s p f).promptUsed = s.promptUsed := rfl
@[simp] theorem modLink_mgmt (p : Nat) (f : Link → Link) : (modLink s p f).mgmt = s.mgmt := rfl
@[simp] theorem modLink_mem (p : Nat) (f : Link → Link) : (modLink s p f).mem = s.mem := rfl
@[simp] theorem modLink_memKey (p : Nat) (f : Link → Link) : (modLink s p f).memKey = s.memKey := rfl

/-! `modLive` -/

@[simp] theorem modLive_clock (f : Live → Live) : (modLive s f).clock = s.clock := rfl
@[simp] theorem modLive_free (f : Live → Live) : (modLive s f).free = s.free := rfl
@[simp] theorem modLive_out (f : Live → Live) : (modLive s f).out = s.out := rfl
@[simp] theorem modLive_pending (f : Live → Live) : (modLive s f).pending = s.pending := rfl
@[simp] theorem modLive_pins (f : Live → Live) : (modLive s f).pins = s.pins := rfl
@[simp] theorem modLive_power (f : Live → Live) : (modLive s f).power = s.power := rfl
@[simp] theorem modLive_manifest (f : Live → Live) : (modLive s f).manifest = s.manifest := rfl
@[simp] theorem modLive_hdrs (f : Live → Live) : (modLive s f).hdrs = s.hdrs := rfl
@[simp] theorem modLive_frozen (f : Live → Live) : (modLive s f).frozen = s.frozen := rfl
@[simp] theorem modLive_cx (f : Live → Live) : (modLive s f).cx = s.cx := rfl
@[simp] theorem modLive_handoff (f : Live → Live) : (modLive s f).handoff = s.handoff := rfl
@[simp] theorem modLive_dp (f : Live → Live) : (modLive s f).dp = s.dp := rfl
@[simp] theorem modLive_hb (f : Live → Live) : (modLive s f).hb = s.hb := rfl
@[simp] theorem modLive_mc (f : Live → Live) : (modLive s f).mc = s.mc := rfl
@[simp] theorem modLive_ke (f : Live → Live) : (modLive s f).ke = s.ke := rfl
@[simp] theorem modLive_store (f : Live → Live) : (modLive s f).store = s.store := rfl
@[simp] theorem modLive_sq (f : Live → Live) : (modLive s f).sq = { s.sq with live := s.sq.live.map f } := rfl
@[simp] theorem modLive_ri (f : Live → Live) : (modLive s f).ri = s.ri := rfl
@[simp] theorem modLive_hpA (f : Live → Live) : (modLive s f).hpA = s.hpA := rfl
@[simp] theorem modLive_hpB (f : Live → Live) : (modLive s f).hpB = s.hpB := rfl
@[simp] theorem modLive_ms (f : Live → Live) : (modLive s f).ms = s.ms := rfl
@[simp] theorem modLive_scs (f : Live → Live) : (modLive s f).scs = s.scs := rfl
@[simp] theorem modLive_tgs (f : Live → Live) : (modLive s f).tgs = s.tgs := rfl
@[simp] theorem modLive_tiles (f : Live → Live) : (modLive s f).tiles = s.tiles := rfl
@[simp] theorem modLive_beatTiles (f : Live → Live) : (modLive s f).beatTiles = s.beatTiles := rfl
@[simp] theorem modLive_beatTgs (f : Live → Live) : (modLive s f).beatTgs = s.beatTgs := rfl
@[simp] theorem modLive_bindings (f : Live → Live) : (modLive s f).bindings = s.bindings := rfl
@[simp] theorem modLive_loads (f : Live → Live) : (modLive s f).loads = s.loads := rfl
@[simp] theorem modLive_loadNo (f : Live → Live) : (modLive s f).loadNo = s.loadNo := rfl
@[simp] theorem modLive_jobs (f : Live → Live) : (modLive s f).jobs = s.jobs := rfl
@[simp] theorem modLive_unbinding (f : Live → Live) : (modLive s f).unbinding = s.unbinding := rfl
@[simp] theorem modLive_cores (f : Live → Live) : (modLive s f).cores = s.cores := rfl
@[simp] theorem modLive_owners (f : Live → Live) : (modLive s f).owners = s.owners := rfl
@[simp] theorem modLive_streams (f : Live → Live) : (modLive s f).streams = s.streams := rfl
@[simp] theorem modLive_prefixes (f : Live → Live) : (modLive s f).prefixes = s.prefixes := rfl
@[simp] theorem modLive_promptUsed (f : Live → Live) : (modLive s f).promptUsed = s.promptUsed := rfl
@[simp] theorem modLive_mgmt (f : Live → Live) : (modLive s f).mgmt = s.mgmt := rfl
@[simp] theorem modLive_mem (f : Live → Live) : (modLive s f).mem = s.mem := rfl
@[simp] theorem modLive_memKey (f : Live → Live) : (modLive s f).memKey = s.memKey := rfl

/-! `memWrite` -/

@[simp] theorem memWrite_clock (k a : Nat) (bs : List (BitVec 8)) : (memWrite s k a bs).clock = s.clock := rfl
@[simp] theorem memWrite_free (k a : Nat) (bs : List (BitVec 8)) : (memWrite s k a bs).free = s.free := rfl
@[simp] theorem memWrite_out (k a : Nat) (bs : List (BitVec 8)) : (memWrite s k a bs).out = s.out := rfl
@[simp] theorem memWrite_pending (k a : Nat) (bs : List (BitVec 8)) : (memWrite s k a bs).pending = s.pending := rfl
@[simp] theorem memWrite_pins (k a : Nat) (bs : List (BitVec 8)) : (memWrite s k a bs).pins = s.pins := rfl
@[simp] theorem memWrite_power (k a : Nat) (bs : List (BitVec 8)) : (memWrite s k a bs).power = s.power := rfl
@[simp] theorem memWrite_manifest (k a : Nat) (bs : List (BitVec 8)) : (memWrite s k a bs).manifest = s.manifest := rfl
@[simp] theorem memWrite_hdrs (k a : Nat) (bs : List (BitVec 8)) : (memWrite s k a bs).hdrs = s.hdrs := rfl
@[simp] theorem memWrite_frozen (k a : Nat) (bs : List (BitVec 8)) : (memWrite s k a bs).frozen = s.frozen := rfl
@[simp] theorem memWrite_cx (k a : Nat) (bs : List (BitVec 8)) : (memWrite s k a bs).cx = s.cx := rfl
@[simp] theorem memWrite_handoff (k a : Nat) (bs : List (BitVec 8)) : (memWrite s k a bs).handoff = s.handoff := rfl
@[simp] theorem memWrite_dp (k a : Nat) (bs : List (BitVec 8)) : (memWrite s k a bs).dp = s.dp := rfl
@[simp] theorem memWrite_hb (k a : Nat) (bs : List (BitVec 8)) : (memWrite s k a bs).hb = s.hb := rfl
@[simp] theorem memWrite_mc (k a : Nat) (bs : List (BitVec 8)) : (memWrite s k a bs).mc = s.mc := rfl
@[simp] theorem memWrite_ke (k a : Nat) (bs : List (BitVec 8)) : (memWrite s k a bs).ke = s.ke := rfl
@[simp] theorem memWrite_store (k a : Nat) (bs : List (BitVec 8)) : (memWrite s k a bs).store = s.store := rfl
@[simp] theorem memWrite_sq (k a : Nat) (bs : List (BitVec 8)) : (memWrite s k a bs).sq = s.sq := rfl
@[simp] theorem memWrite_ri (k a : Nat) (bs : List (BitVec 8)) : (memWrite s k a bs).ri = s.ri := rfl
@[simp] theorem memWrite_hpA (k a : Nat) (bs : List (BitVec 8)) : (memWrite s k a bs).hpA = s.hpA := rfl
@[simp] theorem memWrite_hpB (k a : Nat) (bs : List (BitVec 8)) : (memWrite s k a bs).hpB = s.hpB := rfl
@[simp] theorem memWrite_ms (k a : Nat) (bs : List (BitVec 8)) : (memWrite s k a bs).ms = s.ms := rfl
@[simp] theorem memWrite_scs (k a : Nat) (bs : List (BitVec 8)) : (memWrite s k a bs).scs = s.scs := rfl
@[simp] theorem memWrite_tgs (k a : Nat) (bs : List (BitVec 8)) : (memWrite s k a bs).tgs = s.tgs := rfl
@[simp] theorem memWrite_tiles (k a : Nat) (bs : List (BitVec 8)) : (memWrite s k a bs).tiles = s.tiles := rfl
@[simp] theorem memWrite_beatTiles (k a : Nat) (bs : List (BitVec 8)) : (memWrite s k a bs).beatTiles = s.beatTiles := rfl
@[simp] theorem memWrite_beatTgs (k a : Nat) (bs : List (BitVec 8)) : (memWrite s k a bs).beatTgs = s.beatTgs := rfl
@[simp] theorem memWrite_bindings (k a : Nat) (bs : List (BitVec 8)) : (memWrite s k a bs).bindings = s.bindings := rfl
@[simp] theorem memWrite_loads (k a : Nat) (bs : List (BitVec 8)) : (memWrite s k a bs).loads = s.loads := rfl
@[simp] theorem memWrite_loadNo (k a : Nat) (bs : List (BitVec 8)) : (memWrite s k a bs).loadNo = s.loadNo := rfl
@[simp] theorem memWrite_jobs (k a : Nat) (bs : List (BitVec 8)) : (memWrite s k a bs).jobs = s.jobs := rfl
@[simp] theorem memWrite_unbinding (k a : Nat) (bs : List (BitVec 8)) : (memWrite s k a bs).unbinding = s.unbinding := rfl
@[simp] theorem memWrite_cores (k a : Nat) (bs : List (BitVec 8)) : (memWrite s k a bs).cores = s.cores := rfl
@[simp] theorem memWrite_owners (k a : Nat) (bs : List (BitVec 8)) : (memWrite s k a bs).owners = s.owners := rfl
@[simp] theorem memWrite_streams (k a : Nat) (bs : List (BitVec 8)) : (memWrite s k a bs).streams = s.streams := rfl
@[simp] theorem memWrite_prefixes (k a : Nat) (bs : List (BitVec 8)) : (memWrite s k a bs).prefixes = s.prefixes := rfl
@[simp] theorem memWrite_promptUsed (k a : Nat) (bs : List (BitVec 8)) : (memWrite s k a bs).promptUsed = s.promptUsed := rfl
@[simp] theorem memWrite_mgmt (k a : Nat) (bs : List (BitVec 8)) : (memWrite s k a bs).mgmt = s.mgmt := rfl
@[simp] theorem memWrite_mem (k a : Nat) (bs : List (BitVec 8)) : (memWrite s k a bs).mem = tblSetList 0 s.mem a bs := rfl

/-! `emit` -/

@[simp] theorem emit_clock (o : Output) : (emit s o).clock = s.clock := rfl
@[simp] theorem emit_free (o : Output) : (emit s o).free = s.free := rfl
@[simp] theorem emit_out (o : Output) : (emit s o).out = s.out ++ [o] := rfl
@[simp] theorem emit_pending (o : Output) : (emit s o).pending = s.pending := rfl
@[simp] theorem emit_pins (o : Output) : (emit s o).pins = s.pins := rfl
@[simp] theorem emit_power (o : Output) : (emit s o).power = s.power := rfl
@[simp] theorem emit_manifest (o : Output) : (emit s o).manifest = s.manifest := rfl
@[simp] theorem emit_hdrs (o : Output) : (emit s o).hdrs = s.hdrs := rfl
@[simp] theorem emit_frozen (o : Output) : (emit s o).frozen = s.frozen := rfl
@[simp] theorem emit_cx (o : Output) : (emit s o).cx = s.cx := rfl
@[simp] theorem emit_handoff (o : Output) : (emit s o).handoff = s.handoff := rfl
@[simp] theorem emit_dp (o : Output) : (emit s o).dp = s.dp := rfl
@[simp] theorem emit_hb (o : Output) : (emit s o).hb = s.hb := rfl
@[simp] theorem emit_mc (o : Output) : (emit s o).mc = s.mc := rfl
@[simp] theorem emit_ke (o : Output) : (emit s o).ke = s.ke := rfl
@[simp] theorem emit_store (o : Output) : (emit s o).store = s.store := rfl
@[simp] theorem emit_sq (o : Output) : (emit s o).sq = s.sq := rfl
@[simp] theorem emit_ri (o : Output) : (emit s o).ri = s.ri := rfl
@[simp] theorem emit_hpA (o : Output) : (emit s o).hpA = s.hpA := rfl
@[simp] theorem emit_hpB (o : Output) : (emit s o).hpB = s.hpB := rfl
@[simp] theorem emit_ms (o : Output) : (emit s o).ms = s.ms := rfl
@[simp] theorem emit_scs (o : Output) : (emit s o).scs = s.scs := rfl
@[simp] theorem emit_tgs (o : Output) : (emit s o).tgs = s.tgs := rfl
@[simp] theorem emit_tiles (o : Output) : (emit s o).tiles = s.tiles := rfl
@[simp] theorem emit_beatTiles (o : Output) : (emit s o).beatTiles = s.beatTiles := rfl
@[simp] theorem emit_beatTgs (o : Output) : (emit s o).beatTgs = s.beatTgs := rfl
@[simp] theorem emit_bindings (o : Output) : (emit s o).bindings = s.bindings := rfl
@[simp] theorem emit_loads (o : Output) : (emit s o).loads = s.loads := rfl
@[simp] theorem emit_loadNo (o : Output) : (emit s o).loadNo = s.loadNo := rfl
@[simp] theorem emit_jobs (o : Output) : (emit s o).jobs = s.jobs := rfl
@[simp] theorem emit_unbinding (o : Output) : (emit s o).unbinding = s.unbinding := rfl
@[simp] theorem emit_cores (o : Output) : (emit s o).cores = s.cores := rfl
@[simp] theorem emit_owners (o : Output) : (emit s o).owners = s.owners := rfl
@[simp] theorem emit_streams (o : Output) : (emit s o).streams = s.streams := rfl
@[simp] theorem emit_prefixes (o : Output) : (emit s o).prefixes = s.prefixes := rfl
@[simp] theorem emit_promptUsed (o : Output) : (emit s o).promptUsed = s.promptUsed := rfl
@[simp] theorem emit_mgmt (o : Output) : (emit s o).mgmt = s.mgmt := rfl
@[simp] theorem emit_mem (o : Output) : (emit s o).mem = s.mem := rfl
@[simp] theorem emit_memKey (o : Output) : (emit s o).memKey = s.memKey := rfl

end Sys2Proof.Machine
end

