-- ==== Sys2Proof/WellFormed.lean ====
section
/-! DEFINITION. Which commands a sender can send: operands within the ranges that their units have. -/

namespace Sys2Proof

/-- A virtual function has a number from 1 (R445). -/
def accessorOk : Accessor → Bool
  | .vf _ f => f != 0
  | .mgmtFn _ f => f != 0
  | _ => true

/-- A page key names a page of the directory or a function page (R18, R28). -/
def pageOk (p : BitVec 9) : Bool := decide (p.toNat ≤ 400)

/-- A ring port that receives: INBYE-in or OUTBYE-in (R401). -/
def inPort (p : BitVec 2) : Bool := p == 0 || p == 2

/-- The well-formed commands: tile and page numbers that exist (R28, R30, R52), virtual functions from 1 (R445), a flit's and a packet's
payload no longer than it holds (R408, R424), and blocks of the length their format has (R457, R462, R564). -/
def wellFormed : Instr → Bool
  | .registerWrite a _ _ _ => accessorOk a
  | .rcRead a _ _ => accessorOk a
  | .sqBeatCountRead a _ => accessorOk a
  | .devRtbRead a _ => accessorOk a
  | .pageEnableWrite _ page _ => pageOk page
  | .thaw a page _ => accessorOk a && pageOk page
  | .srst _ page _ => pageOk page
  | .srstDone page => pageOk page
  | .evtForce a page _ => accessorOk a && pageOk page
  | .pageLock a page _ => accessorOk a && pageOk page
  | .shot _ => true
  | .reshot _ _ _ _ => true
  | .seamReshot _ _ _ _ => true
  | .calibrationShot _ tile => decide (tile.toNat < 1088)
  | .driveFetch _ _ _ _ => true
  | .entryBlockClose _ => true
  | .beatStart _ => true
  | .beatEnd => true
  | .tgFsrDefault a _ _ => accessorOk a
  | .tgCheckTol a _ _ => accessorOk a
  | .calWindowWrite _ tile _ _ => decide (tile.toNat < 69632)
  | .adapterCommit _ => true
  | .repairRound _ _ _ _ => true
  | .loadWeights _ _ _ _ => true
  | .loadWeightsStart => true
  | .tileProgramDone tile _ _ _ _ => decide (tile.toNat < 69632)
  | .tileSettleEnd tile => decide (tile.toNat < 69632)
  | .tileCalComplete tile _ => decide (tile.toNat < 69632)
  | .loadWeightsComplete _ => true
  | .tileRetire _ tile _ => decide (tile.toNat < 1088)
  | .liveSwap _ => true
  | .tileUnbind => true
  | .remoteWriteArrival _ _ => true
  | .remoteReadReturn _ _ _ => true
  | .slotWaitRelease _ _ => true
  | .accWaitRelease _ => true
  | .waittRelease _ => true
  | .fenceComplete _ => true
  | .coreClearDone _ => true
  | .ccLaunchStart a _ _ => accessorOk a
  | .launchStart _ => true
  | .ccNop _ => true
  | .ccEnd _ => true
  | .ccBr _ _ => true
  | .ccBeq _ _ _ _ => true
  | .ccBne _ _ _ _ => true
  | .ccBlt _ _ _ _ => true
  | .ccBge _ _ _ _ => true
  | .ccBltu _ _ _ _ => true
  | .ccBgeu _ _ _ _ => true
  | .ccFence _ => true
  | .ccWaitt _ _ _ => true
  | .ccWaitc _ _ => true
  | .ccPost _ _ => true
  | .ccSget _ _ _ => true
  | .ccFsclr _ => true
  | .ccRsc _ _ _ _ => true
  | .ccNwchk _ _ _ _ => true
  | .ccRand _ _ _ => true
  | .ccAdd _ _ _ _ => true
  | .ccSub _ _ _ _ => true
  | .ccAnd _ _ _ _ => true
  | .ccOr _ _ _ _ => true
  | .ccXor _ _ _ _ => true
  | .ccShl _ _ _ _ => true
  | .ccShr _ _ _ _ => true
  | .ccSra _ _ _ _ => true
  | .ccMul _ _ _ _ => true
  | .ccMin _ _ _ _ => true
  | .ccMax _ _ _ _ => true
  | .ccSlt _ _ _ _ => true
  | .ccSltu _ _ _ _ => true
  | .ccSeq _ _ _ _ => true
  | .ccAddi _ _ _ _ => true
  | .ccLi _ _ _ => true
  | .ccLih _ _ _ => true
  | .ccShli _ _ _ _ => true
  | .ccShri _ _ _ _ => true
  | .ccSrai _ _ _ _ => true
  | .ccVext _ _ _ _ => true
  | .ccVins _ _ _ _ => true
  | .ccLd _ _ _ _ _ _ => true
  | .ccSt _ _ _ _ _ => true
  | .ccRstv _ _ _ _ _ _ => true
  | .ccRldv _ _ _ _ _ _ => true
  | .ccSlotDef _ _ _ => true
  | .ccSlotDrain _ _ => true
  | .ccSlotFill _ _ => true
  | .ccSlotFree _ _ => true
  | .ccSlotStat _ _ _ => true
  | .ccVadd _ _ _ _ _ => true
  | .ccVsub _ _ _ _ _ => true
  | .ccVmul _ _ _ _ _ => true
  | .ccVfma _ _ _ _ _ _ => true
  | .ccVmin _ _ _ _ _ => true
  | .ccVmax _ _ _ _ _ => true
  | .ccVabs _ _ _ => true
  | .ccVneg _ _ _ => true
  | .ccVcmp _ _ _ _ _ => true
  | .ccVsel _ _ _ _ _ _ => true
  | .ccVexp _ _ _ => true
  | .ccVrcp _ _ _ => true
  | .ccVrsq _ _ _ => true
  | .ccVdiv _ _ _ _ _ => true
  | .ccVsqrt _ _ _ => true
  | .ccVrnd _ _ _ _ => true
  | .ccVq _ _ _ _ _ => true
  | .ccVperm _ _ _ _ => true
  | .ccVmov _ _ _ => true
  | .ccVbc _ _ _ => true
  | .ccVred _ _ _ _ => true
  | .ccKsum _ _ _ _ _ => true
  | .ccVkadd _ _ _ _ => true
  | .ccKcomb _ _ _ _ => true
  | .ccKfin _ _ _ => true
  | .ccVld _ _ _ _ _ _ => true
  | .ccVst _ _ _ _ _ => true
  | .ccVlds _ _ _ _ _ _ _ => true
  | .ccVsts _ _ _ _ _ _ => true
  | .ccVldt _ _ _ _ _ _ _ => true
  | .ccVgath _ _ _ _ _ _ _ => true
  | .ccMz _ _ => true
  | .ccMma _ _ _ _ _ _ _ _ => true
  | .ccMrd _ _ _ _ => true
  | .ccMwr _ _ _ _ => true
  | .ccMst _ _ _ _ _ => true
  | .ccAccRd _ _ _ _ => true
  | .ccAccRdf _ _ _ _ _ _ => true
  | .ccAccDrop _ _ _ _ => true
  | .ccIllegal _ _ => true
  | .planAdmit _ _ _ => true
  | .planAdmitted _ => true
  | .planRetire _ => true
  | .planRetired => true
  | .ringResume _ => true
  | .roundBoundary _ _ => true
  | .roundStartFlit _ _ _ _ _ _ _ _ _ _ _ => true
  | .idleBoundaryPass => true
  | .statusFlitSend => true
  | .statusFlit _ _ _ _ _ _ _ _ => true
  | .switchGapEnd _ => true
  | .emptyRoundEnd _ _ => true
  | .timedSend _ _ => true
  | .timedRelease _ _ _ => true
  | .timedArrival _ _ _ => true
  | .tokenRecordArrival _ => true
  | .dmaSlotStart _ _ => true
  | .dmaTransferComplete _ _ _ => true
  | .copyComplete _ _ _ _ => true
  | .sqStretch a _ => accessorOk a
  | .submissionFetch _ _ entry => entry.all (fun e => e.length == 64)
  | .nopCommand _ => true
  | .ownerCreate _ _ => true
  | .ownerRelease _ _ => true
  | .ownerLimits _ _ _ _ _ _ _ _ _ _ _ => true
  | .ownerBind _ _ _ => true
  | .ownerUnbind _ _ _ => true
  | .ownerReattach _ _ _ => true
  | .streamOpen _ _ settings _ => settings.all (fun b => b.length == 128)
  | .streamSubmit _ _ _ _ _ => true
  | .streamSet _ _ _ _ settings => settings.all (fun b => b.length == 128)
  | .streamQuery _ _ _ _ => true
  | .streamFork _ _ _ => true
  | .streamRewind _ _ _ _ => true
  | .streamPause _ _ _ _ => true
  | .pausePlacement _ _ => true
  | .pauseImageDone _ => true
  | .pauseExpiry _ => true
  | .streamResume _ _ _ _ => true
  | .resumeImageDone _ _ => true
  | .streamClose _ _ _ => true
  | .streamTokens _ _ _ _ _ _ => true
  | .tierRegister _ _ _ => true
  | .schedSet _ _ _ => true
  | .memGrant _ _ _ _ => true
  | .memRelease _ _ _ _ => true
  | .memWrite _ _ _ _ _ => true
  | .memRead _ _ _ _ _ => true
  | .repairCtrl _ _ _ _ => true
  | .membership _ _ _ => true
  | .regAccess _ _ _ _ => true
  | .fnQueues _ _ _ _ _ => true
  | .qpConfig _ _ dwords => decide (dwords.length ≤ 64)
  | .dbSubmitTail _ _ _ _ => true
  | .dbComplHead _ _ _ _ => true
  | .msixSignal _ _ => true
  | .apertureAccess _ _ _ _ _ _ _ => true
  | .hpAptBase a _ _ _ => accessorOk a
  | .hpAptOwner a _ _ _ => accessorOk a
  | .hpHeartbeat a _ _ _ => accessorOk a
  | .hpHeartbeatTimeout a _ _ _ => accessorOk a
  | .heartbeatLost _ _ => true
  | .orphaned _ => true
  | .graceExpired _ => true
  | .flr _ _ => true
  | .flrBoundary _ _ => true
  | .functionReset _ _ => true
  | .vfEnableClear _ => true
  | .perstAssert _ => true
  | .perstDeassert _ => true
  | .hostLinkChange _ _ _ => true
  | .linkLossTimeout _ => true
  | .busMasterEnable _ _ _ => true
  | .doeDiscovery _ _ _ => true
  | .ideKm _ _ _ _ _ => true
  | .boot a _ => accessorOk a
  | .fwVerifyDone => true
  | .stage a _ => accessorOk a
  | .fwImagePacket _ data _ => decide (data.length ≤ 4096)
  | .fwStaged _ => true
  | .cxActivate a _ => accessorOk a
  | .cxDiscard a _ => accessorOk a
  | .quietTimeReached _ _ => true
  | .handoffStart => true
  | .handoffDone _ _ => true
  | .handoffRevert _ => true
  | .watchdogSignal _ => true
  | .watchdog _ => true
  | .setEndpointId _ => true
  | .getEndpointId => true
  | .getMctpVersionSupport _ => true
  | .getMessageTypeSupport => true
  | .getVendorMessageSupport => true
  | .pldmSensorRead _ => true
  | .pldmBaseRequest _ => true
  | .pldmFruRequest _ => true
  | .setEventReceiver _ => true
  | .pollForPlatformEvent => true
  | .platformEventSend _ => true
  | .platformEventTimeout => true
  | .spdmGetVersion _ => true
  | .spdmGetCapabilities _ => true
  | .spdmNegotiateAlgorithms _ => true
  | .spdmGetDigests _ => true
  | .spdmGetCertificate _ _ _ _ => true
  | .spdmChallenge _ _ nonce => nonce.length == 32
  | .spdmGetMeasurements _ _ => true
  | .spdmKeyExchange _ => true
  | .spdmFinish _ _ => true
  | .spdmHeartbeat _ _ => true
  | .spdmKeyUpdate _ _ => true
  | .spdmEndSession _ _ => true
  | .keyDestroy _ _ _ => true
  | .regRead _ _ => true
  | .regWrite _ _ => true
  | .ringJoin => true
  | .sumpRead _ _ => true
  | .mgmtStatus => true
  | .keDestroy a _ => accessorOk a
  | .ownerKeyDestroy _ _ => true
  | .keClear a _ => accessorOk a
  | .entropyFail _ => true
  | .drbgReseed => true
  | .linkBringup _ _ _ _ _ _ => true
  | .linkLightLoss _ _ => true
  | .linkSilence _ => true
  | .idleFlit port _ _ _ _ => inPort port
  | .timedFlit _ _ _ _ payload _ _ => decide (payload.length ≤ 246)
  | .creditFlit _ _ _ _ _ _ body _ => decide (body.length ≤ 246)
  | .tagWindowClose _ => true
  | .tagFlit port _ _ _ => inPort port
  | .timeFlit _ _ _ _ _ _ => true
  | .claimFlit _ _ _ _ _ _ => true
  | .creditWrite => true
  | .creditReadRequest _ => true
  | .creditReadData => true
  | .creditMessage => true
  | .creditImage => true
  | .riJoin a _ => accessorOk a
  | .riLeave a _ => accessorOk a
  | .riRetrain a _ => accessorOk a
  | .riLinkRate a _ => accessorOk a
  | .crosscutClose => true
  | .crosscutSettled _ => true
  | .retimeWander _ => true
  | .membershipChange _ _ => true
  | .trainingPhaseTimeout => true
  | .trainingRetry => true
  | .membershipPublish _ _ _ _ => true
  | .scrubPassStart => true
  | .scrubPass _ => true
  | .msScrubCtrl a _ => accessorOk a
  | .ceRateUpdate => true
  | .tempSample _ _ => true
  | .powerSample _ _ _ _ _ _ _ => true
  | .levelFall _ => true
  | .brownOut _ => true
  | .calIntervalExpiry _ => true
  | .calDone _ _ _ => true
  | .calLate _ => true
  | .hbCal a _ => accessorOk a
  | .hbSelfcal a _ => accessorOk a
  | .selfcalDone _ => true
  | .hbCalDtcal a _ => accessorOk a
  | .hbCalMaxInterval a _ => accessorOk a
  | .hbMarginEnv a _ _ => accessorOk a
  | .ageingUpdate _ _ _ _ => true
  | .marginReplan => true
  | .replan a _ => accessorOk a
  | .assayPattern a _ => accessorOk a
  | .assayReplay a _ => accessorOk a
  | .assayCore a _ => accessorOk a
  | .hbAbort a _ => accessorOk a
  | .assayNoInput => true
  | .assayComplete _ _ _ _ => true
  | .dpThrottlePoint a _ => accessorOk a
  | .dpTripAck a _ => accessorOk a
  | .dpRestart a _ => accessorOk a
  | .mcPassStart => true
  | .mcEntryDone codes => decide (1 ≤ codes.length) && decide (codes.length ≤ 256)
  | .mcSelfcal a _ => accessorOk a
  | .mcSelfcalComplete _ _ => true
  | .mcSeqTable a _ _ => accessorOk a
  | .mcTrigger a _ => accessorOk a
  | .auxApply => true
  | .auxLoss => true
  | .vinApply _ => true
  | .pwrEnRise => true
  | .pwrEnFall => true
  | .thermTripRelease => true
  | .mainOn _ _ => true
  | .zeroFillDone => true
  | .fwLoadedWorkDone _ => true
  | .configuredWorkDone => true
  | .startupCalDone _ => true
  | .devSoft a _ => accessorOk a
  | .softResetDone => true
  | .devModule a _ => accessorOk a
  | .moduleRestart => true
  | .refLost _ => true
  | .refHoldoverExpiry => true
  | .referenceAppear _ => true
  | .refLocked _ => true
  | .mainRailsStart _ => true
  | .holdUpBankDepleted => true
  | .planCheckComplete _ _ => true
  | .commandTransferComplete _ _ _ => true
  | .vfEnableSet _ _ => true
  | .resizableBar _ _ => true
  | .dynamicAddressAssign _ => true

end Sys2Proof
end

