-- ==== Sys2Proof/Tests/Slice0.lean ====
section
/-! SUPPORT. Tests of the model: the spec's own worked examples, an ill-formed command for each check, and for every statement with
hypotheses a state and operands that meet them, clause by clause. -/

set_option maxRecDepth 20000

namespace Sys2Proof.Tests

open Sys2Proof.Machine

/-! ### Small states -/

/-- The issuer of the commands in these tests: PF0 of Port A, pair 0, command 0. -/
def pf : Issuer := ⟨false, 0, 0, 0, 0xFF⟩

/-- An owner bound to PF0 of Port A. -/
def anOwner : Owner := { bound := [(false, 0)], held := some false }

/-- A stream of owner 1 that waits for a token. -/
def aStream : Stream := { state := 4, owner := 1, fn := 0, port := false }

/-- A module in READY alone in its ring, both host links up, with owner 1 and stream 0. -/
def rdy : State :=
  { clock := 4000000000
    power := { state := .ready, rtb := 1000, pllRef := 1, pllLocked := true, pllPending := false }
    cx := { state := 3, running := some {} }
    hb := { state := 2 }, mc := { state := 2 }, ms := { state := 2 }, ke := { state := 1, slots := [(1, { state := 1 })] }
    sq := { state := 1 }
    ri := { state := 4, valid := true, hf := true, count := 1, position := 0 }
    hpA := { state := 4, up := true, speed := 5, width := 5, fns := [(0, { busMaster := true })] }
    hpB := { state := 4, up := true, speed := 5, width := 5, fns := [(0, { busMaster := true })] }
    owners := [(1, some anOwner)]
    streams := [(0, some aStream)]
    mgmt := { dyn := some 9 } }

/-- Core 0 as k with the word w at its PC, active. -/
def coreAt (k : Core) (w : BitVec 64) : Tbl Core := [(0, { k with active := true, imem := [(0, w)], imemLen := 1 })]

/-- A ready module whose core 0 is at the word w. -/
def onCore (k : Core) (w : BitVec 64) : State := { rdy with cores := coreAt k w }

/-- A ready module with a plan set of one device whose record is d, at the start of a round that runs layout 0. -/
def planned (d : DevRec) : State :=
  { rdy with
    power := { rdy.power with rtb := 0 }, clock := 0
    sq := { rdy.sq with
      state := 4, active := 0, emptyRound := false
      planSet := some { plans := [{ layouts := [{}], recs := [d] }] } } }

/-- The same with a beat live. -/
def onBeat (d : DevRec) (l : Live) : State := { planned d with sq := { (planned d).sq with live := some l } }

/-- A ready module that has fetched one command from pair 0 of PF0 of Port A. -/
def fetched (opcode : Nat) (owner : Nat := 0) (params : List (BitVec 8) := []) : State :=
  { rdy with hpA := { rdy.hpA with fetched := [{ opcode := opcode, owner := owner, params := params }] } }

/-- A module in ROM. -/
def inRom : State := { rdy with power := { rdy.power with state := .rom }, cx := { state := 1 } }

/-- A ready module whose first queued credit packet is b. -/
def packet (b : List Byte) : State := { rdy with ri := { rdy.ri with packets := [b] } }

/-- The stack extents below 64 KiB granted to owner o. -/
def granted (s : State) (o : Nat) : State := { s with ms := { s.ms with extents := [(0, 16, 1 + o)] } }

/-- Master m of kind k frozen. -/
def withFrozen (s : State) (k m : Nat) : State := { s with frozen := [{ kind := k, master := m }] }

/-- A ring of two at the start of a round; the other member's one template sends the ring slot r here, and ts are its transfers. -/
def onRing (r : Ring) (ts : List Transfer) : State :=
  { planned {} with
    ri := { rdy.ri with count := 2, retime := ts }
    sq := { (planned {}).sq with planSet := some { devices := 2, plans := [{
      layouts := [{}], recs := [{}, { positions := [{}], templates := [{ rings := [r] }] }] }] } } }

/-- The table that holds x at the keys a to a + n - 1 answers x for each of them. -/
theorem tblGet_range' {α : Type} (d x : α) (n : Nat) : ∀ a i, a ≤ i → i < a + n →
    tblGet d ((List.range' a n).map (fun j => (j, x))) i = x := by
  induction n with
  | zero => intro a i h1 h2; omega
  | succ n ih =>
    intro a i h1 h2
    simp only [List.range'_succ, List.map_cons, tblGet]
    by_cases h : i = a
    · simp [h]
    · rw [if_neg h]; exact ih (a + 1) i (by omega) (by omega)

/-- A module in CALIBRATING whose group 0 is self-calibrating with every tile retired. -/
def calState : State :=
  { rdy with
    power := { rdy.power with state := .calibrating }
    tgs := [(0, { calActive := true })], tiles := (List.range' 0 1088).map (fun i => (i, { state := 1 })) }

/-- No tile of group 0 of that module has a place in the calibration. -/
theorem calState_done : (groupTiles 0).filter (fun i => !retiredState (getTile calState i).state) = [] := by
  rw [List.filter_eq_nil_iff]
  intro i hi
  obtain ⟨t, ht, rfl⟩ := List.mem_map.mp hi
  have hr : t < 1088 := List.mem_range.mp ht
  have h : getTile calState (0 * 1088 + t) = { state := 1 } := by
    unfold getTile calState; exact tblGet_range' ({} : Tile) { state := 1 } 1088 0 _ (by omega) (by omega)
  rw [h]; decide

/-- The 64 bytes of a LOAD_WEIGHTS list's header. -/
def listHeader (s : State) (o a : Nat) : List Byte := readUnder s (stackKey s o) a 64

/-- The matrices of that list. -/
def listMatrices (s : State) (o a : Nat) : List MatrixEntry :=
  let h := listHeader s o a
  (if mayRead s o (leAt h 16 8, 32 * leAt h 8 4) then entries32 s o (leAt h 16 8) (leAt h 8 4) else []).map matrixOf

/-- The tiles of that list. -/
def listTiles (s : State) (o a : Nat) : List TileEntry :=
  let h := listHeader s o a
  (if mayRead s o (leAt h 24 8, 32 * leAt h 12 4) then entries32 s o (leAt h 24 8) (leAt h 12 4) else []).map tileEntryOf

/-- What each tile of that list is to be bound as. -/
def listBindings (s : State) (o a : Nat) : List Binding :=
  let h := listHeader s o a
  (listTiles s o a).map (fun e => if byteAt h 6 = 3 then { owner := o } else bindingOf s o (bit (byteAt h 7) 0 || byteAt h 6 == 2)
    ((listMatrices s o a).getD e.matrix { k := 0, n := 0, scales := 0, tag := 0, seam := 0, clean := true }) e)

/-- What the checks of that list find. -/
def listCode (s : State) (o a : Nat) : Nat :=
  let h := listHeader s o a
  let tables := (if leAt h 8 4 = 0 then [] else [(leAt h 16 8, 32 * leAt h 8 4)]) ++ [(leAt h 24 8, 32 * leAt h 12 4)]
  loadCode s o (byteAt h 6) (listMatrices s o a) (listTiles s o a) (listBindings s o a) (tables.all (mayRead s o))

/-- A list of one 512-by-512 matrix for tile 0 of group 0, in mode m. -/
def listed (m : Nat) : State :=
  { fetched 36 with
    ms := { rdy.ms with extents := [(0, 64, 1)] }
    mem := [(0, 0x44), (1, 0x4C), (2, 0x57), (3, 0x4B), (4, 1), (6, BitVec.ofNat 8 m), (8, 1), (12, 1), (16, 64), (24, 96),
      (65, 2), (69, 2), (73, 16), (97, 16)] }

/-- A tile whose matrix fills it has no padding. -/
theorem no_padding (s : State) (tb : List (TileEntry × Binding)) (n : Nat)
    (h : ∀ x ∈ tb, 512 * x.2.rowTile + 512 ≤ x.2.k ∧ 512 * x.2.colTile + 512 ≤ x.2.n) :
    tb.any (fun x => decide (x.1.matrix < n) && badPadding s x.2) = false := by
  rw [List.any_eq_false]
  intro x hx
  have hb : badPadding s x.2 = false := by
    unfold badPadding
    rw [List.any_eq_false]
    intro r hr
    rw [Bool.not_eq_true, List.any_eq_false]
    intro e he
    have h1 : r < 512 := by simpa [upTo] using hr
    have h2 : e.1 < 512 := by
      have := (List.of_mem_zip he).1
      simpa [upTo, unpackCodes] using this
    have h3 := h x hx
    simp only [Bool.and_eq_true, Bool.or_eq_true, decide_eq_true_eq, not_and, not_or]
    intro _
    omega
  simp [hb]


/-- A table answers its default beyond its last key. -/
theorem tblGet_beyond {α : Type} (d : α) (t : Tbl α) (i : Nat) (h : ∀ e ∈ t, e.1 < i) : tblGet d t i = d := by
  induction t with
  | nil => rfl
  | cons e t ih =>
    have := h e (by simp)
    simp only [tblGet]
    rw [if_neg (by omega)]
    exact ih (fun x hx => h x (by simp [hx]))

/-- So does a range of it. -/
theorem tblGetList_beyond {α : Type} (d : α) (t : Tbl α) (n : Nat) : ∀ i, (∀ e ∈ t, e.1 < i) → ∀ x ∈ tblGetList d t i n, x = d := by
  induction n with
  | zero => intro i _ x hx; simp [tblGetList] at hx
  | succ n ih =>
    intro i h x hx
    simp only [tblGetList, List.mem_cons] at hx
    rcases hx with rfl | hx
    · exact tblGet_beyond d t i h
    · exact ih (i + 1) (fun e he => Nat.lt_succ_of_lt (h e he)) x hx

/-- Plain memory beyond what is listed reads as zeros. -/
theorem readUnder_beyond (s : State) (a n : Nat) (hk : s.memKey = []) (hp : s.ms.poisoned = []) (h : ∀ e ∈ s.mem, e.1 < 64 * (a / 64)) :
    ∀ x ∈ readUnder s 0 a n, x = 0 := by
  intro x hx
  obtain ⟨w, hw, hx⟩ := List.mem_flatMap.mp (List.mem_of_mem_drop (List.mem_of_mem_take hx))
  have hw : a / 64 ≤ w := by
    unfold wordsOf at hw
    split at hw
    · simp at hw
    · obtain ⟨v, _, rfl⟩ := List.mem_map.mp hw
      omega
  simp only [wordUnder, hk, hp, tblGet, List.contains_nil, Bool.not_false, and_self, if_true, memBytes] at hx
  exact tblGetList_beyond 0 s.mem 64 (64 * w) (fun e he => by have := h e he; omega) x hx

/-- A number read from zeros is 0. -/
theorem leAt_zeros (l : List Byte) (o n : Nat) (h : ∀ x ∈ l, x = 0) : leAt l o n = 0 := by
  unfold leAt
  have hd : ∀ x ∈ l.drop o, x = 0 := fun x hx => h x (List.mem_of_mem_drop hx)
  generalize l.drop o = m at hd
  induction n generalizing m with
  | zero => rfl
  | succ n ih =>
    cases m with
    | nil => simp only [padTo, ofLe]; rw [ih [] (by simp)]; rfl
    | cons b m => simp only [padTo, ofLe]; rw [ih m (fun x hx => hd x (by simp [hx])), hd b (by simp)]; rfl

/-- Scales that lie in such memory hold no NaN. -/
theorem no_nan (s : State) (o : Nat) (ms : List MatrixEntry) (hk : s.memKey = []) (hp : s.ms.poisoned = []) (ho : stackKey s o = 0)
    (h : ∀ m ∈ ms, ∀ e ∈ s.mem, e.1 + 64 ≤ m.scales) :
    ms.any (fun m => (upTo m.n).any (fun j => leAt (readUnder s (stackKey s o) (m.scales + 2 * j) 2) 0 2 / 128 % 256 == 255)) = false := by
  rw [List.any_eq_false]
  intro m hm
  rw [Bool.not_eq_true, List.any_eq_false]
  intro j _
  rw [ho, leAt_zeros _ _ _ (readUnder_beyond s _ 2 hk hp (fun e he => by have := h m hm e he; omega))]
  decide

/-- The checks of a list that resumes tile 0 find nothing. -/
theorem listed_resume : listCode (listed 2) 0 0 = 0 := by
  unfold listCode loadCode
  simp only []
  rw [no_padding _ _ _ (by decide +kernel), no_nan _ _ _ rfl rfl rfl (by decide +kernel)]
  decide +kernel

/-- A tile that is bound as its list binds it has the scales that the list has. -/
theorem no_mismatch (s : State) (o : Nat) (t : TileEntry) (b c : Binding) (hc : getBinding s t.group t.logical = some c)
    (h : (!c.bound || c.owner != o || c.k != b.k || c.n != b.n || c.seam != b.seam) = false) (hs : c.scales = b.scales) :
    [(t, b)].any (fun x => scaleMismatch s o x.1.group x.1.logical x.2) = false := by
  have : scaleMismatch s o t.group t.logical b = false := by
    simp only [scaleMismatch, hc]
    rw [h, hs]
    simp
  simp [this]

/-- A module where tile 0 is bound as that list binds it, for a live rewrite. -/
def listedLive : State := { listed 1 with bindings := [(0, some ((listBindings (listed 1) 0 0).getD 0 {}))] }

/-- The checks of a list that rewrites tile 0 live find nothing. -/
theorem listed_live : listCode listedLive 0 0 = 0 := by
  have hz : (listTiles listedLive 0 0).zip (listBindings listedLive 0 0) =
      [((listTiles listedLive 0 0).getD 0 ⟨0, 0, 0, 0, 0, 0, true⟩, (listBindings listedLive 0 0).getD 0 {})] := rfl
  have hm := no_mismatch listedLive 0 ((listTiles listedLive 0 0).getD 0 ⟨0, 0, 0, 0, 0, 0, true⟩) ((listBindings listedLive 0 0).getD 0 {})
    ((listBindings (listed 1) 0 0).getD 0 {}) rfl (by decide +kernel) rfl
  unfold listCode loadCode
  simp only []
  rw [no_padding _ _ _ (by decide +kernel), no_nan _ _ _ rfl rfl rfl (by decide +kernel), hz, hm]
  decide +kernel

/-! ### Worked examples of the spec -/

/-- The state after a command whose meaning answers one. -/
def after (i : Instr) (s : State) : State := match exec i s with
  | .next t => t
  | _ => s

/-- The word of chapter 07's example: ACC.RDF v8, s4, clip to s9, checked, is 0xC141_0098_0000_0000. -/
theorem test_accRdf_word : mkWord 0xC1 8 4 0 9 8 0 = 0xC141009800000000 := by decide

/-- Chapter 01's example: relief tile 1,030 of TG41 has its calibration record at 0x12C_9180. -/
theorem test_calibration_record_place : targetOf .mgmt 0x12C9180 = .window (41 * 1088 + 1030) 0 := by decide

/-- Chapter 01's example: the window's last byte is 0x143_FFFF. -/
theorem test_calibration_window_end : windowAt 0x143FFFF = some (69631, 63) ∧ windowAt 0x1440000 = none := by decide

/-- Chapter 01's example: PAGE_CTRL of CC037 is at 0x022_5008. -/
theorem test_core_page_place : targetOf (.pf0 false) 0x225008 = .page (83 + 37) 8 := by decide

/-- Chapter 01's example: core 37 frozen by a load from an EMPTY slot at 0x2_1A40 reports VALID with code 0x0D12 and KIND CORE, MASTER 37. -/
theorem test_core_freeze_report :
    let t := freezeCore rdy 37 0x12 0x21A40
    coreFrozen t 37 = true ∧ (getHdr t 120).faultValid = true ∧ (getHdr t 120).faultCode = 0x0D12 ∧ (getHdr t 120).faultKind = 3 ∧
      (getHdr t 120).faultMaster = 37 ∧ (getHdr t 120).faultAddr = 0x21A40 ∧ (getHdr t 120).evtStatus = 1 := by decide

/-- Chapter 01's example: writing 3 to PAGE_CTRL of CC037 from Port A, in a later SCLK cycle (R51), thaws the core. -/
theorem test_core_thaw : coreFrozen (after (.thaw (.pf0 false) 120 3) { freezeCore rdy 37 0x12 0x21A40 with clock := 16 }) 37 = false := by
  decide

/-- Chapter 03's example: tile 17 (GAIN 0x4052, OFFSET 0xFFFD) at FSR2 returns 137, 260 and 301 as these partials. -/
theorem test_lane_values : let t : Tile := { gain := 0x4052, offset := 0xFFFD }
    laneValue t 2 0 137 = 542143050 ∧ laneValue t 2 0 260 = 1028219370 ∧ laneValue t 2 0 301 = 1190244810 := by decide

/-- Chapter 04's example: the same tile's checked shot differs by 5,760 / 2,048 steps, which a tolerance of 6 lets pass. -/
theorem test_checked_shot :
    checksumDiff { offset := 0xFFFD } (List.replicate 512 28 ++ [0, 0, 0, 0, 31]) 2 false = 5760 ∧ 5760 ≤ 6 * 2048 := by decide

/-- R104: 460 converts to 448 in E4M3 (code 0x7E), and E4M3 has its NaN at 0x7F (R103). -/
theorem test_e4m3_of_460 : convert fmtFP32 fmtE4M3 0x43E60000 = 0x7E ∧ convert fmtE4M3 fmtFP32 0x7E = 0x43E00000 ∧
    convert fmtFP32 fmtE4M3 0x7FC00000 = 0x7F := by decide

/-- Chapters 03 and 07: column 700 of the key projection. 93,660 by 2^-5 is 2,926.875; by 2^-8 11.43310546875; with 0.8125 and
-0.046875 added, 12.24560546875 and 12.19873046875. -/
theorem test_key_projection_column : fMul 0x47B6EE00 0x3D000000 = 0x4536EE00 ∧ fMul 0x4536EE00 0x3B800000 = 0x4136EE00 ∧
    fAdd 0x4136EE00 0x3F500000 = 0x4143EE00 ∧ fAdd 0x4143EE00 0xBD400000 = 0x41432E00 := by decide

/-- Chapter 11's example: address 0x0A_0123_4540 lies in SC7, pseudo-channel 12; 64 KiB up, in SC0, pseudo-channel 12. -/
theorem test_stack_address : stackOf 0x0A01234540 = 7 ∧ pchOf 0x0A01234540 = 12 ∧ stackOf 0x0A01244540 = 0 ∧ pchOf 0x0A01244540 = 12 := by
  decide

/-- Chapter 05's example: two failed cells of row 88. Pair 30 is compensated to (14, 24); pair 31 reaches (31, 27) only. -/
theorem test_failed_cells : achieved [(88, 60, 14)] [] 88 30 (10, 20) = (14, 24) ∧ achieved [(88, 63, 27)] [] 88 31 (21, 9) = (31, 27) := by
  decide

/-- Chapter 04: a row whose sum is 4,032 or more has its checksum weight clamped at 31 (R57). -/
theorem test_checksum_clamp : checksumLevels 4032 = (31, 0) ∧ checksumLevels 4160 = (31, 0) := by decide

/-- Chapter 16's example: the tails of a round of 310,440 ticks at 14, 30 and 44 per cent. -/
theorem test_round_tails : tailTicks 310440 14 = 43464 ∧ tailTicks 310440 30 = 93136 ∧ tailTicks 310440 44 = 136600 := by decide

/-- Chapter 16's example: at ARRAY 90 and STRETCH_MAX 30, 93.5 C requests 14, 98.0 C (WARM) 30, and 101.0 C (HOT) 44. -/
theorem test_stretch_requests :
    (stretchRequest { rdy with dp := { hottest := 1496, lArray := 1, stretchMax := 30 } }).1 = 14 ∧
    (stretchRequest { rdy with dp := { hottest := 1568, lArray := 1, stretchMax := 30 } }).1 = 30 ∧
    (stretchRequest { rdy with dp := { hottest := 1616, lArray := 2, stretchMax := 30 } }).1 = 44 := by decide

/-- Chapter 13's example: FN_QUEUES maps queue pair 40 to entry 0 of VF 3 of Port A, whose HP_FN_QUEUE_MAP0 then reads 0x8000_0028. -/
theorem test_fn_queues : let t := after (.fnQueues pf 3 0 true 40) (fetched 0x38 0 [3, 0, 1, 0, 40, 0])
    regValue t (pgFn false 3) 0x080 = 0x80000028 ∧ pairOf t false 3 0 = some 40 := by decide

/-- Chapter 13's example: owner 12 bound to VF 3 shows as bit 12 of its HP_FN_OWNERS0. -/
theorem test_fn_owners : regValue { rdy with owners := [(12, some { bound := [(false, 3)] })] } (pgFn false 3) 0x060 = 0x1000 := by decide

/-! ### The named algorithms, at values that their standards give -/

/-- CRC-32 of the nine digits "123456789" (IEEE 802.3) is 0xCBF43926. -/
theorem test_crc32 : crc32 [0x31, 0x32, 0x33, 0x34, 0x35, 0x36, 0x37, 0x38, 0x39] = 0xCBF43926 := by decide +kernel

/-- FIPS 180-4: the first initial word of SHA-512 and its first and last round constants. -/
theorem test_sha_constants : shaInit.getD 0 0 = 0x6A09E667F3BCC908 ∧ shaConsts.getD 0 0 = 0x428A2F98D728AE22 ∧
    shaConsts.getD 79 0 = 0x6C44198C4A475817 := by decide +kernel

/-- FIPS 197: the S-box takes 0x53 to 0xED, and the column db 13 53 45 mixes to 8e 4d a1 bc. -/
theorem test_aes_parts : sbox 0x53 = 0xED ∧
    (mixColumns ([0xDB, 0x13, 0x53, 0x45] ++ List.replicate 12 0)).take 4 = [0x8E, 0x4D, 0xA1, 0xBC] := by decide +kernel

/-! ### Core instructions (chapter 07), each at the PC of core 0 -/

/-- Scalar register 3 of core 0 after a command. -/
def s3 (k : Core) (w : BitVec 64) (i : Instr) : BitVec 64 := (getCore (after i (onCore k w)) 0).s 3

/-- ADD wraps at 64 bits (R231). -/
theorem test_add_wraps : s3 { sregs := [(1, 0xFFFFFFFFFFFFFFFF), (2, 2)] } (mkWord 0x20 3 1 2 0 0 0) (.ccAdd 0 3 1 2) = 1 := by decide

/-- A write to s0 is discarded (R221). -/
theorem test_s0_stays_zero : (getCore (after (.ccAdd 0 0 1 1) (onCore { sregs := [(1, 5)] } (mkWord 0x20 0 1 1 0 0 0))) 0).s 0 = 0 := by decide

/-- SRA keeps the sign; SHR does not. -/
theorem test_shifts : s3 { sregs := [(1, 0x8000000000000000), (2, 4)] } (mkWord 0x27 3 1 2 0 0 0) (.ccSra 0 3 1 2) = 0xF800000000000000 ∧
    s3 { sregs := [(1, 0x8000000000000000), (2, 4)] } (mkWord 0x26 3 1 2 0 0 0) (.ccShr 0 3 1 2) = 0x0800000000000000 := by decide

/-- SLT compares signed and SLTU unsigned. -/
theorem test_compares : s3 { sregs := [(1, 0xFFFFFFFFFFFFFFFF), (2, 1)] } (mkWord 0x2B 3 1 2 0 0 0) (.ccSlt 0 3 1 2) = 1 ∧
    s3 { sregs := [(1, 0xFFFFFFFFFFFFFFFF), (2, 1)] } (mkWord 0x2C 3 1 2 0 0 0) (.ccSltu 0 3 1 2) = 0 := by decide

/-- MUL keeps the low 64 bits of the product. -/
theorem test_mul_low : s3 { sregs := [(1, 0x100000001), (2, 0x100000001)] } (mkWord 0x28 3 1 2 0 0 0) (.ccMul 0 3 1 2) = 0x200000001 := by
  decide

/-- A taken branch sets PC to IMM, one not taken moves to the next word. -/
theorem test_branch : (getCore (after (.ccBeq 0 1 2 7) (onCore {} (mkWord 0x03 0 1 2 0 0 7))) 0).pc = 7 ∧
    (getCore (after (.ccBne 0 1 2 7) (onCore {} (mkWord 0x04 0 1 2 0 0 7))) 0).pc = 1 := by decide

/-- A word whose OP is not listed freezes the core with ILLEGAL, 0x0D20 (R225). -/
theorem test_illegal : (getHdr (after (.ccIllegal 0 (mkWord 0xFF 0 0 0 0 0 0)) (onCore {} (mkWord 0xFF 0 0 0 0 0 0))) 83).faultCode = 0x0D20 := by
  decide

/-! ### Registers, queues and time -/

/-- RTB counts once in 16 DCLK cycles while the main rails are on and the ring clock is locked (R615, R645): the tick that ends at a
multiple of 16 counts, the next does not. -/
theorem test_rtb_counts : (idleCycle { rdy with clock := 15 }).power.rtb = 1001 ∧ (idleCycle { rdy with clock := 16 }).power.rtb = 1000 := by
  decide

/-- A doorbell tail inside the queue is taken; one outside fails the pair (R455). -/
theorem test_doorbell : (getQp (after (.dbSubmitTail false 0 0 3) { rdy with hpA := { rdy.hpA with qps := [(0, { state := 1 })] } }) false 0).sqTail = 3 ∧
    (getQp (after (.dbSubmitTail false 0 0 16) { rdy with hpA := { rdy.hpA with qps := [(0, { state := 1 })] } }) false 0).state = 2 := by decide

/-- A heartbeat timeout of 249 ms is outside its range and discarded; 250 is taken (R477). -/
theorem test_heartbeat_timeout : (after (.hpHeartbeatTimeout (.pf0 false) false false 249) rdy).hpA.hbTimeout = 1000 ∧
    (after (.hpHeartbeatTimeout (.pf0 false) false false 250) rdy).hpA.hbTimeout = 250 := by decide

/-- A grant of one free 4 KiB extent to owner 1 makes it that owner's (R389). -/
theorem test_mem_grant : let t := after (.memGrant pf 1 0x5000 0x1000) (fetched 0x20 1 [0, 0x50, 0, 0, 0, 0, 0, 0, 0, 0x10, 0, 0, 0, 0, 0, 0])
    extentsGranted t 1 0x5000 0x1000 = true ∧ extentsGranted t 1 0x6000 1 = false := by decide

/-- A write under a key reads back under that key, and no byte past it changes. -/
theorem test_stack_write : let t := writeUnder rdy 0 0x1003 [0xAA, 0xBB] 0
    readUnder t 0 0x1002 4 = [0, 0xAA, 0xBB, 0] ∧ t.memSound = true := by decide

/-- Reset: MAIN_ON, nothing queued, memory in canonical form, and CHECK_TOL 6, HP_HEARTBEAT_TIMEOUT 1,000 (R96, R477). -/
theorem test_reset : State.reset.power.state = .mainOn ∧ State.reset.pending = [] ∧ State.reset.memSound = true ∧
    State.reset.frozenSound = true ∧ regValue State.reset 19 76 = 6 ∧ regValue State.reset 8 0x050 = 1000 := by decide

/-- The queue is first in, first out: a step runs its front command. -/
theorem test_queue_order : (match step { rdy with pending := [.thermTripRelease, .ccNop 0] } with
    | .next t => t.pending
    | _ => []) = [.ccNop 0] := by decide

/-! ### Ill-formed commands, one for each check -/

/-- Virtual function 0 is no accessor, and pages end at 400. -/
theorem test_wf_pages : wellFormed (.rcRead (.vf false 0) 0 4) = false ∧ wellFormed (.srst false 401 4) = false ∧
    wellFormed (.thaw (.vf true 0) 0 2) = false ∧ wellFormed (.thaw .mgmt 401 2) = false ∧ wellFormed (.thaw .mgmt 400 2) = true := by decide

/-- A group has 1,088 tiles, the device 69,632. -/
theorem test_wf_tiles : wellFormed (.calibrationShot 0 1088) = false ∧ wellFormed (.tileRetire 0 1088 []) = false ∧
    wellFormed (.tileProgramDone 69632 [] [] 0 false) = false ∧ wellFormed (.calWindowWrite (.pf0 false) 69632 0 0) = false ∧
    wellFormed (.tileSettleEnd 69632) = false ∧ wellFormed (.tileCalComplete 69632 []) = false ∧ wellFormed (.calibrationShot 0 1087) = true := by
  decide

/-- R558: f_s/f_u = 0.95 in one pair of 64 gives D_ro = 5 %, whatever the times of counting. -/
theorem test_d_ro : oscillatorDrift (95 :: List.replicate 63 100) (List.replicate 64 100) 1 1 = 500 ∧
    oscillatorDrift (190 :: List.replicate 63 300) (List.replicate 64 100) 2 1 = 500 := by decide

/-- Entries, settings blocks, packets, nonces and QP_CONFIG have their lengths. -/
theorem test_wf_lengths : wellFormed (.submissionFetch false 0 (some [0])) = false ∧ wellFormed (.streamOpen pf 1 (some [0]) 0) = false ∧
    wellFormed (.streamSet pf 1 0 0 (some [0])) = false ∧ wellFormed (.fwImagePacket 0 (List.replicate 4097 0) false) = false ∧
    wellFormed (.spdmChallenge .mgmt 0 []) = false ∧ wellFormed (.qpConfig false 0 (List.replicate 65 0)) = false ∧
    wellFormed (.mcEntryDone []) = false ∧ wellFormed (.submissionFetch false 0 none) = true := by decide

/-- Flits arrive on ports 0 and 2 and carry at most 246 bytes. -/
theorem test_wf_flits : wellFormed (.idleFlit 1 0 false 0 false) = false ∧ wellFormed (.timedFlit 0 0 0 0 (List.replicate 247 0) true false) = false ∧
    wellFormed (.creditFlit 0 false 0 0 true true (List.replicate 247 0) true) = false ∧ wellFormed (.idleFlit 2 0 false 0 false) = true := by decide

/-! ### Witnesses: what each clause of each statement assumes can hold -/

/-- The hypotheses of `Obligations.EmptyQueueTicks`, clause by clause. -/
theorem witness_EmptyQueueTicks :
    ∃ (s : State), s.pending = [] :=
  ⟨rdy, by decide⟩

/-- The hypotheses of `Obligations.StepTakesTheFrontCommand`, clause by clause. -/
theorem witness_StepTakesTheFrontCommand :
    ∃ (s : State) (t : State), step s = Host.Outcome.next t :=
  ⟨{ rdy with pending := [.ccNop 0] }, rdy, rfl⟩

/-- The hypotheses of `Obligations.MemoryStaysCanonical`, clause by clause. -/
theorem witness_MemoryStaysCanonical :
    ∃ (s : State) (t : State), s.memSound = true ∧ step s = Host.Outcome.next t :=
  ⟨{ rdy with pending := [.ccNop 0] }, rdy, by decide, rfl⟩

/-- The hypotheses of `Obligations.FrozenMastersStaySound`, clause by clause. -/
theorem witness_FrozenMastersStaySound :
    ∃ (s : State) (t : State), s.frozenSound = true ∧ step s = Host.Outcome.next t :=
  ⟨{ rdy with pending := [.ccNop 0] }, rdy, by decide, rfl⟩

/-- The hypotheses of `Obligations.CoreIssueRule`, clause by clause. -/
theorem witness_CoreIssueRule :
    (∃ (s : State) (c : Nat) (w : BitVec 64), canIssue s c w = false) ∧
    (∃ (s : State) (c : Nat) (w : BitVec 64), canIssue s c w = true ∧ wordIllegal w = true) ∧
    (∃ (s : State) (c : Nat) (w : BitVec 64), canIssue s c w = true ∧ wordIllegal w = false ∧ netHazard (getCore s c) w = true) ∧
    (∃ (s : State) (c : Nat) (w : BitVec 64), canIssue s c w = true ∧ wordIllegal w = false ∧ netHazard (getCore s c) w = false) ∧
    (∃ (s : State) (core : BitVec 8) (w : BitVec 64), canIssue s core.toNat w = true ∧ wordIllegal w = true) :=
  ⟨⟨rdy, 0, 0, by decide⟩,
   ⟨onCore {} (mkWord 255 0 0 0 0 0 0), 0, mkWord 255 0 0 0 0 0 0, by decide⟩,
   ⟨onCore { remoteReads := [(0, 1, 0, 64)] } (mkWord 1 0 0 0 0 0 0), 0, mkWord 1 0 0 0 0 0 0, by decide⟩,
   ⟨onCore {} (mkWord 0 0 0 0 0 0 0), 0, mkWord 0 0 0 0 0 0 0, by decide⟩,
   ⟨onCore {} (mkWord 255 0 0 0 0 0 0), 0, mkWord 255 0 0 0 0 0 0, by decide⟩⟩

/-- The hypotheses of `Obligations.CoreRecordAndScalarRegisters`, clause by clause. -/
theorem witness_CoreRecordAndScalarRegisters :
    (∃ (s : State) (c : Nat) (d : Nat), tblWf { } s.cores = true ∧ d ≠ c) ∧
    (∃ (k : Core) (n : Nat) (m : Nat), tblWf 0 k.sregs = true ∧ n ≠ 0 ∧ m ≠ n) :=
  ⟨⟨rdy, 0, 1, by decide⟩,
   ⟨{}, 1, 2, by decide⟩⟩

/-- The hypotheses of `Obligations.ScalarInstructions`, clause by clause. -/
theorem witness_ScalarInstructions :
    (∃ (s : State) (c : BitVec 8) (d : BitVec 5) (a : BitVec 5) (b : BitVec 5), ready s c (mkWord 32 d a b 0 0 0)) ∧
    (∃ (s : State) (c : BitVec 8) (d : BitVec 5) (a : BitVec 5) (b : BitVec 5), ready s c (mkWord 33 d a b 0 0 0)) ∧
    (∃ (s : State) (c : BitVec 8) (d : BitVec 5) (a : BitVec 5) (b : BitVec 5), ready s c (mkWord 34 d a b 0 0 0)) ∧
    (∃ (s : State) (c : BitVec 8) (d : BitVec 5) (a : BitVec 5) (b : BitVec 5), ready s c (mkWord 35 d a b 0 0 0)) ∧
    (∃ (s : State) (c : BitVec 8) (d : BitVec 5) (a : BitVec 5) (b : BitVec 5), ready s c (mkWord 36 d a b 0 0 0)) ∧
    (∃ (s : State) (c : BitVec 8) (d : BitVec 5) (a : BitVec 5) (b : BitVec 5), ready s c (mkWord 37 d a b 0 0 0)) ∧
    (∃ (s : State) (c : BitVec 8) (d : BitVec 5) (a : BitVec 5) (b : BitVec 5), ready s c (mkWord 38 d a b 0 0 0)) ∧
    (∃ (s : State) (c : BitVec 8) (d : BitVec 5) (a : BitVec 5) (b : BitVec 5), ready s c (mkWord 39 d a b 0 0 0)) ∧
    (∃ (s : State) (c : BitVec 8) (d : BitVec 5) (a : BitVec 5) (b : BitVec 5), ready s c (mkWord 40 d a b 0 0 0)) ∧
    (∃ (s : State) (c : BitVec 8) (d : BitVec 5) (a : BitVec 5) (b : BitVec 5), ready s c (mkWord 41 d a b 0 0 0)) ∧
    (∃ (s : State) (c : BitVec 8) (d : BitVec 5) (a : BitVec 5) (b : BitVec 5), ready s c (mkWord 42 d a b 0 0 0)) ∧
    (∃ (s : State) (c : BitVec 8) (d : BitVec 5) (a : BitVec 5) (b : BitVec 5), ready s c (mkWord 43 d a b 0 0 0)) ∧
    (∃ (s : State) (c : BitVec 8) (d : BitVec 5) (a : BitVec 5) (b : BitVec 5), ready s c (mkWord 44 d a b 0 0 0)) ∧
    (∃ (s : State) (c : BitVec 8) (d : BitVec 5) (a : BitVec 5) (b : BitVec 5), ready s c (mkWord 45 d a b 0 0 0)) ∧
    (∃ (s : State) (c : BitVec 8) (d : BitVec 5) (a : BitVec 5) (imm : BitVec 32), ready s c (mkWord 48 d a 0 0 0 imm)) ∧
    (∃ (s : State) (c : BitVec 8) (d : BitVec 5) (imm : BitVec 32), ready s c (mkWord 49 d 0 0 0 0 imm)) ∧
    (∃ (s : State) (c : BitVec 8) (d : BitVec 5) (imm : BitVec 32), ready s c (mkWord 50 d 0 0 0 0 imm)) ∧
    (∃ (s : State) (c : BitVec 8) (d : BitVec 5) (a : BitVec 5) (imm : BitVec 32), ready s c (mkWord 51 d a 0 0 0 imm)) ∧
    (∃ (s : State) (c : BitVec 8) (d : BitVec 5) (a : BitVec 5) (imm : BitVec 32), ready s c (mkWord 52 d a 0 0 0 imm)) ∧
    (∃ (s : State) (c : BitVec 8) (d : BitVec 5) (a : BitVec 5) (imm : BitVec 32), ready s c (mkWord 53 d a 0 0 0 imm)) ∧
    (∃ (s : State) (c : BitVec 8) (d : BitVec 5) (a : BitVec 5) (imm : BitVec 32), ready s c (mkWord 56 d a 0 0 0 imm)) ∧
    (∃ (s : State) (c : BitVec 8) (d : BitVec 5) (a : BitVec 5) (imm : BitVec 32), ready s c (mkWord 57 d a 0 0 0 imm)) :=
  ⟨⟨onCore {} (mkWord 32 0 0 0 0 0 0), 0, 0, 0, 0, by unfold ready; decide⟩,
   ⟨onCore {} (mkWord 33 0 0 0 0 0 0), 0, 0, 0, 0, by unfold ready; decide⟩,
   ⟨onCore {} (mkWord 34 0 0 0 0 0 0), 0, 0, 0, 0, by unfold ready; decide⟩,
   ⟨onCore {} (mkWord 35 0 0 0 0 0 0), 0, 0, 0, 0, by unfold ready; decide⟩,
   ⟨onCore {} (mkWord 36 0 0 0 0 0 0), 0, 0, 0, 0, by unfold ready; decide⟩,
   ⟨onCore {} (mkWord 37 0 0 0 0 0 0), 0, 0, 0, 0, by unfold ready; decide⟩,
   ⟨onCore {} (mkWord 38 0 0 0 0 0 0), 0, 0, 0, 0, by unfold ready; decide⟩,
   ⟨onCore {} (mkWord 39 0 0 0 0 0 0), 0, 0, 0, 0, by unfold ready; decide⟩,
   ⟨onCore {} (mkWord 40 0 0 0 0 0 0), 0, 0, 0, 0, by unfold ready; decide⟩,
   ⟨onCore {} (mkWord 41 0 0 0 0 0 0), 0, 0, 0, 0, by unfold ready; decide⟩,
   ⟨onCore {} (mkWord 42 0 0 0 0 0 0), 0, 0, 0, 0, by unfold ready; decide⟩,
   ⟨onCore {} (mkWord 43 0 0 0 0 0 0), 0, 0, 0, 0, by unfold ready; decide⟩,
   ⟨onCore {} (mkWord 44 0 0 0 0 0 0), 0, 0, 0, 0, by unfold ready; decide⟩,
   ⟨onCore {} (mkWord 45 0 0 0 0 0 0), 0, 0, 0, 0, by unfold ready; decide⟩,
   ⟨onCore {} (mkWord 48 0 0 0 0 0 0), 0, 0, 0, 0, by unfold ready; decide⟩,
   ⟨onCore {} (mkWord 49 0 0 0 0 0 0), 0, 0, 0, by unfold ready; decide⟩,
   ⟨onCore {} (mkWord 50 0 0 0 0 0 0), 0, 0, 0, by unfold ready; decide⟩,
   ⟨onCore {} (mkWord 51 0 0 0 0 0 0), 0, 0, 0, 0, by unfold ready; decide⟩,
   ⟨onCore {} (mkWord 52 0 0 0 0 0 0), 0, 0, 0, 0, by unfold ready; decide⟩,
   ⟨onCore {} (mkWord 53 0 0 0 0 0 0), 0, 0, 0, 0, by unfold ready; decide⟩,
   ⟨onCore {} (mkWord 56 0 0 0 0 0 0), 0, 0, 0, 0, by unfold ready; decide⟩,
   ⟨onCore {} (mkWord 57 0 0 0 0 0 0), 0, 0, 0, 0, by unfold ready; decide⟩⟩

/-- The hypotheses of `Obligations.BranchAndWaitInstructions`, clause by clause. -/
theorem witness_BranchAndWaitInstructions :
    (∃ (s : State) (c : BitVec 8) (imm : BitVec 32), ready s c (mkWord 2 0 0 0 0 0 imm) ∧ 8191 < imm.toNat) ∧
    (∃ (s : State) (c : BitVec 8) (imm : BitVec 32), ready s c (mkWord 2 0 0 0 0 0 imm) ∧ imm.toNat ≤ 8191) ∧
    (∃ (s : State) (c : BitVec 8) (a : BitVec 5) (b : BitVec 5) (imm : BitVec 32), ready s c (mkWord 3 0 a b 0 0 imm) ∧ 8191 <
      imm.toNat) ∧
    (∃ (s : State) (c : BitVec 8) (a : BitVec 5) (b : BitVec 5) (imm : BitVec 32), ready s c (mkWord 3 0 a b 0 0 imm) ∧ imm.toNat ≤
      8191 ∧ (getCore s c.toNat).s a.toNat = (getCore s c.toNat).s b.toNat) ∧
    (∃ (s : State) (c : BitVec 8) (a : BitVec 5) (b : BitVec 5) (imm : BitVec 32), ready s c (mkWord 3 0 a b 0 0 imm) ∧ imm.toNat ≤
      8191 ∧ ¬(getCore s c.toNat).s a.toNat = (getCore s c.toNat).s b.toNat) ∧
    (∃ (s : State) (c : BitVec 8) (a : BitVec 5) (b : BitVec 5) (imm : BitVec 32), ready s c (mkWord 4 0 a b 0 0 imm) ∧ 8191 <
      imm.toNat) ∧
    (∃ (s : State) (c : BitVec 8) (a : BitVec 5) (b : BitVec 5) (imm : BitVec 32), ready s c (mkWord 4 0 a b 0 0 imm) ∧ imm.toNat ≤
      8191 ∧ (getCore s c.toNat).s a.toNat ≠ (getCore s c.toNat).s b.toNat) ∧
    (∃ (s : State) (c : BitVec 8) (a : BitVec 5) (b : BitVec 5) (imm : BitVec 32), ready s c (mkWord 4 0 a b 0 0 imm) ∧ imm.toNat ≤
      8191 ∧ ¬(getCore s c.toNat).s a.toNat ≠ (getCore s c.toNat).s b.toNat) ∧
    (∃ (s : State) (c : BitVec 8) (a : BitVec 5) (b : BitVec 5) (imm : BitVec 32), ready s c (mkWord 5 0 a b 0 0 imm) ∧ 8191 <
      imm.toNat) ∧
    (∃ (s : State) (c : BitVec 8) (a : BitVec 5) (b : BitVec 5) (imm : BitVec 32), ready s c (mkWord 5 0 a b 0 0 imm) ∧ imm.toNat ≤
      8191 ∧ ((getCore s c.toNat).s a.toNat).toInt < ((getCore s c.toNat).s b.toNat).toInt) ∧
    (∃ (s : State) (c : BitVec 8) (a : BitVec 5) (b : BitVec 5) (imm : BitVec 32), ready s c (mkWord 5 0 a b 0 0 imm) ∧ imm.toNat ≤
      8191 ∧ ¬((getCore s c.toNat).s a.toNat).toInt < ((getCore s c.toNat).s b.toNat).toInt) ∧
    (∃ (s : State) (c : BitVec 8) (a : BitVec 5) (b : BitVec 5) (imm : BitVec 32), ready s c (mkWord 6 0 a b 0 0 imm) ∧ 8191 <
      imm.toNat) ∧
    (∃ (s : State) (c : BitVec 8) (a : BitVec 5) (b : BitVec 5) (imm : BitVec 32), ready s c (mkWord 6 0 a b 0 0 imm) ∧ imm.toNat ≤
      8191 ∧ ((getCore s c.toNat).s b.toNat).toInt ≤ ((getCore s c.toNat).s a.toNat).toInt) ∧
    (∃ (s : State) (c : BitVec 8) (a : BitVec 5) (b : BitVec 5) (imm : BitVec 32), ready s c (mkWord 6 0 a b 0 0 imm) ∧ imm.toNat ≤
      8191 ∧ ¬((getCore s c.toNat).s b.toNat).toInt ≤ ((getCore s c.toNat).s a.toNat).toInt) ∧
    (∃ (s : State) (c : BitVec 8) (a : BitVec 5) (b : BitVec 5) (imm : BitVec 32), ready s c (mkWord 7 0 a b 0 0 imm) ∧ 8191 <
      imm.toNat) ∧
    (∃ (s : State) (c : BitVec 8) (a : BitVec 5) (b : BitVec 5) (imm : BitVec 32), ready s c (mkWord 7 0 a b 0 0 imm) ∧ imm.toNat ≤
      8191 ∧ ((getCore s c.toNat).s a.toNat).toNat < ((getCore s c.toNat).s b.toNat).toNat) ∧
    (∃ (s : State) (c : BitVec 8) (a : BitVec 5) (b : BitVec 5) (imm : BitVec 32), ready s c (mkWord 7 0 a b 0 0 imm) ∧ imm.toNat ≤
      8191 ∧ ¬((getCore s c.toNat).s a.toNat).toNat < ((getCore s c.toNat).s b.toNat).toNat) ∧
    (∃ (s : State) (c : BitVec 8) (a : BitVec 5) (b : BitVec 5) (imm : BitVec 32), ready s c (mkWord 8 0 a b 0 0 imm) ∧ 8191 <
      imm.toNat) ∧
    (∃ (s : State) (c : BitVec 8) (a : BitVec 5) (b : BitVec 5) (imm : BitVec 32), ready s c (mkWord 8 0 a b 0 0 imm) ∧ imm.toNat ≤
      8191 ∧ ((getCore s c.toNat).s b.toNat).toNat ≤ ((getCore s c.toNat).s a.toNat).toNat) ∧
    (∃ (s : State) (c : BitVec 8) (a : BitVec 5) (b : BitVec 5) (imm : BitVec 32), ready s c (mkWord 8 0 a b 0 0 imm) ∧ imm.toNat ≤
      8191 ∧ ¬((getCore s c.toNat).s b.toNat).toNat ≤ ((getCore s c.toNat).s a.toNat).toNat) ∧
    (∃ (s : State) (c : BitVec 8), ready s c (mkWord 0 0 0 0 0 0 0)) ∧
    (∃ (s : State) (c : BitVec 8), ready s c (mkWord 14 0 0 0 0 0 0)) ∧
    (∃ (s : State) (c : BitVec 8), ready s c (mkWord 9 0 0 0 0 0 0)) ∧
    (∃ (s : State) (c : BitVec 8) (a : BitVec 5) (imm : BitVec 32), ready s c (mkWord 10 0 a 0 0 0 imm)) ∧
    (∃ (s : State) (c : BitVec 8) (imm : BitVec 32), ready s c (mkWord 11 0 0 0 0 0 imm) ∧ ((getCore s c.toNat).slot (imm.toNat %
      128)).valid = true) ∧
    (∃ (s : State) (c : BitVec 8) (imm : BitVec 32) (l : Live), ready s c (mkWord 12 0 0 0 0 0 imm) ∧ s.sq.live = some l ∧ imm.toNat
      % 1024 < (launchOf s c.toNat).posts.length ∧ ((l.posted.any fun p => p.1 == (getCore s c.toNat).current && p.2.1 == imm.toNat %
      1024) = false)) :=
  ⟨⟨onCore {} (mkWord 2 0 0 0 0 0 (8192)), 0, 8192, by unfold ready; decide⟩,
   ⟨onCore {} (mkWord 2 0 0 0 0 0 (8191)), 0, 8191, by unfold ready; decide⟩,
   ⟨onCore {} (mkWord 3 0 0 0 0 0 (8192)), 0, 0, 0, 8192, by unfold ready; decide⟩,
   ⟨onCore {} (mkWord 3 0 0 0 0 0 0), 0, 0, 0, 0, by unfold ready; decide⟩,
   ⟨onCore { sregs := [(1, 64)] } (mkWord 3 0 0 (1) 0 0 (8191)), 0, 0, 1, 8191, by unfold ready; decide⟩,
   ⟨onCore {} (mkWord 4 0 0 0 0 0 (8192)), 0, 0, 0, 8192, by unfold ready; decide⟩,
   ⟨onCore { sregs := [(1, 64)] } (mkWord 4 0 0 (1) 0 0 (8191)), 0, 0, 1, 8191, by unfold ready; decide⟩,
   ⟨onCore {} (mkWord 4 0 0 0 0 0 0), 0, 0, 0, 0, by unfold ready; decide⟩,
   ⟨onCore {} (mkWord 5 0 0 0 0 0 (8192)), 0, 0, 0, 8192, by unfold ready; decide⟩,
   ⟨onCore { sregs := [(1, 64)] } (mkWord 5 0 0 (1) 0 0 (8191)), 0, 0, 1, 8191, by unfold ready; decide⟩,
   ⟨onCore {} (mkWord 5 0 0 0 0 0 0), 0, 0, 0, 0, by unfold ready; decide⟩,
   ⟨onCore {} (mkWord 6 0 0 0 0 0 (8192)), 0, 0, 0, 8192, by unfold ready; decide⟩,
   ⟨onCore {} (mkWord 6 0 0 0 0 0 0), 0, 0, 0, 0, by unfold ready; decide⟩,
   ⟨onCore { sregs := [(1, 64)] } (mkWord 6 0 0 (1) 0 0 (8191)), 0, 0, 1, 8191, by unfold ready; decide⟩,
   ⟨onCore {} (mkWord 7 0 0 0 0 0 (8192)), 0, 0, 0, 8192, by unfold ready; decide⟩,
   ⟨onCore { sregs := [(1, 64)] } (mkWord 7 0 0 (1) 0 0 (8191)), 0, 0, 1, 8191, by unfold ready; decide⟩,
   ⟨onCore {} (mkWord 7 0 0 0 0 0 0), 0, 0, 0, 0, by unfold ready; decide⟩,
   ⟨onCore {} (mkWord 8 0 0 0 0 0 (8192)), 0, 0, 0, 8192, by unfold ready; decide⟩,
   ⟨onCore {} (mkWord 8 0 0 0 0 0 0), 0, 0, 0, 0, by unfold ready; decide⟩,
   ⟨onCore { sregs := [(1, 64)] } (mkWord 8 0 0 (1) 0 0 (8191)), 0, 0, 1, 8191, by unfold ready; decide⟩,
   ⟨onCore {} (mkWord 0 0 0 0 0 0 0), 0, by unfold ready; decide⟩,
   ⟨onCore {} (mkWord 14 0 0 0 0 0 0), 0, by unfold ready; decide⟩,
   ⟨onCore {} (mkWord 9 0 0 0 0 0 0), 0, by unfold ready; decide⟩,
   ⟨onCore {} (mkWord 10 0 0 0 0 0 0), 0, 0, 0, by unfold ready; decide⟩,
   ⟨onCore { slots := [(0, { valid := true })] } (mkWord 11 0 0 0 0 0 0), 0, 0, by unfold ready; decide⟩,
   ⟨{ onBeat { templates := [{ launches := [{ posts := [(0, 0)] }] }] } {} with cores := coreAt { current := 0 } (mkWord 12 0 0 0 0 0 0) }, 0, 0, {}, by unfold ready; decide⟩⟩

/-- The hypotheses of `Obligations.SpecialValuesReplayAndDraw`, clause by clause. -/
theorem witness_SpecialValuesReplayAndDraw :
    (∃ (s : State) (c : BitVec 8) (d : BitVec 5) (sel : Nat) (v : Nat) (t : State), (sel, v, t) ∈ [(0, c.toNat, s), (1, c.toNat / 4,
      s), (2, (beatCycle s).1 / 2, (beatCycle s).2), (3, (beatCycle s).1, (beatCycle s).2), (4, s.sq.beatCount.toNat, s), (5, (beatRho
      s).1, (beatRho s).2), (6, ((if (getCore s c.toNat).nv = true then 1 else 0) + if (getCore s c.toNat).inf = true then 2 else 0) +
      if (getCore s c.toNat).ncv = true then 4 else 0, s), (7, (getCore s c.toNat).current, s), (8, if (getHdr s (83 +
      c.toNat)).ownerValid = true then (getHdr s (83 + c.toNat)).ownerId else 0, s), (9, s.power.rtb.toNat, s)] ∧ ready s c (mkWord 13
      d 0 0 0 0 (BitVec.ofNat 32 sel))) ∧
    (∃ (s : State) (c : BitVec 8) (d : BitVec 5) (a : BitVec 5) (imm : BitVec 32), ready s c (mkWord 16 d a 0 0 0 imm) ∧ ((match List.find? (fun o => some o.template == Option.map (fun x => x.template) s.sq.live) (List.filter (fun o => o.tag == imm.toNat % 65536) (ownRec s).ops) with | some o => some o | none => (List.filter (fun o => o.tag == imm.toNat % 65536) (ownRec s).ops).head?) = none)) ∧
    (∃ (s : State) (c : BitVec 8) (d : BitVec 5) (a : BitVec 5) (imm : BitVec 32) (o : OpDesc) (l : Live), ready s c (mkWord 16 d a
      0 0 0 imm) ∧ ((match List.find? (fun o => some o.template == Option.map (fun x => x.template) s.sq.live) (List.filter (fun o => o.tag == imm.toNat % 65536) (ownRec s).ops) with | some o => some o | none => (List.filter (fun o => o.tag == imm.toNat % 65536) (ownRec s).ops).head?) = some o) ∧ s.sq.live = some l ∧ (o.rescale = false ∨ l.rho = 0)) ∧
    (∃ (s : State) (c : BitVec 8) (d : BitVec 5) (a : BitVec 5) (imm : BitVec 32) (l : Live) (x : Watch), ready s c (mkWord 17 d a 0
      0 0 imm) ∧ s.sq.live = some l ∧ (List.find? (fun x => x.layer == imm.toNat % 4096 && x.core == c.toNat) (liveTemplate s).watches
      = some x) ∧ ((l.nwQ.any fun e => e.1 == imm.toNat % 4096 && e.2.1 == imm.toNat / 65536 % 256) = false)) ∧
    (∃ (s : State) (c : BitVec 8) (d : BitVec 5) (a : BitVec 5) (imm : BitVec 32) (l : Live) (x : Watch), ready s c (mkWord 17 d a 0
      0 0 imm) ∧ s.sq.live = some l ∧ (List.find? (fun x => x.layer == imm.toNat % 4096 && x.core == c.toNat) (liveTemplate s).watches
      = some x) ∧ ((l.nwQ.any fun e => e.1 == imm.toNat % 4096 && e.2.1 == imm.toNat / 65536 % 256) = true)) ∧
    (∃ (s : State) (c : BitVec 8) (d : BitVec 5) (a : BitVec 5) (imm : BitVec 32), ready s c (mkWord 17 d a 0 0 0 imm) ∧ (List.find?
      (fun x => x.layer == imm.toNat % 4096 && x.core == c.toNat) (liveTemplate s).watches = none)) ∧
    (∃ (s : State) (c : BitVec 8) (d : BitVec 5) (a : BitVec 5), ready s c (mkWord 18 d a 0 0 0 0) ∧ s.sq.live.isSome = true ∧ 64 ≤
      (List.drop (tblGet 0 s.sq.drawPos (((getCore s c.toNat).s a.toNat).toNat % 65536)) (tblGet [] s.sq.draws (((getCore s c.toNat).s
      a.toNat).toNat % 65536))).length) ∧
    (∃ (s : State) (c : BitVec 8) (d : BitVec 5) (a : BitVec 5), ready s c (mkWord 18 d a 0 0 0 0) ∧ (s.sq.live = none ∨ (List.drop
      (tblGet 0 s.sq.drawPos (((getCore s c.toNat).s a.toNat).toNat % 65536)) (tblGet [] s.sq.draws (((getCore s c.toNat).s
      a.toNat).toNat % 65536))).length < 64)) :=
  ⟨⟨onCore {} (mkWord 13 0 0 0 0 0 0), 0, 0, 0, 0, onCore {} (mkWord 13 0 0 0 0 0 0), by unfold ready; decide⟩,
   ⟨onCore {} (mkWord 16 0 0 0 0 0 0), 0, 0, 0, 0, by unfold ready; decide⟩,
   ⟨{ onBeat { ops := [{}], templates := [{}] } {} with cores := coreAt {} (mkWord 16 0 0 0 0 0 0) }, 0, 0, 0, 0, {}, {}, by unfold ready; decide⟩,
   ⟨{ onBeat { templates := [{ watches := [{}] }] } {} with cores := coreAt {} (mkWord 17 0 0 0 0 0 0) }, 0, 0, 0, 0, {}, {}, by unfold ready; decide⟩,
   ⟨{ onBeat { templates := [{ watches := [{}] }] } { nwQ := [(0, 0, false, 0)] } with cores := coreAt {} (mkWord 17 0 0 0 0 0 0) }, 0, 0, 0, 0, { nwQ := [(0, 0, false, 0)] }, {}, by unfold ready; decide⟩,
   ⟨onCore {} (mkWord 17 0 0 0 0 0 0), 0, 0, 0, 0, by unfold ready; decide⟩,
   ⟨{ { onBeat {} {} with sq := { (onBeat {} {}).sq with draws := [(0, List.replicate 64 0)] } } with cores := coreAt {} (mkWord 18 0 0 0 0 0 0) }, 0, 0, 0, by unfold ready; decide⟩,
   ⟨onCore {} (mkWord 18 0 0 0 0 0 0), 0, 0, 0, by unfold ready; decide⟩⟩

/-- The hypotheses of `Obligations.LaunchesBeginAndEnd`, clause by clause. -/
theorem witness_LaunchesBeginAndEnd :
    (∃ (s : State) (c : BitVec 8), ready s c (mkWord 1 0 0 0 0 0 0) ∧ (getCore s c.toNat).launchWait = []) ∧
    (∃ (s : State) (c : BitVec 8) (port : Bool) (value : BitVec 32), mayWrite s (Accessor.pf0 port) (83 + c.toNat) = true ∧
      value.toNat.testBit 31 = true ∧ 4 ≤ s.power.state.code ∧ s.cx.state ≠ 5 ∧ planAdmitted s = false ∧ coreFrozen s c.toNat = false
      ∧ (getCore s c.toNat).inReset = false ∧ (getCore s c.toNat).active = false ∧ ccEnabled s c.toNat = true) ∧
    (∃ (s : State) (launch : BitVec 16) (l : Launch) (b : Live) (k : Core), s.sq.live = some b ∧ (liveTemplate
      s).launches[launch.toNat]? = some l ∧ b.cycle / 2 = l.start ∧ b.done.contains (1, launch.toNat) = false ∧ coreFrozen s l.core =
      false ∧ (getCore s l.core).inReset = false ∧ (getCore s l.core).sitOut = false ∧ ccEnabled s l.core = true ∧ (getCore s
      l.core).active = false ∧ defineAll (getCore s l.core) l.descs = Except.ok k) ∧
    (∃ (s : State) (launch : BitVec 16) (l : Launch) (b : Live), s.sq.live = some b ∧ (liveTemplate s).launches[launch.toNat]? =
      some l ∧ b.cycle / 2 = l.start ∧ b.done.contains (1, launch.toNat) = false ∧ coreFrozen s l.core = false ∧ (getCore s
      l.core).inReset = false ∧ (getCore s l.core).sitOut = false ∧ ccEnabled s l.core = true ∧ (getCore s l.core).active = true) ∧
    (∃ (s : State) (c : BitVec 8) (t : Nat) (b : Live), (getCore s c.toNat).wait = some (Wait.tick t) ∧ coreFrozen s c.toNat = false
      ∧ s.sq.live = some b ∧ t ≤ b.cycle / 2) ∧
    (∃ (s : State) (c : BitVec 8), (getCore s c.toNat).wait = some Wait.fence ∧ (getCore s c.toNat).posted = [] ∧ coreFrozen s
      c.toNat = false ∧ wOp (getCore s c.toNat).word = 9 ∧ tblWf { } s.cores = true) ∧
    (∃ (s : State) (c : BitVec 8), (getCore s c.toNat).inReset = true ∧ (getCore s c.toNat).clearEnd ≤ s.clock) :=
  ⟨⟨onCore {} (mkWord 1 0 0 0 0 0 0), 0, by unfold ready; decide⟩,
   ⟨rdy, 0, false, 0x80000000, by decide⟩,
   ⟨onBeat { templates := [{ launches := [{}] }] } {}, 0, {}, {}, {}, by decide⟩,
   ⟨{ onBeat { templates := [{ launches := [{}] }] } {} with cores := [(0, { active := true })] }, 0, {}, {}, by decide⟩,
   ⟨{ onBeat {} {} with cores := [(0, { wait := some (.tick 0) })] }, 0, 0, {}, by decide⟩,
   ⟨onCore { wait := some .fence } (mkWord 9 0 0 0 0 0 0), 0, by decide⟩,
   ⟨{ rdy with cores := [(0, { inReset := true })] }, 0, by decide⟩⟩

/-- The hypotheses of `Obligations.ScratchpadAccessRules`, clause by clause. -/
theorem witness_ScratchpadAccessRules :
    (∃ (a : Nat) (n : Nat), 0 < n ∧ a % 64 + n ≤ 64 ∧ 393216 < a + n) ∧
    (∃ (k : Core) (a : Nat) (n : Nat), 0 < n ∧ a % 64 + n ≤ 64 ∧ a + n ≤ 393216 ∧ k.slotAt (a / 64) = none) ∧
    (∃ (k : Core) (a : Nat) (n : Nat) (i : Nat) (d : SlotDesc), 0 < n ∧ a % 64 + n ≤ 64 ∧ a + n ≤ 393216 ∧ k.slotAt (a / 64) = some
      (i, d) ∧ (d.full = true ∨ d.filling = true)) ∧
    (∃ (k : Core) (a : Nat) (n : Nat) (i : Nat) (d : SlotDesc), 0 < n ∧ a % 64 + n ≤ 64 ∧ a + n ≤ 393216 ∧ k.slotAt (a / 64) = some
      (i, d) ∧ (d.full = false ∧ d.filling = false)) :=
  ⟨⟨393216, 4, by decide⟩,
   ⟨{}, 0, 4, by decide⟩,
   ⟨{ slots := [(0, { valid := true, full := true })] }, 0, 4, 0, { valid := true, full := true }, by decide⟩,
   ⟨{ slots := [(0, { valid := true, full := false })] }, 0, 4, 0, { valid := true, full := false }, by decide⟩⟩

/-- The hypotheses of `Obligations.ScalarMemoryInstructions`, clause by clause. -/
theorem witness_ScalarMemoryInstructions :
    (∃ (s : State) (c : BitVec 8) (d : BitVec 5) (a : BitVec 5) (m : BitVec 4) (imm : BitVec 32), ready s c (mkWord 64 d a 0 0 m
      imm) ∧ ((getCore s c.toNat).s a.toNat + BitVec.signExtend 64 imm).toNat % 2 ^ (m.toNat % 4) ≠ 0) ∧
    (∃ (s : State) (c : BitVec 8) (d : BitVec 5) (a : BitVec 5) (m : BitVec 4) (imm : BitVec 32), ready s c (mkWord 64 d a 0 0 m
      imm) ∧ ((getCore s c.toNat).s a.toNat + BitVec.signExtend 64 imm).toNat % 2 ^ (m.toNat % 4) = 0 ∧ loadAccess (getCore s c.toNat)
      c.toNat [(((getCore s c.toNat).s a.toNat + BitVec.signExtend 64 imm).toNat, 2 ^ (m.toNat % 4))] (m.toNat.testBit 3) = Access.go)
      ∧
    (∃ (s : State) (c : BitVec 8) (a : BitVec 5) (b : BitVec 5) (m : BitVec 4) (imm : BitVec 32), ready s c (mkWord 65 0 a b 0 m
      imm) ∧ ((getCore s c.toNat).s a.toNat + BitVec.signExtend 64 imm).toNat % 2 ^ (m.toNat % 4) ≠ 0) ∧
    (∃ (s : State) (c : BitVec 8) (a : BitVec 5) (b : BitVec 5) (m : BitVec 4) (imm : BitVec 32), ready s c (mkWord 65 0 a b 0 m
      imm) ∧ ((getCore s c.toNat).s a.toNat + BitVec.signExtend 64 imm).toNat % 2 ^ (m.toNat % 4) = 0 ∧ storeAccess (getCore s
      c.toNat) c.toNat [(((getCore s c.toNat).s a.toNat + BitVec.signExtend 64 imm).toNat, 2 ^ (m.toNat % 4))] = Access.go) ∧
    (∃ (s : State) (c : BitVec 8) (d : BitVec 5) (a : BitVec 5) (b : BitVec 5) (m : BitVec 4) (imm : BitVec 32), ready s c (mkWord
      68 0 a b d m imm) ∧ ((getCore s c.toNat).s a.toNat + BitVec.signExtend 64 imm).toNat % 64 ≠ 0) ∧
    (∃ (s : State) (c : BitVec 8) (d : BitVec 5) (a : BitVec 5) (b : BitVec 5) (m : BitVec 4) (imm : BitVec 32), ready s c (mkWord
      68 0 a b d m imm) ∧ remoteFault s c.toNat ((getCore s c.toNat).s a.toNat + BitVec.signExtend 64 imm).toNat (64 * 2 ^ m.toNat) 4
      ((getCore s c.toNat).s d.toNat) = none) ∧
    (∃ (s : State) (c : BitVec 8) (d : BitVec 5) (a : BitVec 5) (b : BitVec 5) (m : BitVec 4) (imm : BitVec 32), ready s c (mkWord
      69 b a 0 d m imm) ∧ ((getCore s c.toNat).s a.toNat + BitVec.signExtend 64 imm).toNat % 64 ≠ 0) ∧
    (∃ (s : State) (c : BitVec 8) (d : BitVec 5) (a : BitVec 5) (b : BitVec 5) (m : BitVec 4) (imm : BitVec 32), ready s c (mkWord
      69 b a 0 d m imm) ∧ remoteFault s c.toNat ((getCore s c.toNat).s a.toNat + BitVec.signExtend 64 imm).toNat (64 * 2 ^ m.toNat) 6
      ((getCore s c.toNat).s d.toNat) = none) :=
  ⟨⟨onCore {} (mkWord 64 0 0 0 0 (3) (1)), 0, 0, 0, 3, 1, by unfold ready; decide⟩,
   ⟨onCore {} (mkWord 64 0 0 0 0 0 0), 0, 0, 0, 0, 0, by unfold ready; decide⟩,
   ⟨onCore {} (mkWord 65 0 0 0 0 (3) (1)), 0, 0, 0, 3, 1, by unfold ready; decide⟩,
   ⟨onCore {} (mkWord 65 0 0 0 0 0 0), 0, 0, 0, 0, 0, by unfold ready; decide⟩,
   ⟨onCore {} (mkWord 68 0 0 0 0 0 (1)), 0, 0, 0, 0, 0, 1, by unfold ready; decide⟩,
   ⟨onCore {} (mkWord 68 0 0 0 0 0 0), 0, 0, 0, 0, 0, 0, by unfold ready; decide⟩,
   ⟨onCore {} (mkWord 69 0 0 0 0 0 (1)), 0, 0, 0, 0, 0, 1, by unfold ready; decide⟩,
   ⟨onCore {} (mkWord 69 0 0 0 0 0 0), 0, 0, 0, 0, 0, 0, by unfold ready; decide⟩⟩

/-- The hypotheses of `Obligations.SlotInstructions`, clause by clause. -/
theorem witness_SlotInstructions :
    (∃ (s : State) (c : BitVec 8) (a : BitVec 5) (imm : BitVec 32), ready s c (mkWord 72 0 a 0 0 0 imm) ∧ (6 ≤ imm.toNat / 256 % 16
      + 6 ∧ imm.toNat / 256 % 16 + 6 ≤ 16 ∧ imm.toNat / 65536 ≠ 0 ∧ ((getCore s c.toNat).s a.toNat).toNat % min (2 ^ (imm.toNat / 256
      % 16 + 6)) 4096 = 0 ∧ ((getCore s c.toNat).s a.toNat).toNat + 2 ^ (imm.toNat / 256 % 16 + 6) ≤ 393216 ∧ ∀ x ∈ (getCore s
      c.toNat).slots, x.1 ≠ imm.toNat % 128 → x.2.valid = true → x.2.base + x.2.size ≤ ((getCore s c.toNat).s a.toNat).toNat ∨
      ((getCore s c.toNat).s a.toNat).toNat + 2 ^ (imm.toNat / 256 % 16 + 6) ≤ x.2.base)) ∧
    (∃ (s : State) (c : BitVec 8) (a : BitVec 5) (imm : BitVec 32), ready s c (mkWord 72 0 a 0 0 0 imm) ∧ (¬(6 ≤ imm.toNat / 256 %
      16 + 6 ∧ imm.toNat / 256 % 16 + 6 ≤ 16 ∧ imm.toNat / 65536 ≠ 0 ∧ ((getCore s c.toNat).s a.toNat).toNat % min (2 ^ (imm.toNat /
      256 % 16 + 6)) 4096 = 0 ∧ ((getCore s c.toNat).s a.toNat).toNat + 2 ^ (imm.toNat / 256 % 16 + 6) ≤ 393216 ∧ ∀ x ∈ (getCore s
      c.toNat).slots, x.1 ≠ imm.toNat % 128 → x.2.valid = true → x.2.base + x.2.size ≤ ((getCore s c.toNat).s a.toNat).toNat ∨
      ((getCore s c.toNat).s a.toNat).toNat + 2 ^ (imm.toNat / 256 % 16 + 6) ≤ x.2.base))) ∧
    (∃ (s : State) (c : BitVec 8) (imm : BitVec 32), ready s c (mkWord 73 0 0 0 0 0 imm) ∧ ((getCore s c.toNat).slot (imm.toNat %
      128)).valid = true) ∧
    (∃ (s : State) (c : BitVec 8) (imm : BitVec 32), ready s c (mkWord 73 0 0 0 0 0 imm) ∧ ((getCore s c.toNat).slot (imm.toNat %
      128)).valid = false) ∧
    (∃ (s : State) (c : BitVec 8) (imm : BitVec 32), ready s c (mkWord 74 0 0 0 0 0 imm) ∧ ((getCore s c.toNat).slot (imm.toNat %
      128)).valid = true) ∧
    (∃ (s : State) (c : BitVec 8) (imm : BitVec 32), ready s c (mkWord 74 0 0 0 0 0 imm) ∧ ((getCore s c.toNat).slot (imm.toNat %
      128)).valid = false) ∧
    (∃ (s : State) (c : BitVec 8) (imm : BitVec 32), ready s c (mkWord 75 0 0 0 0 0 imm) ∧ ((getCore s c.toNat).slot (imm.toNat %
      128)).valid = true) ∧
    (∃ (s : State) (c : BitVec 8) (imm : BitVec 32), ready s c (mkWord 75 0 0 0 0 0 imm) ∧ ((getCore s c.toNat).slot (imm.toNat %
      128)).valid = false) ∧
    (∃ (s : State) (c : BitVec 8) (d : BitVec 5) (imm : BitVec 32), ready s c (mkWord 76 d 0 0 0 0 imm)) :=
  ⟨⟨onCore {} (mkWord 72 0 0 0 0 0 (0x10000)), 0, 0, 0x10000, by unfold ready; decide⟩,
   ⟨onCore {} (mkWord 72 0 0 0 0 0 0), 0, 0, 0, by unfold ready; decide⟩,
   ⟨onCore { slots := [(127, { valid := true })] } (mkWord 73 0 0 0 0 0 (127)), 0, 127, by unfold ready; decide⟩,
   ⟨onCore {} (mkWord 73 0 0 0 0 0 0), 0, 0, by unfold ready; decide⟩,
   ⟨onCore { slots := [(127, { valid := true })] } (mkWord 74 0 0 0 0 0 (127)), 0, 127, by unfold ready; decide⟩,
   ⟨onCore {} (mkWord 74 0 0 0 0 0 0), 0, 0, by unfold ready; decide⟩,
   ⟨onCore { slots := [(127, { valid := true })] } (mkWord 75 0 0 0 0 0 (127)), 0, 127, by unfold ready; decide⟩,
   ⟨onCore {} (mkWord 75 0 0 0 0 0 0), 0, 0, by unfold ready; decide⟩,
   ⟨onCore {} (mkWord 76 0 0 0 0 0 0), 0, 0, 0, by unfold ready; decide⟩⟩

/-- The hypotheses of `Obligations.VectorMemoryInstructions`, clause by clause. -/
theorem witness_VectorMemoryInstructions :
    (∃ (s : State) (c : BitVec 8) (d : BitVec 5) (a : BitVec 5) (m : BitVec 4) (imm : BitVec 32), ready s c (mkWord 128 d a 0 0 m
      imm) ∧ (∀ x ∈ [((getCore s c.toNat).s a.toNat + BitVec.signExtend 64 imm).toNat], x % alignOf (m.toNat % 8) = 0) ∧ loadAccess
      (getCore s c.toNat) c.toNat [(((getCore s c.toNat).s a.toNat + BitVec.signExtend 64 imm).toNat, vecBytes (m.toNat % 8))]
      (m.toNat.testBit 3) = Access.go) ∧
    (∃ (s : State) (c : BitVec 8) (d : BitVec 5) (a : BitVec 5) (b : BitVec 5) (m : BitVec 4) (imm : BitVec 32), ready s c (mkWord
      130 d a b 0 m imm) ∧ (((getCore s c.toNat).s b.toNat).toNat = 0 ∨ ((getCore s c.toNat).s b.toNat).toNat % elemSize (m.toNat % 8)
      ≠ 0)) ∧
    (∃ (s : State) (c : BitVec 8) (d : BitVec 5) (a : BitVec 5) (b : BitVec 5) (m : BitVec 4) (imm : BitVec 32), ready s c (mkWord
      130 d a b 0 m imm) ∧ ((getCore s c.toNat).s b.toNat).toNat ≠ 0 ∧ ((getCore s c.toNat).s b.toNat).toNat % elemSize (m.toNat % 8)
      = 0 ∧ (∀ x ∈ List.map (fun i => (((getCore s c.toNat).s a.toNat + BitVec.signExtend 64 imm).toNat + i * ((getCore s c.toNat).s
      b.toNat).toNat) % 2 ^ 64) (upTo 64), x % alignOf (m.toNat % 8) = 0) ∧ (loadAccess (getCore s c.toNat) c.toNat (List.map (fun x
      => (x, elemSize (m.toNat % 8))) (List.map (fun i => (((getCore s c.toNat).s a.toNat + BitVec.signExtend 64 imm).toNat + i *
      ((getCore s c.toNat).s b.toNat).toNat) % 2 ^ 64) (upTo 64))) (m.toNat.testBit 3) = Access.go)) ∧
    (∃ (s : State) (c : BitVec 8) (d : BitVec 5) (a : BitVec 5) (b : BitVec 5) (m : BitVec 4) (imm : BitVec 32), ready s c (mkWord
      133 d a b 0 m imm) ∧ (∀ x ∈ List.map (fun x => (((getCore s c.toNat).s a.toNat + BitVec.signExtend 64 imm).toNat + BitVec.toNat
      x) % 2 ^ 64) ((getCore s c.toNat).vec b.toNat), x % alignOf (m.toNat % 8) = 0) ∧ (loadAccess (getCore s c.toNat) c.toNat
      (List.map (fun x => (x, elemSize (m.toNat % 8))) (List.map (fun x => (((getCore s c.toNat).s a.toNat + BitVec.signExtend 64
      imm).toNat + BitVec.toNat x) % 2 ^ 64) ((getCore s c.toNat).vec b.toNat))) (m.toNat.testBit 3) = Access.go)) ∧
    (∃ (s : State) (c : BitVec 8) (d : BitVec 5) (a : BitVec 5) (b : BitVec 5) (m : BitVec 4) (imm : BitVec 32), ready s c (mkWord
      132 d a b 0 m imm) ∧ (((getCore s c.toNat).s b.toNat).toNat = 0 ∨ ((getCore s c.toNat).s b.toNat).toNat % 64 ≠ 0)) ∧
    (∃ (s : State) (c : BitVec 8) (d : BitVec 5) (a : BitVec 5) (b : BitVec 5) (m : BitVec 4) (imm : BitVec 32), ready s c (mkWord
      132 d a b 0 m imm) ∧ ((getCore s c.toNat).s b.toNat).toNat ≠ 0 ∧ ((getCore s c.toNat).s b.toNat).toNat % 64 = 0 ∧ (∀ x ∈
      List.map (fun i => (((getCore s c.toNat).s a.toNat + BitVec.signExtend 64 imm).toNat + i * ((getCore s c.toNat).s
      b.toNat).toNat) % 2 ^ 64) (upTo 32), x % alignOf (m.toNat % 8) = 0) ∧ (loadAccess (getCore s c.toNat) c.toNat (List.map (fun x
      => (x, 32 * elemSize (m.toNat % 8))) (List.map (fun i => (((getCore s c.toNat).s a.toNat + BitVec.signExtend 64 imm).toNat + i *
      ((getCore s c.toNat).s b.toNat).toNat) % 2 ^ 64) (upTo 32))) (m.toNat.testBit 3) = Access.go)) ∧
    (∃ (s : State) (c : BitVec 8) (a : BitVec 5) (b : BitVec 5) (m : BitVec 4) (imm : BitVec 32), ready s c (mkWord 129 0 a b 0 m
      imm) ∧ ((getCore s c.toNat).s a.toNat + BitVec.signExtend 64 imm).toNat % alignOf (m.toNat % 8) ≠ 0) ∧
    (∃ (s : State) (c : BitVec 8) (a : BitVec 5) (b : BitVec 5) (m : BitVec 4) (imm : BitVec 32), ready s c (mkWord 129 0 a b 0 m
      imm) ∧ ((getCore s c.toNat).s a.toNat + BitVec.signExtend 64 imm).toNat % alignOf (m.toNat % 8) = 0 ∧ storeAccess (getCore s
      c.toNat) c.toNat [(((getCore s c.toNat).s a.toNat + BitVec.signExtend 64 imm).toNat, vecBytes (m.toNat % 8))] = Access.go) ∧
    (∃ (s : State) (c : BitVec 8) (d : BitVec 5) (a : BitVec 5) (b : BitVec 5) (m : BitVec 4) (imm : BitVec 32), ready s c (mkWord
      131 0 a d b m imm) ∧ (((getCore s c.toNat).s b.toNat).toNat = 0 ∨ ((getCore s c.toNat).s b.toNat).toNat % elemSize (m.toNat % 8)
      ≠ 0)) ∧
    (∃ (s : State) (c : BitVec 8) (d : BitVec 5) (a : BitVec 5) (b : BitVec 5) (m : BitVec 4) (imm : BitVec 32), ready s c (mkWord
      131 0 a d b m imm) ∧ ((getCore s c.toNat).s b.toNat).toNat ≠ 0 ∧ ((getCore s c.toNat).s b.toNat).toNat % elemSize (m.toNat % 8)
      = 0 ∧ (∀ x ∈ List.map (fun i => (((getCore s c.toNat).s a.toNat + BitVec.signExtend 64 imm).toNat + i * ((getCore s c.toNat).s
      b.toNat).toNat) % 2 ^ 64) (upTo 64), x % elemSize (m.toNat % 8) = 0) ∧ (storeAccess (getCore s c.toNat) c.toNat (List.map (fun x
      => (x, elemSize (m.toNat % 8))) (List.map (fun i => (((getCore s c.toNat).s a.toNat + BitVec.signExtend 64 imm).toNat + i *
      ((getCore s c.toNat).s b.toNat).toNat) % 2 ^ 64) (upTo 64))) = Access.go)) :=
  ⟨⟨onCore {} (mkWord 128 0 0 0 0 0 0), 0, 0, 0, 0, 0, by unfold ready; decide⟩,
   ⟨onCore {} (mkWord 130 0 0 (1) 0 0 0), 0, 0, 0, 1, 0, 0, by unfold ready; decide⟩,
   ⟨onCore { sregs := [(1, 64)] } (mkWord 130 0 0 (1) 0 0 0), 0, 0, 0, 1, 0, 0, by unfold ready; decide⟩,
   ⟨onCore {} (mkWord 133 0 0 0 0 0 0), 0, 0, 0, 0, 0, 0, by unfold ready; decide⟩,
   ⟨onCore {} (mkWord 132 0 0 (1) 0 0 0), 0, 0, 0, 1, 0, 0, by unfold ready; decide⟩,
   ⟨onCore { sregs := [(1, 128)] } (mkWord 132 0 0 (1) 0 0 0), 0, 0, 0, 1, 0, 0, by unfold ready; decide⟩,
   ⟨onCore {} (mkWord 129 0 0 0 0 0 (1)), 0, 0, 0, 0, 1, by unfold ready; decide⟩,
   ⟨onCore {} (mkWord 129 0 0 0 0 0 0), 0, 0, 0, 0, 0, by unfold ready; decide⟩,
   ⟨onCore {} (mkWord 131 0 0 0 (1) 0 0), 0, 0, 0, 1, 0, 0, by unfold ready; decide⟩,
   ⟨onCore { sregs := [(1, 64)] } (mkWord 131 0 0 0 (1) 0 0), 0, 0, 0, 1, 0, 0, by unfold ready; decide⟩⟩

/-- The hypotheses of `Obligations.VectorLaneInstructions`, clause by clause. -/
theorem witness_VectorLaneInstructions :
    (∃ (s : State) (c : BitVec 8) (d : BitVec 5) (a : BitVec 5) (b : BitVec 5) (m : BitVec 4), ready s c (mkWord 96 d a b 0 m 0)) ∧
    (∃ (s : State) (c : BitVec 8) (d : BitVec 5) (a : BitVec 5) (b : BitVec 5) (m : BitVec 4), ready s c (mkWord 97 d a b 0 m 0)) ∧
    (∃ (s : State) (c : BitVec 8) (d : BitVec 5) (a : BitVec 5) (b : BitVec 5) (m : BitVec 4), ready s c (mkWord 98 d a b 0 m 0)) ∧
    (∃ (s : State) (c : BitVec 8) (d : BitVec 5) (a : BitVec 5) (b : BitVec 5) (m : BitVec 4), ready s c (mkWord 100 d a b 0 m 0)) ∧
    (∃ (s : State) (c : BitVec 8) (d : BitVec 5) (a : BitVec 5) (b : BitVec 5) (m : BitVec 4), ready s c (mkWord 101 d a b 0 m 0)) ∧
    (∃ (s : State) (c : BitVec 8) (d : BitVec 5) (a : BitVec 5) (b : BitVec 5) (m : BitVec 4), ready s c (mkWord 109 d a b 0 m 0)) ∧
    (∃ (s : State) (c : BitVec 8) (d : BitVec 5) (a : BitVec 5), ready s c (mkWord 102 d a 0 0 0 0)) ∧
    (∃ (s : State) (c : BitVec 8) (d : BitVec 5) (a : BitVec 5), ready s c (mkWord 103 d a 0 0 0 0)) ∧
    (∃ (s : State) (c : BitVec 8) (d : BitVec 5) (a : BitVec 5), ready s c (mkWord 106 d a 0 0 0 0)) ∧
    (∃ (s : State) (c : BitVec 8) (d : BitVec 5) (a : BitVec 5), ready s c (mkWord 107 d a 0 0 0 0)) ∧
    (∃ (s : State) (c : BitVec 8) (d : BitVec 5) (a : BitVec 5), ready s c (mkWord 108 d a 0 0 0 0)) ∧
    (∃ (s : State) (c : BitVec 8) (d : BitVec 5) (a : BitVec 5), ready s c (mkWord 110 d a 0 0 0 0)) ∧
    (∃ (s : State) (c : BitVec 8) (d : BitVec 5) (a : BitVec 5), ready s c (mkWord 114 d a 0 0 0 0)) ∧
    (∃ (s : State) (c : BitVec 8) (d : BitVec 5) (a : BitVec 5) (b : BitVec 5) (e : BitVec 5) (m : BitVec 4), ready s c (mkWord 99 d
      a b e m 0)) ∧
    (∃ (s : State) (c : BitVec 8) (d : BitVec 5) (a : BitVec 5) (b : BitVec 5) (e : BitVec 5) (m : BitVec 4), ready s c (mkWord 105
      d a b e m 0)) ∧
    (∃ (s : State) (c : BitVec 8) (d : BitVec 5) (a : BitVec 5) (m : BitVec 4), ready s c (mkWord 111 d a 0 0 m 0)) ∧
    (∃ (s : State) (c : BitVec 8) (d : BitVec 5) (a : BitVec 5) (b : BitVec 5), ready s c (mkWord 113 d a b 0 0 0)) ∧
    (∃ (s : State) (c : BitVec 8) (d : BitVec 5) (a : BitVec 5), ready s c (mkWord 115 d a 0 0 0 0)) :=
  ⟨⟨onCore {} (mkWord 96 0 0 0 0 0 0), 0, 0, 0, 0, 0, by unfold ready; decide⟩,
   ⟨onCore {} (mkWord 97 0 0 0 0 0 0), 0, 0, 0, 0, 0, by unfold ready; decide⟩,
   ⟨onCore {} (mkWord 98 0 0 0 0 0 0), 0, 0, 0, 0, 0, by unfold ready; decide⟩,
   ⟨onCore {} (mkWord 100 0 0 0 0 0 0), 0, 0, 0, 0, 0, by unfold ready; decide⟩,
   ⟨onCore {} (mkWord 101 0 0 0 0 0 0), 0, 0, 0, 0, 0, by unfold ready; decide⟩,
   ⟨onCore {} (mkWord 109 0 0 0 0 0 0), 0, 0, 0, 0, 0, by unfold ready; decide⟩,
   ⟨onCore {} (mkWord 102 0 0 0 0 0 0), 0, 0, 0, by unfold ready; decide⟩,
   ⟨onCore {} (mkWord 103 0 0 0 0 0 0), 0, 0, 0, by unfold ready; decide⟩,
   ⟨onCore {} (mkWord 106 0 0 0 0 0 0), 0, 0, 0, by unfold ready; decide⟩,
   ⟨onCore {} (mkWord 107 0 0 0 0 0 0), 0, 0, 0, by unfold ready; decide⟩,
   ⟨onCore {} (mkWord 108 0 0 0 0 0 0), 0, 0, 0, by unfold ready; decide⟩,
   ⟨onCore {} (mkWord 110 0 0 0 0 0 0), 0, 0, 0, by unfold ready; decide⟩,
   ⟨onCore {} (mkWord 114 0 0 0 0 0 0), 0, 0, 0, by unfold ready; decide⟩,
   ⟨onCore {} (mkWord 99 0 0 0 0 0 0), 0, 0, 0, 0, 0, 0, by unfold ready; decide⟩,
   ⟨onCore {} (mkWord 105 0 0 0 0 0 0), 0, 0, 0, 0, 0, 0, by unfold ready; decide⟩,
   ⟨onCore {} (mkWord 111 0 0 0 0 (1) 0), 0, 0, 0, 1, by unfold ready; decide⟩,
   ⟨onCore {} (mkWord 113 0 0 0 0 0 0), 0, 0, 0, 0, by unfold ready; decide⟩,
   ⟨onCore {} (mkWord 115 0 0 0 0 0 0), 0, 0, 0, by unfold ready; decide⟩⟩

/-- The hypotheses of `Obligations.VectorToScalarInstructions`, clause by clause. -/
theorem witness_VectorToScalarInstructions :
    (∃ (s : State) (c : BitVec 8) (d : BitVec 5) (a : BitVec 5) (b : BitVec 5) (m : BitVec 4), ready s c (mkWord 104 d a b 0 m 0)) ∧
    (∃ (s : State) (c : BitVec 8) (d : BitVec 5) (a : BitVec 5) (b : BitVec 5) (m : BitVec 4), ready s c (mkWord 112 d a b 0 m 0)) ∧
    (∃ (s : State) (c : BitVec 8) (d : BitVec 5) (a : BitVec 5) (m : BitVec 4), ready s c (mkWord 117 d a 0 0 m 0)) ∧
    (∃ (s : State) (c : BitVec 8) (d : BitVec 5) (a : BitVec 5) (b : BitVec 5) (imm : BitVec 32), ready s c (mkWord 118 d a b 0 0
      imm) ∧ (imm.toNat % 128 = 0 ∨ 64 < imm.toNat % 128)) ∧
    (∃ (s : State) (c : BitVec 8) (d : BitVec 5) (a : BitVec 5) (b : BitVec 5) (imm : BitVec 32), ready s c (mkWord 118 d a b 0 0
      imm) ∧ 1 ≤ imm.toNat % 128 ∧ imm.toNat % 128 ≤ 64) ∧
    (∃ (s : State) (c : BitVec 8) (d : BitVec 5) (a : BitVec 5) (b : BitVec 5), ready s c (mkWord 119 d a 0 b 0 0)) ∧
    (∃ (s : State) (c : BitVec 8) (d : BitVec 5) (a : BitVec 5) (b : BitVec 5), ready s c (mkWord 120 d a b 0 0 0)) ∧
    (∃ (s : State) (c : BitVec 8) (d : BitVec 5) (a : BitVec 5), ready s c (mkWord 121 d a 0 0 0 0)) :=
  ⟨⟨onCore {} (mkWord 104 0 0 0 0 0 0), 0, 0, 0, 0, 0, by unfold ready; decide⟩,
   ⟨onCore {} (mkWord 112 0 0 0 0 0 0), 0, 0, 0, 0, 0, by unfold ready; decide⟩,
   ⟨onCore {} (mkWord 117 0 0 0 0 0 0), 0, 0, 0, 0, by unfold ready; decide⟩,
   ⟨onCore {} (mkWord 118 0 0 0 0 0 (65)), 0, 0, 0, 0, 65, by unfold ready; decide⟩,
   ⟨onCore {} (mkWord 118 0 0 0 0 0 (64)), 0, 0, 0, 0, 64, by unfold ready; decide⟩,
   ⟨onCore {} (mkWord 119 0 0 0 (1) 0 0), 0, 0, 0, 1, by unfold ready; decide⟩,
   ⟨onCore {} (mkWord 120 0 0 0 0 0 0), 0, 0, 0, 0, by unfold ready; decide⟩,
   ⟨onCore {} (mkWord 121 0 0 0 0 0 0), 0, 0, 0, by unfold ready; decide⟩⟩

/-- The hypotheses of `Obligations.MatrixInstructionsAndReadOut`, clause by clause. -/
theorem witness_MatrixInstructionsAndReadOut :
    (∃ (s : State) (c : BitVec 8) (d : BitVec 5), ready s c (mkWord 160 d 0 0 0 0 0)) ∧
    (∃ (s : State) (c : BitVec 8) (d : BitVec 5) (a : BitVec 5) (b : BitVec 5) (e : BitVec 5) (m : BitVec 4), ready s c (mkWord 161
      d a b e m 0) ∧ (((getCore s c.toNat).s e.toNat).toNat = 0 ∨ 4096 < ((getCore s c.toNat).s e.toNat).toNat)) ∧
    (∃ (s : State) (c : BitVec 8) (d : BitVec 5) (a : BitVec 5) (b : BitVec 5) (e : BitVec 5) (m : BitVec 4), ready s c (mkWord 161
      d a b e m 0) ∧ 1 ≤ ((getCore s c.toNat).s e.toNat).toNat ∧ ((getCore s c.toNat).s e.toNat).toNat ≤ 4096 ∧ ((getCore s c.toNat).s
      a.toNat).toNat % (32 * elemSize (mmaFmt (m.toNat % 4))) = 0 ∧ ((getCore s c.toNat).s b.toNat).toNat % (32 * elemSize (mmaFmt
      (m.toNat % 4))) = 0 ∧ loadAccess (getCore s c.toNat) c.toNat [(((getCore s c.toNat).s a.toNat).toNat, 32 * elemSize (mmaFmt
      (m.toNat % 4)) * ((getCore s c.toNat).s e.toNat).toNat), (((getCore s c.toNat).s b.toNat).toNat, 32 * elemSize (mmaFmt (m.toNat
      % 4)) * ((getCore s c.toNat).s e.toNat).toNat)] false = Access.go) ∧
    (∃ (s : State) (c : BitVec 8) (d : BitVec 5) (a : BitVec 5) (imm : BitVec 32), ready s c (mkWord 162 d a 0 0 0 imm)) ∧
    (∃ (s : State) (c : BitVec 8) (d : BitVec 5) (a : BitVec 5) (imm : BitVec 32), ready s c (mkWord 163 d a 0 0 0 imm)) ∧
    (∃ (s : State) (c : BitVec 8) (a : BitVec 5) (b : BitVec 5) (m : BitVec 4) (imm : BitVec 32), ready s c (mkWord 164 0 a b 0 m
      imm) ∧ ((getCore s c.toNat).s b.toNat + BitVec.signExtend 64 imm).toNat % elemSize (m.toNat % 8) ≠ 0) ∧
    (∃ (s : State) (c : BitVec 8) (a : BitVec 5) (b : BitVec 5) (m : BitVec 4) (imm : BitVec 32), ready s c (mkWord 164 0 a b 0 m
      imm) ∧ ((getCore s c.toNat).s b.toNat + BitVec.signExtend 64 imm).toNat % elemSize (m.toNat % 8) = 0 ∧ storeAccess (getCore s
      c.toNat) c.toNat [(((getCore s c.toNat).s b.toNat + BitVec.signExtend 64 imm).toNat, 1024 * elemSize (m.toNat % 8))] =
      Access.go) ∧
    (∃ (s : State) (c : BitVec 8) (d : BitVec 5) (a : BitVec 5) (m : BitVec 4), ready s c (mkWord 192 d a 0 0 m 0) ∧ 2048 <
      ((getCore s c.toNat).s a.toNat).toNat + 32) ∧
    (∃ (s : State) (c : BitVec 8) (d : BitVec 5) (a : BitVec 5) (e : BitVec 5) (m : BitVec 4) (j : Nat), ready s c (mkWord 192 d a 0
      0 m 0) ∧ ((getCore s c.toNat).s a.toNat).toNat + 32 ≤ 2048 ∧ j < 32 ∧ (∀ l < j, (if ((getCore s c.toNat).emptied.any fun e =>
      decide (e.1 ≤ ((getCore s c.toNat).s a.toNat).toNat + l) && decide (((getCore s c.toNat).s a.toNat).toNat + l < e.2)) = true
      then { } else tblGet { } (getCore s c.toNat).acc (((getCore s c.toNat).s a.toNat).toNat + l)).st = 2) ∧ ((if ((getCore s
      c.toNat).emptied.any fun e => decide (e.1 ≤ ((getCore s c.toNat).s a.toNat).toNat + j) && decide (((getCore s c.toNat).s
      a.toNat).toNat + j < e.2)) = true then { } else tblGet { } (getCore s c.toNat).acc (((getCore s c.toNat).s a.toNat).toNat +
      j)).st ≠ 2)) ∧
    (∃ (s : State) (c : BitVec 8) (d : BitVec 5) (a : BitVec 5) (e : BitVec 5) (m : BitVec 4), ready s c (mkWord 192 d a 0 0 m 0) ∧
      ((getCore s c.toNat).s a.toNat).toNat + 32 ≤ 2048 ∧ (∀ j < 32, (if ((getCore s c.toNat).emptied.any fun e => decide (e.1 ≤
      ((getCore s c.toNat).s a.toNat).toNat + j) && decide (((getCore s c.toNat).s a.toNat).toNat + j < e.2)) = true then { } else
      tblGet { } (getCore s c.toNat).acc (((getCore s c.toNat).s a.toNat).toNat + j)).st = 2)) ∧
    (∃ (s : State) (c : BitVec 8) (d : BitVec 5) (a : BitVec 5) (e : BitVec 5) (m : BitVec 4) (imm : BitVec 32), ready s c (mkWord
      193 d a 0 e m imm) ∧ 2048 < ((getCore s c.toNat).s a.toNat).toNat + 64) ∧
    (∃ (s : State) (c : BitVec 8) (d : BitVec 5) (a : BitVec 5) (e : BitVec 5) (m : BitVec 4) (imm : BitVec 32) (j : Nat), ready s c
      (mkWord 193 d a 0 e m imm) ∧ ((getCore s c.toNat).s a.toNat).toNat + 64 ≤ 2048 ∧ j < 64 ∧ (∀ l < j, (if ((getCore s
      c.toNat).emptied.any fun e => decide (e.1 ≤ ((getCore s c.toNat).s a.toNat).toNat + l) && decide (((getCore s c.toNat).s
      a.toNat).toNat + l < e.2)) = true then { } else tblGet { } (getCore s c.toNat).acc (((getCore s c.toNat).s a.toNat).toNat +
      l)).st = 2) ∧ ((if ((getCore s c.toNat).emptied.any fun e => decide (e.1 ≤ ((getCore s c.toNat).s a.toNat).toNat + j) && decide
      (((getCore s c.toNat).s a.toNat).toNat + j < e.2)) = true then { } else tblGet { } (getCore s c.toNat).acc (((getCore s
      c.toNat).s a.toNat).toNat + j)).st ≠ 2)) ∧
    (∃ (s : State) (c : BitVec 8) (d : BitVec 5) (a : BitVec 5) (e : BitVec 5) (m : BitVec 4) (imm : BitVec 32), ready s c (mkWord
      193 d a 0 e m imm) ∧ ((getCore s c.toNat).s a.toNat).toNat + 64 ≤ 2048 ∧ (∀ j < 64, (if ((getCore s c.toNat).emptied.any fun e
      => decide (e.1 ≤ ((getCore s c.toNat).s a.toNat).toNat + j) && decide (((getCore s c.toNat).s a.toNat).toNat + j < e.2)) = true
      then { } else tblGet { } (getCore s c.toNat).acc (((getCore s c.toNat).s a.toNat).toNat + j)).st = 2)) ∧
    (∃ (s : State) (c : BitVec 8) (a : BitVec 5) (m : BitVec 4) (imm : BitVec 32), ready s c (mkWord 194 0 a 0 0 m imm) ∧ (imm.toNat
      % 4096 = 0 ∨ 2048 < imm.toNat % 4096)) ∧
    (∃ (s : State) (c : BitVec 8) (a : BitVec 5) (m : BitVec 4) (imm : BitVec 32), ready s c (mkWord 194 0 a 0 0 m imm) ∧ 1 ≤
      imm.toNat % 4096 ∧ imm.toNat % 4096 ≤ 2048 ∧ 2048 < ((getCore s c.toNat).s a.toNat).toNat + imm.toNat % 4096) ∧
    (∃ (s : State) (c : BitVec 8) (a : BitVec 5) (e : BitVec 5) (m : BitVec 4) (imm : BitVec 32) (j : Nat), ready s c (mkWord 194 0
      a 0 0 m imm) ∧ 1 ≤ imm.toNat % 4096 ∧ imm.toNat % 4096 ≤ 2048 ∧ ((getCore s c.toNat).s a.toNat).toNat + imm.toNat % 4096 ≤ 2048
      ∧ j < imm.toNat % 4096 ∧ (∀ l < j, (if ((getCore s c.toNat).emptied.any fun e => decide (e.1 ≤ ((getCore s c.toNat).s
      a.toNat).toNat + l) && decide (((getCore s c.toNat).s a.toNat).toNat + l < e.2)) = true then { } else tblGet { } (getCore s
      c.toNat).acc (((getCore s c.toNat).s a.toNat).toNat + l)).st = 2) ∧ ((if ((getCore s c.toNat).emptied.any fun e => decide (e.1 ≤
      ((getCore s c.toNat).s a.toNat).toNat + j) && decide (((getCore s c.toNat).s a.toNat).toNat + j < e.2)) = true then { } else
      tblGet { } (getCore s c.toNat).acc (((getCore s c.toNat).s a.toNat).toNat + j)).st ≠ 2)) ∧
    (∃ (s : State) (c : BitVec 8) (a : BitVec 5) (e : BitVec 5) (m : BitVec 4) (imm : BitVec 32), ready s c (mkWord 194 0 a 0 0 m
      imm) ∧ 1 ≤ imm.toNat % 4096 ∧ imm.toNat % 4096 ≤ 2048 ∧ ((getCore s c.toNat).s a.toNat).toNat + imm.toNat % 4096 ≤ 2048 ∧ (∀ j <
      imm.toNat % 4096, (if ((getCore s c.toNat).emptied.any fun e => decide (e.1 ≤ ((getCore s c.toNat).s a.toNat).toNat + j) &&
      decide (((getCore s c.toNat).s a.toNat).toNat + j < e.2)) = true then { } else tblGet { } (getCore s c.toNat).acc (((getCore s
      c.toNat).s a.toNat).toNat + j)).st = 2)) ∧
    (∃ (s : State) (c : BitVec 8), (getCore s c.toNat).wait = some Wait.acc ∧ coreFrozen s c.toNat = false) ∧
    (∃ (s : State) (c : BitVec 8), (getCore s c.toNat).wait ≠ some Wait.acc) :=
  ⟨⟨onCore {} (mkWord 160 0 0 0 0 0 0), 0, 0, by unfold ready; decide⟩,
   ⟨onCore {} (mkWord 161 0 0 0 0 0 0), 0, 0, 0, 0, 0, 0, by unfold ready; decide⟩,
   ⟨onCore { sregs := [(1, 1)] } (mkWord 161 0 0 0 (1) 0 0), 0, 0, 0, 0, 1, 0, by unfold ready; decide⟩,
   ⟨onCore {} (mkWord 162 0 0 0 0 0 0), 0, 0, 0, 0, by unfold ready; decide⟩,
   ⟨onCore {} (mkWord 163 0 0 0 0 0 0), 0, 0, 0, 0, by unfold ready; decide⟩,
   ⟨onCore {} (mkWord 164 0 0 0 0 0 (1)), 0, 0, 0, 0, 1, by unfold ready; decide⟩,
   ⟨onCore {} (mkWord 164 0 0 0 0 0 0), 0, 0, 0, 0, 0, by unfold ready; decide⟩,
   ⟨onCore { sregs := [(1, 2017)] } (mkWord 192 0 (1) 0 0 0 0), 0, 0, 1, 0, by unfold ready; decide⟩,
   ⟨onCore {} (mkWord 192 0 0 0 0 0 0), 0, 0, 0, 0, 0, 0, by unfold ready; decide⟩,
   ⟨onCore { acc := (upTo 32).map (fun i => (i, { st := 2 })) } (mkWord 192 0 0 0 0 0 0), 0, 0, 0, 0, 0, by unfold ready; decide⟩,
   ⟨onCore { sregs := [(1, 1985)] } (mkWord 193 0 (1) 0 0 0 0), 0, 0, 1, 0, 0, 0, by unfold ready; decide⟩,
   ⟨onCore {} (mkWord 193 0 0 0 0 0 0), 0, 0, 0, 0, 0, 0, 0, by unfold ready; decide⟩,
   ⟨onCore { acc := (upTo 64).map (fun i => (i, { st := 2 })) } (mkWord 193 0 0 0 0 0 0), 0, 0, 0, 0, 0, 0, by unfold ready; decide⟩,
   ⟨onCore {} (mkWord 194 0 0 0 0 0 (2049)), 0, 0, 0, 2049, by unfold ready; decide⟩,
   ⟨onCore { sregs := [(1, 1)] } (mkWord 194 0 (1) 0 0 0 (2048)), 0, 1, 0, 2048, by unfold ready; decide⟩,
   ⟨onCore { acc := [(0, { st := 2 })] } (mkWord 194 0 0 0 0 0 (2)), 0, 0, 0, 0, 2, 1, by unfold ready; decide⟩,
   ⟨onCore { acc := (upTo 1).map (fun i => (i, { st := 2 })) } (mkWord 194 0 0 0 0 0 (1)), 0, 0, 0, 0, 1, by unfold ready; decide⟩,
   ⟨{ rdy with cores := [(0, { wait := some .acc })] }, 0, by decide⟩,
   ⟨rdy, 0, by decide⟩⟩

/-- The hypotheses of `Obligations.RemoteAndSlotReleases`, clause by clause. -/
theorem witness_RemoteAndSlotReleases :
    (∃ (s : State) (c : BitVec 8) (t : BitVec 8) (a : Nat) (bs : List Byte), (List.find? (fun p => p.1 == t.toNat) (getCore s
      c.toNat).posted = some (t.toNat, a, bs)) ∧ (∀ (r : Nat × Nat × Nat × Nat × Nat), List.find? (fun r => r.2.1 == t.toNat) (getCore
      s c.toNat).remoteReads = some r → r.2.2.2.2 ≠ 0) ∧ coreFrozen s t.toNat = true) ∧
    (∃ (s : State) (c : BitVec 8) (t : BitVec 8) (a : Nat) (bs : List Byte), (List.find? (fun p => p.1 == t.toNat) (getCore s
      c.toNat).posted = some (t.toNat, a, bs)) ∧ (∀ (r : Nat × Nat × Nat × Nat × Nat), List.find? (fun r => r.2.1 == t.toNat) (getCore
      s c.toNat).remoteReads = some r → r.2.2.2.2 ≠ 0) ∧ coreFrozen s t.toNat = false) ∧
    (∃ (s : State) (c : BitVec 8) (t : BitVec 8) (d : Nat) (a : Nat) (len : Nat), (List.find? (fun r => r.2.1 == t.toNat) (getCore s
      c.toNat).remoteReads = some (d, t.toNat, a, len, 0)) ∧ coreFrozen s t.toNat = false) ∧
    (∃ (s : State) (c : BitVec 8) (t : BitVec 8) (d : Nat) (a : Nat) (len : Nat), (List.find? (fun r => r.2.1 == t.toNat) (getCore s
      c.toNat).remoteReads = some (d, t.toNat, a, len, 0)) ∧ coreFrozen s t.toNat = true) ∧
    (∃ (s : State) (c : BitVec 8) (i : Nat), (getCore s c.toNat).wait = some (Wait.slot i) ∧ coreFrozen s c.toNat = false ∧ (wOp
      (getCore (modCore s c.toNat (fun k => { k with wait := none })) c.toNat).word = 0x0B)) ∧
    (∃ (s : State) (c : BitVec 8) (i : Nat), (getCore s c.toNat).wait = some (Wait.slot i) ∧ coreFrozen s c.toNat = false ∧ (wOp
      (getCore (modCore s c.toNat (fun k => { k with wait := none })) c.toNat).word = 0x40)) ∧
    (∃ (s : State) (c : BitVec 8) (i : Nat), (getCore s c.toNat).wait = some (Wait.slot i) ∧ coreFrozen s c.toNat = false ∧ (wOp
      (getCore (modCore s c.toNat (fun k => { k with wait := none })) c.toNat).word ≠ 0x0B) ∧ (wOp (getCore (modCore s c.toNat (fun k
      => { k with wait := none })) c.toNat).word ≠ 0x40)) :=
  ⟨⟨withFrozen { rdy with cores := [(0, { posted := [(1, 0, [])] })] } 3 1, 0, 1, 0, [], by decide⟩,
   ⟨{ rdy with cores := [(0, { posted := [(1, 0, [0])] })] }, 0, 1, 0, [0], by decide⟩,
   ⟨{ rdy with cores := [(0, { remoteReads := [(0, 1, 0, 64, 0)] })] }, 0, 1, 0, 0, 64, by decide⟩,
   ⟨withFrozen { rdy with cores := [(0, { remoteReads := [(0, 1, 0, 64, 0)] })] } 3 1, 0, 1, 0, 0, 64, by decide⟩,
   ⟨onCore { wait := some (.slot 0) } (mkWord 11 0 0 0 0 0 0), 0, 0, by decide⟩,
   ⟨onCore { wait := some (.slot 0) } (mkWord 64 0 0 0 0 0 0), 0, 0, by decide⟩,
   ⟨onCore { wait := some (.slot 0) } (mkWord 128 0 0 0 0 0 0), 0, 0, by decide⟩⟩

/-- The hypotheses of `Obligations.RegisterReads`, clause by clause. -/
theorem witness_RegisterReads :
    (∃ (s : State) (a : Accessor) (off : BitVec 25) (p : Nat) (o : Nat), reaches s a = true ∧ off.toNat % 4 = 0 ∧ targetOf a
      off.toNat = Target.page p o ∧ pageOpen s p = true ∧ (∀ (q : Bool) (f : BitVec 5), a = Accessor.vf q f → barsOpen s q = true)) ∧
    (∃ (s : State) (port : Bool) (off : BitVec 25) (size : BitVec 8), reaches s (Accessor.pf0 port) = true ∧ accessOk (Accessor.pf0
      port) off.toNat size.toNat = false) ∧
    (∃ (s : State) (port : Bool), reaches s (Accessor.pf0 port) = true ∧ 3 ≤ s.power.state.code) ∧
    (∃ (p : Nat) (o : Nat), (p, o) ∈ [(2, 72), (10, 68), (10, 72)]) ∧
    (∃ (s : State) (g : Nat) (h : Nat), g < 64 ∧ tblWf { } s.tgs = true ∧ h ≠ g) ∧
    (∃ (s : State) (off : BitVec 32) (n : BitVec 8), mgmtUp s = true ∧ off.toNat % 4 = 0 ∧ 1 ≤ n.toNat ∧ n.toNat ≤ 16 ∧ off.toNat +
      4 * n.toNat ≤ 2 ^ 25) ∧
    (∃ (s : State) (off : BitVec 32) (n : BitVec 8), mgmtUp s = true ∧ (off.toNat % 4 ≠ 0 ∨ n = 0 ∨ 16 < n.toNat ∨ 2 ^ 25 <
      off.toNat + 4 * n.toNat)) :=
  ⟨⟨rdy, .pf0 false, 0, 0, 0, by decide⟩,
   ⟨rdy, false, 1, 0, by decide⟩,
   ⟨rdy, false, by decide⟩,
   ⟨2, 72, by decide⟩,
   ⟨rdy, 0, 1, by decide⟩,
   ⟨rdy, 0, 1, by decide⟩,
   ⟨rdy, 0, 0, by decide⟩⟩

/-- The hypotheses of `Obligations.RegisterWrites`, clause by clause. -/
theorem witness_RegisterWrites :
    (∃ (s : State) (port : Bool) (off : BitVec 25) (p : Nat) (o : Nat), reaches s (Accessor.pf0 port) = true ∧ off.toNat % 4 = 0 ∧
      targetOf (Accessor.pf0 port) off.toNat = Target.page p o) ∧
    (∃ (o : Nat), o ∈ [0, 4, 12, 32, 36, 40, 44, 48, 60]) ∧
    (∃ (s : State) (port : Bool) (p : BitVec 9) (v : BitVec 32), mayWrite s (Accessor.pf0 port) p.toNat = true ∧ pageSrst p.toNat =
      true ∧ manifestEnables s p.toNat = true ∧ (getHdr s p.toNat).en ≠ v.getLsbD 0 ∧ v.toNat < 2) ∧
    (∃ (s : State) (port : Bool) (p : BitVec 9) (v : BitVec 32), mayWrite s (Accessor.pf0 port) p.toNat = true ∧ pageSrst p.toNat =
      true ∧ pageEn s p.toNat = false ∧ pageFrozen s p.toNat = false ∧ pageBusy s p.toNat = false ∧ v = 4 ∧ manifestEnables s p.toNat
      = true ∧ (getHdr s p.toNat).en = false ∧ tblWf { } s.hdrs = true) ∧
    (∃ (s : State) (p : BitVec 9), (getHdr s p.toNat).busy = true) ∧
    (∃ (s : State) (off : BitVec 32) (p : Nat), mgmtUp s = true ∧ mainPower s = true ∧ off.toNat % 4 = 0 ∧ off.toNat < 2 ^ 25 ∧
      targetOf Accessor.mgmt off.toNat = Target.page p 20 ∧ mayWrite s Accessor.mgmt p = true) ∧
    (∃ (s : State) (off : BitVec 32), mgmtUp s = true ∧ (off.toNat % 4 ≠ 0 ∨ 2 ^ 25 ≤ off.toNat)) :=
  ⟨⟨rdy, false, 0, 0, 0, by decide⟩,
   ⟨0, by decide⟩,
   ⟨rdy, false, 19, 0, by decide⟩,
   ⟨{ rdy with hdrs := [(19, { en := false })] }, false, 19, 4, by decide⟩,
   ⟨{ rdy with hdrs := [(0, { busy := true })] }, 0, by decide⟩,
   ⟨rdy, 20, 0, by decide⟩,
   ⟨rdy, 1, by decide⟩⟩

/-- The hypotheses of `Obligations.CalibrationWindowPlace`, clause by clause. -/
theorem witness_CalibrationWindowPlace :
    (∃ (g : Nat) (t : Nat) (b : Nat), g < 64 ∧ t < 1088 ∧ b < 64) ∧
    (∃ (off : Nat), (off < 16777216 ∨ 16777216 + 69632 * 64 ≤ off)) ∧
    (∃ (s : State) (a : Accessor) (off : BitVec 25) (size : BitVec 8) (i : Nat) (b : Nat), reaches s a = true ∧ accessOk a off.toNat
      size.toNat = true ∧ targetOf a off.toNat = Target.window i b ∧ (getHdr s (19 + i / 1088)).lock = true) :=
  ⟨⟨63, 1087, 63, by decide⟩,
   ⟨16777215, by decide⟩,
   ⟨{ rdy with hdrs := [(19, { lock := true })] }, .pf0 false, 16777216, 4, 0, 0, by decide⟩⟩

/-- The hypotheses of `Obligations.EventStatusBit`, clause by clause. -/
theorem witness_EventStatusBit :
    ∃ (s : State) (p : Nat) (c : Nat) (i : Nat), pagePowered s p = true ∧ tblWf { } s.hdrs = true ∧ 1 ≤ c ∧ c ≤ 255 ∧ i < 32 :=
  ⟨rdy, 0, 1, 0, by decide⟩

/-- The hypotheses of `Obligations.FreezeAndThaw`, clause by clause. -/
theorem witness_FreezeAndThaw :
    (∃ (s : State) (kind : Nat) (master : Nat), tblWf { } s.hdrs = true ∧ isFrozen s kind master = true) ∧
    (∃ (s : State) (kind : Nat) (master : Nat), tblWf { } s.hdrs = true ∧ isFrozen s kind master = false) ∧
    (∃ (s : State) (page : Nat), tblWf { } s.hdrs = true ∧ (getHdr s page).faultValid = false) ∧
    (∃ (s : State) (page : Nat), tblWf { } s.hdrs = true ∧ (getHdr s page).faultValid = true) ∧
    (∃ (s : State) (a : Accessor) (page : BitVec 9) (v : BitVec 32), mayWrite s a page.toNat = true ∧ v.getLsbD 1 = true ∧ v.getLsbD
      2 = false ∧ (List.filter (fun z => z.page == page.toNat && mayThaw a z && z.cycle != sclk (match a with | Accessor.pf0 port => writeEn s page.toNat v.toNat | x => s)) (match a with | Accessor.pf0 port => writeEn s page.toNat v.toNat | x => s).frozen
      = [])) ∧
    (∃ (s : State) (a : Accessor) (page : BitVec 9) (v : BitVec 32), mayWrite s a page.toNat = true ∧ v.getLsbD 1 = true ∧ v.getLsbD
      2 = false ∧ (List.filter (fun z => z.page == page.toNat && mayThaw a z && z.cycle != sclk (match a with | Accessor.pf0 port => writeEn s page.toNat v.toNat | x => s)) (match a with | Accessor.pf0 port => writeEn s page.toNat v.toNat | x => s).frozen
      ≠ [])) ∧
    (∃ (s : State) (p : Nat), (List.filter (fun z => z.page == p) s.frozen = [])) ∧
    (∃ (s : State) (p : Nat), (∃ z ∈ List.filter (fun z => z.page == p) s.frozen, z.cycle ≠ sclk s)) ∧
    (∃ (s : State) (p : Nat) (z : Frozen) (zs : List Frozen), (List.filter (fun z => z.page == p) s.frozen = z :: zs) ∧ (∀ y ∈
      List.filter (fun z => z.page == p) s.frozen, y.cycle = sclk s)) ∧
    (∃ (z : Frozen), z.kind = 3) ∧
    (∃ (z : Frozen), z.kind = 1 ∧ (z.master = 0 ∨ z.master = 32)) :=
  ⟨⟨withFrozen rdy 3 0, 3, 0, by decide⟩,
   ⟨rdy, 0, 0, by decide⟩,
   ⟨rdy, 0, by decide⟩,
   ⟨{ rdy with hdrs := [(0, { faultValid := true })] }, 0, by decide⟩,
   ⟨rdy, .mgmt, 2, 2, by decide⟩,
   ⟨{ rdy with frozen := [{ page := 0, kind := 1, master := 0 }] }, .mgmt, 0, 2, by decide⟩,
   ⟨rdy, 0, by decide⟩,
   ⟨{ rdy with frozen := [{ page := 0, cycle := 1 }] }, 0, by decide⟩,
   ⟨{ rdy with frozen := [{ page := 0, cycle := sclk rdy }] }, 0, { page := 0, cycle := sclk rdy }, [], by decide⟩,
   ⟨{ kind := 3 }, by decide⟩,
   ⟨{ kind := 1 }, by decide⟩⟩

/-- The hypotheses of `Obligations.PlanShotAndItsTransfer`, clause by clause. -/
theorem witness_PlanShotAndItsTransfer :
    (∃ (s : State) (entry : BitVec 32) (b : Live) (x : Shot), s.sq.live = some b ∧ (liveTemplate s).shots[entry.toNat]? = some x ∧
      b.cycle / 2 = 8 * x.slot + 11 ∧ b.done.contains (2, entry.toNat) = false ∧ b.done.contains (3, driveKey x.group x.source
      (shotRow s (shotOp (ownRec s) x) x)) = true ∧ ((shotTiles (shotOp (ownRec s) x) x).all (tileServes (modLive s (fun b => { b with done := (2, entry.toNat) :: b.done }))
      x.group) = true)) ∧
    (∃ (s : State) (entry : BitVec 32) (b : Live) (x : Shot), s.sq.live = some b ∧ (liveTemplate s).shots[entry.toNat]? = some x ∧
      b.cycle / 2 = 8 * x.slot + 11 ∧ b.done.contains (2, entry.toNat) = false ∧ b.done.contains (3, driveKey x.group x.source
      (shotRow s (shotOp (ownRec s) x) x)) = true ∧ ((shotTiles (shotOp (ownRec s) x) x).all (tileServes (modLive s (fun b => { b with done := (2, entry.toNat) :: b.done }))
      x.group) = false)) ∧
    (∃ (p : Nat), p < 517) ∧
    (∃ (c : Int), c ≠ -512 ∧ c ≠ 511) ∧
    (∃ (d : DevRec) (x : Shot) (c : Int), (c = -512 ∨ c = 511) ∧ 0 < (shotOp d x).allowance) ∧
    (∃ (d : DevRec) (x : Shot) (c : Int), (c = -512 ∨ c = 511) ∧ (shotOp d x).allowance = 0) ∧
    (∃ (s : State) (c : Nat) (entry : Nat), coreFrozen s c = false ∧ (tblGet { } (getCore s c).acc entry).st = 2) ∧
    (∃ (s : State) (c : Nat) (entry : Nat), coreFrozen s c = false ∧ (tblGet { } (getCore s c).acc entry).st ≠ 2) :=
  ⟨⟨{ onBeat { templates := [{ shots := [{}] }] } { cycle := 22, done := [(3, 0)] } with bindings := [(0, some {})] }, 0, { cycle := 22, done := [(3, 0)] }, {}, by decide⟩,
   ⟨onBeat { templates := [{ shots := [{}] }] } { cycle := 22, done := [(3, 0)] }, 0, { cycle := 22, done := [(3, 0)] }, {}, by decide⟩,
   ⟨0, by decide⟩,
   ⟨510, by decide⟩,
   ⟨{ ops := [{ allowance := 1 }] }, {}, 511, by decide⟩,
   ⟨{}, {}, 511, by decide⟩,
   ⟨{ rdy with cores := [(0, { acc := [(0, { st := 2 })] })] }, 0, 0, by decide⟩,
   ⟨rdy, 0, 0, by decide⟩⟩

/-- The hypotheses of `Obligations.RescueClipAndBlockClose`, clause by clause. -/
theorem witness_RescueClipAndBlockClose :
    (∃ (s : State) (g : BitVec 6) (op : BitVec 16) (l : BitVec 10) (k : BitVec 2), inReserved s g.toNat op.toNat l.toNat k.toNat =
      true ∧ earliestSaturated (spendReserved s g.toNat op.toNat l.toNat k.toNat) g.toNat op.toNat l.toNat = none ∧ ((ownRec
      s).ops.getD op.toNat { }).seam = false) ∧
    (∃ (s : State) (g : BitVec 6) (op : BitVec 16) (l : BitVec 10) (k : BitVec 2), inReserved s g.toNat op.toNat l.toNat k.toNat =
      true ∧ earliestSaturated (spendReserved s g.toNat op.toNat l.toNat k.toNat) g.toNat op.toNat l.toNat = none ∧ ((ownRec
      s).ops.getD op.toNat { }).seam = true) ∧
    (∃ (s : State) (g : BitVec 6) (op : BitVec 16) (l : BitVec 10) (k : BitVec 2) (i : Nat) (x : Shot) (ps : List Nat), inReserved s
      g.toNat op.toNat l.toNat k.toNat = true ∧ earliestSaturated (spendReserved s g.toNat op.toNat l.toNat k.toNat) g.toNat op.toNat
      l.toNat = some (i, x, ps) ∧ ((ownRec s).ops.getD op.toNat { }).seam = false) ∧
    (∃ (s : State) (g : BitVec 6) (op : BitVec 16) (l : BitVec 10) (k : BitVec 2) (i : Nat) (x : Shot) (ps : List Nat), inReserved s
      g.toNat op.toNat l.toNat k.toNat = true ∧ earliestSaturated (spendReserved s g.toNat op.toNat l.toNat k.toNat) g.toNat op.toNat
      l.toNat = some (i, x, ps) ∧ ((ownRec s).ops.getD op.toNat { }).seam = true) ∧
    (∃ (s : State) (entry : BitVec 32) (b : Live) (x : Shot), s.sq.live = some b ∧ (liveTemplate s).shots[entry.toNat]? = some x ∧
      b.cycle / 2 = closeTick s (ownRec s) (liveTemplate s) (blockKey s (ownRec s) x) ∧ b.done.contains (7, entry.toNat) = false) ∧
    (∃ (cl : Int) (ch : Int), (¬(cl = -512 ∨ cl = 511)) ∧ (¬(ch = -512 ∨ ch = 511))) ∧
    (∃ (cl : Int) (ch : Int), (cl = -512 ∨ cl = 511) ∧ (¬(ch = -512 ∨ ch = 511))) ∧
    (∃ (cl : Int) (ch : Int), (¬(cl = -512 ∨ cl = 511)) ∧ (ch = -512 ∨ ch = 511)) ∧
    (∃ (cl : Int) (ch : Int), (cl = -512 ∨ cl = 511) ∧ (ch = -512 ∨ ch = 511)) ∧
    (∃ (s : State) (c : Nat), coreFrozen s c = true) ∧
    (∃ (s : State) (c : Nat) (j : Nat), coreFrozen s c = false ∧ tblWf { } s.cores = true ∧ j ≠ c) ∧
    (∃ (s : State) (c : Nat) (e : Nat), coreFrozen s c = false ∧ tblWf { } s.cores = true ∧ tblWf { } (getCore s c).acc = true ∧ e <
      128) ∧
    (∃ (v : Int), -2 ^ 47 ≤ v ∧ v < 2 ^ 47) :=
  ⟨⟨{ onBeat { ops := [{ allowance := 1, seam := false }], templates := [{ shots := [{}] }] } { cycle := 54 } with sq := { (onBeat { ops := [{ allowance := 1, seam := false }], templates := [{ shots := [{}] }] } { cycle := 54 }).sq with satQueue := [] } }, 0, 0, 0, 1, by decide⟩,
   ⟨{ onBeat { ops := [{ allowance := 1, seam := true }], templates := [{ shots := [{}] }] } { cycle := 54 } with sq := { (onBeat { ops := [{ allowance := 1, seam := true }], templates := [{ shots := [{}] }] } { cycle := 54 }).sq with satQueue := [] } }, 0, 0, 0, 1, by decide⟩,
   ⟨{ onBeat { ops := [{ allowance := 1, seam := false }], templates := [{ shots := [{}] }] } { cycle := 54 } with sq := { (onBeat { ops := [{ allowance := 1, seam := false }], templates := [{ shots := [{}] }] } { cycle := 54 }).sq with satQueue := [(0, 0, 0)] } }, 0, 0, 0, 1, 0, {}, [0], by decide⟩,
   ⟨{ onBeat { ops := [{ allowance := 1, seam := true }], templates := [{ shots := [{}] }] } { cycle := 54 } with sq := { (onBeat { ops := [{ allowance := 1, seam := true }], templates := [{ shots := [{}] }] } { cycle := 54 }).sq with satQueue := [(0, 0, 0)] } }, 0, 0, 0, 1, 0, {}, [0], by decide⟩,
   ⟨onBeat { templates := [{ shots := [{}] }] } { cycle := 34 }, 0, { cycle := 34 }, {}, by decide⟩,
   ⟨0, 0, by decide⟩,
   ⟨511, 0, by decide⟩,
   ⟨0, 511, by decide⟩,
   ⟨-512, 511, by decide⟩,
   ⟨withFrozen rdy 3 0, 0, by decide⟩,
   ⟨rdy, 0, 1, by decide⟩,
   ⟨rdy, 0, 0, by decide⟩,
   ⟨140737488355327, by decide⟩⟩

/-- The hypotheses of `Obligations.DriveFetchAndCalibrationShot`, clause by clause. -/
theorem witness_DriveFetchAndCalibrationShot :
    (∃ (s : State) (g : BitVec 6) (source : BitVec 16) (row : BitVec 8) (b : Live) (v : Drive) (x : Shot), s.sq.live = some b ∧
      (liveTemplate s).drives[source.toNat]? = some v ∧ (List.find? (fun x => x.group == g.toNat && x.source == source.toNat &&
      shotRow s (shotOp (ownRec s) x) x == row.toNat) (liveTemplate s).shots = some x) ∧ b.cycle / 2 = 8 * x.slot - 16 ∧
      b.done.contains (3, driveKey g.toNat source.toNat row.toNat) = false ∧ coreFrozen s v.core = true) ∧
    (∃ (s : State) (g : BitVec 6) (source : BitVec 16) (row : BitVec 8) (b : Live) (v : Drive) (x : Shot), s.sq.live = some b ∧
      (liveTemplate s).drives[source.toNat]? = some v ∧ (List.find? (fun x => x.group == g.toNat && x.source == source.toNat &&
      shotRow s (shotOp (ownRec s) x) x == row.toNat) (liveTemplate s).shots = some x) ∧ b.cycle / 2 = 8 * x.slot - 16 ∧
      b.done.contains (3, driveKey g.toNat source.toNat row.toNat) = false ∧ coreFrozen s v.core = false ∧ (isPosted (modLive s (fun b
      => { b with done := (3, driveKey g.toNat source.toNat row.toNat) :: b.done })) 1 source.toNat = false)) ∧
    (∃ (s : State) (g : BitVec 6) (source : BitVec 16) (row : BitVec 8) (b : Live) (v : Drive) (x : Shot), s.sq.live = some b ∧
      (liveTemplate s).drives[source.toNat]? = some v ∧ (List.find? (fun x => x.group == g.toNat && x.source == source.toNat &&
      shotRow s (shotOp (ownRec s) x) x == row.toNat) (liveTemplate s).shots = some x) ∧ b.cycle / 2 = 8 * x.slot - 16 ∧
      b.done.contains (3, driveKey g.toNat source.toNat row.toNat) = false ∧ coreFrozen s v.core = false ∧ (isPosted (modLive s (fun b
      => { b with done := (3, driveKey g.toNat source.toNat row.toNat) :: b.done })) 1 source.toNat = true)) ∧
    (∃ (s : State) (g : BitVec 6) (tile : BitVec 11), tile.toNat < 1088 ∧ calPlace s (tileIx g.toNat tile.toNat) = true ∧ (∀ j ∈
      groupTiles g.toNat, (getTile s j).last.toNat < (getTile s (tileIx g.toNat tile.toNat)).last.toNat → calPlace s j = false)) :=
  ⟨⟨withFrozen (onBeat { templates := [{ drives := [{}], shots := [{ slot := 2 }] }] } {}) 3 0, 0, 0, 0, {}, {}, { slot := 2 }, by decide⟩,
   ⟨onBeat { templates := [{ drives := [{}], shots := [{ slot := 2 }] }] } {}, 0, 0, 0, {}, {}, { slot := 2 }, by decide⟩,
   ⟨onBeat { templates := [{ launches := [{ posts := [(1, 0)] }], drives := [{}], shots := [{ slot := 2 }] }] } { cycle := 1, posted := [(0, 0, 0)] }, 0, 0, 0, { cycle := 1, posted := [(0, 0, 0)] }, {}, { slot := 2 }, by decide⟩,
   ⟨{ rdy with clock := 4000000006, tgs := [(0, { calActive := true })] }, 0, 0, by decide +kernel⟩⟩

/-- The hypotheses of `Obligations.BeatsBeginAndEnd`, clause by clause. -/
theorem witness_BeatsBeginAndEnd :
    (∃ (s : State) (pos : BitVec 16) (x : Pos), posAt s pos.toNat = some x ∧ beatDue s pos.toNat x = true ∧ tilesReady s ((ownRec
      s).templates.getD x.template { }) = false) ∧
    (∃ (s : State) (pos : BitVec 16) (x : Pos), posAt s pos.toNat = some x ∧ beatDue s pos.toNat x = true ∧ tilesReady s ((ownRec
      s).templates.getD x.template { }) = true) ∧
    (∃ (s : State) (l : Live), s.sq.live = some l ∧ l.cycle < 2 * (liveTemplate s).len) ∧
    (∃ (s : State) (l : Live), s.sq.live = some l ∧ 2 * (liveTemplate s).len ≤ l.cycle) ∧
    (∃ (l : Live), replayCause l = 0) ∧
    (∃ (s : State) (l : Live), replayCause l ≠ 0 ∧ l.rho < replayMax s) ∧
    (∃ (s : State) (l : Live), replayCause l ≠ 0 ∧ replayMax s ≤ l.rho) ∧
    (∃ (s : State) (entry : BitVec 32) (b : Live) (x : Shot), s.sq.live = some b ∧ (liveTemplate s).shots[entry.toNat]? = some x ∧
      b.cycle / 2 = 8 * x.slot + 11 ∧ b.done.contains (2, entry.toNat) = false ∧ b.done.contains (3, driveKey x.group x.source
      (shotRow s (shotOp (ownRec s) x) x)) = true) ∧
    (∃ (s : State) (entry : BitVec 32) (b : Live) (x : Shot), s.sq.live = some b ∧ (liveTemplate s).shots[entry.toNat]? = some x ∧
      b.cycle / 2 = closeTick s (ownRec s) (liveTemplate s) (blockKey s (ownRec s) x) ∧ b.done.contains (7, entry.toNat) = false) ∧
    (∃ (s : State) (g : BitVec 6) (op : BitVec 16) (l : BitVec 10) (k : BitVec 2) (b : Live), s.sq.live = some b ∧ inReserved s
      g.toNat op.toNat l.toNat k.toNat = true ∧ ((ownRec s).ops.getD op.toNat { }).seam = false) ∧
    (∃ (s : State) (g : BitVec 6) (op : BitVec 16) (l : BitVec 10) (k : BitVec 2) (b : Live), s.sq.live = some b ∧ inReserved s
      g.toNat op.toNat l.toNat k.toNat = true ∧ ((ownRec s).ops.getD op.toNat { }).seam = true) :=
  ⟨⟨{ planned { positions := [{}], templates := [{ shots := [{}] }] } with bindings := [(0, some {})], tiles := [(0, { ready := false })] }, 0, {}, by decide⟩,
   ⟨planned { positions := [{}], templates := [{}] }, 0, {}, by decide⟩,
   ⟨onBeat { templates := [{}] } {}, {}, by decide⟩,
   ⟨onBeat { templates := [{}] } { cycle := 1024 }, { cycle := 1024 }, by decide⟩,
   ⟨{}, by decide⟩,
   ⟨{ planned {} with sq := { (planned {}).sq with planSet := some { replayMax := 1 } } }, { checkFail := true }, by decide⟩,
   ⟨planned {}, { checkFail := true }, by decide⟩,
   ⟨onBeat { templates := [{ shots := [{}] }] } { cycle := 22, done := [(3, driveKey 0 0 (shotRow (onBeat { templates := [{ shots := [{}] }] } {}) {} {}))] }, 0, { cycle := 22, done := [(3, driveKey 0 0 (shotRow (onBeat { templates := [{ shots := [{}] }] } {}) {} {}))] }, {}, by decide⟩,
   ⟨onBeat { templates := [{ shots := [{}] }] } { cycle := 34 }, 0, { cycle := 34 }, {}, by decide⟩,
   ⟨onBeat { ops := [{ allowance := 1, seam := false }], templates := [{ shots := [{}] }] } { cycle := 54 }, 0, 0, 0, 1, { cycle := 54 }, by decide⟩,
   ⟨onBeat { ops := [{ allowance := 1, seam := true }], templates := [{ shots := [{}] }] } { cycle := 54 }, 0, 0, 0, 1, { cycle := 54 }, by decide⟩⟩

/-- The hypotheses of `Obligations.CheckerToleranceRegister`, clause by clause. -/
theorem witness_CheckerToleranceRegister :
    (∃ (g : Nat), g < 64) ∧
    (∃ (s : State) (port : Bool) (g : BitVec 6) (v : BitVec 32), mayWrite s (Accessor.pf0 port) (19 + g.toNat) = true ∧ 1 ≤ v.toNat
      % 256 ∧ v.toNat % 256 ≤ 63 ∧ tblWf { } s.tgs = true) ∧
    (∃ (s : State) (port : Bool) (g : BitVec 6) (v : BitVec 32), mayWrite s (Accessor.pf0 port) (19 + g.toNat) = true ∧ (v.toNat %
      256 = 0 ∨ 63 < v.toNat % 256)) ∧
    (∃ (s : State) (g : Nat), tblWf { } s.tgs = true ∧ (getTg s g).firstClip = none) ∧
    (∃ (s : State) (i : Nat) (d : DevRec) (x : Shot) (codes : List Int), checkable codes = true ∧ (getTg s x.group).liveTol * 2048 <
      (checksumDiff (getTile s i) codes (rangeOf s x.group (shotOp d x)) (shotOp d x).seam).natAbs) ∧
    (∃ (s : State) (i : Nat) (d : DevRec) (x : Shot) (codes : List Int), checkable codes = true ∧ (checksumDiff (getTile s i) codes
      (rangeOf s x.group (shotOp d x)) (shotOp d x).seam).natAbs ≤ (getTg s x.group).liveTol * 2048) :=
  ⟨⟨0, by decide⟩,
   ⟨rdy, false, 0, 63, by decide⟩,
   ⟨rdy, false, 0, 64, by decide⟩,
   ⟨rdy, 0, by decide⟩,
   ⟨rdy, 0, {}, {}, List.replicate 516 0 ++ [10], by decide⟩,
   ⟨rdy, 0, {}, {}, [], by decide⟩⟩

/-- The hypotheses of `Obligations.RangeRegisterWindowAndRepair`, clause by clause. -/
theorem witness_RangeRegisterWindowAndRepair :
    (∃ (s : State) (port : Bool) (g : BitVec 6) (v : BitVec 32), mayWrite s (Accessor.pf0 port) (19 + g.toNat) = true ∧ (v.toNat /
      16 % 16 < v.toNat % 16 ∨ 3 < v.toNat / 16 % 16)) ∧
    (∃ (s : State) (port : Bool) (g : BitVec 6) (v : BitVec 32), mayWrite s (Accessor.pf0 port) (19 + g.toNat) = true ∧ v.toNat % 16
      ≤ v.toNat / 16 % 16 ∧ v.toNat / 16 % 16 ≤ 3) ∧
    (∃ (s : State) (port : Bool) (i : BitVec 17), i.toNat < 69632 ∧ mayWrite s (Accessor.pf0 port) (19 + i.toNat / 1088) = true ∧
      (planAdmitted s = true ∨ (getHdr s (19 + i.toNat / 1088)).lock = true)) ∧
    (∃ (s : State) (port : Bool) (i : BitVec 17), i.toNat < 69632 ∧ mayWrite s (Accessor.pf0 port) (19 + i.toNat / 1088) = true ∧
      planAdmitted s = false ∧ (getHdr s (19 + i.toNat / 1088)).lock = false) ∧
    (∃ (s : State) (op : BitVec 16) (probes : List RepairInput) (live : List RepairInput) (heldOut : List RepairInput) (l : Live) (x
      : AdapterDesc), s.sq.live = some l ∧ ((ownRec s).ops.getD op.toNat { }).adapter = some x ∧ l.template = ((ownRec s).ops.getD
      op.toNat { }).template ∧ (liveTemplate s).repair = true ∧ x.train = true ∧ (tblGet (false, false) s.sq.repair ((ownRec
      s).ops.getD op.toNat { }).owner).1 = true ∧ inputOrder (2 ^ x.logM) (probes ++ live ++ heldOut) = true ∧ (∀ y ∈ probes ++ live
      ++ heldOut, inputAllowed s ((ownRec s).ops.getD op.toNat { }) x (tblGet (false, false) s.sq.repair ((ownRec s).ops.getD op.toNat
      { }).owner).2 y = true) ∧ readsShot s ((ownRec s).ops.getD op.toNat { }) (probes ++ live ++ heldOut) = true ∧ l.done.contains
      (8, op.toNat) = false) ∧
    (∃ (s : State) (op : BitVec 16) (x : AdapterDesc), ((ownRec s).ops.getD op.toNat { }).adapter = some x ∧ atEdge s 2 = true ∧
      (tblGet { } s.sq.adapters ((ownRec s).ops.getD op.toNat { }).tag).staged = true ∧ (tblGet { } s.sq.adapters ((ownRec s).ops.getD
      op.toNat { }).tag).eligible = true ∧ s.sq.live = none ∧ s.sq.ended = [] ∧ s.sq.verdict ≠ 2 ∧ s.sq.replaying = [] ∧ s.sq.rho =
      []) :=
  ⟨⟨rdy, false, 0, 1, by decide⟩,
   ⟨rdy, false, 0, 0, by decide⟩,
   ⟨{ rdy with hdrs := [(19, { lock := true })] }, false, 0, by decide⟩,
   ⟨rdy, false, 0, by decide⟩,
   ⟨{ onBeat { templates := [{ repair := true }], ops := [{ adapter := some { train := true, count := 32 }, n := 0 }] } {} with sq := { (onBeat { templates := [{ repair := true }], ops := [{ adapter := some { train := true, count := 32 }, n := 0 }] } {}).sq with repair := [(0, true, false)] } }, 0, (List.range 16).map (fun n => { probe := some (BitVec.ofNat 32 n), entry := 0, vector := 0, x := [], sA := 0x3F800000, rA := 0x3F800000, reads := [] }), [], (List.range 16).map (fun n => { probe := some (BitVec.ofNat 32 (16 + n)), entry := 0, vector := 0, x := [], sA := 0x3F800000, rA := 0x3F800000, reads := [] }), {}, { train := true, count := 32 }, by decide⟩,
   ⟨{ planned { ops := [{ adapter := some {} }] } with sq := { (planned { ops := [{ adapter := some {} }] }).sq with adapters := [(0, { staged := true, eligible := true })], edgeAt := some 0, edgeKind := 2 } }, 0, {}, by decide⟩⟩

/-- The hypotheses of `Obligations.LoadWeightsRuns`, clause by clause. -/
theorem witness_LoadWeightsRuns :
    (∃ (s : State) (i : Issuer) (owner : BitVec 8) (list : BitVec 64), starts s i 36 [owner.toNat, list.toNat] = true ∧ forHere s i
      = true ∧ ownerRefusal s i owner.toNat = none ∧ s.ms.poisoned = [] ∧ s.ms.latent = [] ∧ mayRead s owner.toNat (list.toNat, 64) =
      false) ∧
    (∃ (s : State) (i : Issuer) (owner : BitVec 8) (list : BitVec 64), starts s i 36 [owner.toNat, list.toNat] = true ∧ forHere s i
      = true ∧ ownerRefusal s i owner.toNat = none ∧ s.ms.poisoned = [] ∧ s.ms.latent = [] ∧ mayRead s owner.toNat (list.toNat, 64) =
      true ∧ loadHeaderOk (readUnder s (stackKey s owner.toNat) list.toNat 64) = false) ∧
    (∃ (s : State) (i : Issuer) (owner : BitVec 8) (list : BitVec 64), starts s i 36 [owner.toNat, list.toNat] = true ∧ forHere s i
      = true ∧ ownerRefusal s i owner.toNat = none ∧ s.ms.poisoned = [] ∧ s.ms.latent = [] ∧ mayRead s owner.toNat (list.toNat, 64) =
      true ∧ loadHeaderOk (listHeader s owner.toNat list.toNat) = true ∧ listCode s owner.toNat list.toNat ≠ 0) ∧
    (∃ (s : State) (i : Issuer) (owner : BitVec 8) (list : BitVec 64), starts s i 36 [owner.toNat, list.toNat] = true ∧ forHere s i
      = true ∧ ownerRefusal s i owner.toNat = none ∧ s.ms.poisoned = [] ∧ s.ms.latent = [] ∧ mayRead s owner.toNat (list.toNat, 64) =
      true ∧ loadHeaderOk (listHeader s owner.toNat list.toNat) = true ∧ byteAt (listHeader s owner.toNat list.toNat) 6 = 1 ∧ listCode
      s owner.toNat list.toNat = 0) ∧
    (∃ (s : State) (i : Issuer) (owner : BitVec 8) (list : BitVec 64), starts s i 36 [owner.toNat, list.toNat] = true ∧ forHere s i
      = true ∧ ownerRefusal s i owner.toNat = none ∧ s.ms.poisoned = [] ∧ s.ms.latent = [] ∧ mayRead s owner.toNat (list.toNat, 64) =
      true ∧ loadHeaderOk (listHeader s owner.toNat list.toNat) = true ∧ byteAt (listHeader s owner.toNat list.toNat) 6 = 2 ∧
      resumeCode s owner.toNat (listTiles s owner.toNat list.toNat) (listBindings s owner.toNat list.toNat) ≠ 0 ∧ listCode s
      owner.toNat list.toNat = 0) ∧
    (∃ (s : State) (i : Issuer) (owner : BitVec 8) (list : BitVec 64), starts s i 36 [owner.toNat, list.toNat] = true ∧ forHere s i
      = true ∧ ownerRefusal s i owner.toNat = none ∧ s.ms.poisoned = [] ∧ s.ms.latent = [] ∧ mayRead s owner.toNat (list.toNat, 64) =
      true ∧ loadHeaderOk (listHeader s owner.toNat list.toNat) = true ∧ listCode s owner.toNat list.toNat = 0 ∧ ((byteAt (listHeader
      s owner.toNat list.toNat) 6 = 0 ∨ byteAt (listHeader s owner.toNat list.toNat) 6 = 3))) ∧
    (∃ (es : List (Nat × Nat)) (e : Nat × Nat), e ∈ es) ∧
    (∃ (s : State) (us : List (Nat × Nat × Bool)), (liveTargets s (List.filter (fun x => x.2.2) us ++ List.filter (fun u => !u.2.2)
      us) = none)) ∧
    (∃ (s : State) (us : List (Nat × Nat × Bool)) (t : State) (ps : List ((Nat × Nat) × Nat)), (liveTargets s (List.filter (fun x =>
      x.2.2) us ++ List.filter (fun u => !u.2.2) us) = some (t, ps))) ∧
    (∃ (s : State) (x : Load) (y : Load), nextLoad s = some x ∧ y ∈ s.loads ∧ y.started = false ∧ y.came = x.came ∧ y.port = false)
      ∧
    (∃ (s : State) (x : Load), ((List.filter (fun x => x.started) s.loads).length < 4) ∧ nextLoad s = some x) ∧
    (∃ (s : State), (4 ≤ (List.filter (fun x => x.started) s.loads).length ∨ nextLoad s = none)) ∧
    (∃ (x : Load), x.mode = 1) ∧
    (∃ (s : State) (x : Load) (g : Nat) (l : Nat), x.mode = 2 ∧ retiredState (getTile s (physicalOf s g l)).state = false) ∧
    (∃ (s : State) (x : Load) (g : Nat) (l : Nat), x.mode = 3 ∧ (getTg s g).unavailable.contains l = false) ∧
    (∃ (s : State) (x : Load) (g : Nat) (l : Nat) (b : Binding), x.mode = 0 ∧ x.isSeal = true ∧ (getTg s g).unavailable.contains l =
      false ∧ b.seam = false) ∧
    (∃ (s : State) (no : BitVec 32) (x : Load), (List.find? (fun x => x.no == no.toNat && x.started) s.loads = some x) ∧ loadDone s
      x = true) :=
  ⟨⟨fetched 36, pf, 0, 0, by decide⟩,
   ⟨granted (fetched 36) 0, pf, 0, 0, by decide⟩,
   ⟨{ granted (fetched 36) 0 with mem := [(0, 0x44), (1, 0x4C), (2, 0x57), (3, 0x4B), (4, 1), (6, 3), (12, 1), (24, 96), (105, 1)] }, pf, 0, 0, by decide⟩,
   ⟨listedLive, pf, 0, 0, by decide, by decide, by decide, by decide, by decide, by decide, by decide, by decide, listed_live⟩,
   ⟨listed 2, pf, 0, 0, by decide, by decide, by decide, by decide, by decide, by decide, by decide, by decide, by decide +kernel, listed_resume⟩,
   ⟨{ granted (fetched 36) 0 with mem := [(0, 0x44), (1, 0x4C), (2, 0x57), (3, 0x4B), (4, 1), (6, 3), (12, 1), (24, 96)] }, pf, 0, 0, by decide⟩,
   ⟨[(0, 0)], (0, 0), by decide⟩,
   ⟨{ rdy with hb := { rdy.hb with margin := { rdy.hb.margin with reserve := 64 } } }, [(0, 0, false), (0, 2, false)], by decide⟩,
   ⟨rdy, [], rdy, [], by decide⟩,
   ⟨{ rdy with loads := [{}] }, {}, {}, by decide⟩,
   ⟨{ rdy with loads := [{}] }, {}, by decide⟩,
   ⟨{ rdy with loads := List.replicate 4 { started := true } }, by decide⟩,
   ⟨{ mode := 1 }, by decide⟩,
   ⟨rdy, { mode := 2 }, 0, 0, by decide⟩,
   ⟨rdy, { mode := 3 }, 0, 0, by decide⟩,
   ⟨rdy, { isSeal := true }, 0, 0, {}, by decide⟩,
   ⟨{ rdy with loads := [{ started := true }] }, 0, { started := true }, by decide⟩⟩

/-- The hypotheses of `Obligations.ProgrammingOfATile`, clause by clause. -/
theorem witness_ProgrammingOfATile :
    (∃ (s : State) (tile : BitVec 17) (j : Job), (List.find? (fun j => j.tile == tile.toNat && j.phase == 1) s.jobs = some j) ∧
      jobStopped s j = false ∧ level s < 3 ∧ (j.kind = 0 ∨ j.kind = 1 ∨ j.kind = 3 ∨ j.kind = 4)) ∧
    (∃ (s : State) (tile : BitVec 17) (j : Job), (List.find? (fun j => j.tile == tile.toNat && j.phase == 1) s.jobs = some j) ∧
      jobStopped s j = false ∧ level s < 3 ∧ j.kind = 2) ∧
    (∃ (s : State) (j : Job), (j.kind = 1 ∨ j.kind = 4) ∧ tblWf { } s.tiles = true) ∧
    (∃ (res : List (Nat × Nat)), (∃ x ∈ res, 512 ≤ x.2)) ∧
    (∃ (res : List (Nat × Nat)) (failed : Nat), (∀ x ∈ res, x.2 < 512) ∧ res.length ≤ 4 ∧ failed ≤ 256) ∧
    (∃ (res : List (Nat × Nat)), (∀ x ∈ res, x.2 < 512) ∧ 64 < res.length) ∧
    (∃ (s : State) (tile : BitVec 17) (t : Nat), (getTile s tile.toNat).settleEnd = some t ∧ t ≤ s.clock) ∧
    (∃ (s : State) (tile : BitVec 17), (getTile s tile.toNat).calibrating = true ∧ (getTile s tile.toNat).calShots = 24) ∧
    (∃ (s : State) (tile : BitVec 17), (getTile s tile.toNat).calibrating = false) ∧
    (∃ (s : State) (i : Nat), (List.find? (fun j => j.tile == i && j.phase == 3) s.jobs = none)) ∧
    (∃ (s : State) (i : Nat) (j : Job), (List.find? (fun j => j.tile == i && j.phase == 3) s.jobs = some j) ∧ (j.kind = 0 ∨ j.kind =
      2 ∨ j.kind = 3)) ∧
    (∃ (s : State) (i : Nat) (j : Job), (List.find? (fun j => j.tile == i && j.phase == 3) s.jobs = some j) ∧ (j.kind = 1 ∨ j.kind =
      4)) ∧
    (∃ (s : State) (i : Issuer) (owner : BitVec 8) (list : BitVec 64), starts s i 36 [owner.toNat, list.toNat] = true ∧ forHere s i
      = true ∧ ownerRefusal s i owner.toNat = none ∧ s.ms.poisoned = [] ∧ s.ms.latent = [] ∧ mayRead s owner.toNat (list.toNat, 64) =
      true ∧ loadHeaderOk (readUnder s (stackKey s owner.toNat) list.toNat 64) = true ∧ byteAt (readUnder s (stackKey s owner.toNat)
      list.toNat 64) 6 = 3 ∧ leAt (readUnder s (stackKey s owner.toNat) list.toNat 64) 8 4 = 0 ∧ mayRead s owner.toNat (leAt
      (readUnder s (stackKey s owner.toNat) list.toNat 64) 24 8, 32 * leAt (readUnder s (stackKey s owner.toNat) list.toNat 64) 12 4)
      = true ∧ (loadCode s owner.toNat 3 [] (List.map tileEntryOf (entries32 s owner.toNat (leAt (readUnder s (stackKey s owner.toNat)
      list.toNat 64) 24 8) (leAt (readUnder s (stackKey s owner.toNat) list.toNat 64) 12 4))) (List.map (fun x => { owner := owner.toNat })
      (List.map tileEntryOf (entries32 s owner.toNat (leAt (readUnder s (stackKey s owner.toNat) list.toNat 64) 24 8) (leAt (readUnder
      s (stackKey s owner.toNat) list.toNat 64) 12 4)))) true = 0)) ∧
    (∃ (s : State) (x : Load), ((List.filter (fun x => x.started) s.loads).length < 4) ∧ nextLoad s = some x) ∧
    (∃ (s : State) (no : BitVec 32) (x : Load), (List.find? (fun x => x.no == no.toNat && x.started) s.loads = some x) ∧ loadDone s
      x = true) :=
  ⟨⟨{ rdy with jobs := [{ phase := 1 }] }, 0, { phase := 1 }, by decide⟩,
   ⟨{ rdy with jobs := [{ phase := 1, kind := 2 }] }, 0, { phase := 1, kind := 2 }, by decide⟩,
   ⟨rdy, { kind := 1 }, by decide⟩,
   ⟨[(0, 512)], by decide⟩,
   ⟨[], 0, by decide⟩,
   ⟨List.replicate 65 (0, 0), by decide⟩,
   ⟨{ rdy with tiles := [(0, { settleEnd := some 0 })] }, 0, 0, by decide⟩,
   ⟨{ rdy with tiles := [(0, { calibrating := true, calShots := 24 })] }, 0, by decide⟩,
   ⟨rdy, 0, by decide⟩,
   ⟨rdy, 0, by decide⟩,
   ⟨{ rdy with jobs := [{ phase := 3 }] }, 0, { phase := 3 }, by decide⟩,
   ⟨{ rdy with jobs := [{ phase := 3, kind := 1 }] }, 0, { phase := 3, kind := 1 }, by decide⟩,
   ⟨{ granted (fetched 36) 0 with mem := [(0, 0x44), (1, 0x4C), (2, 0x57), (3, 0x4B), (4, 1), (6, 3), (12, 1), (24, 96)] }, pf, 0, 0, by decide⟩,
   ⟨{ rdy with loads := [{}] }, {}, by decide⟩,
   ⟨{ rdy with loads := [{ started := true }] }, 0, { started := true }, by decide⟩⟩

/-- The hypotheses of `Obligations.RetireSwapAndUnbind`, clause by clause. -/
theorem witness_RetireSwapAndUnbind :
    (∃ (s : State) (group : BitVec 6) (tile : BitVec 11) (j : Job), tile.toNat < 1088 ∧ retireDue s (tileIx group.toNat tile.toNat)
      = true ∧ (retiredState (getTile s (tileIx group.toNat tile.toNat)).state = false ∨ (getTile s (tileIx group.toNat
      tile.toNat)).vacated = true) ∧ (List.find? (fun j => j.tile == tileIx group.toNat tile.toNat && (j.kind == 1 || j.kind == 4))
      s.jobs = some j)) ∧
    (∃ (s : State) (group : BitVec 6) (tile : BitVec 11), tile.toNat < 1088 ∧ retireDue s (tileIx group.toNat tile.toNat) = true ∧
      (retiredState (getTile s (tileIx group.toNat tile.toNat)).state = false ∨ (getTile s (tileIx group.toNat tile.toNat)).vacated =
      true) ∧ (List.find? (fun j => j.tile == tileIx group.toNat tile.toNat && (j.kind == 1 || j.kind == 4)) s.jobs = none) ∧ servedBy
      s (tileIx group.toNat tile.toNat) = none ∧ (List.find? (fun j => j.tile == tileIx group.toNat tile.toNat && decide (6 ≤ j.kind))
      s.jobs = none)) ∧
    (∃ (s : State) (group : BitVec 6) (tile : BitVec 11) (j : Job), tile.toNat < 1088 ∧ retireDue s (tileIx group.toNat tile.toNat)
      = true ∧ (retiredState (getTile s (tileIx group.toNat tile.toNat)).state = false ∨ (getTile s (tileIx group.toNat
      tile.toNat)).vacated = true) ∧ (List.find? (fun j => j.tile == tileIx group.toNat tile.toNat && (j.kind == 1 || j.kind == 4))
      s.jobs = none) ∧ servedBy s (tileIx group.toNat tile.toNat) = none ∧ (List.find? (fun j => j.tile == tileIx group.toNat
      tile.toNat && decide (6 ≤ j.kind)) s.jobs = some j)) ∧
    (∃ (s : State) (group : BitVec 6) (tile : BitVec 11) (l : Nat), tile.toNat < 1088 ∧ retireDue s (tileIx group.toNat tile.toNat)
      = true ∧ (retiredState (getTile s (tileIx group.toNat tile.toNat)).state = false ∨ (getTile s (tileIx group.toNat
      tile.toNat)).vacated = true) ∧ (List.find? (fun j => j.tile == tileIx group.toNat tile.toNat && (j.kind == 1 || j.kind == 4))
      s.jobs = none) ∧ servedBy s (tileIx group.toNat tile.toNat) = some l ∧ ((s.jobs.any fun j => j.group == group.toNat && j.logical
      == l && j.kind == 4) = false) ∧ (List.find? (fun j => j.tile == tileIx group.toNat tile.toNat && decide (j.kind ≤ 3)) s.jobs =
      none)) ∧
    (∃ (s : State) (group : BitVec 6) (tile : BitVec 11) (l : Nat) (j : Job), tile.toNat < 1088 ∧ retireDue s (tileIx group.toNat
      tile.toNat) = true ∧ (retiredState (getTile s (tileIx group.toNat tile.toNat)).state = false ∨ (getTile s (tileIx group.toNat
      tile.toNat)).vacated = true) ∧ (List.find? (fun j => j.tile == tileIx group.toNat tile.toNat && (j.kind == 1 || j.kind == 4))
      s.jobs = none) ∧ servedBy s (tileIx group.toNat tile.toNat) = some l ∧ ((s.jobs.any fun j => j.group == group.toNat && j.logical
      == l && j.kind == 4) = false) ∧ (List.find? (fun j => j.tile == tileIx group.toNat tile.toNat && decide (j.kind ≤ 3)) s.jobs =
      some j)) ∧
    (∃ (s : State) (no : BitVec 32) (x : Load), (List.find? (fun x => x.no == no.toNat && x.started && x.mode == 1 && !x.keyGone)
      s.loads = some x) ∧ s.sq.live = none ∧ (List.filter (fun j => j.no == x.no && j.kind == 1) s.jobs ≠ []) ∧ (∀ j ∈ List.filter
      (fun j => j.no == x.no && j.kind == 1) s.jobs, j.phase = 4)) ∧
    (∃ (s : State) (no : BitVec 32) (x : Load), (List.find? (fun x => x.no == no.toNat && x.started && x.mode == 1 && !x.keyGone)
      s.loads = some x) ∧ (∃ j ∈ List.filter (fun j => j.no == x.no && j.kind == 1) s.jobs, j.phase ≠ 4)) ∧
    (∃ (s : State) (x : Load), x.isSeal = true ∧ tblWf none s.bindings = true) ∧
    (∃ (s : State), s.sq.live ≠ none) :=
  ⟨⟨{ rdy with tiles := [(0, { retireAsked := true })], jobs := [{ kind := 1 }] }, 0, 0, { kind := 1 }, by decide⟩,
   ⟨{ rdy with tiles := [(1024, { retireAsked := true })] }, 0, 1024, by decide⟩,
   ⟨{ rdy with tiles := [(1024, { retireAsked := true })], jobs := [{ tile := 1024, kind := 6 }] }, 0, 1024, { tile := 1024, kind := 6 }, by decide⟩,
   ⟨{ rdy with tiles := [(0, { retireAsked := true })] }, 0, 0, 0, by decide⟩,
   ⟨{ rdy with tiles := [(0, { retireAsked := true })], jobs := [{}] }, 0, 0, 0, {}, by decide⟩,
   ⟨{ rdy with loads := [{ started := true, mode := 1 }], jobs := [{ kind := 1, phase := 4 }] }, 0, { started := true, mode := 1 }, by decide⟩,
   ⟨{ rdy with loads := [{ started := true, mode := 1 }], jobs := [{ kind := 1, phase := 0 }] }, 0, { started := true, mode := 1 }, by decide⟩,
   ⟨rdy, { isSeal := true }, by decide⟩,
   ⟨onBeat {} {}, by decide⟩⟩

/-- The hypotheses of `Obligations.PlanSetsComeAndGo`, clause by clause. -/
theorem witness_PlanSetsComeAndGo :
    (∃ (s : State) (i : Issuer) (addr : BitVec 64), starts s i 48 [addr.toNat] = true ∧ fromHeadPf0 s i = false) ∧
    (∃ (s : State) (i : Issuer) (addr : BitVec 64), starts s i 48 [addr.toNat] = true ∧ fromHeadPf0 s i = true ∧ admitBarred s =
      false ∧ (extentsGranted s 0 addr.toNat 256 = false ∨ extentsGranted s 0 addr.toNat (imageSize s (stackKey s 0) addr.toNat) =
      false)) ∧
    (∃ (s : State) (i : Issuer) (addr : BitVec 64), starts s i 48 [addr.toNat] = true ∧ fromHeadPf0 s i = true ∧ admitBarred s =
      false ∧ extentsGranted s 0 addr.toNat 256 = true ∧ extentsGranted s 0 addr.toNat (imageSize s (stackKey s 0) addr.toNat) = true
      ∧ poisonedIn s addr.toNat (imageSize s (stackKey s 0) addr.toNat) = true) ∧
    (∃ (s : State) (i : Issuer) (addr : BitVec 64), starts s i 48 [addr.toNat] = true ∧ fromHeadPf0 s i = true ∧ admitBarred s =
      false ∧ extentsGranted s 0 addr.toNat 256 = true ∧ extentsGranted s 0 addr.toNat (imageSize s (stackKey s 0) addr.toNat) = true
      ∧ poisonedIn s addr.toNat (imageSize s (stackKey s 0) addr.toNat) = false) ∧
    (∃ (s : State) (i : Issuer) (addr : BitVec 64) (ok : Bool), starts s i 48 [addr.toNat] = true ∧ fromHeadPf0 s i = true ∧
      (admitBarred s = true ∨ ok = false)) ∧
    (∃ (s : State) (a : Nat) (key : Nat), s.sq.checking = some (a, key) ∧ isHeadframe s = true ∧ s.ms.poisoned = [] ∧ s.ms.latent =
      [] ∧ extentsGranted s 0 a (imageSize s key a) = true) ∧
    (∃ (s : State) (ps : PlanSet) (ret : List (BitVec 32 × BitVec 32)), s.sq.checked = some ps ∧ s.sq.live = none ∧ (retentionOk s
      (ownRecs s ps) (List.map (fun x => (x.1.toNat, x.2.toNat)) ret) = true)) ∧
    (∃ (s : State) (i : Issuer), starts s i 49 [] = true ∧ fromHeadPf0 s i = true ∧ planAdmitted s = false) ∧
    (∃ (s : State) (i : Issuer), starts s i 49 [] = true ∧ fromHeadPf0 s i = true ∧ planAdmitted s = true ∧ s.sq.retireWanted = 0) ∧
    (∃ (s : State) (ps : PlanSet), s.sq.planSet = some ps ∧ s.sq.haltRetire = true ∧ s.sq.live = none) ∧
    (∃ (s : State) (i : Issuer), starts s i 50 [] = true ∧ fromHeadPf0 s i = true) ∧
    (∃ (s : State), planAdmitted s = false ∧ s.sq.lastIdleMs = s.power.rtb.toNat / 100000) ∧
    (∃ (s : State), planAdmitted s = false ∧ s.sq.lastIdleMs ≠ s.power.rtb.toNat / 100000) :=
  ⟨⟨{ fetched 48 with ri := { rdy.ri with hf := false } }, pf, 0, by decide⟩,
   ⟨fetched 48, pf, 0, by decide⟩,
   ⟨{ granted (fetched 48) 0 with ms := { (granted (fetched 48) 0).ms with poisoned := [3] } }, pf, 0, by decide⟩,
   ⟨granted (fetched 48) 0, pf, 0, by decide⟩,
   ⟨fetched 48, pf, 0, false, by decide⟩,
   ⟨{ granted rdy 0 with sq := { rdy.sq with checking := some (0, 0) } }, 0, 0, by decide⟩,
   ⟨{ rdy with sq := { rdy.sq with checked := some {} } }, {}, [], by decide⟩,
   ⟨fetched 49, pf, by decide⟩,
   ⟨{ planned {} with hpA := (fetched 49).hpA }, pf, by decide⟩,
   ⟨{ planned {} with sq := { (planned {}).sq with haltRetire := true } }, { plans := [{ layouts := [{}], recs := [{}] }] }, by decide⟩,
   ⟨fetched 50, pf, by decide⟩,
   ⟨rdy, by decide⟩,
   ⟨{ rdy with sq := { rdy.sq with lastIdleMs := 1 } }, by decide⟩⟩

/-- The hypotheses of `Obligations.RoundsBeginAndEnd`, clause by clause. -/
theorem witness_RoundsBeginAndEnd :
    (∃ (s : State), atBoundary s false = true) ∧
    (∃ (s : State), atBoundary s true = true) ∧
    (∃ (s : State), (s.sq.live ≠ none ∨ roundTick s < roundTicks s)) ∧
    (∃ (s : State), s.sq.state ≠ 6 ∧ s.sq.emptyRound = true) ∧
    (∃ (s : State), s.sq.state ≠ 6 ∧ s.sq.emptyRound = false) ∧
    (∃ (s : State) (p : BitVec 6) (round : BitVec 64), isHeadframe s = true ∧ planAdmitted s = true ∧ round.toNat = s.sq.round ∧
      roundTick s ≤ roundLimit s ∧ p.toNat < ringCount s ∧ (rx s p.toNat).got = false) ∧
    (∃ (s : State), planAdmitted s = true ∧ statusSent s = false ∧ statusDue s = true) ∧
    (∃ (s : State) (v : BitVec 3) (round : BitVec 64), isHeadframe s = false ∧ planAdmitted s = true ∧ s.ri.roundSeen ≠ some
      round.toNat ∧ s.sq.live = none ∧ s.sq.round < round.toNat ∧ 1 ≤ v.toNat ∧ v.toNat ≤ 4) ∧
    (∃ (s : State) (b : Nat), s.sq.switchTo = some b ∧ s.sq.state = 6 ∧ 32768 ≤ roundTick s ∧ isHeadframe s = true) ∧
    (∃ (s : State) (b : Nat), s.sq.switchTo = some b ∧ s.sq.state = 6 ∧ 32768 ≤ roundTick s ∧ isHeadframe s = false) ∧
    (∃ (s : State) (port : Bool) (v : BitVec 32), mayWrite s (Accessor.pf0 port) 6 = true ∧ v.toNat / 65536 % 128 ≤ 60) ∧
    (∃ (s : State) (port : Bool) (v : BitVec 32), mayWrite s (Accessor.pf0 port) 6 = true ∧ 60 < v.toNat / 65536 % 128) :=
  ⟨⟨{ planned {} with power := { rdy.power with rtb := 2000 } }, by decide⟩,
   ⟨{ planned {} with power := { rdy.power with rtb := 2000 }, sq := { (planned {}).sq with emptyRound := true } }, by decide⟩,
   ⟨onBeat {} {}, by decide⟩,
   ⟨rdy, by decide⟩,
   ⟨planned {}, by decide⟩,
   ⟨planned {}, 0, 0, by decide⟩,
   ⟨planned {}, by decide⟩,
   ⟨{ planned {} with ri := { rdy.ri with hf := false } }, 1, 1, by decide⟩,
   ⟨{ planned {} with power := { rdy.power with rtb := 5000 }, sq := { (planned {}).sq with state := 6, switchTo := some 0 } }, 0, by decide⟩,
   ⟨{ planned {} with power := { rdy.power with rtb := 5000 }, sq := { (planned {}).sq with state := 6, switchTo := some 0 }, ri := { rdy.ri with hf := false } }, 0, by decide⟩,
   ⟨rdy, false, 0x3C0000, by decide⟩,
   ⟨rdy, false, 0x3D0000, by decide⟩⟩

/-- The hypotheses of `Obligations.BoundaryVerdict`, clause by clause. -/
theorem witness_BoundaryVerdict :
    (∃ (s : State) (thawed : Bool), s.cx.hoState ≠ 3 ∧ causesNow s thawed ≠ 0 ∧ planAdmitted s = true) ∧
    (∃ (s : State) (thawed : Bool), s.cx.hoState ≠ 3 ∧ causesNow s thawed = 0 ∧ s.sq.roundRan = true ∧ replaySeen s = true) ∧
    (∃ (s : State) (thawed : Bool), s.cx.hoState ≠ 3 ∧ causesNow s thawed = 0 ∧ s.sq.roundRan = false ∧ s.sq.state ≠ 5) :=
  ⟨⟨{ planned {} with sq := { (planned {}).sq with haltFault := true } }, false, by decide⟩,
   ⟨{ planned {} with sq := { (planned {}).sq with roundRan := true, rxStatus := [(0, { got := true, status := 1 })] } }, false, by decide⟩,
   ⟨{ planned {} with sq := { (planned {}).sq with rxStatus := [(0, { got := true })] } }, false, by decide⟩⟩

/-- The hypotheses of `Obligations.PlanTransfers`, clause by clause. -/
theorem witness_PlanTransfers :
    (∃ (s : State) (slot : BitVec 16) (l : Live) (x : Dma), s.sq.live = some l ∧ (liveTemplate s).dmas[slot.toNat]? = some x ∧
      l.cycle = 2 * x.start ∧ l.done.contains (5, slot.toNat) = false ∧ isFrozen s 2 x.core = true) ∧
    (∃ (s : State) (slot : BitVec 16) (l : Live) (x : Dma), s.sq.live = some l ∧ (liveTemplate s).dmas[slot.toNat]? = some x ∧
      l.cycle = 2 * x.start ∧ l.done.contains (5, slot.toNat) = false ∧ isFrozen s 2 x.core = false ∧ x.dir = 1 ∧ (isPosted (modLive s
      (fun l => { l with done := (5, slot.toNat) :: l.done })) 3 slot.toNat = false)) ∧
    (∃ (s : State) (slot : BitVec 16) (l : Live) (x : Dma), s.sq.live = some l ∧ (liveTemplate s).dmas[slot.toNat]? = some x ∧
      l.cycle = 2 * x.start ∧ l.done.contains (5, slot.toNat) = false ∧ isFrozen s 2 x.core = false ∧ (x.dir = 1 → isPosted (modLive s
      (fun l => { l with done := (5, slot.toNat) :: l.done })) 3 slot.toNat = true) ∧ (dmaRefused (modLive s (fun l => { l with done := (5, slot.toNat) :: l.done }))
      x (if x.mode = 1 then selectedRun (modLive s (fun l => { l with done := (5, slot.toNat) :: l.done })) l x.addr else none) =
      true) ∧ x.mode ≠ 1) ∧
    (∃ (s : State) (slot : BitVec 16) (l : Live) (x : Dma), s.sq.live = some l ∧ (liveTemplate s).dmas[slot.toNat]? = some x ∧
      l.cycle = 2 * x.start ∧ l.done.contains (5, slot.toNat) = false ∧ isFrozen s 2 x.core = false ∧ (x.dir = 1 → isPosted (modLive s
      fun l => { pos := l.pos, template := l.template, cycle := l.cycle, rho := l.rho, done := (5, slot.toNat) :: l.done, posted := l.posted, nwQ := l.nwQ, checkFail := l.checkFail, nonFinite := l.nonFinite, fault := l.fault, rowRange := l.rowRange, muStart := l.muStart })
      3 slot.toNat = true) ∧ (dmaRefused (modLive s fun l => { pos := l.pos, template := l.template, cycle := l.cycle, rho := l.rho, done := (5, slot.toNat) :: l.done, posted := l.posted, nwQ := l.nwQ, checkFail := l.checkFail, nonFinite := l.nonFinite, fault := l.fault, rowRange := l.rowRange, muStart := l.muStart })
      x (if x.mode = 1 then selectedRun (modLive s fun l => { pos := l.pos, template := l.template, cycle := l.cycle, rho := l.rho, done := (5, slot.toNat) :: l.done, posted := l.posted, nwQ := l.nwQ, checkFail := l.checkFail, nonFinite := l.nonFinite, fault := l.fault, rowRange := l.rowRange, muStart := l.muStart })
      l x.addr else none) = true) ∧ x.mode = 1) ∧
    (∃ (s : State) (slot : BitVec 16) (l : Live) (x : Dma), s.sq.live = some l ∧ (liveTemplate s).dmas[slot.toNat]? = some x ∧
      l.cycle = 2 * x.start ∧ l.done.contains (5, slot.toNat) = false ∧ isFrozen s 2 x.core = false ∧ (x.dir = 1 → isPosted (modLive s
      (fun l => { l with done := (5, slot.toNat) :: l.done })) 3 slot.toNat = true) ∧ (dmaRefused (modLive s (fun l => { l with done := (5, slot.toNat) :: l.done }))
      x (if x.mode = 1 then selectedRun (modLive s (fun l => { l with done := (5, slot.toNat) :: l.done })) l x.addr else none) =
      false)) ∧
    (∃ (s : State) (pos : BitVec 16) (slot : BitVec 16) (d : DmaRun), (List.find? (fun d => d.pos == pos.toNat && d.slot ==
      slot.toNat) s.sq.dmaRunning = some d) ∧ s.ms.poisoned = [] ∧ s.ms.latent = [] ∧ heldBehind s (((ownRec s).templates.getD
      d.template { }).dmas.getD d.slot { }) d = true) ∧
    (∃ (s : State) (pos : BitVec 16) (slot : BitVec 16) (d : DmaRun), (List.find? (fun d => d.pos == pos.toNat && d.slot ==
      slot.toNat) s.sq.dmaRunning = some d) ∧ s.ms.poisoned = [] ∧ s.ms.latent = [] ∧ heldBehind s (((ownRec s).templates.getD
      d.template { }).dmas.getD d.slot { }) d = false ∧ isFrozen s 2 (((ownRec s).templates.getD d.template { }).dmas.getD d.slot { }).core
      = true) ∧
    (∃ (s : State) (pos : BitVec 16) (slot : BitVec 16) (d : DmaRun), (List.find? (fun d => d.pos == pos.toNat && d.slot ==
      slot.toNat) s.sq.dmaRunning = some d) ∧ s.ms.poisoned = [] ∧ s.ms.latent = [] ∧ heldBehind s (((ownRec s).templates.getD
      d.template { }).dmas.getD d.slot { }) d = false ∧ isFrozen s 2 (((ownRec s).templates.getD d.template { }).dmas.getD d.slot { }).core
      = false ∧ (((ownRec s).templates.getD d.template { }).dmas.getD d.slot { }).dir = 0 ∧ coreFrozen s (((ownRec s).templates.getD
      d.template { }).dmas.getD d.slot { }).core = true) ∧
    (∃ (s : State) (pos : BitVec 16) (slot : BitVec 16) (d : DmaRun), (List.find? (fun d => d.pos == pos.toNat && d.slot ==
      slot.toNat) s.sq.dmaRunning = some d) ∧ s.ms.poisoned = [] ∧ s.ms.latent = [] ∧ heldBehind s (((ownRec s).templates.getD
      d.template { }).dmas.getD d.slot { }) d = false ∧ isFrozen s 2 (((ownRec s).templates.getD d.template { }).dmas.getD d.slot { }).core
      = false ∧ (((ownRec s).templates.getD d.template { }).dmas.getD d.slot { }).dir = 0 ∧ coreFrozen s (((ownRec s).templates.getD
      d.template { }).dmas.getD d.slot { }).core = false) ∧
    (∃ (s : State) (pos : BitVec 16) (slot : BitVec 16) (d : DmaRun), (List.find? (fun d => d.pos == pos.toNat && d.slot ==
      slot.toNat) s.sq.dmaRunning = some d) ∧ s.ms.poisoned = [] ∧ s.ms.latent = [] ∧ heldBehind s (((ownRec s).templates.getD
      d.template { }).dmas.getD d.slot { }) d = false ∧ isFrozen s 2 (((ownRec s).templates.getD d.template { }).dmas.getD d.slot { }).core
      = false ∧ (((ownRec s).templates.getD d.template { }).dmas.getD d.slot { }).dir ≠ 0) ∧
    (∃ (s : State) (stream : BitVec 16) (page : BitVec 14) (others : Bool) (t : Stream) (c : Nat × Nat × Bool), getStream s
      stream.toNat = some t ∧ (List.find? (fun c => c.1 == page.toNat && !c.2.2) t.copies = some c) ∧ isHeadframe s = true ∧ others =
      false) ∧
    (∃ (s : State) (stream : BitVec 16) (page : BitVec 14) (others : Bool) (t : Stream) (c : Nat × Nat × Bool), getStream s
      stream.toNat = some t ∧ (List.find? (fun c => c.1 == page.toNat && !c.2.2) t.copies = some c) ∧ (isHeadframe s = false ∨ others
      = true) ∧ ownChannel s t.set.channel = false) ∧
    (∃ (s : State) (stream : BitVec 16) (page : BitVec 14) (others : Bool) (t : Stream) (c : Nat × Nat × Bool), getStream s
      stream.toNat = some t ∧ (List.find? (fun c => c.1 == page.toNat && !c.2.2) t.copies = some c) ∧ (isHeadframe s = false ∨ others
      = true) ∧ ownChannel s t.set.channel = true ∧ tblGet 0 t.pages page.toNat ≠ 0) ∧
    (∃ (s : State) (slot : BitVec 16) (l : Live) (r : Ring), s.sq.live = some l ∧ (liveTemplate s).rings[slot.toNat]? = some r ∧
      l.cycle / 2 = r.send ∧ l.done.contains (4, slot.toNat) = false) ∧
    (∃ (s : State) (src : BitVec 6) (pos : BitVec 16) (slot : BitVec 16) (index : BitVec 16) (x : Pos) (r : Ring), ringSlot s
      src.toNat pos.toNat slot.toNat = some (x, r) ∧ x.layout = s.sq.layout ∧ s.sq.emptyRound = false ∧ onPath s src.toNat r = true ∧
      isFrozen s 4 (timedSource src.toNat r.srcCore) = false ∧ findTransfer s src.toNat pos.toNat slot.toNat = none ∧ index = 0 ∧ 0 <
      flitCount r.bytes) ∧
    (∃ (s : State) (src : BitVec 6) (pos : BitVec 16) (slot : BitVec 16) (x : Pos) (r : Ring) (y : Transfer), ringSlot s src.toNat
      pos.toNat slot.toNat = some (x, r) ∧ findTransfer s src.toNat pos.toNat slot.toNat = some y ∧ y.dropped = false ∧ flitCount
      r.bytes * 246 ≤ y.data.length ∧ linkTicks r.bytes ≤ roundTick s - releaseTick s src.toNat x r ∧ y.released < linkTicks r.bytes)
      ∧
    (∃ (s : State) (src : BitVec 6) (pos : BitVec 16) (slot : BitVec 16) (x : Pos) (r : Ring) (y : Transfer), ringSlot s src.toNat
      pos.toNat slot.toNat = some (x, r) ∧ findTransfer s src.toNat pos.toNat slot.toNat = some y ∧ y.dropped = false ∧ r.dstDevice =
      ownPosition s ∧ x.layout = s.sq.layout ∧ s.sq.emptyRound = false ∧ y.arrived ≠ 0 ∧ y.fromCopy = false ∧ y.arrived < min (480 *
      y.released) r.bytes / 64) ∧
    (∃ (s : State) (read : ErrRead) (f : Standing) (x : Pos), feedSlot (ownRec s) read.subject.toNat = some f ∧ posAt s
      read.subject.toNat = some x ∧ s.sq.emptyRound = false ∧ x.layout = s.sq.layout ∧ s.sq.recordsTaken.contains read.subject.toNat =
      false ∧ coreFrozen s f.core = false ∧ (if 1 < ringCount s then s.sq.recordsIn.contains read.subject.toNat = true else s.sq.live
      = none ∧ lastEnd (ownRec s) s.sq.layout ≤ roundTick s)) :=
  ⟨⟨withFrozen (onBeat { templates := [{ dmas := [{}] }] } {}) 2 0, 0, {}, {}, by decide⟩,
   ⟨onBeat { templates := [{ dmas := [{ dir := 1 }] }] } {}, 0, {}, { dir := 1 }, by decide⟩,
   ⟨onBeat { templates := [{ dmas := [{}] }] } {}, 0, {}, {}, by decide⟩,
   ⟨{ onBeat { templates := [{ dmas := [{ mode := 1 }] }] } {} with sq := { (onBeat { templates := [{ dmas := [{ mode := 1 }] }] } {}).sq with runs := [{ stream := 0, vectors := 1, firstPos := 1 }] } }, 0, {}, { mode := 1 }, by decide⟩,
   ⟨granted (onBeat { templates := [{ dmas := [{}] }] } {}) 0, 0, {}, {}, by decide⟩,
   ⟨{ { planned { templates := [{ dmas := [{ dir := 1, mode := 1, bytes := 4096, addr := 72057594037927936 }, { mode := 1, bytes := 65536 }] }] } with sq := { (planned { templates := [{ dmas := [{ dir := 1, mode := 1, bytes := 4096, addr := 72057594037927936 }, { mode := 1, bytes := 65536 }] }] }).sq with dmaRunning := [{ run := some { stream := 0 }, data := List.replicate 64 0 }, { slot := 1, run := some { stream := 0, firstPos := 1 } }] } } with streams := [(0, some { aStream with pages := [(0, 1)] })] }, 0, 1, { slot := 1, run := some { stream := 0, firstPos := 1 } }, by decide⟩,
   ⟨withFrozen ({ planned { templates := [{ dmas := [{}] }] } with sq := { (planned { templates := [{ dmas := [{}] }] }).sq with dmaRunning := [{}] } }) 2 0, 0, 0, {}, by decide⟩,
   ⟨withFrozen ({ planned { templates := [{ dmas := [{}] }] } with sq := { (planned { templates := [{ dmas := [{}] }] }).sq with dmaRunning := [{}] } }) 3 0, 0, 0, {}, by decide⟩,
   ⟨{ planned { templates := [{ dmas := [{}] }] } with sq := { (planned { templates := [{ dmas := [{}] }] }).sq with dmaRunning := [{}] } }, 0, 0, {}, by decide⟩,
   ⟨{ planned { templates := [{ dmas := [{ dir := 1 }] }] } with sq := { (planned { templates := [{ dmas := [{ dir := 1 }] }] }).sq with dmaRunning := [{}] } }, 0, 0, {}, by decide⟩,
   ⟨{ rdy with streams := [(0, some { copies := [(0, 1, false)], pages := [(0, 2)], set := { channel := 0 } })] }, 0, 0, false, { copies := [(0, 1, false)], pages := [(0, 2)], set := { channel := 0 } }, (0, 1, false), by decide⟩,
   ⟨{ planned {} with streams := [(0, some { copies := [(0, 1, false)], pages := [(0, 2)], set := { channel := 1 } })] }, 0, 0, true, { copies := [(0, 1, false)], pages := [(0, 2)], set := { channel := 1 } }, (0, 1, false), by decide⟩,
   ⟨{ rdy with streams := [(0, some { copies := [(0, 1, false)], pages := [(0, 2)], set := { channel := 0 } })] }, 0, 0, true, { copies := [(0, 1, false)], pages := [(0, 2)], set := { channel := 0 } }, (0, 1, false), by decide⟩,
   ⟨onBeat { templates := [{ rings := [{ send := 1 }] }] } { cycle := 2 }, 0, { cycle := 2 }, { send := 1 }, by decide⟩,
   ⟨onRing {} [], 1, 0, 0, 0, {}, {}, by decide⟩,
   ⟨{ onRing {} [{ src := 1, data := List.replicate 246 0 }] with power := { rdy.power with rtb := 100 } }, 1, 0, 0, {}, {}, { src := 1, data := List.replicate 246 0 }, by decide⟩,
   ⟨onRing { bytes := 4096 } [{ src := 1, released := 1, arrived := 1, data := List.replicate 480 0 }], 1, 0, 0, {}, { bytes := 4096 }, { src := 1, released := 1, arrived := 1, data := List.replicate 480 0 }, by decide⟩,
   ⟨{ planned { positions := [{}], standing := [{ feed := true }] } with sq := { (planned { positions := [{}], standing := [{ feed := true }] }).sq with recordsIn := [0] }, ri := { rdy.ri with count := 2 } }, ⟨0, []⟩, { feed := true }, {}, by decide⟩⟩

/-- The hypotheses of `Obligations.TimedTransfers`, clause by clause. -/
theorem witness_TimedTransfers :
    (∃ (s : State) (slot : BitVec 16) (l : Live) (r : Ring), s.sq.live = some l ∧ (liveTemplate s).rings[slot.toNat]? = some r ∧
      l.cycle / 2 = r.send ∧ l.done.contains (4, slot.toNat) = false) ∧
    (∃ (r : Ring) (x : Sending), x.ecc = [] ∧ x.ticks + 1 < linkTicks r.bytes) ∧
    (∃ (r : Ring) (x : Sending), x.ecc = [] ∧ linkTicks r.bytes ≤ x.ticks + 1) ∧
    (∃ (s : State) (src : BitVec 6) (pos : BitVec 16) (slot : BitVec 16) (index : BitVec 16) (ok : Bool) (poison : Bool) (x : Pos)
      (r : Ring), ringSlot s src.toNat pos.toNat slot.toNat = some (x, r) ∧ x.layout = s.sq.layout ∧ s.sq.emptyRound = false ∧ onPath
      s src.toNat r = true ∧ ((findTransfer s src.toNat pos.toNat slot.toNat).getD { src := src.toNat, pos := pos.toNat, slot := slot.toNat, round := s.sq.round }).data.length
      = 246 * index.toNat ∧ index.toNat < flitCount r.bytes ∧ ((findTransfer s src.toNat pos.toNat slot.toNat).getD { src := src.toNat, pos := pos.toNat, slot := slot.toNat, round := s.sq.round }).dropped
      = false ∧ isFrozen s 4 (timedSource src.toNat r.srcCore) = false ∧ ok = true ∧ poison = false) ∧
    (∃ (s : State) (src : BitVec 6) (pos : BitVec 16) (slot : BitVec 16) (index : BitVec 16) (ok : Bool) (poison : Bool) (x : Pos)
      (r : Ring), ringSlot s src.toNat pos.toNat slot.toNat = some (x, r) ∧ x.layout = s.sq.layout ∧ s.sq.emptyRound = false ∧ onPath
      s src.toNat r = true ∧ ((findTransfer s src.toNat pos.toNat slot.toNat).getD { src := src.toNat, pos := pos.toNat, slot := slot.toNat, round := s.sq.round }).data.length
      = 246 * index.toNat ∧ index.toNat < flitCount r.bytes ∧ ((findTransfer s src.toNat pos.toNat slot.toNat).getD { src := src.toNat, pos := pos.toNat, slot := slot.toNat, round := s.sq.round }).dropped
      = false ∧ isFrozen s 4 (timedSource src.toNat r.srcCore) = false ∧ (ok = false ∨ poison = true)) ∧
    (∃ (s : State) (src : BitVec 6) (pos : BitVec 16) (slot : BitVec 16) (x : Pos) (r : Ring) (t : Transfer), ringSlot s src.toNat
      pos.toNat slot.toNat = some (x, r) ∧ findTransfer s src.toNat pos.toNat slot.toNat = some t ∧ t.dropped = false ∧ min (if
      flitCount r.bytes * 246 ≤ t.data.length then linkTicks r.bytes else t.data.length / 480) (min (linkTicks r.bytes) (roundTick s -
      releaseTick s src.toNat x r)) ≤ t.released) ∧
    (∃ (s : State) (src : BitVec 6) (pos : BitVec 16) (slot : BitVec 16) (x : Pos) (r : Ring) (t : Transfer), ringSlot s src.toNat
      pos.toNat slot.toNat = some (x, r) ∧ findTransfer s src.toNat pos.toNat slot.toNat = some t ∧ t.dropped = false ∧ t.released <
      min (if flitCount r.bytes * 246 ≤ t.data.length then linkTicks r.bytes else t.data.length / 480) (min (linkTicks r.bytes)
      (roundTick s - releaseTick s src.toNat x r)) ∧ r.dstDevice = ownPosition s) ∧
    (∃ (s : State) (src : BitVec 6) (pos : BitVec 16) (slot : BitVec 16) (x : Pos) (r : Ring) (t : Transfer), ringSlot s src.toNat
      pos.toNat slot.toNat = some (x, r) ∧ findTransfer s src.toNat pos.toNat slot.toNat = some t ∧ t.dropped = false ∧ t.released <
      min (if flitCount r.bytes * 246 ≤ t.data.length then linkTicks r.bytes else t.data.length / 480) (min (linkTicks r.bytes)
      (roundTick s - releaseTick s src.toNat x r)) ∧ r.dstDevice ≠ ownPosition s ∧ min (if flitCount r.bytes * 246 ≤ t.data.length
      then linkTicks r.bytes else t.data.length / 480) (min (linkTicks r.bytes) (roundTick s - releaseTick s src.toNat x r)) <
      linkTicks r.bytes) ∧
    (∃ (s : State) (src : BitVec 6) (pos : BitVec 16) (slot : BitVec 16) (x : Pos) (r : Ring) (t : Transfer), ringSlot s src.toNat
      pos.toNat slot.toNat = some (x, r) ∧ findTransfer s src.toNat pos.toNat slot.toNat = some t ∧ t.dropped = false ∧ t.released <
      min (if flitCount r.bytes * 246 ≤ t.data.length then linkTicks r.bytes else t.data.length / 480) (min (linkTicks r.bytes)
      (roundTick s - releaseTick s src.toNat x r)) ∧ r.dstDevice ≠ ownPosition s ∧ min (if flitCount r.bytes * 246 ≤ t.data.length
      then linkTicks r.bytes else t.data.length / 480) (min (linkTicks r.bytes) (roundTick s - releaseTick s src.toNat x r)) =
      linkTicks r.bytes) ∧
    (∃ (s : State) (src : BitVec 6) (pos : BitVec 16) (slot : BitVec 16) (x : Pos) (r : Ring), ringSlot s src.toNat pos.toNat
      slot.toNat = some (x, r) ∧ ((findTransfer s src.toNat pos.toNat slot.toNat).isSome = true ∨ (if ((findTransfer s src.toNat
      pos.toNat slot.toNat).getD { src := src.toNat, pos := pos.toNat, slot := slot.toNat, round := s.sq.round }).arrived = 0 ∨
      ((findTransfer s src.toNat pos.toNat slot.toNat).getD { src := src.toNat, pos := pos.toNat, slot := slot.toNat, round := s.sq.round }).fromCopy
      = true then slipCopy s r src.toNat pos.toNat slot.toNat else none).isSome = true) ∧ r.dstDevice = ownPosition s ∧ x.layout =
      s.sq.layout ∧ s.sq.emptyRound = false ∧ ((findTransfer s src.toNat pos.toNat slot.toNat).getD { src := src.toNat, pos := pos.toNat, slot := slot.toNat, round := s.sq.round }).dropped
      = false ∧ (((findTransfer s src.toNat pos.toNat slot.toNat).getD { src := src.toNat, pos := pos.toNat, slot := slot.toNat, round := s.sq.round }).arrived
      < min (480 * if (if ((findTransfer s src.toNat pos.toNat slot.toNat).getD { src := src.toNat, pos := pos.toNat, slot := slot.toNat, round := s.sq.round }).arrived
      = 0 ∨ ((findTransfer s src.toNat pos.toNat slot.toNat).getD { src := src.toNat, pos := pos.toNat, slot := slot.toNat, round := s.sq.round }).fromCopy
      = true then slipCopy s r src.toNat pos.toNat slot.toNat else none).isSome = true then min (linkTicks r.bytes) (roundTick s -
      releaseTick s src.toNat x r) else ((findTransfer s src.toNat pos.toNat slot.toNat).getD { src := src.toNat, pos := pos.toNat, slot := slot.toNat, round := s.sq.round }).released)
      r.bytes / 64)) ∧
    (∃ (r : Ring) (copy : Option Retained) (t : Transfer) (s : State), (copy.isSome = true ∨ retained s r = false) ∧ isFrozen s 4
      (timedSource t.src r.srcCore) = false ∧ coreFrozen s r.dstCore = false) ∧
    (∃ (s : State) (c : Nat) (w : Arrival) (i : Nat) (o : Nat), w.kind = 4 ∧ coreFrozen s c = false ∧ isFrozen s 4 w.who = false ∧
      fullSlot (getCore s c) w.off w.data.length = some (i, o)) ∧
    (∃ (s : State) (pos : BitVec 16) (f : Standing) (x : Pos), feedSlot (ownRec s) pos.toNat = some f ∧ posAt s pos.toNat = some x ∧
      1 < ringCount s ∧ s.sq.recordsIn.contains pos.toNat = true ∧ s.sq.emptyRound = false ∧ x.layout = s.sq.layout ∧
      s.sq.recordsTaken.contains pos.toNat = false ∧ coreFrozen s f.core = false ∧ isHeadframe s = true) ∧
    (∃ (data : List Byte) (x : InFlight) (j : Nat), x.prefill = false ∧ (recordEntry data j).1 ≤ x.vectors ∧ (recordEntry data
      j).2.1 < (recordEntry data j).1 ∧ (recordEntry data j).2.1 ≤ (recordEntry data j).2.2.1) ∧
    (∃ (data : List Byte) (x : InFlight) (j : Nat), x.prefill = false ∧ (x.vectors < (recordEntry data j).1 ∨ (recordEntry data j).1
      ≤ (recordEntry data j).2.1 ∨ (recordEntry data j).2.2.1 < (recordEntry data j).2.1)) :=
  ⟨⟨onBeat { templates := [{ launches := [{ posts := [(2, 0)] }], rings := [{ send := 1, stepOut := true }] }] } { cycle := 2, posted := [(0, 0, 0)] }, 0, { cycle := 2, posted := [(0, 0, 0)] }, { send := 1, stepOut := true }, by decide⟩,
   ⟨{ bytes := 4096 }, {}, by decide⟩,
   ⟨{}, {}, by decide⟩,
   ⟨onRing {} [], 1, 0, 0, 0, true, false, {}, {}, by decide⟩,
   ⟨onRing {} [], 1, 0, 0, 0, false, false, {}, {}, by decide⟩,
   ⟨onRing {} [{ src := 1 }], 1, 0, 0, {}, {}, { src := 1 }, by decide⟩,
   ⟨{ onRing {} [{ src := 1, data := List.replicate 246 0 }] with power := { rdy.power with rtb := 100 } }, 1, 0, 0, {}, {}, { src := 1, data := List.replicate 246 0 }, by decide⟩,
   ⟨{ onRing { bytes := 4096, dstDevice := 1 } [{ src := 1, data := List.replicate 480 0 }] with power := { rdy.power with rtb := 100 } }, 1, 0, 0, {}, { bytes := 4096, dstDevice := 1 }, { src := 1, data := List.replicate 480 0 }, by decide⟩,
   ⟨{ onRing { bytes := 4096, dstDevice := 1 } [{ src := 1, data := List.replicate 4182 0 }] with power := { rdy.power with rtb := 100 } }, 1, 0, 0, {}, { bytes := 4096, dstDevice := 1 }, { src := 1, data := List.replicate 4182 0 }, by decide⟩,
   ⟨onRing { bytes := 4096 } [{ src := 1, released := 1, data := List.replicate 480 0 }], 1, 0, 0, {}, { bytes := 4096 }, by decide⟩,
   ⟨{}, none, {}, rdy, by decide⟩,
   ⟨{ rdy with cores := [(0, { slots := [(0, { valid := true, full := true })] })] }, 0, { kind := 4, data := [0] }, 0, 0, by decide⟩,
   ⟨{ planned { positions := [{}], standing := [{ feed := true }] } with sq := { (planned { positions := [{}], standing := [{ feed := true }] }).sq with recordsIn := [0] }, ri := { rdy.ri with count := 2 } }, 0, { feed := true }, {}, by decide⟩,
   ⟨List.replicate 66 0 ++ [1], { vectors := 1 }, 0, by decide⟩,
   ⟨[], {}, 0, by decide⟩⟩

/-- The hypotheses of `Obligations.OwnerAndDeviceCommands`, clause by clause. -/
theorem witness_OwnerAndDeviceCommands :
    (∃ (s : State) (i : Issuer), starts s i 0 [] = true ∧ forHere s i = true) ∧
    (∃ (s : State) (i : Issuer) (f : Fetched), findFetched s i = some f ∧ starts s i 0 [] = true ∧ forHere s i = false) ∧
    (∃ (s : State) (i : Issuer) (owner : BitVec 8), starts s i 2 [owner.toNat] = true ∧ isHeadframe s = false) ∧
    (∃ (s : State) (i : Issuer) (f : Fetched), findFetched s i = some f ∧ f.sent = true) ∧
    (∃ (s : State) (i : Issuer) (f : Fetched), findFetched s i = some f ∧ f.sent = false) ∧
    (∃ (s : State) (i : Issuer), (∀ d ∈ s.sq.deferred, d.issuer ≠ i)) ∧
    (∃ (s : State) (i : Issuer), starts s i 1 [] = true ∧ isHeadframe s = true) ∧
    (∃ (s : State), freeOwner s = none) ∧
    (∃ (s : State) (o : Nat), freeOwner s = some o ∧ s.ke.state ≠ 2) ∧
    (∃ (s : State) (o : Nat) (p : Nat), tblWf { } s.ke.slots = true ∧ p ≠ o) ∧
    (∃ (s : State) (i : Issuer) (owner : BitVec 8), starts s i 2 [owner.toNat] = true ∧ isHeadframe s = true) ∧
    (∃ (s : State) (i : Issuer) (owner : BitVec 8) (gm : BitVec 8) (pm : BitVec 8) (wt : BitVec 8) (fill : BitVec 8) (gr : BitVec
      32) (gc : BitVec 32) (pr : BitVec 32) (pc : BitVec 32) (report : BitVec 64), starts s i 3 [owner.toNat, gm.toNat, pm.toNat,
      wt.toNat, fill.toNat, gr.toNat, gc.toNat, pr.toNat, pc.toNat, report.toNat] = true ∧ isHeadframe s = true) ∧
    (∃ (s : State) (i : Issuer) (owner : BitVec 8) (target : BitVec 8), isHeadframe s = true ∧ starts s i 4 [owner.toNat,
      target.toNat] = true ∧ planAdmitted s = true) ∧
    (∃ (s : State) (i : Issuer) (owner : BitVec 8) (target : BitVec 8), isHeadframe s = true ∧ starts s i 4 [owner.toNat,
      target.toNat] = true ∧ planAdmitted s = false) ∧
    (∃ (s : State) (i : Issuer) (owner : BitVec 8) (target : BitVec 8), isHeadframe s = true ∧ starts s i 5 [owner.toNat,
      target.toNat] = true ∧ planAdmitted s = true) ∧
    (∃ (s : State) (i : Issuer) (owner : BitVec 8) (target : BitVec 8), isHeadframe s = true ∧ starts s i 5 [owner.toNat,
      target.toNat] = true ∧ planAdmitted s = false) ∧
    (∃ (s : State) (i : Issuer) (owner : BitVec 8) (w : Owner), ownerRefusal s i owner.toNat = none ∧ owner.toNat ≠ 0 ∧ getOwner s
      owner.toNat = some w ∧ w.releaseCmd = none ∧ w.releasing = false) ∧
    (∃ (s : State) (i : Issuer) (owner : BitVec 8) (w : Owner) (target : BitVec 8), ownerRefusal s i owner.toNat = none ∧
      owner.toNat ≠ 0 ∧ getOwner s owner.toNat = some w ∧ target.toNat ≤ 31 ∧ fnLive s i.port (targetKey i target) = true) ∧
    (∃ (s : State) (i : Issuer) (owner : BitVec 8) (w : Owner) (target : BitVec 8), ownerRefusal s i owner.toNat = none ∧
      owner.toNat ≠ 0 ∧ getOwner s owner.toNat = some w ∧ w.bound.contains (i.port, targetKey i target) = true ∧ 1 < w.bound.length) ∧
    (∃ (s : State) (i : Issuer) (owner : BitVec 8) (w : Owner) (gm : BitVec 8) (pm : BitVec 8) (gc : BitVec 32) (pc : BitVec 32),
      ownerRefusal s i owner.toNat = none ∧ owner.toNat ≠ 0 ∧ getOwner s owner.toNat = some w ∧ gm.toNat ≤ 2 ∧ pm.toNat ≤ 2 ∧ (gm ≠ 0
      → gc ≠ 0) ∧ (pm ≠ 0 → pc ≠ 0)) ∧
    (∃ (mode : Nat), mode ≠ 0) ∧
    (∃ (s : State) (i : Issuer) (owner : BitVec 8) (token : BitVec 128), starts s i 6 [owner.toNat, token.toNat % 2 ^ 64,
      token.toNat / 2 ^ 64] = true ∧ isHeadframe s = true) ∧
    (∃ (s : State) (i : Issuer) (owner : BitVec 8) (token : BitVec 128) (w : Owner), (getFn s i.port (fnKey i)).hbArmed = true ∧
      (getFn s i.port (fnKey i)).hbExpired = false ∧ getOwner s owner.toNat = some w ∧ w.held = some i.port ∧ w.releasing = false ∧
      tokenDigest token = (getSlot s owner.toNat).token) ∧
    (∃ (s : State) (i : Issuer) (bf : BitVec 8) (share : BitVec 8), starts s i 51 [bf.toNat, share.toNat] = true ∧ fromHeadPf0 s i =
      true) ∧
    (∃ (s : State) (i : Issuer) (bf : BitVec 8) (share : BitVec 8), starts s i 51 [bf.toNat, share.toNat] = true ∧ fromHeadPf0 s i =
      false) ∧
    (∃ (bf : BitVec 8) (share : BitVec 8), bf.toNat ≤ 1 ∧ share ≠ 0 ∧ share.toNat ≤ 64) ∧
    (∃ (s : State) (i : Issuer) (owner : BitVec 8) (on : Bool) (live : Bool), starts s i 37 [owner.toNat, ofBool on + 2 * ofBool
      live] = true ∧ isHeadframe s = true ∧ ownerRefusal s i owner.toNat = none) ∧
    (∃ (s : State) (i : Issuer) (buffer : BitVec 64) (size : BitVec 32), starts s i 52 [buffer.toNat, size.toNat] = true ∧ forHere s
      i = true ∧ size.toNat < 64 + 64 * s.ri.members.length) ∧
    (∃ (s : State) (i : Issuer) (buffer : BitVec 64) (size : BitVec 32), starts s i 52 [buffer.toNat, size.toNat] = true ∧ forHere s
      i = true ∧ 64 + 64 * s.ri.members.length ≤ size.toNat ∧ i.origin = 255 ∧ fnDma s i.port i.fn.toNat = true) ∧
    (∃ (s : State) (i : Issuer) (vf : BitVec 8) (entry : BitVec 8) (pair : BitVec 16), forHere s i = true ∧ i.fn = 0 ∧ vf ≠ 0 ∧
      vf.toNat ≤ 31 ∧ entry.toNat ≤ 14 ∧ pair.toNat ≤ 255 ∧ (getQp s i.port pair.toNat).state = 0 ∧ tblGet 0 (getFn s i.port
      vf.toNat).queueMap entry.toNat = 0 ∧ (getQp s i.port pair.toNat).fn = 0 ∧ starts s i 56 [vf.toNat, entry.toNat, 1, pair.toNat] =
      true) ∧
    (∃ (s : State) (i : Issuer) (vf : BitVec 8) (entry : BitVec 8) (pair : BitVec 16), forHere s i = true ∧ i.fn = 0 ∧ vf ≠ 0 ∧
      vf.toNat ≤ 31 ∧ entry.toNat ≤ 14 ∧ pair.toNat ≤ 255 ∧ (getQp s i.port pair.toNat).state = 0 ∧ tblGet 0 (getFn s i.port
      vf.toNat).queueMap entry.toNat = pair.toNat + 1 ∧ starts s i 56 [vf.toNat, entry.toNat, 0, pair.toNat] = true) ∧
    (∃ (s : State) (i : Issuer) (o : Nat), i.origin = 255 ∧ o ≠ 0 ∧ getOwner s o = none) ∧
    (∃ (s : State) (i : Issuer) (o : Nat) (w : Owner), i.origin = 255 ∧ o ≠ 0 ∧ getOwner s o = some w ∧ w.keyGone = false ∧
      w.bound.contains (i.port, i.fn.toNat) = false) ∧
    (∃ (s : State) (port : Bool) (fn : BitVec 5) (page : BitVec 8) (v : BitVec 32) (p : Nat), barsOpen s port = true ∧ fnFrozen s
      port fn.toNat = false ∧ (getFn s port fn.toNat).inReset = false ∧ fnEnabled s port fn.toNat = true ∧ pairOf s port fn.toNat
      page.toNat = some p ∧ (getQp s port p).fn = fn.toNat ∧ (getQp s port p).state = 1 ∧ tblWf { } (getHp s port).qps = true ∧
      v.toNat % 4096 < sqDepth (getQp s port p)) ∧
    (∃ (s : State) (port : Bool) (fn : BitVec 5) (page : BitVec 8) (v : BitVec 32) (p : Nat), barsOpen s port = true ∧ fnFrozen s
      port fn.toNat = false ∧ (getFn s port fn.toNat).inReset = false ∧ fnEnabled s port fn.toNat = true ∧ pairOf s port fn.toNat
      page.toNat = some p ∧ (getQp s port p).fn = fn.toNat ∧ (getQp s port p).state = 1 ∧ tblWf { } (getHp s port).qps = true ∧
      v.toNat % 4096 < cqDepth (getQp s port p) ∧ (getQp s port p).cqHead + (v.toNat % 4096 + cqDepth (getQp s port p) - (getQp s port
      p).cqHead % cqDepth (getQp s port p)) % cqDepth (getQp s port p) ≤ (getQp s port p).cqTail) ∧
    (∃ (s : State) (port : Bool) (fn : BitVec 5) (d : List (BitVec 32)) (p : Nat), (getFn s port fn.toNat).inReset = false ∧ (getHp
      s port).up = true ∧ fnEnabled s port fn.toNat = true ∧ 5 ≤ s.power.state.code ∧ tblWf { } (getHp s port).qps = true ∧ (fn = 0 ∨
      bits (d.getD 0 0).toNat 0 8 ≤ 14) ∧ bits (d.getD 0 0).toNat 8 8 = 0 ∧ pairOf s port fn.toNat (bits (d.getD 0 0).toNat 0 8) =
      some p ∧ (getQp s port p).fn = fn.toNat) ∧
    (∃ (s : State) (port : Bool) (pair : BitVec 8) (e : List (BitVec 8)), (getQp s port pair.toNat).state = 1 ∧ (getQp s port
      pair.toNat).sqHead ≠ (getQp s port pair.toNat).sqTail ∧ cqFree (getQp s port pair.toNat) ≠ 0 ∧ fnDma s port (getQp s port
      pair.toNat).fn = true ∧ barsOpen s port = true ∧ firmwareRuns s = true ∧ 5 ≤ s.power.state.code ∧ (getHdr s (pgHp port)).en =
      true ∧ hostReadsOut s port + 64 ≤ 262144 ∧ entryRefusal s port (getQp s port pair.toNat).fn e = none ∧ tblWf { } (getHp s
      port).qps = true) ∧
    (∃ (s : State) (port : Bool) (pair : BitVec 8) (n : Nat), (getQp s port pair.toNat).signalAt = some n ∧ n ≤ s.clock ∧ fnDma s
      port (getQp s port pair.toNat).fn = true ∧ (getQp s port pair.toNat).signalled = false ∧ (getHp s port).up = true ∧ tblWf { }
      (getHp s port).qps = true) :=
  ⟨⟨fetched 0, pf, by decide⟩,
   ⟨{ rdy with hpA := { rdy.hpA with fetched := [{ device := 1 }] } }, pf, { device := 1 }, by decide⟩,
   ⟨{ fetched 2 with ri := { rdy.ri with hf := false } }, pf, 0, by decide⟩,
   ⟨{ rdy with hpA := { rdy.hpA with fetched := [{ sent := true }] } }, pf, { sent := true }, by decide⟩,
   ⟨fetched 0, pf, {}, by decide⟩,
   ⟨rdy, pf, by decide⟩,
   ⟨{ fetched 1 with owners := (List.range 255).map (fun n => (n + 1, some anOwner)) }, pf, by decide⟩,
   ⟨{ rdy with owners := (List.range 255).map (fun n => (n + 1, some anOwner)) }, by decide⟩,
   ⟨rdy, 2, by decide⟩,
   ⟨rdy, 0, 1, by decide⟩,
   ⟨fetched 2, pf, 0, by decide⟩,
   ⟨fetched 3, pf, 0, 0, 0, 0, 0, 0, 0, 0, 0, 0, by decide⟩,
   ⟨{ planned {} with hpA := (fetched 4).hpA }, pf, 0, 0, by decide⟩,
   ⟨fetched 4, pf, 0, 0, by decide⟩,
   ⟨{ planned {} with hpA := (fetched 5).hpA }, pf, 0, 0, by decide⟩,
   ⟨fetched 5, pf, 0, 0, by decide⟩,
   ⟨fetched 2, pf, 1, anOwner, by decide⟩,
   ⟨fetched 4, pf, 1, anOwner, 0, by decide⟩,
   ⟨{ fetched 5 with owners := [(1, some { bound := [(false, 0), (false, 1)] })] }, pf, 1, { bound := [(false, 0), (false, 1)] }, 0, by decide⟩,
   ⟨fetched 3, pf, 1, anOwner, 0, 0, 0, 0, by decide⟩,
   ⟨1, by decide⟩,
   ⟨fetched 6, pf, 0, 0, by decide⟩,
   ⟨{ fetched 6 with hpA := { (fetched 6).hpA with fns := [(0, { busMaster := true, hbArmed := true })] }, ke := { rdy.ke with slots := [(1, { state := 1, token := tokenDigest 0 })] } }, pf, 1, 0, anOwner, by decide, by decide, by decide, by decide, by decide, rfl⟩,
   ⟨fetched 51, pf, 0, 0, by decide⟩,
   ⟨{ fetched 51 with ri := { rdy.ri with hf := false } }, pf, 0, 0, by decide⟩,
   ⟨1, 64, by decide⟩,
   ⟨fetched 37, pf, 0, false, false, by decide⟩,
   ⟨fetched 52, pf, 0, 0, by decide⟩,
   ⟨{ rdy with hpA := { rdy.hpA with fetched := [{ opcode := 52, params := [0, 0, 0, 0, 0, 0, 0, 0, 64] }] } }, pf, 0, 64, by decide⟩,
   ⟨{ rdy with hpA := { rdy.hpA with fetched := [{ opcode := 56, params := [31, 14, 1, 0, 255] }] } }, pf, 31, 14, 255, by decide⟩,
   ⟨{ rdy with hpA := { rdy.hpA with fetched := [{ opcode := 56, params := [1] }], fns := [(1, { queueMap := [(0, 1)] })] } }, pf, 1, 0, 0, by decide⟩,
   ⟨rdy, pf, 9, by decide⟩,
   ⟨rdy, ⟨false, 1, 0, 0, 0xFF⟩, 1, anOwner, by decide⟩,
   ⟨{ rdy with hpA := { rdy.hpA with qps := [(0, { state := 1 })] } }, false, 0, 0, 15, 0, by decide⟩,
   ⟨{ rdy with hpA := { rdy.hpA with qps := [(0, { state := 1 })] } }, false, 0, 0, 0, 0, by decide⟩,
   ⟨rdy, false, 0, [], 0, by decide⟩,
   ⟨{ rdy with hpA := { rdy.hpA with qps := [(0, { state := 1, sqTail := 1 })] } }, false, 0, [0, 0, 0, 0, 0, 0xFF], by decide⟩,
   ⟨{ rdy with hpA := { rdy.hpA with qps := [(0, { signalAt := some 0 })] } }, false, 0, 0, by decide⟩⟩

/-- The hypotheses of `Obligations.StreamCommandsOnOpenStreams`, clause by clause. -/
theorem witness_StreamCommandsOnOpenStreams :
    (∃ (s : State) (i : Issuer) (owner : BitVec 8) (b : List (BitVec 8)) (pair : BitVec 16) (ps : PlanSet) (c : Settings) (sid :
      Nat), ownerRefusal s i owner.toNat = none ∧ s.sq.planSet = some ps ∧ parseSettings { } b 2047 ps.channels = some c ∧ (i.origin ≠
      255 ∨ pairOk s i pair.toNat = true) ∧ (s.ke.state ≠ 2 ∨ c.seed ≠ none) ∧ soloBusy s none c = false ∧ freeStream s = some sid) ∧
    (∃ (s : State) (i : Issuer) (owner : BitVec 8) (pair : BitVec 16), isHeadframe s = true ∧ hostReadable s i 128 = true ∧ starts s
      i 16 [owner.toNat, pair.toNat] = true) ∧
    (∃ (s : State) (i : Issuer) (owner : BitVec 8) (stream : BitVec 16) (count : BitVec 32), isHeadframe s = true ∧ hostReadable s i
      (4 * count.toNat) = true ∧ starts s i 17 [owner.toNat, stream.toNat, count.toNat] = true ∧ count.toNat ≤ 65536 ∧ (∀ d ∈
      s.sq.deferred, d.issuer ≠ i) ∧ s.promptUsed + count.toNat ≤ 16777216) ∧
    (∃ (s : State) (i : Issuer) (owner : BitVec 8) (stream : BitVec 16) (count : BitVec 32), isHeadframe s = true ∧ hostReadable s i
      (4 * count.toNat) = true ∧ starts s i 17 [owner.toNat, stream.toNat, count.toNat] = true ∧ count.toNat ≤ 65536 ∧ (∀ d ∈
      s.sq.deferred, d.issuer ≠ i) ∧ 16777216 < s.promptUsed + count.toNat) ∧
    (∃ (s : State) (i : Issuer) (owner : BitVec 8) (stream : BitVec 16) (mask : BitVec 32), isHeadframe s = true ∧ hostReadable s i
      128 = true ∧ starts s i 18 [owner.toNat, stream.toNat, mask.toNat] = true) ∧
    (∃ (s : State) (i : Issuer) (owner : BitVec 8) (stream : BitVec 16), isHeadframe s = true ∧ starts s i 20 [owner.toNat,
      stream.toNat] = true) ∧
    (∃ (s : State) (i : Issuer) (owner : BitVec 8) (stream : BitVec 16) (l : BitVec 32), isHeadframe s = true ∧ starts s i 21
      [owner.toNat, stream.toNat, l.toNat] = true) ∧
    (∃ (s : State) (i : Issuer) (addr : BitVec 64) (size : BitVec 32), isHeadframe s = true ∧ starts s i 26 [addr.toNat, size.toNat]
      = true) ∧
    (∃ (s : State) (i : Issuer) (owner : BitVec 8) (stream : BitVec 16) (t : Stream) (count : BitVec 32), streamOf s i owner.toNat
      stream.toNat = Except.ok t ∧ count ≠ 0 ∧ count.toNat ≤ 65536 ∧ (t.state = 1 ∨ t.state = 4) ∧ t.closing = 0 ∧ t.pausing = false)
      ∧
    (∃ (s : State) (i : Issuer) (owner : BitVec 8) (stream : BitVec 16) (t : Stream) (mask : BitVec 32) (b : List (BitVec 8)) (c :
      Settings), streamOf s i owner.toNat stream.toNat = Except.ok t ∧ t.state ≠ 10 ∧ mask.getLsbD 0 = false ∧ parseSettings
      (t.setNext.getD t.set) b mask.toNat (channels s) = some c ∧ (s.ke.state ≠ 2 ∨ c.seed ≠ none) ∧ soloBusy s (some stream.toNat) c
      = false) ∧
    (∃ (s : State) (i : Issuer) (owner : BitVec 8) (stream : BitVec 16) (t : Stream) (sid : Nat), streamOf s i owner.toNat
      stream.toNat = Except.ok t ∧ t.state = 4 ∧ t.closing = 0 ∧ t.pausing = false ∧ t.setDue.solo = false ∧ freeStream s = some sid)
      ∧
    (∃ (s : State) (i : Issuer) (owner : BitVec 8) (stream : BitVec 16) (t : Stream) (length : BitVec 32), streamOf s i owner.toNat
      stream.toNat = Except.ok t ∧ t.state = 4 ∧ t.closing = 0 ∧ t.pausing = false ∧ (length = 0 ∨ t.length < length.toNat)) ∧
    (∃ (s : State) (i : Issuer) (owner : BitVec 8) (stream : BitVec 16) (t : Stream) (length : BitVec 32), streamOf s i owner.toNat
      stream.toNat = Except.ok t ∧ t.state = 4 ∧ t.closing = 0 ∧ t.pausing = false ∧ length ≠ 0 ∧ length.toNat ≤ t.length) ∧
    (∃ (s : State) (i : Issuer) (owner : BitVec 8) (stream : BitVec 16) (t : Stream) (report : BitVec 64), streamOf s i owner.toNat
      stream.toNat = Except.ok t ∧ isHeadframe s = true ∧ starts s i 19 [owner.toNat, stream.toNat, report.toNat] = true ∧ t.state =
      4) ∧
    (∃ (s : State) (i : Issuer) (owner : BitVec 8) (stream : BitVec 16) (t : Stream) (buffer : BitVec 64) (first : BitVec 32) (count
      : BitVec 32), streamOf s i owner.toNat stream.toNat = Except.ok t ∧ isHeadframe s = true ∧ starts s i 25 [owner.toNat,
      stream.toNat, buffer.toNat, first.toNat, count.toNat] = true ∧ count ≠ 0 ∧ count.toNat ≤ 4096 ∧ t.histBase ≤ first.toNat ∧
      first.toNat + count.toNat ≤ t.histBase + t.history.length) ∧
    (∃ (s : State) (i : Issuer) (addr : BitVec 64) (size : BitVec 32), size.toNat ≤ 1024 ∧ addr.toNat % 4096 = 0 ∧ (getFn s i.port
      (fnKey i)).tierSize = 0) :=
  ⟨⟨{ planned {} with hpA := { (fetched 16).hpA with qps := [(0, { state := 1 })] } }, pf, 1, [0, 0, 0, 0, 0, 0, 0x80, 0x3F, 0, 0, 0x80, 0x3F, 0, 1, 1, 0, 0, 8, 0, 0, 0x58, 2, 0, 0], 0, { plans := [{ layouts := [{}], recs := [{}] }] }, {}, 1, by decide⟩,
   ⟨fetched 16, pf, 0, 0, by decide⟩,
   ⟨{ rdy with hpA := { rdy.hpA with fetched := [{ opcode := 17, params := [0, 0, 0, 0, 0, 0, 0, 0, 0, 0, 0, 0, 0, 0, 1] }] } }, pf, 0, 0, 65536, by decide⟩,
   ⟨{ rdy with hpA := { rdy.hpA with fetched := [{ opcode := 17, params := [0, 0, 0, 0, 0, 0, 0, 0, 0, 0, 0, 0, 1] }] }, promptUsed := 16777216 }, pf, 0, 0, 1, by decide⟩,
   ⟨fetched 18, pf, 0, 0, 0, by decide⟩,
   ⟨fetched 20, pf, 0, 0, by decide⟩,
   ⟨fetched 21, pf, 0, 0, 0, by decide⟩,
   ⟨fetched 26, pf, 0, 0, by decide⟩,
   ⟨{ fetched 17 with streams := [(0, some { aStream with state := 1 })] }, pf, 1, 0, { aStream with state := 1 }, 1, by decide⟩,
   ⟨{ planned {} with hpA := (fetched 18).hpA }, pf, 1, 0, aStream, 0, [], {}, by decide⟩,
   ⟨{ fetched 20 with streams := [(0, some aStream)] }, pf, 1, 0, aStream, 1, by decide⟩,
   ⟨{ fetched 21 with streams := [(0, some aStream)] }, pf, 1, 0, aStream, 0, by decide⟩,
   ⟨{ fetched 21 with streams := [(0, some { aStream with length := 10 })] }, pf, 1, 0, { aStream with length := 10 }, 1, by decide⟩,
   ⟨{ rdy with hpA := { rdy.hpA with fetched := [{ opcode := 19, owner := 1 }] } }, pf, 1, 0, aStream, 0, by decide⟩,
   ⟨{ rdy with hpA := { rdy.hpA with fetched := [{ opcode := 25, owner := 1, params := [0, 0, 0, 0, 0, 0, 0, 0, 0, 0, 0, 0, 0, 0, 0, 0, 1] }] }, streams := [(0, some { aStream with history := [0] })] }, pf, 1, 0, { aStream with history := [0] }, 0, 0, 1, by decide⟩,
   ⟨fetched 26, pf, 0, 1024, by decide⟩⟩

/-- The hypotheses of `Obligations.PauseResumeAndClose`, clause by clause. -/
theorem witness_PauseResumeAndClose :
    (∃ (s : State) (i : Issuer) (owner : BitVec 8) (stream : BitVec 16) (ttl : BitVec 32), isHeadframe s = true ∧ starts s i 22
      [owner.toNat, stream.toNat, ttl.toNat] = true) ∧
    (∃ (s : State) (i : Issuer) (owner : BitVec 8) (stream : BitVec 16), isHeadframe s = true ∧ starts s i 23 [owner.toNat,
      stream.toNat] = true) ∧
    (∃ (s : State) (i : Issuer) (owner : BitVec 8) (stream : BitVec 16), isHeadframe s = true ∧ starts s i 24 [owner.toNat,
      stream.toNat] = true) ∧
    (∃ (s : State) (i : Issuer) (owner : BitVec 8) (stream : BitVec 16) (t : Stream) (ttl : BitVec 32), streamOf s i owner.toNat
      stream.toNat = Except.ok t ∧ ttl.toNat ≤ 86400 ∧ (t.state = 2 ∨ t.state = 3 ∨ t.state = 4) ∧ t.closing = 0 ∧ t.pausing = false)
      ∧
    (∃ (s : State) (i : Issuer) (owner : BitVec 8) (stream : BitVec 16) (t : Stream), streamOf s i owner.toNat stream.toNat =
      Except.ok t ∧ t.state ≠ 10) ∧
    (∃ (s : State) (i : Issuer) (owner : BitVec 8) (stream : BitVec 16) (t : Stream) (f : Fetched), streamOf s i owner.toNat
      stream.toNat = Except.ok t ∧ findFetched s i = some f ∧ t.restoring = false ∧ t.expired = false ∧ (t.state = 6 ∨ t.state = 7) ∧
      4 * (t.pauseStart.toNat + t.pauseTtl * 100000000) ≤ f.fetchedAt) ∧
    (∃ (s : State) (i : Issuer) (owner : BitVec 8) (stream : BitVec 16) (t : Stream) (f : Fetched), streamOf s i owner.toNat
      stream.toNat = Except.ok t ∧ findFetched s i = some f ∧ t.restoring = false ∧ t.expired = false ∧ f.fetchedAt < 4 *
      (t.pauseStart.toNat + t.pauseTtl * 100000000) ∧ t.closing = 0 ∧ t.state = 7) ∧
    (∃ (s : State) (i : Issuer) (owner : BitVec 8) (stream : BitVec 16) (t : Stream) (ok : Bool) (f : Fetched), streamOf s i
      owner.toNat stream.toNat = Except.ok t ∧ findFetched s i = some f ∧ t.restoring = false ∧ t.expired = false ∧ f.fetchedAt < 4 *
      (t.pauseStart.toNat + t.pauseTtl * 100000000) ∧ t.closing = 0 ∧ t.state = 6 ∧ (Option.map (fun x => x.modelId) s.sq.planSet =
      some t.imageModel) ∧ s.sq.kvGeom = t.imageGeom ∧ ok = true ∧ (ownChannel s t.set.channel = true → (t.length + 63) / 64 ≤
      framesFree s)) ∧
    (∃ (s : State) (stream : BitVec 16) (t : Stream) (n : Nat) (a : Nat), getStream s stream.toNat = some t ∧ atEdge s 2 = true ∧
      t.pausing = true ∧ t.inFlight = false ∧ tierFit s t.port t.pauseFn (max n (imageNeed s stream.toNat t)) = some a) ∧
    (∃ (s : State) (stream : BitVec 16) (t : Stream) (n : Nat), getStream s stream.toNat = some t ∧ atEdge s 2 = true ∧ t.pausing =
      true ∧ t.inFlight = false ∧ tierFit s t.port t.pauseFn (max n (imageNeed s stream.toNat t)) = none) ∧
    (∃ (s : State) (stream : BitVec 16) (t : Stream) (p : Bool × Nat × Nat), getStream s stream.toNat = some t ∧ (tblGet { }
      s.ke.pauseKeys stream.toNat).image = some p ∧ isHeadframe s = false) ∧
    (∃ (s : State) (stream : BitVec 16) (t : Stream) (p : Bool × Nat × Nat), getStream s stream.toNat = some t ∧ (tblGet { }
      s.ke.pauseKeys stream.toNat).image = some p ∧ isHeadframe s = true ∧ t.state = 5 ∧ t.imageDone = false) ∧
    (∃ (s : State) (stream : BitVec 16) (t : Stream), getStream s stream.toNat = some t ∧ isHeadframe s = true ∧ passDue s = true ∧
      (t.state = 6 ∨ t.state = 7) ∧ pauseExpired s t = true ∧ resumePending s stream.toNat t = false ∧ t.closing = 0 ∧ t.restoring =
      false) ∧
    (∃ (s : State) (stream : BitVec 16) (t : Stream) (image : List (BitVec 56 × List (BitVec 8))) (p : Bool × Nat × Nat), getStream
      s stream.toNat = some t ∧ isHeadframe s = true ∧ t.state = 8 ∧ (32 ≤ t.pauseFn ∨ t.issued ≠ 0 ∨ t.imageSize = 0) ∧ (tblGet { }
      s.ke.pauseKeys stream.toNat).image = some p ∧ (∀ e ∈ ownPages t, (openPage s stream.toNat image e.1).isSome = true)) ∧
    (∃ (s : State) (stream : BitVec 16) (t : Stream) (image : List (BitVec 56 × List (BitVec 8))) (p : Bool × Nat × Nat) (e : Nat ×
      Nat) (tail : List (Nat × Nat)), getStream s stream.toNat = some t ∧ isHeadframe s = true ∧ t.state = 8 ∧ (32 ≤ t.pauseFn ∨
      t.issued ≠ 0 ∨ t.imageSize = 0) ∧ (tblGet { } s.ke.pauseKeys stream.toNat).image = some p ∧ ownPages t = e :: tail ∧ openPage s
      stream.toNat image e.1 = none) :=
  ⟨⟨fetched 22, pf, 0, 0, 0, by decide⟩,
   ⟨fetched 23, pf, 0, 0, by decide⟩,
   ⟨{ rdy with hpA := { rdy.hpA with fetched := [{ opcode := 24, owner := 1 }] } }, pf, 1, 0, by decide⟩,
   ⟨{ fetched 22 with streams := [(0, some aStream)] }, pf, 1, 0, aStream, 86400, by decide⟩,
   ⟨{ rdy with streams := [(0, some aStream)] }, pf, 1, 0, aStream, by decide⟩,
   ⟨{ fetched 23 with streams := [(0, some { aStream with state := 6 })] }, pf, 1, 0, { aStream with state := 6 }, { opcode := 23 }, by decide⟩,
   ⟨{ fetched 23 with streams := [(0, some { aStream with state := 7, pauseTtl := 600 })] }, pf, 1, 0, { aStream with state := 7, pauseTtl := 600 }, { opcode := 23 }, by decide⟩,
   ⟨{ planned {} with hpA := (fetched 23).hpA, streams := [(0, some { aStream with state := 6, pauseTtl := 600 })] }, pf, 1, 0, { aStream with state := 6, pauseTtl := 600 }, true, { opcode := 23 }, by decide⟩,
   ⟨{ { rdy with hpA := { rdy.hpA with fns := [(0, { busMaster := true, tierSize := 1 })] }, streams := [(0, some { aStream with pausing := true })] } with sq := { ({ rdy with hpA := { rdy.hpA with fns := [(0, { busMaster := true, tierSize := 1 })] }, streams := [(0, some { aStream with pausing := true })] }).sq with edgeAt := some 4000000000, edgeKind := 2 } }, 0, { aStream with pausing := true }, 4096, 0, by decide⟩,
   ⟨{ { rdy with streams := [(0, some { aStream with pausing := true })] } with sq := { ({ rdy with streams := [(0, some { aStream with pausing := true })] }).sq with edgeAt := some 4000000000, edgeKind := 2 } }, 0, { aStream with pausing := true }, 4096, by decide⟩,
   ⟨{ rdy with streams := [(0, some { aStream with state := 5 })], ri := { rdy.ri with hf := false }, ke := { rdy.ke with pauseKeys := [(0, { image := some (false, 0, 0) })] } }, 0, { aStream with state := 5 }, (false, 0, 0), by decide⟩,
   ⟨{ rdy with streams := [(0, some { aStream with state := 5 })], ke := { rdy.ke with pauseKeys := [(0, { image := some (false, 0, 0) })] } }, 0, { aStream with state := 5 }, (false, 0, 0), by decide⟩,
   ⟨{ { rdy with streams := [(0, some { aStream with state := 6 })] } with sq := { ({ rdy with streams := [(0, some { aStream with state := 6 })] }).sq with lastIdleMs := 1 } }, 0, { aStream with state := 6 }, by decide⟩,
   ⟨{ rdy with streams := [(0, some { aStream with state := 8 })], ke := { rdy.ke with pauseKeys := [(0, { image := some (false, 0, 0) })] } }, 0, { aStream with state := 8 }, [], (false, 0, 0), by decide⟩,
   ⟨{ rdy with streams := [(0, some { aStream with state := 8, pages := [(0, 1)] })], ke := { rdy.ke with pauseKeys := [(0, { image := some (false, 0, 0) })] } }, 0, { aStream with state := 8, pages := [(0, 1)] }, [], (false, 0, 0), (0, 0), [], by decide⟩⟩

/-- The hypotheses of `Obligations.StackMemoryCommands`, clause by clause. -/
theorem witness_StackMemoryCommands :
    (∃ (s : State) (i : Issuer) (owner : BitVec 8) (addr : BitVec 64) (size : BitVec 64), forHere s i = true ∧ starts s i 32
      [owner.toNat, addr.toNat, size.toNat] = true ∧ ownerRefusal s i owner.toNat = none) ∧
    (∃ (s : State) (i : Issuer) (owner : BitVec 8) (addr : BitVec 64) (size : BitVec 64), forHere s i = true ∧ starts s i 33
      [owner.toNat, addr.toNat, size.toNat] = true ∧ ownerRefusal s i owner.toNat = none) ∧
    (∃ (s : State) (i : Issuer) (owner : BitVec 8) (addr : BitVec 64) (size : BitVec 64), forHere s i = true ∧ starts s i 32
      [owner.toNat, addr.toNat, size.toNat] = true ∧ (ownerRefusal s i owner.toNat).isSome = true) ∧
    (∃ (s : State) (a : Nat) (n : Nat), grantShape a n = true ∧ allHeld s.ms.extents (a / 4096) ((a + n) / 4096) 0 = true) ∧
    (∃ (s : State) (i : Issuer) (owner : BitVec 8) (addr : BitVec 64) (host : BitVec 64) (n : BitVec 32), forHere s i = true ∧
      ownerRefusal s i owner.toNat = none ∧ addr.toNat % 64 = 0 ∧ host.toNat % 64 = 0 ∧ n.toNat % 64 = 0 ∧ extentsGranted s
      owner.toNat addr.toNat n.toNat = true ∧ starts s i 34 [owner.toNat, addr.toNat, host.toNat, n.toNat] = true) ∧
    (∃ (s : State) (i : Issuer) (owner : BitVec 8) (addr : BitVec 64) (host : BitVec 64) (n : BitVec 32), forHere s i = true ∧
      ownerRefusal s i owner.toNat = none ∧ addr.toNat % 64 = 0 ∧ host.toNat % 64 = 0 ∧ n.toNat % 64 = 0 ∧ extentsGranted s
      owner.toNat addr.toNat n.toNat = true ∧ starts s i 35 [owner.toNat, addr.toNat, host.toNat, n.toNat] = true) ∧
    (∃ (s : State) (i : Issuer) (f : Fetched), findFetched s i = some f ∧ f.inEffect = true ∧ extentsGranted s f.owner (leAt
      f.params 0 8) (leAt f.params 16 4) = true ∧ f.dropped = false ∧ i.origin = 255 ∧ f.opcode = 34 ∧ (256 ≤ f.pair ∨ f.issued ≠ 0 ∨
      leAt f.params 16 4 = 0)) ∧
    (∃ (s : State) (i : Issuer) (f : Fetched), findFetched s i = some f ∧ f.inEffect = true ∧ extentsGranted s f.owner (leAt
      f.params 0 8) (leAt f.params 16 4) = true ∧ f.dropped = false ∧ i.origin = 255 ∧ f.opcode = 35 ∧ s.ms.poisoned = [] ∧
      s.ms.latent = [] ∧ fnDma s i.port i.fn.toNat = true) ∧
    (∃ (s : State) (port : Bool) (fn : BitVec 5) (off : BitVec 64) (data : List (BitVec 8)), barsOpen s port = true ∧ fnEnabled s
      port fn.toNat = true ∧ fnFrozen s port fn.toNat = false ∧ (getFn s port fn.toNat).inReset = false ∧ (fn ≠ 0 → (getFn s port
      fn.toNat).aptOwner ≠ 0) ∧ (s.power.state = PowerState.rom → fn ≠ 0) ∧ off.toNat + data.length ≤ apertureSize s port fn.toNat ∧
      meetsSump s ((getFn s port fn.toNat).aptBase * 2 ^ 30 + off.toNat) data.length = true) ∧
    (∃ (s : State) (port : Bool) (fn : BitVec 5) (off : BitVec 64) (n : Nat) (data : List (BitVec 8)), barsOpen s port = true ∧
      fnEnabled s port fn.toNat = true ∧ fnFrozen s port fn.toNat = false ∧ (getFn s port fn.toNat).inReset = false ∧ (fn ≠ 0 → (getFn
      s port fn.toNat).aptOwner ≠ 0) ∧ (s.power.state = PowerState.rom → fn ≠ 0) ∧ meetsSump s ((getFn s port fn.toNat).aptBase * 2 ^
      30 + off.toNat) n = false ∧ meetsSump s ((getFn s port fn.toNat).aptBase * 2 ^ 30 + off.toNat) data.length = false ∧ off.toNat +
      n ≤ apertureSize s port fn.toNat ∧ extentsGranted s (getFn s port fn.toNat).aptOwner ((getFn s port fn.toNat).aptBase * 2 ^ 30 +
      off.toNat) n = true ∧ s.ms.poisoned = [] ∧ s.ms.latent = []) ∧
    (∃ (s : State) (port : Bool) (fn : BitVec 5) (off : BitVec 64) (n : Nat) (data : List (BitVec 8)), barsOpen s port = true ∧
      fnEnabled s port fn.toNat = true ∧ fnFrozen s port fn.toNat = false ∧ (getFn s port fn.toNat).inReset = false ∧ (fn ≠ 0 → (getFn
      s port fn.toNat).aptOwner ≠ 0) ∧ (s.power.state = PowerState.rom → fn ≠ 0) ∧ meetsSump s ((getFn s port fn.toNat).aptBase * 2 ^
      30 + off.toNat) n = false ∧ meetsSump s ((getFn s port fn.toNat).aptBase * 2 ^ 30 + off.toNat) data.length = false ∧ off.toNat +
      n ≤ apertureSize s port fn.toNat ∧ extentsGranted s (getFn s port fn.toNat).aptOwner ((getFn s port fn.toNat).aptBase * 2 ^ 30 +
      off.toNat) n = false) ∧
    (∃ (s : State) (port : Bool) (fn : BitVec 5) (off : BitVec 64) (n : Nat) (data : List (BitVec 8)), barsOpen s port = true ∧
      fnEnabled s port fn.toNat = true ∧ fnFrozen s port fn.toNat = false ∧ (getFn s port fn.toNat).inReset = false ∧ (fn ≠ 0 → (getFn
      s port fn.toNat).aptOwner ≠ 0) ∧ (s.power.state = PowerState.rom → fn ≠ 0) ∧ meetsSump s ((getFn s port fn.toNat).aptBase * 2 ^
      30 + off.toNat) n = false ∧ meetsSump s ((getFn s port fn.toNat).aptBase * 2 ^ 30 + off.toNat) data.length = false ∧ off.toNat +
      data.length ≤ apertureSize s port fn.toNat ∧ extentsGranted s (getFn s port fn.toNat).aptOwner ((getFn s port fn.toNat).aptBase
      * 2 ^ 30 + off.toNat) data.length = true) ∧
    (∃ (s : State) (port : Bool) (fn : BitVec 5) (off : BitVec 64) (n : Nat) (data : List (BitVec 8)), barsOpen s port = true ∧
      fnEnabled s port fn.toNat = true ∧ fnFrozen s port fn.toNat = false ∧ (getFn s port fn.toNat).inReset = false ∧ (fn ≠ 0 → (getFn
      s port fn.toNat).aptOwner ≠ 0) ∧ (s.power.state = PowerState.rom → fn ≠ 0) ∧ meetsSump s ((getFn s port fn.toNat).aptBase * 2 ^
      30 + off.toNat) n = false ∧ meetsSump s ((getFn s port fn.toNat).aptBase * 2 ^ 30 + off.toNat) data.length = false ∧ off.toNat +
      data.length ≤ apertureSize s port fn.toNat ∧ extentsGranted s (getFn s port fn.toNat).aptOwner ((getFn s port fn.toNat).aptBase
      * 2 ^ 30 + off.toNat) data.length = false) ∧
    (∃ (s : State), s.ms.scrubEn = true ∧ s.ms.scrubActive = false ∧ s.ms.state = 2) ∧
    (∃ (s : State), s.ms.scrubActive = true ∧ s.clock < s.ms.scrubUntil) ∧
    (∃ (s : State), s.ms.scrubActive = true ∧ s.ms.scrubUntil ≤ s.clock ∧ s.ms.poisoned = [] ∧ s.ms.latent = []) ∧
    (∃ (s : State) (port : Bool), mayWrite s (Accessor.pf0 port) 10 = true) ∧
    (∃ (s : State), rtb s / 360000000000 ≤ s.ms.rateHour) ∧
    (∃ (s : State), s.ms.rateHour < rtb s / 360000000000) :=
  ⟨⟨fetched 32, pf, 0, 0, 0, by decide⟩,
   ⟨fetched 33, pf, 0, 0, 0, by decide⟩,
   ⟨{ rdy with hpA := { rdy.hpA with fetched := [{ opcode := 32, owner := 9 }] } }, pf, 9, 0, 0, by decide⟩,
   ⟨rdy, 0, 4096, by decide⟩,
   ⟨granted ({ rdy with hpA := { rdy.hpA with fetched := [{ opcode := 34, params := [0, 0, 0, 0, 0, 0, 0, 0, 0, 0, 0, 0, 0, 0, 0, 0, 64] }] } }) 0, pf, 0, 0, 0, 64, by decide⟩,
   ⟨granted ({ rdy with hpA := { rdy.hpA with fetched := [{ opcode := 35, params := [0, 0, 0, 0, 0, 0, 0, 0, 0, 0, 0, 0, 0, 0, 0, 0, 64] }] } }) 0, pf, 0, 0, 0, 64, by decide⟩,
   ⟨{ rdy with hpA := { rdy.hpA with fetched := [{ opcode := 34, inEffect := true }] } }, pf, { opcode := 34, inEffect := true }, by decide⟩,
   ⟨{ rdy with hpA := { rdy.hpA with fetched := [{ opcode := 35, inEffect := true }] } }, pf, { opcode := 35, inEffect := true }, by decide⟩,
   ⟨{ rdy with power := { rdy.power with sumpExists := true, sumpLog := 1 } }, false, 0, 0, [0], by decide⟩,
   ⟨granted rdy 0, false, 0, 0, 64, [], by decide⟩,
   ⟨rdy, false, 0, 0, 64, [], by decide⟩,
   ⟨granted rdy 0, false, 0, 0, 0, [0], by decide⟩,
   ⟨rdy, false, 0, 0, 0, [0], by decide⟩,
   ⟨rdy, by decide⟩,
   ⟨{ rdy with ms := { rdy.ms with scrubActive := true, scrubUntil := 5000000000 } }, by decide⟩,
   ⟨{ rdy with ms := { rdy.ms with scrubActive := true } }, by decide⟩,
   ⟨rdy, false, by decide⟩,
   ⟨rdy, by decide⟩,
   ⟨{ rdy with power := { rdy.power with rtb := 360000000000 } }, by decide⟩⟩

/-- The hypotheses of `Obligations.QueuePairsAndCompletions`, clause by clause. -/
theorem witness_QueuePairsAndCompletions :
    (∃ (s : State) (port : Bool) (fn : BitVec 5) (page : BitVec 8) (v : BitVec 32) (p : Nat), barsOpen s port = true ∧ fnFrozen s
      port fn.toNat = false ∧ (getFn s port fn.toNat).inReset = false ∧ fnEnabled s port fn.toNat = true ∧ pairOf s port fn.toNat
      page.toNat = some p ∧ (getQp s port p).fn = fn.toNat ∧ (getQp s port p).state = 1 ∧ v.toNat % 4096 < sqDepth (getQp s port p)) ∧
    (∃ (s : State) (port : Bool) (fn : BitVec 5) (page : BitVec 8) (v : BitVec 32) (p : Nat), barsOpen s port = true ∧ fnFrozen s
      port fn.toNat = false ∧ (getFn s port fn.toNat).inReset = false ∧ fnEnabled s port fn.toNat = true ∧ pairOf s port fn.toNat
      page.toNat = some p ∧ (getQp s port p).fn = fn.toNat ∧ (getQp s port p).state = 1 ∧ sqDepth (getQp s port p) ≤ v.toNat % 4096) ∧
    (∃ (s : State) (port : Bool) (fn : BitVec 5) (page : BitVec 8) (v : BitVec 32) (p : Nat), barsOpen s port = true ∧ fnFrozen s
      port fn.toNat = false ∧ (getFn s port fn.toNat).inReset = false ∧ fnEnabled s port fn.toNat = true ∧ pairOf s port fn.toNat
      page.toNat = some p ∧ (getQp s port p).fn = fn.toNat ∧ (getQp s port p).state = 1 ∧ (cqDepth (getQp s port p) ≤ v.toNat % 4096 ∨
      (getQp s port p).cqTail < (getQp s port p).cqHead + (v.toNat % 4096 + cqDepth (getQp s port p) - (getQp s port p).cqHead %
      cqDepth (getQp s port p)) % cqDepth (getQp s port p))) ∧
    (∃ (s : State) (port : Bool) (fn : BitVec 5) (page : BitVec 8) (v : BitVec 32) (p : Nat), barsOpen s port = true ∧ fnFrozen s
      port fn.toNat = false ∧ (getFn s port fn.toNat).inReset = false ∧ fnEnabled s port fn.toNat = true ∧ pairOf s port fn.toNat
      page.toNat = some p ∧ (getQp s port p).fn = fn.toNat ∧ (getQp s port p).state = 1 ∧ v.toNat % 4096 < cqDepth (getQp s port p) ∧
      (getQp s port p).cqHead + (v.toNat % 4096 + cqDepth (getQp s port p) - (getQp s port p).cqHead % cqDepth (getQp s port p)) %
      cqDepth (getQp s port p) ≤ (getQp s port p).cqTail) ∧
    (∃ (s : State) (port : Bool), barsOpen s port = false) ∧
    (∃ (s : State) (port : Bool) (fn : BitVec 5) (page : BitVec 8), barsOpen s port = true ∧ (fnFrozen s port fn.toNat = true ∨
      (getFn s port fn.toNat).inReset = true ∨ pairOf s port fn.toNat page.toNat = none)) ∧
    (∃ (s : State) (port : Bool) (fn : BitVec 5), (getFn s port fn.toNat).inReset = false ∧ (getHp s port).up = true ∧ fnEnabled s
      port fn.toNat = true ∧ s.power.state.code < 5) ∧
    (∃ (s : State) (port : Bool) (fn : BitVec 5) (d : List (BitVec 32)), (getFn s port fn.toNat).inReset = false ∧ (getHp s port).up
      = true ∧ fnEnabled s port fn.toNat = true ∧ 5 ≤ s.power.state.code ∧ (fn = 0 ∨ bits (d.getD 0 0).toNat 0 8 ≤ 14) ∧ bits (d.getD
      0 0).toNat 8 8 = 0 ∧ pairOf s port fn.toNat (bits (d.getD 0 0).toNat 0 8) = none) ∧
    (∃ (s : State) (port : Bool) (fn : BitVec 5) (d : List (BitVec 32)) (p : Nat), (getFn s port fn.toNat).inReset = false ∧ (getHp
      s port).up = true ∧ fnEnabled s port fn.toNat = true ∧ 5 ≤ s.power.state.code ∧ (fn = 0 ∨ bits (d.getD 0 0).toNat 0 8 ≤ 14) ∧
      pairOf s port fn.toNat (bits (d.getD 0 0).toNat 0 8) = some p ∧ (getQp s port p).fn = fn.toNat ∧ bits (d.getD 0 0).toNat 8 8 =
      0) ∧
    (∃ (s : State) (port : Bool) (fn : BitVec 5) (d : List (BitVec 32)) (p : Nat), (getFn s port fn.toNat).inReset = false ∧ (getHp
      s port).up = true ∧ fnEnabled s port fn.toNat = true ∧ 5 ≤ s.power.state.code ∧ (fn = 0 ∨ bits (d.getD 0 0).toNat 0 8 ≤ 14) ∧
      pairOf s port fn.toNat (bits (d.getD 0 0).toNat 0 8) = some p ∧ (getQp s port p).fn = fn.toNat ∧ 4 ≤ bits (d.getD 0 0).toNat 8 8
      ∧ bits (d.getD 0 0).toNat 8 8 ≤ 12 ∧ 4 ≤ bits (d.getD 0 0).toNat 16 8 ∧ bits (d.getD 0 0).toNat 16 8 ≤ 12 ∧ bits (d.getD 0
      0).toNat 24 8 < (if fn = 0 then 64 else 16) ∧ (d.getD 1 0).toNat % 4096 = 0 ∧ (d.getD 3 0).toNat % 4096 = 0 ∧ (d.getD 5 0).toNat
      < 256) ∧
    (∃ (s : State) (port : Bool) (pair : BitVec 8) (e : List (BitVec 8)), (getQp s port pair.toNat).state = 1 ∧ (getQp s port
      pair.toNat).sqHead ≠ (getQp s port pair.toNat).sqTail ∧ cqFree (getQp s port pair.toNat) ≠ 0 ∧ fnDma s port (getQp s port
      pair.toNat).fn = true ∧ barsOpen s port = true ∧ firmwareRuns s = true ∧ 5 ≤ s.power.state.code ∧ (getHdr s (pgHp port)).en =
      true ∧ hostReadsOut s port + 64 ≤ 262144 ∧ (entryRefusal (modHp (modQp s port pair.toNat (fun q => { q with sqHead := (q.sqHead + 1) % sqDepth q, reserved := q.reserved + 1 }))
      port (fun h => { h with fetched := h.fetched ++ [{ port := port, fn := (getQp s port pair.toNat).fn, pair := pair.toNat, cid := leAt e 2 2, cfg := (getQp s port pair.toNat).cfg, opcode := byteAt e 0, owner := byteAt e 4, device := byteAt e 5, fence := bit (byteAt e 1) 0, params := (padTo 64 e).drop 8, fetchedAt := sclkRtb s }] }))
      port (getQp s port pair.toNat).fn e = none)) ∧
    (∃ (s : State) (port : Bool) (pair : BitVec 8) (e : List (BitVec 8)) (c : Nat), (getQp s port pair.toNat).state = 1 ∧ (getQp s
      port pair.toNat).sqHead ≠ (getQp s port pair.toNat).sqTail ∧ cqFree (getQp s port pair.toNat) ≠ 0 ∧ fnDma s port (getQp s port
      pair.toNat).fn = true ∧ barsOpen s port = true ∧ firmwareRuns s = true ∧ 5 ≤ s.power.state.code ∧ (getHdr s (pgHp port)).en =
      true ∧ hostReadsOut s port + 64 ≤ 262144 ∧ (entryRefusal (modHp (modQp s port pair.toNat fun q => { state := q.state, fn := q.fn, cause := q.cause, sqHead := (q.sqHead + 1) % sqDepth q, sqTail := q.sqTail, sqLog := q.sqLog, cqLog := q.cqLog, vector := q.vector, sqAddr := q.sqAddr, cqAddr := q.cqAddr, coalesce := q.coalesce, cqTail := q.cqTail, cqHead := q.cqHead, reserved := q.reserved + 1, signalAt := q.signalAt, signalled := q.signalled, cfg := q.cfg })
      port fun h => { state := h.state, up := h.up, speed := h.speed, width := h.width, diag := h.diag, urCount := h.urCount, statusCleared := h.statusCleared, numVf := h.numVf, delayed := h.delayed, bar4Log := h.bar4Log, hbTimeout := h.hbTimeout, grace := h.grace, fns := h.fns, qps := h.qps, fetched := h.fetched ++ [{ port := port, fn := (getQp s port pair.toNat).fn, pair := pair.toNat, cid := leAt e 2 2, cfg := (getQp s port pair.toNat).cfg, opcode := byteAt e 0, owner := byteAt e 4, device := byteAt e 5, fence := bit (byteAt e 1) 0, params := List.drop 8 (padTo 64 e), fetchedAt := sclkRtb s }] })
      port (getQp s port pair.toNat).fn e = some c)) ∧
    (∃ (e : List (BitVec 8)), byteAt e 0 = 0 ∧ byteAt e 1 = 0 ∧ byteAt e 6 = 0 ∧ byteAt e 7 = 0 ∧ byteAt e 5 = 255 ∧ (∀ (j : Nat), 8
      ≤ j → j < 64 → byteAt e j = 0)) ∧
    (∃ (e : List (BitVec 8)), byteAt e 0 = 7) ∧
    (∃ (e : List (BitVec 8)), byteAt e 0 = 0 ∧ 1 < byteAt e 1) ∧
    (∃ (s : State) (i : Issuer) (f : Fetched), findFetched s i = some f ∧ i.pairKey < 256 ∧ f.cfg = (getQp s i.port i.pairKey).cfg ∧
      fnFrozen s i.port i.fn.toNat = false ∧ (getFn s i.port i.fn.toNat).inReset = false ∧ (getFn s i.port i.fn.toNat).busMaster =
      true) ∧
    (∃ (s : State) (port : Bool) (pair : Nat), tblWf { } (getHp s port).qps = true ∧ (getQp s port pair).signalled = true ∧ (getHp s
      port).up = true) ∧
    (∃ (s : State) (port : Bool) (pair : BitVec 8) (t : Nat), (getQp s port pair.toNat).signalAt = some t ∧ fnDma s port (getQp s
      port pair.toNat).fn = true ∧ (getQp s port pair.toNat).signalled = false ∧ (getHp s port).up = true ∧ (t ≤ s.clock ∨ cqDepth
      (getQp s port pair.toNat) ≤ 2 * ((getQp s port pair.toNat).cqTail - (getQp s port pair.toNat).cqHead))) ∧
    (∃ (s : State) (port : Bool) (pair : BitVec 8) (t : Nat), (getQp s port pair.toNat).signalAt = some t ∧ fnDma s port (getQp s
      port pair.toNat).fn = true ∧ (getQp s port pair.toNat).signalled = false ∧ (getHp s port).up = true ∧ s.clock < t ∧ 2 * ((getQp
      s port pair.toNat).cqTail - (getQp s port pair.toNat).cqHead) < cqDepth (getQp s port pair.toNat)) :=
  ⟨⟨{ rdy with hpA := { rdy.hpA with qps := [(0, { state := 1 })] } }, false, 0, 0, 15, 0, by decide⟩,
   ⟨{ rdy with hpA := { rdy.hpA with qps := [(0, { state := 1 })] } }, false, 0, 0, 16, 0, by decide⟩,
   ⟨{ rdy with hpA := { rdy.hpA with qps := [(0, { state := 1 })] } }, false, 0, 0, 16, 0, by decide⟩,
   ⟨{ rdy with hpA := { rdy.hpA with qps := [(0, { state := 1 })] } }, false, 0, 0, 0, 0, by decide⟩,
   ⟨{ rdy with hpA := { rdy.hpA with up := false } }, false, by decide⟩,
   ⟨withFrozen rdy 1 0, false, 0, 0, by decide⟩,
   ⟨{ rdy with power := { rdy.power with state := .fwLoaded } }, false, 0, by decide⟩,
   ⟨{ rdy with hpA := { rdy.hpA with fns := [(1, { enabled := true })] } }, false, 1, [], by decide⟩,
   ⟨rdy, false, 0, [], 0, by decide⟩,
   ⟨rdy, false, 0, [0x00040400], 0, by decide⟩,
   ⟨{ rdy with hpA := { rdy.hpA with qps := [(0, { state := 1, sqTail := 1 })] } }, false, 0, [0, 0, 0, 0, 0, 0xFF], by decide⟩,
   ⟨{ rdy with hpA := { rdy.hpA with qps := [(0, { state := 1, sqTail := 1 })] } }, false, 0, [0, 4], 0x0101, by decide⟩,
   ⟨[0, 0, 0, 0, 0, 255], by decide⟩,
   ⟨[7], by decide⟩,
   ⟨[0, 2], by decide⟩,
   ⟨fetched 0, pf, { opcode := 0 }, by decide⟩,
   ⟨{ rdy with hpA := { rdy.hpA with qps := [(0, { signalled := true })] } }, false, 0, by decide⟩,
   ⟨{ rdy with hpA := { rdy.hpA with qps := [(0, { signalAt := some 0 })] } }, false, 0, 0, by decide⟩,
   ⟨{ rdy with hpA := { rdy.hpA with qps := [(0, { signalAt := some 5000000000 })] } }, false, 0, 5000000000, by decide⟩⟩

/-- The hypotheses of `Obligations.HeartbeatTimeoutAndGrace`, clause by clause. -/
theorem witness_HeartbeatTimeoutAndGrace :
    (∃ (p : Nat), (p = 8 ∨ p = 9)) ∧
    (∃ (s : State) (port : Bool) (v : BitVec 32), mayWrite s (Accessor.pf0 port) (pgHp port) = true ∧ 250 ≤ v.toNat % 65536 ∧
      v.toNat % 65536 ≤ 10000) ∧
    (∃ (s : State) (port : Bool) (v : BitVec 32), mayWrite s (Accessor.pf0 port) (pgHp port) = true ∧ (v.toNat % 65536 < 250 ∨ 10000
      < v.toNat % 65536)) ∧
    (∃ (s : State) (port : Bool) (v : BitVec 32), mayWrite s (Accessor.pf0 port) (pgHp port) = true ∧ 10 ≤ v.toNat % 65536 ∧ v.toNat
      % 65536 ≤ 3600) ∧
    (∃ (s : State) (port : Bool) (v : BitVec 32), mayWrite s (Accessor.pf0 port) (pgHp port) = true ∧ (v.toNat % 65536 < 10 ∨ 3600 <
      v.toNat % 65536)) ∧
    (∃ (s : State) (port : Bool), tblWf { } (getHp s port).fns = true) ∧
    (∃ (s : State) (owner : BitVec 8) (w : Owner) (port : Bool) (fn : Nat), getOwner s owner.toNat = some w ∧ w.bound = [(port, fn)]
      ∧ owner ≠ 0 ∧ w.releasing = false ∧ (getFn s port fn).hbExpired = true ∧ tblWf none s.owners = true ∧ (planAdmitted s = false ∨
      atEdge s 0 = true)) :=
  ⟨⟨8, by decide⟩,
   ⟨rdy, false, 10000, by decide⟩,
   ⟨rdy, false, 249, by decide⟩,
   ⟨rdy, false, 3600, by decide⟩,
   ⟨rdy, false, 9, by decide⟩,
   ⟨rdy, false, by decide⟩,
   ⟨{ rdy with hpA := { rdy.hpA with fns := [(0, { hbExpired := true })] } }, 1, anOwner, false, 0, by decide⟩⟩

/-- The hypotheses of `Obligations.ApertureHeartbeatAndOrphans`, clause by clause. -/
theorem witness_ApertureHeartbeatAndOrphans :
    (∃ (s : State) (port : Bool) (v : BitVec 32), mayWrite s (Accessor.pf0 port) (pgHp port) = true ∧ v.toNat % 1024 % 2 ^ ((getHp s
      port).bar4Log - 30) = 0) ∧
    (∃ (s : State) (port : Bool) (v : BitVec 32), mayWrite s (Accessor.pf0 port) (pgHp port) = true ∧ v.toNat % 1024 % 2 ^ ((getHp s
      port).bar4Log - 30) ≠ 0) ∧
    (∃ (s : State) (port : Bool) (v : BitVec 32), mayWrite s (Accessor.pf0 port) (pgHp port) = true ∧ (v.toNat % 256 = 0 ∨ boundTo s
      (v.toNat % 256) port 0 = true)) ∧
    (∃ (s : State) (port : Bool) (v : BitVec 32), mayWrite s (Accessor.pf0 port) (pgHp port) = true ∧ v.toNat % 256 ≠ 0 ∧ boundTo s
      (v.toNat % 256) port 0 = false) ∧
    (∃ (s : State) (port : Bool) (fn : BitVec 5), fn ≠ 0 ∧ mayWrite s (Accessor.vf port fn) (pgFn port fn.toNat) = true) ∧
    (∃ (s : State) (port : Bool) (fn : BitVec 5), (getFn s port fn.toNat).hbArmed = true ∧ (getFn s port fn.toNat).hbExpired = false
      ∧ (getFn s port fn.toNat).hbDeadline ≤ s.clock) ∧
    (∃ (s : State) (owner : BitVec 8) (w : Owner) (b : Bool × Nat) (r : List (Bool × Nat)), getOwner s owner.toNat = some w ∧
      w.bound = b :: r ∧ owner ≠ 0 ∧ w.releasing = false ∧ (∀ x ∈ w.bound, (getFn s x.1 x.2).hbExpired = true) ∧ (planAdmitted s =
      false ∨ atEdge s 0 = true)) ∧
    (∃ (s : State) (owner : BitVec 8) (w : Owner) (port : Bool) (d : BitVec 64), getOwner s owner.toNat = some w ∧ w.held = some
      port ∧ w.grace = some d ∧ d.toNat ≤ s.power.rtb.toNat ∧ atEdge s 0 = true ∧ w.releasing = false ∧ reattachPending s owner.toNat
      d.toNat = false) ∧
    (∃ (s : State) (port : Bool) (n : BitVec 6), (getHp s port).up = true ∧ 30 ≤ n.toNat ∧ n.toNat ≤ 36) :=
  ⟨⟨rdy, false, 0, by decide⟩,
   ⟨{ rdy with hpA := { rdy.hpA with bar4Log := 31 } }, false, 1, by decide⟩,
   ⟨rdy, false, 0, by decide⟩,
   ⟨rdy, false, 9, by decide⟩,
   ⟨{ rdy with hpA := { rdy.hpA with fns := [(1, { enabled := true })] } }, false, 1, by decide⟩,
   ⟨{ rdy with hpA := { rdy.hpA with fns := [(0, { hbArmed := true })] } }, false, 0, by decide⟩,
   ⟨{ rdy with hpA := { rdy.hpA with fns := [(0, { hbExpired := true })] } }, 1, anOwner, (false, 0), [], by decide⟩,
   ⟨{ { rdy with owners := [(1, some { anOwner with grace := some 0 })] } with sq := { ({ rdy with owners := [(1, some { anOwner with grace := some 0 })] }).sq with edgeAt := some 4000000000, edgeKind := 0 } }, 1, { anOwner with grace := some 0 }, false, 0, by decide⟩,
   ⟨rdy, false, 36, by decide⟩⟩

/-- The hypotheses of `Obligations.FunctionResetsAndLinks`, clause by clause. -/
theorem witness_FunctionResetsAndLinks :
    (∃ (s : State) (port : Bool) (fn : Nat) (kind : Nat) (since : Nat) (f : Fetched), tblWf { } (getHp s port).fns = true ∧ f ∈
      (getHp (startReset s port fn kind since) port).fetched) ∧
    (∃ (s : State) (port : Bool) (fn : Nat) (g : Nat), tblWf { } (getHp s port).fns = true ∧ g ≠ fn) ∧
    (∃ (s : State) (port : Bool) (fn : BitVec 5), (getFn s port fn.toNat).inReset = true ∧ (getFn s port fn.toNat).resetDone = false
      ∧ s.sq.live = none ∧ isHeadframe s = true) ∧
    (∃ (s : State) (port : Bool) (fn : BitVec 5), (getFn s port fn.toNat).inReset = true ∧ (getFn s port fn.toNat).resetDone = true
      ∧ (getFn s port fn.toNat).resetKind < 3) ∧
    (∃ (s : State) (port : Bool) (fn : Nat) (p : Nat), tblWf { } (getHp s port).qps = true ∧ tblWf { } (getHp s port).fns = true ∧ p
      < 256 ∧ (getQp s port p).fn = fn) ∧
    (∃ (s : State) (port : Bool) (n : BitVec 5), fnEnabled s port 0 = true ∧ (getFn s port 0).inReset = false ∧ n.toNat ≤
      s.manifest.maxVf) ∧
    (∃ (s : State), portEnabled s false = true ∧ s.pins.perstA = false ∧ mainPower s = true) ∧
    (∃ (s : State), portEnabled s true = true ∧ s.pins.perstB = false ∧ mainPower s = true) ∧
    (∃ (s : State), portEnabled s false = true ∧ s.pins.powerGood = true ∧ s.hpA.state = 0) ∧
    (∃ (s : State) (speed : BitVec 3) (width : BitVec 4), (speed = 5 ∨ speed = 6) ∧ (width = 1 ∨ width = 2 ∨ width = 4 ∨ width = 8)
      ∧ s.hpA.state ≠ 0 ∧ portEnabled s false = true ∧ s.pins.refA = true) ∧
    (∃ (s : State), s.hpA.up = true) ∧
    (∃ (s : State) (t : Nat), s.power.linkLossA = some t ∧ t + 100 * 1600000 ≤ s.clock ∧ s.hpA.up = false) ∧
    (∃ (s : State) (port : Bool) (fn : BitVec 5), (getFn s port fn.toNat).inReset = false ∧ (getHp s port).up = true ∧ fnEnabled s
      port fn.toNat = true ∧ fn = 0 ∧ ((s.mgmt.sessions.any fun z => z.transport == mailbox port 0 && z.finished) = true)) ∧
    (∃ (s : State) (port : Bool) (fn : BitVec 5), (getFn s port fn.toNat).inReset = false ∧ (getHp s port).up = true ∧ fnEnabled s
      port fn.toNat = true ∧ fn ≠ 0) :=
  ⟨⟨{ rdy with hpA := { rdy.hpA with fetched := [{ fn := 1 }] } }, false, 0, 0, 0, { fn := 1 }, by decide⟩,
   ⟨rdy, false, 0, 1, by decide⟩,
   ⟨{ rdy with hpA := { rdy.hpA with fns := [(0, { inReset := true })] } }, false, 0, by decide⟩,
   ⟨{ rdy with hpA := { rdy.hpA with fns := [(0, { inReset := true, resetDone := true })] } }, false, 0, by decide⟩,
   ⟨rdy, false, 0, 0, by decide⟩,
   ⟨rdy, false, 0, by decide⟩,
   ⟨{ rdy with pins := { perstA := false } }, by decide⟩,
   ⟨{ rdy with pins := { perstB := false } }, by decide⟩,
   ⟨{ rdy with hpA := {} }, by decide⟩,
   ⟨{ rdy with pins := { refA := true } }, 5, 1, by decide⟩,
   ⟨rdy, by decide⟩,
   ⟨{ rdy with hpA := {}, power := { rdy.power with linkLossA := some 0 } }, 0, by decide⟩,
   ⟨{ rdy with mgmt := { sessions := [{ transport := 1, finished := true }] } }, false, 0, by decide⟩,
   ⟨{ rdy with hpA := { rdy.hpA with fns := [(1, { enabled := true })] } }, false, 1, by decide⟩⟩

/-- The hypotheses of `Obligations.ManagementMessages`, clause by clause. -/
theorem witness_ManagementMessages :
    (∃ (s : State), s.pins.aux = true) ∧
    (∃ (s : State) (id : BitVec 16) (m : Bool) (v : Nat), mgmtUp s = true ∧ pldmSensor s id.toNat = some (m, v)) ∧
    (∃ (s : State) (r : Nat) (n : Nat) (b : List (BitVec 8)) (k : Bool) (q : List (Nat × List (BitVec 8) × Bool × Bool)), mgmtUp s =
      true ∧ s.mgmt.receiver = some r ∧ s.mgmt.queue = (n, b, k, false) :: q ∧ s.mgmt.sentAt = none) ∧
    (∃ (s : State) (r : Nat) (n : Nat) (b : List (BitVec 8)) (k : Bool) (q : List (Nat × List (BitVec 8) × Bool × Bool)) (t : Nat),
      mgmtUp s = true ∧ s.mgmt.receiver = some r ∧ s.mgmt.queue = (n, b, k, false) :: q ∧ s.mgmt.sentAt = some t ∧ t + 100 * 1600000 ≤
      s.clock ∧ s.mgmt.retries < 3) ∧
    (∃ (s : State) (r : Nat) (n : Nat) (b : List (BitVec 8)) (k : Bool) (q : List (Nat × List (BitVec 8) × Bool × Bool)) (t : Nat),
      mgmtUp s = true ∧ s.mgmt.receiver = some r ∧ s.mgmt.queue = (n, b, k, false) :: q ∧ s.mgmt.sentAt = some t ∧ t + 100 * 1600000 ≤
      s.clock ∧ 3 ≤ s.mgmt.retries) ∧
    (∃ (s : State), mgmtUp s = true ∧ s.mgmt.queue = []) ∧
    (∃ (s : State) (n : Nat) (b : List (BitVec 8)) (x : Bool × Bool) (q : List (Nat × List (BitVec 8) × Bool × Bool)), mgmtUp s =
      true ∧ s.mgmt.queue = (n, b, x) :: q) ∧
    (∃ (s : State), s.mgmt.dropped = 0) ∧
    (∃ (s : State), s.mgmt.dropped ≠ 0 ∧ s.mgmt.queue.length < 128) ∧
    (∃ (s : State) (i : BitVec 32) (n : BitVec 8), mgmtUp s = true ∧ mainPower s = true ∧ s.power.sumpExists = true ∧ n ≠ 0 ∧
      n.toNat ≤ 7 ∧ i.toNat < 2 ^ s.power.sumpLog) ∧
    (∃ (s : State), mgmtUp s = true ∧ mainPower s = false) :=
  ⟨⟨rdy, by decide⟩,
   ⟨rdy, 1, true, 0, by decide⟩,
   ⟨{ rdy with mgmt := { rdy.mgmt with receiver := some 1, queue := [(0, [], false, false)] } }, 1, 0, [], false, [], by decide⟩,
   ⟨{ rdy with mgmt := { rdy.mgmt with receiver := some 1, queue := [(0, [], false, false)], sentAt := some 0 } }, 1, 0, [], false, [], 0, by decide⟩,
   ⟨{ rdy with mgmt := { rdy.mgmt with receiver := some 1, queue := [(0, [], false, false)], sentAt := some 0, retries := 3 } }, 1, 0, [], false, [], 0, by decide⟩,
   ⟨rdy, by decide⟩,
   ⟨{ rdy with mgmt := { rdy.mgmt with queue := [(0, [], false, false)] } }, 0, [], (false, false), [], by decide⟩,
   ⟨rdy, by decide⟩,
   ⟨{ rdy with mgmt := { rdy.mgmt with dropped := 1 } }, by decide⟩,
   ⟨{ rdy with power := { rdy.power with sumpExists := true } }, 0, 1, by decide⟩,
   ⟨{ rdy with power := { rdy.power with state := .aux } }, by decide⟩⟩

/-- The hypotheses of `Obligations.AttestationMessages`, clause by clause. -/
theorem witness_AttestationMessages :
    (∃ (s : State) (v : Via) (i : BitVec 8), viaUp s v = true ∧ mainPower s = true ∧ s.ke.state ≠ 0 ∧ s.ke.state ≠ 3 ∧ viaNo v ∈
      s.mgmt.negotiated ∧ 1 ≤ i.toNat ∧ i.toNat ≤ 8) ∧
    (∃ (s : State) (v : Via), viaUp s v = true ∧ mainPower s = true ∧ s.ke.state ≠ 0 ∧ s.ke.state ≠ 3 ∧ viaNo v ∈ s.mgmt.negotiated
      ∧ ((List.filter (fun z => z.transport == viaNo v) s.mgmt.sessions).length < 4)) ∧
    (∃ (s : State) (v : Via), viaUp s v = true ∧ mainPower s = true ∧ s.ke.state ≠ 0 ∧ s.ke.state ≠ 3 ∧ viaNo v ∈ s.mgmt.negotiated
      ∧ (4 ≤ (List.filter (fun z => z.transport == viaNo v) s.mgmt.sessions).length)) ∧
    (∃ (s : State) (v : Via) (sid : BitVec 32) (z : Session), viaUp s v = true ∧ mainPower s = true ∧ s.ke.state ≠ 0 ∧ s.ke.state ≠
      3 ∧ viaNo v ∈ s.mgmt.negotiated ∧ findSession s v sid.toNat = some z ∧ z.finished = false) ∧
    (∃ (s : State) (v : Via) (sid : BitVec 32) (z : Session), viaUp s v = true ∧ mainPower s = true ∧ s.ke.state ≠ 0 ∧ s.ke.state ≠
      3 ∧ viaNo v ∈ s.mgmt.negotiated ∧ findSession s v sid.toNat = some z ∧ z.finished = true) ∧
    (∃ (s : State) (v : Via), viaUp s v = true ∧ mainPower s = false) ∧
    (∃ (s : State) (v : Via), viaUp s v = true ∧ mainPower s = true ∧ s.ke.state = 3) ∧
    (∃ (s : State) (r : ImageInfo), s.cx.running = some r ∧ s.sq.planSet = none) ∧
    (∃ (s : State) (r : ImageInfo) (p : PlanSet), s.cx.running = some r ∧ s.sq.planSet = some p) ∧
    (∃ (s : State), s.ri.valid = true) ∧
    (∃ (i : Nat), i < 401) :=
  ⟨⟨{ rdy with mgmt := { rdy.mgmt with negotiated := [0] } }, .mgmt, 1, by decide⟩,
   ⟨{ rdy with mgmt := { rdy.mgmt with negotiated := [0] } }, .mgmt, by decide⟩,
   ⟨{ rdy with mgmt := { rdy.mgmt with negotiated := [0], sessions := List.replicate 4 {} } }, .mgmt, by decide⟩,
   ⟨{ rdy with mgmt := { rdy.mgmt with negotiated := [0], sessions := [{}] } }, .mgmt, 0, {}, by decide⟩,
   ⟨{ rdy with mgmt := { rdy.mgmt with negotiated := [0], sessions := [{ finished := true }] } }, .mgmt, 0, { finished := true }, by decide⟩,
   ⟨{ rdy with power := { rdy.power with state := .aux } }, .mgmt, by decide⟩,
   ⟨{ rdy with ke := { state := 3 } }, .mgmt, by decide⟩,
   ⟨rdy, {}, by decide⟩,
   ⟨planned {}, {}, { plans := [{ layouts := [{}], recs := [{}] }] }, by decide⟩,
   ⟨rdy, by decide⟩,
   ⟨0, by decide⟩⟩

/-- The hypotheses of `Obligations.KeysCreditPacketsAndRegAccess`, clause by clause. -/
theorem witness_KeysCreditPacketsAndRegAccess :
    (∃ (s : State) (o : BitVec 8), o ≠ 0 ∧ isHeadframe s = true ∧ (getSlot s o.toNat).state = 3 ∧ (getSlot s o.toNat).destroyCause =
      1 ∧ liveStreamsOf s o.toNat = []) ∧
    (∃ (s : State) (o : BitVec 8), o ≠ 0 ∧ isHeadframe s = true ∧ (getSlot s o.toNat).state = 3 ∧ (getSlot s o.toNat).destroyCause ≠
      1) ∧
    (∃ (s : State) (o : BitVec 8), o ≠ 0 ∧ isHeadframe s = false ∧ (getSlot s o.toNat).state ≠ 0) ∧
    (∃ (s : State) (o : Nat) (x : Nat), tblWf { } s.ke.slots = true ∧ x ≠ o) ∧
    (∃ (s : State) (a : Accessor) (v : BitVec 32), mayWrite s a 5 = true ∧ v.getLsbD 31 = true ∧ a = Accessor.pf0 (getSlot s
      s.ke.slotSel).port ∧ hasSeal s s.ke.slotSel = true) ∧
    (∃ (s : State), 65536 ≤ s.ke.drbgCount ∧ s.ke.state ≠ 2) ∧
    (∃ (s : State) (sid : BitVec 32) (o : BitVec 8) (w : Owner), { sid := sid.toNat, finished := true } ∈ s.mgmt.sessions ∧
      s.pins.aux = true ∧ s.mgmt.dyn ≠ none ∧ mainPower s = true ∧ s.ke.state ≠ 0 ∧ o ≠ 0 ∧ getOwner s o.toNat = some w ∧ w.releasing
      = false) ∧
    (∃ (s : State) (b : List (BitVec 8)) (q : List (List (BitVec 8))), s.ri.packets = b :: q ∧ isFrozen s 4 (packetSource b) = true
      ∧ byteAt b 0 = 1) ∧
    (∃ (s : State) (b : List (BitVec 8)) (q : List (List (BitVec 8))), s.ri.packets = b :: q ∧ isFrozen s 4 (packetSource b) = false
      ∧ byteAt b 0 = 1 ∧ (packetOf b).space = 0 ∧ memoryAllowed s (packetOf b) = true) ∧
    (∃ (s : State) (b : List (BitVec 8)) (q : List (List (BitVec 8))), s.ri.packets = b :: q ∧ isFrozen s 4 (packetSource b) = false
      ∧ byteAt b 0 = 1 ∧ (packetOf b).space = 0 ∧ memoryAllowed s (packetOf b) = false) ∧
    (∃ (s : State) (b : List (BitVec 8)) (q : List (List (BitVec 8))), s.ri.packets = b :: q ∧ isFrozen s 4 (packetSource b) = false
      ∧ byteAt b 0 = 1 ∧ (packetOf b).space = 1 ∧ (packetOf b).len = 4 ∧ (packetOf b).addr % 4 = 0 ∧ (packetOf b).agent = 1) ∧
    (∃ (s : State) (b : List (BitVec 8)) (q : List (List (BitVec 8))), s.ri.packets = b :: q ∧ isFrozen s 4 (packetSource b) = false
      ∧ byteAt b 0 = 1 ∧ (packetOf b).space = 2) ∧
    (∃ (s : State) (b : List (BitVec 8)) (q : List (List (BitVec 8))), s.ri.packets = b :: q ∧ isFrozen s 4 (packetSource b) = false
      ∧ byteAt b 0 = 2 ∧ (packetOf b).space = 0 ∧ memoryAllowed s (packetOf b) = true ∧ s.ms.poisoned = [] ∧ s.ms.latent = []) ∧
    (∃ (s : State) (b : List (BitVec 8)) (q : List (List (BitVec 8))), s.ri.packets = b :: q ∧ isFrozen s 4 (packetSource b) = false
      ∧ byteAt b 0 = 2 ∧ (packetOf b).space = 1 ∧ (packetOf b).len = 4 ∧ (packetOf b).addr % 4 = 0 ∧ (packetOf b).agent = 192) ∧
    (∃ (s : State) (b : List (BitVec 8)) (q : List (List (BitVec 8))) (e : Nat × Issuer), s.ri.packets = b :: q ∧ isFrozen s 4
      (packetSource b) = false ∧ byteAt b 0 = 3 ∧ (List.find? (fun e => e.1 == (packetOf b).tag) s.ri.creditReads = some e)) ∧
    (∃ (s : State) (b : List (BitVec 8)) (q : List (List (BitVec 8))), s.ri.packets = b :: q ∧ isFrozen s 4 (packetSource b) = false
      ∧ byteAt b 0 = 4 ∧ (packetOf b).tag ≠ 0 ∧ s.ri.partialMsg = []) ∧
    (∃ (s : State) (b : List (BitVec 8)) (q : List (List (BitVec 8))) (h : List (BitVec 8)), s.ri.packets = b :: q ∧ isFrozen s 4
      (packetSource b) = false ∧ byteAt b 0 = 4 ∧ (packetOf b).tag = 0 ∧ s.ri.partialMsg = [((packetOf b).source, h)]) ∧
    (∃ (s : State) (b : List (BitVec 8)) (q : List (List (BitVec 8))), s.ri.packets = b :: q ∧ isFrozen s 4 (packetSource b) = false
      ∧ byteAt b 0 = 5 ∧ s.power.state = PowerState.rom ∧ s.cx.state = 1 ∧ (packetOf b).addr + (packetOf b).data.length ≤ stagingSize
      ∧ (packetOf b).addr + (packetOf b).data.length < 24) ∧
    (∃ (s : State) (body : List (BitVec 8)) (o : Nat) (c : Nat), leAt body 0 8 = 65 ∧ o ≠ 0 ∧ (getSlot s o).state ≠ 0 ∧ 2 ≤ leAt
      body 8 8 ∧ 4 ≤ body.length / 8 ∧ leAt body 16 8 = o ∧ leAt body 24 8 = c) ∧
    (∃ (body : List (BitVec 8)), leAt body 0 8 = 144) ∧
    (∃ (s : State) (i : Issuer) (f : Fetched) (off : BitVec 32) (v : BitVec 32), fromHeadPf0 s i = true ∧ findFetched s i = some f ∧
      off.toNat % 4 = 0 ∧ off.toNat < 2 ^ 25 ∧ (f.device = s.ri.position ∨ f.device = 255) ∧ starts s i 53 [off.toNat, v.toNat, 0] =
      true) ∧
    (∃ (s : State) (i : Issuer) (f : Fetched) (off : BitVec 32) (v : BitVec 32) (t : State), fromHeadPf0 s i = true ∧ findFetched s
      i = some f ∧ off.toNat % 4 = 0 ∧ off.toNat < 2 ^ 25 ∧ (f.device = s.ri.position ∨ f.device = 255) ∧ starts s i 53 [off.toNat,
      v.toNat, 1] = true ∧ relayedWrite s false off.toNat v.toNat = some t) ∧
    (∃ (s : State) (i : Issuer) (f : Fetched) (off : BitVec 32) (v : BitVec 32), fromHeadPf0 s i = true ∧ findFetched s i = some f ∧
      off.toNat % 4 = 0 ∧ off.toNat < 2 ^ 25 ∧ f.device ≠ s.ri.position ∧ f.device ≠ 255 ∧ starts s i 53 [off.toNat, v.toNat, 1] =
      true) ∧
    (∃ (s : State) (i : Issuer) (f : Fetched) (off : BitVec 32) (v : BitVec 32), fromHeadPf0 s i = true ∧ findFetched s i = some f ∧
      off.toNat % 4 = 0 ∧ off.toNat < 2 ^ 25 ∧ f.device ≠ s.ri.position ∧ f.device ≠ 255 ∧ starts s i 53 [off.toNat, v.toNat, 0] =
      true) :=
  ⟨⟨{ rdy with streams := [], ke := { rdy.ke with slots := [(1, { state := 3, destroyCause := 1 })] } }, 1, by decide⟩,
   ⟨{ rdy with streams := [], ke := { rdy.ke with slots := [(1, { state := 3, destroyCause := 2 })] } }, 1, by decide⟩,
   ⟨{ rdy with ri := { rdy.ri with hf := false } }, 1, by decide⟩,
   ⟨rdy, 0, 1, by decide⟩,
   ⟨{ rdy with store := { seals := [(0, {})] } }, .pf0 false, 0x80000000, by decide⟩,
   ⟨{ rdy with ke := { rdy.ke with drbgCount := 65536 } }, by decide⟩,
   ⟨{ rdy with mgmt := { rdy.mgmt with sessions := [{ finished := true }] } }, 0, 1, anOwner, by decide⟩,
   ⟨{ withFrozen rdy 4 0 with ri := { rdy.ri with packets := [[1, 0, 0, 0, 0, 0, 0, 0, 0, 0, 0, 0, 0, 0, 0, 0, 0, 0, 2, 0, 0, 0, 0, 0, 0, 0, 0, 0, 0, 0, 0, 0]] } }, [1, 0, 0, 0, 0, 0, 0, 0, 0, 0, 0, 0, 0, 0, 0, 0, 0, 0, 2, 0, 0, 0, 0, 0, 0, 0, 0, 0, 0, 0, 0, 0], [], by decide⟩,
   ⟨packet ([1, 0, 0, 0, 0, 0, 64, 0, 0, 0, 0, 0, 0, 0, 0, 0, 0, 0, 0, 0, 0, 0, 0, 0, 0, 0, 0, 0, 0, 0, 0, 0]), [1, 0, 0, 0, 0, 0, 64, 0, 0, 0, 0, 0, 0, 0, 0, 0, 0, 0, 0, 0, 0, 0, 0, 0, 0, 0, 0, 0, 0, 0, 0, 0], [], by decide⟩,
   ⟨packet ([1, 0, 1, 0, 0, 1, 64, 0, 0, 0, 0, 0, 0, 0, 0, 0, 0, 0, 0, 0, 0, 0, 0, 0, 0, 0, 0, 0, 0, 0, 0, 0]), [1, 0, 1, 0, 0, 1, 64, 0, 0, 0, 0, 0, 0, 0, 0, 0, 0, 0, 0, 0, 0, 0, 0, 0, 0, 0, 0, 0, 0, 0, 0, 0], [], by decide⟩,
   ⟨packet ([1, 0, 1, 0, 0, 0, 4, 0, 0, 0, 0, 0, 0, 0, 0, 0, 0, 0, 1, 0, 0, 0, 0, 0, 0, 0, 0, 0, 0, 0, 0, 0]), [1, 0, 1, 0, 0, 0, 4, 0, 0, 0, 0, 0, 0, 0, 0, 0, 0, 0, 1, 0, 0, 0, 0, 0, 0, 0, 0, 0, 0, 0, 0, 0], [], by decide⟩,
   ⟨packet ([1, 0, 0, 0, 0, 0, 0, 0, 0, 0, 0, 0, 0, 0, 0, 0, 0, 0, 2, 0, 0, 0, 0, 0, 0, 0, 0, 0, 0, 0, 0, 0]), [1, 0, 0, 0, 0, 0, 0, 0, 0, 0, 0, 0, 0, 0, 0, 0, 0, 0, 2, 0, 0, 0, 0, 0, 0, 0, 0, 0, 0, 0, 0, 0], [], by decide⟩,
   ⟨packet ([2, 0, 0, 0, 0, 0, 64, 0, 0, 0, 0, 0, 0, 0, 0, 0, 0, 0, 0, 0, 0, 0, 0, 0, 0, 0, 0, 0, 0, 0, 0, 0]), [2, 0, 0, 0, 0, 0, 64, 0, 0, 0, 0, 0, 0, 0, 0, 0, 0, 0, 0, 0, 0, 0, 0, 0, 0, 0, 0, 0, 0, 0, 0, 0], [], by decide⟩,
   ⟨packet ([2, 0, 192, 0, 0, 0, 4, 0, 0, 0, 0, 0, 0, 0, 0, 0, 0, 0, 1, 0, 0, 0, 0, 0, 0, 0, 0, 0, 0, 0, 0, 0]), [2, 0, 192, 0, 0, 0, 4, 0, 0, 0, 0, 0, 0, 0, 0, 0, 0, 0, 1, 0, 0, 0, 0, 0, 0, 0, 0, 0, 0, 0, 0, 0], [], by decide⟩,
   ⟨{ packet ([3, 0, 0, 0, 0, 0, 0, 0, 0, 0, 0, 0, 0, 0, 0, 0, 0, 0, 0, 0, 0, 0, 0, 0, 0, 0, 0, 0, 0, 0, 0, 0]) with ri := { (packet ([3, 0, 0, 0, 0, 0, 0, 0, 0, 0, 0, 0, 0, 0, 0, 0, 0, 0, 0, 0, 0, 0, 0, 0, 0, 0, 0, 0, 0, 0, 0, 0])).ri with creditReads := [(0, pf)] } }, [3, 0, 0, 0, 0, 0, 0, 0, 0, 0, 0, 0, 0, 0, 0, 0, 0, 0, 0, 0, 0, 0, 0, 0, 0, 0, 0, 0, 0, 0, 0, 0], [], (0, pf), by decide⟩,
   ⟨packet ([4, 0, 0, 0, 0, 0, 0, 0, 0, 0, 0, 0, 0, 0, 0, 0, 1, 0, 0, 0, 0, 0, 0, 0, 0, 0, 0, 0, 0, 0, 0, 0]), [4, 0, 0, 0, 0, 0, 0, 0, 0, 0, 0, 0, 0, 0, 0, 0, 1, 0, 0, 0, 0, 0, 0, 0, 0, 0, 0, 0, 0, 0, 0, 0], [], by decide⟩,
   ⟨{ packet ([4, 0, 0, 0, 0, 0, 0, 0, 0, 0, 0, 0, 0, 0, 0, 0, 0, 0, 0, 0, 0, 0, 0, 0, 0, 0, 0, 0, 0, 0, 0, 0]) with ri := { (packet ([4, 0, 0, 0, 0, 0, 0, 0, 0, 0, 0, 0, 0, 0, 0, 0, 0, 0, 0, 0, 0, 0, 0, 0, 0, 0, 0, 0, 0, 0, 0, 0])).ri with partialMsg := [(0, [])] } }, [4, 0, 0, 0, 0, 0, 0, 0, 0, 0, 0, 0, 0, 0, 0, 0, 0, 0, 0, 0, 0, 0, 0, 0, 0, 0, 0, 0, 0, 0, 0, 0], [], [], by decide⟩,
   ⟨{ inRom with ri := (packet ([5, 0, 0, 0, 0, 0, 0, 0, 0, 0, 0, 0, 0, 0, 0, 0, 0, 0, 0, 0, 0, 0, 0, 0, 0, 0, 0, 0, 0, 0, 0, 0])).ri }, [5, 0, 0, 0, 0, 0, 0, 0, 0, 0, 0, 0, 0, 0, 0, 0, 0, 0, 0, 0, 0, 0, 0, 0, 0, 0, 0, 0, 0, 0, 0, 0], [], by decide⟩,
   ⟨rdy, leBytes 8 65 ++ leBytes 8 2 ++ leBytes 8 1 ++ leBytes 8 0, 1, 0, by decide⟩,
   ⟨leBytes 8 144, by decide⟩,
   ⟨fetched 53, pf, { opcode := 53 }, 0, 0, by decide⟩,
   ⟨{ rdy with hpA := { rdy.hpA with fetched := [{ opcode := 53, params := [0xFC, 0xFF, 0xFF, 1, 0, 0, 0, 0, 1] }] } }, pf, { opcode := 53, params := [0xFC, 0xFF, 0xFF, 1, 0, 0, 0, 0, 1] }, 0x1FFFFFC, 0, { rdy with hpA := { rdy.hpA with fetched := [{ opcode := 53, params := [0xFC, 0xFF, 0xFF, 1, 0, 0, 0, 0, 1] }] } }, by decide⟩,
   ⟨{ rdy with hpA := { rdy.hpA with fetched := [{ opcode := 53, device := 1, params := [0, 0, 0, 0, 0, 0, 0, 0, 1] }] } }, pf, { opcode := 53, device := 1, params := [0, 0, 0, 0, 0, 0, 0, 0, 1] }, 0, 0, by decide⟩,
   ⟨{ rdy with hpA := { rdy.hpA with fetched := [{ opcode := 53, device := 1 }] } }, pf, { opcode := 53, device := 1 }, 0, 0, by decide⟩⟩

/-- The hypotheses of `Obligations.FirmwareBootStagingHandoffAndWatchdog`, clause by clause. -/
theorem witness_FirmwareBootStagingHandoffAndWatchdog :
    (∃ (s : State) (p : Bool) (v : BitVec 32), mayWrite s (Accessor.pf0 p) 1 = true ∧ bits v.toNat 30 2 = 0 ∧ bits v.toNat 0 28 = 0
      ∧ s.power.state = PowerState.rom ∧ s.cx.state = 1) ∧
    (∃ (s : State), s.cx.state = 2 ∧ s.power.state = PowerState.rom ∧ s.cx.bootPort < 2) ∧
    (∃ (s : State) (base : Nat) (x : Section), (List.find? (fun x => x.type == 1) (imgSections s base) = some x)) ∧
    (∃ (s : State) (v : BitVec 32), mayWrite s (Accessor.pf0 false) 1 = true ∧ bits v.toNat 30 2 = 1 ∧ s.cx.state = 3 ∧
      (s.cx.hoState = 0 ∨ s.cx.hoState = 5) ∧ isHeadframe s = false) ∧
    (∃ (s : State) (v : BitVec 32), mayWrite s (Accessor.pf0 false) 1 = true ∧ bits v.toNat 30 2 = 1 ∧ s.cx.state = 3 ∧
      (s.cx.hoState = 0 ∨ s.cx.hoState = 5) ∧ isHeadframe s = true ∧ extentsGranted s 0 (bits v.toNat 0 28 * 4096) (max 8192 (min
      (ofLe (readUnder s (stackKey s 0) (bits v.toNat 0 28 * 4096 + 16) 8)) stagingSize)) = false) ∧
    (∃ (s : State) (v : BitVec 32), mayWrite s (Accessor.pf0 false) 1 = true ∧ bits v.toNat 30 2 = 1 ∧ s.cx.state = 3 ∧
      (s.cx.hoState = 0 ∨ s.cx.hoState = 5) ∧ isHeadframe s = true ∧ extentsGranted s 0 (bits v.toNat 0 28 * 4096) (max 8192 (min
      (ofLe (readUnder s (stackKey s 0) (bits v.toNat 0 28 * 4096 + 16) 8)) stagingSize)) = true) ∧
    (∃ (s : State), s.cx.state = 2 ∧ s.power.state ≠ PowerState.rom ∧ s.cx.hoState = 1 ∧ isHeadframe s = false) ∧
    (∃ (s : State) (o : BitVec 32) (d : List (BitVec 8)), s.power.state = PowerState.rom ∧ s.cx.state = 1 ∧ o.toNat + d.length ≤
      stagingSize) ∧
    (∃ (s : State) (img : ImageInfo) (l : List (BitVec 6 × BitVec 8)), s.cx.hoState = 1 ∧ s.cx.stageOk = true ∧ isHeadframe s = true
      ∧ s.cx.staged = some img ∧ (∀ e ∈ l, e.2 = 0) ∧ (ringCount s ≤ (List.map (fun r => r.1.toNat) (List.filter (fun r => r.1.toNat
      != s.ri.position) l)).eraseDups.length + 1)) ∧
    (∃ (s : State) (img : ImageInfo) (l : List (BitVec 6 × BitVec 8)), s.cx.hoState = 1 ∧ s.cx.stageOk = true ∧ isHeadframe s = true
      ∧ s.cx.staged = some img ∧ (∀ e ∈ l, e.2 = 0) ∧ ((List.map (fun r => r.1.toNat) (List.filter (fun r => r.1.toNat !=
      s.ri.position) l)).eraseDups.length + 1 < ringCount s)) ∧
    (∃ (s : State) (img : ImageInfo) (c : BitVec 8), s.cx.hoState = 1 ∧ s.cx.stageOk = true ∧ isHeadframe s = true ∧ s.cx.staged =
      some img ∧ c ≠ 0) ∧
    (∃ (s : State) (v : BitVec 32), mayWrite s (Accessor.pf0 false) 1 = true ∧ isHeadframe s = true ∧ v.getLsbD 31 = true ∧
      v.getLsbD 30 = false ∧ s.cx.hoState = 2) ∧
    (∃ (s : State) (v : BitVec 32), mayWrite s (Accessor.pf0 false) 1 = true ∧ isHeadframe s = true ∧ v.getLsbD 31 = false ∧
      v.getLsbD 30 = true ∧ (s.cx.hoState = 2 ∨ s.cx.hoState = 3)) ∧
    (∃ (s : State) (p : BitVec 6), s.cx.hoState = 3 ∧ isHeadframe s = true ∧ p.toNat ≠ s.ri.position ∧ s.cx.quietMembers.contains
      p.toNat = false) ∧
    (∃ (s : State) (img : ImageInfo), s.cx.hoPending = true ∧ s.cx.state = 3 ∧ s.cx.staged = some img ∧ level s < 2 ∧ powerEmergency
      s = false ∧ (planAdmitted s = false ∨ s.sq.verdict = 3 ∧ s.sq.haltHandoff = true ∧ s.sq.edgeAt = some s.clock)) ∧
    (∃ (s : State) (r : ImageInfo), s.cx.running = some r) ∧
    (∃ (s : State) (p : BitVec 6), s.cx.state ≠ 4 ∧ s.cx.hoPending = true ∧ isHeadframe s = true ∧ p.toNat ≠ s.ri.position ∧
      s.cx.hoDone.contains p.toNat = false) ∧
    (∃ (s : State) (p : BitVec 6), s.cx.state = 4 ∧ isHeadframe s = true ∧ p.toNat ≠ s.ri.position ∧ s.cx.hoDone.contains p.toNat =
      false) ∧
    (∃ (s : State) (img : ImageInfo) (old : ImageInfo), s.cx.staged = some img ∧ s.cx.running = some old) ∧
    (∃ (s : State) (why : BitVec 2) (img : ImageInfo) (old : ImageInfo), s.cx.state = 4 ∧ s.cx.staged = some img ∧ s.cx.previous =
      some old ∧ (why = 1 ∨ why = 2 ∨ why = 0 ∧ s.cx.hoStart.toNat + 3000000 < s.power.rtb.toNat ∧ s.ri.position ∉ s.cx.hoDone)) ∧
    (∃ (s : State) (c : BitVec 3), 4 ≤ s.power.state.code ∧ s.cx.state ≠ 5 ∧ tblGet 0 s.cx.signals c.toNat + 50 * 1600000 ≤ s.clock)
      :=
  ⟨⟨inRom, false, 0, by decide⟩,
   ⟨{ inRom with cx := { state := 2 } }, by decide⟩,
   ⟨{ rdy with mem := [(6, 1), (128, 1)] }, 0, ⟨1, 0, 0, 0⟩, by decide⟩,
   ⟨{ rdy with ri := { rdy.ri with hf := false } }, 0x40000000, by decide⟩,
   ⟨rdy, 0x40000000, by decide⟩,
   ⟨granted rdy 0, 0x40000000, by decide⟩,
   ⟨{ rdy with ri := { rdy.ri with hf := false }, cx := { rdy.cx with state := 2, hoState := 1 } }, by decide⟩,
   ⟨inRom, 0, [], by decide⟩,
   ⟨{ rdy with cx := { rdy.cx with hoState := 1, stageOk := true, staged := some {} } }, {}, [], by decide, by decide, by decide, rfl, by simp, by decide +kernel⟩,
   ⟨{ rdy with cx := { rdy.cx with hoState := 1, stageOk := true, staged := some {} }, ri := { rdy.ri with count := 2 } }, {}, [], by decide, by decide, by decide, rfl, by simp, by decide +kernel⟩,
   ⟨{ rdy with cx := { rdy.cx with hoState := 1, stageOk := true, staged := some {} } }, {}, 1, by decide⟩,
   ⟨{ rdy with cx := { rdy.cx with hoState := 2 } }, 0x80000000, by decide⟩,
   ⟨{ rdy with cx := { rdy.cx with hoState := 2 } }, 0x40000000, by decide⟩,
   ⟨{ rdy with cx := { rdy.cx with hoState := 3 } }, 1, by decide⟩,
   ⟨{ rdy with cx := { rdy.cx with hoPending := true, staged := some {} } }, {}, by decide⟩,
   ⟨rdy, {}, by decide⟩,
   ⟨{ rdy with cx := { rdy.cx with hoPending := true } }, 1, by decide⟩,
   ⟨{ rdy with cx := { rdy.cx with state := 4 } }, 1, by decide⟩,
   ⟨{ rdy with cx := { rdy.cx with staged := some {} } }, {}, {}, by decide⟩,
   ⟨{ rdy with cx := { rdy.cx with state := 4, staged := some {}, previous := some {} } }, 1, {}, {}, by decide⟩,
   ⟨rdy, 0, by decide⟩⟩

/-- The hypotheses of `Obligations.SuppliesReferencesAndStartup`, clause by clause. -/
theorem witness_SuppliesReferencesAndStartup :
    (∃ (s : State), s.pins.aux = false ∧ s.pins.vinPresent = false) ∧
    (∃ (s : State) (v : BitVec 16), v ≠ 0 ∧ s.pins.vinPresent = false ∧ s.pins.pwrEn = false) ∧
    (∃ (s : State), s.pins.pwrEn = false ∧ startReady { s with pins := { s.pins with pwrEn := true }, power := { s.power with nextCause := 1, nextRequester := 0 } }
      = true) ∧
    (∃ (s : State) (b : Bool), startReady { s with power := { s.power with bankCharged := s.power.bankCharged || b } } = true) ∧
    (∃ (s : State), s.pins.pwrEn = true ∧ mainPower s = true ∧ s.pins.aux = true) ∧
    (∃ (s : State) (t : Nat), s.power.pwrEnFellAt = some t ∧ s.pins.pwrEn = false ∧ s.pins.thermTrip = true ∧ t + 100 * 1600000 ≤
      s.clock) ∧
    (∃ (s : State) (t : Nat), s.power.moduleResetAt = some t ∧ t + 20 * 1600000 ≤ s.clock ∧ s.pins.pwrEn = true ∧ s.dp.hottest <
      tempThreshold s 1 4 ∧ s.dp.hotStack < tempThreshold s 2 4 ∧ s.dp.hotOptics < tempThreshold s 3 4 ∧ s.dp.iin10us ≤ 5500) ∧
    (∃ (s : State), mainPower s = true ∧ s.power.pllHold = none ∧ s.power.pllRef = 1 ∧ s.ri.elected = none ∧ s.ri.valid = false) ∧
    (∃ (s : State) (t : Nat), s.power.pllHold = some t ∧ t + 10 * 1600000 ≤ s.clock) ∧
    (∃ (s : State), mainPower s = true ∧ s.power.pllRef = 4 ∧ s.ri.elected = none ∧ s.ri.valid = false) ∧
    (∃ (s : State) (us : BitVec 16), mainPower s = true ∧ s.power.pllPending = true ∧ s.power.pllHold = none ∧ us.toNat ≤ 200 ∧
      s.ri.phase ≠ 4) ∧
    (∃ (s : State), s.power.state = PowerState.mainOn ∧ s.power.softReset = false ∧ s.ms.state ≠ 3) ∧
    (∃ (s : State), s.power.state = PowerState.mainOn ∧ s.power.softReset = true) ∧
    (∃ (s : State) (img : ImageInfo), s.power.state = PowerState.fwLoaded ∧ s.cx.running = some img ∧ s.store.idOk = true ∧
      s.ke.state ≠ 2 ∧ (∀ e ∈ s.store.seals, e.1 ≠ 0)) ∧
    (∃ (s : State), s.power.state = PowerState.configured ∧ tripPending s = true) ∧
    (∃ (s : State), s.power.state = PowerState.configured ∧ tripPending s = false) ∧
    (∃ (s : State), s.power.state = PowerState.calibrating ∧ s.hb.selfcal = false ∧ s.mc.calBusy = false ∧ (∀ e ∈ s.tgs,
      e.2.calActive = false) ∧ s.ri.peerLight = false ∧ (s.ri.crosscut = false ∨ s.ri.light = false)) :=
  ⟨⟨{ rdy with pins := { aux := false, vinPresent := false } }, by decide⟩,
   ⟨{ rdy with pins := { pwrEn := false, vinPresent := false } }, 1, by decide⟩,
   ⟨{ rdy with pins := { pwrEn := false }, power := { state := .aux, railsOn := false } }, by decide⟩,
   ⟨{ rdy with power := { state := .aux, railsOn := false } }, false, by decide⟩,
   ⟨rdy, by decide⟩,
   ⟨{ rdy with pins := { pwrEn := false, thermTrip := true }, power := { rdy.power with pwrEnFellAt := some 0 } }, 0, by decide⟩,
   ⟨{ rdy with power := { rdy.power with moduleResetAt := some 0 } }, 0, by decide⟩,
   ⟨{ rdy with ri := {} }, by decide⟩,
   ⟨{ rdy with power := { rdy.power with pllHold := some 0 } }, 0, by decide⟩,
   ⟨{ rdy with ri := {}, power := { rdy.power with pllRef := 4 } }, by decide⟩,
   ⟨{ rdy with power := { rdy.power with pllPending := true } }, 200, by decide⟩,
   ⟨{ rdy with power := { rdy.power with state := .mainOn } }, by decide⟩,
   ⟨{ rdy with power := { rdy.power with state := .mainOn, softReset := true } }, by decide⟩,
   ⟨{ rdy with power := { rdy.power with state := .fwLoaded } }, {}, by decide⟩,
   ⟨{ rdy with power := { rdy.power with state := .configured }, store := { trips := [{ kind := 1 }] } }, by decide⟩,
   ⟨{ rdy with power := { rdy.power with state := .configured } }, by decide⟩,
   ⟨{ rdy with power := { rdy.power with state := .calibrating } }, by decide⟩⟩

/-- The hypotheses of `Obligations.CalibrationAgeingAndMarginPlan`, clause by clause. -/
theorem witness_CalibrationAgeingAndMarginPlan :
    (∃ (s : State) (g : BitVec 6), 6 ≤ s.power.state.code ∧ s.cx.state ≠ 5 ∧ (getTg s g.toNat).calCount ≠ 0 ∧ (getTg s
      g.toNat).calLast.toNat + s.hb.margin.interval * 100000000 ≤ s.power.rtb.toNat) ∧
    (∃ (s : State) (g : Nat) (h : Nat), tgEnabled s g = true ∧ (getTg s g).calActive = false ∧ tblWf { } s.tgs = true ∧ h ≠ g) ∧
    (∃ (s : State) (g : Nat), (tgEnabled s g = false ∨ (getTg s g).calActive = true)) ∧
    (∃ (s : State) (g : BitVec 6), (getTg s g.toNat).calActive = true ∧ uncalibrated s g.toNat = 0 ∧ s.power.state ≠
      PowerState.calibrating) ∧
    (∃ (s : State) (g : BitVec 6), (getTg s g.toNat).calActive = true ∧ uncalibrated s g.toNat = 0 ∧ s.power.state =
      PowerState.calibrating ∧ (getTg (finishGroupCal s g.toNat) g.toNat).startCals < 63) ∧
    (∃ (s : State) (g : Nat), tblWf { } s.tgs = true ∧ s.hb.margin.dtcal * 16 ≥ 10 * (groupTemp s g - (getTg s
      g).calStartTemp).natAbs) ∧
    (∃ (s : State) (g : BitVec 6), (getTg s g.toNat).calDue = true ∧ (getTg s g.toNat).calLate = false ∧ (getTg s g.toNat).calDueAt
      + 1600000000 ≤ s.clock) ∧
    (∃ (s : State) (p : Bool) (v : BitVec 32), mayWrite s (Accessor.pf0 p) 3 = true ∧ takesWork s 3 = true ∧ 6 ≤ s.power.state.code
      ∧ s.cx.state ≠ 5 ∧ v.getLsbD 31 = true ∧ v.getLsbD 30 = false ∧ v.getLsbD 6 = false) ∧
    (∃ (s : State) (p : Bool) (v : BitVec 32), mayWrite s (Accessor.pf0 p) 3 = true ∧ takesWork s 3 = true ∧ 6 ≤ s.power.state.code
      ∧ s.cx.state ≠ 5 ∧ v.getLsbD 31 = true ∧ v.getLsbD 30 = false ∧ v.getLsbD 6 = true) ∧
    (∃ (s : State) (p : Bool) (v : BitVec 32), mayWrite s (Accessor.pf0 p) 3 = true ∧ takesWork s 3 = true ∧ 6 ≤ s.power.state.code
      ∧ s.cx.state ≠ 5 ∧ v.getLsbD 31 = false ∧ v.getLsbD 30 = true ∧ planAdmitted s = false) ∧
    (∃ (s : State) (p : Bool) (v : BitVec 32), mayWrite s (Accessor.pf0 p) 3 = true ∧ takesWork s 3 = true ∧ 6 ≤ s.power.state.code
      ∧ s.cx.state ≠ 5 ∧ v.getLsbD 31 = false ∧ v.getLsbD 30 = true ∧ planAdmitted s = true) ∧
    (∃ (s : State), s.hb.selfcal = true ∧ s.power.state ≠ PowerState.calibrating) ∧
    (∃ (s : State) (p : Bool) (v : BitVec 32), mayWrite s (Accessor.pf0 p) 3 = true ∧ (5 ≤ v.toNat % 128 ∧ v.toNat % 128 ≤ v.toNat /
      256 % 128 ∧ v.toNat / 256 % 128 ≤ 100)) ∧
    (∃ (s : State) (p : Bool) (v : BitVec 32), mayWrite s (Accessor.pf0 p) 3 = true ∧ (¬(5 ≤ v.toNat % 128 ∧ v.toNat % 128 ≤ v.toNat
      / 256 % 128 ∧ v.toNat / 256 % 128 ≤ 100))) ∧
    (∃ (s : State) (p : Bool) (v : BitVec 32), mayWrite s (Accessor.pf0 p) 3 = true ∧ (60 ≤ v.toNat % 1024 ∧ v.toNat % 1024 ≤
      v.toNat / 1024 % 1024 ∧ v.toNat / 1024 % 1024 ≤ 600)) ∧
    (∃ (s : State) (p : Bool) (v : BitVec 32), mayWrite s (Accessor.pf0 p) 3 = true ∧ (¬(60 ≤ v.toNat % 1024 ∧ v.toNat % 1024 ≤
      v.toNat / 1024 % 1024 ∧ v.toNat / 1024 % 1024 ≤ 600))) ∧
    (∃ (s : State) (p : Bool) (v : BitVec 32), mayWrite s (Accessor.pf0 p) 3 = true ∧ (v.toNat / 65536 % 128 ≤ v.toNat / 16777216 %
      128 ∧ v.toNat / 16777216 % 128 ≤ 100 ∧ 8 ≤ v.toNat % 32 ∧ v.toNat % 32 ≤ v.toNat / 256 % 32 ∧ v.toNat / 256 % 32 ≤ 25)) ∧
    (∃ (s : State) (p : Bool) (v : BitVec 32), mayWrite s (Accessor.pf0 p) 3 = true ∧ (¬(v.toNat / 65536 % 128 ≤ v.toNat / 16777216
      % 128 ∧ v.toNat / 16777216 % 128 ≤ 100 ∧ 8 ≤ v.toNat % 32 ∧ v.toNat % 32 ≤ v.toNat / 256 % 32 ∧ v.toNat / 256 % 32 ≤ 25))) ∧
    (∃ (s : State) (p : Bool) (v : BitVec 32), mayWrite s (Accessor.pf0 p) 3 = true ∧ (v.toNat / 65536 % 4 ≤ v.toNat / 16777216 % 4
      ∧ v.toNat / 16777216 % 4 ≤ 2 ∧ v.toNat % 32 ≤ v.toNat / 256 % 32 ∧ v.toNat / 256 % 32 ≤ 16)) ∧
    (∃ (s : State) (p : Bool) (v : BitVec 32), mayWrite s (Accessor.pf0 p) 3 = true ∧ (¬(v.toNat / 65536 % 4 ≤ v.toNat / 16777216 %
      4 ∧ v.toNat / 16777216 % 4 ≤ 2 ∧ v.toNat % 32 ≤ v.toNat / 256 % 32 ∧ v.toNat / 256 % 32 ≤ 16))) ∧
    (∃ (s : State), clipMargin s s.hb.margin = s.hb.margin) ∧
    (∃ (s : State), clipMargin s s.hb.margin ≠ s.hb.margin) ∧
    (∃ (s : State) (g : Nat), tblWf { } s.tgs = true ∧ g < 64) ∧
    (∃ (s : State) (fs : List (BitVec 32)) (fu : List (BitVec 32)) (ts : BitVec 32) (tu : BitVec 32), mainPower s = true ∧ fs.length
      = 64 ∧ fu.length = 64 ∧ 0 ∉ fu ∧ ts ≠ 0 ∧ tu ≠ 0) ∧
    (∃ (s : State), s.hb.state ≠ 0 ∧ level s < 3 ∧ s.hb.replanPending = true) ∧
    (∃ (s : State), s.hb.state ≠ 0 ∧ level s < 3 ∧ s.hb.replanPending = false ∧ 168 ≤ s.hb.hours) ∧
    (∃ (s : State) (p : Bool) (v : BitVec 32), mayWrite s (Accessor.pf0 p) 3 = true ∧ takesWork s 3 = true ∧ v.getLsbD 31 = true ∧
      level s < 3) ∧
    (∃ (s : State) (p : Bool) (v : BitVec 32), mayWrite s (Accessor.pf0 p) 3 = true ∧ takesWork s 3 = true ∧ v.getLsbD 31 = true ∧ 3
      ≤ level s) :=
  ⟨⟨{ { rdy with tgs := [(0, { calCount := 1 })] } with power := { rdy.power with rtb := 60000000000 } }, 0, by decide⟩,
   ⟨rdy, 0, 1, by decide⟩,
   ⟨{ rdy with tgs := [(0, { calActive := true })] }, 0, by decide⟩,
   ⟨{ calState with power := rdy.power }, 0, by decide +kernel⟩,
   ⟨calState, 0, by decide, by decide +kernel, by decide, by unfold finishGroupCal; rw [show (groupTiles (BitVec.toNat (0 : BitVec 6))) = groupTiles 0 from rfl, calState_done]; decide⟩,
   ⟨{ rdy with tgs := [(0, { calStartTemp := 80 })] }, 0, by decide⟩,
   ⟨{ rdy with tgs := [(0, { calDue := true })] }, 0, by decide⟩,
   ⟨rdy, false, 0x80000000, by decide⟩,
   ⟨rdy, false, 0x80000040, by decide⟩,
   ⟨rdy, false, 0x40000000, by decide⟩,
   ⟨planned {}, false, 0x40000000, by decide⟩,
   ⟨{ rdy with hb := { rdy.hb with selfcal := true } }, by decide⟩,
   ⟨rdy, false, 0x6405, by decide⟩,
   ⟨rdy, false, 0x6404, by decide⟩,
   ⟨rdy, false, 614460, by decide⟩,
   ⟨rdy, false, 614459, by decide⟩,
   ⟨rdy, false, 1677728008, by decide⟩,
   ⟨rdy, false, 0, by decide⟩,
   ⟨rdy, false, 0, by decide⟩,
   ⟨rdy, false, 1, by decide⟩,
   ⟨rdy, by decide⟩,
   ⟨{ rdy with hb := { rdy.hb with margin := { tol := 30 } } }, by decide⟩,
   ⟨rdy, 0, by decide⟩,
   ⟨rdy, List.replicate 64 95, List.replicate 64 100, 1, 1, by decide⟩,
   ⟨{ rdy with hb := { rdy.hb with replanPending := true } }, by decide⟩,
   ⟨{ rdy with hb := { rdy.hb with hours := 168 } }, by decide⟩,
   ⟨rdy, false, 0x80000000, by decide⟩,
   ⟨{ rdy with dp := { lArray := 3 } }, false, 0x80000000, by decide⟩⟩

/-- The hypotheses of `Obligations.AssaysAndMonitorConverter`, clause by clause. -/
theorem witness_AssaysAndMonitorConverter :
    (∃ (s : State) (p : Bool) (v : BitVec 32), mayWrite s (Accessor.pf0 p) 3 = true ∧ takesWork s 3 = true ∧ v.getLsbD 31 = true ∧
      v.getLsbD 30 = false ∧ s.hb.state ≠ 0 ∧ s.hb.assay = none ∧ bits v.toNat 28 2 = 0 ∧ level s < 3 ∧ bits v.toNat 20 8 < 64 ∧
      tgEnabled s (bits v.toNat 20 8) = true ∧ 1024 ≤ bits v.toNat 9 11 ∧ bits v.toNat 9 11 < 1088 ∧ (getRelief s (bits v.toNat 20 8)
      (bits v.toNat 9 11 - 1024)).state = 0) ∧
    (∃ (s : State) (p : Bool) (v : BitVec 32), mayWrite s (Accessor.pf0 p) 3 = true ∧ takesWork s 3 = true ∧ v.getLsbD 31 = true ∧
      v.getLsbD 30 = false ∧ s.hb.state ≠ 0 ∧ s.hb.assay = none ∧ bits v.toNat 28 2 = 0 ∧ level s < 3 ∧ 64 ≤ bits v.toNat 20 8) ∧
    (∃ (s : State) (p : Bool) (v : BitVec 32), mayWrite s (Accessor.pf0 p) 3 = true ∧ takesWork s 3 = true ∧ v.getLsbD 31 = true ∧
      v.getLsbD 30 = false ∧ s.hb.state ≠ 0 ∧ s.hb.assay = none ∧ bits v.toNat 28 2 = 0 ∧ level s < 3 ∧ bits v.toNat 20 8 < 64 ∧
      tgEnabled s (bits v.toNat 20 8) = true ∧ 1024 ≤ bits v.toNat 9 11 ∧ bits v.toNat 9 11 < 1088 ∧ (getRelief s (bits v.toNat 20 8)
      (bits v.toNat 9 11 - 1024)).state ≠ 0) ∧
    (∃ (s : State) (p : Bool) (v : BitVec 32) (b : Binding), mayWrite s (Accessor.pf0 p) 3 = true ∧ takesWork s 3 = true ∧ v.getLsbD
      31 = true ∧ v.getLsbD 30 = false ∧ s.hb.state ≠ 0 ∧ s.hb.assay = none ∧ bits v.toNat 28 2 = 1 ∧ level s < 3 ∧ bits v.toNat 20 8
      < 64 ∧ bits v.toNat 9 11 < 1024 ∧ tgEnabled s (bits v.toNat 20 8) = true ∧ getBinding s (bits v.toNat 20 8) (bits v.toNat 9 11)
      = some b ∧ b.bound = true) ∧
    (∃ (s : State) (p : Bool) (v : BitVec 32), mayWrite s (Accessor.pf0 p) 3 = true ∧ takesWork s 3 = true ∧ v.getLsbD 31 = true ∧
      v.getLsbD 30 = false ∧ s.hb.state ≠ 0 ∧ s.hb.assay = none ∧ bits v.toNat 28 2 = 2 ∧ level s < 3 ∧ planAdmitted s = false ∧
      ccEnabled s (bits v.toNat 20 8) = true) ∧
    (∃ (s : State) (p : Bool) (v : BitVec 32), mayWrite s (Accessor.pf0 p) 3 = true ∧ takesWork s 3 = true ∧ v.getLsbD 31 = true ∧
      v.getLsbD 30 = false ∧ s.hb.state ≠ 0 ∧ s.hb.assay = none ∧ bits v.toNat 28 2 = 2 ∧ 3 ≤ level s) ∧
    (∃ (s : State) (p : Bool) (v : BitVec 32), mayWrite s (Accessor.pf0 p) 3 = true ∧ takesWork s 3 = true ∧ v.getLsbD 31 = true ∧
      v.getLsbD 30 = false ∧ s.hb.state ≠ 0 ∧ s.hb.assay ≠ none ∧ bits v.toNat 28 2 = 2) ∧
    (∃ (s : State) (a : Assay) (p : Bool) (v : BitVec 32), s.hb.assay = some a ∧ mayWrite s (Accessor.pf0 p) 3 = true ∧ v.getLsbD 31
      = false ∧ v.getLsbD 30 = true ∧ a.heldTile = none) ∧
    (∃ (s : State) (a : Assay), s.hb.assay = some a ∧ a.heldTile = none ∧ a.kind = 1 ∧ a.shotSeen = 0 ∧ a.startedAt + 10 *
      1600000000 ≤ s.clock) ∧
    (∃ (s : State) (a : Assay), s.hb.assay = some a ∧ a.kind = 2 ∧ a.heldTile = none) ∧
    (∃ (s : State) (a : Assay) (shots : Nat) (vs : List Nat), s.hb.assay = some a ∧ a.kind ≠ 2 ∧ tileVerdicts s a = some (vs, shots)
      ∧ a.retire = false) ∧
    (∃ (s : State), s.mc.state ≠ 0 ∧ s.mc.en = true ∧ s.mc.calBusy = false ∧ s.mc.running = false ∧ takesWork s 4 = true) ∧
    (∃ (s : State), s.mc.state ≠ 0 ∧ s.mc.en = true ∧ s.mc.calBusy = false ∧ s.mc.running = true) ∧
    (∃ (s : State) (code : Int), s.mc.running = true ∧ bits (mcEntry s s.mc.entry) 16 8 = 0 ∧ mcDifferential (bits (mcEntry s
      s.mc.entry) 24 6) = false ∧ 0 ≤ code ∧ code ≤ 4095 ∧ s.mc.left = false ∧ tblWf { } s.mc.results = true ∧ s.mc.entry < 31) ∧
    (∃ (s : State) (p : Bool) (v : BitVec 32), mayWrite s (Accessor.pf0 p) 4 = true ∧ takesWork s 4 = true ∧ v.getLsbD 30 = true ∧
      v.getLsbD 31 = true ∧ s.mc.en = true) ∧
    (∃ (s : State), s.mc.calBusy = true) ∧
    (∃ (s : State) (p : Bool) (v : BitVec 32), mayWrite s (Accessor.pf0 p) 4 = true ∧ bits v.toNat 24 6 ≤ 39) ∧
    (∃ (s : State) (p : Bool) (v : BitVec 32), mayWrite s (Accessor.pf0 p) 4 = true ∧ 39 < bits v.toNat 24 6) ∧
    (∃ (s : State) (p : Bool) (v : BitVec 32), mayWrite s (Accessor.pf0 p) 4 = true ∧ bits v.toNat 17 10 ≤ 1000 ∧ bits v.toNat 30 2
      ≠ 3 ∧ (bits v.toNat 30 2 = 1 → bits v.toNat 0 16 ≠ 0)) ∧
    (∃ (s : State) (p : Bool) (v : BitVec 32), mayWrite s (Accessor.pf0 p) 4 = true ∧ (1000 < bits v.toNat 17 10 ∨ bits v.toNat 30 2
      = 3 ∨ bits v.toNat 30 2 = 1 ∧ bits v.toNat 0 16 = 0)) :=
  ⟨⟨rdy, false, 2148007936, by decide⟩,
   ⟨rdy, false, 2214592512, by decide⟩,
   ⟨{ rdy with tgs := [(0, { relief := [(0, { state := 1 })] })] }, false, 2148007936, by decide⟩,
   ⟨{ rdy with bindings := [(0, some {})] }, false, 2415919104, {}, by decide⟩,
   ⟨rdy, false, 2684354560, by decide⟩,
   ⟨{ rdy with dp := { lArray := 3 } }, false, 2684354560, by decide⟩,
   ⟨{ rdy with hb := { rdy.hb with assay := some {} } }, false, 0xA0000000, by decide⟩,
   ⟨{ rdy with hb := { rdy.hb with assay := some {} } }, {}, false, 0x40000000, by decide⟩,
   ⟨{ { rdy with hb := { rdy.hb with assay := some { kind := 1 } } } with clock := 40000000000 }, { kind := 1 }, by decide⟩,
   ⟨{ rdy with hb := { rdy.hb with assay := some { kind := 2 } } }, { kind := 2 }, by decide⟩,
   ⟨{ rdy with hb := { rdy.hb with assay := some { kind := 1, shotSeen := 64 } } }, { kind := 1, shotSeen := 64 }, 1088, [], by decide⟩,
   ⟨{ rdy with mc := { state := 2, en := true } }, by decide⟩,
   ⟨{ rdy with mc := { state := 2, en := true, running := true } }, by decide⟩,
   ⟨{ rdy with mc := { state := 2, running := true } }, 0, by decide⟩,
   ⟨{ rdy with mc := { state := 2, en := true } }, false, 0xC0000000, by decide⟩,
   ⟨{ rdy with mc := { state := 2, calBusy := true } }, by decide⟩,
   ⟨rdy, false, 0x27000000, by decide⟩,
   ⟨rdy, false, 0x28000000, by decide⟩,
   ⟨rdy, false, 131072000, by decide⟩,
   ⟨rdy, false, 131203072, by decide⟩⟩

/-- The hypotheses of `Obligations.DeputyLevelsTripsAndResets`, clause by clause. -/
theorem witness_DeputyLevelsTripsAndResets :
    (∃ (s : State) (k : BitVec 9), k.toNat < 408 ∧ s.pins.aux = true) ∧
    (∃ (k : Nat), 400 ≤ k) ∧
    (∃ (s : State) (src : Nat) (hot : Int), mainPower s = true ∧ srcLevel s src < tempLevel s src hot ∧ srcLevel s src ≠ 4) ∧
    (∃ (src : Nat) (x : Nat), 1 ≤ src ∧ src ≤ 4 ∧ 1 ≤ x ∧ x ≤ 4 ∧ x ≠ src) ∧
    (∃ (s : State) (vin : Nat) (v1 : Nat) (i10 : Nat) (i100 : Nat) (i1 : Nat) (p : Nat), mainPower s = true ∧ 3990 ≤ vin ∧ vin ≤
      4410 ∧ 3990 ≤ s.dp.vin ∧ s.dp.vin ≤ 4410 ∧ s.dp.lPower = 0 ∧ ((if 5500 < i10 then 4 else if v1 < 3900 ∨ 4000 < i100 then 3 else
      if vin < 3990 ∨ 3800 < i1 then 2 else if s.manifest.powerLimit < p then 1 else 0) = 0)) ∧
    (∃ (s : State) (vin : Nat) (v1 : Nat) (i10 : Nat) (i100 : Nat) (i1 : Nat) (p : Nat), mainPower s = true ∧ 3990 ≤ vin ∧ vin ≤
      4410 ∧ 3990 ≤ s.dp.vin ∧ s.dp.vin ≤ 4410 ∧ (s.dp.lPower < if 5500 < i10 then 4 else if v1 < 3900 ∨ 4000 < i100 then 3 else if
      vin < 3990 ∨ 3800 < i1 then 2 else if s.manifest.powerLimit < p then 1 else 0) ∧ ((if 5500 < i10 then 4 else if v1 < 3900 ∨ 4000
      < i100 then 3 else if vin < 3990 ∨ 3800 < i1 then 2 else if s.manifest.powerLimit < p then 1 else 0) < 4)) ∧
    (∃ (s : State) (vin : Nat) (v1 : Nat) (i10 : Nat) (i100 : Nat) (i1 : Nat) (p : Nat), mainPower s = true ∧ 3990 ≤ vin ∧ vin ≤
      4410 ∧ 3990 ≤ s.dp.vin ∧ s.dp.vin ≤ 4410 ∧ (s.dp.lPower < if 5500 < i10 then 4 else if v1 < 3900 ∨ 4000 < i100 then 3 else if
      vin < 3990 ∨ 3800 < i1 then 2 else if s.manifest.powerLimit < p then 1 else 0) ∧ ((if 5500 < i10 then 4 else if v1 < 3900 ∨ 4000
      < i100 then 3 else if vin < 3990 ∨ 3800 < i1 then 2 else if s.manifest.powerLimit < p then 1 else 0) = 4)) ∧
    (∃ (s : State) (src : BitVec 3) (t : Nat), src ≠ 0 ∧ src.toNat ≤ 4 ∧ mainPower s = true ∧ belowSince s src.toNat = some t ∧
      srcLevel s src.toNat ≠ 0 ∧ srcLevel s src.toNat ≠ 4 ∧ t + 100 * 1600000 ≤ s.clock) ∧
    (∃ (s : State), mainPower s = true ∧ s.pins.aux = true ∧ s.ri.crosscutMoving = none ∧ s.ri.crosscut = false) ∧
    (∃ (s : State) (vin : Nat), s.pins.pwrEn = true ∧ s.pins.aux = true ∧ vin < 3750 ∧ mainPower s = true) ∧
    (∃ (s : State) (a : Accessor), mayWrite s a 2 = true ∧ shownTrip s = none) ∧
    (∃ (s : State) (a : Accessor) (v : BitVec 32) (r : TripRec), mayWrite s a 2 = true ∧ shownTrip s = some r ∧ v.toNat % 65536 ≠
      r.seq) ∧
    (∃ (s : State) (a : Accessor) (v : BitVec 32) (r : TripRec), mayWrite s a 2 = true ∧ shownTrip s = some r ∧ v.toNat % 65536 =
      r.seq ∧ s.power.state ≠ PowerState.configured) ∧
    (∃ (s : State), s.power.state.code < 4) ∧
    (∃ (s : State), 4 ≤ s.power.state.code) ∧
    (∃ (s : State) (a : Accessor) (v : BitVec 32), mayWrite s a 0 = true ∧ v.toNat / 65536 = 42435 ∧ s.power.softReset = false ∧
      v.getLsbD 1 = true) ∧
    (∃ (s : State) (a : Accessor) (v : BitVec 32), mayWrite s a 0 = true ∧ v.toNat / 65536 = 42435 ∧ s.power.softReset = false ∧
      v.getLsbD 1 = false ∧ v.getLsbD 0 = true ∧ softAllowed s = true) ∧
    (∃ (s : State) (a : Accessor) (v : BitVec 32), mayWrite s a 0 = true ∧ v.toNat / 65536 = 42435 ∧ s.power.softReset = false ∧
      v.getLsbD 1 = false ∧ v.getLsbD 0 = true ∧ softAllowed s = false) ∧
    (∃ (v : BitVec 32), v.toNat / 65536 ≠ 42435) :=
  ⟨⟨rdy, 407, by decide⟩,
   ⟨400, by decide⟩,
   ⟨rdy, 1, 1500, by decide⟩,
   ⟨1, 2, by decide⟩,
   ⟨rdy, 4200, 4200, 0, 0, 0, 0, by decide⟩,
   ⟨rdy, 4200, 3899, 0, 0, 0, 0, by decide⟩,
   ⟨rdy, 4200, 4200, 5501, 0, 0, 0, by decide⟩,
   ⟨{ rdy with dp := { lPower := 1, belowPower := some 0 } }, 4, 0, by decide⟩,
   ⟨{ rdy with ri := { rdy.ri with crosscut := false } }, by decide⟩,
   ⟨rdy, 0, by decide⟩,
   ⟨rdy, .pf0 false, by decide⟩,
   ⟨{ rdy with store := { trips := [{ kind := 1 }] } }, .pf0 false, 1, { kind := 1 }, by decide⟩,
   ⟨{ rdy with store := { trips := [{ kind := 1 }] } }, .pf0 false, 0, { kind := 1 }, by decide⟩,
   ⟨inRom, by decide⟩,
   ⟨rdy, by decide⟩,
   ⟨rdy, .pf0 false, 2781020162, by decide⟩,
   ⟨rdy, .pf0 false, 2781020161, by decide⟩,
   ⟨planned {}, .pf0 false, 2781020161, by decide⟩,
   ⟨0, by decide⟩⟩

/-- The hypotheses of `Obligations.RingLinksAndFlits`, clause by clause. -/
theorem witness_RingLinksAndFlits :
    (∃ (s : State) (p : BitVec 2), s.ri.crosscut = false ∧ s.ri.crosscutMoving = none ∧ 3 ≤ s.power.state.code ∧ s.ri.phase = 1 ∧
      (getLink s p.toNat).up = false ∧ (getLink s p.toNat).trained = false ∧ s.ri.envelope.1 ≤ 4 ∧ s.ri.envelope.2 = 4) ∧
    (∃ (s : State) (p : BitVec 2), s.ri.crosscut = false ∧ s.ri.crosscutMoving = none ∧ 3 ≤ s.power.state.code ∧ s.ri.phase = 1 ∧
      (getLink s p.toNat).up = false ∧ (getLink s p.toNat).trained = false ∧ s.ri.envelope.1 ≤ 3 ∧ 3 ≤ s.ri.envelope.2) ∧
    (∃ (s : State) (p : BitVec 2), s.ri.crosscut = false ∧ s.ri.crosscutMoving = none ∧ 3 ≤ s.power.state.code ∧ s.ri.phase = 1 ∧
      (getLink s p.toNat).up = false ∧ (getLink s p.toNat).trained = false ∧ 1 ≤ s.ri.envelope.1) ∧
    (∃ (s : State) (p : BitVec 2) (t : State), s.ri.crosscut = false ∧ s.ri.crosscutMoving = none ∧ 3 ≤ s.power.state.code ∧
      s.ri.phase = 2 ∧ (getLink s p.toNat).up = false ∧ (getLink s p.toNat).trained = true ∧ s.store.idOk = true ∧ s.ke.state ≠ 3 ∧ (t
      = modLink { s with ri := { s.ri with statusCleared := false }, ke := { s.ke with nextKey := s.ke.nextKey + 1, drbgCount := s.ke.drbgCount + 1 } }
      p.toNat (fun l => { l with up := true, trained := false, bornAt := s.ri.phaseAt + 1, key := if (getLink s (oppositePort p.toNat)).up = true ∧ (getLink s (oppositePort p.toNat)).bornAt = s.ri.phaseAt + 1 then (getLink s (oppositePort p.toNat)).key else s.ke.nextKey }))
      ∧ portsUp t = false) ∧
    (∃ (s : State) (p : BitVec 2) (t : State), s.ri.crosscut = false ∧ s.ri.crosscutMoving = none ∧ 3 ≤ s.power.state.code ∧
      s.ri.phase = 2 ∧ (getLink s p.toNat).up = false ∧ (getLink s p.toNat).trained = true ∧ s.store.idOk = true ∧ s.ke.state ≠ 3 ∧ (t
      = modLink { s with ri := { s.ri with statusCleared := false }, ke := { s.ke with nextKey := s.ke.nextKey + 1, drbgCount := s.ke.drbgCount + 1 } }
      p.toNat (fun l => { l with up := true, trained := false, bornAt := s.ri.phaseAt + 1, key := if (getLink s (oppositePort p.toNat)).up = true ∧ (getLink s (oppositePort p.toNat)).bornAt = s.ri.phaseAt + 1 then (getLink s (oppositePort p.toNat)).key else s.ke.nextKey }))
      ∧ portsUp t = true ∧ 7 ≤ s.power.state.code) ∧
    (∃ (s : State) (p : BitVec 2) (a : BitVec 2), s.ri.crosscut = false ∧ s.ri.crosscutMoving = none ∧ 3 ≤ s.power.state.code ∧
      s.ri.phase = 2 ∧ (getLink s p.toNat).up = false ∧ (getLink s p.toNat).trained = true ∧ s.store.idOk = true ∧ s.ke.state ≠ 3 ∧ a
      ≠ 0) ∧
    (∃ (s : State), s.ri.crosscut = true ∧ mainPower s = true) ∧
    (∃ (s : State) (p : Nat) (q : Nat), tblWf { } s.ri.ports = true ∧ p < 4 ∧ q ≠ p ∧ (getLink s q).up = true) ∧
    (∃ (s : State) (p : Nat), tblWf { } s.ri.ports = true ∧ p < 4 ∧ s.ri.crosscut = false ∧ s.ri.crosscutMoving = none ∧ 3 ≤
      s.power.state.code) ∧
    (∃ (s : State) (p : BitVec 2), (p = 0 ∨ p = 2) ∧ tblWf { } s.ri.ports = true ∧ (getLink s p.toNat).up = true ∧ (getLink s (3 -
      p.toNat)).up = true ∧ s.ri.crosscut = false ∧ (getLink s (3 - p.toNat)).queue = []) ∧
    (∃ (s : State) (p : BitVec 2) (a : BitVec 12), (p = 0 ∨ p = 2) ∧ tblWf { } s.ri.ports = true ∧ (getLink s p.toNat).up = true ∧
      (getLink s (3 - p.toNat)).up = true ∧ s.ri.crosscut = false ∧ (∃ e ∈ if ((getLink s (3 - p.toNat)).replay.any fun e => e.1 ==
      a.toNat) = true then List.drop 1 (List.dropWhile (fun e => e.1 != a.toNat) (getLink s (3 - p.toNat)).replay) else (getLink s (3
      - p.toNat)).replay, 16 ≤ e.2.1)) ∧
    (∃ (s : State) (p : BitVec 2) (seq : BitVec 12), (p = 0 ∨ p = 2) ∧ (getLink s p.toNat).up = true ∧ seq.toNat ≠ ((getLink s
      p.toNat).rxSeq + 1) % 4096) ∧
    (∃ (s : State) (p : BitVec 2) (seq : BitVec 12) (d : BitVec 6), (p = 0 ∨ p = 2) ∧ (getLink s p.toNat).up = true ∧ seq.toNat =
      ((getLink s p.toNat).rxSeq + 1) % 4096 ∧ s.ri.valid = true ∧ d.toNat = s.ri.position) ∧
    (∃ (s : State) (p : BitVec 2) (seq : BitVec 12) (d : BitVec 6), (p = 0 ∨ p = 2) ∧ (getLink s p.toNat).up = true ∧ seq.toNat =
      ((getLink s p.toNat).rxSeq + 1) % 4096 ∧ s.ri.valid = true ∧ p = 0 ∧ s.ri.position < d.toNat ∧ (getLink s 1).up = true ∧ tblWf { }
      s.ri.ports = true) ∧
    (∃ (s : State) (p : Nat) (c : Nat), (getLink s p).assembly c = none) ∧
    (∃ (s : State) (b : List (BitVec 8)), isFrozen s 4 (leAt b 2 2) = false ∧ 1 ≤ byteAt b 0 ∧ byteAt b 0 ≤ 5 ∧ leAt b 6 2 ≤ 4096) ∧
    (∃ (s : State) (b : List (BitVec 8)), isFrozen s 4 (leAt b 2 2) = true) ∧
    (∃ (s : State) (b : List (BitVec 8)), isFrozen s 4 (leAt b 2 2) = false ∧ (byteAt b 0 = 0 ∨ 5 < byteAt b 0 ∨ 4096 < leAt b 6 2))
      ∧
    (∃ (s : State) (p : BitVec 2), (getLink s p.toNat).up = true ∧ (getLink s p.toNat).tagReady = [] ∧ (getLink s
      p.toNat).windowFlits ≠ 0 ∧ nextCredit (getLink s p.toNat) = none) :=
  ⟨⟨{ rdy with ri := { rdy.ri with crosscut := false, phase := 1 } }, 0, by decide⟩,
   ⟨{ rdy with ri := { rdy.ri with crosscut := false, phase := 1, envelope := (2, 3) } }, 0, by decide⟩,
   ⟨{ rdy with ri := { rdy.ri with crosscut := false, phase := 1, envelope := (1, 3) } }, 0, by decide⟩,
   ⟨{ rdy with ri := { rdy.ri with crosscut := false, phase := 2, ports := [(0, { trained := true })] }, store := { rdy.store with idOk := true } }, 0, modLink { { rdy with ri := { rdy.ri with crosscut := false, phase := 2, ports := [(0, { trained := true })] }, store := { rdy.store with idOk := true } } with ri := { ({ rdy with ri := { rdy.ri with crosscut := false, phase := 2, ports := [(0, { trained := true })] }, store := { rdy.store with idOk := true } }).ri with statusCleared := false }, ke := { ({ rdy with ri := { rdy.ri with crosscut := false, phase := 2, ports := [(0, { trained := true })] }, store := { rdy.store with idOk := true } }).ke with nextKey := ({ rdy with ri := { rdy.ri with crosscut := false, phase := 2, ports := [(0, { trained := true })] }, store := { rdy.store with idOk := true } }).ke.nextKey + 1, drbgCount := ({ rdy with ri := { rdy.ri with crosscut := false, phase := 2, ports := [(0, { trained := true })] }, store := { rdy.store with idOk := true } }).ke.drbgCount + 1 } } 0 (fun l => { l with up := true, trained := false, bornAt := ({ rdy with ri := { rdy.ri with crosscut := false, phase := 2, ports := [(0, { trained := true })] }, store := { rdy.store with idOk := true } }).ri.phaseAt + 1, key := if (getLink ({ rdy with ri := { rdy.ri with crosscut := false, phase := 2, ports := [(0, { trained := true })] }, store := { rdy.store with idOk := true } }) (oppositePort 0)).up = true ∧ (getLink ({ rdy with ri := { rdy.ri with crosscut := false, phase := 2, ports := [(0, { trained := true })] }, store := { rdy.store with idOk := true } }) (oppositePort 0)).bornAt = ({ rdy with ri := { rdy.ri with crosscut := false, phase := 2, ports := [(0, { trained := true })] }, store := { rdy.store with idOk := true } }).ri.phaseAt + 1 then (getLink ({ rdy with ri := { rdy.ri with crosscut := false, phase := 2, ports := [(0, { trained := true })] }, store := { rdy.store with idOk := true } }) (oppositePort 0)).key else ({ rdy with ri := { rdy.ri with crosscut := false, phase := 2, ports := [(0, { trained := true })] }, store := { rdy.store with idOk := true } }).ke.nextKey }), by decide⟩,
   ⟨{ rdy with ri := { rdy.ri with crosscut := false, phase := 2, ports := [(0, { trained := true }), (1, { up := true }), (2, { up := true }), (3, { up := true })] }, store := { rdy.store with idOk := true } }, 0, modLink { { rdy with ri := { rdy.ri with crosscut := false, phase := 2, ports := [(0, { trained := true }), (1, { up := true }), (2, { up := true }), (3, { up := true })] }, store := { rdy.store with idOk := true } } with ri := { ({ rdy with ri := { rdy.ri with crosscut := false, phase := 2, ports := [(0, { trained := true }), (1, { up := true }), (2, { up := true }), (3, { up := true })] }, store := { rdy.store with idOk := true } }).ri with statusCleared := false }, ke := { ({ rdy with ri := { rdy.ri with crosscut := false, phase := 2, ports := [(0, { trained := true }), (1, { up := true }), (2, { up := true }), (3, { up := true })] }, store := { rdy.store with idOk := true } }).ke with nextKey := ({ rdy with ri := { rdy.ri with crosscut := false, phase := 2, ports := [(0, { trained := true }), (1, { up := true }), (2, { up := true }), (3, { up := true })] }, store := { rdy.store with idOk := true } }).ke.nextKey + 1, drbgCount := ({ rdy with ri := { rdy.ri with crosscut := false, phase := 2, ports := [(0, { trained := true }), (1, { up := true }), (2, { up := true }), (3, { up := true })] }, store := { rdy.store with idOk := true } }).ke.drbgCount + 1 } } 0 (fun l => { l with up := true, trained := false, bornAt := ({ rdy with ri := { rdy.ri with crosscut := false, phase := 2, ports := [(0, { trained := true }), (1, { up := true }), (2, { up := true }), (3, { up := true })] }, store := { rdy.store with idOk := true } }).ri.phaseAt + 1, key := if (getLink ({ rdy with ri := { rdy.ri with crosscut := false, phase := 2, ports := [(0, { trained := true }), (1, { up := true }), (2, { up := true }), (3, { up := true })] }, store := { rdy.store with idOk := true } }) (oppositePort 0)).up = true ∧ (getLink ({ rdy with ri := { rdy.ri with crosscut := false, phase := 2, ports := [(0, { trained := true }), (1, { up := true }), (2, { up := true }), (3, { up := true })] }, store := { rdy.store with idOk := true } }) (oppositePort 0)).bornAt = ({ rdy with ri := { rdy.ri with crosscut := false, phase := 2, ports := [(0, { trained := true }), (1, { up := true }), (2, { up := true }), (3, { up := true })] }, store := { rdy.store with idOk := true } }).ri.phaseAt + 1 then (getLink ({ rdy with ri := { rdy.ri with crosscut := false, phase := 2, ports := [(0, { trained := true }), (1, { up := true }), (2, { up := true }), (3, { up := true })] }, store := { rdy.store with idOk := true } }) (oppositePort 0)).key else ({ rdy with ri := { rdy.ri with crosscut := false, phase := 2, ports := [(0, { trained := true }), (1, { up := true }), (2, { up := true }), (3, { up := true })] }, store := { rdy.store with idOk := true } }).ke.nextKey }), by decide⟩,
   ⟨{ { rdy with ri := { rdy.ri with crosscut := false, phase := 2, ports := [(0, { trained := true })] } } with store := { rdy.store with idOk := true } }, 0, 1, by decide⟩,
   ⟨{ rdy with ri := { rdy.ri with ports := [(0, { up := true }), (1, { up := true }), (2, { up := true }), (3, { up := true })] } }, by decide⟩,
   ⟨{ rdy with ri := { rdy.ri with ports := [(1, { up := true })] } }, 0, 1, by decide⟩,
   ⟨{ rdy with ri := { rdy.ri with crosscut := false } }, 0, by decide⟩,
   ⟨{ rdy with ri := { rdy.ri with crosscut := false, ports := [(0, { up := true }), (3, { up := true, replay := [(1, 16, {})] })] } }, 0, by decide⟩,
   ⟨{ rdy with ri := { rdy.ri with crosscut := false, ports := [(0, { up := true }), (3, { up := true, replay := [(1, 16, {})] })] } }, 0, 7, by decide⟩,
   ⟨{ rdy with ri := { rdy.ri with ports := [(0, { up := true }), (1, { up := true }), (2, { up := true }), (3, { up := true })] } }, 0, 5, by decide⟩,
   ⟨{ rdy with ri := { rdy.ri with ports := [(0, { up := true }), (1, { up := true }), (2, { up := true }), (3, { up := true })] } }, 0, 0, 0, by decide⟩,
   ⟨{ rdy with ri := { rdy.ri with ports := [(0, { up := true }), (1, { up := true }), (2, { up := true }), (3, { up := true })] } }, 0, 0, 1, by decide⟩,
   ⟨rdy, 0, 0, by decide⟩,
   ⟨rdy, [1], by decide⟩,
   ⟨withFrozen rdy 4 0, [], by decide⟩,
   ⟨rdy, [], by decide⟩,
   ⟨{ rdy with ri := { rdy.ri with ports := [(0, { up := true, windowFlits := 1 })] } }, 0, by decide⟩⟩

/-- The hypotheses of `Obligations.RingTrainingMembershipAndCrosscut`, clause by clause. -/
theorem witness_RingTrainingMembershipAndCrosscut :
    (∃ (s : State) (serial : BitVec 64), s.ri.phase = 3 ∧ serial ≠ s.store.serial) ∧
    (∃ (s : State) (serial : BitVec 64), s.ri.phase = 3 ∧ serial = s.store.serial ∧ s.ri.best = none) ∧
    (∃ (s : State) (serial : BitVec 64) (n : BitVec 8) (b : BitVec 64) (k : Nat), s.ri.phase = 3 ∧ serial = s.store.serial ∧
      s.ri.best = some (b, k) ∧ s.power.pllHold = none ∧ s.power.pllPending = false ∧ pllSelect { s with ri := { s.ri with elected := some (k, n.toNat + 1), phase := 4, phaseAt := s.clock } }
      = s.power.pllRef) ∧
    (∃ (s : State) (serial : BitVec 64), s.ri.phase = 0 ∧ s.ri.valid = true ∧ s.ri.crosscut = false ∧ 7 ≤ s.power.state.code ∧
      portsUp s = true ∧ serial ≠ s.store.serial) ∧
    (∃ (s : State) (stamp : BitVec 64) (p : Nat) (n : Nat), (getLink s 2).up = true ∧ s.ri.phase = 5 ∧ s.ri.probeSent = some stamp ∧
      s.ri.elected = some (p + 1, n)) ∧
    (∃ (s : State) (p : Nat), (getLink s 0).up = true ∧ s.ri.phase = 5 ∧ s.ri.elected = some (p + 1, p + 2)) ∧
    (∃ (s : State), 2 ≤ s.ri.phase ∧ s.ri.phaseAt + [0, 40, 10, 1, 20, 5, 1].getD s.ri.phase 0 * 1600000 ≤ s.clock) ∧
    (∃ (s : State) (t : Nat), s.ri.retrainAt = some t ∧ t ≤ s.clock ∧ s.ri.state = 5 ∧ portsUp s = true ∧ 7 ≤ s.power.state.code) ∧
    (∃ (s : State) (t : Nat), s.ri.retrainAt = some t ∧ t ≤ s.clock ∧ s.ri.state = 5 ∧ portsUp s = false ∧ s.ri.crosscut = false ∧ 3
      ≤ s.power.state.code) ∧
    (∃ (s : State) (c : BitVec 8), s.ri.valid = true ∧ 1 < s.ri.count ∧ 2 ≤ c.toNat ∧ c.toNat ≤ 5) ∧
    (∃ (s : State), (s.cx.hoState = 1 ∨ s.cx.hoState = 2 ∨ s.cx.hoState = 3) ∧ s.cx.hoPending = false ∧ s.sq.haltHandoff = false) ∧
    (∃ (s : State), s.cx.hoPending = true) ∧
    (∃ (s : State) (report : List (BitVec 64 × BitVec 256 × List (BitVec 6) × BitVec 16)) (p : Nat), s.ri.elected = some (p,
      report.length) ∧ s.ri.phase = 6 ∧ report.length ≤ 64 ∧ (Option.map (fun x => x.1) report[p]? = some s.store.serial) ∧ (∀ r ∈
      report, r.2.2.2.toNat ≤ 240) ∧ s.ri.measured.getD 0 ≤ 240 ∧ s.ri.valid = false) ∧
    (∃ (s : State), s.ri.crosscut = false ∧ s.ri.crosscutMoving = none ∧ mainPower s = false) ∧
    (∃ (s : State) (p : Bool) (v : BitVec 32), s.ri.crosscut = false ∧ s.ri.crosscutMoving = none ∧ mayWrite s (Accessor.pf0 p) 7 =
      true ∧ takesWork s 7 = true ∧ v.getLsbD 30 = true) ∧
    (∃ (s : State) (p : Bool) (v : BitVec 32), s.ri.crosscut = false ∧ s.ri.crosscutMoving = none ∧ mayWrite s (Accessor.pf0 p) 7 =
      true ∧ takesWork s 7 = true ∧ v.getLsbD 31 = false ∧ v.getLsbD 30 = false ∧ v.getLsbD 29 = true ∧ s.ri.valid = true ∧ s.ri.hf =
      true ∧ 1 < s.ri.count) ∧
    (∃ (s : State) (p : Bool) (v : BitVec 32), s.ri.crosscut = false ∧ s.ri.crosscutMoving = none ∧ mayWrite s (Accessor.pf0 p) 7 =
      true ∧ takesWork s 7 = true ∧ v.getLsbD 31 = false ∧ v.getLsbD 30 = false ∧ v.getLsbD 29 = true ∧ s.ri.valid = true ∧ s.ri.hf =
      true ∧ s.ri.count ≤ 1) ∧
    (∃ (s : State), s.ri.crosscut = false ∧ s.ri.crosscutMoving = none ∧ mgmtUp s = true ∧ mainPower s = true) ∧
    (∃ (s : State) (p : Bool) (v : BitVec 32), s.ri.crosscut = true ∧ s.ri.crosscutMoving = none ∧ mainPower s = true ∧ takesWork s
      7 = true ∧ mayWrite s (Accessor.pf0 p) 7 = true ∧ v.getLsbD 31 = true) ∧
    (∃ (s : State), s.ri.crosscut = true ∧ s.ri.crosscutMoving = none ∧ mainPower s = true ∧ takesWork s 7 = true ∧ mgmtUp s = true)
      ∧
    (∃ (s : State) (at0 : Nat), s.ri.crosscutMoving = some (true, at0)) ∧
    (∃ (s : State) (at0 : Nat), s.ri.crosscutMoving = some (false, at0) ∧ 3 ≤ s.power.state.code) :=
  ⟨⟨{ rdy with ri := { rdy.ri with phase := 3 } }, 1, by decide⟩,
   ⟨{ rdy with ri := { rdy.ri with phase := 3 } }, 0, by decide⟩,
   ⟨{ rdy with ri := { rdy.ri with phase := 3, best := some (0, 0) }, power := { rdy.power with pllRef := 4 } }, 0, 0, 0, 0, by decide⟩,
   ⟨{ rdy with ri := { rdy.ri with crosscut := false, ports := [(0, { up := true }), (1, { up := true }), (2, { up := true }), (3, { up := true })] } }, 1, by decide⟩,
   ⟨{ rdy with ri := { rdy.ri with phase := 5, ports := [(0, { up := true }), (1, { up := true }), (2, { up := true }), (3, { up := true })], probeSent := some 0, elected := some (1, 2) } }, 0, 0, 2, by decide⟩,
   ⟨{ rdy with ri := { rdy.ri with phase := 5, ports := [(0, { up := true }), (1, { up := true }), (2, { up := true }), (3, { up := true })], elected := some (1, 2) } }, 0, by decide⟩,
   ⟨{ rdy with ri := { rdy.ri with phase := 2 } }, by decide⟩,
   ⟨{ rdy with ri := { rdy.ri with state := 5, retrainAt := some 0, ports := [(0, { up := true }), (1, { up := true }), (2, { up := true }), (3, { up := true })] } }, 0, by decide⟩,
   ⟨{ rdy with ri := { rdy.ri with state := 5, retrainAt := some 0, crosscut := false } }, 0, by decide⟩,
   ⟨{ rdy with ri := { rdy.ri with count := 2 } }, 5, by decide⟩,
   ⟨{ rdy with cx := { rdy.cx with hoState := 2 } }, by decide⟩,
   ⟨{ rdy with cx := { rdy.cx with hoPending := true } }, by decide⟩,
   ⟨{ rdy with ri := { rdy.ri with valid := false, phase := 6, elected := some (0, 1) } }, [(0, 0, [], 0)], 0, by decide⟩,
   ⟨{ rdy with power := { rdy.power with state := .aux }, ri := { rdy.ri with crosscut := false } }, by decide⟩,
   ⟨{ rdy with ri := { rdy.ri with crosscut := false } }, false, 0x40000000, by decide⟩,
   ⟨{ rdy with ri := { rdy.ri with crosscut := false, count := 2 } }, false, 0x20000000, by decide⟩,
   ⟨{ rdy with ri := { rdy.ri with crosscut := false } }, false, 0x20000000, by decide⟩,
   ⟨{ rdy with ri := { rdy.ri with crosscut := false } }, by decide⟩,
   ⟨rdy, false, 0x80000000, by decide⟩,
   ⟨rdy, by decide⟩,
   ⟨{ rdy with ri := { rdy.ri with crosscutMoving := some (true, 0) } }, 0, by decide⟩,
   ⟨{ rdy with ri := { rdy.ri with crosscutMoving := some (false, 0) } }, 0, by decide⟩⟩

end Sys2Proof.Tests
end

section
/-! SUPPORT. What a command and a step answer, over all commands at once: a next state, with the waiting commands, memory and the frozen
masters kept. The statements of 00_scope.md follow from it. -/

namespace Sys2Proof.Machine

/-! ### The two cases of a step -/

/-- A step on an empty queue (log entry 2). -/
theorem step_of_pending_nil {s : State} (h : s.pending = []) : step s = .next (idleCycle s) := by
  unfold step
  rw [h]

/-- A step with a command waiting (R1). -/
theorem step_of_pending_cons {s : State} {c : Instr} {rest : List Instr} (h : s.pending = c :: rest) :
    step s = exec c { s with pending := rest } := by
  unfold step
  rw [h]

/-! ### Every command answers a next state -/

/-- A choice between two meanings answers a next state when both do. -/
theorem exists_next_ite {p : Prop} [Decidable p] {o o' : Out} (h : ∃ t, o = .next t) (h' : ∃ t, o' = .next t) :
    ∃ t, (if p then o else o') = .next t := by
  split
  · exact h
  · exact h'

/-- The four commands that wait until they may read their host's memory (R449, R468) choose between waiting and acting; every other
meaning is written as one next state. -/
theorem exec_exists_next (i : Instr) (s : State) : ∃ t, exec i s = .next t := by
  cases i with
  | streamOpen | streamSubmit | streamSet | memWrite => exact exists_next_ite ⟨_, rfl⟩ ⟨_, rfl⟩
  | _ => exact ⟨_, rfl⟩

/-! ### Every command keeps the queue, memory and the frozen masters -/

/-- The law of each meaning (Laws/Keep.lean), gathered over the commands. -/
theorem exec_keeps_good {pd : List Instr × Prop × Prop} {s : State} (h : Good pd s) (i : Instr) : OutGood pd (exec i s) := by
  cases i with
  | registerWrite => exact keep_execRegisterWrite h
  | rcRead => exact keep_execRcRead h
  | sqBeatCountRead => exact keep_execSqBeatCountRead h
  | devRtbRead => exact keep_execDevRtbRead h
  | pageEnableWrite => exact keep_execPageEnableWrite h
  | thaw => exact keep_execThaw h
  | srst => exact keep_execSrst h
  | srstDone => exact keep_execSrstDone h
  | evtForce => exact keep_execEvtForce h
  | pageLock => exact keep_execPageLock h
  | shot => exact keep_execShot h
  | reshot => exact keep_execReshot h
  | seamReshot => exact keep_execSeamReshot h
  | calibrationShot => exact keep_execCalibrationShot h
  | driveFetch => exact keep_execDriveFetch h
  | entryBlockClose => exact keep_execEntryBlockClose h
  | beatStart => exact keep_execBeatStart h
  | beatEnd => exact keep_execBeatEnd h
  | tgFsrDefault => exact keep_execTgFsrDefault h
  | tgCheckTol => exact keep_execTgCheckTol h
  | calWindowWrite => exact keep_execCalWindowWrite h
  | adapterCommit => exact keep_execAdapterCommit h
  | repairRound => exact keep_execRepairRound h
  | loadWeights => exact keep_execLoadWeights h
  | loadWeightsStart => exact keep_execLoadWeightsStart h
  | tileProgramDone => exact keep_execTileProgramDone h
  | tileSettleEnd => exact keep_execTileSettleEnd h
  | tileCalComplete => exact keep_execTileCalComplete h
  | loadWeightsComplete => exact keep_execLoadWeightsComplete h
  | tileRetire => exact keep_execTileRetire h
  | liveSwap => exact keep_execLiveSwap h
  | tileUnbind => exact keep_execTileUnbind h
  | remoteWriteArrival => exact keep_execRemoteWriteArrival h
  | remoteReadReturn => exact keep_execRemoteReadReturn h
  | slotWaitRelease => exact keep_execSlotWaitRelease h
  | accWaitRelease => exact keep_execAccWaitRelease h
  | waittRelease => exact keep_execWaittRelease h
  | fenceComplete => exact keep_execFenceComplete h
  | coreClearDone => exact keep_execCoreClearDone h
  | ccLaunchStart => exact keep_execCcLaunchStart h
  | launchStart => exact keep_execLaunchStart h
  | ccNop => exact keep_execCcNop h
  | ccEnd => exact keep_execCcEnd h
  | ccBr => exact keep_execCcBr h
  | ccBeq => exact keep_execCcBeq h
  | ccBne => exact keep_execCcBne h
  | ccBlt => exact keep_execCcBlt h
  | ccBge => exact keep_execCcBge h
  | ccBltu => exact keep_execCcBltu h
  | ccBgeu => exact keep_execCcBgeu h
  | ccFence => exact keep_execCcFence h
  | ccWaitt => exact keep_execCcWaitt h
  | ccWaitc => exact keep_execCcWaitc h
  | ccPost => exact keep_execCcPost h
  | ccSget => exact keep_execCcSget h
  | ccFsclr => exact keep_execCcFsclr h
  | ccRsc => exact keep_execCcRsc h
  | ccNwchk => exact keep_execCcNwchk h
  | ccRand => exact keep_execCcRand h
  | ccAdd => exact keep_execCcAdd h
  | ccSub => exact keep_execCcSub h
  | ccAnd => exact keep_execCcAnd h
  | ccOr => exact keep_execCcOr h
  | ccXor => exact keep_execCcXor h
  | ccShl => exact keep_execCcShl h
  | ccShr => exact keep_execCcShr h
  | ccSra => exact keep_execCcSra h
  | ccMul => exact keep_execCcMul h
  | ccMin => exact keep_execCcMin h
  | ccMax => exact keep_execCcMax h
  | ccSlt => exact keep_execCcSlt h
  | ccSltu => exact keep_execCcSltu h
  | ccSeq => exact keep_execCcSeq h
  | ccAddi => exact keep_execCcAddi h
  | ccLi => exact keep_execCcLi h
  | ccLih => exact keep_execCcLih h
  | ccShli => exact keep_execCcShli h
  | ccShri => exact keep_execCcShri h
  | ccSrai => exact keep_execCcSrai h
  | ccVext => exact keep_execCcVext h
  | ccVins => exact keep_execCcVins h
  | ccLd => exact keep_execCcLd h
  | ccSt => exact keep_execCcSt h
  | ccRstv => exact keep_execCcRstv h
  | ccRldv => exact keep_execCcRldv h
  | ccSlotDef => exact keep_execCcSlotDef h
  | ccSlotDrain => exact keep_execCcSlotDrain h
  | ccSlotFill => exact keep_execCcSlotFill h
  | ccSlotFree => exact keep_execCcSlotFree h
  | ccSlotStat => exact keep_execCcSlotStat h
  | ccVadd => exact keep_execCcVadd h
  | ccVsub => exact keep_execCcVsub h
  | ccVmul => exact keep_execCcVmul h
  | ccVfma => exact keep_execCcVfma h
  | ccVmin => exact keep_execCcVmin h
  | ccVmax => exact keep_execCcVmax h
  | ccVabs => exact keep_execCcVabs h
  | ccVneg => exact keep_execCcVneg h
  | ccVcmp => exact keep_execCcVcmp h
  | ccVsel => exact keep_execCcVsel h
  | ccVexp => exact keep_execCcVexp h
  | ccVrcp => exact keep_execCcVrcp h
  | ccVrsq => exact keep_execCcVrsq h
  | ccVdiv => exact keep_execCcVdiv h
  | ccVsqrt => exact keep_execCcVsqrt h
  | ccVrnd => exact keep_execCcVrnd h
  | ccVq => exact keep_execCcVq h
  | ccVperm => exact keep_execCcVperm h
  | ccVmov => exact keep_execCcVmov h
  | ccVbc => exact keep_execCcVbc h
  | ccVred => exact keep_execCcVred h
  | ccKsum => exact keep_execCcKsum h
  | ccVkadd => exact keep_execCcVkadd h
  | ccKcomb => exact keep_execCcKcomb h
  | ccKfin => exact keep_execCcKfin h
  | ccVld => exact keep_execCcVld h
  | ccVst => exact keep_execCcVst h
  | ccVlds => exact keep_execCcVlds h
  | ccVsts => exact keep_execCcVsts h
  | ccVldt => exact keep_execCcVldt h
  | ccVgath => exact keep_execCcVgath h
  | ccMz => exact keep_execCcMz h
  | ccMma => exact keep_execCcMma h
  | ccMrd => exact keep_execCcMrd h
  | ccMwr => exact keep_execCcMwr h
  | ccMst => exact keep_execCcMst h
  | ccAccRd => exact keep_execCcAccRd h
  | ccAccRdf => exact keep_execCcAccRdf h
  | ccAccDrop => exact keep_execCcAccDrop h
  | ccIllegal => exact keep_execCcIllegal h
  | planAdmit => exact keep_execPlanAdmit h
  | planAdmitted => exact keep_execPlanAdmitted h
  | planRetire => exact keep_execPlanRetire h
  | planRetired => exact keep_execPlanRetired h
  | ringResume => exact keep_execRingResume h
  | roundBoundary => exact keep_execRoundBoundary h
  | roundStartFlit => exact keep_execRoundStartFlit h
  | idleBoundaryPass => exact keep_execIdleBoundaryPass h
  | statusFlitSend => exact keep_execStatusFlitSend h
  | statusFlit => exact keep_execStatusFlit h
  | switchGapEnd => exact keep_execSwitchGapEnd h
  | emptyRoundEnd => exact keep_execEmptyRoundEnd h
  | timedSend => exact keep_execTimedSend h
  | timedRelease => exact keep_execTimedRelease h
  | timedArrival => exact keep_execTimedArrival h
  | tokenRecordArrival => exact keep_execTokenRecordArrival h
  | dmaSlotStart => exact keep_execDmaSlotStart h
  | dmaTransferComplete => exact keep_execDmaTransferComplete h
  | copyComplete => exact keep_execCopyComplete h
  | sqStretch => exact keep_execSqStretch h
  | submissionFetch => exact keep_execSubmissionFetch h
  | nopCommand => exact keep_execNopCommand h
  | ownerCreate => exact keep_execOwnerCreate h
  | ownerRelease => exact keep_execOwnerRelease h
  | ownerLimits => exact keep_execOwnerLimits h
  | ownerBind => exact keep_execOwnerBind h
  | ownerUnbind => exact keep_execOwnerUnbind h
  | ownerReattach => exact keep_execOwnerReattach h
  | streamOpen => exact keep_execStreamOpen h
  | streamSubmit => exact keep_execStreamSubmit h
  | streamSet => exact keep_execStreamSet h
  | streamQuery => exact keep_execStreamQuery h
  | streamFork => exact keep_execStreamFork h
  | streamRewind => exact keep_execStreamRewind h
  | streamPause => exact keep_execStreamPause h
  | pausePlacement => exact keep_execPausePlacement h
  | pauseImageDone => exact keep_execPauseImageDone h
  | pauseExpiry => exact keep_execPauseExpiry h
  | streamResume => exact keep_execStreamResume h
  | resumeImageDone => exact keep_execResumeImageDone h
  | streamClose => exact keep_execStreamClose h
  | streamTokens => exact keep_execStreamTokens h
  | tierRegister => exact keep_execTierRegister h
  | schedSet => exact keep_execSchedSet h
  | memGrant => exact keep_execMemGrant h
  | memRelease => exact keep_execMemRelease h
  | memWrite => exact keep_execMemWrite h
  | memRead => exact keep_execMemRead h
  | repairCtrl => exact keep_execRepairCtrl h
  | membership => exact keep_execMembership h
  | regAccess => exact keep_execRegAccess h
  | fnQueues => exact keep_execFnQueues h
  | qpConfig => exact keep_execQpConfig h
  | dbSubmitTail => exact keep_execDbSubmitTail h
  | dbComplHead => exact keep_execDbComplHead h
  | msixSignal => exact keep_execMsixSignal h
  | apertureAccess => exact keep_execApertureAccess h
  | hpAptBase => exact keep_execHpAptBase h
  | hpAptOwner => exact keep_execHpAptOwner h
  | hpHeartbeat => exact keep_execHpHeartbeat h
  | hpHeartbeatTimeout => exact keep_execHpHeartbeatTimeout h
  | heartbeatLost => exact keep_execHeartbeatLost h
  | orphaned => exact keep_execOrphaned h
  | graceExpired => exact keep_execGraceExpired h
  | flr => exact keep_execFlr h
  | flrBoundary => exact keep_execFlrBoundary h
  | functionReset => exact keep_execFunctionReset h
  | vfEnableClear => exact keep_execVfEnableClear h
  | perstAssert => exact keep_execPerstAssert h
  | perstDeassert => exact keep_execPerstDeassert h
  | hostLinkChange => exact keep_execHostLinkChange h
  | linkLossTimeout => exact keep_execLinkLossTimeout h
  | busMasterEnable => exact keep_execBusMasterEnable h
  | doeDiscovery => exact keep_execDoeDiscovery h
  | ideKm => exact keep_execIdeKm h
  | boot => exact keep_execBoot h
  | fwVerifyDone => exact keep_execFwVerifyDone h
  | stage => exact keep_execStage h
  | fwImagePacket => exact keep_execFwImagePacket h
  | fwStaged => exact keep_execFwStaged h
  | cxActivate => exact keep_execCxActivate h
  | cxDiscard => exact keep_execCxDiscard h
  | quietTimeReached => exact keep_execQuietTimeReached h
  | handoffStart => exact keep_execHandoffStart h
  | handoffDone => exact keep_execHandoffDone h
  | handoffRevert => exact keep_execHandoffRevert h
  | watchdogSignal => exact keep_execWatchdogSignal h
  | watchdog => exact keep_execWatchdog h
  | setEndpointId => exact keep_execSetEndpointId h
  | getEndpointId => exact keep_execGetEndpointId h
  | getMctpVersionSupport => exact keep_execGetMctpVersionSupport h
  | getMessageTypeSupport => exact keep_execGetMessageTypeSupport h
  | getVendorMessageSupport => exact keep_execGetVendorMessageSupport h
  | pldmSensorRead => exact keep_execPldmSensorRead h
  | pldmBaseRequest => exact keep_execPldmBaseRequest h
  | pldmFruRequest => exact keep_execPldmFruRequest h
  | setEventReceiver => exact keep_execSetEventReceiver h
  | pollForPlatformEvent => exact keep_execPollForPlatformEvent h
  | platformEventSend => exact keep_execPlatformEventSend h
  | platformEventTimeout => exact keep_execPlatformEventTimeout h
  | spdmGetVersion => exact keep_execSpdmGetVersion h
  | spdmGetCapabilities => exact keep_execSpdmGetCapabilities h
  | spdmNegotiateAlgorithms => exact keep_execSpdmNegotiateAlgorithms h
  | spdmGetDigests => exact keep_execSpdmGetDigests h
  | spdmGetCertificate => exact keep_execSpdmGetCertificate h
  | spdmChallenge => exact keep_execSpdmChallenge h
  | spdmGetMeasurements => exact keep_execSpdmGetMeasurements h
  | spdmKeyExchange => exact keep_execSpdmKeyExchange h
  | spdmFinish => exact keep_execSpdmFinish h
  | spdmHeartbeat => exact keep_execSpdmHeartbeat h
  | spdmKeyUpdate => exact keep_execSpdmKeyUpdate h
  | spdmEndSession => exact keep_execSpdmEndSession h
  | keyDestroy => exact keep_execKeyDestroy h
  | regRead => exact keep_execRegRead h
  | regWrite => exact keep_execRegWrite h
  | ringJoin => exact keep_execRingJoin h
  | sumpRead => exact keep_execSumpRead h
  | mgmtStatus => exact keep_execMgmtStatus h
  | keDestroy => exact keep_execKeDestroy h
  | ownerKeyDestroy => exact keep_execOwnerKeyDestroy h
  | keClear => exact keep_execKeClear h
  | entropyFail => exact keep_execEntropyFail h
  | drbgReseed => exact keep_execDrbgReseed h
  | linkBringup => exact keep_execLinkBringup h
  | linkLightLoss => exact keep_execLinkLightLoss h
  | linkSilence => exact keep_execLinkSilence h
  | idleFlit => exact keep_execIdleFlit h
  | timedFlit => exact keep_execTimedFlit h
  | creditFlit => exact keep_execCreditFlit h
  | tagWindowClose => exact keep_execTagWindowClose h
  | tagFlit port window => exact keep_execTagFlit (_window := window) h
  | timeFlit => exact keep_execTimeFlit h
  | claimFlit => exact keep_execClaimFlit h
  | creditWrite => exact keep_execCreditWrite h
  | creditReadRequest => exact keep_execCreditReadRequest h
  | creditReadData => exact keep_execCreditReadData h
  | creditMessage => exact keep_execCreditMessage h
  | creditImage => exact keep_execCreditImage h
  | riJoin => exact keep_execRiJoin h
  | riLeave => exact keep_execRiLeave h
  | riRetrain => exact keep_execRiRetrain h
  | riLinkRate => exact keep_execRiLinkRate h
  | crosscutClose => exact keep_execCrosscutClose h
  | crosscutSettled => exact keep_execCrosscutSettled h
  | retimeWander => exact keep_execRetimeWander h
  | membershipChange => exact keep_execMembershipChange h
  | trainingPhaseTimeout => exact keep_execTrainingPhaseTimeout h
  | trainingRetry => exact keep_execTrainingRetry h
  | membershipPublish => exact keep_execMembershipPublish h
  | scrubPassStart => exact keep_execScrubPassStart h
  | scrubPass => exact keep_execScrubPass h
  | msScrubCtrl => exact keep_execMsScrubCtrl h
  | ceRateUpdate => exact keep_execCeRateUpdate h
  | tempSample => exact keep_execTempSample h
  | powerSample => exact keep_execPowerSample h
  | levelFall => exact keep_execLevelFall h
  | brownOut => exact keep_execBrownOut h
  | calIntervalExpiry => exact keep_execCalIntervalExpiry h
  | calDone => exact keep_execCalDone h
  | calLate => exact keep_execCalLate h
  | hbCal => exact keep_execHbCal h
  | hbSelfcal => exact keep_execHbSelfcal h
  | selfcalDone => exact keep_execSelfcalDone h
  | hbCalDtcal => exact keep_execHbCalDtcal h
  | hbCalMaxInterval => exact keep_execHbCalMaxInterval h
  | hbMarginEnv => exact keep_execHbMarginEnv h
  | ageingUpdate => exact keep_execAgeingUpdate h
  | marginReplan => exact keep_execMarginReplan h
  | replan => exact keep_execReplan h
  | assayPattern => exact keep_execAssayPattern h
  | assayReplay => exact keep_execAssayReplay h
  | assayCore => exact keep_execAssayCore h
  | hbAbort => exact keep_execHbAbort h
  | assayNoInput => exact keep_execAssayNoInput h
  | assayComplete => exact keep_execAssayComplete h
  | dpThrottlePoint => exact keep_execDpThrottlePoint h
  | dpTripAck => exact keep_execDpTripAck h
  | dpRestart => exact keep_execDpRestart h
  | mcPassStart => exact keep_execMcPassStart h
  | mcEntryDone => exact keep_execMcEntryDone h
  | mcSelfcal => exact keep_execMcSelfcal h
  | mcSelfcalComplete => exact keep_execMcSelfcalComplete h
  | mcSeqTable => exact keep_execMcSeqTable h
  | mcTrigger => exact keep_execMcTrigger h
  | auxApply => exact keep_execAuxApply h
  | auxLoss => exact keep_execAuxLoss h
  | vinApply => exact keep_execVinApply h
  | pwrEnRise => exact keep_execPwrEnRise h
  | pwrEnFall => exact keep_execPwrEnFall h
  | thermTripRelease => exact keep_execThermTripRelease h
  | mainOn => exact keep_execMainOn h
  | zeroFillDone => exact keep_execZeroFillDone h
  | fwLoadedWorkDone => exact keep_execFwLoadedWorkDone h
  | configuredWorkDone => exact keep_execConfiguredWorkDone h
  | startupCalDone => exact keep_execStartupCalDone h
  | devSoft => exact keep_execDevSoft h
  | softResetDone => exact keep_execSoftResetDone h
  | devModule => exact keep_execDevModule h
  | moduleRestart => exact keep_execModuleRestart h
  | refLost => exact keep_execRefLost h
  | refHoldoverExpiry => exact keep_execRefHoldoverExpiry h
  | referenceAppear => exact keep_execReferenceAppear h
  | refLocked => exact keep_execRefLocked h
  | mainRailsStart => exact keep_execMainRailsStart h
  | holdUpBankDepleted => exact keep_execHoldUpBankDepleted h
  | planCheckComplete => exact keep_execPlanCheckComplete h
  | commandTransferComplete => exact keep_execCommandTransferComplete h
  | vfEnableSet => exact keep_execVfEnableSet h
  | resizableBar => exact keep_execResizableBar h
  | dynamicAddressAssign => exact keep_execDynamicAddressAssign h

/-- What a step keeps, said for both kinds of step: the commands that wait behind the front one, and, where they held before (under the
premises `M` and `F`), the canonical form of memory and the soundness of the frozen masters. -/
theorem step_keeps_good {M F : Prop} {s t : State} (hm : M → s.memSound = true) (hf : F → s.frozenSound = true)
    (hs : step s = .next t) : Good (s.pending.tail, M, F) t := by
  cases hp : s.pending with
  | nil =>
    rw [step_of_pending_nil hp] at hs
    obtain rfl := Host.Outcome.next.inj hs
    exact keep_idleCycle ⟨hp, hm, hf⟩
  | cons c rest =>
    rw [step_of_pending_cons hp] at hs
    have hgood : Good (rest, M, F) { s with pending := rest } := ⟨rfl, hm, hf⟩
    have hkept := exec_keeps_good hgood c
    rwa [hs] at hkept

end Sys2Proof.Machine

/-! ### The statements -/

open Sys2Proof.Machine

/-- Settles O4: each meaning keeps the queue it is given, and a step gives it the rest of the queue. -/
theorem stepTakesTheFrontCommand : Obligations.StepTakesTheFrontCommand :=
  fun _ _ h => (step_keeps_good (M := False) (F := False) False.elim False.elim h).pending

/-- Settles O1: the second case of a step. -/
theorem stepRunsFront : Obligations.StepRunsFront :=
  fun _ _ _ => step_of_pending_cons rfl

/-- Settles O3, from the answer of each meaning. A row whose conditions fail answers the state itself (log entry 3). -/
theorem noCommandStops : Obligations.NoCommandStops :=
  exec_exists_next
end

section
/-! SUPPORT. Bits of a written word, and what raising an event and freezing a master do to the page headers and the frozen masters (R40,
R47). -/

namespace Sys2Proof.Machine

/-- A bit of a number that a word spells is the word's bit. -/
theorem bit_toNat {w : Nat} (v : BitVec w) (i : Nat) : bit v.toNat i = v.getLsbD i := by
  simp only [bit, BitVec.getLsbD, Nat.testBit_eq_decide_div_mod_eq, beq_eq_decide]

/-- What every step of a walk leaves alone, the walk leaves alone. -/
theorem forEach_keeps {α β : Type} (g : State → β) (l : List α) (f : State → α → State) (hf : ∀ s a, g (f s a) = g s) (s : State) :
    g (forEach l f s) = g s := by
  unfold forEach
  induction l generalizing s with
  | nil => rfl
  | cons a l ih => exact (ih _).trans (hf s a)

/-- Writing back what stands at an index changes nothing. -/
theorem tblSet_get_self {α : Type} [DecidableEq α] {d : α} {t : Tbl α} (h : tblWf d t = true) (i : Nat) : tblSet d t i (tblGet d t i) = t := by
  unfold tblWf at h
  generalize 0 = lo at h
  induction t generalizing lo with
  | nil => simp [tblGet, tblSet]
  | cons e t ih =>
    obtain ⟨k, v⟩ := e
    simp only [tblWfFrom, Bool.and_eq_true, decide_eq_true_eq, Bool.not_eq_true', decide_eq_false_iff_not] at h
    obtain ⟨⟨-, hv⟩, ht⟩ := h
    rcases Nat.lt_trichotomy i k with hlt | rfl | hgt
    · rw [tblGet, if_neg (by omega), tblGet_below ht (by omega), tblSet, if_pos hlt, if_pos rfl]
    · rw [tblGet, if_pos rfl, tblSet, if_neg (by omega), if_pos rfl, if_neg hv]
    · rw [tblGet, if_neg (by omega), tblSet, if_neg (by omega), if_neg (by omega), ih _ ht]

/-- A header change that changes nothing in the header changes nothing. -/
theorem modHdr_eq_self {s : State} (h : tblWf {} s.hdrs = true) {p : Nat} {f : Hdr → Hdr} (hf : f (getHdr s p) = getHdr s p) :
    modHdr s p f = s := by
  unfold modHdr tblMod
  rw [show f (tblGet {} s.hdrs p) = tblGet {} s.hdrs p from hf, tblSet_get_self h]

/-! ### Which headers reporting an event changes -/

theorem Sent.hdrs {s t : State} (h : Sent s t) : t.hdrs = s.hdrs := by
  obtain ⟨r, o, rfl⟩ := h
  rfl

@[simp] theorem mergeWord_hdrs (s : State) (k w : Nat) (p : Nat × List Byte) : (mergeWord s k w p).hdrs = s.hdrs := by
  unfold mergeWord
  split
  · rfl
  · split <;> rfl

@[simp] theorem sumpWrite_hdrs (s : State) (page code : Nat) (forced : Bool) (inf : List Byte) :
    (sumpWrite s page code forced inf).hdrs = s.hdrs := by
  unfold sumpWrite
  refine forEach_keeps State.hdrs _ _ (fun s e => ?_) s
  rw [mergeWord_hdrs]
  split <;> rfl

@[simp] theorem hostSend_hdrs (s : State) (p : Bool) (o : Output) : (hostSend s p o).hdrs = s.hdrs := by
  unfold hostSend
  split
  · rfl
  · exact modHp_hdrs s p _

@[simp] theorem notifyPf0_hdrs (s : State) (p : Bool) : (notifyPf0 s p).hdrs = s.hdrs := by
  unfold notifyPf0
  rw [apply_ite State.hdrs, hostSend_hdrs, ite_self]

@[simp] theorem notifyHost_hdrs (s : State) (page : Nat) : (notifyHost s page).hdrs = s.hdrs := by
  unfold notifyHost
  dsimp only
  split
  · exact (sent_sendMessage s _ _ _ _).hdrs
  · split
    · exact notifyPf0_hdrs s _
    · rw [notifyPf0_hdrs, notifyPf0_hdrs]

@[simp] theorem mgmtEnqueue_hdrs (s : State) (cls : Nat) (data : List Byte) (fault : Bool) : (mgmtEnqueue s cls data fault).hdrs = s.hdrs := by
  unfold mgmtEnqueue
  split <;> rfl

/-- Raising an event notes its bit in the header of a powered page and changes no other header (R40). -/
theorem raiseEvent_hdrs (s : State) (page code : Nat) (inf : List Byte) (forced : Bool) :
    (raiseEvent s page code inf forced).hdrs = if pagePowered s page
      then tblMod {} s.hdrs page (fun h => h.noteEvent (sclk s) (!forced) (BitVec.ofNat 32 (2 ^ evtBit code))) else s.hdrs := by
  unfold raiseEvent
  extract_lets h enabled fault s1 recorded seqLow s2 data s3 s4
  have h4 : s4.hdrs = s3.hdrs := by rw [apply_ite State.hdrs, notifyHost_hdrs, ite_self]
  have h3 : s3.hdrs = s2.hdrs := by rw [apply_ite State.hdrs, sumpWrite_hdrs, ite_self]
  have h2 : s2.hdrs = s1.hdrs := (apply_ite State.hdrs ..).trans (ite_self _)
  rw [apply_ite State.hdrs, mgmtEnqueue_hdrs, ite_self, h4, h3, h2]
  exact apply_ite State.hdrs ..

/-- The header of a powered page after an event of it (R40). -/
theorem getHdr_raiseEvent {s : State} (hwf : tblWf {} s.hdrs = true) {page : Nat} (hp : pagePowered s page = true) (code : Nat)
    (inf : List Byte) (forced : Bool) : getHdr (raiseEvent s page code inf forced) page =
      (getHdr s page).noteEvent (sclk s) (!forced) (BitVec.ofNat 32 (2 ^ evtBit code)) := by
  unfold getHdr
  rw [raiseEvent_hdrs, if_pos hp, tblGet_mod_self hwf]

/-- An event leaves the frozen masters. -/
@[simp] theorem raiseEvent_frozen (s : State) (page code : Nat) (inf : List Byte) (forced : Bool) :
    (raiseEvent s page code inf forced).frozen = s.frozen := by
  obtain ⟨_, _, _, _, _, _, _, _, _, _, _, _, _, _, _, _, h⟩ := reported_raiseEvent s page code inf forced
  rw [h]

end Sys2Proof.Machine

open Sys2Proof.Machine

/-- Settles O6: every meaning and the idle cycle keep the frozen masters sound (`step_keeps_good`). -/
theorem frozenMastersStaySound : Obligations.FrozenMastersStaySound :=
  fun s _ hs h => (step_keeps_good (M := False) (F := s.frozenSound = true) False.elim id h).frozen hs

/-- Settles O7: each field of the reset state is its default. -/
theorem resetIsSound : Obligations.ResetIsSound :=
  ⟨rfl, rfl, rfl, rfl, rfl, rfl, rfl, rfl, rfl, rfl, rfl, rfl⟩

/-- Settles O27: the header of a powered page takes the bit `evtBit c` alone, and EVT_ENABLE plays no part. -/
theorem eventStatusBit : Obligations.EventStatusBit := by
  intro s p c inf forced hp hwf h1 h2 i hi
  have hbit : (BitVec.ofNat 32 (2 ^ evtBit c)).getLsbD i = (if c ≤ 0x1F then i == c - 1 else i == 31) := by
    rw [BitVec.getLsbD_ofNat, Nat.testBit_two_pow]
    by_cases hc : c ≤ 0x1F
    · simp [evtBit, hc, h1, hi, beq_eq_decide, eq_comm (a := i)]
    · simp [evtBit, hc, hi, beq_eq_decide, eq_comm (a := i)]
  rw [getHdr_raiseEvent hwf hp, Hdr.noteEvent, BitVec.getLsbD_or, hbit]
end

section
/-! SUPPORT. What an access to the register space does (R12-R15, R30, R35), said once for each size and target. -/

namespace Sys2Proof.Machine

/-! ### Accesses that reach a register -/

/-- A reader whose access is well-formed gets 4 bytes and the read's effect. -/
theorem readAccess_four {s : State} {a : Accessor} {off : Nat} (hshut : shutOut s a = false) (hr : reaches s a = true)
    (hoff : off % 4 = 0) : readAccess s a off 4 = emit (readWord s a off).2 (.readData (readWord s a off).1) := by
  simp [readAccess, hshut, hr, accessOk, hoff]

/-- An 8-byte read of a pair gives both halves at one instant (R12). -/
theorem readAccess_pair {s : State} {a : Accessor} {off : Nat} (hshut : shutOut s a = false) (hr : reaches s a = true)
    (hoff : off % 8 = 0) (hp : pairLow a off = true) : readAccess s a off 8 =
      emit (readWord (readWord s a off).2 a (off + 4)).2
        (.readData ((readWord s a off).1 + 2 ^ 32 * (readWord (readWord s a off).2 a (off + 4)).1)) := by
  simp [readAccess, hshut, hr, accessOk, hoff, hp]

/-- A read that R12 does not complete is an Unsupported Request. -/
theorem readAccess_refused {s : State} {a : Accessor} {off size : Nat} (hshut : shutOut s a = false) (hr : reaches s a = true)
    (hbad : accessOk a off size = false) : readAccess s a off size = refuseAccess s a := by
  simp [readAccess, hshut, hr, hbad]

/-- A read of an open page's register. -/
theorem readWord_page {s : State} {a : Accessor} {off p o : Nat} (ht : targetOf a off = .page p o) (hp : pageOpen s p = true) :
    readWord s a off = (regValue s p o, readEffect s p o) := by
  simp [readWord, ht, hp]

/-- A 4-byte write that reaches the register space. -/
theorem writeAccess_four {s : State} {a : Accessor} {off v : Nat} (hshut : shutOut s a = false) (hr : reaches s a = true)
    (hoff : off % 4 = 0) : writeAccess s a off 4 v = writeWordAt s a off v := by
  simp [writeAccess, hshut, hr, accessOk, hoff]

/-- From ROM upward every page answers (R626). -/
theorem pageOpen_of_rom {s : State} (h : 3 ≤ s.power.state.code) (p : Nat) : pageOpen s p = true := by
  have hm : mainPower s = true := decide_eq_true (by omega)
  simp [pageOpen, hm, h]

/-- With main power the DEV page answers (R626). -/
theorem pageOpen_dev {s : State} (h : mainPower s = true) : pageOpen s 0 = true := by
  simp [pageOpen, h, pgDev]

/-- Only a register space with main power is reached by PF0. -/
theorem mainPower_of_reaches_pf0 {s : State} {port : Bool} (h : reaches s (.pf0 port) = true) : mainPower s = true :=
  (Bool.and_eq_true_iff.mp h).1

/-- Only PF0 and management have the calibration window in their view (R30). -/
theorem accessor_of_target_window {a : Accessor} {off i b : Nat} (h : targetOf a off = .window i b) :
    (∃ port, a = .pf0 port) ∨ a = .mgmt := by
  cases a with
  | pf0 port => exact .inl ⟨port, rfl⟩
  | mgmt => exact .inr rfl
  | vf | bar2 | mgmtFn => simp only [targetOf] at h; split_ifs at h

/-- The doorbell pages, the calibration window and the function pages of BAR2 apart, an access to a page is not one to BAR2. -/
theorem shutOut_of_target_page {s : State} {a : Accessor} {off p o : Nat} (ht : targetOf a off = .page p o)
    (hv : ∀ q f, a = .vf q f → barsOpen s q = true) : shutOut s a = false := by
  cases a with
  | pf0 | mgmt | mgmtFn => rfl
  | vf q f => simp [shutOut, hv q f rfl]
  | bar2 => simp only [targetOf] at ht; split_ifs at ht

/-! ### Counters that a read clears (R15) -/

/-- A counter just read shows 0 for the rest of its SCLK cycle. -/
@[simp] theorem Counter.shown_taken (x : Counter) (now : Nat) : (x.taken now).shown now = 0 := by
  unfold Counter.taken Counter.shown
  split
  · rfl
  · split <;> rfl

/-- In the next cycle a counter just read shows what the cycle of the read added. -/
theorem Counter.shown_succ_taken (x : Counter) (now : Nat) :
    (x.taken now).shown (now + 1) = (if x.cycle = now then x.added else 0) := by
  unfold Counter.taken Counter.shown
  split
  · rw [if_neg (by dsimp only; omega)]
  · split <;> rfl

/-- DP_OVERRIDE reads 0 after a read of it. -/
theorem dpOverride_taken (s : State) : regValue (readEffect s 2 0x048) 2 0x048 = 0 := by
  show field 20 12 ((s.dp.ovThrottle.taken (sclk s)).shown (sclk s)) + field 8 12 ((s.dp.ovCal.taken (sclk s)).shown (sclk s))
    + field 0 8 ((s.dp.ovHalt.taken (sclk s)).shown (sclk s)) = 0
  simp only [Counter.shown_taken]
  rfl

/-- A group's record reads back as changed. -/
theorem getTg_modTg {s : State} (h : tblWf {} s.tgs = true) (g : Nat) (f : Tg → Tg) : getTg (modTg s g f) g = f (getTg s g) :=
  tblGet_mod_self h g f

/-- Changing a group's record leaves every other group. -/
theorem getTg_modTg_ne {s : State} {g h : Nat} (f : Tg → Tg) (hne : h ≠ g) : getTg (modTg s g f) h = getTg s h :=
  tblGet_mod_ne f hne

/-- What a register of a tile group's page reads as. -/
theorem regValue_tg (s : State) {g off : Nat} (hg : g < 64) (hoff : 0x040 ≤ off) : regValue s (19 + g) off = tgReg s g off := by
  unfold regValue
  rw [if_neg (by omega)]
  split
  case h_12 => rw [if_neg (by omega), if_pos (by omega), Nat.add_sub_cancel_left]
  all_goals omega

/-- A read of a group's clip count takes it. -/
theorem readEffect_clipCount (s : State) {g : Nat} (hg : g < 64) :
    readEffect s (19 + g) 0x048 = modTg s g (fun t => { t with clipCount := t.clipCount.taken (sclk s) }) := by
  unfold readEffect
  split
  case h_12 => rw [if_neg (by omega), if_neg (by omega), if_neg (by omega), if_pos (by omega), Nat.add_sub_cancel_left]
  all_goals omega

/-- A read by PF0 of the low register of a pair whose high register latches: 4 bytes give the low half, 8 the whole count, and either
leaves the state `t` with the high half latched (R12, R310, R635). -/
theorem readAccess_latch {s t : State} {port : Bool} {off p o : Nat} {c : BitVec 64} (hr : reaches s (.pf0 port) = true)
    (hoff : off % 8 = 0) (hpair : pairLow (.pf0 port) off = true) (hlo : targetOf (.pf0 port) off = .page p o)
    (hhi : targetOf (.pf0 port) (off + 4) = .page p (o + 4)) (hs : pageOpen s p = true) (ht : pageOpen t p = true)
    (hlatch : readEffect s p o = t) (hkeep : readEffect t p (o + 4) = t) (hlow : regValue s p o = c.toNat % 2 ^ 32)
    (hhigh : regValue t p (o + 4) = c.toNat / 2 ^ 32) :
    readAccess s (.pf0 port) off 4 = emit t (.readData (c.toNat % 2 ^ 32)) ∧
      readAccess s (.pf0 port) off 8 = emit t (.readData c.toNat) := by
  constructor
  · rw [readAccess_four rfl hr (by omega), readWord_page hlo hs, hlatch, hlow]
  · rw [readAccess_pair rfl hr hoff hpair, readWord_page hlo hs, hlatch, readWord_page hhi ht, hkeep, hlow, hhigh, Nat.mod_add_div]

/-- The high half of a count fits the register that latches it. -/
theorem toNat_highHalf (c : BitVec 64) : (BitVec.ofNat 32 (c.toNat / 2 ^ 32)).toNat = c.toNat / 2 ^ 32 := by
  rw [BitVec.toNat_ofNat, Nat.mod_eq_of_lt]
  have := c.isLt
  omega

/-! ### Reads of several dwords by management (R503) -/

@[simp] theorem leBytes_length (n v : Nat) : (leBytes n v).length = n := by
  induction n generalizing v with
  | zero => rfl
  | succ n ih => rw [leBytes, List.length_cons, ih]

theorem readDwords_length (s : State) (off n : Nat) : (readDwords s off n).1.length = 4 * n := by
  induction n generalizing s off with
  | zero => rfl
  | succ n ih =>
    simp only [readDwords, List.length_append, leBytes_length, ih]
    omega

end Sys2Proof.Machine

open Sys2Proof.Machine

/-- Settles O24: each clause is the rule of its kind of access, with the register read. -/
theorem registerReads : Obligations.RegisterReads := by
  refine ⟨?_, ?_, ?_, ?_, ?_, ?_, ?_, ?_⟩
  · intro s a off p o hr hoff ht hp hv
    have h := readAccess_four (shutOut_of_target_page ht hv) hr hoff
    rw [readWord_page ht hp] at h
    exact congrArg Host.Outcome.next h
  · intro s port off size hr hbad
    exact congrArg Host.Outcome.next (readAccess_refused rfl hr hbad)
  · intro s port hr hrom half
    have hhigh : regValue half 6 0x054 = s.sq.beatCount.toNat / 2 ^ 32 := toNat_highHalf s.sq.beatCount
    have h := readAccess_latch (t := half) (c := s.sq.beatCount) hr (off := 0x6050) (by decide) rfl rfl rfl (pageOpen_of_rom hrom 6)
      (pageOpen_of_rom hrom 6) rfl rfl rfl hhigh
    exact ⟨congrArg Host.Outcome.next h.1, congrArg Host.Outcome.next h.2, hhigh⟩
  · intro s port hr half
    have hm := mainPower_of_reaches_pf0 hr
    have hhigh : regValue half 0 0x054 = s.power.rtb.toNat / 2 ^ 32 := toNat_highHalf s.power.rtb
    have h := readAccess_latch (t := half) (c := s.power.rtb) hr (off := 0x50) (by decide) rfl rfl rfl (pageOpen_dev hm)
      (pageOpen_dev hm) rfl rfl rfl hhigh
    exact ⟨congrArg Host.Outcome.next h.1, congrArg Host.Outcome.next h.2, hhigh⟩
  · intro s p o h
    simp only [List.mem_cons, Prod.mk.injEq, List.not_mem_nil, or_false] at h
    rcases h with ⟨rfl, rfl⟩ | ⟨rfl, rfl⟩ | ⟨rfl, rfl⟩
    · exact dpOverride_taken s
    · exact s.ms.ceCount.shown_taken (sclk s)
    · exact s.ms.ueCount.shown_taken (sclk s)
  · intro s g hg hwf
    rw [readEffect_clipCount s hg]
    refine ⟨?_, fun h hne => getTg_modTg_ne _ hne⟩
    rw [regValue_tg _ hg (by omega)]
    show (getTg (modTg s g _) g).clipCount.shown (sclk s) = 0
    rw [getTg_modTg hwf, Counter.shown_taken]
  · exact fun x now => ⟨x.shown_taken now, x.shown_succ_taken now⟩
  · intro s off n hup
    refine ⟨fun h1 h2 h3 h4 => ⟨readDwords_length s _ _, ?_⟩, fun hbad => ?_⟩
    · have hn : n ≠ 0 := by rintro rfl; exact absurd h2 (by decide)
      have hok : ¬(off.toNat % 4 ≠ 0 ∨ n = 0 ∨ 16 < n.toNat ∨ 2 ^ 25 < off.toNat + 4 * n.toNat) := by
        simp only [hn, false_or]
        omega
      show execRegRead off n s = _
      simp only [execRegRead, hup, Bool.not_true, Bool.false_eq_true, if_false, if_neg hok]
    · show execRegRead off n s = _
      simp only [execRegRead, hup, Bool.not_true, Bool.false_eq_true, if_false, if_pos hbad]
end

section
/-! SUPPORT. What a write of a header register does, and writes that reach the calibration window (R21-R24, R27, R30, R31, R42). -/

namespace Sys2Proof.Machine

/-- A write of PF0 to a register of a page (R31). -/
theorem writeWordAt_page_pf0 {s : State} {port : Bool} {off v p o : Nat} (ht : targetOf (.pf0 port) off = .page p o) :
    writeWordAt s (.pf0 port) off v = if mayWrite s (.pf0 port) p then writeReg s (.pf0 port) p o v else s := by
  simp [writeWordAt, ht]

/-- A write of management to a register of a page (R35). -/
theorem writeWordAt_page_mgmt {s : State} {off v p o : Nat} (ht : targetOf .mgmt off = .page p o) :
    writeWordAt s .mgmt off v = if mayWrite s .mgmt p && mgmtMayWrite p o then writeReg s .mgmt p o v else s := by
  simp [writeWordAt, ht]

/-- EVT_ENABLE stores what is written. -/
theorem writeReg_evtEnable (s : State) (a : Accessor) (p : Nat) (v : BitVec 32) :
    writeReg s a p 0x014 v.toNat = modHdr s p (fun h => { h with evtEnable := v }) := by
  show modHdr s p _ = _
  rw [BitVec.ofNat_toNat, BitVec.setWidth_eq]

/-- A write of EVT_ENABLE by management is always accepted (R503). -/
theorem mgmtAccepted_evtEnable (s t : State) (p v : Nat) : mgmtAccepted s t p 0x014 v = true := if_pos (.inl rfl)

/-- PAGE_CTRL with neither THAW nor SRST, by PF0: EN alone is written (R21). -/
theorem writePageCtrl_en {s : State} {port : Bool} {p v : Nat} (hthaw : bit v 1 = false) (hsrst : bit v 2 = false) :
    writePageCtrl s (.pf0 port) p v = writeEn s p v := by
  simp [writePageCtrl, hthaw, hsrst]

/-- PAGE_CTRL with SRST and without THAW, by PF0: EN is written and the soft reset starts (log entry 64). -/
theorem writePageCtrl_srst {s : State} {port : Bool} {p v : Nat} (hthaw : bit v 1 = false) (hsrst : bit v 2 = true) :
    writePageCtrl s (.pf0 port) p v = softResetPage (writeEn s p v) p := by
  simp [writePageCtrl, hthaw, hsrst]

/-- EN of a page that the manifest enables and that has SRST: stored, but on the pages of the plan only while none is admitted (R21,
R22). -/
theorem writeEn_of_enabled {s : State} {p : Nat} (hs : pageSrst p = true) (hm : manifestEnables s p = true) (v : Nat) :
    writeEn s p v = if (8 ≤ p ∧ p ≠ 10) ∧ planAdmitted s = true then s else modHdr s p (fun h => { h with en := bit v 0 }) := by
  simp only [writeEn, hs, hm, Bool.not_true, Bool.false_or, Bool.and_eq_true, decide_eq_true_eq, bne_iff_ne]

/-- A write of EN that EN already has changes nothing. -/
theorem writeEn_same {s : State} {p v : Nat} (hs : pageSrst p = true) (hm : manifestEnables s p = true)
    (hwf : tblWf {} s.hdrs = true) (hen : (getHdr s p).en = bit v 0) : writeEn s p v = s := by
  rw [writeEn_of_enabled hs hm, modHdr_eq_self hwf (by rw [← hen]), ite_self]

/-- A soft reset that nothing stands against (R24). -/
theorem softResetPage_of_idle {s : State} {p : Nat} (hs : pageSrst p = true) (hen : pageEn s p = false)
    (hfz : pageFrozen s p = false) (hb : pageBusy s p = false) :
    softResetPage s p = resetBlock (modHdr s p (fun h => { h with
      busy := true, evtStatus := 0, faultValid := false, faultCode := 0, faultExtra := 0, faultKind := 0, faultMaster := 0
      faultAddr := 0 })) p := by
  simp only [softResetPage, hs, hen, hfz, hb, Bool.not_true, Bool.or_self, Bool.false_eq_true, if_false]

/-- A locked group's window records take no write (R30). -/
theorem writeCalWindow_locked {s : State} {i w : Nat} (v : BitVec 32) (h : (getHdr s (19 + i / 1088)).lock = true) :
    writeCalWindow s i w v = s :=
  if_pos (.inr (.inl h))

/-- A write of a word of the calibration window whose group is locked changes nothing (R30). -/
theorem writeWordAt_window_locked {s : State} {a : Accessor} {off v i b : Nat} (ht : targetOf a off = .window i b)
    (h : (getHdr s (19 + i / 1088)).lock = true) : writeWordAt s a off v = s := by
  simp only [writeWordAt, ht, writeCalWindow_locked _ h, ite_self]

/-- No offset of the calibration window is one of a low/high pair, so only 4-byte accesses are well-formed there (R12). -/
theorem size_of_accessOk_window {a : Accessor} {off size i b : Nat} (ht : targetOf a off = .window i b)
    (h : accessOk a off size = true) : size = 4 ∧ off % 4 = 0 := by
  simpa [accessOk, pairLow, ht] using h

/-- Only accesses to BAR2 and to a virtual function's BAR0 are shut out. -/
theorem shutOut_of_target_window {s : State} {a : Accessor} {off i b : Nat} (ht : targetOf a off = .window i b) :
    shutOut s a = false := by
  rcases accessor_of_target_window ht with ⟨port, rfl⟩ | rfl <;> rfl

end Sys2Proof.Machine

open Sys2Proof.Machine

/-- Settles O25: each clause is the rule of the register written (`writeReg`), or of PAGE_CTRL. -/
theorem registerWrites : Obligations.RegisterWrites := by
  refine ⟨?_, ?_, ?_, ?_, ?_, ?_⟩
  · intro s port off v p o hr hoff ht
    have h := writeAccess_four (v := v.toNat) rfl hr hoff
    rw [writeWordAt_page_pf0 ht] at h
    exact congrArg Host.Outcome.next h
  · intro s port p v a
    refine ⟨?_, ?_, ?_, ?_, fun o ho => ?_⟩
    · show modHdr s p _ = _
      rw [BitVec.ofNat_toNat, BitVec.setWidth_eq]
      rfl
    · exact writeReg_evtEnable s a p v
    · show modHdr s p _ = _
      rw [bit_toNat, bit_toNat]
      rfl
    · show modHdr s p _ = _
      rw [BitVec.ofNat_toNat, BitVec.setWidth_eq]
    · simp only [List.mem_cons, List.not_mem_nil, or_false] at ho
      rcases ho with rfl | rfl | rfl | rfl | rfl | rfl | rfl | rfl | rfl <;> rfl
  · intro s port p v hw a
    refine ⟨?_, ?_, ?_, ?_⟩
    · have h : execPageLock a p v s = .next (writeReg s a p.toNat 0x034 v.toNat) := by simp [execPageLock, a, hw]
      rw [← bit_toNat]
      exact h
    · have h : execEvtForce a p v s = .next (writeReg s a p.toNat 0x018 v.toNat) := by simp [execEvtForce, a, hw]
      simp only [← bit_toNat]
      exact h
    · intro hs hm hen hv
      have hchange : (pageEn s p.toNat != bit v.toNat 0) = true := by simpa [pageEn, hm, bit_toNat] using hen
      have h : execPageEnableWrite port p v s = .next (writePageCtrl s (.pf0 port) p.toNat v.toNat) := by
        simp only [execPageEnableWrite, hchange, show mayWrite s (.pf0 port) p.toNat = true from hw, Bool.and_self, if_true]
      rw [writePageCtrl_en (by simp [bit]; omega) (by simp [bit]; omega), writeEn_of_enabled hs hm, bit_toNat] at h
      exact h
    · rintro hs hen hfz hb rfl
      refine ⟨fun hm hoff hwf => ?_, softResetPage_of_idle hs hen hfz hb⟩
      have h : execSrst port p 4 s = .next (writePageCtrl s (.pf0 port) p.toNat 4) := by
        simp [execSrst, show mayWrite s (.pf0 port) p.toNat = true from hw, bit]
      rw [writePageCtrl_srst rfl rfl, writeEn_same (v := 4) hs hm hwf hoff] at h
      exact h
  · intro s p hb
    exact congrArg Host.Outcome.next (if_pos hb)
  · intro s off v p hup hm hoff hlt ht hw
    have hmay : mgmtMayWrite p 0x014 = true := by simp [mgmtMayWrite]
    have hbad : ¬(off.toNat % 4 ≠ 0 ∨ 2 ^ 25 ≤ off.toNat) := by omega
    show execRegWrite off v s = _
    simp only [execRegWrite, hup, if_neg hbad, ht, hm, writeWordAt_page_mgmt ht, hw, hmay, mgmtAccepted_evtEnable, writeReg_evtEnable,
      Bool.not_true, Bool.false_eq_true, false_and, if_false, Bool.and_self, if_true]
  · intro s off v hup hbad
    show execRegWrite off v s = _
    simp only [execRegWrite, hup, Bool.not_true, Bool.false_eq_true, if_false, if_pos hbad]

/-- Settles O26: the window's offsets by arithmetic; a locked group's records take no write. -/
theorem calibrationWindowPlace : Obligations.CalibrationWindowPlace := by
  refine ⟨fun g t b hg ht hb => ⟨?_, by omega⟩, fun off hoff => if_neg (by omega), ?_⟩
  · unfold windowAt
    rw [if_pos (by omega), Option.some_inj, Prod.mk.injEq]
    omega
  · intro s a off size v i b hr hok ht hlock
    have hshut := shutOut_of_target_window (s := s) ht
    obtain ⟨hsize, hoff⟩ := size_of_accessOk_window ht hok
    have h := writeAccess_four (v := v.toNat) hshut hr hoff
    rw [writeWordAt_window_locked ht hlock, ← hsize] at h
    exact congrArg Host.Outcome.next h
end

section
/-! SUPPORT. What a freeze records, and what a THAW releases (R47-R51). -/

namespace Sys2Proof.Machine

/-! ### Freezing a master (R47) -/

/-- A master that is not frozen is added at the end of the frozen ones, and no other. -/
theorem freeze_frozen_of_not {s : State} {kind master : Nat} (h : isFrozen s kind master = false) (page code addr : Nat) :
    ∃ z : Frozen, z.kind = kind ∧ z.master = master ∧ (freeze s page kind master code addr).frozen = s.frozen ++ [z] := by
  refine ⟨?_, ?_, ?_, ?_⟩
  case refine_4 =>
    unfold freeze
    rw [raiseEvent_frozen, modHdr_frozen, h]
    rfl
  all_goals rfl

/-- A freeze of a master that is frozen adds none. -/
theorem freeze_frozen_of_frozen {s : State} {kind master : Nat} (h : isFrozen s kind master = true) (page code addr : Nat) :
    (freeze s page kind master code addr).frozen = s.frozen := by
  unfold freeze
  rw [raiseEvent_frozen, modHdr_frozen, h]
  rfl

/-- After its freeze a master is frozen. -/
theorem isFrozen_freeze (s : State) (page kind master code addr : Nat) :
    isFrozen (freeze s page kind master code addr) kind master = true := by
  cases h : isFrozen s kind master with
  | true => rw [isFrozen, freeze_frozen_of_frozen h]; exact h
  | false =>
    obtain ⟨z, hk, hm, hz⟩ := freeze_frozen_of_not h page code addr
    simp [isFrozen, hz, hk, hm]

/-- Two headers with the same fault record (R48). -/
def SameFault (h g : Hdr) : Prop :=
  g.faultValid = h.faultValid ∧ g.faultCode = h.faultCode ∧ g.faultExtra = h.faultExtra ∧ g.faultKind = h.faultKind ∧
    g.faultMaster = h.faultMaster ∧ g.faultAddr = h.faultAddr

/-- An event leaves every page's fault record. -/
theorem sameFault_raiseEvent {s : State} (hwf : tblWf {} s.hdrs = true) (page code : Nat) (inf : List Byte) (forced : Bool) :
    SameFault (getHdr s page) (getHdr (raiseEvent s page code inf forced) page) := by
  cases hp : pagePowered s page with
  | true => rw [getHdr_raiseEvent hwf hp]; exact ⟨rfl, rfl, rfl, rfl, rfl, rfl⟩
  | false =>
    have h : getHdr (raiseEvent s page code inf forced) page = getHdr s page := by
      unfold getHdr
      rw [raiseEvent_hdrs, hp]
      rfl
    rw [h]
    exact ⟨rfl, rfl, rfl, rfl, rfl, rfl⟩

/-- The fault record of the page after a freeze: the violation where none was recorded, else one more in EXTRA (R47). -/
theorem sameFault_freeze {s : State} (hwf : tblWf {} s.hdrs = true) (page kind master code addr : Nat) :
    SameFault (if (getHdr s page).faultValid
        then { getHdr s page with faultExtra := min 255 ((getHdr s page).faultExtra + 1) }
        else { getHdr s page with faultValid := true, faultCode := BitVec.ofNat 16 code, faultExtra := 0, faultKind := kind
                                  faultMaster := BitVec.ofNat 16 master, faultAddr := BitVec.ofNat 64 addr })
      (getHdr (freeze s page kind master code addr) page) := by
  unfold freeze
  extract_lets h entry u v g
  have hu : u.hdrs = s.hdrs := (apply_ite State.hdrs ..).trans (ite_self _)
  have huwf : tblWf {} u.hdrs = true := by rw [hu]; exact hwf
  have hv : getHdr v page = (if (getHdr s page).faultValid
      then { getHdr s page with faultExtra := min 255 ((getHdr s page).faultExtra + 1) }
      else { getHdr s page with faultValid := true, faultCode := BitVec.ofNat 16 code, faultExtra := 0, faultKind := kind
                                faultMaster := BitVec.ofNat 16 master, faultAddr := BitVec.ofNat 64 addr }) := by
    rw [getHdr_modHdr huwf, getHdr, hu]
    rfl
  have hvwf : tblWf {} v.hdrs = true := by
    rw [modHdr_hdrs]
    exact tblWf_mod huwf page _
  rw [← hv]
  exact sameFault_raiseEvent hvwf page _ _ _

/-! ### THAW (R49-R51) -/

/-- PAGE_CTRL with THAW and without SRST, by PF0: EN is written, then the masters are thawed (log entry 64). -/
theorem writePageCtrl_thaw_pf0 {s : State} {port : Bool} {p v : Nat} (hthaw : bit v 1 = true) (hsrst : bit v 2 = false) :
    writePageCtrl s (.pf0 port) p v = thaw (writeEn s p v) (.pf0 port) p := by
  simp [writePageCtrl, hthaw, hsrst]

/-- Of a PAGE_CTRL write by any other writer THAW alone acts (R35). -/
theorem writePageCtrl_thaw_other {s : State} {a : Accessor} (ha : ∀ port, a ≠ .pf0 port) {p v : Nat} (hthaw : bit v 1 = true) :
    writePageCtrl s a p v = thaw s a p := by
  cases a with
  | pf0 port => exact absurd rfl (ha port)
  | vf | bar2 | mgmt | mgmtFn => simp [writePageCtrl, hthaw]

/-- A THAW that may thaw no master of the page changes nothing. -/
theorem thaw_of_none {s : State} {a : Accessor} {p : Nat} (h : thawHits s a p = []) : thaw s a p = s := by
  simp [thaw, h]

/-- A THAW releases the masters it may thaw and reports them. -/
theorem thaw_of_hits {s : State} {a : Accessor} {p : Nat} (h : thawHits s a p ≠ []) :
    thaw s a p = raiseEvent (recordAfterThaw (forEach (thawHits s a p) thawMaster
      { s with frozen := s.frozen.filter (fun z => !(thawHits s a p).contains z) }) p) p 0x02
      (info [(4, (thawHits s a p).length), (1, writerCode a)]) := by
  simp [thaw, h]

/-- What a permitted write with THAW does, from the state `u` that its write of EN leaves. -/
theorem execThaw_cases {s u : State} {a : Accessor} {page : BitVec 9} {v : BitVec 32} (hw : mayWrite s a page.toNat = true)
    (hthaw : v.getLsbD 1 = true) (hu : writePageCtrl s a page.toNat v.toNat = thaw u a page.toNat) :
    execThaw a page v s = .next (thaw u a page.toNat) := by
  rw [← bit_toNat] at hthaw
  simp [execThaw, hw, hthaw, hu]

/-- With no master of the page frozen the record becomes invalid (R50). -/
theorem recordAfterThaw_of_none {s : State} {p : Nat} (h : s.frozen.filter (fun z => z.page == p) = []) :
    recordAfterThaw s p = modHdr s p (fun h => { h with faultValid := false }) := by
  simp [recordAfterThaw, h]

/-- With a master of the page frozen before this SCLK cycle the record stays (R50). -/
theorem recordAfterThaw_of_earlier {s : State} {p : Nat}
    (h : ∃ z ∈ s.frozen.filter (fun z => z.page == p), z.cycle ≠ sclk s) : recordAfterThaw s p = s := by
  obtain ⟨z, hz, hc⟩ := h
  unfold recordAfterThaw
  split
  case h_1 hnil => rw [hnil] at hz; exact absurd hz List.not_mem_nil
  case h_2 y ys hcons =>
    rw [hcons] at hz
    refine if_neg (fun hall => hc ?_)
    simpa using List.all_eq_true.mp hall z hz

/-- Where only masters frozen in this SCLK cycle stay, the first of them is recorded anew (R51). -/
theorem recordAfterThaw_of_new {s : State} {p : Nat} {z : Frozen} {zs : List Frozen}
    (h : s.frozen.filter (fun z => z.page == p) = z :: zs) (hall : ∀ y ∈ z :: zs, y.cycle = sclk s) :
    recordAfterThaw s p = modHdr s p (fun h => { h with
      faultValid := true, faultCode := z.code, faultExtra := min 255 zs.length, faultKind := z.kind
      faultMaster := BitVec.ofNat 16 z.master, faultAddr := z.addr }) := by
  have hb : (z :: zs).all (fun y => y.cycle == sclk s) = true := List.all_eq_true.mpr (fun y hy => beq_iff_eq.mpr (hall y hy))
  unfold recordAfterThaw
  rw [h]
  exact if_pos hb

end Sys2Proof.Machine

open Sys2Proof.Machine

/-- Settles O28: the rules of `freeze` and `thaw` above, and the branches of `thawMaster`. -/
theorem freezeAndThaw : Obligations.FreezeAndThaw := by
  refine ⟨?_, ?_, ?_, ?_, fun q c => rfl, ?_⟩
  · intro s page kind master code addr hwf t
    have hrec := sameFault_freeze hwf page kind master code addr
    refine ⟨isFrozen_freeze s page kind master code addr, fun h => freeze_frozen_of_frozen h page code addr, fun h => ?_, fun h => ?_,
      fun h => ?_⟩
    · obtain ⟨z, -, -, hz⟩ := freeze_frozen_of_not h page code addr
      rw [hz, List.length_append, List.length_singleton]
    · rw [h] at hrec
      exact hrec
    · rw [h] at hrec
      obtain ⟨-, hcode, hextra, hkind, hmaster, haddr⟩ := hrec
      exact ⟨hextra, hcode, haddr, hkind, hmaster⟩
  · intro s a page v hw hthaw hsrst u hit w
    have hctrl : writePageCtrl s a page.toNat v.toNat = thaw u a page.toNat := by
      rw [← bit_toNat] at hthaw hsrst
      cases a with
      | pf0 port => exact writePageCtrl_thaw_pf0 hthaw hsrst
      | vf | bar2 | mgmt | mgmtFn => exact writePageCtrl_thaw_other (by rintro _ ⟨⟩) hthaw
    have h := execThaw_cases hw hthaw hctrl
    exact ⟨fun hnone => h.trans (congrArg _ (thaw_of_none hnone)), fun hhits => h.trans (congrArg _ (thaw_of_hits hhits))⟩
  · intro s p left
    exact ⟨recordAfterThaw_of_none, recordAfterThaw_of_earlier,
      fun z zs hleft hall => recordAfterThaw_of_new hleft (hleft ▸ hall)⟩
  · intro s z
    exact ⟨fun hk => by simp [thawMaster, hk], fun hk => by simp [thawMaster, hk]⟩
  · rintro z hk hm
    refine ⟨rfl, fun port => ?_⟩
    rcases hm with hm | hm <;> simp [mayThaw, hk, hm]
end

section
/-! SUPPORT. The group's range register, the calibration window's baselines, a repair round and the commit of an adapter (R30, R94, R150-R154,
R557). -/

namespace Sys2Proof.Machine

/-- TG_FSR_DEFAULT by a writer that may write the group's page. -/
theorem execTgFsrDefault_of_mayWrite {s : State} {port : Bool} {g : BitVec 6} (v : BitVec 32)
    (h : mayWrite s (.pf0 port) (19 + g.toNat) = true) :
    execTgFsrDefault (.pf0 port) g v s = .next (writeFsr s g.toNat v.toNat) := by
  simp [execTgFsrDefault, pgTg, h]

/-- A write of the calibration window by a writer that may write the group's page. -/
theorem execCalWindowWrite_of_mayWrite {s : State} {port : Bool} {i : BitVec 17} (w : BitVec 4) (v : BitVec 32)
    (h : mayWrite s (.pf0 port) (19 + i.toNat / 1088) = true) :
    execCalWindowWrite (.pf0 port) i w v s = .next (writeCalWindow s i.toNat w.toNat v) := by
  simp [execCalWindowWrite, pgTg, h]

/-- While a plan is admitted no word of the window is written (R557). -/
theorem writeCalWindow_admitted {s : State} (i w : Nat) (v : BitVec 32) (h : planAdmitted s = true) : writeCalWindow s i w v = s :=
  if_pos (.inl h)

/-- Words 0 to 3 of an unlocked group's window record are its baselines; no other is written (R557). -/
theorem writeCalWindow_open {s : State} {i : Nat} (w : BitVec 4) (v : BitVec 32) (hi : i < 69632) (hp : planAdmitted s = false)
    (hl : (getHdr s (19 + i / 1088)).lock = false) : writeCalWindow s i w.toNat v = modTile s i (fun t =>
      if w = 0 then { t with gCal := v } else if w = 1 then { t with oCal := v } else if w = 2 then { t with gammaCal := v }
      else if w = 3 then { t with omegaCal := v } else t) := by
  have hopen : ¬(planAdmitted s = true ∨ (getHdr s (pgTg (i / 1088))).lock = true ∨ 69632 ≤ i) := by
    simp [pgTg, hp, hl, hi]
  rw [writeCalWindow, if_neg hopen]
  congr 1
  funext t
  have hw (n : BitVec 4) : w.toNat = n.toNat ↔ w = n := BitVec.toNat_inj
  split
  case h_1 h => rw [if_pos ((hw 0).mp h)]
  case h_2 h => rw [(hw 1).mp h]; rfl
  case h_3 h => rw [(hw 2).mp h]; rfl
  case h_4 h => rw [(hw 3).mp h]; rfl
  case h_5 h0 h1 h2 h3 =>
    rw [if_neg (mt (hw 0).mpr h0), if_neg (mt (hw 1).mpr h1), if_neg (mt (hw 2).mpr h2), if_neg (mt (hw 3).mpr h3)]

end Sys2Proof.Machine

open Sys2Proof.Machine

/-- Settles O34: the rules above, and the branch of REPAIR_ROUND and of ADAPTER_COMMIT whose conditions hold. -/
theorem rangeRegisterWindowAndRepair : Obligations.RangeRegisterWindowAndRepair := by
  refine ⟨?_, ?_, ?_, ?_⟩
  · intro s port g v hw hi lo
    have h := execTgFsrDefault_of_mayWrite v hw
    have hhi : bits v.toNat 4 4 = hi := rfl
    have hlo : bits v.toNat 0 4 = lo := by simp [bits, lo]
    rw [writeFsr, hhi, hlo, bit_toNat] at h
    refine ⟨fun hbad => ?_, fun h1 h2 => ?_⟩
    · rw [if_pos hbad] at h
      exact h
    · rw [if_neg (by omega)] at h
      exact h
  · intro s port i w v hi hw
    have h := execCalWindowWrite_of_mayWrite w v hw
    refine ⟨?_, fun hp hl => ?_⟩
    · rintro (hp | hl)
      · rw [writeCalWindow_admitted _ _ v hp] at h
        exact h
      · rw [writeCalWindow_locked v hl] at h
        exact h
    · rw [writeCalWindow_open w v hi hp hl] at h
      exact h
  · intro s op probes live heldOut l x inputs i o m ran marked vs es hlive hx htpl hrep htrain hon hord hall hreads hdone
    show execRepairRound op probes live heldOut s = _
    have hall' : inputs.all (inputAllowed s o x (tblGet (false, false) s.sq.repair o.owner).2) = true := List.all_eq_true.mpr hall
    have hgo : ¬(l.template ≠ o.template ∨ (!(liveTemplate s).repair) = true ∨ (!x.train) = true ∨
        (!(tblGet (false, false) s.sq.repair o.owner).1) = true ∨ (!inputOrder m inputs) = true ∨
        (!inputs.all (inputAllowed s o x (tblGet (false, false) s.sq.repair o.owner).2)) = true ∨ (!readsShot s o inputs) = true ∨
        l.done.contains (8, i) = true) := by
      simp only [htpl, hrep, htrain, hon, hord, hall', hreads, hdone, ne_eq, not_true_eq_false, Bool.not_true, Bool.false_eq_true,
        or_self, not_false_eq_true]
    unfold execRepairRound
    refine congrArg Host.Outcome.next ?_
    dsimp only
    rw [hlive, show ((ownRec s).ops.getD op.toNat {}).adapter = some x from hx]
    exact if_neg hgo
  · intro s op x i o st hx hedge hst hel hlive hend hv hrepl hrho w u
    have hgo : ¬((!atEdge s 2) = true ∨ (!st.staged) = true ∨ (!st.eligible) = true ∨ s.sq.live.isSome = true ∨ s.sq.ended ≠ [] ∨
        s.sq.verdict = 2 ∨ s.sq.replaying ≠ [] ∨ s.sq.rho ≠ []) := by
      simp [hedge, hst, hel, hlive, hend, hv, hrepl, hrho]
    show execAdapterCommit op s = _
    unfold execAdapterCommit
    refine congrArg Host.Outcome.next ?_
    dsimp only
    rw [show ((ownRec s).ops.getD op.toNat {}).adapter = some x from hx]
    exact if_neg hgo
end

section
/-! SUPPORT. Commands that this device executes, reads of memory that holds no error, and aperture accesses (R37, R378, R381, R386, R457,
R461). -/

namespace Sys2Proof.Machine

/-- A command that may take effect and names this device takes effect here (R457). -/
theorem deviceCommand_here {i : Issuer} {op : Nat} {ps : List Nat} {s : State} (hs : starts s i op ps = true)
    (hh : forHere s i = true) (body : State → State) (refused : State → Option Nat) (onSend : State → State) :
    deviceCommand i op ps s body refused onSend = .next (body s) := by
  simp [deviceCommand, command, hs, hh]

/-- A transfer that may start here, aligned and inside the owner's extents, starts on queue 258 (R461). -/
theorem startTransfer_here {i : Issuer} {op owner addr host len : Nat} {s : State} (hs : starts s i op [owner, addr, host, len] = true)
    (hh : forHere s i = true) (ho : ownerRefusal s i owner = none) (ha : addr % 64 = 0) (hhost : host % 64 = 0) (hl : len % 64 = 0)
    (hx : extentsGranted s owner addr len = true) :
    startTransfer i op owner addr host len s = .next (issueReads (modFetched s i (fun f => { f with
      inEffect := true, owner := owner, params := leBytes 8 addr ++ leBytes 8 host ++ leBytes 4 len })) i.port) := by
  rw [startTransfer, if_neg (by simp [hh]), deviceCommand_here hs hh, ho, orRefuse, if_neg (by simp [ha, hhost, hl]),
    if_neg (by simp [hx])]

/-! ### Reads of memory that holds no error (R386) -/

/-- A read that brings and meets no error changes nothing. -/
theorem eccRead_clean {s : State} (hp : s.ms.poisoned = []) (hl : s.ms.latent = []) (a n reader queue : Nat) :
    eccRead s a n [] reader queue = s := by
  have hnote : noteErrors s [] = s := by
    unfold noteErrors
    rw [hl, List.filter_nil, List.append_nil, ← hl]
  unfold eccRead
  simp [errorsNow, hl, hnote, hp, forEach]

/-- No range is poisoned where no word is. -/
theorem poisonedIn_clean {s : State} (hp : s.ms.poisoned = []) (a n : Nat) : poisonedIn s a n = false := by
  simp [poisonedIn, hp]

/-- A scrub pass that ends in a memory that holds no error counts itself and reports no word (R388, R394). -/
theorem execScrubPass_clean {s : State} (hact : s.ms.scrubActive = true) (hle : s.ms.scrubUntil ≤ s.clock)
    (hp : s.ms.poisoned = []) (hl : s.ms.latent = []) : execScrubPass [] s = .next (raiseEvent
      { s with ms := { s.ms with scrubActive := false, passes := min 65535 (s.ms.passes + 1) } } 10 0x06 (info [(4, 0), (4, 0)])) := by
  have hnone : errorsNow s [] = [] := by simp [errorsNow, hl]
  unfold execScrubPass
  rw [if_neg (by simp [hact, hle])]
  simp only [hnone, List.filter_nil, hp, hl, List.map_nil, List.append_nil, forEach, List.foldl_nil, List.length_nil, pgMs]

/-! ### Apertures -/

/-- The aperture of a function takes an access of `n` bytes at an offset (R34, R37, R38, R447, R451, R452, R467): the port's BARs answer, the
function is enabled, neither frozen nor in reset, a VF has an aperture owner, it is not PF0's view in power state ROM, and the bytes lie in
the aperture. -/
structure ApertureTakes (s : State) (port : Bool) (fn : BitVec 5) (off n : Nat) : Prop where
  bars : barsOpen s port = true
  enabled : fnEnabled s port fn.toNat = true
  thawed : fnFrozen s port fn.toNat = false
  running : (getFn s port fn.toNat).inReset = false
  owned : fn ≠ 0 → (getFn s port fn.toNat).aptOwner ≠ 0
  notRom : s.power.state = .rom → fn ≠ 0
  inside : off + n ≤ apertureSize s port fn.toNat

/-- The address in stack memory of an offset of a function's aperture (R37, R474). -/
def apertureAddr (s : State) (port : Bool) (fn : BitVec 5) (off : BitVec 64) : Nat :=
  (getFn s port fn.toNat).aptBase * 2 ^ 30 + off.toNat

/-- The first three refusals of an aperture access do not meet one that the aperture takes. -/
theorem ApertureTakes.noRefusal {s : State} {port : Bool} {fn : BitVec 5} {off n : Nat} (h : ApertureTakes s port fn off n) :
    (!barsOpen s port || !fnEnabled s port fn.toNat || fnFrozen s port fn.toNat || (getFn s port fn.toNat).inReset
      || decide (apertureSize s port fn.toNat < off + n)) = false ∧
    ¬(fn.toNat ≠ 0 ∧ (getFn s port fn.toNat).aptOwner = 0) ∧ ¬(s.power.state = .rom ∧ fn.toNat = 0) := by
  obtain ⟨hbars, hen, hfz, hrst, hown, hrom, hlen⟩ := h
  have hfn : fn.toNat = 0 ↔ fn = 0 := BitVec.toNat_inj (y := 0)
  refine ⟨?_, ?_, ?_⟩
  · rw [hbars, hen, hfz, hrst, decide_eq_false (by omega)]
    rfl
  · rintro ⟨h0, hno⟩
    exact hown (mt hfn.mpr h0) hno
  · rintro ⟨hr, h0⟩
    exact hrom hr (hfn.mp h0)

/-- A write that the aperture takes: refused in the sump region, refused outside the owner's extents, else made under the owner's key. -/
theorem apertureWrite {s : State} {port : Bool} {fn : BitVec 5} {off : BitVec 64} {data : List Byte} (count : Nat)
    (h : ApertureTakes s port fn off.toNat data.length) :
    (meetsSump s (apertureAddr s port fn off) data.length = true → execApertureAccess port fn off true count data [] s =
      .next (freeze s (pgHp port) 1 (fnMaster port fn.toNat) 0x0905 (apertureAddr s port fn off))) ∧
    (meetsSump s (apertureAddr s port fn off) data.length = false →
      (extentsGranted s (getFn s port fn.toNat).aptOwner (apertureAddr s port fn off) data.length = true →
        execApertureAccess port fn off true count data [] s =
          .next (writeUnder s (stackKey s (getFn s port fn.toNat).aptOwner) (apertureAddr s port fn off) data 258)) ∧
      (extentsGranted s (getFn s port fn.toNat).aptOwner (apertureAddr s port fn off) data.length = false →
        execApertureAccess port fn off true count data [] s =
          .next (freeze s (pgHp port) 1 (fnMaster port fn.toNat) 0x0904 (apertureAddr s port fn off)))) := by
  obtain ⟨h1, h2, h3⟩ := h.noRefusal
  simp only [apertureAddr]
  unfold execApertureAccess
  simp only [if_true, h1, Bool.false_eq_true, if_false, if_neg h2, if_neg h3, or_true, and_true, refuseAperture]
  refine ⟨fun hm => ?_, fun hm => ⟨fun hx => ?_, fun hx => ?_⟩⟩
  · simp only [hm, if_true]
  · simp only [hm, hx, Bool.not_true, Bool.false_eq_true, if_false]
  · simp only [hm, hx, Bool.not_false, Bool.false_eq_true, if_false, if_true]

/-- A read that the aperture takes, of memory that holds no error and is not the sump: refused outside the owner's extents, else made
under the owner's key. -/
theorem apertureRead {s : State} {port : Bool} {fn : BitVec 5} {off : BitVec 64} {count : Nat} (data : List Byte)
    (h : ApertureTakes s port fn off.toNat count) (hm : meetsSump s (apertureAddr s port fn off) count = false) :
    (extentsGranted s (getFn s port fn.toNat).aptOwner (apertureAddr s port fn off) count = true →
      s.ms.poisoned = [] → s.ms.latent = [] → execApertureAccess port fn off false count data [] s =
        .next (emit s (.apertureData false
          (readUnder s (stackKey s (getFn s port fn.toNat).aptOwner) (apertureAddr s port fn off) count)))) ∧
    (extentsGranted s (getFn s port fn.toNat).aptOwner (apertureAddr s port fn off) count = false →
      execApertureAccess port fn off false count data [] s =
        .next (freeze (countUr s port) (pgHp port) 1 (fnMaster port fn.toNat) 0x0904 (apertureAddr s port fn off))) := by
  obtain ⟨h1, h2, h3⟩ := h.noRefusal
  simp only [apertureAddr] at hm ⊢
  unfold execApertureAccess
  simp only [Bool.false_eq_true, h1, if_false, if_neg h2, if_neg h3, hm, false_and, refuseAperture]
  refine ⟨fun hx hp hl => ?_, fun hx => ?_⟩
  · simp only [hx, Bool.not_true, Bool.false_eq_true, if_false, eccRead_clean hp hl, poisonedIn_clean hp]
  · simp only [hx, Bool.not_false, if_true]

end Sys2Proof.Machine

open Sys2Proof.Machine

/-- Settles O46: each clause is the rule of its command or access above; CE_RATE_UPDATE and a scrub pass that still runs are one branch. -/
theorem stackMemoryCommands : Obligations.StackMemoryCommands := by
  refine ⟨?_, ?_, ?_, ?_, ?_, ?_, ?_, ?_, ?_, ?_⟩
  · intro s i owner addr size hh
    refine ⟨fun hs ho => ?_, fun hs ho => ?_, fun hs ho => ?_⟩
    · show execMemGrant i owner addr size s = _
      rw [execMemGrant, deviceCommand_here hs hh, ho]
      rfl
    · show execMemRelease i owner addr size s = _
      rw [execMemRelease, deviceCommand_here hs hh, ho]
      rfl
    · show execMemGrant i owner addr size s = _
      rw [execMemGrant, deviceCommand_here hs hh, if_pos ho]
  · intro s o a n hg hx
    simp [grantEffect, hg, hx]
  · intro s i owner addr host n hh ho ha hhost hn hx u
    exact ⟨fun hs => startTransfer_here hs hh ho ha hhost hn hx, fun hs => startTransfer_here hs hh ho ha hhost hn hx⟩
  · intro s i f bs addr host len hf heff hx hd horg
    refine ⟨fun hop hread => ?_, fun hop hp hl hdma => ?_⟩
    · show execCommandTransferComplete i (some bs) [] s = _
      unfold execCommandTransferComplete
      rw [hf]
      refine congrArg Host.Outcome.next ?_
      dsimp only
      rw [if_neg (by simp [heff, hop]), if_neg (by omega), if_neg (by simpa using hx), if_pos hop, hd]
      rfl
    · show execCommandTransferComplete i (some bs) [] s = _
      unfold execCommandTransferComplete
      rw [hf]
      refine congrArg Host.Outcome.next ?_
      dsimp only
      rw [if_neg (by simp [heff, hop]), if_neg (by omega), if_neg (by simpa using hx), if_neg (by omega), eccRead_clean hp hl,
        poisonedIn_clean hp, hd, issuerWrite, if_pos horg, if_pos hdma]
      rfl
  · intro s port fn off n data f a hbars hen hfz hrst hown hrom
    have ha : a = apertureAddr s port fn off := rfl
    have htakes {n : Nat} (hlen : off.toNat + n ≤ apertureSize s port fn.toNat) : ApertureTakes s port fn off.toNat n :=
      ⟨hbars, hen, hfz, hrst, hown, hrom, hlen⟩
    rw [ha]
    exact ⟨fun hlen => (apertureWrite n (htakes hlen)).1, fun hm hm' =>
      ⟨fun hlen => apertureRead data (htakes hlen) hm, fun hlen => (apertureWrite n (htakes hlen)).2 hm'⟩⟩
  · intro s hen hact hst
    show execScrubPassStart s = _
    simp [execScrubPassStart, hen, hact, hst, hourCycles, secCycles]
  · intro s hact hlt
    exact congrArg Host.Outcome.next (if_pos (.inr hlt))
  · intro s hact hle hp hl
    exact execScrubPass_clean hact hle hp hl
  · intro s port v hw
    show execMsScrubCtrl (.pf0 port) v s = _
    simp [execMsScrubCtrl, pgMs, hw, writeScrubCtrl, bit_toNat]
  · intro s
    refine ⟨fun h => congrArg Host.Outcome.next (if_pos h), fun h => congrArg Host.Outcome.next (if_neg (by omega))⟩
end

section
/-! SUPPORT. Aperture and heartbeat registers, and what orphaning an owner does to its key slot and its streams (R474-R477, R496-R498). -/

namespace Sys2Proof.Machine

theorem Sent.clock {s t : State} (h : Sent s t) : t.clock = s.clock := by
  obtain ⟨r, o, rfl⟩ := h
  rfl

theorem Sent.getHp {s t : State} (h : Sent s t) (port : Bool) : getHp t port = Machine.getHp s port := by
  obtain ⟨r, o, rfl⟩ := h
  rfl

theorem Sent.streams {s t : State} (h : Sent s t) : t.streams = s.streams := by
  obtain ⟨r, o, rfl⟩ := h
  rfl

theorem Sent.ke {s t : State} (h : Sent s t) : t.ke = s.ke := by
  obtain ⟨r, o, rfl⟩ := h
  rfl

/-- What a member tells the headframe changes the ring interface and the outputs alone. -/
theorem sent_tellHead (s : State) (port : Bool) (fn what : Nat) : Sent s (tellHead s port fn what) := by
  unfold tellHead
  split
  · exact Sent.refl s
  · exact sent_sendMessage s _ _ _ _

/-- Telling the members of an owner's functions changes the ring interface and the outputs alone. -/
theorem sent_shareOwner (s : State) (o : Nat) : Sent s (shareOwner s o) := by
  unfold shareOwner
  split
  · exact Sent.refl s
  · exact sent_broadcast s _ _ _

/-! ### Aperture and heartbeat registers (R474-R477) -/

/-- A write of a function's aperture base by a writer that may write its page. -/
theorem execHpAptBase_of_mayWrite {s : State} {a : Accessor} {port : Bool} {fn : BitVec 5} (v : BitVec 32)
    (h : mayWrite s a (pageOfFn port fn.toNat) = true) (ha : a ≠ .mgmt) :
    execHpAptBase a port fn v s = .next (writeAptBase s port fn.toNat v.toNat) := by
  simp [execHpAptBase, h, ha]

/-- A write of a function's aperture owner by a writer that may write its page. -/
theorem execHpAptOwner_of_mayWrite {s : State} {a : Accessor} {port : Bool} {fn : BitVec 5} (v : BitVec 32)
    (h : mayWrite s a (pageOfFn port fn.toNat) = true) (ha : a ≠ .mgmt) :
    execHpAptOwner a port fn v s = .next (writeAptOwner s port fn.toNat v.toNat) := by
  simp [execHpAptOwner, h, ha]

/-- A write of a function's heartbeat by a writer that may write its page restarts the timer; a member tells the headframe of a timer that
was not running (R476). -/
theorem execHpHeartbeat_of_mayWrite {s : State} {a : Accessor} {port : Bool} {fn : BitVec 5} (v : BitVec 32)
    (h : mayWrite s a (pageOfFn port fn.toNat) = true) (ha : a ≠ .mgmt) :
    execHpHeartbeat a port fn v s = .next (modFn
      (if (getFn s port fn.toNat).hbArmed ∧ !(getFn s port fn.toNat).hbExpired then s else tellHead s port fn.toNat 1) port fn.toNat
      (fun f => { f with
        hbValue := v, hbArmed := true, hbExpired := false, hbDeadline := s.clock + (getHp s port).hbTimeout * 1600000 })) := by
  have hexec : execHpHeartbeat a port fn v s = .next (writeHeartbeat s port fn.toNat v.toNat) := by simp [execHpHeartbeat, h, ha]
  rw [hexec, writeHeartbeat, BitVec.ofNat_toNat, BitVec.setWidth_eq]
  have hsent : Sent s (if (getFn s port fn.toNat).hbArmed ∧ !(getFn s port fn.toNat).hbExpired then s
      else tellHead s port fn.toNat 1) := by
    split
    · exact Sent.refl s
    · exact sent_tellHead s _ _ _
  rw [hsent.clock, hsent.getHp]
  rfl

/-- PF0's page among those of its port's functions. -/
theorem pageOfFn_pf0 (port : Bool) : pageOfFn port (0 : BitVec 5).toNat = pgHp port := rfl

/-- A virtual function's own page. -/
theorem pageOfFn_vf (port : Bool) {fn : BitVec 5} (h : fn ≠ 0) : pageOfFn port fn.toNat = pgFn port fn.toNat :=
  if_neg (fun h0 => h (BitVec.toNat_inj.mp h0))

/-- The aperture of PF0 has the size of BAR4 (R37). -/
theorem apertureGib_pf0 (s : State) (port : Bool) : apertureGib s port 0 = 2 ^ ((getHp s port).bar4Log - 30) := rfl

/-- The aperture of a virtual function has 1 GiB (R474). -/
theorem apertureGib_vf (s : State) (port : Bool) {fn : BitVec 5} (h : fn ≠ 0) : apertureGib s port fn.toNat = 1 :=
  if_neg (fun h0 => h (BitVec.toNat_inj.mp h0))

/-- A port's record reads back as changed. -/
theorem getHp_modHp (s : State) (port : Bool) (f : Hp → Hp) : getHp (modHp s port f) port = f (getHp s port) := by
  cases port <;> rfl

/-! ### Streams of a canonical table -/

/-- The indexes of a canonical array rise strictly. -/
theorem tblWfFrom_indexes {α : Type} [DecidableEq α] {d : α} {t : Tbl α} {lo : Nat} (h : tblWfFrom d lo t = true) :
    (t.map (·.1)).Pairwise (· < ·) ∧ ∀ k ∈ t.map (·.1), lo ≤ k := by
  induction t generalizing lo with
  | nil => exact ⟨List.Pairwise.nil, nofun⟩
  | cons e t ih =>
    obtain ⟨k, v⟩ := e
    simp only [tblWfFrom, Bool.and_eq_true, decide_eq_true_eq] at h
    obtain ⟨hrise, habove⟩ := ih h.2
    rw [List.map_cons, List.pairwise_cons, List.forall_mem_cons]
    exact ⟨⟨fun j hj => habove j hj, hrise⟩, h.1.1, fun j hj => by have := habove j hj; omega⟩

/-- No stream is listed twice. -/
theorem streamIds_nodup {s : State} (h : tblWf none s.streams = true) : (streamIds s).Nodup :=
  ((tblWfFrom_indexes h).1.imp Nat.ne_of_lt).sublist (List.Sublist.map _ List.filter_sublist)

/-- A stream reads back as changed, and no other stream changes. -/
theorem getStream_modStream {s : State} (h : tblWf none s.streams = true) (i j : Nat) (f : Stream → Stream) :
    getStream (modStream s i f) j = if j = i then (getStream s j).map f else getStream s j := by
  split
  · subst j
    exact tblGet_set_self h i _
  · exact tblGet_set_ne _ ‹_›

/-- Changing each stream of a list once changes those streams and no other. -/
theorem getStream_forEach_modStream {s : State} {l : List Nat} (h : tblWf none s.streams = true) (hl : l.Nodup) (f : Stream → Stream)
    (j : Nat) : getStream (forEach l (fun s i => modStream s i f) s) j = if j ∈ l then (getStream s j).map f else getStream s j := by
  induction l generalizing s with
  | nil => rfl
  | cons i l ih =>
    obtain ⟨hi, hl⟩ := List.nodup_cons.mp hl
    have hrest := ih (s := modStream s i f) (tblWf_set h i _) hl
    rw [getStream_modStream h] at hrest
    refine hrest.trans ?_
    by_cases hj : j = i
    · subst j
      simp [hi]
    · simp [hj]

/-! ### Orphaning (R496, R497) -/

/-- The state when an owner bound to the functions `b :: r` has become orphaned: apertures dropped, its streams ORPHANED, held by the port of
its first function until the grace ends, its key slot in state 2, the members told. -/
def orphanedState (s : State) (o : Nat) (b : Bool × Nat) (r : List (Bool × Nat)) : State :=
  let s1 := forEach (b :: r) (fun s x => dropAperture s o x.1 x.2) s
  let s2 := forEach (orphanStreams s o) (fun s j => modStream s j (fun t => { t with state := 9, heldState := t.state })) s1
  let s3 := modOwner s2 o (fun w => { w with
    bound := [], held := some b.1, grace := some (BitVec.ofNat 64 (rtb s2 + (getHp s b.1).grace * 100000000)), denials := 0 })
  shareOwner (modSlot s3 o (fun k => { k with state := 2, port := b.1 })) o

/-- An owner that is due becomes orphaned at a boundary, or at once while no set is admitted (R496). -/
theorem execOrphaned_due {s : State} {owner : BitVec 8} {w : Owner} {b : Bool × Nat} {r : List (Bool × Nat)}
    (hw : getOwner s owner.toNat = some w) (hb : w.bound = b :: r) (hdue : orphanDue s owner.toNat = true)
    (hedge : planAdmitted s = false ∨ atEdge s 0 = true) :
    execOrphaned owner s = .next (raiseEvent (orphanedState s owner.toNat b r) 1 0x09 (info [(1, owner.toNat), (1, ofBool b.1),
      (2, (orphanStreams s owner.toNat).length), (4, (getHp s b.1).grace)])) := by
  have hgo : (!orphanDue s owner.toNat || (planAdmitted s && !atEdge s 0)) = false := by
    rcases hedge with h | h <;> simp [hdue, h]
  unfold execOrphaned
  refine congrArg Host.Outcome.next ?_
  dsimp only
  rw [hw]
  dsimp only
  rw [hb]
  dsimp only
  rw [hgo]
  rfl

/-- An owner of whose functions each has an expired heartbeat is due (R496). -/
theorem orphanDue_of_expired {s : State} {o : Nat} {w : Owner} (hw : getOwner s o = some w) (hb : w.bound ≠ []) (ho : o ≠ 0)
    (hrel : w.releasing = false) (hexp : ∀ x ∈ w.bound, (getFn s x.1 x.2).hbExpired = true) : orphanDue s o = true := by
  have hall : w.bound.all (fun x => (getFn s x.1 x.2).hbExpired) = true := List.all_eq_true.mpr hexp
  simp [orphanDue, hw, ho, hrel, hb, hall]

/-- Dropping apertures changes the host ports alone. -/
theorem forEach_dropAperture_streams (l : List (Bool × Nat)) (o : Nat) (s : State) :
    (forEach l (fun s x => dropAperture s o x.1 x.2) s).streams = s.streams :=
  forEach_keeps State.streams l _ (fun s x => modFn_streams s x.1 x.2 _) s

theorem forEach_dropAperture_ke (l : List (Bool × Nat)) (o : Nat) (s : State) :
    (forEach l (fun s x => dropAperture s o x.1 x.2) s).ke = s.ke :=
  forEach_keeps State.ke l _ (fun s x => modFn_ke s x.1 x.2 _) s

/-- A key slot reads back as changed. -/
theorem getSlot_modSlot {s : State} (h : tblWf {} s.ke.slots = true) (o : Nat) (f : Slot → Slot) :
    getSlot (modSlot s o f) o = f (getSlot s o) := tblGet_mod_self h o f

/-- The orphaned owner's key slot is in state 2 and held by the port (R497). -/
theorem getSlot_orphanedState {s : State} (h : tblWf {} s.ke.slots = true) (o : Nat) (b : Bool × Nat) (r : List (Bool × Nat)) :
    (getSlot (orphanedState s o b r) o).state = 2 ∧ (getSlot (orphanedState s o b r) o).port = b.1 := by
  unfold orphanedState
  extract_lets s1 s2 s3
  have h3 : s3.ke = s.ke := calc
    s3.ke = s2.ke := modOwner_ke s2 o _
    _ = s1.ke := forEach_keeps State.ke _ _ (fun s j => modStream_ke s j _) s1
    _ = s.ke := forEach_dropAperture_ke _ o s
  have hslot := getSlot_modSlot (s := s3) (by rw [h3]; exact h) o (fun k => { k with state := 2, port := b.1 })
  unfold getSlot at hslot ⊢
  rw [(sent_shareOwner _ o).ke, hslot]
  exact ⟨rfl, rfl⟩

/-- Orphaning moves the owner's streams in OPEN to FINISHED to ORPHANED and no other stream (R497). -/
theorem getStream_orphanedState {s : State} (h : tblWf none s.streams = true) (o : Nat) (b : Bool × Nat) (r : List (Bool × Nat)) (j : Nat) :
    getStream (orphanedState s o b r) j = if j ∈ orphanStreams s o
      then (getStream s j).map (fun t => { t with state := 9, heldState := t.state }) else getStream s j := by
  unfold orphanedState
  extract_lets s1 s2 s3
  have h1 : s1.streams = s.streams := forEach_dropAperture_streams _ o s
  have h3 : (shareOwner (modSlot s3 o (fun k => { k with state := 2, port := b.1 })) o).streams = s2.streams := by
    rw [(sent_shareOwner _ o).streams, modSlot_streams]
    exact modOwner_streams s2 o _
  have h2 := getStream_forEach_modStream (s := s1) (l := orphanStreams s o) (by rw [h1]; exact h) ((streamIds_nodup h).filter _)
    (fun t => { t with state := 9, heldState := t.state }) j
  unfold getStream at h2 ⊢
  rw [h1] at h2
  rw [h3]
  exact h2

end Sys2Proof.Machine

open Sys2Proof.Machine

/-- Settles O49: each clause is the rule of its register above, or the branch of the timer, owner or BAR whose conditions hold. -/
theorem apertureHeartbeatAndOrphans : Obligations.ApertureHeartbeatAndOrphans := by
  refine ⟨?_, ?_, ?_, ?_, ?_, ?_⟩
  · intro s port v hw
    rw [← pageOfFn_pf0] at hw
    have hbase := execHpAptBase_of_mayWrite v hw (by rintro ⟨⟩)
    have hown := execHpAptOwner_of_mayWrite v hw (by rintro ⟨⟩)
    refine ⟨fun h => ?_, fun h => ?_, fun h => ?_, fun h hno => ?_, execHpHeartbeat_of_mayWrite v hw (by rintro ⟨⟩)⟩
    · exact hbase.trans (congrArg _ (if_neg (not_not.mpr h)))
    · exact hbase.trans (congrArg _ (if_pos h))
    · exact hown.trans (congrArg _ (if_pos h))
    · exact hown.trans (congrArg _ (if_neg (by rintro (h0 | hb); exacts [h h0, Bool.false_ne_true (hno.symm.trans hb)])))
  · intro s port fn v hfn hw
    rw [← pageOfFn_vf port hfn] at hw
    refine ⟨?_, execHpHeartbeat_of_mayWrite v hw (by rintro ⟨⟩)⟩
    refine (execHpAptBase_of_mayWrite v hw (by rintro ⟨⟩)).trans (congrArg _ (if_neg (not_not.mpr ?_)))
    rw [apertureGib_vf s port hfn, Nat.mod_one]
  · intro s port fn harm hexp hle
    exact congrArg Host.Outcome.next (if_pos ⟨harm, by rw [hexp]; rfl, hle⟩)
  · intro s owner w b r hw hb ho hrel hexp hedge
    have ho' : owner.toNat ≠ 0 := fun h0 => ho (BitVec.toNat_inj.mp h0)
    have hdue := orphanDue_of_expired hw (by rw [hb]; exact List.cons_ne_nil b r) ho' hrel hexp
    refine ⟨orphanedState s owner.toNat b r, execOrphaned_due hw hb hdue hedge, fun hwf => getSlot_orphanedState hwf _ b r,
      fun hwf j t ht hj => ?_, fun hwf j hj => ?_⟩
    · rw [getStream_orphanedState hwf, if_pos hj, ht]
      rfl
    · rw [getStream_orphanedState hwf, if_neg hj]
  · intro s owner w port d hw hheld hgrace hd hedge hrel hre
    have hgo : ¬(rtb s < d.toNat ∨ (!atEdge s 0) = true ∨ w.releasing = true ∨ reattachPending s owner.toNat d.toNat = true) := by
      simp [rtb, hd, hedge, hrel, hre]
    show execGraceExpired owner s = _
    unfold execGraceExpired
    refine congrArg Host.Outcome.next ?_
    dsimp only
    rw [hw]
    dsimp only
    rw [hheld, hgrace]
    exact if_neg hgo
  · intro s port n hup h30 h36
    have hgib : apertureGib (modHp s port (fun h => { h with bar4Log := n.toNat })) port 0 = 2 ^ (n.toNat - 30) := by
      rw [apertureGib_pf0, getHp_modHp]
    show execResizableBar port n s = _
    simp only [execResizableBar, if_pos (show 30 ≤ n.toNat ∧ n.toNat ≤ 36 ∧ (getHp s port).up = true from ⟨h30, h36, hup⟩), hgib]
end

section
/-! SUPPORT. Messages of the management endpoint (R500-R503). -/

namespace Sys2Proof.Machine

/-! ### Platform events (R502) -/

/-- ALERT# follows the queue and nothing else changes (R604). -/
theorem exists_updateAlert (s : State) : ∃ p, updateAlert s = { s with pins := p } := ⟨_, rfl⟩

/-- With no event dropped a freed entry changes ALERT# at most. -/
theorem mgmtFreed_of_none {s : State} (h : s.mgmt.dropped = 0) : ∃ p, mgmtFreed s = { s with pins := p } := by
  rw [mgmtFreed, if_pos (.inl h)]
  exact exists_updateAlert s

/-- A freed entry of a queue with room takes the count of dropped events. -/
theorem mgmtFreed_of_dropped {s : State} (h : s.mgmt.dropped ≠ 0) (hq : s.mgmt.queue.length < 128) :
    ∃ p, mgmtFreed s = { s with pins := p, mgmt := { s.mgmt with
      queue := s.mgmt.queue ++ [(0xF1, leBytes 4 s.mgmt.dropped, false, false)], dropped := 0 } } := by
  rw [mgmtFreed, if_neg (by omega)]
  exact exists_updateAlert _

/-- The oldest event leaves the queue. -/
theorem eventDelivered_cons {s : State} {e : Nat × List Byte × Bool × Bool} {q : List (Nat × List Byte × Bool × Bool)}
    (h : s.mgmt.queue = e :: q) :
    eventDelivered s = mgmtFreed { s with mgmt := { s.mgmt with queue := q, sentAt := none, retries := 0 } } := by
  rw [eventDelivered, h]
  rfl

/-- The oldest event, its retries not spent, goes to the receiver unless it has been sent, and is delivered when answered. -/
theorem execPlatformEventSend_open {s : State} {r : Nat} {e : Nat × List Byte × Bool × Bool} {q : List (Nat × List Byte × Bool × Bool)}
    (hup : mgmtUp s = true) (hr : s.mgmt.receiver = some r) (hq : s.mgmt.queue = e :: q) (he : e.2.2.2 = false) (answered : Bool) :
    execPlatformEventSend answered s = .next (
      let u := if s.mgmt.sentAt.isSome then s
        else { emit s (.platformEvent r e.1 e.2.1) with mgmt := { s.mgmt with sentAt := some s.clock, retries := 0 } }
      if answered then eventDelivered u else u) := by
  unfold execPlatformEventSend
  rw [hr, hq]
  exact congrArg Host.Outcome.next (if_neg (by simp [hup, he]))

end Sys2Proof.Machine

open Sys2Proof.Machine

/-- Settles O51: each meaning's branch for an endpoint that is up. -/
theorem managementMessages : Obligations.ManagementMessages := by
  refine ⟨?_, ?_, ?_, ?_, ?_, ?_, ?_, ?_⟩
  · exact fun s a haux => congrArg Host.Outcome.next (if_pos haux)
  · intro s hup
    refine ⟨fun e => ?_, ?_, fun t => ⟨Sys2Proof.Config.dmtfBody 0x04 t.toNat, ?_⟩, ?_, ?_,
      fun c => ⟨Sys2Proof.Config.dmtfBody 0x100 c.toNat, ?_⟩, fun c => ⟨Sys2Proof.Config.dmtfBody 0x104 c.toNat, ?_⟩, fun e => ?_, ?_⟩
    all_goals exact congrArg Host.Outcome.next (if_pos hup)
  · intro s
    refine ⟨rfl, rfl, rfl, rfl, rfl, rfl, ⟨_, rfl⟩, rfl, rfl, ?_, rfl⟩
    show some (false, ofBool (!s.ri.crosscut)) = _
    cases s.ri.crosscut <;> rfl
  · intro s id m v hup hid
    show execPldmSensorRead id s = _
    simp only [execPldmSensorRead, hup, hid]
    cases m <;> cases mainPower s <;> rfl
  · intro s r n b k q hup hr hq
    refine ⟨fun hsent => ?_, fun t hsent => ⟨?_, fun hlate hfew => ?_, fun hlate hmany => ?_⟩⟩
    · have h := execPlatformEventSend_open hup hr hq rfl false
      rw [hsent] at h
      exact h
    · have h := execPlatformEventSend_open hup hr hq rfl true
      rw [hsent] at h
      exact h.trans (congrArg _ (eventDelivered_cons hq))
    · show execPlatformEventTimeout s = _
      simp only [execPlatformEventTimeout, hr, hq, hsent, msCycles, if_neg (Nat.not_lt.mpr hlate), if_pos hfew]
      rfl
    · show execPlatformEventTimeout s = _
      simp only [execPlatformEventTimeout, hr, hq, hsent, msCycles, if_neg (Nat.not_lt.mpr hlate), if_neg (Nat.not_lt.mpr hmany)]
  · intro s n b x q hup
    refine ⟨fun hq => ?_, fun hq => ?_⟩
    · show execPollForPlatformEvent s = _
      simp only [execPollForPlatformEvent, hup, hq]
      rfl
    · show execPollForPlatformEvent s = _
      simp only [execPollForPlatformEvent, hup, hq, eventDelivered_cons hq]
      rfl
  · exact fun s => ⟨mgmtFreed_of_none, mgmtFreed_of_dropped⟩
  · intro s i n hup
    refine ⟨fun hm hex hn h7 hi => ?_, fun hm => ?_⟩
    · show execSumpRead i n s = _
      have hok : ¬(n = 0 ∨ 7 < n.toNat ∨ sumpCapacity s ≤ i.toNat) := by
        rintro (h | h | h)
        · exact hn h
        · omega
        · exact absurd hi (Nat.not_lt.mpr h)
      simp only [execSumpRead, hup, hm, hex, if_neg hok]
      rfl
    · show execSumpRead i n s = _
      simp only [execSumpRead, hup, hm]
      rfl
end

section
/-! SUPPORT. What reporting an event leaves alone, the tolerance register of a group and the checker that uses it (R39-R46, R96,
R138-R140). -/

namespace Sys2Proof.Machine

/-! ### What reporting leaves alone (R39-R46) -/

theorem Reported.clock {s t : State} (h : Reported s t) : t.clock = s.clock := by
  obtain ⟨_, _, _, _, _, _, _, _, _, _, _, _, _, _, _, _, rfl⟩ := h
  rfl

theorem Reported.hb {s t : State} (h : Reported s t) : t.hb = s.hb := by
  obtain ⟨_, _, _, _, _, _, _, _, _, _, _, _, _, _, _, _, rfl⟩ := h
  rfl

theorem Reported.tgs {s t : State} (h : Reported s t) : t.tgs = s.tgs := by
  obtain ⟨_, _, _, _, _, _, _, _, _, _, _, _, _, _, _, _, rfl⟩ := h
  rfl

theorem Reported.bindings {s t : State} (h : Reported s t) : t.bindings = s.bindings := by
  obtain ⟨_, _, _, _, _, _, _, _, _, _, _, _, _, _, _, _, rfl⟩ := h
  rfl

theorem Reported.loads {s t : State} (h : Reported s t) : t.loads = s.loads := by
  obtain ⟨_, _, _, _, _, _, _, _, _, _, _, _, _, _, _, _, rfl⟩ := h
  rfl

section
variable (s : State) (page code : Nat) (inf : List Byte) (forced : Bool)

@[simp] theorem raiseEvent_clock : (raiseEvent s page code inf forced).clock = s.clock := (reported_raiseEvent s page code inf forced).clock
@[simp] theorem raiseEvent_hb : (raiseEvent s page code inf forced).hb = s.hb := (reported_raiseEvent s page code inf forced).hb
@[simp] theorem raiseEvent_tgs : (raiseEvent s page code inf forced).tgs = s.tgs := (reported_raiseEvent s page code inf forced).tgs
@[simp] theorem raiseEvent_bindings : (raiseEvent s page code inf forced).bindings = s.bindings :=
  (reported_raiseEvent s page code inf forced).bindings
@[simp] theorem raiseEvent_loads : (raiseEvent s page code inf forced).loads = s.loads := (reported_raiseEvent s page code inf forced).loads

end

/-! ### The tolerance register (R96) -/

/-- TG_CHECK_TOL shows the stored tolerance in its low byte. -/
theorem regValue_checkTol (s : State) {g : Nat} (hg : g < 64) : regValue s (19 + g) 0x04C = (getTg s g).tol % 256 := by
  rw [regValue_tg s hg (by omega)]
  simp [tgReg, field]

/-- TG_CHECK_TOL by a writer that may write the group's page. -/
theorem execTgCheckTol_of_mayWrite {s : State} {port : Bool} {g : BitVec 6} (v : BitVec 32)
    (h : mayWrite s (.pf0 port) (19 + g.toNat) = true) :
    execTgCheckTol (.pf0 port) g v s = .next (writeTol s g.toNat v.toNat) := by
  simp [execTgCheckTol, pgTg, h]

/-- A tolerance within 1 to 63 is stored. -/
theorem writeTol_inside {s : State} {g v : Nat} (h1 : 1 ≤ v % 256) (h63 : v % 256 ≤ 63) :
    writeTol s g v = modTg s g (fun t => { t with tol := v % 256 }) := by
  have hb : bits v 0 8 = v % 256 := by simp [bits]
  rw [writeTol, hb, if_neg (by omega)]

/-- A tolerance outside 1 to 63 is discarded. -/
theorem writeTol_outside {s : State} {g v : Nat} (h : v % 256 = 0 ∨ 63 < v % 256) : writeTol s g v = s := by
  have hb : bits v 0 8 = v % 256 := by simp [bits]
  rw [writeTol, hb, if_pos h]

/-! ### The boundary of a group (R80, R96) -/

@[simp] theorem rangeTo_tgs (s : State) (g : Nat) (o : OpDesc) (c cause : Nat) : (rangeTo s g o c cause).tgs = s.tgs := by
  unfold rangeTo
  dsimp only
  split
  · rfl
  · exact raiseEvent_tgs _ _ _ _ _

/-- The adaptive ranges at a boundary leave the groups' records. -/
@[simp] theorem rangeBoundary_tgs (g : Nat) (s : State) (o : OpDesc) : (rangeBoundary g s o).tgs = s.tgs := by
  unfold rangeBoundary
  extract_lets t a s1 c lower s2
  have h1 : s1.tgs = s.tgs := rangeTo_tgs ..
  have h2 : s2.tgs = s1.tgs := by
    simp only [s2]
    split
    · exact rangeTo_tgs ..
    · split
      · exact rangeTo_tgs ..
      · rfl
  exact h2.trans h1

/-- The boundary of a beat puts the stored tolerance in force. -/
theorem liveTol_groupBoundary {s : State} {g : Nat} (hwf : tblWf {} s.tgs = true) (hclip : (getTg s g).firstClip = none) :
    (getTg (groupBoundary s g) g).liveTol = (getTg s g).tol := by
  unfold groupBoundary
  dsimp only
  rw [hclip, getTg, forEach_keeps State.tgs _ _ (fun s o => rangeBoundary_tgs g s o), ← getTg, getTg_modTg hwf]

/-! ### The checker's verdict on a shot (R138, R139) -/

/-- The verdict that the checker enters in the tile's history compares the difference with the tolerance in force. -/
theorem checkShot_of_checkable (s : State) (i : Nat) (d : DevRec) (x : Shot) {codes : List Int} (h : checkable codes = true) :
    let diff := checksumDiff (getTile s i) codes (rangeOf s x.group (shotOp d x)) (shotOp d x).seam
    ((getTg s x.group).liveTol * 2048 < diff.natAbs → ∃ u, checkShot s i d x codes = recordCheck u i x.logical true) ∧
      (diff.natAbs ≤ (getTg s x.group).liveTol * 2048 → checkShot s i d x codes = recordCheck s i x.logical false) := by
  intro diff
  have hc : ¬((!checkable codes) = true) := by simp [h]
  refine ⟨fun hlt => ⟨_, (if_neg hc).trans (congrArg (recordCheck _ i x.logical) (decide_eq_true hlt))⟩,
    fun hle => (if_neg hc).trans ?_⟩
  have hpass : ¬(getTg s x.group).liveTol * 2048 < diff.natAbs := Nat.not_lt.mpr hle
  exact congrArg₂ (fun u fails => recordCheck u i x.logical fails) (if_neg (by simpa using hpass)) (decide_eq_false hpass)

end Sys2Proof.Machine

open Sys2Proof.Machine

/-- Settles O33: the register, the boundary and the checker, each by its rule above. -/
theorem checkerToleranceRegister : Obligations.CheckerToleranceRegister := by
  refine ⟨fun g hg => regValue_checkTol _ hg, fun s g hg => regValue_checkTol s hg,
    fun s port g v hw => ⟨fun h1 h63 => ⟨?_, fun hwf => ?_⟩, fun hbad => ?_⟩,
    fun s g => liveTol_groupBoundary, fun s i d x codes => checkShot_of_checkable s i d x⟩
  · exact (execTgCheckTol_of_mayWrite v hw).trans (congrArg _ (writeTol_inside h1 h63))
  · rw [getTg_modTg hwf]
  · exact (execTgCheckTol_of_mayWrite v hw).trans (congrArg _ (writeTol_outside hbad))
end

section
/-! SUPPORT. Conversion codes, the transfer of a pair into its lane, and a plan shot at its tick (R61-R67, R75, R113-R117, R193, R644). -/

namespace Sys2Proof.Machine

/-! ### Codes (R61-R64, R127) -/

theorem saturated_iff {c : Int} : saturated c = true ↔ c = -512 ∨ c = 511 := by
  simp [saturated]

theorem saturated_eq_false_iff {c : Int} : saturated c = false ↔ ¬(c = -512 ∨ c = 511) := by
  rw [← saturated_iff, Bool.not_eq_true]

/-- A conversion gives a 10-bit code. -/
theorem convertCode_bounds (n p f : Nat) (v : Int) : -512 ≤ convertCode n p v f ∧ convertCode n p v f ≤ 511 := by
  unfold convertCode clampCode
  omega

theorem codesOf_length (s : State) (n lo hi : Nat) (seam : Bool) (fsr : Nat) (xs : List Int) :
    (codesOf s n lo hi seam fsr xs).length = 517 := by
  simp [codesOf, upTo]

/-- The code of a pair of a shot: its conversion of the sum over the drives of the tile, or of both tiles of a seam pair (R60, R61, R70). -/
theorem codesOf_getD (s : State) (n lo hi : Nat) (seam : Bool) (fsr : Nat) (xs : List Int) {p : Nat} (hp : p < 517) :
    (codesOf s n lo hi seam fsr xs).getD p 0 = convertCode n p
      (pairSum2 (getTile s lo) (physicalDrive (getTile s lo) lo (xs.take 512)) p 0 512 +
        if seam then pairSum2 (getTile s hi) (physicalDrive (getTile s hi) hi (xs.drop 512)) p 0 512 else 0)
      (if p < 512 then fsr else if seam then 4 else 3) := by
  simp [codesOf, upTo, List.getD_eq_getElem?_getD, hp]

/-! ### The lanes (R113-R117, R193) -/

theorem laneValue_eq (t : Tile) (fsr e : Nat) (c : Int) :
    laneValue t fsr e c = roundEvenInt ((15 * 2 ^ fsr : Int) * t.gain.toNat * (16 * c - t.offset.toInt) * 2 ^ e) 4 := by
  unfold laneValue stepOf
  push_cast
  rfl

/-- An unsaturated code enters its lane. -/
theorem transferPair_unsaturated {s : State} {d : DevRec} {i : Nat} {x : Shot} {t : Tile} {p : Nat} {c : Int} (h : saturated c = false) :
    transferPair s d i x t p c =
      toLane s d x p (pairSign t p * laneValue t (rangeOf s x.group (shotOp d x)) (shotOp d x).e c) false := by
  simp [transferPair, h]

/-- A saturated code waits while its operation has reserved slots. -/
theorem transferPair_waits {s : State} {d : DevRec} {i : Nat} {x : Shot} {t : Tile} {p : Nat} {c : Int} (h : saturated c = true)
    (ha : 0 < (shotOp d x).allowance) :
    transferPair s d i x t p c = { s with sq := { s.sq with satQueue := s.sq.satQueue ++ [(i, p, c)] } } := by
  simp [transferPair, h, Nat.ne_of_gt ha]

/-- A saturated code of an operation with no reserved slot clips. -/
theorem transferPair_clips {s : State} {d : DevRec} {i : Nat} {x : Shot} {t : Tile} {p : Nat} {c : Int} (h : saturated c = true)
    (ha : (shotOp d x).allowance = 0) : transferPair s d i x t p c = clipPair s d x p c := by
  simp [transferPair, h, ha]

/-- What reaches a FINAL entry freezes its core. -/
theorem deliverPartial_final {s : State} {c entry : Nat} (v : Int) (clip : Bool) (hf : coreFrozen s c = false)
    (h : (tblGet {} (getCore s c).acc entry).st = 2) : deliverPartial s c entry v clip = freezeCore s c 0x16 entry := by
  simp [deliverPartial, hf, h]

/-- What reaches an open entry is added to it. -/
theorem deliverPartial_open {s : State} {c entry : Nat} (v : Int) (clip : Bool) (hf : coreFrozen s c = false)
    (h : (tblGet {} (getCore s c).acc entry).st ≠ 2) : deliverPartial s c entry v clip = modCore s c (fun k => { k with
      acc := tblMod {} k.acc entry (fun a => { a with st := 1, val := a.val + v, clip := a.clip || clip }) }) := by
  simp [deliverPartial, hf, h]

/-! ### The shot at its tick (R67, R644) -/

/-- What a shot does at tick 11 of its slot, `m` being the state with the shot marked: it is taken where all its tiles serve, and else
delivers 0 for each pair. -/
theorem execShot_due {s m : State} {entry : BitVec 32} {b : Live} {x : Shot} (hlive : s.sq.live = some b)
    (hx : (liveTemplate s).shots[entry.toNat]? = some x) (htick : b.cycle / 2 = 8 * x.slot + 11)
    (hdone : b.done.contains (2, entry.toNat) = false)
    (hfetch : b.done.contains (3, driveKey x.group x.source (shotRow s (shotOp (ownRec s) x) x)) = true)
    (hm : m = modLive s (fun b => { b with done := (2, entry.toNat) :: b.done })) :
    ((∀ l ∈ shotTiles (shotOp (ownRec s) x) x, tileServes s x.group l = true) →
      execShot entry s = .next (takeShot m (ownRec s) entry.toNat x)) ∧
    ((∃ l ∈ shotTiles (shotOp (ownRec s) x) x, tileServes s x.group l = false) →
      execShot entry s = .next (forEach (upTo 512) (fun u p => toLane u (ownRec s) x p 0 false) m)) := by
  have hgo : ¬(b.cycle / 2 ≠ 8 * x.slot + 11 ∨ b.done.contains (2, entry.toNat) = true ∨
      (!b.done.contains (3, driveKey x.group x.source (shotRow s (shotOp (ownRec s) x) x))) = true) := by
    rw [htick, hdone, hfetch]
    simp
  have hserve : tileServes m x.group = tileServes s x.group := by rw [hm]; rfl
  unfold execShot
  dsimp only
  rw [hlive, hx]
  dsimp only
  rw [if_neg hgo, ← hm, hserve]
  refine ⟨fun h => ?_, fun ⟨l, hl, h⟩ => ?_⟩
  · rw [if_pos (List.all_eq_true.mpr h)]
  · rw [if_neg (fun hall => Bool.eq_false_iff.mp h (List.all_eq_true.mp hall l hl))]

/-- A shot on served tiles, the converting tile being the upper one of a seam pair (R67, R70, R115, R133, R138). -/
theorem takeShot_eq (s : State) (d : DevRec) (i : Nat) (x : Shot) :
    let o := shotOp d x
    let lo := physicalOf s x.group x.logical
    let hi := physicalOf s x.group (x.logical + 1)
    let up := if o.seam then hi else lo
    let xs := driveValues s d x
    let codes := codesOf s s.free lo hi o.seam (rangeOf s x.group o) xs
    let u1 := useTile { s with free := s.free + 1 } up
    let used := if o.seam then useTile u1 lo else u1
    let seen := checkShot (modTile used up (fun t => canaries t codes xs.sum o.seam)) up d x codes
    takeShot s d i x = forEach (upTo 512) (fun u p => transferPair u d i x (getTile used up) p (codes.getD p 0))
      (noteAssay (noteRange seen x.group o (codes.take 512)) d x xs (codes.take 512)) := by
  intro o lo hi up xs codes u1 used seen
  have hup : physicalOf s x.group (if o.seam then x.logical + 1 else x.logical) = up := apply_ite ..
  clear_value up
  subst hup
  rfl

end Sys2Proof.Machine

open Sys2Proof.Machine

/-- Settles O29: the shot at its tick, the codes, the two ways of a pair by its saturation and the two of a delivery by its entry. -/
theorem planShotAndItsTransfer : Obligations.PlanShotAndItsTransfer := by
  refine ⟨?_, ?_, convertCode_bounds, ?_, ?_, fun fsr e c t => laneValue_eq t fsr e c⟩
  · intro s entry b x d i o taken lo hi up xs codes u1 used seen hlive hx htick hdone hfetch
    obtain ⟨htaken, hzero⟩ := execShot_due hlive hx htick hdone hfetch rfl
    exact ⟨fun hserve => (htaken hserve).trans (congrArg Host.Outcome.next (takeShot_eq taken d i x)), hzero⟩
  · intro s n lo hi fsr seam xs p hp own other
    exact ⟨codesOf_length .., codesOf_getD _ _ _ _ _ _ _ hp⟩
  · intro s d i x t p c
    refine ⟨fun h1 h2 => transferPair_unsaturated (saturated_eq_false_iff.mpr (by simp [h1, h2])), fun h ha => ?_, fun h ha => ?_⟩
    · exact transferPair_waits (saturated_iff.mpr h) ha
    · exact transferPair_clips (saturated_iff.mpr h) ha
  · exact fun s c entry v clip hf => ⟨deliverPartial_final v clip hf, deliverPartial_open v clip hf⟩
end

section
/-! SUPPORT. Rescue of saturated pairs in reserved slots, and the close of an entry block (R72-R76, R115, R119, R120, R192, R213). -/

namespace Sys2Proof.Machine

/-! ### Reserved slots (R72-R76) -/

section
variable {s : State} {g : BitVec 6} {op : BitVec 16} {l : BitVec 10} {k : BitVec 2} {spent : State}

/-- RESHOT in a reserved slot of a plain operation spends the slot and rescues pairs of the earliest saturated shot. -/
theorem execReshot_inReserved (hin : inReserved s g.toNat op.toNat l.toNat k.toNat = true)
    (hseam : ((ownRec s).ops.getD op.toNat {}).seam = false) (hsp : spent = spendReserved s g.toNat op.toNat l.toNat k.toNat) :
    (earliestSaturated spent g.toNat op.toNat l.toNat = none → execReshot g op l k s = .next spent) ∧
    (∀ i x ps, earliestSaturated spent g.toNat op.toNat l.toNat = some (i, x, ps) →
      let ph := physicalOf spent g.toNat l.toNat
      let t := getTile spent ph
      let f := rangeOf spent g.toNat (shotOp (ownRec s) x)
      let xs := physicalDrive t ph (driveValues spent (ownRec s) x)
      let n := s.free
      execReshot g op l k s = .next (forEach
        (ps.filter (fun p => decide ((ps.filter (fun q => q / 8 == p / 8 && decide (q < p))).length < 4)))
        (fun s' p => rescuePair s' (ownRec s) i x p t t (convertCode n p (pairSum2 t xs p 0 256) f)
          (convertCode n (1024 + p) (pairSum2 t xs p 256 512) f))
        (modTile (modTg { spent with free := n + 1 } g.toNat (fun t => { t with reshotNow := t.reshotNow + 1 })) ph
          (fun t => { t with bank := true })))) := by
  have hgo : ¬((((ownRec s).ops.getD op.toNat {}).seam || !inReserved s g.toNat op.toNat l.toNat k.toNat) = true) := by
    rw [hseam, hin]
    decide
  unfold execReshot
  dsimp only
  rw [if_neg hgo, ← hsp]
  refine ⟨fun h => by rw [h], fun i x ps h => ?_⟩
  rw [h, hsp]
  rfl

/-- SEAM_RESHOT in a reserved slot of a seam operation spends the slot and rescues every pair of the earliest saturated shot. -/
theorem execSeamReshot_inReserved (hin : inReserved s g.toNat op.toNat l.toNat k.toNat = true)
    (hseam : ((ownRec s).ops.getD op.toNat {}).seam = true) (hsp : spent = spendReserved s g.toNat op.toNat l.toNat k.toNat) :
    (earliestSaturated spent g.toNat op.toNat l.toNat = none → execSeamReshot g op l k s = .next spent) ∧
    (∀ i x ps, earliestSaturated spent g.toNat op.toNat l.toNat = some (i, x, ps) →
      let pl := physicalOf spent g.toNat l.toNat
      let pu := physicalOf spent g.toNat (l.toNat + 1)
      let f := rangeOf spent g.toNat (shotOp (ownRec s) x)
      let xl := physicalDrive (getTile spent pl) pl ((driveValues spent (ownRec s) x).take 512)
      let xh := physicalDrive (getTile spent pu) pu ((driveValues spent (ownRec s) x).drop 512)
      let n := s.free
      execSeamReshot g op l k s = .next (forEach ps
        (fun s' p => rescuePair s' (ownRec s) i x p (getTile spent pl) (getTile spent pu)
          (convertCode n p (pairSum2 (getTile spent pl) xl p 0 512) f)
          (convertCode n (1024 + p) (pairSum2 (getTile spent pu) xh p 0 512) f))
        (modTg (useTile (useTile { spent with free := n + 1 } pl) pu) g.toNat (fun t => { t with reshotNow := t.reshotNow + 1 })))) := by
  have hgo : ¬((!((ownRec s).ops.getD op.toNat {}).seam || !inReserved s g.toNat op.toNat l.toNat k.toNat) = true) := by
    rw [hseam, hin]
    decide
  unfold execSeamReshot
  dsimp only
  rw [if_neg hgo, ← hsp]
  refine ⟨fun h => by rw [h], fun i x ps h => ?_⟩
  rw [h, hsp]
  rfl

end

/-- A rescued pair leaves the queue and enters as the sum of its halves, after a clip for each half that saturates (R75, R115). -/
theorem rescuePair_eq {s u : State} {d : DevRec} {i : Nat} {x : Shot} {p : Nat} (lo hi : Tile) {cl ch : Int} (satLo satHi : Bool)
    (hu : u = { s with sq := { s.sq with satQueue := s.sq.satQueue.filter (fun e => !(e.1 == i && e.2.1 == p)) } })
    (hlo : saturated cl = satLo) (hhi : saturated ch = satHi) :
    let lowClipped := if satLo then countClip u d x p else u
    rescuePair s d i x p lo hi cl ch = toLane (if satHi then countClip lowClipped d x p else lowClipped) d x p
      (pairSign hi p * (laneValue lo (rangeOf s x.group (shotOp d x)) (shotOp d x).e cl +
        laneValue hi (rangeOf s x.group (shotOp d x)) (shotOp d x).e ch)) (satLo || satHi) := by
  rw [hu, ← hlo, ← hhi]
  rfl

/-! ### The close of an entry block (R119, R120, R192) -/

/-- ENTRY_BLOCK_CLOSE at the close tick of its block, `m` being the state with the block's shots marked as closed. -/
theorem execEntryBlockClose_due {s m clipped u : State} {entry : BitVec 32} {b : Live} {x : Shot} {mine : List (Nat × Nat × Int)}
    (hlive : s.sq.live = some b) (hx : (liveTemplate s).shots[entry.toNat]? = some x)
    (htick : b.cycle / 2 = closeTick s (ownRec s) (liveTemplate s) (blockKey s (ownRec s) x))
    (hdone : b.done.contains (7, entry.toNat) = false)
    (hmine : mine = s.sq.satQueue.filter (fun e =>
      blockKey s (ownRec s) ((liveTemplate s).shots.getD e.1 {}) == blockKey s (ownRec s) x))
    (hm : m = modLive s (fun b => { b with done := ((indexed (liveTemplate s).shots).filter
      (fun y => blockKey s (ownRec s) y.2 == blockKey s (ownRec s) x)).map (fun y => (7, y.1)) ++ b.done }))
    (hc : clipped = forEach mine (fun s' e => clipPair s' (ownRec s) ((liveTemplate s).shots.getD e.1 {}) e.2.1 e.2.2) m)
    (hu : u = { clipped with sq := { clipped.sq with satQueue := clipped.sq.satQueue.filter (fun e => !mine.contains e) } }) :
    execEntryBlockClose entry s = .next (forEach (coresOf x.group (shotOp (ownRec s) x).n (shotCol u x))
      (fun s c => modCore s c (fun k => { k with closing := k.closing ++ [x.block] })) u) := by
  have hgo : ¬(b.cycle / 2 ≠ closeTick s (ownRec s) (liveTemplate s) (blockKey s (ownRec s) x) ∨
      b.done.contains (7, entry.toNat) = true) := by
    rw [htick, hdone]
    simp
  unfold execEntryBlockClose
  dsimp only
  rw [hlive, hx]
  dsimp only
  rw [if_neg hgo, hu, hc, hm, hmine]

/-- After a walk that makes entries FINAL, each entry walked over, or FINAL before, is FINAL. -/
theorem st_foldl_tblMod {f : Acc → Acc} (hf : ∀ a, (f a).st = 2) (base : Nat) (l : List Nat) {m : Tbl Acc}
    (h : tblWf {} m = true) {e : Nat} (he : e ∈ l ∨ (tblGet {} m (base + e)).st = 2) :
    (tblGet {} (l.foldl (fun m i => tblMod {} m (base + i) f) m) (base + e)).st = 2 := by
  induction l generalizing m with
  | nil => simpa using he
  | cons i l ih =>
    refine ih (tblWf_mod h _ _) ?_
    by_cases hi : e = i
    · subst hi
      exact .inr (by rw [tblGet_mod_self h, hf])
    · rw [tblGet_mod_ne f (by omega)]
      exact he.imp_left (fun hmem => (List.mem_cons.mp hmem).resolve_left hi)

/-- A frozen core keeps its bank (R213). -/
theorem closeBlock_of_frozen {s : State} {c : Nat} (block : Nat) (h : coreFrozen s c = true) : closeBlock c s block = s :=
  if_pos h

/-- The close of a block changes its own core alone. -/
theorem getCore_closeBlock_ne (s : State) {c j : Nat} (block : Nat) (hne : j ≠ c) : getCore (closeBlock c s block) j = getCore s j := by
  unfold closeBlock
  split
  · rfl
  · exact getCore_modCore_ne _ hne

/-- The close of a block changes nothing but the cores. -/
theorem closeBlock_cores (s : State) (c block : Nat) : { closeBlock c s block with cores := s.cores } = s := by
  unfold closeBlock
  split <;> rfl

/-- Every entry of a closed block of a core that is not frozen is FINAL (R192). -/
theorem st_closeBlock {s : State} {c block e : Nat} (hf : coreFrozen s c = false) (hwf : tblWf {} s.cores = true)
    (hacc : tblWf {} (getCore s c).acc = true) (he : e < 128) :
    (tblGet {} (getCore (closeBlock c s block) c).acc (128 * block + e)).st = 2 := by
  unfold closeBlock
  rw [if_neg (Bool.eq_false_iff.mp hf), getCore_modCore hwf]
  have hmem : e ∈ upTo 128 := List.mem_range.mpr he
  generalize upTo 128 = entries at hmem
  refine st_foldl_tblMod (fun a => ?_) (128 * block) entries hacc (.inl hmem)
  split
  case isTrue h => exact h
  case isFalse => rfl

/-- A whole number is rounded to itself. -/
@[simp] theorem roundEvenInt_one (v : Int) : roundEvenInt v 1 = v := by
  have h (n : Nat) : roundEven n 1 = n := by simp [roundEven, Nat.mod_one]
  unfold roundEvenInt
  rw [h]
  split <;> omega

/-- A value of 48 bits needs no halving (R120). -/
theorem overflowRepeat_of_inside {v : Int} (hlo : -(2 ^ 47) ≤ v) (hhi : v < 2 ^ 47) : overflowRepeat v = (v, 0) := by
  have hl : upTo 9 = 0 :: (List.range 8).map (· + 1) := by decide
  unfold overflowRepeat
  rw [hl, List.find?_cons_of_pos (by simp; omega)]
  simp

end Sys2Proof.Machine

open Sys2Proof.Machine

/-- Settles O30: the reserved slots, a rescued pair by the saturation of its halves, and the close of a block down to its entries. -/
theorem rescueClipAndBlockClose : Obligations.RescueClipAndBlockClose := by
  refine ⟨?_, ?_, ?_, fun s c => rfl, ?_, fun v => overflowRepeat_of_inside⟩
  · intro s g op l k d spent hin
    refine ⟨fun hnone => ⟨fun hseam => ?_, fun hseam => ?_⟩, fun i x ps h hseam => ?_, fun i x ps h hseam => ?_⟩
    · exact (execReshot_inReserved hin hseam rfl).1 hnone
    · exact (execSeamReshot_inReserved hin hseam rfl).1 hnone
    · exact (execReshot_inReserved hin hseam rfl).2 i x ps h
    · exact (execSeamReshot_inReserved hin hseam rfl).2 i x ps h
  · intro s entry b x d t key mine marked clipped u hlive hx htick hdone
    exact execEntryBlockClose_due hlive hx htick hdone rfl rfl rfl rfl
  · intro s d i x p lo hi cl ch o f u v sat
    exact ⟨fun hl hh => rescuePair_eq lo hi false false rfl (saturated_eq_false_iff.mpr hl) (saturated_eq_false_iff.mpr hh),
      fun hl hh => rescuePair_eq lo hi true false rfl (saturated_iff.mpr hl) (saturated_eq_false_iff.mpr hh),
      fun hl hh => rescuePair_eq lo hi false true rfl (saturated_eq_false_iff.mpr hl) (saturated_iff.mpr hh),
      fun hl hh => rescuePair_eq lo hi true true rfl (saturated_iff.mpr hl) (saturated_iff.mpr hh)⟩
  · intro s c block
    exact ⟨closeBlock_of_frozen block, fun hf => ⟨closeBlock_cores s c block, fun hwf => ⟨fun j => getCore_closeBlock_ne s block,
      fun hacc e => st_closeBlock hf hwf hacc⟩⟩⟩
end

section
/-! SUPPORT. Tiles read after a change, the fetch of a drive source and a calibration shot (R84, R130, R234, R271, R553). -/

namespace Sys2Proof.Machine

/-- A tile's record reads back as changed. -/
theorem getTile_modTile {s : State} (h : tblWf {} s.tiles = true) (i : Nat) (f : Tile → Tile) :
    getTile (modTile s i f) i = f (getTile s i) :=
  tblGet_mod_self h i f

/-- Changing a tile's record leaves every other tile. -/
theorem getTile_modTile_ne {s : State} {i j : Nat} (f : Tile → Tile) (hne : j ≠ i) : getTile (modTile s i f) j = getTile s j :=
  tblGet_mod_ne f hne

/-- A change of one tile keeps the canonical form of the tiles. -/
theorem tblWf_modTile {s : State} (h : tblWf {} s.tiles = true) (i : Nat) (f : Tile → Tile) : tblWf {} (modTile s i f).tiles = true :=
  tblWf_mod h i f

/-! ### Drive sources (R130, R234, R271) -/

/-- An access to a scratchpad that brings no error changes nothing. -/
theorem scratchEcc_clean (s : State) (c : Nat) (sp : List (Nat × Nat)) : scratchEcc s c sp [] = s := rfl

/-- What a fetch of a source does at its tick, `m` being the state with the fetch marked: from a frozen core, unposted, and posted with
reads free of errors. -/
theorem execDriveFetch_due {s m : State} {g : BitVec 6} {source : BitVec 16} {row : BitVec 8} {b : Live} {v : Drive} {x : Shot}
    {o : OpDesc} {key : Nat} (hlive : s.sq.live = some b) (hv : (liveTemplate s).drives[source.toNat]? = some v)
    (hx : (liveTemplate s).shots.find? (fun x => x.group == g.toNat && x.source == source.toNat
      && shotRow s (shotOp (ownRec s) x) x == row.toNat) = some x)
    (htick : b.cycle / 2 = 8 * x.slot - 16) (hdone : b.done.contains (3, key) = false) (ho : o = shotOp (ownRec s) x)
    (hkey : key = driveKey g.toNat source.toNat row.toNat) (hm : m = modLive s (fun b => { b with done := (3, key) :: b.done })) :
    let n := if o.seam then 1024 else 512
    let size := if o.i8 then n else n / 2
    (coreFrozen s v.core = true →
      execDriveFetch g source row [] s = .next (posFault (zeroSource m g.toNat source.toNat) 1)) ∧
    (coreFrozen s v.core = false → isPosted m 1 source.toNat = false →
      execDriveFetch g source row [] s = .next (unposted (zeroSource m g.toNat source.toNat) 1 source.toNat)) ∧
    (coreFrozen s v.core = false → isPosted m 1 source.toNat = true →
      execDriveFetch g source row [] s = .next { m with sq := { m.sq with
        drive := tblSetList 0 s.sq.drive (key * 1024)
          (unpackCodes o.i8 n ((getCore s v.core).serve (v.codes + size * row.toNat) size []))
        driveMask := tblSet 0 s.sq.driveMask key
          (BitVec.ofNat 64 (if v.mask = 0xFFFFFFFF then 0 else ofLe ((getCore s v.core).serve v.mask 8 [])))
        driveFetch := (v.core, g.toNat, source.toNat, b.cycle / 2 + 16) :: s.sq.driveFetch } }) := by
  have hgo : ¬(b.cycle / 2 ≠ 8 * x.slot - 16 ∨ b.done.contains (3, key) = true) := by rw [htick, hdone]; simp
  subst ho hkey
  unfold execDriveFetch
  dsimp only
  rw [hlive, hv, hx]
  dsimp only
  rw [if_neg hgo, ← hm]
  have hcore : coreFrozen m v.core = coreFrozen s v.core := by rw [hm]; rfl
  refine ⟨fun hf => ?_, fun hf hp => ?_, fun hf hp => ?_⟩
  · rw [if_pos (hcore.trans hf)]
  · rw [if_neg (by simp [hcore, hf]), if_pos (by simp [hp])]
  · rw [if_neg (by simp [hcore, hf]), if_neg (by simp [hp]), scratchEcc_clean]
    refine congrArg Host.Outcome.next ((if_neg (Bool.eq_false_iff.mp (hcore.trans hf))).trans ?_)
    rw [hm]
    rfl

/-! ### Calibration shots (R84, R553) -/

/-- A measurement counts its shot and leaves the cells (R553). -/
theorem calMeasure_fields (t : Tile) (codes : List Int) (x : Int) :
    (calMeasure t codes x).calShots = t.calShots + 1 ∧ (calMeasure t codes x).cells = t.cells := by
  unfold calMeasure
  dsimp only
  split
  · exact ⟨rfl, rfl⟩
  · split
    · exact ⟨rfl, rfl⟩
    · split <;> exact ⟨rfl, rfl⟩

/-- A group's record with one more calibration shot, on tile `i`, in window `w` (R83). -/
def Tg.countCalShot (t : Tg) (w i : Nat) : Tg :=
  if t.windowNo = w then { t with windowShots := t.windowShots + 1, windowTiles := i :: t.windowTiles }
  else { t with windowNo := w, windowShots := 1, windowTiles := [i] }

theorem Tg.countCalShot_windowNo (t : Tg) (w i : Nat) : (t.countCalShot w i).windowNo = w := by
  unfold Tg.countCalShot
  split
  case isTrue h => exact h
  case isFalse => rfl

/-- The tile of a calibration shot has used a bank and holds the measurement. -/
theorem getTile_calShot {s : State} (h : tblWf {} s.tiles = true) (i : Nat) (codes : List Int) (x : Int) :
    getTile (modTile (useTile s i) i (fun t => calMeasure t codes x)) i =
      calMeasure { getTile s i with bank := !(getTile s i).bank } codes x := by
  unfold useTile
  rw [getTile_modTile (tblWf_modTile h i _), getTile_modTile h]

/-- The other tiles of a calibration shot. -/
theorem getTile_calShot_ne (s : State) {i j : Nat} (codes : List Int) (x : Int) (hne : j ≠ i) :
    getTile (modTile (useTile s i) i (fun t => calMeasure t codes x)) j = getTile s j :=
  (getTile_modTile_ne _ hne).trans (getTile_modTile_ne _ hne)

/-- A calibration shot is taken on a tile where one may be placed, with no older tile waiting (R84). -/
theorem execCalibrationShot_placed {s : State} {g : BitVec 6} {tile : BitVec 11} {i : Nat} (hi : i = tileIx g.toNat tile.toNat)
    (htile : tile.toNat < 1088) (hplace : calPlace s i = true)
    (hold : ∀ j ∈ groupTiles g.toNat, (getTile s j).last.toNat < (getTile s i).last.toNat → calPlace s j = false) :
    ∃ codes x, execCalibrationShot g tile s = .next (modTg (modTile (useTile { s with free := s.free + 1 } i) i
      (fun t => calMeasure t codes x)) g.toNat (fun t => t.countCalShot (windowNow s) i)) := by
  have hgo : ¬(1088 ≤ tile.toNat ∨ (!calPlace s i) = true ∨
      (groupTiles g.toNat).any (fun j => decide ((getTile s j).last.toNat < (getTile s i).last.toNat) && calPlace s j) = true) := by
    simp only [hplace, List.any_eq_true, Bool.and_eq_true, decide_eq_true_eq]
    rintro (h | h | ⟨j, hj, hlt, hp⟩)
    · omega
    · exact absurd h (by decide)
    · exact absurd hp (Bool.eq_false_iff.mp (hold j hj hlt))
  subst hi
  exact ⟨_, _, congrArg Host.Outcome.next (if_neg hgo)⟩

end Sys2Proof.Machine

open Sys2Proof.Machine

/-- Settles O31: the fetch by `execDriveFetch_due`; the calibration shot changes its tile and its group's window, each read by its rule. -/
theorem driveFetchAndCalibrationShot : Obligations.DriveFetchAndCalibrationShot := by
  refine ⟨?_, ?_⟩
  · intro s g source row b v x d k o key n size marked hlive hv hx htick hdone
    exact execDriveFetch_due hlive hv hx htick hdone rfl rfl rfl
  · intro s g tile i htile hplace hold
    obtain ⟨codes, x, h⟩ := execCalibrationShot_placed rfl htile hplace hold
    obtain ⟨hshots, hcells⟩ := calMeasure_fields { getTile s i with bank := !(getTile s i).bank } codes x
    refine ⟨_, h, rfl, rfl, rfl, rfl, fun hwf => ⟨fun j => getTile_calShot_ne s codes x, ?_, ?_⟩,
      fun hwf => ⟨?_, fun h hne => getTg_modTg_ne _ hne⟩⟩
    · exact (congrArg Tile.calShots (getTile_calShot hwf i codes x)).trans hshots
    · exact (congrArg Tile.cells (getTile_calShot hwf i codes x)).trans hcells
    · exact (congrArg Tg.windowNo (getTg_modTg hwf g.toNat _)).trans (Tg.countCalShot_windowNo ..)
end

section
/-! SUPPORT. Program-verify without a failed cell, settling, calibration and readiness of a tile, ERASE lists, and what programming work
leaves of the load commands (R55-R57, R157-R182, R386, R554). -/

namespace Sys2Proof.Machine

/-! ### Reads that meet errors (R386) -/

/-- What the notes of errors leave alone, a read leaves alone, whatever errors it meets. -/
theorem eccRead_keeps {β : Type} (f : State → β) {reader queue : Nat} (hn : ∀ s e, f (noteErrors s e) = f s)
    (hc : ∀ s w, f (eccCorrected s w) = f s) (hp : ∀ s w, f (eccPoisoned s w reader queue) = f s) (s : State) (a n : Nat)
    (ecc : List (Nat × Bool)) : f (eccRead s a n ecc reader queue) = f s := by
  have hall (l : List (Nat × Bool)) (s : State) : f (forEach l (fun s e => eccCorrected s e.1) s) = f s :=
    forEach_keeps f l _ (fun s e => hc s e.1) s
  have hpall (l : List Nat) (s : State) : f (forEach l (fun s w => eccPoisoned s w reader queue) s) = f s :=
    forEach_keeps f l _ hp s
  unfold eccRead
  dsimp only
  rw [hpall, hall, hn]

@[simp] theorem eccPoisoned_clock (s : State) (w reader queue : Nat) : (eccPoisoned s w reader queue).clock = s.clock := by
  simp [eccPoisoned, eccEvent, markPch]

@[simp] theorem eccPoisoned_hb (s : State) (w reader queue : Nat) : (eccPoisoned s w reader queue).hb = s.hb := by
  simp [eccPoisoned, eccEvent, markPch]

@[simp] theorem eccRead_clock (s : State) (a n : Nat) (ecc : List (Nat × Bool)) (reader queue : Nat) :
    (eccRead s a n ecc reader queue).clock = s.clock :=
  eccRead_keeps State.clock (fun _ _ => rfl) (fun _ _ => rfl) (fun s w => eccPoisoned_clock s w _ _) s a n ecc

@[simp] theorem eccRead_hb (s : State) (a n : Nat) (ecc : List (Nat × Bool)) (reader queue : Nat) :
    (eccRead s a n ecc reader queue).hb = s.hb :=
  eccRead_keeps State.hb (fun _ _ => rfl) (fun _ _ => rfl) (fun s w => eccPoisoned_hb s w _ _) s a n ecc

/-! ### Program-verify without a failed cell (R167, R169) -/

theorem achieved_nil (r p : Nat) (t : Int × Int) : achieved [] [] r p t = t := rfl

theorem uncompensated_nil (r p : Nat) : uncompensated [] [] r p = false := rfl

/-- With no failed cell no pair is residual. -/
theorem programmedCells_residual_nil (ws : List (List Int)) : (programmedCells ws [] []).2 = [] := by
  simp [programmedCells, achieved_nil, uncompensated_nil]

/-- The state in which program-verify of a tile has ended, its cells written and its cycle counted: a RESUME counts none, and one that was
not touched keeps its cells (R164, R181, R182). -/
theorem execTileProgramDone_noFailure {s u : State} {tile : BitVec 17} {iterations : BitVec 16} {j : Job} {b : Bool} {key sg : Nat}
    {ws : List (List Int)} (hj : s.jobs.find? (fun j => j.tile == tile.toNat && j.phase == 1) = some j) (hstop : jobStopped s j = false)
    (hlev : level s < 3) (hk : j.kind ≤ 4) (hkey : key = if j.kind = 3 then 0 else (getSlot s j.bind.owner).kMap)
    (hsg : sg = if j.bind.seam then (if tile.toNat % 2 = 0 then tile.toNat + 1 else tile.toNat) else tile.toNat)
    (hu : u = if j.kind = 3 then s
      else eccRead s j.bind.block 131072 [] (if j.no = 0 then rdFirmware else rdCommand) (if j.no = 0 then 0xFFFF else 258))
    (hws : ws = if j.kind = 3 then List.replicate 512 (List.replicate 512 0)
      else physicalWeights key tile.toNat sg (masterBlock u j.bind)) :
    let t1 := modTile (modTile u tile.toNat (fun t => { t with programming := false, pvIter := iterations.toNat })) tile.toNat
      (fun t => { t with cells := (programmedCells ws [] []).1, keyMap := key, sigmaG := sg, progAt := s.clock
                         progHours := s.hb.poweredHours })
    let ended := fun t => Host.Outcome.next (showProg (boundaryNow (startJobs (programmed (updatePvMean t) j b))) (tile.toNat / 1088))
    (j.kind ≠ 2 → execTileProgramDone tile [] [] iterations b s = ended (countCycle t1 tile.toNat)) ∧
    (j.kind = 2 → b = true → execTileProgramDone tile [] [] iterations b s = ended t1) ∧
    (j.kind = 2 → b = false →
      execTileProgramDone tile [] [] iterations b s = ended (modTile u tile.toNat (fun t => { t with programming := false }))) := by
  have hgo : ¬(jobStopped s j = true ∨ 3 ≤ level s) := by
    rw [hstop]
    simp only [Bool.false_eq_true, false_or]
    omega
  obtain ⟨hclock, hhb⟩ : u.clock = s.clock ∧ u.hb = s.hb := by
    rw [hu]
    split
    · exact ⟨rfl, rfl⟩
    · exact ⟨eccRead_clock .., eccRead_hb ..⟩
  have h5 : ¬j.kind = 5 := by omega
  have h6 : ¬j.kind = 6 := by omega
  have h7 : ¬j.kind = 7 := by omega
  have hcond : retireCondition [] 0 = 0 := rfl
  rw [← hclock, ← hhb]
  unfold execTileProgramDone
  dsimp only
  rw [hj]
  dsimp only
  rw [if_neg hgo]
  simp only [h5, h6, h7, or_false, if_false, List.filter_nil, List.length_nil, programmedCells_residual_nil, hcond, ite_self, if_true,
    ← hu, ← hkey, ← hsg, ← hws]
  refine ⟨fun h2 => ?_, fun h2 hb => ?_, fun h2 hb => ?_⟩
  · simp only [h2, false_and, if_false]
    rfl
  · simp only [h2, hb]
    rfl
  · simp only [h2, hb]
    rfl

/-! ### Settling, calibration and readiness (R169, R175, R180, R554) -/

/-- The tile of a live load or a relief settles for 1 s after its program-verify (R175). -/
theorem settleEnd_programmed {s : State} {j : Job} (hk : j.kind = 1 ∨ j.kind = 4) (hwf : tblWf {} s.tiles = true) :
    (getTile (programmed s j true) j.tile).settleEnd = some (s.clock + secCycles) := by
  have h5 : ¬j.kind = 5 := by omega
  have h7 : ¬j.kind = 7 := by omega
  have h3 : ¬j.kind = 3 := by omega
  have h02 : ¬(j.kind = 0 ∨ j.kind = 2) := by omega
  have h2 : ¬(j.kind = 2 ∧ (!true) = true) := by simp
  unfold programmed
  dsimp only
  rw [if_neg h5, if_neg h7, if_neg h3, if_neg h02, if_neg h2]
  refine congrArg Tile.settleEnd (getTile_modTile ?_ j.tile _)
  exact hwf

/-- The retirement condition of a residual canary, of few residual pairs and failed cells, and of more than 64 residual pairs (R169). -/
theorem retireCondition_cases (res : List (Nat × Nat)) (failed : Nat) :
    ((∃ x ∈ res, 512 ≤ x.2) → retireCondition res failed = 1) ∧
    ((∀ x ∈ res, x.2 < 512) → res.length ≤ 4 → failed ≤ 256 → retireCondition res failed = 0) ∧
    ((∀ x ∈ res, x.2 < 512) → 64 < res.length → retireCondition res failed = 2) := by
  have hcanary (h : ∀ x ∈ res, x.2 < 512) : ¬(res.any (fun x => decide (512 ≤ x.2)) = true) := by
    simpa using h
  have hall (h : ∀ x ∈ res, x.2 < 512) : res.filter (fun x => decide (x.2 < 512)) = res :=
    List.filter_eq_self.mpr (fun x hx => decide_eq_true (h x hx))
  unfold retireCondition
  dsimp only
  refine ⟨fun ⟨x, hx, h⟩ => ?_, fun h hlen hf => ?_, fun h hlen => ?_⟩
  · exact if_pos (List.any_eq_true.mpr ⟨x, hx, decide_eq_true h⟩)
  · have hrow : ¬(res.any (fun x => decide (4 < (res.filter (fun y => y.1 == x.1)).length)) = true) := by
      rw [List.any_eq_true]
      rintro ⟨x, -, hx⟩
      have hle := List.length_filter_le (fun y => y.1 == x.1) res
      have hlt := of_decide_eq_true hx
      omega
    rw [if_neg (hcanary h), hall h, if_neg (by omega), if_neg hrow, if_neg (by omega)]
  · rw [if_neg (hcanary h), hall h, if_pos hlen]

/-- A calibrated tile whose job waits for it becomes ready, `w` being the state with its load record (R175, R180). -/
theorem jobCalibrated_of_job {s r w : State} {i : Nat} {j : Job} (hj : s.jobs.find? (fun j => j.tile == i && j.phase == 3) = some j)
    (hr : r = modTile s i (fun t => { t with ready := true, history := [], holdG := 0, holdO := 0 }))
    (hw : w = if j.bind.sealedLoad && !jobStopped r j && (j.no != 0 || decide (j.kind ≤ 2)) then writeLoadRec r j.group j.logical j.bind
      else r) :
    jobCalibrated s i = if j.kind = 0 ∨ j.kind = 2 ∨ j.kind = 3 then dropJob w i
      else boundaryNow (modJob w i (fun j => { j with phase := 4 })) := by
  unfold jobCalibrated
  rw [hj, hw, hr]

/-- The end of a tile's own calibration, with its 24 shots (R137, R554). -/
theorem execTileCalComplete_done {s done : State} {tile : BitVec 17} {dead : List (BitVec 7)}
    (hcal : (getTile s tile.toNat).calibrating = true) (hn : (getTile s tile.toNat).calShots = 24)
    (hd : done = finishTileCal (forEach (dead.filter (fun c => decide (c.toNat ≤ 64))) (fun s c => convDead s tile.toNat c.toNat 2) s)
      tile.toNat) :
    execTileCalComplete tile dead s = .next (jobCalibrated (recheckDue done (tile.toNat / 1088)) tile.toNat) := by
  unfold execTileCalComplete
  dsimp only
  rw [if_neg (by simp [hcal]), if_neg (by simp [hn]), hd]

/-- Where the tile's own calibration is not in progress, only a job that waits for it goes on (R555). -/
theorem execTileCalComplete_idle {s : State} {tile : BitVec 17} (dead : List (BitVec 7))
    (hcal : (getTile s tile.toNat).calibrating = false) : execTileCalComplete tile dead s = .next (jobCalibrated s tile.toNat) := by
  unfold execTileCalComplete
  dsimp only
  rw [if_pos (by simp [hcal])]

/-- A tile whose settling time has run out is calibrated (R175). -/
theorem execTileSettleEnd_due {s : State} {tile : BitVec 17} {t : Nat} (ht : (getTile s tile.toNat).settleEnd = some t)
    (hle : t ≤ s.clock) : execTileSettleEnd tile s = .next (startTileCal
      (modTile (modJob s tile.toNat (fun j => { j with phase := 3 })) tile.toNat (fun t => { t with settleEnd := none })) tile.toNat) := by
  unfold execTileSettleEnd
  dsimp only
  rw [ht]
  exact congrArg Host.Outcome.next (if_neg (Nat.not_lt.mpr hle))

/-! ### ERASE lists (R157-R163, R172) -/

/-- Reading several ranges of a memory without errors changes nothing. -/
theorem forEach_eccRead_clean {s : State} (hp : s.ms.poisoned = []) (hl : s.ms.latent = []) (rs : List (Nat × Nat)) (reader queue : Nat) :
    forEach rs (fun s r => eccRead s r.1 r.2 [] reader queue) s = s := by
  unfold forEach
  induction rs with
  | nil => rfl
  | cons r rs ih => rw [List.foldl_cons, eccRead_clean hp hl, ih]

/-- An ERASE list, read without errors, that fails no check is accepted (R163). -/
theorem execLoadWeights_erase {s : State} {i : Issuer} {owner : BitVec 8} {list : BitVec 64} {h : List Byte} {ts : List TileEntry}
    (hs : starts s i 0x24 [owner.toNat, list.toNat] = true) (hh : forHere s i = true) (ho : ownerRefusal s i owner.toNat = none)
    (hp : s.ms.poisoned = []) (hl : s.ms.latent = []) (hread : mayRead s owner.toNat (list.toNat, 64) = true)
    (hhead : h = readUnder s (stackKey s owner.toNat) list.toNat 64) (hok : loadHeaderOk h = true) (hmode : byteAt h 6 = 3)
    (hmc : leAt h 8 4 = 0) (htab : mayRead s owner.toNat (leAt h 24 8, 32 * leAt h 12 4) = true)
    (hts : ts = (entries32 s owner.toNat (leAt h 24 8) (leAt h 12 4)).map tileEntryOf)
    (hcode : loadCode s owner.toNat 3 [] ts (ts.map (fun _ => { owner := owner.toNat })) true = 0) :
    execLoadWeights i owner list [] s = .next (acceptLoad s i owner.toNat 3 (bit (byteAt h 7) 0)
      (ts.map (fun e => (e.group, e.logical))) (ts.map (fun _ => { owner := owner.toNat })) []) := by
  have hnone (n : Nat) : (if mayRead s owner.toNat (n, 0) then entries32 s owner.toNat n 0 else []).map matrixOf = [] := by
    split <;> rfl
  rw [execLoadWeights, deviceCommand_here hs hh, ho]
  simp only [orRefuse, hread, Bool.not_true, Bool.false_eq_true, if_false, eccRead_clean hp hl, poisonedIn_clean hp, ← hhead, hok, hmode,
    hmc, if_true, List.nil_append]
  simp only [List.filter_cons, List.filter_nil, htab, if_true, forEach_eccRead_clean hp hl, Nat.mul_zero, hnone, ← hts]
  have hclean (rs : List (Nat × Nat)) : rs.any (fun r => poisonedIn s r.1 r.2) = false := by simp [poisonedIn_clean hp]
  rw [hclean, beq_self_eq_true, hcode]
  rfl

/-! ### What programming work leaves of the load commands (R163, R166-R171) -/

/-- The commands in progress and waiting, each with whether it has started. -/
def loadMarks (s : State) : List (Nat × Bool) := s.loads.map (fun x => (x.no, x.started))

theorem loadMarks_of_loads {s t : State} (h : t.loads = s.loads) : loadMarks t = loadMarks s := by
  rw [loadMarks, h, loadMarks]

/-- The commands that run, counted by their marks. -/
theorem started_length (s : State) : (s.loads.filter (·.started)).length = ((loadMarks s).filter (·.2)).length := by
  rw [loadMarks, List.filter_map, List.length_map]
  rfl

theorem loadMarks_ite {c : Prop} [Decidable c] {s t u : State} (ht : loadMarks t = loadMarks s) (hu : loadMarks u = loadMarks s) :
    loadMarks (if c then t else u) = loadMarks s := by
  split
  · exact ht
  · exact hu

/-- A change of a command that keeps its number and its start. -/
theorem loadMarks_modLoad (s : State) (no : Nat) {f : Load → Load} (hno : ∀ x, (f x).no = x.no)
    (hst : ∀ x, (f x).started = x.started) : loadMarks (modLoad s no f) = loadMarks s := by
  unfold loadMarks modLoad
  rw [List.map_map]
  refine List.map_congr_left (fun x _ => ?_)
  rw [Function.comp_apply, apply_ite Load.no, apply_ite Load.started, hno, hst, ite_self, ite_self]

@[simp] theorem dropJob_loads (s : State) (tile : Nat) : (dropJob s tile).loads = s.loads := rfl

@[simp] theorem setRelief_loads (s : State) (g j : Nat) (r : ReliefReg) (n : Nat) : (setRelief s g j r n).loads = s.loads := rfl

@[simp] theorem checkReserve_loads (s : State) (g was : Nat) : (checkReserve s g was).loads = s.loads := by
  unfold checkReserve
  rw [apply_ite State.loads, raiseEvent_loads, ite_self]

@[simp] theorem freeRelief_loads (s : State) (i : Nat) : (freeRelief s i).loads = s.loads := by
  unfold freeRelief
  rw [apply_ite State.loads, setRelief_loads, ite_self]

@[simp] theorem retireRelief_loads (s : State) (g j : Nat) : (retireRelief s g j).loads = s.loads := by
  simp [retireRelief, reliefEvent, apply_ite State.loads]

@[simp] theorem retireTile_loads (s : State) (i shown : Nat) : (retireTile s i shown).loads = s.loads := by
  simp [retireTile, recheckDue, apply_ite State.loads]

@[simp] theorem loseTile_loads (s : State) (g l cause : Nat) : (loseTile s g l cause).loads = s.loads := by
  simp [loseTile, apply_ite State.loads]

/-- Taking relief tiles leaves the load commands. -/
theorem takeRelief_loads {s t : State} {g : Nat} {seam : Bool} {ls tiles : List Nat} (h : takeRelief s g seam ls = some (t, tiles)) :
    t.loads = s.loads := by
  unfold takeRelief at h
  dsimp only at h
  split at h
  · cases h
  · cases h
    exact forEach_keeps State.loads _ _ (fun s x => by simp [holdRelief]) _

@[simp] theorem dropLoadRec_loads (s : State) (g l : Nat) : (dropLoadRec s g l).loads = s.loads := by
  unfold dropLoadRec
  split
  · rfl
  · simp [sealEvent, apply_ite State.loads, removeSeals]

@[simp] theorem unbindErased_loads (s : State) (g l : Nat) : (unbindErased s g l).loads = s.loads := by
  simp [unbindErased]

@[simp] theorem reportAssay_loads (s : State) (a : Assay) (fail : Bool) : (reportAssay s a fail).loads = s.loads := by
  simp [reportAssay, apply_ite State.loads]

@[simp] theorem failAssayTile_loads (s : State) (j : Job) : (failAssayTile s j).loads = s.loads := by
  unfold failAssayTile
  dsimp only
  split
  · simp [setAssayResult]
  · simp

theorem loadMarks_loseLater (s : State) (no g : Nat) (ls : List (Nat × Binding)) (cause : Nat) :
    loadMarks (loseLater s no g ls cause) = loadMarks s := by
  have h : loadMarks (modLoad s no (fun x => { x with unavailable := x.unavailable + ls.length })) = loadMarks s :=
    loadMarks_modLoad s no (fun _ => rfl) (fun _ => rfl)
  unfold loseLater
  dsimp only
  split
  · exact (forEach_keeps loadMarks _ _ (fun s x => loadMarks_of_loads (loseTile_loads s _ _ _)) _).trans h
  · exact h

theorem loadMarks_relieve (s : State) (kind no : Nat) (again : Bool) (g : Nat) (ls : List (Nat × Binding)) :
    loadMarks (relieve s kind no again g ls) = loadMarks s := by
  unfold relieve
  split
  · exact loadMarks_loseLater ..
  · next t tiles h =>
    have ht : loadMarks t = loadMarks s := loadMarks_of_loads (takeRelief_loads h)
    split
    · exact ht
    · exact (loadMarks_loseLater ..).trans
        ((forEach_keeps loadMarks _ _ (fun s i => loadMarks_of_loads (freeRelief_loads s i)) _).trans ht)

theorem loadMarks_failInPlace (s : State) (no g l : Nat) (b : Binding) : loadMarks (failInPlace s no g l b) = loadMarks s := by
  unfold failInPlace
  refine (loadMarks_relieve ..).trans (forEach_keeps loadMarks _ _ (fun s j => ?_) s)
  exact loadMarks_of_loads (dropJob_loads s j.tile)

theorem loadMarks_failTarget (s : State) (j : Job) : loadMarks (failTarget s j) = loadMarks s := by
  unfold failTarget
  refine (loadMarks_relieve ..).trans ((forEach_keeps loadMarks _ _ (fun s k => ?_) _).trans ?_)
  · exact loadMarks_of_loads (freeRelief_loads _ _)
  · exact loadMarks_of_loads (retireTile_loads _ _ _)

theorem loadMarks_failJob (s : State) (j : Job) : loadMarks (failJob s j) = loadMarks s := by
  refine loadMarks_ite ?_ (loadMarks_ite ?_ (loadMarks_ite (loadMarks_failTarget s j) (loadMarks_ite ?_ (loadMarks_failInPlace ..))))
  · exact loadMarks_of_loads (failAssayTile_loads s j)
  · exact loadMarks_of_loads (retireTile_loads _ _ _)
  · exact (loadMarks_failInPlace ..).trans (loadMarks_of_loads (unbindErased_loads _ _ _))

theorem loadMarks_unreadable (s : State) (j : Job) : loadMarks (unreadable s j) = loadMarks s := by
  unfold unreadable
  refine (loadMarks_loseLater ..).trans (forEach_keeps loadMarks _ _ (fun s k => ?_) s)
  exact loadMarks_of_loads (freeRelief_loads _ _)

theorem loadMarks_startJob (s : State) (j : Job) : loadMarks (startJob s j) = loadMarks s := by
  refine loadMarks_ite rfl (loadMarks_ite (loadMarks_unreadable s j) (loadMarks_ite rfl (loadMarks_ite (loadMarks_failJob s j) ?_)))
  exact loadMarks_ite rfl rfl

/-- Starting jobs leaves every command its number and its start. -/
theorem loadMarks_startJobs (s : State) : loadMarks (startJobs s) = loadMarks s := by
  unfold startJobs
  exact (forEach_keeps loadMarks _ _ loadMarks_startJob _).trans (forEach_keeps loadMarks _ _ loadMarks_startJob s)

/-- Entering a command's jobs leaves every command its number and its start. -/
theorem loadMarks_enterJob (x : Load) (s : State) (e : Nat × (Nat × Nat) × Binding) : loadMarks (enterJob x s e) = loadMarks s := by
  unfold enterJob
  extract_lets g l b lost s1
  have h1 : loadMarks s1 = loadMarks s := by
    refine loadMarks_of_loads ?_
    simp only [s1]
    rw [apply_ite State.loads, dropLoadRec_loads, ite_self]
  rw [← h1]
  refine loadMarks_ite ?_ (loadMarks_ite ?_ (loadMarks_ite (loadMarks_ite rfl (loadMarks_relieve ..)) rfl))
  · exact loadMarks_of_loads (unbindErased_loads _ _ _)
  · exact loadMarks_modLoad s1 x.no (fun _ => rfl) (fun _ => rfl)

/-- Giving up jobs leaves the load commands. -/
theorem giveUp_loads (s : State) (p : Job → Bool) : (giveUp s p).loads = s.loads := by
  unfold giveUp
  refine forEach_keeps State.loads _ _ (fun s j => ?_) s
  dsimp only
  rw [apply_ite State.loads, freeRelief_loads, ite_self, dropJob_loads]

/-! ### Completion of a command (R458, R463) -/

theorem Sent.loads {s t : State} (h : Sent s t) : t.loads = s.loads := by
  obtain ⟨r, o, rfl⟩ := h
  rfl

@[simp] theorem hostSend_loads (s : State) (port : Bool) (o : Output) : (hostSend s port o).loads = s.loads :=
  (reported_hostSend s port o).loads

@[simp] theorem writeEntry_loads (s : State) (port : Bool) (pair head status kind : Nat) (result : List Byte) :
    (writeEntry s port pair head status kind result).loads = s.loads := by
  simp [writeEntry, qpSignal, apply_ite State.loads]

/-- The completion of a host command leaves the load commands. -/
theorem complete_loads (s : State) (i : Issuer) (status : Nat) (result : List Byte) : (complete s i status result).loads = s.loads := by
  unfold complete
  dsimp only
  split
  · rfl
  · simp only [apply_ite State.loads, (sent_sendMessage _ _ _ _ _).loads, modHp_loads, modQp_loads, tokenDrop, raiseEvent_loads,
      writeEntry_loads, ite_self]

/-! ### Commands begin and end (R162, R163) -/

/-- LOAD_WEIGHTS_START starts one command and leaves the number of those that run as that start makes it. -/
theorem execLoadWeightsStart_started {s : State} {x : Load} (hroom : (s.loads.filter (·.started)).length < 4)
    (hx : nextLoad s = some x) : ∃ t, execLoadWeightsStart s = .next t ∧
      (t.loads.filter (·.started)).length = ((modLoad s x.no (fun x => { x with started := true })).loads.filter (·.started)).length := by
  refine ⟨startJobs (forEach (indexed (x.entries.zip x.binds)) (enterJob x)
    (modLoad s x.no (fun x => { x with started := true }))), ?_, ?_⟩
  · unfold execLoadWeightsStart
    rw [if_neg (by omega), hx]
  · rw [started_length, started_length, loadMarks_startJobs, forEach_keeps loadMarks _ _ (loadMarks_enterJob x)]

/-- LOAD_WEIGHTS_COMPLETE of a command with nothing left to do takes it away. -/
theorem execLoadWeightsComplete_done {s : State} {no : BitVec 32} {x : Load}
    (hx : s.loads.find? (fun x => x.no == no.toNat && x.started) = some x) (hdone : loadDone s x = true) :
    ∃ t, execLoadWeightsComplete no s = .next t ∧ ∀ y ∈ t.loads, y.no ≠ no.toNat := by
  have hno : x.no = no.toNat := by
    have h := List.find?_some hx
    simp only [Bool.and_eq_true, beq_iff_eq] at h
    exact h.1
  unfold execLoadWeightsComplete
  rw [hx]
  dsimp only
  rw [if_neg (by simp [hdone])]
  refine ⟨_, rfl, fun y hy => ?_⟩
  rw [complete_loads] at hy
  have hmark : (y.no, y.started) ∈ loadMarks _ := List.mem_map_of_mem hy
  rw [loadMarks_startJobs] at hmark
  obtain ⟨z, hz, heq⟩ := List.mem_map.mp hmark
  have hzno : z.no = y.no := congrArg Prod.fst heq
  have hne := (List.mem_filter.mp hz).2
  rw [← hno, ← hzno]
  exact bne_iff_ne.mp hne

end Sys2Proof.Machine

open Sys2Proof.Machine

/-- Settles O36: the rules above, and for a load's start and end the numbers and starts that programming work keeps (`loadMarks`). -/
theorem programmingOfATile : Obligations.ProgrammingOfATile := by
  refine ⟨?_, fun s j => settleEnd_programmed, retireCondition_cases, fun s tile t => execTileSettleEnd_due, ?_, ?_, ?_,
    fun s x => execLoadWeightsStart_started, fun s no x => execLoadWeightsComplete_done⟩
  · intro s tile iterations j i key sg u ws t1 hj hstop hlev
    have hend (b : Bool) (hk : j.kind ≤ 4) :=
      execTileProgramDone_noFailure (iterations := iterations) (b := b) hj hstop hlev hk rfl rfl rfl rfl
    refine ⟨fun b hk => ?_, fun hk => ⟨?_, ?_⟩⟩
    · obtain ⟨hcounted, -, -⟩ := hend b (by omega)
      exact hcounted (by omega)
    · obtain ⟨-, -, huntouched⟩ := hend false (by omega)
      exact huntouched hk rfl
    · obtain ⟨-, htouched, -⟩ := hend true (by omega)
      exact htouched hk rfl
  · intro s tile dead i done u
    exact ⟨fun hcal hn => execTileCalComplete_done hcal hn rfl, fun hcal => execTileCalComplete_idle dead hcal⟩
  · intro s i
    refine ⟨fun hnone => ?_, ?_⟩
    · unfold jobCalibrated
      rw [hnone]
    · intro j hj r w
      have h := jobCalibrated_of_job (w := w) hj rfl rfl
      exact ⟨fun hk => h.trans (if_pos hk), fun hk => h.trans (if_neg (by omega))⟩
  · intro s i owner list o a h place n ts hs hh ho hp hl hread hok hmode hmc htab hcode
    exact ⟨_, _, execLoadWeights_erase hs hh ho hp hl hread rfl hok hmode hmc htab rfl hcode, rfl, rfl, rfl, rfl, rfl, rfl, rfl⟩
end

section
/-! SUPPORT. Retirement of a tile with a trigger, the swap of a live load, and unbinding after a key destruction (R81, R169-R171, R174,
R176, R179, R530, R642). -/

namespace Sys2Proof.Machine

/-! ### TILE_RETIRE (R169-R171, R642) -/

section
variable {s : State} {group : BitVec 6} {tile : BitVec 11} {i : Nat} (hi : i = tileIx group.toNat tile.toNat)
  (htile : tile.toNat < 1088) (hdue : retireDue s i = true)
  (hstate : retiredState (getTile s i).state = false ∨ (getTile s i).vacated = true)

include htile hdue hstate

/-- A tile with a trigger that is not yet retired, or only vacated, passes the guard of TILE_RETIRE. -/
theorem retire_guard : ¬(1088 ≤ tile.toNat ∨ (!retireDue s i) = true ∨
    (retiredState (getTile s i).state = true ∧ (!(getTile s i).vacated) = true)) := by
  rw [hdue]
  rintro (h | h | ⟨hr, hv⟩)
  · omega
  · exact absurd h (by decide)
  · rcases hstate with h | h
    · exact absurd hr (Bool.eq_false_iff.mp h)
    · rw [h] at hv
      exact absurd hv (by decide)

include hi

/-- A target of a live load or a relief is given up. -/
theorem execTileRetire_target {j : Job} (ecc : List (Nat × Bool))
    (hj : s.jobs.find? (fun j => j.tile == i && (j.kind == 1 || j.kind == 4)) = some j) :
    execTileRetire group tile ecc s = .next (boundaryNow (startJobs (failTarget s j))) := by
  unfold execTileRetire
  dsimp only
  rw [← hi, if_neg (retire_guard htile hdue hstate), hj]

/-- A tile that serves none and that no assay holds is retired at once, but for an excluded one. -/
theorem execTileRetire_unserving (ecc : List (Nat × Bool))
    (hj : s.jobs.find? (fun j => j.tile == i && (j.kind == 1 || j.kind == 4)) = none)
    (hserved : servedBy s i = none) (hassay : s.jobs.find? (fun j => j.tile == i && decide (6 ≤ j.kind)) = none) :
    execTileRetire group tile ecc s = .next (if (getTile s i).state = 5 then s else retireTile s i 1) := by
  unfold execTileRetire
  dsimp only
  rw [← hi, if_neg (retire_guard htile hdue hstate), hj, hserved]
  dsimp only
  rw [hassay]

/-- A tile that an assay holds fails the assay's job. -/
theorem execTileRetire_assay {j : Job} (ecc : List (Nat × Bool))
    (hj : s.jobs.find? (fun j => j.tile == i && (j.kind == 1 || j.kind == 4)) = none)
    (hserved : servedBy s i = none) (hassay : s.jobs.find? (fun j => j.tile == i && decide (6 ≤ j.kind)) = some j) :
    execTileRetire group tile ecc s = .next (startJobs (failJob s j)) := by
  unfold execTileRetire
  dsimp only
  rw [← hi, if_neg (retire_guard htile hdue hstate), hj, hserved]
  dsimp only
  rw [hassay]

/-- A tile that serves a logical tile with no relief in progress is relieved from its master copy, read with the errors `ecc`. -/
theorem execTileRetire_serving {l : Nat} {own : Option Job} {b : Binding} {u : State} (ecc : List (Nat × Bool))
    (hj : s.jobs.find? (fun j => j.tile == i && (j.kind == 1 || j.kind == 4)) = none)
    (hserved : servedBy s i = some l)
    (hrelief : s.jobs.any (fun j => j.group == group.toNat && j.logical == l && j.kind == 4) = false)
    (hown : own = s.jobs.find? (fun j => j.tile == i && decide (j.kind ≤ 3)))
    (hb : b = (own.map (·.bind)).getD (lastBinding s group.toNat l))
    (hu : u = forEach (pairWith s group.toNat l b) (fun s x => if x.2.bound && extentsGranted s x.2.owner x.2.block 131072 then
      eccRead s x.2.block 131072 ecc rdFirmware 0xFFFF else s) s) :
    (own = none → execTileRetire group tile ecc s = .next (boundaryNow (startJobs (failInPlace u 0 group.toNat l b)))) ∧
    (∀ j, own = some j → execTileRetire group tile ecc s = .next (boundaryNow (startJobs (failJob u j)))) := by
  unfold execTileRetire
  dsimp only
  rw [← hi, if_neg (retire_guard htile hdue hstate), hj, hserved]
  dsimp only
  rw [if_neg (Bool.eq_false_iff.mp hrelief), ← hown, ← hb, ← hu]
  exact ⟨fun h => by rw [h], fun j h => by rw [h]⟩

end

/-! ### LIVE_SWAP (R176) -/

section
variable {s : State} {no : BitVec 32} {x : Load}
  (hx : s.loads.find? (fun x => x.no == no.toNat && x.started && x.mode == 1 && !x.keyGone) = some x)

include hx

/-- A command found by LIVE_SWAP is ready when it has targets and all of them wait for their swap. -/
theorem liveReady_of_find : liveReady s x = (!(s.jobs.filter (fun j => j.no == x.no && j.kind == 1)).isEmpty &&
      (s.jobs.filter (fun j => j.no == x.no && j.kind == 1)).all (fun j => j.phase == 4)) := by
  have h := List.find?_some hx
  simp only [Bool.and_eq_true] at h
  obtain ⟨⟨⟨-, hst⟩, hmode⟩, hkey⟩ := h
  unfold liveReady
  dsimp only
  rw [hst, hmode, hkey, Bool.true_and, Bool.true_and, Bool.true_and]

/-- Between beats a ready command swaps all its logical tiles. -/
theorem execLiveSwap_ready (hlive : s.sq.live = none) (hready : liveReady s x = true) :
    execLiveSwap no s = .next (showSeams (forEach (s.jobs.filter (fun j => j.no == x.no && j.kind == 1)) (swapLive x) s)) := by
  unfold execLiveSwap
  rw [hx]
  dsimp only
  rw [if_neg (by simp [hlive, hready])]

/-- A command that is not ready swaps none. -/
theorem execLiveSwap_unready (hready : liveReady s x = false) : execLiveSwap no s = .next s := by
  unfold execLiveSwap
  rw [hx]
  dsimp only
  rw [if_pos (by simp [hready])]

end

@[simp] theorem freeRelief_bindings (s : State) (i : Nat) : (freeRelief s i).bindings = s.bindings := by
  unfold freeRelief
  split <;> rfl

/-- A binding just set reads back. -/
theorem getBinding_setBinding {s : State} (h : tblWf none s.bindings = true) (g l : Nat) (b : Option Binding) :
    getBinding (setBinding s g l b) g l = b :=
  tblGet_set_self h _ b

/-- A swap under a sealed load binds the logical tile to what its target holds. -/
theorem getBinding_swapLive {s : State} {x : Load} {j : Job} (hseal : x.isSeal = true) (hwf : tblWf none s.bindings = true) :
    getBinding (swapLive x s j) j.group j.logical = some j.bind := by
  unfold swapLive
  extract_lets g old s1 s2 s3 s4 s5
  have h2 : s2.bindings = s1.bindings := by
    simp only [s2, apply_ite State.bindings, modTile_bindings, freeRelief_bindings, ite_self]
  have h3 : s3.bindings = s2.bindings := by
    simp only [s3]
    split <;> rfl
  have h5 : s5 = s4 := if_pos hseal
  have hwf3 : tblWf none s3.bindings = true := by rw [h3, h2]; exact hwf
  rw [getBinding, raiseEvent_bindings, h5]
  exact getBinding_setBinding hwf3 g j.logical (some j.bind)

/-! ### TILE_UNBIND (R179, R530) -/

@[simp] theorem freeRelief_unbinding (s : State) (i : Nat) : (freeRelief s i).unbinding = s.unbinding := by
  unfold freeRelief
  split <;> rfl

/-- Giving up jobs leaves the owners that wait for their unbinding. -/
theorem giveUp_unbinding (s : State) (p : Job → Bool) : (giveUp s p).unbinding = s.unbinding := by
  unfold giveUp
  refine forEach_keeps State.unbinding _ _ (fun s j => ?_) s
  dsimp only
  rw [apply_ite State.unbinding, freeRelief_unbinding, ite_self]
  rfl

/-- TILE_UNBIND between beats: the tiles of the waiting owners are unbound, their programming is given up and none waits. -/
theorem execTileUnbind_idle {s u : State} (hlive : s.sq.live = none) (hu : u = giveUp (forEach s.unbinding unbindOwner s)
      (fun j => s.unbinding.contains j.bind.owner && !s.loads.any (fun x => x.no == j.no))) :
    execTileUnbind s = .next { u with unbinding := [] } ∧ { u with unbinding := s.unbinding } = u := by
  have hkept : u.unbinding = s.unbinding := by
    rw [hu, giveUp_unbinding]
    exact forEach_keeps State.unbinding _ unbindOwner (fun _ _ => rfl) s
  constructor
  · unfold execTileUnbind
    rw [if_neg (by simp [hlive]), hu]
  · rw [← hkept]

/-- During a beat TILE_UNBIND waits. -/
theorem execTileUnbind_live {s : State} (hlive : s.sq.live ≠ none) : execTileUnbind s = .next s := by
  unfold execTileUnbind
  rw [if_pos (Option.isSome_iff_ne_none.mpr hlive)]

/-- Unbinding an owner unbinds the tiles bound to it and no other. -/
theorem getBinding_unbindOwner {s : State} (hwf : tblWf none s.bindings = true) (o g l : Nat) :
    getBinding (unbindOwner s o) g l = (getBinding s g l).map (fun b => if b.owner = o then { b with bound := false } else b) :=
  tblGet_map hwf _ (fun _ => rfl) _

end Sys2Proof.Machine

open Sys2Proof.Machine

/-- Settles O37: one rule for each way TILE_RETIRE takes, the readiness of a live load, and the bindings after a swap and an unbinding. -/
theorem retireSwapAndUnbind : Obligations.RetireSwapAndUnbind := by
  refine ⟨?_, ?_, fun s x j => getBinding_swapLive, ?_, fun s o g l hwf => getBinding_unbindOwner hwf o g l⟩
  · intro s group tile g i htile hdue hstate
    refine ⟨fun j hj => execTileRetire_target rfl htile hdue hstate [] hj,
      fun hj => ⟨fun hserved hassay => ?_, fun j hserved hassay => ?_, ?_⟩⟩
    · exact execTileRetire_unserving rfl htile hdue hstate [] hj hserved hassay
    · exact execTileRetire_assay rfl htile hdue hstate [] hj hserved hassay
    · intro l hserved hrelief own b u
      exact execTileRetire_serving rfl htile hdue hstate [] hj hserved hrelief rfl rfl rfl
  · intro s no x js hx
    refine ⟨fun hlive hne hall => execLiveSwap_ready hx hlive ?_, fun ⟨j, hj, hphase⟩ => execLiveSwap_unready hx ?_⟩
    · rw [liveReady_of_find hx, Bool.and_eq_true]
      exact ⟨by rwa [Bool.not_eq_true', List.isEmpty_eq_false_iff], List.all_eq_true.mpr (fun j hj => beq_iff_eq.mpr (hall j hj))⟩
    · rw [liveReady_of_find hx, Bool.and_eq_false_iff]
      exact .inr (List.all_eq_false.mpr ⟨j, hj, by simpa using hphase⟩)
  · intro s
    refine ⟨execTileUnbind_live, fun hlive => ?_⟩
    obtain ⟨hexec, hkept⟩ := execTileUnbind_idle hlive rfl
    exact ⟨_, hexec, rfl, hkept⟩
end

section
/-! SUPPORT. Vector, reduction and compensated instructions of a core: the registers and flags each writes (R124, R125, R221, R223,
R242-R246, R253). -/

namespace Sys2Proof.Machine

/-! ### Writes of a result with its flags -/

/-- A vector register written with the flags of its lanes (R253). -/
theorem Core.putV_eq (k : Core) (d : Nat) (r : List Word32) : k.putV d r = { k with
    vregs := tblSetList 0 k.vregs (64 * d) r, nv := k.nv || r.any (fun v => (ofF32 v).isNan)
    inf := k.inf || r.any (fun v => (ofF32 v).isInf) } := by
  rw [Nat.mul_comm]
  rfl

/-- A vector register written with fs.NCV for it (R253). -/
theorem Core.flagNcv_setV (k : Core) (d : Nat) (r : List Word32) (b : Bool) :
    (k.setV d r).flagNcv b = { k.setV d r with ncv := k.ncv || b } := rfl

/-- A lane of a vector register. -/
theorem Core.v_eq (k : Core) (a i : Nat) : k.v a i = tblGet 0 k.vregs (64 * a + i) := by
  rw [Nat.mul_comm]
  rfl

/-- The operand B that an instruction word selects by M[0]. -/
theorem Core.operandB_mk (k : Core) (op : Nat) (d a b e : BitVec 5) (m : BitVec 4) (imm : BitVec 32) :
    k.operandB (mkWord op d a b e m imm) =
      if m.toNat.testBit 0 then List.replicate 64 ((k.s b.toNat).setWidth 32) else k.vec b.toNat := by
  unfold Core.operandB
  rw [wM_mk, wB_mk, bit_toNat]
  rfl

section
variable {s : State} {c : BitVec 8} {w : BitVec 64}

/-- A ready instruction whose effect on its core is `f` retires with what `f` makes of the core it finds. -/
theorem issue_retire {f g : Core → Core} (h : ready s c w) (hfg : f (getCore s c.toNat) = g (getCore s c.toNat)) :
    (.next (issue s c.toNat w (fun s => retire s c.toNat f)) : Out) = .next (retire s c.toNat g) := by
  rw [issue_ready h, retire_congr hfg]

/-- A ready instruction that puts lanes computed from its core into vD. -/
theorem issue_putV {d : Nat} {f : Core → List Word32} {r : List Word32} (h : ready s c w) (hr : f (getCore s c.toNat) = r) :
    (.next (issue s c.toNat w (fun s => retire s c.toNat (fun k => k.putV d (f k)))) : Out) = .next (retire s c.toNat (fun k => { k with
      vregs := tblSetList 0 k.vregs (64 * d) r, nv := k.nv || r.any (fun v => (ofF32 v).isNan)
      inf := k.inf || r.any (fun v => (ofF32 v).isInf) })) :=
  issue_retire h (by rw [hr, Core.putV_eq])

end

section
variable {s : State} {c : BitVec 8} {d a b : BitVec 5} {imm : BitVec 32} (h : ready s c (mkWord 0x76 d a b 0 0 imm))

include h

/-- KSUM with a count outside 1 to 64 (R246). -/
theorem execCcKsum_badCount (hcount : imm.toNat % 128 = 0 ∨ 64 < imm.toNat % 128) :
    execCcKsum c d a b imm s = .next (freezeCore s c.toNat 0x23 (imm.toNat % 128)) := by
  unfold execCcKsum
  rw [issue_ready h]
  exact congrArg _ (if_pos hcount)

/-- KSUM with a count of 1 to 64 reduces that many lanes onto the pair (R124, R246). -/
theorem execCcKsum_go (hlow : 1 ≤ imm.toNat % 128) (hhigh : imm.toNat % 128 ≤ 64) :
    let k := getCore s c.toNat
    execCcKsum c d a b imm s = .next (retire s c.toNat (fun k' =>
      k'.putPair d.toNat (kReduce (k.pair a.toNat) ((k.vec b.toNat).take (imm.toNat % 128))))) := by
  unfold execCcKsum
  rw [issue_ready h]
  dsimp only
  rw [if_neg (by omega)]
  exact congrArg _ (retire_congr rfl)

end

end Sys2Proof.Machine

open Sys2Proof Sys2Proof.Machine

/-- Settles O20: each instruction puts lanes computed from its core into vD (`issue_putV`), operand B read by `Core.operandB_mk`. -/
theorem vectorLaneInstructions : Obligations.VectorLaneInstructions := by
  intro s c d a b e m n k x y done three two
  have hB (op : Nat) (e : BitVec 5) : k.operandB (mkWord op d a b e m 0) = y := Core.operandB_mk k op d a b e m 0
  have hthree (op : Nat) (f : Word32 → Word32 → Word32) (h : ready s c (mkWord op d a b 0 m 0)) :
      (.next (vec3 op f c d a b m s) : Out) = .next (done (List.zipWith f x y)) :=
    issue_putV h (by rw [hB])
  have htwo (op : Nat) (f : Word32 → Word32) (h : ready s c (mkWord op d a 0 0 0 0)) :
      (.next (vec2 op f c d a s) : Out) = .next (done (x.map f)) :=
    issue_putV h rfl
  refine ⟨hthree 0x60 fAdd, hthree 0x61 fSub, hthree 0x62 fMul, hthree 0x64 fMin, hthree 0x65 fMax, hthree 0x6D fDiv,
    htwo 0x66 (unlessNan fAbs), htwo 0x67 (unlessNan fFlip), htwo 0x6A vExp, htwo 0x6B vRcp, htwo 0x6C vRsq, htwo 0x6E fSqrt,
    htwo 0x72 id, fun h => issue_putV h ?vfma, fun h => issue_putV h ?vsel,
    fun h => issue_putV h rfl, fun h => issue_putV h ?vperm, fun h => issue_putV h rfl⟩
  case vfma => rw [hB]
  case vsel => simp only [Core.v_eq, Core.operandB_mk, n, k, y]
  case vperm => simp only [Core.v_eq, n, k]

/-- Settles O21: each instruction retires with the effect on its core that its clause writes out (`issue_retire`). -/
theorem vectorToScalarInstructions : Obligations.VectorToScalarInstructions := by
  intro s c d a b m imm n k x y flags scalar pairOf
  refine ⟨fun h => issue_retire h ?vcmp, fun h => issue_retire h ?vq, fun h => issue_retire h rfl,
    fun h => ⟨execCcKsum_badCount h, execCcKsum_go h⟩,
    fun h => issue_retire h rfl, fun h => issue_retire h rfl, fun h => issue_retire h rfl⟩
  case vcmp => rw [Core.operandB_mk]
  case vq =>
    have hbit : bit m.toNat 0 = m.toNat.testBit 0 := bit_toNat m 0
    rw [hbit, Core.flagNcv_setV]
    rfl
end

section
/-! SUPPORT. Matrix instructions of a core and the read-out of its accumulator bank (R121, R152, R193-R196, R228, R249-R252). -/

namespace Sys2Proof.Machine

/-! ### Matrix accumulators -/

/-- A vector register written. -/
theorem Core.setV_eq (k : Core) (d : Nat) (r : List Word32) : k.setV d r = { k with vregs := tblSetList 0 k.vregs (64 * d) r } := by
  rw [Nat.mul_comm]
  rfl

/-- The lanes of a vector register. -/
theorem Core.vec_eq (k : Core) (a : Nat) : k.vec a = tblGetList 0 k.vregs (64 * a) 64 := by
  rw [Nat.mul_comm]
  rfl

/-- The elements of a matrix accumulator. -/
theorem Core.acc32_eq (k : Core) (n : Nat) : k.acc32 n = tblGetList 0 k.macc (1024 * n) 1024 := by
  rw [Nat.mul_comm]
  rfl

/-- Elements of a matrix accumulator written. -/
theorem Core.setAcc32_eq (k : Core) (n i : Nat) (l : List Word32) :
    k.setAcc32 n i l = { k with macc := tblSetList 0 k.macc (1024 * n + i) l } := by
  rw [Nat.mul_comm]
  rfl

/-- A whole matrix accumulator written with the flags of its elements (R253). -/
theorem Core.setAcc32_flagsFor (k : Core) (n : Nat) (l : List Word32) : (k.setAcc32 n 0 l).flagsFor l = { k with
    macc := tblSetList 0 k.macc (1024 * n) l, nv := k.nv || l.any (fun v => (ofF32 v).isNan)
    inf := k.inf || l.any (fun v => (ofF32 v).isInf) } := by
  rw [k.setAcc32_eq]
  rfl

/-- The result that MMA writes when the elements `residue` failed their residue check (R195, R196). -/
def mmaOut (residue : List (BitVec 10)) (sum : List Word32) : List Word32 :=
  (upTo 1024).map (fun i => if residue.any (fun r => r.toNat == i) then nan32 else sum.getD i 0)

/-- MMA writes all 1,024 elements. -/
theorem mmaOut_length (residue : List (BitVec 10)) (sum : List Word32) : (mmaOut residue sum).length = 1024 := by
  simp [mmaOut, upTo]

/-- Without a residue failure MMA writes the sums. -/
theorem mmaOut_nil_getD (sum : List Word32) {i : Nat} (hi : i < 1024) : (mmaOut [] sum).getD i 0 = sum.getD i 0 := by
  simp [mmaOut, upTo, List.getD_eq_getElem?_getD, hi]

section
variable {s : State} {c : Nat} {k : Core} {w : BitVec 64} {ecc : List (Nat × Bool)} {residue : List (BitVec 10)} {count row ca ra : Nat}
  (hk : getCore s c = k) (hcount : (k.s (wC w)).toNat = count)

include hk hcount

/-- MMA with a count outside 1 to 4,096 (R250). -/
theorem mmaBody_badCount (h : count = 0 ∨ 4096 < count) : mmaBody s c w ecc residue = freezeCore s c 0x23 count := by
  subst hk hcount
  exact if_pos h

/-- MMA without a residue failure, on aligned operands that may be read (R195, R250, R253). -/
theorem mmaBody_go (hlow : 1 ≤ count) (hhigh : count ≤ 4096) (hrow : 32 * elemSize (mmaFmt (wM w % 4)) = row)
    (hca : (k.s (wA w)).toNat = ca) (hra : (k.s (wB w)).toNat = ra) (hcol : ca % row = 0) (hrow' : ra % row = 0)
    (hgo : loadAccess k c [(ca, row * count), (ra, row * count)] false = .go) :
    let out := mmaOut [] (mmaSteps k w ca ra ecc count (k.acc32 (wD w)))
    mmaBody s c w ecc [] = scratchEcc (retire s c (fun k => (k.setAcc32 (wD w) 0 out).flagsFor out)) c
      [(ca, row * count), (ra, row * count)] ecc := by
  subst hk hcount hrow hca hra
  unfold mmaBody
  dsimp only
  rw [if_neg (by omega), if_neg (not_not.mpr hcol), if_neg (not_not.mpr hrow'), hgo]
  rfl

end

section
variable {s : State} {c : BitVec 8} {a b : BitVec 5} {m : BitVec 4} {imm : BitVec 32}

/-- MST at an address that is no multiple of the element (log entry 107). -/
theorem execCcMst_misaligned (h : ready s c (mkWord 0xA4 0 a b 0 m imm))
    (hat : (((getCore s c.toNat).s b.toNat + imm.signExtend 64).toNat) % elemSize (m.toNat % 8) ≠ 0) :
    execCcMst c a b m imm s = .next (freezeCore s c.toNat 0x22 ((getCore s c.toNat).s b.toNat + imm.signExtend 64).toNat) := by
  unfold execCcMst
  rw [issue_ready h]
  dsimp only
  rw [address, wSimm_mk, if_pos hat]
  rfl

/-- MST at an aligned address where no slot is in the way (R249). -/
theorem execCcMst_go {at_ z : Nat} (h : ready s c (mkWord 0xA4 0 a b 0 m imm)) (hz : elemSize (m.toNat % 8) = z)
    (hat : ((getCore s c.toNat).s b.toNat + imm.signExtend 64).toNat = at_) (halign : at_ % z = 0)
    (hgo : storeAccess (getCore s c.toNat) c.toNat [(at_, 1024 * z)] = .go) :
    execCcMst c a b m imm s = .next (retire s c.toNat (fun k => k.store at_
      (((getCore s c.toNat).acc32 a.toNat).flatMap (fun v => leBytes z (narrow (m.toNat % 8) v).1)))) := by
  subst hz
  unfold execCcMst
  rw [issue_ready h]
  dsimp only
  rw [address, wSimm_mk, hat, if_neg (not_not.mpr halign), hgo]
  rfl

end

/-! ### Read-outs -/

/-- An entry of the bank as a read-out of this cycle finds it (R193, R228). -/
def Core.entryAt (k : Core) (i : Nat) : Acc :=
  if k.emptied.any (fun e => decide (e.1 ≤ i) && decide (i < e.2)) then {} else tblGet {} k.acc i

/-- The entries that a read-out names, as it finds them. -/
theorem entriesAt_eq (s : State) (c first n : Nat) :
    entriesAt s c first n = (upTo n).map (fun i => (getCore s c).entryAt (first + i)) := rfl

/-- One of the entries that a read-out names. -/
theorem entriesAt_getD (s : State) (c first : Nat) {n i : Nat} (hi : i < n) :
    (entriesAt s c first n).getD i {} = (getCore s c).entryAt (first + i) := by
  simp [entriesAt_eq, upTo, List.getD_eq_getElem?_getD, hi]

/-- A read-out finds every entry FINAL exactly when they lie in the bank and each is FINAL. -/
theorem finalEntries_iff (s : State) (c first n : Nat) : finalEntries s c first n = true ↔
    first + n ≤ 2048 ∧ ∀ i < n, ((getCore s c).entryAt (first + i)).st = 2 := by
  simp [finalEntries, entriesAt_eq, upTo]

section
variable {s u : State} {c first n : Nat} {w : BitVec 64} {use : List Acc → Core → Core}

/-- A read-out beyond the bank (R193). -/
theorem readOut_beyond (h : 2048 < first + n) : readOut s c w first n use = freezeCore s c 0x24 first := if_pos h

/-- A read-out whose first entry that is not FINAL is entry `j` of it (R193). -/
theorem readOut_notFinal {j : Nat} (h : first + n ≤ 2048) (hj : j < n)
    (hbefore : ∀ l < j, ((getCore s c).entryAt (first + l)).st = 2) (hnot : ((getCore s c).entryAt (first + j)).st ≠ 2) :
    readOut s c w first n use = if bit (wM w) 3 then stall s c .acc else freezeCore s c 0x15 (first + j) := by
  have hfind : (upTo n).find? (fun i => ((entriesAt s c first n).getD i {}).st != 2) = some j := by
    rw [upTo, List.find?_range_eq_some, entriesAt_getD s c first hj]
    refine ⟨bne_iff_ne.mpr hnot, List.mem_range.mpr hj, fun l hl => ?_⟩
    rw [entriesAt_getD s c first (by omega), hbefore l hl]
    rfl
  unfold readOut
  dsimp only
  rw [if_neg (by omega), hfind]
  rfl

/-- A read-out that finds every entry FINAL (R192-R194). -/
theorem readOut_final (h : finalEntries s c first n = true) : readOut s c w first n use = retire s c (fun k =>
    let overs := ((entriesAt s c first n).filter (fun x => x.h != 0)).length
    use (entriesAt s c first n) { k with emptied := k.emptied ++ [(first, first + n)], accOvf := k.accOvf.bump (sclk s) 4095 overs
                                         accOvfBeat := k.accOvfBeat + overs }) := by
  obtain ⟨hbank, hfinal⟩ := (finalEntries_iff s c first n).mp h
  have hfind : (upTo n).find? (fun i => ((entriesAt s c first n).getD i {}).st != 2) = none := by
    refine List.find?_eq_none.mpr fun i hi => ?_
    have hi := List.mem_range.mp hi
    rw [entriesAt_getD s c first hi, hfinal i hi]
    decide
  unfold readOut
  dsimp only
  rw [if_neg (by omega), hfind]

end

/-! ### What a repair beat notes -/

/-- A repair beat's words go to the records of adapters, in SQ. -/
theorem noteRepairRead_eq (s : State) (c e : Nat) (x : Acc) : ∃ q, noteRepairRead s c e x = { s with sq := q } := by
  unfold noteRepairRead
  split
  · exact ⟨_, rfl⟩
  · dsimp only
    split <;> exact ⟨_, rfl⟩

/-- Noting a read-out changes no field that no adapter's record is in. -/
theorem noteRepairReads_keeps {β : Type} (g : State → β) (hg : ∀ s q, g { s with sq := q } = g s) (s : State) (c first : Nat)
    (xs : List Acc) : g (noteRepairReads s c first xs) = g s := by
  unfold noteRepairReads
  split
  · refine forEach_keeps g _ _ (fun s x => ?_) s
    obtain ⟨q, hq⟩ := noteRepairRead_eq s c (first + x.1) x.2
    rw [hq, hg]
  · rfl

/-- The rules of a read-out whose state becomes `u` when every entry is FINAL: it faults beyond the bank, faults or stalls at its first
entry that is not FINAL, and else reads the entries (R192-R194). -/
theorem readOut_rules {s u : State} {c first n : Nat} {w : BitVec 64} {use : List Acc → Core → Core} {t : State}
    (hcore : getCore u c = getCore s c) (hclock : sclk u = sclk s) (ht : t = if finalEntries s c first n then u else s) :
    (2048 < first + n → readOut t c w first n use = freezeCore s c 0x24 first) ∧
    (first + n ≤ 2048 →
      (∀ j < n, (∀ l < j, ((getCore s c).entryAt (first + l)).st = 2) → ((getCore s c).entryAt (first + j)).st ≠ 2 →
        readOut t c w first n use = if bit (wM w) 3 then stall s c .acc else freezeCore s c 0x15 (first + j)) ∧
      ((∀ j < n, ((getCore s c).entryAt (first + j)).st = 2) → readOut t c w first n use = retire u c (fun k =>
        let overs := ((entriesAt s c first n).filter (fun x => x.h != 0)).length
        use (entriesAt s c first n) { k with emptied := k.emptied ++ [(first, first + n)]
                                             accOvf := k.accOvf.bump (sclk s) 4095 overs, accOvfBeat := k.accOvfBeat + overs }))) := by
  have hsame : ¬finalEntries s c first n = true → t = s := fun h => ht.trans (if_neg h)
  rw [finalEntries_iff] at hsame
  refine ⟨fun h => ?beyond, fun hbank => ⟨fun j hj hbefore hnot => ?notFinal, fun hall => ?final⟩⟩
  case beyond => rw [hsame (fun hf => by omega), readOut_beyond h]
  case notFinal => rw [hsame (fun hf => hnot (hf.2 j hj)), readOut_notFinal hbank hj hbefore hnot]
  case final =>
    have hu : t = u := ht.trans (if_pos ((finalEntries_iff s c first n).mpr ⟨hbank, hall⟩))
    have hentries : entriesAt u c first n = entriesAt s c first n := by simp only [entriesAt_eq, hcore]
    have hfinal : finalEntries u c first n = true := by
      rw [finalEntries_iff, hcore]
      exact ⟨hbank, hall⟩
    rw [hu, readOut_final hfinal, hentries, hclock]

section
variable (s : State) (c : Nat) (d a e : BitVec 5) (m : BitVec 4) (imm : BitVec 32)

/-- ACC.RD (R251). -/
theorem readOutBody_accRd : let first := ((getCore s c).s a.toNat).toNat
    readOutBody s c (mkWord 0xC0 d a 0 0 m 0) = readOut
      (if finalEntries s c first 32 then noteRepairReads s c first (entriesAt s c first 32) else s) c (mkWord 0xC0 d a 0 0 m 0) first 32
      (fun xs k => k.setV d.toNat (xs.flatMap (fun x => [BitVec.ofNat 32 x.word, BitVec.ofNat 32 (x.word / 2 ^ 32)]))) := by
  unfold readOutBody
  simp only [wOp_mk, wA_mk, wD_mk, Nat.reduceMod]

/-- ACC.RDF (R251, R252). -/
theorem readOutBody_accRdf : let first := ((getCore s c).s a.toNat).toNat
    readOutBody s c (mkWord 0xC1 d a 0 e m imm) = readOut
      (if finalEntries s c first 64 then noteRepairReads s c first (entriesAt s c first 64) else s) c (mkWord 0xC1 d a 0 e m imm) first 64
      (fun xs k => (k.setV d.toNat (xs.map (fun x => x.scaled (imm.toNat % 8)))).setS e.toNat
        (BitVec.ofNat 64 (xs.foldr (fun x v => ofBool x.clip + 2 * v) 0))) := by
  unfold readOutBody
  simp only [wOp_mk, wA_mk, wC_mk, wD_mk, wImm_mk, Nat.reduceMod]

/-- ACC.DROP (R251, R252). -/
theorem readOutBody_accDrop : let n := imm.toNat % 4096
    readOutBody s c (mkWord 0xC2 0 a 0 0 m imm) = if n = 0 ∨ 2048 < n then freezeCore s c 0x23 n
      else readOut s c (mkWord 0xC2 0 a 0 0 m imm) ((getCore s c).s a.toNat).toNat n (fun _ k => k) := by
  unfold readOutBody
  simp only [wOp_mk, wA_mk, wImm_mk, Nat.reduceMod]
  rfl

end

end Sys2Proof.Machine

open Sys2Proof Sys2Proof.Machine

/-- Settles O22: the accumulators by their reads and writes, MMA by `mmaBody_go`, MST by `execCcMst_go`, and every read-out by
`readOut_rules`. -/
theorem matrixInstructionsAndReadOut : Obligations.MatrixInstructionsAndReadOut := by
  constructor
  · intro s c d a b e m imm ecc n k half at_ z
    refine ⟨fun h => issue_retire h ?mz, fun h => ?mma, fun h => issue_retire h ?mrd, fun h => issue_retire h ?mwr, fun h => ?mst⟩
    case mz => rw [Nat.mul_comm]
    case mma =>
      intro w count row ca ra sp
      have hexec (body : State) (hbody : mmaBody s n w ecc [] = body) : exec (.ccMma c d a b e m ecc []) s = .next body :=
        congrArg Host.Outcome.next ((issue_ready h _).trans hbody)
      have hcount : (k.s (wC w)).toNat = count := by rw [wC_mk]
      refine ⟨fun hbad => hexec _ (mmaBody_badCount rfl hcount hbad), fun hlow hhigh hca hra hgo => ?_⟩
      have hsum := mmaBody_go (w := w) (ecc := ecc) (row := row) (ca := ca) (ra := ra) rfl hcount hlow hhigh
        (by rw [wM_mk]) (by rw [wA_mk]) (by rw [wB_mk]) hca hra hgo
      rw [wD_mk, Core.acc32_eq] at hsum
      simp only [Core.setAcc32_flagsFor] at hsum
      exact ⟨_, mmaOut_length [] _, fun i hi => mmaOut_nil_getD _ hi, hexec _ hsum⟩
    case mrd => rw [Core.setV_eq, Core.acc32_eq]
    case mwr => rw [Core.setAcc32_eq, Core.vec_eq]
    case mst =>
      refine ⟨execCcMst_misaligned h, fun halign hgo => ?_⟩
      rw [← Core.acc32_eq]
      exact execCcMst_go h rfl rfl halign hgo
  · intro s c d a e m imm n k first entry held noted read
    have hread (i : Instr) {count : Nat} {u t : State} {w : BitVec 64} {use : List Acc → Core → Core}
        (hexec : exec i s = .next (readOut t n w first count use)) (hcore : getCore u n = k) (hclock : sclk u = sclk s)
        (ht : t = if finalEntries s n first count then u else s) (hm : wM w = m.toNat) : read i count u (use (held count)) := by
      obtain ⟨hbeyond, hbank⟩ := readOut_rules (w := w) (use := use) hcore hclock ht
      have hwait : bit m.toNat 3 = m.toNat.testBit 3 := bit_toNat m 3
      rw [hm, hwait] at hbank
      refine ⟨fun h => hexec.trans (congrArg _ (hbeyond h)), fun h => ⟨fun j hj hbefore hnot => ?_, fun hall => ?_⟩⟩
      · exact hexec.trans (congrArg _ ((hbank h).1 j hj hbefore hnot))
      · exact hexec.trans (congrArg _ ((hbank h).2 hall))
    have hnoted (count : Nat) : getCore (noted count) n = k ∧ sclk (noted count) = sclk s :=
      ⟨noteRepairReads_keeps (getCore · n) (fun _ _ => rfl) s n first _, noteRepairReads_keeps sclk (fun _ _ => rfl) s n first _⟩
    have hissue {w : BitVec 64} {body : State} (h : ready s c w) (hbody : readOutBody s n w = body) :
        (.next (issue s n w (fun s => readOutBody s n w)) : Out) = .next body :=
      congrArg _ ((issue_ready h _).trans hbody)
    refine ⟨fun h => ?rd, fun h => ?rdf, fun h => ⟨fun hbad => ?bad, fun hlow hhigh => ?drop⟩, fun hwait hfrozen => ?retry, fun hwait => ?idle⟩
    case rd => exact hread (.ccAccRd c d a m) (hissue h (readOutBody_accRd s n d a m)) (hnoted 32).1 (hnoted 32).2 rfl (wM_mk ..)
    case rdf => exact hread (.ccAccRdf c d a e m imm) (hissue h (readOutBody_accRdf s n d a e m imm)) (hnoted 64).1 (hnoted 64).2 rfl (wM_mk ..)
    case bad => exact (hissue h (readOutBody_accDrop s n a m imm)).trans (congrArg _ (if_pos hbad))
    case drop =>
      have hin : ¬(imm.toNat % 4096 = 0 ∨ 2048 < imm.toNat % 4096) := by omega
      exact hread (.ccAccDrop c a m imm) ((hissue h (readOutBody_accDrop s n a m imm)).trans (congrArg _ (if_neg hin))) rfl rfl (ite_self s).symm (wM_mk ..)
    case retry => exact congrArg Host.Outcome.next (if_pos ⟨hwait, by rw [hfrozen]; rfl⟩)
    case idle => exact congrArg Host.Outcome.next (if_neg fun hw => hwait hw.1)
end

section
/-! SUPPORT. Special values, and RSC, NWCHK and RAND by what the plan and the beat in execution declare (R145, R223, R232, R235-R237,
R325). -/

namespace Sys2Proof.Machine

/-- fs as a number, flag by flag (R223). -/
theorem Core.fs_eq (k : Core) : k.fs = (if k.nv then 1 else 0) + (if k.inf then 2 else 0) + (if k.ncv then 4 else 0) := by
  unfold Core.fs ofBool
  cases k.nv <;> cases k.inf <;> cases k.ncv <;> rfl

/-- A flag as the word of a scalar register. -/
theorem ofNat_ofBool (b : Bool) : BitVec.ofNat 64 (ofBool b) = if b then 1 else 0 := by
  cases b <;> rfl

/-- SGET loads the special value that IMM selects (R232). -/
theorem execCcSget_ready {s t : State} {c : BitVec 8} {d : BitVec 5} {imm : BitVec 32} {v : Nat}
    (h : ready s c (mkWord 0x0D d 0 0 0 0 imm)) (hv : specialValue s c.toNat imm.toNat = (v, t)) :
    execCcSget c d imm s = .next (retire t c.toNat (fun k => k.setS d.toNat (BitVec.ofNat 64 v))) := by
  unfold execCcSget
  rw [issue_ready h, hv]

/-! ### RSC (R145, R235) -/

/-- The operation of the plan that a TAG names to RSC: that of the beat's template, if it has one with the TAG. -/
def taggedOp (s : State) (tag : Nat) : Option OpDesc :=
  let tagged := (ownRec s).ops.filter (fun o => o.tag == tag)
  match tagged.find? (fun o => some o.template == s.sq.live.map (·.template)) with
  | some o => some o
  | none => tagged.head?

/-- The choice of `taggedOp` as RSC makes it. -/
theorem taggedOp_eq_orElse (s : State) (tag : Nat) : taggedOp s tag =
    (((ownRec s).ops.filter (fun o => o.tag == tag)).find? (fun o => some o.template == s.sq.live.map (·.template))).orElse
      (fun _ => ((ownRec s).ops.filter (fun o => o.tag == tag)).head?) := by
  unfold taggedOp
  dsimp only
  split
  case h_1 o h => rw [h]; rfl
  case h_2 h => rw [h]; rfl

section
variable {s : State} {c : BitVec 8} {d a : BitVec 5} {imm : BitVec 32} (h : ready s c (mkWord 0x10 d a 0 0 0 imm))

include h

/-- RSC of a TAG that the plan lacks (R256). -/
theorem execCcRsc_untagged (hop : taggedOp s (imm.toNat % 65536) = none) :
    execCcRsc c d a imm s = .next (freezeCore s c.toNat 0x2B (imm.toNat % 65536)) := by
  unfold execCcRsc rscBody
  rw [issue_ready h, wImm_mk]
  dsimp only
  rw [← taggedOp_eq_orElse, hop]
  rfl

/-- RSC of an operation that is not rescaled, or in a beat's first execution, returns sA. -/
theorem execCcRsc_unscaled {o : OpDesc} {l : Live} (hop : taggedOp s (imm.toNat % 65536) = some o) (hlive : s.sq.live = some l)
    (hplain : o.rescale = false ∨ l.rho = 0) :
    execCcRsc c d a imm s = .next (retire s c.toNat (fun k => k.setS d.toNat (k.s a.toNat))) := by
  have hrho : beatRho s = (l.rho, s) := by unfold beatRho; rw [hlive]
  unfold execCcRsc rscBody
  rw [issue_ready h, wImm_mk, wA_mk, wD_mk]
  dsimp only
  rw [← taggedOp_eq_orElse, hop]
  dsimp only
  rw [hrho]
  rcases hplain with hoff | hzero
  · rw [hoff]
    rfl
  · dsimp only
    rw [if_pos hzero, ite_self]

end

/-! ### NWCHK (R142, R236) -/

section
variable {s : State} {c : BitVec 8} {d a : BitVec 5} {imm : BitVec 32} {layer vec : Nat} (h : ready s c (mkWord 0x11 d a 0 0 0 imm))
  (hlayer : imm.toNat % 4096 = layer) (hvec : imm.toNat / 65536 % 256 = vec)

include h hlayer hvec

/-- NWCHK of a watch that the layer does not declare on this core. -/
theorem execCcNwchk_undeclared (hx : (liveTemplate s).watches.find? (fun x => x.layer == layer && x.core == c.toNat) = none) :
    execCcNwchk c d a imm s = .next (freezeCore s c.toNat 0x2A (vec * 65536 + layer)) := by
  subst hlayer hvec
  unfold execCcNwchk nwchkBody
  rw [issue_ready h, wImm_mk]
  dsimp only
  rw [hx]
  cases s.sq.live <;> rfl

variable {l : Live} {x : Watch} (hlive : s.sq.live = some l)
  (hx : (liveTemplate s).watches.find? (fun x => x.layer == layer && x.core == c.toNat) = some x)

include hlive hx

/-- NWCHK that this execution has made for the vector already. -/
theorem execCcNwchk_again (hmade : l.nwQ.any (fun e => e.1 == layer && e.2.1 == vec) = true) :
    execCcNwchk c d a imm s = .next (freezeCore s c.toNat 0x2A (vec * 65536 + layer)) := by
  subst hlayer hvec
  unfold execCcNwchk nwchkBody
  rw [issue_ready h, wImm_mk]
  dsimp only
  rw [hlive, hx]
  exact congrArg _ (if_pos hmade)

/-- NWCHK made first compares and hands its result to the replay decision. -/
theorem execCcNwchk_first (hfirst : l.nwQ.any (fun e => e.1 == layer && e.2.1 == vec) = false) :
    let q := (getCore s c.toNat).f a.toNat
    let jump := isJump q x.kappa (tblGet 0 l.muStart layer)
    execCcNwchk c d a imm s = .next (retire (modLive s (fun l => { l with nwQ := l.nwQ ++ [(layer, vec, jump, q)] })) c.toNat
      (fun k => k.setS d.toNat (if jump then 1 else 0))) := by
  subst hlayer hvec
  unfold execCcNwchk nwchkBody
  rw [issue_ready h, wImm_mk, wA_mk, wD_mk]
  dsimp only
  rw [hlive, hx]
  dsimp only
  rw [ofNat_ofBool]
  exact congrArg _ (if_neg (Bool.eq_false_iff.mp hfirst))

end

/-! ### RAND (R237, R325) -/

section
variable {s : State} {c : BitVec 8} {d a : BitVec 5} {stream : Nat} {words : List Word32} (h : ready s c (mkWord 0x12 d a 0 0 0 0))
  (hstream : ((getCore s c.toNat).s a.toNat).toNat % 65536 = stream)
  (hwords : (tblGet [] s.sq.draws stream).drop (tblGet 0 s.sq.drawPos stream) = words)

include h hstream hwords

/-- RAND with 64 words left loads them and advances the draw position. -/
theorem execCcRand_go (hlive : s.sq.live.isSome = true) (hleft : 64 ≤ words.length) :
    execCcRand c d a s = .next (retire { s with sq := { s.sq with
      drawPos := tblSet 0 s.sq.drawPos stream (tblGet 0 s.sq.drawPos stream + 64) } } c.toNat
        (fun k => k.setV d.toNat (words.take 64))) := by
  have hgo : ¬(s.sq.live.isNone || decide (words.length < 64)) = true := by
    simp [Option.isNone_eq_false_iff.mpr hlive, hleft]
  unfold execCcRand randBody
  rw [issue_ready h, wA_mk, wD_mk]
  dsimp only
  rw [hstream, hwords, if_neg hgo]

/-- RAND with no beat or with fewer than 64 words left. -/
theorem execCcRand_fault (hshort : s.sq.live = none ∨ words.length < 64) :
    execCcRand c d a s = .next (freezeCore s c.toNat 0x29 stream) := by
  unfold execCcRand randBody
  rw [issue_ready h, wA_mk]
  dsimp only
  rw [hstream, hwords, if_pos (by simpa using hshort)]
  rfl

end

end Sys2Proof.Machine

open Sys2Proof Sys2Proof.Machine

/-- Settles O13: SGET by the value that IMM selects; RSC, NWCHK and RAND by the rule of each of their cases. -/
theorem specialValuesReplayAndDraw : Obligations.SpecialValuesReplayAndDraw := by
  constructor
  · intro s c d sel v t n k hsel h
    refine execCcSget_ready h ?_
    rw [← Core.fs_eq k] at hsel
    simp only [List.mem_cons, Prod.mk.injEq, List.not_mem_nil, or_false] at hsel
    rcases hsel with ⟨rfl, rfl, rfl⟩ | ⟨rfl, rfl, rfl⟩ | ⟨rfl, rfl, rfl⟩ | ⟨rfl, rfl, rfl⟩ | ⟨rfl, rfl, rfl⟩ |
      ⟨rfl, rfl, rfl⟩ | ⟨rfl, rfl, rfl⟩ | ⟨rfl, rfl, rfl⟩ | ⟨rfl, rfl, rfl⟩ | ⟨rfl, rfl, rfl⟩
    all_goals rfl
  · intro s c d a imm n k tag layer vec stream tagged named words
    exact ⟨fun h => ⟨execCcRsc_untagged h, fun o l => execCcRsc_unscaled h⟩,
      fun h => ⟨fun l x hlive hx => ⟨execCcNwchk_first h rfl rfl hlive hx, execCcNwchk_again h rfl rfl hlive hx⟩,
        execCcNwchk_undeclared h rfl rfl⟩,
      fun h => ⟨execCcRand_go h rfl rfl, execCcRand_fault h rfl rfl⟩⟩
end

section
/-! SUPPORT. The start and the end of a beat, the replay decision, and what a shot, a rescue and the close of a block leave of the beat in
execution (R67, R72-R76, R138-R140, R144-R146, R175, R192, R257, R271, R310). -/

namespace Sys2Proof.Machine

/-! ### BEAT_START (R175, R257, R310) -/

/-- A walk that changes tiles changes the tiles' records alone. -/
theorem exists_forEach_modTile {α : Type} (l : List α) (i : α → Nat) (f : α → Tile → Tile) (s : State) :
    ∃ u, forEach l (fun s a => modTile s (i a) (f a)) s = { s with tiles := u } := by
  unfold forEach
  induction l generalizing s with
  | nil => exact ⟨s.tiles, rfl⟩
  | cons a l ih =>
    obtain ⟨u, hu⟩ := ih (modTile s (i a) (f a))
    exact ⟨u, hu⟩

/-- The biases of a tick stand in the tiles' records alone. -/
theorem exists_biasTick (s : State) (n : Nat) : ∃ u, biasTick s n = { s with tiles := u } := by
  unfold biasTick
  extract_lets d spans near down
  obtain ⟨u, hdown⟩ : ∃ u, down = { s with tiles := u } := exists_forEach_modTile near (·.1) (fun _ t => { t with bias := 0 }) s
  rw [hdown]
  exact exists_forEach_modTile near (·.1) (fun e t => { t with bias := t.bias ||| slotBias n e.2.1 e.2.2 }) _

/-- A beat that waited moves the start of the device's round and nothing else. -/
theorem exists_shiftRound (s : State) (x : Pos) : ∃ r, shiftRound s x = { s with sq := { s.sq with roundRtb := r } } := by
  unfold shiftRound
  split
  · exact ⟨_, rfl⟩
  · exact ⟨_, rfl⟩

section
variable {s : State} {pos : BitVec 16} {x : Pos} (hx : posAt s pos.toNat = some x) (hdue : beatDue s pos.toNat x = true)

include hx hdue

/-- A beat that would shoot a tile that is not ready waits; in an IDLE_FILL position none runs (log entry 109). -/
theorem execBeatStart_unready (hready : tilesReady s ((ownRec s).templates.getD x.template {}) = false) :
    execBeatStart pos s = .next (if x.role = 2 then s else { s with sq := { s.sq with beatHeld := some pos.toNat } }) := by
  unfold execBeatStart
  dsimp only
  rw [hx]
  dsimp only
  rw [hdue, hready]
  rfl

/-- A beat whose tiles are ready starts; what its position draws from depends on its role and channel. -/
theorem execBeatStart_ready (hready : tilesReady s ((ownRec s).templates.getD x.template {}) = true) :
    let u := biasTick (openBeat (shiftRound s x) pos.toNat x) 0
    ∃ d, execBeatStart pos s = .next { u with sq := { u.sq with draws := d, drawPos := [] } } := by
  unfold execBeatStart
  dsimp only
  rw [hx]
  dsimp only
  rw [if_neg (by rw [hdue]; decide), if_neg (by rw [hready]; decide)]
  split
  · exact ⟨_, rfl⟩
  · exact ⟨_, rfl⟩

end

/-! ### The decision at the end of a beat (R144-R146) -/

section
variable {s : State} {l : Live}

/-- BEAT_END before the template's length is over. -/
theorem execBeatEnd_early (hlive : s.sq.live = some l) (h : l.cycle < 2 * (liveTemplate s).len) : execBeatEnd s = .next s := by
  unfold execBeatEnd
  rw [hlive]
  exact congrArg _ (if_pos h)

/-- BEAT_END once the template's length is over. -/
theorem execBeatEnd_due (hlive : s.sq.live = some l) (h : 2 * (liveTemplate s).len ≤ l.cycle) :
    execBeatEnd s = .next (closeBeat s l) := by
  unfold execBeatEnd
  rw [hlive]
  exact congrArg _ (if_neg (Nat.not_lt.mpr h))

/-- Without a cause of replay the watch values stay for the round (R143). -/
theorem decideReplay_accepted (h : replayCause l = 0) : decideReplay s l = { s with sq := { s.sq with
    roundQ := s.sq.roundQ ++ l.nwQ.map (fun e => (l.pos, e.1, e.2.1, e.2.2.1, e.2.2.2)) } } :=
  if_pos h

/-- With a cause, below the limit, the position is replayed. -/
theorem decideReplay_again (h : replayCause l ≠ 0) (hrho : l.rho < replayMax s) : decideReplay s l =
    replayEvent { s with sq := { s.sq with replaying := s.sq.replaying ++ [l.pos] } } l 0x30 (l.rho + 1) :=
  (if_neg h).trans (if_pos hrho)

/-- With a cause, at the limit, the position is exhausted. -/
theorem decideReplay_exhausted (h : replayCause l ≠ 0) (hrho : replayMax s ≤ l.rho) : decideReplay s l =
    replayEvent { s with sq := { s.sq with exhausted := s.sq.exhausted ++ [l.pos] } } l 0x31 (replayMax s) :=
  (if_neg h).trans (if_neg (Nat.not_lt.mpr hrho))

end

/-! ### What leaves the sequencer alone -/

theorem Reported.sq {s t : State} (h : Reported s t) : t.sq = s.sq := by
  obtain ⟨_, _, _, _, _, _, _, _, _, _, _, _, _, _, _, _, rfl⟩ := h
  rfl

/-- An event leaves the sequencer. -/
@[simp] theorem raiseEvent_sq (s : State) (page code : Nat) (inf : List Byte) (forced : Bool) :
    (raiseEvent s page code inf forced).sq = s.sq := (reported_raiseEvent s page code inf forced).sq

/-- Freezing a master leaves the sequencer. -/
@[simp] theorem freeze_sq (s : State) (page kind master code addr : Nat) : (freeze s page kind master code addr).sq = s.sq := by
  unfold freeze
  dsimp only
  rw [raiseEvent_sq, modHdr_sq]
  split <;> rfl

/-- The history of checked shots is kept outside the sequencer. -/
@[simp] theorem recordCheck_sq (s : State) (i logical : Nat) (fails : Bool) : (recordCheck s i logical fails).sq = s.sq := by
  unfold recordCheck
  dsimp only
  split
  · rfl
  · exact raiseEvent_sq _ _ _ _ _

/-! ### The clock and the marks of the beat in execution -/

/-- The cycle of the beat in execution and what it has marked as done. -/
def beatMarks (s : State) : Option (Nat × List (Nat × Nat)) := s.sq.live.map (fun l => (l.cycle, l.done))

theorem beatMarks_of_sq {s t : State} (h : t.sq = s.sq) : beatMarks t = beatMarks s := by
  unfold beatMarks
  rw [h]

/-- The beat that an answer leaves in execution, its cycle and marks being known. -/
theorem exists_live_of_beatMarks {o : Out} {n : Nat} {d : List (Nat × Nat)} (h : ∃ t, o = .next t ∧ beatMarks t = some (n, d)) :
    ∃ t l, o = .next t ∧ t.sq.live = some l ∧ l.cycle = n ∧ l.done = d := by
  obtain ⟨t, ht, hmarks⟩ := h
  obtain ⟨l, hl, he⟩ := Option.map_eq_some_iff.mp hmarks
  obtain ⟨hn, hd⟩ := Prod.mk.inj he
  exact ⟨t, l, ht, hl, hn, hd⟩

/-- Marks added to the beat in execution. -/
theorem beatMarks_modLive_done {s : State} {b : Live} (hlive : s.sq.live = some b) (f : List (Nat × Nat) → List (Nat × Nat)) :
    beatMarks (modLive s (fun l => { l with done := f l.done })) = some (b.cycle, f b.done) := by
  simp [beatMarks, hlive]

/-- A change of the beat that leaves its cycle and its marks. -/
theorem beatMarks_modLive (s : State) {f : Live → Live} (hcycle : ∀ l, (f l).cycle = l.cycle) (hdone : ∀ l, (f l).done = l.done) :
    beatMarks (modLive s f) = beatMarks s := by
  unfold beatMarks
  cases h : s.sq.live <;> simp [h, hcycle, hdone]

@[simp] theorem beatMarks_posFault (s : State) (cause : Nat) : beatMarks (posFault s cause) = beatMarks s := by
  unfold posFault
  split
  · rfl
  · exact beatMarks_modLive s (f := fun l => { l with fault := if l.fault = 2 then 2 else cause }) (fun _ => rfl) (fun _ => rfl)

@[simp] theorem beatMarks_zeroFetches (s : State) (c : Nat) : beatMarks (zeroFetches s c) = beatMarks s := by
  unfold zeroFetches
  split <;> rfl

/-- A core that freezes leaves the beat's cycle and marks. -/
@[simp] theorem beatMarks_freezeCore (s : State) (c code addr : Nat) : beatMarks (freezeCore s c code addr) = beatMarks s := by
  unfold freezeCore
  rw [beatMarks_posFault, beatMarks_zeroFetches]
  exact beatMarks_of_sq (freeze_sq ..)

@[simp] theorem beatMarks_deliverPartial (s : State) (c entry : Nat) (v : Int) (clip : Bool) :
    beatMarks (deliverPartial s c entry v clip) = beatMarks s := by
  unfold deliverPartial
  split
  · rfl
  · split
    · exact beatMarks_freezeCore ..
    · rfl

@[simp] theorem beatMarks_toLane (s : State) (d : DevRec) (x : Shot) (p : Nat) (v : Int) (clip : Bool) :
    beatMarks (toLane s d x p v clip) = beatMarks s := by
  unfold toLane
  split
  · rfl
  · exact beatMarks_deliverPartial ..

@[simp] theorem beatMarks_clipPair (s : State) (d : DevRec) (x : Shot) (p : Nat) (c : Int) : beatMarks (clipPair s d x p c) = beatMarks s :=
  beatMarks_toLane ..

@[simp] theorem beatMarks_transferPair (s : State) (d : DevRec) (i : Nat) (x : Shot) (t : Tile) (p : Nat) (c : Int) :
    beatMarks (transferPair s d i x t p c) = beatMarks s := by
  unfold transferPair
  dsimp only
  split
  · exact beatMarks_toLane ..
  · split
    · exact beatMarks_clipPair ..
    · rfl

/-- The checker leaves the beat's cycle and marks; of the beat it notes a failure alone (R144). -/
@[simp] theorem beatMarks_checkShot (s : State) (i : Nat) (d : DevRec) (x : Shot) (codes : List Int) :
    beatMarks (checkShot s i d x codes) = beatMarks s := by
  unfold checkShot
  dsimp only
  split
  · rfl
  · rw [beatMarks_of_sq (recordCheck_sq ..)]
    split
    · exact (beatMarks_modLive _ (f := fun l => { l with checkFail := true }) (fun _ => rfl) (fun _ => rfl)).trans
        (beatMarks_of_sq (raiseEvent_sq ..))
    · rfl

@[simp] theorem noteAssay_sq (s : State) (d : DevRec) (x : Shot) (xs codes : List Int) : (noteAssay s d x xs codes).sq = s.sq := by
  unfold noteAssay
  dsimp only
  split
  · split <;> rfl
  · rfl

@[simp] theorem beatMarks_noteRange (s : State) (g : Nat) (o : OpDesc) (codes : List Int) :
    beatMarks (noteRange s g o codes) = beatMarks s := rfl

/-- A shot on served tiles leaves the beat's cycle and marks. -/
theorem beatMarks_takeShot (s : State) (d : DevRec) (i : Nat) (x : Shot) : beatMarks (takeShot s d i x) = beatMarks s := by
  unfold takeShot
  extract_lets o xs codes s1 up s2 s3 t s4 s5
  have hused : s4.sq = s.sq := by
    simp only [s4, s3]
    split <;> rfl
  have hnoted : beatMarks s5 = beatMarks s4 := by
    simp only [s5]
    rw [beatMarks_of_sq (noteAssay_sq ..), beatMarks_noteRange, beatMarks_checkShot]
  rw [forEach_keeps beatMarks _ _ (fun s p => beatMarks_transferPair s d i x t p _), hnoted, beatMarks_of_sq hused]

/-- A rescued pair leaves the beat's cycle and marks. -/
@[simp] theorem beatMarks_rescuePair (s : State) (d : DevRec) (i : Nat) (x : Shot) (p : Nat) (lo hi : Tile) (cl ch : Int) :
    beatMarks (rescuePair s d i x p lo hi cl ch) = beatMarks s := by
  refine (beatMarks_toLane ..).trans ?_
  split
  · split <;> rfl
  · split <;> rfl

/-- An element of a list stands in its indexed list with its index. -/
theorem mem_indexed {α : Type} {l : List α} {i : Nat} {a : α} (h : l[i]? = some a) : (i, a) ∈ indexed l := by
  obtain ⟨hlt, hget⟩ := List.getElem?_eq_some_iff.mp h
  exact List.mem_iff_getElem.mpr ⟨i, by simpa [indexed, upTo] using hlt, by simp [indexed, upTo, hget]⟩

/-! ### What is done once in a beat is marked (R67, R72, R192) -/

/-- A shot at its tick is marked. -/
theorem beatMarks_execShot {s : State} {entry : BitVec 32} {b : Live} {x : Shot} (hlive : s.sq.live = some b)
    (hx : (liveTemplate s).shots[entry.toNat]? = some x) (htick : b.cycle / 2 = 8 * x.slot + 11)
    (hdone : b.done.contains (2, entry.toNat) = false)
    (hfetch : b.done.contains (3, driveKey x.group x.source (shotRow s (shotOp (ownRec s) x) x)) = true) :
    ∃ t, execShot entry s = .next t ∧ beatMarks t = some (b.cycle, (2, entry.toNat) :: b.done) := by
  obtain ⟨htaken, hzero⟩ := execShot_due hlive hx htick hdone hfetch rfl
  have hmark := beatMarks_modLive_done hlive (fun d => (2, entry.toNat) :: d)
  by_cases hserve : ∀ l ∈ shotTiles (shotOp (ownRec s) x) x, tileServes s x.group l = true
  · exact ⟨_, htaken hserve, (beatMarks_takeShot ..).trans hmark⟩
  · obtain ⟨l, hl, hnot⟩ := not_forall₂.mp hserve
    exact ⟨_, hzero ⟨l, hl, Bool.eq_false_iff.mpr hnot⟩,
      (forEach_keeps beatMarks _ _ (fun s p => beatMarks_toLane s ..) _).trans hmark⟩

/-- The close of a block at its tick marks the shots of the block, this one among them. -/
theorem beatMarks_execEntryBlockClose {s : State} {entry : BitVec 32} {b : Live} {x : Shot} (hlive : s.sq.live = some b)
    (hx : (liveTemplate s).shots[entry.toNat]? = some x)
    (htick : b.cycle / 2 = closeTick s (ownRec s) (liveTemplate s) (blockKey s (ownRec s) x))
    (hdone : b.done.contains (7, entry.toNat) = false) :
    ∃ d, d.contains (7, entry.toNat) = true ∧ ∃ t, execEntryBlockClose entry s = .next t ∧ beatMarks t = some (b.cycle, d) := by
  obtain ⟨closed, hclosed⟩ : ∃ d, d = ((indexed (liveTemplate s).shots).filter
    (fun y => blockKey s (ownRec s) y.2 == blockKey s (ownRec s) x)).map (fun y => (7, y.1)) := ⟨_, rfl⟩
  obtain ⟨m, hm⟩ : ∃ m, m = modLive s (fun b => { b with done := closed ++ b.done }) := ⟨_, rfl⟩
  obtain ⟨mine, hmine⟩ : ∃ l, l = s.sq.satQueue.filter (fun e =>
    blockKey s (ownRec s) ((liveTemplate s).shots.getD e.1 {}) == blockKey s (ownRec s) x) := ⟨_, rfl⟩
  obtain ⟨clipped, hc⟩ : ∃ u, u = forEach mine
    (fun s' e => clipPair s' (ownRec s) ((liveTemplate s).shots.getD e.1 {}) e.2.1 e.2.2) m := ⟨_, rfl⟩
  have hmarks : beatMarks clipped = some (b.cycle, closed ++ b.done) := by
    rw [hc, forEach_keeps beatMarks _ _ (fun s' e => beatMarks_clipPair s' ..), hm]
    exact beatMarks_modLive_done hlive (closed ++ ·)
  have hmem : (7, entry.toNat) ∈ closed := by
    rw [hclosed]
    refine List.mem_map.mpr ⟨(entry.toNat, x), List.mem_filter.mpr ⟨?_, beq_self_eq_true _⟩, rfl⟩
    exact mem_indexed hx
  exact ⟨closed ++ b.done, List.contains_iff_mem.mpr (List.mem_append_left _ hmem), _,
    execEntryBlockClose_due hlive hx htick hdone hmine (hclosed ▸ hm) hc rfl,
    (forEach_keeps beatMarks _ (fun s c => modCore s c _) (fun _ _ => rfl) _).trans hmarks⟩

/-- A reserved slot with and without a saturated shot to rescue: either way the marks are those of the spent slot. -/
theorem exists_next_of_earliest {spent : State} {o : Out} {e : Option (Nat × Shot × List Nat)} {marks : Option (Nat × List (Nat × Nat))}
    (hspent : beatMarks spent = marks) (hnone : e = none → o = .next spent)
    (hsome : ∀ i x ps, e = some (i, x, ps) → ∃ t, o = .next t ∧ beatMarks t = beatMarks spent) :
    ∃ t, o = .next t ∧ beatMarks t = marks := by
  subst hspent
  cases e with
  | none => exact ⟨_, hnone rfl, rfl⟩
  | some e => exact hsome _ _ _ rfl

section
variable {s : State} {g : BitVec 6} {op : BitVec 16} {l : BitVec 10} {k : BitVec 2} {b : Live} (hlive : s.sq.live = some b)
  (hin : inReserved s g.toNat op.toNat l.toNat k.toNat = true)

include hlive in
/-- A reserved slot that is spent is marked. -/
theorem beatMarks_spendReserved (g op l k : Nat) :
    beatMarks (spendReserved s g op l k) = some (b.cycle, (6, ((g * 65536 + op) * 1024 + l) * 4 + k) :: b.done) :=
  beatMarks_modLive_done hlive _

include hlive hin

/-- RESHOT in its reserved slot spends it. -/
theorem beatMarks_execReshot (hseam : ((ownRec s).ops.getD op.toNat {}).seam = false) :
    ∃ t, execReshot g op l k s = .next t ∧
      beatMarks t = some (b.cycle, (6, ((g.toNat * 65536 + op.toNat) * 1024 + l.toNat) * 4 + k.toNat) :: b.done) := by
  obtain ⟨hnone, hsome⟩ := execReshot_inReserved hin hseam rfl
  refine exists_next_of_earliest (beatMarks_spendReserved hlive ..) hnone (fun i x ps h => ⟨_, hsome i x ps h, ?_⟩)
  exact forEach_keeps beatMarks _ _ (fun s p => beatMarks_rescuePair s ..) _

/-- SEAM_RESHOT in its reserved slot spends it. -/
theorem beatMarks_execSeamReshot (hseam : ((ownRec s).ops.getD op.toNat {}).seam = true) :
    ∃ t, execSeamReshot g op l k s = .next t ∧
      beatMarks t = some (b.cycle, (6, ((g.toNat * 65536 + op.toNat) * 1024 + l.toNat) * 4 + k.toNat) :: b.done) := by
  obtain ⟨hnone, hsome⟩ := execSeamReshot_inReserved hin hseam rfl
  refine exists_next_of_earliest (beatMarks_spendReserved hlive ..) hnone (fun i x ps h => ⟨_, hsome i x ps h, ?_⟩)
  exact forEach_keeps beatMarks _ _ (fun s p => beatMarks_rescuePair s ..) _

end

end Sys2Proof.Machine

open Sys2Proof Sys2Proof.Machine

/-- Settles O32: the start by whether the tiles are ready, the end and the replay decision by their branches, and the marks of what
happens once in a beat (`beatMarks`). -/
theorem beatsBeginAndEnd : Obligations.BeatsBeginAndEnd := by
  refine ⟨?start, ?finish, fun s l => ⟨decideReplay_accepted, decideReplay_again, decideReplay_exhausted⟩, ?marks, ?reserved⟩
  case start =>
    intro s pos x hx hdue tpl
    refine ⟨execBeatStart_unready hx hdue, fun hready => ?_⟩
    obtain ⟨d, hstart⟩ := execBeatStart_ready hx hdue hready
    obtain ⟨u, hbias⟩ := exists_biasTick (openBeat (shiftRound s x) pos.toNat x) 0
    obtain ⟨r, hshift⟩ := exists_shiftRound s x
    rw [hbias, hshift] at hstart
    exact ⟨_, _, hstart, rfl, rfl, rfl, rfl, rfl, rfl, rfl, rfl, rfl, rfl, rfl, rfl, rfl, rfl, rfl, rfl⟩
  case finish =>
    intro s l hlive
    exact ⟨execBeatEnd_early hlive, fun h => ⟨_, execBeatEnd_due hlive h, rfl, rfl, rfl, rfl, rfl, rfl⟩⟩
  case marks =>
    intro s entry b x hlive hx
    refine ⟨fun htick hdone hfetch => exists_live_of_beatMarks (beatMarks_execShot hlive hx htick hdone hfetch), fun htick hdone => ?_⟩
    obtain ⟨d, hmem, hmarks⟩ := beatMarks_execEntryBlockClose hlive hx htick hdone
    obtain ⟨t, l, ht, hl, hcycle, rfl⟩ := exists_live_of_beatMarks hmarks
    exact ⟨t, l, ht, hl, hcycle, hmem⟩
  case reserved =>
    intro s g op l k b hlive hin spent
    exact ⟨fun hseam => exists_live_of_beatMarks (beatMarks_execReshot hlive hin hseam),
      fun hseam => exists_live_of_beatMarks (beatMarks_execSeamReshot hlive hin hseam)⟩
end

section
/-! SUPPORT. When a fetched command acts, is staged or goes on to another device, and what the owner and device commands do when they act
(R150, R338-R340, R346-R348, R354, R433, R450, R453, R457, R461, R499). -/

namespace Sys2Proof.Machine

/-! ### Where a fetched command acts (R348, R433, R457) -/

section
variable {s : State} {i : Issuer} {op : Nat} {ps : List Nat} (hs : starts s i op ps = true)

include hs

/-- A command with these operands takes effect. -/
theorem command_started (body : State → State) : command i op ps s body = .next (body s) :=
  congrArg _ (if_pos hs)

/-- A command that names another device goes there. -/
theorem deviceCommand_elsewhere {f : Fetched} (hf : findFetched s i = some f) (hh : forHere s i = false) (body : State → State) :
    deviceCommand i op ps s body = .next (sendOn s i f.device 0x43 op ps) := by
  simp [deviceCommand, command_started hs, hh, hf]

/-- A command of the headframe takes effect there. -/
theorem headCommand_head (hh : isHeadframe s = true) (body : State → State) (refused : State → Option Nat) :
    headCommand i op ps s body refused = .next (body s) := by
  simp [headCommand, command_started hs, hh]

/-- A command of the headframe goes on to it from another member. -/
theorem headCommand_member (hh : isHeadframe s = false) (body : State → State) :
    headCommand i op ps s body = .next (sendOn s i 0 0x42 op ps) := by
  simp [headCommand, command_started hs, hh]

/-- A command that waits for its boundary is kept by the headframe. -/
theorem boundaryCommand_head (hh : isHeadframe s = true) (cmd : Instr) : boundaryCommand i op cmd ps s = .next (stage s i cmd) :=
  headCommand_head hs hh _ _

/-- A command that waits for its boundary goes on to the headframe from another member. -/
theorem boundaryCommand_member (hh : isHeadframe s = false) (cmd : Instr) :
    boundaryCommand i op cmd ps s = .next (sendOn s i 0 0x42 op ps) :=
  headCommand_member hs hh _

end

/-- NOP on the device it names. -/
theorem execNopCommand_here {s : State} {i : Issuer} (hs : starts s i 0x00 [] = true) (hh : forHere s i = true) :
    execNopCommand i s = .next (complete s i stOk) :=
  deviceCommand_here hs hh ..

/-- NOP that names another device. -/
theorem execNopCommand_elsewhere {s : State} {i : Issuer} {f : Fetched} (hf : findFetched s i = some f) (hs : starts s i 0x00 [] = true)
    (hh : forHere s i = false) : execNopCommand i s = .next (sendOn s i f.device 0x43 0x00 []) :=
  deviceCommand_elsewhere hs hf hh _

/-- An answer that a condition chooses. -/
theorem next_of_ite {p : Bool} {o : Out} {a b : State} (h : o = .next (if p then a else b)) :
    (p = true → o = .next a) ∧ (p = false → o = .next b) := by
  cases p
  · exact ⟨nofun, fun _ => h⟩
  · exact ⟨fun _ => h, nofun⟩

/-- OWNER_BIND on the headframe waits while a set is admitted. -/
theorem execOwnerBind_head {s : State} {i : Issuer} {owner target : BitVec 8} (hh : isHeadframe s = true)
    (hs : starts s i 0x04 [owner.toNat, target.toNat] = true) : execOwnerBind i owner target s =
      .next (if planAdmitted s then stage s i (.ownerBind i owner target) else actOwnerBind i owner target s) :=
  headCommand_head hs hh ..

/-- OWNER_UNBIND on the headframe waits while a set is admitted. -/
theorem execOwnerUnbind_head {s : State} {i : Issuer} {owner target : BitVec 8} (hh : isHeadframe s = true)
    (hs : starts s i 0x05 [owner.toNat, target.toNat] = true) : execOwnerUnbind i owner target s =
      .next (if planAdmitted s then stage s i (.ownerUnbind i owner target) else actOwnerUnbind i owner target s) :=
  headCommand_head hs hh ..

/-- A command is sent on once. -/
theorem sendOn_sent {s : State} {i : Issuer} {f : Fetched} (hf : findFetched s i = some f) (hsent : f.sent = true)
    (dst kind op : Nat) (params : List Nat) : sendOn s i dst kind op params = s := by
  simp [sendOn, hf, hsent]

/-- A command that is sent on is marked, and its message names it and the cycle of its fetch. -/
theorem sendOn_unsent {s : State} {i : Issuer} {f : Fetched} (hf : findFetched s i = some f) (hsent : f.sent = false)
    (dst kind op : Nat) (params : List Nat) : sendOn s i dst kind op params =
      sendMessage (modFetched s i (fun f => { f with sent := true })) dst kind
        ([op, ofBool i.port, i.fn.toNat, i.pair.toNat, i.cid.toNat, f.fetchedAt] ++ params) := by
  simp [sendOn, fetchTime, hf, hsent]

/-- A command that does not wait yet joins those that wait for a boundary. -/
theorem stage_new {s : State} {i : Issuer} (h : ∀ d ∈ s.sq.deferred, d.issuer ≠ i) (cmd : Instr) (held : Nat) :
    stage s i cmd held = { s with promptUsed := s.promptUsed + held, sq := { s.sq with
      deferred := s.sq.deferred ++ [{ issuer := i, cmd := cmd, held := held }] } } :=
  if_neg (by simpa using h)

/-! ### Owners: create and release (R338, R340, R525) -/

/-- Changing a key slot leaves every other slot. -/
theorem getSlot_modSlot_ne (s : State) {o p : Nat} (f : Slot → Slot) (hne : p ≠ o) : getSlot (modSlot s o f) p = getSlot s p :=
  tblGet_mod_ne f hne

/-- The new slot of an owner (R525). -/
theorem getSlot_fillSlot {s : State} (h : tblWf {} s.ke.slots = true) (o : Nat) (port : Bool) (d : BitVec 128) :
    getSlot (fillSlot s o port d) o = { getSlot s o with
      state := 1, port := port, map := true, sealed := false, restored := false, generation := ((getSlot s o).generation + 1) % 256
      kStack := s.ke.nextKey, kMap := s.ke.nextKey + 1, kWrap := s.ke.nextKey + 2, token := d, sealHandle := none, destroyCause := 0 } :=
  getSlot_modSlot (s := { s with ke := { s.ke with nextKey := s.ke.nextKey + 3, drbgCount := s.ke.drbgCount + 3 } }) h o (fun z => { z with
    state := 1, port := port, map := true, sealed := false, restored := false, generation := (z.generation + 1) % 256
    kStack := s.ke.nextKey, kMap := s.ke.nextKey + 1, kWrap := s.ke.nextKey + 2, token := d, sealHandle := none, destroyCause := 0 })

/-- Filling a slot leaves the others. -/
theorem getSlot_fillSlot_ne (s : State) {o p : Nat} (port : Bool) (d : BitVec 128) (hne : p ≠ o) :
    getSlot (fillSlot s o port d) p = getSlot s p := by
  unfold fillSlot
  exact getSlot_modSlot_ne _ _ hne

/-- OWNER_CREATE with no ID free. -/
theorem actOwnerCreate_none {s : State} (h : freeOwner s = none) (i : Issuer) (ok : Bool) :
    actOwnerCreate i ok s = complete s i stNoOwner := by
  unfold actOwnerCreate
  rw [h]

/-- OWNER_CREATE with an ID free, where every member can fill its slot. -/
theorem actOwnerCreate_free {s : State} {o : Nat} (h : freeOwner s = some o) (hke : s.ke.state ≠ 2) (i : Issuer) :
    let token : BitVec 128 := BitVec.ofNat 128 (draw (drbgRequest s)).1
    let u := setOwner (fillSlot (draw (drbgRequest s)).2 o i.port (tokenDigest token)) o
      (some { token := token, bound := [(i.port, fnKey i)] })
    let v := raiseEvent u pgKe 0x04 (info [(1, o), (1, ofBool i.port), (1, (getSlot u o).generation)])
    actOwnerCreate i true s = complete
      (shareOwner (broadcast v 0x40 [o, ofBool i.port] (leBytes 16 (tokenDigest token).toNat)) o) i stOk
      (leBytes 8 o ++ leBytes 16 token.toNat) := by
  have hgo : ¬(s.ke.state = 2 ∨ (!true) = true) := by simpa using hke
  unfold actOwnerCreate
  rw [h]
  exact if_neg hgo

/-! ### Commands on an owner that the issuer holds (R339, R346, R354, R450) -/

section
variable {s : State} {i : Issuer} {owner : BitVec 8} {w : Owner} (hok : ownerRefusal s i owner.toNat = none)

include hok

/-- OWNER_RELEASE orders the destruction of the owner's key and waits for it. -/
theorem actOwnerRelease_held (ho : owner.toNat ≠ 0) (hw : getOwner s owner.toNat = some w) (hcmd : w.releaseCmd = none)
    (hrel : w.releasing = false) : actOwnerRelease i owner s =
      modOwner (orderDestroy s owner.toNat 1 (some (i.port, i.pairKey))) owner.toNat (fun w => { w with releaseCmd := some i }) := by
  unfold actOwnerRelease
  dsimp only
  rw [if_neg ho, hok, orRefuse, hw]
  exact if_neg (by simp [hcmd, hrel])

/-- OWNER_BIND of a live function. -/
theorem actOwnerBind_live {target : BitVec 8} (ho : owner.toNat ≠ 0) (htarget : target.toNat ≤ 31)
    (hlive : fnLive s i.port (targetKey i target) = true) : actOwnerBind i owner target s = complete (shareOwner
      (modOwner s owner.toNat (fun w => if w.bound.contains (i.port, targetKey i target) then w
        else { w with bound := w.bound ++ [(i.port, targetKey i target)] })) owner.toNat) i stOk := by
  have hgo : ¬(owner.toNat = 0 ∨ 31 < target.toNat ∨ (!fnLive s i.port (targetKey i target)) = true) := by
    simp [ho, htarget, hlive]
  unfold actOwnerBind
  dsimp only
  rw [hok]
  exact if_neg hgo

/-- OWNER_UNBIND of one of an owner's several functions. -/
theorem actOwnerUnbind_bound {target : BitVec 8} (ho : owner.toNat ≠ 0) (hw : getOwner s owner.toNat = some w)
    (hbound : w.bound.contains (i.port, targetKey i target) = true) (hmore : 1 < w.bound.length) :
    actOwnerUnbind i owner target s = complete (shareOwner (dropAperture
      (modOwner s owner.toNat (fun w => { w with bound := w.bound.filter (· != (i.port, targetKey i target)) })) owner.toNat i.port
      (targetKey i target)) owner.toNat) i stOk := by
  have hgo : ¬(owner.toNat = 0 ∨ (!w.bound.contains (i.port, targetKey i target)) = true ∨ w.bound.length ≤ 1) := by
    rw [hbound]
    simp [ho, hmore]
  unfold actOwnerUnbind
  dsimp only
  rw [hok, orRefuse, hw]
  exact if_neg hgo

/-- OWNER_LIMITS with valid modes and caps, without FILL and without a report. -/
theorem actOwnerLimits_valid {gm pm wt : BitVec 8} {gr gc pr pc : BitVec 32} {v : Owner} (hw : getOwner s owner.toNat = some w)
    (hgm : gm.toNat ≤ 2) (hpm : pm.toNat ≤ 2) (hgc : gm ≠ 0 → gc ≠ 0) (hpc : pm ≠ 0 → pc ≠ 0)
    (hv : v = { w with gen := limitTally w.gen gm.toNat gr.toNat gc.toNat false
                       prompt := limitTally w.prompt pm.toNat pr.toNat pc.toNat false
                       weight := if wt = 0 then w.weight else wt.toNat }) :
    actOwnerLimits i owner gm pm wt 0 gr gc pr pc 0 s = complete (setOwner s owner.toNat (some v)) i stOk
      (leBytes 8 (twos 64 v.gen.balance) ++ leBytes 8 (twos 64 v.prompt.balance)) := by
  have hgo : ¬(2 < gm.toNat ∨ 2 < pm.toNat ∨ (gm ≠ 0 ∧ gc = 0) ∨ (pm ≠ 0 ∧ pc = 0) ∨ 1 < (0 : BitVec 8).toNat) := by
    rintro (h | h | ⟨h, hc⟩ | ⟨h, hc⟩ | h)
    · omega
    · omega
    · exact hgc h hc
    · exact hpc h hc
    · exact absurd h (by decide)
  unfold actOwnerLimits
  dsimp only
  rw [hok, orRefuse, if_neg hgo, hw, hv]
  rfl

end

/-- MODE 0 keeps a tally. -/
theorem limitTally_keep (t : Tally) (rate cap : Nat) : limitTally t 0 rate cap false = t := rfl

/-- Another MODE sets a tally's limit, rate and cap. -/
theorem limitTally_set (t : Tally) {mode : Nat} (h : mode ≠ 0) (rate cap : Nat) :
    limitTally t mode rate cap false = { t with limited := mode == 2, rate := rate, cap := cap } :=
  if_neg h

/-! ### OWNER_REATTACH (R499) -/

/-- The state when an owner is bound again to the issuing function: its slot in use, its streams back in the states they held. -/
def reattachedState (s : State) (i : Issuer) (o : Nat) (token : BitVec 128) : State :=
  let s1 := modOwner s o (fun w => { w with bound := [(i.port, fnKey i)], held := none, grace := none, denials := 0, token := token })
  let s2 := modSlot s1 o (fun k => { k with state := 1, port := i.port })
  forEach (streamIds s2) (fun s sid => modStream s sid (fun t =>
    if t.owner = o then { t with
      state := if t.state = 9 then t.heldState else t.state, port := i.port, pair := i.pairKey, fn := fnKey i }
    else t)) s2

/-- The owner as it stands when it is bound again. -/
theorem getOwner_reattachedState {s : State} {o : Nat} {w : Owner} (h : tblWf none s.owners = true) (hw : getOwner s o = some w)
    (i : Issuer) (token : BitVec 128) : getOwner (reattachedState s i o token) o = some { w with
      bound := [(i.port, fnKey i)], held := none, grace := none, denials := 0, token := token } := by
  unfold getOwner reattachedState
  dsimp only
  rw [forEach_keeps State.owners _ _ (fun s j => modStream_owners s j _), modSlot_owners, modOwner_owners, tblGet_set_self h, hw]
  rfl

/-- OWNER_REATTACH with the right token, under a live heartbeat, of an owner that the issuing port holds. -/
theorem actOwnerReattach_held {s : State} {i : Issuer} {owner : BitVec 8} {token : BitVec 128} {w : Owner}
    (harmed : (getFn s i.port (fnKey i)).hbArmed = true) (hlive : (getFn s i.port (fnKey i)).hbExpired = false)
    (hw : getOwner s owner.toNat = some w) (hheld : w.held = some i.port) (hrel : w.releasing = false)
    (htoken : tokenDigest token = (getSlot s owner.toNat).token) : actOwnerReattach i owner token s =
      complete (shareOwner (raiseEvent (reattachedState s i owner.toNat token) pgCx 0x0A
        (info [(1, owner.toNat), (1, ofBool i.port), (1, i.fn.toNat)])) owner.toNat) i stOk := by
  unfold actOwnerReattach
  dsimp only
  rw [if_neg (by simp [harmed, hlive]), hw]
  dsimp only
  rw [if_neg (by simp [hheld, hrel]), if_neg (not_not.mpr htoken)]
  rfl

/-! ### SCHED_SET, REPAIR_CTRL, MEMBERSHIP and FN_QUEUES (R150, R351, R453, R461) -/

/-- SCHED_SET with valid values. -/
theorem actSchedSet_valid {bf share : BitVec 8} (hbf : bf.toNat ≤ 1) (hshare : share ≠ 0) (hmax : share.toNat ≤ 64) (s : State)
    (i : Issuer) : actSchedSet i bf share s = complete { s with sq := { s.sq with
      backfill := bf == 1, prefillShare := share.toNat, backfillDropped := false } } i stOk :=
  if_neg (by simpa [hbf, hmax] using hshare)

/-- SCHED_SET waits for its boundary when the headframe's PF0 of Port A issues it, and is DENIED to any other function. -/
theorem execSchedSet_started {s : State} {i : Issuer} {bf share : BitVec 8} (hs : starts s i 0x33 [bf.toNat, share.toNat] = true) :
    execSchedSet i bf share s = .next (if fromHeadPf0 s i then stage s i (.schedSet i bf share) else complete s i stDenied) :=
  command_started hs _

/-- REPAIR_CTRL on the headframe tells the members and keeps the owner's setting for the next boundary. -/
theorem execRepairCtrl_head {s : State} {i : Issuer} {owner : BitVec 8} {on live : Bool}
    (hs : starts s i 0x25 [owner.toNat, ofBool on + 2 * ofBool live] = true) (hh : isHeadframe s = true)
    (hok : ownerRefusal s i owner.toNat = none) : execRepairCtrl i owner on live s = .next (complete
      { broadcast s 0x53 [owner.toNat, ofBool on, ofBool live] with sq := { s.sq with
        repairNext := s.sq.repairNext.filter (·.1 != owner.toNat) ++ [(owner.toNat, (on, live))] } } i stOk) := by
  refine (headCommand_head hs hh ..).trans (congrArg _ ?_)
  dsimp only
  rw [hok]
  rfl

section
variable {s : State} {i : Issuer} {buffer : BitVec 64} {size : BitVec 32} (hs : starts s i 0x34 [buffer.toNat, size.toNat] = true)
  (hh : forHere s i = true)

include hs hh

/-- MEMBERSHIP into a buffer that is too small. -/
theorem execMembership_small (h : size.toNat < 64 + 64 * s.ri.members.length) :
    execMembership i buffer size s = .next (complete s i stBadParam) :=
  (deviceCommand_here hs hh ..).trans (congrArg _ (if_pos h))

/-- MEMBERSHIP writes its report into the issuer's own host. -/
theorem execMembership_fits (h : 64 + 64 * s.ri.members.length ≤ size.toNat) (horigin : i.origin = 0xFF)
    (hdma : fnDma s i.port i.fn.toNat = true) : execMembership i buffer size s = .next (complete
      (hostSend s i.port (.hostWrite i.port i.fn.toNat buffer.toNat (membershipReport s))) i stOk
      (leBytes 1 s.ri.members.length ++ leBytes 1 s.ri.generation)) := by
  have hwrite : issuerWrite s i buffer.toNat (membershipReport s) =
      hostSend s i.port (.hostWrite i.port i.fn.toNat buffer.toNat (membershipReport s)) :=
    (if_pos horigin).trans (if_pos hdma)
  refine (deviceCommand_here hs hh ..).trans (congrArg _ ((if_neg (Nat.not_lt.mpr h)).trans ?_))
  rw [hwrite]

end

section
variable {s : State} {i : Issuer} {vf entry : BitVec 8} {pair : BitVec 16} (hh : forHere s i = true) (hfn : i.fn = 0) (hvf : vf ≠ 0)
  (hmax : vf.toNat ≤ 31) (hentry : entry.toNat ≤ 14) (hpair : pair.toNat ≤ 255) (hstate : (getQp s i.port pair.toNat).state = 0)

include hh hfn hvf hmax hentry hpair hstate

/-- FN_QUEUES maps an UNCONFIGURED pair that no function owns into a free entry. -/
theorem execFnQueues_map (hs : starts s i 0x38 [vf.toNat, entry.toNat, 1, pair.toNat] = true)
    (hfree : tblGet 0 (getFn s i.port vf.toNat).queueMap entry.toNat = 0) (hpf : (getQp s i.port pair.toNat).fn = 0) :
    execFnQueues i vf entry true pair s = .next (complete (modFn (modQp s i.port pair.toNat (fun q => { q with fn := vf.toNat }))
      i.port vf.toNat (fun f => { f with queueMap := tblSet 0 f.queueMap entry.toNat (pair.toNat + 1) })) i stOk) := by
  refine (deviceCommand_here (op := 0x38) (ps := [vf.toNat, entry.toNat, ofBool true, pair.toNat]) hs hh ..).trans ?_
  dsimp only
  rw [if_neg (not_not.mpr hfn), if_neg (by simpa [hmax, hentry, hpair] using hvf), if_pos rfl, if_neg (not_not.mpr hstate),
    if_neg (by simp [hfree, hpf])]

/-- FN_QUEUES takes a mapped UNCONFIGURED pair out. -/
theorem execFnQueues_unmap (hs : starts s i 0x38 [vf.toNat, entry.toNat, 0, pair.toNat] = true)
    (hmapped : tblGet 0 (getFn s i.port vf.toNat).queueMap entry.toNat = pair.toNat + 1) :
    execFnQueues i vf entry false pair s = .next (complete (modFn (modQp s i.port pair.toNat (fun q => { q with fn := 0 }))
      i.port vf.toNat (fun f => { f with queueMap := tblSet 0 f.queueMap entry.toNat 0 })) i stOk) := by
  refine (deviceCommand_here (op := 0x38) (ps := [vf.toNat, entry.toNat, ofBool false, pair.toNat]) hs hh ..).trans ?_
  dsimp only
  rw [if_neg (not_not.mpr hfn), if_neg (by simpa [hmax, hentry, hpair] using hvf), if_neg Bool.false_ne_true,
    if_neg (not_not.mpr hmapped), if_neg (not_not.mpr hstate)]

end

/-! ### Owners that refuse a command (R339, R347) -/

section
variable {s : State} {i : Issuer} {o : Nat} (horigin : i.origin = 0xFF) (ho : o ≠ 0)

include horigin ho

/-- An owner that does not exist is UNKNOWN. -/
theorem ownerRefusal_unknown (h : getOwner s o = none) : ownerRefusal s i o = some stUnknown := by
  simp [ownerRefusal, horigin, ho, h]

/-- An owner that is not bound to the issuing function is DENIED. -/
theorem ownerRefusal_denied {w : Owner} (hw : getOwner s o = some w) (hkey : w.keyGone = false)
    (hbound : w.bound.contains (i.port, i.fn.toNat) = false) : ownerRefusal s i o = some stDenied := by
  have hfn : fnKey i = i.fn.toNat := if_pos horigin
  unfold ownerRefusal
  rw [if_neg (by simp [horigin]), if_neg ho, hw]
  dsimp only
  rw [hkey, hfn, hbound]
  rfl

end

end Sys2Proof.Machine
end

section
/-! SUPPORT. Doorbells, the deletion of a pair, the fetch of a submission entry and a due signal (R449, R452-R460, R467, R468). -/

namespace Sys2Proof.Machine

/-- A pair's record reads back as changed. -/
theorem getQp_modQp {s : State} {port : Bool} (h : tblWf {} (getHp s port).qps = true) (p : Nat) (f : Qp → Qp) :
    getQp (modQp s port p f) port p = f (getQp s port p) := by
  unfold getQp modQp
  rw [getHp_modHp]
  exact tblGet_mod_self h p f

/-! ### Doorbells (R452-R455, R459) -/

section
variable {s : State} {port : Bool} {fn page p : Nat} (hopen : barsOpen s port = true) (hthawed : fnFrozen s port fn = false)
  (hreset : (getFn s port fn).inReset = false) (henabled : fnEnabled s port fn = true) (hpair : pairOf s port fn page = some p)
  (hfn : (getQp s port p).fn = fn) (hstate : (getQp s port p).state = 1)

include hopen hthawed hreset henabled hpair hfn hstate

/-- A doorbell reaches a READY pair that its usable function owns. -/
theorem doorbell_ready (act : Nat → Qp → State) : doorbell s port fn page act = act p (getQp s port p) := by
  unfold doorbell
  rw [if_neg (by simp [hopen]), if_neg (by simp [hthawed, hreset, henabled]), hpair]
  exact if_pos ⟨hfn, hstate⟩

variable {v : Nat}

/-- A tail below the depth is set. -/
theorem submitTail_below (h : v % 4096 < sqDepth (getQp s port p)) :
    submitTail s port fn page v = modQp s port p (fun q => { q with sqTail := v % 4096 }) :=
  (doorbell_ready hopen hthawed hreset henabled hpair hfn hstate _).trans (if_neg (Nat.not_le.mpr h))

/-- A head below the depth, not past the entries written, consumes the entries before it. -/
theorem complHead_within {adv : Nat} (hadv : (v % 4096 + cqDepth (getQp s port p) -
      (getQp s port p).cqHead % cqDepth (getQp s port p)) % cqDepth (getQp s port p) = adv)
    (h : v % 4096 < cqDepth (getQp s port p)) (htail : (getQp s port p).cqHead + adv ≤ (getQp s port p).cqTail) :
    complHead s port fn page v = modQp s port p (fun q => { q with cqHead := q.cqHead + adv, signalled := false }) := by
  subst hadv
  exact (doorbell_ready hopen hthawed hreset henabled hpair hfn hstate _).trans (if_neg (by omega))

end

/-! ### QP_CONFIG (R454) -/

/-- QP_CONFIG with SQ_LOG 0 deletes its function's pair. -/
theorem execQpConfig_delete {s : State} {port : Bool} {fn : BitVec 5} {d : List (BitVec 32)} {p : Nat}
    (hreset : (getFn s port fn.toNat).inReset = false) (hup : (getHp s port).up = true) (henabled : fnEnabled s port fn.toNat = true)
    (hpower : 5 ≤ s.power.state.code) (hentry : fn = 0 ∨ bits (d.getD 0 0).toNat 0 8 ≤ 14) (hsq : bits (d.getD 0 0).toNat 8 8 = 0)
    (hpair : pairOf s port fn.toNat (bits (d.getD 0 0).toNat 0 8) = some p) (hfn : (getQp s port p).fn = fn.toNat) :
    execQpConfig port fn d s = .next (emit (modQp s port p (fun q => { fn := q.fn, cfg := q.cfg + 1 }))
      (.doe port fn.toNat 0 (leBytes 4 0))) := by
  have hstatus : qpConfigStatus s port fn.toNat d = 0 := by
    have hentry' : fn.toNat = 0 ∨ bits (d.getD 0 0).toNat 0 8 ≤ 14 := hentry.imp_left (congrArg BitVec.toNat)
    unfold qpConfigStatus
    dsimp only
    rw [if_neg (by omega), if_neg (by omega), hpair]
    exact if_pos hfn
  have hconfig : configure s port fn.toNat d = modQp s port p (fun q => { fn := q.fn, cfg := q.cfg + 1 }) := by
    unfold configure
    dsimp only
    rw [hpair]
    dsimp only
    rw [hsq]
    rfl
  unfold execQpConfig
  dsimp only
  rw [if_neg (by simp [hreset, hup, henabled]), hstatus, if_pos rfl, hconfig]

/-! ### SUBMISSION_FETCH (R449, R457, R460, R464) -/

/-- The command that a submission entry of a pair spells (R457). -/
def entryCommand (s : State) (port : Bool) (p : Nat) (e : List Byte) : Fetched :=
  { port := port, fn := (getQp s port p).fn, pair := p, cid := leAt e 2 2, cfg := (getQp s port p).cfg, opcode := byteAt e 0
    owner := byteAt e 4, device := byteAt e 5, fence := bit (byteAt e 1) 0, params := (padTo 64 e).drop 8, fetchedAt := sclkRtb s }

/-- Whether an entry is refused depends on the ring alone. -/
theorem entryRefusal_of_ri {s t : State} (h : t.ri = s.ri) (port : Bool) (fn : Nat) (e : List Byte) :
    entryRefusal t port fn e = entryRefusal s port fn e := by
  unfold entryRefusal isHeadframe ringCount
  rw [h]

/-- An entry that is not refused is fetched when the pair, its function, the firmware and the completion buffer allow it. -/
theorem execSubmissionFetch_taken {s : State} {port : Bool} {pair : BitVec 8} {e : List Byte} {q : Qp}
    (hq : getQp s port pair.toNat = q) (hstate : q.state = 1) (htail : q.sqHead ≠ q.sqTail) (hfree : cqFree q ≠ 0)
    (hdma : fnDma s port q.fn = true) (hopen : barsOpen s port = true) (hfw : firmwareRuns s = true) (hpower : 5 ≤ s.power.state.code)
    (hen : (getHdr s (pgHp port)).en = true) (hroom : hostReadsOut s port + 64 ≤ 262144) (hok : entryRefusal s port q.fn e = none) :
    execSubmissionFetch port pair (some e) s = .next (modHp
      (modQp s port pair.toNat (fun q => { q with sqHead := (q.sqHead + 1) % sqDepth q, reserved := q.reserved + 1 })) port
      (fun h => { h with fetched := h.fetched ++ [entryCommand s port pair.toNat e] })) := by
  subst hq
  have hgo : ¬((getQp s port pair.toNat).state ≠ 1 ∨ (getQp s port pair.toNat).sqHead = (getQp s port pair.toNat).sqTail ∨
      cqFree (getQp s port pair.toNat) = 0 ∨ (!fnDma s port (getQp s port pair.toNat).fn) = true ∨ (!barsOpen s port) = true ∨
      (!firmwareRuns s) = true ∨ s.power.state.code < 5 ∨ (!(getHdr s (pgHp port)).en) = true ∨
      readBuffer < hostReadsOut s port + 64) := by
    simp [hstate, htail, hfree, hdma, hopen, hfw, hpower, hen, readBuffer, hroom]
  unfold execSubmissionFetch
  dsimp only
  rw [if_neg hgo, entryRefusal_of_ri ((modHp_ri ..).trans (modQp_ri ..)), hok]
  rfl

/-- The fetched commands of a port after one more. -/
theorem fetched_modHp_append (s : State) (port : Bool) (p : Nat) (g : Qp → Qp) (f : Fetched) :
    (getHp (modHp (modQp s port p g) port (fun h => { h with fetched := h.fetched ++ [f] })) port).fetched =
      (getHp s port).fetched ++ [f] := by
  unfold modQp
  rw [getHp_modHp, getHp_modHp]

/-- A pair's record after a command more is fetched. -/
theorem getQp_modHp_fetched (s : State) (port : Bool) (p : Nat) (g : List Fetched → List Fetched) :
    getQp (modHp s port (fun h => { h with fetched := g h.fetched })) port p = getQp s port p := by
  unfold getQp
  rw [getHp_modHp]

/-! ### MSIX_SIGNAL (R459) -/

/-- A signal whose coalescing delay has passed goes out on a link that is up. -/
theorem execMsixSignal_due {s : State} {port : Bool} {pair : BitVec 8} {q : Qp} {n : Nat} (hq : getQp s port pair.toNat = q)
    (hat : q.signalAt = some n) (hdue : n ≤ s.clock) (hdma : fnDma s port q.fn = true) (hnew : q.signalled = false)
    (hup : (getHp s port).up = true) : execMsixSignal port pair s = .next (emit
      (modQp s port pair.toNat (fun q => { q with signalled := true, signalAt := none })) (.msix port q.fn q.vector)) := by
  subst hq
  have hlink : (getHp (modQp s port pair.toNat (fun q => { q with signalled := true, signalAt := none })) port).up = true := by
    unfold modQp
    rw [getHp_modHp]
    exact hup
  unfold execMsixSignal
  dsimp only
  rw [hat]
  dsimp only
  rw [if_pos ⟨.inl hdue, hdma⟩, qpSignal, if_neg (by simp [hnew]), hostSend, if_pos hlink]

end Sys2Proof.Machine

open Sys2Proof Sys2Proof.Machine

/-- Settles O43: where each command acts by the rules of its kind of command, what it does by the rule of its action, and the queues by
the rules of doorbells, QP_CONFIG, the fetch and the signal. An action is its command with no tokens held for it (`act`). -/
theorem ownerAndDeviceCommands : Obligations.OwnerAndDeviceCommands := by
  refine ⟨fun s i => execNopCommand_here,
    fun s i f => execNopCommand_elsewhere,
    fun s i owner hs hh => boundaryCommand_member hs hh _,
    fun s i f dst kind op ps hf => ⟨fun h => sendOn_sent hf h dst kind op ps, fun h => sendOn_unsent hf h dst kind op ps⟩,
    fun s i cmd held h => stage_new h cmd held,
    fun s d => rfl,
    fun s i ok hs hh => boundaryCommand_head hs hh _,
    fun s i => ⟨fun h => actOwnerCreate_none h i true, fun o h hke => actOwnerCreate_free h hke i⟩,
    ?slot,
    fun s i owner hs hh => boundaryCommand_head hs hh _,
    fun s i owner gm pm wt fill gr gc pr pc report hs hh => boundaryCommand_head hs hh _,
    fun s i owner target hh => ⟨fun hs => next_of_ite (execOwnerBind_head hh hs), fun hs => next_of_ite (execOwnerUnbind_head hh hs)⟩,
    ?held,
    fun t mode rate cap => ⟨limitTally_keep t rate cap, fun h => limitTally_set t h rate cap⟩,
    fun s i owner token hs hh => boundaryCommand_head hs hh _,
    ?reattach,
    fun s i bf share hs => next_of_ite (execSchedSet_started hs),
    fun s i bf share hbf hshare hmax => actSchedSet_valid hbf hshare hmax s i,
    fun s i owner on live => execRepairCtrl_head,
    fun s i buffer size hs hh => ⟨execMembership_small hs hh, execMembership_fits hs hh⟩,
    ?queues,
    fun s i o horigin ho => ⟨ownerRefusal_unknown horigin ho, fun w => ownerRefusal_denied horigin ho⟩,
    ?doorbells, ?config, ?fetch, ?signal⟩
  case slot =>
    intro s o port d hwf k
    have hk : k = _ := getSlot_fillSlot hwf o port d
    rw [hk]
    exact ⟨rfl, rfl, rfl, rfl, rfl, rfl, rfl, fun p => getSlot_fillSlot_ne s port d⟩
  case held =>
    intro s i owner w o hok ho hw
    exact ⟨actOwnerRelease_held hok ho hw, fun target => ⟨actOwnerBind_live hok ho, actOwnerUnbind_bound hok ho hw⟩,
      fun gm pm wt gr gc pr pc hgm hpm hgc hpc => actOwnerLimits_valid hok hw hgm hpm hgc hpc rfl⟩
  case reattach =>
    intro s i owner token w o f harmed hlive hw hheld hrel htoken
    exact ⟨_, actOwnerReattach_held harmed hlive hw hheld hrel htoken, fun hwf => getOwner_reattachedState hwf hw i token⟩
  case queues =>
    intro s i vf entry pair hh hfn hvf hmax hentry hpair hstate
    exact ⟨fun hfree hpf hs => execFnQueues_map hh hfn hvf hmax hentry hpair hstate hs hfree hpf,
      fun hmapped hs => execFnQueues_unmap hh hfn hvf hmax hentry hpair hstate hs hmapped⟩
  case doorbells =>
    intro s port fn page v p q x adv hopen hthawed hreset henabled hpair hfn hstate hwf
    have hsubmit := submitTail_below (v := v.toNat) hopen hthawed hreset henabled hpair hfn hstate
    have hconsume := complHead_within (v := v.toNat) hopen hthawed hreset henabled hpair hfn hstate (adv := adv) rfl
    exact ⟨fun h => ⟨_, congrArg Host.Outcome.next (hsubmit h), getQp_modQp hwf p _⟩,
      fun h htail => ⟨_, congrArg Host.Outcome.next (hconsume h htail), getQp_modQp hwf p _⟩⟩
  case config =>
    intro s port fn d p hreset hup henabled hpower hwf hentry hsq hpair hfn
    have hp := getQp_modQp hwf p (fun q => { fn := q.fn, cfg := q.cfg + 1 })
    exact ⟨_, execQpConfig_delete hreset hup henabled hpower hentry hsq hpair hfn, congrArg Qp.state hp, congrArg Qp.cfg hp⟩
  case fetch =>
    intro s port pair e q hstate htail hfree hdma hopen hfw hpower hen hroom hok hwf
    refine ⟨_, _, execSubmissionFetch_taken rfl hstate htail hfree hdma hopen hfw hpower hen hroom hok, fetched_modHp_append ..,
      rfl, rfl, rfl, rfl, rfl, ?_⟩
    rw [getQp_modHp_fetched _ port pair.toNat (· ++ [_]), getQp_modQp hwf]
  case signal =>
    intro s port pair n q hat hdue hdma hnew hup hwf
    refine ⟨_, execMsixSignal_due rfl hat hdue hdma hnew hup, getQp_modQp hwf pair.toNat _, ?_⟩
    rw [emit_out, modQp_out]
end

section
/-! SUPPORT. LOAD_WEIGHTS read without errors and answered, its tiles held, its start with the jobs it enters, and its completion
(R157-R163, R170, R171, R174, R179-R181). -/

namespace Sys2Proof.Machine

/-! ### The list read, checked and answered (R157-R163) -/

/-- The matrix entry that stands for one the list does not hold. -/
def absentMatrix : MatrixEntry := { k := 0, n := 0, scales := 0, tag := 0, seam := 0, clean := true }

/-- The entries of a table of a list; none is read of a table that does not lie in the owner's memory (R162). -/
def tableEntries (s : State) (o a n : Nat) : List (List Byte) := if mayRead s o (a, 32 * n) then entries32 s o a n else []

/-- The first entries of the units that a list names: the lower tile of each seam pair, and each single tile. -/
def unitHeads (ts : List TileEntry) (bs : List Binding) : List (Nat × Nat × Bool) :=
  ((ts.zip bs).filter (fun x => !(x.2.seam && x.1.logical % 2 == 1))).map (fun x => (x.1.group, x.1.logical, x.2.seam))

/-- The answer to a list that has been read, `code` being that of the first check that fails (R162, R163, R174, R181). -/
def answerList (s : State) (i : Issuer) (o mode : Nat) (keep : Bool) (ts : List TileEntry) (bs : List Binding) (code : Nat) : State :=
  let es := ts.map (fun t => (t.group, t.logical))
  if code ≠ 0 then complete s i code
  else if mode = 1 then acceptLive s i o keep es bs (unitHeads ts bs)
  else
    let rc := if mode = 2 then resumeCode s o ts bs else 0
    if rc ≠ 0 then complete s i rc else acceptLoad s i o mode keep es bs []

section
variable {s : State} {i : Issuer} {o mode : Nat} {keep : Bool} {ts : List TileEntry} {bs : List Binding} {code : Nat}

theorem answerList_failing (h : code ≠ 0) : answerList s i o mode keep ts bs code = complete s i code := if_pos h

theorem answerList_live (h : code = 0) (hmode : mode = 1) : answerList s i o mode keep ts bs code =
    acceptLive s i o keep (ts.map (fun t => (t.group, t.logical))) bs (unitHeads ts bs) := by
  rw [answerList, if_neg (not_not_intro h), if_pos hmode]

/-- A RESUME whose records disagree completes with their code (R181). -/
theorem answerList_disagreeing (h : code = 0) (hmode : mode = 2) (hrc : resumeCode s o ts bs ≠ 0) :
    answerList s i o mode keep ts bs code = complete s i (resumeCode s o ts bs) := by
  rw [answerList, if_neg (not_not_intro h), if_neg (by omega), if_pos hmode, if_pos hrc]

theorem answerList_waiting (h : code = 0) (hmode : mode = 0 ∨ mode = 3 ∨ mode = 2 ∧ resumeCode s o ts bs = 0) :
    answerList s i o mode keep ts bs code = acceptLoad s i o mode keep (ts.map (fun t => (t.group, t.logical))) bs [] := by
  have hrc : (if mode = 2 then resumeCode s o ts bs else 0) = 0 := by
    rcases hmode with rfl | rfl | ⟨rfl, hr⟩
    · rfl
    · rfl
    · exact hr
  rw [answerList, if_neg (not_not_intro h), if_neg (by omega), hrc]
  rfl

end

/-- Both tables lie in the owner's memory when none was left out of those that do. -/
theorem filter_length_beq_all {α : Type} (p : α → Bool) (l : List α) : ((l.filter p).length == l.length) = l.all p := by
  rw [Bool.eq_iff_iff, beq_iff_eq, List.length_filter_eq_length_iff, List.all_eq_true]

section
variable {s : State} {i : Issuer} {owner : BitVec 8} {list : BitVec 64} {h : List Byte}
  (hs : starts s i 0x24 [owner.toNat, list.toNat] = true) (hh : forHere s i = true) (ho : ownerRefusal s i owner.toNat = none)

include hs hh ho

/-- A list whose header does not lie in the owner's memory (R157). -/
theorem execLoadWeights_closed (hread : mayRead s owner.toNat (list.toNat, 64) = false) :
    execLoadWeights i owner list [] s = .next (complete s i 0x11) := by
  rw [execLoadWeights, deviceCommand_here hs hh, ho]
  simp only [orRefuse, hread, Bool.not_false, if_true]

variable (hp : s.ms.poisoned = []) (hl : s.ms.latent = []) (hread : mayRead s owner.toNat (list.toNat, 64) = true)
  (hhead : h = readUnder s (stackKey s owner.toNat) list.toNat 64)

include hp hl hread hhead

/-- A list whose header is wrong (R158, R159). -/
theorem execLoadWeights_badHeader (hok : loadHeaderOk h = false) :
    execLoadWeights i owner list [] s = .next (complete s i 0x10) := by
  rw [execLoadWeights, deviceCommand_here hs hh, ho]
  simp only [orRefuse, hread, eccRead_clean hp hl, poisonedIn_clean hp, ← hhead, hok, Bool.not_true, Bool.not_false,
    Bool.false_eq_true, if_false, if_true]

/-- A list with a right header is read whole, and answered by what its checks find (R160-R163). -/
theorem execLoadWeights_read {mode mc tc code : Nat} {keep : Bool} {ms : List MatrixEntry} {ts : List TileEntry} {bs : List Binding}
    (hok : loadHeaderOk h = true) (hmode : mode = byteAt h 6) (hkeep : keep = bit (byteAt h 7) 0)
    (hmc : mc = leAt h 8 4) (htc : tc = leAt h 12 4)
    (hms : ms = (tableEntries s owner.toNat (leAt h 16 8) mc).map matrixOf)
    (hts : ts = (tableEntries s owner.toNat (leAt h 24 8) tc).map tileEntryOf)
    (hbs : bs = ts.map (fun e => if mode = 3 then { owner := owner.toNat }
      else bindingOf s owner.toNat (keep || mode == 2) (ms.getD e.matrix absentMatrix) e))
    (hcode : code = loadCode s owner.toNat mode ms ts bs
      (((if mc = 0 then [] else [(leAt h 16 8, 32 * mc)]) ++ [(leAt h 24 8, 32 * tc)]).all (mayRead s owner.toNat))) :
    execLoadWeights i owner list [] s = .next (answerList s i owner.toNat mode keep ts bs code) := by
  have hclean (rs : List (Nat × Nat)) : rs.any (fun _ => false) = false := List.any_eq_false.mpr (by simp)
  rw [execLoadWeights, deviceCommand_here hs hh, ho]
  simp only [orRefuse, hread, eccRead_clean hp hl, poisonedIn_clean hp, ← hhead, hok, Bool.not_true, Bool.false_eq_true, if_false,
    forEach_eccRead_clean hp hl, hclean, filter_length_beq_all]
  subst hcode hbs hts hms htc hmc hkeep hmode
  rfl

end

/-! ### Commands that wait, with their targets (R163, R174, R176) -/

/-- A command that waits holds each of its tiles. -/
theorem tileHeld_acceptLoad {es : List (Nat × Nat)} {e : Nat × Nat} (he : e ∈ es) (s : State) (i : Issuer) (o mode : Nat)
    (keep : Bool) (bs : List Binding) (tg : List Nat) : tileHeld (acceptLoad s i o mode keep es bs tg) e.1 e.2 = true := by
  unfold tileHeld acceptLoad
  rw [List.any_append, Bool.or_eq_true]
  exact .inr (List.any_eq_true.mpr ⟨_, List.mem_singleton_self _, List.contains_iff_mem.mpr he⟩)

section
variable {s : State} {us : List (Nat × Nat × Bool)} (i : Issuer) (o : Nat) (keep : Bool) (es : List (Nat × Nat)) (bs : List Binding)

/-- A LIVE load with too few free targets is refused. -/
theorem acceptLive_noTargets (h : liveTargets s (us.filter (·.2.2) ++ us.filter (fun u => !u.2.2)) = none) :
    acceptLive s i o keep es bs us = complete s i 0x19 := by
  rw [acceptLive, h]

/-- A LIVE load with a target for each unit waits. -/
theorem acceptLive_targets {t : State} {ps : List ((Nat × Nat) × Nat)}
    (h : liveTargets s (us.filter (·.2.2) ++ us.filter (fun u => !u.2.2)) = some (t, ps)) : acceptLive s i o keep es bs us =
      acceptLoad t i o 1 keep es bs (es.map (fun e => ((ps.find? (fun p => p.1 == e)).map (·.2)).getD 0)) := by
  rw [acceptLive, h]

end

/-! ### Start (R163, R170, R174, R181) -/

/-- The commands that wait. -/
theorem mem_waiting {s : State} {x : Load} : x ∈ s.loads.filter (fun x => !x.started) ↔ x ∈ s.loads ∧ x.started = false := by
  rw [List.mem_filter, Bool.not_eq_true']

/-- The next command is the first that waits, or the first of Port A that came with it. -/
theorem nextLoad_cases {s : State} {x : Load} (h : nextLoad s = some x) :
    (x ∈ s.loads ∧ x.started = false ∧ x.port = false) ∨
    (x ∈ s.loads ∧ x.started = false ∧ ∀ y ∈ s.loads, y.started = false → y.came = x.came → y.port = true) := by
  unfold nextLoad at h
  dsimp only at h
  split at h
  · cases h
  · next head rest hwaiting =>
    rcases hfind : (s.loads.filter (fun x => !x.started)).find? (fun y => y.came == head.came && !y.port) with _ | y
    · rw [hfind] at h
      obtain rfl : head = x := Option.some.inj h
      obtain ⟨hmem, hst⟩ := mem_waiting.mp (hwaiting ▸ List.mem_cons_self : head ∈ s.loads.filter (fun x => !x.started))
      refine .inr ⟨hmem, hst, fun y hy hyst hcame => ?_⟩
      have hnot := List.find?_eq_none.mp hfind y (mem_waiting.mpr ⟨hy, hyst⟩)
      simpa [hcame] using hnot
    · rw [hfind] at h
      obtain rfl : y = x := Option.some.inj h
      obtain ⟨hmem, hst⟩ := mem_waiting.mp (List.mem_of_find?_eq_some hfind)
      have hport := List.find?_some hfind
      rw [Bool.and_eq_true, Bool.not_eq_true'] at hport
      exact .inl ⟨hmem, hst, hport.2⟩

/-- With fewer than four commands in progress the next one starts and its entries enter their jobs in order. -/
theorem execLoadWeightsStart_next {s : State} {x : Load} (hroom : (s.loads.filter (·.started)).length < 4) (hx : nextLoad s = some x) :
    execLoadWeightsStart s = .next (startJobs (forEach (indexed (x.entries.zip x.binds)) (enterJob x)
      (modLoad s x.no (fun x => { x with started := true })))) := by
  unfold execLoadWeightsStart
  rw [if_neg (Nat.not_le.mpr hroom), hx]

/-- With four in progress or none waiting nothing starts. -/
theorem execLoadWeightsStart_none {s : State} (h : 4 ≤ (s.loads.filter (·.started)).length ∨ nextLoad s = none) :
    execLoadWeightsStart s = .next s := by
  unfold execLoadWeightsStart
  rcases h with hfull | hnone
  · rw [if_pos hfull]
  · rw [hnone, ite_self]

/-- An entry of a command enters its job: its logical tile is to be programmed at the physical tile `tile`. -/
def enterTile (s : State) (x : Load) (g l tile : Nat) (b : Binding) : State :=
  { s with jobs := s.jobs ++ [{ no := x.no, kind := x.mode, group := g, logical := l, tile := tile, bind := b }] }

section
variable {s : State} {x : Load} {k g l : Nat} {b : Binding}

/-- An entry programs its tile unless an unsealed DIRECT load removes a record first, the tile of an ERASE or of a DIRECT load is
unavailable, the DIRECT entry is a half of a seam, or the tile of a RESUME is retired (R170, R171, R180). -/
theorem enterJob_programs (hseal : x.mode = 0 → x.isSeal = true) (hseam : x.mode = 0 → b.seam = false)
    (hhere : x.mode = 0 ∨ x.mode = 3 → (getTg s g).unavailable.contains l = false)
    (hstate : x.mode = 2 → retiredState (getTile s (physicalOf s g l)).state = false) :
    enterJob x s (k, (g, l), b) = enterTile s x g l (if x.mode = 1 then x.targets.getD k 0 else physicalOf s g l) b := by
  have hkept : ¬(x.mode = 0 ∧ (!x.isSeal) = true) := fun ⟨h, hno⟩ => by simp [hseal h] at hno
  have herase : ¬(x.mode = 3 ∧ (getTg s g).unavailable.contains l = true) :=
    fun ⟨h, hlost⟩ => Bool.eq_false_iff.mp (hhere (.inr h)) hlost
  have hresume : ¬(x.mode = 2 ∧ retiredState (getTile s (physicalOf s g l)).state = true) :=
    fun ⟨h, hretired⟩ => Bool.eq_false_iff.mp (hstate h) hretired
  have hdirect : ¬(x.mode = 0 ∧ ((getTg s g).unavailable.contains l = true ∨
      b.seam = true ∧ (getTg s g).unavailable.contains (if l % 2 = 0 then l + 1 else l - 1) = true)) := by
    rintro ⟨h, hlost | ⟨hhalf, -⟩⟩
    · exact Bool.eq_false_iff.mp (hhere (.inl h)) hlost
    · exact Bool.eq_false_iff.mp (hseam h) hhalf
  unfold enterJob
  dsimp only
  rw [if_neg hkept, if_neg herase, if_neg hresume, if_neg hdirect]
  rfl

/-- A LIVE entry programs its target. -/
theorem enterJob_live (hmode : x.mode = 1) : enterJob x s (k, (g, l), b) = enterTile s x g l (x.targets.getD k 0) b := by
  simp [enterJob_programs, hmode]

/-- A RESUME entry whose physical tile is not retired programs it. -/
theorem enterJob_resume (hmode : x.mode = 2) (hstate : retiredState (getTile s (physicalOf s g l)).state = false) :
    enterJob x s (k, (g, l), b) = enterTile s x g l (physicalOf s g l) b := by
  simp [enterJob_programs, hmode, hstate]

/-- An ERASE entry whose tile is available programs its physical tile. -/
theorem enterJob_erase (hmode : x.mode = 3) (hhere : (getTg s g).unavailable.contains l = false) :
    enterJob x s (k, (g, l), b) = enterTile s x g l (physicalOf s g l) b := by
  simp [enterJob_programs, hmode, hhere, -List.contains_eq_mem]

/-- An entry of a sealed DIRECT load whose tile is available and no half of a seam programs its physical tile. -/
theorem enterJob_direct (hmode : x.mode = 0) (hseal : x.isSeal = true) (hhere : (getTg s g).unavailable.contains l = false)
    (hseam : b.seam = false) : enterJob x s (k, (g, l), b) = enterTile s x g l (physicalOf s g l) b := by
  simp [enterJob_programs, hmode, hseal, hhere, hseam, -List.contains_eq_mem]

end

/-! ### Completion (R162, R170, R179) -/

/-- A started command with nothing left to do completes with its result and counts; the waiting tiles are tried again. -/
theorem execLoadWeightsComplete_result {s u : State} {no : BitVec 32} {x : Load}
    (hx : s.loads.find? (fun x => x.no == no.toNat && x.started) = some x) (hdone : loadDone s x = true)
    (hu : u = if x.keyGone then giveUp s (fun j => j.no == x.no) else s) :
    execLoadWeightsComplete no s = .next (complete (startJobs { u with loads := u.loads.filter (fun y => y.no != x.no) })
      (issuerOf x.port { fn := x.fn, pair := x.pair, cid := x.cid })
      (if x.keyGone then 0x20 else if x.unavailable ≠ 0 then 2 else if x.relieved ≠ 0 then 1 else 0)
      (leBytes 4 x.programmed ++ leBytes 4 x.relieved ++ leBytes 4 x.unavailable)) := by
  unfold execLoadWeightsComplete
  rw [hx]
  dsimp only
  rw [if_neg (by simp [hdone]), hu]

end Sys2Proof.Machine

open Sys2Proof.Machine

/-- Settles O35: the answer to a list by what reading and checking it finds (`answerList`), then the rules of waiting, start, entry and
completion. -/
theorem loadWeightsRuns : Obligations.LoadWeightsRuns := by
  refine ⟨?_, fun s i o mode keep es bs tg => ⟨fun e he => tileHeld_acceptLoad he s i o mode keep bs tg, rfl, rfl⟩,
    fun s i o keep es bs us => ⟨acceptLive_noTargets i o keep es bs, fun t ps => acceptLive_targets i o keep es bs⟩, ?_,
    fun s x => execLoadWeightsStart_next, fun s => execLoadWeightsStart_none,
    fun s x k g l b => ⟨enterJob_live, enterJob_resume, enterJob_erase, enterJob_direct⟩,
    fun s no x hx hdone => execLoadWeightsComplete_result hx hdone rfl⟩
  · intro s i owner list o a h mode keep mc tc tables entries ms ts none1 bs es heads code hs hh ho hp hl
    refine ⟨execLoadWeights_closed hs hh ho, fun hread => execLoadWeights_badHeader hs hh ho hp hl hread rfl, fun hread hok => ?_⟩
    have hanswer : execLoadWeights i owner list [] s = .next (answerList s i o mode keep ts bs code) :=
      execLoadWeights_read hs hh ho hp hl hread rfl hok rfl rfl rfl rfl rfl rfl rfl rfl
    exact ⟨fun hcode => hanswer.trans (congrArg _ (answerList_failing hcode)),
      fun hcode hmode => hanswer.trans (congrArg _ (answerList_live hcode hmode)),
      fun hcode hmode hrc => hanswer.trans (congrArg _ (answerList_disagreeing hcode hmode hrc)),
      fun hcode hmode => hanswer.trans (congrArg _ (answerList_waiting hcode hmode))⟩
  · intro s x hx
    rcases nextLoad_cases hx with ⟨hmem, hst, hport⟩ | ⟨hmem, hst, hlate⟩
    · exact ⟨hmem, hst, fun _ _ _ _ _ => hport⟩
    · exact ⟨hmem, hst, fun y hy hyst hcame hyport => absurd (hlate y hy hyst hcame) (by simp [hyport])⟩
end

section
/-! SUPPORT. What an access of one scratchpad row may do, and the checks that a remote access passes (R200, R204, R207, R208, R211, R220,
R230, R241, R256). -/

namespace Sys2Proof.Machine

/-! ### Range (R200) -/

/-- Spans that leave the scratchpad. -/
theorem rangeCheck_outside {a n : Nat} (h : 0x60000 < a + n) (t how : Nat) :
    rangeCheck [(a, n)] t how = some (.bad 0x14 a (slotDetail t 0xFF 0xF how)) := by
  simp [rangeCheck, scratchSize, h]

/-- Spans within the scratchpad pass the range check, and no others do. -/
theorem rangeCheck_eq_none {a n t how : Nat} : rangeCheck [(a, n)] t how = none ↔ a + n ≤ 0x60000 := by
  rw [rangeCheck, Option.map_eq_none_iff, List.find?_eq_none]
  simp only [List.mem_singleton, forall_eq, decide_eq_true_eq, Nat.not_lt]
  rfl

/-! ### One row (R204, R207, R208) -/

section
variable {k : Core} {c a n : Nat} (hn : 0 < n) (hrow : a % 64 + n ≤ 64)

include hn hrow

/-- A span within one row touches that row alone. -/
theorem spanRows_of_one_row : spanRows [(a, n)] = [(a, a / 64)] := by
  have hone : (a + n - 1) / 64 - a / 64 = 0 := by omega
  have hfirst : max a (64 * (a / 64)) = a := by omega
  simp [spanRows, upTo, hone, hfirst, Nat.ne_of_gt hn]

variable (hin : a + n ≤ 0x60000)

include hin

/-- Loads and stores of a row that no valid slot covers. -/
theorem access_of_no_slot (hslot : k.slotAt (a / 64) = none) : loadAccess k c [(a, n)] false = .go ∧
    loadAccess k c [(a, n)] true = .bad 0x13 a (slotDetail c 0xFF 0xF 2) ∧ storeAccess k c [(a, n)] = .go := by
  simp [loadAccess, storeAccess, rangeCheck_eq_none.mpr hin, spanRows_of_one_row hn hrow, hslot, firstSome]

variable {i : Nat} {d : SlotDesc} (hslot : k.slotAt (a / 64) = some (i, d))

include hslot

/-- Loads and stores of a row of a slot that its core finds FULL. -/
theorem access_of_full_slot (hfull : d.tagFull = true) : loadAccess k c [(a, n)] false = .go ∧ loadAccess k c [(a, n)] true = .go ∧
    storeAccess k c [(a, n)] = .bad 0x11 a (slotDetail c i 1 3) := by
  simp [loadAccess, storeAccess, rangeCheck_eq_none.mpr hin, spanRows_of_one_row hn hrow, hslot, firstSome, hfull]

/-- Loads and stores of a row of a slot that its core finds EMPTY. -/
theorem access_of_empty_slot (hempty : d.tagFull = false) : loadAccess k c [(a, n)] false = .bad 0x12 a (slotDetail c i 0 1) ∧
    loadAccess k c [(a, n)] true = .hold i ∧ storeAccess k c [(a, n)] = .go := by
  simp [loadAccess, storeAccess, rangeCheck_eq_none.mpr hin, spanRows_of_one_row hn hrow, hslot, firstSome, hempty]

end

/-- Loads and stores beyond the scratchpad. -/
theorem access_outside {a n : Nat} (k : Core) (c : Nat) (h : 0x60000 < a + n) :
    loadAccess k c [(a, n)] false = .bad 0x14 a (slotDetail c 0xFF 0xF 1) ∧
      loadAccess k c [(a, n)] true = .bad 0x14 a (slotDetail c 0xFF 0xF 2) ∧
      storeAccess k c [(a, n)] = .bad 0x14 a (slotDetail c 0xFF 0xF 3) := by
  simp [loadAccess, storeAccess, rangeCheck_outside h]

/-! ### Remote access (R211, R230, R241) -/

/-- The owner that PAGE_OWNER names is checked against the issuing core's page (R211). -/
theorem ownerGuard_iff {en valid : Bool} {o p : Nat} :
    ¬(!en || (valid && o != p)) = true ↔ en = true ∧ (valid = true → o = p) := by
  cases en <;> cases valid <;> simp

/-- A remote access within the scratchpad that names a core is stopped by that core's page alone. -/
theorem remoteFault_eq_none_of_core {s : State} {c a n how : Nat} {t : BitVec 64} (halign : a % 64 = 0) (hin : a + n ≤ 0x60000)
    (ht : t.toNat ≤ 255) : remoteFault s c a n how t = none ↔ ccEnabled s t.toNat = true ∧
      ((getHdr s (83 + t.toNat)).ownerValid = true → (getHdr s (83 + t.toNat)).ownerId = pageOwnerId s (83 + c)) := by
  unfold remoteFault
  dsimp only
  rw [if_neg (not_not.mpr halign), rangeCheck_eq_none.mpr hin]
  dsimp only
  rw [if_neg (by omega), ite_eq_right_iff]
  simp only [reduceCtorEq, imp_false]
  exact ownerGuard_iff

/-- A remote access that goes out is aligned to a row, lies in the scratchpad and names a core. -/
theorem shape_of_remoteFault_eq_none {s : State} {c a n how : Nat} {t : BitVec 64} (h : remoteFault s c a n how t = none) :
    a % 64 = 0 ∧ a + n ≤ 0x60000 ∧ t.toNat ≤ 255 := by
  unfold remoteFault at h
  dsimp only at h
  split at h
  · exact absurd h (by simp)
  next halign =>
    split at h
    · exact absurd h (by simp)
    next hin =>
      split at h
      · exact absurd h (by simp)
      next ht => exact ⟨not_not.mp halign, rangeCheck_eq_none.mp hin, by omega⟩

end Sys2Proof.Machine

open Sys2Proof Sys2Proof.Machine

/-- Settles O15: the span touches one row, and the state of that row's slot decides. -/
theorem scratchpadAccessRules : Obligations.ScratchpadAccessRules := by
  intro k c a n hn hrow
  refine ⟨access_outside k c, fun hin => ⟨access_of_no_slot hn hrow hin, fun i d hslot => ⟨fun hfull => ?_, fun hempty => ?_⟩⟩⟩
  · exact access_of_full_slot hn hrow hin hslot (by simpa [SlotDesc.tagFull] using hfull)
  · exact access_of_empty_slot hn hrow hin hslot (by simpa [SlotDesc.tagFull] using hempty)

/-- Settles O17: alignment, range and core number come first, and the target's page decides the rest. -/
theorem remoteAccessChecks : Obligations.RemoteAccessChecks := by
  intro s c a n how t
  constructor
  · intro h
    obtain ⟨halign, hin, ht⟩ := shape_of_remoteFault_eq_none h
    exact ⟨halign, hin, ht, (remoteFault_eq_none_of_core halign hin ht).mp h⟩
  · rintro ⟨halign, hin, ht, hpage⟩
    exact (remoteFault_eq_none_of_core halign hin ht).mpr hpage
end

section
/-! SUPPORT. Branches and waits of a core, and how its launches begin and end (R206, R213, R215, R218, R222, R228, R231, R233, R234, R254,
R273). -/

namespace Sys2Proof.Machine

/-- A ready instruction answers what its effect makes of the state. -/
theorem issue_next {s t : State} {c : BitVec 8} {w : BitVec 64} {f : State → State} (h : ready s c w) (hf : f s = t) :
    (.next (issue s c.toNat w f) : Out) = .next t := by
  rw [issue_ready h, hf]

/-! ### Branches (R231) -/

/-- A branch freezes its core for a target above 8,191, taken or not, and else goes there exactly if it is taken. -/
theorem branchBody_rules (s : State) (c : Nat) {w : BitVec 64} {v : Nat} {b : Bool} {taken : Prop} (hw : wImm w = v)
    (hb : b = true ↔ taken) :
    (8191 < v → branchBody s c w b = freezeCore s c 0x21 v) ∧
    (v ≤ 8191 → (taken → branchBody s c w b = modCore s c (fun k => { k with pc := v })) ∧
      (¬ taken → branchBody s c w b = advance s c)) := by
  subst hw
  unfold branchBody
  refine ⟨fun h => if_pos h, fun h => ?_⟩
  rw [if_neg (by omega)]
  exact ⟨fun ht => if_pos (hb.mpr ht), fun ht => if_neg (fun h => ht (hb.mp h))⟩

/-- A conditional branch whose comparison of sA and sB is `test`. -/
theorem condBranch_rules {s : State} {c : BitVec 8} {a b : BitVec 5} {imm : BitVec 32} {op : Nat} {test : BitVec 64 → BitVec 64 → Bool}
    {taken : Prop} (hb : test ((getCore s c.toNat).s a.toNat) ((getCore s c.toNat).s b.toNat) = true ↔ taken)
    (h : ready s c (mkWord op 0 a b 0 0 imm)) :
    let o : Out := .next (condBranch op test c a b imm s)
    (8191 < imm.toNat → o = .next (freezeCore s c.toNat 0x21 imm.toNat)) ∧
    (imm.toNat ≤ 8191 → (taken → o = .next (modCore s c.toNat (fun k => { k with pc := imm.toNat }))) ∧
      (¬ taken → o = .next (advance s c.toNat))) := by
  obtain ⟨hfar, hnear⟩ := branchBody_rules s c.toNat (wImm_mk op 0 a b 0 0 imm) hb
  unfold condBranch
  rw [issue_ready h]
  exact ⟨fun hv => congrArg _ (hfar hv), fun hv => ⟨fun ht => congrArg _ ((hnear hv).1 ht), fun ht => congrArg _ ((hnear hv).2 ht)⟩⟩

/-! ### Waits (R206, R228, R233, R234) -/

/-- FENCE by whether a posted remote write is outstanding. -/
theorem fenceBody_eq (s : State) (c : Nat) :
    fenceBody s c = if (getCore s c).posted = [] then advance s c else stall s c .fence := by
  simp only [fenceBody, List.isEmpty_iff]

/-- WAITC on a valid slot. -/
theorem waitcBody_of_valid {s : State} {c i count : Nat} {w : BitVec 64} (hi : wImm w % 128 = i) (hcount : wImm w / 65536 = count)
    (hv : ((getCore s c).slot i).valid = true) :
    waitcBody s c w = if ((getCore s c).slot i).full = true ∨ ((getCore s c).slot i).filling = true ∨
      (count ≠ 0 ∧ count ≤ ((getCore s c).slot i).count) then advance s c else stall s c (.slot i) := by
  subst hi hcount
  unfold waitcBody
  simp [hv, SlotDesc.tagFull, or_assoc]

/-- POST of an entry of the post table that is not yet posted. -/
theorem postBody_of_unposted {s : State} {c e : Nat} {w : BitVec 64} {l : Live} (he : wImm w % 1024 = e) (hlive : s.sq.live = some l)
    (hin : e < (launchOf s c).posts.length)
    (hnew : l.posted.any (fun p => p.1 == (getCore s c).current && p.2.1 == e) = false) :
    postBody s c w = if (getCore s c).posted = []
      then advance { s with sq := { s.sq with live := some { l with posted := ((getCore s c).current, e, l.cycle) :: l.posted } } } c
      else stall s c .fence := by
  subst he
  unfold postBody
  simp only [hlive, hnew, Bool.false_or, decide_eq_true_eq]
  rw [if_neg (by omega)]
  cases hp : (getCore s c).posted with
  | nil => simp [modLive, hlive]
  | cons p ps => simp

/-! ### The end of a launch (R231, R254) -/

/-- END with no launch waiting. -/
theorem endLaunch_of_none_waiting {s : State} {c : Nat} (hw : (getCore s c).launchWait = []) :
    endLaunch s c = modCore (if (getCore s c).watched = true ∧ ((getCore s c).nv = true ∨ (getCore s c).inf = true)
        then modLive s (fun l => { l with nonFinite := true }) else s) c (fun k =>
      { k with active := false, current := 0xFFFF, watched := false, wait := none, launchWait := k.launchWait.tail }) := by
  unfold endLaunch
  simp only [hw, Bool.and_eq_true, Bool.or_eq_true]

/-! ### CC_LAUNCH (R218, R222) -/

/-- A write of CC_LAUNCH changes the cores alone. -/
theorem writeCcLaunch_cores (s : State) (c v : Nat) : { writeCcLaunch s c v with cores := s.cores } = s := by
  unfold writeCcLaunch
  dsimp only
  split <;> rfl

/-- A write of CC_LAUNCH leaves every other core. -/
theorem getCore_writeCcLaunch_ne (s : State) {c d : Nat} (v : Nat) (hne : d ≠ c) : getCore (writeCcLaunch s c v) d = getCore s d := by
  unfold writeCcLaunch startCore
  dsimp only
  split <;> simp only [getCore_modCore_ne _ hne]

/-- The core that a write of CC_LAUNCH with START leaves: it executes from ENTRY. -/
theorem getCore_writeCcLaunch_start {s : State} {c v : Nat} (hwf : tblWf {} s.cores = true) (hv : v.testBit 31 = true)
    (hpower : 4 ≤ s.power.state.code) (hcx : s.cx.state ≠ 5) (hplan : planAdmitted s = false) (hfrozen : coreFrozen s c = false)
    (hreset : (getCore s c).inReset = false) (hidle : (getCore s c).active = false) (hen : ccEnabled s c = true) :
    getCore (writeCcLaunch s c v) c = { (getCore s c).clearFs with
      entry := bits v 16 13, slots := [], active := true, pc := bits v 16 13, current := 0xFFFF, watched := false, wait := none } := by
  have hstart : bit v 31 = true := by simpa [bit, Nat.testBit_eq_decide_div_mod_eq] using hv
  have hentry := getCore_modCore hwf c (fun k => { k with entry := bits v 16 13 })
  have hwf' (f : Core → Core) {u : State} (hu : tblWf {} u.cores = true) : tblWf {} (modCore u c f).cores = true := tblWf_mod hu c f
  unfold writeCcLaunch
  dsimp only
  rw [if_pos]
  case hc =>
    rw [hentry]
    simp only [Bool.and_eq_true, Bool.not_eq_true', decide_eq_true_eq, bne_iff_ne]
    exact ⟨⟨⟨⟨⟨⟨⟨hstart, hpower⟩, hcx⟩, hplan⟩, hfrozen⟩, hreset⟩, hidle⟩, hen⟩
  rw [startCore, getCore_modCore (hwf' _ (hwf' _ hwf)), getCore_modCore (hwf' _ hwf), hentry]
  rfl

/-! ### LAUNCH_START (R273) -/

/-- A launch at its START tick is marked, and begins or waits by whether its core executes. -/
theorem execLaunchStart_due {s u : State} {launch : BitVec 16} {l : Launch} {b : Live} (hlive : s.sq.live = some b)
  (hl : (liveTemplate s).launches[launch.toNat]? = some l) (htick : b.cycle / 2 = l.start)
  (hdone : b.done.contains (1, launch.toNat) = false) (hfrozen : coreFrozen s l.core = false)
  (hreset : (getCore s l.core).inReset = false) (hout : (getCore s l.core).sitOut = false) (hen : ccEnabled s l.core = true)
  (hu : u = { s with sq := { s.sq with live := some { b with done := (1, launch.toNat) :: b.done } } }) :
    execLaunchStart launch s = .next (if (getCore s l.core).active
    then modCore u l.core (fun k => { k with launchWait := k.launchWait ++ [launch.toNat] }) else beginLaunch u launch.toNat l) := by
  have hmark : modLive s (fun b => { b with done := (1, launch.toNat) :: b.done }) = u := by rw [hu, modLive, hlive]; rfl
  have hsame : coreFrozen u l.core = coreFrozen s l.core ∧ getCore u l.core = getCore s l.core ∧ ccEnabled u l.core = ccEnabled s l.core := by
    rw [hu]
    exact ⟨rfl, rfl, rfl⟩
  obtain ⟨hf, hc, he⟩ := hsame
  unfold execLaunchStart
  simp only [hlive, hl]
  rw [if_neg (not_or.mpr ⟨not_not.mpr htick, Bool.eq_false_iff.mp hdone⟩), hmark, hf, hc, he, if_neg (by simp [hfrozen, hreset, hout, hen])]

/-- A launch whose descriptors clash with no valid one starts with them defined. -/
theorem beginLaunch_of_defined {s : State} {i : Nat} {l : Launch} {k : Core} (h : defineAll (getCore s l.core) l.descs = .ok k) :
    beginLaunch s i l = startCore (modCore s l.core (fun _ => k)) l.core l.entry i l.watched := by
  unfold beginLaunch
  rw [h]

/-! ### The ends of stalls (R228, R233) -/

/-- A WAITT whose tick the beat has reached goes on. -/
theorem execWaittRelease_due {s : State} {c : BitVec 8} {t : Nat} {b : Live} (hw : (getCore s c.toNat).wait = some (.tick t))
    (hfrozen : coreFrozen s c.toNat = false) (hlive : s.sq.live = some b) (ht : t ≤ b.cycle / 2) :
    execWaittRelease c s = .next (advance (modCore s c.toNat (fun k => { k with wait := none })) c.toNat) := by
  unfold execWaittRelease beatCycle
  simp only [hw, hfrozen, hlive, ht, if_true]
  rfl

/-- A FENCE without an outstanding remote write goes on. -/
theorem execFenceComplete_fence {s : State} {c : BitVec 8} (hw : (getCore s c.toNat).wait = some .fence)
    (hp : (getCore s c.toNat).posted = []) (hfrozen : coreFrozen s c.toNat = false) (hop : wOp (getCore s c.toNat).word = 0x09)
    (hwf : tblWf {} s.cores = true) :
    execFenceComplete c s = .next (advance (modCore s c.toNat (fun k => { k with wait := none })) c.toNat) := by
  unfold execFenceComplete
  dsimp only
  rw [if_pos ⟨hw, hp, by rw [hfrozen]; rfl⟩, if_neg (by rw [hop]; decide), fenceBody_eq, getCore_modCore hwf, if_pos hp]

/-- The zeroing of a core ends once its time is over. -/
theorem execCoreClearDone_due {s : State} {c : BitVec 8} (hr : (getCore s c.toNat).inReset = true)
    (ht : (getCore s c.toNat).clearEnd ≤ s.clock) :
    execCoreClearDone c s = .next (modCore s c.toNat (fun k => { k with inReset := false, clearEnd := 0 })) := by
  unfold execCoreClearDone
  rw [if_pos (by simp [hr, ht])]

end Sys2Proof.Machine

open Sys2Proof Sys2Proof.Machine

/-- Settles O12: the branches by `condBranch_rules`, each wait by the condition under which it goes on. -/
theorem branchAndWaitInstructions : Obligations.BranchAndWaitInstructions := by
  constructor
  · intro s c a b imm x y jump on
    refine ⟨fun h => ?br, condBranch_rules beq_iff_eq, condBranch_rules bne_iff_ne, condBranch_rules BitVec.slt_iff_toInt_lt,
      condBranch_rules ?bge, condBranch_rules BitVec.ult_iff_toNat_lt, condBranch_rules ?bgeu⟩
    case br =>
      obtain ⟨hfar, hnear⟩ := branchBody_rules s c.toNat (wImm_mk 0x02 0 0 0 0 0 imm) (b := true) (taken := True) (by simp)
      exact ⟨fun hv => issue_next h (hfar hv), fun hv => issue_next h ((hnear hv).1 trivial)⟩
    case bge => rw [Bool.not_eq_true', ← Bool.not_eq_true, BitVec.slt_iff_toInt_lt, Int.not_lt]
    case bgeu => rw [Bool.not_eq_true', ← Bool.not_eq_true, BitVec.ult_iff_toNat_lt, Nat.not_lt]
  · intro s c a imm n k
    refine ⟨fun h => issue_next h rfl, fun h => issue_next h rfl, fun h => issue_next h (fenceBody_eq s n), fun h => issue_next h ?waitt,
      fun h => ?waitc, fun h l hlive => ?post⟩
    case waitt =>
      unfold waittBody
      rw [wA_mk, address, wSimm_mk]
    case waitc =>
      intro d count hv
      exact issue_next h (waitcBody_of_valid (by rw [wImm_mk]) (by rw [wImm_mk]) hv)
    case post =>
      intro e hin hnew
      exact issue_next h (postBody_of_unposted (by rw [wImm_mk]) hlive hin hnew)

/-- Settles O14: a rule for each command, and the core that CC_LAUNCH leaves by `getCore_writeCcLaunch_start`. -/
theorem launchesBeginAndEnd : Obligations.LaunchesBeginAndEnd := by
  intro s c n k
  refine ⟨fun h hw => issue_next h (endLaunch_of_none_waiting hw), ?ccLaunch, ?launchStart,
    fun t b hw hf hlive ht => execWaittRelease_due hw hf hlive ht,
    fun hw hp hf hop hwf => execFenceComplete_fence hw hp hf hop hwf, execCoreClearDone_due⟩
  case ccLaunch =>
    intro port value hmay hv hpower hcx hplan hfrozen hreset hidle hen
    have hexec : exec (.ccLaunchStart (.pf0 port) c value) s = .next (writeCcLaunch s n value.toNat) :=
      congrArg Host.Outcome.next (if_pos (Bool.and_eq_true_iff.mpr ⟨hmay, rfl⟩))
    refine ⟨_, hexec, writeCcLaunch_cores s n value.toNat, fun hwf => ⟨fun d hne => getCore_writeCcLaunch_ne s _ hne, ?_⟩⟩
    rw [getCore_writeCcLaunch_start hwf hv hpower hcx hplan hfrozen hreset hidle hen]
    exact ⟨rfl, rfl, rfl, rfl, rfl, rfl⟩
  case launchStart =>
    intro launch l b hlive hl htick hdone hfrozen hreset hout hen u
    have hdue := execLaunchStart_due hlive hl htick hdone hfrozen hreset hout hen (u := u) rfl
    refine ⟨fun hidle => ⟨hdue.trans (congrArg _ (if_neg (Bool.eq_false_iff.mp hidle))), fun k hk => beginLaunch_of_defined hk⟩,
      fun hact => hdue.trans (congrArg _ (if_pos hact))⟩
end

section
/-! SUPPORT. Memory, remote access and slot instructions of a core, and what arrives at a core (R187, R201, R202, R204-R211, R228, R229,
R238-R241, R247, R248, R253). -/

namespace Sys2Proof.Machine

/-- A bit of a field, as the model and as the statements read it. -/
theorem bit_eq_testBit {w : Nat} (v : BitVec w) (i : Nat) : bit v.toNat i = v.toNat.testBit i := bit_toNat v i

/-- sA + IMM of an instruction word. -/
theorem address_mk (k : Core) (op : Nat) (d a b e : BitVec 5) (m : BitVec 4) (imm : BitVec 32) :
    address k (mkWord op d a b e m imm) (wA (mkWord op d a b e m imm)) = (k.s a.toNat + imm.signExtend 64).toNat := by
  rw [wA_mk, address, wSimm_mk]

/-- A load whose rows may be accessed retires and meets the errors of what it read. -/
theorem loadSpans_go {s : State} {c : Nat} {sp : List (Nat × Nat)} {checked : Bool}
    (hgo : loadAccess (getCore s c) c sp checked = .go) (ecc : List (Nat × Bool)) (put : Core → Core) :
    loadSpans s c sp checked ecc put = scratchEcc (retire s c put) c sp ecc := by
  unfold loadSpans
  rw [hgo]
  rfl

/-! ### Scalar loads and stores (R239) -/

section
variable {s : State} {c : BitVec 8} {d a b : BitVec 5} {m : BitVec 4} {imm : BitVec 32}

/-- LD: alignment, then the access. -/
theorem execCcLd_ready {at_ size : Nat} (h : ready s c (mkWord 0x40 d a 0 0 m imm))
    (hat : ((getCore s c.toNat).s a.toNat + imm.signExtend 64).toNat = at_) (hsize : 2 ^ (m.toNat % 4) = size) (ecc : List (Nat × Bool)) :
    execCcLd c d a m imm ecc s = .next (if at_ % size ≠ 0 then freezeCore s c.toNat 0x22 at_
      else loadSpans s c.toNat [(at_, size)] (m.toNat.testBit 3) ecc (fun k => k.setS d.toNat
        (if m.toNat.testBit 2 then BitVec.ofInt 64 (signed (8 * size) (ofLe (k.read at_ size ecc)))
          else BitVec.ofNat 64 (ofLe (k.read at_ size ecc))))) := by
  subst hat hsize
  refine issue_next h ?_
  unfold ldBody
  simp only [address_mk, wM_mk, wD_mk, bit_eq_testBit]
  rfl

/-- ST: alignment, then the access. -/
theorem execCcSt_ready {at_ size : Nat} (h : ready s c (mkWord 0x41 0 a b 0 m imm))
    (hat : ((getCore s c.toNat).s a.toNat + imm.signExtend 64).toNat = at_) (hsize : 2 ^ (m.toNat % 4) = size) :
    execCcSt c a b m imm s = .next (if at_ % size ≠ 0 then freezeCore s c.toNat 0x22 at_
      else (storeAccess (getCore s c.toNat) c.toNat [(at_, size)]).run s c.toNat (fun s => retire s c.toNat (fun k =>
        k.store at_ (leBytes size (k.s b.toNat).toNat)))) := by
  subst hat hsize
  refine issue_next h ?_
  unfold stBody
  simp only [address_mk, wM_mk, wB_mk]
  rfl

end

/-! ### Remote stores and loads (R239, R241) -/

/-- A remote access at an offset that is no multiple of 64. -/
theorem remoteFault_misaligned {a : Nat} (h : a % 64 ≠ 0) (s : State) (c n how : Nat) (t : BitVec 64) :
    remoteFault s c a n how t = some (fun s => freezeCore s c 0x22 a) := if_pos h

section
variable {s : State} {c at_ far : Nat} {t : BitVec 64} {w : BitVec 64} (hat : address (getCore s c) w (wA w) = at_)
  (hfar : 64 * 2 ^ wM w = far) (ht : (getCore s c).s (wC w) = t)

include hat hfar ht

/-- RSTV that a check stops. -/
theorem rstvBody_stopped {f : State → State} (hf : remoteFault s c at_ far 4 t = some f) : rstvBody s c w = f s := by
  subst hat hfar ht
  unfold rstvBody
  dsimp only
  rw [hf]

/-- RSTV that passes its checks posts a packet for each row. -/
theorem rstvBody_go {b m : Nat} (hb : wB w = b) (hm : wM w = m) (hf : remoteFault s c at_ far 4 t = none) :
    rstvBody s c w = retire s c (fun k => { k with posted := k.posted ++ (upTo (2 ^ m)).map (fun i =>
      (t.toNat, at_ + 64 * i, ((imageOf (k.vec b)).drop (64 * i)).take 64)) }) := by
  subst hat hfar ht hb hm
  unfold rstvBody
  dsimp only
  rw [hf]
  simp only [Nat.mul_div_cancel_left _ (show 0 < 64 by decide)]
  exact retire_congr rfl

/-- RLDV that a check stops. -/
theorem rldvBody_stopped {f : State → State} (hf : remoteFault s c at_ far 6 t = some f) : rldvBody s c w = f s := by
  subst hat hfar ht
  unfold rldvBody
  dsimp only
  rw [hf]

/-- RLDV that passes its checks leaves a read outstanding behind the packets posted to that core. -/
theorem rldvBody_go {d : Nat} (hd : wD w = d) (hf : remoteFault s c at_ far 6 t = none) :
    rldvBody s c w = retire s c (fun k => { k with remoteReads := k.remoteReads ++
      [(d, t.toNat, at_, far, (k.posted.filter (fun p => p.1 == t.toNat)).length)] }) := by
  subst hat hfar ht hd
  unfold rldvBody
  dsimp only
  rw [hf]
  exact retire_congr rfl

end

/-! ### Slots (R204, R206, R239, R240) -/

/-- The shapes that SLOT.DEF allows. -/
theorem slotShapeBad_eq_false {e target base : Nat} : slotShapeBad e target base = false ↔
    6 ≤ e ∧ e ≤ 16 ∧ target ≠ 0 ∧ base % min (2 ^ e) 4096 = 0 ∧ base + 2 ^ e ≤ 0x60000 := by
  simp only [slotShapeBad, Bool.or_eq_false_iff, decide_eq_false_iff_not, Nat.not_lt, beq_eq_false_iff_ne, bne_eq_false_iff_eq, and_assoc]
  exact Iff.rfl

/-- A slot that overlaps no other valid one of its core. -/
theorem slotClash_eq_false {k : Core} {i e base : Nat} : k.slotClash i e base = false ↔
    ∀ x ∈ k.slots, x.1 ≠ i → x.2.valid = true → x.2.base + x.2.size ≤ base ∨ base + 2 ^ e ≤ x.2.base := by
  simp only [Core.slotClash, overlap, List.any_eq_false]
  refine forall₂_congr fun x _ => ?_
  simp only [Bool.and_eq_true, bne_iff_ne, decide_eq_true_eq]
  constructor
  · intro h hne hv
    by_contra hc
    exact h ⟨⟨hne, hv⟩, by omega, by omega⟩
  · rintro h ⟨⟨hne, hv⟩, h1, h2⟩
    have := h hne hv
    omega

/-- SLOT.DEF by its shape and by what it would overlap. -/
theorem execCcSlotDef_ready {s : State} {c : BitVec 8} {a : BitVec 5} {imm : BitVec 32} {i e target base : Nat}
    (h : ready s c (mkWord 0x48 0 a 0 0 0 imm)) (hi : imm.toNat % 128 = i) (he : imm.toNat / 256 % 16 + 6 = e)
    (ht : imm.toNat / 65536 = target) (hb : ((getCore s c.toNat).s a.toNat).toNat = base) :
    execCcSlotDef c a imm s = .next (if slotShapeBad e target base || (getCore s c.toNat).slotClash i e base
      then freezeCore s c.toNat 0x25 (i * 2 ^ 32 + base % 2 ^ 32) else retire s c.toNat (fun k => { k with
        slots := tblSet {} k.slots i { valid := true, base := base, size := 2 ^ e, target := target, count := 0, full := false }
        pendingArr := k.pendingArr.filter (· != i) })) := by
  subst hi he ht hb
  exact issue_next h rfl

/-- A slot instruction by whether its descriptor is valid. -/
theorem slotOp_ready {s : State} {c : BitVec 8} {imm : BitVec 32} {op i : Nat} {f : SlotDesc → SlotDesc}
    (h : ready s c (mkWord op 0 0 0 0 0 imm)) (hi : imm.toNat % 128 = i) :
    let o : Out := .next (slotOp op f c imm s)
    (((getCore s c.toNat).slot i).valid = true →
      o = .next (retire s c.toNat (fun k => { k with slots := tblMod {} k.slots i f }))) ∧
    (((getCore s c.toNat).slot i).valid = false →
      o = .next (freezeCore s c.toNat 0x25 (i * 2 ^ 32 + ((getCore s c.toNat).slot i).base % 2 ^ 32))) := by
  subst hi
  unfold slotOp
  rw [issue_ready h]
  exact ⟨fun hv => congrArg _ (if_pos hv), fun hv => congrArg _ (if_neg (Bool.eq_false_iff.mp hv))⟩

/-! ### Vector loads (R202, R247, R248) -/

/-- A vector load whose addresses are aligned and whose rows may be accessed. -/
theorem vecLoad_go {s : State} {c n : Nat} {w : BitVec 64} {addrs : List Nat} {checked : Bool} (hchecked : bit (wM w) 3 = checked)
    (halign : ∀ x ∈ addrs, x % alignOf (wM w % 8) = 0)
    (hgo : loadAccess (getCore s c) c (addrs.map (fun a => (a, n))) checked = .go) (ecc : List (Nat × Bool))
    (put : List (List Byte) → Core → Core) : vecLoad s c w addrs n ecc put =
      scratchEcc (retire s c (fun k => put (addrs.map (fun a => k.read a n ecc)) k)) c (addrs.map (fun a => (a, n))) ecc := by
  subst hchecked
  have hfind : addrs.find? (fun a => a % alignOf (wM w % 8) != 0) = none :=
    List.find?_eq_none.mpr fun x hx => by rw [halign x hx]; decide
  unfold vecLoad
  rw [hfind]
  exact loadSpans_go hgo ecc _

section
variable {s : State} {c : BitVec 8} {d a b : BitVec 5} {m : BitVec 4} {imm : BitVec 32} {at_ f : Nat}
  (hf : m.toNat % 8 = f)

include hf

/-- VLD (R247). -/
theorem execCcVld_go (h : ready s c (mkWord 0x80 d a 0 0 m imm)) (hat : ((getCore s c.toNat).s a.toNat + imm.signExtend 64).toNat = at_)
    (halign : ∀ x ∈ [at_], x % alignOf f = 0)
    (hgo : loadAccess (getCore s c.toNat) c.toNat [(at_, vecBytes f)] (m.toNat.testBit 3) = .go) (ecc : List (Nat × Bool)) :
    execCcVld c d a m imm ecc s = .next (scratchEcc (retire s c.toNat (fun k =>
      k.setV d.toNat (widenVec f (k.read at_ (vecBytes f) ecc)))) c.toNat [(at_, vecBytes f)] ecc) := by
  subst hf hat
  refine issue_next h ?_
  unfold vecLoadBody
  simp only [wOp_mk, address_mk, wM_mk, wD_mk, Nat.reduceMod]
  rw [vecLoad_go (checked := m.toNat.testBit 3) (by rw [wM_mk, bit_eq_testBit]) (by rwa [wM_mk]) hgo]
  rfl

section
variable {by_ : Nat} (h : ready s c (mkWord 0x82 d a b 0 m imm)) (hby : ((getCore s c.toNat).s b.toNat).toNat = by_)

include h hby

/-- VLDS with a stride of 0 or off the element. -/
theorem execCcVlds_badStride (hstride : by_ = 0 ∨ by_ % elemSize f ≠ 0) (ecc : List (Nat × Bool)) :
    execCcVlds c d a b m imm ecc s = .next (freezeCore s c.toNat 0x23 by_) := by
  subst hf hby
  refine issue_next h ?_
  unfold vecLoadBody
  simp only [wOp_mk, wM_mk, wB_mk, Nat.reduceMod]
  exact if_pos hstride

/-- VLDS (R247). -/
theorem execCcVlds_go (hat : ((getCore s c.toNat).s a.toNat + imm.signExtend 64).toNat = at_) (hpos : by_ ≠ 0)
    (hstride : by_ % elemSize f = 0) (halign : ∀ x ∈ strided at_ by_ 64, x % alignOf f = 0)
    (hgo : loadAccess (getCore s c.toNat) c.toNat ((strided at_ by_ 64).map (fun x => (x, elemSize f))) (m.toNat.testBit 3) = .go)
    (ecc : List (Nat × Bool)) : execCcVlds c d a b m imm ecc s = .next (scratchEcc (retire s c.toNat (fun k => k.setV d.toNat
      ((strided at_ by_ 64).map (fun x => widen f (ofLe (k.read x (elemSize f) ecc)))))) c.toNat
        ((strided at_ by_ 64).map (fun x => (x, elemSize f))) ecc) := by
  subst hf hby hat
  refine issue_next h ?_
  unfold vecLoadBody
  simp only [wOp_mk, address_mk, wM_mk, wB_mk, wD_mk, Nat.reduceMod]
  rw [if_neg (not_or.mpr ⟨hpos, not_not.mpr hstride⟩),
    vecLoad_go (checked := m.toNat.testBit 3) (by rw [wM_mk, bit_eq_testBit]) (by rwa [wM_mk]) hgo]
  simp only [List.map_map]
  rfl

end

/-- VGATH (R247). -/
theorem execCcVgath_go {gather : List Nat} (h : ready s c (mkWord 0x85 d a b 0 m imm))
    (hgather : ((getCore s c.toNat).vec b.toNat).map (fun x =>
      (((getCore s c.toNat).s a.toNat + imm.signExtend 64).toNat + x.toNat) % 2 ^ 64) = gather)
    (halign : ∀ x ∈ gather, x % alignOf f = 0)
    (hgo : loadAccess (getCore s c.toNat) c.toNat (gather.map (fun x => (x, elemSize f))) (m.toNat.testBit 3) = .go)
    (ecc : List (Nat × Bool)) : execCcVgath c d a b m imm ecc s = .next (scratchEcc (retire s c.toNat (fun k => k.setV d.toNat
      (gather.map (fun x => widen f (ofLe (k.read x (elemSize f) ecc)))))) c.toNat (gather.map (fun x => (x, elemSize f))) ecc) := by
  subst hf hgather
  refine issue_next h ?_
  unfold vecLoadBody
  simp only [wOp_mk, address_mk, wM_mk, wB_mk, wD_mk, Nat.reduceMod]
  rw [vecLoad_go (checked := m.toNat.testBit 3) (by rw [wM_mk, bit_eq_testBit]) (by rwa [wM_mk]) hgo]
  simp only [List.map_map]
  rfl

end

/-- An element of a row of a transposed block. -/
theorem rowElems_getD (f : Nat) (bs : List Byte) {j : Nat} (hj : j < 32) :
    (rowElems f bs).getD j 0 = widen f (leAt bs (j * elemSize f) (elemSize f)) := by
  simp [rowElems, upTo, List.getD_eq_getElem?_getD, hj]

/-- A row of a transposed block. -/
theorem map_rowElems_getD (f : Nat) (read : Nat → List Byte) {addrs : List Nat} {i : Nat} (hi : i < addrs.length) :
    ((addrs.map read).map (rowElems f)).getD i [] = rowElems f (read (addrs.getD i 0)) := by
  simp [List.getD_eq_getElem?_getD, hi]

/-- The 16 registers that VLDT writes: register g takes columns 2g and 2g + 1 of the 32 rows (R248). -/
theorem vldt_registers (f d : Nat) (read : Nat → List Byte) {addrs : List Nat} (hlen : addrs.length = 32) (k : Core) :
    (upTo 16).foldl (fun k g => k.setV (d + g) ((upTo 64).map (fun i =>
      ((((addrs.map read).map (rowElems f)).getD (i % 32) []).getD (2 * g + i / 32) 0)))) k =
    (upTo 16).foldl (fun k g => k.setV (d + g) ((upTo 64).map (fun i =>
      widen f (leAt (read (addrs.getD (i % 32) 0)) ((2 * g + i / 32) * elemSize f) (elemSize f))))) k := by
  refine List.foldl_ext _ _ _ fun k g hg => ?_
  have hg : g < 16 := List.mem_range.mp hg
  refine congrArg _ (List.map_congr_left fun i hi => ?_)
  have hi : i < 64 := List.mem_range.mp hi
  rw [map_rowElems_getD f read (by omega), rowElems_getD f _ (by omega)]

section
variable {s : State} {c : BitVec 8} {d a b : BitVec 5} {m : BitVec 4} {imm : BitVec 32} {at_ by_ f : Nat}
  (h : ready s c (mkWord 0x84 d a b 0 m imm)) (hby : ((getCore s c.toNat).s b.toNat).toNat = by_)

include h hby

/-- VLDT with a stride of 0 or off 64 bytes. -/
theorem execCcVldt_badStride (hstride : by_ = 0 ∨ by_ % 64 ≠ 0) (ecc : List (Nat × Bool)) :
    execCcVldt c d a b m imm ecc s = .next (freezeCore s c.toNat 0x23 by_) := by
  subst hby
  refine issue_next h ?_
  unfold vecLoadBody
  simp only [wOp_mk, wB_mk, Nat.reduceMod]
  exact if_pos hstride

/-- VLDT (R247, R248). -/
theorem execCcVldt_go (hf : m.toNat % 8 = f) (hat : ((getCore s c.toNat).s a.toNat + imm.signExtend 64).toNat = at_) (hpos : by_ ≠ 0)
    (hstride : by_ % 64 = 0) (halign : ∀ x ∈ strided at_ by_ 32, x % alignOf f = 0)
    (hgo : loadAccess (getCore s c.toNat) c.toNat ((strided at_ by_ 32).map (fun x => (x, 32 * elemSize f))) (m.toNat.testBit 3) = .go)
    (ecc : List (Nat × Bool)) : execCcVldt c d a b m imm ecc s = .next (scratchEcc (retire s c.toNat (fun k => (upTo 16).foldl (fun k' g =>
      k'.setV (d.toNat + g) ((upTo 64).map (fun i => widen f (leAt (k.read ((strided at_ by_ 32).getD (i % 32) 0) (32 * elemSize f) ecc)
        ((2 * g + i / 32) * elemSize f) (elemSize f))))) k)) c.toNat ((strided at_ by_ 32).map (fun x => (x, 32 * elemSize f))) ecc) := by
  subst hf hby hat
  refine issue_next h ?_
  unfold vecLoadBody
  simp only [wOp_mk, address_mk, wM_mk, wB_mk, wD_mk, Nat.reduceMod]
  rw [if_neg (not_or.mpr ⟨hpos, not_not.mpr hstride⟩),
    vecLoad_go (checked := m.toNat.testBit 3) (by rw [wM_mk, bit_eq_testBit]) (by rwa [wM_mk]) hgo]
  have hlen : (strided ((getCore s c.toNat).s a.toNat + imm.signExtend 64).toNat ((getCore s c.toNat).s b.toNat).toNat 32).length = 32 := by
    simp [strided, upTo]
  simp only [vldt_registers _ _ _ hlen]

end

/-! ### Vector stores (R247, R248) -/

/-- VSTS with a stride of 0 or off the element. -/
theorem vecStoreBody_badStride {s : State} {c f by_ : Nat} {w : BitVec 64} (hf : wM w % 8 = f) (hop : wOp w ≠ 0x81)
    (hby : ((getCore s c).s (wC w)).toNat = by_) (hstride : by_ = 0 ∨ by_ % elemSize f ≠ 0) :
    vecStoreBody s c w = freezeCore s c 0x23 by_ := by
  subst hf hby
  exact (if_neg hop).trans (if_pos hstride)

section
variable {s : State} {c at_ f b : Nat} {w : BitVec 64} (hf : wM w % 8 = f) (hb : wB w = b)

include hf hb

/-- VST: alignment, then the access. -/
theorem vecStoreBody_contiguous (hop : wOp w = 0x81) (hat : address (getCore s c) w (wA w) = at_) :
    vecStoreBody s c w = if at_ % alignOf f ≠ 0 then freezeCore s c 0x22 at_
      else (storeAccess (getCore s c) c [(at_, vecBytes f)]).run s c (fun s' => retire s' c (fun k' =>
        { k'.store at_ (narrowVec f ((getCore s c).vec b)).1 with ncv := k'.ncv || (narrowVec f ((getCore s c).vec b)).2 })) := by
  subst hf hb hat
  exact if_pos hop

/-- VSTS (R247). -/
theorem vecStoreBody_strided {by_ : Nat} (hop : wOp w ≠ 0x81) (hby : ((getCore s c).s (wC w)).toNat = by_) (hat : address (getCore s c) w (wA w) = at_) (hpos : by_ ≠ 0) (hstride : by_ % elemSize f = 0)
    (halign : ∀ x ∈ strided at_ by_ 64, x % elemSize f = 0)
    (hgo : storeAccess (getCore s c) c ((strided at_ by_ 64).map (fun x => (x, elemSize f))) = .go) :
    let out := narrowVec f ((getCore s c).vec b)
    vecStoreBody s c w = retire s c (fun k' =>
      let k2 := (upTo 64).foldl (fun k' i =>
        k'.store ((strided at_ by_ 64).getD i 0) ((out.1.drop (elemSize f * i)).take (elemSize f))) k'
      { k2 with ncv := k2.ncv || out.2 }) := by
  subst hf hb hby hat
  have hfind := List.find?_eq_none.mpr fun x hx => show ¬(x % elemSize (wM w % 8) != 0) = true by rw [halign x hx]; decide
  unfold vecStoreBody
  dsimp only
  rw [if_neg hop, if_neg (not_or.mpr ⟨hpos, not_not.mpr hstride⟩), hfind]
  dsimp only
  rw [hgo]
  rfl

end

/-! ### Arrivals and releases (R187, R206, R209-R211) -/

/-- Behind its posted packets a remote read is not the oldest. -/
theorem readFirst_eq_false {k : Core} {t : Nat} (h : ∀ r, k.remoteReads.find? (fun r => r.2.1 == t) = some r → r.2.2.2.2 ≠ 0) :
    readFirst k t = false := by
  unfold readFirst
  split
  next r hr => exact beq_eq_false_iff_ne.mpr (h r hr)
  · rfl

/-- The oldest posted packet to a target arrives, when no older read of that target is outstanding. -/
theorem execRemoteWriteArrival_packet {s u : State} {c t : BitVec 8} {a : Nat} {bs : List Byte}
    (hp : (getCore s c.toNat).posted.find? (fun p => p.1 == t.toNat) = some (t.toNat, a, bs))
    (hr : ∀ r, (getCore s c.toNat).remoteReads.find? (fun r => r.2.1 == t.toNat) = some r → r.2.2.2.2 ≠ 0)
    (hu : u = modCore s c.toNat (fun k => { k with
      posted := k.posted.eraseP (fun p => p.1 == t.toNat)
      remoteReads := k.remoteReads.map (fun r =>
        if r.2.1 = t.toNat then (r.1, r.2.1, r.2.2.1, r.2.2.2.1, r.2.2.2.2 - 1) else r) })) :
    execRemoteWriteArrival c t s = .next (if coreFrozen s t.toNat then u
      else arrive u t.toNat { remote := true, kind := 3, who := c.toNat, off := a, data := bs }) := by
  subst hu
  unfold execRemoteWriteArrival
  simp only [readFirst_eq_false hr, Bool.not_false, Bool.and_true, hp]
  rfl

/-- The oldest remote read at a target returns, when every packet posted before it has arrived. -/
theorem execRemoteReadReturn_oldest {s : State} {c t : BitVec 8} {ecc : List (Nat × Bool)} {d a len : Nat} {bs : List Byte} {dead : Bool}
    (hr : (getCore s c.toNat).remoteReads.find? (fun r => r.2.1 == t.toNat) = some (d, t.toNat, a, len, 0))
    (hdead : coreFrozen s t.toNat = dead)
    (hbs : (if dead then (upTo (len / 4)).flatMap (fun _ => leBytes 4 0x7FC00000) else (getCore s t.toNat).serve a len ecc) = bs) :
    let u := modCore s c.toNat (fun k => { k.setV d (lanesOf bs 64) with
      remoteReads := k.remoteReads.eraseP (fun r => r.2.1 == t.toNat), nv := k.nv || dead
      wait := if k.wait = some .net then none else k.wait })
    execRemoteReadReturn c t ecc s = .next (if dead then u else scratchEcc u t.toNat [(a, len)] ecc) := by
  subst hdead hbs
  have hfirst : readFirst (getCore s c.toNat) t.toNat = true := by
    unfold readFirst
    rw [hr]
    rfl
  unfold execRemoteReadReturn
  simp only [hfirst, Bool.and_true, hr]

/-- What a core that waits for a slot tries again: the word at its PC. -/
def retrySlot (s : State) (c : Nat) (w : BitVec 64) (ecc : List (Nat × Bool)) : State :=
  if wOp w = 0x0B then waitcBody s c w else if wOp w = 0x40 then ldBody s c w ecc else vecLoadBody s c w ecc

/-- SLOT_WAIT_RELEASE of an unfrozen core that waits for a slot. -/
theorem execSlotWaitRelease_waiting {s u : State} {c : BitVec 8} {i : Nat} (hw : (getCore s c.toNat).wait = some (.slot i))
    (hf : coreFrozen s c.toNat = false) (hu : u = modCore s c.toNat (fun k => { k with wait := none })) (ecc : List (Nat × Bool)) :
    execSlotWaitRelease c ecc s = .next (retrySlot u c.toNat (getCore u c.toNat).word ecc) := by
  subst hu
  unfold execSlotWaitRelease retrySlot
  simp only [hw, hf, Bool.false_eq_true, if_false]
  split
  next h => rw [if_pos h]
  next h => rw [if_neg (by rw [h]; decide), if_pos h]
  next h1 h2 => rw [if_neg h1, if_neg h2]

end Sys2Proof.Machine

open Sys2Proof Sys2Proof.Machine

/-- Settles O16: LD and ST by alignment and access, RSTV and RLDV by the checks of a remote access. -/
theorem scalarMemoryInstructions : Obligations.ScalarMemoryInstructions := by
  intro s c d a b m imm ecc n k size at_ far dst
  refine ⟨fun h => ⟨fun hoff => ?_, fun hal hgo => ?_⟩, fun h => ⟨fun hoff => ?_, fun hal hgo => ?_⟩,
    fun h => ⟨fun hoff => issue_next h ?_, fun hgo => issue_next h ?_⟩,
    fun h => ⟨fun hoff => issue_next h ?_, fun hgo => issue_next h ?_⟩⟩
  · exact (execCcLd_ready h rfl rfl ecc).trans (congrArg _ (if_pos hoff))
  · exact (execCcLd_ready h rfl rfl ecc).trans (congrArg _ ((if_neg (not_not.mpr hal)).trans (loadSpans_go hgo ecc _)))
  · exact (execCcSt_ready h rfl rfl).trans (congrArg _ (if_pos hoff))
  · exact (execCcSt_ready h rfl rfl).trans (congrArg _ ((if_neg (not_not.mpr hal)).trans (by rw [hgo]; rfl)))
  · exact rstvBody_stopped (address_mk ..) (by rw [wM_mk]) (by rw [wC_mk]) (remoteFault_misaligned hoff ..)
  · exact rstvBody_go (address_mk ..) (by rw [wM_mk]) (by rw [wC_mk]) (wB_mk ..) (wM_mk ..) hgo
  · exact rldvBody_stopped (address_mk ..) (by rw [wM_mk]) (by rw [wC_mk]) (remoteFault_misaligned hoff ..)
  · exact rldvBody_go (address_mk ..) (by rw [wM_mk]) (by rw [wC_mk]) (wD_mk ..) hgo

/-- Settles O18: SLOT.DEF by `slotShapeBad_eq_false` and `slotClash_eq_false`, the others by whether the descriptor is valid. -/
theorem slotInstructions : Obligations.SlotInstructions := by
  intro s c d a imm n k i e target base fits one
  have hfits : (slotShapeBad e target base || k.slotClash i e base) = false ↔ fits := by
    rw [Bool.or_eq_false_iff, slotShapeBad_eq_false, slotClash_eq_false]
    simp only [and_assoc, fits]
  refine ⟨fun h => ⟨fun hfit => ?_, fun hfit => ?_⟩, fun h => slotOp_ready h rfl, fun h => slotOp_ready h rfl,
    fun h => slotOp_ready h rfl, fun h => issue_retire h ?stat⟩
  · exact (execCcSlotDef_ready h rfl rfl rfl rfl).trans (congrArg _ (if_neg (Bool.eq_false_iff.mp (hfits.mpr hfit))))
  · refine (execCcSlotDef_ready h rfl rfl rfl rfl).trans (congrArg _ (if_pos ?_))
    exact Bool.not_eq_false _ ▸ fun hbad => hfit (hfits.mp hbad)
  case stat =>
    have hfull (x : SlotDesc) : 65536 * ofBool x.tagFull = if x.full || x.filling then 65536 else 0 := by
      unfold ofBool SlotDesc.tagFull
      split <;> rfl
    simp only [hfull]
    rfl

/-- Settles O19: each load by its addresses and `vecLoad_go`, each store by its alignment and access. -/
theorem vectorMemoryInstructions : Obligations.VectorMemoryInstructions := by
  intro s c d a b m imm ecc n k f at_ by_ checked each across down gather aligned
  refine ⟨fun h hal hgo => execCcVld_go rfl h rfl hal hgo ecc,
    fun h => ⟨fun hbad => execCcVlds_badStride rfl h rfl hbad ecc,
      fun hpos hstride hal hgo => execCcVlds_go rfl h rfl rfl hpos hstride hal hgo ecc⟩,
    fun h hal hgo => execCcVgath_go rfl h rfl hal hgo ecc,
    fun h => ⟨fun hbad => execCcVldt_badStride h rfl hbad ecc,
      fun hpos hstride hal hgo => execCcVldt_go h rfl rfl rfl hpos hstride hal hgo ecc⟩,
    fun h => ?vst, fun h => ?vsts⟩
  case vst =>
    have hbody := vecStoreBody_contiguous (s := s) (c := n) (w := mkWord 0x81 0 a b 0 m imm) (f := f) (by rw [wM_mk]) (wB_mk ..)
      (wOp_mk ..) (address_mk ..)
    exact ⟨fun hoff => issue_next h (hbody.trans (if_pos hoff)),
      fun hal hgo => issue_next h (hbody.trans ((if_neg (not_not.mpr hal)).trans (by rw [hgo]; rfl)))⟩
  case vsts =>
    have hm : wM (mkWord 0x83 0 a d b m imm) % 8 = f := by rw [wM_mk]
    have hop : wOp (mkWord 0x83 0 a d b m imm) ≠ 0x81 := by rw [wOp_mk]; decide
    have hby : (k.s (wC (mkWord 0x83 0 a d b m imm))).toNat = by_ := by rw [wC_mk]
    exact ⟨fun hbad => issue_next h (vecStoreBody_badStride hm hop hby hbad),
      fun hpos hstride hal hgo => issue_next h (vecStoreBody_strided hm (wB_mk ..) hop hby (address_mk ..) hpos hstride hal hgo)⟩

/-- Settles O23: arrivals and returns by whether the target is frozen, a release by the word at PC. -/
theorem remoteAndSlotReleases : Obligations.RemoteAndSlotReleases := by
  intro s c t ecc n k
  refine ⟨?arrival, ?back, ?release⟩
  case arrival =>
    intro a bs hp hr u
    have hexec := execRemoteWriteArrival_packet hp hr (u := u) rfl
    exact ⟨fun hf => hexec.trans (congrArg _ (if_pos hf)), fun hf => hexec.trans (congrArg _ (if_neg (Bool.eq_false_iff.mp hf)))⟩
  case back =>
    intro d a len hr back
    exact ⟨fun hf => execRemoteReadReturn_oldest hr hf rfl, fun hf => execRemoteReadReturn_oldest hr hf rfl⟩
  case release =>
    intro i hw hf u w
    have hexec := execSlotWaitRelease_waiting hw hf (u := u) rfl ecc
    exact ⟨fun hop => hexec.trans (congrArg _ (if_pos hop)),
      fun hop => hexec.trans (congrArg _ ((if_neg (by rw [hop]; decide)).trans (if_pos hop))),
      fun h1 h2 => hexec.trans (congrArg _ ((if_neg h1).trans (if_neg h2)))⟩
end

section
/-! SUPPORT. Plan sets as they come and go: what events leave of the ring and the sequencer, and what admission and retirement set (R213,
R283, R284, R296, R299, R360, R461, R640). -/

namespace Sys2Proof.Machine

/-! ### What a message on the ring leaves (R408, R424) -/

section
variable {β : Type} {f : State → β} (hlink : ∀ s p g, f (modLink s p g) = f s) (hemit : ∀ s o, f (emit s o) = f s)

include hlink hemit

/-- A flit changes its link and the outputs. -/
theorem sendFlit_keeps (s : State) (p : Nat) (h : FlitHeader) (payload : List Byte) (plain : Bool) :
    f (sendFlit s p h payload plain) = f s := by
  unfold sendFlit
  dsimp only
  split
  · rfl
  · split
    · exact hemit ..
    · exact (hemit ..).trans (hlink ..)

/-- The next CREDIT flit of a port changes links and the outputs. -/
theorem sendNextCredit_keeps (s : State) (p : Nat) : f (sendNextCredit s p) = f s := by
  have hsend (s : State) (p : Nat) (h : FlitHeader) (bs : List Byte) (plain : Bool) := sendFlit_keeps hlink hemit s p h bs plain
  unfold sendNextCredit
  split
  · rfl
  · dsimp only
    split
    · exact (hsend ..).trans ((hsend ..).trans (hlink ..))
    · exact (hsend ..).trans (hlink ..)

/-- A message changes links and the outputs. -/
theorem sendMessage_keeps (s : State) (dst kind : Nat) (words : List Nat) (data : List Byte) :
    f (sendMessage s dst kind words data) = f s := by
  have hcredit (s : State) (p : Nat) (c : CreditFlit) : f (queueCredit s p c) = f s := by
    unfold queueCredit
    split
    · exact (forEach_keeps f _ _ (fun s _ => sendNextCredit_keeps hlink hemit s p) _).trans (hlink ..)
    · rfl
  have hpacket (s : State) (cls dst : Nat) (bytes : List Byte) : f (sendPacket s cls dst bytes) = f s := by
    unfold sendPacket
    dsimp only
    split
    · rfl
    · exact forEach_keeps f _ _ (fun s _ => hcredit s _ _) s
  exact forEach_keeps f _ _ (fun s _ => hpacket s _ _ _) s

end

/-! ### An event leaves the headframe where it is -/

/-- The headframe is read from the ring interface. -/
theorem isHeadframe_of_ri {s t : State} (h : t.ri = s.ri) : isHeadframe t = isHeadframe s := by
  unfold isHeadframe
  rw [h]

@[simp] theorem mergeWord_ri (s : State) (k w : Nat) (p : Nat × List Byte) : (mergeWord s k w p).ri = s.ri := by
  unfold mergeWord
  split
  · rfl
  · split <;> rfl

@[simp] theorem sumpWrite_ri (s : State) (page code : Nat) (forced : Bool) (inf : List Byte) :
    (sumpWrite s page code forced inf).ri = s.ri := by
  unfold sumpWrite
  refine forEach_keeps State.ri _ _ (fun s e => ?_) s
  rw [mergeWord_ri]
  split <;> rfl

@[simp] theorem notifyPf0_ri (s : State) (p : Bool) : (notifyPf0 s p).ri = s.ri := by
  have hsend (o : Output) : (hostSend s p o).ri = s.ri := by
    unfold hostSend
    split
    · rfl
    · exact modHp_ri s p _
  unfold notifyPf0
  rw [apply_ite State.ri, hsend, ite_self]

/-- The event of a hostless member goes to the headframe as a message, which moves no headframe. -/
@[simp] theorem isHeadframe_notifyHost (s : State) (page : Nat) : isHeadframe (notifyHost s page) = isHeadframe s := by
  unfold notifyHost
  dsimp only
  split
  · exact sendMessage_keeps (f := isHeadframe) (fun _ _ _ => rfl) (fun _ _ => rfl) s _ _ _ _
  · split
    · exact isHeadframe_of_ri (notifyPf0_ri ..)
    · exact isHeadframe_of_ri ((notifyPf0_ri ..).trans (notifyPf0_ri ..))

/-- An event moves no headframe. -/
@[simp] theorem isHeadframe_raiseEvent (s : State) (page code : Nat) (inf : List Byte) (forced : Bool) :
    isHeadframe (raiseEvent s page code inf forced) = isHeadframe s := by
  unfold raiseEvent
  extract_lets h enabled fault s1 recorded seqLow s2 data s3 s4
  have h1 : s1.ri = s.ri := (apply_ite State.ri ..).trans (ite_self _)
  have h2 : s2.ri = s1.ri := (apply_ite State.ri ..).trans (ite_self _)
  have h3 : s3.ri = s2.ri := by rw [apply_ite State.ri, sumpWrite_ri, ite_self]
  have h4 : isHeadframe s4 = isHeadframe s3 := by rw [apply_ite isHeadframe, isHeadframe_notifyHost, ite_self]
  have hqueue (cls : Nat) : isHeadframe (mgmtEnqueue s4 cls data fault) = isHeadframe s4 := by
    unfold mgmtEnqueue
    split <;> rfl
  rw [apply_ite isHeadframe, hqueue, ite_self, h4, isHeadframe_of_ri (h3.trans (h2.trans h1))]

/-- A rejection moves no headframe. -/
theorem isHeadframe_reject (s : State) (e : PErr) (model : Nat) : isHeadframe (reject s e model) = isHeadframe s := by
  unfold reject
  dsimp only
  rw [isHeadframe_raiseEvent]
  exact isHeadframe_of_ri rfl

/-! ### PLAN_ADMIT (R283, R461) -/

section
variable {s : State} {i : Issuer} {addr : BitVec 64} {ok : Bool} (hs : starts s i 0x30 [addr.toNat] = true)

include hs

/-- PLAN_ADMIT from anywhere but PF0 of Port A of the headframe. -/
theorem execPlanAdmit_notAllowed (hp : fromHeadPf0 s i = false) : execPlanAdmit i addr ok s = .next (complete s i stNotAllowed) :=
  (command_started hs _).trans (congrArg _ (if_pos (by rw [hp]; rfl)))

variable (hp : fromHeadPf0 s i = true)

include hp

/-- PLAN_ADMIT while a device may not take a set. -/
theorem execPlanAdmit_barred (hbar : admitBarred s = true ∨ ok = false) : execPlanAdmit i addr ok s = .next
    (complete (reject (modelAt s addr.toNat).2 (rejState, 0, lsHeader, 0) (modelAt s addr.toNat).1) i rejState
      (rejectResult (ownPosition s) (rejState, 0, lsHeader, 0))) := by
  refine (command_started hs _).trans (congrArg _ ((if_neg (by simp [hp])).trans (if_pos ?_)))
  simpa using hbar

variable {n : Nat} (hbar : admitBarred s = false) (hn : imageSize s (stackKey s 0) addr.toNat = n)

include hbar hn

/-- PLAN_ADMIT of an image outside owner 0's granted memory. -/
theorem execPlanAdmit_memAccess (hmem : extentsGranted s 0 addr.toNat 256 = false ∨ extentsGranted s 0 addr.toNat n = false) :
    execPlanAdmit i addr true s = .next (complete s i stMemAccess) := by
  subst hn
  refine (command_started hs _).trans (congrArg _ ((if_neg (by simp [hp])).trans ((if_neg (by simp [hbar])).trans (if_pos ?_))))
  simpa using hmem

variable (hhead : extentsGranted s 0 addr.toNat 256 = true) (hall : extentsGranted s 0 addr.toNat n = true)

include hhead hall

/-- PLAN_ADMIT of a readable image, by whether it holds a poisoned word. -/
theorem execPlanAdmit_readable : execPlanAdmit i addr true s = .next (if poisonedIn s addr.toNat n
    then complete (eccRead s addr.toNat n [] rdCommand 258) i stMemError
    else broadcast { s with sq := { s.sq with checking := some (addr.toNat, stackKey s 0), admitCmd := some i, state := 2 } } 0x30
      [addr.toNat] (readUnder s (stackKey s 0) addr.toNat n)) := by
  subst hn
  refine (command_started hs _).trans (congrArg _ ((if_neg (by simp [hp])).trans ((if_neg (by simp [hbar])).trans
    (if_neg (by simp [hhead, hall])))))

end

/-! ### PLAN_CHECK_COMPLETE (R284, R286) -/

/-- On the headframe, with an error-free image in granted memory and no rejection from elsewhere, this device's own check decides. -/
theorem execPlanCheckComplete_alone {s : State} {a key : Nat} (hc : s.sq.checking = some (a, key)) (hh : isHeadframe s = true)
    (hp : s.ms.poisoned = []) (hl : s.ms.latent = []) (hg : extentsGranted s 0 a (imageSize s key a) = true) :
    execPlanCheckComplete [] [] s = .next (match (checkImage s a key).2 with
      | none => { s with sq := { s.sq with checking := none, checked := some { (checkImage s a key).1 with addr := a } } }
      | some e => checkOver (completeAdmit (reject s e (checkImage s a key).1.modelId.toNat) e.1 (rejectResult (ownPosition s) e))) := by
  have hreject (e : PErr) (model : Nat) : isHeadframe (reject s e model) = true := (isHeadframe_reject s e model).trans hh
  unfold execPlanCheckComplete
  rw [hc]
  dsimp only
  rw [eccRead_clean hp hl, if_neg (by rw [poisonedIn_clean hp]; decide), if_neg (by rw [hg]; simp)]
  cases (checkImage s a key).2 with
  | none =>
    dsimp only
    rw [if_pos hh, List.map_nil, List.append_nil, lowestReject]
  | some e =>
    dsimp only
    rw [if_pos (hreject ..), List.map_nil, List.append_nil, lowestReject, lowestReject]

/-! ### PLAN_ADMITTED (R284) -/

/-- Standing slots change the cores alone. -/
theorem defineStandings_sq (s : State) : (defineStandings s).sq = s.sq := by
  refine forEach_keeps State.sq _ _ (fun s x => ?_) s
  unfold defineStanding
  split <;> rfl

/-- The sequencer of a set in force: its lowest bucket is active in empty round 0, with nothing in flight and nothing repeated. -/
theorem admitSet_sq (s : State) (ps : PlanSet) (r : List (Nat × Nat)) : ∃ q : Sq, (admitSet s ps r).sq = { q with
    planSet := some ps, checked := none, state := 3, active := (lowestPlan ps).bucket, retentionExt := r, round := 0, emptyRound := true
    rho := [], steps := [], runs := [] } :=
  ⟨(admitSet s ps r).sq, by
    unfold admitSet
    extract_lets
    rw [defineStandings_sq]⟩

/-- PLAN_ADMITTED between beats, with ranges that retention may take. -/
theorem execPlanAdmitted_checked {s : State} {ps : PlanSet} {ret : List (BitVec 32 × BitVec 32)} {r : List (Nat × Nat)}
    (hr : ret.map (fun x => (x.1.toNat, x.2.toNat)) = r) (hc : s.sq.checked = some ps) (hlive : s.sq.live = none)
    (hok : retentionOk s (ownRecs s ps) r = true) :
    let u := raiseEvent (admitSet s ps r) 6 0x04 (info [(8, ps.modelId.toNat), (2, bucketMask ps), (1, (lowestPlan ps).bucket)])
    let v := match s.sq.admitCmd with
      | some i => complete u i stOk (padTo 8 [])
      | none => u
    execPlanAdmitted ret s = .next (if isHeadframe v then sendRoundStart (setStretch v) else v) := by
  subst hr
  have hactive : (admitSet s ps (ret.map (fun x => (x.1.toNat, x.2.toNat)))).sq.active = (lowestPlan ps).bucket := by
    obtain ⟨q, hq⟩ := admitSet_sq s ps (ret.map (fun x => (x.1.toNat, x.2.toNat)))
    rw [hq]
  unfold execPlanAdmitted
  simp only [hc, hlive, hok, hactive, Option.isSome_none, Bool.false_eq_true, Bool.not_true, or_self, if_false]
  rfl

/-! ### Retirement (R299, R640) -/

/-- Discarding the steps in flight leaves the bindings. -/
theorem discardSteps_bindings (s : State) : (discardSteps s).bindings = s.bindings :=
  forEach_keeps State.bindings s.sq.steps (fun s x => modStream s x.stream _) (fun _ _ => rfl) s

/-- The walk over the extents of retention changes memory control and reports (R299, R387). -/
theorem releaseRetention_facts (s : State) : (releaseRetention s).sq = { s.sq with retentionExt := [], retention := [] } ∧
    (releaseRetention s).bindings = s.bindings := by
  unfold releaseRetention
  extract_lets u
  have hu {β : Type} (f : State → β) (hms : ∀ s m, f { s with ms := m } = f s)
      (hev : ∀ s p c i, f (raiseEvent s p c i) = f s) : f u = f s :=
    forEach_keeps f _ _ (fun s r => (forEach_keeps f _ _ (fun s e => (hev ..).trans (hms ..)) _).trans (hms ..)) s
  have hsq : u.sq = s.sq := hu State.sq (fun _ _ => rfl) (fun s p c i => raiseEvent_sq s p c i false)
  exact ⟨congrArg (fun q : Sq => { q with retentionExt := [], retention := [] }) hsq,
    hu State.bindings (fun _ _ => rfl) (fun s p c i => raiseEvent_bindings s p c i false)⟩

/-- Retirement leaves no set, no step and no retained copy, and the bindings as they were. -/
theorem retireSet_facts (s : State) : (retireSet s).bindings = s.bindings ∧ (retireSet s).sq.steps = [] ∧
    (retireSet s).sq.retention = [] := by
  obtain ⟨hsq, hbind⟩ := releaseRetention_facts (discardSteps s)
  unfold retireSet
  extract_lets u1 u2 u3 u4
  have hkeep {β : Type} (f : State → β) (hcore : ∀ s m, f { s with cores := m } = f s) (htg : ∀ s m, f { s with tgs := m } = f s)
      (htile : ∀ s m, f { s with tiles := m } = f s) (hhdr : ∀ s m, f { s with hdrs := m } = f s) : f u4 = f u1 := by
    refine (forEach_keeps f _ _ (fun _ _ => hhdr ..) u3).trans ((forEach_keeps f _ _ (fun _ _ => hhdr ..) u2).trans ?_)
    exact (htile ..).trans ((forEach_keeps f _ _ (fun _ _ => htg ..) _).trans (forEach_keeps f _ _ (fun _ _ => hcore ..) u1))
  have hq : u4.sq = u1.sq := hkeep State.sq (fun _ _ => rfl) (fun _ _ => rfl) (fun _ _ => rfl) (fun _ _ => rfl)
  have hb : u4.bindings = u1.bindings := hkeep State.bindings (fun _ _ => rfl) (fun _ _ => rfl) (fun _ _ => rfl) (fun _ _ => rfl)
  clear_value u4
  refine ⟨?_, ?_, ?_⟩
  · show u4.bindings = s.bindings
    rw [hb, hbind, discardSteps_bindings]
  · show u4.sq.steps = []
    rw [hq, hsq]
    rfl
  · show u4.sq.retention = []
    rw [hq, hsq]

section
variable {s : State} {i : Issuer} (hp : fromHeadPf0 s i = true)

include hp

/-- PLAN_RETIRE with no set admitted. -/
theorem execPlanRetire_none (hs : starts s i 0x31 [] = true) (hplan : planAdmitted s = false) :
    execPlanRetire i s = .next (complete s i stNoSet) := by
  unfold execPlanRetire
  rw [command_started hs, if_neg (by rw [hp]; decide), if_pos (by rw [hplan]; rfl)]

/-- PLAN_RETIRE of the admitted set. -/
theorem execPlanRetire_admitted (hs : starts s i 0x31 [] = true) (hplan : planAdmitted s = true) (hwant : s.sq.retireWanted = 0) :
    execPlanRetire i s = .next (complete { s with sq := { s.sq with retireWanted := 1 } } i stOk) := by
  unfold execPlanRetire
  rw [command_started hs, if_neg (by rw [hp]; decide), if_neg (by rw [hplan]; decide), if_pos hwant]

/-- RING_RESUME, which a halt notes. -/
theorem execRingResume_head (hs : starts s i 0x32 [] = true) : execRingResume i s =
    .next (complete (if s.sq.state = 5 then { s with sq := { s.sq with resumeIssued := true } } else s) i stOk) := by
  unfold execRingResume
  rw [command_started hs, if_neg (by rw [hp]; decide)]

end

/-- PLAN_RETIRED at a boundary that halts for a retirement. -/
theorem execPlanRetired_halted {s : State} {ps : PlanSet} (hps : s.sq.planSet = some ps) (hhalt : s.sq.haltRetire = true)
    (hlive : s.sq.live = none) : execPlanRetired s = .next (raiseEvent (forEach (upTo 64) applyTrims (retireSet s)) 6 0x0C
      (info [(1, if s.sq.retireWanted = 2 then 2 else 1), (7, 0), (8, ps.modelId.toNat)])) := by
  have hmember : ¬(!s.sq.haltRetire && memberRoundEnd s) = true := by simp [hhalt]
  unfold execPlanRetired
  rw [hps]
  dsimp only
  rw [if_neg hmember, if_neg (not_or.mpr ⟨by rw [hhalt]; decide, by rw [hlive]; decide⟩), pgSq]

/-- IDLE_BOUNDARY_PASS with no set admitted, by whether a millisecond of RTB has begun (R360). -/
theorem execIdleBoundaryPass_idle {s u : State} (hplan : planAdmitted s = false) (hu : u = { s with sq := { s.sq with
      lastIdleMs := s.power.rtb.toNat / 100000, edgeAt := some s.clock, edgeKind := 2 } }) :
    execIdleBoundaryPass s = .next (if s.sq.lastIdleMs = s.power.rtb.toNat / 100000 then s
      else stepsTwoToFour (if isHeadframe s then expireDue (actCommands u) else u) s.sq.epoch) := by
  subst hu
  unfold execIdleBoundaryPass rtb
  dsimp only
  by_cases h : s.sq.lastIdleMs = s.power.rtb.toNat / 100000
  · rw [if_pos h, if_pos (.inr h.symm)]
  · rw [if_neg h, if_neg (not_or.mpr ⟨by rw [hplan]; decide, Ne.symm h⟩)]
    rfl

end Sys2Proof.Machine

open Sys2Proof Sys2Proof.Machine

/-- Settles O38: each command by the branch its conditions choose; the state that admission and retirement leave by `admitSet_sq` and
`retireSet_facts`. -/
theorem planSetsComeAndGo : Obligations.PlanSetsComeAndGo := by
  refine ⟨?check, fun s a key hc hh hp hl hg => execPlanCheckComplete_alone hc hh hp hl hg, ?admitted, ?inForce, ?retire,
    fun s ps hps hhalt hlive => execPlanRetired_halted hps hhalt hlive, ?gone, ?resume, ?idle⟩
  case check =>
    intro s i addr ok hs
    refine ⟨execPlanAdmit_notAllowed hs, fun hp hbar => ?_, execPlanAdmit_barred hs⟩
    intro key n u
    refine ⟨execPlanAdmit_memAccess hs hp hbar rfl, fun hhead hall => ?_⟩
    have hexec := execPlanAdmit_readable hs hp hbar rfl hhead hall
    exact ⟨fun hpoison => hexec.trans (congrArg _ (if_pos hpoison)),
      fun hclean => hexec.trans (congrArg _ (if_neg (Bool.eq_false_iff.mp hclean)))⟩
  case admitted =>
    intro s ps ret r u v hc hlive hok
    exact execPlanAdmitted_checked rfl hc hlive hok
  case inForce =>
    intro s ps r t
    obtain ⟨q, hq⟩ := admitSet_sq s ps r
    have ht : t.sq = _ := hq
    unfold planAdmitted
    rw [ht]
    exact ⟨rfl, rfl, rfl, rfl, rfl, rfl, rfl, rfl, rfl, rfl, rfl⟩
  case retire =>
    intro s i hs hp
    exact ⟨execPlanRetire_none hp hs, execPlanRetire_admitted hp hs⟩
  case gone =>
    intro s t
    obtain ⟨hbind, hsteps, hret⟩ := retireSet_facts s
    exact ⟨rfl, rfl, rfl, rfl, hret, hsteps, hbind⟩
  case resume =>
    intro s i hs hp
    exact execRingResume_head hp hs
  case idle =>
    intro s hplan
    have hexec := execIdleBoundaryPass_idle hplan rfl
    exact ⟨fun h => hexec.trans (congrArg _ (if_pos h)), fun h => hexec.trans (congrArg _ (if_neg h))⟩
end

section
/-! SUPPORT. Plan DMA, page copies, transfers on the ring and token records of a beat (R208, R278, R295, R318, R320-R322, R329, R362,
R381-R383, R386, R416-R418, R421). -/

namespace Sys2Proof.Machine

/-! ### DMA_SLOT_START (R278, R295, R322, R381) -/

/-- Row identifiers out of range are reported, which takes no time. -/
theorem rowRange_clock (s : State) (owner k : Nat) (x : Dma) (ids : List Nat) : (rowRange s owner k x ids).clock = s.clock := by
  unfold rowRange
  split
  · split
    · rfl
    · exact raiseEvent_clock ..
  · rfl

/-- The owner under whose key a DMA slot transfers: that of the run it selects, or the slot's own (R381). -/
def dmaOwner (x : Dma) (r : Option RunAssign) : Nat :=
  match r with
  | some r => r.owner
  | none => if x.mode = 2 then x.owner else 0

section
variable {s u : State} {slot : BitVec 16} {l : Live} {x : Dma} {r : Option RunAssign} (hlive : s.sq.live = some l)
  (hx : (liveTemplate s).dmas[slot.toNat]? = some x) (hstart : l.cycle = 2 * x.start) (hdone : l.done.contains (5, slot.toNat) = false)
  (hu : modLive s (fun l => { l with done := (5, slot.toNat) :: l.done }) = u)
  (hr : (if x.mode = 1 then selectedRun u l x.addr else none) = r)

include hlive hx hstart hdone hu

/-- A DMA slot whose queue is frozen makes no transfer. -/
theorem execDmaSlotStart_frozen (hf : isFrozen s 2 x.core = true) : execDmaSlotStart slot [] s = .next u := by
  subst hu
  unfold execDmaSlotStart
  simp only [hlive, hx]
  rw [if_neg (not_or.mpr ⟨not_not.mpr hstart, Bool.eq_false_iff.mp hdone⟩)]
  exact congrArg _ (if_pos hf)

variable (hf : isFrozen s 2 x.core = false)

include hf

/-- An unposted write is not made. -/
theorem execDmaSlotStart_unposted (hdir : x.dir = 1) (hpost : isPosted u 3 slot.toNat = false) :
    execDmaSlotStart slot [] s = .next (unposted u 3 slot.toNat) := by
  subst hu
  have hf : isFrozen (modLive s (fun l => { l with done := (5, slot.toNat) :: l.done })) 2 x.core = false := hf
  unfold execDmaSlotStart
  simp only [hlive, hx]
  rw [if_neg (not_or.mpr ⟨not_not.mpr hstart, Bool.eq_false_iff.mp hdone⟩), if_neg (Bool.eq_false_iff.mp hf),
    if_pos ⟨hdir, by rw [hpost]; rfl⟩]

variable (hpost : x.dir = 1 → isPosted u 3 slot.toNat = true)

include hr hpost

/-- A refused access freezes the queue. -/
theorem execDmaSlotStart_refused (hno : dmaRefused u x r = true) : execDmaSlotStart slot [] s = .next (if x.mode = 1
    then freezeQueue (draw u).2 l.pos x.core 0x0A05 ((draw u).1 % 2 ^ 64) else freezeQueue u l.pos x.core 0x0A05 x.addr) := by
  subst hu hr
  have hf : isFrozen (modLive s (fun l => { l with done := (5, slot.toNat) :: l.done })) 2 x.core = false := hf
  unfold execDmaSlotStart
  simp only [hlive, hx]
  rw [if_neg (not_or.mpr ⟨not_not.mpr hstart, Bool.eq_false_iff.mp hdone⟩), if_neg (Bool.eq_false_iff.mp hf),
    if_neg (by rintro ⟨hdir, hnot⟩; rw [hpost hdir] at hnot; exact absurd hnot (by decide)), if_pos hno]

/-- An allowed transfer runs, with what it reads from the scratchpad at its START. -/
theorem execDmaSlotStart_go {ids : List Nat} (hgo : dmaRefused u x r = false)
    (hids : (if x.mode = 1 ∧ kvSpan x.addr = 2 ∧ r.isSome = true then rowIds (getCore s x.core) x [] else []) = ids) :
    let v := rowRange u (dmaOwner x r) slot.toNat x ids
    execDmaSlotStart slot [] s = .next { v with sq := { v.sq with dmaRunning := v.sq.dmaRunning ++ [{
      pos := l.pos, template := l.template, slot := slot.toNat, owner := dmaOwner x r, run := r, endAt := s.clock + 2 * x.stop - l.cycle
      ids := ids, data := if x.dir = 1 then (getCore s x.core).serve x.offset x.bytes [] else [] }] } } := by
  subst hu hr hids
  have hf : isFrozen (modLive s (fun l => { l with done := (5, slot.toNat) :: l.done })) 2 x.core = false := hf
  have hrows (b : Bool) : ((x.mode == 1 && kvSpan x.addr == 2 && b) = true) = (x.mode = 1 ∧ kvSpan x.addr = 2 ∧ b = true) := by
    simp [and_assoc]
  unfold execDmaSlotStart
  simp only [hlive, hx]
  rw [if_neg (not_or.mpr ⟨not_not.mpr hstart, Bool.eq_false_iff.mp hdone⟩), if_neg (Bool.eq_false_iff.mp hf),
    if_neg (by rintro ⟨hdir, hnot⟩; rw [hpost hdir] at hnot; exact absurd hnot (by decide)), if_neg (Bool.eq_false_iff.mp hgo)]
  simp only [scratchEcc_clean, ite_self, rowRange_clock, hrows]
  rfl

end

/-! ### DMA_TRANSFER_COMPLETE (R318, R383) -/

/-- A walk that changes nothing in its state. -/
theorem forEach_fixed {α : Type} {f : State → α → State} {s : State} (l : List α) (h : ∀ a, f s a = s) : forEach l f s = s := by
  unfold forEach
  induction l with
  | nil => rfl
  | cons a l ih => rwa [List.foldl_cons, h]

/-- What a transfer that completes leaves of the state: it runs no more, and after END it counts in LATE. -/
def dmaEnded (s : State) (d : DmaRun) : State :=
  let u := { s with sq := { s.sq with dmaRunning := s.sq.dmaRunning.erase d } }
  if d.endAt < s.clock then { u with ms := { u.ms with late := s.ms.late.bump (sclk s) 65535 1 } } else u

/-- The end of a transfer leaves the errors in the stacks, the frozen cores and the keys. -/
theorem dmaEnded_facts (s : State) (d : DmaRun) : (dmaEnded s d).ms.poisoned = s.ms.poisoned ∧
    (dmaEnded s d).ms.latent = s.ms.latent ∧ (∀ c, coreFrozen (dmaEnded s d) c = coreFrozen s c) ∧
    ∀ o, stackKey (dmaEnded s d) o = stackKey s o := by
  unfold dmaEnded
  dsimp only
  split <;> exact ⟨rfl, rfl, fun _ => rfl, fun _ => rfl⟩

section
variable {s : State} {pos slot : BitVec 16} {d : DmaRun}
  (hd : s.sq.dmaRunning.find? (fun d => d.pos == pos.toNat && d.slot == slot.toNat) = some d)

include hd

/-- A KV read behind an uncommitted write of one of its rows does not complete. -/
theorem execDmaTransferComplete_held (ecc : List (Nat × Bool)) (hheld : heldBehind s (runningDma s d) d = true) :
    execDmaTransferComplete pos slot ecc s = .next s := by
  unfold execDmaTransferComplete
  rw [hd]
  exact congrArg _ (if_pos hheld)

variable (hheld : heldBehind s (runningDma s d) d = false)

include hheld

/-- A transfer whose queue has frozen ends without effect. -/
theorem execDmaTransferComplete_frozen (ecc : List (Nat × Bool)) (hf : isFrozen s 2 (runningDma s d).core = true) :
    execDmaTransferComplete pos slot ecc s = .next { s with sq := { s.sq with dmaRunning := s.sq.dmaRunning.erase d } } := by
  unfold execDmaTransferComplete
  rw [hd]
  exact congrArg _ ((if_neg (Bool.eq_false_iff.mp hheld)).trans (if_pos hf))

/-- A transfer that meets no error in the stacks completes. -/
theorem execDmaTransferComplete_go (hf : isFrozen s 2 (runningDma s d).core = false) (hp : s.ms.poisoned = []) (hl : s.ms.latent = []) :
    let v := dmaEnded s d
    let x := runningDma s d
    execDmaTransferComplete pos slot [] s = .next (if x.dir = 0 then
        if coreFrozen s x.core then v else deliverRows d.pos x.core x.offset
          (chunks 64 (x.bytes / 64) (readPieces v (stackKey s d.owner) (dmaPieces v x d))) v
      else forEach (writePieces v x d) (fun s w => writeUnder s (stackKey v d.owner) w.1 w.2 x.core) v) := by
  intro v x
  obtain ⟨hpoison, hlatent, hcore, hkey⟩ := dmaEnded_facts s d
  have hread (ps : List (Option Nat × Nat)) : forEach ps (fun s p => match p.1 with
      | some a => eccRead s a p.2 [] rdPlan x.core
      | none => s) v = v := by
    refine forEach_fixed _ fun p => ?_
    split
    · exact eccRead_clean (hpoison.trans hp) (hlatent.trans hl) ..
    · rfl
  rw [← hcore x.core, ← hkey d.owner]
  unfold execDmaTransferComplete
  rw [hd]
  dsimp only
  refine congrArg _ ((if_neg (Bool.eq_false_iff.mp hheld)).trans ((if_neg (Bool.eq_false_iff.mp hf)).trans (if_congr Iff.rfl ?_ rfl)))
  exact (congrArg (fun w => if coreFrozen w x.core then w else deliverRows d.pos x.core x.offset
    (chunks 64 (x.bytes / 64) (readPieces w (stackKey v d.owner) (dmaPieces v x d))) w) (hread (dmaPieces v x d)))

end

/-- A transfer outside KV selectors moves its own bytes from or to its own address. -/
theorem pieces_of_not_kv (s : State) {x : Dma} (d : DmaRun) (h : x.mode ≠ 1) :
    dmaPieces s x d = [(some x.addr, x.bytes)] ∧ writePieces s x d = [(x.addr, d.data)] := ⟨if_pos h, if_pos h⟩

/-! ### COPY_COMPLETE (R362) -/

section
variable {s : State} {stream : BitVec 16} {page : BitVec 14} {others : Bool} {t : Stream} {c : Nat × Nat × Bool}
  (ht : getStream s stream.toNat = some t) (hc : t.copies.find? (fun c => c.1 == page.toNat && !c.2.2) = some c)

include ht hc

/-- The headframe waits for the copies of the other devices. -/
theorem execCopyComplete_waits (ecc : List (Nat × Bool)) (hh : isHeadframe s = true) (ho : others = false) :
    execCopyComplete stream page others ecc s = .next s := by
  unfold execCopyComplete
  simp only [ht, hc]
  exact congrArg _ (if_pos ⟨hh, by rw [ho]; rfl⟩)

/-- A copy that is done is marked, its blocks copied where the device holds the stream's channel and the page has a frame. -/
theorem execCopyComplete_done (ecc : List (Nat × Bool)) (hdone : isHeadframe s = false ∨ others = true) :
    let g := ownGeometry s
    let e := kvEntry (g.getD 2 0 == 1) (g.getD 1 0)
    execCopyComplete stream page others ecc s = .next (modStream
      (if (!ownChannel s t.set.channel) = true ∨ tblGet 0 t.pages page.toNat = 0 then s else
        forEach (upTo (2 * g.getD 3 0 * g.getD 0 0)) (fun u b => copyBlock u (stackKey u t.owner)
          (frameAddr s (tblGet 0 t.pages page.toNat - 1) + b * (64 * e)) (frameAddr s c.2.1 + b * (64 * e)) (64 * e)
          (e * min 64 (t.length - 64 * page.toNat)) ecc) s) stream.toNat (fun t => { t with
            copies := t.copies.map (fun d => if d = c then (c.1, c.2.1, true) else d) })) := by
  have hgo : ¬(isHeadframe s = true ∧ (!others) = true) := by
    rintro ⟨hh, ho⟩
    rcases hdone with h | h
    · rw [h] at hh
      exact absurd hh (by decide)
    · rw [h] at ho
      exact absurd ho (by decide)
  unfold execCopyComplete
  simp only [ht, hc]
  exact congrArg _ (if_neg hgo)

end

/-! ### TIMED_SEND (R295, R416) -/

theorem Sent.sq {s t : State} (h : Sent s t) : t.sq = s.sq := by
  obtain ⟨r, o, rfl⟩ := h
  rfl

/-- Flits on the next link leave everything but the ring interface and the outputs. -/
theorem sent_sendFlits (s : State) (r : Ring) (data : List Byte) (lost : List Nat) (lo hi : Nat) : Sent s (sendFlits s r data lost lo hi) :=
  sent_forEach _ _ (fun s _ => sent_sendFlit s _ _ _ _) s

/-- Errors of a scratchpad leave the beat's cycle and marks. -/
@[simp] theorem beatMarks_scratchEcc (s : State) (c : Nat) (sp : List (Nat × Nat)) (ecc : List (Nat × Bool)) :
    beatMarks (scratchEcc s c sp ecc) = beatMarks s := by
  unfold scratchEcc
  dsimp only
  split
  · rfl
  · split
    · exact (beatMarks_freezeCore ..).trans (beatMarks_of_sq rfl)
    · rfl

/-- An unposted slot leaves the beat's cycle and marks. -/
@[simp] theorem beatMarks_unposted (s : State) (kind index : Nat) : beatMarks (unposted s kind index) = beatMarks s := by
  unfold unposted
  split
  · rw [beatMarks_posFault, beatMarks_freezeCore]
  · exact beatMarks_posFault ..

/-- A piece of a payload leaves the beat's cycle and marks. -/
@[simp] theorem beatMarks_sendPiece (s : State) (r : Ring) (x : Sending) : beatMarks (sendPiece s r x) = beatMarks s := by
  unfold sendPiece
  extract_lets lo hi a b y u v
  have hu : beatMarks u = beatMarks s := by rw [apply_ite beatMarks, beatMarks_scratchEcc, ite_self]
  have hv : beatMarks v = beatMarks u := beatMarks_of_sq (sent_sendFlits ..).sq
  rw [← hu, ← hv]
  split <;> rfl

/-- A ring slot at its SEND that has not been sent is marked. -/
theorem beatMarks_execTimedSend {s : State} {slot : BitVec 16} {l : Live} {r : Ring} (ecc : List (Nat × Bool))
    (hlive : s.sq.live = some l) (hr : (liveTemplate s).rings[slot.toNat]? = some r) (htick : l.cycle / 2 = r.send)
    (hdone : l.done.contains (4, slot.toNat) = false) :
    ∃ t, execTimedSend slot ecc s = .next t ∧ beatMarks t = some (l.cycle, (4, slot.toNat) :: l.done) := by
  have hmark := beatMarks_modLive_done hlive (fun d => (4, slot.toNat) :: d)
  unfold execTimedSend
  simp only [hlive, hr]
  rw [if_neg (not_or.mpr ⟨not_not.mpr htick, Bool.eq_false_iff.mp hdone⟩)]
  refine ⟨_, rfl, (beatMarks_sendPiece ..).trans (Eq.trans ?_ hmark)⟩
  have hposted (b : Bool) (u : State) : beatMarks (if b then u else unposted u 2 slot.toNat) = beatMarks u := by
    rw [apply_ite beatMarks, beatMarks_unposted, ite_self]
  split
  · exact (beatMarks_of_sq rfl).trans (hposted ..)
  · exact hposted ..

/-! ### The re-timing buffer (R410, R416) -/

/-- Padding gives the length asked for. -/
@[simp] theorem padTo_length (n : Nat) (l : List Byte) : (padTo n l).length = n := by
  induction n generalizing l with
  | zero => rfl
  | succ n ih =>
    cases l with
    | nil => exact congrArg (· + 1) (ih [])
    | cons b bs => exact congrArg (· + 1) (ih bs)

/-- A transfer put into the buffer is found there. -/
theorem findTransfer_putTransfer (s : State) {t : Transfer} {src pos slot : Nat} (h : t.is src pos slot = true) :
    findTransfer (putTransfer s t) src pos slot = some t := by
  obtain ⟨⟨rfl, rfl⟩, rfl⟩ : (t.src = src ∧ t.pos = pos) ∧ t.slot = slot := by simpa [Transfer.is] using h
  have hnone : (s.ri.retime.filter (fun u => !u.is t.src t.pos t.slot)).find? (·.is t.src t.pos t.slot) = none := by
    refine List.find?_eq_none.mpr fun u hu => ?_
    simpa using (List.mem_filter.mp hu).2
  unfold findTransfer putTransfer
  rw [List.find?_append, hnone, Option.none_or]
  exact List.find?_cons_of_pos (p := fun u : Transfer => u.is t.src t.pos t.slot) h

/-- A transfer taken out of the buffer is not found there. -/
theorem findTransfer_removed (s : State) (src pos slot : Nat) :
    findTransfer { s with ri := { s.ri with retime := s.ri.retime.filter (fun u => !u.is src pos slot) } } src pos slot = none := by
  refine List.find?_eq_none.mpr fun u hu => ?_
  simpa using (List.mem_filter.mp hu).2

/-- A transfer that is found is the one looked for. -/
theorem is_of_findTransfer {s : State} {src pos slot : Nat} {t : Transfer} (h : findTransfer s src pos slot = some t) :
    t.is src pos slot = true := List.find?_some (p := fun t : Transfer => t.is src pos slot) h

/-- The first flit of a transfer begins its buffer, as lost where it failed. -/
theorem execTimedFlit_first {s : State} {src : BitVec 6} {pos slot index : BitVec 16} {x : Pos} {r : Ring} (payload : List (BitVec 8))
    (ok poison : Bool) (hslot : ringSlot s src.toNat pos.toNat slot.toNat = some (x, r)) (hlayout : x.layout = s.sq.layout)
    (hempty : s.sq.emptyRound = false) (hpath : onPath s src.toNat r = true)
    (hfrozen : isFrozen s 4 (timedSource src.toNat r.srcCore) = false)
    (hnone : findTransfer s src.toNat pos.toNat slot.toNat = none) (hindex : index = 0) (hcount : 0 < flitCount r.bytes) :
    ∃ y : Transfer, execTimedFlit src pos slot index payload ok poison s = .next (putTransfer s y) ∧
      y.is src.toNat pos.toNat slot.toNat = true ∧ y.data.length = 246 ∧ (y.lost = [] ↔ ok = true ∧ poison = false) := by
  subst hindex
  unfold execTimedFlit
  simp only [hslot, hnone, Option.getD_none]
  rw [if_neg (by simp [hlayout, hempty, hpath, hfrozen, Nat.ne_of_gt hcount])]
  refine ⟨_, rfl, by simp [Transfer.is], ?length, ?lost⟩
  case length =>
    dsimp only
    rw [List.nil_append, apply_ite List.length, padTo_length, padTo_length, ite_self]
    rfl
  case lost => cases ok <;> cases poison <;> simp

/-- A payload held whole, whose delay is over, is released to its end. -/
theorem execTimedRelease_whole {s : State} {src : BitVec 6} {pos slot : BitVec 16} {x : Pos} {r : Ring} {y : Transfer}
    (hslot : ringSlot s src.toNat pos.toNat slot.toNat = some (x, r))
    (hy : findTransfer s src.toNat pos.toNat slot.toNat = some y) (hdrop : y.dropped = false)
    (hheld : flitCount r.bytes * 246 ≤ y.data.length) (hdelay : linkTicks r.bytes ≤ roundTick s - releaseTick s src.toNat x r)
    (hleft : y.released < linkTicks r.bytes) :
    ∃ t, execTimedRelease src pos slot s = .next t ∧ findTransfer t src.toNat pos.toNat slot.toNat =
      (if r.dstDevice = ownPosition s then some { y with released := linkTicks r.bytes } else none) := by
  have hdue : min (linkTicks r.bytes) (min (linkTicks r.bytes) (roundTick s - releaseTick s src.toNat x r)) = linkTicks r.bytes := by omega
  have hheld' : flitCount r.bytes * flitBytes ≤ y.data.length := hheld
  have hgo : ¬(y.dropped = true ∨ linkTicks r.bytes ≤ y.released) := not_or.mpr ⟨Bool.eq_false_iff.mp hdrop, by omega⟩
  have hself := is_of_findTransfer hy
  have hfound := findTransfer_putTransfer s (t := { y with released := linkTicks r.bytes }) hself
  unfold execTimedRelease
  simp only [hslot, hy, if_pos hheld', hdue, if_neg hgo, if_true]
  by_cases hdst : r.dstDevice = ownPosition s
  · exact ⟨_, congrArg _ (if_pos hdst), by rw [if_pos hdst, hfound]⟩
  · exact ⟨_, congrArg _ (if_neg hdst), by rw [if_neg hdst, findTransfer_removed]⟩

/-- Rows of a live arrival that have been released and not yet arrived are queued at the destination. -/
theorem execTimedArrival_live {s : State} {src : BitVec 6} {pos slot : BitVec 16} {x : Pos} {r : Ring} {y : Transfer} {rows : Nat}
    (hslot : ringSlot s src.toNat pos.toNat slot.toNat = some (x, r))
    (hy : findTransfer s src.toNat pos.toNat slot.toNat = some y) (hdrop : y.dropped = false) (hdst : r.dstDevice = ownPosition s)
    (hlayout : x.layout = s.sq.layout) (hempty : s.sq.emptyRound = false) (hbegun : y.arrived ≠ 0) (hlive : y.fromCopy = false)
    (hrows : min (480 * y.released) r.bytes / 64 = rows) (hmore : y.arrived < rows) :
    ∃ t z, execTimedArrival src pos slot s = .next t ∧ findTransfer t src.toNat pos.toNat slot.toNat = some z ∧ z.arrived = rows := by
  subst hrows
  unfold execTimedArrival
  simp only [hslot, hy, if_neg hbegun, hlive, Bool.false_eq_true, if_false, Option.getD_some, Option.isSome_none]
  rw [if_neg (by simp [hdst, hlayout, hempty]), if_neg (by simp [hdrop, hmore])]
  have hself := is_of_findTransfer hy
  exact ⟨_, _, rfl, findTransfer_putTransfer _ hself, rfl⟩

/-! ### TOKEN_RECORD_ARRIVAL (R329) -/

/-- Token records taken in the round. -/
def recordsTaken (s : State) : List Nat := s.sq.recordsTaken

theorem recordsTaken_of_sq {s t : State} (h : t.sq = s.sq) : recordsTaken t = recordsTaken s := congrArg (·.recordsTaken) h

/-- A core that freezes leaves the records taken. -/
theorem recordsTaken_freezeCore (s : State) (c code addr : Nat) : recordsTaken (freezeCore s c code addr) = recordsTaken s := by
  have hpos (s : State) (cause : Nat) : recordsTaken (posFault s cause) = recordsTaken s := by
    unfold posFault
    split <;> rfl
  have hzero (s : State) (c : Nat) : recordsTaken (zeroFetches s c) = recordsTaken s := by
    unfold zeroFetches
    split <;> rfl
  unfold freezeCore
  rw [hpos, hzero]
  exact recordsTaken_of_sq (freeze_sq ..)

/-- Errors of a scratchpad leave the records taken. -/
theorem recordsTaken_scratchEcc (s : State) (c : Nat) (sp : List (Nat × Nat)) (ecc : List (Nat × Bool)) :
    recordsTaken (scratchEcc s c sp ecc) = recordsTaken s := by
  unfold scratchEcc
  dsimp only
  split
  · rfl
  · split
    · exact recordsTaken_freezeCore ..
    · rfl

/-- An entry of a record moves its step and stream, and takes no record. -/
theorem recordsTaken_takeEntry (report : Bool) (data : List Byte) (s : State) (x : InFlight) (j : Nat) :
    recordsTaken (takeEntry report data s x j) = recordsTaken s := by
  unfold takeEntry
  extract_lets e mark
  split
  · rfl
  · split
    · split <;> rfl
    · split
      · rfl
      · exact (recordsTaken_of_sq (raiseEvent_sq ..)).trans rfl

/-- A token record that has come and is not yet taken is taken once. -/
theorem execTokenRecordArrival_due {s : State} {read : ErrRead} {f : Standing} {x : Pos} {p : Nat} (hp : read.subject.toNat = p)
    (hf : feedSlot (ownRec s) p = some f) (hx : posAt s p = some x) (hempty : s.sq.emptyRound = false) (hlayout : x.layout = s.sq.layout)
    (hnew : s.sq.recordsTaken.contains p = false) (hcore : coreFrozen s f.core = false)
    (hhere : if 1 < ringCount s then s.sq.recordsIn.contains p = true else s.sq.live = none ∧ lastEnd (ownRec s) s.sq.layout ≤ roundTick s) :
    ∃ t, execTokenRecordArrival read s = .next t ∧ recordsTaken t = recordsTaken s ++ [p] := by
  subst hp
  have hcome : (if 1 < ringCount s then s.sq.recordsIn.contains read.subject.toNat
      else s.sq.live.isNone && decide (lastEnd (ownRec s) s.sq.layout ≤ roundTick s)) = true := by
    split at hhere
    · next h => rwa [if_pos h]
    · next h =>
      rw [if_neg h]
      simpa using hhere
  have hgo : ¬((!(if 1 < ringCount s then s.sq.recordsIn.contains read.subject.toNat
      else s.sq.live.isNone && decide (lastEnd (ownRec s) s.sq.layout ≤ roundTick s))) = true ∨ s.sq.emptyRound = true ∨
      x.layout ≠ s.sq.layout ∨ s.sq.recordsTaken.contains read.subject.toNat = true ∨ coreFrozen s f.core = true) := by
    rw [hcome, hempty, hnew, hcore]
    simp [hlayout]
  have htold (u : State) (ws : List Nat) (bs : List Byte) :
      recordsTaken (if isHeadframe u then u else sendMessage u 0 0x60 ws bs) = recordsTaken u := by
    rw [apply_ite recordsTaken, recordsTaken_of_sq (sent_sendMessage ..).sq, ite_self]
  unfold execTokenRecordArrival
  simp only [hf, hx]
  rw [if_neg hgo]
  refine ⟨_, rfl, (htold ..).trans ((forEach_keeps recordsTaken _ _ (fun s j => ?step) _).trans ?taken)⟩
  case step =>
    split
    · exact recordsTaken_takeEntry ..
    · rfl
  case taken =>
    rw [← recordsTaken_scratchEcc s f.core [(f.base, 2 ^ f.n)] read.ecc]
    split <;> rfl

end Sys2Proof.Machine

open Sys2Proof Sys2Proof.Machine

/-- Settles O41: a DMA slot by the rule of each of its cases, a copy by whether it is waited for, a transfer on the ring by what the
buffer holds after it, a record by the records taken. -/
theorem planTransfers : Obligations.PlanTransfers := by
  refine ⟨?start, ?complete, fun s x d h => pieces_of_not_kv s d h, ?copy, ?send, ?flit, ?release, ?record⟩
  case start =>
    intro s slot l x k u r owner hlive hx hstart hdone
    have hu : modLive s (fun l => { l with done := (5, k) :: l.done }) = u := rfl
    refine ⟨execDmaSlotStart_frozen hlive hx hstart hdone hu, execDmaSlotStart_unposted hlive hx hstart hdone hu, fun hf hpost => ⟨?_, ?_, ?_⟩⟩
    · intro hno hmode
      exact (execDmaSlotStart_refused hlive hx hstart hdone hu rfl hf hpost hno).trans (congrArg _ (if_neg hmode))
    · intro hno hmode
      exact ⟨_, (execDmaSlotStart_refused hlive hx hstart hdone hu rfl hf hpost hno).trans (congrArg _ (if_pos hmode))⟩
    · intro hgo ids v
      exact execDmaSlotStart_go hlive hx hstart hdone hu rfl hf hpost hgo rfl
  case complete =>
    intro s pos slot d x u v hd hp hl
    refine ⟨execDmaTransferComplete_held hd [], fun hheld hf => execDmaTransferComplete_frozen hd hheld [] hf, fun hheld hf => ?_⟩
    have hgo := execDmaTransferComplete_go hd hheld hf hp hl
    refine ⟨fun hdir hcore => ?_, fun hdir hcore => ?_, fun hdir => ?_⟩
    · exact hgo.trans (congrArg _ ((if_pos hdir).trans (if_pos hcore)))
    · exact hgo.trans (congrArg _ ((if_pos hdir).trans (if_neg (Bool.eq_false_iff.mp hcore))))
    · exact hgo.trans (congrArg _ (if_neg hdir))
  case copy =>
    intro s stream page others t c ht hc
    refine ⟨execCopyComplete_waits ht hc [], fun hdone hch => ?_, fun hdone hch hframe => ?_⟩
    · refine (execCopyComplete_done ht hc [] hdone).trans ?_
      rw [if_pos (.inl (by rw [hch]; rfl))]
    · intro g e
      refine (execCopyComplete_done ht hc [] hdone).trans ?_
      rw [if_neg (not_or.mpr ⟨by rw [hch]; decide, hframe⟩)]
  case send =>
    intro s slot ecc l r hlive hr htick hdone
    exact exists_live_of_beatMarks (beatMarks_execTimedSend ecc hlive hr htick hdone)
  case flit =>
    intro s src pos slot index payload ok poison x r hslot hlayout hempty hpath hfrozen hnone hindex hcount
    obtain ⟨y, hexec, hself, hlen, hlost⟩ :=
      execTimedFlit_first payload ok poison hslot hlayout hempty hpath hfrozen hnone hindex hcount
    exact ⟨_, y, hexec, findTransfer_putTransfer s hself, hlen, hlost⟩
  case release =>
    intro s src pos slot x r y hslot hy hdrop
    exact ⟨execTimedRelease_whole hslot hy hdrop,
      fun hdst hlayout hempty hbegun hlive hmore => execTimedArrival_live hslot hy hdrop hdst hlayout hempty hbegun hlive rfl hmore⟩
  case record =>
    intro s read f x p hf hx hempty hlayout hnew hcore hhere
    exact execTokenRecordArrival_due rfl hf hx hempty hlayout hnew hcore hhere
end

section
/-! SUPPORT. Issue and advance of a core, its scalar registers, and the scalar instructions (R221, R225, R227, R229, R231, R238, R256). -/

namespace Sys2Proof.Machine

/-! ### Issue (R225, R227) -/

section
variable {s : State} {c : Nat} {w : BitVec 64}

/-- A word that the core cannot issue does nothing. -/
theorem issue_of_not_canIssue (h : canIssue s c w = false) (f : State → State) : issue s c w f = s :=
  if_neg (Bool.eq_false_iff.mp h)

/-- A word that the core issues is met by its legality, then by the remote reads that it awaits, then by its effect. -/
theorem issue_of_canIssue (h : canIssue s c w = true) (f : State → State) : issue s c w f =
    if wordIllegal w then freezeCore s c 0x20 w.toNat else if netHazard (getCore s c) w then stall s c .net else f s :=
  if_pos h

/-- An illegal word freezes its core with the word as FAULT address, whatever effect is named for it (R256). -/
theorem issue_of_illegal (h : canIssue s c w = true) (hw : wordIllegal w = true) (f : State → State) :
    issue s c w f = freezeCore s c 0x20 w.toNat :=
  (issue_of_canIssue h f).trans (if_pos hw)

/-- A legal word goes on to the remote reads that it may await. -/
theorem issue_of_legal (h : canIssue s c w = true) (hw : wordIllegal w = false) (f : State → State) :
    issue s c w f = if netHazard (getCore s c) w then stall s c .net else f s :=
  (issue_of_canIssue h f).trans (if_neg (Bool.eq_false_iff.mp hw))

end

/-! ### Advance (R231, R256) -/

/-- Past the last index of instruction memory the core freezes where it stands. -/
theorem advance_of_last {s : State} {c : Nat} (h : (getCore s c).pc = 8191) : advance s c = freezeCore s c 0x21 8192 :=
  if_pos h

/-- Below the last index PC moves to the next one. -/
theorem advance_of_not_last {s : State} {c : Nat} (h : (getCore s c).pc ≠ 8191) :
    advance s c = modCore s c (fun k => { k with pc := k.pc + 1 }) :=
  if_neg h

/-! ### Scalar registers (R221) -/

@[simp] theorem Core.s_zero (k : Core) : k.s 0 = 0 := rfl

@[simp] theorem Core.setS_zero (k : Core) (v : BitVec 64) : k.setS 0 v = k := rfl

section
variable {k : Core} {n : Nat}

/-- A register other than s0 is an entry of the core's register table. -/
theorem Core.s_of_ne_zero (hn : n ≠ 0) : k.s n = tblGet 0 k.sregs n := if_neg hn

/-- A write of a register other than s0 is a write of that table. -/
theorem Core.setS_of_ne_zero (hn : n ≠ 0) (v : BitVec 64) : k.setS n v = { k with sregs := tblSet 0 k.sregs n v } := if_neg hn

/-- A register other than s0 reads as it was written. -/
theorem Core.s_setS_self (hwf : tblWf 0 k.sregs = true) (hn : n ≠ 0) (v : BitVec 64) : (k.setS n v).s n = v := by
  rw [setS_of_ne_zero hn, s_of_ne_zero hn]
  exact tblGet_set_self hwf n v

/-- A write of a register leaves every other register. -/
theorem Core.s_setS_ne {m : Nat} (hm : m ≠ n) (v : BitVec 64) : (k.setS n v).s m = k.s m := by
  by_cases hn : n = 0
  · rw [hn, setS_zero]
  · by_cases hz : m = 0
    · rw [hz, s_zero, s_zero]
    · rw [setS_of_ne_zero hn, s_of_ne_zero hz, s_of_ne_zero hz]
      exact tblGet_set_ne v hm

end

/-- A write of a scalar register leaves the rest of its core. -/
theorem Core.setS_frame (k : Core) (n : Nat) (v : BitVec 64) : { k.setS n v with sregs := k.sregs } = k := by
  by_cases hn : n = 0
  · rw [hn, setS_zero]
  · rw [setS_of_ne_zero hn]

/-! ### Results of scalar instructions (R238) -/

/-- The truth value of a comparison. -/
theorem truth_of_iff {b : Bool} {p : Prop} [Decidable p] (h : b = true ↔ p) : truth b = if p then 1 else 0 :=
  if_congr h rfl rfl

/-- A shift count in IMM is IMM[5:0]: the extension of the sign lies above it. -/
theorem count6_signExtend (imm : BitVec 32) : count6 (imm.signExtend 64) = imm.toNat % 64 := by
  rw [count6, BitVec.toNat_signExtend, BitVec.toNat_setWidth]
  split <;> omega

section
variable {s : State} {c : BitVec 8} {d a : BitVec 5} {v : BitVec 64} {op : Nat} {f : BitVec 64 → BitVec 64 → BitVec 64}

/-- A ready instruction on sA and sB writes its function of them into sD and goes on. -/
theorem scalar3_ready {b : BitVec 5} (hv : f ((getCore s c.toNat).s a.toNat) ((getCore s c.toNat).s b.toNat) = v)
    (h : ready s c (mkWord op d a b 0 0 0)) :
    (.next (scalar3 op f c d a b s) : Out) = .next (retire s c.toNat (fun k => k.setS d.toNat v)) :=
  issue_retire h (by rw [hv])

/-- A ready instruction on sA and IMM writes its function of sA and the extended IMM into sD and goes on. -/
theorem scalarImm_ready {imm : BitVec 32} (hv : f ((getCore s c.toNat).s a.toNat) (imm.signExtend 64) = v)
    (h : ready s c (mkWord op d a 0 0 0 imm)) :
    (.next (scalarImm op f c d a imm s) : Out) = .next (retire s c.toNat (fun k => k.setS d.toNat v)) :=
  issue_retire h (by rw [hv])

end

end Sys2Proof.Machine

open Sys2Proof Sys2Proof.Machine

/-- Settles O8: a word the core cannot issue does nothing, and one it can issue is illegal, awaits a remote read or takes effect. -/
theorem coreIssueRule : Obligations.CoreIssueRule := by
  intro s c core w f
  refine ⟨fun h => issue_of_not_canIssue h f, fun h hw => issue_of_illegal h hw f, fun h hw hnet => ?stalled, fun h hw hnet => ?effect,
    fun h hw => ?frozen, fun hw => ?legal⟩
  case stalled => exact (issue_of_legal h hw f).trans (if_pos hnet)
  case effect => exact (issue_of_legal h hw f).trans (if_neg (Bool.eq_false_iff.mp hnet))
  case frozen => exact congrArg Host.Outcome.next ((if_pos hw).trans (issue_of_illegal h hw id))
  case legal => exact congrArg Host.Outcome.next (if_neg (Bool.eq_false_iff.mp hw))

/-- Settles O9: after the effect on its core, by whether PC stands at the last index. -/
theorem coreAdvance : Obligations.CoreAdvance := by
  intro s c f
  split
  case isTrue hlast => exact advance_of_last hlast
  case isFalse hlow => exact advance_of_not_last hlow

/-- Settles O10: the rules of the core table (`getCore_modCore`, `getCore_modCore_ne`, `tblWf_mod`) and of the scalar registers. -/
theorem coreRecordAndScalarRegisters : Obligations.CoreRecordAndScalarRegisters := by
  constructor
  · intro s c f hwf
    exact ⟨getCore_modCore hwf c f, fun d hd => getCore_modCore_ne f hd, tblWf_mod hwf c f, rfl⟩
  · intro k n v
    exact ⟨k.s_zero, k.setS_zero v, fun hwf hn => ⟨Core.s_setS_self hwf hn v, fun m hm => Core.s_setS_ne hm v⟩, k.setS_frame n v⟩

/-- Settles O11: two registers by `scalar3_ready`, a register and IMM by `scalarImm_ready`, the rest by what each does to its core. -/
theorem scalarInstructions : Obligations.ScalarInstructions := by
  constructor
  · intro s c d a b k x y on
    exact ⟨scalar3_ready rfl, scalar3_ready rfl, scalar3_ready rfl, scalar3_ready rfl, scalar3_ready rfl, scalar3_ready rfl,
      scalar3_ready rfl, scalar3_ready rfl, scalar3_ready rfl,
      scalar3_ready (if_congr BitVec.slt_iff_toInt_lt rfl rfl), scalar3_ready (if_congr BitVec.slt_iff_toInt_lt rfl rfl),
      scalar3_ready (truth_of_iff BitVec.slt_iff_toInt_lt), scalar3_ready (truth_of_iff BitVec.ult_iff_toNat_lt),
      scalar3_ready (truth_of_iff beq_iff_eq)⟩
  · intro s c d a imm k x on
    have hcount : count6 (imm.signExtend 64) = imm.toNat % 64 := count6_signExtend imm
    refine ⟨scalarImm_ready rfl, fun h => issue_retire h rfl, fun h => issue_retire h rfl, scalarImm_ready (congrArg (x <<< ·) hcount),
      scalarImm_ready (congrArg (x >>> ·) hcount), scalarImm_ready (congrArg x.sshiftRight hcount),
      fun h => issue_retire h ?vext, fun h => issue_retire h ?vins⟩
    case vext => rw [Core.v_eq]
    case vins =>
      rw [Nat.mul_comm 64]
      rfl
end

section
/-! SUPPORT. The headframe's boundary, what a round that starts holds, status and round-start flits, the end of a switch gap and
SQ_STRETCH (R258, R288, R290-R292, R296, R298, R300, R308, R311, R360, R420). -/

namespace Sys2Proof.Machine

/-! ### The end of a round (R258, R296, R300) -/

/-- No boundary is taken while a beat runs or before the round's time is over. -/
theorem atBoundary_eq_false {s : State} (h : s.sq.live ≠ none ∨ roundTick s < roundTicks s) (empty : Bool) : atBoundary s empty = false := by
  unfold atBoundary
  rcases h with hlive | htime
  · simp [hlive]
  · simp [htime]

/-- A round outside a switch gap, by whether it is empty. -/
theorem roundTicks_of_not_gap {s : State} (h : s.sq.state ≠ 6) :
    roundTicks s = if s.sq.emptyRound then emptyTicks else roundF s + tailTicks (roundF s) s.sq.current := if_neg h

/-! ### A round starts (R274, R288, R293, R314) -/

/-- What the start of a round sets in the sequencer, apart from what its tick 0 adds to it. -/
def roundHead (s : State) : Nat × Nat × BitVec 64 × Bool × Nat × Tbl RxStatus × List Nat × Nat :=
  (s.sq.verdict, s.sq.round, s.sq.roundRtb, s.sq.emptyRound, s.sq.layout, s.sq.rxStatus, s.sq.ended, s.sq.state)

theorem roundHead_of_sq {s t : State} (h : t.sq = s.sq) : roundHead t = roundHead s := by
  unfold roundHead
  rw [h]

/-- A feed slot is written to its core, or its position reports FAULT. -/
theorem roundHead_writeFeed (s : State) (p : Nat) : roundHead (writeFeed s p) = roundHead s := by
  unfold writeFeed
  split
  · split
    · rfl
    · split <;> rfl
  · rfl

theorem roundHead_writeFeeds (s : State) : roundHead (writeFeeds s) = roundHead s := by
  unfold writeFeeds
  split
  · exact forEach_keeps roundHead _ _ roundHead_writeFeed s
  · rfl

/-- What a slip round delivers again changes the cores alone. -/
theorem slipDeliver_sq (s : State) (n : Nat) : (slipDeliver s n).sq = s.sq := by
  have hdrain (s : State) (x : Standing) : (drainStanding s x).sq = s.sq := by
    unfold drainStanding
    split <;> rfl
  have hback (s : State) (r : Retained) : (redeliver s r).sq = s.sq := by
    unfold redeliver
    split
    · rfl
    · split <;> rfl
  exact (forEach_keeps State.sq _ _ hback _).trans (forEach_keeps State.sq _ _ hdrain s)

/-- A round starts with its own number, start and layout and the state its verdict means; no status flit has come, no position has ended. -/
theorem roundHead_startRound (s : State) (v n rtb : Nat) (li : Option Nat) : roundHead (startRound s v n rtb li) =
    (v, n, BitVec.ofNat 64 rtb, li.isNone, li.getD s.sq.layout, [], [],
      if s.sq.planSet.isNone then s.sq.state else if v = 3 then 5 else if v = 4 then 6 else if li.isNone then 3 else 4) := by
  unfold startRound
  extract_lets slip q cx dp ri u
  have hu : roundHead u = (v, n, BitVec.ofNat 64 rtb, li.isNone, li.getD s.sq.layout, [], [],
      if s.sq.planSet.isNone then s.sq.state else if v = 3 then 5 else if v = 4 then 6 else if li.isNone then 3 else 4) := rfl
  rw [← hu]
  clear_value u
  split
  · exact roundHead_of_sq (defineStandings_sq u)
  · split
    · exact (roundHead_writeFeeds _).trans (roundHead_of_sq ((slipDeliver_sq ..).trans (defineStandings_sq u)))
    · exact (roundHead_writeFeeds _).trans ((roundHead_of_sq (defineStandings_sq _)).trans rfl)

/-! ### Status flits (R288, R291, R420) -/

/-- A member passes a good status flit on. -/
theorem execStatusFlit_member {s : State} (h : isHeadframe s = false) (p : BitVec 6) (st rp sr lv : BitVec 8) (round : BitVec 64)
    (ps : List (BitVec 16)) : execStatusFlit p st rp sr lv round ps true s = .next (sendControl s 1
      (statusFields st.toNat p.toNat sr.toNat lv.toNat rp.toNat round.toNat (ps.map (·.toNat)))) := by
  unfold execStatusFlit
  rw [h]
  rfl

/-- The headframe records the first good status flit of a member for the round, in time. -/
theorem execStatusFlit_headframe {s : State} (hh : isHeadframe s = true) (hplan : planAdmitted s = true) {p : BitVec 6} {round : BitVec 64}
    (hround : round.toNat = s.sq.round) (htime : roundTick s ≤ roundLimit s) (hp : p.toNat < ringCount s)
    (hnew : (rx s p.toNat).got = false) (st rp sr lv : BitVec 8) (ps : List (BitVec 16)) :
    execStatusFlit p st rp sr lv round ps true s = .next { s with sq := { s.sq with
      rxStatus := tblSet {} s.sq.rxStatus p.toNat
        { got := true, status := st.toNat, replaying := rp.toNat, stretch := sr.toNat, level := lv.toNat } } } := by
  have hruns : roundsRun s = true := by rw [roundsRun, hplan, Bool.true_or]
  have hgo : ¬((!roundsRun s) = true ∨ round.toNat ≠ s.sq.round ∨ roundLimit s < roundTick s ∨ ringCount s ≤ p.toNat ∨
      (rx s p.toNat).got = true) := by
    rw [hruns, hnew, hround]
    simp [htime, hp]
  unfold execStatusFlit
  rw [hh, if_neg hgo]
  rfl

/-- The device's status flit of the round, when it may leave: the faults are told first, and CRITICAL is counted. -/
theorem execStatusFlitSend_due {s : State} (hplan : planAdmitted s = true) (hsent : statusSent s = false) (hdue : statusDue s = true) :
    let r := stretchRequest (faultEvents s)
    let u := { r.2 with sq := { r.2.sq with request := r.1, statusFor := some r.2.sq.round } }
    let v := if ownStatus u = 4 then
      overrideEvent { u with dp := { u.dp with ovHalt := u.dp.ovHalt.bump (sclk u) 255 1 } } 3 0 else u
    let w := sendStatus v u.sq.round (ownStatus u) r.1 (listedPositions u)
    execStatusFlitSend s = .next { w with sq := { w.sq with faulted := false, faultPos := [] } } := by
  intro r u v w
  have hruns : roundsRun s = true := by rw [roundsRun, hplan, Bool.true_or]
  unfold execStatusFlitSend countHalt
  rw [if_neg (by rw [hruns]; decide), if_pos (by rw [hsent]; decide), if_neg (by rw [hdue]; decide)]

/-! ### The round-start flit on a member (R288, R360, R420) -/

/-- A flit on the next link leaves the round last heard of. -/
theorem sendControl_roundSeen (s : State) (p : Nat) (fields : List (Nat × Nat)) (plain : Bool) :
    (sendControl s p fields plain).ri.roundSeen = s.ri.roundSeen :=
  sendFlit_keeps (f := fun s => s.ri.roundSeen) (fun _ _ _ => rfl) (fun _ _ => rfl) s p _ _ _

/-- A good round-start flit of a round that the member has not begun is passed on and begins it. -/
theorem execRoundStartFlit_later {s u : State} {v : BitVec 3} {li st bk : BitVec 8} {round start retired epoch : BitVec 64}
    (hu : (if (ownPosition s + 1) % ringCount s = 0 then s else sendControl s 1 (roundStartFields v.toNat li.toNat st.toNat bk.toNat
      round.toNat start.toNat retired.toNat epoch.toNat)) = u)
    (hh : isHeadframe s = false) (hplan : planAdmitted s = true) (hnew : s.ri.roundSeen ≠ some round.toNat) (hlive : s.sq.live = none)
    (hlater : s.sq.round < round.toNat) (hlow : 1 ≤ v.toNat) (hhigh : v.toNat ≤ 4) (causes : BitVec 5) (orders : List Order) :
    execRoundStartFlit v li st bk round start retired epoch true causes orders s = .next (memberRound u v.toNat li.toNat st.toNat bk.toNat
      round.toNat start.toNat retired.toNat epoch.toNat causes.toNat orders) := by
  have hsq : u.sq = s.sq := by
    rw [← hu, apply_ite State.sq, (sent_sendControl ..).sq, ite_self]
  have hseen : u.ri.roundSeen = s.ri.roundSeen := by
    rw [← hu, apply_ite (fun s : State => s.ri.roundSeen), sendControl_roundSeen, ite_self]
  have hruns : roundsRun u = true := by
    unfold roundsRun planAdmitted
    rw [hsq]
    exact Bool.or_eq_true_iff.mpr (.inl hplan)
  have hv : v ≠ 0#3 := by
    rintro rfl
    exact absurd hlow (by decide)
  have hgo : ¬((!roundsRun u) = true ∨ u.ri.roundSeen = some round.toNat ∨ u.sq.live.isSome = true ∨ round.toNat ≤ u.sq.round ∨ v = 0 ∨
      v.toNat ≥ 5) := by
    rw [hruns, hseen, hsq, hlive]
    simp [hnew, hlater, hv, Nat.lt_succ_of_le hhigh]
  unfold execRoundStartFlit
  dsimp only
  rw [if_neg (by simp [hh]), hu, if_neg hgo]

/-! ### The end of a switch gap (R298) -/

/-- Loading a plan's code changes the cores alone. -/
theorem loadCores_ri (s : State) (d : DevRec) : (loadCores s d).ri = s.ri :=
  forEach_keeps State.ri (upTo 256) (fun s c => modCore s c _) (fun _ _ => rfl) s

/-- The plan of a bucket is loaded with no move of the headframe. -/
theorem isHeadframe_switchPlan (s : State) (b : Nat) : isHeadframe (switchPlan s b) = isHeadframe s := by
  unfold switchPlan
  extract_lets old q u1 u2 d u3
  have h2 : u2.ri = u1.ri := forEach_keeps State.ri (streamIds u1) (fun s i => modStream s i _) (fun _ _ => rfl) u1
  have h3 : u3.ri = u2.ri :=
    (forEach_keeps State.ri (upTo 256) (switchCore _) (fun _ _ => rfl) _).trans (loadCores_ri u2 d)
  exact (isHeadframe_raiseEvent ..).trans (isHeadframe_of_ri (h3.trans h2))

/-- A gap that is over changes the plan; the headframe then clips k, lets streams wait and runs on. -/
theorem execSwitchGapEnd_over {s : State} {b : Nat} (hto : s.sq.switchTo = some b) (hstate : s.sq.state = 6) (htime : 32768 ≤ roundTick s)
    (lack : Lacking) : execSwitchGapEnd lack s = .next (if isHeadframe s then
        runOn (forEach (streamIds (clipAll (switchPlan s b))) (markWaiting lack) (clipAll (switchPlan s b))) lack
      else { switchPlan s b with sq := { (switchPlan s b).sq with state := 3 } }) := by
  have hgo : ¬(s.sq.state ≠ 6 ∨ roundTick s < gapTicks) := not_or.mpr ⟨not_not.mpr hstate, Nat.not_lt.mpr htime⟩
  unfold execSwitchGapEnd
  rw [hto, ← isHeadframe_switchPlan s b]
  dsimp only
  rw [if_neg hgo]

/-! ### SQ_STRETCH (R308) -/

/-- A write of SQ_STRETCH from PF0, by its FLOOR. -/
theorem execSqStretch_pf0 {s : State} {port : Bool} (h : mayWrite s (.pf0 port) 6 = true) (v : BitVec 32) :
    execSqStretch (.pf0 port) v s = .next (if 60 < v.toNat / 65536 % 128 then s else
      { s with sq := { s.sq with floor := v.toNat / 65536 % 128 } }) :=
  congrArg _ (if_pos (by rw [show pgSq = 6 from rfl, h]; rfl))

end Sys2Proof.Machine

open Sys2Proof Sys2Proof.Machine

/-- Settles O39: each row by the rule of the branch that its conditions choose; what a round holds at its start by
`roundHead_startRound`. -/
theorem roundsBeginAndEnd : Obligations.RoundsBeginAndEnd := by
  refine ⟨?boundary, ?round, fun s hgap => if_pos hgap, ?start, ?status, fun s hplan hsent hdue => ?send, ?flit, ?gap, ?stretch⟩
  case boundary =>
    intro s thawed lack
    refine ⟨fun h => congrArg _ (if_pos h), fun h => congrArg _ (if_pos h), fun h => ⟨?_, ?_⟩⟩
    · exact congrArg _ (if_neg (Bool.eq_false_iff.mp (atBoundary_eq_false h false)))
    · exact congrArg _ (if_neg (Bool.eq_false_iff.mp (atBoundary_eq_false h true)))
  case round =>
    intro s hgap
    refine ⟨fun hempty => ?_, fun hempty => ?_⟩
    · exact (roundTicks_of_not_gap hgap).trans (if_pos hempty)
    · exact (roundTicks_of_not_gap hgap).trans (if_neg (Bool.eq_false_iff.mp hempty))
  case start =>
    intro s n rtb li v t
    have hhead := roundHead_startRound s v n rtb li
    simp only [roundHead, Prod.mk.injEq] at hhead
    obtain ⟨hverdict, hround, hstart, hempty, hlayout, hrx, hended, hstate⟩ := hhead
    refine ⟨hverdict, hround, hstart, hempty, hlayout, hrx, hended, fun hplan => hstate.trans (if_neg ?_)⟩
    rw [Option.isNone_iff_eq_none]
    exact Option.isSome_iff_ne_none.mp hplan
  case status =>
    intro s p st rp sr lv round ps
    exact ⟨fun h => execStatusFlit_member h p st rp sr lv round ps,
      fun hh hplan hround htime hp hnew => execStatusFlit_headframe hh hplan hround htime hp hnew st rp sr lv ps⟩
  case send =>
    have hexec : exec .statusFlitSend s = execStatusFlitSend s := rfl
    rw [hexec]
    with_reducible exact execStatusFlitSend_due hplan hsent hdue
  case flit =>
    intro s v li st bk round start retired epoch causes orders u hh hplan hnew hlive hlater hlow hhigh
    exact execRoundStartFlit_later rfl hh hplan hnew hlive hlater hlow hhigh causes orders
  case gap =>
    intro s b lack hto hstate htime
    have hexec := execSwitchGapEnd_over hto hstate htime lack
    exact ⟨fun h => hexec.trans (congrArg _ (if_pos h)), fun h => hexec.trans (congrArg _ (if_neg (Bool.eq_false_iff.mp h)))⟩
  case stretch =>
    intro s port v h f
    have hexec := execSqStretch_pf0 h v
    exact ⟨fun hle => hexec.trans (congrArg _ (if_neg (Nat.not_lt.mpr hle))), fun hlt => hexec.trans (congrArg _ (if_pos hlt))⟩
end

section
/-! SUPPORT. A ring slot from SEND to the rows of its destination, and the entries of a token record (R205, R208, R276, R277, R281, R295,
R329, R410, R416-R418, R421, R423, R444). -/

namespace Sys2Proof.Machine

/-! ### TIMED_SEND (R295, R416, R421) -/

/-- A ring slot at its SEND that has not been sent is marked and begins to be sent; an unposted one freezes its poster first. -/
theorem execTimedSend_due {s : State} {slot : BitVec 16} {k : Nat} {l : Live} {r : Ring} (hk : slot.toNat = k) (hlive : s.sq.live = some l)
    (hr : (liveTemplate s).rings[k]? = some r) (htick : l.cycle / 2 = r.send) (hdone : l.done.contains (4, k) = false)
    (ecc : List (Nat × Bool)) :
    let marked := modLive s (fun l => { l with done := (4, k) :: l.done })
    let ok := isPosted marked 2 k
    let u := if ok then marked else unposted marked 2 k
    let h := if r.stepOut then sendHeader u ((u.sq.live).getD l) (!ok) else ([], [])
    let v := if r.stepOut then { u with free := u.free + runSlots (liveTemplate u) } else u
    execTimedSend slot ecc s = .next (sendPiece v r
      { pos := l.pos, slot := k, posted := ok, ecc := ecc, header := h.1, table := h.2 }) := by
  subst hk
  intro marked ok u h v
  unfold execTimedSend
  simp only [hlive, hr]
  rw [if_neg (not_or.mpr ⟨not_not.mpr htick, Bool.eq_false_iff.mp hdone⟩)]

/-- A piece that meets no error is read and its flits go out; the transfer goes on while ticks of it are left. -/
theorem sendPiece_clean {x : Sending} (hecc : x.ecc = []) (s : State) (r : Ring) :
    let lo := 480 * x.ticks
    let y := { x with ticks := x.ticks + 1, data := x.data ++ payloadPiece s r x lo (min r.bytes (lo + 480)) }
    let u := sendFlits s r y.data [] (flitsReleased r.bytes x.ticks) (flitsReleased r.bytes (x.ticks + 1))
    sendPiece s r x = if x.ticks + 1 < linkTicks r.bytes then { u with ri := { u.ri with sending := u.ri.sending ++ [y] } } else u := by
  intro lo y u
  have hclean (c : Nat) (sp : List (Nat × Nat)) : scratchEcc s c sp x.ecc = s := by rw [hecc, scratchEcc_clean]
  unfold sendPiece
  dsimp only
  rw [hclean, ite_self]

/-! ### The re-timing buffer (R410, R416) -/

/-- What the buffer holds of a transfer, or the transfer as its first flit finds it. -/
def heldTransfer (s : State) (src pos slot : Nat) : Transfer :=
  (findTransfer s src pos slot).getD { src := src, pos := pos, slot := slot, round := s.sq.round }

section
variable {s : State} {src : BitVec 6} {pos slot : BitVec 16} {x : Pos} {r : Ring} {t : Transfer}
  (hslot : ringSlot s src.toNat pos.toNat slot.toNat = some (x, r))

include hslot

/-- The expected flit of a transfer on its path joins the buffer, as lost where it failed. -/
theorem execTimedFlit_expected {index : BitVec 16} (ht : heldTransfer s src.toNat pos.toNat slot.toNat = t) (hlayout : x.layout = s.sq.layout)
    (hempty : s.sq.emptyRound = false) (hpath : onPath s src.toNat r = true) (hnext : t.data.length = 246 * index.toNat)
    (hcount : index.toNat < flitCount r.bytes) (hdrop : t.dropped = false)
    (hfrozen : isFrozen s 4 (timedSource src.toNat r.srcCore) = false) (payload : List (BitVec 8)) (ok poison : Bool) :
    execTimedFlit src pos slot index payload ok poison s = .next (putTransfer s { t with
      data := t.data ++ (if !ok || poison then padTo 246 [] else padTo 246 payload)
      lost := if !ok || poison then t.lost ++ [(index.toNat, if ok then 2 else 1)] else t.lost }) := by
  subst ht
  have hgo : ¬(x.layout ≠ s.sq.layout ∨ s.sq.emptyRound = true ∨ (!onPath s src.toNat r) = true ∨
      (heldTransfer s src.toNat pos.toNat slot.toNat).data.length ≠ flitBytes * index.toNat ∨
      (heldTransfer s src.toNat pos.toNat slot.toNat).dropped = true ∨ flitCount r.bytes ≤ index.toNat ∨
      isFrozen s 4 (timedSource src.toNat r.srcCore) = true) := by
    rw [hlayout, hempty, hpath, hnext, hdrop, hfrozen]
    simp [flitBytes, hcount]
  unfold execTimedFlit
  rw [hslot]
  exact congrArg _ (if_neg hgo)

/-- What has become due is released, to the next link or to the rows of the destination; what has all gone on leaves the buffer. -/
theorem execTimedRelease_due {due : Nat} (ht : findTransfer s src.toNat pos.toNat slot.toNat = some t) (hdrop : t.dropped = false)
    (hdue : min (if flitCount r.bytes * 246 ≤ t.data.length then linkTicks r.bytes else t.data.length / 480)
      (min (linkTicks r.bytes) (roundTick s - releaseTick s src.toNat x r)) = due) :
    let u := sendFlits (putTransfer s { t with released := due }) r t.data (t.lost.map (·.1)) (flitsReleased r.bytes t.released)
      (flitsReleased r.bytes due)
    execTimedRelease src pos slot s = .next (if due ≤ t.released then s
      else if r.dstDevice = ownPosition s then putTransfer s { t with released := due }
      else if due = linkTicks r.bytes then
        { u with ri := { u.ri with retime := u.ri.retime.filter (fun y => !y.is src.toNat pos.toNat slot.toNat) } }
      else u) := by
  subst hdue
  unfold execTimedRelease
  simp only [hslot, ht, hdrop, Bool.false_eq_true, false_or, flitBytes]
  rfl

end

/-! ### TIMED_ARRIVAL (R281, R416-R418) -/

/-- The retained copy that the next rows of a transfer come from: one that has begun goes on from where it began. -/
def arrivalCopy (s : State) (r : Ring) (src pos slot : Nat) : Option Retained :=
  if (heldTransfer s src pos slot).arrived = 0 ∨ (heldTransfer s src pos slot).fromCopy = true then slipCopy s r src pos slot else none

/-- Rows of a transfer that may be written at its destination: those released, or in a slip round those of the copy at the tick of the
original. -/
def arrivalRows (s : State) (src : Nat) (x : Pos) (r : Ring) (copy : Option Retained) (t : Transfer) : Nat :=
  min (480 * if copy.isSome then min (linkTicks r.bytes) (roundTick s - releaseTick s src x r) else t.released) r.bytes / 64

/-- The payload of a transfer: that of its copy, or as it was received. -/
def arrivalPayload (r : Ring) (copy : Option Retained) (t : Transfer) : List Byte :=
  match copy with
  | some e => e.data
  | none => t.data.take r.bytes

/-- Row `j` as it is written: of the copy, or as it was received, NaNs where a lost flit touches it. -/
def arrivalRow (copy : Option Retained) (t : Transfer) (j : Nat) : List Byte :=
  match copy with
  | some e => (e.data.drop (64 * j)).take 64
  | none => if rowLost t j then nanWord else (t.data.drop (64 * j)).take 64

/-- Rows that may be written and have not yet arrived are queued, and the lost flits that touch them reported. -/
theorem execTimedArrival_more {s : State} {src : BitVec 6} {pos slot : BitVec 16} {x : Pos} {r : Ring} {t : Transfer}
    {copy : Option Retained} {rows : Nat} (hslot : ringSlot s src.toNat pos.toNat slot.toNat = some (x, r))
    (ht : heldTransfer s src.toNat pos.toNat slot.toNat = t) (hcopy : arrivalCopy s r src.toNat pos.toNat slot.toNat = copy)
    (hrows : arrivalRows s src.toNat x r copy t = rows)
    (hheld : (findTransfer s src.toNat pos.toNat slot.toNat).isSome = true ∨ copy.isSome = true) (hdst : r.dstDevice = ownPosition s)
    (hlayout : x.layout = s.sq.layout) (hempty : s.sq.emptyRound = false) (hdrop : t.dropped = false) (hmore : t.arrived < rows) :
    let hit := if copy.isSome then []
      else t.lost.filter (fun e => decide (64 * t.arrived ≤ 246 * e.1) && decide (246 * e.1 < 64 * rows))
    execTimedArrival src pos slot s = .next (putTransfer (forEach hit (fun s e => timedLost s r e.2)
      (forEach ((upTo rows).drop t.arrived) (arriveRow x r copy t) s)) { t with
        arrived := rows, fromCopy := copy.isSome
        header := if 64 * rows < r.bytes ∨ r.stepOut = false then [] else arrivalPayload r copy t }) := by
  have hdue : ¬(t.dropped = true ∨ rows ≤ t.arrived) := not_or.mpr ⟨Bool.eq_false_iff.mp hdrop, Nat.not_le.mpr hmore⟩
  subst ht hrows
  intro hit
  unfold execTimedArrival
  rw [hslot]
  dsimp -zeta only
  extract_lets +onlyGivenNames found copy'
  have hsame : copy' = copy := by
    rw [← hcopy]
    unfold arrivalCopy heldTransfer
    dsimp only [copy', found]
    cases findTransfer s src.toNat pos.toNat slot.toNat with
    | none => rfl
    | some t => by_cases hbegun : t.arrived = 0 <;> simp [hbegun]
  have hgo : ¬(r.dstDevice ≠ ownPosition s ∨ x.layout ≠ s.sq.layout ∨ s.sq.emptyRound = true ∨
      (found.isNone = true ∧ copy'.isNone = true)) := by
    rw [hsame, hdst, hlayout, hempty]
    rcases hheld with h | h <;> simp [Option.isNone_iff_eq_none, Option.isSome_iff_ne_none.mp h, found]
  rw [if_neg hgo]
  clear_value copy'
  subst hsame
  refine congrArg _ ((if_neg hdue).trans ?_)
  simp only [Bool.not_eq_true']
  rfl

/-- A row that is not copied into the retention region is queued at its core, as NaNs where a lost flit touches it. -/
theorem arriveRow_queued {s : State} {r : Ring} {t : Transfer} {copy : Option Retained} (hcopy : copy.isSome = true ∨ retained s r = false)
    (hsrc : isFrozen s 4 (timedSource t.src r.srcCore) = false) (hcore : coreFrozen s r.dstCore = false) (x : Pos) (j : Nat) :
    arriveRow x r copy t s j = arrive s r.dstCore {
      kind := 4, who := timedSource t.src r.srcCore, pos := r.dstPos, off := r.dstOff + 64 * j
      data := arrivalRow copy t j } := by
  have hkeep : (copy.isNone && retained s r) = false := by
    cases copy with
    | some e => rfl
    | none => simpa using hcopy
  unfold arriveRow
  dsimp only
  rw [hsrc, hkeep, if_neg (by decide), if_neg (c := false = true) (by decide), hcore, if_neg (by decide)]
  cases copy <;> rfl

/-- A row of the ring in a FULL slot freezes its source, and its position reports FAULT. -/
theorem commitArrival_full {s : State} {c i o : Nat} {w : Arrival} (hkind : w.kind = 4) (hcore : coreFrozen s c = false)
    (hsrc : isFrozen s 4 w.who = false) (hfull : fullSlot (getCore s c) w.off w.data.length = some (i, o)) :
    commitArrival c s w = faultAt (freeze s 7 4 w.who 0x0D11 w.off) w.pos 1 := by
  have hgo : ¬(coreFrozen s c = true ∨ (w.kind ≠ 3 ∧ w.kind ≠ 0 ∧ isFrozen s w.kind w.who = true)) := by
    rw [hkind, hcore, hsrc]
    decide
  unfold commitArrival fullSlotFreeze
  rw [if_neg hgo, hkind, if_neg (by decide), hfull]
  rfl

/-! ### TOKEN_RECORD_ARRIVAL (R329, R337) -/

/-- An entry of a record moves no headframe. -/
theorem isHeadframe_takeEntry (report : Bool) (data : List Byte) (s : State) (x : InFlight) (j : Nat) :
    isHeadframe (takeEntry report data s x j) = isHeadframe s := by
  unfold takeEntry
  extract_lets e mark
  split
  · rfl
  · split
    · split <;> rfl
    · split
      · rfl
      · exact (isHeadframe_raiseEvent ..).trans rfl

/-- A step that a record lists and that is not yet back has its entry (R329). -/
def takeListed (data : List Byte) (s : State) (j : Nat × Nat) : State :=
  match s.sq.steps.find? (fun y => y.stream == j.2 && y.dev == ownPosition s && !y.back) with
  | some y => takeEntry true data s y j.1
  | none => s

theorem isHeadframe_takeListed (data : List Byte) (s : State) (j : Nat × Nat) : isHeadframe (takeListed data s j) = isHeadframe s := by
  unfold takeListed
  split
  · exact isHeadframe_takeEntry ..
  · rfl

/-- On the headframe of a ring a record that has come is taken, and its entries with it. -/
theorem execTokenRecordArrival_headframe {s : State} {pos : BitVec 16} {f : Standing} {x : Pos} {p : Nat} (hp : pos.toNat = p)
    (hf : feedSlot (ownRec s) p = some f) (hx : posAt s p = some x) (hring : 1 < ringCount s) (hhere : s.sq.recordsIn.contains p = true)
    (hempty : s.sq.emptyRound = false) (hlayout : x.layout = s.sq.layout) (hnew : s.sq.recordsTaken.contains p = false)
    (hcore : coreFrozen s f.core = false) (hh : isHeadframe s = true) :
    let data := (getCore s f.core).serve f.base (2 ^ f.n) []
    let bytes := recordBytes ((s.sq.planSet).getD {}) (planNow s) (ownPosition s) p
    let u := { s with sq := { s.sq with recordsTaken := s.sq.recordsTaken ++ [p], recordsIn := s.sq.recordsIn.filter (· != p) } }
    execTokenRecordArrival ⟨pos, []⟩ s = .next (forEach
      (recordSlots s p data (data.drop (bytes - 64 * ((byteAt data 5 - 6 + 7) / 8)))) (takeListed data) u) := by
  subst hp
  intro data bytes u
  have hgo : ¬((!s.sq.recordsIn.contains pos.toNat) = true ∨ s.sq.emptyRound = true ∨ x.layout ≠ s.sq.layout ∨
      s.sq.recordsTaken.contains pos.toNat = true ∨ coreFrozen s f.core = true) := by
    rw [hhere, hempty, hnew, hcore]
    simp [hlayout]
  have hhead (l : List (Nat × Nat)) : isHeadframe (forEach l (takeListed data) u) = true :=
    (forEach_keeps isHeadframe l _ (isHeadframe_takeListed data) u).trans hh
  unfold execTokenRecordArrival
  dsimp only
  rw [hf, hx]
  dsimp only
  rw [if_pos hring, if_neg hgo, scratchEcc_clean, if_pos (c := 1 < ringCount u) hring]
  exact congrArg _ (if_pos (hhead _))

/-- An entry whose counts fit passes, and its stream's length moves. -/
theorem takeEntry_fits {data : List Byte} {x : InFlight} {j : Nat} (hrun : x.prefill = false)
    (hfit : (recordEntry data j).1 ≤ x.vectors ∧ (recordEntry data j).2.1 < (recordEntry data j).1 ∧
      (recordEntry data j).2.1 ≤ (recordEntry data j).2.2.1) (s : State) :
    takeEntry true data s x j = modStream { s with sq := { s.sq with steps := s.sq.steps.map (fun y => if y = x then
        { y with back := true, tokens := (recordEntry data j).2.2.2, accepted := (recordEntry data j).2.1 } else y) } }
      x.stream (fun t => { t with length := x.firstPos + (recordEntry data j).1 }) := by
  unfold takeEntry
  dsimp only
  rw [if_neg (by simp [hrun]), if_pos hfit, hrun]
  rfl

/-- An entry whose counts do not fit is TOKEN_BAD. -/
theorem takeEntry_bad {data : List Byte} {x : InFlight} {j : Nat} (hrun : x.prefill = false)
    (hbad : ¬((recordEntry data j).1 ≤ x.vectors ∧ (recordEntry data j).2.1 < (recordEntry data j).1 ∧
      (recordEntry data j).2.1 ≤ (recordEntry data j).2.2.1)) (s : State) :
    takeEntry true data s x j = raiseEvent { s with sq := { s.sq with steps := s.sq.steps.map (fun y => if y = x then
        { y with back := true, tokens := [], accepted := (recordEntry data j).2.1 } else y) } } 6 0x0E
      (info [(2, x.stream), (1, (recordEntry data j).1), (1, (recordEntry data j).2.1), (1, (recordEntry data j).2.2.1), (3, 0),
        (4, s.sq.beatCount.toNat)]) := by
  unfold takeEntry
  dsimp only
  rw [if_neg (by simp [hrun]), if_neg hbad]
  rfl

end Sys2Proof.Machine
open Sys2Proof Sys2Proof.Machine

/-- Settles O42: each transfer by the rule of the branch that its conditions choose, a record by the entries of the steps it lists. -/
theorem timedTransfers : Obligations.TimedTransfers := by
  refine ⟨?send, ?piece, fun s r x lo hi => rfl, fun s => rfl, ?flit, ?release, ?arrival, ?row,
    fun s c w i o hkind hcore hsrc hfull => commitArrival_full hkind hcore hsrc hfull, ?record, ?entry⟩
  case send =>
    intro s slot ecc l r k marked hlive hr htick hdone
    exact execTimedSend_due rfl hlive hr htick hdone ecc
  case piece =>
    intro s r x hecc lo hi y u
    have hpiece := sendPiece_clean hecc s r
    exact ⟨fun hmore => hpiece.trans (if_pos hmore), fun hlast => hpiece.trans (if_neg (Nat.not_lt.mpr hlast))⟩
  case flit =>
    intro s src pos slot index payload ok poison x r t hslot hlayout hempty hpath hnext hcount hdrop hfrozen
    have hexec := execTimedFlit_expected hslot rfl hlayout hempty hpath hnext hcount hdrop hfrozen payload ok poison
    refine ⟨fun hok hclean => ?_, fun hbad => ?_⟩
    · subst hok hclean
      exact hexec
    · have hlost : (!ok || poison) = true := by simpa using hbad
      rw [hlost] at hexec
      exact hexec
  case release =>
    intro s src pos slot x r t due hslot ht hdrop
    have hexec := execTimedRelease_due hslot ht hdrop rfl
    refine ⟨fun hnone => hexec.trans (congrArg _ (if_pos hnone)), fun hmore hdst => ?_, fun hmore hdst => ?_⟩
    · exact hexec.trans (congrArg _ ((if_neg (Nat.not_le.mpr hmore)).trans (if_pos hdst)))
    · intro u
      have hsent := hexec.trans (congrArg _ ((if_neg (Nat.not_le.mpr hmore)).trans (if_neg hdst)))
      exact ⟨fun hleft => hsent.trans (congrArg _ (if_neg (Nat.ne_of_lt hleft))), fun hlast => hsent.trans (congrArg _ (if_pos hlast))⟩
  case arrival =>
    intro s src pos slot x r found t copy ticks rows whole hit hslot hheld hdst hlayout hempty hdrop hmore
    exact execTimedArrival_more hslot rfl rfl rfl hheld hdst hlayout hempty hdrop hmore
  case row =>
    intro x r copy t s j hcopy hsrc hcore
    exact arriveRow_queued hcopy hsrc hcore x j
  case record =>
    intro s pos f x hf hx hring hhere hempty hlayout hnew hcore hh data bytes u
    exact execTokenRecordArrival_headframe rfl hf hx hring hhere hempty hlayout hnew hcore hh
  case entry =>
    intro data s x j e mark hrun
    refine ⟨fun hvectors haccepted hk => takeEntry_fits hrun ⟨hvectors, haccepted, hk⟩ s, fun hbad => takeEntry_bad hrun ?_ s⟩
    rintro ⟨hvectors, haccepted, hk⟩
    rcases hbad with h | h | h
    · exact Nat.not_le.mpr h hvectors
    · exact Nat.not_le.mpr haccepted h
    · exact Nat.not_le.mpr h hk
end

section
/-! SUPPORT. Stream commands: when a fetched one acts, and what an open, a submission, a change of settings, a fork, a rewind, a host tier and
the two reports do (R341-R348, R352, R362-R368, R461, R462). -/

namespace Sys2Proof.Machine

/-! ### Stream commands on the headframe (R348, R352, R449) -/

section
variable {s : State} {i : Issuer} {owner : BitVec 8} {stream : BitVec 16} (hh : isHeadframe s = true)

include hh

/-- STREAM_OPEN waits once its settings are read. -/
theorem execStreamOpen_head {pair : BitVec 16} (settings : Option (List Byte)) (hr : hostReadable s i 128 = true)
    (hs : starts s i 0x10 [owner.toNat, pair.toNat] = true) :
    execStreamOpen i owner settings pair s = .next (stage s i (.streamOpen i owner settings pair)) :=
  (if_neg (by simp [hr])).trans (headCommand_head hs hh ..)

/-- STREAM_SET waits once its settings are read. -/
theorem execStreamSet_head {mask : BitVec 32} (settings : Option (List Byte)) (hr : hostReadable s i 128 = true)
    (hs : starts s i 0x12 [owner.toNat, stream.toNat, mask.toNat] = true) :
    execStreamSet i owner stream mask settings s = .next (stage s i (.streamSet i owner stream mask settings)) :=
  (if_neg (by simp [hr])).trans (boundaryCommand_head hs hh _)

section
variable {count : BitVec 32} (b : List Byte) (hr : hostReadable s i (4 * count.toNat) = true)
  (hs : starts s i 0x11 [owner.toNat, stream.toNat, count.toNat] = true) (hmax : count.toNat ≤ 65536)

include hr hs hmax

/-- The tokens of STREAM_SUBMIT are held from its fetch on, and it waits, unless they do not fit a command that does not wait yet. -/
theorem execStreamSubmit_head : execStreamSubmit i owner stream count (some b) s = .next (
    if promptPool < s.promptUsed + count.toNat ∧ !s.sq.deferred.any (fun d => d.issuer == i) then complete s i stPoolFull
    else stage s i (.streamSubmit i owner stream count (some b)) count.toNat) := by
  have hheld : (if (some b).isSome = true ∧ count.toNat ≤ 65536 then count.toNat else 0) = count.toNat := if_pos ⟨rfl, hmax⟩
  refine (if_neg (by simp [hr])).trans ((headCommand_head hs hh ..).trans ?_)
  dsimp only
  rw [hheld]

/-- STREAM_SUBMIT whose tokens fit the prompt pool waits. -/
theorem execStreamSubmit_fits (hfit : s.promptUsed + count.toNat ≤ promptPool) : execStreamSubmit i owner stream count (some b) s =
    .next (stage s i (.streamSubmit i owner stream count (some b)) count.toNat) :=
  (execStreamSubmit_head hh b hr hs hmax).trans (congrArg _ (if_neg (fun h => Nat.not_lt.mpr hfit h.1)))

/-- STREAM_SUBMIT that does not wait yet, and whose tokens do not fit the prompt pool, is refused. -/
theorem execStreamSubmit_poolFull (hnew : ∀ d ∈ s.sq.deferred, d.issuer ≠ i) (hover : promptPool < s.promptUsed + count.toNat) :
    execStreamSubmit i owner stream count (some b) s = .next (complete s i stPoolFull) :=
  (execStreamSubmit_head hh b hr hs hmax).trans (congrArg _ (if_pos ⟨hover, by simpa using hnew⟩))

end

end

/-! ### STREAM_OPEN and TIER_REGISTER act (R341, R342, R368) -/

/-- STREAM_OPEN with good settings, with a seed given or a DRBG that serves, on a channel whose SOLO place is free for it. -/
theorem actStreamOpen_good {s : State} {i : Issuer} {owner : BitVec 8} {b : List Byte} {pair : BitVec 16} {ps : PlanSet} {c : Settings}
    {sid : Nat} (hok : ownerRefusal s i owner.toNat = none) (hps : s.sq.planSet = some ps)
    (hc : parseSettings {} b 0x7FF ps.channels = some c) (hpair : i.origin ≠ 0xFF ∨ pairOk s i pair.toNat = true)
    (hseed : s.ke.state ≠ 2 ∨ c.seed ≠ none) (hsolo : soloBusy s none c = false) (hfree : freeStream s = some sid) :
    actStreamOpen i owner (some b) pair s = complete (setStream (withSeed s c).2 sid (some {
      owner := owner.toNat, port := i.port, pair := deliveryPair i pair.toNat, fn := fnKey i, modelId := ps.modelId
      set := (withSeed s c).1 })) i stOk (leBytes 2 sid) := by
  have hgo : ¬((i.origin = 0xFF ∧ (!pairOk s i pair.toNat) = true) ∨ (s.ke.state = 2 ∧ c.seed = none)) := by
    rintro (⟨h, hno⟩ | ⟨h, hno⟩)
    · exact hpair.elim (absurd h) (by simpa using hno)
    · exact hseed.elim (absurd h) (absurd hno)
  unfold actStreamOpen
  rw [hok, orRefuse, hps]
  dsimp only
  rw [hc]
  dsimp only
  rw [if_neg hgo, if_neg (by simp [hsolo]), hfree]

/-- TIER_REGISTER of a function without a tier. -/
theorem actTierRegister_new {s : State} {i : Issuer} {addr : BitVec 64} {size : BitVec 32} (hsize : size.toNat ≤ 1024)
    (haddr : addr.toNat % 4096 = 0) (hnone : (getFn s i.port (fnKey i)).tierSize = 0) : actTierRegister i addr size s =
      complete (modFn s i.port (fnKey i) (fun f => { f with tierAddr := if size = 0 then 0 else addr, tierSize := size.toNat })) i stOk := by
  unfold actTierRegister
  rw [if_neg (by omega)]
  dsimp only
  rw [if_pos hnone]

/-! ### Commands on a stream of the caller's (R342-R346, R352, R365, R366) -/

/-- Which shared pages an input matches depends on the index of prefixes alone. -/
theorem matchPages_of_prefixes {s u : State} (h : u.prefixes = s.prefixes) (owner : Nat) (model : BitVec 64) (channel n : Nat)
    (toks : List (BitVec 32)) (before : BitVec 128) :
    matchPages u owner model channel n toks before = matchPages s owner model channel n toks before := by
  induction n generalizing toks before with
  | zero => rfl
  | succ n ih => simp only [matchPages, h, ih]

section
variable {s : State} {i : Issuer} {owner : BitVec 8} {stream : BitVec 16} {t : Stream}
  (ht : streamOf s i owner.toNat stream.toNat = .ok t)

include ht

/-- STREAM_SUBMIT to a stream in OPEN or FINISHED: `m` are the shared pages that match, in OPEN. -/
theorem actStreamSubmit_taken {count : BitVec 32} {b : List Byte} {ids : List (BitVec 32)} {m : List (Nat × BitVec 128)} (hcount : count ≠ 0)
    (hmax : count.toNat ≤ 65536) (hstate : t.state = 1 ∨ t.state = 4) (hclosing : t.closing = 0) (hpausing : t.pausing = false)
    (hids : ids = (upTo count.toNat).map (fun j => BitVec.ofNat 32 (leAt b (4 * j) 4)))
    (hm : m = if t.state = 1 then matchPages s t.owner t.modelId t.set.channel ((count.toNat - 1) / 64) ids 0 else []) :
    actStreamSubmit i owner stream count (some b) s = complete (modStream
      { s with promptUsed := s.promptUsed + (count.toNat - 64 * m.length) } stream.toNat
      (fun t => { (if 64 * m.length = 0 then t else putHistory t t.length (ids.take (64 * m.length))) with
        state := 2, input := t.input ++ ids.drop (64 * m.length), length := t.length + 64 * m.length
        attach := t.attach ++ (m.zip (upTo m.length)).map (fun e => (e.2, e.1.1)), keys := t.keys ++ m.map (·.2) })) i stOk := by
  subst hm hids
  have hcount' : ¬(count = 0 ∨ 65536 < count.toNat) := by
    rintro (h | h)
    · exact hcount h
    · omega
  have hgo : ¬((t.state ≠ 1 ∧ t.state ≠ 4) ∨ t.closing ≠ 0 ∨ t.pausing = true) := by
    simp only [hclosing, hpausing, ne_eq, not_true_eq_false, Bool.false_eq_true, or_self, or_false]
    omega
  unfold actStreamSubmit
  rw [ht]
  dsimp only
  rw [if_neg hcount', if_neg hgo]

/-- STREAM_SET with good settings keeps them for the next accepting boundary. -/
theorem actStreamSet_good {mask : BitVec 32} {b : List Byte} {c : Settings} (hstate : t.state ≠ 10) (hmask : mask.getLsbD 0 = false)
    (hc : parseSettings t.setDue b mask.toNat (channels s) = some c) (hseed : s.ke.state ≠ 2 ∨ c.seed ≠ none)
    (hsolo : soloBusy s (some stream.toNat) c = false) : actStreamSet i owner stream mask (some b) s =
      complete (modStream (withSeed s c).2 stream.toNat (fun t => { t with setNext := some (withSeed s c).1 })) i stOk := by
  have hgo : ¬(s.ke.state = 2 ∧ c.seed = none) := fun h => hseed.elim (absurd h.1) (absurd h.2)
  unfold actStreamSet
  rw [ht]
  dsimp only
  rw [if_neg hstate, if_neg (Bool.eq_false_iff.mp hmask), hc]
  dsimp only
  rw [if_neg hgo, if_neg (by simp [hsolo])]

section
variable (hstate : t.state = 4) (hclosing : t.closing = 0) (hpausing : t.pausing = false)

include hstate hclosing hpausing

/-- STREAM_FORK of a FINISHED stream that is not to be SOLO, with a stream ID free. -/
theorem actStreamFork_finished {sid : Nat} (hsolo : t.setDue.solo = false) (hfree : freeStream s = some sid) :
    actStreamFork i owner stream s = complete (setStream s sid (some { t with
      attach := t.pages.map (fun e => (e.1, e.2 - 1)) ++ t.attach, pages := [], copies := [], releases := [], awaiting := [], waits := []
      set := t.setDue, setNext := none, k := 0, tracked := false, sinceK0 := 0, passK := 0, specHeld := false
      inFlight := false, waitingSince := none, shortSec := none })) i stOk (leBytes 2 sid) := by
  unfold actStreamFork
  rw [ht]
  dsimp only
  rw [if_neg (by simp [hstate, hclosing, hpausing]), if_neg (by simp [hsolo]), hfree]

/-- STREAM_REWIND of a FINISHED stream, by whether its length is one to which the stream can go back. -/
theorem actStreamRewind_finished (length : BitVec 32) : actStreamRewind i owner stream length s =
    if length = 0 ∨ t.length < length.toNat then complete s i stBadParam
    else complete (modStream s stream.toNat (fun t => { t with
      length := length.toNat, history := t.history.take (length.toNat - t.histBase), toks := t.toks.take length.toNat
      releases := t.releases ++ (t.pages.filter (fun e => length.toNat ≤ 64 * e.1)).map (fun e => e.2 - 1)
      pages := t.pages.filter (fun e => 64 * e.1 < length.toNat), attach := t.attach.filter (fun e => 64 * e.1 < length.toNat)
      keys := t.keys.take (length.toNat / 64) })) i stOk := by
  unfold actStreamRewind
  rw [ht]
  exact if_neg (by simp [hstate, hclosing, hpausing])

end

/-- STREAM_QUERY of a FINISHED stream writes its report at once. -/
theorem execStreamQuery_finished {report : BitVec 64} (hh : isHeadframe s = true)
    (hs : starts s i 0x13 [owner.toNat, stream.toNat, report.toNat] = true) (hstate : t.state = 4) :
    execStreamQuery i owner stream report s = .next (complete (issuerWrite s i report.toNat (padTo 64 (leBytes 4 4 ++ leBytes 4 t.length ++
      leBytes 4 t.input.length ++ leBytes 4 t.genCount ++ leBytes 1 t.k) ++ settingsBlock t.set)) i stOk
      (leBytes 4 4 ++ leBytes 4 t.length)) := by
  refine (headCommand_head hs hh ..).trans (congrArg _ ?_)
  rw [ht]
  dsimp only
  rw [hstate]
  rfl

/-- STREAM_TOKENS of positions that are kept writes their tokens at once. -/
theorem execStreamTokens_kept {buffer : BitVec 64} {first count : BitVec 32} (hh : isHeadframe s = true)
    (hs : starts s i 0x19 [owner.toNat, stream.toNat, buffer.toNat, first.toNat, count.toNat] = true) (hcount : count ≠ 0)
    (hmax : count.toNat ≤ 4096) (hlow : t.histBase ≤ first.toNat) (hhigh : first.toNat + count.toNat ≤ t.histBase + t.history.length) :
    execStreamTokens i owner stream buffer first count s = .next (complete (issuerWrite s i buffer.toNat
      (((t.history.drop (first.toNat - t.histBase)).take count.toNat).flatMap (fun w => leBytes 4 w.toNat))) i stOk) := by
  have hgo : ¬(count = 0 ∨ 4096 < count.toNat ∨ first.toNat < t.histBase ∨
      t.histBase + t.history.length < first.toNat + count.toNat) := by
    rintro (h | h)
    · exact hcount h
    · omega
  refine (headCommand_head hs hh ..).trans (congrArg _ ?_)
  rw [ht]
  exact if_neg hgo

end

end Sys2Proof.Machine

open Sys2Proof Sys2Proof.Machine

/-- Settles O44: where each command waits by the rule of its kind of command, what it does by the rule of its action. An action is its command
after the tokens held for it have left the pool (`act`): none but those of STREAM_SUBMIT. -/
theorem streamCommandsOnOpenStreams : Obligations.StreamCommandsOnOpenStreams := by
  refine ⟨fun s i owner b pair ps c sid => actStreamOpen_good, ?fetched, ?acts, fun s i addr size => actTierRegister_new⟩
  case fetched =>
    intro s i owner stream hh
    exact ⟨fun b pair hr hs => execStreamOpen_head hh b hr hs,
      fun count b hr hs hmax hnew => ⟨execStreamSubmit_fits hh b hr hs hmax, execStreamSubmit_poolFull hh b hr hs hmax hnew⟩,
      fun mask b hr hs => execStreamSet_head hh b hr hs, fun hs => boundaryCommand_head hs hh _, fun l hs => boundaryCommand_head hs hh _,
      fun addr size hs => boundaryCommand_head hs hh _⟩
  case acts =>
    intro s i owner stream t ht
    refine ⟨?submit, fun mask b c => actStreamSet_good ht,
      fun hstate hclosing hpausing hsolo sid => actStreamFork_finished ht hstate hclosing hpausing hsolo, ?rewind,
      fun hh report hs => execStreamQuery_finished ht hh hs, fun hh buffer first count hs => execStreamTokens_kept ht hh hs⟩
    case submit =>
      intro count b hcount hmax hstate hclosing hpausing ids m
      have hm : m = if t.state = 1 then matchPages (freePool s count.toNat) t.owner t.modelId t.set.channel ((count.toNat - 1) / 64) ids 0
          else [] := by
        rw [matchPages_of_prefixes (u := freePool s count.toNat) (s := s) rfl]
      exact actStreamSubmit_taken (s := freePool s count.toNat) ht hcount hmax hstate hclosing hpausing rfl hm
    case rewind =>
      intro length hstate hclosing hpausing
      have h := actStreamRewind_finished ht hstate hclosing hpausing length
      refine ⟨fun hbad => h.trans (if_pos hbad), fun hpos hle => h.trans (if_neg ?_)⟩
      rintro (h0 | hlt)
      · exact hpos h0
      · omega
end

section
/-! SUPPORT. Pauses: their commands, where one is placed, its image sealed and restored, and its expiry (R344, R346, R369-R374, R527). -/

namespace Sys2Proof.Machine

/-! ### STREAM_PAUSE, STREAM_CLOSE and STREAM_RESUME act (R344, R349, R369, R372) -/

section
variable {s : State} {i : Issuer} {owner : BitVec 8} {stream : BitVec 16} {t : Stream}
  (ht : streamOf s i owner.toNat stream.toNat = .ok t)

include ht

/-- STREAM_PAUSE of a stream that can pause marks it and waits. -/
theorem actStreamPause_marks {ttl : BitVec 32} (httl : ttl.toNat ≤ 86400) (hstate : t.state = 2 ∨ t.state = 3 ∨ t.state = 4)
    (hclosing : t.closing = 0) (hpausing : t.pausing = false) : actStreamPause i owner stream ttl s =
      modStream s stream.toNat (fun t => { t with
        pausing := true, pauseTtl := if ttl = 0 then t.set.ttl else ttl.toNat, pauseFn := fnKey i, waits := t.waits ++ [(1, i)] }) := by
  have hgo : ¬((t.state ≠ 2 ∧ t.state ≠ 3 ∧ t.state ≠ 4) ∨ t.closing ≠ 0 ∨ t.pausing = true) := by
    simp only [hclosing, hpausing, ne_eq, not_true_eq_false, Bool.false_eq_true, or_self, or_false]
    omega
  unfold actStreamPause
  rw [ht]
  dsimp only
  rw [if_neg (by omega), if_neg hgo]

/-- STREAM_CLOSE of a stream that is not CLOSED marks it for closing and waits; a close by the stream's own pair is not reported. -/
theorem actStreamClose_marks (hstate : t.state ≠ 10) : actStreamClose i owner stream s =
    wantClose (modStream s stream.toNat (fun t => { t with waits := t.waits ++ [(3, i)] })) stream.toNat
      (if t.port = i.port ∧ t.pair = i.pairKey then 1 else 2) := by
  unfold actStreamClose
  rw [ht]
  dsimp only
  rw [if_neg hstate]
  simp only [Bool.and_eq_true, decide_eq_true_eq]

section
variable {f : Fetched} (hf : findFetched s i = some f) (hrestoring : t.restoring = false) (hexpired : t.expired = false)

include hf hrestoring hexpired

/-- STREAM_RESUME of a paused stream, by whether it was fetched before the pause expired (R372). -/
theorem actStreamResume_paused (hstate : t.state = 6 ∨ t.state = 7) (ok : Bool) : actStreamResume i owner stream ok s =
    if 4 * expiryOf t ≤ f.fetchedAt then complete s i stExpired
    else if t.closing ≠ 0 then complete s i stState
    else if t.state = 7 then
      modStream s stream.toNat (fun t => { t with restoring := true, waits := t.waits ++ [(2, i)] })
    else if s.sq.planSet.map (·.modelId) ≠ some t.imageModel ∨ s.sq.kvGeom ≠ t.imageGeom then complete s i stModelMismatch
    else if (ownChannel s t.set.channel = true ∧ framesFree s < (t.length + 63) / 64) ∨ (!ok) = true then complete s i stNoSpace
    else issueReads (modStream (allocPages s stream.toNat t.owner (upTo ((t.length + 63) / 64))) stream.toNat
      (fun t => { t with state := 8, waits := t.waits ++ [(2, i)] })) t.port := by
  have hgo : ¬((t.state ≠ 6 ∧ t.state ≠ 7) ∨ t.restoring = true) := by
    rw [hrestoring]
    rintro (h | h)
    · omega
    · exact Bool.false_ne_true h
  have htime : fetchTime s i = f.fetchedAt := by rw [fetchTime, hf, Option.map_some, Option.getD_some]
  unfold actStreamResume
  rw [ht]
  dsimp only
  rw [if_neg (by simp [hexpired]), if_neg hgo, htime]

/-- Fetched at the expiry or later it is EXPIRED. -/
theorem actStreamResume_late (hstate : t.state = 6 ∨ t.state = 7) (hlate : 4 * expiryOf t ≤ f.fetchedAt) (ok : Bool) :
    actStreamResume i owner stream ok s = complete s i stExpired :=
  (actStreamResume_paused ht hf hrestoring hexpired hstate ok).trans (if_pos hlate)

section
variable (htime : f.fetchedAt < 4 * expiryOf t) (hclosing : t.closing = 0)

include htime hclosing

/-- In time it asks for the return of a cold pause. -/
theorem actStreamResume_cold (hstate : t.state = 7) (ok : Bool) : actStreamResume i owner stream ok s =
    modStream s stream.toNat (fun t => { t with restoring := true, waits := t.waits ++ [(2, i)] }) := by
  rw [actStreamResume_paused ht hf hrestoring hexpired (.inr hstate), if_neg (by omega), if_neg (by omega), if_pos hstate]

/-- In time, with the same model and geometry and frames everywhere, a host-tier pause takes frames and returns. -/
theorem actStreamResume_tier (hstate : t.state = 6) (hmodel : s.sq.planSet.map (·.modelId) = some t.imageModel)
    (hgeom : s.sq.kvGeom = t.imageGeom) (hframes : ownChannel s t.set.channel = true → (t.length + 63) / 64 ≤ framesFree s) :
    actStreamResume i owner stream true s = issueReads (modStream
      (allocPages s stream.toNat t.owner (upTo ((t.length + 63) / 64))) stream.toNat
      (fun t => { t with state := 8, waits := t.waits ++ [(2, i)] })) t.port := by
  have hroom : ¬((ownChannel s t.set.channel = true ∧ framesFree s < (t.length + 63) / 64) ∨ (!true) = true) := by
    rintro (⟨hown, hlt⟩ | h)
    · exact Nat.not_le.mpr hlt (hframes hown)
    · exact Bool.false_ne_true h
  rw [actStreamResume_paused ht hf hrestoring hexpired (.inl hstate), if_neg (by omega), if_neg (by omega), if_neg (by omega),
    if_neg (by simp [hmodel, hgeom]), if_neg hroom]

end

end

end

/-! ### Where a pause is placed (R369, R370, R527) -/

theorem Reported.ke {s t : State} (h : Reported s t) : t.ke = s.ke := by
  obtain ⟨_, _, _, _, _, _, _, _, _, _, _, _, _, _, _, _, rfl⟩ := h
  rfl

theorem Reported.streams {s t : State} (h : Reported s t) : t.streams = s.streams := by
  obtain ⟨_, _, _, _, _, _, _, _, _, _, _, _, _, _, _, _, rfl⟩ := h
  rfl

/-- A write into host memory changes what leaves the device, at most. -/
theorem reported_fnWrite (s : State) (port : Bool) (key addr : Nat) (bytes : List Byte) : Reported s (fnWrite s port key addr bytes) :=
  reported_ite (reported_ite (reported_hostSend s port _) (Reported.refl s)) (reported_sent (sent_sendMessage s _ _ _ _))

/-- A page of an image goes out by a write into host memory. -/
theorem reported_imageWrite (s : State) (k : PauseKey) (position page : Nat) (bs : List Byte) :
    Reported s (imageWrite s k position page bs) := by
  unfold imageWrite
  split
  · exact Reported.refl s
  · exact reported_fnWrite s _ _ _ _

/-- The new pause key of a stream whose image gets `room` bytes at `at'` of its host tier (R527). -/
def newPauseKey (s : State) (t : Stream) (room at' : Nat) : PauseKey :=
  { owner := t.owner, pauseNo := (s.ke.pauseNo + 1) % 2 ^ 32, key := Config.keyBits s.ke.nextKey, wrap := (getSlot s t.owner).kWrap
    image := some (t.port, t.pauseFn, (getFn s t.port t.pauseFn).tierAddr.toNat + at'), room := room }

/-- The key engine with that key drawn for stream `sid`. -/
def keWithPause (s : State) (sid : Nat) (t : Stream) (room at' : Nat) : Ke :=
  { s.ke with
    pauseNo := (s.ke.pauseNo + 1) % 2 ^ 32, nextKey := s.ke.nextKey + 1, drbgCount := s.ke.drbgCount + 1
    pauseKeys := tblSet {} s.ke.pauseKeys sid (newPauseKey s t room at') }

/-- The key drawn, the members told of it, and the image's header written. -/
def pauseKeyed (s : State) (sid : Nat) (t : Stream) (room at' : Nat) : State :=
  let k := newPauseKey s t room at'
  let u := broadcast { s with ke := keWithPause s sid t room at' } 0x54
    [sid, t.owner, k.pauseNo, ofBool t.port, t.pauseFn, (getFn s t.port t.pauseFn).tierAddr.toNat + at', room] (leBytes 32 k.key.toNat)
  imageWrite u k headerPage.1 headerPage.2 (imageHeader u sid t)

/-- Keying a pause reports to the members and to the host, beside the key engine's change. -/
theorem reported_pauseKeyed (s : State) (sid : Nat) (t : Stream) (room at' : Nat) :
    Reported { s with ke := keWithPause s sid t room at' } (pauseKeyed s sid t room at') := by
  unfold pauseKeyed
  exact (reported_sent (sent_broadcast ..)).trans (reported_imageWrite ..)

/-- The keyed stream in its host tier, its image awaited. -/
def pausePlaced (s : State) (sid : Nat) (t : Stream) (room at' : Nat) : State :=
  let u := pauseKeyed s sid t room at'
  modStream u sid (fun t => { t with
    state := 5, heldState := t.state, pausing := false, imageModel := t.modelId, imageGeom := u.sq.kvGeom, imageSize := room
    imageAt := at' })

section
variable {s : State} {stream : BitVec 16} {t : Stream} (ht : getStream s stream.toNat = some t)

include ht

section
variable {n room : Nat} (hedge : atEdge s 2 = true) (hpausing : t.pausing = true) (hflight : t.inFlight = false)
  (hroom : room = max n (imageNeed s stream.toNat t))

include hedge hpausing hflight hroom

/-- A pause whose image fits in its host tier is placed there. -/
theorem execPausePlacement_tier {a : Nat} (hfit : tierFit s t.port t.pauseFn room = some a) : execPausePlacement stream n s =
    .next (pausePlaced s stream.toNat t room a) := by
  subst hroom
  unfold execPausePlacement
  rw [ht]
  dsimp only
  rw [if_neg (by simp [hedge, hpausing, hflight]), hfit]
  unfold pausePlaced pauseKeyed keWithPause newPauseKey
  rfl

/-- A pause whose image does not fit goes to the cold pool, with event 0x12. -/
theorem execPausePlacement_cold (hfit : tierFit s t.port t.pauseFn room = none) : execPausePlacement stream n s = .next (completeWaits
    (raiseEvent (modStream s stream.toNat (fun t => { t with
      state := 7, heldState := t.state, pausing := false, pauseStart := s.power.rtb })) 6 0x12
      (info [(2, stream.toNat), (1, if (getFn s t.port t.pauseFn).tierSize = 0 then 1 else 2)])) stream.toNat 1 stOk [7]) := by
  subst hroom
  unfold execPausePlacement
  rw [ht]
  dsimp only
  rw [if_neg (by simp [hedge, hpausing, hflight]), hfit]
  simp only [decide_eq_true_eq]
  rfl

end

/-- The stream as a keyed pause leaves it in its host tier. -/
theorem getStream_pausePlaced (hwf : tblWf none s.streams = true) (room a : Nat) :
    getStream (pausePlaced s stream.toNat t room a) stream.toNat = some { t with
      state := 5, heldState := t.state, pausing := false, imageModel := t.modelId, imageGeom := s.sq.kvGeom, imageSize := room
      imageAt := a } := by
  have hrep := reported_pauseKeyed s stream.toNat t room a
  have hget : getStream (pauseKeyed s stream.toNat t room a) stream.toNat = some t := by
    rw [getStream, hrep.streams]
    exact ht
  rw [pausePlaced, getStream_modStream (by rw [hrep.streams]; exact hwf), if_pos rfl, hget, hrep.sq]
  rfl

/-! ### The image sealed (R369, R370) -/

/-- A member seals its pages of a stream into the image. -/
theorem execPauseImageDone_member {p : Bool × Nat × Nat} (hp : (tblGet {} s.ke.pauseKeys stream.toNat).image = some p)
    (hh : isHeadframe s = false) (ecc : List (Nat × Bool)) :
    execPauseImageDone ⟨stream, ecc⟩ s = .next (forEach (ownPages t) (sealPage stream.toNat ecc) s) := by
  unfold execPauseImageDone
  dsimp only
  rw [ht]
  dsimp only
  rw [if_neg (by rw [hp]; exact Bool.false_ne_true), if_pos (by simp [hh])]

/-- The headframe seals its own, and notes that every device has finished. -/
theorem execPauseImageDone_head {p : Bool × Nat × Nat} (hp : (tblGet {} s.ke.pauseKeys stream.toNat).image = some p)
    (hh : isHeadframe s = true) (hstate : t.state = 5) (hdone : t.imageDone = false) (ecc : List (Nat × Bool)) :
    execPauseImageDone ⟨stream, ecc⟩ s = .next (modStream (forEach (ownPages t) (sealPage stream.toNat ecc) s) stream.toNat
      (fun t => { t with imageDone := true })) := by
  unfold execPauseImageDone
  dsimp only
  rw [ht]
  dsimp only
  rw [if_neg (by rw [hp]; exact Bool.false_ne_true), if_neg (by simp [hh]), if_neg (by simp [hstate, hdone])]

/-! ### Expiry (R371) -/

/-- A pause that has expired ends at the boundary or pass that is due. -/
theorem execPauseExpiry_due (hh : isHeadframe s = true) (hpass : passDue s = true) (hstate : t.state = 6 ∨ t.state = 7)
    (hexp : pauseExpired s t = true) (hresume : resumePending s stream.toNat t = false) (hclosing : t.closing = 0)
    (hrestoring : t.restoring = false) : execPauseExpiry stream s = .next (wantClose
      (modStream (raiseEvent (if t.state = 6 then dropPauseKey s stream.toNat else s) 6 0x13
        (info [(2, stream.toNat), (1, t.owner), (1, if t.state = 6 then 1 else 2)])) stream.toNat (fun t => { t with expired := true }))
      stream.toNat 2) := by
  have hnow : expiresNow s stream.toNat t = true := by
    simp [expiresNow, hstate, hexp, hresume, hclosing, hrestoring]
  refine (congrArg Host.Outcome.next (if_pos (by simp [hh, hpass]))).trans (congrArg _ ?_)
  unfold expireStream
  rw [ht]
  exact if_pos hnow

end

/-! ### The image restored (R372) -/

/-- An error met in a word moves no headframe. -/
@[simp] theorem isHeadframe_writeWord (s : State) (k w : Nat) (p : Nat × List Byte) (queue : Nat) :
    isHeadframe (writeWord s k w p queue) = isHeadframe s := by
  have hmerge (s : State) : isHeadframe (mergeWord s k w p) = isHeadframe s := isHeadframe_of_ri (mergeWord_ri ..)
  unfold writeWord
  split_ifs
  · exact hmerge s
  · exact isHeadframe_raiseEvent ..
  · exact isHeadframe_raiseEvent ..
  · exact hmerge _
  · exact hmerge s

/-- Writing memory moves no headframe. -/
@[simp] theorem isHeadframe_writeUnder (s : State) (k a : Nat) (bs : List Byte) (queue : Nat) :
    isHeadframe (writeUnder s k a bs queue) = isHeadframe s :=
  forEach_keeps isHeadframe _ _ (fun s w => isHeadframe_writeWord s k w _ queue) s

/-- Restoring pages moves no headframe. -/
@[simp] theorem isHeadframe_restorePages (s : State) (sid : Nat) (image : List (BitVec 56 × List Byte)) (t : Stream) :
    isHeadframe (restorePages s sid image t) = isHeadframe s :=
  forEach_keeps isHeadframe _ _ (fun s _ => isHeadframe_writeUnder s ..) s

/-- The ring position and page at which an image fails its tag: the first page of this device's, else one told of another's. -/
def imageFailure (s : State) (sid : Nat) (image : ImageRead) (t : Stream) : Option (Nat × Nat) :=
  (((ownPages t).find? (fun e => (openPage s sid image.pages e.1).isNone)).map (fun e => (ownPosition s, e.1))).orElse
    (fun _ => image.tagFailure.map (fun f => (f.1.toNat, f.2.toNat)))

section
variable {s : State} {stream : BitVec 16} {t : Stream} {image : ImageRead}

/-- Where every page of this device's opens, the image fails where another device's does. -/
theorem imageFailure_of_open (hall : ∀ e ∈ ownPages t, (openPage s stream.toNat image.pages e.1).isSome = true) :
    imageFailure s stream.toNat image t = image.tagFailure.map (fun f => (f.1.toNat, f.2.toNat)) := by
  have hnone : (ownPages t).find? (fun e => (openPage s stream.toNat image.pages e.1).isNone) = none :=
    List.find?_eq_none.mpr (fun e he => by rw [Option.isNone_iff_eq_none]; exact Option.isSome_iff_ne_none.mp (hall e he))
  rw [imageFailure, hnone]
  rfl

/-- Where the first page of this device's does not open, the image fails there. -/
theorem imageFailure_of_first {e : Nat × Nat} {tail : List (Nat × Nat)} (hpages : ownPages t = e :: tail)
    (hfail : openPage s stream.toNat image.pages e.1 = none) :
    imageFailure s stream.toNat image t = some (ownPosition s, e.1) := by
  rw [imageFailure, hpages, List.find?_cons_of_pos (by rw [hfail]; rfl)]
  rfl

variable {p : Bool × Nat × Nat} (ht : getStream s stream.toNat = some t) (hh : isHeadframe s = true) (hstate : t.state = 8)
  (hread : 32 ≤ t.pauseFn ∨ t.issued ≠ 0 ∨ t.imageSize = 0) (hp : (tblGet {} s.ke.pauseKeys stream.toNat).image = some p)

include hh hstate hread hp

/-- The image of a stream in RESUMING is being read on the headframe. -/
theorem resumeImage_heeded : ¬((isHeadframe s && (t.state != 8 || decide (t.pauseFn < 32) && t.issued == 0 && t.imageSize != 0)
    || (tblGet {} s.ke.pauseKeys stream.toNat).image.isNone) = true) := by
  simp only [hh, hstate, hp, bne_self_eq_false, Bool.false_or, Bool.true_and, Option.isNone_some, Bool.or_false, Bool.and_eq_true,
    decide_eq_true_eq, beq_iff_eq, bne_iff_ne]
  omega

include ht

/-- An image that does not fail is restored, and its key goes. -/
theorem execResumeImageDone_restores (hx : imageFailure s stream.toNat image t = none) : execResumeImageDone stream image s =
    .next (modStream (dropPauseKey (restorePages s stream.toNat image.pages t) stream.toNat) stream.toNat
      (fun t => { t with restoring := true, imageSize := 0, issued := 0 })) := by
  unfold imageFailure at hx
  unfold execResumeImageDone
  rw [ht]
  dsimp only
  rw [if_neg (resumeImage_heeded hh hstate hread hp), hx]
  dsimp only
  rw [if_neg (by simp [hh])]

/-- An image that fails closes the stream, with event 0x14. -/
theorem execResumeImageDone_fails {q page : Nat} (hx : imageFailure s stream.toNat image t = some (q, page)) :
    execResumeImageDone stream image s = .next (wantClose
      (completeWaits (raiseEvent s 6 0x14 (info [(2, stream.toNat), (1, q), (7, page)])) stream.toNat 2 stTag []) stream.toNat 2) := by
  unfold imageFailure at hx
  unfold execResumeImageDone
  rw [ht]
  dsimp only
  rw [if_neg (resumeImage_heeded hh hstate hread hp), hx]
  dsimp only
  rw [if_neg (by simp [hh])]
  rfl

end

end Sys2Proof.Machine

open Sys2Proof Sys2Proof.Machine

/-- Settles O45: the commands by the rules of their actions, a placement by whether the image fits, and the image by whether its pages open. -/
theorem pauseResumeAndClose : Obligations.PauseResumeAndClose := by
  refine ⟨?fetched, ?acts, ?placement, ?image⟩
  case fetched =>
    intro s i owner stream hh
    exact ⟨fun ttl hs => boundaryCommand_head hs hh _, fun ok hs => boundaryCommand_head hs hh _, fun hs => boundaryCommand_head hs hh _⟩
  case acts =>
    intro s i owner stream t ht
    refine ⟨fun ttl httl => actStreamPause_marks ht httl, actStreamClose_marks ht, fun ok f hf hrestoring hexpired =>
      ⟨fun hstate hlate => actStreamResume_late ht hf hrestoring hexpired hstate hlate ok, fun htime hclosing =>
        ⟨fun hstate => actStreamResume_cold ht hf hrestoring hexpired htime hclosing hstate ok, ?_⟩⟩⟩
    rintro hstate hmodel hgeom rfl hframes
    exact actStreamResume_tier ht hf hrestoring hexpired htime hclosing hstate hmodel hgeom hframes
  case placement =>
    intro s stream t n ht hedge hpausing hflight room
    refine ⟨fun a hfit => ⟨_, execPausePlacement_tier ht hedge hpausing hflight rfl hfit, fun hwf => getStream_pausePlaced ht hwf room a, ?_⟩,
      execPausePlacement_cold ht hedge hpausing hflight rfl⟩
    rw [pausePlaced, modStream_ke, (reported_pauseKeyed s stream.toNat t room a).ke]
    exact ⟨rfl, fun hwf => congrArg PauseKey.key (tblGet_set_self hwf ..)⟩
  case image =>
    intro s stream t ht
    exact ⟨fun p hp => ⟨fun hh => execPauseImageDone_member ht hp hh [],
        fun hh hstate hdone => execPauseImageDone_head ht hp hh hstate hdone []⟩,
      fun hh => execPauseExpiry_due ht hh,
      fun image p hh hstate hread hp => ⟨fun hall =>
        ⟨execResumeImageDone_restores ht hh hstate hread hp (imageFailure_of_open hall),
          fun q page => execResumeImageDone_fails ht hh hstate hread hp (imageFailure_of_open hall)⟩,
        fun e tail hpages hfail x => execResumeImageDone_fails ht hh hstate hread hp (imageFailure_of_first hpages hfail)⟩⟩
end

section
/-! SUPPORT. Resets of functions and ports, host links, VF Enable and the DOE mailbox (R445, R447, R467-R473, R480, R522, R598, R599). -/

namespace Sys2Proof.Machine

/-! ### The records of a port's functions and pairs -/

/-- A function's record reads back as changed. -/
theorem getFn_modFn {s : State} {port : Bool} (h : tblWf {} (getHp s port).fns = true) (n : Nat) (f : Fn → Fn) :
    getFn (modFn s port n f) port n = f (getFn s port n) := by
  unfold getFn modFn
  rw [getHp_modHp]
  exact tblGet_mod_self h n f

/-- Changing a function leaves every other function of its port. -/
theorem getFn_modFn_ne (s : State) (port : Bool) {n m : Nat} (f : Fn → Fn) (hne : m ≠ n) :
    getFn (modFn s port n f) port m = getFn s port m := by
  unfold getFn modFn
  rw [getHp_modHp]
  exact tblGet_mod_ne f hne

/-- Changing a function keeps the canonical form of its port's functions. -/
theorem tblWf_modFn {s : State} {port : Bool} (h : tblWf {} (getHp s port).fns = true) (n : Nat) (f : Fn → Fn) :
    tblWf {} (getHp (modFn s port n f) port).fns = true := by
  unfold modFn
  rw [getHp_modHp]
  exact tblWf_mod h n f

/-- Changing a function leaves the pairs of its port. -/
theorem getQp_modFn (s : State) (port : Bool) (n p : Nat) (f : Fn → Fn) : getQp (modFn s port n f) port p = getQp s port p := by
  unfold getQp modFn
  rw [getHp_modHp]

/-- Changing a pair leaves the functions of its port. -/
theorem modQp_fns (s : State) (port : Bool) (p : Nat) (f : Qp → Qp) : (getHp (modQp s port p f) port).fns = (getHp s port).fns := by
  unfold modQp
  rw [getHp_modHp]

/-- Changing a pair keeps the canonical form of its port's pairs. -/
theorem tblWf_modQp {s : State} {port : Bool} (h : tblWf {} (getHp s port).qps = true) (p : Nat) (f : Qp → Qp) :
    tblWf {} (getHp (modQp s port p f) port).qps = true := by
  unfold modQp
  rw [getHp_modHp]
  exact tblWf_mod h p f

/-- Changing a pair leaves every other pair of its port. -/
theorem getQp_modQp_ne (s : State) (port : Bool) {p q : Nat} (f : Qp → Qp) (hne : q ≠ p) :
    getQp (modQp s port p f) port q = getQp s port q := by
  unfold getQp modQp
  rw [getHp_modHp]
  exact tblGet_mod_ne f hne

/-- A walk over pairs without a repetition changes each of them once. -/
theorem getQp_forEach_modQp {s : State} {port : Bool} {l : List Nat} (h : tblWf {} (getHp s port).qps = true) (hl : l.Nodup)
    (f : Nat → Qp → Qp) {p : Nat} (hp : p ∈ l) :
    getQp (forEach l (fun s p => modQp s port p (f p)) s) port p = f p (getQp s port p) := by
  induction l generalizing s with
  | nil => exact absurd hp List.not_mem_nil
  | cons q l ih =>
    obtain ⟨hq, hl⟩ := List.nodup_cons.mp hl
    rcases List.mem_cons.mp hp with rfl | hmem
    · have hrest : ∀ (l : List Nat) (s : State), p ∉ l →
          getQp (forEach l (fun s p => modQp s port p (f p)) s) port p = getQp s port p := by
        intro l
        induction l with
        | nil => exact fun s _ => rfl
        | cons q l ih =>
          intro s hp
          rw [List.mem_cons, not_or] at hp
          exact (ih _ hp.2).trans (getQp_modQp_ne s port _ hp.1)
      exact (hrest l _ hq).trans (getQp_modQp h p _)
    · have hne : p ≠ q := fun heq => hq (heq ▸ hmem)
      exact (ih (tblWf_modQp h q _) hl hmem).trans (congrArg (f p) (getQp_modQp_ne s port _ hne))

/-! ### What the start of a function's reset does (R467) -/

/-- What every step of a walk keeps, the walk keeps. -/
theorem forEach_preserves {α : Type} {P : State → Prop} (l : List α) {f : State → α → State} (hf : ∀ s a, P s → P (f s a)) {s : State}
    (h : P s) : P (forEach l f s) := by
  unfold forEach
  induction l generalizing s with
  | nil => exact h
  | cons a l ih => exact ih (hf s a h)

/-- A property that the parts of a reset of function `fn` of a port keep: traffic on the ring, an owner's change, the function's own record,
the fetched commands of the port, and what management holds. -/
structure ResetKeeps (port : Bool) (fn : Nat) (P : State → Prop) : Prop where
  sent : ∀ {s t}, Sent s t → P s → P t
  owner : ∀ {s} o g, P s → P (modOwner s o g)
  record : ∀ {s} g, P s → P (modFn s port fn g)
  fetched : ∀ {s} (g : List Fetched → List Fetched), P s → P (modHp s port (fun h => { h with fetched := g h.fetched }))
  mgmt : ∀ {s} m, P s → P { s with mgmt := m }

/-- The commands of a function not yet in effect are discarded; those forwarded from another member stay. -/
def dropUnstarted (s : State) (port : Bool) (fn : Nat) : State :=
  modHp s port (fun h => { h with fetched := h.fetched.filter (fun f => f.fn != fn || decide (256 ≤ f.pair) || f.inEffect) })

/-- The sessions of a function's mailbox end. -/
def dropSessions (s : State) (w : Nat) : State :=
  { s with mgmt := { s.mgmt with
    sessions := s.mgmt.sessions.filter (fun z => z.transport != w), negotiated := s.mgmt.negotiated.filter (· != w) } }

/-- The state in which a reset that starts finds the function's own record. -/
def resetCleared (s : State) (port : Bool) (fn : Nat) : State :=
  dropSessions (dropUnstarted (tellHead (unbindFrom s port fn) port fn 2) port fn) (mailbox port fn)

/-- The start of a reset, last the function's own record. -/
theorem startReset_eq (s : State) (port : Bool) (fn kind since : Nat) : startReset s port fn kind since =
    modFn (resetCleared s port fn) port fn (fun f => { f with
      inReset := true, resetDone := false, busMaster := false, resetAt := since, resetKind := kind, keysDestroyed := 0, hbArmed := false
      hbExpired := false, hbValue := 0, aptBase := 0, selIde := 0, linkIde := false }) := rfl

section
variable {port : Bool} {fn : Nat} {P : State → Prop} (hP : ResetKeeps port fn P)

include hP

/-- Unbinding a function from its owners keeps such a property. -/
theorem ResetKeeps.unbindFrom {s : State} (h : P s) : P (unbindFrom s port fn) := by
  refine forEach_preserves _ (fun s o h => ?_) h
  have hdropped : P (dropAperture (modOwner s o (fun w => { w with bound := w.bound.filter (· != (port, fn)) })) o port fn) :=
    hP.record _ (hP.owner o _ h)
  dsimp only
  split
  · exact hP.sent (sent_shareOwner _ o) hdropped
  · exact hdropped

/-- What precedes the change of the function's own record keeps it. -/
theorem ResetKeeps.resetCleared {s : State} (h : P s) : P (resetCleared s port fn) :=
  hP.mgmt _ (hP.fetched _ (hP.sent (sent_tellHead _ port fn 2) (hP.unbindFrom h)))

/-- The start of the reset keeps it. -/
theorem ResetKeeps.startReset {s : State} (h : P s) (kind since : Nat) : P (startReset s port fn kind since) := by
  rw [startReset_eq]
  exact hP.record _ (hP.resetCleared h)

end

theorem Sent.mem {s t : State} (h : Sent s t) : t.mem = s.mem := by
  obtain ⟨r, o, rfl⟩ := h
  rfl

theorem Sent.pins {s t : State} (h : Sent s t) : t.pins = s.pins := by
  obtain ⟨r, o, rfl⟩ := h
  rfl

/-- A reset touches no memory, no stream and no pin. -/
theorem resetKeeps_untouched (port : Bool) (fn : Nat) (s : State) :
    ResetKeeps port fn (fun t => t.mem = s.mem ∧ t.streams = s.streams ∧ t.pins = s.pins) where
  sent ht h := ⟨ht.mem.trans h.1, ht.streams.trans h.2.1, ht.pins.trans h.2.2⟩
  owner _ _ h := h
  record _ h := by simpa using h
  fetched _ h := by simpa using h
  mgmt _ h := h

/-- It touches no other function of its port. -/
theorem resetKeeps_otherFn (port : Bool) {fn g : Nat} (hne : g ≠ fn) (s : State) :
    ResetKeeps port fn (fun t => getFn t port g = getFn s port g) where
  sent ht h := by
    unfold getFn at h ⊢
    rw [ht.getHp]
    exact h
  owner _ _ h := h
  record f h := (getFn_modFn_ne _ port f hne).trans h
  fetched _ h := by
    unfold getFn at h ⊢
    rw [getHp_modHp]
    exact h
  mgmt _ h := h

/-- It keeps the canonical form of its port's functions. -/
theorem resetKeeps_wf (port : Bool) (fn : Nat) : ResetKeeps port fn (fun t => tblWf {} (getHp t port).fns = true) where
  sent ht h := by
    rw [ht.getHp]
    exact h
  owner _ _ h := h
  record f h := tblWf_modFn h fn f
  fetched _ h := by
    rw [getHp_modHp]
    exact h
  mgmt _ h := h

/-- The function's own record when its reset has started. -/
theorem getFn_startReset {s : State} {port : Bool} (h : tblWf {} (getHp s port).fns = true) (fn kind since : Nat) :
    ∃ f : Fn, getFn (startReset s port fn kind since) port fn = { f with
      inReset := true, resetDone := false, busMaster := false, resetAt := since, resetKind := kind, keysDestroyed := 0, hbArmed := false
      hbExpired := false, hbValue := 0, aptBase := 0, selIde := 0, linkIde := false } := by
  rw [startReset_eq]
  exact ⟨_, getFn_modFn ((resetKeeps_wf port fn).resetCleared h) fn _⟩

/-- The commands of the function that stay fetched are in effect, or another member's. -/
theorem fetched_startReset {s : State} {port : Bool} {fn kind since : Nat} {f : Fetched}
    (hf : f ∈ (getHp (startReset s port fn kind since) port).fetched) : f.fn ≠ fn ∨ 256 ≤ f.pair ∨ f.inEffect = true := by
  rw [startReset_eq, modFn, getHp_modHp] at hf
  have hdrop : getHp (resetCleared s port fn) port = getHp (dropUnstarted (tellHead (unbindFrom s port fn) port fn 2) port fn) port := rfl
  rw [hdrop, dropUnstarted, getHp_modHp] at hf
  simpa [or_assoc] using (List.mem_filter.mp hf).2

/-! ### The boundary after a reset, and the return of the function (R467, R480, R632) -/

/-- Releasing a host tier moves no headframe. -/
theorem isHeadframe_releaseTier (s : State) (port : Bool) (fn : Nat) (own : Option (Bool × Nat)) :
    isHeadframe (releaseTier s port fn own) = isHeadframe s := by
  have hhp (s : State) (g : Hp → Hp) : isHeadframe (modHp s port g) = isHeadframe s := isHeadframe_of_ri (modHp_ri ..)
  unfold releaseTier
  extract_lets hit s1 s2
  have h1 : isHeadframe s1 = isHeadframe s := by
    refine forEach_keeps isHeadframe _ _ (fun s j => ?_) s
    rfl
  have h2 : isHeadframe s2 = isHeadframe s1 := by rw [apply_ite isHeadframe, isHeadframe_raiseEvent, ite_self]
  exact (hhp ..).trans (h2.trans h1)

/-- On the headframe nothing is told to it. -/
theorem tellHead_of_headframe {s : State} (h : isHeadframe s = true) (port : Bool) (fn what : Nat) : tellHead s port fn what = s :=
  if_pos h

/-- The host DMA of a function in reset is aborted, its commands run on without, and what is delayed for it goes. -/
def dmaAborted (s : State) (port : Bool) (fn : Nat) : State :=
  modFn (modHp s port (fun h => { h with
    fetched := h.fetched.map (fun f => if f.fn = fn ∧ f.pair < 256 then { f with dropped := true, issued := 0 } else f)
    delayed := h.delayed.filter (fun o => !dmaOf s port fn o) })) port fn (fun f => { f with resetDone := true })

/-- Its host tier is released. -/
def tierReleased (s : State) (port : Bool) (fn : Nat) : State :=
  if (getFn s port fn).tierSize = 0 then s else releaseTier s port fn none

/-- The boundary on the headframe in an idle tick. -/
theorem resetBoundary_head {s u : State} {port : Bool} {fn : Nat} (hreset : (getFn s port fn).inReset = true)
    (hdone : (getFn s port fn).resetDone = false) (hidle : s.sq.live = none) (hh : isHeadframe s = true)
    (hu : u = tierReleased (dmaAborted s port fn) port fn) : resetBoundary s port fn =
      modFn (forEach (deserted u) (fun s o => orderDestroy s o 2 none) u) port fn
        (fun f => { f with keysDestroyed := f.keysDestroyed + (deserted u).length }) := by
  have haborted : isHeadframe (dmaAborted s port fn) = true :=
    (isHeadframe_of_ri ((modFn_ri ..).trans (modHp_ri ..))).trans hh
  have huh : isHeadframe u = true := by
    rw [hu, tierReleased, apply_ite isHeadframe, isHeadframe_releaseTier, ite_self, haborted]
  have htell : tellHead (tierReleased (dmaAborted s port fn) port fn) port fn 3 = u := by rw [← hu, tellHead_of_headframe huh]
  unfold tierReleased dmaAborted at htell
  unfold resetBoundary
  rw [if_neg (by simp [hreset, hdone, hidle])]
  dsimp only
  rw [htell, huh]
  rfl

/-- The pairs of a function that returns: UNCONFIGURED, and PF0's where its map does not name them (R453). -/
def pairsFreed (s : State) (port : Bool) (fn : Nat) : State :=
  forEach (pairsOf s port fn) (fun s' p => modQp s' port p (fun q =>
    { fn := if (getFn s port fn).queueMap.any (fun e => e.2 == p + 1) then q.fn else 0, cfg := q.cfg + 1 })) s

/-- The state in which a return finds the function's own record. -/
def returnReported (s : State) (port : Bool) (fn : Nat) : State :=
  tellHead (if fn = 0 then pairsFreed s port fn else modHdr (pairsFreed s port fn) (pgFn port fn) (fun _ => {})) port fn 4

/-- The return of a function, last its own record. -/
theorem leaveReset_eq (s : State) (port : Bool) (fn : Nat) : leaveReset s port fn =
    modFn (returnReported s port fn) port fn
      (fun f => { enabled := f.enabled, queueMap := f.queueMap, busMaster := f.busMaster }) := rfl

/-- What is read from a port's record, or from the clock, stands after the page is cleared and the headframe told. -/
theorem returnReported_facts (s : State) (port : Bool) (fn : Nat) :
    getHp (returnReported s port fn) port = getHp (pairsFreed s port fn) port ∧
      (returnReported s port fn).clock = (pairsFreed s port fn).clock := by
  have hsent := sent_tellHead
    (if fn = 0 then pairsFreed s port fn else modHdr (pairsFreed s port fn) (pgFn port fn) (fun _ => {})) port fn 4
  unfold returnReported
  rw [hsent.getHp, hsent.clock]
  split
  · exact ⟨rfl, rfl⟩
  · exact ⟨rfl, rfl⟩

/-- The return of a function takes no time. -/
theorem leaveReset_clock (s : State) (port : Bool) (fn : Nat) : (leaveReset s port fn).clock = s.clock := by
  rw [leaveReset_eq, modFn_clock, (returnReported_facts s port fn).2]
  exact forEach_keeps State.clock _ _ (fun s p => modQp_clock s port p _) s

/-- A pair of the function that has returned. -/
theorem getQp_leaveReset {s : State} {port : Bool} {fn p : Nat} (h : tblWf {} (getHp s port).qps = true) (hp : p < 256)
    (hfn : (getQp s port p).fn = fn) : getQp (leaveReset s port fn) port p =
      { fn := if (getFn s port fn).queueMap.any (fun e => e.2 == p + 1) then fn else 0, cfg := (getQp s port p).cfg + 1 } := by
  have hmem : p ∈ pairsOf s port fn := List.mem_filter.mpr ⟨List.mem_range.mpr hp, by simpa using hfn⟩
  have hnodup : (pairsOf s port fn).Nodup := List.nodup_range.filter _
  have hget : getQp (leaveReset s port fn) port p = getQp (pairsFreed s port fn) port p := by
    rw [leaveReset_eq, getQp_modFn, getQp, (returnReported_facts s port fn).1]
    rfl
  have hfreed := getQp_forEach_modQp h hnodup (fun p q =>
    { fn := if (getFn s port fn).queueMap.any (fun e => e.2 == p + 1) then q.fn else 0, cfg := q.cfg + 1 }) hmem
  rw [hget, ← hfn]
  rw [← hfn] at hfreed
  exact hfreed

/-- The record of the function that has returned. -/
theorem getFn_leaveReset {s : State} {port : Bool} (h : tblWf {} (getHp s port).fns = true) (fn : Nat) :
    ∃ f : Fn, getFn (leaveReset s port fn) port fn = { enabled := f.enabled, queueMap := f.queueMap, busMaster := f.busMaster } := by
  have hfns : (getHp (returnReported s port fn) port).fns = (getHp s port).fns := by
    rw [(returnReported_facts s port fn).1]
    exact forEach_keeps (fun s => (getHp s port).fns) _ _ (fun s p => modQp_fns s port p _) s
  rw [leaveReset_eq]
  exact ⟨_, getFn_modFn (by rw [hfns]; exact h) fn _⟩

/-- A function whose own reset is over returns with event 0x09. -/
theorem execFunctionReset_single {s : State} {port : Bool} {fn : BitVec 5} {f : Fn} (hf : getFn s port fn.toNat = f)
    (hreset : f.inReset = true) (hdone : f.resetDone = true) (hkind : f.resetKind < 3) : execFunctionReset port fn s =
      .next (raiseEvent (leaveReset s port fn.toNat) (pgHp port) 0x09
        (info [(1, fn.toNat), (1, f.resetKind), (2, f.keysDestroyed), (2, (s.clock - f.resetAt) / 1600000)])) := by
  have hwhole : (decide (3 ≤ f.resetKind) && fn == 0) = false := by rw [decide_eq_false (by omega), Bool.false_and]
  have hclock : (forEach [fn.toNat] (fun s k => leaveReset s port k) s).clock = s.clock := leaveReset_clock s port fn.toNat
  unfold execFunctionReset
  dsimp only
  rw [hf, if_neg (by simp [hreset, hdone]), hwhole]
  simp only [Bool.false_eq_true, if_false, hclock, List.map_cons, List.map_nil, List.sum_cons, List.sum_nil, hf, Nat.add_zero]
  rfl

/-! ### PERST (R468, R471, R599) -/

/-- A port reset touches no memory and no pin. -/
theorem portReset_untouched (s : State) (port : Bool) (kind since : Nat) :
    (portReset s port kind since).mem = s.mem ∧ (portReset s port kind since).pins = s.pins := by
  unfold portReset
  extract_lets fns s1 s2 s3 s4
  rw [modHp_mem, modHp_pins]
  have hreset : s1.mem = s.mem ∧ s1.pins = s.pins := by
    refine forEach_preserves (P := fun t => t.mem = s.mem ∧ t.pins = s.pins) _ (fun u k hu => ?_) ⟨rfl, rfl⟩
    obtain ⟨hmem, -, hpins⟩ := (resetKeeps_untouched port k u).startReset ⟨rfl, rfl, rfl⟩ kind since
    exact ⟨hmem.trans hu.1, hpins.trans hu.2⟩
  refine forEach_preserves (P := fun t => t.mem = s.mem ∧ t.pins = s.pins) _ (fun u k hu => ?_) hreset
  have hsent := sent_tellHead (modFn u port k (fun f => { f with enabled := false, queueMap := [] })) port k 6
  exact ⟨(hsent.mem.trans (modFn_mem ..)).trans hu.1, (hsent.pins.trans (modFn_pins ..)).trans hu.2⟩

/-- A port reset thaws the masters of the port's page. -/
theorem portReset_frozen (s : State) (port : Bool) (kind since : Nat) :
    ∀ z ∈ (portReset s port kind since).frozen, z.page ≠ pgHp port := by
  unfold portReset
  extract_lets fns s1 s2 s3 s4
  rw [modHp_frozen]
  intro z hz
  exact bne_iff_ne.mp (List.mem_filter.mp hz).2

/-- A port reset takes the port's link down and its timeouts back to their reset values. -/
theorem getHp_portReset (s : State) (port : Bool) (kind since : Nat) : ∃ h : Hp, getHp (portReset s port kind since) port = { h with
    state := 0, delayed := [], up := false, speed := 0, width := 0, diag := false, urCount := {}, numVf := 0
    hbTimeout := 1000, grace := 60, bar4Log := 30 } := by
  unfold portReset
  extract_lets fns s1 s2 s3 s4
  exact ⟨_, getHp_modHp s4 port _⟩

section
variable {s : State} (hm : mainPower s = true)

include hm

/-- PERST_A# of an enabled port. -/
theorem execPerstAssert_a (hport : portEnabled s false = true) (hpin : s.pins.perstA = false) : execPerstAssert false s =
    .next (portReset { s with pins := { s.pins with perstA := true } } false 3 s.clock) := by
  unfold execPerstAssert
  simp only [hport, hpin, hm, Bool.not_true, Bool.false_eq_true, if_false, if_true]

/-- PERST_B# of an enabled port. -/
theorem execPerstAssert_b (hport : portEnabled s true = true) (hpin : s.pins.perstB = false) : execPerstAssert true s =
    .next (portReset { s with pins := { s.pins with perstB := true } } true 3 s.clock) := by
  unfold execPerstAssert
  simp only [hport, hpin, hm, Bool.not_true, Bool.false_eq_true, if_false, if_true]

end

/-- PERST_A# deasserted with power good: the port may train. -/
theorem execPerstDeassert_a {s : State} (hport : portEnabled s false = true) (hgood : s.pins.powerGood = true)
    (hstate : s.hpA.state = 0) : execPerstDeassert false s =
      .next { s with pins := { s.pins with perstA := false }, hpA := { s.hpA with state := 1 } } := by
  have hgo : (portEnabled s false && s.pins.powerGood && (getHp s false).state == 0) = true := by
    rw [hport, hgood, show (getHp s false).state = 0 from hstate]
    rfl
  exact congrArg Host.Outcome.next (if_pos hgo)

/-! ### Host links (R445-R447, R468, R471, R473, R598) -/

/-- Each speed and width that the rules name trains, and the link is diagnostic at 32 GT/s or below x4. -/
theorem link_trains {speed : BitVec 3} {width : BitVec 4} (hspeed : speed = 5 ∨ speed = 6)
    (hwidth : width = 1 ∨ width = 2 ∨ width = 4 ∨ width = 8) : linkTrains speed.toNat width.toNat = true ∧ width ≠ 0 ∧
      linkDiag speed.toNat width.toNat = decide (speed ≠ 6 ∨ width.toNat < 4) := by
  rcases hspeed with rfl | rfl <;> rcases hwidth with rfl | rfl | rfl | rfl <;> decide

/-- Port A's link trains, and what waited for it goes out. -/
theorem execHostLinkChange_up {s : State} {speed : BitVec 3} {width : BitVec 4} (hspeed : speed = 5 ∨ speed = 6)
    (hwidth : width = 1 ∨ width = 2 ∨ width = 4 ∨ width = 8) (hstate : s.hpA.state ≠ 0) (hport : portEnabled s false = true)
    (href : s.pins.refA = true) {d : Bool} (hd : d = decide (speed ≠ 6 ∨ width.toNat < 4)) : execHostLinkChange false speed width s =
      .next (raiseEvent (forEach s.hpA.delayed emit { s with
        hpA := { s.hpA with
          statusCleared := false, up := true, speed := speed.toNat, width := width.toNat, diag := d, state := if d then 2 else 3
          delayed := [] }
        power := { s.power with linkLossA := none } }) 8 0x06 (info [(1, if d then 3 else 1), (1, speed.toNat), (1, width.toNat)])) := by
  obtain ⟨htrains, hw, hdiag⟩ := link_trains hspeed hwidth
  have hgo : ¬((!linkTrains speed.toNat width.toNat) = true ∨ (getHp s false).state = 0 ∨ (!portEnabled s false) = true ∨
      (!(if false then s.pins.refB else s.pins.refA)) = true) := by
    rw [htrains, hport]
    simpa [href] using (show (getHp s false).state ≠ 0 from hstate)
  unfold execHostLinkChange
  rw [if_neg hw, if_neg hgo, hdiag, ← hd]
  rfl

/-- Port A's link goes down, which starts its 100 ms. -/
theorem execHostLinkChange_down {s : State} (speed : BitVec 3) (hup : s.hpA.up = true) : execHostLinkChange false speed 0 s =
    .next (raiseEvent { s with
      hpA := { s.hpA with statusCleared := false, up := false, speed := 0, width := 0, diag := false, state := 1 }
      power := { s.power with linkLossA := some s.clock } } 8 0x06 (info [(1, 2), (1, 0), (1, 0)])) := by
  unfold execHostLinkChange
  rw [if_pos rfl, if_neg (by rw [show (getHp s false).up = true from hup]; exact Bool.false_ne_true)]
  rfl

/-- A link of Port A that has been down for 100 ms acts as PERST, from the moment at which it went down. -/
theorem execLinkLossTimeout_due {s : State} {t : Nat} (hloss : s.power.linkLossA = some t) (hdue : t + 100 * msCycles ≤ s.clock)
    (hdown : s.hpA.up = false) : execLinkLossTimeout false s = .next (modHp
      (portReset { s with power := { s.power with linkLossA := none } } false 4 t) false (fun h => { h with state := 1 })) := by
  have hgo : ¬(s.clock < t + 100 * msCycles ∨ (getHp s false).up = true) := by
    rw [show (getHp s false).up = false from hdown]
    rintro (h | h)
    · omega
    · exact Bool.false_ne_true h
  unfold execLinkLossTimeout
  simp only [Bool.false_eq_true, if_false, hloss, if_neg hgo]

/-! ### VF Enable and the DOE mailbox (R445, R470, R522) -/

/-- VF Enable within the manifest's limit. -/
theorem execVfEnableSet_within {s : State} {port : Bool} {n : BitVec 5} (hport : fnEnabled s port 0 = true)
    (hreset : (getFn s port 0).inReset = false) (hmax : n.toNat ≤ s.manifest.maxVf) : execVfEnableSet port n s =
      .next (modHp (forEach ((upTo (n.toNat + 1)).drop 1)
        (fun s k => tellHead (modFn s port k (fun f => { f with enabled := true })) port k 5) s) port
        (fun h => { h with numVf := n.toNat, statusCleared := false })) :=
  congrArg Host.Outcome.next (if_neg (by simp [hport, hreset, hmax]))

section
variable {s : State} {port : Bool} {fn : BitVec 5} (hreset : (getFn s port fn.toNat).inReset = false) (hup : (getHp s port).up = true)
  (henabled : fnEnabled s port fn.toNat = true)

include hreset hup henabled

/-- The mailbox of an enabled function out of reset answers. -/
theorem mailbox_answers : ¬(((getFn s port fn.toNat).inReset || !(getHp s port).up || !fnEnabled s port fn.toNat) = true) := by
  rw [hreset, hup, henabled]
  exact Bool.false_ne_true

/-- DOE discovery names a protocol and the index of the next. -/
theorem execDoeDiscovery_answers (k : BitVec 8) : execDoeDiscovery port fn k s = .next (emit s (.doe port fn.toNat 0
    (leBytes 2 (doeProtocols.getD k.toNat (0xFFFF, 0xFF)).1 ++ leBytes 1 (doeProtocols.getD k.toNat (0xFFFF, 0xFF)).2 ++
      leBytes 1 (if k.toNat < 3 then k.toNat + 1 else 0)))) :=
  congrArg Host.Outcome.next (if_neg (mailbox_answers hreset hup henabled))

/-- IDE_KM of PF0 in a finished session of its mailbox sets link IDE. -/
theorem execIdeKm_pf0 (hfn : fn = 0)
    (hsession : s.mgmt.sessions.any (fun z => z.transport == mailbox port 0 && z.finished) = true) : execIdeKm port fn true true true s =
      .next (emit (modFn (modHp s port (fun h => { h with statusCleared := false })) port 0 (fun f => { f with linkIde := true }))
        (.doe port 0 0 [])) := by
  subst hfn
  exact congrArg Host.Outcome.next ((if_neg (mailbox_answers hreset hup henabled)).trans (if_neg (by simp [hsession])))

/-- IDE_KM of another function is refused. -/
theorem execIdeKm_vf (hfn : fn ≠ 0) : execIdeKm port fn true true true s =
    .next (emit s (.doe port fn.toNat 0x7F (leBytes 1 0x04))) :=
  congrArg Host.Outcome.next ((if_neg (mailbox_answers hreset hup henabled)).trans (if_pos (.inl hfn)))

end

end Sys2Proof.Machine

open Sys2Proof Sys2Proof.Machine

/-- Settles O50: a reset by what each of its parts keeps (`ResetKeeps`) and the record it leaves, the boundary and the return by their rules, a
port by its reset, the links and the mailbox by the branch that their conditions choose. -/
theorem functionResetsAndLinks : Obligations.FunctionResetsAndLinks := by
  refine ⟨fun s port fn henabled => congrArg Host.Outcome.next (if_pos henabled), ?start, ?boundary, fun s port fn => execFunctionReset_single rfl,
    ?back, fun s port n => execVfEnableSet_within, fun s port => ⟨rfl, rfl⟩, ?perstA, ?perstB, fun s => execPerstDeassert_a, ?trains,
    fun s speed => execHostLinkChange_down speed, fun s t => execLinkLossTimeout_due, fun s port fn on => rfl, ?mailbox⟩
  case start =>
    intro s port fn kind since hwf t
    obtain ⟨f, hf⟩ := getFn_startReset hwf fn kind since
    obtain ⟨hmem, hstreams, -⟩ := (resetKeeps_untouched port fn s).startReset ⟨rfl, rfl, rfl⟩ kind since
    rw [show getFn t port fn = _ from hf]
    exact ⟨rfl, rfl, rfl, rfl, rfl, rfl, rfl, fun g => fetched_startReset,
      fun g hne => (resetKeeps_otherFn port hne s).startReset rfl kind since, hmem, hstreams⟩
  case boundary =>
    intro s port fn hreset hdone hidle hh u v
    exact congrArg Host.Outcome.next (resetBoundary_head hreset hdone hidle hh rfl)
  case back =>
    intro s port fn p hqps hfns hp hfn
    obtain ⟨f, hf⟩ := getFn_leaveReset hfns fn
    rw [getQp_leaveReset hqps hp hfn, hf]
    exact ⟨rfl, rfl, rfl, rfl⟩
  case perstA =>
    intro s hport hpin hm
    refine ⟨_, execPerstAssert_a hm hport hpin, ?_⟩
    obtain ⟨hmem, hpins⟩ := portReset_untouched { s with pins := { s.pins with perstA := true } } false 3 s.clock
    obtain ⟨h, hport⟩ := getHp_portReset { s with pins := { s.pins with perstA := true } } false 3 s.clock
    rw [show (portReset { s with pins := { s.pins with perstA := true } } false 3 s.clock).hpA = _ from hport, hpins, hmem]
    exact ⟨rfl, rfl, rfl, rfl, rfl, rfl, rfl, portReset_frozen _ false 3 s.clock⟩
  case perstB =>
    intro s hport hpin hm
    refine ⟨_, execPerstAssert_b hm hport hpin, ?_⟩
    obtain ⟨hmem, hpins⟩ := portReset_untouched { s with pins := { s.pins with perstB := true } } true 3 s.clock
    obtain ⟨h, hport⟩ := getHp_portReset { s with pins := { s.pins with perstB := true } } true 3 s.clock
    rw [show (portReset { s with pins := { s.pins with perstB := true } } true 3 s.clock).hpB = _ from hport, hpins, hmem]
    exact ⟨rfl, rfl, rfl, rfl⟩
  case trains =>
    intro s speed width hspeed hwidth hstate hport href d
    have h := execHostLinkChange_up hspeed hwidth hstate hport href rfl
    simp only [decide_eq_true_eq] at h
    exact h
  case mailbox =>
    intro s port fn k hreset hup henabled
    exact ⟨execDoeDiscovery_answers hreset hup henabled k, execIdeKm_pf0 hreset hup henabled, execIdeKm_vf hreset hup henabled⟩
end

section
/-! SUPPORT. Image data that meets a poisoned word of the staging region in ROM: the queue that event 0x04 names (R386, R394, R489). -/

namespace Sys2Proof.Machine

/-- A device in ROM that has begun to boot, with the first word of its staging region poisoned and one image packet waiting: one byte of data
for offset 0. -/
def poisonedStaging : State :=
  { power := { state := .rom }, cx := { state := 1 }, ms := { poisoned := [0] }, ri := { packets := [5 :: List.replicate 32 0] } }

/-- The state that image data leaves which a master of queue `queue` writes to offset 0 of the staging region of `poisonedStaging`. -/
def stagedUnder (queue : Nat) : State :=
  let u := { poisonedStaging with ri := { poisonedStaging.ri with packets := [] } }
  let t := writeUnder u 0 stagingBase [0] queue
  { t with cx := { t.cx with fwPhase := 1 } }

/-- The queue that the oldest event in the management queue names: bytes 12-13 of the information in its record (R43, R394). -/
def namedQueue (s : State) : Nat := leAt ((s.mgmt.queue.map (·.2.1)).headD []) 28 2

/-- The firmware writes the image data: its queue is 0xFFFF (R394). -/
theorem execCreditImage_poisonedStaging : execCreditImage poisonedStaging = .next (stagedUnder 0xFFFF) := rfl

/-- The event that the write of image data raises names the queue of the write. -/
theorem namedQueue_stagedUnder : namedQueue (stagedUnder 0xFFFF) = 0xFFFF ∧ namedQueue (stagedUnder 258) = 258 := by
  decide

end Sys2Proof.Machine

open Sys2Proof Sys2Proof.Machine

/-- Refutes O53: image data reaches the staging region by the firmware, not on queue 258. In `poisonedStaging` it meets a poisoned word, and
event 0x04 names queue 0xFFFF (R394), where the statement's write names 258. -/
theorem not_keysCreditPacketsAndRegAccess : ¬ Obligations.KeysCreditPacketsAndRegAccess := by
  unfold Obligations.KeysCreditPacketsAndRegAccess
  rintro ⟨-, -, -, -, -, -, -, -, -, hpackets, -⟩
  obtain ⟨-, -, -, -, -, -, -, -, -, himage⟩ := hpackets poisonedStaging (5 :: List.replicate 32 0) [] rfl (by decide)
  have hclaimed : execCreditImage poisonedStaging = .next (stagedUnder 258) :=
    himage (by decide) rfl rfl (by decide) (by decide)
  have hsame : stagedUnder 0xFFFF = stagedUnder 258 :=
    Host.Outcome.next.inj (execCreditImage_poisonedStaging.symm.trans hclaimed)
  have hqueue := congrArg namedQueue hsame
  rw [namedQueue_stagedUnder.1, namedQueue_stagedUnder.2] at hqueue
  exact absurd hqueue (by decide)
end

section
/-! The canonical form of stack memory and of its record of keys (R375, R380, R389), from what every step keeps. -/

open Sys2Proof Sys2Proof.Machine

/-- Settles O5: every meaning and the idle cycle keep memory and its record of keys canonical (`step_keeps_good`). -/
theorem memoryStaysCanonical : Obligations.MemoryStaysCanonical :=
  fun s _ hs h => (step_keeps_good (M := s.memSound = true) (F := False) id False.elim h).mem hs
end

section
/-! SUPPORT. What events leave of power, pins and ring, the removal of the rails, the PLL's reference, and the start from ROM to READY (R389,
R515, R600-R607, R619-R634). -/

namespace Sys2Proof.Machine

/-! ### What reporting leaves alone (R39-R46) -/

section
variable {s t : State} (h : Reported s t)

include h

theorem Reported.store : t.store = s.store := by
  obtain ⟨_, _, _, _, _, _, _, _, _, _, _, _, _, _, _, _, rfl⟩ := h
  rfl

theorem Reported.cx : t.cx = s.cx := by
  obtain ⟨_, _, _, _, _, _, _, _, _, _, _, _, _, _, _, _, rfl⟩ := h
  rfl

theorem Reported.mc : t.mc = s.mc := by
  obtain ⟨_, _, _, _, _, _, _, _, _, _, _, _, _, _, _, _, rfl⟩ := h
  rfl

theorem Reported.manifest : t.manifest = s.manifest := by
  obtain ⟨_, _, _, _, _, _, _, _, _, _, _, _, _, _, _, _, rfl⟩ := h
  rfl

theorem Reported.msState : t.ms.state = s.ms.state := by
  obtain ⟨_, _, _, _, _, _, _, _, _, _, _, _, _, _, _, _, rfl⟩ := h
  rfl

/-- Of the pins, only ALERT# can move. -/
theorem Reported.pins : ∃ alert, t.pins = { s.pins with alert := alert } := by
  obtain ⟨_, _, _, _, _, _, _, _, _, _, _, _, _, _, _, _, rfl⟩ := h
  exact ⟨_, rfl⟩

/-- Of the power record, only the sump's head and the cycle's records can move. -/
theorem Reported.power : ∃ head batch cycle,
    t.power = { s.power with sumpHead := head, sumpBatch := batch, sumpCycle := cycle } := by
  obtain ⟨_, _, _, _, _, _, _, _, _, _, _, _, _, _, _, _, rfl⟩ := h
  exact ⟨_, _, _, rfl⟩

theorem Reported.powerState : t.power.state = s.power.state := by
  obtain ⟨head, batch, cycle, hpower⟩ := h.power
  rw [hpower]

end

/-- The event of a hostless member leaves of the ring interface all but its links. -/
theorem notifyHost_keeps {β : Type} {f : Ri → β} (hports : ∀ (r : Ri) ports, f { r with ports := ports } = f r) (s : State) (page : Nat) :
    f (notifyHost s page).ri = f s.ri := by
  unfold notifyHost
  dsimp only
  split
  · exact sendMessage_keeps (f := fun u => f u.ri) (fun _ _ _ => hports _ _) (fun _ _ => rfl) s _ _ _ _
  · split
    · rw [notifyPf0_ri]
    · rw [notifyPf0_ri, notifyPf0_ri]

/-- An event leaves of the ring interface all but its links. -/
theorem raiseEvent_keeps {β : Type} {f : Ri → β} (hports : ∀ (r : Ri) ports, f { r with ports := ports } = f r) (s : State)
    (page code : Nat) (inf : List Byte) (forced : Bool) : f (raiseEvent s page code inf forced).ri = f s.ri := by
  unfold raiseEvent
  extract_lets h enabled fault s1 recorded seqLow s2 data s3 s4
  have h1 : s1.ri = s.ri := (apply_ite State.ri ..).trans (ite_self _)
  have h2 : s2.ri = s1.ri := (apply_ite State.ri ..).trans (ite_self _)
  have h3 : s3.ri = s2.ri := by rw [apply_ite State.ri, sumpWrite_ri, ite_self]
  have h4 : f s4.ri = f s3.ri := by rw [apply_ite (fun u : State => f u.ri), notifyHost_keeps hports, ite_self]
  have hqueue (cls : Nat) : (mgmtEnqueue s4 cls data fault).ri = s4.ri := by
    unfold mgmtEnqueue
    split <;> rfl
  rw [apply_ite State.ri, hqueue, ite_self, h4, h3, h2, h1]

/-- Without a sump an event writes no memory (R641). -/
theorem raiseEvent_mem_of_no_sump {s : State} (hsump : s.power.sumpExists = false) (page code : Nat) (inf : List Byte) (forced : Bool) :
    (raiseEvent s page code inf forced).mem = s.mem := by
  unfold raiseEvent
  extract_lets h enabled fault s1 recorded seqLow s2 data s3 s4
  have h1 : s1.mem = s.mem := (apply_ite State.mem ..).trans (ite_self _)
  have hpower : s1.power = s.power := (apply_ite State.power ..).trans (ite_self _)
  have hnone : recorded = false := by
    show (s1.power.sumpExists && (enabled || fault)) = false
    rw [hpower, hsump, Bool.false_and]
  have h2 : s2.mem = s1.mem := (apply_ite State.mem ..).trans (ite_self _)
  have h3 : s3 = s2 := if_neg (by rw [hnone]; decide)
  have h4 : s4 = s3 := if_neg (by rw [hnone]; simp)
  have hqueue (cls : Nat) : (mgmtEnqueue s4 cls data fault).mem = s4.mem := by
    unfold mgmtEnqueue
    split <;> rfl
  rw [apply_ite State.mem, hqueue, ite_self, h4, h3, h2, h1]

/-! ### Power states, the crosscut and the rails (R405, R601, R602, R632, R639) -/

/-- Entering a power state reports it. -/
theorem reported_setPower (s : State) (p : PowerState) : Reported { s with power := { s.power with state := p } } (setPower s p) :=
  reported_raiseEvent _ _ _ _ _

theorem setPower_mem_of_no_sump {s : State} (hsump : s.power.sumpExists = false) (p : PowerState) : (setPower s p).mem = s.mem := by
  unfold setPower powerEvent
  exact raiseEvent_mem_of_no_sump (s := { s with power := { s.power with state := p } }) hsump _ _ _ _

/-- At the loss of power the crosscut closes without an event. -/
theorem reported_closeCrosscut_silent (s : State) : Reported s (closeCrosscut s 0) :=
  reported_ite (Reported.refl s) (Reported.of s rfl)

/-- Links that come up anew are a matter of the ring interface. -/
theorem reported_startBringup (s : State) : Reported s (startBringup s) :=
  reported_ite (Reported.refl s) (Reported.of s rfl)

/-- The rails removed, before the main-power domain is cleared (R601, R639). -/
def railsRemoved (s : State) : State :=
  setPower { s with power := { s.power with sumpExists := false } } (if s.pins.aux then .aux else .off)

theorem reported_railsRemoved (s : State) : Reported
    { s with power := { s.power with sumpExists := false, state := if s.pins.aux then .aux else .off } } (railsRemoved s) :=
  reported_setPower _ _

/-- The removal of the main rails ends in AUX or OFF, as AUX is present or not. -/
theorem mainOff_state (s : State) (byTrip : Bool) : (mainOff s byTrip).power.state = if s.pins.aux then .aux else .off :=
  (reported_railsRemoved s).powerState

/-- It leaves the record store. -/
theorem mainOff_store (s : State) (byTrip : Bool) : (mainOff s byTrip).store = s.store := by
  have h : (mainOff s byTrip).store = (railsRemoved s).store := rfl
  exact h.trans (reported_railsRemoved s).store

/-- It takes PWR_GOOD away. -/
theorem mainOff_pins (s : State) (byTrip : Bool) : ∃ alert, (mainOff s byTrip).pins = { s.pins with alert := alert, powerGood := false } := by
  obtain ⟨alert, hpins⟩ := (reported_railsRemoved s).pins
  exact ⟨alert, congrArg (fun p : Pins => { p with powerGood := false }) hpins⟩

/-- What the loss of AUX leaves where main power stood, and where it did not (R609). -/
def powerLost (s : State) : State := if mainPower s then mainOff s false else setPower s .off

/-- Where AUX is gone the device is OFF. -/
theorem powerLost_facts {s : State} (haux : s.pins.aux = false) : (powerLost s).power.state = .off ∧ (powerLost s).store = s.store ∧
    ∃ alert good, (powerLost s).pins = { s.pins with alert := alert, powerGood := good } := by
  unfold powerLost
  split
  · obtain ⟨alert, hpins⟩ := mainOff_pins s false
    exact ⟨(mainOff_state s false).trans (by rw [haux]; rfl), mainOff_store s false, alert, false, hpins⟩
  · obtain ⟨alert, hpins⟩ := (reported_setPower s .off).pins
    exact ⟨(reported_setPower s .off).powerState, (reported_setPower s .off).store, alert, _, hpins⟩

/-- Power after the loss of AUX, which has the crosscut close first and releases THERM_TRIP# (R602, R609). -/
def auxGone (s : State) : State :=
  powerLost { closeCrosscut s 0 with pins := { (closeCrosscut s 0).pins with aux := false, thermTrip := false } }

/-- A start or a restart under way given up, with every source back at NORMAL (R551, R609). -/
def startAborted (s : State) : State := clearLevels { s with power := { s.power with moduleResetAt := none, starting := false } }

/-- AUX_LOSS with AUX present (R602, R607, R609). -/
theorem execAuxLoss_present {s : State} (haux : s.pins.aux = true) : execAuxLoss s = .next (
    if (startAborted (auxGone s)).pins.vinPresent || !(startAborted (auxGone s)).power.bankCharged then auxOff (startAborted (auxGone s))
    else startAborted (auxGone s)) :=
  congrArg Host.Outcome.next (if_neg (by rw [haux]; decide))

/-- It takes main power and THERM_TRIP# away and leaves the record store. -/
theorem execAuxLoss_facts {s : State} (haux : s.pins.aux = true) : ∃ t, execAuxLoss s = .next t ∧ t.pins.aux = false ∧
    t.pins.thermTrip = false ∧ t.power.state = .off ∧ t.power.starting = false ∧ t.store = s.store ∧ mainPower t = false := by
  obtain ⟨hstate, hstore, alert, good, hpins⟩ := powerLost_facts
    (s := { closeCrosscut s 0 with pins := { (closeCrosscut s 0).pins with aux := false, thermTrip := false } }) rfl
  have hauxPin : (auxGone s).pins.aux = false := congrArg Pins.aux hpins
  have htrip : (auxGone s).pins.thermTrip = false := congrArg Pins.thermTrip hpins
  have hkept : (auxGone s).store = s.store := hstore.trans (reported_closeCrosscut_silent s).store
  have hoff : mainPower (auxGone s) = false := by
    rw [mainPower, show (auxGone s).power.state = .off from hstate]
    rfl
  refine ⟨_, execAuxLoss_present haux, ?_⟩
  split
  · exact ⟨hauxPin, htrip, hstate, rfl, hkept, hoff⟩
  · exact ⟨hauxPin, htrip, hstate, rfl, hkept, hoff⟩

/-- AUX_APPLY (R623). -/
theorem execAuxApply_absent {s : State} (haux : s.pins.aux = false) : ∃ t, execAuxApply s = .next t ∧ t.pins.aux = true ∧
    t.power.state = .aux ∧ t.power.auxSince = s.clock ∧ t.power.causeCount = 0 ∧ t.store = s.store := by
  have h := reported_setPower { s with
    pins := { s.pins with aux := true }
    power := { s.power with
      auxSince := s.clock, causeCount := 0, railsByTrip := false, nextCause := if s.pins.pwrEn then 0 else s.power.nextCause } } .aux
  obtain ⟨alert, hpins⟩ := h.pins
  obtain ⟨head, batch, cycle, hpower⟩ := h.power
  refine ⟨_, congrArg Host.Outcome.next (if_neg (by rw [haux]; decide)), congrArg Pins.aux hpins, h.powerState,
    congrArg Power.auxSince hpower, congrArg Power.causeCount hpower, h.store⟩

/-- With AUX's domain the DP page's header is lost (R607, R632). -/
theorem getHdr_auxOff (s : State) : getHdr (auxOff s) 2 = {} := by
  have hnone (t : Tbl Hdr) : tblGet {} (t.filter (fun e => e.1 != pgDp)) 2 = {} := by
    induction t with
    | nil => rfl
    | cons e t ih =>
      by_cases hdp : e.1 = pgDp
      · rw [List.filter_cons_of_neg (by simp [hdp])]
        exact ih
      · rw [List.filter_cons_of_pos (by simpa using hdp), tblGet, if_neg (fun h : 2 = e.1 => hdp h.symm)]
        exact ih
  exact hnone s.hdrs

/-! ### The start of the rails (R600, R601, R631, R638) -/

/-- The conditions of R600, one by one. -/
theorem startReady_iff (s : State) : startReady s = true ↔ (s.pins.pwrEn = true ∧ s.pins.aux = true ∧
    s.power.auxSince + 20 * 1600000 ≤ s.clock ∧ 3990 ≤ s.dp.vin ∧ s.dp.vin ≤ 4410 ∧ s.power.vinSince + 10 * 1600000 ≤ s.clock ∧
    s.power.bankCharged = true ∧ s.power.railsOn = false ∧ s.power.starting = false ∧ level s ≠ 4 ∧ s.power.moduleResetAt = none ∧
    ∀ t, s.power.pwrEnFellAt = some t → t + 100 * 1600000 ≤ s.clock) := by
  unfold startReady
  cases s.power.pwrEnFellAt with
  | none =>
    simp only [Bool.and_eq_true, tripped, decide_eq_true_eq, Bool.not_eq_true', beq_eq_false_iff_ne, ne_eq,
      Option.isNone_iff_eq_none, and_assoc, reduceCtorEq, false_imp_iff, implies_true]
    rfl
  | some t =>
    simp only [Bool.and_eq_true, tripped, decide_eq_true_eq, Bool.not_eq_true', beq_eq_false_iff_ne, ne_eq,
      Option.isNone_iff_eq_none, and_assoc, Option.some.injEq, forall_eq']
    rfl

/-- A trip left behind bars no start. -/
theorem startReady_clearLevels {s : State} (h : startReady s = true) : startReady (clearLevels s) = true := by
  obtain ⟨hen, haux, hauxTime, hlow, hhigh, hvinTime, hbank, hrails, hstarting, -, hreset, hfell⟩ := (startReady_iff s).mp h
  exact (startReady_iff _).mpr ⟨hen, haux, hauxTime, hlow, hhigh, hvinTime, hbank, hrails, hstarting, Nat.zero_ne_add_one 3, hreset, hfell⟩

/-- A start in which nothing is missing. -/
theorem tryStart_ready {s : State} (h : startReady s = true) : tryStart s = startRails s := if_pos h

/-- PWR_EN as it rises (R600, R638). -/
def enRisen (s : State) : State :=
  { s with pins := { s.pins with pwrEn := true }, power := { s.power with nextCause := 1, nextRequester := 0 } }

/-- PWR_EN_RISE starts the rails if nothing is missing, after a power cycle with every source at NORMAL (R551). -/
theorem execPwrEnRise_low {s : State} (hen : s.pins.pwrEn = false) : execPwrEnRise s = .next (tryStart (enRisen s)) ∨
    execPwrEnRise s = .next (tryStart (clearLevels (enRisen s))) := by
  have hrise (c : Bool) : tryStart (enRisen (if c then clearLevels s else s)) = tryStart (enRisen s) ∨
      tryStart (enRisen (if c then clearLevels s else s)) = tryStart (clearLevels (enRisen s)) := by
    cases c
    · exact .inl rfl
    · exact .inr rfl
  unfold execPwrEnRise
  rw [if_neg (by rw [hen]; decide)]
  exact (hrise _).imp (congrArg _) (congrArg _)

theorem tryStart_pwrEn (s : State) : (tryStart s).pins.pwrEn = s.pins.pwrEn := by
  unfold tryStart
  split <;> rfl

/-- PWR_EN_FALL with main power on (R601): the crosscut begins to close, the rails go, and the fall is noted. -/
def enFallen (s : State) : State :=
  let off := mainOff (closeCrosscut s 0) false
  { off with
    pins := { off.pins with pwrEn := false }
    power := { off.power with pwrEnFellAt := some off.clock, starting := false, moduleResetAt := none, railsByTrip := false } }

theorem execPwrEnFall_on {s : State} (hen : s.pins.pwrEn = true) (hm : mainPower s = true) :
    execPwrEnFall s = .next (enFallen s) := by
  unfold execPwrEnFall
  rw [if_neg (by rw [hen]; decide), hm]
  rfl

/-- It leaves AUX and the record store. -/
theorem enFallen_facts {s : State} (haux : s.pins.aux = true) : (enFallen s).power.state = .aux ∧ (enFallen s).pins.powerGood = false ∧
    (enFallen s).power.pwrEnFellAt = some s.clock ∧ (enFallen s).store = s.store := by
  have hclosed := reported_closeCrosscut_silent s
  obtain ⟨alert, hclosedPins⟩ := hclosed.pins
  obtain ⟨alert', hpins⟩ := mainOff_pins (closeCrosscut s 0) false
  have hstate : (enFallen s).power.state = _ := mainOff_state (closeCrosscut s 0) false
  have hclock : (mainOff (closeCrosscut s 0) false).clock = s.clock := (reported_railsRemoved (closeCrosscut s 0)).clock.trans hclosed.clock
  refine ⟨?_, congrArg Pins.powerGood hpins, congrArg some hclock, (mainOff_store (closeCrosscut s 0) false).trans hclosed.store⟩
  rw [hstate, hclosedPins]
  exact if_pos haux

/-! ### THERM_TRIP# and the restart after a module reset (R575, R602, R631) -/

theorem execThermTripRelease_due {s : State} {t : Nat} (hfell : s.power.pwrEnFellAt = some t) (hen : s.pins.pwrEn = false)
    (htrip : s.pins.thermTrip = true) (hdue : t + 100 * 1600000 ≤ s.clock) :
    execThermTripRelease s = .next { s with pins := { s.pins with thermTrip := false } } := by
  have hnow : ¬s.clock < t + 100 * msCycles := Nat.not_lt.mpr hdue
  unfold execThermTripRelease
  rw [hfell]
  exact congrArg Host.Outcome.next (if_neg (by simp [hen, htrip, hnow]))

theorem execModuleRestart_due {s : State} {t : Nat} (hreset : s.power.moduleResetAt = some t) (hdue : t + 20 * 1600000 ≤ s.clock)
    (hen : s.pins.pwrEn = true) (harray : s.dp.hottest < tempThreshold s 1 4) (hstack : s.dp.hotStack < tempThreshold s 2 4)
    (hoptics : s.dp.hotOptics < tempThreshold s 3 4) (hcurrent : s.dp.iin10us ≤ 5500) : execModuleRestart s =
      .next (tryStart (clearLevels { s with power := { s.power with moduleResetAt := none } })) := by
  have hnow : ¬s.clock < t + 20 * msCycles := Nat.not_lt.mpr hdue
  unfold execModuleRestart
  rw [hreset]
  exact congrArg Host.Outcome.next (if_neg (by simp [hen, hnow, harray, hstack, hoptics, hcurrent]))

/-! ### The PLL's reference (R619, R620, R622) -/

/-- The order of references of a device that no ring has made a member (R619). -/
theorem pllSelect_alone {s : State} (helected : s.ri.elected = none) (hvalid : s.ri.valid = false) :
    pllSelect s = if s.pins.refA then 1 else if s.pins.refB then 2 else 4 := by
  unfold pllSelect
  rw [helected, hvalid]
  rfl

/-- The loss of REFCLK_A in use starts holdover (R620). -/
theorem execRefLost_a {s : State} (hm : mainPower s = true) (hhold : s.power.pllHold = none) (href : s.power.pllRef = 1)
    (helected : s.ri.elected = none) (hvalid : s.ri.valid = false) : execRefLost 1 s = .next (raiseEvent { s with
      pins := { s.pins with refA := false }
      power := { s.power with pllHold := some s.clock, refLostHf := s.power.refLostHf || s.ri.hf } } 0 0x06
        (info [(1, 1), (1, if s.pins.refB then 2 else 4)])) := by
  have hlost : (setRef s 1 false).power = s.power := rfl
  have hnext : pllSelect (setRef s 1 false) = if s.pins.refB then 2 else 4 := pllSelect_alone helected hvalid
  have hused : ¬(!mainPower (setRef s 1 false) ∨ (setRef s 1 false).power.pllRef ≠ 1 ∨ (setRef s 1 false).power.pllHold.isSome) := by
    have hmain : mainPower (setRef s 1 false) = true := hm
    rw [hmain, hlost]
    simp [href, hhold]
  refine congrArg Host.Outcome.next ((if_neg hused).trans ?_)
  rw [← hnext, ← Bool.and_true s.ri.hf]
  rfl

theorem execRefHoldoverExpiry_due {s : State} {t : Nat} (hhold : s.power.pllHold = some t) (hdue : t + 10 * 1600000 ≤ s.clock) :
    execRefHoldoverExpiry s = .next (pllRetarget s) := by
  unfold execRefHoldoverExpiry
  rw [hhold]
  exact congrArg Host.Outcome.next (if_neg (Nat.not_lt.mpr hdue))

/-- REFCLK_A takes over from the deputy's oscillator (R619). -/
theorem execReferenceAppear_a {s : State} (hm : mainPower s = true) (href : s.power.pllRef = 4) (helected : s.ri.elected = none)
    (hvalid : s.ri.valid = false) : execReferenceAppear 1 s = .next { s with
      pins := { s.pins with refA := true }
      power := { s.power with pllRef := 1, pllHold := none, pllPending := true } } := by
  have hselect : pllSelect (setRef s 1 true) = 1 := pllSelect_alone helected hvalid
  have hbetter : pllSelect (setRef s 1 true) ≠ (setRef s 1 true).power.pllRef := by
    rw [hselect]
    exact fun h => absurd (h.trans href) (by decide)
  refine congrArg Host.Outcome.next ((if_pos ⟨hm, .inl hbetter⟩).trans ?_)
  show pllRetarget (setRef s 1 true) = _
  unfold pllRetarget
  rw [hselect]
  rfl

/-- A lock outside phase 4 of training does nothing but count and report (R426, R620, R622). -/
theorem execRefLocked_due {s : State} {us : BitVec 16} (hm : mainPower s = true) (hpending : s.power.pllPending = true)
    (hhold : s.power.pllHold = none) (hus : us.toNat ≤ 200) (hphase : s.ri.phase ≠ 4) :
    execRefLocked us s = .next (raiseEvent { s with
      power := { s.power with pllPending := false, pllLocked := true, pllLockAt := s.clock } } 0 0x07
        (info [(1, s.power.pllRef), (2, us.toNat)])) := by
  refine congrArg Host.Outcome.next ((if_neg (by simp [hm, hpending, hhold, hus])).trans (if_neg ?_))
  rw [raiseEvent_keeps (f := Ri.phase) (fun _ _ => rfl)]
  exact hphase

/-! ### From the zero-fill to ROM (R389, R623, R630) -/

/-- The stacks zero-filled, before ROM is entered. -/
def zeroFilled (s : State) : State :=
  { s with
    mem := [], memKey := []
    ms := { s.ms with state := if s.ms.state = 3 then 3 else 2 }
    scs := (forEach (upTo 8) (fun s n => modSc s n (fun c => { c with state := if c.state = 3 then 3 else 2 })) s).scs
    handoff := none
    cx := { state := 1 }
    power := { s.power with softReset := false, wait := 1 } }

theorem enterRom_eq (s : State) : enterRom s = startBringup (setPower (zeroFilled s) .rom) := rfl

theorem reported_enterRom (s : State) : Reported
    { zeroFilled s with power := { (zeroFilled s).power with state := .rom } } (enterRom s) :=
  (reported_setPower (zeroFilled s) .rom).trans (reported_startBringup _)

/-- Where no sump exists, ROM is entered with memory all zero. -/
theorem enterRom_mem {s : State} (hsump : s.power.sumpExists = false) : (enterRom s).mem = [] := by
  have hfilled : (setPower (zeroFilled s) .rom).mem = [] := setPower_mem_of_no_sump (s := zeroFilled s) hsump .rom
  rw [enterRom_eq, startBringup, apply_ite State.mem, hfilled, ite_self]

/-! ### From FW_LOADED to CONFIGURED (R513, R518, R524, R529, R551, R624) -/

/-- What every element of a list leaves alone, a walk over the list leaves alone. -/
theorem forEach_keeps_of_mem {α β : Type} {g : State → β} {l : List α} {f : State → α → State} (hf : ∀ a ∈ l, ∀ s, g (f s a) = g s)
    (s : State) : g (forEach l f s) = g s := by
  unfold forEach
  induction l generalizing s with
  | nil => rfl
  | cons a l ih =>
    exact (ih (fun b hb => hf b (List.mem_cons_of_mem a hb)) _).trans (hf a List.mem_cons_self s)

/-- The blocks that FW_LOADED's work sets up, with the parts of the record store that it reads. -/
def bootView (s : State) : Manifest × Hb × Mc × Ke × Bool × Tbl SealRec :=
  (s.manifest, s.hb, s.mc, s.ke, s.store.idOk, s.store.seals)

theorem bootView_raiseEvent (s : State) (page code : Nat) (inf : List Byte) (forced : Bool) :
    bootView (raiseEvent s page code inf forced) = bootView s := by
  have h := reported_raiseEvent s page code inf forced
  unfold bootView
  rw [h.manifest, h.hb, h.mc, h.ke, h.store]

/-- Loading the relief map touches none of them (R81, R82). -/
theorem bootView_loadReliefs (s : State) : bootView (loadReliefs s) = bootView s := by
  have hunavailable : bootView (loadUnavailable s) = bootView s := by
    unfold loadUnavailable
    refine forEach_keeps bootView _ _ (fun _ _ => ?_) s
    rfl
  unfold loadReliefs
  refine (forEach_keeps bootView _ _ (fun u e => ?_) _).trans hunavailable
  dsimp only
  split
  · exact bootView_raiseEvent _ _ _ _ _
  · rfl

/-- Reporting the trip records touches none of them (R551). -/
theorem bootView_reportTrips (s : State) : bootView (reportTrips s) = bootView s :=
  have hraised (l : List TripRec) : bootView (forEach l (fun s t => raiseEvent s pgDp 0x07 t.head) s) = bootView s :=
    forEach_keeps bootView l _ (fun u t => bootView_raiseEvent u pgDp 0x07 t.head false) s
  hraised _

/-- The image's manifest in force, with the blocks it bounds (R518). -/
def imageApplied (s : State) (img : ImageInfo) : State :=
  let s := { s with manifest := img.manifest }
  let s := { s with
    hb := { s.hb with margin := clipMargin s s.store.margin, state := 1 }
    mc := { s.mc with state := 1 }
    dp := { s.dp with throttle := clip s.dp.throttle img.manifest.throttleMin img.manifest.throttleMax } }
  forEach (upTo 64) (fun s g => modTg s g (fun t => { t with derate := s.hb.margin.derate })) s

/-- The device identity tried (R513, R524). -/
def identityTried (s : State) (identity : BitVec 2) : State :=
  let ok := identity = 0 ∧ s.store.idOk
  let s := { s with ke := { s.ke with state := if s.ke.state = 2 then 2 else if ok then 1 else 3 } }
  if ok then s else raiseEvent s pgKe 0x0B (info [(1, max 1 identity.toNat)])

/-- Slot 0 with keys of its own (R524). -/
def slotZeroKeyed (s : State) : State :=
  modSlot (newKey (newKey s).2).2 0 (fun k => { k with
    state := 1, kStack := (newKey s).1, kWrap := (newKey (newKey s).2).1, generation := (k.generation + 1) % 256 })

/-- The sealed owners restored (R529). -/
def sealsRestored (s : State) : State := forEach s.store.seals (fun s e => restoreSlot s e.1 e.2) s

/-- WAIT of CONFIGURED, which a pending trip holds (R634). -/
def waitSet (s : State) : State := { s with power := { s.power with wait := if tripPending s then 2 else 0 } }

/-- FW_LOADED's work in order: image, relief map, trip records, identity, CONFIGURED, slot 0, sealed owners, WAIT. -/
theorem execFwLoadedWorkDone_loaded {s : State} {img : ImageInfo} (hstate : s.power.state = .fwLoaded) (hrunning : s.cx.running = some img)
    (identity : BitVec 2) : execFwLoadedWorkDone identity s = .next (waitSet (sealsRestored (slotZeroKeyed (setPower
      (identityTried (reportTrips (loadReliefs (imageApplied s img))) identity) .configured)))) := by
  unfold execFwLoadedWorkDone
  rw [hstate, hrunning]
  refine congrArg Host.Outcome.next ?_
  unfold waitSet sealsRestored slotZeroKeyed identityTried imageApplied newKey
  with_reducible rfl

/-- A device whose identity decrypts has its key engine up, unless it has failed. -/
theorem identityTried_ok {s : State} (hid : s.store.idOk = true) (hke : s.ke.state ≠ 2) :
    identityTried s 0 = { s with ke := { s.ke with state := 1 } } := by
  unfold identityTried
  dsimp only
  rw [if_neg hke, if_pos ⟨rfl, hid⟩, if_pos ⟨rfl, hid⟩]

/-- What the restored owners' slots leave of the boot's result: the blocks it set up, the power state and slot 0. -/
def slotView (s : State) : Manifest × Hb × Mc × Nat × PowerState × Slot :=
  (s.manifest, s.hb, s.mc, s.ke.state, s.power.state, getSlot s 0)

theorem slotView_restoreSlot {o : Nat} (ho : o ≠ 0) (r : SealRec) (s : State) : slotView (restoreSlot s o r) = slotView s := by
  have hevent (u : State) (page code : Nat) (inf : List Byte) : slotView (raiseEvent u page code inf false) = slotView u := by
    have h := reported_raiseEvent u page code inf false
    unfold slotView getSlot
    rw [h.manifest, h.hb, h.mc, h.ke, h.powerState]
  have hslot (u : State) (f : Slot → Slot) : slotView (modSlot u o f) = slotView u := by
    unfold slotView
    rw [getSlot_modSlot_ne u f (Ne.symm ho)]
    rfl
  unfold restoreSlot
  dsimp only
  rw [hevent, hslot]
  rfl

/-- Restoring owners other than owner 0 leaves them (R529). -/
theorem slotView_sealsRestored {s : State} (hseals : ∀ e ∈ s.store.seals, e.1 ≠ 0) : slotView (sealsRestored s) = slotView s :=
  forEach_keeps_of_mem (fun e he => slotView_restoreSlot (hseals e he) e.2) s

/-- Slot 0 is in use once it has its keys. -/
theorem getSlot_slotZeroKeyed {s : State} (hwf : tblWf {} s.ke.slots = true) : (getSlot (slotZeroKeyed s) 0).state = 1 := by
  have hslots : tblWf {} (newKey (newKey s).2).2.ke.slots = true := hwf
  exact congrArg Slot.state (getSlot_modSlot hslots 0 _)

/-- What image, relief map and trip records leave of the blocks of the boot (R513, R518, R551). -/
theorem bootView_loaded (s : State) (img : ImageInfo) : bootView (reportTrips (loadReliefs (imageApplied s img))) = bootView { s with
    manifest := img.manifest
    hb := { s.hb with margin := clipMargin { s with manifest := img.manifest } s.store.margin, state := 1 }
    mc := { s.mc with state := 1 } } := by
  rw [bootView_reportTrips, bootView_loadReliefs]
  unfold imageApplied
  refine forEach_keeps bootView _ _ (fun _ _ => ?_) _
  rfl

/-- FW_LOADED's work of a device whose identity decrypts ends in CONFIGURED with key engine, health block and monitor converter up and slot
0 in use. -/
theorem execFwLoadedWorkDone_facts {s : State} {img : ImageInfo} (hstate : s.power.state = .fwLoaded) (hrunning : s.cx.running = some img)
    (hid : s.store.idOk = true) (hke : s.ke.state ≠ 2) (hseals : ∀ e ∈ s.store.seals, e.1 ≠ 0) :
    ∃ t, execFwLoadedWorkDone 0 s = .next t ∧ t.power.state = .configured ∧ t.manifest = img.manifest ∧ t.ke.state = 1 ∧ t.hb.state = 1 ∧
      t.mc.state = 1 ∧ (tblWf {} s.ke.slots = true → (getSlot t 0).state = 1) := by
  have hloaded := bootView_loaded s img
  generalize hu : reportTrips (loadReliefs (imageApplied s img)) = u at hloaded
  simp only [bootView, Prod.mk.injEq] at hloaded
  obtain ⟨hmanifest, hhb, hmc, hkeys, hidOk, hsealed⟩ := hloaded
  have hevent := reported_setPower { u with ke := { u.ke with state := 1 } } .configured
  generalize hv : setPower { u with ke := { u.ke with state := 1 } } .configured = v at hevent
  have hrestored : slotView (sealsRestored (slotZeroKeyed v)) = slotView (slotZeroKeyed v) := by
    refine slotView_sealsRestored ?_
    rwa [show (slotZeroKeyed v).store = u.store from hevent.store, hsealed]
  simp only [slotView, Prod.mk.injEq] at hrestored
  obtain ⟨hmanifest', hhb', hmc', hkeState, hpower, hslot⟩ := hrestored
  refine ⟨_, execFwLoadedWorkDone_loaded hstate hrunning 0, ?_⟩
  rw [hu, identityTried_ok (hidOk.trans hid) (by rw [hkeys]; exact hke), hv]
  refine ⟨hpower.trans hevent.powerState, hmanifest'.trans (hevent.manifest.trans hmanifest),
    hkeState.trans (congrArg Ke.state hevent.ke), (congrArg Hb.state hhb').trans (congrArg Hb.state (hevent.hb.trans hhb)),
    (congrArg Mc.state hmc').trans (congrArg Mc.state (hevent.mc.trans hmc)), fun hwf => ?_⟩
  have hslots : v.ke.slots = s.ke.slots := by rw [hevent.ke, ← hkeys]
  exact (congrArg Slot.state hslot).trans (getSlot_slotZeroKeyed (by rw [hslots]; exact hwf))

/-! ### From CALIBRATING to READY (R515, R529, R623-R625) -/

/-- What READY sets and its work on owners and the minimum version leaves: power state, wait, sequencer, and the ring interface but for its
links. -/
def readyView (s : State) : PowerState × Nat × Sq × Ri := (s.power.state, s.power.wait, s.sq, { s.ri with ports := [] })

theorem readyView_raiseEvent (s : State) (page code : Nat) (inf : List Byte) (forced : Bool) :
    readyView (raiseEvent s page code inf forced) = readyView s := by
  obtain ⟨head, batch, cycle, hpower⟩ := (reported_raiseEvent s page code inf forced).power
  have hri := raiseEvent_keeps (f := fun r => { r with ports := [] }) (fun _ _ => rfl) s page code inf forced
  unfold readyView
  rw [hpower, raiseEvent_sq, hri]

theorem readyView_advanceMvc (s : State) (cause : Nat) : readyView (advanceMvc s cause) = readyView s := by
  unfold advanceMvc
  split
  · rfl
  · split
    · rfl
    · exact readyView_raiseEvent _ _ _ _ _

theorem readyView_startGrace_adoptRestored (s : State) : readyView (startGrace (adoptRestored s)) = readyView s := by
  unfold startGrace adoptRestored
  refine (forEach_keeps readyView _ _ (fun _ _ => ?_) _).trans (forEach_keeps readyView _ _ (fun u e => ?_) s)
  · rfl
  · split <;> rfl

/-- READY entered, with nothing to wait for and the sequencer up. -/
def readyEntered (s : State) : State :=
  { setPower s .ready with
    power := { (setPower s .ready).power with wait := 0 }
    sq := { (setPower s .ready).sq with state := 1 } }

/-- The minimum version of a boot counted in (R515). -/
def bootCounted (s : State) : State :=
  if s.cx.byBoot ∧ !s.cx.resetSince then advanceMvc { s with cx := { s.cx with resetSince := true } } 2 else s

theorem enterReady_eq (s : State) : enterReady s = if isHeadframe (bootCounted (readyEntered s))
    then startGrace (adoptRestored (bootCounted (readyEntered s))) else bootCounted (readyEntered s) := rfl

/-- READY is entered with the sequencer up and the ring as it was. -/
theorem readyView_enterReady (s : State) :
    readyView (enterReady s) = (.ready, 0, { s.sq with state := 1 }, { s.ri with ports := [] }) := by
  have hentered : readyView (readyEntered s) = (.ready, 0, { s.sq with state := 1 }, { s.ri with ports := [] }) := by
    have hview : readyView (setPower s .ready) = (.ready, s.power.wait, s.sq, { s.ri with ports := [] }) := readyView_raiseEvent _ _ _ _ _
    simp only [readyView, Prod.mk.injEq] at hview
    obtain ⟨hstate, -, hsq, hri⟩ := hview
    exact Prod.ext hstate (Prod.ext rfl (Prod.ext (congrArg (fun q : Sq => { q with state := 1 }) hsq) hri))
  have hcounted : readyView (bootCounted (readyEntered s)) = readyView (readyEntered s) := by
    unfold bootCounted
    rw [apply_ite readyView, readyView_advanceMvc]
    exact ite_self _
  rw [enterReady_eq, apply_ite readyView, readyView_startGrace_adoptRestored, ite_self, hcounted, hentered]

/-- A device without peers: what phase 1 found adds no light. -/
def withoutPeers (s : State) : State := { s with ri := { s.ri with peerLight := s.ri.peerLight || false } }

/-- The end of start-up calibration of a device without peers, strapped as headframe or not (R624, R625). -/
theorem execStartupCalDone_alone {s : State} (hstate : s.power.state = .calibrating) (hself : s.hb.selfcal = false)
    (hmc : s.mc.calBusy = false) (hgroups : ∀ e ∈ s.tgs, e.2.calActive = false) (hpeer : s.ri.peerLight = false)
    (hlight : s.ri.crosscut = false ∨ s.ri.light = false) : execStartupCalDone false s = .next (
      if s.ri.hfSel then enterReady (formSolo (withoutPeers s))
      else enterReady { withoutPeers s with ri := { (withoutPeers s).ri with state := 7, phase := 0, result := 0, retrainAt := none } }) := by
  have hidle : s.tgs.any (fun e => e.2.calActive) = false := by simpa using hgroups
  refine congrArg Host.Outcome.next ((if_neg (by simp [hstate, hself, hmc, hidle])).trans (if_neg ?_))
  rcases hlight with h | h <;> simp [hpeer, h]

/-- A ring of one has its only member as headframe (R400, R625). -/
theorem formSolo_ri (s : State) : (formSolo s).ri.state = 6 ∧ (formSolo s).ri.valid = true ∧ (formSolo s).ri.hf = true ∧
    (formSolo s).ri.count = 1 ∧ (formSolo s).ri.position = 0 := by
  unfold formSolo
  dsimp only
  exact ⟨raiseEvent_keeps (f := Ri.state) (fun _ _ => rfl) .., raiseEvent_keeps (f := Ri.valid) (fun _ _ => rfl) ..,
    raiseEvent_keeps (f := Ri.hf) (fun _ _ => rfl) .., raiseEvent_keeps (f := Ri.count) (fun _ _ => rfl) ..,
    raiseEvent_keeps (f := Ri.position) (fun _ _ => rfl) ..⟩

/-- READY of a device without peers: a ring of one where strapped as headframe, else no ring. -/
theorem execStartupCalDone_facts {s : State} (hstate : s.power.state = .calibrating) (hself : s.hb.selfcal = false)
    (hmc : s.mc.calBusy = false) (hgroups : ∀ e ∈ s.tgs, e.2.calActive = false) (hpeer : s.ri.peerLight = false)
    (hlight : s.ri.crosscut = false ∨ s.ri.light = false) : ∃ t, execStartupCalDone false s = .next t ∧ t.power.state = .ready ∧
      t.sq.state = 1 ∧ t.power.wait = 0 ∧ t.ri.state = (if s.ri.hfSel then 6 else 7) ∧
      (s.ri.hfSel = true → t.ri.valid = true ∧ t.ri.hf = true ∧ t.ri.count = 1 ∧ t.ri.position = 0) := by
  refine ⟨_, execStartupCalDone_alone hstate hself hmc hgroups hpeer hlight, ?_⟩
  cases hsel : s.ri.hfSel with
  | true =>
    obtain ⟨hring, hvalid, hhf, hcount, hposition⟩ := formSolo_ri (withoutPeers s)
    have hready := readyView_enterReady (formSolo (withoutPeers s))
    simp only [readyView, Prod.mk.injEq] at hready
    obtain ⟨hpower, hwait, hsq, hri⟩ := hready
    exact ⟨hpower, congrArg Sq.state hsq, hwait, (congrArg Ri.state hri).trans hring, fun _ =>
      ⟨(congrArg Ri.valid hri).trans hvalid, (congrArg Ri.hf hri).trans hhf, (congrArg Ri.count hri).trans hcount,
        (congrArg Ri.position hri).trans hposition⟩⟩
  | false =>
    have hready := readyView_enterReady
      { withoutPeers s with ri := { (withoutPeers s).ri with state := 7, phase := 0, result := 0, retrainAt := none } }
    simp only [readyView, Prod.mk.injEq] at hready
    obtain ⟨hpower, hwait, hsq, hri⟩ := hready
    exact ⟨hpower, congrArg Sq.state hsq, hwait, congrArg Ri.state hri, fun h => absurd h (by decide)⟩

end Sys2Proof.Machine

open Sys2Proof Sys2Proof.Machine

/-- Settles O55: supplies and pins by what the removal and the start of the rails do, references by the branch that their order chooses, and the
start by what each of its stages leaves to the next. A soft reset starts from the MAIN_ON of log entry 26. -/
theorem suppliesReferencesAndStartup : Obligations.SuppliesReferencesAndStartup := by
  refine ⟨fun s => execAuxApply_absent, fun s => execAuxLoss_facts, ?depleted, fun s => ⟨rfl, rfl, getHdr_auxOff s, rfl, rfl⟩, ?vin,
    startReady_iff, ?rise, ?start, ?fall, fun s t => execThermTripRelease_due, fun s t => execModuleRestart_due, fun s => execRefLost_a,
    fun s t => execRefHoldoverExpiry_due, fun s => execReferenceAppear_a, fun s us => execRefLocked_due, ?zeroFill, ?softReset,
    fun s img => execFwLoadedWorkDone_facts, ?configured,
    fun s => ⟨(reported_setPower s .calibrating).powerState, rfl, rfl⟩, fun s => execStartupCalDone_facts⟩
  case depleted =>
    intro s haux hvin
    exact congrArg Host.Outcome.next (if_neg (by simp [haux, hvin]))
  case vin =>
    intro s v hv hvin hen
    refine congrArg Host.Outcome.next ((if_neg (not_or.mpr ⟨by rw [hvin]; decide, hv⟩)).trans ?_)
    simp [hen]
  case rise =>
    intro s hen
    refine ⟨?_, ?_⟩
    · rcases execPwrEnRise_low hen with h | h
      · exact ⟨_, h, tryStart_pwrEn _⟩
      · exact ⟨_, h, tryStart_pwrEn _⟩
    · intro u hready
      rcases execPwrEnRise_low hen with h | h
      · exact ⟨_, h.trans (congrArg _ (tryStart_ready hready)), rfl, rfl, rfl⟩
      · exact ⟨_, h.trans (congrArg _ (tryStart_ready (startReady_clearLevels hready))), rfl, rfl, rfl⟩
  case start =>
    intro s b u hready
    exact congrArg Host.Outcome.next (tryStart_ready hready)
  case fall =>
    intro s hen hm haux
    obtain ⟨hstate, hgood, hfell, hstore⟩ := enFallen_facts haux
    exact ⟨_, execPwrEnFall_on hen hm, rfl, hstate, hgood, hfell, hstore, rfl, rfl, rfl⟩
  case zeroFill =>
    intro s hstate hsoft hms
    have h := reported_enterRom s
    obtain ⟨head, batch, cycle, hpower⟩ := h.power
    refine ⟨_, congrArg Host.Outcome.next (if_pos ⟨hstate, by rw [hsoft]; rfl, hms⟩), h.powerState, h.msState.trans (if_neg hms),
      congrArg Cx.state h.cx, congrArg Power.wait hpower, h.store, fun hsump => enterRom_mem ?_⟩
    rw [← hsump, hpower]
    rfl
  case softReset =>
    intro s hstate hsoft
    have h := reported_enterRom { s with power := { s.power with
      cause := 3, requester := s.power.nextRequester, causeCount := min 65535 (s.power.causeCount + 1) } }
    obtain ⟨head, batch, cycle, hpower⟩ := h.power
    exact ⟨_, congrArg Host.Outcome.next (if_pos ⟨hstate, hsoft⟩), h.powerState, congrArg Power.softReset hpower,
      congrArg Power.cause hpower, congrArg Power.requester hpower, congrArg Cx.state h.cx⟩
  case configured =>
    intro s hstate
    have hhere : ¬s.power.state ≠ .configured := not_not.mpr hstate
    exact ⟨fun htrip => congrArg Host.Outcome.next ((if_neg hhere).trans (if_pos htrip)),
      fun htrip => congrArg Host.Outcome.next ((if_neg hhere).trans (if_neg (Bool.eq_false_iff.mp htrip)))⟩
end

section
/-! SUPPORT. The heartbeat timeout and the grace period: their registers, and the owner that an orphaning leaves (R477, R496, R497). -/

namespace Sys2Proof.Machine

theorem Sent.owners {s t : State} (h : Sent s t) : t.owners = s.owners := by
  obtain ⟨_, _, rfl⟩ := h
  rfl

theorem Reported.owners {s t : State} (h : Reported s t) : t.owners = s.owners := by
  obtain ⟨_, _, _, _, _, _, _, _, _, _, _, _, _, _, _, _, rfl⟩ := h
  rfl

/-- An owner reads back as changed. -/
theorem getOwner_modOwner {s : State} (h : tblWf none s.owners = true) (o : Nat) (f : Owner → Owner) :
    getOwner (modOwner s o f) o = (getOwner s o).map f := tblGet_set_self h o _

/-- A field of a port's page that fills the register's low half (R477). -/
theorem regValue_hbTimeout (s : State) : regValue s 8 0x050 = s.hpA.hbTimeout % 65536 ∧ regValue s 9 0x050 = s.hpB.hbTimeout % 65536 :=
  ⟨Nat.mul_one _, Nat.mul_one _⟩

theorem regValue_grace (s : State) : regValue s 8 0x054 = s.hpA.grace % 65536 ∧ regValue s 9 0x054 = s.hpB.grace % 65536 :=
  ⟨Nat.mul_one _, Nat.mul_one _⟩

/-- PF0's accepted write of HP_HEARTBEAT_TIMEOUT or HP_GRACE. -/
theorem execHpHeartbeatTimeout_of_mayWrite {s : State} {port : Bool} (grace : Bool) (v : BitVec 32)
    (h : mayWrite s (.pf0 port) (pgHp port) = true) :
    execHpHeartbeatTimeout (.pf0 port) port grace v s = .next (writeTimeout s port grace v.toNat) :=
  congrArg Host.Outcome.next (if_pos (by rw [h]; rfl))

/-- A heartbeat write sets the deadline by the timeout that stands then. -/
theorem hbDeadline_writeHeartbeat {s : State} {port : Bool} (h : tblWf {} (getHp s port).fns = true) (f n : Nat) :
    (getFn (writeHeartbeat s port f n) port f).hbDeadline = s.clock + (getHp s port).hbTimeout * msCycles := by
  unfold writeHeartbeat
  extract_lets fn u
  have hsent : Sent s u := by
    unfold u
    split
    · exact Sent.refl s
    · exact sent_tellHead s _ _ _
  rw [getFn_modFn (by rw [hsent.getHp]; exact h), hsent.clock, hsent.getHp]

/-- An orphaned owner is bound to no function, held by its first function's port, and its grace runs by that port's GRACE (R496, R497). -/
theorem getOwner_orphanedState {s : State} {o : Nat} {w : Owner} (h : tblWf none s.owners = true) (hw : getOwner s o = some w)
    (b : Bool × Nat) (r : List (Bool × Nat)) :
    getOwner (orphanedState s o b r) o = some { w with
      bound := [], held := some b.1, grace := some (BitVec.ofNat 64 (rtb s + (getHp s b.1).grace * 100000000)), denials := 0 } := by
  unfold orphanedState
  extract_lets s1 s2 s3
  have hdrop : s1.owners = s.owners ∧ s1.power = s.power :=
    ⟨forEach_keeps State.owners _ _ (fun s (x : Bool × Nat) => modFn_owners s x.1 x.2 _) s,
      forEach_keeps State.power _ _ (fun s (x : Bool × Nat) => modFn_power s x.1 x.2 _) s⟩
  have hmove : s2.owners = s1.owners ∧ s2.power = s1.power :=
    ⟨forEach_keeps State.owners _ _ (fun s j => modStream_owners s j _) s1, forEach_keeps State.power _ _ (fun s j => modStream_power s j _) s1⟩
  have h2 : s2.owners = s.owners := hmove.1.trans hdrop.1
  have hrtb : rtb s2 = rtb s := congrArg (fun p : Power => p.rtb.toNat) (hmove.2.trans hdrop.2)
  have hchanged := getOwner_modOwner (s := s2) (by rw [h2]; exact h) o (fun w => { w with
    bound := [], held := some b.1, grace := some (BitVec.ofNat 64 (rtb s2 + (getHp s b.1).grace * 100000000)), denials := 0 })
  unfold getOwner at hw hchanged ⊢
  rw [(sent_shareOwner _ o).owners, modSlot_owners, hchanged, h2, hw, hrtb]
  rfl

end Sys2Proof.Machine

open Sys2Proof Sys2Proof.Machine

/-- Settles O48: the registers by their fields, their writes by the ranges, and the timers by what starts them. -/
theorem heartbeatTimeoutAndGrace : Obligations.HeartbeatTimeoutAndGrace := by
  refine ⟨?reset, fun s => ⟨(regValue_hbTimeout s).1, (regValue_grace s).1, (regValue_hbTimeout s).2, (regValue_grace s).2⟩, ?writes,
    ?running, ?orphan⟩
  case reset =>
    rintro p (rfl | rfl)
    · exact ⟨(regValue_hbTimeout _).1, (regValue_grace _).1⟩
    · exact ⟨(regValue_hbTimeout _).2, (regValue_grace _).2⟩
  case writes =>
    intro s port v hw
    have htimeout := execHpHeartbeatTimeout_of_mayWrite false v hw
    have hgrace := execHpHeartbeatTimeout_of_mayWrite true v hw
    exact ⟨fun hlo hhi => htimeout.trans (congrArg _ (if_pos ⟨hlo, hhi⟩)), fun hout => htimeout.trans (congrArg _ (if_neg (by omega))),
      fun hlo hhi => hgrace.trans (congrArg _ (if_pos ⟨hlo, hhi⟩)), fun hout => hgrace.trans (congrArg _ (if_neg (by omega)))⟩
  case running =>
    intro s port n f hwf
    refine ⟨?_, hbDeadline_writeHeartbeat hwf f n⟩
    unfold getFn
    rw [getHp_modHp]
  case orphan =>
    intro s owner w port fn hw hb ho hrel hexp hwf hedge
    have ho' : owner.toNat ≠ 0 := fun h0 => ho (BitVec.toNat_inj.mp h0)
    have hdue := orphanDue_of_expired hw (by rw [hb]; exact List.cons_ne_nil _ _) ho' hrel (by
      rw [hb]
      simpa using hexp)
    refine ⟨_, execOrphaned_due hw hb hdue hedge, ?_⟩
    refine Eq.trans ?_ (getOwner_orphanedState hwf hw (port, fn) [])
    unfold getOwner
    rw [(reported_raiseEvent _ _ _ _ _).owners]
end

section
/-! SUPPORT. SPDM requests: what each meets before it is served, and the measurement block of the page locks (R500, R513, R520, R521). -/

namespace Sys2Proof.Machine

/-! ### A request that is served -/

/-- A request that needs no negotiation is served with main power and a key engine that serves (R500). -/
theorem spdmServe_open {s : State} {v : Via} (hup : viaUp s v = true) (hmain : mainPower s = true) (h0 : s.ke.state ≠ 0)
    (h3 : s.ke.state ≠ 3) (f : State → State) : spdmServe s v false f = f s := by
  simp [spdmServe, hup, hmain, h0, h3]

/-- After the negotiation every request is served (R520). -/
theorem spdmServe_negotiated {s : State} {v : Via} (hup : viaUp s v = true) (hmain : mainPower s = true) (h0 : s.ke.state ≠ 0)
    (h3 : s.ke.state ≠ 3) (hneg : viaNo v ∈ s.mgmt.negotiated) (f : State → State) : spdmServe s v true f = f s := by
  simp [spdmServe, hup, hmain, h0, h3, hneg]

/-- Without main power the answer is Busy (R500). -/
theorem spdmServe_unpowered {s : State} {v : Via} (hup : viaUp s v = true) (hmain : mainPower s = false) (ready : Bool)
    (f : State → State) : spdmServe s v ready f = spdmAnswer s v 0x7F [0x03] := by
  simp [spdmServe, hup, hmain, spdmError]

/-- Without identity the answer is Unspecified (R513). -/
theorem spdmServe_failed {s : State} {v : Via} (hup : viaUp s v = true) (hmain : mainPower s = true) (h3 : s.ke.state = 3) (ready : Bool)
    (f : State → State) : spdmServe s v ready f = spdmAnswer s v 0x7F [0x05] := by
  simp [spdmServe, hup, hmain, h3, spdmError]

/-! ### The page locks -/

/-- A number whose bits below `n` are `b`, as the sum of their weights. -/
def bitSum (b : Nat → Bool) (n : Nat) : Nat := ((upTo n).map (fun k => if b k = true then 2 ^ k else 0)).sum

theorem bitSum_succ (b : Nat → Bool) (n : Nat) : bitSum b (n + 1) = (if b n = true then 2 ^ n else 0) + bitSum b n := by
  simp [bitSum, upTo, List.range_succ, Nat.add_comm]

theorem bitSum_lt (b : Nat → Bool) (n : Nat) : bitSum b n < 2 ^ n := by
  induction n with
  | zero => exact Nat.one_pos
  | succ n ih =>
    rw [bitSum_succ, Nat.pow_succ]
    split <;> omega

theorem testBit_bitSum (b : Nat → Bool) {n j : Nat} (hj : j < n) : (bitSum b n).testBit j = b j := by
  induction n with
  | zero => exact absurd hj (Nat.not_lt_zero j)
  | succ n ih =>
    have htop : (bitSum b n).testBit n = false := Nat.testBit_lt_two_pow (bitSum_lt b n)
    rw [bitSum_succ]
    rcases Nat.lt_succ_iff_lt_or_eq.mp hj with hlt | rfl
    · split
      · rw [Nat.testBit_two_pow_add_gt hlt, ih hlt]
      · rw [Nat.zero_add, ih hlt]
    · split
      · rw [Nat.testBit_two_pow_add_eq, htop, ‹b j = true›]
        rfl
      · rw [Nat.zero_add, htop, Bool.eq_false_iff.mpr ‹¬b j = true›]

theorem lockBytes_length (s : State) : (lockBytes s).length = 51 := by
  simp [lockBytes, upTo]

/-- Bit `i` of the lock bytes is the PAGE_LOCK of the page of index `i` (R521). -/
theorem getLsbD_lockBytes (s : State) {i : Nat} (hi : i < 401) : ((lockBytes s).getD (i / 8) 0).getLsbD (i % 8) = (getHdr s i).lock := by
  have hbit : i % 8 < 8 := Nat.mod_lt _ (by decide)
  have hbyte : (lockBytes s).getD (i / 8) 0 =
      BitVec.ofNat 8 (bitSum (fun k => decide (8 * (i / 8) + k < 401 ∧ (getHdr s (8 * (i / 8) + k)).lock = true)) 8) := by
    simp only [lockBytes, bitSum, upTo, decide_eq_true_eq]
    rw [List.getD_eq_getElem _ _ (by rw [List.length_map, List.length_range]; omega), List.getElem_map, List.getElem_range]
  rw [hbyte, BitVec.getLsbD_ofNat, testBit_bitSum _ hbit, Nat.div_add_mod]
  simp [hbit, hi]

end Sys2Proof.Machine

open Sys2Proof Sys2Proof.Machine

/-- Settles O52: a request is served or answered with an error by `spdmServe`, and each measurement block by the case of its index. -/
theorem attestationMessages : Obligations.AttestationMessages := by
  refine ⟨?served, fun s v hup => ⟨fun hmain => congrArg _ (spdmServe_unpowered hup hmain false _),
      fun hmain h3 => congrArg _ (spdmServe_failed hup hmain h3 false _)⟩, fun s c b => ⟨rfl, fun p f => rfl⟩, ?blocks,
    fun s hvalid => if_pos hvalid, fun s => ⟨lockBytes_length s, fun i hi => getLsbD_lockBytes s hi⟩⟩
  case served =>
    intro s v hup hmain h0 h3
    have hopen (f : State → State) := congrArg (Host.Outcome.next (φ := Fault) (ρ := Refusal)) (spdmServe_open hup hmain h0 h3 f)
    refine ⟨⟨_, hopen _⟩, ⟨_, hopen _⟩, ⟨_, hopen _⟩, fun hneg => ?_⟩
    have hserve (f : State → State) :=
      congrArg (Host.Outcome.next (φ := Fault) (ρ := Refusal)) (spdmServe_negotiated hup hmain h0 h3 hneg f)
    refine ⟨hserve _, fun o n => hserve _, fun n => ⟨_, hserve _⟩, hserve _, fun i hlo hhi => ?_, hserve _, fun hfew => ?_, fun hfull => ?_,
      fun sid z hz => ?_⟩
    · have hi0 : i ≠ 0 := by rintro rfl; exact absurd hlo (by decide)
      have hi255 : i ≠ 0xFF := by rintro rfl; exact absurd hhi (by decide)
      exact (hserve _).trans (congrArg _ ((if_neg hi0).trans ((if_neg hi255).trans (if_neg (Nat.not_lt.mpr hhi)))))
    · exact ⟨_, (hserve _).trans (congrArg _ (if_neg (Nat.not_le.mpr hfew)))⟩
    · exact (hserve _).trans (congrArg _ (if_pos hfull))
    · refine ⟨fun hopened => ⟨Config.dmtfBody 0x565 0, (hserve _).trans ?_⟩, fun hfinished => ⟨(hserve _).trans ?_, (hserve _).trans ?_⟩, (hserve _).trans ?_⟩
      all_goals simp only [hz]
      · rw [hopened]
        rfl
      · rw [if_pos hfinished]
      · rw [if_pos hfinished]
  case blocks =>
    intro s r hr
    simp only [measurement, hr, true_and]
    refine ⟨fun hnone => ?_, fun p hp => ?_⟩
    · rw [hnone]
    · rw [hp]
end

section
/-! SUPPORT. Doorbells that are refused, QP_CONFIG's answers, the fetch of an entry that is refused, and the completion entry (R447,
R452-R460, R463, R464). -/

namespace Sys2Proof.Machine

/-! ### Doorbells (R447, R452, R453, R455) -/

/-- On a port whose BARs do not answer a doorbell is an Unsupported Request. -/
theorem doorbell_closed {s : State} {port : Bool} (h : barsOpen s port = false) (fn page : Nat) (act : Nat → Qp → State) :
    doorbell s port fn page act = countUr s port := if_pos (by rw [h]; rfl)

/-- A doorbell of a frozen function, of one in reset and on a page without a pair is discarded. -/
theorem doorbell_discarded {s : State} {port : Bool} {fn page : Nat} (hopen : barsOpen s port = true)
    (h : fnFrozen s port fn = true ∨ (getFn s port fn).inReset = true ∨ pairOf s port fn page = none) (act : Nat → Qp → State) :
    doorbell s port fn page act = s := by
  unfold doorbell
  rw [if_neg (by simp [hopen])]
  rcases h with h | h | h
  · exact if_pos (by simp [h])
  · exact if_pos (by simp [h])
  · rw [h]
    exact ite_self s

/-! ### QP_CONFIG (R454) -/

/-- A function that is enabled and not in reset has its request answered with the request's status. -/
theorem execQpConfig_answers {s : State} {port : Bool} {fn : BitVec 5} {d : List (BitVec 32)}
    (hreset : (getFn s port fn.toNat).inReset = false) (hup : (getHp s port).up = true) (henabled : fnEnabled s port fn.toNat = true)
    {n : Nat} (hstatus : qpConfigStatus s port fn.toNat d = n) :
    execQpConfig port fn d s = .next (emit (if n = 0 then configure s port fn.toNat d else s) (.doe port fn.toNat n (leBytes 4 n))) := by
  unfold execQpConfig
  dsimp only
  rw [if_neg (by simp [hreset, hup, henabled]), hstatus]

section
variable {s : State} {port : Bool} {fn : Nat} {d : List (BitVec 32)}

/-- Below power state 5 the answer is NOT_READY. -/
theorem qpConfigStatus_notReady (h : s.power.state.code < 5) : qpConfigStatus s port fn d = 3 := if_pos h

variable (hpower : 5 ≤ s.power.state.code) (hentry : fn = 0 ∨ bits (d.getD 0 0).toNat 0 8 ≤ 14)
  (hfields : bits (d.getD 0 0).toNat 8 8 = 0 ∨ 4 ≤ bits (d.getD 0 0).toNat 8 8 ∧ bits (d.getD 0 0).toNat 8 8 ≤ 12 ∧
    4 ≤ bits (d.getD 0 0).toNat 16 8 ∧ bits (d.getD 0 0).toNat 16 8 ≤ 12 ∧ bits (d.getD 0 0).toNat 24 8 < (if fn = 0 then 64 else 16) ∧
    (d.getD 1 0).toNat % 4096 = 0 ∧ (d.getD 3 0).toNat % 4096 = 0 ∧ (d.getD 5 0).toNat < 256)

include hpower hentry hfields

/-- A request whose fields are in range is answered by its pair alone. -/
theorem qpConfigStatus_of_fields : qpConfigStatus s port fn d =
    (pairOf s port fn (bits (d.getD 0 0).toNat 0 8)).elim 2 (fun p => if (getQp s port p).fn = fn then 0 else 2) := by
  unfold qpConfigStatus
  dsimp only
  rw [if_neg (by omega), if_neg (by omega)]
  cases pairOf s port fn (bits (d.getD 0 0).toNat 0 8) <;> rfl

/-- For no pair the answer is NOT_OWNED. -/
theorem qpConfigStatus_notOwned (hpair : pairOf s port fn (bits (d.getD 0 0).toNat 0 8) = none) : qpConfigStatus s port fn d = 2 := by
  rw [qpConfigStatus_of_fields hpower hentry hfields, hpair]
  rfl

/-- The function's own pair is configured. -/
theorem qpConfigStatus_ok {p : Nat} (hpair : pairOf s port fn (bits (d.getD 0 0).toNat 0 8) = some p) (hfn : (getQp s port p).fn = fn) :
    qpConfigStatus s port fn d = 0 := by
  rw [qpConfigStatus_of_fields hpower hentry hfields, hpair]
  exact if_pos hfn

end

/-- A request with queues makes its pair READY as its dwords say. -/
theorem configure_queues {s : State} {port : Bool} {fn p : Nat} {d : List (BitVec 32)}
    (hpair : pairOf s port fn (bits (d.getD 0 0).toNat 0 8) = some p) (hsq : bits (d.getD 0 0).toNat 8 8 ≠ 0) :
    configure s port fn d = modQp s port p (fun q => {
      state := 1, fn := q.fn, cfg := q.cfg + 1, sqLog := bits (d.getD 0 0).toNat 8 8, cqLog := bits (d.getD 0 0).toNat 16 8
      vector := bits (d.getD 0 0).toNat 24 8, sqAddr := BitVec.ofNat 64 ((d.getD 1 0).toNat + 2 ^ 32 * (d.getD 2 0).toNat)
      cqAddr := BitVec.ofNat 64 ((d.getD 3 0).toNat + 2 ^ 32 * (d.getD 4 0).toNat), coalesce := (d.getD 5 0).toNat }) := by
  simp only [configure, hpair, if_neg hsq]

/-! ### Entries (R457, R460, R463, R464) -/

/-- The state in which a submission entry has been read: the head has moved, a completion entry is reserved, and the command is held. -/
def entryHeld (s : State) (port : Bool) (p : Nat) (e : List Byte) : State :=
  modHp (modQp s port p (fun q => { q with sqHead := (q.sqHead + 1) % sqDepth q, reserved := q.reserved + 1 })) port
    (fun h => { h with fetched := h.fetched ++ [entryCommand s port p e] })

section
variable {s : State} {port : Bool} {pair : BitVec 8} {q : Qp} (hq : getQp s port pair.toNat = q) (hstate : q.state = 1)
  (htail : q.sqHead ≠ q.sqTail) (hfree : cqFree q ≠ 0) (hdma : fnDma s port q.fn = true) (hopen : barsOpen s port = true)
  (hfw : firmwareRuns s = true) (hpower : 5 ≤ s.power.state.code) (hen : (getHdr s (pgHp port)).en = true)
  (hroom : hostReadsOut s port + 64 ≤ 262144)

include hq hstate htail hfree hdma hopen hfw hpower hen hroom

/-- A pair that may fetch reads its next entry: a failed read is ERROR with cause 3; an entry that arrives is held, and one that is
refused completes at once. -/
theorem execSubmissionFetch_reads (entry : Option (List Byte)) : execSubmissionFetch port pair entry s = .next (entry.elim (qpError s port pair.toNat 3) (fun e =>
      (entryRefusal (entryHeld s port pair.toNat e) port q.fn e).elim (entryHeld s port pair.toNat e) (fun c =>
        complete (entryHeld s port pair.toNat e)
          { port := port, fn := BitVec.ofNat 5 q.fn, pair := pair, cid := BitVec.ofNat 16 (leAt e 2 2) } c))) := by
  subst hq
  have hgo : ¬((getQp s port pair.toNat).state ≠ 1 ∨ (getQp s port pair.toNat).sqHead = (getQp s port pair.toNat).sqTail ∨
      cqFree (getQp s port pair.toNat) = 0 ∨ (!fnDma s port (getQp s port pair.toNat).fn) = true ∨ (!barsOpen s port) = true ∨
      (!firmwareRuns s) = true ∨ s.power.state.code < 5 ∨ (!(getHdr s (pgHp port)).en) = true ∨
      readBuffer < hostReadsOut s port + 64) := by
    simp [hstate, htail, hfree, hdma, hopen, hfw, hpower, hen, readBuffer, hroom]
  unfold execSubmissionFetch
  dsimp only
  rw [if_neg hgo]
  cases entry with
  | none => rfl
  | some e =>
    show Host.Outcome.next (match entryRefusal (entryHeld s port pair.toNat e) port (getQp s port pair.toNat).fn e with
      | some c => _
      | none => _) = .next ((entryRefusal (entryHeld s port pair.toNat e) port (getQp s port pair.toNat).fn e).elim _ _)
    cases entryRefusal (entryHeld s port pair.toNat e) port (getQp s port pair.toNat).fn e <;> rfl

end

/-- A NOP with no reserved byte set, for no device in particular, is held for execution. -/
theorem entryRefusal_nop {e : List Byte} (s : State) (port : Bool) (fn : Nat) (hop : byteAt e 0 = 0) (hflags : byteAt e 1 = 0)
    (h6 : byteAt e 6 = 0) (h7 : byteAt e 7 = 0) (hdevice : byteAt e 5 = 0xFF) (hrest : ∀ j, 8 ≤ j → j < 64 → byteAt e j = 0) :
    entryRefusal s port fn e = none := by
  have hclear : ((upTo 56).map (· + 8)).any (fun j => byteAt e j != 0 && !([] : List (Nat × Nat)).any (fun r =>
      decide (r.1 ≤ j) && decide (j < r.1 + r.2))) = false := by
    simp only [List.any_map, List.any_eq_false, upTo, List.mem_range, Function.comp]
    intro j hj
    simp [hrest (j + 8) (by omega) (by omega)]
  unfold entryRefusal
  simp only [hop, opcodeBytes, reservedBitsOk, hclear, hflags, h6, h7, hdevice]
  simp

/-- An opcode that the spec does not define completes at once. -/
theorem entryRefusal_undefined {e : List Byte} (s : State) (port : Bool) (fn : Nat) (hop : opcodeBytes (byteAt e 0) = none) :
    entryRefusal s port fn e = some 0x0101 := by
  simp only [entryRefusal, hop]

/-- An entry with a reserved bit of its flags set completes at once. -/
theorem entryRefusal_flags {e : List Byte} (s : State) (port : Bool) (fn : Nat) (hop : (opcodeBytes (byteAt e 0)).isSome = true)
    (hflags : 1 < byteAt e 1) : entryRefusal s port fn e = some 0x0101 := by
  obtain ⟨used, hused⟩ := Option.isSome_iff_exists.mp hop
  simp [entryRefusal, hused, hflags]

/-! ### Completion entries (R458, R459, R463) -/

/-- The state in which a held command's completion entry is written: the command is gone and its reserved entry is used. -/
def released (s : State) (i : Issuer) : State :=
  modQp (modHp s i.port (fun h => { h with
    fetched := h.fetched.eraseP (fun f => f.pair == i.pairKey && f.cid == i.cid.toNat && f.fn == i.fn.toNat) })) i.port i.pairKey
    (fun q => { q with reserved := q.reserved - 1 })

theorem fetched_released (s : State) (i : Issuer) : (getHp (released s i) i.port).fetched =
    (getHp s i.port).fetched.eraseP (fun f => f.pair == i.pairKey && f.cid == i.cid.toNat && f.fn == i.fn.toNat) := by
  unfold released modQp
  rw [getHp_modHp, getHp_modHp]

theorem getQp_released {s : State} {i : Issuer} (h : tblWf {} (getHp s i.port).qps = true) :
    getQp (released s i) i.port i.pairKey = { getQp s i.port i.pairKey with reserved := (getQp s i.port i.pairKey).reserved - 1 } := by
  unfold released
  rw [getQp_modQp (by rw [getHp_modHp]; exact h), getQp_modHp_fetched]

/-- A held command of a function that may write to its host is completed by an entry. -/
theorem complete_held {s : State} {i : Issuer} {f : Fetched} (hheld : findFetched s i = some f) (hown : i.pairKey < 256)
    (hcfg : f.cfg = (getQp s i.port i.pairKey).cfg) (hthawed : fnFrozen s i.port i.fn.toNat = false)
    (hreset : (getFn s i.port i.fn.toNat).inReset = false) (hbus : (getFn s i.port i.fn.toNat).busMaster = true) (status : Nat)
    (result : List Byte) : complete s i status result = writeEntry (released s i) i.port i.pairKey i.cid.toNat status 0 result := by
  have hqp := getQp_modHp_fetched s i.port i.pairKey
    (List.eraseP (fun f => f.pair == i.pairKey && f.cid == i.cid.toNat && f.fn == i.fn.toNat))
  have hfrozen : fnFrozen (released s i) i.port i.fn.toNat = false := by
    unfold fnFrozen isFrozen released at *
    rw [modQp_frozen, modHp_frozen]
    exact hthawed
  have hfn : getFn (released s i) i.port i.fn.toNat = getFn s i.port i.fn.toNat := by
    unfold getFn released modQp
    rw [getHp_modHp, getHp_modHp]
  unfold complete
  simp only [hheld]
  rw [if_neg (Nat.not_le.mpr hown), if_neg (by rw [hqp]; exact not_not.mpr hcfg)]
  show (if fnFrozen (released s i) i.port i.fn.toNat = true then tokenDrop (released s i) i.port 0xFFFF 2
    else if (getFn (released s i) i.port i.fn.toNat).inReset || !(getFn (released s i) i.port i.fn.toNat).busMaster then released s i
    else writeEntry (released s i) i.port i.pairKey i.cid.toNat status 0 result) = _
  rw [hfrozen, hfn, hreset, hbus]
  rfl

/-- The 32 bytes of a completion entry at a pair's completion index (R458). -/
def completionEntry (q : Qp) (head status kind : Nat) (result : List Byte) : List Byte :=
  leBytes 2 head ++ leBytes 2 q.sqHead ++ leBytes 2 status ++ leBytes 1 kind ++ leBytes 1 (if q.cqTail / cqDepth q % 2 = 0 then 1 else 0) ++
    padTo 24 result

/-- On a link that is up, a pair that has signalled writes its entry and moves its completion index. -/
theorem writeEntry_signalled {s : State} {port : Bool} {pair : Nat} (hwf : tblWf {} (getHp s port).qps = true)
    (hsig : (getQp s port pair).signalled = true) (hup : (getHp s port).up = true) (head status kind : Nat) (result : List Byte) :
    writeEntry s port pair head status kind result = modQp (emit s (.completion port pair ((getQp s port pair).cqTail %
      cqDepth (getQp s port pair)) (completionEntry (getQp s port pair) head status kind result))) port pair
      (fun q => { q with cqTail := q.cqTail + 1 }) := by
  unfold writeEntry
  extract_lets q phase e s1 s2 q2
  have hq : q2.signalled = true := by
    have hs1 : s1 = emit s (.completion port pair (q.cqTail % cqDepth q) e) := if_pos hup
    have hqp : q2 = { getQp s1 port pair with cqTail := (getQp s1 port pair).cqTail + 1 } :=
      getQp_modQp (s := s1) (by rw [hs1]; exact hwf) pair _
    rw [hqp, hs1]
    exact hsig
  rw [if_pos hq]
  exact congrArg (fun t => modQp t port pair _) (if_pos hup)

/-! ### The signal (R459) -/

/-- A signal whose time has passed, or whose queue is half full, goes out on a link that is up. -/
theorem execMsixSignal_sends {s : State} {port : Bool} {pair : BitVec 8} {q : Qp} {n : Nat} (hq : getQp s port pair.toNat = q)
    (hat : q.signalAt = some n) (hdue : n ≤ s.clock ∨ cqDepth q ≤ 2 * (q.cqTail - q.cqHead)) (hdma : fnDma s port q.fn = true)
    (hnew : q.signalled = false) (hup : (getHp s port).up = true) : execMsixSignal port pair s = .next (emit
      (modQp s port pair.toNat (fun q => { q with signalled := true, signalAt := none })) (.msix port q.fn q.vector)) := by
  subst hq
  have hlink : (getHp (modQp s port pair.toNat (fun q => { q with signalled := true, signalAt := none })) port).up = true := by
    unfold modQp
    rw [getHp_modHp]
    exact hup
  unfold execMsixSignal
  simp only [hat]
  rw [if_pos ⟨hdue, hdma⟩, qpSignal, if_neg (by simp [hnew]), hostSend, if_pos hlink]

/-- Before its time, with the queue less than half full, nothing is signalled. -/
theorem execMsixSignal_early {s : State} {port : Bool} {pair : BitVec 8} {q : Qp} {n : Nat} (hq : getQp s port pair.toNat = q)
    (hat : q.signalAt = some n) (hearly : s.clock < n) (hfew : 2 * (q.cqTail - q.cqHead) < cqDepth q) :
    execMsixSignal port pair s = .next s := by
  subst hq
  unfold execMsixSignal
  simp only [hat]
  rw [if_neg (by omega)]

end Sys2Proof.Machine

open Sys2Proof Sys2Proof.Machine

/-- Settles O47: doorbells by whether they reach a READY pair, QP_CONFIG by its status, an entry by whether it is refused, and the completion
entry and its signal by the rules above. Entries always reach host memory (log entry 117); a deletion ignores the other fields (log entry 89). -/
theorem queuePairsAndCompletions : Obligations.QueuePairsAndCompletions := by
  refine ⟨?ready, ?error, ?refused, ?config, ?fetch, fun s port fn e => ⟨entryRefusal_nop s port fn, fun hop => ?_, fun hop => ?_⟩, ?completed,
    ?entry, ?signal⟩
  case ready =>
    intro s port fn page v p q x hopen hthawed hreset henabled hpair hfn hstate
    have hdoor := fun act => congrArg (Host.Outcome.next (φ := Fault) (ρ := Refusal))
      (doorbell_ready hopen hthawed hreset henabled hpair hfn hstate act)
    exact ⟨fun hbelow => (hdoor _).trans (congrArg _ (if_neg (Nat.not_le.mpr hbelow))), fun habove => (hdoor _).trans (congrArg _ (if_pos habove)),
      fun hout => (hdoor _).trans (congrArg _ (if_pos hout)), fun hv htail => (hdoor _).trans (congrArg _ (if_neg (not_or.mpr ⟨Nat.not_le.mpr hv, Nat.not_lt.mpr htail⟩)))⟩
  case error =>
    intro s port p cause hwf
    have hq := getQp_modQp hwf p (fun q => { q with state := 2, cause := cause })
    refine ⟨_, ?_, hq, fun p' hne => getQp_modQp_ne s port _ hne⟩
    unfold qpError
    dsimp only
    rw [hq]
  case refused =>
    intro s port fn page v
    exact ⟨fun hclosed => ⟨congrArg _ (doorbell_closed hclosed _ _ _), congrArg _ (doorbell_closed hclosed _ _ _)⟩,
      fun hopen h => ⟨congrArg _ (doorbell_discarded hopen h _), congrArg _ (doorbell_discarded hopen h _)⟩⟩
  case config =>
    intro s port fn d hreset hup henabled w sq cq
    refine ⟨fun hlow => execQpConfig_answers hreset hup henabled (qpConfigStatus_notReady hlow), fun hpower hentry => ⟨fun hsq hnone => ?_,
      fun p hpair hfn => ⟨fun hsq => execQpConfig_delete hreset hup henabled hpower hentry hsq hpair hfn, ?_⟩⟩⟩
    · exact execQpConfig_answers hreset hup henabled
        (qpConfigStatus_notOwned hpower (hentry.imp_left (congrArg BitVec.toNat)) (.inl hsq) hnone)
    · intro hsq4 hsq12 hcq4 hcq12 hvec hsqa hcqa hco
      have hvec' : bits (w 0) 24 8 < (if fn.toNat = 0 then 64 else 16) := by
        simpa only [show fn.toNat = 0 ↔ fn = 0 from BitVec.toNat_inj (y := 0)] using hvec
      have hstatus := qpConfigStatus_ok (s := s) (port := port) (d := d) hpower (hentry.imp_left (congrArg BitVec.toNat))
        (.inr ⟨hsq4, hsq12, hcq4, hcq12, hvec', hsqa, hcqa, hco⟩) hpair hfn
      rw [← configure_queues hpair (by show sq ≠ 0; omega)]
      exact execQpConfig_answers hreset hup henabled hstatus
  case fetch =>
    intro s port pair q hstate htail hfree hdma hopen hfw hpower hen hroom
    have hread := execSubmissionFetch_reads rfl hstate htail hfree hdma hopen hfw hpower hen hroom
    exact ⟨hread none, fun e => ⟨fun hnone => (hread (some e)).trans (congrArg (fun r : Option Nat => Host.Outcome.next (r.elim _ _)) hnone),
      fun c hc => (hread (some e)).trans (congrArg (fun r : Option Nat => Host.Outcome.next (r.elim _ _)) hc)⟩⟩
  · exact entryRefusal_undefined s port fn (by rw [hop]; rfl)
  · exact entryRefusal_flags s port fn (by rw [hop]; rfl)
  case completed =>
    intro s i f status result hheld hown hcfg hthawed hreset hbus
    exact ⟨released s i, complete_held hheld hown hcfg hthawed hreset hbus status result, fetched_released s i, getQp_released⟩
  case entry =>
    intro s port pair head status kind result q hwf hsig hup t
    have ht : t = _ := writeEntry_signalled hwf hsig hup head status kind result
    refine ⟨?_, ?_⟩
    · rw [ht, modQp_out]
      rfl
    · rw [ht]
      exact getQp_modQp (s := emit s _) hwf pair _
  case signal =>
    intro s port pair t q hat hdma hnew hup
    exact ⟨fun hdue => execMsixSignal_sends rfl hat hdue hdma hnew hup, fun hearly hfew => execMsixSignal_early rfl hat hearly hfew⟩
end

section
/-! SUPPORT. Firmware: what writing an image into memory leaves, what loading an image, finishing and reverting a handoff set, and the
commands by the branch that their conditions choose (R483, R487-R495, R509, R510). -/

namespace Sys2Proof.Machine

/-! ### What writing stack memory leaves (R376, R386, R387) -/

section
variable {β : Type} {f : State → β} (hreport : ∀ {s t}, Reported s t → f t = f s)
  (hcount : ∀ (s : State) ms scs, f { s with ms := ms, scs := scs } = f s)

include hreport hcount

omit hreport hcount in
theorem reported_eccEvent (s : State) (w reader queue : Nat) : Reported s (eccEvent s w reader queue) := by
  unfold eccEvent
  exact reported_raiseEvent _ _ _ _ _

omit hreport in
theorem eccCorrected_keeps (s : State) (w : Nat) : f (eccCorrected s w) = f s := hcount s _ _

theorem eccPoisoned_keeps (s : State) (w reader queue : Nat) : f (eccPoisoned s w reader queue) = f s :=
  (hreport (reported_eccEvent _ w reader queue)).trans (hcount s _ _)

/-- A word written meets at most an error, which is counted and reported. -/
theorem writeWord_keeps (s : State) (k w : Nat) (p : Nat × List Byte) (queue : Nat) : f (writeWord s k w p queue) = f s := by
  have hmerge (s : State) : f (mergeWord s k w p) = f s := hreport (reported_mergeWord s k w p)
  unfold writeWord
  split_ifs
  · exact hmerge s
  · exact hreport (reported_eccEvent s w _ _)
  · exact eccPoisoned_keeps hreport hcount s w _ _
  · exact (hmerge _).trans (eccCorrected_keeps hcount s w)
  · exact hmerge s

theorem writeUnder_keeps (s : State) (k a : Nat) (bs : List Byte) (queue : Nat) : f (writeUnder s k a bs queue) = f s :=
  forEach_keeps f _ _ (fun s w => writeWord_keeps hreport hcount s k w _ queue) s

end

/-! ### Boot (R487, R488) -/

/-- PF0's write of the doorbell with ACTION BOOT, where no image is being checked or handed over. -/
theorem execBoot_rom {s : State} {p : Bool} {v : BitVec 32} (hw : mayWrite s (.pf0 p) 1 = true) (haction : bits v.toNat 30 2 = 0)
    (haddr : bits v.toNat 0 28 = 0) (hrom : s.power.state = .rom) (hstate : s.cx.state = 1) :
    execBoot (.pf0 p) v s = .next { s with
      cx := { s.cx with state := 2, fwPhase := 2, fwValid := false, bootPort := ofBool p }, power := { s.power with wait := 0 } } := by
  have hgo : (mayWrite s (.pf0 p) pgCx && (Accessor.pf0 p != .mgmt) && bits v.toNat 30 2 == 0) = true := by
    rw [show mayWrite s (.pf0 p) pgCx = true from hw, haction]
    rfl
  refine congrArg Host.Outcome.next ((if_pos hgo).trans ?_)
  unfold writeDoorbell
  rw [if_neg (by omega), if_pos haction]
  exact if_pos ⟨hrom, hstate, haddr⟩

/-- What an accepted image's loading leaves to the rest of the start: power state, CX, record store and owners. -/
def bootKept (s : State) : PowerState × Cx × RecStore × Tbl (Option Owner) := (s.power.state, s.cx, s.store, s.owners)

theorem bootKept_of_reported {s t : State} (h : Reported s t) : bootKept t = bootKept s := by
  unfold bootKept
  rw [h.powerState, h.cx, h.store, h.owners]

theorem sent_sendImage (s : State) (dst base n : Nat) : Sent s (sendImage s dst base n) :=
  sent_forEach _ _ (fun s _ => sent_sendPacket s _ _ _) s

/-- The extents that firmware takes and the sump are in the memory's tables. -/
theorem bootKept_setSump_holdFirmware (s : State) (log : Nat) : bootKept (setSump (holdFirmware s) log) = bootKept s :=
  forEach_keeps bootKept Config.firmwareExtents
    (fun s r => setExtents s (32768 + r.1 % 9732857) (32768 + r.1 % 9732857 + r.2) 257) (fun _ _ => rfl) (setExtents s 0 32768 257)

/-- Of the control complex, the KERNEL goes into SRAM. -/
theorem loadKernel_eq (s : State) (base : Nat) : ∃ kernel, loadKernel s base = { s with cx := { s.cx with sram := kernel } } := by
  unfold loadKernel
  split
  · exact ⟨_, rfl⟩
  · exact ⟨s.cx.sram, rfl⟩

theorem loadKernel_found {s : State} {base : Nat} {x : Section} (h : (imgSections s base).find? (fun x => x.type == 1) = some x) :
    loadKernel s base = { s with cx := { s.cx with sram := memBytes s (base + x.offset) x.length } } := by
  unfold loadKernel
  rw [h]

/-- Copying an image of `n` bytes and loading its KERNEL changes of the control complex its SRAM. -/
theorem imageLoaded_facts {s u : State} {n : Nat} (hu : loadKernel (copyBytes s 0 0 residentBase n) 0 = u) :
    ∃ kernel, u.cx = { s.cx with sram := kernel } ∧ u.store = s.store ∧ u.owners = s.owners := by
  obtain ⟨kernel, hload⟩ := loadKernel_eq (copyBytes s 0 0 residentBase n) 0
  have hcopy : bootKept (copyBytes s 0 0 residentBase n) = bootKept s :=
    writeUnder_keeps bootKept_of_reported (fun _ _ _ => rfl) s _ _ _ _
  simp only [bootKept, Prod.mk.injEq] at hcopy
  obtain ⟨-, hcx, hstore, howners⟩ := hcopy
  rw [← hu, hload]
  exact ⟨kernel, by rw [hcx], hstore, howners⟩

/-- An accepted image runs in FW_LOADED. -/
theorem bootKept_bootAccept {s u : State} {img : ImageInfo} (himg : imgInfo s 0 = img)
    (hu : loadKernel (copyBytes s 0 0 residentBase img.size) 0 = u) : bootKept (bootAccept s) = (.fwLoaded, { u.cx with
      fwValid := true, fwResult := 0, fwPhase := 0, state := 3, running := some img, version := img.version, byBoot := true
      resetSince := false, signals := (upTo 8).map (fun c => (c, u.clock)) }, u.store, u.owners) := by
  unfold bootAccept
  rw [show imgInfo s stagingBase = img from himg]
  extract_lets img' port loaded _ _ s1 power s2 s3 s4 ri
  have hloaded : loaded = u := hu
  clear_value loaded
  subst loaded
  have hsent : bootKept (if s4.ri.imageWanted = true
      then sendImage { s4 with ri := { s4.ri with imageWanted := false } } (s4.ri.position + 1) residentBase img.size else s4) = bootKept s4 := by
    split
    · exact bootKept_of_reported (reported_sent (sent_sendImage _ _ _ _))
    · rfl
  have hevent (u : State) (page code : Nat) (inf : List Byte) : bootKept (raiseEvent u page code inf) = bootKept u :=
    bootKept_of_reported (reported_raiseEvent _ _ _ _ _)
  calc bootKept _ = bootKept s4 := hsent
    _ = bootKept s3 := hevent ..
    _ = bootKept s2 := hevent ..
    _ = bootKept (setSump (holdFirmware { s1 with power := { power with state := .fwLoaded } }) img.sumpLog) := hevent ..
    _ = bootKept { s1 with power := { power with state := .fwLoaded } } := bootKept_setSump_holdFirmware _ _

/-- The checks of an image in ROM that came from a port end. -/
theorem execFwVerifyDone_rom {s : State} (hstate : s.cx.state = 2) (hrom : s.power.state = .rom) (hport : s.cx.bootPort < 2) :
    execFwVerifyDone s = .next (if imgCheck s 0 (some (s.cx.bootPort == 1)) false = 0 then bootAccept s
      else fwReject { s with cx := { s.cx with state := 1 }, power := { s.power with wait := 1 } }
        (imgCheck s 0 (some (s.cx.bootPort == 1)) false) 0) := by
  have hlocal : (s.cx.bootPort == 2) = false := beq_eq_false_iff_ne.mpr (by omega)
  refine congrArg Host.Outcome.next ((if_neg (not_not.mpr hstate)).trans ((if_pos hrom).trans ?_))
  simp only [hlocal]
  rfl

/-! ### Staging (R488-R490) -/

/-- PF0's write of the doorbell with ACTION STAGE on running firmware with no handoff under way. -/
theorem execStage_running {s : State} {v : BitVec 32} (hw : mayWrite s (.pf0 false) 1 = true) (haction : bits v.toNat 30 2 = 1)
    (hstate : s.cx.state = 3) :
    execStage (.pf0 false) v s = .next (stageDoorbell s (.pf0 false) (bits v.toNat 0 28 * 4096)) := by
  have hgo : (mayWrite s (.pf0 false) pgCx && (Accessor.pf0 false != .mgmt) && bits v.toNat 30 2 == 1) = true := by
    rw [show mayWrite s (.pf0 false) pgCx = true from hw, haction]
    rfl
  refine congrArg Host.Outcome.next ((if_pos hgo).trans ?_)
  unfold writeDoorbell
  rw [if_neg (by omega), if_neg (by omega), if_pos haction]

/-- Elsewhere than on the headframe an image is not staged (0x0A). -/
theorem stageDoorbell_member {s : State} (hstate : s.cx.state = 3) (hho : s.cx.hoState = 0 ∨ s.cx.hoState = 5)
    (hhf : isHeadframe s = false) (addr : Nat) : stageDoorbell s (.pf0 false) addr = stageFail s 0x0A := by
  unfold stageDoorbell
  rw [if_neg (by omega), if_pos (.inl (by rw [hhf]; rfl))]

/-- On the headframe an image is copied if its extents are owner 0's, and refused with 0x09 if not. -/
theorem stageDoorbell_head {s : State} (hstate : s.cx.state = 3) (hho : s.cx.hoState = 0 ∨ s.cx.hoState = 5)
    (hhf : isHeadframe s = true) {addr n : Nat}
    (hn : max 8192 (min (ofLe (readUnder s (stackKey s 0) (addr + 16) 8)) stagingSize) = n) :
    (extentsGranted s 0 addr n = false → stageDoorbell s (.pf0 false) addr = stageFail s 0x09) ∧
    (extentsGranted s 0 addr n = true → stageDoorbell s (.pf0 false) addr = (let u := copyBytes s (stackKey s 0) addr 0 n
      { u with cx := { u.cx with
        hoState := 1, state := 2, fwPhase := 1, fwValid := false, stageOk := false, hoMembers := 0, staged := none } })) := by
  unfold stageDoorbell
  rw [if_neg (by omega), if_neg (not_or.mpr ⟨by rw [hhf]; decide, fun h => h rfl⟩)]
  simp only [stagingBase, hn]
  exact ⟨fun hno => if_pos (by rw [hno]; rfl), fun hyes => if_neg (by rw [hyes]; decide)⟩

/-- A failed staging moves no headframe and no position. -/
theorem stageFail_ri {β : Type} {f : Ri → β} (hports : ∀ (r : Ri) ports, f { r with ports := ports } = f r) (s : State) (code : Nat) :
    f (stageFail s code).ri = f s.ri :=
  raiseEvent_keeps hports _ _ _ _ _

/-- What an image says does not depend on the result of its check. -/
theorem imgInfo_fwResult (s : State) (code base : Nat) : imgInfo (fwResult s code) base = imgInfo s base := rfl

/-- A member that has checked the image it was sent tells the headframe. -/
theorem execFwVerifyDone_member {s : State} (hstate : s.cx.state = 2) (hrom : s.power.state ≠ .rom) (hho : s.cx.hoState = 1)
    (hhf : isHeadframe s = false) {code : Nat} (hcode : imgCheck s 0 none true = code) : execFwVerifyDone s = .next (if code = 0 then sendMessage { s with cx := { s.cx with
        state := 3, fwValid := true, fwResult := 0, fwPhase := 0, staged := some (imgInfo s 0), stageOk := true, hoMembers := 1 } } 0 0x90
        [s.ri.position, 0]
      else sendMessage (stageFail s code) 0 0x90 [s.ri.position, code]) := by
  refine congrArg Host.Outcome.next ((if_neg (not_not.mpr hstate)).trans ((if_neg hrom).trans ((if_neg (not_not.mpr hho)).trans ?_)))
  rw [show imgCheck s stagingBase none true = code from hcode]
  by_cases hpass : code = 0
  · rw [if_neg (not_not.mpr hpass), if_pos hpass]
    dsimp only
    rw [imgInfo_fwResult]
    exact if_neg (Bool.eq_false_iff.mp hhf)
  · have hmember : isHeadframe (stageFail s code) = false := (isHeadframe_raiseEvent ..).trans hhf
    have hposition := stageFail_ri (f := Ri.position) (fun _ _ => rfl) s code
    dsimp only
    rw [if_pos hpass, if_neg hpass, hmember, hposition]
    rfl

/-- In ROM, image data before the region's end goes to its offset; the last packet starts the checks. -/
theorem execFwImagePacket_rom {s : State} {o : BitVec 32} {d : List Byte} {last : Bool} (hrom : s.power.state = .rom)
    (hstate : s.cx.state = 1) (hfits : o.toNat + d.length ≤ stagingSize) : execFwImagePacket o d last s = .next
      (let u := writeUnder s 0 o.toNat d 0xFFFF
       { u with cx := if last then { u.cx with fwPhase := 2, state := 2, fwValid := false, bootPort := 2 }
                      else { u.cx with fwPhase := 1 } }) := by
  have hcx : (writeUnder s 0 o.toNat d 0xFFFF).cx = s.cx := writeUnder_keeps (f := State.cx) Reported.cx (fun _ _ _ => rfl) s _ _ _ _
  unfold execFwImagePacket imagePacket
  simp only [hrom, hstate, stagingBase, Nat.zero_add]
  rw [if_neg (not_or.mpr ⟨by simp, Nat.not_lt.mpr hfits⟩)]
  cases last <;> rfl

/-! ### STAGED (R490) -/

/-- A message to every member leaves of the ring interface all but its links. -/
theorem broadcast_ri {β : Type} {f : Ri → β} (hports : ∀ (r : Ri) ports, f { r with ports := ports } = f r) (s : State) (kind : Nat)
    (words : List Nat) (data : List Byte) : f (broadcast s kind words data).ri = f s.ri := by
  unfold broadcast
  split
  · refine forEach_keeps (fun s => f s.ri) _ _ (fun s p => ?_) s
    split
    · rfl
    · exact sendMessage_keeps (f := fun s => f s.ri) (fun _ _ _ => hports _ _) (fun _ _ => rfl) s _ _ _ _
  · rfl

@[simp] theorem ringCount_broadcast (s : State) (kind : Nat) (words : List Nat) (data : List Byte) :
    ringCount (broadcast s kind words data) = ringCount s :=
  broadcast_ri (f := fun r : Ri => if r.valid then r.count else 1) (fun _ _ => rfl) s kind words data

section
variable {s : State} {img : ImageInfo} (hho : s.cx.hoState = 1) (hok : s.cx.stageOk = true) (hhf : isHeadframe s = true)
include hho hok hhf

/-- Every member has passed: STAGED, which the members are told. -/
theorem execFwStaged_all (hstaged : s.cx.staged = some img) {l : List (BitVec 6 × BitVec 8)} (hpass : ∀ e ∈ l, e.2 = 0)
    (hall : ringCount s ≤ (((l.filter (fun r => r.1.toNat != s.ri.position)).map (fun r => r.1.toNat)).eraseDups).length + 1) :
    execFwStaged l s = .next (raiseEvent (broadcast { s with cx := { s.cx with
      hoState := 2, hoResult := 0, hoMembers := ringCount s } } 0x93 [5, ringCount s]) 1 0x06
      (info [(4, img.version.toNat), (1, ringCount s)])) := by
  have hnone : l.find? (fun r => r.2 != 0) = none := List.find?_eq_none.mpr (fun e he => by simp [hpass e he])
  have hcx : (broadcast { s with cx := { s.cx with hoState := 2, hoResult := 0, hoMembers := ringCount s } } 0x93 [5, ringCount s]).cx =
      { s.cx with hoState := 2, hoResult := 0, hoMembers := ringCount s } := (reported_sent (sent_broadcast _ _ _ _)).cx
  unfold execFwStaged
  rw [if_neg (by simp [hho, hok, hhf]), hnone]
  dsimp only
  rw [if_neg (Nat.not_lt.mpr hall), hcx]
  dsimp only
  rw [hstaged]
  dsimp only
  rw [ringCount_broadcast]
  rfl

/-- Some members are still checking. -/
theorem execFwStaged_some {l : List (BitVec 6 × BitVec 8)} (hpass : ∀ e ∈ l, e.2 = 0)
    (hsome : (((l.filter (fun r => r.1.toNat != s.ri.position)).map (fun r => r.1.toNat)).eraseDups).length + 1 < ringCount s) :
    execFwStaged l s = .next { s with cx := { s.cx with
      hoMembers := (((l.filter (fun r => r.1.toNat != s.ri.position)).map (fun r => r.1.toNat)).eraseDups).length + 1 } } := by
  have hnone : l.find? (fun r => r.2 != 0) = none := List.find?_eq_none.mpr (fun e he => by simp [hpass e he])
  unfold execFwStaged
  rw [if_neg (by simp [hho, hok, hhf]), hnone]
  exact congrArg _ (if_pos hsome)

/-- A member has failed: FAILED everywhere. -/
theorem execFwStaged_failed (p : BitVec 6) {c : BitVec 8} (hc : c ≠ 0) : execFwStaged [(p, c)] s = .next (broadcast { s with
    cx := { s.cx with hoState := 5, hoResult := c.toNat, staged := none, stageOk := false } } 0x93 [3, c.toNat]) := by
  have hfound : [(p, c)].find? (fun r => r.2 != 0) = some (p, c) := by simpa using hc
  unfold execFwStaged
  rw [if_neg (by simp [hho, hok, hhf]), hfound]

end

/-! ### The handoff (R491-R495) -/

section
variable {s : State} (hhf : isHeadframe s = true) {v : BitVec 32}
include hhf

/-- ACTIVATE of a staged image waits for quiet time; the members are told, and quiet members with no set admitted have it pending. -/
theorem writeHandoff_activate (hact : v.getLsbD 31 = true) (hno : v.getLsbD 30 = false) (hho : s.cx.hoState = 2) :
    writeHandoff s (.pf0 false) v.toNat =
      (let u := broadcast { s with cx := { s.cx with hoState := 3, quietMembers := if quiet s then [s.ri.position] else [] } } 0x93 [1]
       if planAdmitted u = false ∧ allQuiet u = true then pendHandoff u else u) := by
  unfold writeHandoff
  rw [if_neg (not_or.mpr ⟨fun h => h rfl, by rw [hhf]; decide⟩)]
  simp only [bit_toNat, hact, hno, hho, Bool.not_eq_true', Bool.false_eq_true, false_and, and_self, if_false, if_true]

/-- DISCARD of a staged image discards it here and at the members. -/
theorem writeHandoff_discard (hno : v.getLsbD 31 = false) (hdis : v.getLsbD 30 = true) (hho : s.cx.hoState = 2 ∨ s.cx.hoState = 3) :
    writeHandoff s (.pf0 false) v.toNat = broadcast (discardStaged s 1) 0x93 [2] := by
  unfold writeHandoff
  rw [if_neg (not_or.mpr ⟨fun h => h rfl, by rw [hhf]; decide⟩)]
  simp only [bit_toNat, hno, hdis, hho, Bool.false_eq_true, false_and, if_false, true_and, if_true]

end

/-- A member's quiet time as the headframe records it. -/
theorem execQuietTimeReached_head {s : State} {p : BitVec 6} (hho : s.cx.hoState = 3) (hhf : isHeadframe s = true)
    (hother : p.toNat ≠ s.ri.position) :
    (s.cx.quietMembers.contains p.toNat = false →
      execQuietTimeReached p true s = .next (let u := { s with cx := { s.cx with quietMembers := s.cx.quietMembers ++ [p.toNat] } }
        if planAdmitted s = false ∧ s.cx.hoPending = false ∧ allQuiet u = true then pendHandoff u else u)) ∧
    execQuietTimeReached p false s = .next { s with cx := { s.cx with
      hoDeferrals := s.cx.hoDeferrals.bump (sclk s) 255 1, quietMembers := s.cx.quietMembers.filter (· != p.toNat) } } := by
  have hown : (p.toNat == s.ri.position) = false := beq_eq_false_iff_ne.mpr hother
  refine ⟨fun hnew => congrArg Host.Outcome.next ?_, congrArg Host.Outcome.next ?_⟩
  · simp only [hho, hown, hhf, hnew]
    simp [planAdmitted]
  · simp [hho, hown, hhf]

/-- A pending handoff starts on a device below HOT, with no set admitted or at a boundary of the halt. -/
theorem execHandoffStart_due {s : State} {img : ImageInfo} (hpending : s.cx.hoPending = true) (hstate : s.cx.state = 3)
    (hstaged : s.cx.staged = some img) (hlevel : level s < 2) (hpower : powerEmergency s = false)
    (hplan : planAdmitted s = false ∨ (s.sq.verdict = 3 ∧ s.sq.haltHandoff = true ∧ s.sq.edgeAt = some s.clock)) :
    execHandoffStart s = .next (loadKernel { s with handoff := some (handoffBlock s), cx := { s.cx with
      state := 4, hoState := 4, hoPending := true, hoStart := s.power.rtb, previous := s.cx.running } } 0) := by
  refine congrArg Host.Outcome.next (if_neg ?_)
  rcases hplan with hplan | ⟨hverdict, hhalt, hedge⟩
  · simp [hpending, hstate, hstaged, hlevel, hpower, hplan]
  · simp [hpending, hstate, hstaged, hlevel, hpower, hverdict, hhalt, hedge]

/-- A member's report of completion is recorded by the headframe, which ends the handoff when every member has reported to its new image. -/
theorem execHandoffDone_head {s : State} {p : BitVec 6} (hgo : s.cx.state = 4 ∨ s.cx.hoPending = true) (hhf : isHeadframe s = true)
    (hother : p.toNat ≠ s.ri.position) (hnew : s.cx.hoDone.contains p.toNat = false) :
    let u := { s with cx := { s.cx with hoDone := s.cx.hoDone ++ [p.toNat] } }
    execHandoffDone p false s =
      .next (if s.cx.state = 4 ∧ (upTo (ringCount s)).all (fun q => u.cx.hoDone.contains q) = true then handoffFinish u else u) := by
  have hown : (p.toNat == s.ri.position) = false := beq_eq_false_iff_ne.mpr hother
  have hmay : (s.cx.state != 4 && !(isHeadframe s && s.cx.hoPending)) = false := by
    rcases hgo with h | h <;> simp [h, hhf]
  intro u
  refine congrArg Host.Outcome.next ?_
  simp only [hown, hmay, hnew, if_neg hother]
  exact if_pos hhf

/-! ### What a handoff's end leaves -/

/-- What the end of a handoff decides, with the streams, which it leaves. -/
def handoffView (s : State) : Cx × Manifest × Option HandoffBlock × Nat × Tbl (Option Stream) :=
  (s.cx, s.manifest, s.handoff, s.store.mvc, s.streams)

theorem handoffView_of_reported {s t : State} (h : Reported s t) : handoffView t = handoffView s := by
  obtain ⟨_, _, _, _, _, _, _, _, _, _, _, _, _, _, _, _, rfl⟩ := h
  rfl

/-- A margin plan put in force touches HB, its stored copy and the groups. -/
theorem handoffView_putMargin (s : State) (m : Margin) : handoffView (putMargin s m) = handoffView s := by
  unfold putMargin
  extract_lets old hb store s1 s2
  have h2 : handoffView s2 = handoffView s1 := forEach_keeps handoffView _ _ (fun s g => by
    simp only [handoffView, modTg_cx, modTg_manifest, modTg_handoff, modTg_store, modTg_streams]) s1
  have h1 : handoffView s1 = handoffView s := by
    unfold handoffView
    rfl
  refine (forEach_keeps handoffView _ _ (fun s g => ?_) s2).trans (h2.trans h1)
  dsimp only
  split
  · exact handoffView_of_reported (reported_raiseEvent _ _ _ _ _)
  · rfl

/-- Both copies of the counter hold the value set. -/
theorem mvc_setMvc (t : RecStore) (v : Nat) : (t.setMvc v).mvc = v := by
  unfold RecStore.setMvc RecStore.mvc
  dsimp only
  split
  · simp
  · simp

/-- The counter advances to a higher SVN of the running image (R515). -/
theorem handoffView_advanceMvc {s : State} {r : ImageInfo} (hr : s.cx.running = some r) (cause : Nat) :
    handoffView (advanceMvc s cause) = (s.cx, s.manifest, s.handoff, max s.store.mvc r.svn, s.streams) := by
  unfold advanceMvc
  rw [hr]
  dsimp only
  split
  · rw [Nat.max_eq_left ‹_›]
    rfl
  · rw [handoffView_of_reported (reported_raiseEvent _ _ _ _ _), Nat.max_eq_right (by omega)]
    exact congrArg (fun n => (s.cx, s.manifest, s.handoff, n, s.streams)) (mvc_setMvc s.store r.svn)

/-- A finished handoff runs the staged image by its manifest, with the counter advanced to its SVN and the streams kept. -/
theorem handoffView_handoffFinish {s : State} {img old : ImageInfo} (himg : s.cx.staged = some img) (hold : s.cx.running = some old) :
    handoffView (handoffFinish s) = ({ s.cx with
      state := 3, hoState := 0, hoResult := 0, running := some img, version := img.version, staged := none, previous := none
      hoPending := false, hoDone := [], hoHalt := none, byBoot := false, stageOk := false, signals := (upTo 8).map (fun c => (c, s.clock)) },
      img.manifest, none, max s.store.mvc img.svn, s.streams) := by
  have hsent : Sent s (if isHeadframe s = true then broadcast s 0x95 [] else s) := by
    split
    · exact sent_broadcast s _ _ _
    · exact Sent.refl s
  obtain ⟨ri, out, hri⟩ := hsent
  unfold handoffFinish
  rw [himg, hold]
  dsimp only
  rw [hri]
  generalize hu : (putMargin _ _) = u
  have hview := congrArg handoffView hu
  rw [handoffView_putMargin] at hview
  have hevent := handoffView_of_reported (reported_raiseEvent u pgCx 0x07
    (info [(4, old.version.toNat), (4, img.version.toNat), (2, haltMs s), (1, 1)]) false)
  generalize raiseEvent u pgCx 0x07 _ = t at hevent ⊢
  have ht := hevent.trans hview.symm
  simp only [handoffView, Prod.mk.injEq] at ht
  obtain ⟨hcx, hmanifest, hblock, hmvc, hstreams⟩ := ht
  rw [handoffView_advanceMvc (r := img) (by rw [hcx]), hcx, hmanifest, hblock, hmvc, hstreams]

/-- A reverted handoff runs the old image again with RESULT 0x0C; the block is gone, counter and streams as before (R495). -/
theorem revertHandoff_facts {s : State} {img old : ImageInfo} (himg : s.cx.staged = some img) (hold : s.cx.previous = some old)
    (ordered : Bool) : ∃ kernel, handoffView (revertHandoff s ordered) = ({ s.cx with
      state := 3, hoState := 5, hoResult := 0x0C, running := some old, version := old.version, staged := none, previous := none
      hoPending := false, hoDone := [], hoHalt := none, stageOk := false, signals := (upTo 8).map (fun c => (c, s.clock)), sram := kernel },
      s.manifest, none, s.store.mvc, s.streams) := by
  unfold revertHandoff
  rw [himg, hold]
  dsimp only
  generalize hv : loadKernel _ residentBase = u
  obtain ⟨kernel, hload⟩ := loadKernel_eq { s with
    handoff := none
    cx := { s.cx with
      state := 3, hoState := 5, hoResult := 0x0C, running := some old, version := old.version, staged := none, previous := none
      hoPending := false, hoDone := [], hoHalt := none, stageOk := false, signals := (upTo 8).map (fun c => (c, s.clock)) }
    sq := { s.sq with haltHandoff := false } } residentBase
  have hsent : Sent u (if isHeadframe u = true then broadcast u 0x94 [] else if ordered then u else sendMessage u 0 0x96 [u.ri.position]) := by
    split_ifs
    · exact sent_broadcast u _ _ _
    · exact Sent.refl u
    · exact sent_sendMessage u _ _ _ _
  refine ⟨kernel, ?_⟩
  rw [handoffView_of_reported ((reported_sent hsent).trans (reported_raiseEvent _ _ _ _ _)), ← hv, hload]
  rfl

/-- The reversion is taken on a rejection, on the headframe's order, or after 30 ms without completion. -/
theorem execHandoffRevert_due {s : State} {why : BitVec 2} (hstate : s.cx.state = 4)
    (hwhy : why = 1 ∨ why = 2 ∨ (why = 0 ∧ s.cx.hoStart.toNat + 3000000 < s.power.rtb.toNat ∧ s.ri.position ∉ s.cx.hoDone)) :
    execHandoffRevert why s = .next (revertHandoff s (why == 2)) := by
  refine congrArg Host.Outcome.next (if_neg ?_)
  rcases hwhy with rfl | rfl | ⟨rfl, hlate, hsilent⟩
  · simp [hstate]
  · simp [hstate]
  · simp [hstate, rtb, hlate, hsilent]

end Sys2Proof.Machine

open Sys2Proof Sys2Proof.Machine

/-- Settles O54: each command by the branch its conditions choose, a boot by what the loading keeps, and the end of a handoff by what it sets.
The messages' kinds are those of log entry 21, what the block holds that of log entry 118. -/
theorem firmwareBootStagingHandoffAndWatchdog : Obligations.FirmwareBootStagingHandoffAndWatchdog := by
  refine ⟨fun s p v hw haction haddr hrom hstate => execBoot_rom hw haction haddr hrom hstate, ?verified, fun s base x => loadKernel_found,
    ?stage, fun s hstate hrom hho hhf => execFwVerifyDone_member hstate hrom hho hhf rfl, fun s code => rfl,
    fun s o d last hrom hstate hfits => execFwImagePacket_rom hrom hstate hfits, ?staged, ?handoff, fun s => rfl,
    fun s p hho hhf hother => execQuietTimeReached_head hho hhf hother,
    fun s img hpending hstate hstaged hlevel hpower hplan => execHandoffStart_due hpending hstate hstaged hlevel hpower hplan, ?block, ?early,
    ?done, ?finish, ?revert, fun s c => rfl, ?watchdog⟩
  case verified =>
    intro s hstate hrom hport code
    refine ⟨_, execFwVerifyDone_rom hstate hrom hport, ?_⟩
    split
    · generalize himg : imgInfo s 0 = img
      generalize hu : loadKernel (copyBytes s 0 0 residentBase img.size) 0 = u
      have hkept := bootKept_bootAccept himg hu
      obtain ⟨kernel, hcx, hstore, howners⟩ := imageLoaded_facts hu
      simp only [bootKept, Prod.mk.injEq] at hkept
      obtain ⟨hpower, hcx', hstore', howners'⟩ := hkept
      exact ⟨hpower, by rw [hcx'], by rw [hcx'], by rw [hcx'], by rw [hcx'], hstore'.trans hstore, howners'.trans howners, by rw [hcx']⟩
    · rfl
  case stage =>
    intro s v a hw haction hstate hho
    have hexec := execStage_running hw haction hstate
    refine ⟨fun hhf => hexec.trans (congrArg _ (stageDoorbell_member hstate hho hhf _)), fun hhf => ?_⟩
    obtain ⟨hrefused, hcopied⟩ := stageDoorbell_head hstate hho hhf (addr := a) rfl
    exact ⟨fun hno => hexec.trans (congrArg _ (hrefused hno)), fun hyes => hexec.trans (congrArg _ (hcopied hyes))⟩
  case staged =>
    intro s img hho hok hhf hstaged
    exact ⟨fun l hpass => ⟨fun hall => execFwStaged_all hho hok hhf hstaged hpass hall, fun hsome => execFwStaged_some hho hok hhf hpass hsome⟩,
      fun p c hc => execFwStaged_failed hho hok hhf p hc⟩
  case handoff =>
    intro s v hw hhf
    have htaken {i : Nat} (h : v.getLsbD i = true) : (mayWrite s (.pf0 false) pgCx && bit v.toNat i) = true := by
      rw [show mayWrite s (.pf0 false) pgCx = true from hw, bit_toNat, h]
      rfl
    exact ⟨fun hact hno hho => congrArg Host.Outcome.next ((if_pos (htaken hact)).trans (writeHandoff_activate hhf hact hno hho)),
      fun hno hdis hho => congrArg Host.Outcome.next ((if_pos (htaken hdis)).trans (writeHandoff_discard hhf hno hdis hho))⟩
  case block =>
    intro s r hr
    refine ⟨?_, rfl, rfl, rfl, rfl, rfl, rfl, rfl, rfl⟩
    show (s.cx.running.map (·.handoffOut)).getD 1 = _
    rw [hr]
    rfl
  case early =>
    intro s p hstate hpending hhf hother hnew
    exact (execHandoffDone_head (.inr hpending) hhf hother hnew).trans (congrArg _ (if_neg (fun h => hstate h.1)))
  case done =>
    intro s p hstate hhf hother hnew u
    exact (execHandoffDone_head (.inl hstate) hhf hother hnew).trans (congrArg _ (if_congr (and_iff_right hstate) rfl rfl))
  case finish =>
    intro s img old himg hold
    have hview := handoffView_handoffFinish himg hold
    simp only [handoffView, Prod.mk.injEq] at hview
    obtain ⟨hcx, hmanifest, hblock, hmvc, hstreams⟩ := hview
    rw [hcx]
    exact ⟨rfl, rfl, rfl, rfl, hblock, hmanifest, hmvc, hstreams⟩
  case revert =>
    intro s why img old hstate himg hold hwhy
    obtain ⟨kernel, hview⟩ := revertHandoff_facts himg hold (why == 2)
    simp only [handoffView, Prod.mk.injEq] at hview
    obtain ⟨hcx, -, hblock, hmvc, hstreams⟩ := hview
    refine ⟨_, execHandoffRevert_due hstate hwhy, ?_⟩
    rw [hcx]
    exact ⟨rfl, rfl, rfl, rfl, rfl, rfl, hblock, hmvc, hstreams⟩
  case watchdog =>
    intro s c habove hruns hsilent
    exact congrArg Host.Outcome.next (if_neg (by simp only [msCycles]; omega))
end

section
/-! SUPPORT. The health block: calibrations of groups and converters, ageing measures, envelopes and the margin plan (R552, R555, R556,
R558-R560, R578, R579, R581-R583, R592). -/

namespace Sys2Proof.Machine

/-! ### Walks over groups -/

theorem getTg_congr {s t : State} (h : t.tgs = s.tgs) (g : Nat) : getTg t g = getTg s g := by
  unfold getTg
  rw [h]

/-- A walk that changes groups alike, by a change that once made stays made, changes the groups it visits and no other. -/
theorem getTg_forEach_modTg {s : State} {l : List Nat} {F : State → Tg → Tg} (hF : ∀ s g f, F (modTg s g f) = F s)
    (hidem : ∀ s t, F s (F s t) = F s t) (hwf : tblWf {} s.tgs = true) (g : Nat) :
    getTg (forEach l (fun s h => modTg s h (F s)) s) g = if g ∈ l then F s (getTg s g) else getTg s g := by
  induction l generalizing s with
  | nil => rfl
  | cons a l ih =>
    have hrest := ih (s := modTg s a (F s)) (tblWf_mod hwf a _)
    rw [hF] at hrest
    refine hrest.trans ?_
    by_cases hg : g = a
    · subst a
      rw [getTg_modTg hwf, hidem]
      simp
    · rw [getTg_modTg_ne _ hg]
      simp [hg]

/-! ### Calibration of a group (R552, R555, R581) -/

/-- An enabled group that is not calibrating notes that and when its calibration became due, and its temperature. -/
theorem getTg_startCal {s : State} {g : Nat} (cause : Nat) (hen : tgEnabled s g = true) (hidle : (getTg s g).calActive = false)
    (hwf : tblWf {} s.tgs = true) : getTg (startCal s g cause) g = { getTg s g with
      calActive := true, calDue := true, calCause := cause, calDueAt := s.clock, calLate := false, calStartTemp := groupTemp s g } := by
  unfold startCal
  rw [if_neg (by simp [hen, hidle])]
  exact getTg_modTg (s := { s with tiles := _ }) hwf g _

theorem getTg_startCal_ne (s : State) {g h : Nat} (cause : Nat) (hne : h ≠ g) : getTg (startCal s g cause) h = getTg s h := by
  unfold startCal
  split
  · rfl
  · exact getTg_modTg_ne (s := { s with tiles := _ }) _ hne

/-- A group that is disabled or calibrating starts none. -/
theorem startCal_none {s : State} {g : Nat} (cause : Nat) (h : tgEnabled s g = false ∨ (getTg s g).calActive = true) :
    startCal s g cause = s := by
  unfold startCal
  rw [if_pos (by rcases h with h | h <;> simp [h])]

/-- Calibration has been reached and the firmware runs (R551, R623). -/
theorem calAllowed_of {s : State} (hpower : 6 ≤ s.power.state.code) (hcx : s.cx.state ≠ 5) : calAllowed s = true := by
  simp [calAllowed, hpower, hcx]

/-- A calibration that has taken its shots and found no dead converter is finished. -/
theorem execCalDone_finished {s : State} {g : BitVec 6} (moved : Bool) (hactive : (getTg s g.toNat).calActive = true)
    (hshots : uncalibrated s g.toNat = 0) : execCalDone g [] moved s = .next (
      let t := finishGroupCal s g.toNat
      if t.power.state = .calibrating ∧ moved = true ∧ (getTg t g.toNat).startCals < 63
      then modTg (startCal t g.toNat 4) g.toNat (fun t => { t with startCals := t.startCals + 1 }) else t) := by
  unfold execCalDone
  refine congrArg Host.Outcome.next ((if_neg ?_).trans rfl)
  simp [hactive, hshots]

/-- What a tile's finished calibration leaves alone. -/
theorem finishTileCal_keeps {β : Type} {f : State → β} (htile : ∀ s i g, f (modTile s i g) = f s)
    (hfree : ∀ (s : State) n, f { s with free := n } = f s) (s : State) (i : Nat) : f (finishTileCal s i) = f s := by
  unfold finishTileCal
  extract_lets t draw gamma o w g temp s1 s2
  have h2 : f s2 = f s := (hfree _ _).trans (htile _ _ _)
  split
  · exact h2
  · split
    · exact ((htile _ _ _).trans (htile _ _ _)).trans h2
    · exact h2

/-- The drift noted after a calibration stands apart from the groups, from HB's counts and from the margin in force. -/
theorem noteDrift_counted (s : State) (n : Nat) (r : BitVec 64) :
    let t := noteDrift { s with hb := { s.hb with calCount := n, calLast := r } }
    t.tgs = s.tgs ∧ t.hb.margin = s.hb.margin ∧ t.hb.calCount = n ∧ t.hb.calLast = r := by
  simp only [noteDrift, and_self]

/-- A finished group calibration is counted and noted, in the group and in HB; the next begins only if the temperature has moved too far. -/
theorem finishGroupCal_facts {s : State} {g : Nat} (hwf : tblWf {} s.tgs = true)
    (hsteady : s.hb.margin.dtcal * 16 ≥ 10 * (groupTemp s g - (getTg s g).calStartTemp).natAbs) :
    getTg (finishGroupCal s g) g = { getTg s g with
      calActive := false, calDue := false, calCount := min 0xFFFFFFFF ((getTg s g).calCount + 1), calLast := s.power.rtb
      lastCalTemp := groupTemp s g } ∧
    (finishGroupCal s g).hb.calCount = min 0xFFFFFFFF (s.hb.calCount + 1) ∧ (finishGroupCal s g).hb.calLast = s.power.rtb := by
  unfold finishGroupCal
  extract_lets cause temp s1 s2 hb s3 s4 t
  have htiles : s1.tgs = s.tgs ∧ s1.hb = s.hb ∧ s1.power = s.power :=
    ⟨forEach_keeps State.tgs _ _ (finishTileCal_keeps (fun _ _ _ => rfl) (fun _ _ => rfl)) s,
      forEach_keeps State.hb _ _ (finishTileCal_keeps (fun _ _ _ => rfl) (fun _ _ => rfl)) s,
      forEach_keeps State.power _ _ (finishTileCal_keeps (fun _ _ _ => rfl) (fun _ _ => rfl)) s⟩
  obtain ⟨htgs, hhb, hpower⟩ := htiles
  obtain ⟨hgroups, hmargin, hcount, hlast⟩ : s3.tgs = s2.tgs ∧ s3.hb.margin = s2.hb.margin ∧
    s3.hb.calCount = min 0xFFFFFFFF (s2.hb.calCount + 1) ∧ s3.hb.calLast = s2.power.rtb := noteDrift_counted s2 _ _
  have hnoted : s2.hb = s.hb ∧ s2.power = s.power := ⟨(modTg_hb s1 g _).trans hhb, (modTg_power s1 g _).trans hpower⟩
  have hgroup : t = { getTg s g with
      calActive := false, calDue := false, calCount := min 0xFFFFFFFF ((getTg s g).calCount + 1), calLast := s.power.rtb
      lastCalTemp := groupTemp s g } := by
    have hread := getTg_modTg (s := s1) (by rw [htgs]; exact hwf) g (fun t => { t with
      calActive := false, calDue := false, calCount := min 0xFFFFFFFF (t.calCount + 1), calLast := s1.power.rtb, lastCalTemp := temp })
    refine (getTg_congr ((raiseEvent_tgs s3 _ _ _ _).trans hgroups) g).trans (hread.trans ?_)
    rw [getTg_congr htgs, hpower]
  have hreported : s4.hb = s3.hb := raiseEvent_hb _ _ _ _ _
  have hnext : ¬10 * (temp - t.calStartTemp).natAbs > 16 * s4.hb.margin.dtcal := by
    rw [hgroup, hreported, hmargin, hnoted.1]
    dsimp only
    omega
  rw [if_neg hnext, hreported, hcount, hlast, hnoted.1, hnoted.2]
  exact ⟨hgroup, rfl, rfl⟩

theorem bits_low (v n : Nat) : bits v 0 n = v % 2 ^ n := by
  rw [bits, Nat.pow_zero, Nat.div_one]

/-- A finished group calibration enters no power state. -/
theorem powerState_finishGroupCal (s : State) (g : Nat) : (finishGroupCal s g).power.state = s.power.state := by
  have hstart (u : State) : (startCal u g 1).power = u.power := by
    unfold startCal
    split
    · rfl
    · exact modTg_power _ _ _
  unfold finishGroupCal
  extract_lets cause temp s1 s2 hb s3 s4 t
  have hraised : s4.power.state = s3.power.state := (reported_raiseEvent _ _ _ _ _).powerState
  have htiles : s1.power = s.power := forEach_keeps State.power _ _ (finishTileCal_keeps (fun _ _ _ => rfl) (fun _ _ => rfl)) s
  have hnoted : s3.power = s2.power := by simp only [s3, noteDrift]
  have h4 : s4.power.state = s.power.state := by rw [hraised, hnoted, modTg_power, htiles]
  split
  · rw [hstart, h4]
  · exact h4

/-- HB_CAL_CMD with CAL alone, where calibration may run. -/
theorem writeCalCmd_cal {s : State} {v : BitVec 32} (hallowed : calAllowed s = true) (hwork : takesWork s 3 = true)
    (hcal : v.getLsbD 31 = true) (hself : v.getLsbD 30 = false) : writeCalCmd s v.toNat =
      forEach (if v.getLsbD 6 = true then upTo 64 else [v.toNat % 64]) (fun s g => startCal s g 3) s := by
  unfold writeCalCmd
  simp only [bit_toNat, hcal, hself, hallowed, show takesWork s pgHb = true from hwork, bits_low, Bool.false_eq_true, false_and, and_self,
    if_true, if_false]
  rfl

/-- HB_CAL_CMD with SELFCAL alone, where calibration may run. -/
theorem writeCalCmd_selfcal {s : State} {v : BitVec 32} (hallowed : calAllowed s = true) (hwork : takesWork s 3 = true)
    (hcal : v.getLsbD 31 = false) (hself : v.getLsbD 30 = true) : writeCalCmd s v.toNat =
      if planAdmitted s = true then s else { s with hb := { s.hb with selfcal := true } } := by
  unfold writeCalCmd
  simp only [bit_toNat, hcal, hself, hallowed, show takesWork s pgHb = true from hwork, Bool.false_eq_true, false_and, if_false]
  cases planAdmitted s <;> rfl

/-! ### Self-calibration (R556) -/

/-- Which groups are enabled depends on the pages and the manifest. -/
theorem enabledGroups_congr {s t : State} (hen : ∀ g, (getHdr t (pgTg g)).en = (getHdr s (pgTg g)).en) (hmanifest : t.manifest = s.manifest) :
    enabledGroups t = enabledGroups s := by
  simp only [enabledGroups, tgEnabled, hen, hmanifest]

/-- The state in which a self-calibration has ended and its enabled groups have noted the time. -/
def selfcalNoted (s : State) : State :=
  forEach (enabledGroups s) (fun s g => modTg s g (fun t => { t with selfcal := s.power.rtb.setWidth 32 }))
    { s with hb := { s.hb with selfcal := false } }

theorem getTg_selfcalNoted {s : State} (hwf : tblWf {} s.tgs = true) {g : Nat} (hg : g ∈ enabledGroups s) :
    getTg (selfcalNoted s) g = { getTg s g with selfcal := s.power.rtb.setWidth 32 } := by
  have hwalk := getTg_forEach_modTg (s := { s with hb := { s.hb with selfcal := false } }) (l := enabledGroups s)
    (F := fun s t => { t with selfcal := s.power.rtb.setWidth 32 }) (fun _ _ _ => rfl) (fun _ _ => rfl) hwf g
  rw [if_pos hg] at hwalk
  exact hwalk

/-- What the walk over the groups leaves alone. -/
theorem selfcalNoted_keeps {β : Type} {f : State → β} (htg : ∀ s g h, f (modTg s g h) = f s) (s : State) :
    f (selfcalNoted s) = f { s with hb := { s.hb with selfcal := false } } :=
  forEach_keeps f _ _ (fun s g => htg s g _) _

/-- A self-calibration that ends without failures outside the start raises 0x08. -/
theorem execSelfcalDone_clean {s : State} (hself : s.hb.selfcal = true) (hpower : s.power.state ≠ .calibrating) :
    execSelfcalDone [] s = .next (raiseEvent (selfcalNoted s) 3 0x08 (info [(1, (enabledGroups s).length), (2, 0)])) := by
  have hgroups : enabledGroups (selfcalNoted s) = enabledGroups s :=
    enabledGroups_congr (fun g => selfcalNoted_keeps (f := fun s => (getHdr s (pgTg g)).en) (fun _ _ _ => rfl) s)
      (selfcalNoted_keeps (f := State.manifest) (fun _ _ _ => rfl) s)
  have hstate : (raiseEvent (selfcalNoted s) 3 0x08 (info [(1, (enabledGroups s).length), (2, 0)])).power.state ≠ .calibrating := by
    rw [(reported_raiseEvent _ _ _ _ _).powerState, selfcalNoted_keeps (f := fun s => s.power.state) (fun _ _ _ => rfl) s]
    exact hpower
  unfold execSelfcalDone
  refine congrArg Host.Outcome.next ((if_neg (by rw [hself]; decide)).trans ?_)
  show (if (raiseEvent (selfcalNoted s) pgHb 0x08 (info [(1, (enabledGroups (selfcalNoted s)).length), (2, 0)])).power.state = .calibrating
    then _ else raiseEvent (selfcalNoted s) pgHb 0x08 (info [(1, (enabledGroups (selfcalNoted s)).length), (2, 0)])) = _
  rw [hgroups]
  exact if_neg hstate

/-! ### Envelopes (R578, R579, R583) -/

theorem boundsOk_iff {lo hi least most : Nat} : boundsOk lo hi least most = true ↔ least ≤ lo ∧ lo ≤ hi ∧ hi ≤ most := by
  simp only [boundsOk, Bool.and_eq_true, decide_eq_true_eq, and_assoc]

/-- A write of HB_CAL_DTCAL. -/
theorem writeDtcal_eq (s : State) (v : Nat) : writeDtcal s v = if 5 ≤ v % 128 ∧ v % 128 ≤ v / 256 % 128 ∧ v / 256 % 128 ≤ 100
    then reclip { s with hb := { s.hb with dtcalLo := v % 128, dtcalHi := v / 256 % 128 } } false else s := by
  simp only [writeDtcal, dtcalOk, boundsOk_iff, bits_low]
  rfl

/-- A write of HB_CAL_MAX_INTERVAL. -/
theorem writeInterval_eq (s : State) (v : Nat) : writeInterval s v =
    if 60 ≤ v % 1024 ∧ v % 1024 ≤ v / 1024 % 1024 ∧ v / 1024 % 1024 ≤ 600
    then reclip { s with hb := { s.hb with intLo := v % 1024, intHi := v / 1024 % 1024 } } false else s := by
  simp only [writeInterval, intervalOk, boundsOk_iff, bits_low]
  rfl

/-- A write of HB_MARGIN_ENV0. -/
theorem writeEnv_zero (s : State) (v : Nat) : writeEnv s false v =
    if v / 65536 % 128 ≤ v / 16777216 % 128 ∧ v / 16777216 % 128 ≤ 100 ∧ 8 ≤ v % 32 ∧ v % 32 ≤ v / 256 % 32 ∧ v / 256 % 32 ≤ 25
    then reclip { s with hb := { s.hb with
      guardHi := v / 16777216 % 128, guardLo := v / 65536 % 128, tolHi := v / 256 % 32, tolLo := v % 32 } } true else s := by
  have hok : envOk false v = true ↔ v / 65536 % 128 ≤ v / 16777216 % 128 ∧ v / 16777216 % 128 ≤ 100 ∧ 8 ≤ v % 32 ∧
      v % 32 ≤ v / 256 % 32 ∧ v / 256 % 32 ≤ 25 := by
    simp [envOk, boundsOk_iff, bits, and_assoc]
  unfold writeEnv
  rw [bits_low]
  split
  · rw [if_neg (fun h => by simp_all)]
  · rw [if_pos (hok.mp (by simp_all))]
    rfl

/-- A write of HB_MARGIN_ENV1. -/
theorem writeEnv_one (s : State) (v : Nat) : writeEnv s true v =
    if v / 65536 % 4 ≤ v / 16777216 % 4 ∧ v / 16777216 % 4 ≤ 2 ∧ v % 32 ≤ v / 256 % 32 ∧ v / 256 % 32 ≤ 16
    then reclip { s with hb := { s.hb with
      derateHi := v / 16777216 % 4, derateLo := v / 65536 % 4, reserveHi := v / 256 % 32, reserveLo := v % 32 } } true else s := by
  have hok : envOk true v = true ↔ v / 65536 % 4 ≤ v / 16777216 % 4 ∧ v / 16777216 % 4 ≤ 2 ∧ v % 32 ≤ v / 256 % 32 ∧
      v / 256 % 32 ≤ 16 := by
    simp [envOk, boundsOk_iff, bits, and_assoc]
  unfold writeEnv
  rw [bits_low]
  split
  · rw [if_neg (fun h => by simp_all)]
  · rw [if_pos (hok.mp (by simp_all))]
    rfl

/-! ### The margin plan (R559, R560, R582) -/

/-- A margin plan put in force stands in HB and in the record store, and its DERATE in every group. -/
theorem putMargin_keeps {β : Type} {f : State → β} (htg : ∀ s g h, f (modTg s g h) = f s)
    (hevent : ∀ s p c i, f (raiseEvent s p c i) = f s) (s : State) (m : Margin) :
    f (putMargin s m) = f { s with hb := { s.hb with margin := m }, store := { s.store with margin := m } } := by
  unfold putMargin
  refine (forEach_keeps f _ _ (fun s g => ?_) _).trans (forEach_keeps f _ _ (fun s g => htg s g _) _)
  dsimp only
  split
  · exact hevent _ _ _ _
  · rfl

theorem putMargin_hb (s : State) (m : Margin) : (putMargin s m).hb = { s.hb with margin := m } :=
  putMargin_keeps (f := State.hb) (fun _ _ _ => rfl) (fun _ _ _ _ => raiseEvent_hb _ _ _ _ _) s m

theorem putMargin_store (s : State) (m : Margin) : (putMargin s m).store = { s.store with margin := m } :=
  putMargin_keeps (f := State.store) (fun _ _ _ => rfl) (fun _ _ _ _ => (reported_raiseEvent _ _ _ _ _).store) s m

theorem derate_putMargin {s : State} (m : Margin) (hwf : tblWf {} s.tgs = true) {g : Nat} (hg : g < 64) :
    (getTg (putMargin s m) g).derate = m.derate := by
  unfold putMargin
  extract_lets old hb store s1 s2
  have hwalk : getTg s2 g = { getTg s g with derate := m.derate } :=
    (getTg_forEach_modTg (s := s1) (F := fun _ t => { t with derate := m.derate }) (fun _ _ _ => rfl) (fun _ _ => rfl) hwf g).trans
      (if_pos (List.mem_range.mpr hg))
  refine (congrArg Tg.derate (?_ : _ = getTg s2 g)).trans (congrArg Tg.derate hwalk)
  refine forEach_keeps (fun s => getTg s g) _ _ (fun s h => ?_) s2
  dsimp only
  split
  · exact congrArg (tblGet {} · g) (raiseEvent_tgs _ _ _ _ _)
  · rfl

theorem reported_marginEvent (s : State) (cause : Nat) : Reported s (marginEvent s cause) := by
  unfold marginEvent
  exact reported_raiseEvent _ _ _ _ _

/-- A clipped plan is stored, and reported where its envelope asks for it. -/
theorem reclip_changed {s : State} (h : clipMargin s s.hb.margin ≠ s.hb.margin) (event : Bool) :
    Reported (putMargin s (clipMargin s s.hb.margin)) (reclip s event) := by
  unfold reclip
  rw [if_neg h]
  exact reported_ite (reported_marginEvent _ _) (Reported.refl _)

theorem reclip_same {s : State} (h : clipMargin s s.hb.margin = s.hb.margin) (event : Bool) : reclip s event = s := by
  unfold reclip
  rw [if_pos h]

/-- A new plan is the clipped plan of R559, and its hours count anew. -/
theorem replan_facts (s : State) (cause : Nat) : (replan s cause).hb.margin = clipMargin s (planMargin s) ∧
    (replan s cause).store.margin = clipMargin s (planMargin s) ∧ (replan s cause).hb.hours = 0 := by
  unfold replan
  extract_lets u hb
  have h := reported_marginEvent { u with hb := { hb with hours := 0, replanPending := false } } cause
  have hhb : hb = { s.hb with margin := clipMargin s (planMargin s) } := putMargin_hb s _
  have hstore : u.store = { s.store with margin := clipMargin s (planMargin s) } := putMargin_store s _
  rw [h.hb, h.store, hhb, hstore]
  exact ⟨rfl, rfl, rfl⟩

/-- An accepted write of HB_MARGIN_PLAN with REPLAN set. -/
theorem execReplan_taken {s : State} {p : Bool} {v : BitVec 32} (hw : mayWrite s (.pf0 p) 3 = true) (hwork : takesWork s 3 = true)
    (hset : v.getLsbD 31 = true) : execReplan (.pf0 p) v s =
      .next (if 3 ≤ level s then { s with hb := { s.hb with replanPending := true } } else replan s 2) := by
  have hgo : (mayWrite s (.pf0 p) pgHb && (Accessor.pf0 p != .mgmt)) = true := by
    rw [show mayWrite s (.pf0 p) pgHb = true from hw]
    rfl
  refine congrArg Host.Outcome.next ((if_pos hgo).trans (if_neg ?_))
  rw [bit_toNat, hset, show takesWork s pgHb = true from hwork]
  decide

end Sys2Proof.Machine

open Sys2Proof Sys2Proof.Machine

/-- Settles O56: calibrations by when they start and what they note, envelopes by their ranges, the plan by what puts it in force. A write of
an envelope clips at once (log entry 93); D_ro is in hundredths of a per cent with floor 0 (log entry 95). -/
theorem calibrationAgeingAndMarginPlan : Obligations.CalibrationAgeingAndMarginPlan := by
  refine ⟨?interval_expiry,
    fun s g cause hen hidle hwf => ⟨getTg_startCal cause hen hidle hwf, fun h hne => getTg_startCal_ne s cause hne⟩,
    fun s g cause h => startCal_none cause h, ?done, ?finished, ?late, ?command, ?selfcal, ?dtcal, ?interval, ?env0, ?env1, ?reclip,
    fun s m => ⟨congrArg Hb.margin (putMargin_hb s m), congrArg RecStore.margin (putMargin_store s m), fun hwf g hg => derate_putMargin m hwf hg⟩,
    ?ageing, fun s => rfl, replan_facts, ?schedule, ?replan⟩
  case interval_expiry =>
    intro s g t hpower hcx hcount hlate
    exact congrArg Host.Outcome.next (if_pos ⟨calAllowed_of hpower hcx, hcount, hlate⟩)
  case done =>
    intro s g hactive hshots
    have hdone := fun moved => execCalDone_finished moved hactive hshots
    have hstate := powerState_finishGroupCal s g.toNat
    refine ⟨fun hpower => ?_, fun hpower => ⟨?_, fun hfew => ?_⟩⟩
    · exact (hdone false).trans (congrArg _ (if_neg (fun h => Bool.false_ne_true h.2.1)))
    · exact (hdone false).trans (congrArg _ (if_neg (fun h => Bool.false_ne_true h.2.1)))
    · exact (hdone true).trans (congrArg _ (if_pos ⟨hstate.trans hpower, rfl, hfew⟩))
  case finished =>
    intro s g hwf hsteady t
    obtain ⟨hgroup, hcount, hlast⟩ := finishGroupCal_facts hwf hsteady
    rw [show getTg t g = _ from hgroup]
    exact ⟨rfl, rfl, rfl, rfl, hcount, hlast⟩
  case late =>
    intro s g t hdue hnew hlate
    have hgo : ¬((!t.calDue) = true ∨ t.calLate = true ∨ s.clock < t.calDueAt + secCycles) := by
      simp only [hdue, hnew, secCycles]
      simp [hlate]
    exact ⟨_, congrArg Host.Outcome.next (if_neg hgo), fun hactive => if_pos hactive⟩
  case command =>
    intro s p v hw hwork hpower hcx
    have hallowed := calAllowed_of hpower hcx
    have htaken {i : Nat} (h : v.getLsbD i = true) : (mayWrite s (.pf0 p) pgHb && bit v.toNat i) = true := by
      rw [show mayWrite s (.pf0 p) pgHb = true from hw, bit_toNat, h]
      rfl
    refine ⟨fun hcal hself hone => ?_, fun hcal hself hall => ?_, fun hcal hself hplan => ?_, fun hcal hself hplan => ?_⟩
    · exact congrArg Host.Outcome.next ((if_pos (htaken hcal)).trans ((writeCalCmd_cal hallowed hwork hcal hself).trans (by rw [hone]; rfl)))
    · exact congrArg Host.Outcome.next ((if_pos (htaken hcal)).trans ((writeCalCmd_cal hallowed hwork hcal hself).trans (by rw [hall]; rfl)))
    · exact congrArg Host.Outcome.next ((if_pos (htaken hself)).trans
        ((writeCalCmd_selfcal hallowed hwork hcal hself).trans (if_neg (Bool.eq_false_iff.mp hplan))))
    · exact congrArg Host.Outcome.next ((if_pos (htaken hself)).trans ((writeCalCmd_selfcal hallowed hwork hcal hself).trans (if_pos hplan)))
  case selfcal =>
    intro s hself hpower
    exact ⟨selfcalNoted s, execSelfcalDone_clean hself hpower, selfcalNoted_keeps (f := State.hb) (fun _ _ _ => rfl) s,
      fun hwf g hg => getTg_selfcalNoted hwf hg⟩
  case dtcal =>
    intro s p v lo hi hw
    have hexec : execHbCalDtcal (.pf0 p) v s = .next _ := congrArg Host.Outcome.next ((if_pos hw).trans (writeDtcal_eq s v.toNat))
    exact ⟨fun hin => hexec.trans (congrArg _ (if_pos hin)), fun hout => hexec.trans (congrArg _ (if_neg hout))⟩
  case interval =>
    intro s p v lo hi hw
    have hexec : execHbCalMaxInterval (.pf0 p) v s = .next _ := congrArg Host.Outcome.next ((if_pos hw).trans (writeInterval_eq s v.toNat))
    exact ⟨fun hin => hexec.trans (congrArg _ (if_pos hin)), fun hout => hexec.trans (congrArg _ (if_neg hout))⟩
  case env0 =>
    intro s p v a b c d hw
    have hexec : execHbMarginEnv (.pf0 p) false v s = .next _ := congrArg Host.Outcome.next ((if_pos hw).trans (writeEnv_zero s v.toNat))
    exact ⟨fun hin => hexec.trans (congrArg _ (if_pos hin)), fun hout => hexec.trans (congrArg _ (if_neg hout))⟩
  case env1 =>
    intro s p v a b c d hw
    have hexec : execHbMarginEnv (.pf0 p) true v s = .next _ := congrArg Host.Outcome.next ((if_pos hw).trans (writeEnv_one s v.toNat))
    exact ⟨fun hin => hexec.trans (congrArg _ (if_pos hin)), fun hout => hexec.trans (congrArg _ (if_neg hout))⟩
  case reclip =>
    intro s e
    refine ⟨fun h => reclip_same h e, ?_, fun h => ?_⟩
    · by_cases h : clipMargin s s.hb.margin = s.hb.margin
      · rw [reclip_same h, h]
      · rw [(reclip_changed h e).hb, putMargin_hb]
    · rw [(reclip_changed h e).store, putMargin_store]
  case ageing =>
    intro s fs fu ts tu peaks hpower hfs hfu hzero hts htu
    exact congrArg Host.Outcome.next (if_neg (by
      rintro (h | h | h | h | h | h)
      · rw [hpower] at h
        cases h
      · exact h hfs
      · exact h hfu
      · exact hzero h
      · exact hts h
      · exact htu h))
  case schedule =>
    intro s hstate hlevel
    have hgo : ¬(s.hb.state = 0 ∨ 3 ≤ level s) := by omega
    exact ⟨fun hpending => congrArg Host.Outcome.next ((if_neg hgo).trans (if_pos hpending)),
      fun hnone hhours => congrArg Host.Outcome.next ((if_neg hgo).trans ((if_neg (Bool.eq_false_iff.mp hnone)).trans (if_pos hhours)))⟩
  case replan =>
    intro s p v hw hwork hset
    have hexec := execReplan_taken hw hwork hset
    exact ⟨fun hlow => hexec.trans (congrArg _ (if_neg (Nat.not_le.mpr hlow))), fun hcritical => hexec.trans (congrArg _ (if_pos hcritical))⟩
end

section
/-! SUPPORT. The commands and ends of assays, and the monitor converter (R561-R568, R584-R590). -/

namespace Sys2Proof.Machine

/-! ### Starting an assay (R566, R584) -/

/-- An accepted write of HB_ASSAY_CMD with START acts on the kind it names. -/
theorem assayCommand_start {s : State} {p : Bool} {v : BitVec 32} (hw : mayWrite s (.pf0 p) 3 = true) (hstart : v.getLsbD 31 = true) :
    assayCommand (.pf0 p) v (bits v.toNat 28 2) s = writeAssay s v.toNat := by
  unfold assayCommand
  rw [show mayWrite s (.pf0 p) pgHb = true from hw, bit_toNat, hstart]
  simp

section
variable {s : State} {v : Nat} (habort : bit v 30 = false) (hstart : bit v 31 = true) (hstate : s.hb.state ≠ 0)
  (hwork : takesWork s 3 = true)

include habort hstart hstate hwork

theorem writeAssay_busy (hbusy : s.hb.assay ≠ none) : writeAssay s v = { s with hb := { s.hb with assayCode := 2 } } := by
  have hsome : s.hb.assay.isSome = true := Option.isSome_iff_ne_none.mpr hbusy
  simp [writeAssay, habort, hstart, hstate, hwork, pgHb, hsome]

variable (hidle : s.hb.assay = none)

include hidle

theorem writeAssay_critical (hlevel : 3 ≤ level s) : writeAssay s v = assayRefuse s 7 := by
  simp [writeAssay, habort, hstart, hstate, hwork, pgHb, hidle, hlevel]

variable (hlevel : level s < 3)

include hlevel

/-- A relief tile that is named is taken if it is free. -/
theorem writeAssay_pattern (hkind : bits v 28 2 = 0) (hunit : bits v 20 8 < 64) (hen : tgEnabled s (bits v 20 8) = true)
    (hlo : 1024 ≤ bits v 9 11) (hhi : bits v 9 11 < 1088) :
    writeAssay s v = if (getRelief s (bits v 20 8) (bits v 9 11 - 1024)).state = 0
      then startPattern s { kind := 0, unit := bits v 20 8, tile := bits v 9 11, retire := bit v 8, startedAt := s.clock }
        (bits v 20 8) (bits v 9 11 - 1024)
      else assayRefuse s 3 := by
  have hnamed : bits v 9 11 ≠ 2047 := by omega
  unfold writeAssay
  simp only [habort, hstart, hstate, hwork, pgHb, hidle, hkind, hen, hnamed, Nat.not_le.mpr hlevel, Nat.not_le.mpr hunit,
    Nat.not_lt.mpr hlo, Nat.not_le.mpr hhi, if_true, if_false, Bool.not_true, Bool.false_eq_true, or_self, and_false,
    Option.isSome_none]
  by_cases hfree : (getRelief s (bits v 20 8) (bits v 9 11 - 1024)).state = 0
  · rw [if_pos hfree, if_pos hfree]
  · rw [if_neg hfree, if_neg hfree]

theorem writeAssay_badUnit (hkind : bits v 28 2 = 0) (hunit : 64 ≤ bits v 20 8) : writeAssay s v = assayRefuse s 5 := by
  simp [writeAssay, habort, hstart, hstate, hwork, pgHb, hidle, hkind, hlevel, hunit]

theorem writeAssay_replay {b : Binding} (hkind : bits v 28 2 = 1) (hunit : bits v 20 8 < 64) (htile : bits v 9 11 < 1024)
    (hen : tgEnabled s (bits v 20 8) = true) (hb : getBinding s (bits v 20 8) (bits v 9 11) = some b) (hbound : b.bound = true) :
    writeAssay s v = assayStart s
      { kind := 1, unit := bits v 20 8, tile := bits v 9 11, retire := bit v 8, startedAt := s.clock } := by
  simp [writeAssay, habort, hstart, hstate, hwork, pgHb, hidle, hkind, hlevel, hunit, htile, hen, hb, hbound]

theorem writeAssay_core (hkind : bits v 28 2 = 2) (hplan : planAdmitted s = false) (hen : ccEnabled s (bits v 20 8) = true) :
    writeAssay s v = assayStart s
      { kind := 2, unit := bits v 20 8, tile := bits v 9 11, retire := bit v 8, startedAt := s.clock } := by
  simp [writeAssay, habort, hstart, hstate, hwork, pgHb, hidle, hkind, hlevel, hplan, hen]

end

theorem Reported.jobs {s t : State} (h : Reported s t) : t.jobs = s.jobs := by
  obtain ⟨_, _, _, _, _, _, _, _, _, _, _, _, _, _, _, _, rfl⟩ := h
  rfl

theorem reported_checkReserve (s : State) (g was : Nat) : Reported s (checkReserve s g was) :=
  reported_ite (reported_raiseEvent _ _ _ _ _) (Reported.refl s)

/-- Of the jobs, the assays and the groups, a PATTERN assay adds its own and takes its relief tile. -/
theorem startPattern_parts (s : State) (a : Assay) (g j : Nat) : let t := startPattern s a g j
    t.hb = { s.hb with assayState := 1, assayCode := 0, assayExceed := 0, assayChecked := 0
                       assay := some { a with heldTile := some (tileIx g (1024 + j)) } } ∧
    t.jobs = s.jobs ++ [{ kind := 6, group := g, logical := 0xFFFF, tile := tileIx g (1024 + j) }] ∧
    t.tgs = (setRelief s g j { state := 3 } 5).tgs := by
  have hrep := reported_checkReserve (setRelief s g j { state := 3 } 5) g (reliefFree s g)
  have hhb : (checkReserve (setRelief s g j { state := 3 } 5) g (reliefFree s g)).hb = s.hb := hrep.hb
  have hjobs : (checkReserve (setRelief s g j { state := 3 } 5) g (reliefFree s g)).jobs = s.jobs := hrep.jobs
  refine ⟨?_, ?_, hrep.tgs⟩
  · simp only [startPattern, assayStart, hhb]
  · simp only [startPattern, assayStart, hjobs]

/-- A relief register that is set reads as it was set. -/
theorem getRelief_setRelief {s t : State} {g j n : Nat} {r : ReliefReg} (hwf : tblWf {} s.tgs = true)
    (hrelief : tblWf {} (getTg s g).relief = true) (ht : t.tgs = (setRelief s g j r n).tgs) :
    getRelief t g j = { r with seam := r.seam && r.state == 1 } := by
  have hset := getTg_modTg hwf g (fun x => { x with relief := tblSet {} x.relief j { r with seam := r.seam && r.state == 1 } })
  unfold getRelief
  rw [(getTg_congr ht g).trans hset]
  exact tblGet_set_self hrelief _ _

/-! ### The end of an assay (R567, R568, R585) -/

/-- An assay that holds no relief tile ends with its code, and nothing else changes. -/
theorem endAssay_unheld {s : State} {a : Assay} (ha : s.hb.assay = some a) (hheld : a.heldTile = none) (code exceed checked : Nat) :
    endAssay s code exceed checked = setAssayResult s code exceed checked := by
  unfold endAssay
  rw [ha]
  simp only [hheld]

/-- Ended, an assay leaves its result, and of the other health registers, the store and RTB nothing changes. -/
theorem endAssay_parts {s : State} {a : Assay} (ha : s.hb.assay = some a) (code exceed checked : Nat) :
    let t := endAssay s code exceed checked
    t.hb = (setAssayResult s code exceed checked).hb ∧ t.store = s.store ∧ t.power = s.power := by
  have hend : endAssay s code exceed checked = setAssayResult (a.heldTile.elim s (freeHeld s)) code exceed checked := by
    unfold endAssay
    rw [ha]
    dsimp only
    cases a.heldTile with
    | none => rfl
    | some i => rfl
  rw [hend]
  cases a.heldTile with
  | none => exact ⟨rfl, rfl, rfl⟩
  | some i => exact ⟨rfl, rfl, rfl⟩

theorem execHbAbort_only {s : State} {p : Bool} {v : BitVec 32} (hw : mayWrite s (.pf0 p) 3 = true) (hstart : v.getLsbD 31 = false)
    (habort : v.getLsbD 30 = true) : execHbAbort (.pf0 p) v s = .next (endAssay s 6 0 0) := by
  have hgo : (mayWrite s (.pf0 p) pgHb && bit v.toNat 30) = true := by
    rw [show mayWrite s (.pf0 p) pgHb = true from hw, bit_toNat, habort]
    rfl
  unfold execHbAbort writeAssay
  rw [if_pos hgo, bit_toNat, bit_toNat, hstart, habort, if_pos rfl, if_pos (.inl rfl)]

theorem execAssayNoInput_late {s : State} {a : Assay} (ha : s.hb.assay = some a) (hkind : a.kind = 1) (hseen : a.shotSeen = 0)
    (hlate : a.startedAt + 10 * 1600000000 ≤ s.clock) : execAssayNoInput s = .next (endAssay s 4 0 0) := by
  unfold execAssayNoInput
  rw [ha]
  exact congrArg Host.Outcome.next (if_pos ⟨hkind, hseen, hlate⟩)

theorem execAssayComplete_core {s : State} {a : Assay} (ha : s.hb.assay = some a) (hkind : a.kind = 2)
    (scalar memory vector matrix : List Bool) : execAssayComplete scalar memory vector matrix s = .next (
      let ks := scalar ++ memory ++ vector ++ matrix
      reportAssay (endAssay s (ofBool (ks.contains false)) 0 ks.length) a (decide (false ∈ ks))) := by
  unfold execAssayComplete
  rw [ha]
  simp [hkind]

/-- A tile assay that does not ask for retirement ends with the tally of its verdicts. -/
theorem execAssayComplete_tile {s : State} {a : Assay} {vs : List Nat} {shots : Nat} (ha : s.hb.assay = some a) (hkind : a.kind ≠ 2)
    (hverdicts : tileVerdicts s a = some (vs, shots)) (hretire : a.retire = false) (scalar memory vector matrix : List Bool) :
    execAssayComplete scalar memory vector matrix s = .next (
      let r := tally vs
      reportAssay (setAssayResult (endAssay { s with free := s.free + 1024 } 0 0 0) (ofBool r.2.2)
        (if r.2.1 = 0 then 0 else 1000 * r.1 / r.2.1) shots) a r.2.2) := by
  unfold execAssayComplete
  rw [ha]
  dsimp only
  rw [if_neg hkind, hverdicts]
  dsimp only
  rw [hretire, Bool.and_false, if_neg Bool.false_ne_true]

/-- An assay that has completed is recorded and reported with the result it ends with. -/
theorem reportAssay_ended {s t : State} (a : Assay) (P : Prop) [Decidable P] {code exceed checked : Nat} (hcode : code = if P then 1 else 0)
    (hhb : t.hb = (setAssayResult s code exceed checked).hb) (hstore : t.store = s.store) (hpower : t.power = s.power) :
    ∃ u, reportAssay t a (decide P) = raiseEvent u 3 (if P then 0x06 else 0x05) (info ([(1, a.kind), (1, a.unit), (2, a.tile)
        , (4, assayStatus u)] ++ if P then [(1, if a.retire then 1 else 0)] else [])) ∧
      u.hb = { s.hb with assayState := 2, assayCode := if P then 1 else 0, assayExceed := min 255 exceed
                         assayChecked := min 65535 checked, assay := none } ∧
      u.store.assays = (s.store.assays ++ [(s.power.rtb.toNat, assayStatus u)]).drop (s.store.assays.length + 1 - 64) := by
  refine ⟨{ t with store := { t.store with
    assays := (t.store.assays ++ [(rtb t, assayStatus t)]).drop (t.store.assays.length + 1 - 64) } }, ?_, ?_, ?_⟩
  · by_cases h : P
    · rw [if_pos h, if_pos h, decide_eq_true h]
      rfl
    · rw [if_neg h, if_neg h, decide_eq_false h]
      rfl
  · rw [← hcode]
    exact hhb
  · rw [hstore]
    unfold rtb
    rw [hpower]
    rfl

theorem assayStatus_eq (s : State) : assayStatus s = s.hb.assayState % 16 * 268435456 + s.hb.assayCode % 16 * 16777216 +
    s.hb.assayExceed % 256 * 65536 + s.hb.assayChecked % 65536 := by
  simp [assayStatus, field]

/-! ### Passes of the monitor converter (R562-R565) -/

/-- Where the page takes work, a pass starts with the table and the trigger as written. -/
theorem startPass_taken {s : State} (hwork : takesWork s 4 = true) : startPass s = { s with mc := { s.mc with
    running := true, entry := 0, seqLive := s.mc.seq, triggerLive := s.mc.trigger } } := by
  unfold startPass
  rw [if_neg (by simp [pgMc, hwork])]

section
variable {s : State} (hstate : s.mc.state ≠ 0) (hen : s.mc.en = true) (hcal : s.mc.calBusy = false)

include hstate hen hcal

theorem execMcPassStart_idle (hrun : s.mc.running = false) : execMcPassStart s = .next (startPass s) := by
  simp [execMcPassStart, hstate, hen, hcal, hrun]

/-- A trigger during a pass is counted, and reported once in a second. -/
theorem execMcPassStart_running (hrun : s.mc.running = true) : execMcPassStart s = .next (
    let u := { s with mc := { s.mc with
      overrun := s.mc.overrun.bump (sclk s) 255 1, ignored := s.mc.ignored + 1, overrunSec := some (s.power.rtb.toNat / 100000000) } }
    if s.mc.overrunSec = some (s.power.rtb.toNat / 100000000) then u else raiseEvent u 4 0x05 (info [(4, s.mc.ignored + 1)])) := by
  unfold execMcPassStart
  rw [if_neg (by simp [hstate, hen, hcal]), if_neg (by simp [hrun])]
  by_cases hsame : s.mc.overrunSec = some (s.power.rtb.toNat / 100000000)
  · simp [rtb, hsame]
  · simp [rtb, hsame, pgMc]

end

/-! ### The result of an entry (R564, R590) -/

/-- The mean of one conversion that is not negative is that conversion. -/
theorem mcMean_single {code : Int} (h : 0 ≤ code) : mcMean [code] = code := by
  have hround : roundAway code.natAbs 1 = code.natAbs := by
    unfold roundAway
    omega
  simp only [mcMean, List.sum_cons, List.sum_nil, Int.add_zero, List.length_singleton, hround]
  rw [if_neg (by omega)]
  omega

/-- A mean that fits twelve bits is the VALUE of an unsigned input, right-aligned. -/
theorem mcValue_unsigned {s : State} {input : Nat} {code : Int} (hdiff : mcDifferential input = false) (hleft : s.mc.left = false)
    (hlo : 0 ≤ code) (hhi : code ≤ 4095) : BitVec.ofNat 16 (mcValue s input code) = BitVec.ofInt 16 code := by
  have hvalue : mcValue s input code = code.toNat := by
    simp only [mcValue, hleft, hdiff, Bool.false_eq_true, if_false, twos]
    rw [Int.emod_eq_of_lt hlo (by norm_num; omega)]
  rw [hvalue, ← BitVec.ofInt_natCast, Int.toNat_of_nonneg hlo]

/-- The state in which the result of an entry of one conversion stands. -/
def entryStored (s : State) (code : Int) : State :=
  let r := mcResult s s.mc.entry
  { s with mc := { s.mc with results := tblSet {} s.mc.results s.mc.entry {
      valid := true, fresh := true, count := (r.count + 1) % 16384, cycle := sclk s, before := r.shown (sclk s)
      value := BitVec.ofInt 16 code } } }

/-- The state in which a pass has ended. -/
def passEnded (s : State) : State := { s with mc := { s.mc with running := false, entry := 0 } }

/-- How the converter goes on after entry `n`: at the last one the pass ends, and in FREE mode another starts at once. -/
def afterEntry (s : State) (n : Nat) (last : Bool) : State :=
  if last = true then if bits s.mc.trigger.toNat 30 2 = 0 then startPass (passEnded s) else passEnded s
  else { s with mc := { s.mc with entry := n + 1 } }

/-- The conversion of an unsigned entry gives its result; then the next entry follows, or the pass ends. -/
theorem execMcEntryDone_single {s : State} {code : Int} (hrun : s.mc.running = true) (hrepeat : bits (mcEntry s s.mc.entry) 16 8 = 0)
    (hdiff : mcDifferential (bits (mcEntry s s.mc.entry) 24 6) = false) (hlo : 0 ≤ code) (hhi : code ≤ 4095) (hleft : s.mc.left = false)
    (hentry : s.mc.entry < 31) : execMcEntryDone [code] s =
      .next (afterEntry (entryStored s code) s.mc.entry (bit (mcEntry s s.mc.entry) 31)) := by
  have hgo : ¬((!s.mc.running) = true ∨ [code].length ≠ bits (mcEntry s s.mc.entry) 16 8 + 1 ∨
      [code].any (fun c => decide (c < 0) || decide (4095 < c)) = true) := by
    simp [hrun, hrepeat, hlo, hhi]
  have hlast : s.mc.entry ≠ 31 := by omega
  unfold execMcEntryDone entryStored
  simp only [hdiff, Bool.false_eq_true, if_false, hlast, or_false]
  rw [if_neg hgo, mcMean_single hlo, mcValue_unsigned hdiff hleft hlo hhi]
  rfl

theorem startPass_results (s : State) : (startPass s).mc.results = s.mc.results := by
  unfold startPass
  split <;> rfl

/-- The results stand whichever way the converter goes on. -/
theorem afterEntry_results (s : State) (n : Nat) (last : Bool) : (afterEntry s n last).mc.results = s.mc.results := by
  unfold afterEntry
  split
  · split
    · exact startPass_results _
    · rfl
  · rfl

/-! ### Self-calibration (R565, R589, R593) -/

theorem execMcSelfcal_started {s : State} {p : Bool} {v : BitVec 32} (hw : mayWrite s (.pf0 p) 4 = true) (hwork : takesWork s 4 = true)
    (hcal : v.getLsbD 30 = true) (hset : v.getLsbD 31 = true) (hen : s.mc.en = true) : execMcSelfcal (.pf0 p) v s = .next { s with mc := {
      s.mc with lowPower := v.getLsbD 29, left := v.getLsbD 28, calBusy := true, running := false, entry := 0 } } := by
  have hgo : (mayWrite s (.pf0 p) pgMc && (Accessor.pf0 p != .mgmt) && bit v.toNat 30) = true := by
    rw [show mayWrite s (.pf0 p) pgMc = true from hw, bit_toNat, hcal]
    rfl
  unfold execMcSelfcal writeMcCtrl
  rw [if_pos hgo]
  simp only [bit_toNat, hcal, hset, hen, Bool.not_true, Bool.and_false, Bool.false_eq_true, if_false, true_and]
  exact congrArg Host.Outcome.next (if_pos hwork)

/-! ### Registers of the monitor converter with a reserved bit (R587, R588) -/

/-- A word less its bit `i` is the word with that bit masked out. -/
theorem ofNat_sub_bit (v : BitVec 32) {i : Nat} (hi : i < 32) :
    BitVec.ofNat 32 (v.toNat % 2 ^ 32 - if bit v.toNat i then 2 ^ i else 0) = v &&& ~~~(BitVec.twoPow 32 i) := by
  have hdisjoint : (v &&& ~~~(BitVec.twoPow 32 i)) &&& (v &&& BitVec.twoPow 32 i) = 0#32 := by
    ext j hj
    simp
    tauto
  have hsplit : v = (v &&& ~~~(BitVec.twoPow 32 i)) + (v &&& BitVec.twoPow 32 i) := by
    rw [BitVec.add_eq_or_of_and_eq_zero _ _ hdisjoint]
    ext j hj
    by_cases hji : j = i <;> simp [hji]
  rw [BitVec.and_twoPow] at hsplit
  rw [Nat.mod_eq_of_lt v.isLt, bit_toNat]
  cases hbit : v.getLsbD i with
  | false =>
    rw [hbit] at hsplit
    simpa using hsplit
  | true =>
    rw [hbit, if_pos rfl] at hsplit
    have hle : BitVec.twoPow 32 i ≤ v := by
      rw [BitVec.le_def, BitVec.toNat_twoPow_of_lt hi]
      exact Nat.ge_two_pow_of_testBit hbit
    rw [eq_sub_of_add_eq hsplit.symm]
    refine BitVec.eq_of_toNat_eq ?_
    rw [BitVec.toNat_sub_of_le hle, BitVec.toNat_twoPow_of_lt hi, BitVec.toNat_ofNat, if_pos rfl]
    exact Nat.mod_eq_of_lt ((Nat.sub_le _ _).trans_lt v.isLt)

end Sys2Proof.Machine

open Sys2Proof Sys2Proof.Machine

/-- Settles O57: an assay by the branch its command takes and the tally it ends with, a pass by what follows its entry, the two registers
with a reserved bit by that bit's mask. -/
theorem assaysAndMonitorConverter : Obligations.AssaysAndMonitorConverter := by
  refine ⟨?_, fun _ _ => rfl, fun _ _ => rfl, ?_, assayStatus_eq, ?pass, ?entry, ?selfcal, ?calibrated, ?table, ?trigger⟩
  · intro s p v kind unit tile a hw hwork hstart habort hstate
    have ha : bit v.toNat 30 = false := (bit_toNat v 30).trans habort
    have hs : bit v.toNat 31 = true := (bit_toNat v 31).trans hstart
    have hretire : v.getLsbD 8 = bit v.toNat 8 := (bit_toNat v 8).symm
    have hgo : assayCommand (.pf0 p) v kind s = writeAssay s v.toNat := assayCommand_start hw hstart
    have hcore (hk : kind = 2) {t : State} (h : writeAssay s v.toNat = t) : exec (.assayCore (.pf0 p) v) s = .next t := by
      rw [← h, ← hgo, hk]
      rfl
    have hreplay (hk : kind = 1) {t : State} (h : writeAssay s v.toNat = t) : exec (.assayReplay (.pf0 p) v) s = .next t := by
      rw [← h, ← hgo, hk]
      rfl
    have hpattern (hk : kind = 0) {t : State} (h : writeAssay s v.toNat = t) : exec (.assayPattern (.pf0 p) v) s = .next t := by
      rw [← h, ← hgo, hk]
      rfl
    have haeq {k : Nat} (hk : kind = k) : a = { kind := k, unit := unit, tile := tile, retire := bit v.toNat 8, startedAt := s.clock } := by
      rw [← hk, ← hretire]
    refine ⟨fun hidle => ⟨?_, ?_, ?_, ?_, ?_, ?_⟩, ?_⟩
    · intro hk hlevel hunit hen hlo hhi hfree
      have hgoes := writeAssay_pattern ha hs hstate hwork hidle hlevel hk hunit hen hlo hhi
      rw [if_pos hfree, ← haeq hk] at hgoes
      obtain ⟨hhb, hjobs, htgs⟩ := startPattern_parts s a unit (tile - 1024)
      have htile : tileIx unit (1024 + (tile - 1024)) = unit * 1088 + tile := by
        unfold tileIx
        omega
      rw [htile] at hhb hjobs
      refine ⟨_, hpattern hk hgoes, ?_, ?_, hjobs, ?_⟩
      · rw [hhb]
      · rw [hhb]
      · intro hwf hrelief
        rw [getRelief_setRelief hwf hrelief htgs]
    · exact fun hk hlevel hunit => hpattern hk (writeAssay_badUnit ha hs hstate hwork hidle hlevel hk hunit)
    · intro hk hlevel hunit hen hlo hhi hfree
      exact hpattern hk ((writeAssay_pattern ha hs hstate hwork hidle hlevel hk hunit hen hlo hhi).trans (if_neg hfree))
    · intro b hk hlevel hunit htile hen hb hbound
      rw [haeq hk]
      exact hreplay hk (writeAssay_replay ha hs hstate hwork hidle hlevel hk hunit htile hen hb hbound)
    · intro hk hlevel hplan hen
      rw [haeq hk]
      exact hcore hk (writeAssay_core ha hs hstate hwork hidle hlevel hk hplan hen)
    · exact fun hk hlevel => hcore hk (writeAssay_critical ha hs hstate hwork hidle hlevel)
    · exact fun hbusy hk => hcore hk (writeAssay_busy ha hs hstate hwork hbusy)
  · intro s a ha
    have hends {code exceed checked : Nat} (hheld : a.heldTile = none) :
        endAssay s code exceed checked = setAssayResult s code exceed checked := endAssay_unheld ha hheld code exceed checked
    refine ⟨?_, ?_, ?_, ?_⟩
    · intro p v hw hstart habort hheld
      exact (execHbAbort_only hw hstart habort).trans (congrArg Host.Outcome.next (hends hheld))
    · intro hheld hkind hseen hlate
      exact (execAssayNoInput_late ha hkind hseen hlate).trans (congrArg Host.Outcome.next (hends hheld))
    · intro scalar memory vector matrix ks hkind hheld
      obtain ⟨hhb, hstore, hpower⟩ := endAssay_parts ha (ofBool (ks.contains false)) 0 ks.length
      obtain ⟨u, hreport, hu⟩ := reportAssay_ended a (false ∈ ks) (by simp [ofBool]) hhb hstore hpower
      rw [Nat.min_zero] at hu
      rw [hkind] at hreport
      exact ⟨u, (execAssayComplete_core ha hkind scalar memory vector matrix).trans (congrArg Host.Outcome.next hreport), hu⟩
    · intro scalar memory vector matrix shots vs hkind hverdicts hretire compared beyond fail
      obtain ⟨hhb, hstore, hpower⟩ := endAssay_parts (s := { s with free := s.free + 1024 }) ha 0 0 0
      have hfail : (tally vs).2.2 = decide fail := by
        simp [tally, fail, compared, beyond]
      obtain ⟨u, hreport, hu⟩ := reportAssay_ended (s := s)
        (t := setAssayResult (endAssay { s with free := s.free + 1024 } 0 0 0) (ofBool (tally vs).2.2)
          (if compared = 0 then 0 else 1000 * beyond / compared) shots) a fail (code := ofBool (tally vs).2.2)
        (exceed := if compared = 0 then 0 else 1000 * beyond / compared) (checked := shots)
        (by rw [hfail]; simp [ofBool]) (by unfold setAssayResult; rw [hhb]; rfl) hstore hpower
      rw [← hfail, hretire, if_neg Bool.false_ne_true] at hreport
      exact ⟨u, (execAssayComplete_tile ha hkind hverdicts hretire scalar memory vector matrix).trans
        (congrArg Host.Outcome.next hreport), hu⟩
  case pass =>
    intro s hstate hen hcal
    refine ⟨fun hidle hwork => ?_, fun hrun => execMcPassStart_running hstate hen hcal hrun⟩
    exact (execMcPassStart_idle hstate hen hcal hidle).trans (congrArg Host.Outcome.next (startPass_taken hwork))
  case entry =>
    intro s code e hrun hrepeat hdiff hlo hhi hleft hwf hentry
    refine ⟨_, execMcEntryDone_single hrun hrepeat hdiff hlo hhi hleft hentry, ?_, ?_, ?_, ?_, ?_⟩
    · unfold mcResult
      rw [afterEntry_results]
      exact tblGet_set_self hwf _ _
    · intro n hne
      unfold mcResult
      rw [afterEntry_results]
      exact tblGet_set_ne _ hne
    · intro hmore
      unfold afterEntry
      rw [if_neg (Bool.eq_false_iff.mp hmore)]
      exact ⟨hrun, rfl⟩
    · intro hlast hmode
      have hstop : bits (entryStored s code).mc.trigger.toNat 30 2 ≠ 0 := hmode
      unfold afterEntry
      rw [if_pos hlast, if_neg hstop]
      rfl
    · intro hlast hmode hwork
      have hfree : bits (entryStored s code).mc.trigger.toNat 30 2 = 0 := hmode
      unfold afterEntry
      rw [if_pos hlast, if_pos hfree, startPass_taken (s := passEnded (entryStored s code)) hwork]
      exact ⟨rfl, rfl⟩
  case selfcal =>
    exact fun s p v => execMcSelfcal_started
  case calibrated =>
    intro s o g hbusy u
    have hen : u.mc.en = s.mc.en := by rw [(reported_raiseEvent _ _ _ _ _).mc]
    have hgo : ¬(!s.mc.calBusy) = true := by simp [hbusy]
    rw [← hen]
    exact congrArg Host.Outcome.next (if_neg hgo)
  case table =>
    intro s p n v hw
    have hgo : (mayWrite s (.pf0 p) pgMc && (Accessor.pf0 p != .mgmt)) = true := by rw [show mayWrite s (.pf0 p) pgMc = true from hw]; rfl
    have hn : ¬32 ≤ n.toNat := by omega
    refine ⟨fun hvalid => ?_, fun hbad => congrArg Host.Outcome.next ((if_pos hgo).trans (if_pos (.inl hbad)))⟩
    have hkept := ofNat_sub_bit v (i := 30) (by decide)
    refine congrArg Host.Outcome.next ((if_pos hgo).trans ((if_neg ?_).trans ?_))
    · rintro (h | h)
      · exact absurd hvalid (Nat.not_le.mpr h)
      · exact hn h
    · rw [hkept]
      rfl
  case trigger =>
    intro s p v hw
    have hgo : (mayWrite s (.pf0 p) pgMc && (Accessor.pf0 p != .mgmt)) = true := by rw [show mayWrite s (.pf0 p) pgMc = true from hw]; rfl
    have hkept := ofNat_sub_bit v (i := 16) (by decide)
    refine ⟨fun hvalid hmode hperiod => congrArg Host.Outcome.next ((if_pos hgo).trans ((if_neg ?_).trans ?_)),
      fun hbad => congrArg Host.Outcome.next ((if_pos hgo).trans (if_pos (by tauto)))⟩
    · rintro (h | ⟨h, h'⟩ | h)
      · exact absurd hvalid (Nat.not_le.mpr h)
      · exact hperiod h h'
      · exact hmode h
    · rw [hkept]
      rfl
end

section
/-! SUPPORT. The reading of a stack sensor (R541, R578). -/

namespace Sys2Proof.Machine

/-- A stack sensor's reading is stored, never judged against a group, and a cleared DATA of the selected sensor shows it again. -/
theorem takeReading_stack (s : State) {k : Nat} (r : Int) (hk : 400 ≤ k) : takeReading s k r = { s with hb := { s.hb with
    sensors := tblSet {} s.hb.sensors k
      { temp := r, valid := true, failed := (getSensor s k).failed, period := samplePeriod s 2 r, deviant := 0 }
    dataCleared := s.hb.dataCleared && s.hb.tempSel != k } } := by
  have hsource : sensorSource k = 2 := by
    unfold sensorSource
    rw [if_neg (by omega), if_neg (by omega)]
  have hoff : sensorOff s k r = false := by simp [sensorOff, hsource]
  have hbad : sensorBad s k r = false := by simp [sensorBad, hsource]
  unfold takeReading
  simp [hoff, hbad, hsource]

/-- The first stack sensor is selected, and its DATA stands cleared. -/
def clearedStackSensor : State := { ({} : State) with hb := { ({} : State).hb with tempSel := 400, dataCleared := true } }

end Sys2Proof.Machine

open Sys2Proof Sys2Proof.Machine

/-- Refutes O58: the reading of the selected sensor also ends the clearing of DATA, which the statement's state after a stack sensor's
reading keeps. In `clearedStackSensor` a reading of sensor 400 sets `dataCleared` to false, where the statement leaves it true. -/
theorem not_deputyLevelsTripsAndResets : ¬ Obligations.DeputyLevelsTripsAndResets := by
  unfold Obligations.DeputyLevelsTripsAndResets
  rintro ⟨-, hstack, -⟩
  have hclaimed := hstack clearedStackSensor 400 0 (Nat.le_refl 400)
  rw [takeReading_stack clearedStackSensor 0 (Nat.le_refl 400)] at hclaimed
  have hcleared : (clearedStackSensor.hb.dataCleared && clearedStackSensor.hb.tempSel != 400) = clearedStackSensor.hb.dataCleared :=
    congrArg (fun s => s.hb.dataCleared) hclaimed
  exact absurd hcleared (by decide)
end

section
/-! SUPPORT. Ring links: what sending leaves of them, bring-up, the loss of a link, and CREDIT flits and their packets (R403, R408-R415,
R424-R426, R429, R432, R444). -/

namespace Sys2Proof.Machine

/-! ### What sending leaves of a link (R408-R414) -/

/-- What sending leaves of a link: of one that is up, width, key and the last flit received; one that is down altogether. -/
def Link.standing (l : Link) : Link := if l.up = true then { up := true, width := l.width, key := l.key, rxSeq := l.rxSeq } else l

theorem Link.standing_of_up {l m : Link} (hup : m.up = l.up) (hwidth : m.width = l.width) (hkey : m.key = l.key)
    (hrx : m.rxSeq = l.rxSeq) (hl : l.up = true) : m.standing = l.standing := by
  unfold Link.standing
  rw [if_pos hl, if_pos (hup.trans hl), hwidth, hkey, hrx]

theorem Link.standing_up (l : Link) : l.standing.up = l.up := by
  unfold Link.standing
  cases hl : l.up with
  | true => rfl
  | false => exact hl

/-- A link that stands as one that is up is up, with its width, key and last flit received. -/
theorem Link.up_of_standing {l m : Link} (h : m.standing = l.standing) (hl : l.up = true) :
    m.up = true ∧ m.width = l.width ∧ m.key = l.key ∧ m.rxSeq = l.rxSeq := by
  have hm : m.up = true := by rw [← m.standing_up, h, l.standing_up, hl]
  unfold Link.standing at h
  rw [if_pos hl, if_pos hm] at h
  injection h with _ _ _ hwidth _ hrx _ _ _ _ _ _ _ _ _ _ _ hkey _ _
  exact ⟨hm, hwidth, hkey, hrx⟩

/-- A link that stands as one that is down is that one. -/
theorem Link.eq_of_standing {l m : Link} (h : m.standing = l.standing) (hl : l.up = false) : m = l := by
  have hm : m.up = false := by rw [← m.standing_up, h, l.standing_up, hl]
  unfold Link.standing at h
  rwa [if_neg (Bool.eq_false_iff.mp hl), if_neg (Bool.eq_false_iff.mp hm)] at h

/-- Every link stands in `t` as in `s`, and the ports stay in canonical form. -/
def LinksStand (s t : State) : Prop :=
  tblWf {} s.ri.ports = true → tblWf {} t.ri.ports = true ∧ ∀ q, (getLink t q).standing = (getLink s q).standing

theorem LinksStand.refl (s : State) : LinksStand s s := fun hwf => ⟨hwf, fun _ => rfl⟩

theorem LinksStand.trans {s t u : State} (h : LinksStand s t) (g : LinksStand t u) : LinksStand s u := by
  intro hwf
  obtain ⟨htwf, ht⟩ := h hwf
  obtain ⟨huwf, hu⟩ := g htwf
  exact ⟨huwf, fun q => (hu q).trans (ht q)⟩

theorem LinksStand.of_ri {s t : State} (h : t.ri = s.ri) : LinksStand s t := by
  intro hwf
  unfold getLink
  rw [h]
  exact ⟨hwf, fun _ => rfl⟩

theorem linksStand_ite {c : Prop} [Decidable c] {s a b : State} (ha : LinksStand s a) (hb : LinksStand s b) :
    LinksStand s (if c then a else b) := by
  split <;> assumption

theorem getLink_modLink {s : State} (hwf : tblWf {} s.ri.ports = true) (p : Nat) (f : Link → Link) :
    getLink (modLink s p f) p = f (getLink s p) := tblGet_mod_self hwf p f

theorem getLink_modLink_ne {s : State} {p q : Nat} (f : Link → Link) (h : q ≠ p) : getLink (modLink s p f) q = getLink s q :=
  tblGet_mod_ne f h

/-- Counting flits, credits, queues and windows of a link leaves it standing. -/
theorem linksStand_modLink {s : State} {p : Nat} {f : Link → Link} (h : (f (getLink s p)).standing = (getLink s p).standing) :
    LinksStand s (modLink s p f) := by
  intro hwf
  refine ⟨tblWf_mod hwf p f, fun q => ?_⟩
  by_cases hq : q = p
  · subst q
    rw [getLink_modLink hwf, h]
  · rw [getLink_modLink_ne f hq]

theorem LinksStand.up {s t : State} (h : LinksStand s t) (hwf : tblWf {} s.ri.ports = true) (p : Nat) :
    (getLink t p).up = (getLink s p).up := by
  rw [← Link.standing_up, (h hwf).2 p, Link.standing_up]

/-- A walk whose steps leave the links standing. -/
theorem linksStand_forEach {α : Type} {l : List α} {f : State → α → State} (hf : ∀ s a, LinksStand s (f s a)) (s : State) :
    LinksStand s (forEach l f s) := by
  unfold forEach
  induction l generalizing s with
  | nil => exact LinksStand.refl s
  | cons a l ih => exact (hf s a).trans (ih _)

theorem linksStand_countWindow {s : State} {p : Nat} (hup : (getLink s p).up = true) (word : Nat) (text : List Byte) :
    LinksStand s (countWindow s p word text) := by
  refine linksStand_modLink (Link.standing_of_up ?_ ?_ ?_ ?_ hup) <;> dsimp only <;> split <;> rfl

theorem linksStand_sendFlit (s : State) (p : Nat) (h : FlitHeader) (payload : List Byte) (plain : Bool) :
    LinksStand s (sendFlit s p h payload plain) := by
  unfold sendFlit
  dsimp only
  cases hup : (getLink s p).up with
  | false => exact LinksStand.refl s
  | true =>
    rw [if_neg (by decide)]
    split
    · exact LinksStand.of_ri rfl
    · exact (linksStand_countWindow hup _ _).trans (LinksStand.of_ri rfl)

/-- A sending port after CREDIT flit `f` has gone with sequence number `seq`. -/
def Link.creditSent (f : CreditFlit) (seq : Nat) (l : Link) : Link :=
  { l.withCredits f.cls (l.credits f.cls - 1) with
    queue := l.queue.erase f, txSeq := (seq + 1) % 4096, replay := l.replay ++ [(seq, 0, f)]
    c0Run := if f.cls = 0 then min 3 (l.c0Run + 1) else 0 }

theorem Link.standing_creditSent {l : Link} (hup : l.up = true) (f : CreditFlit) (seq : Nat) : (l.creditSent f seq).standing = l.standing := by
  refine Link.standing_of_up ?_ ?_ ?_ ?_ hup <;> unfold Link.creditSent Link.withCredits <;> dsimp only <;> split <;> rfl

theorem linksStand_sendNextCredit {s : State} {p : Nat} (hup : (getLink s p).up = true) : LinksStand s (sendNextCredit s p) := by
  unfold sendNextCredit
  split
  · exact LinksStand.refl s
  · rename_i f _
    have hcount : LinksStand s (modLink s p (Link.creditSent f (getLink s p).txSeq)) :=
      linksStand_modLink (Link.standing_creditSent hup f _)
    dsimp only
    split
    · exact (hcount.trans (linksStand_sendFlit _ p _ _ _)).trans (linksStand_sendFlit _ _ _ _ _)
    · exact hcount.trans (linksStand_sendFlit _ p _ _ _)

/-- The waiting CREDIT flits of a port that is up. -/
theorem linksStand_drainCredits {s : State} {p : Nat} (hup : (getLink s p).up = true) : LinksStand s (drainCredits s p) := by
  unfold drainCredits forEach
  generalize (getLink s p).queue = l
  induction l generalizing s with
  | nil => exact LinksStand.refl s
  | cons a l ih =>
    intro hwf
    have hfirst : LinksStand s (sendNextCredit s p) := linksStand_sendNextCredit hup
    exact hfirst.trans (ih ((hfirst.up hwf p).trans hup)) hwf

theorem linksStand_queueCredit (s : State) (p : Nat) (f : CreditFlit) : LinksStand s (queueCredit s p f) := by
  unfold queueCredit
  split
  · rename_i hup
    have hqueued : LinksStand s (modLink s p (fun l => { l with queue := l.queue ++ [f] })) :=
      linksStand_modLink (Link.standing_of_up rfl rfl rfl rfl hup)
    intro hwf
    exact hqueued.trans (linksStand_drainCredits ((hqueued.up hwf p).trans hup)) hwf
  · exact LinksStand.refl s

theorem linksStand_sendMessage (s : State) (dst kind : Nat) (words : List Nat) (data : List Byte) :
    LinksStand s (sendMessage s dst kind words data) := by
  refine linksStand_forEach (fun s i => ?_) s
  unfold sendPacket
  dsimp only
  split
  · exact LinksStand.refl s
  · exact linksStand_forEach (fun s _ => linksStand_queueCredit s _ _) s

/-! ### What an event leaves of the links (R39-R46, R434) -/

theorem linksStand_notifyHost (s : State) (page : Nat) : LinksStand s (notifyHost s page) := by
  unfold notifyHost
  dsimp only
  split
  · exact linksStand_sendMessage s _ _ _ _
  · split
    · exact LinksStand.of_ri (notifyPf0_ri s _)
    · exact LinksStand.of_ri ((notifyPf0_ri _ _).trans (notifyPf0_ri s _))

theorem linksStand_raiseEvent (s : State) (page code : Nat) (inf : List Byte) (forced : Bool) :
    LinksStand s (raiseEvent s page code inf forced) := by
  unfold raiseEvent
  extract_lets h enabled fault s1 recorded seqLow s2 data s3 s4
  have h1 : s1.ri = s.ri := (apply_ite State.ri ..).trans (ite_self _)
  have h2 : s2.ri = s1.ri := (apply_ite State.ri ..).trans (ite_self _)
  have h3 : s3.ri = s2.ri := by rw [apply_ite State.ri, sumpWrite_ri, ite_self]
  have h4 : LinksStand s3 s4 := linksStand_ite (linksStand_notifyHost s3 _) (LinksStand.refl s3)
  have hqueue (cls : Nat) : (mgmtEnqueue s4 cls data fault).ri = s4.ri := by
    unfold mgmtEnqueue
    split <;> rfl
  exact (LinksStand.of_ri (h3.trans (h2.trans h1))).trans (h4.trans (linksStand_ite (LinksStand.of_ri (hqueue _)) (LinksStand.refl s4)))

/-! ### A membership change begins (R299, R432, R492) -/

/-- The change noted, the admitted set to be retired, and the staged image discarded, before the ring trains anew. -/
def changeBegun (s : State) (cause : Nat) (trip : Bool) : State :=
  changeDiscards (retireForChange { s with
    ri := { s.ri with changing := true, changeCause := cause }, sq := { s.sq with idleRounds := false } }) (if trip then 2 else 3)

theorem beginChange_eq (s : State) (cause : Nat) (trip : Bool) : beginChange s cause trip =
    if (changeBegun s cause trip).ri.crosscut ∨ (changeBegun s cause trip).ri.crosscutMoving.isSome then changeBegun s cause trip
    else if portsUp (changeBegun s cause trip) ∧ 7 ≤ (changeBegun s cause trip).power.state.code then startElect (changeBegun s cause trip)
    else startBringup (changeBegun s cause trip) := rfl

theorem linksStand_changeDiscards (s : State) (cause : Nat) : LinksStand s (changeDiscards s cause) := by
  refine linksStand_ite ?_ (LinksStand.refl s)
  unfold discardStaged
  extract_lets _ s1
  have hs1 : s1.ri = s.ri := rfl
  exact (LinksStand.of_ri hs1).trans (linksStand_raiseEvent s1 _ _ _ _)

theorem retireForChange_ri (s : State) : (retireForChange s).ri = s.ri := (apply_ite State.ri ..).trans (ite_self _)

theorem linksStand_changeBegun (s : State) (cause : Nat) (trip : Bool) : LinksStand s (changeBegun s cause trip) := by
  refine LinksStand.trans ?_ (linksStand_changeDiscards _ _)
  intro hwf
  unfold getLink
  rw [retireForChange_ri]
  exact ⟨hwf, fun _ => rfl⟩

/-- Discarding leaves of the ring interface all but its links. -/
theorem changeDiscards_ri {β : Type} {f : Ri → β} (hports : ∀ (r : Ri) ports, f { r with ports := ports } = f r) (s : State) (cause : Nat) :
    f (changeDiscards s cause).ri = f s.ri := by
  unfold changeDiscards discardStaged
  rw [apply_ite (fun u : State => f u.ri)]
  dsimp only
  rw [raiseEvent_keeps hports, ite_self]

/-- The beginning of a change leaves of the ring interface all but its links and the change it notes. -/
theorem changeBegun_ri {β : Type} {f : Ri → β} (hports : ∀ (r : Ri) ports, f { r with ports := ports } = f r) (s : State) (cause : Nat)
    (trip : Bool) : f (changeBegun s cause trip).ri = f { s.ri with changing := true, changeCause := cause } := by
  unfold changeBegun
  rw [changeDiscards_ri hports, retireForChange_ri]

/-- Discarding leaves what no event touches, and of the firmware's state what it does not itself set. -/
theorem changeDiscards_keeps {β : Type} {f : State → β} (hcx : ∀ (s : State) x, f { s with cx := x } = f s)
    (hreport : ∀ s t, Reported s t → f t = f s) (s : State) (cause : Nat) : f (changeDiscards s cause) = f s := by
  unfold changeDiscards
  split
  · exact (hreport _ _ (reported_raiseEvent _ _ _ _ _)).trans (hcx s _)
  · rfl

theorem changeBegun_power (s : State) (cause : Nat) (trip : Bool) : (changeBegun s cause trip).power.state = s.power.state := by
  unfold changeBegun
  rw [changeDiscards_keeps (f := fun u => u.power.state) (fun _ _ => rfl) (fun _ _ h => h.powerState)]
  unfold retireForChange
  split <;> rfl

/-- Of the sequencer a change ends the empty rounds and has the admitted set retired. -/
theorem changeBegun_sq (s : State) (cause : Nat) (trip : Bool) : (changeBegun s cause trip).sq = { s.sq with
    idleRounds := false, retireWanted := if planAdmitted s then 2 else s.sq.retireWanted } := by
  unfold changeBegun
  rw [changeDiscards_keeps (f := State.sq) (fun _ _ => rfl) (fun _ _ h => h.sq)]
  unfold retireForChange planAdmitted
  dsimp only
  split <;> rfl

/-! ### The loss of a link (R411, R415, R426, R444) -/

theorem portsUp_false {s : State} {p : Nat} (hp : p < 4) (hdown : (getLink s p).up = false) : portsUp s = false := by
  unfold portsUp
  rw [List.all_eq_false]
  exact ⟨p, by simp [upTo, hp], by rw [hdown]; decide⟩

/-- The links after bring-up has begun: those that are up stay, the others begin anew. -/
theorem getLink_startBringup {s : State} (hwf : tblWf {} s.ri.ports = true) (q : Nat) : getLink (startBringup s) q = getLink s q ∨
    getLink (startBringup s) q = if (getLink s q).up = true then getLink s q else (getLink s q).dropped := by
  unfold startBringup
  split
  · exact .inl rfl
  · exact .inr (tblGet_map hwf (fun _ l => if l.up = true then l else l.dropped) (fun _ => rfl) q)

theorem getLink_startBringup_up {s : State} (hwf : tblWf {} s.ri.ports = true) {q : Nat} (hup : (getLink s q).up = true) :
    getLink (startBringup s) q = getLink s q := by
  rcases getLink_startBringup hwf q with h | h
  · exact h
  · rw [h, if_pos hup]

theorem getLink_startBringup_dropped {s : State} (hwf : tblWf {} s.ri.ports = true) {q : Nat} {l : Link} (h : getLink s q = l.dropped) :
    getLink (startBringup s) q = l.dropped := by
  rcases getLink_startBringup hwf q with hq | hq
  · rw [hq, h]
  · rw [hq, h]
    exact if_neg Bool.false_ne_true

/-- The link gone, reported, and the round's FAULT with it, before the ring trains anew. -/
def linkLost (s : State) (p cause : Nat) : State :=
  let t := raiseEvent (dropPort s p) 7 0x04 (info [(1, p), (1, cause)])
  { t with sq := { t.sq with faulted := t.sq.faulted || planAdmitted t } }

theorem linkDown_eq (s : State) (p cause : Nat) : linkDown s p cause =
    if cause ≤ 3 ∧ (linkLost s p cause).ri.valid ∧ 1 < (linkLost s p cause).ri.count then beginChange (linkLost s p cause) 3 false
    else startBringup (linkLost s p cause) := rfl

theorem reported_linkLost (s : State) (p cause : Nat) :
    Reported { s with sq := { s.sq with faulted := s.sq.faulted || planAdmitted s } } (linkLost s p cause) := by
  have hdrop : Reported s (dropPort s p) := Reported.of s rfl
  obtain ⟨_, _, _, _, _, _, _, _, _, _, _, _, _, _, _, _, h⟩ :=
    hdrop.trans (reported_raiseEvent (dropPort s p) 7 0x04 (info [(1, p), (1, cause)]) false)
  unfold linkLost
  rw [h]
  exact Reported.of _ rfl

theorem linkLost_ri {β : Type} {f : Ri → β} (hports : ∀ (r : Ri) ports, f { r with ports := ports } = f r) (s : State) (p cause : Nat) :
    f (linkLost s p cause).ri = f { s.ri with statusCleared := false } :=
  (raiseEvent_keeps hports (dropPort s p) _ _ _ _).trans (hports _ _)

/-- The lost port is down, with its count of resent flits, and every other link stands. -/
theorem linkLost_links {s : State} (hwf : tblWf {} s.ri.ports = true) (p cause : Nat) :
    tblWf {} (linkLost s p cause).ri.ports = true ∧ getLink (linkLost s p cause) p = (getLink s p).dropped ∧
      ∀ q, q ≠ p → (getLink (linkLost s p cause) q).standing = (getLink s q).standing := by
  have hdropped : getLink (dropPort s p) p = (getLink s p).dropped :=
    getLink_modLink (s := { s with ri := { s.ri with statusCleared := false } }) hwf p _
  have hsent : LinksStand (dropPort s p) (linkLost s p cause) :=
    (linksStand_raiseEvent (dropPort s p) 7 0x04 (info [(1, p), (1, cause)]) false).trans (LinksStand.of_ri rfl)
  obtain ⟨hlost, hlinks⟩ := hsent (tblWf_mod hwf p _)
  refine ⟨hlost, ?_, fun q hq => (hlinks q).trans ?_⟩
  · rw [← hdropped]
    exact Link.eq_of_standing (hlinks p) (by rw [hdropped]; rfl)
  · exact congrArg Link.standing (getLink_modLink_ne (s := { s with ri := { s.ri with statusCleared := false } }) _ hq)

/-- The change that a lost link begins leads to bring-up anew, never straight to an election, since the port is down; a crosscut that
is closed or moves has none. -/
theorem beginChange_portDown {v : State} {p : Nat} (hp : p < 4) (hwf : tblWf {} v.ri.ports = true) (hdown : (getLink v p).up = false)
    (cause : Nat) (trip : Bool) : beginChange v cause trip = if v.ri.crosscut ∨ v.ri.crosscutMoving.isSome then changeBegun v cause trip
      else startBringup (changeBegun v cause trip) := by
  have hports : portsUp (changeBegun v cause trip) = false :=
    portsUp_false hp (((linksStand_changeBegun v cause trip).up hwf p).trans hdown)
  have hclosed : (changeBegun v cause trip).ri.crosscut = v.ri.crosscut := changeBegun_ri (f := Ri.crosscut) (fun _ _ => rfl) v cause trip
  have hmoving : (changeBegun v cause trip).ri.crosscutMoving = v.ri.crosscutMoving :=
    changeBegun_ri (f := Ri.crosscutMoving) (fun _ _ => rfl) v cause trip
  rw [beginChange_eq, hclosed, hmoving, hports]
  simp only [Bool.false_eq_true, false_and, if_false]

/-- What a lost link leaves to be trained anew: links that stand as after the loss, FAULT under a plan set, power and crosscut. -/
structure LossLeft (s : State) (p cause : Nat) (w : State) : Prop where
  links : LinksStand (linkLost s p cause) w
  faulted : w.sq.faulted = (s.sq.faulted || planAdmitted s)
  power : w.power.state = s.power.state
  crosscut : w.ri.crosscut = s.ri.crosscut

theorem linkDown_restarts {s : State} {p : Nat} (hp : p < 4) (hwf : tblWf {} s.ri.ports = true) (cause : Nat) :
    ∃ w, LossLeft s p cause w ∧ (linkDown s p cause = startBringup w ∨
      linkDown s p cause = w ∧ (s.ri.crosscut = true ∨ s.ri.crosscutMoving.isSome = true)) := by
  have hreport := reported_linkLost s p cause
  have hclosed : (linkLost s p cause).ri.crosscut = s.ri.crosscut := linkLost_ri (f := Ri.crosscut) (fun _ _ => rfl) s p cause
  have hmoving : (linkLost s p cause).ri.crosscutMoving = s.ri.crosscutMoving :=
    linkLost_ri (f := Ri.crosscutMoving) (fun _ _ => rfl) s p cause
  have hfaulted : (linkLost s p cause).sq.faulted = (s.sq.faulted || planAdmitted s) := by rw [hreport.sq]
  obtain ⟨hlost, hdown, -⟩ := linkLost_links hwf p cause
  rw [linkDown_eq]
  split
  · have hchange : LossLeft s p cause (changeBegun (linkLost s p cause) 3 false) :=
      { links := linksStand_changeBegun _ _ _
        faulted := by rw [changeBegun_sq]; exact hfaulted
        power := (changeBegun_power _ _ _).trans hreport.powerState
        crosscut := (changeBegun_ri (f := Ri.crosscut) (fun _ _ => rfl) _ _ _).trans hclosed }
    refine ⟨_, hchange, ?_⟩
    rw [beginChange_portDown hp hlost (by rw [hdown]; rfl), hclosed, hmoving]
    split
    · rename_i hbusy
      exact .inr ⟨rfl, hbusy⟩
    · exact .inl rfl
  · exact ⟨_, { links := LinksStand.refl _, faulted := hfaulted, power := hreport.powerState, crosscut := hclosed }, .inl rfl⟩

theorem startBringup_sq (s : State) : (startBringup s).sq = s.sq := (apply_ite State.sq ..).trans (ite_self _)

/-- A link that goes down: its port is gone but for the count of its second, the others stand, FAULT follows under a plan set, and
bring-up begins where the crosscut is open and stays so. -/
theorem linkDown_facts {s : State} {p : Nat} (hp : p < 4) (hwf : tblWf {} s.ri.ports = true) (cause : Nat) :
    getLink (linkDown s p cause) p = (getLink s p).dropped ∧
    (∀ q, q ≠ p → (getLink s q).up = true → (getLink (linkDown s p cause) q).standing = (getLink s q).standing) ∧
    (linkDown s p cause).sq.faulted = (s.sq.faulted || planAdmitted s) ∧
    (s.ri.crosscut = false → s.ri.crosscutMoving = none → 3 ≤ s.power.state.code →
      (linkDown s p cause).ri.phase = 1 ∧ (linkDown s p cause).ri.state = 2) := by
  obtain ⟨w, hw, hdown⟩ := linkDown_restarts hp hwf cause
  obtain ⟨hlost, hdropped, hothers⟩ := linkLost_links hwf p cause
  obtain ⟨hwwf, hlinks⟩ := hw.links hlost
  have hport : getLink w p = (getLink s p).dropped := by
    rw [← hdropped]
    exact Link.eq_of_standing (hlinks p) (by rw [hdropped]; rfl)
  have hstand (q : Nat) (hq : q ≠ p) : (getLink w q).standing = (getLink s q).standing := (hlinks q).trans (hothers q hq)
  have hup (q : Nat) (hq : q ≠ p) (h : (getLink s q).up = true) : (getLink w q).up = true := (Link.up_of_standing (hstand q hq) h).1
  rcases hdown with hdown | ⟨hdown, hbusy⟩
  · rw [hdown]
    refine ⟨getLink_startBringup_dropped hwwf hport, fun q hq h => ?_, ?_, fun hopen _ hpower => ?_⟩
    · rw [getLink_startBringup_up hwwf (hup q hq h), hstand q hq]
    · rw [startBringup_sq, hw.faulted]
    · have hgo : ¬(w.ri.crosscut = true ∨ w.power.state.code < 3) := by
        rw [hw.crosscut, hw.power, hopen]
        simpa using hpower
      unfold startBringup
      rw [if_neg hgo]
      exact ⟨rfl, rfl⟩
  · rw [hdown]
    refine ⟨hport, fun q hq _ => hstand q hq, hw.faulted, fun hopen hstill _ => ?_⟩
    rw [hopen, hstill] at hbusy
    simp at hbusy

/-! ### Bring-up (R403, R413, R426) -/

/-- A port that has its lanes. -/
def lanesTaken (s : State) (p n : Nat) : State :=
  modLink { s with ri := { s.ri with peerLight := true, statusCleared := false } } p (fun l => { l with trained := true, width := n })

/-- Phase 2 begins once every port has its lanes. -/
def onceAllTrained (now : Nat) (t : State) : State :=
  if (upTo 4).all (fun q => (getLink t q).up || (getLink t q).trained) = true
    then { t with ri := { t.ri with phase := 2, phaseAt := now } } else t

section
variable {s : State} {p : BitVec 2} (hopen : s.ri.crosscut = false) (hstill : s.ri.crosscutMoving = none)
  (hpower : 3 ≤ s.power.state.code) (hdown : (getLink s p.toNat).up = false)

include hopen hstill hpower hdown

theorem execLinkBringup_lanes (hphase : s.ri.phase = 1) (hnew : (getLink s p.toNat).trained = false) (lanes : BitVec 32) (kept : BitVec 4)
    (auth : BitVec 2) (serial : BitVec 64) (wants : Bool) :
    execLinkBringup p lanes kept auth serial wants s = .next (trainLanes s p.toNat (goodFibres lanes) (fibresOf kept)) := by
  have hgo : ¬(s.ri.crosscut = true ∨ s.ri.crosscutMoving.isSome = true ∨ s.power.state.code < 3 ∨ (getLink s p.toNat).up = true) := by
    rw [hopen, hstill, hdown]
    simpa using hpower
  exact congrArg Host.Outcome.next ((if_neg hgo).trans (if_pos ⟨hphase, by rw [hnew]; rfl⟩))

theorem execLinkBringup_key (hphase : s.ri.phase = 2) (htrained : (getLink s p.toNat).trained = true) (lanes : BitVec 32)
    (kept : BitVec 4) (auth : BitVec 2) (serial : BitVec 64) (wants : Bool) :
    execLinkBringup p lanes kept auth serial wants s = .next (keyPort s p.toNat auth.toNat serial wants) := by
  have hgo : ¬(s.ri.crosscut = true ∨ s.ri.crosscutMoving.isSome = true ∨ s.power.state.code < 3 ∨ (getLink s p.toNat).up = true) := by
    rw [hopen, hstill, hdown]
    simpa using hpower
  exact congrArg Host.Outcome.next ((if_neg hgo).trans ((if_neg (by rw [hphase]; simp)).trans (if_pos ⟨hphase, htrained⟩)))

end

/-- Four good fibres. -/
theorem trainLanes_four {s : State} (p : Nat) (hmin : s.ri.envelope.1 ≤ 4) (hmax : s.ri.envelope.2 = 4) :
    trainLanes s p (goodFibres 0xFFFFFFFF) (fibresOf 0xF) = onceAllTrained s.clock (lanesTaken s p 4) := by
  have hall : goodFibres 0xFFFFFFFF = [0, 1, 2, 3] := by decide
  have hkept : fibresOf 0xF = [0, 1, 2, 3] := by decide
  unfold trainLanes
  rw [hall, hkept]
  simp only [hmax, show min (List.length [0, 1, 2, 3]) 4 = 4 from rfl]
  rw [if_neg (by decide), if_neg (Nat.not_lt.mpr hmin)]
  rfl

/-- Three good fibres, the fourth excluded. -/
theorem trainLanes_three {s : State} (p : Nat) (hmin : s.ri.envelope.1 ≤ 3) (hmax : 3 ≤ s.ri.envelope.2) :
    trainLanes s p (goodFibres 0x00FFFFFF) (fibresOf 0x7) =
      onceAllTrained s.clock (raiseEvent (lanesTaken s p 3) 7 0x0B (info [(1, p), (1, 24), (4, 0xFF000000)])) := by
  have hall : goodFibres 0x00FFFFFF = [0, 1, 2] := by decide
  have hkept : fibresOf 0x7 = [0, 1, 2] := by decide
  have hclock : (raiseEvent (lanesTaken s p 3) 7 0x0B (info [(1, p), (1, 24), (4, 0xFF000000)])).clock = s.clock := raiseEvent_clock ..
  rw [hall, hkept]
  have htaken : trainLanes s p [0, 1, 2] [0, 1, 2] = onceAllTrained
      (raiseEvent (lanesTaken s p 3) 7 0x0B (info [(1, p), (1, 24), (4, 0xFF000000)])).clock
      (raiseEvent (lanesTaken s p 3) 7 0x0B (info [(1, p), (1, 24), (4, 0xFF000000)])) := by
    unfold trainLanes
    simp only [Nat.min_eq_left hmax, show List.length [0, 1, 2] = 3 from rfl]
    rw [if_neg (by decide), if_neg (Nat.not_lt.mpr hmin)]
    rfl
  rw [htaken, hclock]

/-- No good fibre. -/
theorem trainLanes_none {s : State} (p : Nat) (hmin : 1 ≤ s.ri.envelope.1) : trainLanes s p (goodFibres 0) (fibresOf 0) =
    trainFail { s with ri := { s.ri with peerLight := true } } 1 := by
  have hall : goodFibres 0 = [] := by decide
  have hkept : fibresOf 0 = [] := by decide
  unfold trainLanes
  rw [hall, hkept]
  simp only [List.length_nil, Nat.zero_min]
  rw [if_neg (by decide)]
  exact if_pos hmin

/-- A port that has its session key: a fresh one, or that of the opposite link of the same bring-up. -/
def portKeyed (s : State) (p : Nat) : State :=
  modLink { s with
    ri := { s.ri with statusCleared := false }
    ke := { s.ke with nextKey := s.ke.nextKey + 1, drbgCount := s.ke.drbgCount + 1 } } p (fun l => { l with
      up := true, trained := false, bornAt := s.ri.phaseAt + 1
      key := if (getLink s (oppositePort p)).up = true ∧ (getLink s (oppositePort p)).bornAt = s.ri.phaseAt + 1
        then (getLink s (oppositePort p)).key else s.ke.nextKey })

section
variable {s : State} (hid : s.store.idOk = true) (hke : s.ke.state ≠ 3) (p : Nat) (serial : BitVec 64)

include hid hke

theorem keyPort_taken : keyPort s p 0 serial false = if portsUp (portKeyed s p) = true then
      if 7 ≤ s.power.state.code then startElect (portKeyed s p)
      else { portKeyed s p with ri := { (portKeyed s p).ri with
        phase := if (getHp (portKeyed s p) false).up then 0 else 2, phaseAt := (portKeyed s p).clock } }
    else portKeyed s p := by
  unfold keyPort
  rw [if_neg (by simp [hid, hke])]
  simp only [Bool.false_eq_true, and_false, if_false, Bool.not_eq_true']
  cases hports : portsUp (portKeyed s p) with
  | true => exact (if_neg (Bool.ne_false_iff.mpr hports)).trans (if_pos rfl).symm
  | false => exact if_pos hports

omit hid hke in
/-- A failed step of authentication. -/
theorem keyPort_failed {a : Nat} (ha : a ≠ 0) : keyPort s p a serial false =
    trainFail (raiseEvent s 7 0x08 (info [(1, p), (1, a), (8, serial.toNat)])) 2 := by
  unfold keyPort
  rw [if_pos (.inl ha), if_neg ha]
  rfl

end

/-! ### Acknowledgement and credits (R408, R411, R412) -/

/-- The flits that an ACK leaves in the replay buffer. -/
def Link.unacked (l : Link) (ack : Nat) : List (Nat × Nat × CreditFlit) :=
  if l.replay.any (fun e => e.1 == ack) then (l.replay.dropWhile (fun e => e.1 != ack)).drop 1 else l.replay

/-- A sending port after an ACK with its credits. -/
def acknowledged (s : State) (p ack credits cls : Nat) : State :=
  modLink s p (fun l => { l.withCredits cls (min 512 (l.credits cls + credits)) with replay := (getLink s p).unacked ack })

theorem withCredits_queue (l : Link) (cls n : Nat) : (l.withCredits cls n).queue = l.queue := by
  unfold Link.withCredits
  split <;> rfl

/-- With nothing waiting, an ACK is all that happens. -/
theorem linkReturn_ack {s : State} {p : Nat} (hwf : tblWf {} s.ri.ports = true) (hqueue : (getLink s p).queue = []) (ack credits cls : Nat) :
    linkReturn s p ack false credits cls = acknowledged s p ack credits cls := by
  have hidle : (getLink (acknowledged s p ack credits cls) p).queue = [] :=
    (congrArg Link.queue (getLink_modLink hwf p _)).trans ((withCredits_queue _ _ _).trans hqueue)
  have hreturn : linkReturn s p ack false credits cls = drainCredits (acknowledged s p ack credits cls) p := rfl
  rw [hreturn]
  unfold drainCredits
  rw [hidle]
  rfl

/-- A NAK of a flit resent 16 times takes the link down. -/
theorem linkReturn_exhausted {s : State} {p ack : Nat} (h : ∃ e ∈ (getLink s p).unacked ack, 16 ≤ e.2.1) (credits cls : Nat) :
    linkReturn s p ack true credits cls = linkDown (acknowledged s p ack credits cls) p 3 := by
  have hany : ((getLink s p).unacked ack).any (fun e => decide (16 ≤ e.2.1)) = true := by
    obtain ⟨e, he, hresent⟩ := h
    exact List.any_eq_true.mpr ⟨e, he, decide_eq_true hresent⟩
  exact if_pos ⟨rfl, hany⟩

/-! ### CREDIT flits and their packets (R401, R410, R424, R425) -/

section
variable {s : State} {p : BitVec 2} (hin : p = 0 ∨ p = 2) (hup : (getLink s p.toNat).up = true)

include hin hup

theorem execCreditFlit_received (cls : Bool) (seq : BitVec 12) (dst : BitVec 6) (first last : Bool) (body : List (BitVec 8)) (crcOk : Bool) :
    execCreditFlit p cls seq dst first last body crcOk s = .next (
      if !crcOk then sendReturn s p.toNat 1 0 (if cls then 1 else 0)
      else if seq.toNat ≠ ((getLink s p.toNat).rxSeq + 1) % 4096 then s
      else
        let t := modLink s p.toNat (fun l => { l with rxSeq := seq.toNat })
        let onward := t.ri.valid && (if p.toNat = 0 then decide (t.ri.position < dst.toNat) else decide (dst.toNat < t.ri.position))
        let out := if p.toNat = 0 then 1 else 3
        if onward && (getLink t out).up then
          queueCredit (sendReturn t p.toNat 0 0 (if cls then 1 else 0)) out
            { cls := if cls then 1 else 0, dst := dst.toNat, first := first, last := last, body := body, came := some p.toNat }
        else
          let t := if onward ∨ (t.ri.valid && dst.toNat != t.ri.position) then t
            else consumeFlit t p.toNat (if cls then 1 else 0) first last body
          sendReturn t p.toNat 0 1 (if cls then 1 else 0)) := by
  have hgo : ¬((p.toNat ≠ 0 ∧ p.toNat ≠ 2) ∨ (!(getLink s p.toNat).up) = true) := by
    rw [hup]
    rcases hin with rfl | rfl <;> decide
  exact congrArg Host.Outcome.next (if_neg hgo)

end

theorem length_padTo (n : Nat) (b : List Byte) : (padTo n b).length = n := by
  induction n generalizing b with
  | zero => rfl
  | succ n ih => cases b with
    | nil => exact congrArg (· + 1) (ih [])
    | cons x b => exact congrArg (· + 1) (ih b)

section
variable {s : State} {p c : Nat} (hnone : (getLink s p).assembly c = none) (b : List (BitVec 8))

include hnone

theorem consumeFlit_only : consumeFlit s p c true true b = packetArrived (setAssembly s p c none) (padTo 246 b) 1 := by
  unfold consumeFlit
  rw [hnone]
  have hflits : (padTo 246 b).length / 246 = 1 := by rw [length_padTo]
  show packetArrived (setAssembly s p c none) (padTo 246 b) ((padTo 246 b).length / 246) = _
  rw [hflits]

theorem consumeFlit_first : consumeFlit s p c true false b = setAssembly s p c (some (padTo 246 b)) := by
  have hroom : ¬17 * 246 ≤ (padTo 246 b).length := by
    rw [length_padTo]
    decide
  unfold consumeFlit
  rw [hnone]
  exact if_neg hroom

theorem consumeFlit_orphan : consumeFlit s p c false true b = s := by
  unfold consumeFlit
  rw [hnone]
  rfl

end

theorem packetArrived_frozen {s : State} {b : List (BitVec 8)} (h : isFrozen s 4 (leAt b 2 2) = true) (n : Nat) :
    packetArrived s b n = s := if_pos h

/-- A reserved TYPE or a length beyond 4,096 bytes freezes the source. -/
theorem packetArrived_malformed {s : State} {b : List (BitVec 8)} (h : isFrozen s 4 (leAt b 2 2) = false)
    (hbad : byteAt b 0 = 0 ∨ 5 < byteAt b 0 ∨ 4096 < leAt b 6 2) (n : Nat) :
    packetArrived s b n = freeze s 7 4 (leAt b 2 2) 0x080A (leAt b 8 8) := by
  have hgo := Bool.eq_false_iff.mp h
  exact (if_neg hgo).trans ((if_pos (by tauto)).trans (if_neg hgo))

theorem packetArrived_whole {s : State} {b : List (BitVec 8)} (h : isFrozen s 4 (leAt b 2 2) = false) (hlo : 1 ≤ byteAt b 0)
    (hhi : byteAt b 0 ≤ 5) (hlen : leAt b 6 2 ≤ 4096) :
    packetArrived s b ((32 + (if byteAt b 0 = 2 then 0 else leAt b 6 2) + 245) / 246) = { s with ri := { s.ri with
      packets := s.ri.packets ++ [b.take (32 + (if byteAt b 0 = 2 then 0 else leAt b 6 2))] } } := by
  refine (if_neg (Bool.eq_false_iff.mp h)).trans (if_neg ?_)
  rintro (htype | htype | hlong | hflits)
  · omega
  · omega
  · omega
  · exact hflits rfl

end Sys2Proof.Machine

open Sys2Proof Sys2Proof.Machine

/-- Settles O59: bring-up by the lanes or the key a port takes, the loss of a link by what the event and bring-up leave of every link
(`linkDown_facts`), CREDIT flits and packets by the branch they take. -/
theorem ringLinksAndFlits : Obligations.RingLinksAndFlits := by
  unfold Obligations.RingLinksAndFlits
  refine ⟨?lanes, ?key, ?loss, ?closed, ?down, ?ack, ?flit, fun s p c b hnone => ⟨consumeFlit_only hnone b, consumeFlit_first hnone b,
    consumeFlit_orphan hnone b⟩, fun s b => packetArrived_whole, fun s b n => ⟨fun h => packetArrived_frozen h n,
    fun h hbad => packetArrived_malformed h hbad n⟩, ?close, fun _ _ => ⟨rfl, rfl, rfl⟩, ?tag⟩
  case lanes =>
    intro s p serial hopen hstill hpower hphase hdown hnew go lit
    have hexec := execLinkBringup_lanes hopen hstill hpower hdown hphase hnew
    exact ⟨fun a hmin hmax => (hexec ..).trans (congrArg _ (trainLanes_four _ hmin hmax)),
      fun a hmin hmax => (hexec ..).trans (congrArg _ (trainLanes_three _ hmin hmax)),
      fun a hmin => (hexec ..).trans (congrArg _ (trainLanes_none _ hmin))⟩
  case key =>
    intro s p lanes kept serial hopen hstill hpower hphase hdown htrained hid hke other
    have hexec := execLinkBringup_key hopen hstill hpower hdown hphase htrained lanes kept
    refine ⟨fun t ht => ?_, fun a ha => (hexec ..).trans (congrArg _ (keyPort_failed _ _ ?_))⟩
    · have hkeyed : t = portKeyed s p.toNat := ht
      rw [hkeyed]
      have htaken : exec (.linkBringup p lanes kept 0 serial false) s = _ := (hexec 0 serial false).trans (congrArg _ (keyPort_taken hid hke _ _))
      exact ⟨fun hports => htaken.trans (congrArg _ (if_neg (Bool.eq_false_iff.mp hports))),
        fun hports hcode => htaken.trans (congrArg _ ((if_pos hports).trans (if_pos hcode)))⟩
    · intro h
      exact ha (BitVec.eq_of_toNat_eq h)
  case loss =>
    intro s p hup
    have hclosed : ¬(s.ri.crosscut = true ∧ (!true) = true) := by simp
    refine ⟨fun hopen => congrArg Host.Outcome.next ((if_neg (by rw [hopen]; simp)).trans (if_pos hup)),
      congrArg Host.Outcome.next ((if_neg hclosed).trans (if_pos hup)), congrArg Host.Outcome.next (if_pos hup),
      congrArg Host.Outcome.next (if_pos hup)⟩
  case closed =>
    exact fun s p hclosed => ⟨congrArg Host.Outcome.next (if_pos ⟨hclosed, rfl⟩),
      fun hpower a n cls nak => congrArg Host.Outcome.next (if_pos ⟨hclosed, hpower⟩)⟩
  case down =>
    intro s p c hwf hp t
    obtain ⟨hport, hothers, hfaulted, htrain⟩ := linkDown_facts hp hwf c
    exact ⟨hport, fun q hq hup => Link.up_of_standing (hothers q hq hup) hup, hfaulted, htrain⟩
  case ack =>
    intro s p a n cls hin hwf hup hopposite hopen l c rest u
    have hgo : ¬(s.ri.crosscut = true ∧ mainPower s = true) := by rw [hopen]; simp
    have hports : ¬((p.toNat ≠ 0 ∧ p.toNat ≠ 2) ∨ (!(getLink s p.toNat).up) = true ∨ (!(getLink s (oppositePort p.toNat)).up) = true) := by
      rw [hup, show (getLink s (oppositePort p.toNat)).up = true from hopposite]
      rcases hin with rfl | rfl <;> decide
    have hexec (nak : Bool) : exec (.idleFlit p a nak n cls) s = .next (linkReturn s (3 - p.toNat) a.toNat nak n.toNat c) :=
      congrArg Host.Outcome.next ((if_neg hgo).trans (if_neg hports))
    exact ⟨fun hqueue => (hexec false).trans (congrArg _ (linkReturn_ack hwf hqueue _ _ _)),
      fun hexhausted => (hexec true).trans (congrArg _ (linkReturn_exhausted hexhausted _ _))⟩
  case flit =>
    intro s p cls seq d f l b hin hup c u
    have hexec := execCreditFlit_received hin hup cls seq d f l b
    have hgood : ¬(!true) = true := by decide
    refine ⟨hexec false, fun hseq => (hexec true).trans (congrArg _ ((if_neg hgood).trans (if_pos hseq))), fun hseq hvalid hhere => ?_,
      fun hseq hvalid hp honward hout hwf => ?_⟩
    · have honward : (s.ri.valid && (if p.toNat = 0 then decide (s.ri.position < d.toNat) else decide (d.toNat < s.ri.position))) = false := by
        rw [hhere]
        simp
      have hmine : ¬(false = true ∨ (s.ri.valid && d.toNat != s.ri.position) = true) := by
        rw [hhere]
        simp
      refine (hexec true).trans (congrArg Host.Outcome.next ((if_neg hgood).trans ((if_neg (not_not.mpr hseq)).trans ((if_neg ?_).trans
        (congrArg (fun t => sendReturn t p.toNat 0 1 c) (if_neg ?_))))))
      · rw [Bool.and_eq_true]
        exact fun h => Bool.eq_false_iff.mp honward h.1
      · rintro (h | h)
        · exact Bool.eq_false_iff.mp honward h
        · exact hmine (.inr h)
    · subst hp
      have hlink : (getLink u 1).up = true := by
        rw [getLink_modLink_ne _ (by decide)]
        exact hout
      refine (hexec true).trans (congrArg Host.Outcome.next ((if_neg hgood).trans ((if_neg (not_not.mpr hseq)).trans (if_pos ?_))))
      rw [Bool.and_eq_true, Bool.and_eq_true]
      exact ⟨⟨hvalid, decide_eq_true honward⟩, hlink⟩
  case close =>
    intro s p l hup hready hflits hcredit
    have hclosing : (closeWindow p.toNat l).tagReady = [(l.window, windowTag l p.toNat)] := by
      unfold closeWindow
      rw [hready]
      rfl
    have hopen : ¬(l.windowFlits = 0 ∨ (nextCredit l).isSome = true) := by
      rw [hcredit]
      simpa using hflits
    refine congrArg Host.Outcome.next ((if_neg (by rw [show (getLink s p.toNat).up = true from hup]; decide)).trans
      ((if_neg (not_not.mpr hready)).trans ((if_neg hopen).trans ?_)))
    rw [show (closeWindow p.toNat (getLink s p.toNat)).tagReady = [(l.window, windowTag l p.toNat)] from hclosing]
    rfl
  case tag =>
    intro s p w
    refine ⟨congrArg Host.Outcome.next (if_pos (.inr (.inl rfl))), fun hup => congrArg Host.Outcome.next (if_neg ?_)⟩
    rw [hup]
    decide
end

section
/-! SUPPORT. Training, membership and the crosscut (R400, R405, R406, R426-R432, R442, R443, R463, R503). -/

namespace Sys2Proof.Machine

/-! ### Elections and claims (R420, R427, R429, R430) -/

/-- What the start of training leaves: the change that is under way, the generation, sequencer, firmware and power state. -/
def changeView (s : State) : Bool × Nat × Nat × Sq × Cx × PowerState :=
  (s.ri.changing, s.ri.changeCause, s.ri.generation, s.sq, s.cx, s.power.state)

theorem changeView_startBringup (s : State) : changeView (startBringup s) = changeView s := by
  unfold startBringup
  split <;> rfl

/-- The strap without its reference, as the start of an election reports it. -/
def strapChecked (s : State) : State :=
  if s.ri.hfSel && !s.pins.refA then raiseEvent (draw s).2 7 0x04 (info [(1, (draw s).1 % 4), (1, 6)]) else s

theorem strapChecked_ri {β : Type} {f : Ri → β} (hports : ∀ (r : Ri) ports, f { r with ports := ports } = f r) (s : State) :
    f (strapChecked s).ri = f s.ri := by
  unfold strapChecked
  split
  · exact raiseEvent_keeps hports (draw s).2 _ _ _ _
  · rfl

theorem reported_strapChecked (s : State) : Reported s (strapChecked s) :=
  reported_ite ((Reported.of s rfl).trans (reported_raiseEvent (draw s).2 _ _ _ _)) (Reported.refl s)

/-- The ring interface as phase 3 begins. -/
def electing (s t : State) : State := { t with ri := { t.ri with
  state := 3, phase := 3, phaseAt := t.clock, maxRtb := t.power.rtb, elected := none, probeSent := none, measured := none
  retrainAt := none, best := if s.ri.hfSel && s.pins.refA then some (t.store.serial, 0) else none } }

theorem startElect_eq (s : State) : startElect s = sendControl (electing s (strapChecked s)) 1
    (claimFields (strapChecked s).ri.hfSel (s.ri.hfSel && s.pins.refA) (strapChecked s).store.serial.toNat (rtb (strapChecked s)) 0) := rfl

/-- The claim that goes out leaves what is neither a link nor an output. -/
theorem startElect_keeps {β : Type} {f : State → β} (hlink : ∀ s p g, f (modLink s p g) = f s) (hemit : ∀ s o, f (emit s o) = f s)
    (s : State) : f (startElect s) = f (electing s (strapChecked s)) := by
  rw [startElect_eq]
  exact sendFlit_keeps hlink hemit _ _ _ _ _

theorem changeView_startElect (s : State) : changeView (startElect s) = changeView s := by
  rw [startElect_keeps (f := changeView) (fun _ _ _ => rfl) (fun _ _ => rfl)]
  have hreport := reported_strapChecked s
  have hri := strapChecked_ri (f := fun r => (r.changing, r.changeCause, r.generation)) (fun _ _ => rfl) s
  simp only [Prod.mk.injEq] at hri
  obtain ⟨hchanging, hcause, hgeneration⟩ := hri
  unfold changeView electing
  rw [hreport.sq, hreport.cx, hreport.powerState, hchanging, hcause, hgeneration]

theorem startElect_phase (s : State) : (startElect s).ri.phase = 3 :=
  startElect_keeps (f := fun u => u.ri.phase) (fun _ _ _ => rfl) (fun _ _ => rfl) s

theorem startElect_store (s : State) : (startElect s).store = s.store :=
  (startElect_keeps (f := State.store) (fun _ _ _ => rfl) (fun _ _ => rfl) s).trans (reported_strapChecked s).store

/-- A claim of another device meets the device as its training makes it. -/
theorem execClaimFlit_congr {s t : State} {serial : BitVec 64} (hserial : t.store.serial = s.store.serial) (hother : serial ≠ s.store.serial)
    (hjoin : joinElect t = joinElect s) (h c : Bool) (mx : BitVec 64) (n : BitVec 8) :
    execClaimFlit h c serial mx n true t = execClaimFlit h c serial mx n true s := by
  have hother' : serial ≠ t.store.serial := by rwa [hserial]
  unfold execClaimFlit
  simp only [if_neg hother, if_neg hother', hjoin, Bool.not_true, Bool.false_eq_true, if_false]

theorem joinElect_training {s : State} (h : s.ri.phase ≠ 0) : joinElect s = s := if_neg (fun hj => h hj.1)

section
variable {s : State} {serial : BitVec 64} (hphase : s.ri.phase = 3) (h c : Bool) (mx : BitVec 64) (n : BitVec 8)

include hphase

theorem execClaimFlit_own (hown : serial = s.store.serial) : execClaimFlit h c serial mx n true s = .next (claimsDone s (n.toNat + 1)) := by
  unfold execClaimFlit
  simp only [if_pos hown, if_pos hphase]
  rfl

/-- In phase 3 another device's claim counts if it is lower, and goes on. -/
theorem execClaimFlit_other (hother : serial ≠ s.store.serial) : execClaimFlit h c serial mx n true s = .next (sendControl { s with
    ri := { s.ri with
      best := match s.ri.best with
        | some (b, k) => if c = true ∧ serial.toNat < b.toNat then some (serial, n.toNat + 1) else some (b, k)
        | none => if c = true then some (serial, n.toNat + 1) else none
      maxRtb := if s.ri.maxRtb.toNat < mx.toNat then mx else s.ri.maxRtb } } 1
    (claimFields h c serial.toNat mx.toNat (n.toNat + 1))) := by
  have hjoin : joinElect s = s := joinElect_training (by rw [hphase]; decide)
  unfold execClaimFlit
  simp only [if_neg hother, hjoin, hphase, Bool.and_eq_true, decide_eq_true_eq]
  rfl

end

/-- With a candidate and the reference in lock, the device's own claim begins the measurement. -/
theorem claimsDone_locked {s : State} {b : BitVec 64} {k : Nat} (hbest : s.ri.best = some (b, k)) (n : Nat)
    (hhold : s.power.pllHold = none) (hpending : s.power.pllPending = false)
    (hselect : pllSelect { s with ri := { s.ri with elected := some (k, n), phase := 4, phaseAt := s.clock } } = s.power.pllRef) :
    claimsDone s n = startMeasure { s with ri := { s.ri with elected := some (k, n), phase := 4, phaseAt := s.clock } } := by
  unfold claimsDone
  rw [hbest]
  refine (if_neg ?_).trans (if_neg (Bool.eq_false_iff.mp hpending))
  rintro (hne | hsome)
  · exact hne hselect
  · rw [hhold] at hsome
    simp at hsome

/-! ### A membership change (R432, R492) -/

theorem changeView_beginChange (s : State) (cause : Nat) (trip : Bool) :
    changeView (beginChange s cause trip) = changeView (changeBegun s cause trip) := by
  rw [beginChange_eq, apply_ite changeView, apply_ite changeView, changeView_startElect, changeView_startBringup, ite_self, ite_self]

/-- The staged image goes with the change. -/
theorem changeDiscards_staged {s : State} (hstaged : s.cx.hoState = 1 ∨ s.cx.hoState = 2 ∨ s.cx.hoState = 3)
    (hpending : s.cx.hoPending = false) (hhalt : s.sq.haltHandoff = false) (cause : Nat) : (changeDiscards s cause).cx.staged = none := by
  unfold changeDiscards
  rw [if_pos ⟨hstaged, by rw [hpending]; rfl, by rw [hhalt]; rfl⟩]
  unfold discardStaged
  dsimp only
  rw [(reported_raiseEvent _ _ _ _ _).cx]

/-- An image whose handoff is pending stays. -/
theorem changeDiscards_pending {s : State} (hpending : s.cx.hoPending = true) (cause : Nat) : changeDiscards s cause = s := by
  unfold changeDiscards
  rw [if_neg (by rw [hpending]; simp)]

theorem changeView_changeBegun (s : State) (cause : Nat) (trip : Bool) : changeView (changeBegun s cause trip) =
    (true, cause, s.ri.generation
    , { s.sq with idleRounds := false, retireWanted := if planAdmitted s then 2 else s.sq.retireWanted }
    , (changeBegun s cause trip).cx, s.power.state) := by
  have hri := changeBegun_ri (f := fun r => (r.changing, r.changeCause, r.generation)) (fun _ _ => rfl) s cause trip
  simp only [Prod.mk.injEq] at hri
  obtain ⟨hchanging, hcause, hgeneration⟩ := hri
  unfold changeView
  rw [changeBegun_sq, changeBegun_power, hchanging, hcause, hgeneration]

/-- What a change sets: it is under way for its cause, the admitted set is to be retired, the generation stands. -/
theorem beginChange_facts (s : State) (cause : Nat) (trip : Bool) : let t := beginChange s cause trip
    t.ri.changing = true ∧ t.ri.changeCause = cause ∧ t.ri.generation = s.ri.generation ∧
    t.sq.retireWanted = (if planAdmitted s then 2 else s.sq.retireWanted) ∧ t.cx = (changeBegun s cause trip).cx ∧
    t.power.state = s.power.state := by
  have hview := (changeView_beginChange s cause trip).trans (changeView_changeBegun s cause trip)
  simp only [changeView, Prod.mk.injEq] at hview
  obtain ⟨hchanging, hcause, hgeneration, hsq, hcx, hpower⟩ := hview
  exact ⟨hchanging, hcause, hgeneration, congrArg Sq.retireWanted hsq, hcx, hpower⟩

theorem retireForChange_cx (s : State) : (retireForChange s).cx = s.cx := (apply_ite State.cx ..).trans (ite_self _)

theorem retireForChange_haltHandoff (s : State) : (retireForChange s).sq.haltHandoff = s.sq.haltHandoff := by
  unfold retireForChange
  split <;> rfl

theorem changeBegun_staged {s : State} (hstaged : s.cx.hoState = 1 ∨ s.cx.hoState = 2 ∨ s.cx.hoState = 3)
    (hpending : s.cx.hoPending = false) (hhalt : s.sq.haltHandoff = false) (cause : Nat) (trip : Bool) :
    (changeBegun s cause trip).cx.staged = none := by
  refine changeDiscards_staged ?_ ?_ ?_ _
  · rw [retireForChange_cx]
    exact hstaged
  · rw [retireForChange_cx]
    exact hpending
  · rw [retireForChange_haltHandoff]
    exact hhalt

theorem changeBegun_pending {s : State} (hpending : s.cx.hoPending = true) (cause : Nat) (trip : Bool) :
    (changeBegun s cause trip).cx = s.cx := by
  unfold changeBegun
  rw [changeDiscards_pending (by rw [retireForChange_cx]; exact hpending), retireForChange_cx]

/-- A ring of one formed anew has its only member as headframe, counted as a change. -/
theorem reformSolo_facts (s : State) (cause : Nat) : let t := reformSolo s cause
    t.ri.valid = true ∧ t.ri.hf = true ∧ t.ri.count = 1 ∧ t.ri.position = 0 ∧ t.ri.state = 6 ∧
      t.ri.generation = (s.ri.generation + 1) % 256 ∧ t.ri.cause = cause := by
  have hgeneration : (changeDiscards (retireForChange s) 3).ri.generation = s.ri.generation :=
    (changeDiscards_ri (f := Ri.generation) (fun _ _ => rfl) _ _).trans (congrArg Ri.generation (retireForChange_ri s))
  rw [← hgeneration]
  unfold reformSolo
  dsimp only
  exact ⟨raiseEvent_keeps (f := Ri.valid) (fun _ _ => rfl) .., raiseEvent_keeps (f := Ri.hf) (fun _ _ => rfl) ..,
    raiseEvent_keeps (f := Ri.count) (fun _ _ => rfl) .., raiseEvent_keeps (f := Ri.position) (fun _ _ => rfl) ..,
    raiseEvent_keeps (f := Ri.state) (fun _ _ => rfl) .., raiseEvent_keeps (f := Ri.generation) (fun _ _ => rfl) ..,
    raiseEvent_keeps (f := Ri.cause) (fun _ _ => rfl) ..⟩

/-! ### Commands of departed members (R463) -/

theorem readyView_modHp (s : State) (port : Bool) (f : Hp → Hp) : readyView (modHp s port f) = readyView s := by
  unfold readyView modHp
  cases port <;> rfl

theorem readyView_hostSend (s : State) (port : Bool) (o : Output) : readyView (hostSend s port o) = readyView s := by
  unfold hostSend
  split
  · rfl
  · exact readyView_modHp s port _

theorem readyView_modQp (s : State) (port : Bool) (q : Nat) (f : Qp → Qp) : readyView (modQp s port q f) = readyView s :=
  readyView_modHp s port _

theorem readyView_qpSignal (s : State) (port : Bool) (pair : Nat) : readyView (qpSignal s port pair) = readyView s := by
  unfold qpSignal
  dsimp only
  split
  · rfl
  · rw [readyView_hostSend, readyView_modQp]

theorem readyView_writeEntry (s : State) (port : Bool) (pair head status kind : Nat) (result : List Byte) :
    readyView (writeEntry s port pair head status kind result) = readyView s := by
  unfold writeEntry
  dsimp only
  simp only [apply_ite readyView, readyView_qpSignal, readyView_modQp, readyView_hostSend, ite_self]

/-- The completion of a command leaves power state, sequencer and, but for links, the ring interface. -/
theorem readyView_complete (s : State) (i : Issuer) (status : Nat) (result : List Byte) :
    readyView (complete s i status result) = readyView s := by
  have hsend (s : State) (dst kind : Nat) (words : List Nat) (data : List Byte) : readyView (sendMessage s dst kind words data) = readyView s :=
    sendMessage_keeps (f := readyView) (fun _ _ _ => rfl) (fun _ _ => rfl) s _ _ _ _
  unfold complete
  dsimp only
  split
  · rfl
  · simp only [apply_ite readyView, hsend, tokenDrop, readyView_raiseEvent, readyView_writeEntry, readyView_modQp, readyView_modHp, ite_self]

theorem readyView_abortDeparted (s : State) (old ms : List Member) : readyView (abortDeparted s old ms) = readyView s :=
  forEach_keeps readyView _ _ (fun s _ => readyView_complete s _ _ _) s

/-- Renumbering is a matter of the handoff alone. -/
theorem readyView_renumberDone (s : State) (old ms : List Member) : readyView (renumberDone s old ms) = readyView s := rfl

/-! ### The published membership (R427, R428, R431) -/

/-- The members as a report gives them, this device's own record as the device knows it. -/
def reportedMembers (s : State) (p : Nat) (report : List (BitVec 64 × BitVec 256 × List (BitVec 6) × BitVec 16)) : List Member :=
  (report.map (fun r => ({ serial := r.1, digest := r.2.1, lanes := r.2.2.1.map (·.toNat), inbyeHop := r.2.2.2.toNat } : Member))).modify p
    (ownMember s)

/-- The members with the hop that OUTBYE-out of each leads over. -/
def publishedMembers (s : State) (p : Nat) (report : List (BitVec 64 × BitVec 256 × List (BitVec 6) × BitVec 16)) : List Member :=
  (upTo (reportedMembers s p report).length).zipWith (fun i m => { m with outbyeHop := outbyeOf (reportedMembers s p report) i })
    (reportedMembers s p report)

section
variable (s : State) (p : Nat) (report : List (BitVec 64 × BitVec 256 × List (BitVec 6) × BitVec 16))

theorem length_publishedMembers : (publishedMembers s p report).length = report.length := by
  simp [publishedMembers, reportedMembers, upTo]

theorem getElem?_publishedMembers (q : Nat) : (publishedMembers s p report)[q]? =
    ((reportedMembers s p report)[q]?).map (fun m => { m with outbyeHop := outbyeOf (reportedMembers s p report) q }) := by
  unfold publishedMembers
  rw [List.getElem?_zipWith]
  by_cases hq : q < (reportedMembers s p report).length
  · simp [upTo, hq]
  · simp [upTo, hq]

theorem getElem?_reportedMembers (q : Nat) : (reportedMembers s p report)[q]? = (report[q]?).map (fun r =>
    let m : Member := { serial := r.1, digest := r.2.1, lanes := r.2.2.1.map (·.toNat), inbyeHop := r.2.2.2.toNat }
    if p = q then ownMember s m else m) := by
  unfold reportedMembers
  rw [List.getElem?_modify, List.getElem?_map]
  cases report[q]? with
  | none => rfl
  | some r => by_cases hq : p = q <;> simp [hq]

theorem map_serial_publishedMembers : (publishedMembers s p report).map (·.serial) = report.map (·.1) := by
  refine List.ext_getElem? (fun q => ?_)
  rw [List.getElem?_map, List.getElem?_map, getElem?_publishedMembers, getElem?_reportedMembers]
  cases report[q]? with
  | none => rfl
  | some r => by_cases hq : p = q <;> simp [hq, ownMember]

/-- No hop of a report within the limit, and none this device measured, goes beyond 240 ticks. -/
theorem publishedMembers_hops (hreport : ∀ r ∈ report, r.2.2.2.toNat ≤ 240) (hmeasured : s.ri.measured.getD 0 ≤ 240) :
    (publishedMembers s p report).any (fun m => decide (240 < m.inbyeHop)) = false := by
  rw [List.any_eq_false]
  intro m hm
  obtain ⟨q, hq⟩ := List.mem_iff_getElem?.mp hm
  rw [getElem?_publishedMembers, getElem?_reportedMembers] at hq
  cases hr : report[q]? with
  | none => rw [hr] at hq; simp at hq
  | some r =>
    rw [hr] at hq
    have hhop := hreport r (List.mem_of_getElem? hr)
    have hown : m.inbyeHop ≤ 240 := by
      simp only [Option.map_some, Option.some.injEq] at hq
      subst hq
      by_cases hpq : p = q
      · cases hd : s.ri.measured with
        | none => simpa [hpq, ownMember, hd] using hhop
        | some d => simpa [hpq, ownMember, hd] using hmeasured
      · simpa [hpq] using hhop
    simpa using hown

end

/-- The published membership, before its event: the headframe's count of changes, or the report's. -/
def membershipTaken (s : State) (p n : Nat) (ms : List Member) (me : Member) (generation cause : Nat) : State :=
  { s with ri := { s.ri with
    state := 4, phase := 0, result := 0, retrainAt := none, members := ms, elected := none, changing := false
    statusCleared := false, valid := true, hf := p == 0, count := n, position := p, inbyeHop := me.inbyeHop, outbyeHop := me.outbyeHop
    generation := (reportOf s p generation cause).1, cause := (reportOf s p generation cause).2, changeCause := 5 } }

/-- A device in training becomes READY with its first membership, and empty rounds begin. -/
def membershipEntered (s : State) : State := startIdleRounds (if s.power.state = .ringTraining then enterReady s else s)

/-- The commands of departed members ended, before the new membership stands. -/
def departedEnded (s : State) (ms : List Member) : State := renumberDone (abortDeparted s s.ri.members ms) s.ri.members ms

theorem resolveOwners_nil (s : State) : resolveOwners s [] = s := by
  unfold resolveOwners
  exact forEach_keeps (fun u => u) _ _ (fun _ _ => rfl) s

theorem execMembershipPublish_new {s : State} {p : Nat} {report : List (BitVec 64 × BitVec 256 × List (BitVec 6) × BitVec 16)} {me : Member}
    (helected : s.ri.elected = some (p, report.length)) (hphase : s.ri.phase = 6) (hlen : report.length ≤ 64)
    (hme : (publishedMembers s p report)[p]? = some me) (hserial : me.serial = s.store.serial)
    (hhops : (publishedMembers s p report).any (fun m => decide (240 < m.inbyeHop)) = false) (hvalid : s.ri.valid = false)
    (hsame : (departedEnded s (publishedMembers s p report)).ri.valid = false) (generation cause : BitVec 8) :
    let t := membershipTaken (departedEnded s (publishedMembers s p report)) p report.length (publishedMembers s p report) me generation.toNat cause.toNat
    execMembershipPublish report generation cause [] s = .next (membershipEntered (raiseEvent t 7 0x05
      (info [(1, report.length), (1, p), (1, t.ri.generation), (1, t.ri.cause)]))) := by
  have hms : (publishedMembers s p report).length = report.length := length_publishedMembers s p report
  intro t
  unfold execMembershipPublish
  rw [helected]
  have hfits : ¬(s.ri.phase ≠ 6 ∨ (publishedMembers s p report).length ≠ report.length ∨ 64 < report.length ∨
      me.serial ≠ s.store.serial) := by
    rw [hms]
    rintro (h | h | h | h)
    · exact h hphase
    · exact h rfl
    · omega
    · exact h hserial
  have hnew : (s.ri.valid && !s.ri.changing && s.ri.members.map (fun m => (m.serial, m.inbyeHop)) ==
      (publishedMembers s p report).map (fun m => (m.serial, m.inbyeHop))) = false := by
    rw [hvalid]
    simp
  refine congrArg Host.Outcome.next ?_
  dsimp -zeta only
  extract_lets raw0 raw ms
  have hpublished : ms = publishedMembers s p report := rfl
  clear_value ms
  subst hpublished
  rw [hme]
  dsimp only
  rw [if_neg hfits, if_neg (Bool.eq_false_iff.mp hhops), if_neg (Bool.eq_false_iff.mp hnew)]
  rename_i same trained ended changed r kept src
  have hkept : kept = changed := if_neg (Bool.eq_false_iff.mp hsame)
  show membershipEntered (resolveOwners (raiseEvent { kept with ri := { kept.ri with
    statusCleared := false, valid := true, hf := p == 0, count := report.length, position := p, inbyeHop := me.inbyeHop
    outbyeHop := me.outbyeHop, generation := r.1, cause := r.2, changeCause := 5 } } 7 0x05
      (info [(1, report.length), (1, p), (1, r.1), (1, r.2)])) []) = _
  rw [resolveOwners_nil, hkept]
  rfl

/-- Where a view of power, sequencer and ring stands, the ring interface stands but for its links. -/
theorem ri_of_readyView {β : Type} {f : Ri → β} (hports : ∀ (r : Ri) ports, f { r with ports := ports } = f r) {s t : State}
    (h : readyView t = readyView s) : f t.ri = f s.ri := by
  simp only [readyView, Prod.mk.injEq] at h
  obtain ⟨-, -, -, hri⟩ := h
  rw [← hports t.ri [], hri, hports]

theorem readyView_departedEnded (s : State) (ms : List Member) : readyView (departedEnded s ms) = readyView s :=
  (readyView_renumberDone _ _ _).trans (readyView_abortDeparted s _ _)

/-- Entering the membership leaves of the ring interface all but its links. -/
theorem membershipEntered_ri {β : Type} {f : Ri → β} (hports : ∀ (r : Ri) ports, f { r with ports := ports } = f r) (s : State) :
    f (membershipEntered s).ri = f s.ri := by
  have hready := readyView_enterReady s
  simp only [readyView, Prod.mk.injEq] at hready
  obtain ⟨-, -, -, hri⟩ := hready
  have hentered : f (enterReady s).ri = f s.ri := by rw [← hports (enterReady s).ri [], hri, hports]
  unfold membershipEntered startIdleRounds
  dsimp only
  split
  · exact hentered
  · rfl

theorem membershipEntered_ready {s : State} (h : s.power.state = .ringTraining) : (membershipEntered s).power.state = .ready := by
  have hready := readyView_enterReady s
  simp only [readyView, Prod.mk.injEq] at hready
  obtain ⟨hstate, -⟩ := hready
  unfold membershipEntered
  rw [if_pos h]
  exact hstate

/-- The record of this device in what it publishes. -/
theorem publishedMembers_own {s : State} {p : Nat} {report : List (BitVec 64 × BitVec 256 × List (BitVec 6) × BitVec 16)}
    (h : (report[p]?).map (·.1) = some s.store.serial) : ∃ me, (publishedMembers s p report)[p]? = some me ∧ me.serial = s.store.serial ∧
      me.digest = s.store.idDigest ∧ me.lanes = (upTo 4).map (fun q => 8 * (getLink s q).width) := by
  rw [getElem?_publishedMembers, getElem?_reportedMembers]
  cases hr : report[p]? with
  | none => rw [hr] at h; cases h
  | some r =>
    rw [hr] at h
    refine ⟨_, rfl, ?_, ?_, ?_⟩
    · simpa [ownMember] using h
    · simp [ownMember]
    · simp [ownMember]

/-- The first membership of a device that had none. -/
theorem execMembershipPublish_facts {s : State} {p : Nat} {report : List (BitVec 64 × BitVec 256 × List (BitVec 6) × BitVec 16)}
    (helected : s.ri.elected = some (p, report.length)) (hphase : s.ri.phase = 6) (hlen : report.length ≤ 64)
    (hown : (report[p]?).map (·.1) = some s.store.serial) (hreport : ∀ r ∈ report, r.2.2.2.toNat ≤ 240)
    (hmeasured : s.ri.measured.getD 0 ≤ 240) (hvalid : s.ri.valid = false) (gen c : BitVec 8) :
    ∃ t, execMembershipPublish report gen c [] s = .next t ∧ t.ri.state = 4 ∧ t.ri.valid = true ∧ t.ri.hf = (p == 0) ∧
      t.ri.count = report.length ∧ t.ri.position = p ∧ t.ri.generation = (if p ≠ 0 then gen.toNat else if s.ri.changeCause = 1
        then s.ri.generation else (s.ri.generation + 1) % 256) ∧
      t.ri.cause = (if p = 0 then s.ri.changeCause else c.toNat) ∧ t.ri.phase = 0 ∧ t.sq.idleRounds = true ∧
      (t.ri.members[p]?).map (·.digest) = some s.store.idDigest ∧ (t.ri.members[p]?).map (·.lanes) =
        some ((upTo 4).map (fun q => 8 * (getLink s q).width)) ∧
      t.ri.members.map (·.serial) = report.map (·.1) ∧ (s.power.state = .ringTraining → t.power.state = .ready) := by
  obtain ⟨me, hme, hserial, hdigest, hlanes⟩ := publishedMembers_own hown
  have hended := readyView_departedEnded s (publishedMembers s p report)
  have hri {β : Type} {f : Ri → β} (hports : ∀ (r : Ri) ports, f { r with ports := ports } = f r) := ri_of_readyView hports hended
  have hcause : (departedEnded s (publishedMembers s p report)).ri.changeCause = s.ri.changeCause := hri (f := Ri.changeCause) (fun _ _ => rfl)
  have hgeneration : (departedEnded s (publishedMembers s p report)).ri.generation = s.ri.generation := hri (f := Ri.generation) (fun _ _ => rfl)
  have hpower : (departedEnded s (publishedMembers s p report)).power.state = s.power.state := congrArg Prod.fst hended
  have hexec := execMembershipPublish_new helected hphase hlen hme hserial (publishedMembers_hops s p report hreport hmeasured) hvalid
    ((hri (f := Ri.valid) (fun _ _ => rfl)).trans hvalid) gen c
  refine ⟨_, hexec, ?_⟩
  generalize ht : membershipTaken (departedEnded s (publishedMembers s p report)) p report.length (publishedMembers s p report) me
    gen.toNat c.toNat = t
  have hfinal {β : Type} {f : Ri → β} (hports : ∀ (r : Ri) ports, f { r with ports := ports } = f r) := (membershipEntered_ri hports
    (raiseEvent t 7 0x05 (info [(1, report.length), (1, p), (1, t.ri.generation), (1, t.ri.cause)]))).trans (raiseEvent_keeps hports t ..)
  have hmembers : (membershipEntered (raiseEvent t 7 0x05 (info [(1, report.length), (1, p), (1, t.ri.generation), (1, t.ri.cause)]))).ri.members =
      publishedMembers s p report := (hfinal (f := Ri.members) (fun _ _ => rfl)).trans (by rw [← ht]; rfl)
  refine ⟨(hfinal (f := Ri.state) (fun _ _ => rfl)).trans (by rw [← ht]; rfl), (hfinal (f := Ri.valid) (fun _ _ => rfl)).trans (by rw [← ht]; rfl),
    (hfinal (f := Ri.hf) (fun _ _ => rfl)).trans (by rw [← ht]; rfl), (hfinal (f := Ri.count) (fun _ _ => rfl)).trans (by rw [← ht]; rfl),
    (hfinal (f := Ri.position) (fun _ _ => rfl)).trans (by rw [← ht]; rfl), (hfinal (f := Ri.generation) (fun _ _ => rfl)).trans ?_,
    (hfinal (f := Ri.cause) (fun _ _ => rfl)).trans ?_, (hfinal (f := Ri.phase) (fun _ _ => rfl)).trans (by rw [← ht]; rfl), rfl, ?_, ?_, ?_, ?_⟩
  · rw [← ht, ← hcause, ← hgeneration]
    unfold membershipTaken reportOf
    by_cases hp : p = 0 <;> simp [hp]
  · rw [← ht, ← hcause]
    unfold membershipTaken reportOf
    by_cases hp : p = 0 <;> simp [hp]
  · rw [hmembers, hme, Option.map_some, hdigest]
  · rw [hmembers, hme, Option.map_some, hlanes]
  · rw [hmembers, map_serial_publishedMembers]
  · intro htraining
    refine membershipEntered_ready ((reported_raiseEvent _ _ _ _ _).powerState.trans ?_)
    rw [← ht]
    exact hpower.trans htraining

/-! ### The crosscut (R405-R407, R437) -/

/-- The membership left behind as the crosscut closes. -/
def membershipLeft (s : State) : State :=
  if s.ri.valid = true then beginChange (departedEnded s [{ serial := s.store.serial }]) 2
    (departedEnded s [{ serial := s.store.serial }]).power.railsByTrip
  else departedEnded s [{ serial := s.store.serial }]

/-- It leaves power and the generation, and has the admitted set of a member retired. -/
theorem membershipLeft_facts (s : State) : (membershipLeft s).power.state = s.power.state ∧
    (membershipLeft s).ri.generation = s.ri.generation ∧
    (s.ri.valid = true → planAdmitted s = true → (membershipLeft s).sq.retireWanted = 2) := by
  have hended := readyView_departedEnded s [{ serial := s.store.serial }]
  have hgeneration := ri_of_readyView (f := Ri.generation) (fun _ _ => rfl) hended
  simp only [readyView, Prod.mk.injEq] at hended
  obtain ⟨hpower, -, hsq, -⟩ := hended
  unfold membershipLeft
  cases s.ri.valid with
  | false => exact ⟨hpower, hgeneration, fun h => by cases h⟩
  | true =>
    obtain ⟨-, -, hkept, hretire, -, hstate⟩ := beginChange_facts (departedEnded s [{ serial := s.store.serial }]) 2
      (departedEnded s [{ serial := s.store.serial }]).power.railsByTrip
    refine ⟨hstate.trans hpower, hkept.trans hgeneration, fun _ hplan => hretire.trans (if_pos ?_)⟩
    unfold planAdmitted
    rw [hsq]
    exact hplan

/-- The crosscut settles closed: the module is absent from the ring. -/
theorem execCrosscutSettled_closed {s : State} {at0 : Nat} (h : s.ri.crosscutMoving = some (true, at0)) (light : Bool) :
    execCrosscutSettled light s = .next { membershipLeft s with ri := { (membershipLeft s).ri with
      crosscut := true, crosscutMoving := none, ports := [], light := light && mainPower (membershipLeft s)
      state := if mainPower (membershipLeft s) then 1 else 0
      statusCleared := false, valid := false, hf := false, count := 0, position := 0, inbyeHop := 0, outbyeHop := 0, members := [], phase := 0
      retrainAt := none, retime := [], packets := [], partialMsg := [], elected := none, changing := false
      generation := if s.ri.valid then ((membershipLeft s).ri.generation + 1) % 256 else (membershipLeft s).ri.generation } } := by
  unfold execCrosscutSettled
  rw [h]
  rfl

/-- The crosscut settles open: bring-up begins. -/
theorem execCrosscutSettled_open {s : State} {at0 : Nat} (h : s.ri.crosscutMoving = some (false, at0)) (hpower : 3 ≤ s.power.state.code)
    (light : Bool) : execCrosscutSettled light s = .next (startBringup { s with ri := { s.ri with
      crosscut := false, crosscutMoving := none, light := false, state := 2
      changeCause := if s.power.state = .ready then 2 else s.ri.changeCause } }) := by
  have hmain : mainPower s = true := decide_eq_true (by omega)
  unfold execCrosscutSettled
  rw [h]
  exact congrArg Host.Outcome.next (if_pos hmain)

/-! ### RI_TRAIN and RING_JOIN (R442, R503) -/

/-- JOIN of PF0 or management, while the crosscut is closed and still, opens it. -/
theorem writeRiTrain_join {s : State} {a : Accessor} {v : Nat} (hclosed : s.ri.crosscut = true) (hstill : s.ri.crosscutMoving = none)
    (hpower : mainPower s = true) (hwork : takesWork s 7 = true) (ha : a = .mgmt ∨ ∃ p, a = .pf0 p) (hjoin : bit v 31 = true) :
    writeRiTrain s a v = raiseEvent { s with ri := { s.ri with crosscutMoving := some (false, s.clock) } } 7 0x06
      (info [(1, 2), (1, 4)]) := by
  have hopens : openCrosscut s 4 = raiseEvent { s with ri := { s.ri with crosscutMoving := some (false, s.clock) } } 7 0x06
      (info [(1, 2), (1, 4)]) := by
    unfold openCrosscut
    rw [hstill, hclosed]
    rfl
  unfold writeRiTrain
  rw [hstill, ← hopens]
  rcases ha with rfl | ⟨p, rfl⟩ <;> simp [hclosed, hpower, show takesWork s pgRi = true from hwork, hjoin]

section
variable {s : State} (hopen : s.ri.crosscut = false) (hstill : s.ri.crosscutMoving = none)

include hopen hstill

/-- LEAVE of PF0, while the crosscut is open and still, closes it. -/
theorem writeRiTrain_leave {v : Nat} (p : Bool) (hwork : takesWork s 7 = true) (hleave : bit v 30 = true) : writeRiTrain s (.pf0 p) v =
    raiseEvent { s with ri := { s.ri with crosscutMoving := some (true, s.clock) } } 7 0x06 (info [(1, 1), (1, 3)]) := by
  have hcloses : closeCrosscut s 3 = raiseEvent { s with ri := { s.ri with crosscutMoving := some (true, s.clock) } } 7 0x06
      (info [(1, 1), (1, 3)]) := by
    unfold closeCrosscut
    rw [hstill, hopen]
    rfl
  unfold writeRiTrain
  rw [hstill, ← hcloses]
  simp [hopen, show takesWork s pgRi = true from hwork, hleave]

/-- RETRAIN of PF0 on the headframe. -/
theorem writeRiTrain_retrain {v : Nat} (p : Bool) (hwork : takesWork s 7 = true) (hjoin : bit v 31 = false) (hleave : bit v 30 = false)
    (hretrain : bit v 29 = true) (hvalid : s.ri.valid = true) (hhf : s.ri.hf = true) : writeRiTrain s (.pf0 p) v =
      if s.ri.count ≤ 1 then reformSolo s 4 else broadcast (beginChange s 4 false) 0x73 [] := by
  unfold writeRiTrain
  rw [hstill]
  simp [hopen, show takesWork s pgRi = true from hwork, hjoin, hleave, hretrain, hvalid, hhf]

/-- With the crosscut open a JOIN of management has no effect. -/
theorem writeRiTrain_joined : writeRiTrain s .mgmt (2 ^ 31) = s := by
  unfold writeRiTrain
  rw [hstill]
  simp [hopen]

end

/-- RING_JOIN is answered by whether the write of RI_TRAIN changed anything. -/
theorem execRingJoin_answered {s t : State} (hmgmt : mgmtUp s = true) (hpower : mainPower s = true)
    (h : writeRiTrain s .mgmt (2 ^ 31) = t) : execRingJoin s = .next (emit t (.mgmt 0x7E (if t = s then 0x01 else 0x00) [])) := by
  subst h
  exact congrArg Host.Outcome.next ((if_neg (by rw [hmgmt]; decide)).trans (if_neg (by rw [hpower]; decide)))

/-- The gate of a command bit that PF0 may write. -/
theorem mayWrite_and_bit {s : State} {p : Bool} {v : BitVec 32} {i : Nat} (hw : mayWrite s (.pf0 p) 7 = true) (h : v.getLsbD i = true) :
    (mayWrite s (.pf0 p) pgRi && bit v.toNat i) = true := by
  rw [show mayWrite s (.pf0 p) pgRi = true from hw, bit_toNat, h]
  rfl

/-! ### The timebase (R420, R428, R430) -/

/-- RTB never goes back. -/
theorem setRtb_rtb (s : State) (cycles : Nat) : (setRtb s cycles).power.rtb =
    if cycles / 16 < s.power.rtb.toNat then s.power.rtb else BitVec.ofNat 64 (cycles / 16) := by
  unfold setRtb rtb
  split <;> rfl

theorem setRtb_ri (s : State) (cycles : Nat) : (setRtb s cycles).ri = s.ri := (apply_ite State.ri ..).trans (ite_self _)

theorem execTimeFlit_probe {s : State} (hup : (getLink s 0).up = true) (count stamp : BitVec 64) (d : BitVec 16) :
    execTimeFlit 0 1 count stamp d true s = .next (sendControl s 3 (timeFields 2 count.toNat stamp.toNat)) := by
  have hgo : ¬((!true) = true ∨ (!(getLink s (0 : BitVec 2).toNat).up) = true) := by
    rw [show (getLink s (0 : BitVec 2).toNat).up = true from hup]
    decide
  unfold execTimeFlit
  rw [if_neg hgo, if_pos ⟨rfl, rfl⟩]

/-- The echo of a probe of a device that is not elected headframe gives the delay of its hop. -/
theorem execTimeFlit_echo {s : State} {p n : Nat} {stamp : BitVec 64} (hup : (getLink s 2).up = true) (hphase : s.ri.phase = 5)
    (hprobe : s.ri.probeSent = some stamp) (helected : s.ri.elected = some (p + 1, n)) (count : BitVec 64) (d : BitVec 16) :
    execTimeFlit 2 2 count stamp d true s = .next { s with ri := { s.ri with
      probeSent := none, measured := some ((s.clock / 2 - stamp.toNat + 1) / 2 + Config.fixedPath) } } := by
  have hgo : ¬((!true) = true ∨ (!(getLink s (2 : BitVec 2).toNat).up) = true) := by
    rw [show (getLink s (2 : BitVec 2).toNat).up = true from hup]
    decide
  unfold execTimeFlit
  rw [if_neg hgo, if_neg (by decide), if_pos ⟨rfl, rfl, hphase, hprobe⟩]
  simp only [helected]

/-- The set flit ends phase 5; the last member of the ring does not send it on. -/
theorem execTimeFlit_set {s : State} {p : Nat} (hup : (getLink s 0).up = true) (hphase : s.ri.phase = 5)
    (helected : s.ri.elected = some (p + 1, p + 2)) (count stamp : BitVec 64) (d : BitVec 16) :
    execTimeFlit 0 0 count stamp d true s = .next (let t := setRtb s (16 * count.toNat + 2 * d.toNat)
      { t with ri := { t.ri with phase := 6, phaseAt := t.clock } }) := by
  have hgo : ¬((!true) = true ∨ (!(getLink s (0 : BitVec 2).toNat).up) = true) := by
    rw [show (getLink s (0 : BitVec 2).toNat).up = true from hup]
    decide
  unfold execTimeFlit
  rw [if_neg hgo, if_neg (by decide), if_neg (fun h => absurd h.1 (by decide)), if_pos ⟨rfl, rfl, hphase⟩, helected]
  refine congrArg Host.Outcome.next ((if_neg (Nat.succ_ne_zero p)).trans (if_neg ?_))
  omega

end Sys2Proof.Machine

open Sys2Proof Sys2Proof.Machine

/-- Settles O60: claims, probes and timeouts by the branch they take, a change by what its retraining leaves (`beginChange_facts`), the report by
the state it publishes (`execMembershipPublish_new`), the crosscut by the membership left behind. -/
theorem ringTrainingMembershipAndCrosscut : Obligations.RingTrainingMembershipAndCrosscut := by
  unfold Obligations.RingTrainingMembershipAndCrosscut
  refine ⟨?claim, ?anew, ?time, ?timeout, ?retry, ?change, ?changed, ?publish, ?opened, ?closed, ?settled, reformSolo_facts, ?rate⟩
  case claim =>
    intro s h c serial mx n hphase
    refine ⟨fun hother => execClaimFlit_other hphase h c mx n hother, fun hown hnone => ?_, ?_⟩
    · refine (execClaimFlit_own hphase h c mx n hown).trans (congrArg _ ?_)
      unfold claimsDone
      rw [hnone]
    · intro b k hown hbest hhold hpending u hselect
      exact (execClaimFlit_own hphase h c mx n hown).trans (congrArg _ (claimsDone_locked hbest _ hhold hpending hselect))
  case anew =>
    intro s h c serial mx n hphase hvalid hopen hpower hports hother
    have hjoin : joinElect s = startElect s := if_pos ⟨hphase, hvalid, by rw [hopen]; rfl, hpower, hports⟩
    have hagain : joinElect (startElect s) = startElect s := joinElect_training (by rw [startElect_phase]; decide)
    exact (execClaimFlit_congr (congrArg RecStore.serial (startElect_store s)) hother (hagain.trans hjoin.symm) h c mx n).symm
  case time =>
    intro s count stamp d
    refine ⟨fun hup => execTimeFlit_probe hup count stamp d, fun p n hup hphase hprobe helected =>
      execTimeFlit_echo hup hphase hprobe helected count d, fun p hup hphase helected =>
      ⟨_, execTimeFlit_set hup hphase helected count stamp d, rfl, setRtb_rtb s _⟩⟩
  case timeout =>
    intro s limit hphase hlate
    refine congrArg Host.Outcome.next ((if_neg ?_).trans (if_neg ?_))
    · rintro (h | h)
      · omega
      · exact absurd hlate (Nat.not_le.mpr h)
    · rintro ⟨h, -⟩
      omega
  case retry =>
    intro s t hretrain hdue hstate
    have hexec : execTrainingRetry s = .next (if portsUp s ∧ 7 ≤ s.power.state.code then startElect s else startBringup s) := by
      unfold execTrainingRetry
      rw [hretrain]
      exact congrArg Host.Outcome.next (if_neg (by omega))
    refine ⟨fun hports hpower => hexec.trans (congrArg _ (if_pos ⟨hports, hpower⟩)), fun hports hopen hpower => hexec.trans ?_⟩
    refine congrArg Host.Outcome.next ((if_neg (by rw [hports]; simp)).trans (if_neg ?_))
    rw [hopen]
    simpa using hpower
  case change =>
    intro s c tr hvalid hcount hlo hhi
    refine congrArg Host.Outcome.next (if_neg ?_)
    rw [hvalid]
    rintro (h | h | h | h)
    · cases h
    all_goals omega
  case changed =>
    intro s k tr t
    obtain ⟨hchanging, hcause, -, hretire, hcx, -⟩ := beginChange_facts s k tr
    refine ⟨hchanging, hcause, hretire, fun hstaged hpending hhalt => ?_, fun hpending => ?_⟩
    · exact (congrArg Cx.staged hcx).trans (changeBegun_staged hstaged hpending hhalt k tr)
    · exact congrArg Cx.staged (hcx.trans (changeBegun_pending hpending k tr))
  case publish =>
    exact fun s report gen c p helected hphase hlen hown hreport hmeasured hvalid =>
      execMembershipPublish_facts helected hphase hlen hown hreport hmeasured hvalid gen c
  case opened =>
    intro s hopen hstill
    have hcloses : closeCrosscut s 0 = { s with ri := { s.ri with crosscutMoving := some (true, s.clock) } } := by
      unfold closeCrosscut
      rw [hstill, hopen]
      rfl
    refine ⟨fun hpower => congrArg Host.Outcome.next ((if_pos (.inl (by rw [hpower]; rfl))).trans hcloses), fun p v hw hwork hleave => ?_,
      fun p v hw hwork hjoin hleave hretrain hvalid hhf => ?_, fun hmgmt hpower => ?_⟩
    · exact congrArg Host.Outcome.next ((if_pos (mayWrite_and_bit hw hleave)).trans
        (writeRiTrain_leave hopen hstill p hwork ((bit_toNat v 30).trans hleave)))
    · have hexec : exec (.riRetrain (.pf0 p) v) s = .next (if s.ri.count ≤ 1 then reformSolo s 4
          else broadcast (beginChange s 4 false) 0x73 []) :=
        congrArg Host.Outcome.next ((if_pos (mayWrite_and_bit hw hretrain)).trans (writeRiTrain_retrain hopen hstill p hwork
          ((bit_toNat v 31).trans hjoin) ((bit_toNat v 30).trans hleave) ((bit_toNat v 29).trans hretrain) hvalid hhf))
      exact ⟨fun hmany => hexec.trans (congrArg _ (if_neg (by omega))), fun halone => hexec.trans (congrArg _ (if_pos halone))⟩
    · refine (execRingJoin_answered hmgmt hpower (writeRiTrain_joined hopen hstill)).trans ?_
      rw [if_pos rfl]
  case closed =>
    intro s hclosed hstill hpower hwork t
    refine ⟨fun p v hw hjoin => ?_, fun hmgmt => ?_⟩
    · exact congrArg Host.Outcome.next ((if_pos (mayWrite_and_bit hw hjoin)).trans
        (writeRiTrain_join hclosed hstill hpower hwork (.inr ⟨p, rfl⟩) ((bit_toNat v 31).trans hjoin)))
    · have hmoves : t ≠ s := by
        intro h
        have hmoving : t.ri.crosscutMoving = some (false, s.clock) := raiseEvent_keeps (f := Ri.crosscutMoving) (fun _ _ => rfl) ..
        rw [h, hstill] at hmoving
        cases hmoving
      refine (execRingJoin_answered hmgmt hpower (writeRiTrain_join hclosed hstill hpower hwork (.inl rfl) (by decide))).trans ?_
      rw [if_neg hmoves]
  case settled =>
    intro s light at0
    refine ⟨fun hmoving => ?_, fun hmoving hpower => ?_⟩
    · obtain ⟨hstate, hgeneration, hretire⟩ := membershipLeft_facts s
      refine ⟨_, execCrosscutSettled_closed hmoving light, rfl, rfl, rfl, rfl, rfl, rfl, rfl, ?_, ?_, hretire⟩
      · unfold mainPower
        rw [hstate]
      · rw [hgeneration]
    · refine (execCrosscutSettled_open hmoving hpower light).trans (congrArg _ (if_neg ?_))
      simpa using hpower
  case rate =>
    intro s p v lo hi hw
    have hgo : (mayWrite s (.pf0 p) pgRi && (Accessor.pf0 p != .mgmt)) = true := by rw [show mayWrite s (.pf0 p) pgRi = true from hw]; rfl
    have hlo : bits v.toNat 0 4 = lo := bits_low _ _
    have hhi : bits v.toNat 4 4 = hi := rfl
    refine congrArg Host.Outcome.next ((if_pos hgo).trans ?_)
    unfold writeRiLinkRate
    rw [hlo, hhi]
    by_cases hok : 1 ≤ lo ∧ lo ≤ hi ∧ hi ≤ 4 ∧ hi ≤ s.manifest.fibresMax
    · rw [if_pos hok]
      exact if_neg (by omega)
    · rw [if_neg hok]
      exact if_pos (by omega)
end

section
/-! SUPPORT. The idle cycle: what every part of it leaves of the clock and RTB, and what is left altogether where nothing is under way (R621,
R622, log entry 2). -/

namespace Sys2Proof.Machine

/-! ### Changes that take no time -/

/-- The clock and RTB stand. -/
def Timeless (s t : State) : Prop := t.clock = s.clock ∧ t.power.rtb = s.power.rtb

theorem Timeless.refl (s : State) : Timeless s s := ⟨rfl, rfl⟩

theorem Timeless.trans {s t u : State} (h : Timeless s t) (g : Timeless t u) : Timeless s u := ⟨g.1.trans h.1, g.2.trans h.2⟩

theorem timeless_ite {c : Prop} [Decidable c] {s a b : State} (ha : Timeless s a) (hb : Timeless s b) :
    Timeless s (if c then a else b) := by
  split <;> assumption

theorem timeless_forEach {α : Type} {l : List α} {f : State → α → State} (hf : ∀ s a, Timeless s (f s a)) (s : State) :
    Timeless s (forEach l f s) := by
  unfold forEach
  induction l generalizing s with
  | nil => exact Timeless.refl s
  | cons a l ih => exact (hf s a).trans (ih _)

theorem Reported.timeless {s t : State} (h : Reported s t) : Timeless s t := by
  obtain ⟨head, batch, cycle, hpower⟩ := h.power
  exact ⟨h.clock, by rw [hpower]⟩

theorem Sent.timeless {s t : State} (h : Sent s t) : Timeless s t := (reported_sent h).timeless

theorem timeless_modCore (s : State) (c : Nat) (f : Core → Core) : Timeless s (modCore s c f) := ⟨rfl, rfl⟩

theorem timeless_modTile (s : State) (i : Nat) (f : Tile → Tile) : Timeless s (modTile s i f) := ⟨rfl, rfl⟩

theorem timeless_modTg (s : State) (g : Nat) (f : Tg → Tg) : Timeless s (modTg s g f) := ⟨rfl, rfl⟩

/-! ### Faults and freezes (R47, R256, R295) -/

theorem timeless_freeze (s : State) (page kind master code addr : Nat) : Timeless s (freeze s page kind master code addr) := by
  unfold freeze
  extract_lets h entry s1 s2 h2
  have h1 : Timeless s s1 := timeless_ite (Timeless.refl s) ⟨rfl, rfl⟩
  have h2 : Timeless s1 s2 := ⟨rfl, rfl⟩
  exact (h1.trans h2).trans (reported_raiseEvent s2 _ _ _ _).timeless

theorem timeless_posFault (s : State) (cause : Nat) : Timeless s (posFault s cause) := timeless_ite ⟨rfl, rfl⟩ ⟨rfl, rfl⟩

theorem timeless_freezeCore (s : State) (c code addr : Nat) : Timeless s (freezeCore s c code addr) := by
  have hzero (t : State) : Timeless t (zeroFetches t c) := by
    unfold zeroFetches
    split
    · exact Timeless.refl t
    · exact ⟨rfl, rfl⟩
  exact ((timeless_freeze s _ _ _ _ _).trans (hzero _)).trans (timeless_posFault _ _)

theorem timeless_faultAt (s : State) (p cause : Nat) : Timeless s (faultAt s p cause) := by
  unfold faultAt
  split
  · exact timeless_ite (timeless_posFault s cause) ⟨rfl, rfl⟩
  · exact ⟨rfl, rfl⟩

theorem timeless_scratchEcc (s : State) (c : Nat) (sp : List (Nat × Nat)) (ecc : List (Nat × Bool)) : Timeless s (scratchEcc s c sp ecc) := by
  unfold scratchEcc
  extract_lets mine s1
  have h1 : Timeless s s1 := timeless_modCore s c _
  refine timeless_ite (Timeless.refl s) ?_
  split
  · exact h1.trans (timeless_freezeCore _ _ _ _)
  · exact h1

/-! ### Transfers that are being sent, and step headers (R314, R416, R421) -/

theorem timeless_sendPiece (s : State) (r : Ring) (x : Sending) : Timeless s (sendPiece s r x) := by
  unfold sendPiece
  extract_lets lo hi a b y s1 s2
  have h1 : Timeless s s1 := timeless_ite (timeless_scratchEcc s _ _ _) (Timeless.refl s)
  have h2 : Timeless s1 s2 := (sent_sendFlits s1 _ _ _ _ _).timeless
  exact (h1.trans h2).trans (timeless_ite ⟨rfl, rfl⟩ (Timeless.refl s2))

theorem timeless_sendTick (s : State) : Timeless s (sendTick s) := by
  have hstart : Timeless s { s with ri := { s.ri with sending := [] } } := ⟨rfl, rfl⟩
  refine hstart.trans (timeless_forEach (fun s x => ?_) _)
  split
  · exact timeless_sendPiece s _ x
  · exact Timeless.refl s

theorem timeless_headerArrived (s : State) (x : Pos) (r : Ring) (t : Transfer) (data : List Byte) :
    Timeless s (headerArrived s x r t data) := by
  unfold headerArrived
  extract_lets p n fed table runs es s1
  refine timeless_ite ⟨rfl, rfl⟩ ?_
  split
  · exact timeless_ite ⟨rfl, rfl⟩ ⟨rfl, rfl⟩
  · exact ⟨rfl, rfl⟩

theorem timeless_takeHeaders (s : State) : Timeless s (takeHeaders s) := by
  refine timeless_forEach (fun s t => ?_) s
  unfold takeHeader
  extract_lets _ s1
  have h1 : Timeless s s1 := ⟨rfl, rfl⟩
  split
  · exact h1
  · exact h1.trans (timeless_ite (Timeless.refl s1) (timeless_headerArrived s1 _ _ _ _))

/-! ### The end of a cycle at the cores (R192, R208, R209) -/

theorem timeless_commitArrival (s : State) (c : Nat) (x : Arrival) : Timeless s (commitArrival c s x) := by
  have hslot (i o : Nat) : Timeless s (fullSlotFreeze s c x i o) :=
    timeless_ite ((timeless_modCore s _ _).trans (timeless_freezeCore _ _ _ _))
      (timeless_ite ((timeless_freeze s _ _ _ _ _).trans (timeless_faultAt _ _ _)) ((timeless_freeze s _ _ _ _ _).trans (timeless_faultAt _ _ _)))
  refine timeless_ite (Timeless.refl s) ?_
  split
  · exact hslot _ _
  · exact timeless_modCore s c _

theorem timeless_commitCore (s : State) (c : Nat) : Timeless s (commitCore s c) :=
  ((timeless_modCore s c _).trans (timeless_forEach (fun s x => timeless_commitArrival s c x) _)).trans
    (timeless_forEach (fun s x => timeless_commitArrival s c x) _)

theorem timeless_closeBlocks (s : State) (c : Nat) : Timeless s (closeBlocks s c) :=
  (timeless_modCore s c _).trans (timeless_forEach (fun s _ => timeless_ite (Timeless.refl s) (timeless_modCore s c _)) _)

theorem timeless_cycleEnd (s : State) (tick : Bool) : Timeless s (cycleEnd s tick) := by
  unfold cycleEnd
  extract_lets s1 s2 s3
  have h1 : Timeless s s1 := timeless_forEach timeless_commitCore s
  have h2 : Timeless s1 s2 := ⟨rfl, rfl⟩
  have h3 : Timeless s2 s3 := timeless_ite (timeless_forEach timeless_closeBlocks s2) (Timeless.refl s2)
  exact ((h1.trans h2).trans h3).trans (timeless_takeHeaders s3)

theorem timeless_beatAdvance (s : State) : Timeless s (beatAdvance s) := by
  unfold beatAdvance
  split
  · exact Timeless.refl s
  · extract_lets s1
    have h1 : Timeless s s1 := ⟨rfl, rfl⟩
    obtain ⟨tiles, hbias⟩ := exists_biasTick s1 ((‹Live›.cycle + 1) / 2)
    refine h1.trans (timeless_ite ?_ (Timeless.refl s1))
    rw [hbias]
    exact ⟨rfl, rfl⟩

/-! ### Programming work that waits (R166-R171, R642) -/

theorem timeless_dropJob (s : State) (tile : Nat) : Timeless s (dropJob s tile) := ⟨rfl, rfl⟩

theorem timeless_setRelief (s : State) (g j : Nat) (r : ReliefReg) (n : Nat) : Timeless s (setRelief s g j r n) := ⟨rfl, rfl⟩

theorem timeless_freeRelief (s : State) (i : Nat) : Timeless s (freeRelief s i) := timeless_ite (Timeless.refl s) (timeless_setRelief s _ _ _ _)

theorem timeless_retireRelief (s : State) (g j : Nat) : Timeless s (retireRelief s g j) := by
  unfold retireRelief
  extract_lets r was s1
  have h1 : Timeless s s1 := (timeless_setRelief s _ _ _ _).trans (reported_checkReserve _ _ _).timeless
  exact h1.trans (timeless_ite (reported_raiseEvent s1 _ _ _ _).timeless (Timeless.refl s1))

theorem timeless_retireTile (s : State) (i shown : Nat) : Timeless s (retireTile s i shown) := by
  unfold retireTile
  extract_lets s1 s2 _ s3 s4
  have h4 : Timeless s s4 := ⟨rfl, rfl⟩
  exact h4.trans (timeless_ite (timeless_modTile s4 _ _) (timeless_retireRelief s4 _ _))

theorem timeless_loseTile (s : State) (g l cause : Nat) : Timeless s (loseTile s g l cause) :=
  timeless_ite (Timeless.refl s) ((((timeless_retireTile s _ _).trans (timeless_modTile _ _ _)).trans (timeless_modTg _ _ _)).trans
    (reported_raiseEvent _ _ _ _ _).timeless)

theorem timeless_loseLater (s : State) (no g : Nat) (ls : List (Nat × Binding)) (cause : Nat) : Timeless s (loseLater s no g ls cause) := by
  have hload : Timeless s (modLoad s no (fun x => { x with unavailable := x.unavailable + ls.length })) := ⟨rfl, rfl⟩
  exact timeless_ite (hload.trans (timeless_forEach (fun s x => timeless_loseTile s _ _ _) _)) ⟨rfl, rfl⟩

theorem takeRelief_timeless {s t : State} {g : Nat} {seam : Bool} {ls tiles : List Nat} (h : takeRelief s g seam ls = some (t, tiles)) :
    Timeless s t := by
  unfold takeRelief at h
  dsimp only at h
  split at h
  · cases h
  · cases h
    have hdraw : Timeless s (draw s).2 := ⟨rfl, rfl⟩
    exact hdraw.trans (timeless_forEach (fun s x => (timeless_setRelief s _ _ _ _).trans (reported_checkReserve _ _ _).timeless) _)

theorem timeless_relieve (s : State) (kind no : Nat) (again : Bool) (g : Nat) (ls : List (Nat × Binding)) :
    Timeless s (relieve s kind no again g ls) := by
  unfold relieve
  split
  · exact timeless_loseLater s _ _ _ _
  · next t tiles h =>
    refine (takeRelief_timeless h).trans (timeless_ite ⟨rfl, rfl⟩ ?_)
    exact (timeless_forEach timeless_freeRelief t).trans (timeless_loseLater _ _ _ _ _)

theorem timeless_failInPlace (s : State) (no g l : Nat) (b : Binding) : Timeless s (failInPlace s no g l b) := by
  unfold failInPlace
  extract_lets ls s1
  have hdrop (t : State) (j : Job) : Timeless t (dropJob t j.tile) := timeless_dropJob t j.tile
  have h1 : Timeless s s1 := timeless_forEach hdrop s
  exact h1.trans (timeless_relieve s1 _ _ _ _ _)

theorem timeless_dropLoadRec (s : State) (g l : Nat) : Timeless s (dropLoadRec s g l) := by
  unfold dropLoadRec
  split
  · exact Timeless.refl s
  · extract_lets _ s1 s2
    have h1 : Timeless s s1 := ⟨rfl, rfl⟩
    have h2 : Timeless s1 s2 := timeless_ite ⟨rfl, rfl⟩ (Timeless.refl s1)
    exact (h1.trans h2).trans (reported_raiseEvent s2 _ _ _ _).timeless

theorem timeless_failTarget (s : State) (j : Job) : Timeless s (failTarget s j) := by
  unfold failTarget
  extract_lets ps ls s1 s2
  have h1 : Timeless s s1 := (timeless_dropJob s _).trans (timeless_retireTile _ _ _)
  have h2 : Timeless s1 s2 := timeless_forEach (fun s k => (timeless_dropJob s _).trans (timeless_freeRelief _ _)) s1
  exact (h1.trans h2).trans (timeless_relieve s2 _ _ _ _ _)

theorem timeless_reportAssay (s : State) (a : Assay) (fail : Bool) : Timeless s (reportAssay s a fail) := by
  unfold reportAssay
  extract_lets _ s1 body
  have h1 : Timeless s s1 := ⟨rfl, rfl⟩
  exact h1.trans (timeless_ite (reported_raiseEvent s1 _ _ _ _).timeless (reported_raiseEvent s1 _ _ _ _).timeless)

theorem timeless_failJob (s : State) (j : Job) : Timeless s (failJob s j) := by
  have hretired : Timeless s (retireTile (dropJob s j.tile) j.tile 1) := (timeless_dropJob s _).trans (timeless_retireTile _ _ _)
  have hassay : Timeless s (failAssayTile s j) := by
    unfold failAssayTile
    extract_lets s1
    split
    · exact hretired.trans ((show Timeless s1 (setAssayResult s1 1 0 0) from ⟨rfl, rfl⟩).trans (timeless_reportAssay _ _ _))
    · exact hretired
  have herased : Timeless s (unbindErased s j.group j.logical) := (timeless_dropLoadRec s _ _).trans ⟨rfl, rfl⟩
  exact timeless_ite hassay (timeless_ite hretired (timeless_ite (timeless_failTarget s j)
    (timeless_ite (herased.trans (timeless_failInPlace _ _ _ _ _)) (timeless_failInPlace s _ _ _ _))))

theorem timeless_startJob (s : State) (j : Job) : Timeless s (startJob s j) := by
  have hunreadable : Timeless s (unreadable s j) :=
    (timeless_forEach (fun s k => (timeless_dropJob s _).trans (timeless_freeRelief _ _)) s).trans (timeless_loseLater _ _ _ _ _)
  refine timeless_ite (Timeless.refl s) (timeless_ite hunreadable (timeless_ite (timeless_dropJob s _) (timeless_ite (timeless_failJob s j) ?_)))
  extract_lets s1 s2 s3
  have h2 : Timeless s s2 := ⟨rfl, rfl⟩
  have h3 : Timeless s2 s3 := timeless_ite ⟨rfl, rfl⟩ (Timeless.refl s2)
  exact h2.trans (h3.trans (timeless_modTg s3 _ _))

theorem timeless_waitingJobs (s : State) : Timeless s (waitingJobs s) :=
  timeless_ite ((timeless_forEach timeless_startJob s).trans (timeless_forEach timeless_startJob _)) (Timeless.refl s)

/-! ### Host reads and the headframe's clock (R449, R620) -/

theorem timeless_issueReads (s : State) (port : Bool) : Timeless s (issueReads s port) := by
  have hmod (s : State) (f : Hp → Hp) : Timeless s (modHp s port f) := ⟨modHp_clock .., by rw [modHp_power]⟩
  unfold issueReads
  extract_lets s1
  have h1 : Timeless s s1 := timeless_forEach (fun s f => timeless_ite (hmod s _) (Timeless.refl s)) s
  exact h1.trans (timeless_forEach (fun s sid => (⟨rfl, rfl⟩ : Timeless s (modStream s sid _))) s1)

theorem timeless_repeatClock (s : State) : Timeless s (repeatClock s) := by
  have hmeasure (t : State) : Timeless t (startMeasure t) :=
    (show Timeless t { t with ri := { t.ri with
      state := 3, phase := 5, phaseAt := t.clock, probeSent := some (BitVec.ofNat 64 (t.clock / 2)), measured := none } } from ⟨rfl, rfl⟩).trans
      (sent_sendControl _ _ _ _).timeless
  unfold repeatClock
  extract_lets _ s1
  have h1 : Timeless s s1 := ⟨rfl, rfl⟩
  exact h1.trans (timeless_ite ((sent_broadcast s1 _ _ _).timeless.trans (hmeasure _)) (Timeless.refl s1))

/-! ### The idle cycle (R621, R622) -/

/-- A cycle of RTB's sixteen passes. -/
def rtbTicked (s : State) : State :=
  if (s.clock + s.power.rtbPhase) % 16 = 0 then { s with power := { s.power with rtb := s.power.rtb + 1 } } else s

/-- Each tick takes the transfers that are being sent further. -/
def transfersTicked (s : State) : State := if (s.clock + s.power.rtbPhase) % 2 = 0 then sendTick s else s

/-- Sump records lost in the cycle before are reported. -/
def lostReported (s : State) : State :=
  forEach s.ms.lost (fun s w => eccEvent s w rdPartial 0xFFFF) { s with ms := { s.ms with lost := [] } }

/-- What a cycle moves on. -/
def cycleMoved (s : State) (tick : Bool) : State := issueReads (issueReads (waitingJobs (beatAdvance (cycleEnd s tick))) false) true

/-- The headframe's lost reference, back in lock, begins phase 4 anew. -/
def clockRepeated (s : State) : State := if s.power.refLostHf && !refFault s then repeatClock s else s

/-- The cycle that ends ends a tick. -/
def endsTick (s : State) : Bool := match s.sq.live with
  | some l => l.cycle % 2 == 1
  | none => true

theorem idleCycle_on {s : State} (hpower : mainPower s = true) (hlock : s.power.pllLocked = true) : idleCycle s =
    clockRepeated (cycleMoved (lostReported (transfersTicked (rtbTicked { s with clock := s.clock + 1 })))
      (endsTick (rtbTicked { s with clock := s.clock + 1 }))) := by
  have hgo : (mainPower { s with clock := s.clock + 1 } && s.power.pllLocked) = true := by
    rw [show mainPower { s with clock := s.clock + 1 } = true from hpower, hlock]
    rfl
  unfold idleCycle
  extract_lets s1 _ s2 tick s3 _ s4 s5
  rw [if_pos hgo]
  have h2 : s2 = rtbTicked s1 := rfl
  have htick : tick = endsTick s2 := rfl
  have h3 : s3 = transfersTicked s2 := rfl
  have h4 : s4 = lostReported s3 := rfl
  have h5 : s5 = cycleMoved s4 tick := rfl
  have h6 : (if s5.power.refLostHf && !refFault s5 then repeatClock s5 else s5) = clockRepeated s5 := rfl
  rw [h6, h5, h4, htick, h3, h2]

theorem idleCycle_off {s : State} (h : ¬(mainPower s = true ∧ s.power.pllLocked = true)) : idleCycle s = { s with clock := s.clock + 1 } := by
  have hgo : ¬(mainPower { s with clock := s.clock + 1 } && s.power.pllLocked) = true := by
    rw [Bool.and_eq_true]
    exact h
  unfold idleCycle
  extract_lets s1
  rw [if_neg hgo]

theorem timeless_lostReported (s : State) : Timeless s (lostReported s) :=
  (show Timeless s { s with ms := { s.ms with lost := [] } } from ⟨rfl, rfl⟩).trans
    (timeless_forEach (fun s w => (reported_eccEvent s w _ _).timeless) _)

theorem timeless_cycleMoved (s : State) (tick : Bool) : Timeless s (cycleMoved s tick) :=
  ((((timeless_cycleEnd s tick).trans (timeless_beatAdvance _)).trans (timeless_waitingJobs _)).trans (timeless_issueReads _ _)).trans
    (timeless_issueReads _ _)

/-- The idle cycle takes one cycle of the clock, and RTB counts where its sixteenth passes. -/
theorem idleCycle_time (s : State) : (idleCycle s).clock = s.clock + 1 ∧ (idleCycle s).power.rtb =
    if mainPower s = true ∧ s.power.pllLocked = true ∧ (s.clock + 1 + s.power.rtbPhase) % 16 = 0 then s.power.rtb + 1 else s.power.rtb := by
  by_cases hon : mainPower s = true ∧ s.power.pllLocked = true
  · obtain ⟨hpower, hlock⟩ := hon
    have hrest (t : State) : Timeless t (clockRepeated (cycleMoved (lostReported (transfersTicked t)) (endsTick t))) :=
      (((timeless_ite (timeless_sendTick t) (Timeless.refl t)).trans (timeless_lostReported _)).trans (timeless_cycleMoved _ _)).trans
        (timeless_ite (timeless_repeatClock _) (Timeless.refl _))
    obtain ⟨hclock, hrtb⟩ := hrest (rtbTicked { s with clock := s.clock + 1 })
    rw [idleCycle_on hpower hlock, hclock, hrtb]
    unfold rtbTicked
    by_cases hsixteenth : (s.clock + 1 + s.power.rtbPhase) % 16 = 0
    · rw [if_pos hsixteenth, if_pos ⟨hpower, hlock, hsixteenth⟩]
      exact ⟨rfl, rfl⟩
    · rw [if_neg hsixteenth, if_neg (fun h => hsixteenth h.2.2)]
      exact ⟨rfl, rfl⟩
  · rw [idleCycle_off hon, if_neg (fun h => hon ⟨h.1, h.2.1⟩)]
    exact ⟨rfl, rfl⟩

/-! ### Where nothing is under way -/

/-- Stack memory, owners, streams, the key engine, the record store, the page headers and the frozen masters. -/
def restView (s : State) := (s.mem, s.memKey, s.owners, s.streams, s.ke, s.store, s.hdrs, s.frozen)

/-- Nothing is under way that a cycle moves on: transfers, step headers, lost records, arrivals, closing blocks, a beat, waiting jobs, resuming
streams and a lost reference. -/
structure AtRest (s : State) : Prop where
  sending : s.ri.sending = []
  retime : s.ri.retime = []
  lost : s.ms.lost = []
  arriving : ∀ e ∈ s.cores, e.2.arriving = []
  closing : ∀ e ∈ s.cores, e.2.closing = []
  live : s.sq.live = none
  jobs : ∀ j ∈ s.jobs, j.phase ≠ 0
  streams : tblWf none s.streams = true
  resumed : ∀ j x, getStream s j = some x → x.state ≠ 8
  reference : s.power.refLostHf = false

/-- An entry of a changed array comes of one before. -/
theorem mem_tblMap {α : Type} [DecidableEq α] {d : α} {f : Nat → α → α} {t : Tbl α} {e : Nat × α} (h : e ∈ tblMap d f t) :
    ∃ b ∈ t, e = (b.1, f b.1 b.2) := by
  induction t with
  | nil => cases h
  | cons b t ih =>
    unfold tblMap at h
    split at h
    · obtain ⟨c, hc, he⟩ := ih h
      exact ⟨c, List.mem_cons_of_mem b hc, he⟩
    · rcases List.mem_cons.mp h with rfl | h
      · exact ⟨b, List.mem_cons_self, rfl⟩
      · obtain ⟨c, hc, he⟩ := ih h
        exact ⟨c, List.mem_cons_of_mem b hc, he⟩

theorem foldl_closing {α : Type} {f : Core → α → Core} (hf : ∀ k x, (f k x).closing = k.closing) (l : List α) (k : Core) :
    (l.foldl f k).closing = k.closing := by
  induction l generalizing k with
  | nil => rfl
  | cons x l ih => exact (ih _).trans (hf k x)

/-- The end of a cycle leaves the entry blocks that close. -/
theorem closing_nextCycle (k : Core) : k.fillSlots.nextCycle.closing = k.closing := by
  unfold Core.nextCycle
  extract_lets k1 k2
  have h1 : k1.closing = k.closing := foldl_closing (f := fun k (x : Nat × List Byte) => k.put x.1 x.2) (fun _ _ => rfl) _ _
  have h2 : k2.closing = k1.closing :=
    foldl_closing (f := fun k i => k.modSlot i (fun d => if d.valid then { d with count := (d.count + 1) % 65536 } else d)) (fun _ _ => rfl) _ _
  exact h2.trans h1

/-- With no transfer being sent a tick leaves everything. -/
theorem transfersTicked_rest {s : State} (h : s.ri.sending = []) : transfersTicked s = s := by
  have hri : { s.ri with sending := [] } = s.ri := by rw [← h]
  have htick : sendTick s = { s with ri := { s.ri with sending := [] } } := by
    unfold sendTick
    rw [h]
    rfl
  unfold transfersTicked
  rw [htick, hri]
  exact ite_self _

theorem lostReported_rest {s : State} (h : s.ms.lost = []) : lostReported s = s := by
  have hms : { s.ms with lost := [] } = s.ms := by rw [← h]
  unfold lostReported
  rw [h, hms]
  rfl

/-- With no arrival, no closing block and no header, the end of a cycle is the cores' own. -/
theorem cycleEnd_rest {s : State} (h : AtRest s) (tick : Bool) :
    cycleEnd s tick = { s with cores := tblMap {} (fun _ k => k.fillSlots.nextCycle) s.cores } := by
  have harriving : s.cores.filter (fun e => e.2.arriving != []) = [] := by
    rw [List.filter_eq_nil_iff]
    intro e he
    rw [h.arriving e he]
    decide
  have hclosing : (tblMap {} (fun _ k => k.fillSlots.nextCycle) s.cores).filter (fun e => e.2.closing != []) = [] := by
    rw [List.filter_eq_nil_iff]
    intro e he
    obtain ⟨b, hb, rfl⟩ := mem_tblMap he
    rw [closing_nextCycle, h.closing b hb]
    decide
  have hheaders (t : State) (ht : t.ri = s.ri) : takeHeaders t = t := by
    unfold takeHeaders
    rw [ht, h.retime]
    rfl
  unfold cycleEnd
  rw [harriving]
  extract_lets s1 s2 s3
  have h1 : s1 = s := rfl
  have h2 : s2 = { s with cores := tblMap {} (fun _ k => k.fillSlots.nextCycle) s.cores } := rfl
  have h3 : s3 = s2 := by
    have hnone : s2.cores.filter (fun e => e.2.closing != []) = [] := hclosing
    show (if tick then forEach ((s2.cores.filter (fun e => e.2.closing != [])).map (·.1)) closeBlocks s2 else s2) = s2
    rw [hnone]
    exact ite_self _
  rw [h3, h2]
  exact hheaders _ rfl

theorem beatAdvance_rest {s : State} (h : s.sq.live = none) : beatAdvance s = s := by
  unfold beatAdvance
  rw [h]

theorem waitingJobs_rest {s : State} (h : ∀ j ∈ s.jobs, j.phase ≠ 0) : waitingJobs s = s := by
  refine if_neg ?_
  rw [List.any_eq_true]
  rintro ⟨j, hj, hphase⟩
  exact h j hj (beq_iff_eq.mp hphase)

/-- A stream that no change alters stands. -/
theorem modStream_fixed {s : State} (hwf : tblWf none s.streams = true) {i : Nat} {f : Stream → Stream}
    (h : ∀ x, getStream s i = some x → f x = x) : modStream s i f = s := by
  have hsame : (getStream s i).map f = tblGet none s.streams i := by
    unfold getStream at h ⊢
    cases hx : tblGet none s.streams i with
    | none => rfl
    | some x => exact congrArg some (h x hx)
  unfold modStream setStream
  rw [hsame, tblSet_get_self hwf]

/-- Host reads go out for commands alone where no stream resumes; nothing but a port changes. -/
theorem issueReads_rest {s : State} (hwf : tblWf none s.streams = true) (hresumed : ∀ j x, getStream s j = some x → x.state ≠ 8)
    (port : Bool) : ∃ a b, issueReads s port = { s with hpA := a, hpB := b } := by
  have hmod (t : State) (f : Hp → Hp) : ∃ a b, modHp t port f = { t with hpA := a, hpB := b } := by
    cases port <;> exact ⟨_, _, rfl⟩
  have hcommands (l : List Fetched) (f : State → Fetched → State) (hf : ∀ t x, ∃ a b, f t x = { t with hpA := a, hpB := b }) (t : State) :
      ∃ a b, forEach l f t = { t with hpA := a, hpB := b } := by
    unfold forEach
    induction l generalizing t with
    | nil => exact ⟨_, _, rfl⟩
    | cons x l ih =>
      obtain ⟨a, b, hx⟩ := hf t x
      obtain ⟨c, d, hl⟩ := ih (f t x)
      refine ⟨c, d, ?_⟩
      rw [List.foldl_cons, hl, hx]
  unfold issueReads
  extract_lets s1
  have h1 : ∃ a b, s1 = { s with hpA := a, hpB := b } := hcommands _ _ (fun t x => by
    split
    · exact hmod t _
    · exact ⟨_, _, rfl⟩) s
  obtain ⟨a, b, h1⟩ := h1
  refine ⟨a, b, ?_⟩
  rw [h1]
  refine forEach_fixed _ (fun sid => modStream_fixed (s := { s with hpA := a, hpB := b }) hwf (fun x hx => if_neg ?_))
  exact fun hgo => hresumed sid x hx hgo.2.1

/-- A cycle with nothing under way leaves what rests as it was. -/
theorem cycleMoved_rest {s : State} (h : AtRest s) (tick : Bool) : ∃ a b, cycleMoved s tick =
    { s with cores := tblMap {} (fun _ k => k.fillSlots.nextCycle) s.cores, hpA := a, hpB := b } := by
  have hcycle := cycleEnd_rest h tick
  generalize tblMap {} (fun _ (k : Core) => k.fillSlots.nextCycle) s.cores = cs at hcycle ⊢
  obtain ⟨a, b, hfirst⟩ := issueReads_rest (s := { s with cores := cs }) h.streams h.resumed false
  obtain ⟨c, d, hsecond⟩ := issueReads_rest (s := { s with cores := cs, hpA := a, hpB := b }) h.streams h.resumed true
  refine ⟨c, d, ?_⟩
  unfold cycleMoved
  rw [hcycle, beatAdvance_rest (s := { s with cores := cs }) h.live, waitingJobs_rest (s := { s with cores := cs }) h.jobs, hfirst, hsecond]

theorem rtbTicked_power (s : State) : ∃ p, rtbTicked s = { s with power := p } ∧ p.refLostHf = s.power.refLostHf := by
  unfold rtbTicked
  split
  · exact ⟨_, rfl, rfl⟩
  · exact ⟨s.power, rfl, rfl⟩

/-- Where nothing is under way, the idle cycle moves the clock, RTB, the cores' own cycle and reads that go out. -/
theorem idleCycle_rest {s : State} (h : AtRest s) : restView (idleCycle s) = restView s := by
  by_cases hon : mainPower s = true ∧ s.power.pllLocked = true
  · obtain ⟨p, hticked, hreference⟩ := rtbTicked_power { s with clock := s.clock + 1 }
    have hrest : AtRest { s with clock := s.clock + 1, power := p } := { h with reference := hreference.trans h.reference }
    rw [idleCycle_on hon.1 hon.2, hticked, transfersTicked_rest hrest.sending, lostReported_rest hrest.lost]
    obtain ⟨a, b, hmoved⟩ := cycleMoved_rest hrest (endsTick { s with clock := s.clock + 1, power := p })
    rw [hmoved]
    unfold clockRepeated
    rw [if_neg (by rw [Bool.and_eq_true]; exact fun hgo => Bool.eq_false_iff.mp hrest.reference hgo.1)]
    rfl
  · rw [idleCycle_off hon]
    rfl

end Sys2Proof.Machine

open Sys2Proof Sys2Proof.Machine

/-- Settles O2: the clock and RTB by `Timeless`, which every part of the idle cycle keeps, and the rest by the cycle's parts having nothing to
do. -/
theorem emptyQueueTicks : Obligations.EmptyQueueTicks := by
  unfold Obligations.EmptyQueueTicks
  intro s hpending
  have hstep := step_of_pending_nil hpending
  obtain ⟨hclock, hrtb⟩ := idleCycle_time s
  refine ⟨idleCycle s, hstep, hclock, ?_, hrtb, fun hsending hretime hlost hcores hlive hjobs hstreams hresumed hreference => ?_⟩
  · rw [stepTakesTheFrontCommand s _ hstep, hpending]
    rfl
  · have hrest := idleCycle_rest (s := s)
      { sending := hsending, retime := hretime, lost := hlost, arriving := fun e he => (hcores e he).1
        closing := fun e he => (hcores e he).2, live := hlive, jobs := hjobs, streams := hstreams, resumed := hresumed
        reference := hreference }
    simpa only [restView, Prod.mk.injEq] using hrest
end
